-- ==== Sys2Proof/Word.lean ====
section
/-!
DEFINITION. The plain words of the UV-4410 model: bytes and 64-bit words, the completion statuses and
refusal reasons of R9 and R10, the block codes of R61, the service classes of R323 and who can ask for
something. Identifiers (ports, nodes, partitions, indices), sizes, counts and times are natural numbers;
bytes and register values are bit vectors.
-/
namespace Sys2Proof

abbrev Byte := BitVec 8
abbrev Word := BitVec 64

/-- R9: the 4-bit completion status. -/
inductive Status where
  | ok | partialDone | deferred | retry | refused | notPermitted | poison | domainDown
  | timeout | badRequest | faulted | faultedUnrecorded
deriving DecidableEq, Repr, Inhabited

/-- R9: the encoding of a status. -/
def Status.code : Status → Nat
  | .ok => 0x0 | .partialDone => 0x1 | .deferred => 0x2 | .retry => 0x3 | .refused => 0x4
  | .notPermitted => 0x5 | .poison => 0x6 | .domainDown => 0x7 | .timeout => 0x8
  | .badRequest => 0x9 | .faulted => 0xA | .faultedUnrecorded => 0xB

/-- R10: the reason of a REFUSED completion. -/
inductive Reason where
  | queueFull | energy | quota | notLocal | fenced | epochExhausted | preempted | capacity | state
deriving DecidableEq, Repr, Inhabited

/-- R10: the encoding of a reason. -/
def Reason.code : Reason → Nat
  | .queueFull => 1 | .energy => 2 | .quota => 3 | .notLocal => 4 | .fenced => 5
  | .epochExhausted => 6 | .preempted => 7 | .capacity => 8 | .state => 9

/-- A completion: its status, the reason of a REFUSED one (R10), the retry-after hint of a RETRY one in
ns (R9), its value or count field, a second value
(the GENERATION of a synchronisation completion, R69), and the data it carries back. -/
structure Cpl where
  status : Status := .ok
  reason : Option Reason := none
  hint   : Nat := 0
  value  : Nat := 0
  aux    : Nat := 0
  data   : List Byte := []
deriving DecidableEq, Repr, Inhabited

/-- Who asked for something, and so who its completion goes to. -/
inductive Requester where
  | none
  | mgmt (session tag roles : Nat)      -- a management session (R553, R556) and its roles (R554)
  | port (port node tag : Nat)          -- a message of a port (R461)
  | seq (m slot : Nat)                  -- a sequencer and its issue slot (R80)
  | sched (part entry : Nat)            -- a schedule action of a domain's table (R60)
  | devSched (entry : Nat)              -- the device schedule (R58)
  | roce (qp psn : Nat)                 -- a RoCE queue pair (R484)
  | block (code idx : Nat)              -- another block of the switch
  | partner (tag : Nat)                 -- the pair partner, over the pair link (R32)
deriving DecidableEq, Repr, Inhabited

/-- A coherent request that the partner forwards: the agent, its partition, and the line, as the partner translated
it, with the COMBINABLE and COMPRESS attributes and whether the agent is privileged. -/
structure FarReq where
  agent : Nat := 0
  part  : Nat := 0
  addr  : Nat := 0
  comb  : Bool := false
  compress : Bool := false
  priv  : Bool := false
deriving DecidableEq, Repr, Inhabited

/-- R464: a COH_REQ message: who sends it, its ASID and address, and its poison mark; or a forwarded one. -/
structure CohReq where
  who  : Requester := .none
  asid : Nat := 0
  va   : Nat := 0
  mark : Bool := false
  far  : Option FarReq := none
deriving DecidableEq, Repr, Inhabited

/-- A packet that enters Lattice (R414 to R420): its input and output attachments, its length, the slot it carries (for an
Ethernet frame its PCP decides, R416), the partition it carries where the input is not a port, its PCP, whether it is
ECN-capable, its sender, whether it is posted, its message class (R462, 0 for none), for a memory request of an XCL port its
data bytes, and its steering key on the pair link (R479). -/
structure PktIn where
  input  : Nat := 0
  output : Nat := 0
  len    : Nat := 0
  slot   : Nat := 7
  part   : Nat := 0
  pcp    : Option Nat := none
  ecn    : Bool := false
  who    : Requester := .none
  posted : Bool := false
  cls    : Nat := 0
  bytes  : Nat := 0
  steer  : Nat := 0
deriving DecidableEq, Repr, Inhabited

/-- R456: the KIND of a flit group; `other` is the reserved code. -/
inductive GroupKind where
  | data | null | plain | other
deriving DecidableEq, Repr, Inhabited

/-- A received flit group (R455 to R458): its header, its counter, the physical lanes of its codewords that FEC did not
correct, whether its CRC matches and its tag verifies, whether a header in it has a LEN above 4,105 (R463), and on a pair
port the (bucket, BSEQ) of the message it carries (R478). -/
structure GroupRx where
  kind   : GroupKind := .data
  seq    : Nat := 0
  ack    : Nat := 0
  nak    : Bool := false
  phase  : Bool := false
  ctrLow : Nat := 0
  badLanes : List Nat := []
  crcOk  : Bool := true
  tagOk  : Bool := true
  lenBad : Bool := false
  msg    : Option (Nat × Nat) := none
deriving DecidableEq, Repr, Inhabited

/-- R467: the body of LANE_REQ and LANE_ACK, but for the action; `map` is the physical lane of each position. -/
structure LaneMsg where
  pos    : Nat := 0
  width  : Nat := 0
  map    : List Nat := []
  spare0 : Nat := 0xF
  spare1 : Nat := 0xF
deriving DecidableEq, Repr, Inhabited

/-- What a tier's controller finds at an access (R146, R206, R207), or the completion the partner returns for a
forwarded request. -/
inductive TierOut where
  | good | corrected | uncorrectable | badFormat | checkRetry | badCheck | badTag | timeout
  | remote (c : Cpl)
deriving DecidableEq, Repr, Inhabited

/-- An access whose completion is reported: a memory request of Locus, or the transaction of a line at Vertex. -/
inductive AccId where
  | req (id : Nat)
  | line (l : Nat)
deriving DecidableEq, Repr, Inhabited

/-- Whose memory accesses, answered RETRY, have not been accepted within 20 µs (R113, R322). -/
inductive AccessOwner where
  | orbit | apex | centroid
  | locSync (part : Nat)
deriving DecidableEq, Repr, Inhabited

/-- R541, R604, R605: what INIT finds of the hardware: the blocks whose test does not pass (a mask by CSR window), the Prism frames
with errors, the DDR5 channels trained, the tray ports with a tray and the frames of this switch's half, and the lanes (port,
lane) that do not lock in loopback. -/
structure Hw where
  bistFail : Nat := 0
  prismBad : List Nat := []
  chans    : List Nat := []
  trays    : List (Nat × Nat) := []
  badLanes : List (Nat × Nat) := []
deriving DecidableEq, Repr, Inhabited

/-- R564: what can be retired and kept in the state area. -/
inductive Retired where
  | frame (tier n : Nat) | channel (c : Nat) | head (t : Nat) | tray (t : Nat) | lane (port lane : Nat)
deriving DecidableEq, Repr, Inhabited

/-- R551: the trigger of a pending swap. -/
inductive SwapTrig where
  | now | ft (t : Nat) | step (dom s : Nat)
deriving DecidableEq, Repr, Inhabited

/-- R323: the service classes, in the codes 0x0 to 0x4. -/
inductive SClass where
  | prompt | generation | revival | parkMove | background
deriving DecidableEq, Repr, Inhabited

def SClass.code : SClass → Nat
  | .prompt => 0 | .generation => 1 | .revival => 2 | .parkMove => 3 | .background => 4

/-- The sixteen blocks, by their CSR window number (00_scope, the sixteen subsystems). -/
inductive Block where
  | compass | perimeter | meridian | facet | edge | lattice | arc | vertex | locus | plane | fold
  | chord | cone | apex | orbit | centroid
deriving DecidableEq, Repr, Inhabited

def Block.code : Block → Nat
  | .compass => 0x0 | .perimeter => 0x1 | .meridian => 0x2 | .facet => 0x3 | .edge => 0x4
  | .lattice => 0x5 | .arc => 0x6 | .vertex => 0x7 | .locus => 0x8 | .plane => 0x9 | .fold => 0xA
  | .chord => 0xB | .cone => 0xC | .apex => 0xD | .orbit => 0xE | .centroid => 0xF

/-- R562: the device events. -/
inductive Ev where
  | cmpBoot | cmpSwap | cmpSwapRefused | cmpUpdate | cmpThermalWarn | cmpThrottle | cmpThermtrip
  | cmpEnergyOverdraw | cmpTelemetryLost | cmpNvmFault | cmpRoleConflict | cmpBlockReset
  | angleStalled | angleRestarting | angleWrapNear | ftOffsetLarge | cohDomainDown | foldPoison
  | plnRetired | prismDegraded | chdHierMismatch | orbLogLost | orbLogDiverge | arcUnfair
  | edgAuthFail | edgNoPeerKey | edgLaneRetired | edgWidthChanged | fctCalOverdue
  | perJoinRefused | perEpochFault | perEpochCorrupt | perStoreFull | perScrub
deriving DecidableEq, Repr, Inhabited

/-- R562: the code of a device event. -/
def Ev.code : Ev → Nat
  | .cmpBoot => 0x0001 | .cmpSwap => 0x0002 | .cmpSwapRefused => 0x0003 | .cmpUpdate => 0x0004
  | .cmpThermalWarn => 0x0005 | .cmpThrottle => 0x0006 | .cmpThermtrip => 0x0007
  | .cmpEnergyOverdraw => 0x0008 | .cmpTelemetryLost => 0x0009 | .cmpNvmFault => 0x000A
  | .cmpRoleConflict => 0x000B | .cmpBlockReset => 0x000C | .angleStalled => 0x0100
  | .angleRestarting => 0x0101 | .angleWrapNear => 0x0102 | .ftOffsetLarge => 0x0103
  | .cohDomainDown => 0x0200 | .foldPoison => 0x0300 | .plnRetired => 0x0400
  | .prismDegraded => 0x0401 | .chdHierMismatch => 0x0500 | .orbLogLost => 0x0600
  | .orbLogDiverge => 0x0601 | .arcUnfair => 0x0700 | .edgAuthFail => 0x0800
  | .edgNoPeerKey => 0x0801 | .edgLaneRetired => 0x0802 | .edgWidthChanged => 0x0803
  | .fctCalOverdue => 0x0804 | .perJoinRefused => 0x0900 | .perEpochFault => 0x0901
  | .perEpochCorrupt => 0x0902 | .perStoreFull => 0x0903 | .perScrub => 0x0904

/-- R561: the severity of a log entry. -/
inductive Sev where
  | info | warn | error | fatal
deriving DecidableEq, Repr, Inhabited

def Sev.code : Sev → Nat
  | .info => 0 | .warn => 1 | .error => 2 | .fatal => 3

/-- R562: the severity of a device event. -/
def Ev.sev : Ev → Sev
  | .cmpBoot | .cmpSwap | .cmpUpdate | .perScrub => .info
  | .cmpThermtrip | .cmpRoleConflict => .fatal
  | .cmpNvmFault | .angleRestarting | .cohDomainDown | .foldPoison | .chdHierMismatch
  | .orbLogLost | .edgAuthFail | .perJoinRefused | .perEpochFault | .perEpochCorrupt => .error
  | .cmpSwapRefused | .cmpThermalWarn | .cmpThrottle | .cmpEnergyOverdraw | .cmpTelemetryLost
  | .cmpBlockReset | .angleStalled | .angleWrapNear | .ftOffsetLarge | .plnRetired
  | .prismDegraded | .orbLogDiverge | .arcUnfair | .edgNoPeerKey | .edgLaneRetired
  | .edgWidthChanged | .fctCalOverdue | .perStoreFull => .warn

end Sys2Proof
end

