-- ==== Sys2Proof/Word/Image.lean ====
section
/-!
DEFINITION. The configuration image (R545, R546): its header as the ROM and Compass read it, and the contents
of its sections. What a section's bytes look like is given by the spec only for the formats named below (the
schedule words of R60, the instruction words of R79, the pre-cost rows of R648); the other sections are held
as the data they carry. Whether a signature or a digest verifies is part of what a stored image is.
-/
namespace Sys2Proof

/-- R648: a pre-cost row. -/
structure EnergyRow where
  block : Nat := 0
  op    : Nat := 0
  fixed : Nat := 0
  rates : List Nat := []
deriving DecidableEq, Repr, Inhabited

/-- The ENERGY_TABLE section (R546, R648). -/
structure EnergyTable where
  rows   : List EnergyRow := []
  fitted : Nat := 0
  base   : Int := 0
  capW   : Nat := 0xAF0
deriving DecidableEq, Repr, Inhabited

/-- R60: a partition's share of the schedule table: its first entry index and its entries, each four words. -/
structure DomSched where
  base    : Nat := 0
  entries : List (List Nat) := []
deriving DecidableEq, Repr, Inhabited

/-- What a device schedule entry does inside the switch (R58). -/
inductive DevAct where
  | calibrate (port pos : Nat)
  | rekey (port : Nat)
  | none
deriving DecidableEq, Repr, Inhabited

/-- R58: an entry of the device schedule: first trigger, period (0 for one occurrence) and action. -/
structure DevEntry where
  first  : Nat := 0
  period : Nat := 0
  act    : DevAct := .none
deriving DecidableEq, Repr, Inhabited

/-- R68: a synchronisation object as the image gives it. The mode is the code of R68. -/
structure ObjCfg where
  obj    : Nat := 0
  mode   : Nat := 0
  target : Nat := 0
  init   : Nat := 0
deriving DecidableEq, Repr, Inhabited

/-- R82: a sequencer's bank: its instructions and its entry points (none where not defined). -/
structure Program where
  seq     : Nat := 0
  code    : List Nat := []
  entries : List (Option Nat) := []
deriving DecidableEq, Repr, Inhabited

/-- R554: a trust anchor: its key and its role mask (bit 0 READ, 1 POWER, 2 ADMIN). -/
structure Anchor where
  key   : Nat := 0
  roles : Nat := 0
deriving DecidableEq, Repr, Inhabited

/-- R546: a section-table entry, with whether the section's bytes match the digest. -/
structure SecEntry where
  typ    : Nat := 0
  offset : Nat := 0
  length : Nat := 0
  zero   : Bool := true
  digest : Nat := 0
  digestOk : Bool := true
deriving DecidableEq, Repr, Inhabited

/-- R545: the header of an image and what surrounds it. `consistent` tells that the device's data reads the
same twice (R547 READ), `sigOk` that the owner's signature verifies under the key whose SHA-384 is
`ownerHash`, and `fwSigOk` that the FIRMWARE signature verifies. -/
structure ImgHeader where
  consistent : Bool := true
  magic    : Nat := 0
  format   : Nat := 0
  stepping : Nat := 0
  role     : Nat := 0
  svn      : Nat := 0
  length   : Nat := 0
  nsec     : Nat := 0
  zero     : Bool := true
  imageId  : Nat := 0
  ownerHash : Nat := 0
  sigOk    : Bool := false
  fwSigOk  : Bool := false
  sections : List SecEntry := []
deriving DecidableEq, Repr, Inhabited

/-- R518: a partition's record in the COMPOSITION section. Ranges are (first, count). -/
structure PartRec where
  part   : Nat := 0
  objs   : List (Nat × Nat) := []
  waiterQuota : Nat := 0
  seqs   : List Nat := []
  rsvCells : Nat := 0
  pool     : List (Nat × Nat) := []       -- spans of pool pages (R127)
  prismFrames : Nat := 0
  ddrFrames   : Nat := 0
  trayFrames  : Nat := 0
  partnerDdr  : Nat := 0                  -- the partition's ranges on the partner
  partnerTray : Nat := 0
  mirror   : Option Nat := none           -- LOC_MIRROR_BASE (R108)
  ctxBase  : Nat := 0
  ctxCount : Nat := 0
  fqBase   : Nat := 0
  fqSize   : Nat := 0
  wayMask  : Nat := 0
  walkQuota : Nat := 0
  planeShare  : List Nat := [0, 0, 0, 0]  -- R137
  vertexShare : List Nat := [0, 0, 0, 0]
  vtxWayMask  : Nat := 0
  trackerRsv  : Nat := 0
deriving DecidableEq, Repr, Inhabited

/-- R508: a group region: its range of pool pages, the partitions that read it, and the one that fills it. -/
structure GroupRec where
  g       : Nat := 0
  first   : Nat := 0
  count   : Nat := 0
  readers : List Nat := []
  filler  : Nat := 0
deriving DecidableEq, Repr, Inhabited

/-- R87: a node table entry. -/
structure NodeEntry where
  node : Nat := 0
  port : Nat := 0
  sub  : Nat := 0
  part : Nat := 0
deriving DecidableEq, Repr, Inhabited

/-- R490: a port's mode. -/
inductive PortMode where
  | unused | xcl | eth | pair
deriving DecidableEq, Repr, Inhabited

/-- A port as the COMPOSITION and PEER_KEYS sections give it (R87, R158, R450, R451, R465, R510). `gang` is the lower port
of a gang, `peer` the tag of the identity public key that its peer must hold (R501). -/
structure PortCfg where
  port  : Nat := 0
  mode  : PortMode := .unused
  part  : Option Nat := none
  priv  : Bool := false
  coherent : Bool := false
  translating : Bool := false
  gang  : Option Nat := none
  peer  : Option Nat := none
deriving DecidableEq, Repr, Inhabited

/-- R466: an entry of the forwarding table. -/
structure EthFwd where
  mac  : Nat := 0
  vlan : Option Nat := none
  part : Nat := 0
  port : Nat := 0
deriving DecidableEq, Repr, Inhabited

/-- R484, R495: a queue pair; a WINDOW one binds a range, an ASID and an R_Key, a CHORD one a peer entry. -/
structure QpCfg where
  qp    : Nat := 0
  window : Bool := false
  part  : Nat := 0
  port  : Nat := 0
  qpn   : Nat := 0
  remoteQpn : Nat := 0
  base  : Nat := 0
  limit : Nat := 0
  asid  : Nat := 0
  rkey  : Nat := 0
  ackTmo : Nat := 0
  pmtu4k : Bool := false
deriving DecidableEq, Repr, Inhabited

/-- R257: a Cone engine group: its number, partition and engines. -/
structure ConeGroup where
  g     : Nat := 0
  part  : Nat := 0
  engines : List Nat := []
deriving DecidableEq, Repr, Inhabited

/-- R241, R253: a peer entry of Chord's hierarchical reductions. -/
structure ChdPeer where
  idx   : Nat := 0
  part  : Nat := 0
  engine : Nat := 0
  port  : Nat := 0
  qpn   : Nat := 0
deriving DecidableEq, Repr, Inhabited

/-- R291, R295, R324, R336 to R339: a partition's part of Orbit's configuration. -/
structure OrbPart where
  part  : Nat := 0
  base  : Nat := 0
  count : Nat := 0
  asid  : Nat := 0
  logSeg : Nat := 0
  spans : List (Nat × Nat) := []
  hotIdleMs : Nat := 0
  warmIdleS : Nat := 0
  hotMax : Nat := 0
  quantumKib : Nat := 0
  pfPages : Nat := 0
deriving DecidableEq, Repr, Inhabited

/-- R344: an accelerator group. -/
structure OrbGroup where
  g     : Nat := 0
  part  : Nat := 0
  roleB : Bool := false
deriving DecidableEq, Repr, Inhabited

/-- R347, R354, R374, R375: a partition's part of Apex's configuration. -/
structure ApxPart where
  part  : Nat := 0
  base  : Nat := 0
  count : Nat := 0
  asid  : Nat := 0
  slotQuota  : Nat := 0
  quantumKib : Nat := 0
deriving DecidableEq, Repr, Inhabited

/-- R382, R409: a partition's part of Centroid's configuration. -/
structure CenPart where
  part  : Nat := 0
  base  : Nat := 0
  count : Nat := 0
  asid  : Nat := 0
deriving DecidableEq, Repr, Inhabited

/-- R415, R441: an entry of Arc's flow table. -/
structure FlowCfg where
  n       : Nat := 0
  attach  : Nat := 0
  part    : Nat := 0
  slot    : Nat := 0
  quantum : Nat := 32
  overhead : Int := 0
  police  : Bool := false
  hold    : Bool := false
  audit   : Bool := false
  auditOut : Nat := 0
  cir     : Nat := 0
  pir     : Nat := 0
  cbs     : Nat := 0
  pbs     : Nat := 0
  entitle : Nat := 0
  qmax    : Nat := 0
deriving DecidableEq, Repr, Inhabited

/-- R423, R444: a shaper of an (output, partition) pair. -/
structure Shaper where
  attach : Nat := 0
  part   : Nat := 0
  rate   : Nat := 0
  burst  : Nat := 0
  en     : Bool := false
deriving DecidableEq, Repr, Inhabited

/-- R431, R445: an Ethernet port's flow control: MODE 0 none, 1 PAUSE, 2 PFC. -/
structure EthCfg where
  port  : Nat := 0
  mode  : Nat := 0
  pfcEn : Nat := 0
  tcmap : Nat := 0
  defaultPcp : Nat := 0
  xoffKib : Nat := 0
  xonKib  : Nat := 0
deriving DecidableEq, Repr, Inhabited

/-- The configuration fields of RW registers that are loaded from the image at boot and at each swap (R335, R372, R438,
R439), by section: FLOW_TABLE and POLICY. -/
structure RegCfg where
  fairTol : Nat := 0x051F
  auditEn : Bool := true
  starve  : List Nat := [0x32, 0xC8, 0x3E8, 0x1388]
  deferNs : Nat := 0x4E20
  sampleTmo : Nat := 0x64
deriving DecidableEq, Repr, Inhabited

/-- A configuration image (R545, R546). -/
structure Image where
  hdr      : ImgHeader := {}
  parts    : List PartRec := []
  groupRegs : List GroupRec := []
  nodes    : List NodeEntry := []
  partnerNodes : List NodeEntry := []
  scheds   : List (Nat × DomSched) := []
  devSched : List DevEntry := []
  objs     : List ObjCfg := []
  programs : List Program := []
  energy   : EnergyTable := {}
  trust    : Option (List Anchor) := none
  ports    : List PortCfg := []
  partnerPorts : List PortCfg := []
  chdPeers : List ChdPeer := []
  coneGroups : List ConeGroup := []
  orbParts : List OrbPart := []
  orbGroups : List OrbGroup := []
  apxParts : List ApxPart := []
  cenParts : List CenPart := []
  flows    : List FlowCfg := []
  quanta   : List (Nat × List Nat) := []      -- R443: a partition's quanta in KiB, PROMPT to BACKGROUND
  shapers  : List Shaper := []
  ethCfg   : List EthCfg := []
  partnerKey : Nat := 1                       -- R510: the tag of the partner's identity
  linkCredits : List Nat := [0, 33, 33, 2, 2, 1, 2, 2, 1, 514, 1, 1, 1, 73, 33]   -- R469, by message class
  ethMacs  : List Nat := []
  ethFwd   : List EthFwd := []
  qps      : List QpCfg := []
  regCfg   : RegCfg := {}
deriving DecidableEq, Repr, Inhabited

end Sys2Proof
end

