-- ==== Sys2Proof/Word/Mirror.lean ====
section
/-!
DEFINITION. What the two switches of a pair tell each other (R33): the mirrored pieces of state, and the
changes that wait for the partner's acknowledgement.
-/
namespace Sys2Proof

/-- R68: the mode of a synchronisation object. -/
inductive ObjMode where
  | unused | counter | barrier | semaphore
deriving DecidableEq, Repr, Inhabited

def ObjMode.code : ObjMode → Nat
  | .unused => 0 | .counter => 1 | .barrier => 2 | .semaphore => 3

/-- What a snapshot keeps of an object: its mode, VALUE and GENERATION (R44, R75). -/
structure ObjSnap where
  mode  : ObjMode := .unused
  value : Nat := 0
  gen   : Nat := 0
deriving DecidableEq, Repr, Inhabited

/-- A step snapshot (R44): its step, the objects of the partition, and the domain Angle just before the
advance that took it (P of R48 step 5; none for the snapshot of boot, a scrub or a REBASE). -/
structure Snapshot where
  step   : Nat := 0
  objs   : List (Nat × ObjSnap) := []
  before : Option Nat := none
deriving DecidableEq, Repr, Inhabited

/-- R126: the tiers. -/
inductive Tier where
  | prism | ddr | tray
deriving DecidableEq, Repr, Inhabited

def Tier.code : Tier → Nat
  | .prism => 0 | .ddr => 1 | .tray => 2

/-- A frame: its tier and number. A DDR5 frame's number is channel × 65,536 + index; a tray frame's is
tray × 1,048,576 + half × 524,288 + index, half 0 being role A's; `far` marks a frame of the partner's own Prism
or DDR5. -/
structure Frame where
  tier : Tier := .prism
  n    : Nat := 0
  far  : Bool := false
deriving DecidableEq, Repr, Inhabited

/-- R130: a page's state. -/
inductive PgState where
  | zero | resident | promoted | migrating
deriving DecidableEq, Repr, Inhabited

/-- R135: the placement hints. -/
inductive PHint where
  | homeTier | preferPrism | pinPrism | preferDdr | preferTray
deriving DecidableEq, Repr, Inhabited

/-- R130: a page map entry: its state, frame, origin frame of a promoted page, destination of a migrating one,
DIRTY mark and hint. -/
structure PageEnt where
  st     : PgState := .zero
  frame  : Frame := {}
  origin : Option Frame := none
  dst    : Option Frame := none
  dirty  : Bool := false
  hint   : PHint := .homeTier
deriving DecidableEq, Repr, Inhabited

/-- R300: a session's state. -/
inductive SessState where
  | free | parked | reviving | attached | parking | moving | closing
deriving DecidableEq, Repr, Inhabited

def SessState.code : SessState → Nat
  | .free => 0 | .parked => 1 | .reviving => 2 | .attached => 3 | .parking => 4 | .moving => 5 | .closing => 6

/-- R292: a depth. -/
inductive Depth where
  | hot | warm | cold
deriving DecidableEq, Repr, Inhabited

def Depth.code : Depth → Nat
  | .hot => 0 | .warm => 1 | .cold => 2

/-- R292: a session descriptor. `chunks` and `recChunks` are the chunks of its log and records in order, whose first and
last the descriptor shows as HEAD and TAIL; `pages` the pool pages that back it, from page 0 upward. -/
structure Sess where
  st      : SessState := .free
  depth   : Depth := .hot
  tray    : Bool := false
  demote  : Bool := false
  pin     : Bool := false
  part    : Nat := 0
  gen     : Nat := 0
  seg     : Nat := 0
  target  : Depth := .hot
  held    : Bool := false
  slot    : Option Nat := none
  group   : Option Nat := none
  win     : Nat := 0
  refs    : Nat := 0
  resultSeen : Bool := false
  logLen  : Nat := 0
  kvLen   : Nat := 0
  chunks  : List Nat := []
  recChunks : List Nat := []
  recCount : Nat := 0
  pages   : List Nat := []
  openFt  : Nat := 0
  changeFt : Nat := 0
  parkStep : Nat := 0
  callId  : Nat := 0
  user    : Nat := 0
deriving DecidableEq, Repr, Inhabited

/-- R33: a mirrored piece of state, as an UPDATE carries it. A session's update may end a command that was forwarded
to its owner (R290), with its outcome. Also what the switches tell each other of themselves (R56, R503, R505): whether
the sender runs and since when, and whether it holds a pool, has founded it, and its POOL_GEN; and of the pool they
share (R504, R519): group generations and scrubs. -/
inductive Mirror where
  | snapshot (dom : Nat) (angle : Nat) (snap : Snapshot)
  | restarted (dom : Nat) (angle : Nat) (snap : Snapshot)
  | page (p : Nat) (e : PageEnt)
  | sess (num : Nat) (d : Sess) (done : Option Cpl)
  | time (ft : Nat) (everLocked : Bool) (step : Bool)
  | partner (running : Bool) (since : Nat) (pool founded : Bool) (poolGen : Nat)
  | ggen (g v : Nat)
  | scrub (part : Nat) (ddr force : Bool)
deriving DecidableEq, Repr, Inhabited

/-- What takes effect when the partner acknowledges a mirrored change (R33, R34). -/
inductive MirAct where
  | none
  | commit (dom step : Nat)
  | mapEntry (p : Nat) (e : PageEnt)
  | hint (p : Nat) (h : PHint)
  | switchover (p : Nat)
  | orbit (id : Nat)
  | ggen (g : Nat)
  | scrub (part : Nat)
deriving DecidableEq, Repr, Inhabited

/-- A block as its new holder reads it: its number in the pool, its 512 bytes, PMASK and BPOISON, and whether it is stored
compressed. -/
structure BlkIn where
  b       : Nat := 0
  bytes   : List Byte := []
  pmask   : Nat := 0
  bpoison : Bool := false
  compress : Bool := false
deriving DecidableEq, Repr, Inhabited

/-- R504: the steps of a join: asked of the holder, with the digests of the joiner's firmware and composition and its role;
granted to the joiner, with POOL_GEN, DEBUG, tenancies, group generations, the holder's time and EVER_LOCKED, and whether
and since when it runs; or refused, for the pair role or not (R608). -/
inductive JoinMsg where
  | asked (firmware composition : Nat) (roleB : Bool)
  | granted (poolGen : Nat) (debug : Bool) (tenancies ggens : List (Nat × Nat)) (ft : Nat) (everLocked run : Bool) (since : Nat)
  | refused (forRole : Bool)
deriving DecidableEq, Repr, Inhabited

end Sys2Proof
end

