-- ==== Sys2Proof/Syntax.lean ====
section
/-!
DEFINITION. The commands of the UV-4410: one constructor for each row of the table, in its order, with the operands that
what the row names leaves to the world outside (who asks, what a message or a device brings, what the hardware finds).
-/
namespace Sys2Proof

/-- What can be done to the switch from outside, or can happen in it next. -/
inductive Instr where
  -- Power, boot, pins, time, energy and log
  /-- R541: Release of PORST_N with all PWR_GOOD inputs asserted starts the boot sequence in ROM. -/
  | porstNRelease (pgCmp pgCore pgAux : Bool) (temp : Int)
  /-- R634: Assertion of PORST_N resets the whole switch, the island included. -/
  | porstNAssert
  /-- R628: A PORST_N release held internally proceeds once every PWR_GOOD input has risen. -/
  | pwrGoodHoldRelease
  /-- R547: The read of an image from NVM finishes and the image is verified, or it is refused with its cause and the next image or RECOVERY follows. -/
  | imageLoadDone (hw : Hw)
  /-- R541: INIT completes and the switch enters RUNNING and asserts PAIR_ALIVE_OUT. -/
  | initComplete
  /-- R541: INIT is not complete within 30 s and the switch enters HALTED. -/
  | initTimeout
  /-- R543: Assertion of WARM_RST_N resets every block but Compass and reruns INIT from the active set. -/
  | warmRstN (hw : Hw)
  /-- R629: PWR_GOOD_CORE or PWR_GOOD_AUX deasserts: blocks are held in reset, PAIR_ALIVE_OUT falls, LOSS is set and Compass enters HALTED. -/
  | powerLoss (core aux : Bool)
  /-- R560: The hardware comparator reaches TRIP_C, latches THERMTRIP_N, deasserts PAIR_ALIVE_OUT, logs, flushes and enters HALTED. -/
  | thermalTrip (sensor : Nat) (value : Int)
  /-- R559: A periodic sensor or regulator sample is taken and compared with the WARN and THROTTLE thresholds. -/
  | sensorSample (sensor : Nat) (value : Int)
  /-- R592: Compass's 100 ms processor watchdog expires and the processor alone restarts from its boot ROM. -/
  | compassWatchdogExpire
  /-- R53: An optical reference fails: fabric time continues from the other reference or holds over, and the ports served go down. -/
  | optRefclkFail (k : Nat)
  /-- R53: A failed optical reference becomes stable again and fabric time returns to it or slews out its lag. -/
  | optRefclkRestore (k lag : Nat)
  /-- R642: A PCIe reference fails and every common-clock tray port it serves goes down. -/
  | pcieRefclkFail (k : Nat) (cc : List Nat)
  /-- R54: A PTP message is received and fabric time is disciplined by it. -/
  | ptpMessageRx (viaPort : Option Nat) (domain : Nat) (layer2 : Bool) (offset : Int)
  /-- R54: An edge on PPS_IN supplies the phase of fabric time when PPS_IN_EN is set. -/
  | ppsInEdge
  /-- R57: Fabric time crosses a whole second and PPS_OUT rises. -/
  | ppsOutRise
  /-- R59: A write of MER_FT_CFG is checked for an Ethernet-mode port and applied or completes BAD_REQUEST. -/
  | ftCfgWrite (who : Requester) (v : Nat)
  /-- R569: At each 1 ms boundary of fabric time the account is settled and the next epoch opened with its repayment and clock factor. -/
  | energyEpochEnd
  /-- R570: Half of the pause time sent has elapsed on a port and the energy pause message is sent again. -/
  | energyPauseRefresh (p : Nat)
  /-- R565: The rack controller writes a budget in watts over PMBus command 0xD0, effective at the next epoch. -/
  | pmbusBudgetWrite (v : Nat)
  /-- R564: The 1 s flush timer expires and unflushed log entries are written to both NVM devices. -/
  | logFlushPeriodic
  -- Management commands
  /-- R556: Management command: up to 512 consecutive 64-bit CSR reads. -/
  | csrRead (who : Requester) (off count : Nat)
  /-- R556: Management command: one 64-bit CSR write. -/
  | csrWrite (who : Requester) (off : Nat) (v : Word)
  /-- R556: Management command: return log entries from a given SEQ. -/
  | logRead (who : Requester) (q : Nat)
  /-- R564: Management command: flush every preceding log entry to NVM. -/
  | logFlush (who : Requester)
  /-- R559: Management command: return up to 256 sensor values. -/
  | sensorRead (who : Requester) (ks : List Nat)
  /-- R571: Management command: return the energy epoch history. -/
  | energyRead (who : Requester)
  /-- R565: Management command: set CAP_W, clipped to 500-2,800 W, from the next epoch. -/
  | budgetSet (who : Requester) (w : Nat)
  /-- R549: Management command: load a chunk of a shadow image, verifying it when LAST is set. -/
  | shadowLoad (who : Requester) (off len : Nat) (last : Bool) (img : Image)
  /-- R549: Management command: load the shadow set from NVM slot A or B and verify it. -/
  | shadowFromNvm (who : Requester) (slotB : Bool)
  /-- R551: Management command: arm a swap of the verified shadow set with a NOW, FT or STEP trigger. -/
  | swap (who : Requester) (trig : SwapTrig)
  /-- R551: Management command: withdraw the pending swap. -/
  | swapCancel (who : Requester)
  /-- R552: The swap trigger is reached and the swappable sections take effect in one cycle, or the swap is refused STATE. -/
  | swapTrigger
  /-- R557: Management command: start an update of one image slot and erase it. -/
  | updateBegin (who : Requester) (slotB : Bool) (len : Nat)
  /-- R557: The sector erase of the slot being updated finishes. -/
  | updateEraseDone
  /-- R557: Management command: write up to 64 KiB into the slot being updated. -/
  | updateData (who : Requester) (off len : Nat)
  /-- R557: Management command: read back and verify the updated slot, reporting CMP_UPDATE or erasing its header. -/
  | updateCommit (who : Requester) (img : Image)
  /-- R558: Management command: blow rollback fuses up to a new count. -/
  | rollbackAdvance (who : Requester) (v : Nat)
  /-- R548: Management command: fuse the hash of the owner public key once. -/
  | ownerSet (who : Requester) (keyHash : Nat)
  /-- R556: Management command: reset the switch and boot from image A, or from image B only. -/
  | reboot (who : Requester) (onlyB : Bool)
  /-- R587: Management command: fence and reset one block of code 0x7-0xF. -/
  | blockReset (who : Requester) (b : Block)
  /-- R587: 10 us after a fence, held requests have completed and the block's working state is cleared. -/
  | blockFenceDrainEnd (b : Block)
  /-- R587: A fenced block leaves the fence, clears FENCED, accepts requests and reports CMP_BLOCK_RESET. -/
  | blockFenceExit (b : Block)
  /-- R586: A block with accepted requests makes no progress for BLOCK_WDT_US, and is reset or reported. -/
  | blockWatchdogExpire (b : Block)
  /-- R148: Management command: clear a retirement after a part is replaced. -/
  | retireClear (who : Requester) (r : Retired)
  /-- R475: Management command: retire a lane. -/
  | laneRetire (who : Requester) (p l : Nat)
  /-- R509: Management command: copy blocks from the FILLER partition into a group region under the group's keys. -/
  | groupFill (who : Requester) (g src dst bytes : Nat)
  /-- R508: Management command: return a group's pages to ZERO on both switches and advance GGEN_g. -/
  | groupZero (who : Requester) (g : Nat)
  /-- R517: Management command: free an epoch-store peer record that no active peer key names. -/
  | epochClear (who : Requester) (r : Nat)
  /-- R526: Management command: return a 16 B challenge for debug unlock. -/
  | debugChallenge (who : Requester)
  /-- R526: Management command: verify a debug token, scrub every partition, found a new DEBUG pool and open the scopes. -/
  | debugUnlock (who : Requester) (keyOk sigOk magicOk : Bool) (scope identity challenge : Nat)
  -- SPDM, sessions and register accesses
  /-- R523: SPDM request GET_VERSION answered by Compass. -/
  | spdmGetVersion (who : Requester)
  /-- R523: SPDM request GET_CAPABILITIES answered by Compass. -/
  | spdmGetCapabilities (who : Requester)
  /-- R523: SPDM request NEGOTIATE_ALGORITHMS answered by Compass. -/
  | spdmNegotiateAlgorithms (who : Requester)
  /-- R523: SPDM request GET_DIGESTS answered by Compass. -/
  | spdmGetDigests (who : Requester)
  /-- R523: SPDM request GET_CERTIFICATE returns the slot 0 device chain. -/
  | spdmGetCertificate (who : Requester) (slot off len : Nat)
  /-- R523: SPDM request CHALLENGE answered with a signature by the identity key. -/
  | spdmChallenge (who : Requester) (slot : Nat) (nonce : List Byte)
  /-- R524: SPDM request GET_MEASUREMENTS returns the signed measurement blocks. -/
  | spdmGetMeasurements (who : Requester) (index : Nat) (nonce : List Byte)
  /-- R553: A management TLS session idle for 600 s is closed. -/
  | mgmtSessionIdleClose (k : Nat)
  /-- R644: A write to a register field that has no row of its own, checked for access and applied. -/
  | registerWrite (who : Requester) (asid off : Nat) (v : Word)
  /-- R89: An XCL CSR_RD message is checked for privilege and offset and the register is read. -/
  | csrRd (who : Requester) (off : Nat)
  /-- R25: A write of 1 to MIN_RELOAD loads MIN_FREE_CELLS with FREE_CELLS. -/
  | minReload (who : Requester)
  /-- R47: A write of ANGLE_STALL_NS takes effect at once and may put the domain into STALLED. -/
  | stallCfgWrite (who : Requester) (n v : Nat)
  -- Angle domains and schedules
  /-- R52: MER_DOM_CTL command 0x0 completes OK and does nothing. -/
  | domCtlNone (who : Requester) (n : Nat)
  /-- R47: HOLD command puts a RUNNING or STALLED domain into HELD. -/
  | domHold (who : Requester) (n : Nat)
  /-- R47: RELEASE command returns a HELD domain to RUNNING, applying any pending advance. -/
  | domRelease (who : Requester) (n : Nat)
  /-- R48: RESTART command puts the domain into RESTARTING to return it to COMMIT_STEP.0.0. -/
  | domRestart (who : Requester) (n : Nat)
  /-- R48: The restart steps are done, the domain enters RUNNING or IDLE and the objects are sent to the partner. -/
  | restartDone (n : Nat)
  /-- R50: REBASE command sets a HELD domain's Angle and sources to 0.0.0 and snapshots the objects. -/
  | domRebase (who : Requester) (n : Nat)
  /-- R40: SOURCE_ADD registers an endpoint node as a source of the domain. -/
  | sourceAdd (who : Requester) (n node : Nat)
  /-- R40: SOURCE_REMOVE removes a source, possibly raising the domain Angle or making it IDLE. -/
  | sourceRemove (who : Requester) (n node : Nat)
  /-- R41: A source reports its position in an ANGLE_ADVANCE message. -/
  | angleAdvance (p node a : Nat)
  /-- R47: ANGLE_STALL_NS elapses without an accepted advance and the domain enters STALLED. -/
  | angleStallTimeout (n : Nat)
  /-- R62: Fabric time reaches the trigger of an armed fabric-time schedule occurrence and it fires. -/
  | ftOccurrenceFire
  /-- R64: A due schedule action is dispatched to its target, one every 2 Lattice cycles. -/
  | scheduleActionDispatch (n : Nat)
  /-- R65: A schedule action answered RETRY is presented again after its hint. -/
  | actionRepresent (n : Nat)
  -- Synchronisation objects
  /-- R70: Synchronisation operation READ returns the object's value. -/
  | syncRead (who : Requester) (i : Nat) (gen : Option Nat)
  /-- R70: Synchronisation operation ADD adds the operand to a COUNTER. -/
  | syncAdd (who : Requester) (i operand : Nat) (gen : Option Nat)
  /-- R70: Synchronisation operation ARRIVE adds arrivals to a BARRIER. -/
  | arrive (who : Requester) (i operand : Nat) (gen : Option Nat)
  /-- R73: Synchronisation operation ACQUIRE takes semaphore units or waits in arrival order. -/
  | acquire (who : Requester) (i operand : Nat) (gen : Option Nat) (tmo : Nat)
  /-- R70: Synchronisation operation TRY_ACQUIRE takes units or is refused STATE. -/
  | tryAcquire (who : Requester) (i operand : Nat) (gen : Option Nat)
  /-- R70: Synchronisation operation RELEASE adds semaphore units and grants pending acquires. -/
  | syncRelease (who : Requester) (i operand : Nat) (gen : Option Nat)
  /-- R70: Synchronisation operation WAIT_GE waits until VALUE is at least the operand. -/
  | waitGe (who : Requester) (i operand : Nat) (gen : Option Nat) (tmo : Nat)
  /-- R70: Synchronisation operation WAIT_EQ waits until VALUE equals the operand. -/
  | waitEq (who : Requester) (i operand : Nat) (gen : Option Nat) (tmo : Nat)
  /-- R70: Synchronisation operation WAIT_GEN waits until GENERATION exceeds the operand. -/
  | waitGen (who : Requester) (i operand : Nat) (gen : Option Nat) (tmo : Nat)
  /-- R70: Synchronisation operation SET writes VALUE, advances GENERATION and ends pending waits with RETRY. -/
  | syncSet (who : Requester) (i operand : Nat) (gen : Option Nat)
  /-- R72: The TMO limit of a pending wait or acquire expires and it completes TIMEOUT. -/
  | syncWaitTimeout (i : Nat)
  -- Olvin sequencers
  /-- R78: A START action queues a program start on a sequencer, or is refused QUEUE_FULL. -/
  | sequencerStart (who : Requester) (m entry asid dbase : Nat)
  /-- R78: An idle sequencer starts a program for the next queued block command, with its descriptor in D0. -/
  | blockCmdPresent (b : Block) (q : Nat)
  /-- R79: Instruction HALT ends the program, and any queued start begins. -/
  | halt (m : Nat)
  /-- R80: Instruction DFETCH reads descriptor bytes into a buffer through Locus and waits. -/
  | dfetch (m : Nat)
  /-- R80: The DFETCH read completes, ST takes its outcome and the program continues. -/
  | dfetchDataReturn (m : Nat)
  /-- R80: Instruction LOOP runs its body COUNT times over a loop counter. -/
  | loop (m : Nat)
  /-- R80: Instruction WAITSYNC waits for a condition on a synchronisation object. -/
  | waitsync (m : Nat)
  /-- R80: Instruction WAITANG waits until the domain Angle reaches its target. -/
  | waitang (m : Nat)
  /-- R72: The TMO of a WAITSYNC or WAITANG expires and ST is set to TIMEOUT. -/
  | seqWaitTimeout (m : Nat)
  /-- R80: Instruction ISSUE sends a descriptor buffer to a datapath input of the sequencer's block. -/
  | issue (m : Nat)
  /-- R80: An outstanding issue completes, recording its outcome in ST or ACC. -/
  | issueComplete (m slot : Nat)
  /-- R80: Instruction SIGNAL waits for earlier issues and then performs ADD, ARRIVE, RELEASE or SET. -/
  | signal (m : Nat)
  /-- R80: Instruction BRST tests ST, ACC or nothing and branches. -/
  | brst (m : Nat)
  -- Arc and Lattice
  /-- R420: A packet entering Lattice is classified into a flow, policed and admitted, refused or dropped. -/
  | packetAdmit (p : PktIn)
  /-- R24: A packet held at an engine attachment for want of a cell proceeds when a cell frees. -/
  | attachmentHoldRelease (a : Nat)
  /-- R419: A packet held red under HOLD is admitted once the buckets admit it. -/
  | redHoldRelease (a : Nat)
  /-- R421: An output's scheduler chooses and sends the next packet by tier, deficit round robin, shaper and age. -/
  | outputDequeue (o : Nat)
  /-- R424: A queue's starvation timer reaches its limit and the queue is promoted once to URGENT. -/
  | starvationPromote (b : Block) (u n k : Nat)
  /-- R432: An IEEE 802.3 PAUSE frame received on an Ethernet port pauses or resumes the port. -/
  | pauseFrameRx (p time : Nat)
  /-- R432: A PFC frame received on an Ethernet port pauses or resumes the named priorities. -/
  | pfcFrameRx (p mask : Nat) (times : List Nat)
  /-- R432: A received pause time runs out and the paused port, priority or class resumes. -/
  | pauseExpire (p k : Nat)
  /-- R433: Half the time sent elapses while XOFF holds and the flow-control frame is sent again. -/
  | fcRefresh (p prio : Nat)
  /-- R437: ARC_MON_CTL FREEZE stops updating every capture of the partition in one cycle. -/
  | freeze (who : Requester) (n : Nat)
  /-- R437: ARC_MON_CTL THAW resumes the partition's monitor captures. -/
  | thaw (who : Requester) (n : Nat)
  /-- R437: ARC_MON_CTL CLEAR zeroes the partition's captures and sets MIN_DEPTH to all-ones. -/
  | monClear (who : Requester) (n : Nat)
  -- Memory requests and Locus
  /-- R28: A MEM_REQ RD message is translated, routed and read through the memory pipeline. -/
  | memRd (who : Requester) (asid va len : Nat) (phys : Bool) (cls : SClass)
  /-- R28: A MEM_REQ WR message is translated, routed and written through the memory pipeline. -/
  | memWr (who : Requester) (asid va : Nat) (data : List Byte) (phys mark : Bool) (cls : SClass)
  /-- R28: A MEM_REQ WR_POSTED message is written with no completion, or dropped. -/
  | wrPosted (who : Requester) (asid va : Nat) (data : List Byte) (phys mark : Bool) (cls : SClass)
  /-- R465: A TRANSLATING port asks for the translation of a page and receives XL_DATA. -/
  | xlReq (who : Requester) (asid va : Nat)
  /-- R29: Plane's tier controller accepts a write or returns read data and the request completes. -/
  | memoryAccessComplete (a : AccId) (o : TierOut) (ext : List Byte)
  /-- R35: Forwarded requests accepted before the pair link was lost complete TIMEOUT within 20 us. -/
  | forwardTimeout
  /-- R588: A reply carrying a previous transaction generation is dropped and counted. -/
  | staleReplyDrop (b : Block) (gen : Nat)
  /-- R105: A walker frees and the next waiting miss in the miss queue starts its walk. -/
  | missQueueServe
  /-- R98: A page-table read returns and the entry is checked, ending the walk or reading the next level. -/
  | walkReadComplete (id : Nat)
  /-- R99: A table read answered RETRY is presented again after its hint. -/
  | walkReadRepresent (id : Nat)
  /-- R99: A table read not accepted within 20 us ends the walk and its requests complete TIMEOUT. -/
  | walkTimeout (id : Nat)
  /-- R119: A write of LOC_FQ_HEAD_n releases fault entries. -/
  | fqHeadRelease (who : Requester) (n h : Nat)
  /-- R109: Sync record SEG_LOAD reloads a context header and its descriptors and invalidates its translations. -/
  | segLoad (n : Nat)
  /-- R109: Sync record INV_RANGE invalidates translations of a page range of one segment. -/
  | invRange (n : Nat)
  /-- R109: Sync record INV_CONTEXT invalidates every translation of a context. -/
  | invContext (n : Nat)
  /-- R109: Sync record CTX_ENABLE re-enables endpoints disabled for a context. -/
  | ctxEnable (n : Nat)
  /-- R465: An endpoint acknowledges an XL_INV. -/
  | xlInvAck (node ctx : Nat)
  /-- R112: An endpoint has not acknowledged within 50 us and is disabled for the context. -/
  | xlInvTimeout (n node : Nat)
  /-- R111: Old requests have drained, walks restarted and endpoints acknowledged, so the LOC_SYNC completes and writes word 3. -/
  | locSyncComplete (n : Nat)
  -- Plane
  /-- R136: Plane command HINT records a page hint and migrates pages toward its first tier. -/
  | hint (q : Nat)
  /-- R139: Plane command PREFETCH makes pages readable from this switch's Prism as COPY or PROMOTED. -/
  | prefetch (q : Nat)
  /-- R139: Plane command RELEASE marks the pages' Prism frames or copies as past their release Angle. -/
  | plnRelease (q : Nat)
  /-- R139: Plane command DISCARD returns pages to ZERO and frees their frames and copies on both switches. -/
  | discard (q : Nat)
  /-- R132: A page copy finishes and the new map entry is sent to the partner. -/
  | migrationCopyDone (p : Nat)
  /-- R146: A frame reaches its error threshold, is retired and its page migrated. -/
  | frameRetire (tier : Tier) (n : Nat)
  /-- R146: A DDR5 channel meets a retirement condition and enters EVACUATING. -/
  | channelEvacuate (c : Nat)
  /-- R147: A DDR5 channel loses training and every page on it becomes POISON. -/
  | ddrTrainingLoss (c : Nat)
  /-- R146: A tray head's CXL link goes down and is counted toward retirement. -/
  | trayHeadLinkDown (t : Nat)
  /-- R146: A tray head is not retrained within 1 s, or meets its link-down count, and is retired. -/
  | trayHeadRetire (t : Nat)
  /-- R146: A tray's event record reports an uncorrectable media failure. -/
  | cxlEventRecord (t : Nat) (media uncorrectable : Bool)
  /-- R146: A tray meets a retirement condition and enters EVACUATING or RETIRED. -/
  | trayEvacuate (t : Nat)
  /-- R147: The last page leaves an evacuating channel or tray and it enters RETIRED. -/
  | objectRetired (tray : Bool) (n : Nat)
  /-- R487: A tray lane meets retirement thresholds and is spared to lane 8 or the link narrows. -/
  | trayLaneSpare (t lane : Nat)
  -- Vertex
  /-- R170: Coherent request RD_SHARED reads a line for caching in S or E. -/
  | rdShared (r : CohReq)
  /-- R170: Coherent request RD_OWN reads a line for caching in M. -/
  | rdOwn (r : CohReq)
  /-- R170: Coherent request UPGRADE takes a line from S to M. -/
  | upgrade (r : CohReq)
  /-- R171: Coherent request RD_CUR reads current data without caching. -/
  | rdCur (r : CohReq)
  /-- R171: Coherent request WR_LINE writes 128 B without caching. -/
  | wrLine (r : CohReq) (data : List Byte)
  /-- R171: Coherent request WR_PART writes under a byte mask without caching. -/
  | wrPart (r : CohReq) (mask : BitVec 128) (data : List Byte)
  /-- R178: Coherent request ATOMIC applies FETCH_ADD, FETCH_MIN, FETCH_MAX or COMPARE_SWAP at the home. -/
  | atomic (r : CohReq) (op ty operand compare : Nat)
  /-- R173: A line's transaction ends and the next queued request for the line starts. -/
  | lineQueueStart (l : Nat)
  /-- R177: A read combining window closes after 112 cycles. -/
  | combineWindowClose (l : Nat)
  /-- R179: An atomic window closes and its members are applied once the line's data is at the home. -/
  | atomicWindowClose (l : Nat)
  /-- R175: An agent writes back an M line. -/
  | wbDirty (agent line gen : Nat) (data : List Byte)
  /-- R175: An agent releases an E line. -/
  | wbClean (agent line gen : Nat)
  /-- R172: Snoop response RSP_I: now I, no data. -/
  | rspI (agent line gen : Nat)
  /-- R172: Snoop response RSP_S: now S, no data. -/
  | rspS (agent line gen : Nat)
  /-- R172: Snoop response RSP_KEEP: state kept, no data. -/
  | rspKeep (agent line gen : Nat)
  /-- R172: Snoop response RSP_DATA_I: now I, with data. -/
  | rspDataI (agent line gen : Nat) (data : List Byte)
  /-- R172: Snoop response RSP_DATA_S: now S, with data. -/
  | rspDataS (agent line gen : Nat) (data : List Byte)
  /-- R172: Snoop response RSP_DATA_KEEP: state kept, with data. -/
  | rspDataKeep (agent line gen : Nat) (data : List Byte)
  /-- R172: Snoop response RSP_FWD_I: forwarded, now I. -/
  | rspFwdI (agent line gen : Nat)
  /-- R172: Snoop response RSP_FWD_S: forwarded clean data, now S. -/
  | rspFwdS (agent line gen : Nat)
  /-- R172: Snoop response RSP_FWD_S_DATA: forwarded dirty data, now S, with data for memory. -/
  | rspFwdSData (agent line gen : Nat) (data : List Byte)
  /-- R172: Snoop response RSP_WB: a writeback of the line is already sent. -/
  | rspWb (agent line gen : Nat)
  /-- R187: A coherent port acknowledges COH_DOWN having dropped every line. -/
  | cohDownAck (p : Nat)
  /-- R185: A response or awaited writeback is missing after VTX_SNOOP_TMO. -/
  | snoopTimeout (l : Nat)
  /-- R183: A Vertex memory access held by RETRY for more than 20 us takes the domain down. -/
  | cohMemoryTimeout (l : Nat)
  /-- R187: The partner's Vertex reports the domain down and this Vertex enters DOWN with cause PARTNER. -/
  | partnerDomainDown
  /-- R187: The directory walk finishes, having poisoned OWN lines and freed every entry. -/
  | directoryWalkDone
  /-- R187: Steps 3 to 5 are done on both switches and the domain enters UP. -/
  | cohDomainUp (partnerDone : Bool)
  /-- R188: A port has not answered COH_DOWN_ACK within VTX_ACK_TMO and is excluded. -/
  | portExclude (p : Nat)
  /-- R188: Management writes 1 to a port's bit of VTX_PORT_EXCL_k and the exclusion ends. -/
  | portExclClear (who : Requester) (k : Nat) (v : Word)
  /-- R191: A write of FORCE_DOWN takes the domain down with cause MANAGEMENT. -/
  | forceDown (who : Requester)
  /-- R181: Vertex command FLUSH brings each line of a range to U, writing dirty data. -/
  | vtxFlush (q : Nat)
  /-- R181: Vertex command DOWNGRADE takes each owner of a range to S, writing dirty data. -/
  | downgrade (q : Nat)
  -- Chord
  /-- R223: Collective REDUCE sums, or takes the minimum or maximum of, members' vectors exactly. -/
  | reduce (e : Nat)
  /-- R223: Collective REDUCE_SCATTER reduces and sends shard i to member i. -/
  | reduceScatter (e : Nat)
  /-- R223: Collective GATHER collects each member's block. -/
  | gather (e : Nat)
  /-- R223: Collective SCATTER sends block i of BUF to member i. -/
  | scatter (e : Nat)
  /-- R240: Collective INDEX_GATHER copies table rows named by indices. -/
  | indexGather (e : Nat)
  /-- R220: An issue waiting for instance room or accumulator units is admitted as an instance. -/
  | instanceAdmit (e : Nat)
  /-- R233: An instance's wait on READY_OBJ times out and it completes TIMEOUT. -/
  | readyWaitTimeout (e tag : Nat)
  /-- R233: A pulled chunk's operand reads return and the chunk is accumulated, rounded and written. -/
  | chunkReadComplete (e tag : Nat) (ext : List (List Byte))
  /-- R238: An operand read not accepted within 20 us completes the instance TIMEOUT. -/
  | operandReadTimeout (e tag : Nat)
  /-- R235: A pushed contribution chunk is checked and accumulated into its instance. -/
  | collContrib (who : Requester) (hdr : List Nat) (data : List Byte)
  /-- R237: Every result write of an instance completes and the collective completes. -/
  | collectiveComplete (e tag : Nat)
  /-- R244: A PARTIAL record from a remote switch is received for a hierarchical reduce. -/
  | hierPartial (e : Nat) (hdr : List Nat) (data : List Byte)
  /-- R242: A RESULT record is received and written to local destinations. -/
  | hierResult (e : Nat) (hdr : List Nat) (data : List Byte)
  /-- R246: An ABORT record is received and the instance completes TIMEOUT. -/
  | hierAbort (e : Nat) (hdr : List Nat)
  /-- R246: An expected record has not arrived within HIER_TMO and the instance aborts. -/
  | hierTimeout (e tag : Nat)
  /-- R245: A record held in the early store is not matched within HIER_TMO and is discarded. -/
  | earlyRecordDiscard (e : Nat)
  -- Cone
  /-- R263: Cone command QUERY computes attention over a session's parked records. -/
  | query (e : Nat)
  /-- R275: Cone command BATCH runs a list of QUERY members over an engine group. -/
  | batch (e : Nat)
  /-- R278: An issue waiting for an active place is admitted. -/
  | sliceAdmit (e : Nat)
  /-- R279: A tile's record reads return and the tile is folded into the slice state. -/
  | tileReadComplete (id i : Nat) (ext : List (List Byte))
  /-- R280: A read not accepted within 20 us completes the query TIMEOUT. -/
  | coneReadTimeout (id : Nat)
  /-- R274: A slice result reaches the lead and is merged in slice order. -/
  | sliceResultArrive (id i : Nat)
  /-- R267: The result is written and the query completes, releasing its session reference. -/
  | queryComplete (id : Nat)
  -- Orbit
  /-- R309: Orbit command OPEN creates a cold session with an empty log. -/
  | orbOpen (q : Nat)
  /-- R311: Orbit command APPEND appends tokens to a session's log at a checked position. -/
  | orbAppend (q : Nat) (ext : List Byte)
  /-- R312: Orbit command TOOL_RESULT appends result tokens and a RESULT record. -/
  | toolResult (q : Nat) (ext : List Byte)
  /-- R314: Orbit command PARK records the park and puts the session into PARKING. -/
  | park (q : Nat)
  /-- R315: COMMIT_STEP passes PARK_STEP or the domain is IDLE, and the park detaches or turns into a continuation. -/
  | parkDetach (n : Nat)
  /-- R316: Orbit command MOVE moves a parked session to another depth. -/
  | move (q : Nat)
  /-- R316: The move's HINT or DISCARD completes and the session becomes PARKED at its new depth. -/
  | moveDone (n : Nat)
  /-- R317: REFS reaches 0 and a move to COLD clears leaves, discards pages and releases the slot. -/
  | coldMoveProceed (n : Nat)
  /-- R318: Orbit command REVIVE binds the session to a group, prefetches, copies the window and writes pending tokens. -/
  | revive (q : Nat)
  /-- R318: The window copy and pending-token write finish and REVIVE completes. -/
  | reviveDone (n : Nat)
  /-- R310: Orbit command CLOSE clears the group and starts releasing the session. -/
  | orbClose (q : Nat)
  /-- R310: REFS reaches 0 and the closing session's pages, slot and chunks are freed and GEN advances. -/
  | closeRelease (n : Nat)
  /-- R320: Orbit command DESCRIBE writes the descriptor. -/
  | orbDescribe (q : Nat)
  /-- R320: Orbit command LOG_READ writes tokens or records from the log. -/
  | orbLogRead (q : Nat)
  /-- R327: A parked session's idle time at HOT or WARM expires and it is demoted one depth. -/
  | demotion (n : Nat)
  -- Apex
  /-- R352: Apex command OPEN starts a request stream with its sampling parameters and ring. -/
  | apxOpen (q : Nat)
  /-- R352: Apex command SET changes sampling parameters from the next slot. -/
  | apxSet (q : Nat)
  /-- R352: Apex command CLOSE writes a CLOSED END entry if running and frees the context. -/
  | apxClose (q : Nat)
  /-- R352: Apex command DESCRIBE writes the request context's image. -/
  | apxDescribe (q : Nat)
  /-- R355: A shard's candidate contribution is checked and held in the request's sample slot. -/
  | sampleContrib (who : Requester) (hdr : List Nat) (data : List Byte)
  /-- R368: A unit takes a complete slot and draws and verifies its tokens. -/
  | sampleServe (u : Nat)
  /-- R362: Orbit's APPEND of the emitted tokens completes and ring entries and the result record are written. -/
  | sampleAppendComplete (i : Nat)
  /-- R356: A slot not complete within SAMPLE_TMO is discarded with a TIMEOUT result. -/
  | sampleTimeout (i : Nat)
  /-- R367: An END entry that did not fit under SKIP is written when room appears. -/
  | ringEndWrite (i : Nat)
  -- Centroid
  /-- R393: Centroid command OPEN_INDEX opens an index from its descriptor and compacts its deletion table. -/
  | openIndex (e : Nat)
  /-- R393: Centroid command CLOSE_INDEX waits for searches, writes the live words and frees the context. -/
  | closeIndex (e : Nat)
  /-- R396: Centroid command SEARCH finds the nearest visible records at a sequence number. -/
  | search (e : Nat)
  /-- R397: A probe round's lists are scanned and the search widens, or writes its results. -/
  | searchRoundDone (id : Nat)
  /-- R393: Centroid command APPEND adds records to the side list with new sequence numbers. -/
  | cenAppend (e : Nat)
  /-- R393: Centroid command DELETE inserts a deletion mark. -/
  | cenDelete (e : Nat)
  /-- R401: Centroid command MERGE starts folding side records and marks into inactive list areas. -/
  | merge (e : Nat)
  /-- R401: Lists are written and the merge commits MGEN, FLOOR and SIDE_HEAD in one write. -/
  | mergeCommit (i : Nat)
  /-- R402: Searches before the commit drain and the merge removes marks and compacts the table. -/
  | mergeMarkRemove (i : Nat)
  -- Links
  /-- R458: A received flit group is checked, delivered, discarded or NAKed. -/
  | flitGroupRx (p : Nat) (g : GroupRx)
  /-- R459: Unacknowledged groups see no ACK progress for REPLAY_TMO and are replayed. -/
  | replayTimeout (p : Nat)
  /-- R460: The transmit CTR reaches 2^40 and a rekey agreement starts. -/
  | rekeyStart (p : Nat)
  /-- R460: CTR reaches 2^44 before the rekey completes and the port enters STOPPED. -/
  | portStopped (p : Nat)
  /-- R467: A LINK HELLO message is exchanged during TRAINING. -/
  | hello (p version role : Nat) (spare : Bool)
  /-- R468: A LINK CREDIT message returns credit units and brings the port UP at link up. -/
  | credit (p part : Nat) (units : List Nat)
  /-- R434: A LINK PAUSE message pauses or resumes the named request classes. -/
  | linkPause (p mask time : Nat)
  /-- R511: A LINK REKEY message carries the peer's proposed epoch. -/
  | rekey (p e : Nat)
  /-- R511: A REKEY with no answer for 1 ms is sent again. -/
  | rekeyResend (p : Nat)
  /-- R512: A LINK REKEY_ACK confirms the agreed epoch and keys switch at the next group. -/
  | rekeyAck (p e : Nat)
  /-- R515: An epoch-store commit finishes its write and read back, or reports PER_EPOCH_FAULT. -/
  | epochCommitDone (ok okAgain : Bool)
  /-- R473: LANE_REQ SHADOW asks the transmitter to copy a position onto the spare. -/
  | laneReqShadow (p pos : Nat)
  /-- R473: LANE_REQ RELEASE ends the shadowing of a position. -/
  | laneReqRelease (p pos : Nat)
  /-- R476: LANE_REQ RETIRE makes the spare the position and darkens the retired lane. -/
  | laneReqRetire (p pos : Nat)
  /-- R476: LANE_REQ DEGRADE narrows the width and remaps positions. -/
  | laneReqDegrade (p : Nat) (m : LaneMsg)
  /-- R473: LANE_ACK confirms a lane request. -/
  | laneAck (p action pos : Nat)
  /-- R471: A bring-up step overruns its limit and the port returns to step 1. -/
  | linkStepTimeout (p : Nat)
  /-- R513: The 1 s wait after repeated authentication failures ends and the next bring-up starts. -/
  | bringupBackoffEnd (p : Nat)
  /-- R472: A port goes down, completing held messages, dropping posted ones and taking the domain down if coherent. -/
  | portDown (p : Nat)
  /-- R475: A lane loses lock and is counted toward retirement. -/
  | laneLossOfLock (p l : Nat)
  /-- R475: A lane meets a replay, SER or lock threshold and its receiver retires it. -/
  | laneRetireTrigger (p l : Nat) (ser : Bool)
  /-- R473: 256 clean spare codewords arrive and the position is taken from the spare. -/
  | calShadowReady (p : Nat)
  /-- R473: Tuning of a lane on its live copies ends and verification starts. -/
  | calTuneEnd (p : Nat)
  /-- R473: Verification over 4,096 codewords ends and the position is taken back from the lane. -/
  | calVerifyEnd (p : Nat) (pass : Bool)
  -- The pair link and the mirror
  /-- R481: All pair ports are down or none delivers a verified group for PAIR_TMO. -/
  | pairLinkLost
  /-- R481: A pair port is UP again with the bucket map restored and held commits and switchovers complete. -/
  | pairLinkRecover
  /-- R33: A MIRROR UPDATE from the partner is applied to the mirrored state. -/
  | mirrorUpdate (seq : Nat) (m : Mirror) (contents : List BlkIn)
  /-- R33: The partner acknowledges a mirrored change and the waiting change takes effect. -/
  | mirrorAck (id : Nat)
  -- Ethernet, RoCE and engine commands
  /-- R466: A frame arriving on an Ethernet port goes to RoCEv2, to an XCL port, or is dropped. -/
  | ethFrameRx (p mac : Nat) (vlan : Option Nat) (data : List Byte)
  /-- R466: An ETH FRAME message from an XCL port is forwarded by the static table. -/
  | ethFrameFromXcl (p sclass mac : Nat) (vlan : Option Nat) (data : List Byte)
  /-- R485: An RDMA READ on a WINDOW queue pair is checked and served. -/
  | roceRdmaReadRx (q psn off len rkey : Nat) (ce : Bool) (ext : List Byte)
  /-- R485: An RDMA WRITE on a WINDOW or CHORD queue pair is checked and written. -/
  | roceRdmaWriteRx (q psn off rkey : Nat) (data : List Byte) (ce : Bool)
  /-- R484: A SEND carrying an ENG_CMD body enters its block's queue. -/
  | roceSendRx (q psn blk queue : Nat) (words : List Nat) (ce : Bool)
  /-- R483: An ACK or NAK from the remote side acknowledges or requests retransmission. -/
  | roceAckRx (q psn : Nat) (nak : Option Nat)
  /-- R483: A queue pair's ACK timeout expires and it retransmits. -/
  | roceAckTimeout (q : Nat)
  /-- R483: A received CNP halves the queue pair's send rate. -/
  | roceCnpRx (q : Nat)
  /-- R483: Every 55 us a rate-reduced queue pair raises its send rate by 5 % of the port rate. -/
  | roceRateIncrease (q : Nat)
  /-- R464: An ENG_CMD message delivers a block command to its queue. -/
  | engCmd (who : Requester) (sclass asid blk queue : Nat) (words : List Nat)
  -- Perimeter
  /-- R503: A switch with no pool founds one, committing a new POOL_GEN and deriving POOL_ROOT. -/
  | poolFound
  /-- R503: No pair port reaches UP within 2 s and the switch founds a pool. -/
  | poolFoundTimeout
  /-- R504: A joiner passing the join test receives POOL_ROOT, tenancies and group generations. -/
  | poolJoin (m : JoinMsg)
  /-- R519: PER_SCRUB_CTL scrub fences a partition, discards its work, clears its state and advances T_n. -/
  | scrub (who : Requester) (n : Nat) (ddr force : Bool)
  /-- R519: Both switches finish the clearing, T_n advances and the fence is lifted. -/
  | scrubComplete
  /-- R521: A scrub not complete within twice its time fences and resets each block holding the partition's state. -/
  | scrubEscalate
  /-- R522: PER_SCRUB_CTL ZEROISE takes links down, erases keys and clears Prism and SRAM. -/
  | zeroise (who : Requester)
  /-- R525: A write of PER_ATTEST_DB produces a signed partition report. -/
  | attestReport (who : Requester) (asid addr busy : Nat)
  -- The pair
  /-- R594: PAIR_ALIVE_IN changes level and the debounce starts or ends. -/
  | pairAliveInChange (level : Bool)
  /-- R594: PAIR_ALIVE_IN has been deasserted for ALIVE_DEBOUNCE_US. -/
  | aliveDebounceExpire
  /-- R595: PAIR_ALIVE_IN disagrees with a working pair link for over 1 ms and ALIVE_MISMATCH is set. -/
  | aliveMismatch
  /-- R594: A write of DECLARE declares the partner lost while the pair link is lost. -/
  | declare (who : Requester) (v : Nat)
  /-- R596: Role B sees the pair link lost for YIELD_TMO with alive asserted and yields. -/
  | yield
  /-- R597: Every takeover step is done and the survivor enters SOLE. -/
  | takeoverComplete (contents : List BlkIn)
  /-- R606: Migrations of a partition's pages to the joining switch finish. -/
  | handbackComplete (n : Nat)
  /-- R607: At the next step boundary after handback, a partition is held, recalled, handed home and released. -/
  | partitionAdmit (n : Nat) (written : List (Nat × List Byte))
  -- Lasers, trays, islands and engine accesses
  /-- R625: A write of EN in FCT_LASER_CTL_m drives LS_EN, taking the module's ports down or letting them come up. -/
  | laserEnable (who : Requester) (m : Nat) (en : Bool)
  /-- R642: LS_PRES_N rises with EN set, EN is cleared and the module's ports go down. -/
  | laserModuleRemoved (m : Nat)
  /-- R471: A port's lanes finish equaliser training and codeword alignment and deskew by CW_SEQ, so the port enters TRAINING and sends HELLO. -/
  | linkAligned (p : Nat)
  /-- R146: A tray head's CXL link completes training or Recovery and returns to service, ending held requests and the 1 s retirement watch. -/
  | trayLinkUp (t width : Nat) (cap : Bool)
  /-- R642: A failed PCIe reference clock becomes stable again and the common-clock tray ports it serves retrain. -/
  | pcieRefclkRestore (k : Nat)
  /-- R633: Compass's island supply is lost, which releases a latched THERMTRIP_N and puts every output into its unpowered state. -/
  | islandPowerLoss
  /-- R183: The retry-after hint of a memory access answered RETRY runs out and Vertex, an engine, Orbit, Apex or Locus presents the access again. -/
  | engineAccessRepresent (a : AccId)
  /-- R322: A memory access of Orbit, Apex, Centroid or a LOC_SYNC answered RETRY is not accepted within 20 us and the command completes TIMEOUT or RETRY. -/
  | engineAccessTimeout (o : AccessOwner)
deriving DecidableEq, Repr

end Sys2Proof
end

