-- ==== Sys2Proof/Config.lean ====
section
/-!
DEFINITION. What the spec leaves open: free values, constants with no body, so that nothing can be proved of
the value they take. `freeValue` is applied to the counter `State.fresh`, which each use advances.
-/
namespace Sys2Proof

/-- A value the spec calls undefined, or does not state: one for each use. -/
opaque Config.freeValue : Nat → Word

/-- Bytes the spec leaves open, by their place: one run of them for each use. -/
opaque Config.freeByte : Nat → Nat → Byte

/-- R502, R523: the bytes of the certificate chain of slot 0. -/
opaque Config.certificate : Nat → Byte

/-- R524: the SHA-384 measurement of an index over an image whose bytes the model does not hold. -/
opaque Config.measurement : Nat → Image → Nat

end Sys2Proof
end

