-- ==== Sys2Proof/Machine/Prim.lean ====
section
/-!
DEFINITION. The helpers every block uses: bit fields, saturating counters, little-endian bytes, sparse
tables held in one canonical form, and completions by name. Plain structural recursion throughout, so
that the kernel evaluates all of it.
-/
namespace Sys2Proof.Machine

/-- Bits [hi:lo] of `v`. -/
def bits (v hi lo : Nat) : Nat := v / 2 ^ lo % 2 ^ (hi + 1 - lo)

/-- Bit `i` of `v`. -/
def bitOf (v i : Nat) : Bool := v / 2 ^ i % 2 == 1

/-- `v` with bit `i` set. -/
def setBit (v i : Nat) : Nat := if bitOf v i then v else v + 2 ^ i

/-- `v` with bit `i` cleared. -/
def clearBit (v i : Nat) : Nat := if bitOf v i then v - 2 ^ i else v

/-- A Boolean as a one-bit field. -/
def b2n (b : Bool) : Nat := if b then 1 else 0

/-- Fields packed upwards from bit 0: (width, value), each value cut to its width. -/
def pack : List (Nat × Nat) → Nat
  | [] => 0
  | (w, v) :: fs => v % 2 ^ w + 2 ^ w * pack fs

/-- A register value. -/
def reg (fs : List (Nat × Nat)) : Word := BitVec.ofNat 64 (pack fs)

/-- A `w`-bit counter that saturates at all-ones. -/
def satAdd (w n k : Nat) : Nat := min (n + k) (2 ^ w - 1)

/-- One more, saturating at `w` bits. -/
def sat (w n : Nat) : Nat := satAdd w n 1

/-- The `n` low bytes of `v`, least significant first. -/
def toLE : (n : Nat) → (v : Nat) → List Byte
  | 0, _ => []
  | n + 1, v => BitVec.ofNat 8 v :: toLE n (v / 256)

/-- The number whose bytes, least significant first, are `bs`. -/
def ofLE : List Byte → Nat
  | [] => 0
  | b :: bs => b.toNat + 256 * ofLE bs

/-- Two's complement of an integer in `w` bits. -/
def toTwos (w : Nat) (i : Int) : Nat := (i % (2 ^ w : Int)).toNat

/-- The integer a `w`-bit two's-complement number stands for. -/
def ofTwos (w n : Nat) : Int := if n % 2 ^ w < 2 ^ (w - 1) then (n % 2 ^ w : Nat) else ((n % 2 ^ w : Nat) : Int) - 2 ^ w

/-- An integer cut to the range of `w`-bit two's complement. -/
def satInt (w : Nat) (i : Int) : Int :=
  if i < -(2 ^ (w - 1) : Int) then -(2 ^ (w - 1) : Int)
  else if i ≥ (2 ^ (w - 1) : Int) then (2 ^ (w - 1) : Int) - 1 else i

/-- Division rounding up. -/
def ceilDiv (a b : Nat) : Nat := (a + b - 1) / b

/-- `lo, lo+1, …` for `n` numbers. -/
def rangeFrom (lo n : Nat) : List Nat := (List.range n).map (lo + ·)

/-! ### Sparse tables: entries in rising key order, none equal to the default. -/

/-- A table from indices to `α` in which every index not listed holds the default. -/
abbrev Tab (α : Type) := List (Nat × α)

variable {α : Type}

/-- The entry of index `k`. -/
def Tab.get [Inhabited α] : Tab α → Nat → α
  | [], _ => default
  | (i, v) :: t, k => if i = k then v else Tab.get t k

/-- The table without index `k`. -/
def Tab.del : Tab α → Nat → Tab α
  | [], _ => []
  | (i, v) :: t, k => if i = k then Tab.del t k else (i, v) :: Tab.del t k

/-- The table with a listed entry put at its place in rising order. -/
def Tab.put : Tab α → Nat → α → Tab α
  | [], k, x => [(k, x)]
  | (i, v) :: t, k, x =>
    if k < i then (k, x) :: (i, v) :: t else if k = i then (k, x) :: t else (i, v) :: Tab.put t k x

/-- The table with `x` at index `k`. -/
def Tab.set [Inhabited α] [DecidableEq α] (t : Tab α) (k : Nat) (x : α) : Tab α :=
  if x = default then t.del k else t.put k x

/-- The table with the entry of index `k` changed. -/
def Tab.mod [Inhabited α] [DecidableEq α] (t : Tab α) (k : Nat) (f : α → α) : Tab α := t.set k (f (t.get k))

/-- Every listed entry changed by a function of its index. -/
def Tab.mapAll [Inhabited α] [DecidableEq α] (t : Tab α) (f : Nat → α → α) : Tab α :=
  (t.map fun p => (p.1, f p.1 p.2)).filter fun p => p.2 ≠ default

/-- The indices whose listed entry satisfies `p`, in rising order. -/
def Tab.idxs (t : Tab α) (p : Nat → α → Bool) : List Nat := (t.filter fun e => p e.1 e.2).map (·.1)

/-- The keys rise strictly. -/
def Tab.sorted : Tab α → Bool
  | [] => true
  | [_] => true
  | (i, _) :: (j, v) :: t => i < j && Tab.sorted ((j, v) :: t)

/-! ### Lists -/

/-- The list with its `i`-th entry replaced. -/
def listSet {α : Type} : List α → Nat → α → List α
  | [], _, _ => []
  | _ :: t, 0, x => x :: t
  | h :: t, i + 1, x => h :: listSet t i x

/-- Insertion into a list ordered by a key, after entries of the same key. -/
def insertBy {α : Type} (key : α → Nat) (x : α) : List α → List α
  | [] => [x]
  | y :: ys => if key x < key y then x :: y :: ys else y :: insertBy key x ys

/-- A list put into rising order of a key, equal keys keeping their order. -/
def sortBy {α : Type} (key : α → Nat) (l : List α) : List α := l.foldl (fun acc x => insertBy key x acc) []

/-- Whether no entry of a list of numbers repeats. -/
def noDup : List Nat → Bool
  | [] => true
  | x :: xs => !xs.contains x && noDup xs

/-- The smallest number of a list, if there is one. -/
def minOf : List Nat → Option Nat
  | [] => none
  | x :: xs => some (xs.foldl min x)

/-- The sum of a list. -/
def sumOf (l : List Nat) : Nat := l.foldl (· + ·) 0

/-! ### Completions by name (R9, R10) -/

def cOk : Cpl := {}
def cVal (v : Nat) : Cpl := { value := v }
def cData (d : List Byte) : Cpl := { data := d }
def cRetry (ns : Nat) : Cpl := { status := .retry, hint := ns }
def cRef (r : Reason) : Cpl := { status := .refused, reason := some r }
def cBad : Cpl := { status := .badRequest }
def cNP : Cpl := { status := .notPermitted }
def cPoison : Cpl := { status := .poison }
def cTimeout : Cpl := { status := .timeout }
def cDown : Cpl := { status := .domainDown }

/-- R15: the rank of a status among the outcomes an accepted request met; the lowest rank is carried. -/
def outcomeRank : Status → Nat
  | .faulted | .faultedUnrecorded => 1
  | .poison => 2 | .domainDown => 3 | .timeout => 4
  | .refused | .notPermitted | .badRequest | .retry | .deferred => 5
  | .partialDone => 6 | .ok => 7

/-- R15: of two outcomes the earlier of which is `a`, the one the completion carries. -/
def worse (a b : Cpl) : Cpl := if outcomeRank b.status < outcomeRank a.status then b else a

/-- R14: of the reasons that apply, the one with the lowest code. -/
def lowestReason : List Reason → Option Reason
  | [] => none
  | r :: rs =>
    match lowestReason rs with
    | some q => if r.code ≤ q.code then some r else some q
    | none => some r

/-- R13: the first admission check that applies, of a list in the order of the rule. -/
def firstCheck : List (Bool × Cpl) → Option Cpl
  | [] => none
  | (b, c) :: rest => if b then some c else firstCheck rest

end Sys2Proof.Machine
end

