-- ==== Sys2Proof/Machine/State/Meridian.lean ====
section
/-!
DEFINITION. Meridian's state (R40 to R85): the Angle domains, fabric time, the schedules' marks and
queues, the synchronisation objects with their waiters, and the Olvin sequencers.
-/
namespace Sys2Proof.Machine

/-- R46: the state of an Angle domain. -/
inductive DomState where
  | idle | running | stalled | held | restarting
deriving DecidableEq, Repr, Inhabited

def DomState.code : DomState → Nat
  | .idle => 0 | .running => 1 | .stalled => 2 | .held => 3 | .restarting => 4

/-- A fired occurrence awaiting dispatch (R63): the entry's words, its index, its trigger, and whether it
is keyed to fabric time. -/
structure DueAct where
  entry   : Nat := 0
  words   : List Nat := []
  trigger : Nat := 0
  ft      : Bool := false
deriving DecidableEq, Repr, Inhabited

/-- An action answered RETRY (R65): when it is presented again, and for a fabric-time action when its
presentation ends. -/
structure RetryAct where
  act   : DueAct := {}
  due   : Nat := 0
  until_ : Option Nat := none
deriving DecidableEq, Repr, Inhabited

/-- An Angle domain (R40 to R52, R62 to R67). `sources` maps each registered node to its position;
`fireLow` is the Angle below which every Angle-keyed occurrence counts as fired, but for `unfired`. -/
structure Dom where
  angle    : Nat := 0
  st       : DomState := .idle
  sources  : Tab Nat := []
  commit   : Nat := 0
  stallNs  : Nat := 0x5F5E100
  lastAdv  : Nat := 0
  lastRun  : Nat := 0
  backward : Nat := 0
  unregistered : Nat := 0
  stalls   : Nat := 0
  snap     : Snapshot := {}
  pendSnaps : List Snapshot := []
  partnerSnap : Option Snapshot := none
  fireLow  : Nat := 0
  unfired  : List (Nat × Nat) := []
  due      : List DueAct := []
  retries  : List RetryAct := []
  missed   : Nat := 0
  lastEntry : Nat := 0
  lastStatus : Nat := 0
  lastReason : Nat := 0
  skipped  : Nat := 0
deriving DecidableEq, Repr, Inhabited

/-- What a pending wait or acquire waits for (R70, R73). -/
inductive WaitKind where
  | ge | eq | gen | acquire
deriving DecidableEq, Repr, Inhabited

/-- An entry of the waiter table (R74). -/
structure Waiter where
  kind     : WaitKind := .ge
  operand  : Nat := 0
  req      : Requester := .none
  act      : DueAct := {}
  deadline : Option Nat := none
deriving DecidableEq, Repr, Inhabited

/-- A synchronisation object (R68), its waiters in arrival order. -/
structure SyncObj where
  part    : Nat := 0
  mode    : ObjMode := .unused
  target  : Nat := 0
  value   : Nat := 0
  gen     : Nat := 0
  waiters : List Waiter := []
deriving DecidableEq, Repr, Inhabited

/-- R84: what a sequencer is doing. -/
inductive SeqRun where
  | idle | running | waiting | abandoning
deriving DecidableEq, Repr, Inhabited

def SeqRun.code : SeqRun → Nat
  | .idle => 0 | .running => 1 | .waiting => 2 | .abandoning => 3

/-- What a waiting sequencer waits for (R80). -/
inductive SeqWait where
  | none
  | dfetch (buf va len : Nat)
  | sync (obj : Nat)
  | angle (target : Nat) (deadline : Option Nat)
  | issue (slot : Nat)
  | room                                    -- an ISSUE while 16 are outstanding
  | drain                                   -- SIGNAL or BRST ACC waiting for earlier issues
deriving DecidableEq, Repr, Inhabited

/-- An outstanding issue: its slot, and whether its outcome is awaited by ISSUE with WAIT 1. -/
structure Issue where
  slot    : Nat := 0
  awaited : Bool := false
  done    : Option Cpl := none
deriving DecidableEq, Repr, Inhabited

/-- A queued program start (R78). -/
structure SeqStart where
  entry : Nat := 0
  dbase : Option Nat := none
  asid  : Nat := 0
deriving DecidableEq, Repr, Inhabited

/-- A loop in progress (R80): its counter, first and last instruction, and count. -/
structure LoopFrame where
  lc    : Nat := 0
  first : Nat := 0
  last  : Nat := 0
  count : Nat := 0
deriving DecidableEq, Repr, Inhabited

/-- A command waiting in a block's command queue: its queue, operation, partition, descriptor words,
service class, requester, the energy pre-cost it holds (R568), the fabric time of its arrival, and the sequencer
issue that sent it on (R78). -/
structure QCmd where
  id      : Nat := 0
  op      : Nat := 0
  part    : Nat := 0
  asid    : Nat := 0
  words   : List Nat := []
  cls     : SClass := .prompt
  req     : Requester := .none
  cost    : Nat := 0
  held    : Bool := false
  arrived : Nat := 0
  issuer  : Option (Nat × Nat) := none
  since   : Nat := 0
deriving DecidableEq, Repr, Inhabited

/-- An Olvin sequencer (R77, R78). -/
structure Seq where
  part   : Nat := 0
  owned  : Bool := false
  pc     : Nat := 0
  run    : SeqRun := .idle
  st     : Cpl := {}
  acc    : Cpl := {}
  loops  : List Nat := [0, 0, 0, 0]
  bufs   : List (List Byte) := [[], [], [], []]
  dbase  : Nat := 0
  asid   : Nat := 0
  bank   : Nat := 0
  outst  : List Issue := []
  nextSlot : Nat := 0
  starts : List SeqStart := []
  stack  : List LoopFrame := []
  wait   : SeqWait := .none
  cmd    : Option QCmd := none
deriving DecidableEq, Repr, Inhabited

/-- R59: what LOCK shows. -/
inductive FtLock where
  | unlocked | locked | holdover | follower
deriving DecidableEq, Repr, Inhabited

def FtLock.code : FtLock → Nat
  | .unlocked => 0 | .locked => 1 | .holdover => 2 | .follower => 3

/-- Meridian. `ftNext` counts, for each fabric-time entry of the partition table, the occurrences that
have fired or been skipped, and `devNext` does so for the device schedule; `slewRem` is the correction
still to be slewed out (R55); `ppsLast` is the whole second of the last PPS_OUT rise (R57). `syncIdx` holds the selector of R76 for the
management network (key 0) and each port (key port + 1). -/
structure Meridian where
  doms     : Tab Dom := []
  lock     : FtLock := .unlocked
  everLocked : Bool := false
  offset   : Int := 0
  portSel  : Bool := false
  ptpPort  : Nat := 0
  ppsInEn  : Bool := false
  ptpDomain : Nat := 0
  transport : Bool := false
  ref0Ok   : Bool := true
  ref1Ok   : Bool := true
  slewRem  : Int := 0
  slewPhase : Nat := 0
  ppsLast  : Nat := 0
  ppsOut   : Bool := false
  ftNext   : Tab Nat := []
  devNext  : Tab Nat := []
  devDue   : List Nat := []
  objs     : Tab SyncObj := []
  syncIdx  : Tab Nat := []
  seqs     : Tab Seq := []
  bank     : Nat := 0
deriving DecidableEq, Repr, Inhabited

end Sys2Proof.Machine
end

