-- ==== Sys2Proof/Machine/State/Orbit.lean ====
section
/-!
DEFINITION. Orbit's state (R289 to R345): the descriptors of both halves, free numbers, commands in progress and counters.
-/
namespace Sys2Proof.Machine

/-- What a session in transition is doing. -/
inductive JobKind where
  | park | revive | move | close
deriving DecidableEq, Repr, Inhabited

/-- A command in progress on a session, with those that joined it (R321). `issued` tells that the Plane HINT of a move has
been accepted, `waited` that the move has been counted in ENERGY_WAITS, `list` the copy list of a REVIVE. `back` tells
a move of class BACKGROUND (R327). -/
structure OrbJob where
  num    : Nat := 0
  kind   : JobKind := .park
  cmd    : QCmd := {}
  joined : List QCmd := []
  issued : Bool := false
  waited : Bool := false
  back   : Bool := false
  ready  : Option Cpl := none
  list   : List (Nat × Nat × Nat) := []
  retryAt : Option Nat := none
  firstTry : Option Nat := none
deriving DecidableEq, Repr, Inhabited

/-- A range of numbers (R291): how many have been used at least once, and those freed since, in order. -/
structure NumPool where
  next  : Nat := 0
  freed : List Nat := []
deriving DecidableEq, Repr, Inhabited

/-- R342, R343. -/
structure OrbStat where
  revivals : Nat := 0
  parks    : Nat := 0
  deferred : Nat := 0
  demotions : Nat := 0
  capacity : Nat := 0
  state    : Nat := 0
  energyWaits : Nat := 0
  diverge  : Nat := 0
deriving DecidableEq, Repr, Inhabited

/-- Orbit. `finals` are the completions that wait for the partner's acknowledgement (R33), by identifier; `fwd` the commands
forwarded to the partner (R290); `tries` the queue and command that met RETRY, and when they first did. -/
structure Orbit where
  sess   : Tab Sess := []
  pools  : Tab NumPool := []
  jobs   : List OrbJob := []
  held   : List (Nat × QCmd) := []
  finals : List (Nat × QCmd × Cpl) := []
  nextId : Nat := 0
  fwd    : List (Nat × QCmd × Nat) := []
  tries  : List (Nat × QCmd × Nat) := []
  deferNs : Nat := 0x4E20
  logHeals : Nat := 0
  stats  : Tab OrbStat := []
deriving DecidableEq, Repr, Inhabited

end Sys2Proof.Machine
end

