-- ==== Sys2Proof/Machine/State/Apex.lean ====
section
/-!
DEFINITION. Apex's state (R346 to R379): request contexts with their sample slots, free indices and counters.
-/
namespace Sys2Proof.Machine

/-- R352. -/
inductive ReqState where
  | free | running | ended
deriving DecidableEq, Repr, Inhabited

def ReqState.code : ReqState → Nat
  | .free => 0 | .running => 1 | .ended => 2

/-- A candidate (R353): its shard, token and logit. -/
structure Cand where
  shard : Nat := 0
  token : Nat := 0
  logit : Nat := 0
deriving DecidableEq, Repr, Inhabited

/-- A sample slot (R354). `cands` holds the candidates of each position, `img` the request's command image when the slot
opened, `toks` what was drawn, with how the stream ended and how many drafts were accepted, once it is served. -/
structure ApxSlot where
  pos    : Nat := 0
  nshard : Nat := 1
  drafts : List Nat := []
  cls    : Nat := 1
  opened : Nat := 0
  shards : List Nat := []
  cands  : List (List Cand) := []
  poison : Bool := false
  img    : List Nat := []
  served : Bool := false
  toks   : List Nat := []
  noCand : Bool := false
  endWhy : Nat := 0
  accepted : Nat := 0
  firstTry : Option Nat := none
  again  : Option Nat := none
deriving DecidableEq, Repr, Inhabited

/-- A request context (R347, R352). `img` is its command image (R350); `hist` the tokens before RING_POS, newest first;
`consumed` the reader's count as last read; `pendEnd` an END entry not yet written: its reason and position;
`closing` a CLOSE that waits for it. -/
structure ApxReq where
  st      : ReqState := .free
  gen     : Nat := 0
  part    : Nat := 0
  img     : List Nat := []
  ringPos : Nat := 0
  emitted : Nat := 0
  hist    : List Nat := []
  produced : Nat := 0
  consumed : Nat := 0
  overrun : Nat := 0
  ringEnd : Nat := 0
  slot    : Option ApxSlot := none
  pendEnd : Option (Nat × Nat) := none
  closing : Option QCmd := none
deriving DecidableEq, Repr, Inhabited

/-- R376, R377. -/
structure ApxStat where
  samples  : Nat := 0
  tokens   : Nat := 0
  offered  : Nat := 0
  accepted : Nat := 0
  timeouts : Nat := 0
  ringFull : Nat := 0
  overrun  : Nat := 0
  noCand   : Nat := 0
deriving DecidableEq, Repr, Inhabited

/-- Apex. -/
structure Apex where
  reqs  : Tab ApxReq := []
  pools : Tab NumPool := []
  tmo   : Nat := 0x64
  stats : Tab ApxStat := []
  tries : Tab Nat := []
deriving DecidableEq, Repr, Inhabited

end Sys2Proof.Machine
end

