-- ==== Sys2Proof/Machine/State/Eng.lean ====
section
/-!
DEFINITION. The command queues of the blocks that have them (R61, R78): Vertex, Plane, Chord, Cone, Apex, Orbit and
Centroid. A key is the block's code times 64 plus the queue's number.
-/
namespace Sys2Proof.Machine

/-- A deficit-round-robin arbiter (R324, R422): the partition whose turn it is, the deficits, when each (partition, class)
queue began to wait or was last served, and the queues promoted and not yet served, with the quantum left (R424, R426). -/
structure Arb where
  cur   : Nat := 0
  defc  : Tab Int := []
  since : Tab Nat := []
  promo : List (Nat × Nat × Nat) := []
  promotions : Nat := 0
deriving DecidableEq, Repr, Inhabited

/-- `done` holds the completions of commands that one block gave another: the code and index of the requester. `queues` holds the commands waiting to be presented, `issued` those a sequencer's program, or the block itself
where no program is defined (R78), has sent to the datapath. -/
structure Eng where
  queues : Tab (List QCmd) := []
  issued : Tab (List QCmd) := []
  nextId : Nat := 0
  done   : List (Nat × Nat × Cpl) := []
  arbs   : Tab Arb := []
deriving DecidableEq, Repr, Inhabited

end Sys2Proof.Machine
end

