-- ==== Sys2Proof/Machine/State/Arc.lean ====
section
/-!
DEFINITION. Lattice's and Arc's state (R19 to R27, R414 to R449): packets in the shared buffer, flows and their buckets,
output schedulers, pauses and monitors.
-/
namespace Sys2Proof.Machine

/-- A packet in the shared buffer. `flow` is its flow's number; an implicit flow has one of its own (R416). `rsv` tells that it
is one of those that use the internal reserve (R22), `cls` its message class and `bucket` its steering bucket on the pair
link (R479). -/
structure Packet where
  id    : Nat := 0
  input : Nat := 0
  out   : Nat := 0
  part  : Nat := 0
  slot  : Nat := 7
  flow  : Nat := 0
  chg   : Nat := 0
  len   : Nat := 0
  rsv   : Bool := false
  pcp   : Nat := 0
  arrived : Nat := 0
  who   : Requester := .none
  posted : Bool := false
  cls   : Nat := 0
  bucket : Option Nat := none
deriving DecidableEq, Repr, Inhabited

/-- A packet that waits at its input: for a cell (R24), held red (R419), or for the opening of an epoch (R568). -/
structure HeldPkt where
  pkt : PktIn := {}
  red : Bool := false
  big : Bool := false
  at_ : Nat := 0
deriving DecidableEq, Repr, Inhabited

/-- A flow: its buckets in eightieths of a byte (R418), when they were last filled, its counters (R441) and what the auditor
keeps (R428, R429). -/
structure FlowSt where
  tc   : Nat := 0
  tp   : Nat := 0
  last : Nat := 0
  /-- The buckets have been filled; they are full until then (RFC 2698). -/
  metered : Bool := false
  yellow : Nat := 0
  red  : Nat := 0
  qfull : Nat := 0
  bytes : Nat := 0
  shareArc : Nat := 0
  shareLat : Nat := 0
  age  : Bool := false
  winBytes : Nat := 0
  backlog : Bool := false
deriving DecidableEq, Repr, Inhabited

/-- An entry of URGENT (R425): a promoted queue with the quantum left, or a flow under age promotion. -/
inductive Urgent where
  | queue (part cls left : Nat)
  | flow (f : Nat)
deriving DecidableEq, Repr, Inhabited

/-- An output's scheduler: for each class the partitions' round robin, for each class and partition the flows', the URGENT
tier, starvation timers by partition × 8 + class, shapers' counts in eightieths of a byte with when they were last filled,
and the window's bytes by class (R428). -/
structure OutSt where
  parts  : Tab Arb := []
  flows  : Tab Arb := []
  urgent : List Urgent := []
  since  : Tab Nat := []
  shape  : Tab Int := []
  shapeAt : Tab Nat := []
  tier   : Tab Nat := []
deriving DecidableEq, Repr, Inhabited

/-- R442. -/
structure ArcPart where
  quotaRefused : Nat := 0
  energyRefused : Nat := 0
  promotions : Nat := 0
  ageSends : Nat := 0
deriving DecidableEq, Repr, Inhabited

/-- R446. -/
structure EthStat where
  pauseRx : Nat := 0
  fcTx : Nat := 0
  tailDrops : Nat := 0
  discards : Nat := 0
deriving DecidableEq, Repr, Inhabited

/-- R435: a monitor's capture for one partition. -/
structure Mon where
  bins : Tab Nat := []
  minD : Nat := 18446744073709551615
  maxD : Nat := 0
  hwmNs : Nat := 0
  hwmFt : Nat := 0
  hwmSrc : Nat := 0
  samples : Nat := 0
deriving DecidableEq, Repr, Inhabited

/-- Arc. `paused` holds until when a port (× 16 + 8), a priority or a class (× 16 + its number) is paused by the other end;
`fcSent` when a flow-control frame with a time was last sent, by port × 16 + priority (8 for PAUSE). Selectors are held
for the management network (key 0) and each port (key port + 1). `starve` are the limits of R439 in µs. -/
structure Arc where
  packets : List Packet := []
  held   : List HeldPkt := []
  nextId : Nat := 0
  flows  : Tab FlowSt := []
  outs   : Tab OutSt := []
  parts  : Tab ArcPart := []
  eth    : Tab EthStat := []
  paused : Tab Nat := []
  fcSent : Tab Nat := []
  fairTol : Nat := 0x051F
  auditEn : Bool := true
  starve : List Nat := [0x32, 0xC8, 0x3E8, 0x1388]
  unfair : Nat := 0
  unmapped : Nat := 0
  flowSel : Tab Nat := []
  shapeSel : Tab Nat := []
  monSel : Tab Nat := []
  mons   : Tab Mon := []
  frozen : Nat := 0
  noAssess : Bool := false
  scrubbed : List Nat := []
deriving DecidableEq, Repr, Inhabited

/-- Lattice (R22 to R26): the cells each partition holds, those of replies, completions and the pair link, and the lowest
count of free cells. -/
structure Lattice where
  used     : Tab Nat := []
  internalUsed : Nat := 0
  minFree  : Nat := 0x200000
deriving DecidableEq, Repr, Inhabited

end Sys2Proof.Machine
end

