-- ==== Sys2Proof/Machine/State/Centroid.lean ====
section
/-!
DEFINITION. Centroid's state (R380 to R413): index contexts, searches, merges and counters.
-/
namespace Sys2Proof.Machine

/-- A merge in progress (R401): M, F and the merge's number; `committed` after step 3. -/
structure MergeJob where
  cmd  : QCmd := {}
  m    : Nat := 0
  f    : Nat := 0
  n    : Nat := 0
  committed : Bool := false
  /-- R405: when an access of it was first answered RETRY. -/
  firstTry : Option Nat := none
deriving DecidableEq, Repr, Inhabited

/-- An index context (R382, R384): the descriptor's address and words 0 to 5, and the live words. `side` is the count of
side records whose slots are free again (R401 step 5), `since` how many writes pool memory had seen at its opening. -/
structure Idx where
  isOpen : Bool := false
  gen   : Nat := 0
  part  : Nat := 0
  desc  : Nat := 0
  words : List Nat := []
  seq   : Nat := 0
  floor : Nat := 0
  head  : Nat := 0
  tail  : Nat := 0
  mgen  : Nat := 0
  dels  : Nat := 0
  side  : Nat := 0
  merge : Option MergeJob := none
  closing : Option QCmd := none
  since : Nat := 0
deriving DecidableEq, Repr, Inhabited

/-- A query of a search: PARAM, elements, clusters probed, results (identifier, distance), records compared, and whether it
is over and poisoned. -/
structure SrchQ where
  param  : Nat := 0
  vec    : List Int := []
  probed : Nat := 0
  res    : List (Nat × Int) := []
  scanned : Nat := 0
  isOver   : Bool := false
  bad    : Bool := false
deriving DecidableEq, Repr, Inhabited

/-- An active search (R395): its snapshot is the effective AS_OF, the committed merge and the side list's ends. -/
structure Srch where
  id    : Nat := 0
  e     : Nat := 0
  cmd   : QCmd := {}
  idx   : Nat := 0
  asOf  : Nat := 0
  mgen  : Nat := 0
  head  : Nat := 0
  tail  : Nat := 0
  qs    : List SrchQ := []
  firstTry : Option Nat := none
deriving DecidableEq, Repr, Inhabited

/-- R410, R411. -/
structure CenStat where
  searches : Nat := 0
  partialQ : Nat := 0
  widened  : Nat := 0
  merges   : Nat := 0
  appends  : Nat := 0
  deletes  : Nat := 0
  capacity : Nat := 0
  energyRefused : Nat := 0
deriving DecidableEq, Repr, Inhabited

/-- Centroid. `waiting` are searches at an engine's input (R381); `tries` tells when the first command of engine e's
queue, or at index e + 16 the search at its input, first met RETRY (R405). -/
structure Centroid where
  idxs   : Tab Idx := []
  pools  : Tab NumPool := []
  srchs  : List Srch := []
  waiting : List (Nat × QCmd) := []
  nextId : Nat := 0
  tries  : Tab Nat := []
  stats  : Tab CenStat := []
  idxSel : Nat := 0
deriving DecidableEq, Repr, Inhabited

end Sys2Proof.Machine
end

