-- ==== Sys2Proof/Machine/State/Chord.lean ====
section
/-!
DEFINITION. Chord's state (R218 to R254): instances with their accumulators, the early stores and the counters.
-/
namespace Sys2Proof.Machine

/-- A selected contribution of MIN or MAX (R232): −1, 0 or 1 for −∞, finite, +∞; K; and whether it is −0. -/
structure Sel where
  inf  : Int := 0
  k    : Int := 0
  negz : Bool := false
deriving DecidableEq, Repr, Inhabited

/-- An element's accumulator (R228). -/
structure Acc where
  k    : Int := 0
  pinf : Bool := false
  ninf : Bool := false
  nan  : Bool := false
  sel  : Option Sel := none
deriving DecidableEq, Repr, Inhabited

/-- A partial of the group for one chunk (R242, R244): the sender's index, the accumulators, and the fp32 values of
FP32_ORDERED. -/
structure HierPart where
  sender : Nat := 0
  accs   : List Acc := []
  f32    : List Nat := []
  poison : Bool := false
deriving DecidableEq, Repr, Inhabited

/-- A remote record (R243): its header's words and its payload. -/
structure HierRec where
  hdr  : List Nat := []
  data : List Byte := []
  at_  : Nat := 0
deriving DecidableEq, Repr, Inhabited

/-- An instance (R220). `next` is the next chunk a pulled instance reads; `got` the (member, chunk) pairs accepted;
`accs` and `raw` what pushed chunks have brought; `done` the chunks written here; `parts` the partials held of the own
shard's chunks; `pendRes` results not yet written. -/
structure Inst where
  cmd    : QCmd := {}
  tag    : Nat := 0
  table  : List (Nat × Nat) := []
  units  : Nat := 0
  ready  : Bool := true
  readyBy : Option Nat := none
  next   : Nat := 0
  got    : List (Nat × Nat) := []
  accs   : Tab (List Acc) := []
  raw    : Tab (List Byte) := []
  badCh  : List Nat := []
  done   : List Nat := []
  parts  : Tab (List HierPart) := []
  sent   : List Nat := []
  seen   : List (Nat × Nat × Nat) := []
  pendRes : List HierRec := []
  valid  : Nat := 0
  badRows : Nat := 0
  out    : Cpl := {}
  retryAt : Option Nat := none
  firstTry : Option Nat := none
  lastRec : Nat := 0
  since  : Nat := 0
deriving DecidableEq, Repr, Inhabited

/-- An engine: its active instances, the issues that wait for room, the remote early store, and the counters of R251
and R252. -/
structure ChdEng where
  insts : List Inst := []
  waiting : List QCmd := []
  early : List HierRec := []
  doneN : Nat := 0
  dup   : Nat := 0
  noInst : Nat := 0
  poisonChunks : Nat := 0
  saturated : Nat := 0
  overflow : Nat := 0
  nanOut : Nat := 0
  partialRows : Nat := 0
deriving DecidableEq, Repr, Inhabited

/-- Chord (R248, R249). -/
structure Chord where
  engs  : Tab ChdEng := []
  hierTmo : Nat := 0x3E8
  mismatch : Nat := 0
  timeouts : Nat := 0
  discards : Nat := 0
deriving DecidableEq, Repr, Inhabited

end Sys2Proof.Machine
end

