-- ==== Sys2Proof/Machine/State/Compass.lean ====
section
/-!
DEFINITION. Compass's state (R539 to R583, R648), the pair's liveness and recovery state (R584 to R615) and
the board pins (R616 to R642).
-/
namespace Sys2Proof.Machine

/-- R541, R572: the boot state. -/
inductive BootState where
  | rom | loading | init | running | recovery | halted
deriving DecidableEq, Repr, Inhabited

def BootState.code : BootState → Nat
  | .rom => 0 | .loading => 1 | .init => 2 | .running => 3 | .recovery => 4 | .halted => 5

/-- R573: the shadow set's state. -/
inductive ShadowState where
  | none | loading | verified | failed
deriving DecidableEq, Repr, Inhabited

def ShadowState.code : ShadowState → Nat
  | .none => 0 | .loading => 1 | .verified => 2 | .failed => 3

/-- R573: the state of the last swap. -/
inductive SwapState where
  | none | pending | done | refused
deriving DecidableEq, Repr, Inhabited

def SwapState.code : SwapState → Nat
  | .none => 0 | .pending => 1 | .done => 2 | .refused => 3

/-- R561: a log entry. -/
structure LogEntry where
  code  : Nat := 0
  sev   : Sev := .info
  part  : Option Nat := none
  block : Nat := 0
  user  : Bool := false
  seq   : Nat := 0
  ft    : Nat := 0
  angle : Nat := 0
  data  : List Nat := []
deriving DecidableEq, Repr, Inhabited

/-- R544: an NVM device: its image slot, its log area, its state area, and whether it answers. -/
structure Nvm where
  image   : Option Image := none
  log     : List LogEntry := []
  retired : List Retired := []
  retSeq  : Nat := 0
  answers : Bool := true
deriving DecidableEq, Repr, Inhabited

/-- R559: a sensor's last sample. -/
structure Sensor where
  value : Int := 0
  ft    : Nat := 0
  valid : Bool := false
deriving DecidableEq, Repr, Inhabited

/-- R571: an epoch of the energy history. -/
structure Epoch where
  start : Nat := 0
  capW  : Nat := 0
  f     : Nat := 16
  aOpen : Int := 0
  aClose : Int := 0
  m     : Nat := 0
  deficit : Nat := 0
  heldOrRefused : Nat := 0
deriving DecidableEq, Repr, Inhabited

/-- R582: a partition's energy counters, and its debits of the epoch in progress. -/
structure EnergyPart where
  lastDebit : Nat := 0
  debit   : Nat := 0
  refused : Nat := 0
  waits   : Nat := 0
deriving DecidableEq, Repr, Inhabited

/-- R565 to R571: the energy account of the epoch in progress. `capW` is the value in force, `capNext` the
last one written. -/
structure Energy where
  capW    : Nat := 0xAF0
  capNext : Nat := 0xAF0
  repay   : Nat := 4
  pauseEn : Bool := true
  a       : Int := 0
  f       : Nat := 16
  fEnergy : Nat := 16
  paused  : Bool := false
  pauseAt : Tab Nat := []
  belowZero : Bool := false
  deficit : Nat := 0
  instalment : Nat := 0
  base    : Int := 0
  m       : Nat := 0
  lastM   : Nat := 0
  d       : Nat := 0
  r       : Nat := 0
  epoch   : Nat := 0
  aOpen   : Int := 0
  epochStart : Nat := 0
  openingFree : Bool := false
  sampled : Nat := 0
  everSampled : Nat := 0
  lostReported : Nat := 0
  heldOrRefused : Nat := 0
  parts   : Tab EnergyPart := []
  hist    : List Epoch := []
deriving DecidableEq, Repr, Inhabited

/-- A pending swap: its trigger, who asked (R551), and whether a STEP trigger has been reached. -/
structure SwapPend where
  trig : SwapTrig := .now
  req  : Requester := .none
  hit  : Bool := false
deriving DecidableEq, Repr, Inhabited

/-- R557: an update in progress. -/
structure Update where
  slotB  : Bool := false
  len    : Nat := 0
  erased : Bool := false
  written : Nat := 0
  who    : Requester := .none
deriving DecidableEq, Repr, Inhabited

/-- R553, R554: a management session: when it last carried anything; its roles come with each command (`Requester.mgmt`). `spdm` tells a session
of port 5411. -/
structure Session where
  isOpen : Bool := false
  spdm  : Bool := false
  last  : Nat := 0
deriving DecidableEq, Repr, Inhabited

/-- R587: a block's fence: when it began, whether its drain is done, the block's transaction generation, the replies of
earlier ones dropped, and who waits for the reset. -/
structure Fence where
  on    : Bool := false
  since : Nat := 0
  drained : Bool := false
  gen   : Nat := 0
  staleDrops : Nat := 0
  whos  : List Requester := []
deriving DecidableEq, Repr, Inhabited

/-- Compass. -/
structure Compass where
  boot     : BootState := .rom
  imageB   : Bool := false
  onlyB    : Bool := false
  aFail    : Nat := 0
  bFail    : Nat := 0
  roleB    : Bool := false
  warmResets : Nat := 0
  bootFt   : Nat := 0
  runSince : Nat := 0
  tripped  : Bool := false
  reinit   : Bool := false
  active   : Image := {}
  shadow   : Image := {}
  shadowSt : ShadowState := .none
  shadowAt : Nat := 0
  swapSt   : SwapState := .none
  swap     : Option SwapPend := none
  swaps    : Nat := 0
  nvmA     : Nvm := {}
  nvmB     : Nvm := {}
  rollback : Nat := 0
  ownerHash : Option Nat := none
  jtagClosed : Bool := false
  log      : List LogEntry := []
  flushed  : Nat := 0
  nextSeq  : Nat := 0
  lost     : Bool := false
  lostCount : Nat := 0
  lastFlush : Nat := 0
  logSel   : Nat := 0
  sensorSel : Nat := 0
  sensors  : Tab Sensor := []
  warnC    : Nat := 0x5F
  throttleC : Nat := 0x69
  tripC    : Nat := 0x7D
  throttled : Bool := false
  warned   : Bool := false
  energy   : Energy := {}
  sessions : Tab Session := []
  update   : Option Update := none
  faultStatus : Nat := 0
  wdtUs    : Nat := 0x3E8
  autoReset : Nat := 0x1FF
  expiries : Nat := 0
  bistDone : Nat := 0
  bistPass : Nat := 0
  bistRetired : Nat := 0
  fences   : Tab Fence := []
  hw       : Hw := {}
deriving DecidableEq, Repr, Inhabited

/-- R609: the pair state. -/
inductive PairState where
  | alone | paired | linkLost | yielded | takeover | sole | joining | admitting
deriving DecidableEq, Repr, Inhabited

def PairState.code : PairState → Nat
  | .alone => 0 | .paired => 1 | .linkLost => 2 | .yielded => 3 | .takeover => 4 | .sole => 5
  | .joining => 6 | .admitting => 7

/-- The pair (R593 to R611). `aliveIn` is the level of PAIR_ALIVE_IN and `aliveInDeb` the debounced one; `joinStep` is the
step of R605 a joining switch is in; `handback` the partitions whose pages have been handed back (R606); `waits` the
mirrored changes that the partner has not acknowledged. -/
structure Pair where
  st        : PairState := .alone
  aliveIn   : Bool := false
  aliveInDeb : Bool := false
  aliveChange : Nat := 0
  aliveOut  : Bool := false
  mismatch  : Bool := false
  admitted  : Nat := 0
  takeovers : Nat := 0
  yieldMs   : Nat := 0xC8
  debounceUs : Nat := 0xA
  takeoverFt : Nat := 0
  lostFt    : Nat := 0
  partnerRunning : Bool := false
  partnerRunSince : Nat := 0
  handback  : Tab Nat := []
  joinStep  : Nat := 0
  joinRefused : Bool := false
  linkUp    : Bool := false
  helloRole : Option Nat := none
  mirrorSeq : Nat := 0
  waits     : List (Nat × Mirror × MirAct) := []
deriving DecidableEq, Repr, Inhabited

/-- The board pins (R621, R632). `thermtrip` is THERMTRIP_N driven low. -/
structure Pins where
  porstN   : Bool := false
  warmN    : Bool := true
  pgCmp    : Bool := false
  pgCore   : Bool := false
  pgAux    : Bool := false
  loss     : Bool := false
  thermtrip : Bool := false
  releaseHeld : Bool := false
  lsEn     : List Nat := []
  lsPres   : List Nat := List.range 22
  pcieOk0  : Bool := true
  pcieOk1  : Bool := true
deriving DecidableEq, Repr, Inhabited

end Sys2Proof.Machine
end

