-- ==== Sys2Proof/Machine/State/Cone.lean ====
section
/-!
DEFINITION. Cone's state (R255 to R288): queries with their slices, batches, and the counters.
-/
namespace Sys2Proof.Machine

/-- A head's state (R270): m, l and o as fp32 encodings. -/
structure Head where
  m : Nat := 0xFF800000
  l : Nat := 0
  o : List Nat := []
deriving DecidableEq, Repr, Inhabited

/-- A slice (R273, R274): its engine, tokens, the tokens folded in so far, and a state for each position and head. -/
structure Slice where
  idx    : Nat := 0
  engine : Nat := 0
  first  : Nat := 0
  count  : Nat := 0
  folded : Nat := 0
  active : Bool := false
  heads  : List Head := []
deriving DecidableEq, Repr, Inhabited

/-- A query: its header, vectors, the session's number and slot, its KV segment and descriptor; the slices merged so
far at the lead; and how its reading ended early. `batch` is its batch's identifier and place there. -/
structure Query where
  id     : Nat := 0
  cmd    : QCmd := {}
  hdr    : List Nat := []
  vecs   : List Byte := []
  num    : Nat := 0
  slot   : Nat := 0
  seg    : Nat := 0
  segw   : List Nat := []
  lead   : Nat := 0
  cls    : Nat := 0
  asid   : Nat := 0
  slices : List Slice := []
  merged : Nat := 0
  acc    : List Head := []
  out    : Cpl := {}
  stop   : Bool := false
  retryAt : Option Nat := none
  firstTry : Option Nat := none
  batch  : Option (Nat × Nat) := none
deriving DecidableEq, Repr, Inhabited

/-- A batch (R275, R277). `first` is set while its member list is still to be read: the time of the first try. -/
structure Batch where
  id   : Nat := 0
  cmd  : QCmd := {}
  left : Nat := 0
  okN  : Nat := 0
  total : Nat := 0
  first : Option Nat := none
deriving DecidableEq, Repr, Inhabited

/-- R285. `promo` is a class promoted for one turn (R278). -/
structure ConeEng where
  doneN  : Nat := 0
  slices : Nat := 0
  promptTurns : Nat := 0
  promotions : Nat := 0
  promo  : Option Nat := none
deriving DecidableEq, Repr, Inhabited

/-- R286. -/
structure ConeStat where
  queries : Nat := 0
  stateRefused : Nat := 0
  offPrism : Nat := 0
  nanHeads : Nat := 0
deriving DecidableEq, Repr, Inhabited

/-- Cone (R283). -/
structure Cone where
  queries : List Query := []
  batches : List Batch := []
  nextId  : Nat := 0
  engs    : Tab ConeEng := []
  stats   : Tab ConeStat := []
  timeouts : Nat := 0
  poisonQueries : Nat := 0
deriving DecidableEq, Repr, Inhabited

end Sys2Proof.Machine
end

