-- ==== Sys2Proof/Machine/State/Edge.lean ====
section
/-!
DEFINITION. Facet's and Edge's state (R450 to R499): ports, lanes, keys and replay, lasers, the pair link's buckets, tray
links and RoCE queue pairs. Ports 256 to 263 are the pair ports.
-/
namespace Sys2Proof.Machine

/-- R490: a port's link state. -/
inductive LinkState where
  | down | training | keying | up | stopped | refused
deriving DecidableEq, Repr, Inhabited

def LinkState.code : LinkState → Nat
  | .down => 0 | .training => 1 | .keying => 2 | .up => 3 | .stopped => 4 | .refused => 5

/-- R496: a lane's state. -/
inductive LaneSt where
  | active | spare | shadow | calibrating | retired | dark
deriving DecidableEq, Repr, Inhabited

def LaneSt.code : LaneSt → Nat
  | .active => 0 | .spare => 1 | .shadow => 2 | .calibrating => 3 | .retired => 4 | .dark => 5

/-- A physical lane (R496, R497): its state and position in each direction, when it lost lock, the replays counted against
it in the window `win` of fabric time, the windows before that with more than three, and whether its SER is high. -/
structure Lane where
  rx    : LaneSt := .active
  tx    : LaneSt := .active
  rxPos : Nat := 0
  txPos : Nat := 0
  lol   : List Nat := []
  win   : Nat := 0
  count : Nat := 0
  windows : Nat := 0
  serHigh : Bool := false
deriving DecidableEq, Repr, Inhabited

/-- R473: how far a receiver's use of its spare has come. -/
inductive CalPhase where
  | shadow | tuning | verify | restored
deriving DecidableEq, Repr, Inhabited

/-- A calibration, or the retirement of a lane onto the spare (R473, R476), of position `pos` that `lane` carries;
`retire` gives the cause of a retirement, `next` a lane to be retired when the position has been taken back (R499). -/
structure Cal where
  pos    : Nat := 0
  lane   : Nat := 0
  spare  : Nat := 0
  phase  : CalPhase := .shadow
  retire : Option Nat := none
  next   : Option (Nat × Nat) := none
deriving DecidableEq, Repr, Inhabited

/-- A group, or the groups of one packet, kept until acknowledged (R459): how often it was sent, and on a pair port its
message. -/
structure Unacked where
  seq    : Nat := 0
  tries  : Nat := 1
  bucket : Option (Nat × Nat) := none
  len    : Nat := 0
  part   : Nat := 0
deriving DecidableEq, Repr, Inhabited

/-- A LANE_REQ that waits for its LANE_ACK: its action, and the lane and cause of the retirement it makes. -/
structure LaneReq where
  action : Nat := 0
  msg    : LaneMsg := {}
  lane   : Nat := 0
  cause  : Nat := 0
deriving DecidableEq, Repr, Inhabited

/-- A port's fixed settings and link state (R450 to R476, R490 to R497). `since` is when its bring-up step began; `keyed`
tells that its link keys are derived; `txCtr` is the transmit counter at `txAt` (R457), `rxCtr` the counter expected next;
`rxNext` the epoch the receiver changes to at the toggled group (R460). `credits` are counted by class, on a pair port by
partition × 16 + class (R468, R478). -/
structure Port where
  mode : PortMode := .unused
  part : Option Nat := none
  priv : Bool := false
  coherent : Bool := false
  translating : Bool := false
  gang : Option Nat := none
  peer : Option Nat := none
  st   : LinkState := .down
  since : Nat := 0
  noSpare : Bool := false
  lanes : List Lane := []
  txWidth : Nat := 0
  rxWidth : Nat := 0
  cal   : Option Cal := none
  laneReq : Option LaneReq := none
  calSkips : Nat := 0
  calRun : Nat := 0
  lastCause : Nat := 0
  txSeq : Nat := 0
  txAck : Nat := 4095
  unacked : List Unacked := []
  progress : Nat := 0
  txEpoch : Nat := 0
  txPhase : Bool := false
  txCtr : Nat := 0
  txAt  : Nat := 0
  rxSeq : Nat := 0
  rxCtr : Nat := 0
  rxEpoch : Nat := 0
  rxPhase : Bool := false
  rxNext : Option Nat := none
  keyed : Bool := false
  authRun : Nat := 0
  backoff : Option Nat := none
  credits : Tab Nat := []
  lastGood : Nat := 0
  linkDowns : Nat := 0
  replays : Nat := 0
  corrupt : Nat := 0
  authFails : Nat := 0
  downDrops : Nat := 0
deriving DecidableEq, Repr, Inhabited

/-- An agreement of an epoch (R511): the port, the peer's identity, whether it has begun or waits for another of the same
identity, the proposals, the epoch agreed, and the REKEY_ACKs sent and received. `since` is when REKEY was last sent;
`queued` when its commit began to wait behind others. -/
structure Agree where
  port   : Nat := 0
  tag    : Nat := 0
  rekey  : Bool := false
  begun  : Bool := false
  own    : Nat := 0
  peer   : Option Nat := none
  epoch  : Option Nat := none
  sent   : Bool := false
  got    : Option Nat := none
  since  : Nat := 0
  queued : Option Nat := none
deriving DecidableEq, Repr, Inhabited

/-- R493: a tray port's link. WIDTH 0 is x8, 1 x4, 2 x2 and 3 down. -/
structure TrayLink where
  width  : Nat := 3
  spareCap : Bool := false
  spareUsed : Bool := false
  sparedLane : Nat := 0
  recoveries : Nat := 0
deriving DecidableEq, Repr, Inhabited

/-- R494: a queue pair's state. -/
inductive QpState where
  | reset | rts | error
deriving DecidableEq, Repr, Inhabited

def QpState.code : QpState → Nat
  | .reset => 0 | .rts => 1 | .error => 2

/-- A queue pair (R483, R484, R494). `rate` is its send rate in millionths of the port's. -/
structure Qp where
  st     : QpState := .reset
  sndPsn : Nat := 0
  expPsn : Nat := 0
  unacked : List Nat := []
  lastAck : Nat := 0
  tries  : Nat := 0
  rnrTries : Nat := 0
  retries : Nat := 0
  rnrNaks : Nat := 0
  accessErr : Nat := 0
  rate   : Nat := 1000000
  rateAt : Nat := 0
  lastCnp : Option Nat := none
deriving DecidableEq, Repr, Inhabited

/-- The bucket map at reset (R479): bucket b on pair port b mod 8. -/
def resetBuckets : List Nat := (List.range 64).map fun b => b % 8

/-- Edge and Facet. `buckets` is the pair port of each bucket, `txBseq` the next sequence number of each, `rxBseq` the next
that a receiver expects. `withheld` are the request-class returns a joining switch keeps back (R470): port, partition,
class and units. -/
structure Edge where
  ports  : Tab Port := []
  replayTmo : Nat := 0xFA0
  pairTmo : Nat := 0x32
  calPorts : Nat := 0x10
  agrees : List Agree := []
  buckets : List Nat := resetBuckets
  txBseq : Tab Nat := []
  rxBseq : Tab Nat := []
  remaps : Nat := 0
  dupDrops : Nat := 0
  trays  : Tab TrayLink := []
  qps    : Tab Qp := []
  qpDrops : Nat := 0
  qpSel  : Tab Nat := []
  ethDrops : Nat := 0
  withheld : List (Nat × Nat × Nat × Nat) := []
deriving DecidableEq, Repr, Inhabited

end Sys2Proof.Machine
end

