-- ==== Sys2Proof/Machine/State/Locus.lean ====
section
/-!
DEFINITION. Locus's state (R86 to R125): contexts, TLBs, walks, the LOC_SYNC queues and the fault rings; and
the memory requests of the pipeline of R28 that are in flight.
-/
namespace Sys2Proof.Machine

/-- A translation context (R91 to R93): its header and its 16 descriptors, each four words. -/
structure Ctx where
  valid    : Bool := false
  endpoint : Nat := 0
  asid     : Nat := 0
  segs     : List (List Nat) := []
deriving DecidableEq, Repr, Inhabited

/-- R103, R104: a TLB entry: its tag (context index, SEG, virtual page, page size), the leaf and the segment
attributes it was filled with. `way` is its way in the second level. -/
structure TlbEnt where
  ctx  : Nat := 0
  seg  : Nat := 0
  page : Nat := 0
  big  : Bool := false
  leaf : Nat := 0
  way  : Nat := 0
deriving DecidableEq, Repr, Inhabited

/-- R162: the coherent requests. -/
inductive CohOp where
  | rdShared | rdOwn | upgrade | rdCur | wrLine | wrPart | atomic
deriving DecidableEq, Repr, Inhabited

/-- R178: the operations of ATOMIC. -/
inductive AtomOp where
  | fetchAdd | fetchMin | fetchMax | compareSwap
deriving DecidableEq, Repr, Inhabited

/-- What a memory request asks for. -/
inductive ReqKind where
  | rd | wr | posted | xl
  | coh (op : CohOp)
deriving DecidableEq, Repr, Inhabited

/-- Where a request stands in the pipeline of R28. -/
inductive ReqPhase where
  | walking                 -- waits for a walk, or in the miss queue
  | access                  -- translated, at its home's memory side
  | mapWait                 -- waits for the partner's acknowledgement of a map entry (R130)
  | vertex                  -- at Vertex's ordering point
deriving DecidableEq, Repr, Inhabited

/-- A memory request in flight. `mask` is the byte mask of WR_PART; `atom` the atomic's operation, element
type code, operand and compare value; `mark` the message's poison mark (R210); `left` and `out` the lines a coherent
request of several lines still waits for and the outcome so far. -/
structure MemReq where
  id     : Nat := 0
  who    : Requester := .none
  part   : Nat := 0
  endpoint : Nat := 0
  asid   : Nat := 0
  va     : Nat := 0
  len    : Nat := 0
  kind   : ReqKind := .rd
  data   : List Byte := []
  mask   : List Bool := []
  atom   : Option (AtomOp × Nat × Nat × Nat) := none
  mark   : Bool := false
  cls    : SClass := .prompt
  ctx    : Nat := 0
  seg    : List Nat := []
  phase  : ReqPhase := .walking
  pa     : Nat := 0
  fwd    : Bool := false
  since  : Nat := 0
  gen    : Nat := 0
  left   : Nat := 0
  out    : Cpl := {}
  retryAt : Option Nat := none
  phys   : Bool := false
deriving DecidableEq, Repr, Inhabited

/-- A page-table walk (R98, R99, R105). `level` is 4 to 1; `joined` are the requests that take its outcome. -/
structure Walk where
  id     : Nat := 0
  part   : Nat := 0
  ctx    : Nat := 0
  segNo  : Nat := 0
  seg    : List Nat := []
  page   : Nat := 0
  level  : Nat := 4
  table  : Nat := 0
  joined : List Nat := []
  first  : Nat := 0
  retryAt : Option Nat := none
deriving DecidableEq, Repr, Inhabited

/-- A miss that waits for a walker (R105). -/
structure Miss where
  part  : Nat := 0
  ctx   : Nat := 0
  segNo : Nat := 0
  page  : Nat := 0
  reqs  : List Nat := []
  at_   : Nat := 0
deriving DecidableEq, Repr, Inhabited

/-- A LOC_SYNC written and not yet completed (R111). -/
structure LocSync where
  record  : Nat := 0
  applied : Bool := false
  status  : Cpl := {}
  ctx     : Nat := 0
  obj     : Option Nat := none
  oldReqs : List Nat := []
  acks    : List (Nat × Nat) := []       -- endpoints still to acknowledge, and since when
  readable : Bool := true
  timedOut : Bool := false
  first   : Nat := 0
deriving DecidableEq, Repr, Inhabited

/-- R116: a fault entry's eight words. -/
abbrev FaultEnt := List Nat

/-- A partition's fault ring and LOC_SYNC state (R115 to R124). -/
structure LocPart where
  head  : Nat := 0
  tail  : Nat := 0
  count : Nat := 0
  lost  : Bool := false
  seq   : Nat := 0
  ovf   : List Nat := [0, 0, 0, 0, 0, 0, 0, 0]
  syncs : List LocSync := []
  lastStatus : Nat := 0
  lastRecord : Nat := 0
  timeouts : Nat := 0
deriving DecidableEq, Repr, Inhabited

/-- Locus. `cached` lists the (context, endpoint) pairs whose endpoint may hold cached translations (R465),
`disabled` those disabled under R112, `kvLeaves` the leaves of KV segments
that Orbit wrote, by their addresses (R102, R113). -/
structure Locus where
  ctxs     : Tab Ctx := []
  disabled : List (Nat × Nat) := []
  cached   : List (Nat × Nat) := []
  tlb1     : Tab (List TlbEnt) := []
  tlb2     : Tab (List TlbEnt) := []
  walks    : List Walk := []
  misses   : List Miss := []
  nextPart : Nat := 0
  parts    : Tab LocPart := []
  ring     : Tab FaultEnt := []
  reqs     : List MemReq := []
  nextReq  : Nat := 0
  kvLeaves : Tab Nat := []
  nextWalk : Nat := 0
deriving DecidableEq, Repr, Inhabited

end Sys2Proof.Machine
end

