-- ==== Sys2Proof/Machine/State/Out.lean ====
section
/-!
DEFINITION. What leaves the switch: completions, messages on ports, mirror traffic to the partner and pin
events. The state keeps everything sent, newest first, so that statements can speak of it.
-/
namespace Sys2Proof.Machine

/-- The kinds of message the switch sends that are no completions. -/
inductive MsgKind where
  | xlInv | xlData | cohSnoop | cohData | cohGrant | cohDown | windowData | linkPause | linkCredit | linkHello
  | linkRekey | linkRekeyAck | laneReq | laneAck | groupAck | groupNak | groupReplay
  | pauseFrame | pfcFrame | ethFrame | roceAck | roceNak | roceData | roceRetransmit | cnp | ceMarked
  | hierPartial | hierResult | hierAbort | forward | memRead | walkRead | prefetchData
  | spdm | attest | ppsRise | creditWithheld | packetOut | dropped | epochCommit | lightOff | serviceStart
  | poolState | poolRoot | roceRnr | ethUp | mirrorAck | mgmtBody | gone | pairAlive
deriving DecidableEq, Repr, Inhabited

/-- Something the switch sent. -/
inductive Out where
  | cpl (toWho : Requester) (c : Cpl)
  | msg (kind : MsgKind) (dest : Nat) (args : List Nat) (data : List Byte)
  | mirror (m : Mirror)
deriving DecidableEq, Repr, Inhabited

end Sys2Proof.Machine
end

