-- ==== Sys2Proof/Machine/State/Perimeter.lean ====
section
/-!
DEFINITION. Perimeter's state (R500 to R538): the pool's identity, tenancies and group generations, the epoch store, scrubs,
group fills and debug.
-/
namespace Sys2Proof.Machine

/-- R530: how the switch came by its pool. -/
inductive PoolHold where
  | none | founded | joined
deriving DecidableEq, Repr, Inhabited

def PoolHold.code : PoolHold → Nat
  | .none => 0 | .founded => 1 | .joined => 2

/-- R514: a slot of a record; `valid` tells that its CRC, KIND and reserved bytes are as R516 requires, `zero` that all its
bytes are. -/
structure Slot where
  seq   : Nat := 0
  value : Nat := 0
  tag   : Nat := 0
  valid : Bool := false
  zero  : Bool := true
deriving DecidableEq, Repr, Inhabited

/-- A record of the epoch store. -/
structure Rec where
  s0 : Slot := {}
  s1 : Slot := {}
deriving DecidableEq, Repr, Inhabited

/-- What a commit is for (R503, R511). -/
inductive CommitFor where
  | agree (port : Nat) | poolGen
deriving DecidableEq, Repr, Inhabited

/-- R515: a commit in the queue. -/
structure Commit where
  record : Nat := 0
  value : Nat := 0
  tag   : Nat := 0
  why   : CommitFor := .poolGen
deriving DecidableEq, Repr, Inhabited

/-- R519, R521: the scrub in progress, its bound under R520 in ns, whether the partner has finished its part, and whether
it has been escalated. -/
structure Scrub where
  part  : Nat := 0
  ddr   : Bool := false
  force : Bool := false
  since : Nat := 0
  bound : Nat := 0
  acked : Bool := false
  escalated : Bool := false
deriving DecidableEq, Repr, Inhabited

/-- R508, R509: a GROUP_FILL that waits for budget, or a GROUP_ZERO that waits for the partner. -/
structure Fill where
  g     : Nat := 0
  zero  : Bool := false
  src   : Nat := 0
  dst   : Nat := 0
  bytes : Nat := 0
  cost  : Nat := 0
  who   : Requester := .none
deriving DecidableEq, Repr, Inhabited

/-- A partition's record of scrubs (R535, R525). -/
structure PerPart where
  tenancy : Nat := 0
  scrubs  : Nat := 0
  scrubFt : Nat := 0
deriving DecidableEq, Repr, Inhabited

/-- Perimeter. `identity` is TAG(Q_ID). `poolDebug` is DEBUG in the
derivation of POOL_ROOT (R502). `tPending` are the partitions whose forced scrub is complete and whose T_n waits for the
partner (R521, R538). -/
structure Perimeter where
  scrubbing : List Nat := []
  debug     : Bool := false
  scope     : Nat := 0
  pool      : PoolHold := .none
  poolGen   : Nat := 0
  poolDebug : Bool := false
  partnerPool : Option Bool := none
  partnerFounded : Bool := false
  partnerGen : Nat := 0
  trainFt   : Option Nat := none
  parts     : Tab PerPart := []
  ggen      : Tab Nat := []
  store     : Tab Rec := []
  storeAbsent : Bool := false
  faulted   : List Nat := []
  commits   : List Commit := []
  commitN   : Nat := 0
  torn      : Nat := 0
  scrub     : Option Scrub := none
  tPending  : List Nat := []
  lastPart  : Nat := 0
  lastStatus : Nat := 0
  lastUs    : Nat := 0
  fills     : List Fill := []
  identity  : Nat := 0
  challenge : Option Nat := none
  founding  : Bool := false
  erased    : Bool := false
deriving DecidableEq, Repr, Inhabited

end Sys2Proof.Machine
end

