-- ==== Sys2Proof/Machine/State/Plane.lean ====
section
/-!
DEFINITION. Plane's state (R126 to R156) and Fold's (R197 to R217): the page map, copies, migrations, tiers
and their errors, the command queues, and the metadata of the pool's blocks.
-/
namespace Sys2Proof.Machine

/-- R131: a local COPY of a read-only page. -/
structure PgCopy where
  page   : Nat := 0
  frame  : Nat := 0
  part   : Nat := 0
  done   : Bool := false
  relAt  : Option Nat := none
  passed : Bool := false
deriving DecidableEq, Repr, Inhabited

/-- A migration in progress (R132). `copied` tells that step 2 is done; `held` that the switchover waits for the
pair link (R133); `evac` that R146, R147 or R606 started it. -/
structure Migr where
  page   : Nat := 0
  src    : Frame := {}
  dst    : Frame := {}
  origin : Option Frame := none
  copied : Bool := false
  evac   : Bool := false
  order  : Nat := 0
  ackWait : Bool := false
deriving DecidableEq, Repr, Inhabited

/-- A Plane command in progress, until its last page is placed (R139, R140). `pend` are the pages whose change is
under way, `todo` those that wait for an earlier command's effect on them (R143). -/
structure PlnJob where
  cmd     : QCmd := {}
  pend    : List Nat := []
  todo    : List Nat := []
  placed  : Nat := 0
  missed  : Nat := 0
  deadline : Option Nat := none
  late    : Bool := false
  out     : Cpl := {}
deriving DecidableEq, Repr, Inhabited

/-- R154: a DDR5 channel or tray's state. -/
inductive ObjState where
  | active | evacuating | retired | absent
deriving DecidableEq, Repr, Inhabited

def ObjState.code : ObjState → Nat
  | .active => 0 | .evacuating => 1 | .retired => 2 | .absent => 3

/-- R155: this switch's head of a tray. -/
inductive HeadState where
  | up | retraining | retired
deriving DecidableEq, Repr, Inhabited

def HeadState.code : HeadState → Nat
  | .up => 0 | .retraining => 1 | .retired => 2

structure Channel where
  st : ObjState := .absent
deriving DecidableEq, Repr, Inhabited

/-- A tray port. `downAt` holds the fabric times of its link-down events within the last hour, `partnerRetired`
that the partner's head is retired. -/
structure Tray where
  st     : ObjState := .absent
  head   : HeadState := .up
  frames : Nat := 524288
  downAt : List Nat := []
  downSince : Option Nat := none
  partnerRetired : Bool := false
deriving DecidableEq, Repr, Inhabited

/-- An error of a frame (R146): when, and whether it was uncorrectable. -/
structure FrameErr where
  frame : Frame := {}
  ft    : Nat := 0
  ue    : Bool := false
deriving DecidableEq, Repr, Inhabited

/-- R153. -/
structure PfStat where
  late : Nat := 0
  partialPages : Nat := 0
  spills : Nat := 0
  energyRefused : Nat := 0
deriving DecidableEq, Repr, Inhabited

/-- R202: the stored forms. -/
inductive Form where
  | zero | sp8 | sp16 | sp32 | raw
deriving DecidableEq, Repr, Inhabited

def Form.code : Form → Nat
  | .zero => 0 | .sp8 => 1 | .sp16 => 2 | .sp32 => 3 | .raw => 4

/-- R207, R211: why a block is not trusted. -/
inductive BlkCause where
  | ecc | format | check | tag | bpoison | pmask
deriving DecidableEq, Repr, Inhabited

def BlkCause.code : BlkCause → Nat
  | .ecc => 0 | .format => 1 | .check => 2 | .tag => 3 | .bpoison => 4 | .pmask => 5

/-- R199: a block's metadata, with the cause for which it is unverified (R207) and when that was last logged
(R211). The values of CHECK and TAG are functions of the rest; the model holds whether they match. -/
structure Blk where
  form    : Form := .zero
  sectors : Nat := 0
  pmask   : Nat := 0
  bpoison : Bool := false
  bad     : Option BlkCause := none
  logged  : Option Nat := none
deriving DecidableEq, Repr, Inhabited

/-- R215, R216. -/
structure FldStat where
  tagFail : Nat := 0
  checkFail : Nat := 0
  poisonWrites : Nat := 0
  poisonReads : Nat := 0
  blocks : Nat := 0
  sectors : Nat := 0
deriving DecidableEq, Repr, Inhabited

/-- Plane. `use` stamps the last use of a page's frame by a rising clock, for R144's order. `relAt` and
`passed` are the release Angles of promoted pages and the pages past theirs. `rotDdr` and
`rotTray` hold the channel and tray a partition's last frame came from, plus one (R134). -/
structure Plane where
  pages   : Tab PageEnt := []
  copies  : List PgCopy := []
  migs    : List Migr := []
  jobs    : List PlnJob := []
  use     : Tab Nat := []
  clock   : Nat := 0
  rotDdr  : Tab Nat := []
  rotTray : Tab Nat := []
  retired : List Frame := []
  chans   : Tab Channel := []
  trays   : Tab Tray := []
  errs    : List FrameErr := []
  degraded : Bool := false
  ready   : Bool := false
  pf      : Tab PfStat := []
  relAt   : Tab Nat := []
  passed  : List Nat := []
  nextOrder : Nat := 0
deriving DecidableEq, Repr, Inhabited

/-- A run of bytes that a write put into pool memory, and who wrote it. The order in which they stand lets a read tell what
was written since a command was accepted (R233, R262, R384). -/
structure WriteRec where
  off    : Nat := 0
  len    : Nat := 0
  engine : Bool := false
  num    : Nat := 0
deriving DecidableEq, Repr, Inhabited

/-- Fold. -/
structure Fold where
  blocks : Tab Blk := []
  wlog   : List WriteRec := []
  verifyFail : Nat := 0
  checkRetry : Nat := 0
  parts  : Tab FldStat := []
deriving DecidableEq, Repr, Inhabited

end Sys2Proof.Machine
end

