-- ==== Sys2Proof/Machine/State/Vertex.lean ====
section
/-!
DEFINITION. Vertex's state (R157 to R196): the directory, transactions and their queues, combining windows, and the
coherent domain.
-/
namespace Sys2Proof.Machine

/-- R189: the state of the coherent domain. -/
inductive CohState where
  | up | down | restarting
deriving DecidableEq, Repr, Inhabited

def CohState.code : CohState → Nat
  | .up => 0 | .down => 1 | .restarting => 2

/-- R165, R166: a directory entry: its line (a pool offset over 128), whether one agent owns it, and its holders: exact
pointers, or with COARSE the group vector. -/
structure DirEnt where
  line   : Nat := 0
  used   : Bool := false
  own    : Bool := false
  coarse : Bool := false
  ptrs   : List Nat := []
  groups : Nat := 0
  stamp  : Nat := 0
deriving DecidableEq, Repr, Inhabited

/-- What a transaction does to its line. -/
inductive VOp where
  | coh (op : CohOp)
  | flush | downgrade | backInv
deriving DecidableEq, Repr, Inhabited

/-- A request at the ordering point. `off` is the byte in the line; `rid` and `ctx` are Locus's number for it and its context,
where it came through one. -/
structure VReq where
  who   : Requester := .none
  agent : Nat := 0
  part  : Nat := 0
  tag   : Nat := 0
  op    : VOp := .backInv
  line  : Nat := 0
  off   : Nat := 0
  data  : List Byte := []
  mask  : List Bool := []
  atom  : Option (AtomOp × Nat × Nat × Nat) := none
  comb  : Bool := false
  priv  : Bool := false
  mark  : Bool := false
  compress : Bool := false
  at_   : Nat := 0
  ctx   : Nat := 0
  rid   : Option Nat := none
deriving DecidableEq, Repr, Inhabited

/-- R162: the snoops. -/
inductive Snoop where
  | cur | data | inv | fwdSh | fwdOwn
deriving DecidableEq, Repr, Inhabited

def Snoop.code : Snoop → Nat
  | .cur => 0 | .data => 1 | .inv => 2 | .fwdSh => 3 | .fwdOwn => 4

/-- R162: the snoop responses but COH_DOWN_ACK. -/
inductive Rsp where
  | i | s | keep | dataI | dataS | dataKeep | fwdI | fwdS | fwdSData | wb
deriving DecidableEq, Repr, Inhabited

/-- A transaction in progress on a line (R173): snoops without a response, agents whose announced writeback has not
come, data recalled, whether that data must reach memory, whether the owner sent the requester its data, and, when
memory is asked, since when and when a RETRY is presented again. `after` is the request a back-invalidation makes
room for. -/
structure VTxn where
  line   : Nat := 0
  req    : VReq := {}
  snoops : List (Nat × Snoop) := []
  wbs    : List Nat := []
  data   : Option (List Byte) := none
  dirty  : Bool := false
  fwd    : Bool := false
  grant  : Bool := false
  since  : Nat := 0
  mem    : Bool := false
  memSince : Nat := 0
  retryAt : Option Nat := none
  atHome : Bool := false
  gone   : List Nat := []
  after  : Option VReq := none
deriving DecidableEq, Repr, Inhabited

/-- A combining window (R177, R179). `data` is set once the line's data is at the home of a read window. -/
structure VWin where
  line   : Nat := 0
  part   : Nat := 0
  opened : Nat := 0
  atomic : Bool := false
  key    : Nat × Nat × Nat := (0, 0, 0)
  members : List VReq := []
  count  : Nat := 1
  data   : Option (List Byte) := none
deriving DecidableEq, Repr, Inhabited

/-- A FLUSH or DOWNGRADE in progress: its next line. -/
structure VJob where
  id   : Nat := 0
  cmd  : QCmd := {}
  next : Nat := 0
deriving DecidableEq, Repr, Inhabited

/-- R194. -/
structure VtxStat where
  combReads : Nat := 0
  combAtomics : Nat := 0
  backInval : Nat := 0
  downCmp : Nat := 0
deriving DecidableEq, Repr, Inhabited

/-- Vertex. `granted` lists (agent, line, tag) for R164; `recalled` is data that reaches memory before a restart
completes (R183); `restart` are the partitions R187 step 5 restarts. -/
structure Vertex where
  st      : CohState := .up
  gen     : Nat := 0
  downCount : Nat := 0
  staleDrops : Nat := 0
  cause   : Nat := 0
  agent   : Nat := 0
  infoLine : Nat := 0
  downFt  : Nat := 0
  snoopTmo : Nat := 0x14
  ackTmo  : Nat := 0x64
  excluded : List Nat := []
  dirIdx  : Nat := 0
  dir     : Tab DirEnt := []
  clock   : Nat := 0
  txns    : List VTxn := []
  queue   : List VReq := []
  held    : List VReq := []
  wins    : List VWin := []
  granted : List (Nat × Nat × Nat) := []
  ptrs    : Tab Nat := []
  jobs    : List VJob := []
  stats   : Tab VtxStat := []
  ackWait : List Nat := []
  ackSince : Nat := 0
  walked  : Bool := false
  recalled : List (Nat × List Byte) := []
  restart : List Nat := []
  outside : Nat := 0
deriving DecidableEq, Repr, Inhabited

end Sys2Proof.Machine
end

