-- ==== Sys2Proof/Machine/State.lean ====
section
/-!
DEFINITION. The state of the switch.
-/
namespace Sys2Proof.Machine

/-- There is no reason to stop: every command that the spec describes ends in a next state, with a completion status where it
goes wrong (R9). Nobody raises a fault. -/
inductive Fault where
deriving DecidableEq, Repr

/-- A command that has no meaning. -/
inductive Refusal where
  /-- Raised by an arm of exec whose command is not modelled, with the mnemonic of its row. Safe: it stops the machine. No arm
  raises it. -/
  | notModelled (mnemonic : String)
deriving DecidableEq, Repr

/-- The machine. `pending` are the commands that wait, first in, first out. `out` is what the switch has sent, newest first, and
`fresh` counts the free values used: both are the model's own (entries 3 and 4). `ft` is fabric time in ns (R5). The other
fields are the blocks' states, the pins, the pair's, the command queues of the engines (`eng`) and the pool memory. -/
structure State where
  pending : List Instr := []
  out  : List Out := []
  fresh : Nat := 0
  ft   : Nat := 0
  pins : Pins := {}
  cmp  : Compass := {}
  pair : Pair := {}
  mer  : Meridian := {}
  per  : Perimeter := {}
  edg  : Edge := {}
  lat  : Lattice := {}
  loc  : Locus := {}
  pln  : Plane := {}
  fld  : Fold := {}
  eng  : Eng := {}
  vtx  : Vertex := {}
  chd  : Chord := {}
  cone : Cone := {}
  orb  : Orbit := {}
  apx  : Apex := {}
  cen  : Centroid := {}
  arc  : Arc := {}
  mem  : List Host.Cell := []
deriving DecidableEq, Repr

/-- R541, R616: with power off and PORST_N asserted, every field at the value the spec gives for reset; what it gives none for is
named in entries 5 and 6. -/
def State.reset : State := {}

end Sys2Proof.Machine
end

