-- ==== Sys2Proof/Machine/Ops.lean ====
section
/-!
DEFINITION. The operations every block shares: sending, free values, the event log (R561 to R564, R585), the
energy account (R565 to R570, R648), block fences (R587), partition fences (R519), the partner (R33) and
access to the tables of domains, objects, sequencers and ports.
-/
namespace Sys2Proof.Machine

/-- What a meaning answers. -/
abbrev Res := Host.Outcome State Fault Refusal

/-! ### Sending -/

/-- `o` leaves the switch. -/
def emit (o : Out) (s : State) : State := { s with out := o :: s.out }

/-- A message leaves the switch. -/
def send (k : MsgKind) (dest : Nat) (args : List Nat) (s : State) : State := emit (.msg k dest args []) s

/-- The counter behind the free values moves on. -/
def useFresh (s : State) : State := { s with fresh := s.fresh + 1 }

/-- A fresh free value cut to `w` bits. -/
def freeNat (w : Nat) (s : State) : Nat := (Config.freeValue s.fresh).toNat % 2 ^ w

/-! ### Tables -/

def dom (s : State) (n : Nat) : Dom := s.mer.doms.get n
def setDom (n : Nat) (d : Dom) (s : State) : State := { s with mer := { s.mer with doms := s.mer.doms.set n d } }
def modDom (n : Nat) (f : Dom → Dom) (s : State) : State := setDom n (f (dom s n)) s

def obj (s : State) (i : Nat) : SyncObj := s.mer.objs.get i
def setObj (i : Nat) (o : SyncObj) (s : State) : State := { s with mer := { s.mer with objs := s.mer.objs.set i o } }

def seqOf (s : State) (m : Nat) : Seq := s.mer.seqs.get m
def setSeq (m : Nat) (q : Seq) (s : State) : State := { s with mer := { s.mer with seqs := s.mer.seqs.set m q } }
def modSeq (m : Nat) (f : Seq → Seq) (s : State) : State := setSeq m (f (seqOf s m)) s

def port (s : State) (p : Nat) : Port := s.edg.ports.get p
def setPort (p : Nat) (x : Port) (s : State) : State := { s with edg := { s.edg with ports := s.edg.ports.set p x } }
def modPort (p : Nat) (f : Port → Port) (s : State) : State := setPort p (f (port s p)) s

/-- R541: the switch is running. -/
def running (s : State) : Bool := s.cmp.boot == .running && s.pair.st != .yielded

/-! ### Monitors (R435 to R437) -/

def modArc (f : Arc → Arc) (s : State) : State := { s with arc := f s.arc }

/-- R435: the bin of a latency in ns. -/
def latBin (l : Nat) : Nat := if l < 8 then 0 else min 31 (Nat.log2 l - 2)

/-- A request of a partition is measured at a monitor, unless its captures are frozen. -/
def monSample (mon part lat depth src : Nat) (s : State) : State :=
  if bitOf s.arc.frozen part then s
  else modArc (fun a => { a with mons := a.mons.mod (mon * 16 + part) fun m =>
    let b := latBin lat
    { bins := m.bins.set b (satAdd 32 (m.bins.get b) 1), minD := min m.minD depth, maxD := max m.maxD depth,
      hwmNs := max m.hwmNs lat, hwmFt := if m.hwmNs < lat then s.ft else m.hwmFt, hwmSrc := if m.hwmNs < lat then src else m.hwmSrc,
      samples := m.samples + 1 } }) s

/-! ### The partner (R33, R44, R593) -/

/-- The switch has a running partner, whose acknowledgement mirrored changes wait for. -/
def hasPartner (s : State) : Bool :=
  s.pair.partnerRunning &&
    (s.pair.st == .paired || s.pair.st == .linkLost || s.pair.st == .admitting || s.pair.st == .joining)

/-- R33: a mirrored change is sent, and `act` waits for its acknowledgement; with no running partner `k` takes
effect at once. While the pair link is down the change stays with the waiting ones (R45, R133). -/
def mirrorThen (m : Mirror) (act : MirAct) (k : State → State) (s : State) : State :=
  if hasPartner s then
    let n := s.pair.mirrorSeq
    let s := { s with pair := { s.pair with mirrorSeq := n + 1, waits := s.pair.waits ++ [(n, m, act)] } }
    if s.pair.linkUp then emit (.mirror m) s else s
  else k s

/-- A mirrored change that nothing waits for. -/
def mirrorOnly (m : Mirror) (s : State) : State := if hasPartner s then mirrorThen m .none id s else s

/-! ### The event log (R561 to R564) and CMP_FAULT_STATUS (R585) -/

/-- R585: a bit of CMP_FAULT_STATUS is set. -/
def setFaultBit (i : Nat) (s : State) : State :=
  { s with cmp := { s.cmp with faultStatus := setBit s.cmp.faultStatus i } }

/-- R585: FAULT_N is asserted while any bit is 1. -/
def faultAsserted (s : State) : Bool := s.cmp.faultStatus != 0

/-- R563: entries not yet flushed. -/
def unflushed (s : State) : Nat := s.cmp.nextSeq - s.cmp.flushed

/-- R563, R585: an entry enters the ring or is dropped and counted. -/
def logRaw (e : LogEntry) (s : State) : State :=
  let free := 16384 - unflushed s
  let high := e.sev == .error || e.sev == .fatal
  if (if high then 0 < free else 256 < free) then
    let e := { e with seq := s.cmp.nextSeq, ft := s.ft }
    let s := { s with cmp := { s.cmp with log := (e :: s.cmp.log).take 16384, nextSeq := s.cmp.nextSeq + 1 } }
    if e.sev == .error then setFaultBit 0 s else if e.sev == .fatal then setFaultBit 1 s else s
  else
    setFaultBit 5 { s with cmp := { s.cmp with lost := true, lostCount := sat 16 s.cmp.lostCount } }

/-- R564: the entries a flush writes, oldest first, appended to a device's log area, which drops its oldest
sector of 1,024 entries when it is full. -/
def nvmAppend (es : List LogEntry) (d : Nvm) : Nvm :=
  if d.answers then
    let l := d.log ++ es
    { d with log := if 229376 < l.length then l.drop (((l.length - 229376) + 1023) / 1024 * 1024) else l }
  else d

/-- R564: every unflushed entry is written to the log area of each device that answers. -/
def flushLog (s : State) : State :=
  let es := (s.cmp.log.take (unflushed s)).reverse
  if s.cmp.nvmA.answers || s.cmp.nvmB.answers then
    let s := { s with cmp := { s.cmp with
      nvmA := nvmAppend es s.cmp.nvmA, nvmB := nvmAppend es s.cmp.nvmB, flushed := s.cmp.nextSeq, lastFlush := s.ft } }
    if es.isEmpty || (s.cmp.nvmA.answers && s.cmp.nvmB.answers) then s
    else logRaw { code := Ev.cmpNvmFault.code, sev := .error, data := [b2n s.cmp.nvmA.answers] } s
  else s

/-- R561, R564: an entry is written, and 4,096 unflushed entries are flushed. -/
def logEntry (e : LogEntry) (s : State) : State :=
  let s := logRaw e s
  if 4096 ≤ unflushed s then flushLog s else s

/-- R562: a device event is reported by a block, with the partition it concerns. -/
def report (e : Ev) (b : Block) (part : Option Nat) (data : List Nat) (s : State) : State :=
  logEntry { code := e.code, sev := e.sev, part := part, block := b.code,
             angle := match part with | some n => (dom s n).angle | none => 0, data := data } s

/-! ### Fences (R13 order 4, R519, R587) -/

/-- The block is fenced. -/
def fenced (s : State) (b : Block) : Bool := (s.cmp.fences.get b.code).on

/-- Partition `n` is fenced by a scrub. -/
def scrubFenced (s : State) (n : Nat) : Bool := s.per.scrubbing.contains n

/-- R587, R519: what a new request of partition `n` to block `b` meets at order 4. -/
def fenceCpl (s : State) (b : Block) (n : Nat) : Option Cpl :=
  if scrubFenced s n then some (cRetry 50000) else if fenced s b then some (cRetry 25000) else none

/-! ### The energy account (R565 to R570, R648) -/

def modEnergy (f : Energy → Energy) (s : State) : State := { s with cmp := { s.cmp with energy := f s.cmp.energy } }
def modEPart (n : Nat) (f : EnergyPart → EnergyPart) (s : State) : State :=
  modEnergy (fun e => { e with parts := e.parts.mod n f }) s

/-- R648: the row a job takes: of its operation, else the block's default row. -/
def energyRow (rows : List EnergyRow) (blk op : Nat) : Option EnergyRow :=
  match rows.find? (fun r => r.block == blk && r.op == op) with
  | some r => some r
  | none => rows.find? (fun r => r.block == blk && r.op == 0xF)

/-- R567, R648: the pre-cost in nJ of a job that uses the counted units (unit, count); a RATE is in fJ. -/
def preCost (s : State) (blk op : Nat) (units : List (Nat × Nat)) : Nat :=
  match energyRow s.cmp.active.energy.rows blk op with
  | none => 0
  | some r => r.fixed + sumOf (units.map fun u => (r.rates.getD u.1 0) * u.2) / 1000000

/-- R570: the pause message on every XCL port, with a time in the port's quanta. -/
def energyPause (time : Nat) (s : State) : State :=
  let ps := s.edg.ports.idxs (fun _ p => p.mode == .xcl)
  let s := ps.foldl (fun s p => send .linkPause p [0x18, time] s) s
  modEnergy (fun e => { e with paused := time != 0, pauseAt := if time = 0 then [] else ps.map fun p => (p, s.ft) }) s

/-- R567, R570: a debit, with the pause message at the first moment of the epoch when A falls below zero. -/
def debit (part : Nat) (cost : Nat) (s : State) : State :=
  let before := s.cmp.energy.a
  let s := modEnergy (fun e => { e with a := e.a - cost, d := e.d + cost }) s
  let s := modEPart part (fun p => { p with debit := p.debit + cost }) s
  if 0 ≤ before && s.cmp.energy.a < 0 && !s.cmp.energy.belowZero then
    let s := modEnergy (fun e => { e with belowZero := true }) s
    if s.cmp.energy.pauseEn then energyPause 0xFFFF s else s
  else s

/-- What the account answers to a job. -/
inductive EnergyAns where
  | admitted | refused | oversize
deriving DecidableEq, Repr

/-- R568: whether the account admits a job of a class; an oversize job is held by its block. -/
def energyAns (s : State) (cls : SClass) (cost : Nat) : EnergyAns :=
  match cls with
  | .prompt | .generation | .revival => .admitted
  | .parkMove | .background =>
    if (s.cmp.energy.capW : Int) * 1000000 - s.cmp.energy.base < (cost : Int) then .oversize
    else if (cost : Int) ≤ s.cmp.energy.a then .admitted else .refused

/-- R571, R582: a job is refused for want of budget. -/
def countEnergyRefusal (part : Nat) (s : State) : State :=
  modEnergy (fun e => { e with heldOrRefused := e.heldOrRefused + 1 })
    (modEPart part (fun p => { p with refused := sat 16 p.refused }) s)

/-- R571, R582: a job is held or skipped for want of budget. -/
def countEnergyWait (part : Nat) (s : State) : State :=
  modEnergy (fun e => { e with heldOrRefused := e.heldOrRefused + 1 })
    (modEPart part (fun p => { p with waits := sat 16 p.waits }) s)

/-- R568: the admission of an oversize job at an opening with R 0; one that the account covers after all is debited. -/
def admitOversize (part : Nat) (cost : Nat) (s : State) : State :=
  let e := s.cmp.energy
  if (cost : Int) ≤ e.a then debit part cost s
  else
  let excess := ((cost : Int) - e.a).toNat
  let s := modEnergy (fun e => { e with
      a := 0, d := e.d + cost, deficit := e.deficit + excess,
      instalment := ceilDiv (e.deficit + excess) (max 1 e.repay) }) s
  let s := modEPart part (fun p => { p with debit := p.debit + cost }) s
  report .cmpEnergyOverdraw .compass none [s.cmp.energy.deficit] s

/-! ### Queue pairs (R483, R484) -/

/-- The configuration of a queue pair. -/
def qpCfg (s : State) (q : Nat) : Option QpCfg := s.cmp.active.qps.find? (·.qp == q)

/-- R483: a message of `len` bytes leaves on a queue pair: its packets wait for acknowledgement. -/
def qpSend (q len : Nat) (s : State) : State :=
  let x := s.edg.qps.get q
  match qpCfg s q with
  | some c =>
    if x.st != .rts then s
    else
      let n := max 1 (ceilDiv len (if c.pmtu4k then 4096 else 1024))
      let new := (List.range n).map fun i => (x.sndPsn + i) % 16777216
      { s with edg := { s.edg with qps := s.edg.qps.set q { x with
          sndPsn := (x.sndPsn + n) % 16777216, unacked := x.unacked ++ new, lastAck := if x.unacked.isEmpty then s.ft else x.lastAck } } }
  | none => s

/-! ### Completions -/

/-- A completion goes to its requester. A sequencer's issue keeps it until ISSUE_COMPLETE takes it (R80); the
final completion of a schedule action goes nowhere (R65); one for a remote sender is a SEND (R484). -/
def reply (r : Requester) (c : Cpl) (s : State) : State :=
  match r with
  | .none | .sched _ _ | .devSched _ => s
  | .seq m slot =>
    modSeq m (fun q => { q with outst := q.outst.map fun i => if i.slot = slot then { i with done := some c } else i }) s
  | .roce q _ => qpSend q 64 (emit (.cpl r c) s)
  | .block b i => { s with eng := { s.eng with done := s.eng.done ++ [(b, i, c)] } }
  | _ => emit (.cpl r c) s

end Sys2Proof.Machine
end

