-- ==== Sys2Proof/Machine/Link.lean ====
section
/-!
DEFINITION. What a link's transmitter keeps (R453 to R460, R468, R478 to R480): its width and counter, the groups it has
sent, its credits, and the buckets of the pair link.
-/
namespace Sys2Proof.Machine

def modEdge (f : Edge → Edge) (s : State) : State := { s with edg := f s.edg }

def isPair (p : Nat) : Bool := decide (256 ≤ p) && decide (p < 264)

/-- R451: positions at full width. -/
def fullWidth (x : Port) : Nat := if x.gang.isSome then 8 else 4
/-- R454, R476. -/
def positions (x : Port) (width : Nat) : Nat := fullWidth x / 2 ^ width

/-- R457: the transmit counter: every 256 B group that the active positions carry, each 25 B per ns, takes the next value. -/
def txCtrOf (s : State) (x : Port) : Nat :=
  if x.st = .up then x.txCtr + (s.ft - x.txAt) * 25 * positions x x.txWidth / 256 else x.txCtr

/-- The counter is brought up to now, before what it depends on changes. -/
def rebaseCtr (s : State) (x : Port) : Port := { x with txCtr := txCtrOf s x, txAt := s.ft }

/-- The unacknowledged window of R459. -/
def replayWindow (x : Port) : Nat := if x.gang.isSome then 1024 else 512

/-- R468: the credit units of a message of `len` bytes, header included. -/
def creditUnits (len : Nat) : Nat := ceilDiv len 128

/-- R468, R478: where a port counts the credits of a class. -/
def creditKey (p part cls : Nat) : Nat := if isPair p then part * 16 + cls else cls

/-- R459, R468, R472: whether a port can send a message now. -/
def linkReady (s : State) (p part cls len : Nat) : Bool :=
  let x := port s p
  match x.mode with
  | .eth => x.st == .up
  | .xcl | .pair =>
    x.st == .up && decide ((x.txSeq + 4096 - x.txAck) % 4096 < replayWindow x) &&
      (cls == 0 || decide (creditUnits len ≤ x.credits.get (creditKey p part cls)))
  | .unused => true

/-- R457, R459, R468: a message leaves on a port: it takes credits and a place in the replay buffer. -/
def linkSend (p part cls len : Nat) (bucket : Option (Nat × Nat)) (s : State) : State :=
  let x := port s p
  if x.mode != .xcl && x.mode != .pair then s
  else
    let key := creditKey p part cls
    let cr := if cls = 0 then x.credits else x.credits.mod key (· - creditUnits len)
    setPort p { x with
      txSeq := (x.txSeq + 1) % 4096, credits := cr, progress := if x.unacked.isEmpty then s.ft else x.progress,
      unacked := x.unacked ++ [{ seq := x.txSeq, bucket := bucket, len := len, part := part }] } s

/-! ### Steering (R479) -/

/-- One bit of CRC-32C, reflected. -/
def crcBit (c : BitVec 32) : BitVec 32 := if c.getLsbD 0 then (c >>> 1) ^^^ 0x82F63B78#32 else c >>> 1

def crcByte (c : BitVec 32) (b : Byte) : BitVec 32 :=
  crcBit (crcBit (crcBit (crcBit (crcBit (crcBit (crcBit (crcBit (c ^^^ b.zeroExtend 32))))))))

/-- CRC-32C of bytes. -/
def crc32c (bs : List Byte) : BitVec 32 := ~~~ (bs.foldl crcByte 0xFFFFFFFF#32)

/-- R479: the bucket of a steering key, taken as 8 bytes. DESIGN CHOICE, entry 36. -/
def bucketOf (key : Nat) : Nat := (crc32c (toLE 8 key)).toNat % 64

/-- The next sequence number of a bucket. -/
def takeBseq (b : Nat) (s : State) : Nat × State :=
  let n := s.edg.txBseq.get b
  (n, modEdge (fun e => { e with txBseq := e.txBseq.set b ((n + 1) % 65536) }) s)

/-- R479: the pair port that a bucket is sent on. -/
def bucketPort (s : State) (b : Nat) : Nat := 256 + s.edg.buckets.getD b (b % 8)

/-! ### Credit returns (R468, R470) -/

/-- The request classes of R462. -/
def requestClass (cls : Nat) : Bool := cls == 1 || cls == 3 || cls == 9 || cls == 13

/-- R470: a joining switch withholds the request-class returns of a partition until its admission. -/
def joinWithholds (s : State) (part : Nat) : Bool := decide (3 ≤ s.pair.joinStep) && !bitOf s.pair.admitted part

/-- R468: the units of a received message are returned as its buffer is freed. -/
def returnCredit (p part cls len : Nat) (s : State) : State :=
  let x := port s p
  if cls = 0 || (x.mode != .xcl && x.mode != .pair) then s
  else if requestClass cls && joinWithholds s part then
    modEdge (fun e => { e with withheld := e.withheld ++ [(p, part, cls, creditUnits len)] }) s
  else send .linkCredit p [part, cls, creditUnits len] s

/-- R607: the returns withheld for a partition are sent. -/
def releaseCredits (part : Nat) (s : State) : State :=
  let mine := s.edg.withheld.filter fun w => w.2.1 == part
  let s := modEdge (fun e => { e with withheld := e.withheld.filter fun w => w.2.1 != part }) s
  mine.foldl (fun s w => send .linkCredit w.1 [w.2.1, w.2.2.1, w.2.2.2] s) s

/-- The returns withheld for every partition are sent. -/
def releaseAll (s : State) : State := (List.range 16).foldl (fun s n => releaseCredits n s) s

end Sys2Proof.Machine
end

