-- ==== Sys2Proof/Machine/Epoch.lean ====
section
/-!
DEFINITION. The epoch store (R514 to R517) and the agreement of link epochs (R510 to R512).
-/
namespace Sys2Proof.Machine

def modPer (f : Perimeter → Perimeter) (s : State) : State := { s with per := f s.per }

/-! ### Records and commits (R514 to R516) -/

/-- R516: the slot of a record that wins: valid, with the higher SEQ. The Boolean tells that it is slot 1. -/
def recWin (r : Rec) : Option (Bool × Slot) :=
  if r.s0.valid && r.s1.valid then (if r.s0.seq < r.s1.seq then some (true, r.s1) else some (false, r.s0))
  else if r.s0.valid then some (false, r.s0) else if r.s1.valid then some (true, r.s1) else none

def epRec (s : State) (i : Nat) : Rec := s.per.store.get i
def setEpRec (i : Nat) (r : Rec) (s : State) : State := modPer (fun x => { x with store := x.store.set i r }) s

/-- R516: a record both of whose slots are zero is free. -/
def recFree (r : Rec) : Bool := r.s0.zero && r.s1.zero && !r.s0.valid && !r.s1.valid

/-- The peer record of an identity. -/
def recOfTag (s : State) (tag : Nat) : Option Nat :=
  (s.per.store.idxs fun i r => decide (1 ≤ i) && decide (i < 512) && (recWin r).any fun w => w.2.tag == tag).head?

/-- The number of the first free peer record that no queued commit is about to use. -/
def freeRec (s : State) : Option Nat :=
  let taken := (s.per.store.map (·.1)) ++ s.per.commits.map (·.record)
  (List.range 511).findSome? fun i => if taken.contains (i + 1) then none else some (i + 1)

/-- MAX_EPOCH of a record, or POOL_GEN of the device record. -/
def recValue (s : State) (i : Nat) : Nat := ((recWin (epRec s i)).map (·.2.value)).getD 0

/-- R515: a commit joins the queue. -/
def queueCommit (c : Commit) (s : State) : State := modPer (fun x => { x with commits := x.commits ++ [c] }) s

/-- R515 step 1: the slot a commit writes. -/
def targetSlot1 (r : Rec) : Bool := match recWin r with | some (one, _) => !one | none => false

/-- R515: the head commit is written; `ok` tells that the slot reads back as written. -/
def writeCommit (c : Commit) (ok : Bool) (s : State) : State :=
  let r := epRec s c.record
  let seq := ((recWin r).map (·.2.seq + 1)).getD 1
  let slot : Slot := { seq := seq, value := c.value, tag := c.tag, valid := ok, zero := false }
  setEpRec c.record (if targetSlot1 r then { r with s1 := slot } else { r with s0 := slot }) s

/-! ### Agreements (R511, R512) -/

/-- R510: the identity that a port's peer must hold. -/
def peerOfPort (s : State) (p : Nat) : Option Nat := if isPair p then some s.cmp.active.partnerKey else (port s p).peer

def agreeOf (s : State) (p : Nat) : Option Agree := s.edg.agrees.find? (·.port == p)
def setAgree (a : Agree) (s : State) : State :=
  modEdge (fun e => { e with agrees := e.agrees.map fun x => if x.port = a.port then a else x }) s
def dropAgree (p : Nat) (s : State) : State := modEdge (fun e => { e with agrees := e.agrees.filter fun x => x.port != p }) s

/-- R511: E is the higher proposal, and is committed to the peer's record. -/
def agreeCommit (a : Agree) (s : State) : State :=
  match a.peer with
  | some q =>
    let e := max a.own q
    let r := (recOfTag s a.tag).getD ((freeRec s).getD 0)
    let wait := !s.per.commits.isEmpty
    queueCommit { record := r, value := e, tag := a.tag, why := .agree a.port }
      (setAgree { a with epoch := some e, queued := if wait then some s.ft else none } s)
  | none => s

/-- R511: the switch's own proposal is sent. A port whose identity's epochs are used up enters REFUSED (R460); where no
record is free the port stays DOWN (R517). -/
def beginAgree (p : Nat) (s : State) : State :=
  match agreeOf s p with
  | none => s
  | some a =>
    let r := recOfTag s a.tag
    let own := (r.map fun i => recValue s i + 1).getD 1
    if a.begun || s.edg.agrees.any (fun x => x.begun && x.tag == a.tag) then s
    else if r.isNone && (freeRec s).isNone then
      report .perStoreFull .perimeter none [p] (modPort p (fun x => if a.rekey then x else { x with st := .down }) (dropAgree p s))
    else if 0xFFFFFFFF < own then modPort p (fun x => { x with st := .refused }) (dropAgree p s)
    else
      let a := { a with begun := true, own := own, since := s.ft }
      let s := send .linkRekey p [own] (setAgree a s)
      if a.peer.isSome then agreeCommit a s else s

/-- The next agreement of an identity that waits begins (R511). -/
def nextAgree (tag : Nat) (s : State) : State :=
  match s.edg.agrees.find? fun a => a.tag == tag && !a.begun with
  | some a => beginAgree a.port s
  | none => s

/-- R511: an agreement is asked for on a port. -/
def startAgree (p : Nat) (rekey : Bool) (peer : Option Nat) (s : State) : State :=
  match peerOfPort s p with
  | none => s
  | some tag =>
    if (agreeOf s p).isSome then s
    else beginAgree p (modEdge (fun e => { e with agrees := e.agrees ++ [{ port := p, tag := tag, rekey := rekey, peer := peer }] }) s)

/-- An agreement ends without a result, as when its link goes down (R538). -/
def endAgree (p : Nat) (s : State) : State :=
  match agreeOf s p with
  | some a =>
    let s := modPer (fun x => { x with commits := x.commits.map fun c => if c.why = .agree p then { c with why := .agree 0xFFFF } else c }) (dropAgree p s)
    nextAgree a.tag s
  | none => s

/-- R511: the proposals are made again. -/
def restartAgree (a : Agree) (s : State) : State :=
  let s := setAgree { a with begun := false, peer := none, epoch := none, sent := false, got := none, queued := none } s
  beginAgree a.port s

end Sys2Proof.Machine
end

