-- ==== Sys2Proof/Machine/Reset.lean ====
section
/-!
DEFINITION. What a reset of the blocks other than Compass leaves (R2, R542, R543, R596).
-/
namespace Sys2Proof.Machine

/-- R543: Meridian's reset leaves fabric time running: what has locked, its references, and the occurrences that have fired
stay known. -/
def resetMer (m : Meridian) : Meridian :=
  { everLocked := m.everLocked, ref0Ok := m.ref0Ok, ref1Ok := m.ref1Ok, ppsLast := m.ppsLast, ftNext := m.ftNext, devNext := m.devNext,
    bank := m.bank }

/-- R500, R503, R543: Perimeter's key store, its epoch store and what is owed to a scrub stay; its work does not. -/
def resetPer (p : Perimeter) : Perimeter :=
  { p with commits := [], commitN := 0, torn := 0, faulted := [], fills := [], founding := false, trainFt := none, partnerPool := none, partnerFounded := false, partnerGen := 0 }

/-- What the switch knows of its partner over the pair link is gone with the link; pins and settings stay. -/
def resetPair (p : Pair) : Pair :=
  { aliveIn := p.aliveIn, aliveInDeb := p.aliveInDeb, aliveChange := p.aliveChange, takeovers := p.takeovers, yieldMs := p.yieldMs,
    debounceUs := p.debounceUs, takeoverFt := p.takeoverFt }

/-- R543: every block other than Compass is reset. -/
def clearBlocks (s : State) : State :=
  { s with
    mer := resetMer s.mer, per := resetPer s.per, pair := resetPair s.pair, edg := {}, lat := {}, loc := {}, pln := {}, fld := {}, eng := {},
    vtx := {}, chd := {}, cone := {}, orb := {}, apx := {}, cen := {}, arc := {}, mem := [], cmp := { s.cmp with fences := [] } }

/-- R2, R541: the blocks are held in reset in a state in which the switch does not run, and PAIR_ALIVE_OUT is deasserted. -/
def holdBlocks (b : BootState) (s : State) : State :=
  let s := clearBlocks s
  { s with cmp := { s.cmp with boot := b }, pair := { s.pair with aliveOut := false } }

/-- R500, R596: the pool's keys are gone, and the map with them. -/
def dropPool (s : State) : State :=
  modPer (fun p => { p with pool := .none, poolGen := 0, poolDebug := false, parts := p.parts.mapAll (fun _ x => { x with tenancy := 0 }), ggen := [] }) s

end Sys2Proof.Machine
end

