-- ==== Sys2Proof/Machine/Mgmt.lean ====
section
/-!
DEFINITION. Who may command the switch over the management port (R542, R553, R554).
-/
namespace Sys2Proof.Machine

/-- R554: the roles; bit 0 READ, bit 1 POWER, bit 2 ADMIN of a session's mask, bit 3 a chain that ends at the
owner key whose hash is fused (R542). -/
inductive Role where
  | read | power | admin
deriving DecidableEq, Repr

/-- R554: POWER allows what READ does, ADMIN every command. -/
def roleOk (need : Role) (roles : Nat) : Bool :=
  match need with
  | .read => bitOf roles 0 || bitOf roles 1 || bitOf roles 2
  | .power => bitOf roles 1 || bitOf roles 2
  | .admin => bitOf roles 2

/-- R541, R542: Compass's firmware answers the management port: in every state but ROM and LOADING. -/
def mgmtAnswers (s : State) : Bool := s.pins.porstN && s.cmp.boot != .rom && s.cmp.boot != .loading

/-- R553: a session that carries a message is open and not idle. -/
def touchSession (k : Nat) (spdm : Bool) (s : State) : State :=
  { s with cmp := { s.cmp with sessions := s.cmp.sessions.set k { isOpen := true, spdm := spdm, last := s.ft } } }

/-- R553: whether a session is open, or can be: 4 on port 5410, 2 on port 5411. -/
def sessionRoom (k : Nat) (spdm : Bool) (s : State) : Bool :=
  let x := s.cmp.sessions.get k
  (x.isOpen && x.spdm == spdm) ||
    (!x.isOpen && decide ((s.cmp.sessions.idxs fun _ y => y.isOpen && y.spdm == spdm).length < (if spdm then 2 else 4)))

/-- R13 order 1, R542, R554: a command of the management port is gated by the session, the role and, in
RECOVERY, by the commands that state accepts (`inRecovery`). A requester that is no management session is not
permitted. -/
def mgmtGate (who : Requester) (need : Role) (inRecovery : Bool) (k : State → Res) (s : State) : Res :=
  match who with
  | .mgmt sess _ roles =>
    if !mgmtAnswers s || !sessionRoom sess false s then .next s
    else
      let s := touchSession sess false s
      if s.cmp.boot = .recovery && !(inRecovery && bitOf roles 3) then .next (reply who cNP s)
      else if !roleOk need roles then .next (reply who cNP s)
      else k s
  | _ => .next (reply who cNP s)

end Sys2Proof.Machine
end

