-- ==== Sys2Proof/Machine/Sync.lean ====
section
/-!
DEFINITION. Synchronisation objects: the operations of R69 to R75, completion ADDs (R649) and Meridian's
judgement of schedule actions (R65).
-/
namespace Sys2Proof.Machine

/-- R518: partition `n`'s record in the active image. -/
def partRec (s : State) (n : Nat) : PartRec :=
  (s.cmp.active.parts.find? (·.part == n)).getD {}

/-- R70: the operations. -/
inductive SyncOp where
  | read | add | arrive | acquire | release | waitGe | waitEq | waitGen | set | tryAcquire
deriving DecidableEq, Repr, Inhabited

/-- R70: the operation of a code; 0xA to 0xF are reserved. -/
def syncOfCode : Nat → Option SyncOp
  | 0 => some .read | 1 => some .add | 2 => some .arrive | 3 => some .acquire | 4 => some .release
  | 5 => some .waitGe | 6 => some .waitEq | 7 => some .waitGen | 8 => some .set | 9 => some .tryAcquire
  | _ => none

/-- R72: the limit a timeout code selects, from acceptance. -/
def tmoLimit (s : State) (k : Nat) : Option Nat := if k = 0 then none else some (s.ft + 2 ^ (k - 1) * 1000)

/-- R65, R67: an action is counted as missed. -/
def countMissed (n : Nat) (a : DueAct) (c : Cpl) (s : State) : State :=
  modDom n (fun d => { d with
    missed := sat 16 d.missed, lastEntry := a.entry, lastStatus := c.status.code,
    lastReason := match c.reason with | some r => r.code | none => 0 }) s

/-- R65: until when a fabric-time action answered RETRY is presented: the next occurrence of its entry, or
1 ms for FT_ONCE. -/
def presentUntil (s : State) (a : DueAct) : Option Nat :=
  if a.ft then
    let w0 := a.words.getD 0 0
    some (if bits w0 63 62 = 3 then a.trigger + bits w0 47 0 else s.ft + 1000000)
  else none

/-- R65: Meridian's treatment of an action's outcome. `lim` is when its presentation ends. -/
def judgeUntil (n : Nat) (a : DueAct) (lim : Option Nat) (c : Cpl) (s : State) : State :=
  match c.status with
  | .retry => modDom n (fun d => { d with retries := d.retries ++ [{ act := a, due := s.ft + c.hint, until_ := lim }] }) s
  | .refused | .notPermitted | .badRequest | .timeout => countMissed n a c s
  | _ => s

def judge (n : Nat) (a : DueAct) (c : Cpl) (s : State) : State := judgeUntil n a (presentUntil s a) c s

/-- R69, R71: a pending wait or acquire ends with a completion that carries VALUE and GENERATION. -/
def finishWait (w : Waiter) (c : Cpl) (s : State) : State :=
  match w.req with
  | .sched n _ => judge n w.act c s
  | .seq m _ => modSeq m (fun q => if q.wait = .none then q else { q with st := c, run := .running, wait := .none }) s
  | r => reply r c s

/-- R70: the condition of a wait holds. -/
def waitMet (o : SyncObj) (w : Waiter) : Bool :=
  match w.kind with
  | .ge => decide (w.operand ≤ o.value)
  | .eq => w.operand == o.value
  | .gen => decide (w.operand % 2 ^ 32 < o.gen)
  | .acquire => false

/-- R73: grants in arrival order, taking the units of each. Answers the object with its waiters left, and the
granted ones with the VALUE each found. -/
def grantFrom : List Waiter → Nat → List (Waiter × Nat) × List Waiter × Nat
  | [], v => ([], [], v)
  | w :: ws, v =>
    if w.kind = .acquire && decide (w.operand ≤ v) then
      let (g, rest, v') := grantFrom ws (v - w.operand)
      ((w, v) :: g, rest, v')
    else ([], w :: ws, v)

/-- R71, R73: after a change of object `i`, the waits whose condition holds complete OK, and the acquires that
can be are granted. -/
def wake (i : Nat) (s : State) : State :=
  let o := obj s i
  if o.mode = .semaphore then
    let (g, rest, v) := grantFrom o.waiters o.value
    let s := setObj i { o with waiters := rest, value := v } s
    g.foldl (fun s wv => finishWait wv.1 { value := wv.2, aux := o.gen } s) s
  else
    let met := o.waiters.filter (waitMet o)
    let s := setObj i { o with waiters := o.waiters.filter fun w => !waitMet o w } s
    met.foldl (fun s w => finishWait w { value := o.value, aux := o.gen } s) s

/-- R74: pending waits of the whole table and of one partition. -/
def waitersAll (s : State) : Nat := sumOf (s.mer.objs.map fun p => p.2.waiters.length)
def waitersOf (s : State) (n : Nat) : Nat :=
  sumOf (s.mer.objs.map fun p => if p.2.part = n then p.2.waiters.length else 0)

/-- R68, R70: whether an operation fits a mode. -/
def modeFits : SyncOp → ObjMode → Bool
  | _, .unused => false
  | .read, _ => true
  | .set, _ => true
  | .add, m => m == .counter
  | .waitGe, m => m == .counter
  | .waitEq, m => m == .counter
  | .arrive, m => m == .barrier
  | .waitGen, m => m == .barrier
  | .acquire, m => m == .semaphore
  | .release, m => m == .semaphore
  | .tryAcquire, m => m == .semaphore

/-- R70, R73: an acquire finds the object free: enough units and no earlier pending acquire. -/
def semFree (o : SyncObj) (n : Nat) : Bool := decide (n ≤ o.value) && o.waiters.isEmpty

/-- R70: whether an operation that fits must wait. -/
def mustWait (op : SyncOp) (o : SyncObj) (operand : Nat) : Bool :=
  match op with
  | .waitGe => !waitMet o { kind := .ge, operand := operand }
  | .waitEq => !waitMet o { kind := .eq, operand := operand }
  | .waitGen => !waitMet o { kind := .gen, operand := operand }
  | .acquire => !semFree o operand
  | _ => false

/-- R70: the reasons of order 5 that apply (R14 picks among them). -/
def syncReasons (s : State) (op : SyncOp) (o : SyncObj) (operand : Nat) (gen : Option Nat) : List Reason :=
  let fits := modeFits op o.mode
  let genBad := match gen with | some g => g != o.gen | none => false
  let state := genBad || !fits ||
    (match op with
     | .add => decide (2 ^ 64 ≤ o.value + operand)
     | .release => decide (2 ^ 64 ≤ o.value + operand)
     | .arrive => decide (o.target < o.value + operand)
     | .tryAcquire => !semFree o operand
     | _ => false)
  let waits := fits && !genBad && mustWait op o operand
  (if waits && decide (16384 ≤ waitersAll s) then [Reason.queueFull] else []) ++
  (if waits && decide ((partRec s o.part).waiterQuota ≤ waitersOf s o.part) then [Reason.quota] else []) ++
  (if state then [Reason.state] else [])

/-- Where an operation comes from: a port, a sequencer, a schedule action or management (R70, R71). -/
def fromPort : Requester → Bool
  | .port .. | .roce .. => true
  | _ => false

/-- R13, R68 to R70: the admission of an operation on object `i` by partition `part` (none: management). -/
def syncAdmit (s : State) (op : SyncOp) (who : Requester) (part : Option Nat) (i operand : Nat) (gen : Option Nat) :
    Option Cpl :=
  let o := obj s i
  let zero := op == .arrive || op == .acquire || op == .tryAcquire
  firstCheck [
    (o.mode == .unused || decide (65536 ≤ i) || (match part with | some n => n != o.part | none => false)
      || (op == .set && fromPort who), cNP),
    ((zero && operand == 0) || (op == .arrive && o.mode == .barrier && decide (o.target < operand)), cBad),
    (scrubFenced s o.part, cRetry 50000),
    ((dom s o.part).st == .restarting, cRetry 10000)] |>.or
  ((lowestReason (syncReasons s op o operand gen)).map cRef)

/-- R70: the effect of an admitted operation on the object, before any waiter is woken. -/
def syncEffect (op : SyncOp) (operand : Nat) (o : SyncObj) : SyncObj :=
  match op with
  | .add | .release => { o with value := o.value + operand }
  | .arrive =>
    if o.value + operand = o.target then { o with value := 0, gen := (o.gen + 1) % 2 ^ 32 }
    else { o with value := o.value + operand }
  | .acquire | .tryAcquire => { o with value := o.value - operand }
  | .set => { o with value := operand % 2 ^ 64, gen := (o.gen + 1) % 2 ^ 32, waiters := [] }
  | _ => o

def waitKindOf : SyncOp → WaitKind
  | .waitGe => .ge | .waitEq => .eq | .waitGen => .gen | _ => .acquire

/-- R69 to R74: one operation. Answers the state and the completion, or none where the operation waits. -/
def syncOp (op : SyncOp) (who : Requester) (part : Option Nat) (act : DueAct) (i operand : Nat)
    (gen : Option Nat) (tmo : Nat) (s : State) : State × Option Cpl :=
  match syncAdmit s op who part i operand gen with
  | some c => (s, some (if c.status = .notPermitted then c else { c with value := (obj s i).value, aux := (obj s i).gen }))
  | none =>
    let o := obj s i
    if mustWait op o operand then
      let w : Waiter := { kind := waitKindOf op, operand := operand, req := who, act := act, deadline := tmoLimit s tmo }
      (setObj i { o with waiters := o.waiters ++ [w] } s, none)
    else
      let o' := syncEffect op operand o
      let c : Cpl := { value := o.value, aux := o'.gen }
      let s := setObj i o' s
      if op = .set then
        (o.waiters.foldl (fun s w => finishWait w { status := .retry, hint := 10000, value := o'.value, aux := o'.gen } s) s, some c)
      else (wake i s, some c)

/-- R649: a completion ADD of a command of partition `n`, made only where the object is its partition's and a
COUNTER. -/
def completionAdd (n : Nat) (o : Option Nat) (s : State) : State :=
  match o with
  | none => s
  | some i =>
    let ob := obj s i
    if ob.mode = .counter && ob.part = n && (dom s n).st != .restarting && decide (ob.value + 1 < 2 ^ 64) then
      wake i (setObj i { ob with value := ob.value + 1 } s)
    else s

/-- The partition a requester acts for (R91, R645); none for management. -/
def reqPart (s : State) : Requester → Option Nat
  | .port p _ _ => some ((port s p).part.getD 16)
  | .seq m _ => some (seqOf s m).part
  | .sched n _ => some n
  | _ => none

/-- R69: an operation asked for by a port, management or another sender, answered to it. -/
def syncMsg (op : SyncOp) (who : Requester) (i operand : Nat) (gen : Option Nat) (tmo : Nat) (s : State) : Res :=
  let (s, c) := syncOp op who (reqPart s who) {} i operand gen tmo s
  .next (match c with | some c => reply who c s | none => s)

/-- R70, code 0x0. -/
def execSyncRead (who : Requester) (i : Nat) (gen : Option Nat) (s : State) : Res := syncMsg .read who i 0 gen 0 s
/-- R70, code 0x1. -/
def execSyncAdd (who : Requester) (i operand : Nat) (gen : Option Nat) (s : State) : Res := syncMsg .add who i operand gen 0 s
/-- R70, code 0x2. -/
def execArrive (who : Requester) (i operand : Nat) (gen : Option Nat) (s : State) : Res := syncMsg .arrive who i operand gen 0 s
/-- R70, R73, code 0x3. -/
def execAcquire (who : Requester) (i operand : Nat) (gen : Option Nat) (tmo : Nat) (s : State) : Res :=
  syncMsg .acquire who i operand gen tmo s
/-- R70, code 0x9. -/
def execTryAcquire (who : Requester) (i operand : Nat) (gen : Option Nat) (s : State) : Res :=
  syncMsg .tryAcquire who i operand gen 0 s
/-- R70, R73, code 0x4. -/
def execSyncRelease (who : Requester) (i operand : Nat) (gen : Option Nat) (s : State) : Res :=
  syncMsg .release who i operand gen 0 s
/-- R70, code 0x5. -/
def execWaitGe (who : Requester) (i operand : Nat) (gen : Option Nat) (tmo : Nat) (s : State) : Res :=
  syncMsg .waitGe who i operand gen tmo s
/-- R70, code 0x6. -/
def execWaitEq (who : Requester) (i operand : Nat) (gen : Option Nat) (tmo : Nat) (s : State) : Res :=
  syncMsg .waitEq who i operand gen tmo s
/-- R70, code 0x7. -/
def execWaitGen (who : Requester) (i operand : Nat) (gen : Option Nat) (tmo : Nat) (s : State) : Res :=
  syncMsg .waitGen who i operand gen tmo s
/-- R70, code 0x8. -/
def execSyncSet (who : Requester) (i operand : Nat) (gen : Option Nat) (s : State) : Res := syncMsg .set who i operand gen 0 s

def isSeqReq : Requester → Bool
  | .seq .. => true
  | _ => false

/-- The deadline of a waiter has passed. -/
def waiterLate (s : State) (w : Waiter) : Bool :=
  match w.deadline with | some t => decide (t ≤ s.ft) | none => false

/-- R69, R72: the waits and acquires of object `i` whose limit has passed complete TIMEOUT; those of
sequencers end by SEQ_WAIT_TIMEOUT. A grant that the removal makes possible follows (R73). -/
def execSyncWaitTimeout (i : Nat) (s : State) : Res :=
  let o := obj s i
  let late := o.waiters.filter fun w => waiterLate s w && !isSeqReq w.req
  let s := setObj i { o with waiters := o.waiters.filter fun w => !(waiterLate s w && !isSeqReq w.req) } s
  let s := late.foldl (fun s w => finishWait w { status := .timeout, value := o.value, aux := o.gen } s) s
  .next (if late.isEmpty then s else wake i s)

/-- R48, R519: every wait of the partition's objects from a port or a schedule action completes RETRY, or is
withdrawn without completion; an action ended this way is not presented again. -/
def endWaiters (n : Nat) (c : Option Cpl) (s : State) : State :=
  let is := s.mer.objs.idxs (fun _ o => o.part == n && !o.waiters.isEmpty)
  is.foldl (fun s i =>
    let o := obj s i
    let ws := o.waiters
    let s := setObj i { o with waiters := [] } s
    ws.foldl (fun s w =>
      match c, w.req with
      | some _, .sched .. => s
      | some _, .seq .. => s
      | some c, r => reply r { c with value := o.value, aux := o.gen } s
      | none, _ => s) s) s

end Sys2Proof.Machine
end

