-- ==== Sys2Proof/Machine/Sched.lean ====
section
/-!
DEFINITION. Fabric time (R53 to R59) and the occurrences of schedules (R60 to R67), up to their dispatch.
-/
namespace Sys2Proof.Machine

/-! ### Schedule entries (R60) -/

def entKind (w : List Nat) : Nat := bits (w.getD 0 0) 63 62
def entAction (w : List Nat) : Nat := bits (w.getD 0 0) 61 56
def entAngle (w : List Nat) : Nat := bits (w.getD 0 0) 47 0
def entTarget (w : List Nat) : Nat := bits (w.getD 2 0) 63 48
def entParamA (w : List Nat) : Nat := bits (w.getD 2 0) 47 0
def entParamB (w : List Nat) : Nat := w.getD 3 0

/-- R4: an Angle of its step and its LAYER.SLOT. -/
def angleOf (step ls : Nat) : Nat := step * 65536 + ls
def angleStep (a : Nat) : Nat := a / 65536

/-- R60: the triggers of an Angle-keyed entry from `lo` up to `hi`. -/
def angleTriggers (w : List Nat) (lo hi : Nat) : List Nat :=
  if entKind w = 0 then
    let t := entAngle w
    if lo ≤ t ∧ t ≤ hi then [t] else []
  else if entKind w = 1 then
    let first := bits (w.getD 0 0) 47 16
    let ls := bits (w.getD 0 0) 15 0
    let last := bits (w.getD 1 0) 63 32
    let stride := max 1 (bits (w.getD 1 0) 31 0)
    -- the occurrences whose trigger lies in [lo, hi], by the index i of R60
    let i0 := if lo ≤ angleOf first ls then 0 else ceilDiv (lo - angleOf first ls) (stride * 65536)
    let top := min hi (angleOf last ls)
    if angleOf (first + i0 * stride) ls ≤ top ∧ first + i0 * stride ≤ last then
      let n := (top - angleOf (first + i0 * stride) ls) / (stride * 65536) + 1
      (List.range n).map fun j => angleOf (first + (i0 + j) * stride) ls
    else []
  else []

/-- The domain's schedule in the active image. -/
def domSched (s : State) (n : Nat) : DomSched :=
  match s.cmp.active.scheds.find? (·.1 == n) with
  | some (_, d) => d
  | none => {}

/-- Entries with their indices in the shared table. -/
def indexed (base : Nat) (es : List (List Nat)) : List (Nat × List Nat) := (es.zipIdx).map fun p => (base + p.2, p.1)

/-- R62, R63: the Angle-keyed occurrences that are due at or below `hi`, in order of trigger, then entry. -/
def angleDue (d : Dom) (sch : DomSched) (hi : Nat) : List DueAct :=
  let es := indexed sch.base sch.entries
  let all := es.flatMap fun (i, w) =>
    ((angleTriggers w d.fireLow hi).map fun t => ({ entry := i, words := w, trigger := t } : DueAct)) ++
    ((d.unfired.filter fun u => u.1 == i && decide (u.2 ≤ hi) && decide (u.2 < d.fireLow)).map
      fun u => { entry := i, words := w, trigger := u.2 })
  sortBy (·.trigger) (sortBy (·.entry) all)

/-- R62: the due Angle-keyed occurrences fire; they join the domain's queue of actions awaiting dispatch. -/
def fireAngle (n : Nat) (hi : Nat) (s : State) : State :=
  let d := dom s n
  let due := angleDue d (domSched s n) hi
  setDom n { d with due := d.due ++ due, fireLow := max d.fireLow (hi + 1), unfired := d.unfired.filter fun u => decide (hi < u.2) } s

/-! ### Fabric-time occurrences -/

/-- The trigger of the `i`-th occurrence of a fabric-time entry, if it has one (R60). -/
def ftTrigger (w : List Nat) (i : Nat) : Option Nat :=
  if entKind w = 2 then (if i = 0 then some (w.getD 1 0) else none)
  else if entKind w = 3 then some (w.getD 1 0 + i * entAngle w)
  else none

/-- How many occurrences of a fabric-time entry have a trigger at or below `t`. -/
def ftCount (w : List Nat) (t : Nat) : Nat :=
  if entKind w = 2 then (if w.getD 1 0 ≤ t then 1 else 0)
  else if entKind w = 3 then (if w.getD 1 0 ≤ t then (t - w.getD 1 0) / max 1 (entAngle w) + 1 else 0)
  else 0

/-- The fabric-time entries of every domain: domain, entry index, words. -/
def ftEntries (s : State) : List (Nat × Nat × List Nat) :=
  s.cmp.active.scheds.flatMap fun (n, d) =>
    (indexed d.base d.entries).filterMap fun (i, w) => if 2 ≤ entKind w then some (n, i, w) else none

/-- The occurrences of a device schedule entry at or below `t` (R58). -/
def devCount (e : DevEntry) (t : Nat) : Nat :=
  if t < e.first then 0 else if e.period = 0 then 1 else (t - e.first) / e.period + 1

/-- R62, R66: the occurrences a moment passes over count as fired: those with a trigger below `t` are SKIPPED. -/
def skipFt (t : Nat) (s : State) : State :=
  let s := (ftEntries s).foldl (fun s (n, i, w) =>
    let done := s.mer.ftNext.get i
    let now := if t = 0 then 0 else ftCount w (t - 1)
    if done < now then
      let s := { s with mer := { s.mer with ftNext := s.mer.ftNext.set i now } }
      modDom n (fun d => { d with skipped := satAdd 16 d.skipped (now - done) }) s
    else s) s
  (s.cmp.active.devSched.zipIdx).foldl (fun s (e, i) =>
    let now := if t = 0 then 0 else devCount e (t - 1)
    if s.mer.devNext.get i < now then { s with mer := { s.mer with devNext := s.mer.devNext.set i now } } else s) s

/-- R62, R63: armed fabric-time occurrences whose trigger has been reached, in order of trigger, then entry. -/
def ftDue (s : State) : List (Nat × DueAct) :=
  let all := (ftEntries s).flatMap fun (n, i, w) =>
    let done := s.mer.ftNext.get i
    (List.range (ftCount w s.ft - done)).filterMap fun k =>
      (ftTrigger w (done + k)).map fun t => (n, ({ entry := i, words := w, trigger := t, ft := true } : DueAct))
  sortBy (fun p => p.2.trigger) (sortBy (fun p => p.2.entry) all)

/-- R62: the due fabric-time occurrences fire, and those of the device schedule become due. -/
def fireFt (s : State) : State :=
  let due := ftDue s
  let s := due.foldl (fun s (n, a) => modDom n (fun d => { d with due := d.due ++ [a] }) s) s
  let s := (ftEntries s).foldl (fun s (_, i, w) =>
    { s with mer := { s.mer with ftNext := s.mer.ftNext.set i (max (s.mer.ftNext.get i) (ftCount w s.ft)) } }) s
  (s.cmp.active.devSched.zipIdx).foldl (fun s (e, i) =>
    let now := devCount e s.ft
    if s.mer.devNext.get i < now then
      { s with mer := { s.mer with devNext := s.mer.devNext.set i now, devDue := s.mer.devDue ++ [i] } }
    else s) s

/-! ### Fabric time -/

/-- R53: a reference runs. -/
def ftRuns (s : State) : Bool := s.pins.porstN && (s.mer.ref0Ok || s.mer.ref1Ok)

/-- R53, R55: one nanosecond passes. A correction is slewed out by one nanosecond in 5,000 (200 ppm). -/
def tick (s : State) : State :=
  if ftRuns s then
    let m := s.mer
    if m.slewRem = 0 then { s with ft := (s.ft + 1) % 2 ^ 64, mer := { m with slewPhase := 0 } }
    else if m.slewPhase + 1 < 5000 then { s with ft := (s.ft + 1) % 2 ^ 64, mer := { m with slewPhase := m.slewPhase + 1 } }
    else if 0 < m.slewRem then { s with mer := { m with slewPhase := 0, slewRem := m.slewRem - 1 } }
    else { s with ft := (s.ft + 2) % 2 ^ 64, mer := { m with slewPhase := 0, slewRem := m.slewRem + 1 } }
  else s

/-- R55, R56, R58: a permitted step of fabric time to `t`. The energy epoch in progress ends at it, since the
epoch in which it lies is no longer the one of the account. -/
def stepFt (t : Nat) (s : State) : State :=
  modEnergy (fun e => { e with epoch := 2 ^ 64 }) { s with ft := t % 2 ^ 64, mer := { s.mer with slewRem := 0, slewPhase := 0 } }

/-- R55, R62: fabric time takes its first lock: one step, EVER_LOCKED, the occurrences passed are SKIPPED and
one at the present moment fires. -/
def firstLock (t : Nat) (s : State) : State :=
  let s := stepFt t s
  let s := { s with mer := { s.mer with everLocked := true } }
  fireFt (skipFt s.ft s)

/-- R56: the leader tells its partner of fabric time over the pair link. -/
def sendTime (step : Bool) (s : State) : State :=
  if s.pair.linkUp then emit (.mirror (.time s.ft s.mer.everLocked step)) s else s

/-- R54 to R56: a measured offset (fabric time minus the source's time) disciplines fabric time. Nothing is
done by a follower (R56). `viaPort` is none for the management port. -/
def execPtpMessageRx (viaPort : Option Nat) (domain : Nat) (layer2 : Bool) (offset : Int) (s : State) : Res :=
  let sel := match viaPort with
    | none => !s.mer.portSel
    | some p => s.mer.portSel && s.mer.ptpPort == p
  if !sel || domain != s.mer.ptpDomain || layer2 != s.mer.transport || s.mer.lock == .follower
      || !(s.mer.ref0Ok || s.mer.ref1Ok) then .next s
  else
    let s := { s with mer := { s.mer with offset := satInt 32 offset } }
    if !s.mer.everLocked then
      .next (sendTime true (firstLock ((s.ft : Int) - offset).toNat { s with mer := { s.mer with lock := .locked } }))
    else
      -- with PPS_IN_EN the phase comes from the pulse, and PTP gives whole seconds only
      let corr := if s.mer.ppsInEn then ((offset + 500000000) / 1000000000) * 1000000000 else offset
      let s := { s with mer := { s.mer with lock := .locked, slewRem := corr } }
      .next (if 1000000 < offset || offset < -1000000 then report .ftOffsetLarge .meridian none [toTwos 64 offset] s else s)

/-- R54: an edge on PPS_IN gives the phase when PPS_IN_EN is set. -/
def execPpsInEdge (s : State) : Res :=
  if s.mer.ppsInEn && s.mer.everLocked && s.mer.lock != .follower then
    let r := s.ft % 1000000000
    let off : Int := if r < 500000000 then r else (r : Int) - 1000000000
    .next { s with mer := { s.mer with slewRem := off } }
  else .next s

/-- R57: PPS_OUT rises at each whole second of fabric time while the switch is running. -/
def execPpsOutRise (s : State) : Res :=
  if running s && s.ft / 1000000000 != s.mer.ppsLast then
    .next (send .ppsRise 0 [s.ft] { s with mer := { s.mer with ppsLast := s.ft / 1000000000, ppsOut := true } })
  else .next s

/-- R59: a write of MER_FT_CFG, checked for an Ethernet-mode port. -/
def execFtCfgWrite (who : Requester) (v : Nat) (s : State) : Res :=
  mgmtGate who .admin false (fun s =>
    if bitOf v 0 && (port s (bits v 8 1)).mode != .eth then .next (reply who cBad s)
    else .next (reply who cOk { s with mer := { s.mer with
      portSel := bitOf v 0, ptpPort := bits v 8 1, ppsInEn := bitOf v 9, ptpDomain := bits v 16 10, transport := bitOf v 17 } })) s

end Sys2Proof.Machine
end

