-- ==== Sys2Proof/Machine/Num.lean ====
section
/-!
DEFINITION. Floating-point values taken exactly: decoding, exact sums and products, ordering, and one rounding to the
nearest, ties to even (R178, and the engines' chapters).
-/
namespace Sys2Proof.Machine

/-- A binary format: exponent bits, fraction bits, and whether its top exponent holds infinities. Without them the
top exponent holds finite numbers and its all-ones fraction alone is a NaN. -/
structure Fmt where
  eb  : Nat
  mb  : Nat
  inf : Bool := true
deriving DecidableEq, Repr

def fp32 : Fmt := { eb := 8, mb := 23 }
def bf16 : Fmt := { eb := 8, mb := 7 }
def fp16 : Fmt := { eb := 5, mb := 10 }
def e4m3 : Fmt := { eb := 4, mb := 3, inf := false }
def e5m2 : Fmt := { eb := 5, mb := 2 }

def Fmt.bias (f : Fmt) : Nat := 2 ^ (f.eb - 1) - 1
def Fmt.width (f : Fmt) : Nat := 1 + f.eb + f.mb

/-- A value: a NaN, an infinity, or (−1)^neg × m × 2^e. -/
inductive FVal where
  | nan
  | inf (neg : Bool)
  | num (neg : Bool) (m : Nat) (e : Int)
deriving DecidableEq, Repr

/-- The value of an encoding. -/
def Fmt.decode (f : Fmt) (b : Nat) : FVal :=
  let neg := bitOf b (f.eb + f.mb)
  let e := bits b (f.eb + f.mb - 1) f.mb
  let m := b % 2 ^ f.mb
  if e = 2 ^ f.eb - 1 ∧ f.inf then (if m = 0 then .inf neg else .nan)
  else if e = 2 ^ f.eb - 1 ∧ m = 2 ^ f.mb - 1 then .nan
  else if e = 0 then .num neg m (1 - (f.bias : Int) - f.mb)
  else .num neg (m + 2 ^ f.mb) ((e : Int) - f.bias - f.mb)

/-- The signed integer (−1)^neg × m. -/
def signed (neg : Bool) (m : Nat) : Int := if neg then -(m : Int) else m

/-- m × 2^e rounded to an integer multiple of 2^q: the multiple, to the nearest, ties to even. -/
def roundTo (m : Nat) (e q : Int) : Nat :=
  if q ≤ e then m * 2 ^ (e - q).toNat
  else
    let k := (q - e).toNat
    let d := m / 2 ^ k
    let r := m % 2 ^ k
    let half := 2 ^ (k - 1)
    if half < r ∨ (r = half ∧ d % 2 = 1) then d + 1 else d

/-- The position of the highest set bit of a positive number, and 0 for 0. -/
def log2 (n : Nat) : Nat := Nat.log2 n

/-- The canonical quiet NaN of a format. -/
def Fmt.qnan (f : Fmt) : Nat :=
  if f.inf then (2 ^ f.eb - 1) * 2 ^ f.mb + 2 ^ (f.mb - 1) else 2 ^ (f.eb + f.mb) - 1

/-- The infinity of a format, or where it has none the NaN. -/
def Fmt.infBits (f : Fmt) (neg : Bool) : Nat :=
  b2n neg * 2 ^ (f.eb + f.mb) + (if f.inf then (2 ^ f.eb - 1) * 2 ^ f.mb else 2 ^ (f.eb + f.mb) - 1)

/-- The largest finite encoding. -/
def Fmt.maxBits (f : Fmt) (neg : Bool) : Nat :=
  b2n neg * 2 ^ (f.eb + f.mb) + (if f.inf then (2 ^ f.eb - 1) * 2 ^ f.mb - 1 else 2 ^ (f.eb + f.mb) - 2)

/-- The encoding of an exact value after one rounding; `over` is what a magnitude beyond the largest gives. -/
def Fmt.encodeWith (f : Fmt) (isOver : Bool → Nat) : FVal → Nat
  | .nan => f.qnan
  | .inf neg => isOver neg
  | .num neg m e =>
    let sgn := b2n neg * 2 ^ (f.eb + f.mb)
    if m = 0 then sgn
    else
      let emin : Int := 1 - (f.bias : Int) - f.mb
      let q := max emin (e + log2 m - f.mb)
      let r := roundTo m e q
      -- r has at most mb + 1 bits, or is 2^(mb + 1) after a carry
      let (r, q) := if 2 ^ (f.mb + 1) ≤ r then (r / 2, q + 1) else (r, q)
      if r < 2 ^ f.mb then sgn + r
      else
        let ex := (q - emin + 1).toNat
        let code := ex * 2 ^ f.mb + (r - 2 ^ f.mb)
        let top := if f.inf then (2 ^ f.eb - 1) * 2 ^ f.mb else 2 ^ (f.eb + f.mb) - 1
        if top ≤ code then isOver neg else sgn + code

/-- Round to nearest even; overflow gives the infinity. -/
def Fmt.encode (f : Fmt) (v : FVal) : Nat := f.encodeWith f.infBits v

/-- The exact value as an integer multiple of 2^q (q at most its exponent). -/
def scaled (neg : Bool) (m : Nat) (e q : Int) : Int := signed neg m * 2 ^ (e - q).toNat

/-- An integer multiple of 2^q as a value; a zero takes the sign given. -/
def ofScaled (i q : Int) (zneg : Bool) : FVal := if i = 0 then .num zneg 0 q else .num (decide (i < 0)) i.natAbs q

/-- The exact sum: NaN from a NaN or from opposite infinities; a zero sum is −0 only from two −0. -/
def FVal.add : FVal → FVal → FVal
  | .nan, _ => .nan
  | _, .nan => .nan
  | .inf a, .inf b => if a = b then .inf a else .nan
  | .inf a, _ => .inf a
  | _, .inf b => .inf b
  | .num a m e, .num b n g =>
    let q := min e g
    ofScaled (scaled a m e q + scaled b n g q) q (a && b)

/-- The exact product. -/
def FVal.mul : FVal → FVal → FVal
  | .nan, _ => .nan
  | _, .nan => .nan
  | .inf a, .inf b => .inf (a != b)
  | .inf a, .num b n _ => if n = 0 then .nan else .inf (a != b)
  | .num a m _, .inf b => if m = 0 then .nan else .inf (a != b)
  | .num a m e, .num b n g => .num (a != b) (m * n) (e + g)

/-- −0 orders below +0 (R178). -/
def FVal.lt : FVal → FVal → Bool
  | .nan, _ => false
  | _, .nan => false
  | .inf a, .inf b => a && !b
  | .inf a, .num .. => a
  | .num .., .inf b => !b
  | .num a m e, .num b n g =>
    let q := min e g
    let x := scaled a m e q
    let y := scaled b n g q
    decide (x < y) || (x == 0 && y == 0 && a && !b)

/-- Whether the value is a NaN. -/
def FVal.isNan : FVal → Bool
  | .nan => true
  | _ => false

/-- The exact sum of two encodings, rounded once. -/
def Fmt.addBits (f : Fmt) (x y : Nat) : Nat := f.encode ((f.decode x).add (f.decode y))

/-- The lesser of two encodings; the canonical NaN when either is a NaN. -/
def Fmt.minBits (f : Fmt) (x y : Nat) : Nat :=
  if (f.decode x).isNan || (f.decode y).isNan then f.qnan else if (f.decode y).lt (f.decode x) then y else x

def Fmt.maxBits2 (f : Fmt) (x y : Nat) : Nat :=
  if (f.decode x).isNan || (f.decode y).isNan then f.qnan else if (f.decode x).lt (f.decode y) then y else x

end Sys2Proof.Machine
end

