-- ==== Sys2Proof/Machine/Exact.lean ====
section
/-!
DEFINITION. Chord's arithmetic (R224, R227 to R232, R244): formats, exact accumulation, the one rounding, Philox.
-/
namespace Sys2Proof.Machine

/-! ### Philox4x32-10 (R231) -/

def u32 (n : Nat) : Nat := n % 4294967296

/-- One round of Philox4x32 on counter words under a key. -/
def philoxRound (c : Nat × Nat × Nat × Nat) (k0 k1 : Nat) : Nat × Nat × Nat × Nat :=
  let (c0, c1, c2, c3) := c
  let p0 := 0xD2511F53 * c0
  let p1 := 0xCD9E8D57 * c2
  ((p1 / 4294967296) ^^^ c1 ^^^ k0, u32 p1, (p0 / 4294967296) ^^^ c3 ^^^ k1, u32 p0)

def philoxGo : (n : Nat) → Nat × Nat × Nat × Nat → Nat → Nat → Nat × Nat × Nat × Nat
  | 0, c, _, _ => c
  | n + 1, c, k0, k1 => philoxGo n (philoxRound c k0 k1) (u32 (k0 + 0x9E3779B9)) (u32 (k1 + 0xBB67AE85))

/-- The four output words of Philox4x32-10. -/
def philox (k0 k1 c0 c1 c2 c3 : Nat) : Nat × Nat × Nat × Nat := philoxGo 10 (u32 c0, u32 c1, u32 c2, u32 c3) (u32 k0) (u32 k1)

/-! ### Formats (R224, R227) -/

/-- The element width in bits of a format code, and whether it is an MX format. -/
def fmtBits : Nat → Nat
  | 0 => 32 | 1 => 16 | 2 => 16 | 3 => 8 | 4 => 8 | 5 => 8 | 6 => 8 | 7 => 6 | 8 => 6 | 9 => 4 | 10 => 8 | 11 => 32 | _ => 0
def fmtMX (f : Nat) : Bool := decide (5 ≤ f) && decide (f ≤ 10)
def fmtInt (f : Nat) : Bool := f == 11

/-- The float format of a code that has one with specials. -/
def fmtOf : Nat → Fmt
  | 0 => fp32 | 1 => bf16 | 2 => fp16 | 3 => e4m3 | 4 => e5m2 | 5 => e4m3 | 6 => e5m2 | _ => fp32

/-- A value of a format without infinities or NaNs (MXFP6, MXFP4). -/
def decodeFin (eb mb : Nat) (b : Nat) : FVal :=
  let e := bits b (eb + mb - 1) mb
  let m := b % 2 ^ mb
  let bias : Int := 2 ^ (eb - 1) - 1
  if e = 0 then .num (bitOf b (eb + mb)) m (1 - bias - mb) else .num (bitOf b (eb + mb)) (m + 2 ^ mb) ((e : Int) - bias - mb)

/-- The value of an element of a format, before an MX scale. -/
def elemVal (f b : Nat) : FVal :=
  if f = 7 then decodeFin 2 3 b else if f = 8 then decodeFin 3 2 b else if f = 9 then decodeFin 2 1 b
  else if f = 10 then (let i := ofTwos 8 b; .num (decide (i < 0)) i.natAbs (-6))
  else if f = 11 then (let i := ofTwos 32 b; .num (decide (i < 0)) i.natAbs 0)
  else (fmtOf f).decode b

/-- R228: an MX element under its scale byte. -/
def scaledVal (x : Nat) (v : FVal) : FVal :=
  if x = 255 then .nan
  else match v with
  | .num n m e => .num n m (e + (x : Int) - 127)
  | v => v

/-- R227: the bytes of a chunk of `n` elements; an MX chunk always has 256. -/
def chunkBytes (f n : Nat) : Nat := if fmtMX f then 8 + 32 * fmtBits f else n * fmtBits f / 8

/-- The elements of a chunk. -/
def chunkVals (f n : Nat) (d : List Byte) : List FVal :=
  if fmtMX f then
    let area := ofLE (d.drop 8)
    (List.range n).map fun j => scaledVal (d.getD (j / 32) 0).toNat (elemVal f (area / 2 ^ (fmtBits f * j) % 2 ^ fmtBits f))
  else
    let k := fmtBits f / 8
    (List.range n).map fun j => elemVal f (ofLE ((d.drop (j * k)).take k))

/-! ### Accumulators (R228, R232) -/

/-- R228: L of the window of an input format, an output format and ACC_DST. -/
def winL (inf outf : Nat) (acc : Bool) : Int :=
  if fmtInt inf then 0 else if inf = 0 || inf = 1 || fmtMX inf || (acc && decide (outf ≤ 1)) then -149 else -24
def winWide (inf outf : Nat) (acc : Bool) : Bool := winL inf outf acc == -149

/-- The order of R232. -/
def Sel.lt (a b : Sel) : Bool :=
  decide (a.inf < b.inf) || (a.inf == b.inf && (decide (a.k < b.k) || (a.k == b.k && a.negz && !b.negz)))

def selPick (red : Nat) (a b : Sel) : Sel := if red = 1 then (if b.lt a then b else a) else (if a.lt b then b else a)

/-- A contribution joins an accumulator. -/
def accAdd (red : Nat) (l : Int) (v : FVal) (a : Acc) : Acc :=
  match v with
  | .nan => { a with nan := true }
  | .inf neg =>
    if red = 0 then (if neg then { a with ninf := true } else { a with pinf := true })
    else
      let x : Sel := { inf := if neg then -1 else 1 }
      { a with sel := some (match a.sel with | some y => selPick red y x | none => x) }
  | .num neg m e =>
    let k := scaled neg m e l
    if red = 0 then { a with k := a.k + k }
    else
      let x : Sel := { k := k, negz := neg && m == 0 }
      { a with sel := some (match a.sel with | some y => selPick red y x | none => x) }

/-- R244: two partials of an element. -/
def accJoin (red : Nat) (a b : Acc) : Acc :=
  { k := a.k + b.k, pinf := a.pinf || b.pinf, ninf := a.ninf || b.ninf, nan := a.nan || b.nan,
    sel := match a.sel, b.sel with | some x, some y => some (selPick red x y) | some x, none => some x | none, y => y }

/-- A chunk's contribution joins the accumulators of its elements. -/
def accChunk (red : Nat) (l : Int) (vs : List FVal) (as : List Acc) : List Acc := (as.zip vs).map fun p => accAdd red l p.2 p.1

/-! ### The result (R230 to R232) -/

/-- What rounding an element came to: its encoding, and what R252 counts. -/
structure Rounded where
  bits : Nat := 0
  sat  : Bool := false
  isOver : Bool := false
  nan  : Bool := false
deriving DecidableEq, Repr

/-- R231: stochastic rounding of m × 2^e to a format, with the random word `r`. -/
def stochBits (f : Fmt) (isOver : Bool → Nat) (r : Nat) (neg : Bool) (m : Nat) (e : Int) : Nat :=
  let emin : Int := 1 - (f.bias : Int) - f.mb
  let q := max emin (e + log2 m - f.mb)
  let maxV := f.decode (f.maxBits false)
  if FVal.lt maxV (.num false m e) then isOver neg
  else if q ≤ e then f.encodeWith isOver (.num neg m e)
  else
    let k := (q - e).toNat
    let a := m / 2 ^ k
    let rem := m % 2 ^ k
    if rem = 0 then f.encodeWith isOver (.num neg a q)
    else if r < rem * 4294967296 / 2 ^ k then f.encodeWith isOver (.num neg (a + 1) q)
    else f.encodeWith isOver (.num neg a q)

def overBits (outf : Nat) (neg : Bool) : Nat := if outf = 3 then e4m3.maxBits neg else (fmtOf outf).infBits neg

/-- R230 steps 3 to 5, R231: a finite value in units of 2^u. -/
def roundFinite (outf : Nat) (stoch : Bool) (r : Nat) (k : Int) (u : Int) : Rounded :=
  if fmtInt outf then
    let c := satInt 32 k
    { bits := toTwos 32 c, sat := c != k }
  else if k = 0 then {}
  else
    let f := fmtOf outf
    let neg := decide (k < 0)
    let b := if stoch then stochBits f (overBits outf) r neg k.natAbs u else f.encodeWith (overBits outf) (.num neg k.natAbs u)
    -- beyond the largest finite value: the result is the overflow result and not that value rounded
    let isOver := b == overBits outf neg && FVal.lt (f.decode (f.maxBits false)) (.num false k.natAbs u)
    { bits := b, isOver := isOver }

def canonNan (outf : Nat) : Nat := if outf = 3 then 0x7F else (fmtOf outf).qnan

/-- The result of an element (R230 to R232), with V = K × 2^(L + SHIFT). -/
def accResult (red outf : Nat) (stoch : Bool) (shift : Int) (l : Int) (r : Nat) (a : Acc) : Rounded :=
  if a.nan then { bits := canonNan outf, nan := true }
  else if red = 0 then
    if a.pinf && a.ninf then { bits := canonNan outf, nan := true }
    else if a.pinf then { bits := overBits outf false }
    else if a.ninf then { bits := overBits outf true }
    else roundFinite outf stoch r a.k (l + shift)
  else match a.sel with
    | none => {}
    | some x =>
      if x.inf != 0 then { bits := overBits outf (decide (x.inf < 0)) }
      else if x.k = 0 then { bits := if fmtInt outf then 0 else b2n x.negz * 2 ^ (fmtBits outf - 1) }
      else roundFinite outf stoch r x.k l

/-- The fp32 value of a partial, without SHIFT (R244). -/
def accF32 (l : Int) (a : Acc) : Nat := (accResult 0 0 false 0 l 0 a).bits

/-- R244: FP32_ORDERED's sum of the partials in order, then its rounding. -/
def orderedResult (outf : Nat) (stoch : Bool) (shift : Int) (r : Nat) (ps : List Nat) : Rounded :=
  let t := ps.foldl (fun acc p => fp32.addBits acc p) 0
  match fp32.decode t with
  | .nan => { bits := canonNan outf, nan := true }
  | .inf neg => { bits := overBits outf neg }
  | .num neg m e => roundFinite outf stoch r (signed neg m) (e + shift)

/-! ### EXACT partials on the wire (R243) -/

def kBytes (wide : Bool) : Nat := if wide then 40 else 8

/-- The payload of an EXACT PARTIAL: 256 values of K, 64 B of flags, 32 B of NEG_ZERO. -/
def encodePartial (red : Nat) (wide : Bool) (as : List Acc) : List Byte :=
  let as := (as ++ List.replicate 256 ({} : Acc)).take 256
  let kOf := fun (a : Acc) => if red = 0 then a.k else match a.sel with | some x => x.k | none => 0
  let flag := fun (a : Acc) =>
    let p := a.pinf || a.sel.any (fun x => x.inf == 1)
    let n := a.ninf || a.sel.any (fun x => x.inf == -1)
    if a.nan || (p && n) then 3 else if p then 1 else if n then 2 else 0
  let nz := fun (a : Acc) => a.sel.any (·.negz)
  as.flatMap (fun a => toLE (kBytes wide) (toTwos (8 * kBytes wide) (kOf a)))
    ++ toLE 64 (pack (as.map fun a => (2, flag a))) ++ toLE 32 (pack (as.map fun a => (1, b2n (nz a))))

/-- The accumulators an EXACT PARTIAL carries. -/
def decodePartial (red : Nat) (wide : Bool) (d : List Byte) : List Acc :=
  let n := kBytes wide
  let fl := ofLE ((d.drop (256 * n)).take 64)
  let nz := ofLE ((d.drop (256 * n + 64)).take 32)
  (List.range 256).map fun j =>
    let k := ofTwos (8 * n) (ofLE ((d.drop (j * n)).take n))
    let f := bits fl (2 * j + 1) (2 * j)
    if red = 0 then { k := k, pinf := f == 1, ninf := f == 2, nan := f == 3 }
    else { nan := f == 3, sel := some { inf := if f = 1 then 1 else if f = 2 then -1 else 0, k := k, negz := bitOf nz j } }

end Sys2Proof.Machine
end

