-- ==== Sys2Proof/Machine/Memory.lean ====
section
/-!
DEFINITION. The pool's bytes (R29, R130) and Fold (R197 to R217): memory in its canonical form, stored forms,
reads and writes of blocks, and poison.
-/
namespace Sys2Proof.Machine

/-! ### Bytes. An address not listed reads as zero: the pages of the pool start in ZERO (R130). -/

/-- The byte at a pool offset. -/
def memRead : List Host.Cell → Nat → Byte
  | [], _ => 0
  | (a, b) :: t, k => if a = k then b else if k < a then 0 else memRead t k

/-- Memory with `b` at offset `k`; a zero byte is not listed. -/
def memWrite : List Host.Cell → Nat → Byte → List Host.Cell
  | [], k, b => if b = 0 then [] else [(k, b)]
  | (a, x) :: t, k, b =>
    if k < a then (if b = 0 then (a, x) :: t else (k, b) :: (a, x) :: t)
    else if a = k then (if b = 0 then t else (k, b) :: t)
    else (a, x) :: memWrite t k b

/-- The canonical form: addresses strictly rising, no listed byte zero. -/
def Memory.wf : List Host.Cell → Bool
  | [] => true
  | [(_, b)] => b != 0
  | (a, b) :: (a', b') :: t => b != 0 && decide (a < a') && Memory.wf ((a', b') :: t)

/-- `n` bytes from offset `a`. -/
def memBytes (m : List Host.Cell) (a n : Nat) : List Byte := (List.range n).map fun i => memRead m (a + i)

/-- Memory with bytes written from offset `a` on. -/
def memStore (m : List Host.Cell) (a : Nat) : List Byte → List Host.Cell
  | [] => m
  | b :: bs => memStore (memWrite m a b) (a + 1) bs

/-- Memory with every byte of [lo, lo + n) zero. -/
def memClear (m : List Host.Cell) (lo n : Nat) : List Host.Cell := m.filter fun c => !(decide (lo ≤ c.1) && decide (c.1 < lo + n))

/-- The little-endian 64-bit word at offset `a`. -/
def memWord (m : List Host.Cell) (a : Nat) : Nat := ofLE (memBytes m a 8)

/-! ### Stored forms (R202 to R204) -/

/-- The non-zero elements of width `w` among the bytes of a block. `k` counts the bytes of the element begun. -/
def countNZ (w : Nat) : List Byte → Nat → Bool → Nat
  | [], _, nz => b2n nz
  | b :: bs, k, nz =>
    let nz' := nz || b != 0
    if k + 1 = w then b2n nz' + countNZ w bs 0 false else countNZ w bs (k + 1) nz'

/-- R204: the sectors of a sparse form of width `w`. -/
def sparseSectors (w : Nat) (plain : List Byte) : Nat := ceilDiv (64 / w + countNZ w plain 0 false * w) 64

/-- R204: the stored form of a block's plaintext and its sectors. -/
def storedForm (compress : Bool) (plain : List Byte) : Form × Nat :=
  if plain.all (· == 0) then (.zero, 0)
  else if !compress then (.raw, 8)
  else
    let a := sparseSectors 1 plain
    let b := sparseSectors 2 plain
    let c := sparseSectors 4 plain
    let n := min a (min b c)
    if 7 < n then (.raw, 8) else if a = n then (.sp8, a) else if b = n then (.sp16, b) else (.sp32, c)

/-! ### Blocks -/

def blk (s : State) (b : Nat) : Blk := s.fld.blocks.get b
def setBlk (b : Nat) (x : Blk) (s : State) : State := { s with fld := { s.fld with blocks := s.fld.blocks.set b x } }
def modFld (n : Nat) (f : FldStat → FldStat) (s : State) : State :=
  { s with fld := { s.fld with parts := s.fld.parts.mod n f } }

/-- Who a FOLD_POISON entry names (R562): an endpoint node, or a sequencer or engine with ENGINE set. -/
structure FoldReq where
  engine : Bool := false
  num    : Nat := 0
deriving DecidableEq, Repr

/-- R211: a FOLD_POISON entry. -/
def logPoison (part : Nat) (b : Nat) (c : BlkCause) (r : FoldReq) (s : State) : State :=
  report .foldPoison .fold (some part) [b * 512, c.code + 8 * b2n r.engine + 16 * (r.num % 4096)] s

/-- R215: a block was found unverified. -/
def countFail (part : Nat) (c : BlkCause) (s : State) : State :=
  modFld part (fun x => if c = .tag then { x with tagFail := sat 16 x.tagFail } else { x with checkFail := sat 16 x.checkFail }) s

/-- R211, R215: a read or a copy meets an unverified block: it is counted, and logged unless it was within the
previous second. -/
def detect (part b : Nat) (r : FoldReq) (s : State) : State :=
  match (blk s b).bad with
  | none => s
  | some c =>
    let s := countFail part c s
    let recent := match (blk s b).logged with | some t => decide (s.ft < t + 1000000000) | none => false
    if recent then s else logPoison part b c r (setBlk b { blk s b with logged := some s.ft } s)

/-- The lines (0 to 3) of block `b` that bytes [off, off + len) touch, as a mask. -/
def lineMask (b off len : Nat) : Nat :=
  sumOf ((List.range 4).map fun i =>
    let lo := b * 512 + i * 128
    if lo < off + len ∧ off < lo + 128 then 2 ^ i else 0)

/-- The blocks that [off, off + len) touches. -/
def blocksOf (off len : Nat) : List Nat := if len = 0 then [] else rangeFrom (off / 512) ((off + len - 1) / 512 - off / 512 + 1)

/-- R208: whether a read of [off, off + len) completes POISON. -/
def readPoisoned (s : State) (off len : Nat) : Bool :=
  (blocksOf off len).any fun b =>
    let x := blk s b
    x.bad.isSome || x.bpoison || (x.pmask &&& lineMask b off len) != 0

/-- R208, R211, R215: a read through Fold: POISON or the bytes. -/
def foldRead (part : Nat) (r : FoldReq) (off len : Nat) (s : State) : State × Cpl :=
  if readPoisoned s off len then
    let s := (blocksOf off len).foldl (fun s b => detect part b r s) s
    (modFld part (fun x => { x with poisonReads := sat 16 x.poisonReads }) s, cPoison)
  else (s, cData (memBytes s.mem off len))

/-- R204, R205, R216: a block is written whole from its plaintext. -/
def putBlock (part b : Nat) (plain : List Byte) (pmask : Nat) (compress : Bool) (s : State) : State :=
  let (f, n) := storedForm compress plain
  let s := { s with mem := memStore s.mem (b * 512) plain }
  let s := setBlk b { form := f, sectors := n, pmask := pmask } s
  if compress then modFld part (fun x => { x with blocks := satAdd 32 x.blocks 1, sectors := satAdd 32 x.sectors n }) s else s

/-- The bytes of a write that fall into block `b`, at their places in the block: none where nothing is written. -/
def blockPart (b off : Nat) (data : List (Option Byte)) : List (Option Byte) :=
  (List.range 512).map fun i => if b * 512 + i < off then none else (data.getD (b * 512 + i - off) none)

/-- Whether line `i` of a block part is written whole, or touched. -/
def lineWhole (p : List (Option Byte)) (i : Nat) : Bool := ((p.drop (i * 128)).take 128).all (·.isSome)
def lineTouched (p : List (Option Byte)) (i : Nat) : Bool := ((p.drop (i * 128)).take 128).any (·.isSome)

/-- Old bytes with the written ones merged in. -/
def mergeBytes : List Byte → List (Option Byte) → List Byte
  | o :: os, n :: ns => n.getD o :: mergeBytes os ns
  | os, _ => os

/-- R209: why a partial write of a block completes POISON, if it does. -/
def partialCause (x : Blk) (p : List (Option Byte)) : Option BlkCause :=
  match x.bad with
  | some c => some c
  | none =>
    if x.bpoison then some .bpoison
    else if (List.range 4).any (fun i => bitOf x.pmask i && lineTouched p i && !lineWhole p i) then some .pmask
    else none

/-- R209, R210: the PMASK after a write with or without the poison mark. -/
def newMask (old : Nat) (p : List (Option Byte)) (mark : Bool) : Nat :=
  sumOf ((List.range 4).map fun i =>
    if mark && lineTouched p i then 2 ^ i else if lineWhole p i then 0 else if bitOf old i then 2 ^ i else 0)

/-- R209: one block of a write. Answers whether it completed POISON. -/
def writeBlock (part : Nat) (r : FoldReq) (compress mark : Bool) (b : Nat) (p : List (Option Byte)) (s : State) : State × Bool :=
  let x := blk s b
  if p.all (·.isSome) then (putBlock part b (p.map (·.getD 0)) (newMask 0 p mark) compress s, false)
  else match partialCause x p with
  | some c =>
    let s := logPoison part b c r s
    (if x.bad.isSome then setBlk b { x with logged := some s.ft } (countFail part c s) else s, true)
  | none =>
    (putBlock part b (mergeBytes (memBytes s.mem (b * 512) 512) p) (newMask x.pmask p mark) compress s, false)

/-- The runs of bytes that are written, of data that begins at `a`. -/
def runsOf (a : Nat) : List (Option Byte) → List (Nat × Nat)
  | [] => []
  | none :: t => runsOf (a + 1) t
  | some _ :: t =>
    match runsOf (a + 1) t with
    | (b, n) :: r => if b = a + 1 then (a, n + 1) :: r else (a, 1) :: (b, n) :: r
    | [] => [(a, 1)]

/-- A write is noted for the commands whose operands must not change meanwhile (R233, R262, R384). -/
def noteWrite (r : FoldReq) (off : Nat) (data : List (Option Byte)) (s : State) : State :=
  let l := (runsOf off data).map fun x => ({ off := x.1, len := x.2, engine := r.engine, num := r.num } : WriteRec)
  { s with fld := { s.fld with wlog := s.fld.wlog ++ l } }

/-- How many runs have been written: what is written from now on stands behind them. -/
def writesNow (s : State) : Nat := s.fld.wlog.length

/-- The runs written since that touch [off, off + len). -/
def writtenSince (s : State) (since off len : Nat) : List WriteRec :=
  (s.fld.wlog.drop since).filter fun x => decide (x.off < off + len) && decide (off < x.off + x.len)

/-- R233, R262: bytes read from `off` on; those written since are undefined, and stand as free ones. -/
def freeSince (since : Option Nat) (off : Nat) (d : List Byte) (s : State) : State × List Byte :=
  match since with
  | none => (s, d)
  | some k =>
    let ws := writtenSince s k off d.length
    if ws.isEmpty then (s, d)
    else
      let free := fun i => ws.any fun x => decide (x.off ≤ off + i) && decide (off + i < x.off + x.len)
      (useFresh s, (d.zipIdx).map fun (b, i) => if free i then Config.freeByte s.fresh i else b)

/-- R209, R215: a write through Fold, block by block. -/
def foldWriteOpt (part : Nat) (r : FoldReq) (compress mark : Bool) (off : Nat) (data : List (Option Byte)) (s : State) :
    State × Cpl :=
  let s := noteWrite r off data s
  let (s, bad) := (blocksOf off data.length).foldl (fun (s, bad) b =>
    let p := blockPart b off data
    if p.all (·.isNone) then (s, bad)
    else
      let (s, e) := writeBlock part r compress mark b p s
      (s, bad || e)) (s, false)
  if bad then (modFld part (fun x => { x with poisonWrites := sat 16 x.poisonWrites }) s, cPoison) else (s, cOk)

def foldWrite (part : Nat) (r : FoldReq) (compress mark : Bool) (off : Nat) (data : List Byte) (s : State) : State × Cpl :=
  foldWriteOpt part r compress mark off (data.map some) s

/-- The size of a pool page. -/
def pageBytes : Nat := 2097152

/-- R130, R201: page `p` reads as zeros and its blocks are clean. -/
def clearPage (p : Nat) (s : State) : State :=
  { s with
    mem := memClear s.mem (p * pageBytes) pageBytes,
    fld := { s.fld with blocks := s.fld.blocks.filter fun e => !(e.1 / 4096 == p) } }

/-- R210 row 3: every block of page `p` becomes ZERO with PMASK 0xF and BPOISON 1. -/
def poisonPage (p : Nat) (s : State) : State :=
  let s := clearPage p s
  let t := (List.range 4096).foldl (fun (t : Tab Blk) i => t.set (p * 4096 + i) { pmask := 0xF, bpoison := true }) s.fld.blocks
  { s with fld := { s.fld with blocks := t } }

end Sys2Proof.Machine
end

