-- ==== Sys2Proof/Machine/Dir.lean ====
section
/-!
DEFINITION. The directory (R165 to R168), and what an engine's access through a COHERENT segment meets there
(R171, R186). An engine's snoop and its answer are taken together in the step that makes the access; the data an
owner returns is given with that step (DESIGN CHOICE, entry 20).
-/
namespace Sys2Proof.Machine

def modVtx (f : Vertex → Vertex) (s : State) : State := { s with vtx := f s.vtx }

/-- R158: the first identifier of a role's ports. -/
def agentBase (roleB : Bool) : Nat := if roleB then 0x100 else 0

/-- R158: the agent of a port of this switch; a gang is one agent, under its lower port number. -/
def portAgent (s : State) (p : Nat) : Nat := agentBase s.cmp.roleB + (port s p).gang.getD p

/-- R158: the identifier of a sequencer of this switch. -/
def seqAgent (s : State) (m : Nat) : Nat := (if s.cmp.roleB then 0x300 else 0x200) + m

/-- The port behind an agent identifier, if it is one of this switch. -/
def localPort (s : State) (a : Nat) : Option Nat :=
  if agentBase s.cmp.roleB ≤ a ∧ a < agentBase s.cmp.roleB + 0x100 then some (a - agentBase s.cmp.roleB) else none

/-- R159: an agent's port is marked privileged. -/
def agentPriv (s : State) (a : Nat) : Bool :=
  match localPort s a with
  | some p => (port s p).priv
  | none => (s.cmp.active.partnerPorts.find? fun x => agentBase (!s.cmp.roleB) + x.gang.getD x.port == a).any (·.priv)

/-- The coherent agents of the domain that answer snoops, of a group of sixteen identifiers. -/
def groupAgents (s : State) (g : Nat) : List Nat :=
  (rangeFrom (16 * g) 16).filter fun a =>
    match localPort s a with
    | some p => (port s p).coherent && portAgent s p == a && !s.vtx.excluded.contains p
    | none => hasPartner s && s.cmp.active.partnerPorts.any fun x => x.coherent && agentBase (!s.cmp.roleB) + x.gang.getD x.port == a

/-- The entry of a line, with its number. -/
def dirFind (s : State) (line : Nat) : Option (Nat × DirEnt) := s.vtx.dir.find? fun e => e.2.used && e.2.line == line

/-- R166: the agents an entry names. -/
def holders (s : State) (e : DirEnt) : List Nat :=
  if e.coarse then (List.range 32).flatMap fun g => if bitOf e.groups g then groupAgents s g else [] else e.ptrs

def dirFree (line : Nat) (s : State) : State :=
  match dirFind s line with
  | some (i, _) => modVtx (fun v => { v with dir := v.dir.set i {} }) s
  | none => s

/-- R165: the set of a line. -/
def dirSet (line : Nat) : Nat := line % 524288

/-- R167, R168: the ways of a partition in a line's set. -/
def dirWays (s : State) (n line : Nat) : List Nat :=
  ((List.range 16).filter fun w => bitOf (partRec s n).vtxWayMask w).map fun w => dirSet line * 16 + w

/-- R166: an entry with one more sharer; a fourth sets COARSE. -/
def addSharer (a : Nat) (e : DirEnt) : DirEnt :=
  if e.coarse then { e with groups := setBit e.groups (a / 16) }
  else if e.ptrs.contains a then e
  else if e.ptrs.length < 3 then { e with ptrs := e.ptrs ++ [a] }
  else { e with coarse := true, groups := (a :: e.ptrs).foldl (fun g x => setBit g (x / 16)) 0, ptrs := [] }

/-- The GV and GRANT_TAG of a snoop (R164): set when this agent was sent the line and has not answered since. -/
def grantOf (s : State) (a line : Nat) : Nat × Nat :=
  match s.vtx.granted.find? fun g => g.1 == a && g.2.1 == line with
  | some g => (1, g.2.2)
  | none => (0, 0)

/-- A snoop leaves for an agent. -/
def sendSnoop (a line : Nat) (k : Snoop) (reqAgent tag : Nat) (s : State) : State :=
  let (gv, gt) := grantOf s a line
  send .cohSnoop a [k.code, line * 128, gv, s.vtx.gen, gt, reqAgent, tag] s

/-- R186: the domain is not UP. -/
def cohDownNow (s : State) : Bool := s.vtx.st != .up

/-- R186, R187 step 5: an engine's request of partition `n` meets a domain that is down. -/
def engineDown (n : Nat) (s : State) : State :=
  modVtx (fun v => { v with
    stats := v.stats.mod n (fun x => { x with downCmp := sat 16 x.downCmp }),
    restart := if v.restart.contains n then v.restart else v.restart ++ [n] }) s

/-- R177, R179: an engine's request meets a window of its line. A read through a COMBINABLE segment of the window's partition
joins; any other request closes the window. -/
def engineMeets (joins : Bool) (part l : Nat) (s : State) : State :=
  match s.vtx.wins.find? (·.line == l) with
  | none => s
  | some w =>
    if joins && !w.atomic && w.part == part && decide (w.count < 512) && decide (s.ft < w.opened + 64) then
      let w' := { w with count := w.count + 1 }
      modVtx (fun v => { v with wins := v.wins.replace w w', stats := v.stats.mod part (fun x => { x with combReads := sat 16 x.combReads }) }) s
    else if w.data.isSome then modVtx (fun v => { v with wins := v.wins.erase w }) s
    else modVtx (fun v => { v with wins := v.wins.replace w ({ w with count := 512, opened := 0 }) }) s

/-- R171: what an engine's read of [off, off + n) through a COHERENT segment does at the home: the owners of its lines
are snooped for their current data. Answers the lines that have an owner. -/
def engineRead1 (comb : Bool) (part off n : Nat) (s : State) : State × List Nat :=
  let ls := if n = 0 then [] else rangeFrom (off / 128) ((off + n - 1) / 128 - off / 128 + 1)
  ls.foldl (fun (s, own) l =>
    let s := engineMeets comb part l s
    match dirFind s l with
    | some (_, e) => if e.own then ((holders s e).foldl (fun s a => sendSnoop a l .cur 0 part s) s, own ++ [l]) else (s, own)
    | none => (s, own)) (s, [])

/-- Bytes read with those of owned lines taken from the owners' answers. -/
def overOwned (own : List Nat) (off : Nat) (mem ext : List Byte) : List Byte :=
  (mem.zip ext).zipIdx.map fun p => if own.contains ((off + p.2) / 128) then p.1.2 else p.1.1

/-- R171: an engine's write of [off, off + n): every cached copy is invalidated. Answers the lines that had an owner and keep
bytes of it. -/
def engineWrite1 (part off n : Nat) (s : State) : State × List Nat :=
  let ls := if n = 0 then [] else rangeFrom (off / 128) ((off + n - 1) / 128 - off / 128 + 1)
  ls.foldl (fun (s, own) l =>
    let s := engineMeets false part l s
    match dirFind s l with
    | some (_, e) =>
      let part_ := decide (l * 128 < off) || decide (off + n < l * 128 + 128)
      (dirFree l ((holders s e).foldl (fun s a => sendSnoop a l .inv 0 part s) s), if e.own && part_ then own ++ [l] else own)
    | none => (s, own)) (s, [])

end Sys2Proof.Machine
end

