-- ==== Sys2Proof/Machine/Xlate.lean ====
section
/-!
DEFINITION. Translation (R86 to R105, R115 to R118): virtual addresses, segment descriptors, page-table
entries, the home of a page, faults, and the accesses of engines (R28 stage 4 on).
-/
namespace Sys2Proof.Machine

/-! ### The pool and its homes (R86, R87, R127, R128) -/

/-- A 2 MiB page of the pool lies in partition `n`'s pool range. -/
def inPool (s : State) (n p : Nat) : Bool := (partRec s n).pool.any fun r => decide (r.1 ≤ p) && decide (p < r.1 + r.2)

/-- R508: the group region a page lies in. -/
def groupOf (s : State) (p : Nat) : Option GroupRec :=
  s.cmp.active.groupRegs.find? fun g => decide (g.first ≤ p) && decide (p < g.first + g.count)

/-- The page lies in a group range listed for partition `n`. -/
def inGroup (s : State) (n p : Nat) : Bool :=
  match groupOf s p with | some g => g.readers.contains n | none => false

/-- The partition that owns a pool page: by its pool range, or the FILLER of its group region. -/
def pagePart (s : State) (p : Nat) : Option Nat :=
  match s.cmp.active.parts.find? (fun r => r.pool.any fun q => decide (q.1 ≤ p) && decide (p < q.1 + q.2)) with
  | some r => some r.part
  | none => (groupOf s p).map (·.filler)

/-- The pool is shared with a partner: it runs, or its loss is being taken over (R597 step 7). -/
def shared (s : State) : Bool := hasPartner s || s.pair.st == .takeover

/-- R607: partition `n` is admitted; the pages and sessions of one that is not are its holder's. -/
def ownByRole (s : State) (part : Option Nat) (second : Bool) : Bool :=
  if !shared s then true
  else if (match part with | some n => bitOf s.pair.admitted n | none => true) then second == s.cmp.roleB
  else s.pair.joinStep == 0

/-- R128: this switch is home for page `p`: by h = p[0] XOR p[9] while its partner runs and the page's partition
is admitted (R607), and always without a partner. -/
def homeLocal (s : State) (p : Nat) : Bool := ownByRole s (pagePart s p) (bitOf p 0 != bitOf p 9)

/-- R35: the pair link is lost and the partner not yet declared lost. -/
def linkDown (s : State) : Bool := s.pair.st == .linkLost || (hasPartner s && !s.pair.linkUp)

/-- R35, R597 step 7: what is homed on the partner cannot be served. -/
def partnerOut (s : State) : Bool := linkDown s || s.pair.st == .takeover

/-- R87: an endpoint node of this switch, or of its running partner; its partition. -/
def nodePart (s : State) (node : Nat) : Option Nat :=
  match s.cmp.active.nodes.find? (·.node == node) with
  | some e => some e.part
  | none => if hasPartner s then (s.cmp.active.partnerNodes.find? (·.node == node)).map (·.part) else none

/-- R87, R91: the partition of an endpoint node bound to port `p` of this switch. -/
def nodeAt (s : State) (p node : Nat) : Option Nat :=
  (s.cmp.active.nodes.find? fun e => e.node == node && e.port == p).map (·.part)

def nodeOnPartner (s : State) (node : Nat) : Bool :=
  !s.cmp.active.nodes.any (·.node == node) && s.cmp.active.partnerNodes.any (·.node == node)

/-! ### Segment descriptors (R93, R94) -/

def segType (w : List Nat) : Nat := bits (w.getD 0 0) 1 0
def segRoot (w : List Nat) : Nat := bits (w.getD 0 0) 3 2
def segR (w : List Nat) : Bool := bitOf (w.getD 0 0) 4
def segW (w : List Nat) : Bool := bitOf (w.getD 0 0) 5
def segAtomic (w : List Nat) : Bool := bitOf (w.getD 0 0) 6
def segCoherent (w : List Nat) : Bool := bitOf (w.getD 0 0) 7
def segCombinable (w : List Nat) : Bool := bitOf (w.getD 0 0) 8
def segCompress (w : List Nat) : Bool := bitOf (w.getD 0 0) 9
def segGroup (w : List Nat) : Bool := bitOf (w.getD 0 0) 10
def segGroupId (w : List Nat) : Nat := bits (w.getD 0 0) 14 11
def segLimit (w : List Nat) : Nat := bits (w.getD 1 0) 51 0
def segBase (w : List Nat) : Nat := w.getD 2 0
def segLayers (w : List Nat) : Nat := bits (w.getD 3 0) 11 0
def segRec (w : List Nat) : Nat := bits (w.getD 3 0) 27 12
def segTpp (w : List Nat) : Nat := bits (w.getD 3 0) 39 28
def segSlotPages (w : List Nat) : Nat := bits (w.getD 3 0) 63 40

/-- R94: a malformed descriptor of partition `n`. -/
def segMalformed (s : State) (n : Nat) (w : List Nat) : Bool :=
  let t := segType w
  bits (w.getD 0 0) 63 15 != 0 || bits (w.getD 1 0) 63 52 != 0 || segRoot w == 3
  || (t != 3 && w.getD 3 0 != 0)
  || decide ((if segRoot w = 0 then 2 ^ 52 - 1 else if segRoot w = 1 then 2 ^ 48 - 1 else 2 ^ 39 - 1) < segLimit w)
  || (segGroup w && (segW w || segAtomic w))
  || (t != 0 && (segLimit w + 1) % pageBytes != 0)
  || (t == 3 && (decide (pageBytes < segTpp w * segLayers w * segRec w * 16)
      || segLayers w == 0 || segRec w == 0 || segTpp w == 0 || segSlotPages w == 0))
  || (t == 2 && (segRoot w != 0 || segBase w % pageBytes != 0))
  || ((t == 1 || t == 3) && (segBase w % 4096 != 0 || bits (segBase w) 63 52 != 0
      || !(inPool s n (segBase w / pageBytes) || inGroup s n (segBase w / pageBytes))))

/-- R94, R113: a descriptor whose group the composition does not list for the partition. -/
def segGroupForbidden (s : State) (n : Nat) (w : List Nat) : Bool :=
  segType w != 0 && segGroup w &&
    !(s.cmp.active.groupRegs.any fun g => g.g == segGroupId w && g.readers.contains n)

/-! ### Requests to Locus -/

/-- R116: the fault types. -/
inductive FaultTy where
  | limit | notPresent | malformed | range | protection | walkPoison | ctxDisabled
deriving DecidableEq, Repr

def FaultTy.code : FaultTy → Nat
  | .limit => 1 | .notPresent => 2 | .malformed => 3 | .range => 4 | .protection => 5 | .walkPoison => 6
  | .ctxDisabled => 7

/-- What a request wants of Locus. `num` is the endpoint node, or the sequencer or engine number. -/
structure XlReq where
  part   : Nat := 0
  endpoint : Nat := 0
  asid   : Nat := 0
  va     : Nat := 0
  len    : Nat := 0
  write  : Bool := false
  atomic : Bool := false
  posted : Bool := false
  engine : Bool := false
  num    : Nat := 0
  tag    : Nat := 0
  since  : Option Nat := none
deriving DecidableEq, Repr

/-- R92: the context of a partition that matches (endpoint, ASID). -/
def findCtx (s : State) (n endpoint asid : Nat) : Option Nat :=
  let r := partRec s n
  (s.loc.ctxs.idxs fun i c => decide (r.ctxBase ≤ i) && decide (i < r.ctxBase + r.ctxCount) && c.valid
    && c.endpoint == endpoint && c.asid == asid).head?

/-- What the segment stage answers: refused or faulted, or the context, segment and byte offset. -/
inductive SegAns where
  | notPermitted | bad | fault (t : FaultTy) (ctx seg : Nat)
  | ok (ctx seg : Nat) (w : List Nat) (off : Nat)
deriving DecidableEq, Repr

/-- R101: the offset of a KV-form address, or none for LIMIT. -/
def kvOffset (w : List Nat) (slot token layer : Nat) : Option Nat :=
  let rb := segRec w * 16
  let page := token / segTpp w
  if segSlotPages w ≤ page ∨ segLayers w ≤ layer then none
  else
    let off := slot * segSlotPages w * pageBytes + page * pageBytes + layer * segTpp w * rb + token % segTpp w * rb
    if segLimit w < off then none else some off

/-- R90 to R95, R101, R112: what holds before any table is read. -/
def segStage (s : State) (x : XlReq) : SegAns :=
  match findCtx s x.part x.endpoint x.asid with
  | none => .notPermitted
  | some c =>
    let g := bits x.va 63 60
    let w := (s.loc.ctxs.get c).segs.getD g []
    if segType w = 0 || (x.atomic && !segAtomic w) || (x.write && !x.atomic && !segW w)
        || (!x.write && !x.atomic && !segR w) then .notPermitted
    else
      let kv := bitOf x.va 59
      if (kv && segType w != 3) || (!kv && bits x.va 58 52 != 0) || (kv && decide (segRec w * 16 < x.len)) then .bad
      else if s.loc.disabled.contains (c, x.endpoint) && x.endpoint != 0 then .fault .ctxDisabled c g
      else if kv then
        match kvOffset w (bits x.va 58 35) (bits x.va 34 12) (bits x.va 11 0) with
        | none => .fault .limit c g
        | some off => .ok c g w off
      else
        let off := bits x.va 51 0
        if segLimit w < off + (x.len - 1) then .fault .limit c g else .ok c g w off

/-! ### Page-table entries (R97, R98) -/

/-- The level at which a walk of a segment starts (R93). -/
def rootLevel (w : List Nat) : Nat := 4 - segRoot w

/-- The index of a level into its table. -/
def tableIndex (level off : Nat) : Nat :=
  if level = 4 then bits off 51 48 else if level = 3 then bits off 47 39 else if level = 2 then bits off 38 30 else bits off 29 21

/-- What an entry answers (R98). -/
inductive EntAns where
  | fault (t : FaultTy)
  | notLocal
  | next (table : Nat)
  | leaf (e : Nat)
deriving DecidableEq, Repr

def entV (e : Nat) : Bool := bitOf e 0
def entLeaf (e : Nat) : Bool := bitOf e 1
def entNode (e : Nat) : Nat := bits e 63 52
/-- The offset an entry's ADDR gives. -/
def entAddr (e : Nat) : Nat := bits e 51 12 * 4096

/-- R98: the checks of one entry, in order. `poison` tells that the read returned POISON, `kv` a KV segment,
`off` the segment offset the walk translates. -/
def entCheck (s : State) (n level : Nat) (kv poison write : Bool) (off e : Nat) : EntAns :=
  if poison then .fault .walkPoison
  else if !entV e then .fault .notPresent
  else if bits e 11 4 != 0 || (!entLeaf e && entNode e != 0) || (!entLeaf e && level == 1) || (entLeaf e && decide (3 ≤ level))
      || (entLeaf e && level == 2 && kv) || (entLeaf e && decide (0xF00 ≤ entNode e))
      || (entLeaf e && level == 1 && bits e 20 12 != 0) || (entLeaf e && level == 2 && bits e 29 12 != 0) then .fault .malformed
  else
    let poolLeaf := entLeaf e && entNode e == 0
    -- a 1 GiB leaf is checked at the page the offset names
    let page := (entAddr e + (if level = 2 && entLeaf e then bits off 29 21 * pageBytes else 0)) / pageBytes
    if (!entLeaf e || poolLeaf) && !(inPool s n page || inGroup s n page) then .fault .range
    else if entLeaf e && entNode e != 0 &&
        (match (s.cmp.active.nodes ++ s.cmp.active.partnerNodes).find? (·.node == entNode e) with
         | some x => x.part != n | none => false) then .fault .range
    else if !entLeaf e then .next (entAddr e)
    else if (if write then !bitOf e 3 else !bitOf e 2) || (write && poolLeaf && inGroup s n page && !inPool s n page) then .fault .protection
    else if entNode e != 0 && (nodePart s (entNode e)).isNone then .notLocal
    else .leaf e

/-- The physical fabric address a leaf of a level gives for a segment offset. -/
def leafAddr (e level off : Nat) : Nat :=
  entNode e * 2 ^ 52 + entAddr e + (if level = 2 then bits off 29 0 else bits off 20 0)

/-- R96: a DIRECT segment's result. -/
def directAns (s : State) (n : Nat) (w : List Nat) (off : Nat) (write : Bool) : EntAns × Nat :=
  let pa := (segBase w + off) % 2 ^ 64
  let node := bits pa 63 52
  let page := bits pa 51 0 / pageBytes
  if node = 0 then
    if !(inPool s n page || inGroup s n page) then (.fault .range, pa)
    else if write && !inPool s n page then (.fault .protection, pa)
    else (.leaf 0, pa)
  else if decide (0xF00 ≤ node) then (.fault .range, pa)
  else match (s.cmp.active.nodes ++ s.cmp.active.partnerNodes).find? (·.node == node) with
    | some x => if x.part != n then (.fault .range, pa) else if (nodePart s node).isNone then (.notLocal, pa) else (.leaf 0, pa)
    | none => (.notLocal, pa)

/-! ### Faults (R116 to R118) -/

def locPart (s : State) (n : Nat) : LocPart := s.loc.parts.get n
def setLocPart (n : Nat) (x : LocPart) (s : State) : State := { s with loc := { s.loc with parts := s.loc.parts.set n x } }

/-- R116: the words of a fault entry. -/
def faultWords (s : State) (x : XlReq) (t : FaultTy) (ctx seg level entry addr seq : Nat) : FaultEnt :=
  [ pack [(4, t.code), (1, b2n (x.write || x.atomic)), (1, b2n x.posted), (1, b2n x.engine), (3, level), (12, x.num), (12, x.asid),
          (12, ctx - (partRec s x.part).ctxBase), (4, seg)],
    x.va, s.ft, (dom s x.part).angle, entry, addr, pack [(16, x.len), (32, x.tag)], seq % 2 ^ 32 ]

/-- R117, R118: a fault is recorded in the partition's ring, or counted lost. -/
def recordFault (x : XlReq) (t : FaultTy) (ctx seg level entry addr : Nat) (s : State) : State × Cpl :=
  let r := partRec s x.part
  let q := locPart s x.part
  if r.fqSize = 0 ∨ r.fqSize ≤ q.count then
    (setLocPart x.part { q with lost := true, ovf := listSet q.ovf t.code (sat 8 (q.ovf.getD t.code 0)) } s,
     { status := .faultedUnrecorded })
  else
    let s' := { s with loc := { s.loc with ring := s.loc.ring.set (r.fqBase + q.tail) (faultWords s x t ctx seg level entry addr q.seq) } }
    (setLocPart x.part { q with tail := (q.tail + 1) % r.fqSize, count := q.count + 1, seq := (q.seq + 1) % 2 ^ 32 } s',
     { status := .faulted })

/-! ### A whole translation at once, as an engine's access makes it -/

/-- What a translation answers: an address, or a completion. -/
inductive XlAns where
  | addr (pa : Nat) (w : List Nat) (ctx : Nat)
  | cpl (c : Cpl)
deriving DecidableEq, Repr

/-- R98: the walk from a level down, reading the tables as they stand. -/
def walkFrom (x : XlReq) (ctx seg : Nat) (w : List Nat) (off : Nat) : (level table : Nat) → State → State × XlAns
  | 0, _, s => (s, .cpl cBad)
  | level + 1, table, s =>
    let addr := table + 8 * tableIndex (level + 1) off
    let p := readPoisoned s addr 8
    let e := memWord s.mem addr
    match entCheck s x.part (level + 1) (segType w == 3) p (x.write || x.atomic) off e with
    | .fault t =>
      let s := if p then (foldRead x.part { engine := true, num := 0 } addr 8 s).1 else s
      let (s, c) := recordFault x t ctx seg (level + 1) e addr s
      (s, .cpl c)
    | .notLocal => (s, .cpl (cRef .notLocal))
    | .next t => walkFrom x ctx seg w off level t s
    | .leaf e => (s, .addr (leafAddr e (level + 1) off) w ctx)

/-- R28 stage 4 for an access that walks at once. -/
def translate (x : XlReq) (s : State) : State × XlAns :=
  match segStage s x with
  | .notPermitted => (s, .cpl cNP)
  | .bad => (s, .cpl cBad)
  | a =>
    match fenceCpl s .locus x.part with
    | some c => (s, .cpl c)
    | none =>
    match a with
    | .notPermitted => (s, .cpl cNP)
    | .bad => (s, .cpl cBad)
    | .fault t c g => let (s, k) := recordFault x t c g 0 0 0 s; (s, .cpl k)
    | .ok c g w off =>
      if segType w = 2 then
        match directAns s x.part w off (x.write || x.atomic) with
        | (.fault t, _) => let (s, k) := recordFault x t c g 0 0 0 s; (s, .cpl k)
        | (.notLocal, _) => (s, .cpl (cRef .notLocal))
        | (_, pa) => (s, .addr pa w c)
      else walkFrom x c g w off (rootLevel w) (segBase w) s

/-! ### Accesses of engines -/

/-- R28 stages 5 to 9: whether an access to a pool page can be served now. -/
def serveCpl (s : State) (p : Nat) (write : Bool) : Option Cpl :=
  if fenced s .fold || fenced s .plane then some (cRetry 25000)
  else if !homeLocal s p && partnerOut s && (write || (groupOf s p).isNone) then some (cRetry 10000)
  else none

/-- The pieces of [va, va + len) that lie in one 2 MiB page each. -/
def pagePieces : (fuel va len : Nat) → List (Nat × Nat)
  | 0, _, _ => []
  | fuel + 1, va, len =>
    if len = 0 then []
    else
      let n := min len (pageBytes - va % pageBytes)
      (va, n) :: pagePieces fuel (va + n) (len - n)

def piecesOf (va len : Nat) : List (Nat × Nat) :=
  if len = 0 then []
  else
    let n := if bitOf va 59 then len else min len (pageBytes - va % pageBytes)
    (va, n) :: pagePieces (len / pageBytes + 1) (va + n) (len - n)

/-- `n` bytes an endpoint returned: those given, and free ones where too few are (its memory is outside the switch). -/
def extBytes (s : State) (ext : List Byte) (n : Nat) : List Byte :=
  (List.range n).map fun i => match ext[i]? with | some b => b | none => Config.freeByte s.fresh i

/-- An engine's read, page by page: the bytes, or the first outcome in R15's order. What an endpoint node returns is
taken from `ext`, as is what the owner of coherent lines returns. -/
def readPieces (x : XlReq) : List (Nat × Nat) → List Byte → State → List Byte → Cpl → State × Cpl
  | [], _, s, acc, c => (s, if c.status = .ok then cData acc else c)
  | (va, n) :: rest, ext, s, acc, c =>
    match translate { x with va := va, len := n } s with
    | (s, .cpl k) => readPieces x rest ext s acc (worse c k)
    | (s, .addr pa w _) =>
      if segCoherent w && bits pa 63 52 != 0 then readPieces x rest ext s acc (worse c cBad)
      else if segCoherent w && cohDownNow s then readPieces x rest ext (engineDown x.part s) acc (worse c cDown)
      else if bits pa 63 52 != 0 then
        if nodeOnPartner s (bits pa 63 52) && linkDown s then readPieces x rest ext s acc (worse c (cRetry 10000))
        else readPieces x rest (ext.drop n) (useFresh s) (acc ++ extBytes s ext n) c
      else match serveCpl s (bits pa 51 0 / pageBytes) false with
      | some k => readPieces x rest ext s acc (worse c k)
      | none =>
        let (s, own) := if segCoherent w then engineRead1 (segCombinable w) x.part (bits pa 51 0) n s else (s, [])
        if own.isEmpty then
          let (s, k) := foldRead x.part { engine := true, num := x.num } (bits pa 51 0) n s
          let (s, d) := freeSince x.since (bits pa 51 0) k.data s
          readPieces x rest ext s (acc ++ d) (worse c { k with data := [] })
        else
          let d := overOwned own (bits pa 51 0) (memBytes s.mem (bits pa 51 0) n) (extBytes s ext n)
          let (s, d) := freeSince x.since (bits pa 51 0) d (useFresh s)
          readPieces x rest (ext.drop n) s (acc ++ d) c

/-- A read by an engine or sequencer of partition `n`, in the context of endpoint 0x000 and `asid` (R91). Bytes written
behind the first `since` writes read as free ones. -/
def engineReadFrom (since : Option Nat) (num n asid va len : Nat) (ext : List Byte) (s : State) : State × Cpl :=
  readPieces { part := n, asid := asid, engine := true, num := num, since := since } (piecesOf va len) ext s [] cOk

def engineReadAs (num n asid va len : Nat) (ext : List Byte) (s : State) : State × Cpl :=
  engineReadFrom none num n asid va len ext s

def engineRead (n asid va len : Nat) (s : State) : State × Cpl := engineReadAs 0 n asid va len [] s

end Sys2Proof.Machine
end

