-- ==== Sys2Proof/Machine/Cmd.lean ====
section
/-!
DEFINITION. Command queues (R61, R78, R325) and the energy admission of the commands in them (R567, R568).
-/
namespace Sys2Proof.Machine

/-- The key of queue `q` of a block. -/
def qKey (b : Block) (q : Nat) : Nat := b.code * 64 + q

def queueOf (s : State) (b : Block) (q : Nat) : List QCmd := s.eng.queues.get (qKey b q)
def setQueue (b : Block) (q : Nat) (l : List QCmd) (s : State) : State :=
  { s with eng := { s.eng with queues := s.eng.queues.set (qKey b q) l } }
def issuedOf (s : State) (b : Block) (q : Nat) : List QCmd := s.eng.issued.get (qKey b q)
def setIssued (b : Block) (q : Nat) (l : List QCmd) (s : State) : State :=
  { s with eng := { s.eng with issued := s.eng.issued.set (qKey b q) l } }

/-- R77: the block of a sequencer number. -/
def seqBlock (m : Nat) : Block :=
  if m < 32 then .chord else if m < 96 then .cone else if m < 112 then .centroid
  else if m < 116 then .apex else if m < 124 then .orbit else if m < 128 then .vertex else .plane

/-- R77: the first sequencer of a block, and how many it has. -/
def seqBase : Block → Nat × Nat
  | .chord => (0, 32) | .cone => (32, 64) | .centroid => (96, 16) | .apex => (112, 4) | .orbit => (116, 8)
  | .vertex => (124, 4) | .plane => (128, 4) | _ => (0, 0)

/-- R82, R83: the bank a sequencer's program runs from: the active set's, or the one it started in. -/
def seqProgram (s : State) (m bank : Nat) : Program :=
  let img := if bank = s.mer.bank then s.cmp.active else s.cmp.shadow
  (img.programs.find? (·.seq == m)).getD {}

/-- R78: the instruction index of an entry point of the active bank. -/
def entryPoint (s : State) (m e : Nat) : Option Nat := ((seqProgram s m s.mer.bank).entries.getD e none)

/-- R78: a command presented and not issued is again the first of its queue. -/
def returnCmd (b : Block) (c : QCmd) (s : State) : State := setQueue b c.id (c :: queueOf s b c.id) s

/-- R567, R568: the energy admission of a job: none where it is refused, else the state after its debit, and
whether its block holds it for an epoch's opening. -/
def energyTake (part : Nat) (cls : SClass) (cost : Nat) (s : State) : Option (State × Bool) :=
  match energyAns s cls cost with
  | .admitted => some (debit part cost s, false)
  | .oversize => some (countEnergyWait part s, true)
  | .refused => none

/-- A command accepted into queue `q`: debited, or held for want of budget. `c.id` is its queue. -/
def enqueue (b : Block) (q : Nat) (c : QCmd) (s : State) : State × Option Cpl :=
  match energyTake c.part c.cls c.cost s with
  | none => (countEnergyRefusal c.part s, some (cRef .energy))
  | some (s, held) => (setQueue b q (queueOf s b q ++ [{ c with id := q, held := held, arrived := s.ft, since := writesNow s }]) s, none)

/-- R13 order 5, R14: of the reasons that apply to a command, with those of the energy account, the lowest; else its queue. -/
def enqueueUnless (reasons : List Reason) (b : Block) (q : Nat) (c : QCmd) (s : State) : State × Option Cpl :=
  match lowestReason (reasons ++ if energyAns s c.cls c.cost = .refused then [.energy] else []) with
  | some .energy => (countEnergyRefusal c.part s, some (cRef .energy))
  | some r => (s, some (cRef r))
  | none => enqueue b q c s

/-- R435: the source a monitor notes: the requester's attachment number. -/
def srcOf (c : QCmd) : Nat := match c.req with | .port p _ _ => p | _ => 404

/-- R435, R436: the start of a command's service at engine or queue `q` of a block with a monitor there. -/
def monCmd (b : Block) (q : Nat) (c : QCmd) (s : State) : State :=
  match b with
  | .chord | .cone | .centroid =>
    let depth := ((queueOf s b q ++ issuedOf s b q).filter fun x => x.part == c.part).length
    monSample (b.code * 4096 + q) c.part (s.ft - c.arrived) depth (srcOf c) s
  | _ => s

/-- R78, R143: the command of queue `q` that the block's datapath takes next, if it satisfies `p`: one that was
issued, or the queue's head where its sequencer has no program for it. A fenced block takes none. -/
def takeCmd (b : Block) (q m : Nat) (p : QCmd → Bool) (s : State) : Option (QCmd × State) :=
  if fenced s b then none
  else match issuedOf s b q with
  | c :: rest => if p c && !c.held then some (c, setIssued b q rest (monCmd b q c s)) else none
  | [] =>
    match queueOf s b q with
    | c :: rest =>
      if p c && !c.held && (entryPoint s m 0).isNone && !scrubFenced s c.part then some (c, setQueue b q rest (monCmd b q c s)) else none
    | [] => none

/-- The final completion of a command: after every write it makes, its ADD, then its answer (R649). -/
def finishCmd (c : QCmd) (obj : Option Nat) (k : Cpl) (s : State) : State :=
  let s := completionAdd c.part obj s
  let s := match c.issuer with
    | some (m, slot) => reply (.seq m slot) k s
    | none => s
  reply c.req k s

/-- R239, R281: a range of addresses that lacks the right, or that passes its segment. -/
def rangeCheck (s : State) (n asid va len : Nat) (write : Bool) : Option Cpl :=
  match segStage s { part := n, asid := asid, va := va, len := len, write := write, engine := true } with
  | .notPermitted => some cNP
  | .bad => some cBad
  | .fault .limit _ _ => some cBad
  | _ => none

/-- A word of a descriptor. -/
def QCmd.w (c : QCmd) (i : Nat) : Nat := c.words.getD i 0

/-- R9, R141, R303: the service class of a code. -/
def classOf : Nat → Option SClass
  | 0 => some .prompt | 1 => some .generation | 2 => some .revival | 3 => some .parkMove | 4 => some .background
  | _ => none

/-- An object a command names is one of its partition (R140, R303). -/
def objForeign (s : State) (n i : Nat) : Bool := (obj s i).mode == .unused || (obj s i).part != n

end Sys2Proof.Machine
end

