-- ==== Sys2Proof/Machine/Plane.lean ====
section
/-!
DEFINITION. Plane (R126 to R156): frames and their allocation, spilling, migration, hints, prefetches, discards,
retirement and evacuation.
-/
namespace Sys2Proof.Machine

/-! ### The page map (R130) -/

def page (s : State) (p : Nat) : PageEnt := s.pln.pages.get p
def setPage (p : Nat) (e : PageEnt) (s : State) : State := { s with pln := { s.pln with pages := s.pln.pages.set p e } }
def modPf (n : Nat) (f : PfStat → PfStat) (s : State) : State := { s with pln := { s.pln with pf := s.pln.pf.mod n f } }

/-- R144: the page's frame is the most recently used. -/
def usePage (p : Nat) (s : State) : State :=
  { s with pln := { s.pln with clock := s.pln.clock + 1, use := s.pln.use.set p (s.pln.clock + 1) } }

/-- The frames an entry holds. -/
def entFrames (e : PageEnt) : List Frame :=
  (if e.st = .zero then [] else [e.frame]) ++ e.origin.toList ++ e.dst.toList

/-- Every frame of this switch's tiers that is held, with the page it is held for: by the page map, and by entries
that still wait for the partner's acknowledgement. -/
def heldFrames (s : State) : List (Nat × Frame) :=
  (s.pln.pages.flatMap fun (p, e) => ((entFrames e).filter fun f => !f.far).map fun f => (p, f)) ++
  (s.pair.waits.flatMap fun (_, _, a) =>
    match a with
    | .mapEntry p e => ((entFrames e).filter fun f => !f.far && !(entFrames (page s p)).contains f).map fun f => (p, f)
    | _ => [])

/-- R126: whether a tray frame lies in the half of role B. -/
def trayHalf (n : Nat) : Bool := n / 524288 % 2 == 1

/-- R129: this switch allocates in its own half of a tray, and a survivor in SOLE in both. -/
def ownHalf (s : State) (n : Nat) : Bool := trayHalf n == s.cmp.roleB || s.pair.st == .sole

/-- R127, R152: the frames partition `n` holds in a tier of this switch. -/
def usedBy (s : State) (n : Nat) (t : Tier) : Nat :=
  ((heldFrames s).filter fun (p, f) => f.tier == t && pagePart s p == some n && (t != .tray || ownHalf s f.n)).length +
  (if t = .prism then (s.pln.copies.filter fun c => c.part == n).length else 0)

/-- R127: the partition's range in a tier. A survivor in SOLE has both halves of the trays. -/
def rangeOf (s : State) (n : Nat) (t : Tier) : Nat :=
  let r := partRec s n
  match t with
  | .prism => r.prismFrames | .ddr => r.ddrFrames
  | .tray => if s.pair.st = .sole then 2 * r.trayFrames else r.trayFrames

/-- The first index below `lim`, from `i` on, that is not in use; a list of `k` numbers leaves one of k + 1 free. -/
def firstFree (used : List Nat) (lim : Nat) : (fuel i : Nat) → Option Nat
  | 0, _ => none
  | fuel + 1, i => if lim ≤ i then none else if used.contains i then firstFree used lim fuel (i + 1) else some i

/-- The frame numbers of a tier that are held or retired. -/
def takenNums (s : State) (t : Tier) : List Nat :=
  ((heldFrames s).filterMap fun (_, f) => if f.tier = t then some f.n else none) ++
  (s.pln.retired.filterMap fun f => if f.tier = t then some f.n else none) ++
  (if t = .prism then s.pln.copies.map (·.frame) else [])

/-- The first free index of a group of frames that starts at `base`. -/
def freeIn (taken : List Nat) (base lim : Nat) : Option Nat :=
  let used := (taken.filter fun x => decide (base ≤ x) && decide (x < base + lim)).map (· - base)
  firstFree used lim (used.length + 1) 0

/-- R134: the objects in rotation, the one after the last used first. -/
def rotation (last count : Nat) : List Nat := (List.range count).map fun i => (last + i) % count

/-- A free Prism frame of the partition's range. -/
def freePrism (s : State) (n : Nat) : Option Frame :=
  if usedBy s n .prism < rangeOf s n .prism then
    (freeIn (takenNums s .prism) 0 11008).map fun i => { tier := .prism, n := i }
  else none

/-- R134: a free DDR5 frame. -/
def freeDdr (s : State) (n : Nat) : Option Frame :=
  if usedBy s n .ddr < rangeOf s n .ddr then
    let taken := takenNums s .ddr
    (rotation (s.pln.rotDdr.get n) 12).findSome? fun c =>
      if (s.pln.chans.get c).st = .active then
        (freeIn taken (c * 65536) 65536).map fun i => { tier := .ddr, n := c * 65536 + i }
      else none
  else none

/-- R134: a free tray frame. -/
def freeTray (s : State) (n : Nat) : Option Frame :=
  if usedBy s n .tray < rangeOf s n .tray then
    let taken := takenNums s .tray
    let halves := if s.pair.st = .sole then [b2n s.cmp.roleB, 1 - b2n s.cmp.roleB] else [b2n s.cmp.roleB]
    (rotation (s.pln.rotTray.get n) 32).findSome? fun t =>
      if (s.pln.trays.get t).st = .active then
        halves.findSome? fun h =>
          (freeIn taken (t * 1048576 + h * 524288) (min 524288 (s.pln.trays.get t).frames)).map fun i =>
            { tier := .tray, n := t * 1048576 + h * 524288 + i }
      else none
  else none

/-- The rotation of R134 after a frame is taken. -/
def took (n : Nat) (f : Frame) (s : State) : State :=
  match f.tier with
  | .prism => s
  | .ddr => { s with pln := { s.pln with rotDdr := s.pln.rotDdr.set n ((f.n / 65536 + 1) % 12) } }
  | .tray => { s with pln := { s.pln with rotTray := s.pln.rotTray.set n ((f.n / 1048576 + 1) % 32) } }

/-- A change of a map entry that takes effect at once here and is sent to the partner: the room-making of R144 and
R145. -/
def changePage (p : Nat) (e : PageEnt) (s : State) : State := mirrorOnly (.page p e) (setPage p e s)

/-- R144: the least recently used page of a list. -/
def lruPage (s : State) (ps : List Nat) : Option Nat :=
  ps.foldl (fun acc p => match acc with
    | none => some p
    | some q => if s.pln.use.get p < s.pln.use.get q then some p else some q) none

/-- The pages of partition `n` homed here whose entry satisfies `f`. -/
def pagesOf (s : State) (n : Nat) (f : Nat → PageEnt → Bool) : List Nat :=
  s.pln.pages.idxs fun p e => pagePart s p == some n && homeLocal s p && f p e

/-- R145: a DDR5 frame, with room made by moving a page to a tray, or a tray frame in its place, as while no page may move
(R133). -/
def needDdr (n : Nat) (s : State) : Option (Frame × State) :=
  match freeDdr s n with
  | some f => some (f, took n f s)
  | none =>
    match freeTray s n with
    | none => none
    | some t =>
      if linkDown s then some (t, took n t s) else
      let inDdr := fun (hs : List PHint) (_ : Nat) (e : PageEnt) => e.st == .resident && e.frame.tier == .ddr && hs.contains e.hint
      let v := (lruPage s (pagesOf s n (inDdr [.homeTier, .preferTray]))).or (lruPage s (pagesOf s n (inDdr [.preferDdr])))
      match v with
      | some p =>
        let f := (page s p).frame
        some (f, changePage p { page s p with frame := t } (took n t s))
      | none => some (t, took n t s)

/-- A frame of a tier other than Prism. -/
def allocFar (n : Nat) (t : Tier) (s : State) : Option (Frame × State) :=
  match t with
  | .prism => none
  | .ddr => needDdr n s
  | .tray => (freeTray s n).map fun f => (f, took n f s)

/-- The tiers a hint seeks, in order (R135). -/
def hintTiers (s : State) (n : Nat) : PHint → List Tier
  | .homeTier => if rangeOf s n .tray = 0 then [.ddr] else [.tray, .ddr]
  | .preferPrism => [.prism, .ddr, .tray]
  | .pinPrism => [.prism]
  | .preferDdr => [.ddr, .tray]
  | .preferTray => [.tray, .ddr]

/-- The first of some tiers other than Prism that gives a frame. -/
def allocFirstFar (n : Nat) : List Tier → State → Option (Frame × State)
  | [], _ => none
  | t :: ts, s => match allocFar n t s with | some r => some r | none => allocFirstFar n ts s

/-- R144: one Prism frame of partition `n` is freed, in the spill order. A change of a map entry is not made while
the pair link is down (R133). -/
def spillOne (n : Nat) (s : State) : Option State :=
  let counted := fun s => modPf n (fun x => { x with spills := sat 16 x.spills }) s
  let dropCopy := fun (c : PgCopy) (s : State) =>
    counted { s with pln := { s.pln with copies := s.pln.copies.erase c } }
  let copyOf := fun (passed : Bool) =>
    let cs := s.pln.copies.filter fun c => c.part == n && c.done && c.passed == passed
    (lruPage s (cs.map (·.page))).bind fun p => cs.find? fun c => c.page == p
  let clean := fun (passed : Bool) =>
    lruPage s (pagesOf s n fun p e => e.st == .promoted && !e.dirty && s.pln.passed.contains p == passed && e.hint != .pinPrism)
  let demote := fun (p : Nat) =>
    let e := page s p
    counted (changePage p { e with st := .resident, frame := e.origin.getD e.frame, origin := none, dirty := false } s)
  let heavy := fun (hs : List PHint) =>
    pagesOf s n fun _ e => hs.contains e.hint && ((e.st == .promoted && e.dirty) || (e.st == .resident && e.frame.tier == .prism))
  let writeBack := fun (p : Nat) =>
    let e := page s p
    if e.st = .promoted then some (demote p)
    else
      let ts := (hintTiers s n e.hint).filter (· != .prism)
      match allocFirstFar n ts s with
      | some (f, s) => some (counted (changePage p { e with frame := f } s))
      | none => none
  let link := linkDown s
  match copyOf true with
  | some c => some (dropCopy c s)
  | none =>
  match (if link then none else clean true) with
  | some p => some (demote p)
  | none =>
  match copyOf false with
  | some c => some (dropCopy c s)
  | none =>
  if link then none else
  match clean false with
  | some p => some (demote p)
  | none =>
  match (lruPage s (heavy [.homeTier, .preferDdr, .preferTray])).bind writeBack with
  | some s => some s
  | none => (lruPage s (heavy [.preferPrism])).bind writeBack

/-- A Prism frame of the partition's range, after spilling where none is free. -/
def needPrism (n : Nat) (s : State) : Option (Frame × State) :=
  match freePrism s n with
  | some f => some (f, s)
  | none => (spillOne n s).bind fun s => (freePrism s n).map fun f => (f, s)

/-- A frame of a tier. -/
def allocTier (n : Nat) (t : Tier) (s : State) : Option (Frame × State) :=
  if t = .prism then needPrism n s else allocFar n t s

def allocFirst (n : Nat) : List Tier → State → Option (Frame × State)
  | [], _ => none
  | t :: ts, s => match allocTier n t s with | some r => some r | none => allocFirst n ts s

/-- R130, R144, R145: the entry a write to ZERO page `p` brings about: a frame in the first tier of the hint that
has one. A PIN_PRISM page that can have no Prism frame takes one of the other tiers (DESIGN CHOICE,
entry 84). -/
def zeroAlloc (n p : Nat) (s : State) : Option (PageEnt × State) :=
  let e := page s p
  let ts := if e.hint = .pinPrism then [.prism, .ddr, .tray] else hintTiers s n e.hint
  (allocFirst n ts s).map fun (f, s) => ({ e with st := .resident, frame := f }, s)

/-! ### Plane's jobs (R139, R140) -/

/-- R140, R649: a job with no page left completes. -/
def finishJobs (s : State) : State :=
  let done := s.pln.jobs.filter fun j => j.pend.isEmpty && j.todo.isEmpty
  let s := { s with pln := { s.pln with jobs := s.pln.jobs.filter fun j => !(j.pend.isEmpty && j.todo.isEmpty) } }
  done.foldl (fun s j =>
    let k := if j.out.status != .ok then j.out
      else if 0 < j.missed then { status := .partialDone, value := j.placed } else cOk
    finishCmd j.cmd (if bitOf (j.cmd.w 0) 7 then some (bits (j.cmd.w 0) 35 20) else none) k s) s

/-- Page `p` is settled for the jobs that act on it: placed in the tier sought, or not. -/
def settleJobs (p : Nat) (ok : Bool) (s : State) : State :=
  let s := if ok then s else (s.pln.jobs.filter fun j => j.pend.contains p).foldl (fun s j =>
    modPf j.cmd.part (fun x => { x with partialPages := sat 16 x.partialPages }) s) s
  let upd := fun (j : PlnJob) =>
    if j.pend.contains p then
      { j with pend := j.pend.filter (· != p), placed := if ok then j.placed + 1 else j.placed,
               missed := if ok then j.missed else j.missed + 1 }
    else j
  { s with pln := { s.pln with jobs := s.pln.jobs.map upd } }

/-! ### Migration (R132, R133) -/

/-- The entry a migration of page `p` switches to (R132 step 5). -/
def migrated (e : PageEnt) (m : Migr) : PageEnt :=
  if m.dst.tier = .prism ∧ m.src.tier ≠ .prism then
    { e with st := .promoted, frame := m.dst, origin := some m.src, dst := none, dirty := false }
  else { e with st := .resident, frame := m.dst, origin := none, dst := none, dirty := false }

/-- R141, R568: an evacuation of page `p` is admitted whatever the budget and debited: a page read and a page written. It has no
command, and so takes Plane's default row. -/
def debitEvac (p : Nat) (src dst : Frame) (s : State) : State :=
  debit ((pagePart s p).getD 16) (preCost s 9 0xF [(src.tier.code, pageBytes), (dst.tier.code, pageBytes)]) s

/-- R132 step 1: a migration of page `p` to a frame starts. -/
def startMigr (p : Nat) (dst : Frame) (evac : Bool) (s : State) : State :=
  let e := page s p
  let s := if evac then debitEvac p e.frame dst s else s
  let m : Migr := { page := p, src := e.frame, dst := dst, origin := e.origin, evac := evac, order := s.pln.nextOrder }
  setPage p { e with st := .migrating, dst := some dst }
    { s with pln := { s.pln with migs := s.pln.migs ++ [m], nextOrder := s.pln.nextOrder + 1 } }

/-- R132 steps 4 and 5, without the jobs that wait on it. -/
def switchover (p : Nat) (s : State) : State :=
  match s.pln.migs.find? (·.page == p) with
  | none => s
  | some m =>
    if !m.copied then s
    else setPage p (migrated (page s p) m) { s with pln := { s.pln with migs := s.pln.migs.filter fun x => x.page != p } }

/-- The entry of a migrating page whose migration is abandoned before switchover: it stays at its source. -/
def unmigrated (e : PageEnt) : PageEnt := { e with st := if e.origin.isSome then .promoted else .resident, dst := none }

/-- R156: a migration is abandoned, its destination freed. -/
def abandonMigr (p : Nat) (s : State) : State :=
  if s.pln.migs.any (·.page == p) then
    setPage p (unmigrated (page s p)) { s with pln := { s.pln with migs := s.pln.migs.filter fun x => x.page != p } }
  else s

/-! ### The effect of a command on one page -/

/-- R136: page `p` of partition `n` moves toward the first tier of its hint. Answers whether its change is under way,
and if not whether it is in the tier sought. -/
def moveToHint (n p : Nat) (s : State) : State × Bool × Bool :=
  let e := page s p
  let ts := hintTiers s n e.hint
  let first := ts.headD .ddr
  if e.st = .zero then (s, false, true)
  else if e.frame.tier = first then (s, false, true)
  else if linkDown s then (s, false, false)
  else if e.st = .promoted && e.origin.any (fun o => o.tier == first) then (startMigr p (e.origin.getD e.frame) false s, true, true)
  else match allocTier n first s with
  | some (f, s) => (startMigr p f false s, true, true)
  | none =>
    match ts.drop 1 with
    | t :: _ =>
      if e.frame.tier = t then (s, false, false)
      else match allocTier n t s with
        | some (f, s) => (startMigr p f false s, true, false)
        | none => (s, false, false)
    | [] => (s, false, false)

/-- R139: page `p` is asked to be in this switch's Prism. -/
def moveToPrism (n p : Nat) (s : State) : State × Bool × Bool :=
  let e := page s p
  if (groupOf s p).isSome then
    if s.pln.copies.any (fun c => c.page == p && c.done) || e.st == .zero || (e.frame.tier == .prism && !e.frame.far) then (s, false, true)
    else if s.pln.copies.any (fun c => c.page == p) then (s, true, true)
    else match needPrism n s with
      | some (f, s) => ({ s with pln := { s.pln with copies := s.pln.copies ++ [{ page := p, frame := f.n, part := n }] } }, true, true)
      | none => (s, false, false)
  else if e.st = .zero || e.frame.tier = .prism then (s, false, true)
  else if linkDown s then (s, false, false)
  else match needPrism n s with
    | some (f, s) => (startMigr p f false s, true, true)
    | none => (s, false, false)

/-- The release Angle of a PREFETCH is noted for its pages (R138, R144). -/
def noteRelease (p : Nat) (rel : Option Nat) (s : State) : State :=
  match rel with
  | none => s
  | some a => { s with pln := { s.pln with
      relAt := s.pln.relAt.put p a, passed := s.pln.passed.filter (· != p),
      copies := s.pln.copies.map fun c => if c.page = p then { c with relAt := some a, passed := false } else c } }

/-- R139: the page's Prism frame or copy is past its release Angle. -/
def releasePage (p : Nat) (s : State) : State :=
  { s with pln := { s.pln with
      relAt := s.pln.relAt.del p, passed := if s.pln.passed.contains p then s.pln.passed else p :: s.pln.passed,
      copies := s.pln.copies.map fun c => if c.page = p then { c with relAt := none, passed := true } else c } }

/-- R130, R156: page `p` is ZERO: its data is gone, its frames and copies are free. -/
def zeroPage (p : Nat) (s : State) : State :=
  let s := setPage p { hint := (page s p).hint } (clearPage p s)
  { s with pln := { s.pln with
      migs := s.pln.migs.filter fun m => m.page != p, copies := s.pln.copies.filter fun c => c.page != p,
      relAt := s.pln.relAt.del p, passed := s.pln.passed.filter (· != p) } }

def plnOp (c : QCmd) : Nat := bits (c.w 0) 3 0
def plnRel (c : QCmd) : Option Nat := if plnOp c = 2 && bitOf (c.w 4) 48 then some (bits (c.w 4) 47 0) else none
def plnDeadline (c : QCmd) : Option Nat := if plnOp c = 2 && bitOf (c.w 3) 48 then some (bits (c.w 3) 47 0) else none

def hintOf : Nat → PHint
  | 1 => .preferPrism | 2 => .pinPrism | 3 => .preferDdr | 4 => .preferTray | _ => .homeTier

/-- The command acts on page `p` now. Answers whether it is under way, and if not whether it is placed. -/
def plnAct (c : QCmd) (p : Nat) (s : State) : State × Bool × Bool :=
  let own := homeLocal s p
  if plnOp c = 1 then
    let e := { page s p with hint := hintOf (bits (c.w 0) 38 36) }
    if !own then (send .forward 0 [9, 1, p, bits (c.w 0) 38 36] s, page s p != e, true)
    else if e = page s p then moveToHint c.part p s
    else if hasPartner s then
      (mirrorThen (.page p e) (.hint p e.hint) id s, true, true)
    else moveToHint c.part p (setPage p e s)
  else if plnOp c = 2 then
    let s := noteRelease p (plnRel c) s
    if own || (groupOf s p).isSome then moveToPrism c.part p s
    else if (page s p).st = .zero || (page s p).frame.tier = .prism then (s, false, true)
    else (send .forward 0 [9, 2, p, 0] s, true, true)
  else if plnOp c = 3 then
    (if own then releasePage p s else send .forward 0 [9, 3, p, 0] (releasePage p s), false, true)
  else
    let e : PageEnt := { hint := (page s p).hint }
    if (page s p) = e then (s, false, true)
    else if !own then (send .forward 0 [9, 4, p, 0] s, true, true)
    else if hasPartner s then (mirrorThen (.page p e) (.mapEntry p e) id s, true, true)
    else (zeroPage p s, false, true)

/-- R143: whether an earlier effect on page `p` is still under way. -/
def pageBusy (s : State) (p : Nat) : Bool :=
  s.pln.migs.any (·.page == p) || s.pln.jobs.any (fun j => j.pend.contains p) || s.pln.copies.any (fun c => c.page == p && !c.done)

/-- Page `p` for a command: acted on now, or once the earlier effect on it is over. DISCARD abandons a migration
and does not wait (R156). -/
def plnStart (c : QCmd) (p : Nat) (j : PlnJob) (s : State) : State × PlnJob :=
  if pageBusy s p && plnOp c != 4 then (s, { j with todo := j.todo ++ [p] })
  else
    match plnAct c p (if plnOp c = 4 then abandonMigr p s else s) with
    | (s, true, _) => (s, { j with pend := j.pend ++ [p] })
    | (s, false, true) => (s, { j with placed := j.placed + 1 })
    | (s, false, false) =>
      (modPf c.part (fun x => { x with partialPages := sat 16 x.partialPages }) s, { j with missed := j.missed + 1 })

/-- After page `p` is settled: jobs that waited for it act on it, in the order of acceptance (R143). -/
def resumeTodo (p : Nat) : List PlnJob → State → State × List PlnJob
  | [], s => (s, [])
  | j :: js, s =>
    if j.todo.contains p && !(s.pln.migs.any (·.page == p) || s.pln.copies.any (fun c => c.page == p && !c.done)) then
      let (s, j) := plnStart j.cmd p { j with todo := j.todo.filter (· != p) } s
      let (s, js) := resumeTodo p js s
      (s, j :: js)
    else
      let (s, js) := resumeTodo p js s
      (s, j :: js)

/-- Page `p` is settled: the jobs it was pending for go on, those waiting for it act, and finished ones complete. -/
def settle (p : Nat) (ok : Bool) (s : State) : State :=
  let s := settleJobs p ok s
  let (s', js) := resumeTodo p s.pln.jobs { s with pln := { s.pln with jobs := [] } }
  finishJobs { s' with pln := { s'.pln with jobs := js } }

/-- Whether page `p` is in the tier its job seeks, once its migration is over. -/
def inSought (s : State) (p : Nat) : Bool :=
  s.pln.jobs.all fun j => !j.pend.contains p || plnOp j.cmd != 1 ||
    (page s p).frame.tier == (hintTiers s j.cmd.part (page s p).hint).headD .ddr

/-- R132 steps 4 and 5: the switchover, and what waited for it. -/
def finishMigr (p : Nat) (s : State) : State :=
  let s := switchover p s
  settle p (inSought s p) s

/-- R33, R136: a recorded hint takes effect. -/
def applyHint (p : Nat) (h : PHint) (s : State) : State :=
  let s := setPage p { page s p with hint := h } s
  match pagePart s p with
  | none => s
  | some n =>
    match moveToHint n p s with
    | (s, true, _) => s
    | (s, false, ok) => settle p ok s

/-! ### Admission (R137, R140, R141) -/

/-- R138: a reserved encoding or a misaligned VADDR. -/
def plnBad (c : QCmd) : Bool :=
  let op := plnOp c
  op == 0 || decide (4 < op) || decide (4 < bits (c.w 0) 6 4) || bits (c.w 0) 63 40 != 0
  || (op != 1 && bits (c.w 0) 38 36 != 0) || (op == 1 && decide (4 < bits (c.w 0) 38 36))
  || (op != 4 && bitOf (c.w 0) 39) || c.w 1 % pageBytes != 0 || bits (c.w 1) 59 52 != 0
  || bits (c.w 2) 63 32 != 0 || bits (c.w 3) 63 49 != 0 || bits (c.w 4) 63 49 != 0
  || (op != 2 && (c.w 3 != 0 || c.w 4 != 0)) || c.w 5 != 0 || c.w 6 != 0 || c.w 7 != 0

/-- R138: the pages a command names. -/
def plnCount (c : QCmd) : Nat := if bits (c.w 2) 31 0 = 0 then 4294967296 else bits (c.w 2) 31 0

/-- R139: the range spans more than one segment. -/
def plnSpans (c : QCmd) : Bool := bits (c.w 1 + plnCount c * pageBytes - 1) 68 60 != bits (c.w 1) 63 60

/-- The translation request of a page of the range. -/
def plnXl (c : QCmd) (i : Nat) : XlReq :=
  { part := c.part, asid := bits (c.w 0) 19 8, va := c.w 1 + i * pageBytes, len := pageBytes,
    write := plnOp c == 1 || plnOp c == 4, engine := true, num := 128 + c.id }

/-- The pool page a page of the range names, if it translates. -/
def plnPage (s : State) (c : QCmd) (i : Nat) : Option Nat :=
  match (translate (plnXl c i) s).2 with
  | .addr pa _ _ => if bits pa 63 52 = 0 then some (bits pa 51 0 / pageBytes) else none
  | .cpl _ => none

/-- R567, R648: the tier bytes a HINT or PREFETCH will move, by unit. -/
def plnUnits (s : State) (c : QCmd) : List (Nat × Nat) :=
  if plnOp c = 1 || plnOp c = 2 then
    let ps := (List.range (plnCount c)).filterMap (plnPage s c)
    ps.flatMap fun p =>
      let e := page s p
      let tier := if plnOp c = 2 then Tier.prism else (hintTiers s c.part (hintOf (bits (c.w 0) 38 36))).headD .ddr
      if e.st = .zero || e.frame.tier = tier then [] else [(e.frame.tier.code, pageBytes), (tier.code, pageBytes)]
  else []

/-- R13, R137, R140: the admission of a command to Plane, before its queue: none where it may be queued. -/
def plnAdmit (s : State) (q : Nat) (c : QCmd) : Option Cpl :=
  let r := partRec s c.part
  let segW := match findCtx s c.part 0 (bits (c.w 0) 19 8) with
    | some k => (s.loc.ctxs.get k).segs.getD (bits (c.w 1) 63 60) []
    | none => []
  let right := if plnOp c = 1 || plnOp c = 4 then segW.length != 0 && Sys2Proof.Machine.segW segW else segW.length != 0 && segR segW
  firstCheck [
    ((bitOf (c.w 0) 7 && objForeign s c.part (bits (c.w 0) 35 20)) || segType segW == 0 || !right
      || (plnOp c == 4 && segGroup segW), cNP),
    (decide (4 ≤ q) || plnBad c || plnSpans c, cBad)] |>.or
  ((fenceCpl s .plane c.part).or
    ((if decide (r.planeShare.getD q 0 ≤ ((queueOf s .plane q).filter fun x => x.part == c.part).length)
      then some (cRef .queueFull) else none)))

/-- A command enters Plane's queue `q`, or is answered (R137, R140, R141). -/
def plnSubmit (q : Nat) (c : QCmd) (s : State) : State × Option Cpl :=
  match plnAdmit s q c with
  | some k => (s, some k)
  | none =>
    let c := { c with id := q, cls := (classOf (bits (c.w 0) 6 4)).getD .prompt, asid := bits (c.w 0) 19 8, op := plnOp c }
    let c := { c with cost := preCost s 9 (plnOp c) (plnUnits s { c with id := q }) }
    match enqueue .plane q c s with
    | (s, some k) => (modPf c.part (fun x => { x with energyRefused := sat 16 x.energyRefused }) s, some k)
    | r => r

/-! ### Carrying a command out (R139 to R143) -/

/-- R139, R140: the pages of a command in order. A page that does not translate ends it: pages before it were done,
none after it is started. -/
def plnRun (c : QCmd) : (fuel i : Nat) → PlnJob → State → State × PlnJob
  | 0, _, j, s => (s, j)
  | fuel + 1, i, j, s =>
    match translate (plnXl c i) s with
    | (s, .cpl k) => (s, { j with out := worse j.out k })
    | (s, .addr pa _ _) =>
      if bits pa 63 52 != 0 then (s, { j with out := worse j.out cBad })
      else
        let p := bits pa 51 0 / pageBytes
        let (s, j) := if !homeLocal s p && partnerOut s && (groupOf s p).isNone
          then (s, { j with out := worse j.out (cRetry 10000) }) else plnStart c p j s
        plnRun c fuel (i + 1) j s

/-- R142: a PREFETCH whose DEADLINE the Angle has reached with pages outstanding is counted LATE. -/
def markLate (n : Nat) (reached : Nat → Bool) (s : State) : State :=
  let hit := fun (j : PlnJob) => j.cmd.part == n && !j.late && j.deadline.any reached && !(j.pend.isEmpty && j.todo.isEmpty)
  let k := (s.pln.jobs.filter hit).length
  let s := { s with pln := { s.pln with jobs := s.pln.jobs.map fun j => if hit j then { j with late := true } else j } }
  if k = 0 then s else modPf n (fun x => { x with late := satAdd 16 x.late k }) s

/-- R144: copies and promoted pages of partition `n` whose release Angle is reached. -/
def passRelease (n : Nat) (reached : Nat → Bool) (s : State) : State :=
  let ps := (s.pln.relAt.filter fun e => pagePart s e.1 == some n && reached e.2).map (·.1)
  { s with pln := { s.pln with
      relAt := s.pln.relAt.filter fun e => !ps.contains e.1,
      passed := ps.filter (fun p => !s.pln.passed.contains p) ++ s.pln.passed,
      copies := s.pln.copies.map fun c => if c.part = n && c.relAt.any reached then { c with passed := true, relAt := none } else c } }

/-- R142, R144: what an advance of domain `n` to `a` does in Plane. -/
def planeAngle (n a : Nat) (s : State) : State := passRelease n (fun x => decide (x ≤ a)) (markLate n (fun x => decide (x ≤ a)) s)

/-- R50: after a REBASE every DEADLINE and RELEASE_AT counts as reached. -/
def planeRebase (n : Nat) (s : State) : State := passRelease n (fun _ => true) (markLate n (fun _ => true) s)

/-- The pages a DISCARD names carry a pin it may not lift (R140). -/
def plnPinned (s : State) (c : QCmd) : Bool :=
  plnOp c == 4 && !bitOf (c.w 0) 39 &&
    ((List.range (plnCount c)).filterMap (plnPage s c)).any fun p => (page s p).hint == .pinPrism

/-- R156: pages that a DISCARD returned to ZERO are settled for the commands whose changes it abandoned. -/
def settleZero (ps : List Nat) (s : State) : State :=
  ps.foldl (fun s p => if (page s p).st = .zero && s.pln.jobs.any (fun j => j.pend.contains p || j.todo.contains p) then settle p true s else s) s

/-- The head command of queue `q` with operation `op` is carried out by the page mover. -/
def plnServe (op q : Nat) (s : State) : State :=
  match takeCmd .plane q (128 + q) (fun c => plnOp c == op) s with
  | none => s
  | some (c, s) =>
    if plnPinned s c then finishCmd c (if bitOf (c.w 0) 7 then some (bits (c.w 0) 35 20) else none) (cRef .state) s
    else
      let (s, j) := plnRun c (plnCount c) 0 { cmd := c, deadline := plnDeadline c } s
      let s := { s with pln := { s.pln with jobs := s.pln.jobs ++ [j] } }
      let s := if op = 4 then settleZero ((List.range (plnCount c)).filterMap (plnPage s c)) s else s
      finishJobs (markLate c.part (fun x => decide (x ≤ (dom s c.part).angle)) s)

/-- R136, R139. -/
def execHint (q : Nat) (s : State) : Res := .next (plnServe 1 q s)
/-- R139. -/
def execPrefetch (q : Nat) (s : State) : Res := .next (plnServe 2 q s)
/-- R139. -/
def execPlnRelease (q : Nat) (s : State) : Res := .next (plnServe 3 q s)
/-- R139, R156. -/
def execDiscard (q : Nat) (s : State) : Res := .next (plnServe 4 q s)

/-! ### Copies and switchovers -/

/-- R210 row 3, R211: what a copy finds of a page's blocks: an unverified or BPOISON one arrives as ZERO with PMASK
0xF and BPOISON 1. -/
def copyPoison (p : Nat) (s : State) : State :=
  let bad := (s.fld.blocks.filter fun e => e.1 / 4096 == p && (e.2.bad.isSome || e.2.bpoison)).map (·.1)
  bad.foldl (fun s b =>
    let s := detect ((pagePart s p).getD 16) b { engine := true, num := 0xFFF } s
    setBlk b { pmask := 0xF, bpoison := true } { s with mem := memClear s.mem (b * 512) 512 }) s

/-- R132 step 3, R133: the copy of page `p` is done, and its new entry is sent, or held while the pair link is down.
The copy of a read-only page ends here (R131). -/
def execMigrationCopyDone (p : Nat) (s : State) : Res :=
  if fenced s .plane then .next s
  else match s.pln.migs.find? (fun m => m.page == p && !m.copied) with
  | some m =>
    let s := copyPoison p s
    let s := { s with pln := { s.pln with migs := s.pln.migs.map fun x => if x.page = p then { x with copied := true } else x } }
    .next (mirrorThen (.page p (migrated (page s p) m)) (.switchover p) (finishMigr p) s)
  | none =>
    if s.pln.copies.any (fun c => c.page == p && !c.done) then
      let upd := fun (c : PgCopy) =>
        if c.page = p then { c with done := true, relAt := if s.pln.relAt.any (·.1 == p) then some (s.pln.relAt.get p) else c.relAt } else c
      let s := { s with pln := { s.pln with copies := s.pln.copies.map upd } }
      .next (settle p true (usePage p s))
    else .next s

/-! ### Retirement (R146 to R148) -/

/-- R564: a retirement is written to the state area of each device that answers. -/
def recordRetired (r : Retired) (s : State) : State :=
  let put := fun (d : Nvm) => if d.answers then { d with retired := if d.retired.contains r then d.retired else d.retired ++ [r], retSeq := d.retSeq + 1 } else d
  let s := { s with cmp := { s.cmp with nvmA := put s.cmp.nvmA, nvmB := put s.cmp.nvmB } }
  if s.cmp.nvmA.answers && s.cmp.nvmB.answers then s else report .cmpNvmFault .compass none [b2n s.cmp.nvmA.answers] s

def reportRetired (object number : Nat) (s : State) : State := report .plnRetired .plane none [object, number] s

/-- R146: page `p` leaves its frame: for a new one of the same tier, or of the next tier of its hint. A page for which
there is none stays until a frame frees (R145). -/
def evacPage (p : Nat) (s : State) : State :=
  match pagePart s p with
  | none => s
  | some n =>
    let e := page s p
    let t := e.frame.tier
    if e.st = .zero || e.st = .migrating then s
    else
      match allocFirst n (t :: (hintTiers s n e.hint).filter (· != t)) s with
      | some (f, s) => startMigr p f true s
      | none => s

/-- R156: migrations toward a frame that must not be used are restarted toward another. -/
def redirect (bad : Frame → Bool) (s : State) : State :=
  let ps := (s.pln.migs.filter fun m => bad m.dst).map (·.page)
  ps.foldl (fun s p =>
    let e := page s p
    let t := (e.dst.getD e.frame).tier
    let s := abandonMigr p s
    match pagePart s p with
    | none => s
    | some n =>
      match allocFirst n (t :: hintTiers s n e.hint) s with
      | some (f, s) => startMigr p f false s
      | none => settle p false s) s

/-- The pages homed here that hold a frame satisfying `bad`. -/
def pagesOn (s : State) (bad : Frame → Bool) : List Nat :=
  s.pln.pages.idxs fun p e => homeLocal s p && (entFrames e).any bad

/-- Pages leave the frames that satisfy `bad`: a promoted page whose origin lies there is first spilled or moved. -/
def evacuate (bad : Frame → Bool) (s : State) : State :=
  let s := redirect bad s
  let s := { s with pln := { s.pln with copies := s.pln.copies.filter fun c => !bad { tier := .prism, n := c.frame } } }
  (pagesOn s bad).foldl (fun s p =>
    let e := page s p
    if e.st = .promoted && !bad e.frame then
      -- the origin frame is lost to the page, which stays in Prism
      changePage p { e with st := .resident, origin := none, dirty := false } s
    else evacPage p s) s

/-- The errors of frames within a window before now. -/
def errsIn (s : State) (win : Nat) (ue : Bool) (f : Frame → Bool) : Nat :=
  (s.pln.errs.filter fun e => e.ue == ue && f e.frame && decide (s.ft < e.ft + win)).length

def hourNs : Nat := 3600000000000
def dayNs : Nat := 86400000000000

/-- R146: a frame's condition: 8 corrected errors within 1 h, or 1 uncorrectable. -/
def frameBad (s : State) (f : Frame) : Bool :=
  decide (8 ≤ errsIn s hourNs false (· == f)) || s.pln.errs.any fun e => e.ue && e.frame == f

def prismRetired (s : State) : Nat := (s.pln.retired.filter fun f => f.tier == .prism).length

/-- R146: PRISM_DEGRADED is reported once more than 512 Prism frames are retired. -/
def checkDegraded (s : State) : State :=
  if 512 < prismRetired s && !s.pln.degraded then
    report .prismDegraded .plane none [] { s with pln := { s.pln with degraded := true } }
  else s

/-- R146, R148: a frame is retired, with the page that holds it migrated. -/
def retireFrame (f : Frame) (s : State) : State :=
  if s.pln.retired.contains f then s
  else
    let s := { s with pln := { s.pln with retired := s.pln.retired ++ [f] } }
    let s := reportRetired 0 f.n (recordRetired (.frame f.tier.code f.n) s)
    checkDegraded (evacuate (· == f) s)

/-- R146. -/
def execFrameRetire (tier : Tier) (n : Nat) (s : State) : Res :=
  let f : Frame := { tier := tier, n := n }
  if running s && frameBad s f then .next (retireFrame f s) else .next s

def onChan (c : Nat) (f : Frame) : Bool := f.tier == .ddr && !f.far && f.n / 65536 == c
def onTray (t : Nat) (f : Frame) : Bool := f.tier == .tray && f.n / 1048576 == t

def setChan (c : Nat) (x : Channel) (s : State) : State := { s with pln := { s.pln with chans := s.pln.chans.set c x } }
def setTray (t : Nat) (x : Tray) (s : State) : State := { s with pln := { s.pln with trays := s.pln.trays.set t x } }
def modTray (t : Nat) (f : Tray → Tray) (s : State) : State := setTray t (f (s.pln.trays.get t)) s

/-- R146: a channel's condition, but for the loss of training: retired frames, uncorrectable errors, or the
corrected-error rate over 10 s. -/
def chanBad (s : State) (c : Nat) : Bool :=
  decide (256 < (s.pln.retired.filter (onChan c)).length) || decide (3 ≤ errsIn s dayNs true (onChan c))
  || (List.range 10).all fun i =>
      decide (1000 < (s.pln.errs.filter fun e => !e.ue && onChan c e.frame
        && decide (e.ft + i * 1000000000 ≤ s.ft) && decide (s.ft < e.ft + (i + 1) * 1000000000)).length)

/-- R146, R147: a channel begins to be evacuated. -/
def evacChan (c : Nat) (s : State) : State :=
  let s := setChan c { st := .evacuating } s
  let s := reportRetired 1 c (recordRetired (.channel c) s)
  evacuate (onChan c) s

def execChannelEvacuate (c : Nat) (s : State) : Res :=
  if (s.pln.chans.get c).st = .active && chanBad s c then .next (evacChan c s) else .next s

/-- R147: every page whose data lies in the frames that satisfy `bad` becomes POISON in full and keeps its map entry; a promoted
page loses its origin there and stays in Prism. -/
def losePages (bad : Frame → Bool) (s : State) : State :=
  let s := redirect bad s
  let s := (s.pln.pages.idxs fun p e => homeLocal s p && e.st == .promoted && !bad e.frame && e.origin.any bad).foldl
    (fun s p => changePage p { page s p with st := .resident, origin := none, dirty := false } s) s
  (s.pln.pages.idxs fun p e => homeLocal s p && e.st != .zero && bad e.frame).foldl (fun s p => poisonPage p s) s

/-- R146, R147: a channel loses training: its pages are POISON, and it is evacuated. -/
def execDdrTrainingLoss (c : Nat) (s : State) : Res :=
  if (s.pln.chans.get c).st = .active || (s.pln.chans.get c).st = .evacuating then
    let s := losePages (onChan c) s
    .next (if (s.pln.chans.get c).st = .active then evacChan c s else s)
  else .next s

/-- R146: a tray head is retired. -/
def retireHead (t : Nat) (s : State) : State :=
  let s := modTray t (fun x => { x with head := .retired, downSince := none }) s
  reportRetired 2 t (recordRetired (.head t) s)

/-- R146: a tray head's link goes down. -/
def trayDown (t : Nat) (s : State) : State :=
  let x := s.pln.trays.get t
  if x.head = .up && x.st != .absent then
    let down := (x.downAt.filter fun a => decide (s.ft < a + hourNs)) ++ [s.ft]
    let s := setTray t { x with head := .retraining, downAt := down, downSince := some s.ft } s
    if 3 ≤ down.length then retireHead t s else s
  else s


/-- R146: a head not retrained within 1 s, or with 3 link-down events within 1 h, is retired. -/
def execTrayHeadRetire (t : Nat) (s : State) : Res :=
  let x := s.pln.trays.get t
  let late := match x.downSince with | some a => decide (a + 1000000000 ≤ s.ft) | none => false
  if x.head != .retired && x.st != .absent &&
      (late || decide (3 ≤ (x.downAt.filter fun a => decide (s.ft < a + hourNs)).length)) then .next (retireHead t s)
  else .next s

/-- R146: the link of a head completes training or Recovery. -/
def trayUp (t : Nat) (s : State) : State :=
  let x := s.pln.trays.get t
  if x.head = .retraining then setTray t { x with head := .up, downSince := none } s else s

/-- R146: a tray's condition, but for its heads and its event records. -/
def trayBad (s : State) (t : Nat) : Bool :=
  decide (1024 < (s.pln.retired.filter (onTray t)).length) || decide (8 ≤ errsIn s dayNs true (onTray t))

def headsGone (s : State) (t : Nat) : Bool :=
  (s.pln.trays.get t).head == .retired && ((s.pln.trays.get t).partnerRetired || !hasPartner s)

/-- R146, R147: a tray is retired: by evacuation while it can be read, else at once. -/
def evacTray (t : Nat) (s : State) : State :=
  let x := s.pln.trays.get t
  if x.st != .active then s
  else if headsGone s t then
    losePages (onTray t) (reportRetired 3 t (recordRetired (.tray t) (setTray t { x with st := .retired } s)))
  else
    evacuate (fun f => onTray t f && ownHalf s f.n)
      (reportRetired 3 t (recordRetired (.tray t) (setTray t { x with st := .evacuating } s)))

/-- R146: a General Media or DRAM event record that reports an uncorrectable media failure. -/
def execCxlEventRecord (t : Nat) (media uncorrectable : Bool) (s : State) : Res :=
  if media && uncorrectable then .next (evacTray t s) else .next s

/-- R146. -/
def execTrayEvacuate (t : Nat) (s : State) : Res :=
  if headsGone s t || trayBad s t then .next (evacTray t s) else .next s

/-- R147: an evacuating object that no page holds a frame of is RETIRED. Pages that could not move before are tried
again when a frame frees (R145). -/
def execObjectRetired (tray : Bool) (n : Nat) (s : State) : Res :=
  let bad := fun f => if tray then onTray n f && ownHalf s f.n else onChan n f
  let st := if tray then (s.pln.trays.get n).st else (s.pln.chans.get n).st
  if st != .evacuating then .next s
  else if ((heldFrames s).any fun e => bad e.2) then .next (evacuate bad s)
  else if tray then .next (modTray n (fun x => { x with st := .retired }) s)
  else .next (setChan n { st := .retired } s)

/-! ### Boot, fences and scrubs (R130, R156) -/

/-- R156, R519: a scrub returns every page of the partition's pool range to ZERO. -/
def planeScrub (n : Nat) (s : State) : State :=
  let ps := s.pln.pages.idxs fun p _ => inPool s n p
  let s := ps.foldl (fun s p => setPage p {} (zeroPage p s)) s
  { s with pln := { s.pln with
      copies := s.pln.copies.filter fun c => c.part != n, jobs := s.pln.jobs.filter fun j => j.cmd.part != n } }

/-! ### Engines' writes (R28 stages 4 to 9) -/

/-- R130: page `p` is ready for a write: a frame for a ZERO page, DIRTY for a promoted one. -/
def readyWrite (p : Nat) (s : State) : State × Option Cpl :=
  let e := page s p
  match e.st with
  | .zero =>
    if !homeLocal s p then (s, none)
    else if linkDown s then (s, some (cRetry 10000))
    else match zeroAlloc ((pagePart s p).getD 16) p s with
      | none => (s, some (cRef .capacity))
      | some (e, s) => (usePage p (changePage p e s), none)
  | .promoted => (usePage p (setPage p { e with dirty := true } s), none)
  | .migrating => (usePage p (if e.origin.isSome then setPage p { e with dirty := true } s else s), none)
  | .resident => (usePage p s, none)

/-- R171: the cached copies are invalidated, and what an owner returns of the bytes the write leaves is merged: free bytes, since
an agent holds them. -/
def engineWriteCoh (x : XlReq) (compress : Bool) (off n : Nat) (s : State) : State :=
  let (s, own) := engineWrite1 x.part off n s
  own.foldl (fun s l => useFresh (foldWrite x.part { engine := true, num := x.num } compress false (l * 128)
    ((List.range 128).map fun i => Config.freeByte s.fresh i) s).1) s

/-- An engine's write, piece by piece, with the first outcome in R15's order. -/
def writePieces (x : XlReq) (mark : Bool) : List (Nat × Nat) → List Byte → State → Cpl → State × Cpl
  | [], _, s, c => (s, c)
  | (va, n) :: rest, data, s, c =>
    match translate { x with va := va, len := n } s with
    | (s, .cpl k) => writePieces x mark rest (data.drop n) s (worse c k)
    | (s, .addr pa w _) =>
      if segCoherent w && bits pa 63 52 != 0 then writePieces x mark rest (data.drop n) s (worse c cBad)
      else if segCoherent w && cohDownNow s then writePieces x mark rest (data.drop n) (engineDown x.part s) (worse c cDown)
      else if bits pa 63 52 != 0 then
        if nodeOnPartner s (bits pa 63 52) && linkDown s then writePieces x mark rest (data.drop n) s (worse c (cRetry 10000))
        else writePieces x mark rest (data.drop n) (emit (.msg .windowData (bits pa 63 52) [bits pa 51 0] (data.take n)) s) c
      else match serveCpl s (bits pa 51 0 / pageBytes) true with
      | some k => writePieces x mark rest (data.drop n) s (worse c k)
      | none =>
        match readyWrite (bits pa 51 0 / pageBytes) s with
        | (s, some k) => writePieces x mark rest (data.drop n) s (worse c k)
        | (s, none) =>
          let s := if segCoherent w then engineWriteCoh x (segCompress w) (bits pa 51 0) n s else s
          let (s, k) := foldWrite x.part { engine := true, num := x.num } (segCompress w) mark (bits pa 51 0) (data.take n) s
          writePieces x mark rest (data.drop n) s (worse c k)

/-- A write by an engine or sequencer of partition `n`, in the context of endpoint 0x000 and `asid` (R91). -/
def engineWriteAs (num n asid va : Nat) (data : List Byte) (mark : Bool) (s : State) : State × Cpl :=
  writePieces { part := n, asid := asid, engine := true, num := num, write := true } mark (piecesOf va data.length) data s cOk

end Sys2Proof.Machine
end

