-- ==== Sys2Proof/Machine/Vertex.lean ====
section
/-!
DEFINITION. Vertex (R157 to R196): the ordering point, the directory's transitions, combining, writebacks and the
fall of the coherent domain.
-/
namespace Sys2Proof.Machine

def modVStat (n : Nat) (f : VtxStat → VtxStat) (s : State) : State := modVtx (fun v => { v with stats := v.stats.mod n f }) s

/-! ### Completions -/

/-- R464: a COH_CMP's opcode. -/
def cmpDataS : Nat := 0
def cmpDataE : Nat := 1
def cmpDataM : Nat := 2
def cmpGrantM : Nat := 3
def cmpDataCur : Nat := 4
def cmpCmp : Nat := 5
def cmpWbAck : Nat := 6

/-- The outcome of one line of a memory request made through a COHERENT segment. The request completes when none is
left (R171). -/
def locPiece (id at_ : Nat) (k : Cpl) (s : State) : State :=
  match s.loc.reqs.find? (·.id == id) with
  | none => s
  | some r =>
    let r' := { r with left := r.left - 1, out := worse r.out { k with data := [] },
                       data := if r.kind = .rd then (r.data.take at_) ++ k.data ++ r.data.drop (at_ + k.data.length) else r.data }
    if r'.left = 0 then
      let c := if r'.out.status = .ok && r'.kind = .rd then { r'.out with data := r'.data } else r'.out
      let s := { s with loc := { s.loc with reqs := s.loc.reqs.filter (·.id != id) } }
      if r'.kind = .posted then s else reply r'.who c s
    else { s with loc := { s.loc with reqs := s.loc.reqs.map fun x => if x.id = id then r' else x } }

/-- R462, R464: a request's completion, with its COH_CMP opcode. -/
def vReply (r : VReq) (op : Nat) (k : Cpl) (s : State) : State :=
  match r.who with
  | .block 8 id => locPiece id r.tag k s
  | .block .. => s
  | w => reply w { k with aux := op } s

/-- R164: the home has sent the agent the line. -/
def noteGrant (r : VReq) (s : State) : State :=
  modVtx (fun v => { v with granted := (r.agent, r.line, r.tag) :: v.granted.filter fun g => !(g.1 == r.agent && g.2.1 == r.line) }) s

def dropGrant (a line : Nat) (s : State) : State :=
  modVtx (fun v => { v with granted := v.granted.filter fun g => !(g.1 == a && g.2.1 == line) }) s

/-- R186: a held request completes DOMAIN_DOWN. A FLUSH or DOWNGRADE's line ends its command when the domain falls. -/
def vDownOne (r : VReq) (s : State) : State :=
  let s := modVStat r.part (fun x => { x with downCmp := sat 16 x.downCmp }) s
  match r.who with
  | .block 7 _ => s
  | _ => vReply r cmpCmp cDown s

/-! ### The fall of the domain (R184 to R187) -/

/-- The coherent ports of this switch, one of each gang, that are not excluded. -/
def cohPorts (s : State) : List Nat :=
  s.edg.ports.idxs fun p x => x.coherent && x.gang.getD p == p && !s.vtx.excluded.contains p

/-- The partitions that have a coherent port. -/
def cohParts (s : State) : List Nat :=
  (s.edg.ports.filterMap fun e => if e.2.coherent then e.2.part else none).eraseDups

/-- R187 steps 1 to 3: the domain enters DOWN. -/
def domainDown (cause agent line : Nat) (s : State) : State :=
  if s.vtx.st != .up then s
  else
    let v := s.vtx
    let reqs := (v.txns.map (·.req)) ++ (v.txns.filterMap (·.after)) ++ v.queue ++ v.held ++ v.wins.flatMap (·.members)
    let info := pack [(4, cause), (10, agent), (45, line)]
    let kept := v.txns.filterMap fun t => if t.req.op = .coh .rdCur then none else t.data.map fun d => (t.line, d)
    let parts := (cohParts s ++ v.jobs.map (·.cmd.part)).eraseDups
    let s := modVtx (fun v => { v with
      st := .down, cause := cause, agent := agent, infoLine := line, downFt := s.ft, downCount := sat 16 v.downCount,
      gen := (v.gen + 1) % 16, txns := [], queue := [], held := [], wins := [], granted := [], jobs := [],
      ackWait := cohPorts s, ackSince := s.ft, walked := false, recalled := v.recalled ++ kept,
      restart := parts ++ v.restart.filter fun n => !parts.contains n }) s
    let s := report .cohDomainDown .vertex none [info] s
    let s := if hasPartner s && cause != 9 && cause != 6 && s.pair.linkUp then send .cohDown 0x400 [9] s else s
    let s := reqs.foldl (fun s r => if r.op = .backInv then s else vDownOne r s) s
    let s := v.jobs.foldl (fun s j => finishCmd j.cmd (if bitOf (j.cmd.w 0) 4 then some (bits (j.cmd.w 0) 32 17) else none) cDown s) s
    (cohPorts s).foldl (fun s p => send .cohDown p [5] s) s

/-! ### Starting a transaction (R167, R170, R171, R173) -/

def busyLine (s : State) (l : Nat) : Bool :=
  s.vtx.txns.any (fun t => t.line == l || t.after.any (fun r => r.line == l)) || s.vtx.held.any (·.line == l)

/-- Whether a request records its agent as a holder. -/
def caches : VOp → Bool
  | .coh .rdShared | .coh .rdOwn | .coh .upgrade => true
  | _ => false

/-- R170, R171, R181: the snoops a transaction sends, and whether an UPGRADE is answered by a grant. -/
def snoopsFor (s : State) (r : VReq) (e : Option DirEnt) : List (Nat × Snoop) × Bool :=
  match e with
  | none => ([], false)
  | some e =>
    let hs := (holders s e).filter fun a => e.own || a != r.agent || !caches r.op
    let inv := hs.map fun a => (a, Snoop.inv)
    let fwdable := fun a => agentPriv s a
    match r.op with
    | .coh .rdShared => if e.own then (hs.map fun a => (a, if fwdable a then Snoop.fwdSh else .data), false) else ([], false)
    | .coh .rdOwn => (if e.own then hs.map fun a => (a, if fwdable a then Snoop.fwdOwn else .inv) else inv, false)
    | .coh .upgrade =>
      if e.own then (hs.map fun a => (a, if fwdable a then Snoop.fwdOwn else .inv), false)
      else (inv, !e.coarse && e.ptrs.contains r.agent)
    | .coh .rdCur => if e.own then (hs.map fun a => (a, Snoop.cur), false) else ([], false)
    | .coh _ => (inv, false)
    | .flush | .backInv => (inv, false)
    | .downgrade => if e.own then (hs.map fun a => (a, Snoop.data), false) else ([], false)

/-- R157, R178: whether a request could be combined. -/
def joinable (r : VReq) : Bool :=
  r.comb && (match r.op with | .coh .rdShared | .coh .rdCur | .coh .atomic => true | _ => false)

def isAtomicOp (r : VReq) : Bool := r.op == .coh .atomic

/-- What the members of an atomic window share. -/
def atomKey (r : VReq) : Nat × Nat × Nat :=
  match r.atom with
  | some (op, ty, _, _) => (r.off, (match op with | .fetchAdd => 0 | .fetchMin => 1 | .fetchMax => 2 | .compareSwap => 3), ty)
  | none => (r.off, 9, 9)

/-- A transaction needs memory once its responses are in. -/
def needsMem (t : VTxn) : Bool :=
  match t.req.op with
  | .coh .rdShared => t.dirty || (t.data.isNone && !t.fwd)
  | .coh .rdOwn => t.data.isNone && !t.fwd
  | .coh .upgrade => !t.grant && t.data.isNone && !t.fwd
  | .coh .rdCur => t.data.isNone
  | .coh _ => true
  | .flush | .backInv | .downgrade => t.dirty

def setTxn (t : VTxn) (s : State) : State :=
  modVtx (fun v => { v with txns := v.txns.map fun x => if x.line = t.line then t else x }) s

def txnOf (s : State) (l : Nat) : Option VTxn := s.vtx.txns.find? (·.line == l)

/-- The holders after a transaction's snoops (R170, R171). -/
def restEntry (t : VTxn) (e : DirEnt) : DirEnt :=
  match t.req.op with
  | .coh .rdShared | .downgrade => { e with own := false, ptrs := e.ptrs.filter fun a => !t.gone.contains a }
  | .coh .rdCur => { e with ptrs := e.ptrs.filter fun a => !t.gone.contains a }
  | _ => { e with own := false, coarse := false, groups := 0, ptrs := [] }

/-- An entry is kept, or freed when it names no holder. -/
def putEntry (i : Nat) (e : DirEnt) (s : State) : State :=
  modVtx (fun v => { v with clock := v.clock + 1, dir := v.dir.set i (if !e.coarse && e.ptrs.isEmpty then {} else { e with stamp := v.clock + 1 }) }) s

/-! ### Atomics (R178) -/

def typeSize : Nat → Nat
  | 0 => 4 | 1 => 8 | 2 => 4 | _ => 2

/-- R178: the new value of one atomic. -/
def atomApply (op : AtomOp) (ty old x cmp : Nat) : Nat :=
  let w := 8 * typeSize ty
  let x := x % 2 ^ w
  if ty ≤ 1 then
    match op with
    | .fetchAdd => (old + x) % 2 ^ w
    | .fetchMin => if ofTwos w x < ofTwos w old then x else old
    | .fetchMax => if ofTwos w old < ofTwos w x then x else old
    | .compareSwap => if old = cmp % 2 ^ w then x else old
  else
    let f := if ty = 2 then fp32 else bf16
    match op with
    | .fetchAdd => f.addBits old x
    | .fetchMin => f.minBits old x
    | .fetchMax => f.maxBits2 old x
    | .compareSwap => old

/-- R178, R179: members applied in order to a value; each answered with the value it found. -/
def applyMembers : List VReq → Nat → State → State × Nat
  | [], v, s => (s, v)
  | r :: rs, v, s =>
    match r.atom with
    | some (op, ty, x, c) => applyMembers rs (atomApply op ty v x c) (vReply r cmpCmp (cVal v) s)
    | none => applyMembers rs v s

/-! ### The end of a transaction -/

/-- The data a write leaves in the line: none where a byte keeps what memory holds. -/
def writeBytes (t : VTxn) : List (Option Byte) :=
  let r := t.req
  let under : List (Option Byte) := match t.data with | some d => d.map some | none => List.replicate 128 none
  if r.op = .coh .wrLine then r.data.map some
  else ((under.zip (r.data.map some)).zip r.mask).map fun p => if p.2 then p.1.2 else p.1.1

/-- Q is answered and the directory takes the line's next state (R170, R171). `bad` is a POISON outcome. -/
def finishTxn (t : VTxn) (d : List Byte) (bad : Bool) (s : State) : State :=
  let r := t.req
  let s := modVtx (fun v => { v with txns := v.txns.filter (·.line != t.line) }) s
  let ent := dirFind s t.line
  let (i, e) := ent.getD (0, {})
  let rest := restEntry t e
  let keep := fun s => if ent.isSome then putEntry i rest s else s
  if bad then
    -- R183: no state is granted and no holder recorded
    vReply r cmpCmp cPoison (keep s)
  else
    match r.op with
    | .coh .rdShared =>
      let excl := !rest.coarse && rest.ptrs.isEmpty && r.priv && !r.comb && !e.own
      let e' := if excl then { rest with own := true, ptrs := [r.agent] } else addSharer r.agent rest
      let s := putEntry i e' s
      if t.fwd then s else noteGrant r (vReply r (if excl then cmpDataE else cmpDataS) { data := d, value := t.line * 128 } s)
    | .coh .rdOwn | .coh .upgrade =>
      let s := putEntry i { rest with own := true, ptrs := [r.agent] } s
      if t.fwd then s
      else noteGrant r (vReply r (if t.grant then cmpGrantM else cmpDataM) { data := if t.grant then [] else d, value := t.line * 128 } s)
    | .coh .rdCur =>
      vReply r cmpDataCur { data := if r.who matches .block .. then (d.drop r.off).take r.data.length else d, value := t.line * 128 } (keep s)
    | .coh .atomic => keep s
    | .coh _ => vReply r cmpCmp cOk (keep s)
    | .flush | .downgrade | .backInv => keep s

/-- R183: where memory answers RETRY, and a page's readiness for a write. -/
def lineReady (l : Nat) (write : Bool) (s : State) : State × Option Cpl :=
  match serveCpl s (l * 128 / pageBytes) write with
  | some k => (s, some k)
  | none => if write then readyWrite (l * 128 / pageBytes) s else (usePage (l * 128 / pageBytes) s, none)

/-- The requester a FOLD_POISON entry names for a coherent request. -/
def vFold (r : VReq) : FoldReq := { engine := decide (0x200 ≤ r.agent), num := r.agent % 0x200 }

/-- R178, R179: the members of an atomic are applied to the line, which is written once. -/
def applyAtomic (t : VTxn) (rs : List VReq) (s : State) : State :=
  let r := t.req
  let n := typeSize (match r.atom with | some (_, ty, _, _) => ty | none => 0)
  let off := t.line * 128 + r.off
  let (s, k) := match t.data with
    | some d => (s, cData ((d.drop r.off).take n))
    | none => foldRead r.part (vFold r) off n s
  if k.status != .ok then
    rs.tail.foldl (fun s x => vReply x cmpCmp cPoison s) (finishTxn t [] true s)
  else
    let old := ofLE k.data
    let new := rs.foldl (fun v x => match x.atom with | some (op, ty, y, c) => atomApply op ty v y c | none => v) old
    let bytes : List (Option Byte) := match t.data with
      | some d => (d.take r.off ++ toLE n new ++ d.drop (r.off + n)).map some
      | none => (toLE n new).map some
    let at_ := if t.data.isSome then t.line * 128 else off
    let (s, w) := foldWriteOpt r.part (vFold r) r.compress r.mark at_ bytes s
    if w.status != .ok then rs.tail.foldl (fun s x => vReply x cmpCmp cPoison s) (finishTxn t [] true s)
    else finishTxn t [] false (applyMembers rs old s).1

/-- A window of a line. -/
def winOf (s : State) (l : Nat) : Option VWin := s.vtx.wins.find? (·.line == l)
def setWin (w : VWin) (s : State) : State := modVtx (fun v => { v with wins := v.wins.map fun x => if x.line = w.line then w else x }) s

/-- R177, R179: the members that a window has gathered when it closes belong to its transaction: a read's are served
when the data is at the home, an atomic's are applied. -/
def memberList (s : State) (t : VTxn) : List VReq :=
  match winOf s t.line with
  | some w => if w.atomic then t.req :: w.members else [t.req]
  | none => [t.req]

/-! ### Trackers (R169) -/

def tracked (s : State) : List VReq :=
  (s.vtx.txns.flatMap (fun t => t.req :: t.after.toList) ++ s.vtx.queue).filter fun r => r.op matches .coh _

def trackersOf (s : State) (n : Nat) : Nat := ((tracked s).filter (·.part == n)).length

/-- R169: free trackers of the whole pool. -/
def trackersFree (s : State) : Nat := 65536 - (tracked s).length

/-- R169: a tracker is available to partition `n`. -/
def trackerRoom (s : State) (n : Nat) : Bool :=
  let rs := s.cmp.active.parts
  let shared := 65536 - sumOf (rs.map (·.trackerRsv))
  let isOver := sumOf (rs.map fun r => trackersOf s r.part - r.trackerRsv)
  decide (trackersOf s n < (partRec s n).trackerRsv) || decide (isOver < shared)

/-- R167: a free way of the partition in the line's set. -/
def freeWay (s : State) (n l : Nat) : Option Nat := (dirWays s n l).find? fun i => !(s.vtx.dir.get i).used

/-- R177: the window of a read whose data is at the home, and its members served. -/
def serveMembers (w : VWin) (d : List Byte) (s : State) : State :=
  w.members.foldl (fun s r =>
    let s := modVStat r.part (fun x => { x with combReads := sat 16 x.combReads }) s
    match r.op with
    | .coh .rdShared =>
      let s := match dirFind s r.line with
        | some (i, e) => putEntry i (addSharer r.agent e) s
        | none => match freeWay s r.part r.line with
          | some i => putEntry i { line := r.line, used := true, ptrs := [r.agent] } s
          | none => s
      noteGrant r (vReply r cmpDataS { data := d, value := r.line * 128 } s)
    | _ => vReply r cmpDataCur { data := d, value := r.line * 128 } s) s

/-- R167: the victim: the least recently used entry without a transaction. -/
def victim (s : State) (n l : Nat) : Option Nat :=
  ((dirWays s n l).filter fun i => !busyLine s (s.vtx.dir.get i).line).foldl (fun acc i =>
    match acc with
    | none => some i
    | some j => if (s.vtx.dir.get i).stamp < (s.vtx.dir.get j).stamp then some i else some j) none

/-- What an entry's start of a transaction came to. -/
def pushTxn (t : VTxn) (s : State) : State := modVtx (fun v => { v with txns := v.txns ++ [t] }) s

/-- R173: a transaction's start: its snoops go out. With none to wait for, memory is asked at once, where it is needed. -/
def openTxn (t : VTxn) (s : State) : State :=
  let s := t.snoops.foldl (fun s x => sendSnoop x.1 t.line x.2 t.req.agent t.req.tag s) s
  pushTxn { t with since := s.ft, mem := t.snoops.isEmpty, memSince := s.ft } s

/-- R173: a request starts. `fresh` tells that it starts as it is accepted (R177). Answers the state and whether it
had to wait in its pipe for a way (R167). -/
def vStart (fresh : Bool) (r : VReq) (s : State) : State :=
  let s := if r.part < 16 then
      monSample (7 * 4096 + r.line % 16) r.part (s.ft - r.at_) (s.vtx.queue.filter fun x => x.line % 16 == r.line % 16 && x.part == r.part).length (r.agent % 256) s
    else s
  let ent := dirFind s r.line
  let own := match ent with | some (_, e) => e.own && e.ptrs.contains r.agent | none => false
  match r.op, own with
  | .coh _, true => domainDown 5 r.agent r.line (vDownOne r s)
  | _, _ =>
    let (sn, grant) := snoopsFor s r (ent.map (·.2))
    let openWin := joinable r && (match winOf s r.line with | none => true | some _ => false) &&
      (isAtomicOp r || (fresh && !(ent.any fun e => e.2.own)))
    let s := if openWin then modVtx (fun v => { v with wins := v.wins ++ [{ line := r.line, part := r.part, opened := s.ft, atomic := isAtomicOp r, key := atomKey r }] }) s else s
    let t : VTxn := { line := r.line, req := r, snoops := sn, grant := grant }
    if ent.isSome || !caches r.op then openTxn t s
    else match freeWay s r.part r.line with
      | some i => openTxn t (modVtx (fun v => { v with dir := v.dir.set i { line := r.line, used := true } }) s)
      | none =>
        match victim s r.part r.line with
        | some i =>
          let e := s.vtx.dir.get i
          let b : VReq := { part := r.part, line := e.line, op := .backInv, agent := 0x3FF }
          let s := modVStat r.part (fun x => { x with backInval := sat 16 x.backInval }) s
          openTxn { line := e.line, req := b, snoops := (holders s e).map fun a => (a, .inv), after := some r } s
        | none => modVtx (fun v => { v with held := v.held ++ [r] }) s

/-- After a transaction ends: the request a back-invalidation made room for starts, and a request held for want of a
way or a tracker is tried again. -/
def vAfter (t : VTxn) (s : State) : State :=
  let s := match t.after with | some r => vStart false r s | none => s
  match s.vtx.held.find? fun r => trackerRoom s r.part with
  | some r =>
    let s' := modVtx (fun v => { v with held := v.held.erase r }) s
    if busyLine s' r.line then modVtx (fun v => { v with queue := v.queue ++ [r] }) s' else vStart false r s'
  | none => s

/-- R177, R179: a window closes. The members of an atomic window whose data is at the home are applied. -/
def closeWin (l : Nat) (s : State) : State :=
  match winOf s l with
  | none => s
  | some w =>
    let drop := fun s => modVtx (fun v => { v with wins := v.wins.filter (·.line != l) }) s
    if w.atomic then
      match txnOf s l with
      | some t =>
        if t.atHome then vAfter t (applyAtomic t (t.req :: w.members) (drop s))
        else
          -- the members wait in the window, which takes no more, for the line's data
          setWin { w with count := 512, opened := 0 } s
      | none => drop s
    else match w.data with
      | some _ => drop s
      | none => setWin { w with count := 512, opened := 0 } s

/-! ### Vertex commands' lines (R181) -/

def vjOp (c : QCmd) : VOp := if bits (c.w 0) 3 0 = 1 then .flush else .downgrade
def vjCount (c : QCmd) : Nat := if bits (c.w 2) 31 0 = 0 then 4294967296 else bits (c.w 2) 31 0
def vjObj (c : QCmd) : Option Nat := if bitOf (c.w 0) 4 then some (bits (c.w 0) 32 17) else none

/-- R181: the lines of a command from its next on, until one needs a transaction of its own: a line no agent holds in a
state to change is done at once. -/
def vjRun (j : VJob) : (fuel : Nat) → (i : Nat) → State → State
  | 0, _, s => s
  | fuel + 1, i, s =>
    let c := j.cmd
    if vjCount c ≤ i then
      finishCmd c (vjObj c) cOk (modVtx (fun v => { v with jobs := v.jobs.filter (·.id != j.id) }) s)
    else
      let x : XlReq := { part := c.part, asid := bits (c.w 0) 16 5, va := c.w 1 + i * 128, len := 128, engine := true, num := 124 + c.id }
      match translate x s with
      | (s, .cpl k) => finishCmd c (vjObj c) k (modVtx (fun v => { v with jobs := v.jobs.filter (·.id != j.id) }) s)
      | (s, .addr pa _ _) =>
        if bits pa 63 52 != 0 then
          finishCmd c (vjObj c) cBad (modVtx (fun v => { v with jobs := v.jobs.filter (·.id != j.id) }) s)
        else
          let l := bits pa 51 0 / 128
          if !homeLocal s (bits pa 51 0 / pageBytes) then vjRun j fuel (i + 1) (send .forward 0 [7, (if vjOp c = .flush then 1 else 2), l * 128] s)
          else
            let r : VReq := { who := .block 7 j.id, agent := seqAgent s (124 + c.id), part := c.part, op := vjOp c, line := l }
            let s := modVtx (fun v => { v with jobs := v.jobs.map fun y => if y.id = j.id then { y with next := i + 1 } else y }) s
            let s := closeWin l s
            if busyLine s l then modVtx (fun v => { v with queue := v.queue ++ [r] }) s
            else
              let (sn, _) := snoopsFor s r ((dirFind s l).map (·.2))
              if sn.isEmpty && (vjOp c == .downgrade || (dirFind s l).isNone) then vjRun j fuel (i + 1) s
              else vStart false r s

/-- A line of a command is done; the command goes on. -/
def vjNext (r : VReq) (s : State) : State :=
  match r.who with
  | .block 7 id =>
    match s.vtx.jobs.find? (·.id == id) with
    | some j => vjRun j (vjCount j.cmd - j.next + 1) j.next s
    | none => s
  | _ => s

/-! ### Memory (R183) and the last steps of a transaction -/

/-- R183: a transaction's accesses to memory are made. Fenced memory answers RETRY, which is presented again after its
hint. -/
def vMemDone (l : Nat) (s : State) : State :=
  match txnOf s l with
  | none => s
  | some t =>
    if !t.mem || t.retryAt.isSome then s
    else
      let r := t.req
      let isWrite := t.dirty || (match r.op with | .coh .wrLine | .coh .wrPart | .coh .atomic => true | _ => false)
      let (s, ready) := if needsMem t then lineReady l isWrite s else (s, none)
      match ready with
      | some k =>
        if k.status = .retry then setTxn { t with retryAt := some (s.ft + k.hint) } s
        else vjNext r (vAfter t (finishTxn t [] true s))
      | none =>
        -- recalled dirty data of a read, a FLUSH, a DOWNGRADE or a back-invalidation reaches memory first
        let s := match t.data, t.dirty with
          | some d, true => (foldWrite r.part (vFold r) r.compress false (l * 128) d s).1
          | _, _ => s
        match r.op with
        | .coh .rdShared | .coh .rdOwn | .coh .upgrade | .coh .rdCur =>
          if t.fwd || t.grant then vAfter t (finishTxn t [] false s)
          else
            let (s, k) := match t.data with | some d => (s, cData d) | none => foldRead r.part (vFold r) (l * 128) 128 s
            let bad := k.status != .ok
            let w := winOf s l
            let s := finishTxn t k.data bad s
            let s := match w with
              | some w =>
                if w.atomic then s
                else if bad then
                  modVtx (fun v => { v with wins := v.wins.filter (·.line != l) }) (w.members.foldl (fun s x => vReply x cmpCmp cPoison s) s)
                else if decide (w.count < 512) && decide (s.ft < w.opened + 64) then
                  setWin { w with members := [], data := some k.data } (serveMembers w k.data s)
                else modVtx (fun v => { v with wins := v.wins.filter (·.line != l) }) (serveMembers w k.data s)
              | none => s
            vAfter t s
        | .coh .atomic =>
          match winOf s l with
          | some w =>
            if !w.atomic then vAfter t (applyAtomic t [r] s)
            else if decide (w.count < 512) && decide (s.ft < w.opened + 64) then setTxn { t with atHome := true } s
            else vAfter t (applyAtomic t (r :: w.members) (modVtx (fun v => { v with wins := v.wins.filter (·.line != l) }) s))
          | none => vAfter t (applyAtomic t [r] s)
        | .coh _ =>
          let (s, k) := foldWriteOpt r.part (vFold r) r.compress r.mark (l * 128) (writeBytes t) s
          vAfter t (finishTxn t [] (k.status != .ok) s)
        | .flush | .downgrade | .backInv => vjNext r (vAfter t (finishTxn t [] false s))

/-- A transaction's responses are in: memory is asked, or it ends. -/
def vAdvance (l : Nat) (s : State) : State :=
  match txnOf s l with
  | none => s
  | some t =>
    if !t.snoops.isEmpty || !t.wbs.isEmpty || t.mem then s
    else
      let s := setTxn { t with mem := true, memSince := s.ft } s
      if needsMem t then s else vMemDone l s

/-- The window still takes members. -/
def winOpen (s : State) (w : VWin) : Bool := decide (w.count < 512) && decide (s.ft < w.opened + 64)

/-- R173, R174, R177: a request is accepted at the ordering point. -/
def vAccept (r : VReq) (s : State) : State :=
  if s.vtx.st != .up || ((localPort s r.agent).any fun p => s.vtx.excluded.contains p) then vDownOne r s
  else
    let join : Bool := match winOf s r.line with
      | some w => joinable r && winOpen s w && w.part == r.part && w.atomic == isAtomicOp r && (!w.atomic || w.key == atomKey r)
          && (w.atomic || (dirFind s r.line).isSome || r.op == .coh .rdCur || (w.data.isSome && (freeWay s r.part r.line).isSome))
      | none => false
    let r := { r with at_ := s.ft }
    let s := modVtx (fun v => { v with ptrs := v.ptrs.set (r.line % 16) ((r.agent + 1) % 1024) }) s
    if join then
      match winOf s r.line with
      | some w =>
        let w' := { w with members := w.members ++ [r], count := w.count + 1 }
        if w.atomic then setWin w' (modVStat r.part (fun x => { x with combAtomics := sat 16 x.combAtomics }) s)
        else match w.data with
          | some d => setWin { w' with members := [] } (serveMembers { w' with members := [r] } d s)
          | none => setWin w' s
      | none => s
    else
      let s := closeWin r.line s
      if !trackerRoom s r.part then
        send .creditWithheld r.agent [3, r.part] (modVtx (fun v => { v with held := v.held ++ [r] }) s)
      else if busyLine s r.line || s.vtx.queue.any (·.line == r.line) then modVtx (fun v => { v with queue := v.queue ++ [r] }) s
      else vStart true r s

/-! ### Responses and writebacks (R172, R175) -/

/-- R172: the responses the home accepts to a snoop. -/
def rspOk (k : Snoop) (owner : Bool) (x : Rsp) : Bool :=
  if owner then
    match k, x with
    | _, .wb => true
    | .cur, .keep | .cur, .dataKeep | .data, .s | .data, .dataS | .inv, .i | .inv, .dataI
    | .fwdSh, .fwdS | .fwdSh, .fwdSData | .fwdOwn, .fwdI => true
    | _, _ => false
  else k == .inv && x == .i

/-- R465: the line lies in a range of a port's partition. -/
def lineMine (s : State) (a line : Nat) : Bool :=
  match localPort s a with
  | some p => match (port s p).part with
    | some n => inPool s n (line * 128 / pageBytes) || inGroup s n (line * 128 / pageBytes)
    | none => false
  | none => true

/-- What every COH_RSP and COH_WB meets first: a stale generation, an excluded port, an address outside the
partition's ranges (R184, R196, R465). -/
def cohDrop (a line gen : Nat) (s : State) : Option State :=
  if gen != s.vtx.gen then some (modVtx (fun v => { v with staleDrops := sat 16 v.staleDrops }) s)
  else if s.vtx.st != .up || ((localPort s a).any fun p => s.vtx.excluded.contains p) then some s
  else if !lineMine s a line then some (modVtx (fun v => { v with outside := v.outside + 1 }) s)
  else none

/-- R172: a snoop response from agent `a` for a line. -/
def cohRsp (a line gen : Nat) (x : Rsp) (data : List Byte) (s : State) : State :=
  match cohDrop a line gen s with
  | some s => s
  | none =>
    match txnOf s line with
    | none => domainDown 3 a line s
    | some t =>
      match t.snoops.find? (·.1 == a) with
      | none => domainDown 3 a line s
      | some (_, k) =>
        let owner := (dirFind s line).any fun e => e.2.own
        if !rspOk k owner x then domainDown 3 a line s
        else
          let s := dropGrant a line s
          let hasData := x == .dataI || x == .dataS || x == .dataKeep || x == .fwdSData
          let t := { t with
            snoops := t.snoops.filter (·.1 != a),
            wbs := if x = .wb && !(t.gone.contains a) then t.wbs ++ [a] else t.wbs,
            gone := if x = .i || x = .dataI || x = .fwdI then t.gone ++ [a] else t.gone,
            data := if hasData && t.req.op != .coh .wrLine then some (data.take 128) else t.data,
            dirty := t.dirty || (hasData && (x == .dataS || x == .fwdSData || t.req.op == .flush || t.req.op == .backInv)),
            fwd := t.fwd || x == .fwdI || x == .fwdS || x == .fwdSData }
          vAdvance line (setTxn t s)

/-- R160, R175: a writeback from agent `a`. One from a port not marked coherent is discarded (R168). -/
def cohWb (a line gen : Nat) (data : Option (List Byte)) (s : State) : State :=
  match cohDrop a line gen s with
  | some s => s
  | none => if (localPort s a).any fun p => !(port s p).coherent then s else
    let ack := fun s => send .cohGrant a [cmpWbAck, line * 128] (dropGrant a line s)
    let put := fun s => match data with
      | some d =>
        let s := (readyWrite (line * 128 / pageBytes) s).1
        (foldWrite ((pagePart s (line * 128 / pageBytes)).getD 16) { num := a % 0x200 } false false (line * 128) (d.take 128) s).1
      | none => s
    match txnOf s line with
    | some t =>
      if t.snoops.any (·.1 == a) || t.wbs.contains a then
        -- the snoop's own RSP_WB may still be to come, and is then accepted without effect
        let t := { t with wbs := t.wbs.filter (· != a), gone := t.gone ++ [a],
                          data := match data with | some d => if t.req.op = .coh .wrLine then t.data else some (d.take 128) | none => t.data }
        vAdvance line (setTxn t (ack (put s)))
      else domainDown 4 a line s
    | none =>
      match dirFind s line with
      | some (_, e) => if e.own && e.ptrs.contains a then dirFree line (ack (put s)) else domainDown 4 a line s
      | none => domainDown 4 a line s

end Sys2Proof.Machine
end

