-- ==== Sys2Proof/Machine/Locus.lean ====
section
/-!
DEFINITION. Locus's pipeline for the requests of ports (R28, R29, R32, R35, R103 to R125, R465): TLBs, walks, the home
of a request, its access and completion, LOC_SYNC and the release of fault entries.
-/
namespace Sys2Proof.Machine

def modLoc (f : Locus → Locus) (s : State) : State := { s with loc := f s.loc }
def setReq (r : MemReq) (s : State) : State :=
  modLoc (fun l => { l with reqs := l.reqs.map fun x => if x.id = r.id then r else x }) s

/-- The translation request of a memory request. -/
def xlOf (r : MemReq) : XlReq :=
  let wr := match r.kind with
    | .wr | .posted => true
    | .coh .rdOwn | .coh .upgrade | .coh .wrLine | .coh .wrPart => true
    | _ => false
  { part := r.part, endpoint := r.endpoint, asid := r.asid, va := r.va, len := r.len, write := wr,
    atomic := r.kind == .coh .atomic, posted := r.kind == .posted, num := r.endpoint,
    tag := match r.who with | .port _ _ t => t | _ => 0 }

/-- A request ends: a posted write without a completion (R117). -/
def endReq (r : MemReq) (c : Cpl) (s : State) : State :=
  let s := modLoc (fun l => { l with reqs := l.reqs.filter (·.id != r.id) }) s
  if r.kind = .posted then s else reply r.who c s

/-! ### TLBs (R103, R104) -/

/-- The first-level TLB of the memory-side attachment a port's requests pass. -/
def tlbOf (r : MemReq) : Nat := match r.who with | .port p _ _ => 132 + p % 16 | _ => 132

def tlbMatch (ctx seg off : Nat) (e : TlbEnt) : Bool :=
  e.ctx == ctx && e.seg == seg && (if e.big then off / 2 ^ 30 == e.page else off / pageBytes == e.page)

/-- The leaf a TLB gives, and its level: a first-level hit becomes most recently used, a second-level hit is brought
in. -/
def tlbFind (a ctx seg off : Nat) (s : State) : Option (Nat × Nat) × State :=
  let lvl := fun (e : TlbEnt) => if e.big then 2 else 1
  let l1 := s.loc.tlb1.get a
  match l1.find? (tlbMatch ctx seg off) with
  | some e => (some (e.leaf, lvl e), modLoc (fun l => { l with tlb1 := l.tlb1.set a (e :: l1.erase e) }) s)
  | none =>
    let here := (s.loc.tlb2.get (off / pageBytes % 1024)).find? fun e => !e.big && tlbMatch ctx seg off e
    let big := (s.loc.tlb2.get (off / 2 ^ 30 % 1024)).find? fun e => e.big && tlbMatch ctx seg off e
    match here.or big with
    | some e => (some (e.leaf, lvl e), modLoc (fun l => { l with tlb1 := l.tlb1.set a ((e :: l1).take 64) }) s)
    | none => (none, s)

/-- R103, R104: a leaf is cached, in the second level only in a way of the partition's, the oldest replaced. -/
def tlbFill (a n ctx seg off leaf : Nat) (big : Bool) (s : State) : State :=
  let e : TlbEnt := { ctx := ctx, seg := seg, page := if big then off / 2 ^ 30 else off / pageBytes, big := big, leaf := leaf }
  let l1 := ((s.loc.tlb1.get a).filter fun x => !tlbMatch ctx seg off x)
  let s := modLoc (fun l => { l with tlb1 := l.tlb1.set a ((e :: l1).take 64) }) s
  let set := e.page % 1024
  let cur := (s.loc.tlb2.get set).filter fun x => !(tlbMatch ctx seg off x && x.big == big)
  let ways := (List.range 16).filter fun w => bitOf (partRec s n).wayMask w
  let mine := cur.filter fun x => ways.contains x.way
  match (ways.find? fun w => !mine.any (·.way == w)).or (mine.getLast?.map (·.way)) with
  | none => s
  | some w => modLoc (fun l => { l with tlb2 := l.tlb2.set set ({ e with way := w } :: cur.filter (·.way != w)) }) s

/-- R106, R111: cached translations that satisfy `p` are discarded. -/
def tlbDrop (p : TlbEnt → Bool) (s : State) : State :=
  let f := fun (_ : Nat) (l : List TlbEnt) => l.filter fun e => !p e
  modLoc (fun l => { l with tlb1 := l.tlb1.mapAll f, tlb2 := l.tlb2.mapAll f }) s

/-! ### After translation: the home and the access (R28 stages 5 to 9, R32, R35) -/

/-- The lines a coherent memory request of Locus touches, as (line, first byte in it, bytes, place in the data). -/
def linePieces : (fuel off len at_ : Nat) → List (Nat × Nat × Nat × Nat)
  | 0, _, _, _ => []
  | fuel + 1, off, len, at_ =>
    if len = 0 then []
    else
      let n := min len (128 - off % 128)
      (off / 128, off % 128, n, at_) :: linePieces fuel (off + n) (len - n) (at_ + n)

def padLine (first : Nat) (d : List Byte) : List Byte := (List.replicate first 0 ++ d ++ List.replicate 128 0).take 128
def maskLine (first n : Nat) : List Bool := (List.range 128).map fun i => decide (first ≤ i) && decide (i < first + n)

/-- R157, R171: a request through a COHERENT segment passes the ordering point. A read is made as RD_CUR and a write as
WR_PART, line by line (DEDUCED, entry 19). -/
def toVertex (r : MemReq) (w : List Nat) (s : State) : State :=
  let off := bits r.pa 51 0
  let (a, priv) := match r.who with
    | .port p _ _ => (portAgent s p, (port s p).priv)
    | _ => (0x3FF, false)
  let base : VReq := { agent := a, part := r.part, mark := r.mark, comb := segCombinable w, priv := priv, compress := segCompress w }
  match r.kind with
  | .coh op =>
    let tag := match r.who with | .port _ _ t => t | _ => 0
    let v : VReq := { base with who := r.who, ctx := r.ctx, rid := some r.id, tag := tag, op := .coh op, line := off / 128, off := off % 128, data := r.data, mask := r.mask, atom := r.atom }
    vAccept v (modLoc (fun l => { l with reqs := l.reqs.filter (·.id != r.id) }) s)
  | _ =>
    let ps := linePieces (r.len / 128 + 2) off r.len 0
    let s := setReq { r with phase := .vertex, left := ps.length, data := if r.kind = .rd then List.replicate r.len 0 else r.data } s
    ps.foldl (fun s (l, first, n, at_) =>
      let v : VReq := if r.kind = .rd
        then { base with who := .block 8 r.id, tag := at_, op := .coh .rdCur, line := l, off := first, data := List.replicate n 0 }
        else { base with who := .block 8 r.id, tag := at_, op := .coh .wrPart, line := l,
                         data := padLine first ((r.data.drop at_).take n), mask := maskLine first n }
      vAccept v s) s

/-- R28 stages 5 to 9: a translated request goes on. `w` is its segment's descriptor (empty for PHYS), `leaf` and
`level` what XL_DATA tells. -/
def route (r : MemReq) (pa : Nat) (w : List Nat) (leaf level : Nat) (s : State) : State :=
  let r := { r with pa := pa, seg := w, since := s.ft }
  let coh := segCoherent w || (match r.kind with | .coh _ => true | _ => false)
  if r.kind = .xl then
    let s := if s.loc.cached.contains (r.ctx, r.endpoint) then s else modLoc (fun l => { l with cached := l.cached ++ [(r.ctx, r.endpoint)] }) s
    endReq r { value := pa, aux := pack [(1, b2n (bitOf leaf 2 || segType w == 2)), (1, b2n (bitOf leaf 3 || segType w == 2)), (1, b2n (level == 2))] } s
  else if bits pa 63 52 != 0 then
    if coh then endReq r cBad s
    else if nodeOnPartner s (bits pa 63 52) && linkDown s then endReq r (cRetry 10000) s
    else
      let fwd := nodeOnPartner s (bits pa 63 52)
      emit (.msg (if fwd then .forward else .memRead) (bits pa 63 52) [bits pa 51 0, r.len] r.data) (setReq { r with phase := .access, fwd := fwd } s)
  else
    let p := bits pa 51 0 / pageBytes
    if coh then
      if (segType w != 0 || !r.phys) && !segCoherent w then
        -- a coherent request through a segment with COHERENT 0 does not reach Vertex; an atomic completes BAD_REQUEST
        endReq r cBad s
      else if s.vtx.st != .up then
        endReq r cDown (engineDown r.part s)
      else if homeLocal s p then toVertex r w s
      else if partnerOut s then endReq r cDown s
      else emit (.msg .forward 0 [8, bits pa 51 0, r.len] r.data) (setReq { r with phase := .access, fwd := true } s)
    else
      let isWr := r.kind == .wr || r.kind == .posted
      match serveCpl s p isWr with
      | some k => if r.kind = .posted then setReq { r with phase := .access, retryAt := some (s.ft + k.hint) } s else endReq r k s
      | none =>
        if !homeLocal s p && (isWr || (groupOf s p).isNone) then
          emit (.msg .forward 0 [8, bits pa 51 0, r.len] r.data) (setReq { r with phase := .access, fwd := true } s)
        else if isWr && (page s p).st == .zero then
          if linkDown s then endReq r (cRetry 10000) s
          else if s.pair.waits.any (fun x => match x.2.2 with | .mapEntry q _ => q == p | _ => false) then setReq { r with phase := .mapWait } s
          else match zeroAlloc ((pagePart s p).getD r.part) p s with
            | none => endReq r (cRef .capacity) s
            | some (e, s) =>
              if hasPartner s then mirrorThen (.page p e) (.mapEntry p e) id (setReq { r with phase := .mapWait } s)
              else setReq { r with phase := .access } (setPage p e s)
        else setReq { r with phase := .access } s

/-- R33, R130: an acknowledged map entry takes effect, and the writes that waited for it go on. -/
def applyEntry (p : Nat) (e : PageEnt) (s : State) : State :=
  let s := if e.st = .zero then zeroPage p s else if (page s p).st = .zero then setPage p e s else s
  let go := fun (r : MemReq) => if r.phase == .mapWait && bits r.pa 51 0 / pageBytes == p then { r with phase := .access } else r
  let s := modLoc (fun l => { l with reqs := l.reqs.map go }) s
  if e.st = .zero then settle p true s else s

/-! ### Walks (R98, R99, R105) -/

/-- What a leaf or a fault answers to one request that took the walk. -/
def walkOutcome (wk : Walk) (addr e : Nat) (poison : Bool) (r : MemReq) (s : State) : State :=
  let x := xlOf r
  let off := match segStage s x with | .ok _ _ _ off => off | _ => 0
  match entCheck s r.part wk.level (segType wk.seg == 3) poison (x.write || x.atomic) off e with
  | .fault t =>
    let (s, c) := recordFault x t wk.ctx wk.segNo wk.level e addr s
    endReq r c s
  | .notLocal => endReq r (if segCoherent wk.seg || x.atomic then cBad else cRef .notLocal) s
  | .next _ => s
  | .leaf e => route { r with ctx := wk.ctx } (leafAddr e wk.level off) wk.seg e wk.level s

/-- R105: a walk starts for a miss. -/
def startWalk (m : Miss) (s : State) : State :=
  let w := (s.loc.ctxs.get m.ctx).segs.getD m.segNo []
  let k : Walk := { id := s.loc.nextWalk, part := m.part, ctx := m.ctx, segNo := m.segNo, seg := w, page := m.page,
                    level := rootLevel w, table := segBase w, joined := m.reqs, first := s.ft }
  let s := monSample (8 * 4096) m.part (s.ft - m.at_) (s.loc.misses.filter (·.part == m.part)).length 404 s
  send .walkRead m.part [k.id] (modLoc (fun l => { l with walks := l.walks ++ [k], nextWalk := l.nextWalk + 1 }) s)

def walkersOf (s : State) (n : Nat) : Nat := (s.loc.walks.filter (·.part == n)).length

/-- R105: a walker is free for partition `n`. -/
def walkerFree (s : State) (n : Nat) : Bool :=
  decide (s.loc.walks.length < 32) && decide (walkersOf s n < (partRec s n).walkQuota)

/-- R105: a miss joins the walk of its page, starts one, or waits. -/
def missOn (r : MemReq) (ctx seg off : Nat) (s : State) : State :=
  let pg := off / pageBytes
  if s.loc.walks.any fun k => k.ctx == ctx && k.segNo == seg && k.page == pg then
    let add := fun (k : Walk) => if k.ctx == ctx && k.segNo == seg && k.page == pg then { k with joined := k.joined ++ [r.id] } else k
    modLoc (fun l => { l with walks := l.walks.map add }) s
  else
    let m : Miss := { part := r.part, ctx := ctx, segNo := seg, page := pg, reqs := [r.id], at_ := s.ft }
    if walkerFree s r.part then startWalk m s else modLoc (fun l => { l with misses := l.misses ++ [m] }) s

/-- R28 stage 4 for a request of a port. -/
def startXlate (r : MemReq) (s : State) : State :=
  let x := xlOf r
  let isOver := !bitOf r.va 59 && decide (4096 < r.va % 4096 + r.len)
  match segStage s x with
  | .notPermitted => endReq r cNP s
  | .bad => endReq r cBad s
  | a =>
    if isOver && r.kind != .xl then endReq r cBad s
    else match fenceCpl s .locus r.part with
    | some c => endReq r c s
    | none =>
      match a with
      | .fault t c g => let (s, k) := recordFault x t c g 0 0 0 s; endReq r k s
      | .ok c g w off =>
        let r := { r with ctx := c, seg := w }
        let s := setReq r s
        if segType w = 2 then
          match directAns s r.part w off (x.write || x.atomic) with
          | (.fault t, _) => let (s, k) := recordFault x t c g 0 0 0 s; endReq r k s
          | (.notLocal, _) => endReq r (if segCoherent w || x.atomic then cBad else cRef .notLocal) s
          | (_, pa) => route r pa w 0 0 s
        else
          let (hit, s) := tlbFind (tlbOf r) c g off s
          match hit with
          | some (leaf, lvl) =>
            match entCheck s r.part lvl (segType w == 3) false (x.write || x.atomic) off leaf with
            | .leaf e => route r (leafAddr e lvl off) w e lvl s
            | _ => missOn r c g off s
          | none => missOn r c g off s
      | _ => s

/-- R461 to R465: a memory message of a port enters the pipeline. One from a port without a partition, or naming a node
that is not one of its partition, is not permitted. -/
def memMsg (kind : ReqKind) (who : Requester) (asid va len : Nat) (phys mark : Bool) (cls : SClass) (data : List Byte)
    (mask : List Bool) (atom : Option (AtomOp × Nat × Nat × Nat)) (s : State) : State :=
  match who with
  | .port p node _ =>
    let n := (port s p).part.getD 16
    let r : MemReq := { id := s.loc.nextReq, who := who, part := n, endpoint := node, asid := asid, va := va, len := len,
                        kind := kind, data := data, mask := mask, atom := atom, mark := mark, cls := cls, since := s.ft,
                        gen := (s.cmp.fences.get Block.locus.code).gen, phys := phys }
    let s := modLoc (fun l => { l with reqs := l.reqs ++ [r], nextReq := l.nextReq + 1 }) s
    if 16 ≤ n || nodeAt s p node != some n then endReq r cNP s
    else if kind = .xl && !(port s p).translating then endReq r cNP s
    else if phys then
      let pg := bits va 51 0 / pageBytes
      let ok := bits va 63 52 == 0 && (inPool s n pg || (inGroup s n pg && kind == .rd))
        || (bits va 63 52 != 0 && nodePart s (bits va 63 52) == some n)
      if !(port s p).translating || !ok then endReq r cNP s
      else if len = 0 || decide (4096 < va % 4096 + len) then endReq r cBad s
      else match fenceCpl s .locus n with
        | some c => endReq r c s
        | none => route r va [] 0 0 s
    else if (len = 0 || decide (4096 < len)) && kind != .xl then
      match segStage s (xlOf r) with
      | .notPermitted => endReq r cNP s
      | _ => endReq r cBad s
    else startXlate r s
  | w => reply w cNP s

/-- R28, R464: MEM_REQ RD. -/
def execMemRd (who : Requester) (asid va len : Nat) (phys : Bool) (cls : SClass) (s : State) : Res :=
  .next (memMsg .rd who asid va len phys false cls [] [] none s)
/-- R28, R464: MEM_REQ WR. -/
def execMemWr (who : Requester) (asid va : Nat) (data : List Byte) (phys mark : Bool) (cls : SClass) (s : State) : Res :=
  .next (memMsg .wr who asid va data.length phys mark cls data [] none s)
/-- R28, R117: MEM_REQ WR_POSTED. -/
def execWrPosted (who : Requester) (asid va : Nat) (data : List Byte) (phys mark : Bool) (cls : SClass) (s : State) : Res :=
  .next (memMsg .posted who asid va data.length phys mark cls data [] none s)
/-- R465: MEM_REQ XL_REQ. -/
def execXlReq (who : Requester) (asid va : Nat) (s : State) : Res :=
  .next (memMsg .xl who asid (va - va % pageBytes) 1 false false .prompt [] [] none s)

/-! ### Coherent requests (R162, R168, R170, R171, R178) -/

/-- R168: RD_SHARED, RD_OWN and UPGRADE come from coherent ports only. One that the partner forwards enters at the
ordering point. -/
def cohMsg (op : CohOp) (r : CohReq) (data : List Byte) (mask : List Bool) (atom : Option (AtomOp × Nat × Nat × Nat)) (len : Nat)
    (bad : Bool) (s : State) : State :=
  let caching := op == .rdShared || op == .rdOwn || op == .upgrade
  match r.far with
  | some f =>
    vAccept { who := r.who, agent := f.agent, part := f.part, tag := match r.who with | .partner t => t | _ => 0, op := .coh op,
              line := f.addr / 128, off := f.addr % 128, data := data, mask := mask, atom := atom, comb := f.comb,
              priv := f.priv, mark := r.mark, compress := f.compress } s
  | none =>
    match r.who with
    | .port p _ _ =>
      if caching && !(port s p).coherent then reply r.who cNP s
      else if bad then reply r.who cBad s
      else if ((port s p).gang.getD p) != p && s.vtx.excluded.contains p then reply r.who cDown s
      else memMsg (.coh op) r.who r.asid (if atom.isSome then r.va else r.va - r.va % 128) len false r.mark .prompt data mask atom s
    | w => reply w cNP s

/-- R170. -/
def execRdShared (r : CohReq) (s : State) : Res := .next (cohMsg .rdShared r [] [] none 128 false s)
/-- R170. -/
def execRdOwn (r : CohReq) (s : State) : Res := .next (cohMsg .rdOwn r [] [] none 128 false s)
/-- R170. -/
def execUpgrade (r : CohReq) (s : State) : Res := .next (cohMsg .upgrade r [] [] none 128 false s)
/-- R171. -/
def execRdCur (r : CohReq) (s : State) : Res := .next (cohMsg .rdCur r [] [] none 128 false s)
/-- R171. -/
def execWrLine (r : CohReq) (data : List Byte) (s : State) : Res := .next (cohMsg .wrLine r (padLine 0 data) [] none 128 false s)
/-- R171: the mask has a bit for each byte. -/
def execWrPart (r : CohReq) (mask : BitVec 128) (data : List Byte) (s : State) : Res :=
  .next (cohMsg .wrPart r (padLine 0 data) ((List.range 128).map fun i => mask.getLsbD i) none 128 false s)

/-- R178. -/
def atomOpOf : Nat → Option AtomOp
  | 0 => some .fetchAdd | 1 => some .fetchMin | 2 => some .fetchMax | 3 => some .compareSwap | _ => none

/-- R178: an ATOMIC, with its OP and TYPE codes. -/
def execAtomic (r : CohReq) (op ty operand compare : Nat) (s : State) : Res :=
  match atomOpOf op with
  | none => .next (cohMsg .atomic r [] [] none 1 true s)
  | some o =>
    let n := typeSize ty
    let a := match r.far with | some f => f.addr | none => r.va
    let bad := decide (4 ≤ ty) || (o == .compareSwap && decide (2 ≤ ty)) || a % n != 0
    .next (cohMsg .atomic r [] [] (some (o, ty, operand, compare)) n bad s)

/-- R173: the next queued request of a line starts when no transaction is in progress on it. -/
def execLineQueueStart (l : Nat) (s : State) : Res :=
  if busyLine s l then .next s
  else match s.vtx.queue.find? (·.line == l) with
    | some r => .next (vStart false r (modVtx (fun v => { v with queue := v.queue.erase r }) s))
    | none => .next s

/-- R177: a window closes 112 Lattice cycles (64 ns) after it opened. -/
def execCombineWindowClose (l : Nat) (s : State) : Res :=
  match winOf s l with
  | some w => if !w.atomic && decide (w.opened + 64 ≤ s.ft) then .next (closeWin l s) else .next s
  | none => .next s

/-- R179. -/
def execAtomicWindowClose (l : Nat) (s : State) : Res :=
  match winOf s l with
  | some w => if w.atomic && decide (w.opened + 64 ≤ s.ft) then .next (closeWin l s) else .next s
  | none => .next s

/-- R175. -/
def execWbDirty (agent line gen : Nat) (data : List Byte) (s : State) : Res := .next (cohWb agent line gen (some (padLine 0 data)) s)
/-- R175. -/
def execWbClean (agent line gen : Nat) (s : State) : Res := .next (cohWb agent line gen none s)
/-- R172. -/
def execRspI (agent line gen : Nat) (s : State) : Res := .next (cohRsp agent line gen .i [] s)
/-- R172. -/
def execRspS (agent line gen : Nat) (s : State) : Res := .next (cohRsp agent line gen .s [] s)
/-- R172. -/
def execRspKeep (agent line gen : Nat) (s : State) : Res := .next (cohRsp agent line gen .keep [] s)
/-- R172. -/
def execRspDataI (agent line gen : Nat) (data : List Byte) (s : State) : Res := .next (cohRsp agent line gen .dataI (padLine 0 data) s)
/-- R172. -/
def execRspDataS (agent line gen : Nat) (data : List Byte) (s : State) : Res := .next (cohRsp agent line gen .dataS (padLine 0 data) s)
/-- R172. -/
def execRspDataKeep (agent line gen : Nat) (data : List Byte) (s : State) : Res := .next (cohRsp agent line gen .dataKeep (padLine 0 data) s)
/-- R172. -/
def execRspFwdI (agent line gen : Nat) (s : State) : Res := .next (cohRsp agent line gen .fwdI [] s)
/-- R172. -/
def execRspFwdS (agent line gen : Nat) (s : State) : Res := .next (cohRsp agent line gen .fwdS [] s)
/-- R172. -/
def execRspFwdSData (agent line gen : Nat) (data : List Byte) (s : State) : Res := .next (cohRsp agent line gen .fwdSData (padLine 0 data) s)
/-- R172. -/
def execRspWb (agent line gen : Nat) (s : State) : Res := .next (cohRsp agent line gen .wb [] s)

/-- R187 step 3. -/
def execCohDownAck (p : Nat) (s : State) : Res :=
  .next (modVtx (fun v => { v with ackWait := v.ackWait.filter (· != p) }) s)

/-- R172, R185: a response or announced writeback is missing after VTX_SNOOP_TMO; 0 counts as 1 µs (R191). -/
def execSnoopTimeout (l : Nat) (s : State) : Res :=
  match txnOf s l with
  | some t =>
    if (!t.snoops.isEmpty || !t.wbs.isEmpty) && decide (t.since + max 1 s.vtx.snoopTmo * 1000 ≤ s.ft) then
      .next (domainDown 1 ((t.snoops.map (·.1) ++ t.wbs).headD 0) l s)
    else .next s
  | none => .next s

/-- R183, R185: a memory access held by RETRY for more than 20 µs. -/
def execCohMemoryTimeout (l : Nat) (s : State) : Res :=
  match txnOf s l with
  | some t => if t.retryAt.isSome && decide (t.memSince + 20000 < s.ft) then .next (domainDown 8 0 l s) else .next s
  | none => .next s

/-- R187: the partner's Vertex reported the domain down. -/
def execPartnerDomainDown (s : State) : Res := .next (domainDown 9 0 0 s)

/-- R188: a port has not answered COH_DOWN_ACK within VTX_ACK_TMO. -/
def execPortExclude (p : Nat) (s : State) : Res :=
  if s.vtx.ackWait.contains p && decide (s.vtx.ackSince + max 1 s.vtx.ackTmo * 1000 ≤ s.ft) then
    .next (modVtx (fun v => { v with ackWait := v.ackWait.filter (· != p), excluded := v.excluded ++ [p] }) s)
  else .next s

/-- R188, R192: management writes a mask to VTX_PORT_EXCL_k; a port whose link has not retrained stays excluded. -/
def execPortExclClear (who : Requester) (k : Nat) (v : Word) (s : State) : Res :=
  mgmtGate who .admin false (fun s =>
    .next (reply who cOk (modVtx (fun x => { x with excluded := x.excluded.filter fun p => !(p / 64 == k && v.getLsbD (p % 64) && (port s p).st == .up) }) s))) s

/-- R185, R191: FORCE_DOWN. -/
def execForceDown (who : Requester) (s : State) : Res :=
  mgmtGate who .admin false (fun s => .next (reply who cOk (domainDown 10 0 0 s))) s

/-- R180: a reserved field, an unaligned VADDR, or a range that spans segments. -/
def vtxBad (c : QCmd) : Bool :=
  let op := bits (c.w 0) 3 0
  op == 0 || decide (2 < op) || bits (c.w 0) 63 33 != 0 || c.w 1 % 128 != 0 || bits (c.w 1) 59 52 != 0
  || bits (c.w 2) 63 32 != 0 || c.w 3 != 0 || bits (c.w 1 + vjCount c * 128 - 1) 68 60 != bits (c.w 1) 63 60

/-- R13, R137, R181: a command enters Vertex's queue `q`, or is answered. -/
def vtxSubmit (q : Nat) (c : QCmd) (s : State) : State × Option Cpl :=
  let asid := bits (c.w 0) 16 5
  let w := match findCtx s c.part 0 asid with
    | some k => (s.loc.ctxs.get k).segs.getD (bits (c.w 1) 63 60) []
    | none => []
  let chk := firstCheck [
    ((bitOf (c.w 0) 4 && objForeign s c.part (bits (c.w 0) 32 17)) || segType w == 0 || !segR w, cNP),
    (decide (4 ≤ q) || vtxBad c || !segCoherent w, cBad),
    (s.vtx.st != .up, cDown)] |>.or ((fenceCpl s .vertex c.part).or
      (if (partRec s c.part).vertexShare.getD q 0 ≤ ((queueOf s .vertex q).filter fun x => x.part == c.part).length
        then some (cRef .queueFull) else none))
  match chk with
  | some k => (if k.status = .domainDown then engineDown c.part s else s, some k)
  | none =>
    let c := { c with id := q, cls := .background, asid := asid, op := bits (c.w 0) 3 0 }
    enqueue .vertex q { c with cost := preCost s 7 (bits (c.w 0) 3 0) [(0, vjCount c * 128)] } s

/-- R181: the head command of queue `q` with operation `op` runs. -/
def vtxServe (op q : Nat) (s : State) : State :=
  match takeCmd .vertex q (124 + q) (fun c => bits (c.w 0) 3 0 == op) s with
  | none => s
  | some (c, s) =>
    if s.vtx.st != .up then finishCmd c (vjObj c) cDown (engineDown c.part s)
    else
      let j : VJob := { id := s.eng.nextId, cmd := c }
      let s := { s with eng := { s.eng with nextId := s.eng.nextId + 1 } }
      vjRun j (vjCount c + 1) 0 (modVtx (fun v => { v with jobs := v.jobs ++ [j] }) s)

/-- R181. -/
def execVtxFlush (q : Nat) (s : State) : Res := .next (vtxServe 1 q s)
/-- R181. -/
def execDowngrade (q : Nat) (s : State) : Res := .next (vtxServe 2 q s)

/-! ### Completions (R29, R35) -/

/-- The frame a page is read from and written to. -/
def frameOf (s : State) (p : Nat) : Frame := (page s p).frame

/-- What the tier's controller found is noted: errors toward retirement (R146), an unverified block's cause (R207). -/
def noteTier (off : Nat) (o : TierOut) (s : State) : State :=
  let p := off / pageBytes
  let err := fun ue => { s with pln := { s.pln with errs := { frame := frameOf s p, ft := s.ft, ue := ue } :: s.pln.errs } }
  let mark := fun (c : BlkCause) (s : State) => setBlk (off / 512) { blk s (off / 512) with bad := some c, logged := none } s
  if (page s p).st = .zero then s
  else match o with
  | .corrected => err false
  | .uncorrectable => mark .ecc (err true)
  | .badFormat => mark .format s
  | .checkRetry => { s with fld := { s.fld with checkRetry := sat 16 s.fld.checkRetry } }
  | .badCheck => mark .check s
  | .badTag => mark .tag s
  | _ => s

/-- R29: a request at its memory side completes. `ext` is what an endpoint, the partner or the tier returned. -/
def reqComplete (r : MemReq) (o : TierOut) (ext : List Byte) (s : State) : State :=
  let off := bits r.pa 51 0
  let isWr := r.kind == .wr || r.kind == .posted
  match o with
  | .timeout => endReq r cTimeout s
  | .remote c => if r.fwd || bits r.pa 63 52 != 0 then endReq r c s else s
  | o =>
    if bits r.pa 63 52 != 0 then
      if isWr then endReq r cOk s else endReq r (cData (extBytes s ext r.len)) (useFresh s)
    else
      match serveCpl s (off / pageBytes) isWr with
      | some k => setReq { r with retryAt := some (s.ft + k.hint) } s
      | none =>
        let s := noteTier off o s
        let depth := (s.loc.reqs.filter fun x => x.part == r.part && x.phase == .access).length
        let src := match r.who with | .port p _ _ => p | _ => 404
        let s := monSample (9 * 4096 + (frameOf s (off / pageBytes)).tier.code) r.part (s.ft - r.since) depth src s
        if isWr then
          let (s, bad) := if r.fwd then (s, none) else readyWrite (off / pageBytes) s
          match bad with
          | some k => endReq r k s
          | none =>
            let (s, k) := foldWrite r.part { num := r.endpoint } (segCompress r.seg) r.mark off r.data s
            endReq r k s
        else
          let (s, k) := foldRead r.part { num := r.endpoint } off r.len (usePage (off / pageBytes) s)
          endReq r k s

/-- R29, R183: Plane's tier controller has accepted a write or returned data. -/
def execMemoryAccessComplete (a : AccId) (o : TierOut) (ext : List Byte) (s : State) : Res :=
  match a with
  | .req id =>
    match s.loc.reqs.find? (·.id == id) with
    | some r => if r.phase = .access && r.retryAt.isNone then .next (reqComplete r o ext s) else .next s
    | none => .next s
  | .line l =>
    match txnOf s l with
    | some t => if t.mem && t.retryAt.isNone then .next (vMemDone l (noteTier (l * 128) o s)) else .next s
    | none => .next s

/-- R183: an access answered RETRY is presented again after its hint. -/
def represent (a : AccId) (s : State) : State :=
  match a with
  | .req id =>
    match s.loc.reqs.find? (·.id == id) with
    | some r => if r.retryAt.any (fun t => decide (t ≤ s.ft)) then setReq { r with retryAt := none } s else s
    | none => s
  | .line l =>
    match txnOf s l with
    | some t => if t.retryAt.any (fun x => decide (x ≤ s.ft)) then setTxn { t with retryAt := none } s else s
    | none => s

/-- R35: forwarded requests accepted before the loss of the pair link complete within 20 µs of it: coherent ones
DOMAIN_DOWN, others TIMEOUT. -/
def execForwardTimeout (s : State) : Res :=
  if partnerOut s || !hasPartner s then
    let rs := s.loc.reqs.filter (·.fwd)
    let s := rs.foldl (fun s r => endReq r (match r.kind with | .coh _ => cDown | _ => cTimeout) s) s
    -- forwarded parts of Plane commands (R140)
    let js := fun (j : PlnJob) =>
      let far := j.pend.filter fun p => !homeLocal s p
      if far.isEmpty then j else { j with pend := j.pend.filter (homeLocal s ·), out := worse j.out cTimeout }
    .next (finishJobs { s with pln := { s.pln with jobs := s.pln.jobs.map js } })
  else .next s

/-- R16, R39, R184, R588: a reply of a previous transaction generation is dropped and counted. -/
def execStaleReplyDrop (b : Block) (gen : Nat) (s : State) : Res :=
  if b = .vertex then
    if gen != s.vtx.gen then .next (modVtx (fun v => { v with staleDrops := sat 16 v.staleDrops }) s) else .next s
  else
    let f := s.cmp.fences.get b.code
    if gen != f.gen then
      .next { s with cmp := { s.cmp with fences := s.cmp.fences.set b.code { f with staleDrops := sat 16 f.staleDrops } } }
    else .next s

/-! ### Walks' events -/

/-- R105: the next waiting miss of the next partition in turn that may have a walker. -/
def execMissQueueServe (s : State) : Res :=
  let order := (List.range 16).map fun i => (s.loc.nextPart + i) % 16
  match order.findSome? fun n => if walkerFree s n then s.loc.misses.find? (·.part == n) else none with
  | none => .next s
  | some m =>
    let s := modLoc (fun l => { l with misses := l.misses.erase m, nextPart := (m.part + 1) % 16 }) s
    if s.loc.walks.any fun k => k.ctx == m.ctx && k.segNo == m.segNo && k.page == m.page then
      let add := fun (k : Walk) => if k.ctx == m.ctx && k.segNo == m.segNo && k.page == m.page then { k with joined := k.joined ++ m.reqs } else k
      .next (modLoc (fun l => { l with walks := l.walks.map add }) s)
    else .next (startWalk m s)

def walkOff (k : Walk) (r : MemReq) (s : State) : Nat :=
  match segStage s (xlOf r) with | .ok _ _ _ off => off | _ => k.page * pageBytes

/-- R98: a table read returns and its entry is checked. -/
def execWalkReadComplete (id : Nat) (s : State) : Res :=
  match s.loc.walks.find? (·.id == id) with
  | none => .next s
  | some k =>
    if k.retryAt.isSome then .next s
    else
      let addr := k.table + 8 * tableIndex k.level (k.page * pageBytes)
      match serveCpl s (addr / pageBytes) false with
      | some c => .next (modLoc (fun l => { l with walks := l.walks.map fun x => if x.id = id then { x with retryAt := some (s.ft + c.hint) } else x }) s)
      | none =>
        let poison := readPoisoned s addr 8
        let e := memWord s.mem addr
        let s := if poison then (foldRead k.part { num := 0 } addr 8 s).1 else s
        match entCheck s k.part k.level (segType k.seg == 3) poison false (k.page * pageBytes) e with
        | .next t =>
          let down := fun (x : Walk) => if x.id = id then { x with level := k.level - 1, table := t, first := s.ft } else x
          .next (send .walkRead k.part [id] (modLoc (fun l => { l with walks := l.walks.map down }) s))
        | ans =>
          let s := modLoc (fun l => { l with walks := l.walks.filter (·.id != id) }) s
          let rs := s.loc.reqs.filter fun r => k.joined.contains r.id
          let s := match ans with
            | .leaf _ | .fault .protection =>
              rs.foldl (fun s r => tlbFill (tlbOf r) k.part k.ctx k.segNo (k.page * pageBytes) e (k.level == 2) s) s
            | _ => s
          .next (rs.foldl (fun s r => walkOutcome k addr e poison r s) s)

/-- R99: a table read answered RETRY is presented again after its hint. -/
def execWalkReadRepresent (id : Nat) (s : State) : Res :=
  let go := fun (k : Walk) => if k.id == id && k.retryAt.any (fun t => decide (t ≤ s.ft)) then { k with retryAt := none } else k
  .next (modLoc (fun l => { l with walks := l.walks.map go }) s)

/-- R99, R587: a table read that has not been accepted, or has not completed, 20 µs after its first presentation ends the
walk. -/
def execWalkTimeout (id : Nat) (s : State) : Res :=
  match s.loc.walks.find? (·.id == id) with
  | none => .next s
  | some k =>
    if k.first + 20000 ≤ s.ft then
      let s := modLoc (fun l => { l with walks := l.walks.filter (·.id != id) }) s
      .next ((s.loc.reqs.filter fun r => k.joined.contains r.id).foldl (fun s r => endReq r cTimeout s) s)
    else .next s

/-! ### The fault ring (R119) -/

/-- R119: entries are released up to `h`. Answers the write's status. -/
def fqRelease (n h : Nat) (s : State) : State × Cpl :=
  let r := partRec s n
  let q := locPart s n
  if r.fqSize = 0 then (s, if h = 0 then cOk else cBad)
  else
    let d := (h + r.fqSize - q.head) % r.fqSize
    if r.fqSize ≤ h then (s, cBad)
    else if q.count < d then (s, cBad)
    else (setLocPart n { q with head := h, count := q.count - d } s, cOk)

def execFqHeadRelease (who : Requester) (n h : Nat) (s : State) : Res :=
  match who with
  | .port p _ _ =>
    if (port s p).priv && (port s p).part = some n then
      let (s, c) := fqRelease n (h % 4096) s
      .next (reply who c s)
    else .next (reply who cNP s)
  | _ => mgmtGate who .admin false (fun s =>
      if 16 ≤ n then .next (reply who cBad s)
      else
        let (s, c) := fqRelease n (h % 4096) s
        .next (reply who c s)) s

/-! ### LOC_SYNC (R108 to R114) -/

/-- R114, R120: a doorbell write for partition `n`, which needs a composition record with a mirror region. -/
def locDoorbell (n rec : Nat) (s : State) : State × Cpl :=
  let q := locPart s n
  if (partRec s n).mirror.isNone then (s, cBad)
  else match fenceCpl s .locus n with
  | some c => (s, c)
  | none =>
    if 16 ≤ q.syncs.length then (s, cRef .queueFull)
    else (setLocPart n { q with syncs := q.syncs ++ [{ record := rec % 4096, first := s.ft }] } s, cOk)

/-- R108: the address of sync record `j` of partition `n`. -/
def recAddr (s : State) (n j : Nat) : Nat := (partRec s n).mirror.getD 0 + 1024 * (partRec s n).ctxCount + 32 * j

/-- The words of a sync record. -/
def recWords (s : State) (n j : Nat) : List Nat := (List.range 4).map fun i => memWord s.mem (recAddr s n j + 8 * i)

/-- R108: the header and descriptors of context `i` in the mirror region. -/
def mirrorCtx (s : State) (n i : Nat) : Nat × Ctx :=
  let a := (partRec s n).mirror.getD 0 + 1024 * i
  let h := memWord s.mem a
  (h, { valid := bitOf h 0, endpoint := bits h 12 1, asid := bits h 24 13,
        segs := (List.range 16).map fun k => (List.range 4).map fun j => memWord s.mem (a + 512 + 32 * k + 8 * j) })

/-- R102, R113: a leaf below a table of a KV segment that Orbit did not write. -/
def kvForeign (s : State) : (level table : Nat) → Bool
  | 0, _ => false
  | level + 1, table =>
    (List.range (if level + 1 = 4 then 16 else 512)).any fun i =>
      let a := table + 8 * i
      let e := memWord s.mem a
      entV e && (if entLeaf e || level = 0 then s.loc.kvLeaves.get a != e else kvForeign s level (entAddr e))

/-- R113: what is wrong with a record, in R13's order. -/
def recCheck (s : State) (n : Nat) (w : List Nat) : Option Cpl :=
  let w0 := w.getD 0 0
  let op := bits w0 3 0
  let ci := bits w0 15 4
  let inMirror := (partRec s n).mirror.getD 0 + 1024 * ci
  let (h, c) := mirrorCtx s n ci
  let base := (partRec s n).ctxBase
  let dup := c.valid && s.loc.ctxs.any fun e => e.1 != base + ci && decide (base ≤ e.1) && decide (e.1 < base + (partRec s n).ctxCount)
    && e.2.valid && e.2.endpoint == c.endpoint && e.2.asid == c.asid
  let obj_ := bits w0 36 21
  let load := op == 1 && decide (ci < (partRec s n).ctxCount)
  if load && readPoisoned s inMirror 1024 then some cPoison
  else firstCheck [
    ((bitOf w0 20 && objForeign s n obj_) || (load && c.segs.any (segGroupForbidden s n)), cNP),
    (op == 0 || decide (4 < op) || bits w0 63 37 != 0 || bits (w.getD 1 0) 63 31 != 0 || bits (w.getD 2 0) 63 32 != 0
      || bits (w.getD 3 0) 63 9 != 0 || decide ((partRec s n).ctxCount ≤ ci)
      || (load && (bits h 63 25 != 0 || c.segs.any (segMalformed s n) || dup
          || c.segs.any (fun g => segType g == 3 && kvForeign s (rootLevel g) (segBase g)))), cBad),
    (bitOf w0 20 && (obj s obj_).mode != .counter, cRef .state)]

/-- R113: an access that record `rec` needs is answered RETRY: its own read, or the write of word 3 where it is applied, or the
read of the context that a SEG_LOAD loads. -/
def mirrorRetry (s : State) (n rec : Nat) (applied : Bool) : Bool :=
  let w0 := (recWords s n rec).getD 0 0
  let ci := bits w0 15 4
  (serveCpl s (recAddr s n rec / pageBytes) applied).isSome ||
    (!applied && bits w0 3 0 == 1 && decide (ci < (partRec s n).ctxCount) &&
      (serveCpl s (((partRec s n).mirror.getD 0 + 1024 * ci) / pageBytes) false).isSome)

/-- Requests that Vertex holds. -/
def vReqs (s : State) : List VReq :=
  s.vtx.txns.flatMap (fun t => t.req :: t.after.toList) ++ s.vtx.queue ++ s.vtx.held ++ s.vtx.wins.flatMap (·.members)

/-- R111: a request translated before the record was applied has not completed. -/
def oldPending (s : State) (y : LocSync) : Bool :=
  s.loc.reqs.any (fun r => y.oldReqs.contains r.id) || (vReqs s).any fun v => v.rid.any fun i => y.oldReqs.contains i

/-- Whether a translation of a context lies in what a record covers. -/
def covers (w : List Nat) (seg page : Nat) (big : Bool) : Bool :=
  if bits (w.getD 0 0) 3 0 != 2 then true
  else
    let first := bits (w.getD 1 0) 30 0
    let count := bits (w.getD 2 0) 31 0
    let lo := if big then page * 512 else page
    let hi := if big then page * 512 + 511 else page
    seg == bits (w.getD 0 0) 19 16 && (count == 0 || (decide (first ≤ hi) && decide (lo < first + count)))

/-- R111, R125: the record is applied at one instant. Requests already translated are the old ones; walks it covers start
again; endpoints that may hold translations are told. -/
def applyRec (n : Nat) (y : LocSync) (w : List Nat) (s : State) : State :=
  let op := bits (w.getD 0 0) 3 0
  let ci := bits (w.getD 0 0) 15 4
  let c := (partRec s n).ctxBase + ci
  let old := (s.loc.reqs.filter fun r => r.ctx == c && r.part == n && r.phase != .walking).map (·.id)
    ++ (vReqs s).filterMap fun v => if v.ctx = c && v.part = n then v.rid else none
  let s := if op = 1 then modLoc (fun l => { l with ctxs := l.ctxs.set c (mirrorCtx s n ci).2 }) s else s
  let s := if op = 4 then modLoc (fun l => { l with disabled := l.disabled.filter (·.1 != c) }) s else s
  let s := if op = 4 then s else tlbDrop (fun e => e.ctx == c && covers w e.seg e.page e.big) s
  let hit := if op = 4 then [] else s.loc.walks.filter fun k => k.ctx == c && covers w k.segNo k.page false
  let wait := if op = 4 then [] else s.loc.misses.filter fun k => k.ctx == c && covers w k.segNo k.page false
  let ends := if op = 4 then [] else (s.loc.cached.filter (·.1 == c)).map (·.2)
  let s := modLoc (fun l => { l with
    walks := l.walks.filter fun k => !hit.contains k, misses := l.misses.filter fun k => !wait.contains k,
    cached := if op = 4 || op = 2 then l.cached else l.cached.filter (·.1 != c) }) s
  let s := ends.foldl (fun s e => send .xlInv e [c, bits (w.getD 0 0) 19 16, w.getD 1 0, w.getD 2 0] s) s
  let q := locPart s n
  let y' := { y with applied := true, status := cOk, ctx := c, obj := if bitOf (w.getD 0 0) 20 then some (bits (w.getD 0 0) 36 21) else none,
                     oldReqs := old, acks := ends.map fun e => (e, s.ft) }
  let s := setLocPart n { q with syncs := q.syncs.replace y y' } s
  let again := s.loc.reqs.filter fun r => (hit.flatMap (·.joined) ++ wait.flatMap (·.reqs)).contains r.id
  again.foldl (fun s r => startXlate { r with phase := .walking } s) s

/-- The oldest LOC_SYNC of a partition not yet applied. -/
def firstSync (s : State) (n : Nat) : Option LocSync := (locPart s n).syncs.find? fun y => !y.applied

/-- A record that fails its checks: the previous translations stay in force. -/
def failRec (n : Nat) (y : LocSync) (w : List Nat) (c : Cpl) (readable : Bool) (s : State) : State :=
  let q := locPart s n
  let y' := { y with applied := true, status := c, readable := readable,
                     obj := if readable && bitOf (w.getD 0 0) 20 then some (bits (w.getD 0 0) 36 21) else none }
  setLocPart n { q with syncs := q.syncs.replace y y' } s

/-- R111: the oldest record not yet applied, where its operation is `op`. -/
def locApply (op n : Nat) (s : State) : State :=
  match firstSync s n with
  | none => s
  | some y =>
    let a := recAddr s n y.record
    let w := recWords s n y.record
    if fenced s .locus || scrubFenced s n || mirrorRetry s n y.record false then s
    else if readPoisoned s a 32 then failRec n y w cPoison false (foldRead n { engine := true, num := 0 } a 32 s).1
    else if bits (w.getD 0 0) 3 0 != op then s
    else match recCheck s n w with
      | some c => failRec n y w c true s
      | none => applyRec n y w s

/-- R109, OP 0x1. -/
def execSegLoad (n : Nat) (s : State) : Res := .next (locApply 1 n s)
/-- R109, OP 0x2. -/
def execInvRange (n : Nat) (s : State) : Res := .next (locApply 2 n s)
/-- R109, OP 0x3. -/
def execInvContext (n : Nat) (s : State) : Res := .next (locApply 3 n s)
/-- R109, OP 0x4. -/
def execCtxEnable (n : Nat) (s : State) : Res := .next (locApply 4 n s)

/-- R465: an endpoint acknowledges an XL_INV of a context. -/
def execXlInvAck (node ctx : Nat) (s : State) : Res :=
  let g := fun (y : LocSync) => if y.ctx = ctx then { y with acks := y.acks.filter (·.1 != node) } else y
  let f := fun (_ : Nat) (q : LocPart) => { q with syncs := q.syncs.map g }
  .next (modLoc (fun l => { l with parts := l.parts.mapAll f }) s)

/-- R112: an endpoint that has not acknowledged within 50 µs is disabled for the context. -/
def execXlInvTimeout (n node : Nat) (s : State) : Res :=
  let q := locPart s n
  match q.syncs.find? fun y => y.acks.any fun a => a.1 == node && decide (a.2 + 50000 ≤ s.ft) with
  | none => .next s
  | some y =>
    let y' := { y with acks := y.acks.filter (·.1 != node), timedOut := true }
    let s := setLocPart n { q with syncs := q.syncs.replace y y' } s
    .next (modLoc (fun l => { l with disabled := if l.disabled.contains (y.ctx, node) then l.disabled else l.disabled ++ [(y.ctx, node)] }) s)

/-- R111, R113: the oldest LOC_SYNC completes: word 3 is written, where it can be, and then its ADD is made. -/
def locFinish (n : Nat) (writable : Bool) (y : LocSync) (s : State) : State :=
  let c := if y.timedOut && y.status.status = .ok then cTimeout else y.status
  let word := pack [(4, c.status.code), (4, match c.reason with | some r => r.code | none => 0), (1, 1)]
  let a := recAddr s n y.record + 24
  let s := if writable && y.readable then
      (foldWrite n { engine := true, num := 0 } false false a (toLE 8 word) ((readyWrite (a / pageBytes) s).1)).1
    else s
  let q := locPart s n
  let s := setLocPart n { q with
    syncs := q.syncs.tail, lastStatus := c.status.code, lastRecord := y.record,
    timeouts := if c.status = .timeout then sat 16 q.timeouts else q.timeouts } s
  if y.readable then completionAdd n y.obj s else s

/-- R111. A record whose operation is reserved is refused here. -/
def execLocSyncComplete (n : Nat) (s : State) : Res :=
  match (locPart s n).syncs with
  | [] => .next s
  | y :: _ =>
    let a := recAddr s n y.record
    if !y.applied then
      if mirrorRetry s n y.record false then .next s
      else
        let w := recWords s n y.record
        if readPoisoned s a 32 then .next (failRec n y w cPoison false (foldRead n { engine := true, num := 0 } a 32 s).1)
        else if bits (w.getD 0 0) 3 0 = 0 || 4 < bits (w.getD 0 0) 3 0 then .next (failRec n y w ((recCheck s n w).getD cBad) true s)
        else .next s
    else if !y.acks.isEmpty || oldPending s y || (serveCpl s (a / pageBytes) true).isSome then .next s
    else .next (locFinish n true y s)

/-- R113: the mirror region's accesses were not accepted within 20 µs: RETRY, or a status that only the register holds. -/
def locSyncTimeout (n : Nat) (s : State) : State :=
  match (locPart s n).syncs with
  | [] => s
  | y :: _ =>
    let a := recAddr s n y.record
    if !mirrorRetry s n y.record y.applied || s.ft < y.first + 20000 then s
    else if !y.applied then
      let w0 := (recWords s n y.record).getD 0 0
      let own := (serveCpl s (a / pageBytes) true).isNone
      locFinish n own { y with status := cRetry 0, readable := own, obj := if bitOf w0 20 then some (bits w0 36 21) else none } s
    else if !y.acks.isEmpty || oldPending s y then s
    else locFinish n false y s

/-! ### Fences and scrubs (R16, R106, R125) -/

/-- R106: a reset of Locus discards every TLB entry; requests it holds complete (R16). -/
def locusClear (s : State) : State :=
  let rs := s.loc.reqs.filter fun r => r.phase == .walking
  let s := rs.foldl (fun s r => endReq r (cRetry 25000) s) s
  modLoc (fun l => { l with tlb1 := [], tlb2 := [], walks := [], misses := [] }) s

/-- R125: a scrub of partition `n`. -/
def locusScrub (n : Nat) (s : State) : State :=
  let r := partRec s n
  let inCtx := fun i => decide (r.ctxBase ≤ i) && decide (i < r.ctxBase + r.ctxCount)
  let s := tlbDrop (fun e => inCtx e.ctx) s
  modLoc (fun l => { l with
    ctxs := l.ctxs.filter fun e => !inCtx e.1, walks := l.walks.filter (·.part != n), misses := l.misses.filter (·.part != n),
    reqs := l.reqs.filter (·.part != n), disabled := l.disabled.filter fun e => !inCtx e.1,
    cached := l.cached.filter fun e => !inCtx e.1, parts := l.parts.set n {},
    ring := l.ring.filter fun e => !(decide (r.fqBase ≤ e.1) && decide (e.1 < r.fqBase + r.fqSize)) }) s

end Sys2Proof.Machine
end

