-- ==== Sys2Proof/Machine/Chord.lean ====
section
/-!
DEFINITION. Chord (R218 to R254): collectives, pulled and pushed contributions, results, and hierarchical reductions.
-/
namespace Sys2Proof.Machine

def eng (s : State) (e : Nat) : ChdEng := s.chd.engs.get e
def setEng (e : Nat) (x : ChdEng) (s : State) : State := { s with chd := { s.chd with engs := s.chd.engs.set e x } }
def modEng (e : Nat) (f : ChdEng → ChdEng) (s : State) : State := setEng e (f (eng s e)) s
def instOf (s : State) (e tag : Nat) : Option Inst := (eng s e).insts.find? (·.tag == tag)
def setInst (e : Nat) (i : Inst) (s : State) : State :=
  let put := fun (x : Inst) => if x.tag = i.tag then i else x
  modEng e (fun g => { g with insts := g.insts.map put }) s

/-! ### The descriptor (R222, R223, R226) -/

def cOp (c : QCmd) : Nat := bits (c.w 0) 3 0
def cRed (c : QCmd) : Nat := bits (c.w 0) 5 4
def cIn (c : QCmd) : Nat := bits (c.w 0) 9 6
def cOut (c : QCmd) : Nat := bits (c.w 0) 13 10
def cRnd (c : QCmd) : Bool := bitOf (c.w 0) 14
def cPush (c : QCmd) : Bool := bitOf (c.w 0) 15
def cAll (c : QCmd) : Bool := bitOf (c.w 0) 16
def cAccDst (c : QCmd) : Bool := bitOf (c.w 0) 17
def cHier (c : QCmd) : Bool := bitOf (c.w 0) 18
def cOrdered (c : QCmd) : Bool := bitOf (c.w 0) 19
def cShift (c : QCmd) : Int := ofTwos 8 (bits (c.w 0) 27 20)
def cAsid (c : QCmd) : Nat := bits (c.w 0) 43 32
def cObj (c : QCmd) : Option Nat := if bitOf (c.w 0) 31 then some (bits (c.w 0) 59 44) else none
def cTag (c : QCmd) : Nat := bits (c.w 1) 15 0
def cMembers (c : QCmd) : Nat := bits (c.w 1) 24 16
def cReadyEn (c : QCmd) : Bool := bitOf (c.w 1) 25
def cReadyObj (c : QCmd) : Nat := bits (c.w 1) 47 32
def cCount (c : QCmd) : Nat := bits (c.w 3) 39 0
def cG (c : QCmd) : Nat := bits (c.w 10) 6 0
def cMe (c : QCmd) : Nat := bits (c.w 10) 12 7
def cPeer (c : QCmd) : Nat := bits (c.w 10) 18 13
def cIsRed (c : QCmd) : Bool := cOp c == 1 || cOp c == 2

/-- R227: the chunks of an instance; an INDEX_GATHER goes row by row. -/
def cChunks (c : QCmd) : Nat :=
  if cIsRed c then ceilDiv (cCount c) 256 else if cOp c = 5 then cCount c else ceilDiv (16 * cCount c) 1024

/-- R227: the elements of chunk `k`, or the bytes of a block's chunk. -/
def chunkLen (c : QCmd) (k : Nat) : Nat :=
  if cIsRed c then min 256 (cCount c - 256 * k) else min 1024 (16 * cCount c - 1024 * k)

/-- R223, R242: the first chunk of shard `i` of `n`. -/
def shardStart (chunks n i : Nat) : Nat := i * chunks / n
def shardOf (chunks n k : Nat) : Nat := ((List.range n).find? fun i => decide (k < shardStart chunks n (i + 1))).getD 0

def cWide (c : QCmd) : Bool := winWide (cIn c) (cOut c) (cAccDst c)
def cL (c : QCmd) : Int := winL (cIn c) (cOut c) (cAccDst c)

/-- R220: the accumulator units an instance needs. -/
def cUnits (c : QCmd) : Nat :=
  let u := if cWide c then 5 else 1
  if cIsRed c then
    (if cPush c then cChunks c * u else 4 * u) + (if cHier c then u * ceilDiv (cChunks c) (max 1 (cG c)) else 0)
  else 1

/-- R222, R226: a reserved encoding or a descriptor the rule excludes. -/
def chdBad (c : QCmd) : Bool :=
  let op := cOp c
  let red := cIsRed c
  op == 0 || decide (5 < op) || cRed c == 3 || decide (11 < cIn c) || decide (4 < bits (c.w 0) 30 28) || bits (c.w 0) 63 60 != 0
  || bitOf (c.w 1) 31 || bits (c.w 1) 63 48 != 0 || bits (c.w 3) 63 40 != 0 || bits (c.w 10) 63 19 != 0
  || (rangeFrom 11 21).any (fun i => c.w i != 0) || decide (256 < cMembers c)
  || ((cMembers c == 0) != (op == 5)) || cCount c == 0
  || (red && fmtMX (cIn c) && cCount c % 256 != 0)
  || (red && (fmtMX (cOut c) || decide (11 < cOut c) || fmtInt (cIn c) != fmtInt (cOut c)))
  || (!red && (cRed c != 0 || cIn c != 0 || cOut c != 0 || cRnd c || cShift c != 0))
  || (cShift c != 0 && (cRed c != 0 || fmtInt (cIn c)))
  || (cPush c && (op == 4 || op == 5 || cReadyEn c))
  || (cAll c && (op == 2 || op == 4 || op == 5))
  || (cAccDst c && (cAll c || op != 1))
  || (cHier c && (op != 1 || decide (cG c < 2) || decide (64 < cG c) || decide (cG c ≤ cMe c) || decide (64 < cPeer c + cG c)))
  || (cHier c && cOrdered c && (cRed c != 0 || fmtInt (cIn c)))
  || c.w 4 % 128 != 0 || c.w 5 % 128 != 0 || c.w 7 % 4 != 0 || c.w 8 % 128 != 0
  || (op == 5 && bits (c.w 9) 31 0 == 0)

/-- R241: the peer entries an instance uses. -/
def cPeers (c : QCmd) : List Nat :=
  if cHier c then ((List.range (cG c)).filter (· != cMe c)).map (cPeer c + ·) else []

def peerOf (s : State) (i : Nat) : Option ChdPeer := s.cmp.active.chdPeers.find? (·.idx == i)

/-- R243: a remote record is an RDMA WRITE on the peer's queue pair. -/
def peerSent (i len : Nat) (s : State) : State :=
  match peerOf s i with
  | some p =>
    match s.cmp.active.qps.find? fun q => !q.window && q.qpn == p.qpn && q.port == p.port with
    | some q => qpSend q.qp len s
    | none => s
  | none => s

/-- R13 orders 1 to 4, R219, R226, R239, R241: the admission of a descriptor for engine `e`. -/
def chdCheck (s : State) (e : Nat) (c : QCmd) : Option Cpl :=
  let foreignPeer := (cPeers c).any fun i => (peerOf s i).any fun p => p.part != c.part
  let badPeer := (cPeers c).any fun i => match peerOf s i with | some p => p.engine != e | none => true
  firstCheck [
    (decide (32 ≤ e) || !(seqOf s e).owned || (seqOf s e).part != c.part
      || (cObj c).any (fun o => objForeign s c.part o) || (cReadyEn c && objForeign s c.part (cReadyObj c)) || foreignPeer, cNP),
    (chdBad c || badPeer, cBad)] |>.or (fenceCpl s .chord c.part)

/-- R13 order 5: the reasons that apply to a descriptor, but for the energy account's. -/
def chdReasons (s : State) (e : Nat) (c : QCmd) : List Reason :=
  (if 32 ≤ (queueOf s .chord e).length then [.queueFull] else []) ++ (if 1920 < cUnits c then [.capacity] else []) ++
  (if (cObj c).any (fun o => (obj s o).mode != .counter) || (cReadyEn c && (obj s (cReadyObj c)).mode != .counter) then [.state] else [])

/-- R567, R648: contributions and operand bytes; the bytes are counted as Prism's (DESIGN CHOICE, entry 91). -/
def chdUnits (c : QCmd) : List (Nat × Nat) :=
  if cIsRed c then [(5, cMembers c * cCount c), (0, cMembers c * cChunks c * chunkBytes (cIn c) 256)]
  else if cOp c = 5 then [(0, cCount c * bits (c.w 9) 31 0 * 16)] else [(0, cMembers c * cCount c * 16)]

/-- A command enters queue `e`, or is answered (R219, R221, R239). -/
def chdSubmit (e : Nat) (c : QCmd) (s : State) : State × Option Cpl :=
  match chdCheck s e c with
  | some k => (s, some k)
  | none =>
    let c := { c with id := e, cls := (classOf (bits (c.w 0) 30 28)).getD .prompt, asid := cAsid c, op := cOp c }
    enqueueUnless (chdReasons s e c) .chord e { c with cost := preCost s 0xB (cOp c) (chdUnits c) } s

/-! ### Instances (R220, R225) -/

def unitsUsed (g : ChdEng) : Nat := sumOf (g.insts.map (·.units))

/-- R220: room for a waiting issue. -/
def chdRoom (g : ChdEng) (c : QCmd) : Bool := decide (g.insts.length < 8) && decide (unitsUsed g + cUnits c ≤ 1920)

/-- The member table's entries (R225). -/
def memberRows (n : Nat) (d : List Byte) : List (Nat × Nat) :=
  (List.range n).map fun i => (ofLE ((d.drop (32 * i)).take 8), ofLE ((d.drop (32 * i + 8)).take 8))

/-- The bytes of one member's whole operand, and of its whole result. -/
def srcSpan (c : QCmd) : Nat := if cIsRed c then (cChunks c - 1) * chunkBytes (cIn c) 256 + chunkBytes (cIn c) (chunkLen c (cChunks c - 1)) else 16 * cCount c
def outSpan (c : QCmd) : Nat := if cIsRed c then cCount c * fmtBits (cOut c) / 8 else 16 * cCount c

/-- R239: the ranges the descriptor and the member table name. -/
def instRanges (c : QCmd) (ms : List (Nat × Nat)) : List (Nat × Nat × Bool) :=
  let n := cMembers c
  let srcs := if cPush c || cOp c = 4 || cOp c = 5 then [] else ms.map fun m => (m.1, srcSpan c, false)
  let res := if cOp c = 2 then (ms.zipIdx).map fun (m, i) =>
        let k := (shardStart (cChunks c) n (i + 1) - shardStart (cChunks c) n i) * 256 * fmtBits (cOut c) / 8
        (m.2, k, true)
      else if cOp c = 4 then ms.map fun m => (m.2, 16 * cCount c, true)
      else if cOp c = 5 then [(c.w 5, cCount c * bits (c.w 9) 31 0 * 16, true)]
      else
        let k := if cOp c = 3 then n * 16 * cCount c else outSpan c
        if cAll c then ms.map fun m => (m.2, k, true) else [(c.w 5, k, true)]
  let buf := if cOp c = 4 then [(c.w 5, n * 16 * cCount c, false)]
    else if cOp c = 5 then [(c.w 7, 4 * cCount c, false), (c.w 8, bits (c.w 9) 63 32 * bits (c.w 9) 31 0 * 16, false)]
    else if cAccDst c then [(c.w 5, outSpan c, false)] else []
  (srcs ++ res ++ buf).filter fun r => r.2.1 != 0

/-- R220, R225, R226, R233, R245: a waiting issue becomes an instance; its member table is read. -/
def chdAdmit (e : Nat) (c : QCmd) (s : State) : State :=
  let (s, k) := if cOp c = 5 then (s, cOk) else engineReadAs e c.part (cAsid c) (c.w 4) (32 * cMembers c) [] s
  let ms := memberRows (cMembers c) k.data
  let unaligned := (instRanges c ms).any fun r => r.1 % 128 != 0 && r.1 != c.w 7
  if k.status = .retry then
    -- the read is presented again while the command waits in front (R238); `held` and `arrived` keep the first try
    let c' := if c.held then c else { c with held := true, arrived := s.ft }
    modEng e (fun g => { g with waiting := c' :: g.waiting }) s
  else if k.status != .ok then finishCmd c (cObj c) { k with data := [] } s
  else if (instOf s e (cTag c)).isSome || unaligned then finishCmd c (cObj c) cBad s
  else match (instRanges c ms).findSome? fun r => rangeCheck s c.part (cAsid c) r.1 r.2.1 r.2.2 with
  | some k => finishCmd c (cObj c) k s
  | none =>
    let i : Inst := { cmd := c, tag := cTag c, table := ms, units := cUnits c, ready := !cReadyEn c,
                      readyBy := if cReadyEn c then tmoLimit s (bits (c.w 1) 30 26) else none, lastRec := s.ft, since := writesNow s }
    modEng e (fun g => { g with insts := g.insts ++ [i] }) s

/-- The issued or queued command of queue `e` with operation `op` reaches the collective unit: it is admitted, or waits
for room behind those that wait (R220). -/
def chdServe (op e : Nat) (s : State) : State :=
  match takeCmd .chord e e (fun c => cOp c == op) s with
  | none => s
  | some (c, s) =>
    let g := eng s e
    if g.waiting.isEmpty && chdRoom g c then chdAdmit e c s
    else setEng e { g with waiting := g.waiting ++ [c] } s

/-- R223, OP 0x2. -/
def execReduceScatter (e : Nat) (s : State) : Res := .next (chdServe 2 e s)
/-- R223, OP 0x3. -/
def execGather (e : Nat) (s : State) : Res := .next (chdServe 3 e s)
/-- R223, OP 0x4. -/
def execScatter (e : Nat) (s : State) : Res := .next (chdServe 4 e s)
/-- R240, OP 0x5. -/
def execIndexGather (e : Nat) (s : State) : Res := .next (chdServe 5 e s)

/-- R237, R239: an instance leaves with its final status. -/
def chdFinish (e : Nat) (i : Inst) (s : State) : State :=
  let k := if i.out.status != .ok then i.out else if 0 < i.badRows then { status := .partialDone, value := i.valid } else cOk
  let s := modEng e (fun g => { g with insts := g.insts.filter (·.tag != i.tag), doneN := sat 16 g.doneN }) s
  finishCmd i.cmd (cObj i.cmd) { k with data := [] } s

/-- R246: an ABORT goes to every other switch of the group. -/
def sendAborts (e : Nat) (i : Inst) (s : State) : State :=
  (cPeers i.cmd).foldl (fun s p => peerSent p 32 (send .hierAbort p [e, i.tag, cMe i.cmd] s)) s

/-- R246, R248: a hierarchical instance ends TIMEOUT. -/
def hierEnd (e : Nat) (i : Inst) (abort : Bool) (s : State) : State :=
  let s := if abort then sendAborts e i s else s
  chdFinish e { i with out := worse i.out cTimeout } { s with chd := { s.chd with timeouts := sat 16 s.chd.timeouts } }

/-- R233, R238: an instance ends TIMEOUT; a hierarchical one tells its group. -/
def chdTimeout (e : Nat) (i : Inst) (s : State) : State :=
  if cHier i.cmd then hierEnd e i true s else chdFinish e { i with out := worse i.out cTimeout } s

/-- R233: the wait on READY_OBJ has timed out: TIMEOUT, and nothing is read. -/
def execReadyWaitTimeout (e tag : Nat) (s : State) : Res :=
  match instOf s e tag with
  | some i =>
    let late := i.readyBy.any fun t => decide (t ≤ s.ft)
    if !i.ready && late && decide ((obj s (cReadyObj i.cmd)).value < i.cmd.w 2) then .next (chdTimeout e i s)
    else .next s
  | none => .next s

/-! ### Results (R230, R236 to R240) -/

/-- The random word of an element (R231). -/
def elemRand (c : QCmd) (i : Nat) : Nat :=
  if cRnd c then (philox (bits (c.w 6) 31 0) (bits (c.w 6) 63 32) (bits i 31 0) (bits i 39 32) (cTag c) 0).1 else 0

/-- The rounded elements of chunk `k` from its accumulators, or from the fp32 partials in order. -/
def chunkResult (c : QCmd) (k : Nat) (as : List Acc) (f32 : Option (List (List Nat))) : List Rounded :=
  (List.range (chunkLen c k)).map fun j =>
    let r := elemRand c (256 * k + j)
    match f32 with
    | none => accResult (cRed c) (cOut c) (cRnd c) (cShift c) (cL c) r (as.getD j {})
    | some ps => orderedResult (cOut c) (cRnd c) (cShift c) r (ps.map fun p => p.getD j 0)

def resultBytes (c : QCmd) (rs : List Rounded) : List Byte := rs.flatMap fun r => toLE (fmtBits (cOut c) / 8) r.bits

/-- Where chunk `k` of a reduce is written. -/
def resultDests (i : Inst) (k : Nat) : List Nat :=
  let c := i.cmd
  let b := 256 * fmtBits (cOut c) / 8
  if cOp c = 2 then
    let m := shardOf (cChunks c) (cMembers c) k
    [((i.table.getD m (0, 0)).2 + (k - shardStart (cChunks c) (cMembers c) m) * b)]
  else if cAll c then i.table.map fun m => m.2 + k * b
  else [c.w 5 + k * b]

/-- Writes of some bytes to several places, with the worst outcome. -/
def writeAll (e : Nat) (c : QCmd) (mark : Bool) (d : List Byte) : List Nat → State → State × Cpl
  | [], s => (s, cOk)
  | a :: rest, s =>
    let (s, k) := engineWriteAs e c.part (cAsid c) a d mark s
    let (s, k') := writeAll e c mark d rest s
    (s, worse k k')

/-- What R252 and R251 count of a written chunk. -/
def countResult (e : Nat) (rs : List Rounded) (bad : Bool) (s : State) : State :=
  let n := fun (p : Rounded → Bool) => (rs.filter p).length
  modEng e (fun g => { g with
    saturated := satAdd 16 g.saturated (n (·.sat)), overflow := satAdd 16 g.overflow (n (·.isOver)),
    nanOut := satAdd 16 g.nanOut (n (·.nan)), poisonChunks := if bad then sat 16 g.poisonChunks else g.poisonChunks }) s

/-- A chunk of a reduce is rounded and written. -/
def writeChunk (e : Nat) (i : Inst) (k : Nat) (rs : List Rounded) (bad : Bool) (s : State) : State × Cpl × Inst :=
  let (s, w) := writeAll e i.cmd bad (resultBytes i.cmd rs) (resultDests i k) s
  (countResult e rs bad s, w, { i with done := i.done ++ [k], out := worse i.out { w with data := [] } })

/-! ### Hierarchical records (R242 to R246) -/

/-- R243: the header of a record of this instance. -/
def hierHdr (c : QCmd) (kind k : Nat) (poison : Bool) : List Nat :=
  [pack [(2, kind), (16, cTag c), (6, cMe c), (7, cG c), (1, b2n poison), (32, k)],
   pack [(40, cCount c), (4, cIn c), (4, cOut c), (2, cRed c), (1, b2n (cOrdered c)), (1, b2n (cRnd c)), (8, toTwos 8 (cShift c))],
   c.w 6, 0]

/-- The partial of a chunk as the group's owner needs it. -/
def partOf (c : QCmd) (sender : Nat) (as : List Acc) (poison : Bool) : HierPart :=
  { sender := sender, accs := as, f32 := if cOrdered c then as.map (accF32 (cL c)) else [], poison := poison }

/-- R242 step 3, R244: the result of an own chunk once all partials are held: written here and sent to the others. -/
def hierTry (e : Nat) (i : Inst) (k : Nat) (s : State) : State × Inst :=
  let c := i.cmd
  let ps := i.parts.get k
  if ps.length < cG c || i.done.contains k then (s, i)
  else
    let ps := sortBy (·.sender) ps
    let bad := ps.any (·.poison)
    let as := ps.foldl (fun acc p => if acc.isEmpty then p.accs else (acc.zip p.accs).map fun x => accJoin (cRed c) x.1 x.2) ([] : List Acc)
    let rs := chunkResult c k as (if cOrdered c then some (ps.map (·.f32)) else none)
    let (s, w, i') := writeChunk e i k rs bad s
    if w.status = .retry then (s, i)
    else
      let s := (cPeers c).foldl (fun s p => peerSent p (32 + (resultBytes c rs).length) (emit (.msg .hierResult p (hierHdr c 1 k bad) (resultBytes c rs)) s)) s
      (s, { i' with out := if bad then worse i'.out cPoison else i'.out })

/-- R242 steps 1 and 2: a local partial goes to its owner, or stays with it. -/
def hierLocal (e : Nat) (i : Inst) (k : Nat) (as : List Acc) (bad : Bool) (s : State) : State × Inst :=
  let c := i.cmd
  let owner := shardOf (cChunks c) (cG c) k
  let i := { i with sent := i.sent ++ [k], out := if bad then worse i.out cPoison else i.out }
  if owner = cMe c then
    hierTry e { i with parts := i.parts.set k (i.parts.get k ++ [partOf c (cMe c) as bad]) } k s
  else
    let d := if cOrdered c then ((as ++ List.replicate 256 ({} : Acc)).take 256).flatMap (fun a => toLE 4 (accF32 (cL c) a)) else encodePartial (cRed c) (cWide c) as
    (peerSent (cPeer c + owner) (32 + d.length) (emit (.msg .hierPartial (cPeer c + owner) (hierHdr c 0 k bad) d) s), i)

/-! ### Pulled chunks (R233, R238, R240) -/

/-- Reads of several places, each with its own endpoint data: the bytes of each and the worst outcome. -/
def readAll (since : Option Nat) (e : Nat) (c : QCmd) (len : Nat) : List (Nat × List Byte) → State → State × Cpl × List (List Byte)
  | [], s => (s, cOk, [])
  | (a, x) :: rest, s =>
    let (s, k) := engineReadFrom since e c.part (cAsid c) a len x s
    let (s, k', ds) := readAll since e c len rest s
    (s, worse { k with data := [] } k', k.data :: ds)

/-- A chunk of a reduce from its members' bytes, and BUF's where ACC_DST asks for it. -/
def reduceChunk (e : Nat) (i : Inst) (k : Nat) (start : List Acc) (vals : List (List FVal)) (bad : Bool) (s : State) :
    State × Cpl × Inst :=
  let c := i.cmd
  let as := vals.foldl (fun as vs => accChunk (cRed c) (cL c) vs as) start
  if cHier c then
    let (s, i) := hierLocal e i k as bad s
    (s, cOk, i)
  else writeChunk e i k (chunkResult c k as none) bad s

/-- The value an existing result element contributes (ACC_DST). -/
def bufVals (c : QCmd) (k : Nat) (d : List Byte) : List FVal := chunkVals (cOut c) (chunkLen c k) d

/-- One chunk of an instance, from reading its operands to its write. Answers its worst outcome. -/
def doChunk (e : Nat) (i : Inst) (k : Nat) (ext : List (List Byte)) (s : State) : State × Cpl × Inst :=
  let c := i.cmd
  let n := chunkLen c k
  let isBad := fun (x : Cpl) => x.status != .ok
  if cIsRed c then
    let b := chunkBytes (cIn c) 256
    let srcs := if cPush c then [] else (i.table.zipIdx).map fun (m, j) => (m.1 + k * b, ext.getD j [])
    let (s, r, ds) := readAll (some i.since) e c (chunkBytes (cIn c) n) srcs s
    let bufAt := c.w 5 + k * 256 * fmtBits (cOut c) / 8
    let (s, rb, bs) := if cAccDst c then readAll none e c (n * fmtBits (cOut c) / 8) [(bufAt, ext.getD (cMembers c) [])] s else (s, cOk, [])
    let r := worse r rb
    let bad := isBad r || i.badCh.contains k
    let start := if cPush c then i.accs.get k ++ List.replicate (n - (i.accs.get k).length) ({} : Acc) else List.replicate n ({} : Acc)
    let vals := (ds.map fun d => chunkVals (cIn c) n d) ++ bs.map fun d => bufVals c k d
    let (s, w, i) := reduceChunk e { i with out := worse i.out r } k start vals bad s
    (s, worse r w, { i with out := if i.badCh.contains k then worse i.out cPoison else i.out })
  else if cOp c = 3 then
    let block := 16 * cCount c
    let (s, r, ds) := if cPush c then (s, cOk, (List.range (cMembers c)).map fun m => i.raw.get (k * 256 + m))
      else readAll (some i.since) e c n ((i.table.zipIdx).map fun (m, j) => (m.1 + k * 1024, ext.getD j [])) s
    let bad := isBad r || i.badCh.contains k
    let roots := if cAll c then i.table.map (·.2) else [c.w 5]
    let (s, w) := (ds.zipIdx).foldl (fun (s, w) (d, m) =>
      let (s, x) := writeAll e c bad (if d.isEmpty then List.replicate n 0 else d) (roots.map fun r => r + m * block + k * 1024) s
      (s, worse w x)) (s, cOk)
    (countResult e [] bad s, worse r w, { i with done := i.done ++ [k], out := worse i.out (worse (if i.badCh.contains k then cPoison else r) w) })
  else if cOp c = 4 then
    let block := 16 * cCount c
    let (s, r, ds) := readAll none e c n ((List.range (cMembers c)).map fun m => (c.w 5 + m * block + k * 1024, ext.getD m [])) s
    let (s, w) := ((ds.zip i.table)).foldl (fun (s, w) (d, m) =>
      let (s, x) := writeAll e c (isBad r) (if d.isEmpty then List.replicate n 0 else d) [m.2 + k * 1024] s
      (s, worse w x)) (s, cOk)
    (countResult e [] (isBad r) s, worse r w, { i with done := i.done ++ [k], out := worse i.out (worse r w) })
  else
    let row := bits (c.w 9) 31 0 * 16
    let (s, x) := engineReadAs e c.part (cAsid c) (c.w 7 + 4 * k) 4 (ext.getD 0 []) s
    let idx := ofTwos 32 (ofLE x.data)
    if x.status = .ok && (decide (idx < 0) || decide ((bits (c.w 9) 63 32 : Int) ≤ idx)) then
      let (s, w) := writeAll e c false (List.replicate row 0) [c.w 5 + k * row] s
      (modEng e (fun g => { g with partialRows := sat 16 g.partialRows }) s, w,
       { i with done := i.done ++ [k], badRows := i.badRows + 1, out := worse i.out w })
    else
      let (s, r) := if x.status = .ok then engineReadAs e c.part (cAsid c) (c.w 8 + idx.toNat * row) row (ext.getD 1 []) s else (s, x)
      let d := if r.status = .ok then r.data else List.replicate row 0
      let (s, w) := writeAll e c (r.status != .ok) d [c.w 5 + k * row] s
      (countResult e [] (r.status != .ok) s, worse { r with data := [] } w,
       { i with done := i.done ++ [k], valid := i.valid + 1, out := worse i.out (worse { r with data := [] } w) })

/-- R236: the next chunk an instance can take: in order where it pulls, any with all its contributions where it is
pushed. -/
def nextChunk (i : Inst) : Option Nat :=
  let c := i.cmd
  let have_ := fun k => decide (cMembers c ≤ (i.got.filter (·.2 == k)).length)
  if cPush c && cHier c then
    -- R242 step 2: the partials leave in ascending order
    if decide (i.sent.length < cChunks c) && have_ i.sent.length then some i.sent.length else none
  else if cPush c then (List.range (cChunks c)).find? fun k => !(i.done.contains k) && have_ k
  else if i.next < cChunks c then some i.next else none

/-- R242 step 4: a RESULT is written at the local destinations. -/
def applyResult (e : Nat) (i : Inst) (r : HierRec) (s : State) : State × Inst :=
  let k := bits (r.hdr.getD 0 0) 63 32
  let bad := bitOf (r.hdr.getD 0 0) 31
  let n := chunkLen i.cmd k * fmtBits (cOut i.cmd) / 8
  let (s', w) := writeAll e i.cmd bad (r.data.take n) (resultDests i k) s
  if w.status = .retry then (s, { i with pendRes := i.pendRes ++ [r] })
  else (countResult e [] bad s', { i with done := i.done ++ [k], out := worse i.out (if bad then worse cPoison w else w) })

/-- R233 to R238: the next chunk of an instance is carried out. Operands or memory that answer RETRY are asked again
after the hint; a domain that is down ends the instance. -/
def execChunkReadComplete (e tag : Nat) (ext : List (List Byte)) (s : State) : Res :=
  if fenced s .chord then .next s
  else match instOf s e tag with
  | none => .next s
  | some i =>
    let i := if i.ready then i else { i with ready := decide (i.cmd.w 2 ≤ (obj s (cReadyObj i.cmd)).value) }
    if !i.ready then .next s
    else match i.pendRes with
    | r :: rest =>
      let (s, i) := applyResult e { i with pendRes := rest } r s
      .next (setInst e i s)
    | [] =>
      match nextChunk i with
      | none =>
        -- own chunks of a hierarchical reduce whose write was put off
        let (s, i) := (i.parts.map (·.1)).foldl (fun (s, i) k => hierTry e i k s) (s, i)
        .next (setInst e i s)
      | some k =>
        let (s', w, i') := doChunk e i k ext s
        if w.status = .retry then
          .next (setInst e { i with retryAt := some (s.ft + w.hint), firstTry := i.firstTry.or (some s.ft) } s)
        else
          let i' := { i' with next := i'.next + 1, retryAt := none, firstTry := none, lastRec := s.ft }
          if w.status = .domainDown then .next (chdFinish e { i with out := worse i.out cDown } (engineDown i.cmd.part s)) else .next (setInst e i' s')

/-- R238: an operand's read was not accepted within 20 µs; a waiting command's is that of its member table. -/
def execOperandReadTimeout (e tag : Nat) (s : State) : Res :=
  match instOf s e tag with
  | some i =>
    if i.retryAt.isSome && i.firstTry.any (fun t => decide (t + 20000 ≤ s.ft)) then
      .next (chdTimeout e i s)
    else .next s
  | none =>
    match (eng s e).waiting with
    | c :: rest =>
      if c.held && cTag c == tag && decide (c.arrived + 20000 ≤ s.ft) then
        .next (finishCmd c (cObj c) cTimeout (modEng e (fun g => { g with waiting := rest }) s))
      else .next s
    | [] => .next s

/-- R237: every result write of an instance has completed. -/
def execCollectiveComplete (e tag : Nat) (s : State) : Res :=
  match instOf s e tag with
  | some i =>
    if cChunks i.cmd ≤ i.done.length && i.pendRes.isEmpty && (!cHier i.cmd || cChunks i.cmd ≤ i.sent.length) then .next (chdFinish e i s)
    else .next s
  | none => .next s

/-! ### Pushed contributions (R234, R235) -/

/-- R235. `hdr` are the two words of R234. -/
def execCollContrib (who : Requester) (hdr : List Nat) (data : List Byte) (s : State) : Res :=
  let h := hdr.getD 0 0
  let e := bits h 4 0
  let tag := bits h 20 5
  let m := bits h 28 21
  let k := bits h 63 32
  let len := bits (hdr.getD 1 0) 10 0
  let bad := bitOf (hdr.getD 1 0) 11
  let n := (reqPart s who).getD 16
  let g := eng s e
  let inst := (instOf s e tag).filter fun i => cPush i.cmd
  let chunkSize := fun (i : Inst) => if cIsRed i.cmd then chunkBytes (cIn i.cmd) (chunkLen i.cmd k) else chunkLen i.cmd k
  let enc := bits h 31 29 != 0 || bits (hdr.getD 1 0) 63 12 != 0 ||
    (match inst with
     | some i => decide (cMembers i.cmd ≤ m) || decide (cChunks i.cmd ≤ k) || len != chunkSize i
     | none => false)
  if !(seqOf s e).owned || (seqOf s e).part != n then .next (reply who cNP s)
  else if enc then .next (reply who cBad s)
  else match fenceCpl s .chord n with
  | some c => .next (reply who c s)
  | none =>
    match inst with
    | none => .next (reply who (cRef .state) (setEng e { g with noInst := sat 16 g.noInst } s))
    | some i =>
      if i.got.contains (m, k) then .next (reply who (cRef .state) (setEng e { g with dup := sat 16 g.dup } s))
      else
        let c := i.cmd
        let d := data.take len
        let i := { i with got := i.got ++ [(m, k)], badCh := if bad then i.badCh ++ [k] else i.badCh }
        let i :=
          if cIsRed c then
            let cur := i.accs.get k
            let cur := if cur.isEmpty then List.replicate (chunkLen c k) ({} : Acc) else cur
            { i with accs := i.accs.set k (accChunk (cRed c) (cL c) (chunkVals (cIn c) (chunkLen c k) d) cur) }
          else { i with raw := i.raw.set (k * 256 + m) d }
        .next (reply who cOk (setInst e i s))

/-! ### Records of remote switches -/

/-- R246: what of a record must agree with the local descriptor. -/
def hdrMatches (c : QCmd) (r : HierRec) : Bool :=
  let h := hierHdr c 0 0 false
  bits (r.hdr.getD 0 0) 30 24 == cG c && r.hdr.getD 1 0 == h.getD 1 0 && r.hdr.getD 2 0 == c.w 6

/-- R245: the KiB of the early store in use. -/
def earlyBytes (g : ChdEng) : Nat := sumOf (g.early.map fun r => 32 + r.data.length)

/-- R242, R244 to R246: a record reaches engine `e`. -/
def hierRecv (e : Nat) (r : HierRec) (s : State) : State :=
  let h := r.hdr.getD 0 0
  let kind := bits h 1 0
  let tag := bits h 17 2
  let sender := bits h 23 18
  let k := bits h 63 32
  match (instOf s e tag).filter fun i => cHier i.cmd with
  | none =>
    let g := eng s e
    if kind = 3 then s
    else if 1048576 < earlyBytes g + 32 + r.data.length then send .roceNak e [0x20, tag] s
    else setEng e { g with early := g.early ++ [{ r with at_ := s.ft }] } s
  | some i =>
    let c := i.cmd
    if kind = 3 then s
    else if kind = 2 then hierEnd e i false s
    else if !hdrMatches c r || i.seen.contains (kind, sender, k) then
      let s := { s with chd := { s.chd with mismatch := sat 16 s.chd.mismatch } }
      hierEnd e i true (report .chdHierMismatch .chord (some c.part) [tag, e, sender] s)
    else
      let i := { i with seen := i.seen ++ [(kind, sender, k)], lastRec := s.ft }
      if kind = 0 then
        let as := if cOrdered c then [] else decodePartial (cRed c) (cWide c) r.data
        let fs := if cOrdered c then (List.range 256).map fun j => ofLE ((r.data.drop (4 * j)).take 4) else []
        let p : HierPart := { sender := sender, accs := if cOrdered c then List.replicate 256 ({} : Acc) else as, f32 := fs, poison := bitOf h 31 }
        let (s, i) := hierTry e { i with parts := i.parts.set k (i.parts.get k ++ [p]) } k s
        setInst e i s
      else
        let (s, i) := applyResult e i r s
        setInst e i s

/-- R244, R245. -/
def execHierPartial (e : Nat) (hdr : List Nat) (data : List Byte) (s : State) : Res := .next (hierRecv e { hdr := hdr, data := data } s)
/-- R242. -/
def execHierResult (e : Nat) (hdr : List Nat) (data : List Byte) (s : State) : Res := .next (hierRecv e { hdr := hdr, data := data } s)
/-- R246. -/
def execHierAbort (e : Nat) (hdr : List Nat) (s : State) : Res := .next (hierRecv e { hdr := hdr } s)

/-- R245: held records of an instance that has been admitted are matched. -/
def matchEarly (e : Nat) (s : State) : State :=
  let g := eng s e
  let hit := fun (r : HierRec) => ((instOf s e (bits (r.hdr.getD 0 0) 17 2)).filter fun i => cHier i.cmd).isSome
  let rs := g.early.filter hit
  rs.foldl (fun s r => hierRecv e r s) (setEng e { g with early := g.early.filter fun r => !hit r } s)

def hierTmoNs (s : State) : Nat := max 1 s.chd.hierTmo * 1000

/-- R246: an expected record has not arrived within HIER_TMO. -/
def execHierTimeout (e tag : Nat) (s : State) : Res :=
  match instOf s e tag with
  | some i =>
    if cHier i.cmd && decide (cChunks i.cmd ≤ i.sent.length) && decide (i.done.length < cChunks i.cmd) && decide (i.lastRec + hierTmoNs s ≤ s.ft)
    then .next (hierEnd e i true s) else .next s
  | none => .next s

/-- R245: a held record not matched within HIER_TMO is discarded and counted. -/
def execEarlyRecordDiscard (e : Nat) (s : State) : Res :=
  let s := matchEarly e s
  let g := eng s e
  match g.early.find? fun r => decide (r.at_ + hierTmoNs s ≤ s.ft) with
  | some r =>
    .next (setEng e { g with early := g.early.erase r } { s with chd := { s.chd with discards := sat 16 s.chd.discards } })
  | none => .next s

/-- R223, OP 0x1; records held for a hierarchical instance are matched at its admission (R245). -/
def execReduce (e : Nat) (s : State) : Res := .next (matchEarly e (chdServe 1 e s))
/-- R220: the first waiting issue is admitted when there is room. -/
def execInstanceAdmit (e : Nat) (s : State) : Res :=
  let g := eng s e
  match g.waiting with
  | c :: rest => if chdRoom g c && !fenced s .chord then .next (matchEarly e (chdAdmit e c (setEng e { g with waiting := rest } s))) else .next s
  | [] => .next s

/-! ### Fences, restarts and scrubs (R254) -/

/-- R16, R254: the instances and waiting issues that satisfy `p` complete, with POISON where they are not finished. -/
def chordEnd (p : QCmd → Bool) (s : State) : State :=
  (s.chd.engs.map (·.1)).foldl (fun s e =>
    let is := (eng s e).insts.filter fun i => p i.cmd
    let ws := (eng s e).waiting.filter p
    let s := ws.foldl (fun s c => finishCmd c (cObj c) cPoison s) (modEng e (fun g => { g with waiting := g.waiting.filter fun c => !p c }) s)
    is.foldl (fun s i =>
      let s := if cHier i.cmd then sendAborts e i s else s
      chdFinish e { i with out := worse i.out cPoison } s) s) s

/-- R519: the partition's instances, waiting issues and held records are discarded. -/
def chordScrub (n : Nat) (s : State) : State :=
  let f := fun (e : Nat) (g : ChdEng) =>
    { g with insts := g.insts.filter (·.cmd.part != n), waiting := g.waiting.filter (·.part != n),
             early := if (seqOf s e).owned && (seqOf s e).part == n then [] else g.early }
  { s with chd := { s.chd with engs := s.chd.engs.mapAll f } }

end Sys2Proof.Machine
end

