-- ==== Sys2Proof/Machine/Arb.lean ====
section
/-!
DEFINITION. Arbitration among partitions and service classes (R323 to R325, R422, R424 to R426).
-/
namespace Sys2Proof.Machine

/-- The key of arbiter `u` of a block. -/
def arbKey (b : Block) (u : Nat) : Nat := b.code * 64 + u
def arbOf (s : State) (k : Nat) : Arb := s.eng.arbs.get k
def setArb (k : Nat) (a : Arb) (s : State) : State := { s with eng := { s.eng with arbs := s.eng.arbs.set k a } }

/-- The keys of a list in rising order, those after `cur` first. -/
def afterFirst (cur : Nat) (l : List (Nat × Nat × Nat)) : List (Nat × Nat × Nat) :=
  (l.filter fun x => decide (cur < x.1)) ++ l.filter fun x => decide (x.1 ≤ cur)

/-- R422: the turns a node needs before its deficit covers its head. -/
def drrNeed (defc : Tab Int) (x : Nat × Nat × Nat) : Nat := max 1 (ceilDiv ((x.2.1 : Int) - defc.get x.1).toNat (max 1 x.2.2))

/-- R324, R422: the node that deficit round robin serves next, and the arbiter after its choice. `l` lists the nodes with
work in rising order: (node, cost of its head, quantum). The node whose turn it is keeps it while its deficit covers its
head; else each node in turn is given its quantum until one's deficit covers its head. -/
def drrPick (a : Arb) (l : List (Nat × Nat × Nat)) : Option (Nat × Arb) :=
  match l.find? fun x => x.1 == a.cur && decide ((x.2.1 : Int) ≤ a.defc.get x.1) with
  | some x => some (x.1, a)
  | none =>
    let order := afterFirst a.cur l
    match minOf (order.map (drrNeed a.defc)) with
    | none => none
    | some r =>
      match order.find? fun x => drrNeed a.defc x == r with
      | none => none
      | some w =>
        let at_ := (order.takeWhile fun x => x.1 != w.1).length
        let give := fun (d : Tab Int) (p : (Nat × Nat × Nat) × Nat) =>
          d.set p.1.1 (d.get p.1.1 + (if p.2 ≤ at_ then r else r - 1) * max 1 p.1.2.2)
        some (w.1, { a with cur := w.1, defc := (order.zipIdx).foldl give a.defc })

/-- A node has been served at a cost; a node that empties loses its deficit. -/
def drrServe (n cost : Nat) (empty : Bool) (a : Arb) : Arb :=
  { a with defc := a.defc.set n (if empty then 0 else a.defc.get n - cost) }

/-- R425: the earliest promoted queue that has work. -/
def promoNext (a : Arb) (has : Nat → Nat → Bool) : Option (Nat × Nat × Nat) := a.promo.find? fun p => has p.1 p.2.1

/-- R424: bytes sent while promoted; the promotion ends with its quantum or when the queue empties. -/
def promoServe (p : Nat × Nat × Nat) (cost : Nat) (empty : Bool) (a : Arb) : Arb :=
  if empty || p.2.2 ≤ cost then { a with promo := a.promo.erase p }
  else { a with promo := a.promo.map fun x => if x = p then (x.1, x.2.1, x.2.2 - cost) else x }

end Sys2Proof.Machine
end

