-- ==== Sys2Proof/Machine/Orbit.lean ====
section
/-!
DEFINITION. Orbit (R289 to R345): sessions, their logs, their pages and slots, and what parks, moves and revives them.
-/
namespace Sys2Proof.Machine

/-! ### Descriptors -/

def modOrb (f : Orbit → Orbit) (s : State) : State := { s with orb := f s.orb }
def sess (s : State) (n : Nat) : Sess := s.orb.sess.get n
def setSess (n : Nat) (d : Sess) (s : State) : State := modOrb (fun o => { o with sess := o.sess.set n d }) s
def orbPart (s : State) (n : Nat) : OrbPart := (s.cmp.active.orbParts.find? (·.part == n)).getD { part := n }
def orbGroup (s : State) (g : Nat) : Option OrbGroup := s.cmp.active.orbGroups.find? (·.g == g)
def modOStat (n : Nat) (f : OrbStat → OrbStat) (s : State) : State := modOrb (fun o => { o with stats := o.stats.mod n f }) s

/-- R300: a descriptor changes state. -/
def toState (st : SessState) (s : State) (d : Sess) : Sess := { d with st := st, changeFt := s.ft }

/-- R289: the handle of a number. -/
def handleOf (d : Sess) (n : Nat) : Nat := d.gen * 16777216 + n

/-- R290, R607: this switch owns the session of a number. -/
def sessOwn (s : State) (n : Nat) : Bool := ownByRole s (some (sess s n).part) (bitOf n 23)

/-- R289, R321: the number a handle names for partition `p`, if it is current. -/
def sessNum (s : State) (p handle : Nat) : Option Nat :=
  let n := bits handle 23 0
  let d := sess s n
  if d.st != .free && d.gen == bits handle 31 24 && d.part == p then some n else none

/-- R302. -/
def attached (d : Sess) : Bool := d.st == .attached || d.st == .parking

/-- R292: the descriptor's words. -/
def sessWords (d : Sess) : List Nat :=
  let link := fun (l : List Nat) => (l.headD 0xFFFFFFFF, l.getLastD 0xFFFFFFFF)
  [ pack [(3, d.st.code), (2, d.depth.code), (1, b2n d.tray), (1, b2n d.demote), (1, b2n d.pin), (4, d.part), (8, d.gen), (4, d.seg),
          (2, d.target.code), (1, b2n d.held), (1, b2n d.slot.isSome), (24, d.slot.getD 0)],
    pack [(8, d.group.getD 0), (1, b2n d.group.isSome), (12, d.win), (16, d.refs), (1, b2n d.resultSeen)],
    pack [(32, d.logLen), (32, d.kvLen)],
    pack [(32, (link d.chunks).1), (32, (link d.chunks).2)], pack [(32, (link d.recChunks).1), (32, (link d.recChunks).2)],
    pack [(24, d.recCount), (24, d.pages.length)], d.openFt, d.changeFt, pack [(32, d.parkStep), (32, d.callId)], d.user,
    0, 0, 0, 0, 0, 0 ]

/-! ### The header (R304 to R307) -/

def oOp (c : QCmd) : Nat := bits (c.w 0) 3 0
def oObj (c : QCmd) : Option Nat := if bitOf (c.w 0) 4 then some (bits (c.w 0) 23 8) else none
def oInline (c : QCmd) : Bool := bitOf (c.w 0) 6
def oHandle (c : QCmd) : Nat := bits (c.w 1) 31 0
def oGroup (c : QCmd) : Nat := bits (c.w 1) 39 32
def oTray (c : QCmd) : Bool := bitOf (c.w 1) 42
def oDemote (c : QCmd) : Bool := bitOf (c.w 1) 43
def oPin (c : QCmd) : Bool := bitOf (c.w 1) 44
def oCount (c : QCmd) : Nat := bits (c.w 2) 31 0
def oPos (c : QCmd) : Nat := bits (c.w 2) 63 32
def oKvLen (c : QCmd) : Nat := bits (c.w 3) 31 0
def oWin (c : QCmd) : Nat := bits (c.w 3) 43 32
def oCopies (c : QCmd) : Nat := bits (c.w 3) 48 44
def oCall (c : QCmd) : Nat := bits (c.w 4) 31 0
def oDepth (c : QCmd) : Depth := match bits (c.w 1) 41 40 with | 0 => .hot | 1 => .warm | _ => .cold

/-- R305: the service class of an operation. -/
def oClass : Nat → SClass
  | 1 | 6 | 7 => .revival | 4 | 5 => .parkMove | 9 => .prompt | _ => .generation

/-- R8, R304, R305, R320: a reserved encoding or a misaligned address. -/
def orbBad (c : QCmd) : Bool :=
  let op := oOp c
  let tok := op == 2 || op == 3
  op == 0 || decide (9 < op) || bits (c.w 0) 63 40 != 0 || bits (c.w 1) 63 50 != 0 || bits (c.w 3) 63 49 != 0
  || bits (c.w 4) 63 32 != 0 || bits (c.w 7) 63 32 != 0
  || (bitOf (c.w 0) 7 && op != 9) || (oInline c && !tok)
  || ((op == 4 || op == 5) && bits (c.w 1) 41 40 == 3)
  || (op != 6 && oGroup c != 0) || (op != 4 && op != 5 && bits (c.w 1) 44 40 != 0) || (op != 4 && bitOf (c.w 1) 45)
  || (op != 1 && bits (c.w 1) 49 46 != 0) || (!tok && op != 9 && c.w 2 != 0) || (op != 4 && bits (c.w 3) 43 0 != 0)
  || (op != 6 && oCopies c != 0) || decide (16 < oCopies c) || (op != 4 && op != 3 && c.w 4 != 0)
  || (!tok && op != 6 && op != 8 && op != 9 && c.w 5 != 0)
  || (op != 6 && op != 1 && op != 3 && op != 4 && c.w 6 != 0) || (op != 6 && c.w 7 != 0)
  || (op == 2 && oCount c == 0) || (tok && decide ((if oInline c then 1024 else 65536) < oCount c))
  || (oInline c && c.words.length - 8 != ceilDiv (oCount c) 2)
  || (tok && !oInline c && c.w 5 % 4 != 0) || (op == 8 && c.w 5 % 128 != 0) || (op == 6 && c.w 6 % 4 != 0)

/-- R307: the words of a completion, in its data; `h` is the handle. -/
def orbCpl (d : Sess) (h : Nat) (ready : Bool) (c : QCmd) (k : Cpl) : Cpl :=
  { k with data := [pack [(4, k.status.code), (4, match k.reason with | some r => r.code | none => 0), (1, b2n ready), (7, 0), (16, bits (c.w 0) 39 24), (32, h)],
                    pack [(32, d.logLen), (32, d.kvLen)], (if k.status = .retry then k.hint else k.value), d.logLen - d.kvLen].flatMap (toLE 8) }

/-- What a refusal is counted as (R343). -/
def countOrb (n : Nat) (k : Cpl) (s : State) : State :=
  match k.reason with
  | some .capacity => modOStat n (fun x => { x with capacity := sat 16 x.capacity }) s
  | some .state => modOStat n (fun x => { x with state := sat 16 x.state }) s
  | _ => s

/-- A command completes with nothing changed. -/
def orbReply (c : QCmd) (num : Option Nat) (k : Cpl) (s : State) : State :=
  let d := match num with | some n => sess s n | none => {}
  finishCmd c (oObj c) (orbCpl d (match num with | some n => handleOf d n | none => oHandle c) false c k) (countOrb c.part k s)

/-- R33, R301: a command that changed a descriptor completes once the partner holds the change. CLOSE answers with the handle
it closed. -/
def orbFinish (n : Nat) (c : QCmd) (ready : Bool) (k : Cpl) (s : State) : State :=
  let d := sess s n
  let k := orbCpl d (if d.st = .free then oHandle c else handleOf d n) ready c k
  let id := s.orb.nextId
  let s := modOrb (fun o => { o with nextId := id + 1, finals := if hasPartner s then o.finals ++ [(id, c, k)] else o.finals }) (countOrb c.part k s)
  mirrorThen (.sess n d none) (.orbit id) (finishCmd c (oObj c) k) s

/-- A change of a descriptor that no command waits for. -/
def orbMirror (n : Nat) (s : State) : State := mirrorOnly (.sess n (sess s n) none) s

/-- R33: the partner holds a change, and the command that made it completes. -/
def orbAcked (id : Nat) (s : State) : State :=
  match s.orb.finals.find? (·.1 == id) with
  | some (_, c, k) => finishCmd c (oObj c) k (modOrb (fun o => { o with finals := o.finals.filter (·.1 != id) }) s)
  | none => s

/-! ### The KV segment, slots and pages (R293 to R295, R319) -/

/-- A descriptor of a segment of Orbit's context (R303). -/
def orbSeg (s : State) (p seg : Nat) : Option (List Nat) :=
  (findCtx s p 0 (orbPart s p).asid).map fun c => (s.loc.ctxs.get c).segs.getD seg [0, 0, 0, 0]

/-- The slots that the partition's sessions hold in a segment. -/
def slotsHeld (s : State) (p seg : Nat) : List Nat :=
  s.orb.sess.filterMap fun e => if e.2.part = p && e.2.st != .free && e.2.seg = seg then e.2.slot else none

/-- The slots of a segment. -/
def slotCount (w : List Nat) : Nat := (segLimit w + 1) / (max 1 (segSlotPages w) * pageBytes)

/-- R294: the lowest free slot. -/
def freeSlot (s : State) (p seg : Nat) : Option Nat :=
  match orbSeg s p seg with
  | none => none
  | some w => let used := slotsHeld s p seg; firstFree used (slotCount w) (used.length + 1) 0

/-- The pool pages that back the partition's sessions. -/
def backing (s : State) (p : Nat) : List Nat := s.orb.sess.flatMap fun e => if e.2.part = p then e.2.pages else []

/-- R295: a free backing page homed on a role's switch: the lowest. -/
def freeBacking (s : State) (p : Nat) (roleB : Bool) : Option Nat :=
  let used := backing s p
  ((orbPart s p).spans.flatMap fun r => (rangeFrom r.1 (min r.2 (2 * used.length + 4))) ).find? fun g =>
    !used.contains g && (!hasPartner s || (bitOf g 0 != bitOf g 9) == roleB)

/-- The address of the L1 entry of a segment offset, if the tables above it are present. -/
def leafSlot (s : State) (off : Nat) : (level table : Nat) → Option Nat
  | 0, _ => none
  | level + 1, table =>
    let a := table + 8 * tableIndex (level + 1) off
    if level = 0 then some a
    else
      let e := memWord s.mem a
      if entV e && !entLeaf e && !readPoisoned s a 8 then leafSlot s off level (entAddr e) else none

/-- R97: a leaf that maps a pool page with R and W. -/
def leafEntry (pg : Nat) : Nat := 0xF + pg * pageBytes

/-- R295: Orbit writes a leaf of a KV arena; a cleared one is 0. -/
def putLeaf (w : List Nat) (p : Nat) (off e : Nat) (s : State) : State :=
  match leafSlot s off (rootLevel w) (segBase w) with
  | none => s
  | some a =>
    let s := (foldWrite p { engine := true, num := 0 } (segCompress w) false a (toLE 8 e) s).1
    modLoc (fun l => { l with kvLeaves := l.kvLeaves.set a e }) s

/-- The offset of page `i` of a slot. -/
def slotOff (w : List Nat) (slot i : Nat) : Nat := (slot * segSlotPages w + i) * pageBytes

/-- R295, R111: translations of a segment's page are discarded in every context of the partition that holds a segment with
the same ROOT_ADDR, and endpoints that may hold them are told. -/
def dropLeaf (w : List Nat) (p off : Nat) (s : State) : State :=
  let r := partRec s p
  let hit := (rangeFrom r.ctxBase r.ctxCount).flatMap fun c =>
    (((s.loc.ctxs.get c).segs.zipIdx).filter fun g => segBase g.1 == segBase w && segType g.1 != 0).map fun g => (c, g.2)
  let s := tlbDrop (fun e => hit.contains (e.ctx, e.seg) && e.page == off / pageBytes) s
  hit.foldl (fun s cg => (s.loc.cached.filter (·.1 == cg.1)).foldl (fun s e => send .xlInv e.2 [cg.1, cg.2, off / pageBytes, 1] s) s) s

/-- R317, R310: the session's leaves are cleared, its pages discarded with UNPIN, and its slot released. -/
def freePages (n : Nat) (s : State) : State :=
  let d := sess s n
  match orbSeg s d.part d.seg, d.slot with
  | some w, some sl =>
    let s := (d.pages.zipIdx).foldl (fun s (g, i) =>
      let s := dropLeaf w d.part (slotOff w sl i) (putLeaf w d.part (slotOff w sl i) 0 s)
      let s := zeroPage g (abandonMigr g s)
      changePage g {} s) s
    setSess n { d with pages := [], slot := none } s
  | _, _ => setSess n { d with pages := [], slot := none } s

/-- R295, R319: pages are backed until the one that holds the session's next token is; none where a page is wanted and no
backing page is free. -/
def backTo (n : Nat) : (fuel : Nat) → State → State × Bool
  | 0, s => (s, true)
  | fuel + 1, s =>
    let d := sess s n
    match orbSeg s d.part d.seg, d.slot with
    | some w, some sl =>
      if d.pages.length * max 1 (segTpp w) ≤ d.logLen then
        let b := match d.group.bind (orbGroup s) with | some g => g.roleB | none => s.cmp.roleB
        match freeBacking s d.part b with
        | none => (s, false)
        | some g =>
          let s := changePage g { page s g with hint := .preferPrism } s
          let s := putLeaf w d.part (slotOff w sl d.pages.length) (leafEntry g) s
          backTo n fuel (setSess n { d with pages := d.pages ++ [g] } s)
      else (s, true)
    | _, _ => (s, true)

/-- R319: the pages the log asks for are backed as far as backing pages last; whether they did. -/
def backSome (n : Nat) (s : State) : State × Bool :=
  let d := sess s n
  match orbSeg s d.part d.seg with
  | some w => backTo n (d.logLen / max 1 (segTpp w) + 1 - d.pages.length) s
  | none => (s, true)

/-- R319: every page the log asks for is backed, or none is. -/
def backLog (n : Nat) (s : State) : Option State :=
  match backSome n s with
  | (s, true) => some s
  | (_, false) => none

/-! ### The log (R296 to R299) -/

/-- R296: the log segment's descriptor, where it meets the conditions. -/
def logSeg (s : State) (p : Nat) : Option (List Nat) :=
  match orbSeg s p (orbPart s p).logSeg with
  | none => none
  | some w =>
    if segType w = 2 && segR w && segW w && !segCoherent w && !segCompress w && segBase w % 4194304 == 0
        && decide (segBase w < 2 ^ 52) && (segLimit w + 1) % 4194304 == 0 then some w else none

def heapChunks (w : List Nat) : Nat := (segLimit w + 1) / 4194304 * 512

/-- The heap offset of a copy of chunk `i`. -/
def chunkOff (i copy : Nat) : Nat := i / 512 * 4194304 + 4096 * (i % 512) + copy * 2097152

/-- The chunks that the partition's sessions hold. -/
def chunksHeld (s : State) (p : Nat) : List Nat :=
  s.orb.sess.flatMap fun e => if e.2.part = p then e.2.chunks ++ e.2.recChunks else []

/-- A free chunk of the heap: the lowest. -/
def freeChunk (s : State) (p : Nat) : Option Nat :=
  match logSeg s p with
  | none => none
  | some w => let used := chunksHeld s p; firstFree used (heapChunks w) (used.length + 1) 0

/-- The virtual address of a heap offset. -/
def heapVa (s : State) (p off : Nat) : Nat := (orbPart s p).logSeg * 2 ^ 60 + off

def heapRead (p i copy off n : Nat) (s : State) : State × Cpl :=
  engineReadAs 116 p (orbPart s p).asid (heapVa s p (chunkOff i copy + off)) n [] s

/-- R29, R313: bytes are written to both copies of a chunk. -/
def heapWrite (p i off : Nat) (d : List Byte) (s : State) : State × Cpl :=
  let (s, a) := engineWriteAs 116 p (orbPart s p).asid (heapVa s p (chunkOff i 0 + off)) d false s
  let (s, b) := engineWriteAs 116 p (orbPart s p).asid (heapVa s p (chunkOff i 1 + off)) d false s
  (s, worse a b)

/-- R299: the copy of a chunk that this switch reads first. -/
def ownCopy (s : State) (p i : Nat) : Nat :=
  match logSeg s p with
  | some w => if homeLocal s ((segBase w + chunkOff i 0) / pageBytes) then 0 else 1
  | none => 0

/-- R299: bytes of a chunk, healing a copy that reads POISON. -/
def chunkRead (p i off n : Nat) (s : State) : State × Cpl :=
  let c := ownCopy s p i
  let (s1, k) := heapRead p i c off n s
  if k.status != .poison then (s1, k)
  else
    let (s2, k2) := heapRead p i (1 - c) 0 4096 s1
    if k2.status = .poison then (report .orbLogLost .orbit (some p) [i] s2, cPoison)
    else if k2.status != .ok then (s2, k2)
    else
      let s3 := (engineWriteAs 116 p (orbPart s2 p).asid (heapVa s2 p (chunkOff i c)) k2.data false s2).1
      (modOrb (fun o => { o with logHeals := sat 16 o.logHeals }) s3, cData ((k2.data.drop off).take n))

/-- The pieces of entries [pos, pos + n) by chunk of `per` entries: (chunk's place, first entry in it, entries). -/
def chunkPieces (per : Nat) : (fuel pos n : Nat) → List (Nat × Nat × Nat)
  | 0, _, _ => []
  | fuel + 1, pos, n =>
    if n = 0 then []
    else
      let k := min n (per - pos % per)
      (pos / per, pos % per, k) :: chunkPieces per fuel (pos + k) (n - k)

/-- Entries of `size` bytes read from a chunk list. -/
def listRead (p : Nat) (cs : List Nat) (per size pos n : Nat) (s : State) : State × Cpl :=
  (chunkPieces per (n / per + 2) pos n).foldl (fun (s, k) (ci, e, m) =>
    if k.status != .ok then (s, k)
    else
      let (s, r) := chunkRead p (cs.getD ci 0) (e * size) (m * size) s
      (s, if r.status = .ok then cData (k.data ++ r.data) else r)) (s, cOk)

def logTokens (n pos cnt : Nat) (s : State) : State × Cpl := listRead (sess s n).part (sess s n).chunks 1023 4 pos cnt s
def logRecords (n pos cnt : Nat) (s : State) : State × Cpl := listRead (sess s n).part (sess s n).recChunks 127 32 pos cnt s

/-- R297: chunks are added to a list until it has `want`; each is linked from the one before. `tail` is where a chunk keeps
the next index, whose 4 or 32 bytes end it. None where the heap has no free chunk. -/
def growList (n : Nat) (rec : Bool) (want : Nat) : (fuel : Nat) → State → Option (State × Cpl)
  | 0, s => some (s, cOk)
  | fuel + 1, s =>
    let d := sess s n
    let cs := if rec then d.recChunks else d.chunks
    let at_ := if rec then 4064 else 4092
    let len := if rec then 32 else 4
    if want ≤ cs.length then some (s, cOk)
    else match freeChunk s d.part with
    | none => none
    | some c =>
      let (s, a) := heapWrite d.part c at_ (toLE len 0xFFFFFFFF) s
      let (s, b) := match cs.getLast? with
        | some l => heapWrite d.part l at_ (toLE len c) s
        | none => (s, cOk)
      let s := setSess n (if rec then { d with recChunks := cs ++ [c] } else { d with chunks := cs ++ [c] }) s
      match growList n rec want fuel s with
      | some (s, k) => some (s, worse (worse a b) k)
      | none => none

/-- Entries are written at the end of a chunk list that is long enough. -/
def listWrite (p : Nat) (cs : List Nat) (per size pos n : Nat) (d : List Byte) (s : State) : State × Cpl :=
  let (s, k, _) := (chunkPieces per (n / per + 2) pos n).foldl (fun (s, k, d) (ci, e, m) =>
    let (s, r) := heapWrite p (cs.getD ci 0) (e * size) (d.take (m * size)) s
    (s, worse k r, d.drop (m * size))) (s, cOk, d)
  (s, k)

/-- R297, R311: tokens join the end of the log, where they could be written. -/
def putTokens (n cnt : Nat) (d : List Byte) (s : State) : Option (State × Cpl) :=
  let x := sess s n
  match growList n false (ceilDiv (x.logLen + cnt) 1023) (ceilDiv cnt 1023 + 1) s with
  | none => none
  | some (s, a) =>
    let x := sess s n
    let (s, b) := listWrite x.part x.chunks 1023 4 x.logLen cnt d s
    some (if (worse a b).status = .ok then setSess n { x with logLen := x.logLen + cnt } s else s, worse a b)

/-- R298: a record joins the list, where it could be written. -/
def putRecord (n kind call pos len user : Nat) (s : State) : Option (State × Cpl) :=
  let x := sess s n
  match growList n true (x.recCount / 127 + 1) 1 s with
  | none => none
  | some (s, a) =>
    let x := sess s n
    let d := [pack [(32, kind), (32, call)], pack [(32, pos), (32, len)], s.ft, user].flatMap (toLE 8)
    let (s, b) := listWrite x.part x.recChunks 127 32 x.recCount 1 d s
    some (if (worse a b).status = .ok then setSess n { x with recCount := x.recCount + 1 } s else s, worse a b)

/-- R312, R314: the position and length of the RESULT record of a CALL_ID, if the list has one. -/
def findResult (n call : Nat) (s : State) : State × Cpl × Option (Nat × Nat) :=
  let (s, k) := logRecords n 0 (sess s n).recCount s
  let rs := (List.range (sess s n).recCount).filterMap fun i =>
    let r := k.data.drop (32 * i)
    if ofLE (r.take 4) % 4 = 1 && ofLE ((r.drop 4).take 4) = call then some (ofLE ((r.drop 8).take 4), ofLE ((r.drop 12).take 4)) else none
  (s, { k with data := [] }, rs.head?)

/-! ### Appending (R311 to R313, R319) -/

/-- The most tokens a session's log may have. -/
def logMax (s : State) (d : Sess) : Nat :=
  match orbSeg s d.part d.seg with
  | some w => segTpp w * segSlotPages w - 1
  | none => 0

/-- R311, R319: tokens at a position. Answers OK, or why nothing changed; a memory outcome other than OK ends the command. -/
def appendAt (n pos cnt : Nat) (d : List Byte) (s : State) : State × Cpl :=
  let x := sess s n
  let p := if pos = 0xFFFFFFFF then x.logLen else pos
  if x.logLen < p then (s, cRef .state)
  else
    let same := min cnt (x.logLen - p)
    let (s, r) := if same = 0 then (s, cOk) else logTokens n p same s
    if r.status != .ok then (s, { r with data := [] })
    else if r.data != d.take (4 * same) then
      (modOStat x.part (fun y => { y with diverge := sat 16 y.diverge }) (report .orbLogDiverge .orbit (some x.part) [n] s), cRef .state)
    else if cnt = same then (s, cOk)
    else if logMax s x < p + cnt then (s, cRef .capacity)
    else match putTokens n (cnt - same) (d.drop (4 * same)) s with
    | none => (s, cRef .capacity)
    | some (s', k) =>
      if k.status != .ok then (s', k)
      else if attached x || x.st = .reviving then
        match backLog n s' with
        | some s' => (s', cOk)
        | none => (s, cRef .capacity)
      else (s', cOk)

/-- The tokens of a command. -/
def cmdTokens (c : QCmd) (ext : List Byte) (s : State) : State × Cpl :=
  if oCount c = 0 then (s, cOk)
  else if oInline c then (s, cData (((c.words.drop 8).flatMap (toLE 8)).take (4 * oCount c)))
  else engineReadAs 116 c.part (orbPart s c.part).asid (c.w 5) (4 * oCount c) ext s

/-! ### The session unit (R303, R308, R323 to R326) -/

/-- R321: the session a queued command names. -/
def cmdSess (c : QCmd) : Option Nat := if oOp c = 1 then none else some (bits (oHandle c) 23 0)

/-- R328: revivals in progress. -/
def reviving (s : State) : Nat := (s.orb.jobs.filter (·.kind == .revive)).length

/-- R308, R328: the commands of a queue that can start: none behind an earlier one on the same session. -/
def startable (s : State) (seen : List Nat) : List QCmd → List QCmd
  | [] => []
  | c :: cs =>
    let blocked := match cmdSess c with | some n => seen.contains n | none => false
    let seen := match cmdSess c with | some n => n :: seen | none => seen
    if blocked || c.held || scrubFenced s c.part || (oOp c == 6 && decide (64 ≤ reviving s)) then startable s seen cs
    else c :: startable s seen cs

def orbReady (s : State) (q : Nat) : List QCmd := startable s [] (queueOf s .orbit q)

/-- R324: what a command costs at the session unit. -/
def orbCost (s : State) (c : QCmd) : Nat :=
  65536 + (if oOp c = 2 || oOp c = 3 then 4 * oCount c
    else if oOp c = 9 then (if bitOf (c.w 0) 7 then 32 else 4) * oCount c
    else if oOp c = 6 then
      let d := sess s (bits (oHandle c) 23 0)
      match orbSeg s d.part d.seg with
      | some w => d.win * segLayers w * segRec w * 16
      | none => 0
    else 0)

/-- The class `k` commands that can start, by queue: (queue, cost of the first, quantum). -/
def orbNodes (s : State) (k : Nat) : List (Nat × Nat × Nat) :=
  (List.range 16).filterMap fun q =>
    ((orbReady s q).find? fun c => c.cls.code == k).map fun c => (q, orbCost s c, (orbPart s q).quantumKib * 1024)

/-- R323 to R325: the (queue, class) that the session unit serves next, and the arbiter after its choice. -/
def orbTurn (s : State) : Option (Nat × Nat × Option (Nat × Nat × Nat) × Arb) :=
  let a := arbOf s (arbKey .orbit 0)
  let has := fun q k => (orbReady s q).any fun c => c.cls.code == k
  match drrPick a (orbNodes s 0) with
  | some (q, a) => some (q, 0, none, a)
  | none =>
    match promoNext a has with
    | some p => some (p.1, p.2.1, some p, a)
    | none => [1, 2, 3, 4].findSome? fun k => (drrPick a (orbNodes s k)).map fun (q, a) => (q, k, none, a)

/-- The command of operation `op` and queue `q`, where it is the one the session unit serves next. -/
def orbTake (op q : Nat) (s : State) : Option (QCmd × State) :=
  if fenced s .orbit then none
  else match orbTurn s with
  | none => none
  | some (q', k, promo, a) =>
    if q' != q then none
    else match (orbReady s q).find? fun c => c.cls.code == k with
    | none => none
    | some c =>
      if oOp c != op then none
      else
        let cost := orbCost s c
        let s' := setQueue .orbit q ((queueOf s .orbit q).erase c) (modOrb (fun o => { o with tries := o.tries.filter fun e => e.1 != q || e.2.1 != c }) s)
        let empty := !((orbReady s' q).any fun x => x.cls.code == k)
        let a := match promo with
          | some p => promoServe p cost empty a
          | none => drrServe q cost empty a
        let a := { a with since := if empty then a.since.del (q * 8 + k) else a.since.put (q * 8 + k) s.ft }
        let s' := monSample (0xE * 4096) c.part (s.ft - c.arrived) (queueOf s .orbit q).length (srcOf c) s'
        some (c, setArb (arbKey .orbit 0) a s')

/-- R13 orders 1 to 4, R322: what an arriving command meets. -/
def orbAdmit (s : State) (q : Nat) (c : QCmd) : Option Cpl :=
  let grp := if oOp c = 6 then (orbGroup s (oGroup c)).any fun g => g.part != c.part else false
  firstCheck [
    (q != c.part || (oObj c).any (fun o => objForeign s c.part o) || grp, cNP),
    (orbBad c || (oOp c == 6 && (orbGroup s (oGroup c)).isNone), cBad)] |>.or (fenceCpl s .orbit c.part)

/-- R567, R648: bytes that Orbit copies. -/
def orbUnits (s : State) (c : QCmd) : List (Nat × Nat) := [(9, orbCost s c - 65536)]

/-- R303, R326: a command enters queue `q`. The estimate of R326 is a free value where work is ahead of it. -/
def orbSubmit (q : Nat) (c : QCmd) (s : State) : State × Option Cpl :=
  match orbAdmit s q c with
  | some k => (s, some k)
  | none =>
    let c := { c with op := oOp c, cls := oClass (oOp c), asid := (orbPart s c.part).asid }
    let c := { c with cost := if oOp c = 4 then 0 else preCost s 0xE (oOp c) (orbUnits s c) }
    let ahead := (List.range 16).any fun i => !(queueOf s .orbit i).isEmpty
    let est := if ahead then freeNat 64 s else 0
    let s := if ahead then useFresh s else s
    let late := decide (s.orb.deferNs < est)
    let prompt := (List.range 16).any fun i => (queueOf s .orbit i).any (·.cls == .prompt)
    let reasons := (if 256 ≤ (queueOf s .orbit q).length then [Reason.queueFull] else []) ++
      (if late && bitOf (c.w 0) 5 then [if prompt then .preempted else .queueFull] else []) ++
      (if (oObj c).any (fun o => (obj s o).mode != .counter) then [.state] else [])
    let (s, r) := if oOp c = 4 then
        match lowestReason reasons with
        | some r => (s, some (cRef r))
        | none => (setQueue .orbit q (queueOf s .orbit q ++ [{ c with id := q, arrived := s.ft }]) s, none)
      else enqueueUnless reasons .orbit q c s
    match r with
    | some k => (countOrb c.part k s, some k)
    | none =>
        let a := arbOf s (arbKey .orbit 0)
        let key := q * 8 + c.cls.code
        let s := if (a.since.any fun e => e.1 == key) then s else setArb (arbKey .orbit 0) { a with since := a.since.put key s.ft } s
        if late then
          let k : Cpl := { status := .deferred, value := s.ft + est }
          let s := modOStat c.part (fun x => { x with deferred := sat 16 x.deferred }) s
          match c.req with
          | .port .. => (reply c.req k s, none)
          | _ => (s, none)
        else (s, none)

/-! ### One command at a time -/

/-- R13, R290, R321, R329: the session of a command, or its answer: a stale or foreign handle; a command the rules exclude
(`bad`); the pair link down; and a session that the partner owns, which it is forwarded to. -/
def withSess (op q : Nat) (changes : Bool) (bad : Nat → QCmd → State → Bool) (s : State) (k : Nat → QCmd → State → State) : State :=
  match orbTake op q s with
  | none => s
  | some (c, s) =>
    match sessNum s c.part (oHandle c) with
    | none => orbReply c none cNP s
    | some n =>
      if bad n c s then orbReply c (some n) cBad s
      else if changes && (linkDown s || (s.pair.st == .takeover && !sessOwn s n)) then orbReply c (some n) (cRetry 10000) s
      else if !sessOwn s n && hasPartner s && !linkDown s then
        send .forward 0 (0xE :: c.words) (modOrb (fun o => { o with fwd := o.fwd ++ [(n, c, s.ft)] }) s)
      else k n c s

/-- An access that a command makes was answered RETRY: the command stands where it stood, and the access is presented
again; what it did is not done (R322). -/
def orbAgain (q : Nat) (c : QCmd) (s : State) : State :=
  if s.orb.tries.any (fun e => e.1 == q && e.2.1 == c) then s else modOrb (fun o => { o with tries := o.tries ++ [(q, c, s.ft)] }) s

/-- A command whose memory accesses are all made in one step: RETRY leaves the state before it. -/
def retrying (q : Nat) (c : QCmd) (before : State) (r : State × Cpl) (k : State → Cpl → State) : State :=
  if r.2.status = .retry then orbAgain q c before else k r.1 r.2

/-- R322: a command that has been answered RETRY for 20 µs completes TIMEOUT. -/
def orbTimeout (s : State) : State :=
  (s.orb.tries.filter fun e => decide (e.2.2 + 20000 ≤ s.ft)).foldl (fun s (q, c, t) =>
    let s := modOrb (fun o => { o with tries := o.tries.erase (q, c, t) }) s
    if (queueOf s .orbit q).contains c then
      orbReply c (sessNum s c.part (oHandle c)) cTimeout (setQueue .orbit q ((queueOf s .orbit q).erase c) s)
    else s) s

/-- R291: the number OPEN takes, and the pool after it. -/
def takeNumber (s : State) (p : Nat) : Option (Nat × NumPool) :=
  let o := orbPart s p
  let x := s.orb.pools.get p
  let half := if s.cmp.roleB then 8388608 else 0
  if x.next < o.count then some (half + o.base + x.next, { x with next := x.next + 1 })
  else match x.freed with
  | n :: rest => some (n, { x with freed := rest })
  | [] => none

/-- R309. -/
def execOrbOpen (q : Nat) (s : State) : Res :=
  .next (match orbTake 1 q s with
  | none => s
  | some (c, s) =>
    let seg := bits (c.w 1) 49 46
    if (orbSeg s c.part seg).all fun w => segType w != 3 then orbReply c none cBad s
    else if linkDown s then orbReply c none (cRetry 10000) s
    else match takeNumber s c.part with
      | none => orbReply c none (cRef .capacity) s
      | some (n, x) =>
        let d : Sess := { st := .parked, depth := .cold, part := c.part, gen := (sess s n).gen, seg := seg, openFt := s.ft, changeFt := s.ft, user := c.w 6 }
        let s := modOrb (fun o => { o with pools := o.pools.set c.part x }) (setSess n d s)
        orbFinish n c false cOk s)

/-- R311, R313. -/
def execOrbAppend (q : Nat) (ext : List Byte) (s : State) : Res :=
  .next (withSess 2 q true (fun _ c s => (logSeg s c.part).isNone) s fun n c s1 =>
    if (sess s1 n).st = .closing then orbReply c (some n) (cRef .state) s1
    else if (logSeg s1 c.part).isNone then orbReply c (some n) cBad s1
    else
      let (s2, t) := cmdTokens c ext s1
      if t.status = .retry then orbAgain q c s
      else if t.status != .ok then orbReply c (some n) { t with data := [] } s2
      else retrying q c s (appendAt n (oPos c) (oCount c) t.data s2) fun s k =>
        if k.status = .ok then orbFinish n c false cOk s else orbReply c (some n) k s)

/-- R312: the tokens, the record and RESULT_SEEN. -/
def resultAt (n : Nat) (c : QCmd) (d : List Byte) (s : State) : State × Cpl :=
  let (s, k, old) := findResult n (oCall c) s
  if k.status != .ok then (s, k)
  else match old with
  | some (pos, len) =>
    let (s, r) := if len = 0 then (s, cOk) else logTokens n pos len s
    if r.status != .ok then (s, { r with data := [] })
    else if len = oCount c && r.data == d then (s, cOk) else (s, cRef .state)
  | none =>
    let at_ := if oPos c = 0xFFFFFFFF then (sess s n).logLen else oPos c
    let (s', k) := appendAt n (oPos c) (oCount c) d s
    if k.status != .ok then (s', k)
    else match putRecord n 1 (oCall c) at_ (oCount c) (c.w 6) s' with
    | none => (s, cRef .capacity)
    | some (s', k) =>
      let x := sess s' n
      (if x.st = .parking && x.callId = oCall c then setSess n { x with resultSeen := true } s' else s', k)

/-- R312, R313. -/
def execToolResult (q : Nat) (ext : List Byte) (s : State) : Res :=
  .next (withSess 3 q true (fun _ c s => (logSeg s c.part).isNone) s fun n c s1 =>
    if (sess s1 n).st = .closing then orbReply c (some n) (cRef .state) s1
    else if (logSeg s1 c.part).isNone then orbReply c (some n) cBad s1
    else
      let (s2, t) := cmdTokens c ext s1
      if t.status = .retry then orbAgain q c s
      else if t.status != .ok then orbReply c (some n) { t with data := [] } s2
      else retrying q c s (resultAt n c t.data s2) fun s k =>
        if k.status = .ok then orbFinish n c false cOk s else orbReply c (some n) k s)

/-- R314, R340: the partition's sessions at HOT that are not attached. -/
def hotCount (s : State) (p : Nat) : Nat :=
  (s.orb.sess.filter fun e => e.2.part == p && !attached e.2 && e.2.st != .free &&
    (if e.2.st = .moving then e.2.target == .hot else e.2.depth == .hot)).length

def jobOf (s : State) (n : Nat) : Option OrbJob := s.orb.jobs.find? (·.num == n)
def setOJob (j : OrbJob) (s : State) : State :=
  let put := fun (x : OrbJob) => if x.num = j.num then j else x
  modOrb (fun o => { o with jobs := o.jobs.map put }) s
def dropOJob (n : Nat) (s : State) : State := modOrb (fun o => { o with jobs := o.jobs.filter (·.num != n) }) s
def addOJob (j : OrbJob) (s : State) : State := modOrb (fun o => { o with jobs := o.jobs ++ [j] }) s

/-- R321: two commands are identical but for who waits for them. -/
def sameCmd (a b : QCmd) : Bool :=
  let key := fun (c : QCmd) => (bits (c.w 0) 3 0, bits (c.w 0) 7 5, c.words.drop 1, c.part)
  key a == key b

/-- The command of a job and those that joined it complete. -/
def orbEndAll (j : OrbJob) (ready : Bool) (k : Cpl) (s : State) : State :=
  (j.cmd :: j.joined).foldl (fun s c => orbFinish j.num c ready k s) s

/-- R314. -/
def execPark (q : Nat) (s : State) : Res :=
  let bad := fun (n : Nat) (c : QCmd) (s : State) =>
    decide (oKvLen c < oWin c) || decide ((sess s n).logLen < oKvLen c) || (bitOf (c.w 1) 45 && (logSeg s c.part).isNone)
  .next (withSess 4 q true bad s fun n c s1 =>
    let d := sess s1 n
    let join : Option OrbJob := match jobOf s1 n with
      | some j => if d.st = .parking && j.kind = .park && sameCmd j.cmd c then some j else none
      | none => none
    match join with
    | some j => setOJob { j with joined := j.joined ++ [c] } s1
    | none =>
      if oDepth c = .hot && decide ((orbPart s1 c.part).hotMax ≤ hotCount s1 c.part) then orbReply c (some n) (cRef .quota) s1
      else if d.st != .attached then orbReply c (some n) (cRef .state) s1
      else
        let (s2, k, old) := findResult n (oCall c) s1
        if k.status = .retry then orbAgain q c s
        else if k.status != .ok then orbReply c (some n) k s2
        else
          let d := { d with kvLen := oKvLen c, win := oWin c, tray := oTray c, demote := oDemote c, pin := oPin c }
          let s3 := setSess n d s2
          let r := if bitOf (c.w 1) 45 then putRecord n 0 (oCall c) d.logLen 0 (c.w 6) s3 else some (s3, cOk)
          match r with
          | none => orbReply c (some n) (cRef .capacity) s2
          | some (s4, w) =>
            if w.status = .retry then orbAgain q c s
            else if w.status != .ok then orbReply c (some n) w s4
            else if old.isSome then orbFinish n c true cOk s4
            else
              let d := toState .parking s4 (sess s4 n)
              let s5 := setSess n { d with parkStep := angleStep (dom s4 c.part).angle, callId := oCall c, resultSeen := false, target := oDepth c } s4
              orbMirror n (addOJob { num := n, kind := .park, cmd := c } s5))

/-! ### Moves (R293, R316, R317, R325, R327) -/

/-- R293: the hint of a depth. -/
def depthHint (d : Sess) (t : Depth) : Nat :=
  match t with
  | .hot => if d.pin then 2 else 1
  | .warm => if d.tray then 4 else 3
  | .cold => 0

/-- A Plane command of Orbit's, in queue 0 of Plane, over pages `first` to `first + cnt - 1` of the session. Answers none where the
energy epoch has no budget. -/
def orbPlane (n op first cnt hint : Nat) (deadline : Option Nat) (cls : SClass) (tell : Bool) (s : State) : Option State :=
  let d := sess s n
  let w := (orbSeg s d.part d.seg).getD [0, 0, 0, 0]
  let asid := (orbPart s d.part).asid
  let words := [pack [(4, op), (3, cls.code), (1, 0), (12, asid), (16, 0), (3, hint)],
    d.seg * 2 ^ 60 + slotOff w (d.slot.getD 0) first, cnt, (match deadline with | some a => a + 2 ^ 48 | none => 0), 0, 0, 0, 0]
  let c : QCmd := { op := op, part := d.part, asid := asid, words := words, cls := cls, req := if tell then .block 0xE n else .none }
  let c := { c with cost := preCost s 9 op (plnUnits s c) }
  match enqueue .plane 0 c s with
  | (s, none) => some s
  | (_, some _) => none

/-- R316, R325: a move to HOT or WARM issues its HINT; where there is no budget it waits, counted once. -/
def issueMove (j : OrbJob) (s : State) : State :=
  let d := sess s j.num
  if j.issued || d.target = .cold then s
  else if d.pages.isEmpty then setOJob { j with issued := true, ready := some cOk } s
  else match orbPlane j.num 1 0 d.pages.length (depthHint d d.target) none (if j.back then .background else .parkMove) true s with
  | some s => setOJob { j with issued := true } s
  | none =>
    if j.waited then s
    else setOJob { j with waited := true } (modOStat d.part (fun x => { x with energyWaits := sat 16 x.energyWaits }) s)

/-- A session begins to move. -/
def startMove (n : Nat) (t : Depth) (back : Bool) (c : QCmd) (s : State) : State :=
  let d := toState .moving s (sess s n)
  let s := setSess n { d with target := t } s
  let j : OrbJob := { num := n, kind := .move, cmd := c, back := back }
  orbMirror n (issueMove j (addOJob j (dropOJob n s)))

/-- R315: the detach point. -/
def execParkDetach (n : Nat) (s : State) : Res :=
  let d := sess s n
  let x := dom s d.part
  .next (if d.st != .parking || linkDown s || fenced s .orbit || !(decide (d.parkStep < x.commit) || x.st == .idle) then s
  else match jobOf s n with
  | none => s
  | some j =>
    if d.resultSeen then
      let s := dropOJob n (setSess n { toState .attached s d with resultSeen := false } s)
      orbEndAll j true cOk s
    else
      let s := modOStat d.part (fun y => { y with parks := sat 16 y.parks }) (setSess n { d with group := none } s)
      let s := startMove n (oDepth j.cmd) false {} s
      orbEndAll j false cOk s)

/-! ### Reviving (R306, R318, R319) -/

/-- The copy list a REVIVE names: (DST, REC_OFF, REC_UNITS). -/
def copyList (n : Nat) (d : List Byte) : List (Nat × Nat × Nat) :=
  (List.range n).map fun i =>
    let w := ofLE ((d.drop (16 * i + 8)).take 8)
    (ofLE ((d.drop (16 * i)).take 8), bits w 15 0, bits w 31 16)

/-- R8, R306: an entry's reserved bits are set. -/
def copyListBad (n : Nat) (d : List Byte) : Bool := (List.range n).any fun i => ofLE ((d.drop (16 * i + 12)).take 4) != 0

/-- The partition's free Prism frames. -/
def prismFree (s : State) (p : Nat) : Nat := rangeOf s p .prism - usedBy s p .prism

/-- R318 step 1: the copy list of a REVIVE. -/
def reviveList (n : Nat) (c : QCmd) (s : State) : State × Cpl :=
  if oCopies c = 0 then (s, cOk)
  else engineReadAs 116 (sess s n).part (orbPart s (sess s n).part).asid (c.w 5) (16 * oCopies c) [] s

/-- R318 steps 1 to 3: a REVIVE begins. -/
def startRevive (n : Nat) (c : QCmd) (s : State) : State :=
  let d := sess s n
  match orbSeg s d.part d.seg with
  | none => orbReply c (some n) cBad s
  | some w =>
    let (s1, l) := reviveList n c s
    let es := copyList (oCopies c) l.data
    if l.status != .ok then orbReply c (some n) { l with data := [] } s1
    else if (d.win != 0 && es.isEmpty) || copyListBad (oCopies c) l.data || es.any (fun e => decide (segRec w < e.2.1 + e.2.2) || e.1 % 16 != 0) then orbReply c (some n) cBad s1
    else
      let slot := d.slot.or (freeSlot s1 d.part d.seg)
      match slot with
      | none => orbReply c (some n) (cRef .capacity) s1
      | some sl =>
        let s2 := setSess n { toState .reviving s1 d with group := some (oGroup c), slot := some sl, held := false } s1
        match backLog n s2 with
        | none =>
          -- R301: the pages it backed stay backed
          let s3 := (backSome n s2).1
          orbFinish n c false (cRef .capacity) (setSess n { toState .parked s3 (sess s3 n) with group := none } s3)
        | some s3 =>
          let prefix_ := if d.win < d.kvLen then (d.kvLen - d.win - 1) / max 1 (segTpp w) + 1 else 0
          let cnt := min (min prefix_ (orbPart s3 d.part).pfPages) (prismFree s3 d.part)
          let dl := angleOf (angleStep (dom s3 d.part).angle + 1) 0
          let s4 := if cnt = 0 then s3 else (orbPlane n 2 0 cnt 0 (some dl) .revival false s3).getD s3
          orbMirror n (addOJob { num := n, kind := .revive, cmd := c, list := es } s4)

/-- R301, R316: a command held for a session that is PARKED begins. -/
def startHeld (n : Nat) (s : State) : State :=
  match s.orb.held.find? (·.1 == n) with
  | none => s
  | some (_, c) => startRevive n c (setSess n { sess s n with held := false } (modOrb (fun o => { o with held := o.held.filter (·.1 != n) }) s))

/-- The copy list of the command held for a session is answered RETRY: its move ends when it can be read. -/
def heldWaits (n : Nat) (s : State) : Bool :=
  (s.orb.held.filter (·.1 == n)).any fun h => (reviveList n h.2 s).2.status == .retry

/-- R318, R321. -/
def execRevive (q : Nat) (s : State) : Res :=
  .next (withSess 6 q true (fun _ _ _ => false) s fun n c s1 =>
    let d := sess s1 n
    let same := d.group == some (oGroup c)
    let hold := fun (s : State) =>
      if d.held then orbReply c (some n) (cRef .state) s
      else orbMirror n (setSess n { d with held := true } (modOrb (fun o => { o with held := o.held ++ [(n, c)] }) s))
    match d.st with
    | .parked => if (reviveList n c s1).2.status = .retry then orbAgain q c s else startRevive n c s1
    | .reviving =>
      match jobOf s1 n with
      | some j => if same && sameCmd j.cmd c then setOJob { j with joined := j.joined ++ [c] } s1 else orbReply c (some n) (cRef .state) s1
      | none => orbReply c (some n) (cRef .state) s1
    | .attached => if same then orbFinish n c false cOk s1 else orbReply c (some n) (cRef .state) s1
    | .parking =>
      if same then
        match jobOf s1 n with
        | some j => orbFinish n c false cOk (orbEndAll j false cOk (dropOJob n (setSess n (toState .attached s1 d) s1)))
        | none => s1
      else hold s1
    | .moving => hold s1
    | _ => orbReply c (some n) (cRef .state) s1)

/-- R306, R318 step 4: one entry of the copy list, over every layer and window token. -/
def copyEntry (n : Nat) (w : List Nat) (e : Nat × Nat × Nat) (s : State) (k : Cpl) : State × Cpl :=
  let d := sess s n
  let asid := (orbPart s d.part).asid
  let len := e.2.2 * 16
  ((List.range (segLayers w)).flatMap fun l => (List.range d.win).map fun t => (l, t)).foldl (fun (s, k) (l, t) =>
    match kvOffset w (d.slot.getD 0) (d.kvLen - d.win + t) l with
    | none => (s, worse k { status := .faulted })
    | some off =>
      let (s, r) := engineReadAs 116 d.part asid (d.seg * 2 ^ 60 + off + e.2.1 * 16) len [] s
      let bytes := if r.status = .ok then r.data else (List.range len).map fun i => Config.freeByte s.fresh i
      let s := if r.status = .ok then s else useFresh s
      let (s, x) := engineWriteAs 116 d.part asid (e.1 + (l * d.win + t) * len) bytes (r.status == .poison) s
      (s, worse (worse k { r with data := [] }) x)) (s, k)

/-- R318 steps 4 and 5. Answers the tokens written at PROMPT_DST. -/
def reviveWork (j : OrbJob) (s : State) : State × Cpl × Nat :=
  let n := j.num
  let d := sess s n
  let w := (orbSeg s d.part d.seg).getD [0, 0, 0, 0]
  let (s, k) := if d.win = 0 then (s, cOk) else j.list.foldl (fun (s, k) e => copyEntry n w e s k) (s, cOk)
  let cnt := min (d.logLen - d.kvLen) (bits (j.cmd.w 7) 31 0)
  if cnt = 0 then (s, k, 0)
  else
    let (s, r) := logTokens n d.kvLen cnt s
    if r.status != .ok then (s, worse k { r with data := [] }, 0)
    else
      let (s, x) := engineWriteAs 116 d.part (orbPart s d.part).asid (j.cmd.w 6) r.data false s
      (s, worse k x, cnt)

/-- R301, R318: the revival ends. -/
def endRevive (j : OrbJob) (k : Cpl) (s : State) : State :=
  let n := j.num
  let d := sess s n
  if k.status = .ok then
    let s := dropOJob n (setSess n (toState .attached s d) s)
    orbEndAll j false k (modOStat d.part (fun x => { x with revivals := sat 16 x.revivals }) s)
  else
    let s := dropOJob n (setSess n { toState .parked s d with group := none } s)
    orbEndAll j false k s

/-- R318: the copy and the tokens are done. An access answered RETRY is made again until 20 µs have passed (R322). -/
def execReviveDone (n : Nat) (s : State) : Res :=
  .next (if fenced s .orbit then s
  else match jobOf s n with
  | none => s
  | some j =>
    if j.kind != .revive then s
    else
      let (s', k, cnt) := reviveWork j s
      if k.status = .retry then
        if j.firstTry.any fun t => decide (t + 20000 ≤ s.ft) then endRevive j cTimeout s
        else setOJob { j with retryAt := some (s.ft + k.hint), firstTry := j.firstTry.or (some s.ft) } s
      else endRevive j { k with value := cnt, data := [] } s')

/-- R316, R321. -/
def execMove (q : Nat) (s : State) : Res :=
  .next (withSess 5 q true (fun _ _ _ => false) s fun n c s =>
    let d := sess s n
    let t := oDepth c
    let cost := preCost s 9 (if t = .cold then 4 else 1) [(0, d.pages.length * pageBytes)]
    if d.st = .parked && d.depth = t && (t = .cold || d.tray == oTray c) then
      orbFinish n c false cOk (setSess n { d with demote := oDemote c, pin := oPin c } s)
    else if energyAns s .parkMove cost = .refused then orbReply c (some n) (cRef .energy) (countEnergyRefusal c.part s)
    else if t = .hot && d.depth != .hot && decide ((orbPart s c.part).hotMax ≤ hotCount s c.part) then orbReply c (some n) (cRef .quota) s
    else if d.st != .parked || (d.depth = .cold && t != .cold) then orbReply c (some n) (cRef .state) s
    else startMove n t false c (setSess n { d with demote := oDemote c, pin := oPin c, tray := if t = .cold then d.tray else oTray c } s))

/-- R317: a move to COLD clears the leaves, discards the pages and releases the slot. -/
def coldGo (n : Nat) (j : OrbJob) (s : State) : State :=
  let s := freePages n s
  setOJob { j with ready := some cOk } (setSess n { sess s n with kvLen := 0, win := 0 } s)

/-- The pre-cost of a move to COLD. -/
def coldCost (s : State) (n : Nat) : Nat := preCost s 9 4 [(0, (sess s n).pages.length * pageBytes)]

/-- R317: with no reference left, a move to COLD proceeds. -/
def execColdMoveProceed (n : Nat) (s : State) : Res :=
  let d := sess s n
  .next (if d.st != .moving || d.target != .cold || d.refs != 0 || fenced s .orbit then s
  else match jobOf s n with
  | none => s
  | some j =>
    if j.ready.isSome then s
    else
      match energyTake d.part (if j.back then .background else .parkMove) (coldCost s n) s with
      | some (s, false) => coldGo n j s
      | _ =>
        if j.waited then s
        else setOJob { j with waited := true } (modOStat d.part (fun x => { x with energyWaits := sat 16 x.energyWaits }) s))

/-- R301, R316: the move is over; a held REVIVE begins. -/
def execMoveDone (n : Nat) (s : State) : Res :=
  .next (if (sess s n).st != .moving || fenced s .orbit || linkDown s then s
  else match jobOf s n with
  | none => s
  | some j =>
    let s := issueMove j s
    let j := (jobOf s n).getD j
    let hint := s.eng.done.find? fun e => e.1 == 0xE && e.2.1 == n
    match j.ready.or (hint.map (·.2.2)) with
    | none => s
    | some k =>
      if heldWaits n s then s
      else
      let d := sess s n
      let s := { s with eng := { s.eng with done := s.eng.done.filter fun e => !(e.1 == 0xE && e.2.1 == n) } }
      let s := dropOJob n (setSess n { toState .parked s d with depth := d.target } s)
      let k := if k.status = .partialDone then { status := .partialDone, value := k.value } else if k.status = .ok then cOk else { k with data := [] }
      startHeld n (if j.cmd.words.isEmpty then orbMirror n s else orbFinish n j.cmd false k s))

/-- R327: an idle session is demoted one depth. -/
def execDemotion (n : Nat) (s : State) : Res :=
  let d := sess s n
  let o := orbPart s d.part
  let idle := s.ft - d.changeFt
  let due := match d.depth with
    | .hot => o.hotIdleMs != 0 && decide (o.hotIdleMs * 1000000 ≤ idle)
    | .warm => o.warmIdleS != 0 && decide (o.warmIdleS * 1000000000 ≤ idle)
    | .cold => false
  .next (if d.st = .parked && d.demote && due && !fenced s .orbit && !linkDown s then
    startMove n (if d.depth = .hot then .warm else .cold) true {} (modOStat d.part (fun x => { x with demotions := sat 16 x.demotions }) s)
  else s)

/-! ### Closing and reading (R310, R320) -/

/-- R310: CLOSE clears the group. What was in progress or held on the session ends REFUSED, STATE. -/
def execOrbClose (q : Nat) (s : State) : Res :=
  .next (withSess 7 q true (fun _ _ _ => false) s fun n c s =>
    let d := sess s n
    if d.st = .closing then orbReply c (some n) (cRef .state) s
    else
      let old := jobOf s n
      let held := (s.orb.held.filter (·.1 == n)).map (·.2)
      let s := setSess n { toState .closing s d with group := none, held := false } s
      let s := modOrb (fun o => { o with held := o.held.filter (·.1 != n) }) (dropOJob n s)
      let ends := (match old with | some j => if j.cmd.words.isEmpty then j.joined else j.cmd :: j.joined | none => []) ++ held
      let s := ends.foldl (fun s x => orbReply x (some n) (cRef .state) s) s
      orbMirror n (addOJob { num := n, kind := .close, cmd := c } s))

/-- R291: a number joins the free list, its GEN advanced. -/
def freeSess (n : Nat) (s : State) : State :=
  let d := sess s n
  let s := setSess n { gen := (d.gen + 1) % 256 } s
  if bitOf n 23 == s.cmp.roleB then modOrb (fun o => { o with pools := o.pools.mod d.part fun x => { x with freed := x.freed ++ [n] } }) s else s

/-- R310: with no reference left, everything the session holds is freed. -/
def execCloseRelease (n : Nat) (s : State) : Res :=
  .next (if (sess s n).st != .closing || (sess s n).refs != 0 || fenced s .orbit || linkDown s then s
  else match jobOf s n with
  | none => s
  | some j => orbFinish n j.cmd false cOk (freeSess n (dropOJob n (freePages n s))))

/-- R320. -/
def execOrbDescribe (q : Nat) (s : State) : Res :=
  .next (withSess 8 q false (fun _ _ _ => false) s fun n c s1 =>
    retrying q c s (engineWriteAs 116 c.part (orbPart s1 c.part).asid (c.w 5) ((sessWords (sess s1 n)).flatMap (toLE 8)) false s1) fun s k =>
      orbReply c (some n) { k with data := [] } s)

/-- R320. -/
def execOrbLogRead (q : Nat) (s : State) : Res :=
  .next (withSess 9 q false (fun _ _ _ => false) s fun n c s1 =>
    let d := sess s1 n
    let recs := bitOf (c.w 0) 7
    let have_ := (if recs then d.recCount else d.logLen) - oPos c
    let cnt := min (oCount c) have_
    let (s2, r) := if cnt = 0 then (s1, cOk) else if recs then logRecords n (oPos c) cnt s1 else logTokens n (oPos c) cnt s1
    if r.status = .retry then orbAgain q c s
    else if r.status != .ok then orbReply c (some n) { r with data := [] } s2
    else retrying q c s (if cnt = 0 then (s2, cOk) else engineWriteAs 116 c.part (orbPart s2 c.part).asid (c.w 5) r.data false s2) fun s k =>
      orbReply c (some n) (if k.status != .ok then { k with data := [] } else if cnt < oCount c then { status := .partialDone, value := cnt } else cVal cnt) s)

/-! ### The partner, restarts, fences and scrubs (R329 to R333) -/

/-- R33, R290: the partner's update of a session; a command that was forwarded for it completes. -/
def orbUpdate (n : Nat) (d : Sess) (done : Option Cpl) (s : State) : State :=
  let s := setSess n d s
  match done, s.orb.fwd.find? (·.1 == n) with
  | some k, some x =>
    finishCmd x.2.1 (oObj x.2.1) (orbCpl d (handleOf d n) false x.2.1 k) (modOrb (fun o => { o with fwd := o.fwd.erase x }) s)
  | _, _ => s

/-- R35: forwarded commands accepted before the loss of the link complete TIMEOUT. -/
def orbForwardLost (s : State) : State :=
  let l := s.orb.fwd
  l.foldl (fun s x => orbReply x.2.1 (some x.1) cTimeout s) (modOrb (fun o => { o with fwd := [] }) s)

/-- R330: whether every backed page of a session has its data in a tray frame. -/
def allInTrays (s : State) (d : Sess) : Bool :=
  d.pages.all fun p =>
    let e := page s p
    e.st == .zero || e.frame.tier == .tray || (e.st == .promoted && !e.dirty && e.origin.any (·.tier == .tray))

/-- R330: the survivor takes over the sessions of the lost switch. -/
def orbTakeover (s : State) : State :=
  let lost := s.orb.sess.filter fun e => e.2.st != .free && !sessOwn s e.1
  lost.foldl (fun s (n, _) =>
    let d := sess s n
    let warm := (d.st == .parked || d.st == .moving) && d.depth != .cold && allInTrays s d
    let d' := { toState .parked s d with group := none, held := false, refs := 0 }
    if d.st = .closing then addOJob { num := n, kind := .close } (setSess n { d with refs := 0 } s)
    else if warm then setSess n { d' with depth := .warm, tray := true } s
    else
      let s := freePages n (setSess n { d' with depth := .cold } s)
      setSess n { sess s n with kvLen := 0, win := 0 } s) s

/-- R16, R332: Orbit's commands in progress complete when it is fenced: a REVIVING session returns to PARKED. Pending
detaches and moves stay, their commands completed. -/
def orbEnd (part : Nat → Bool) (s : State) : State :=
  let js := s.orb.jobs.filter fun j => part (sess s j.num).part
  let hs := s.orb.held.filter fun h => part h.2.part
  let s := hs.foldl (fun s h => orbReply h.2 (some h.1) cPoison (setSess h.1 { sess s h.1 with held := false } s))
    (modOrb (fun o => { o with held := o.held.filter fun h => !part h.2.part }) s)
  js.foldl (fun s j =>
    match j.kind with
    | .revive => endRevive j cPoison s
    | _ =>
      let s := (if j.cmd.words.isEmpty then j.joined else j.cmd :: j.joined).foldl (fun s c => orbReply c (some j.num) cPoison s) s
      setOJob { j with cmd := { j.cmd with req := .none, issuer := none, words := [] }, joined := [] } s) s

/-- R291, R333: a scrub frees every descriptor of the partition, and advances its GEN, those of free numbers of this
switch's half among them. -/
def orbScrub (p : Nat) (s : State) : State :=
  let o := orbPart s p
  let s := (rangeFrom ((if s.cmp.roleB then 8388608 else 0) + o.base) o.count).foldl (fun s n =>
    if (sess s n).st = .free then setSess n { sess s n with gen := ((sess s n).gen + 1) % 256 } s else s) s
  let ns := (s.orb.sess.filter fun e => e.2.part == p && e.2.st != .free).map (·.1)
  let s := ns.foldl (fun s n => freeSess n (setSess n { sess s n with refs := 0 } s)) s
  let s := modOrb (fun o => { o with
    jobs := o.jobs.filter fun j => !ns.contains j.num, held := o.held.filter fun h => !ns.contains h.1,
    fwd := o.fwd.filter fun f => f.2.1.part != p, finals := o.finals.filter fun f => f.2.1.part != p, tries := o.tries.filter (·.1 != p) }) s
  setQueue .orbit p [] s

/-- R50: a REBASE sets PARK_STEP of every pending PARK to 0. -/
def orbitRebase (p : Nat) (s : State) : State :=
  let f := fun (_ : Nat) (d : Sess) => if d.part = p && d.st = .parking then { d with parkStep := 0 } else d
  modOrb (fun o => { o with sess := o.sess.mapAll f }) s

/-! ### What other engines ask of Orbit (R265, R266, Apex) -/

/-- R265, R266: what Cone reads of a descriptor. -/
structure SessInfo where
  num : Nat := 0
  attached : Bool := false
  seg : Nat := 0
  slot : Nat := 0
deriving DecidableEq, Repr

def sessLookup (s : State) (p handle : Nat) : Option SessInfo :=
  (sessNum s p handle).map fun n => { num := n, attached := attached (sess s n), seg := (sess s n).seg, slot := ((sess s n).slot).getD 0 }

/-- R266: a reference taken, and given back. -/
def sessHold (n : Nat) (s : State) : State := setSess n { sess s n with refs := (sess s n).refs + 1 } s
def sessRelease (n : Nat) (s : State) : State :=
  if (sess s n).st = .free then s else setSess n { sess s n with refs := (sess s n).refs - 1 } s

end Sys2Proof.Machine
end

