-- ==== Sys2Proof/Machine/Cone.lean ====
section
/-!
DEFINITION. Cone (R255 to R288): queries, slices and their tiles, the exact numerics, batches and results.
-/
namespace Sys2Proof.Machine

/-! ### Numerics (R268 to R270) -/

/-- e^x for x = t / 2^256, as a multiple of 2^(−256): the series at x / 2^8, squared eight times. -/
def expTerms (t : Int) : (n k : Nat) → (term acc : Int) → Int
  | 0, _, _, acc => acc
  | n + 1, k, term, acc =>
    let term := term * t / ((k : Int) * 2 ^ 256)
    expTerms t n (k + 1) term (acc + term)

def squareN : (n : Nat) → Int → Int
  | 0, y => y
  | n + 1, y => squareN n (y * y / 2 ^ 256)

def expFix (x : Int) : Int := squareN 8 (expTerms (x / 256) 60 1 (2 ^ 256) (2 ^ 256))

/-- R269: the correctly rounded fp32 value of e^x: 256 fraction bits decide the rounding of every fp32 argument, since
e^x is irrational for every one but 0. -/
def expF32 (b : Nat) : Nat :=
  match fp32.decode b with
  | .nan => fp32.qnan
  | .inf neg => if neg then 0 else fp32.infBits false
  | .num neg m e =>
    let x := scaled neg m e (-256)
    if x < -(105 * 2 ^ 256) then 0
    else if 90 * 2 ^ 256 < x then fp32.infBits false
    else fp32.encode (.num false (expFix x).toNat (-256))

def mulF32 (a b : Nat) : Nat := fp32.encode ((fp32.decode a).mul (fp32.decode b))
def negF32 (a : Nat) : Nat := if bitOf a 31 then a - 2 ^ 31 else a + 2 ^ 31
def subF32 (a b : Nat) : Nat := fp32.addBits a (negF32 b)
def negInf32 : Nat := 0xFF800000

/-- R269: factor(x, m). -/
def factorF32 (x m : Nat) : Nat := if x = negInf32 then 0 else expF32 (subF32 x m)

/-- The exact sum of products, rounded once to fp32. -/
def dotF32 (ps : List (FVal × FVal)) : Nat := fp32.encode (ps.foldl (fun a p => a.add (p.1.mul p.2)) (.num false 0 0))

/-- R270: merge(). -/
def mergeHead (x y : Head) : Head :=
  let mn := fp32.maxBits2 x.m y.m
  let a := factorF32 x.m mn
  let b := factorF32 y.m mn
  { m := mn, l := fp32.addBits (mulF32 x.l a) (mulF32 y.l b),
    o := (x.o.zip y.o).map fun p => fp32.addBits (mulF32 p.1 a) (mulF32 p.2 b) }

/-- R270: one tile for one head: its scores and its values. -/
def tileHead (d : Nat) (scores : List Nat) (vals : List (List FVal)) : Head :=
  let mt := scores.foldl fp32.maxBits2 negInf32
  if mt = negInf32 then { m := mt, l := 0, o := List.replicate d 0 }
  else
    let ps := scores.map fun x => fp32.decode (expF32 (subF32 x mt))
    { m := mt, l := fp32.encode (ps.foldl (fun a p => a.add p) (.num false 0 0)),
      o := (List.range d).map fun i => dotF32 ((ps.zip vals).map fun p => (p.1, p.2.getD i (.num false 0 0))) }

/-- n / d as a value with enough bits and a sticky one for a single rounding of it. -/
def ratVal (neg : Bool) (n d : Nat) (e : Int) : FVal :=
  let q := n * 2 ^ 512 / d
  .num neg (2 * q + (if n * 2 ^ 512 % d = 0 then 0 else 1)) (e - 513)

/-- R267: the quotient of two fp32 values, rounded once to a format. -/
def divTo (f : Fmt) (a b : Nat) : Nat :=
  match fp32.decode a, fp32.decode b with
  | .nan, _ => f.qnan
  | _, .nan => f.qnan
  | .inf _, .inf _ => f.qnan
  | .inf x, .num y _ _ => f.infBits (x != y)
  | .num x _ _, .inf y => f.encode (.num (x != y) 0 0)
  | .num x m e, .num y n g =>
    if n = 0 then (if m = 0 then f.qnan else f.infBits (x != y)) else f.encode (ratVal (x != y) m n (e - g))

/-! ### The header (R263, R264, R258) -/

def qD (h : List Nat) : Nat := 32 * (bits (h.getD 3 0) 14 12 + 1)
def qHkv (h : List Nat) : Nat := bits (h.getD 3 0) 23 16
def qFirst (h : List Nat) : Nat := bits (h.getD 3 0) 31 24
def qKvh (h : List Nat) : Nat := bits (h.getD 3 0) 39 32
def qG (h : List Nat) : Nat := bits (h.getD 3 0) 43 40 + 1
def qHq (h : List Nat) : Nat := qKvh h * qG h
def qP (h : List Nat) : Nat := bits (h.getD 2 0) 51 46 + 1
def qT0 (h : List Nat) : Nat := bits (h.getD 2 0) 22 0
def qN (h : List Nat) : Nat := bits (h.getD 2 0) 45 23
def qLayer (h : List Nat) : Nat := bits (h.getD 1 0) 43 32
def qFmt (h : List Nat) : Nat := bits (h.getD 3 0) 3 0
def qKvFmt (h : List Nat) : Nat := bits (h.getD 3 0) 7 4
def qOutFmt (h : List Nat) : Nat := bits (h.getD 3 0) 11 8
def qFinal (h : List Nat) : Bool := bitOf (h.getD 0 0) 9
def qInline (h : List Nat) : Bool := bitOf (h.getD 0 0) 8
def qSplit (h : List Nat) : Nat := bits (h.getD 0 0) 19 15
def qGroup (h : List Nat) : Nat := bits (h.getD 0 0) 14 10
def qAsid (h : List Nat) : Nat := bits (h.getD 0 0) 47 36
def qObj (h : List Nat) : Option Nat := if bitOf (h.getD 0 0) 7 then some (bits (h.getD 0 0) 35 20) else none
def qVecBytes (h : List Nat) : Nat := qP h * qHq h * qD h * fmtBits (qFmt h) / 8

/-- R258: HV. -/
def headBytes (f d : Nat) : Nat := if fmtMX f then d / 32 + d * fmtBits f / 8 else d * fmtBits f / 8

/-- R258: the elements of a head vector. -/
def headVals (f d : Nat) (v : List Byte) : List FVal :=
  if fmtMX f then
    let area := ofLE (v.drop (d / 32))
    (List.range d).map fun j => scaledVal (v.getD (j / 32) 0).toNat (elemVal f (area / 2 ^ (fmtBits f * j) % 2 ^ fmtBits f))
  else
    let k := fmtBits f / 8
    (List.range d).map fun j => elemVal f (ofLE ((v.drop (j * k)).take k))

/-- R257: a valid group of the active image. -/
def coneGroup (s : State) (g : Nat) : Option ConeGroup := s.cmp.active.coneGroups.find? (·.g == g)

/-- R257: the position of an engine in a group. -/
def rankIn (gr : ConeGroup) (e : Nat) : Nat := (gr.engines.filter fun x => decide (x < e)).length

/-- R263: a reserved encoding of a QUERY header. `member` tells that it is one of a batch. -/
def qBad (h : List Nat) (member : Bool) : Bool :=
  let w0 := h.getD 0 0
  bits w0 3 0 != 1 || decide (4 < bits w0 6 4) || decide (16 < qSplit h) || bits (h.getD 1 0) 63 44 != 0
  || bits (h.getD 2 0) 63 52 != 0 || decide (2 < qFmt h) || decide (10 < qKvFmt h) || decide (2 < qOutFmt h)
  || (!qFinal h && qOutFmt h != 0) || bitOf (h.getD 3 0) 15 || bits (h.getD 3 0) 63 44 != 0 || bits (h.getD 4 0) 63 32 != 0
  || (if member then bits (h.getD 7 0) 63 9 != 0 else h.getD 7 0 != 0)
  || (member && (qInline h || bits w0 6 4 != 0 || bitOf w0 7 || qGroup h != 0 || bits w0 35 20 != 0 || qAsid h != 0))

/-- R264: the sizes a query may not have, of itself and in its segment. -/
def qMisfit (h w : List Nat) : Bool :=
  decide (65536 < qVecBytes h) || decide (256 < qHq h) || qHkv h == 0 || decide (128 < qHkv h) || qKvh h == 0
  || decide (qHkv h < qFirst h + qKvh h) || qN h == 0 || decide (1048576 < qN h)
  || decide (segTpp w * segSlotPages w < qT0 h + qN h) || decide (segLayers w ≤ qLayer h)
  || decide (segRec w * 16 < 2 * qHkv h * headBytes (qKvFmt h) (qD h))
  || h.getD 5 0 % 128 != 0 || h.getD 6 0 % 128 != 0 || segType w != 3

def resultLen (h : List Nat) : Nat := qP h * qHq h * (if qFinal h then qD h * fmtBits (qOutFmt h) / 8 else 4 * qD h + 8)

/-- R264: an inline payload must have come in an XCL message, with the length the query needs. -/
def qInlineBad (h : List Nat) (c : QCmd) : Bool :=
  qInline h && ((match c.req with | .port .. => false | _ => true) || (c.words.length - 8) * 8 != qVecBytes h)

/-- R265: what a query needs of its session and segment: NOT_PERMITTED, or the session with its segment's descriptor. -/
def qSession (s : State) (n asid : Nat) (h : List Nat) : Option (SessInfo × List Nat) :=
  match sessLookup s n (bits (h.getD 1 0) 31 0) with
  | none => none
  | some x =>
    match findCtx s n 0 asid with
    | none => none
    | some k =>
      let w := (s.loc.ctxs.get k).segs.getD x.seg []
      if segType w != 0 && segR w then some (x, w) else none

/-- R13, R264, R265: the checks of one query of partition `n` on queue `e`. -/
def qCheck (s : State) (n e asid group : Nat) (member : Bool) (h : List Nat) (c : QCmd) : Option Cpl :=
  let foreignGroup := (coneGroup s group).any fun g => g.part != n
  match qSession s n asid h with
  | none => some cNP
  | some (x, w) =>
    let rs := ((if qInline h then [] else [(h.getD 5 0, qVecBytes h, false)]) ++ [(h.getD 6 0, resultLen h, true)]).filterMap fun r =>
      rangeCheck s n asid r.1 r.2.1 r.2.2
    if foreignGroup || rs.any (·.status == .notPermitted) then some cNP
    else if qBad h member || qMisfit h w || qInlineBad h c || !rs.isEmpty || !((coneGroup s group).any fun g => g.engines.contains e) then some cBad
    else if !x.attached then some (cRef .state)
    else none

/-! ### Commands (R256, R275, R281) -/

/-- R275: a BATCH header's reserved fields. -/
def batchBad (h : List Nat) : Bool :=
  let w0 := h.getD 0 0
  decide (4 < bits w0 6 4) || qInline h || qFinal h || qSplit h != 0 || bits (h.getD 1 0) 63 7 != 0
  || bits (h.getD 1 0) 6 0 == 0 || decide (64 < bits (h.getD 1 0) 6 0) || h.getD 2 0 != 0 || h.getD 3 0 != 0 || h.getD 4 0 != 0
  || h.getD 6 0 != 0 || h.getD 7 0 != 0 || h.getD 5 0 % 128 != 0

/-- R567, R648: FLOP, and the records' bytes as Prism's. -/
def coneUnits (h w : List Nat) : List (Nat × Nat) :=
  [(6, 4 * qD h * qHq h * qP h * qN h), (0, qN h * segRec w * 16)]

/-- R13, R281: the admission of a command for queue `e`. -/
def coneCheck (s : State) (e : Nat) (c : QCmd) : Option Cpl :=
  let h := c.words
  let n := c.part
  let own := e < 64 && (seqOf s (32 + e)).owned && (seqOf s (32 + e)).part == n
  let objNP := (qObj h).any fun o => objForeign s n o
  let objSt := (qObj h).any fun o => (obj s o).mode != .counter
  let late : Option Cpl := (fenceCpl s .cone n).or (if objSt then some (cRef .state) else none)
  if !own || objNP then some cNP
  else if bits (h.getD 0 0) 3 0 = 2 then
    let r := rangeCheck s n (qAsid h) (h.getD 5 0) (64 * bits (h.getD 1 0) 6 0) false
    if (coneGroup s (qGroup h)).any (fun g => g.part != n) || r.any (·.status == .notPermitted) then some cNP
    else if batchBad h || r.isSome || !((coneGroup s (qGroup h)).any fun g => g.engines.contains e) then some cBad
    else late
  else if bits (h.getD 0 0) 3 0 = 1 then
    match qCheck s n e (qAsid h) (qGroup h) false h c with
    | some k => if k.status = .refused then some (late.getD k) else some k
    | none => late
  else some cBad

def modConeStat (n : Nat) (f : ConeStat → ConeStat) (s : State) : State := { s with cone := { s.cone with stats := s.cone.stats.mod n f } }
def modConeEng (e : Nat) (f : ConeEng → ConeEng) (s : State) : State := { s with cone := { s.cone with engs := s.cone.engs.mod e f } }

/-- A command enters queue `e`, or is answered. -/
def coneSubmit (e : Nat) (c : QCmd) (s : State) : State × Option Cpl :=
  let chk := coneCheck s e c
  match chk.filter (·.status != .refused) with
  | some k => (s, some k)
  | none =>
    let h := c.words
    let op := bits (h.getD 0 0) 3 0
    let w := match qSession s c.part (qAsid h) h with | some (_, w) => w | none => []
    let c := { c with id := e, cls := (classOf (bits (h.getD 0 0) 6 4)).getD .prompt, asid := qAsid h, op := op }
    let reasons := (if 32 ≤ (queueOf s .cone e).length then [Reason.queueFull] else []) ++ (if chk.isSome then [Reason.state] else [])
    match enqueueUnless reasons .cone e { c with cost := preCost s 0xC op (if op = 1 then coneUnits h w else []) } s with
    | (s, some k) => (if k.reason = some .state then modConeStat c.part (fun x => { x with stateRefused := sat 16 x.stateRefused }) s else s, some k)
    | r => r

/-! ### Slices (R273, R274, R276) -/

/-- R273: the slices of a query of `n` tokens, as (first, count). -/
def slicesOf (split t0 n : Nat) : List (Nat × Nat) :=
  let s0 := max (max 1 split) (ceilDiv n 65536)
  let z := ceilDiv (ceilDiv n s0) 256 * 256
  (List.range (ceilDiv n z)).map fun i => (t0 + i * z, min z (n - i * z))

def freshHeads (h : List Nat) : List Head := List.replicate (qP h * qHq h) { o := List.replicate (qD h) 0 }

def setQuery (q : Query) (s : State) : State :=
  let put := fun (x : Query) => if x.id = q.id then q else x
  { s with cone := { s.cone with queries := s.cone.queries.map put } }

/-- The active slices of an engine, with their queries. -/
def activeOn (s : State) (e : Nat) : List (Query × Slice) :=
  s.cone.queries.flatMap fun q => (q.slices.filter fun x => x.active && x.engine == e).map fun x => (q, x)

/-- R278: the slice that next takes a free place of engine `e`: lowest class first, then in issue order. -/
def admitNext (e : Nat) (s : State) : State :=
  if 16 ≤ (activeOn s e).length then s
  else
    let ws := s.cone.queries.flatMap fun q => (q.slices.filter fun x => !x.active && x.engine == e && decide (x.folded < x.count) && !q.stop).map fun x => (q, x)
    match sortBy (fun p => p.1.cls) ws with
    | (q, x) :: _ =>
      let put := fun (y : Slice) => if y.idx = x.idx then { y with active := true } else y
      modConeEng e (fun g => { g with slices := sat 16 g.slices }) (setQuery { q with slices := q.slices.map put } s)
    | [] => s

/-- Slices are given places on their engines as long as those have room. -/
def admitAll (es : List Nat) (s : State) : State := es.foldl (fun s e => admitNext e s) s

/-- The completion of a query: its reference is released (R266), a batch member's status is written (R277). -/
def finishBatch (b : Batch) (s : State) : State :=
  let s := { s with cone := { s.cone with batches := s.cone.batches.filter (·.id != b.id) } }
  finishCmd b.cmd (qObj b.cmd.words) (if b.okN = b.total then cOk else { status := .partialDone, value := b.okN }) s

/-- R277: a member of a batch is done. -/
def memberDone (bid at_ : Nat) (k : Cpl) (s : State) : State :=
  match s.cone.batches.find? (·.id == bid) with
  | none => s
  | some b =>
    let word := pack [(4, k.status.code), (4, match k.reason with | some r => r.code | none => 0), (1, 1)]
    let s := (engineWriteAs (32 + b.cmd.id) b.cmd.part (qAsid b.cmd.words) (b.cmd.w 5 + 64 * at_ + 56) (toLE 8 word) false s).1
    let b := { b with left := b.left - 1, okN := if k.status = .ok then b.okN + 1 else b.okN }
    let put := fun (x : Batch) => if x.id = b.id then b else x
    let s := { s with cone := { s.cone with batches := s.cone.batches.map put } }
    if b.left = 0 then finishBatch b s else s

/-- A query ends. Its completion carries QTAG. -/
def endQuery (q : Query) (k : Cpl) (s : State) : State :=
  let s := { s with cone := { s.cone with queries := s.cone.queries.filter (·.id != q.id) } }
  let s := sessRelease q.num s
  let s := modConeEng q.lead (fun g => { g with doneN := sat 16 g.doneN }) s
  let s := if k.status = .timeout then { s with cone := { s.cone with timeouts := sat 16 s.cone.timeouts } } else s
  let s := match q.batch with
    | some (b, i) => memberDone b i k s
    | none => finishCmd q.cmd (qObj q.hdr) { k with aux := bits (q.hdr.getD 0 0) 63 48, data := [] } s
  admitAll ((q.slices.map (·.engine)).eraseDups) s

/-- R264 to R266, R274: an admitted query takes its reference and its slices' places. `engines` gives each slice's
engine. -/
def startQuery (q : Query) (engines : List Nat) (s : State) : State :=
  let (s, k) := if qInline q.hdr then (s, cData ((q.cmd.words.drop 8).flatMap (toLE 8)))
    else engineReadAs (32 + q.lead) q.cmd.part q.asid (q.hdr.getD 5 0) (qVecBytes q.hdr) [] s
  let s := modConeStat q.cmd.part (fun x => { x with queries := sat 16 x.queries }) s
  let sl := ((slicesOf (qSplit q.hdr) (qT0 q.hdr) (qN q.hdr)).zipIdx).map fun (p, i) =>
    ({ idx := i, engine := engines.getD i q.lead, first := p.1, count := p.2, heads := freshHeads q.hdr } : Slice)
  let q := { q with slices := sl, acc := freshHeads q.hdr, vecs := k.data, id := s.cone.nextId,
                    stop := k.status != .ok && k.status != .retry, out := if k.status = .retry then cOk else { k with data := [] },
                    retryAt := if k.status = .retry then some (s.ft + k.hint) else none, firstTry := if k.status = .retry then some s.ft else none }
  let s := sessHold q.num { s with cone := { s.cone with queries := s.cone.queries ++ [q], nextId := s.cone.nextId + 1 } }
  admitAll (sl.map (·.engine)) s

/-- R276: the engines of a batch's slices: (member, slice, tokens) in the order of assignment. -/
def assignBatch (engines : List Nat) : List (Nat × Nat × Nat) → List (Nat × Nat) → List (Nat × Nat × Nat)
  | [], _ => []
  | (m, i, n) :: rest, load =>
    let pick := engines.foldl (fun acc e =>
      match acc with
      | none => some e
      | some b => if ((load.find? (·.1 == e)).map (·.2)).getD 0 < ((load.find? (·.1 == b)).map (·.2)).getD 0 then some e else some b) (none : Option Nat)
    let e := pick.getD 0
    let old := ((load.find? (·.1 == e)).map (·.2)).getD 0
    (m, i, e) :: assignBatch engines rest ((e, old + n) :: load.filter (·.1 != e))

/-- R263: the head command of queue `e` with operation `op` runs. -/
def execQuery (e : Nat) (s : State) : Res :=
  match takeCmd .cone e (32 + e) (fun c => bits (c.w 0) 3 0 == 1) s with
  | none => .next s
  | some (c, s) =>
    let h := c.words
    match coneCheck s e c with
    | some k =>
      if k.status = .retry then .next (finishCmd c (qObj h) k s)
      else .next (finishCmd c (qObj h) k (if k.reason = some .state then modConeStat c.part (fun x => { x with stateRefused := sat 16 x.stateRefused }) s else s))
    | none =>
      match qSession s c.part (qAsid h) h, coneGroup s (qGroup h) with
      | some (x, w), some g =>
        let es := sortBy id g.engines
        let p := rankIn g e
        let q : Query := { cmd := c, hdr := h.take 8, num := x.num, slot := x.slot, seg := x.seg, segw := w, lead := e,
                           cls := bits (c.w 0) 6 4, asid := qAsid h }
        .next (startQuery q ((List.range 16).map fun i => es.getD ((p + i) % es.length) e) s)
      | _, _ => .next (finishCmd c (qObj h) cNP s)

/-- R275, R276: a batch reads its member list once and starts the members that pass their checks. A read answered RETRY is
presented again while the batch stands without members (R280); `first` is its first try. -/
def runBatch (e : Nat) (c : QCmd) (first : Option Nat) (s : State) : State :=
      let n := bits (c.w 1) 6 0
      let (s, k) := engineReadAs (32 + e) c.part (qAsid c.words) (c.w 5) (64 * n) [] s
      if k.status = .retry then
        let b : Batch := { id := s.cone.nextId, cmd := c, first := first.or (some s.ft) }
        { s with cone := { s.cone with batches := s.cone.batches ++ [b], nextId := s.cone.nextId + 1 } }
      else if k.status != .ok then finishCmd c (qObj c.words) { k with data := [] } s
      else
        let hs := (List.range n).map fun i => (List.range 8).map fun j => ofLE ((k.data.drop (64 * i + 8 * j)).take 8)
        let b : Batch := { id := s.cone.nextId, cmd := c, left := n, total := n }
        let s := { s with cone := { s.cone with batches := s.cone.batches ++ [b], nextId := s.cone.nextId + 1 } }
        let es := match coneGroup s (qGroup c.words) with | some g => sortBy id g.engines | none => [e]
        let chk := hs.map fun h => qCheck s c.part e (qAsid c.words) (qGroup c.words) true h c
        let all := ((hs.zip chk).zipIdx).flatMap fun ((h, k), m) =>
          if k.isSome then [] else ((slicesOf (qSplit h) (qT0 h) (qN h)).zipIdx).map fun (p, i) => (m, i, p.2)
        let plan := assignBatch es (sortBy (fun x => 1048576 - x.2.2) all) []
        ((hs.zip chk).zipIdx).foldl (fun s ((h, k), m) =>
          match k with
          | some k => memberDone b.id m k (if k.reason = some .state then modConeStat c.part (fun x => { x with stateRefused := sat 16 x.stateRefused }) s else s)
          | none =>
            match qSession s c.part (qAsid c.words) h with
            | some (x, w) =>
              let mine := (List.range 16).map fun i => ((plan.find? fun y => y.1 == m && y.2.1 == i).map (·.2.2)).getD e
              startQuery { cmd := c, hdr := h, num := x.num, slot := x.slot, seg := x.seg, segw := w, lead := mine.headD e,
                           cls := bits (c.w 0) 6 4, asid := qAsid c.words, batch := some (b.id, m) } mine s
            | none => memberDone b.id m cNP s) s

/-- R263, R275: the head BATCH of queue `e`; one whose list is still to be read comes first. -/
def execBatch (e : Nat) (s : State) : Res :=
  match s.cone.batches.find? fun b => b.first.isSome && b.cmd.id == e with
  | some b => .next (if fenced s .cone then s else runBatch e b.cmd b.first { s with cone := { s.cone with batches := s.cone.batches.erase b } })
  | none =>
    match takeCmd .cone e (32 + e) (fun c => bits (c.w 0) 3 0 == 2) s with
    | none => .next s
    | some (c, s) =>
      match coneCheck s e c with
      | some k => .next (finishCmd c (qObj c.words) k s)
      | none => .next (runBatch e c none s)

/-- R278: a waiting slice takes a place that is free. -/
def execSliceAdmit (e : Nat) (s : State) : Res := .next (if fenced s .cone then s else admitNext e s)

/-! ### Tiles (R268 to R271, R279, R280) -/

/-- The record offsets of a tile's tokens, grouped by page: (first offset, tokens). -/
def tileSpans (q : Query) (t n : Nat) : List (Nat × Nat) :=
  let tpp := max 1 (segTpp q.segw)
  let off := fun k => (kvOffset q.segw q.slot k (qLayer q.hdr)).getD 0
  let pages := rangeFrom (t / tpp) ((t + n - 1) / tpp - t / tpp + 1)
  pages.map fun p =>
    let a := max t (p * tpp)
    (off a, min (t + n) ((p + 1) * tpp) - a)

/-- R279: the bytes of one span's records, and its outcome; and whether it read outside Prism. -/
def readSpan (q : Query) (span : Nat × Nat) (ext : List Byte) (s : State) : State × Cpl × List (List Byte) × Bool :=
  let h := q.hdr
  let hv := headBytes (qKvFmt h) (qD h)
  let rb := segRec q.segw * 16
  let lo := span.1 + qFirst h * hv
  let hi := span.1 + (span.2 - 1) * rb + (qHkv h + qFirst h + qKvh h) * hv
  let a := lo - lo % 128
  let z := (hi + 127) / 128 * 128
  let va := q.seg * 2 ^ 60 + a
  let off := match (translate { part := q.cmd.part, asid := q.asid, va := va, len := 1, engine := true } s).2 with
    | .addr pa _ _ => if bits pa 63 52 = 0 then (page s (bits pa 51 0 / pageBytes)).st != .zero && (page s (bits pa 51 0 / pageBytes)).frame.tier != .prism else false
    | .cpl _ => false
  let pg := match (translate { part := q.cmd.part, asid := q.asid, va := va, len := 1, engine := true } s).2 with
    | .addr pa _ _ => if bits pa 63 52 = 0 then some (bits pa 51 0 / pageBytes) else none
    | .cpl _ => none
  let (s, k) := engineReadFrom (some q.cmd.since) (32 + q.lead) q.cmd.part q.asid va (z - a) ext s
  let s := match pg with | some p => usePage p s | none => s
  -- the bytes before the first selected key are not read; they are put back so that a record's offsets hold
  let body := if span.1 < a then List.replicate (a - span.1) (0 : Byte) ++ k.data else k.data.drop (span.1 - a)
  let recs := (List.range span.2).map fun i => (body.drop (i * rb)).take (2 * qHkv h * hv)
  (s, { k with data := [] }, recs, off)

/-- R268: the score of a query vector and a record. -/
def scoreOf (scale : Nat) (qv kv : List FVal) : Nat := mulF32 (dotF32 (qv.zip kv)) scale

/-- R270: a tile of records is folded into a slice's heads. -/
def foldTile (q : Query) (recs : List (List Byte)) (hs : List Head) : List Head :=
  let h := q.hdr
  let d := qD h
  let hv := headBytes (qKvFmt h) d
  let sz := d * fmtBits (qFmt h) / 8
  let scale := bits (h.getD 4 0) 31 0
  (hs.zipIdx).map fun (x, i) =>
    let kvh := qFirst h + i % qHq h / qG h
    let qv := headVals (qFmt h) d ((q.vecs.drop (i * sz)).take sz)
    let ks := recs.map fun r => headVals (qKvFmt h) d ((r.drop (kvh * hv)).take hv)
    let vs := recs.map fun r => headVals (qKvFmt h) d ((r.drop ((qHkv h + kvh) * hv)).take hv)
    mergeHead x (tileHead d (ks.map (scoreOf scale qv)) vs)

/-- R278: a class may take the lanes of engine `e` now. -/
def laneTurn (s : State) (e cls : Nat) : Bool :=
  let act := (activeOn s e).map (·.1.cls)
  act.all (fun k => decide (cls ≤ k)) || ((s.cone.engs.get e).promo == some cls && !act.contains 0)

/-- R280: the query vectors' read is presented again. -/
def readVecs (q : Query) (s : State) : State :=
  let (s, k) := engineReadAs (32 + q.lead) q.cmd.part q.asid (q.hdr.getD 5 0) (qVecBytes q.hdr) [] s
  match k.status with
  | .retry => setQuery { q with retryAt := some (s.ft + k.hint), firstTry := q.firstTry.or (some s.ft) } s
  | .ok => setQuery { q with vecs := k.data, retryAt := none, firstTry := none } s
  | _ => setQuery { q with stop := true, out := worse q.out { k with data := [] }, retryAt := none, firstTry := none } s

/-- R279, R280: the next tile of slice `i` of query `id` is read and folded in. -/
def execTileReadComplete (id i : Nat) (ext : List (List Byte)) (s : State) : Res :=
  if fenced s .cone then .next s
  else match s.cone.queries.find? (·.id == id) with
  | none => .next s
  | some q =>
    match q.slices.find? (·.idx == i) with
    | none => .next s
    | some x =>
      if q.stop || !x.active || x.count ≤ x.folded || !laneTurn s x.engine q.cls then .next s
      else if q.vecs.isEmpty then .next (readVecs q s)
      else
        let n := min 256 (x.count - x.folded)
        let s0 := s
        let (s, k, recs, off) := ((tileSpans q (x.first + x.folded) n).zipIdx).foldl (fun (s, k, rs, off) (sp, j) =>
          let (s, k', r, o) := readSpan q sp (ext.getD j []) s
          (s, worse k k', rs ++ r, off || o)) (s, cOk, ([] : List (List Byte)), false)
        if k.status = .retry then
          .next (setQuery { q with retryAt := some (s.ft + k.hint), firstTry := q.firstTry.or (some s.ft) } s0)
        else
          let lower := (activeOn s x.engine).any fun p => decide (q.cls < p.1.cls)
          let s := modConeEng x.engine (fun g => { g with
            promptTurns := if q.cls = 0 && lower then sat 16 g.promptTurns else g.promptTurns,
            promo := if g.promo = some q.cls then none else g.promo }) s
          let s := if off then modConeStat q.cmd.part (fun y => { y with offPrism := sat 16 y.offPrism }) s else s
          if k.status != .ok then
            .next (setQuery { q with stop := true, out := worse q.out k, retryAt := none, firstTry := none } s)
          else
            let x' := { x with folded := x.folded + n, heads := foldTile q recs x.heads }
            let x' := if x'.count ≤ x'.folded then { x' with active := false } else x'
            let put := fun (y : Slice) => if y.idx = i then x' else y
            let s := setQuery { q with slices := q.slices.map put, retryAt := none, firstTry := none } s
            .next (if x'.active then s else admitNext x.engine s)

/-- R280: a read was not accepted within 20 µs: TIMEOUT, and the result is not written. -/
def execConeReadTimeout (id : Nat) (s : State) : Res :=
  match s.cone.queries.find? (·.id == id) with
  | some q =>
    if q.retryAt.isSome && q.firstTry.any (fun t => decide (t + 20000 ≤ s.ft)) then .next (endQuery q (worse q.out cTimeout) s) else .next s
  | none =>
    match s.cone.batches.find? fun b => b.id == id && b.first.any fun t => decide (t + 20000 ≤ s.ft) with
    | some b => .next (finishCmd b.cmd (qObj b.cmd.words) cTimeout { s with cone := { s.cone with batches := s.cone.batches.erase b } })
    | none => .next s

/-- R274: slice `i`'s result reaches the lead and is merged in slice order. -/
def execSliceResultArrive (id i : Nat) (s : State) : Res :=
  match s.cone.queries.find? (·.id == id) with
  | none => .next s
  | some q =>
    match q.slices.find? (·.idx == i) with
    | none => .next s
    | some x =>
      if q.merged = i && decide (x.count ≤ x.folded) && !q.stop then
        .next (setQuery { q with merged := i + 1, acc := (q.acc.zip x.heads).map fun p => mergeHead p.1 p.2 } s)
      else .next s

/-! ### The result (R267, R271, R280) -/

def headRecord (h : List Nat) (x : Head) : List Byte :=
  if qFinal h then x.o.flatMap fun v => toLE (fmtBits (qOutFmt h) / 8) (divTo (fmtOf (qOutFmt h)) v x.l)
  else (x.o ++ [x.m, x.l]).flatMap (toLE 4)

/-- R267, R280: the result is written, whole or with the poison mark, and the query completes. -/
def execQueryComplete (id : Nat) (s : State) : Res :=
  if fenced s .cone then .next s
  else match s.cone.queries.find? (·.id == id) with
  | none => .next s
  | some q =>
    let nanN := (q.acc.filter fun x => (fp32.decode x.l).isNan).length
    if q.stop then
      if 2 < outcomeRank q.out.status then .next (endQuery q q.out s)
      else
        let d := (List.range (resultLen q.hdr)).map fun i => Config.freeByte s.fresh i
        let (s, w) := engineWriteAs (32 + q.lead) q.cmd.part q.asid (q.hdr.getD 6 0) d true (useFresh s)
        if w.status = .retry then .next (setQuery { q with retryAt := some (s.ft + w.hint), firstTry := q.firstTry.or (some s.ft) } s)
        else .next (endQuery q (worse q.out w) { s with cone := { s.cone with poisonQueries := sat 16 s.cone.poisonQueries } })
    else if q.merged < q.slices.length then .next s
    else
      let (s', w) := engineWriteAs (32 + q.lead) q.cmd.part q.asid (q.hdr.getD 6 0) (q.acc.flatMap (headRecord q.hdr)) false s
      if w.status = .retry then .next (setQuery { q with retryAt := some (s.ft + w.hint), firstTry := q.firstTry.or (some s.ft) } s)
      else .next (endQuery q w (modConeStat q.cmd.part (fun y => { y with nanHeads := satAdd 16 y.nanHeads nanN }) s'))

/-! ### Fences, restarts and scrubs (R288) -/

/-- R16: queries that satisfy `p` complete with their own outcome or POISON, their results left unwritten. -/
def coneEnd (p : QCmd → Bool) (s : State) : State :=
  let bs := s.cone.batches.filter fun b => b.first.isSome && p b.cmd
  let s := bs.foldl (fun s b => finishCmd b.cmd (qObj b.cmd.words) cPoison s) { s with cone := { s.cone with batches := s.cone.batches.filter (!bs.contains ·) } }
  (s.cone.queries.filter fun q => p q.cmd).foldl (fun s q => endQuery q (worse q.out cPoison) s) s

/-- R519: the partition's queries are discarded and their references released. -/
def coneScrub (n : Nat) (s : State) : State :=
  let qs := s.cone.queries.filter (·.cmd.part == n)
  let s := qs.foldl (fun s q => sessRelease q.num s) s
  { s with cone := { s.cone with queries := s.cone.queries.filter (·.cmd.part != n), batches := s.cone.batches.filter (·.cmd.part != n) } }

end Sys2Proof.Machine
end

