-- ==== Sys2Proof/Machine/Apex.lean ====
section
/-!
DEFINITION. Apex (R346 to R379): request contexts, contributions, the draw, speculative verification, and the delivery of
tokens to the log, the result record and the ring.
-/
namespace Sys2Proof.Machine

/-! ### Contexts (R347, R350, R352) -/

def modApx (f : Apex → Apex) (s : State) : State := { s with apx := f s.apx }
def apxReq (s : State) (i : Nat) : ApxReq := s.apx.reqs.get i
def setApxReq (i : Nat) (x : ApxReq) (s : State) : State := modApx (fun a => { a with reqs := a.reqs.set i x }) s
def apxPart (s : State) (n : Nat) : ApxPart := (s.cmp.active.apxParts.find? (·.part == n)).getD { part := n }
def modAStat (n : Nat) (f : ApxStat → ApxStat) (s : State) : State := modApx (fun a => { a with stats := a.stats.mod n f }) s

/-- R347: the handle of a context. -/
def reqHandle (s : State) (i : Nat) (x : ApxReq) : Nat := i + 2 ^ 15 * x.gen + 2 ^ 23 * b2n s.cmp.roleB

/-- R347: a handle names a context of this switch. -/
def reqLocal (s : State) (h : Nat) : Bool := bitOf h 23 == s.cmp.roleB

/-- The index of a current handle of partition `n`. -/
def reqIdx (s : State) (n h : Nat) : Option Nat :=
  let i := bits h 14 0
  let x := apxReq s i
  if reqLocal s h && x.st != .free && x.gen == bits h 22 15 && x.part == n then some i else none

def imgW (img : List Nat) (i : Nat) : Nat := img.getD i 0
def iFull (img : List Nat) : Bool := bitOf (imgW img 0) 5
def iObj (img : List Nat) : Option Nat := if bitOf (imgW img 0) 4 then some (bits (imgW img 0) 23 8) else none
def iSession (img : List Nat) : Nat := bits (imgW img 1) 63 32
def iStart (img : List Nat) : Nat := bits (imgW img 2) 31 0
def iMax (img : List Nat) : Nat := bits (imgW img 2) 63 32
def iRing (img : List Nat) : Nat := imgW img 4
def iOrder (img : List Nat) : Nat := bits (imgW img 5) 4 0
def iWindow (img : List Nat) : Nat := bits (imgW img 5) 11 5
def iRes (img : List Nat) : Nat := imgW img 13
def iStops (img : List Nat) : List Nat :=
  [bits (imgW img 10) 31 0, bits (imgW img 10) 63 32, bits (imgW img 11) 31 0, bits (imgW img 11) 63 32].take (bits (imgW img 12) 2 0)

/-- R350, R352: the fields marked SET of a new image over those of an old one. -/
def setFields (old new : List Nat) : List Nat :=
  (List.range 16).map fun i =>
    if i = 2 then bits (imgW old 2) 31 0 + bits (imgW new 2) 63 32 * 2 ^ 32
    else if i = 5 then bits (imgW old 5) 4 0 + bits (imgW new 5) 11 5 * 32
    else if 6 ≤ i ∧ i ≤ 12 then imgW new i else imgW old i

/-! ### Sampling (R357 to R361) -/

/-- The place of an fp32 encoding that is no NaN in rising order of value; both zeros have one place. -/
def key32 (b : Nat) : Nat := if b < 2 ^ 31 then 2 ^ 31 + b else 2 ^ 32 - b

/-- A finite fp32 value that is not negative as a multiple of 2^(−149). -/
def fix149 (b : Nat) : Nat :=
  match fp32.decode b with
  | .num _ m e => m * 2 ^ (e + 149).toNat
  | _ => 0

/-- R358: the penalties of a candidate that occurs `c` times in the history. -/
def penalise (img : List Nat) (c x : Nat) : Nat :=
  let rep := bits (imgW img 8) 31 0
  let freq := bits (imgW img 8) 63 32
  let pres := bits (imgW img 9) 31 0
  let x :=
    if 0 < c ∧ key32 0x3F800000 < key32 rep then
      (if !(fp32.decode x).isNan && decide (key32 0 < key32 x) then divTo fp32 x rep else mulF32 x rep)
    else x
  let x := subF32 x (fp32.encode ((FVal.num false c 0).mul (fp32.decode freq)))
  if 0 < c then subF32 x pres else x

/-- R358: prefix sums decide the draw: the first token for which 2^32 × (w₀ + … + wᵢ) > r × C. -/
def drawFrom (r total : Nat) : List (Nat × Nat) → Nat → Option Nat
  | [], _ => none
  | (v, w) :: rest, acc => if r * total < 2 ^ 32 * (acc + w) then some v else drawFrom r total rest (acc + w)

/-- R358: the shortest prefix whose sum reaches TOP_P × S. -/
def topPrefix (topP sum : Nat) : List (Nat × Nat) → Nat → List (Nat × Nat)
  | [], _ => []
  | (v, w) :: rest, acc => if topP * sum ≤ (acc + w) * 2 ^ 149 then [(v, w)] else (v, w) :: topPrefix topP sum rest (acc + w)

/-- R358: the token drawn for position `q` from merged candidates (token, logit), with the history's tokens. -/
def drawToken (img hist : List Nat) (q : Nat) (cs : List (Nat × Nat)) : Option Nat :=
  let temp := bits (imgW img 6) 31 0
  let topK := bits (imgW img 6) 44 32
  let minP := bits (imgW img 7) 63 32
  let cs := cs.map fun (v, x) => (v, penalise img (hist.filter (· == v)).length x)
  let cs := sortBy (·.1) (cs.filter fun p => !(fp32.decode p.2).isNan)
  if temp % 2 ^ 31 = 0 then (sortBy (fun p => 2 ^ 33 - key32 p.2) cs).head?.map (·.1)
  else
    let ys := sortBy (fun p => 2 ^ 33 - key32 p.2) (cs.map fun (v, x) => (v, divTo fp32 x temp))
    let ys := if topK = 0 then ys else ys.take topK
    let top := match ys with | p :: _ => p.2 | [] => 0
    let inf := fp32.infBits false
    let ws := if ys.any (fun p => p.2 == inf) then ys.map fun (v, y) => (v, if y = inf then 0x3F800000 else 0)
      else ys.map fun (v, y) => (v, expF32 (subF32 y top))
    let ws := (ws.filter fun p => !(fp32.decode p.2).isNan && 0 < fix149 p.2 && fix149 minP ≤ fix149 p.2).map fun (v, w) => (v, fix149 w)
    let kept := topPrefix (fix149 (bits (imgW img 7) 31 0)) (sumOf (ws.map (·.2))) ws 0
    let r := (philox (bits (imgW img 3) 31 0) (bits (imgW img 3) 63 32) q 0 0 0).1
    drawFrom r (sumOf (kept.map (·.2))) kept 0

/-- R358: the penalty history of position `q`: `prior` holds the tokens before it, newest first. -/
def penHist (img prior : List Nat) (q : Nat) : List Nat := (prior.take (iWindow img)).take (q - iStart img)

/-- What a sample draws: its tokens, whether a position had no candidate, how the stream ended, and the drafts accepted. -/
structure Drawn where
  toks : List Nat := []
  noCand : Bool := false
  endWhy : Nat := 0
  accepted : Nat := 0
deriving DecidableEq, Repr

/-- R360, R361: position after position, while the guesses hold. `prior` is newest first. -/
def drawAll (img : List Nat) (q : Nat) (prior : List Nat) : List (List Cand) → List Nat → Drawn → Drawn
  | [], _, d => d
  | cs :: rest, gs, d =>
    match drawToken img (penHist img prior q) q (cs.map fun c => (c.token, c.logit)) with
    | none => { d with noCand := true }
    | some t =>
      let d := { d with toks := d.toks ++ [t] }
      if (iStops img).contains t then { d with endWhy := 1, accepted := d.accepted + b2n (gs.head? == some t) }
      else
        let d := if gs.head? = some t then { d with accepted := d.accepted + 1 } else d
        if iMax img != 0 && decide (iMax img ≤ q + 1 - iStart img) then { d with endWhy := 2 }
        else match gs with
        | g :: gs => if g = t then drawAll img (q + 1) (t :: prior) rest gs d else d
        | [] => d

/-- R357: one token from two shards for one position. -/
def twice (cs : List Cand) : Bool := !noDup (cs.map (·.token))

/-! ### The ring and the result record (R363 to R367) -/

def apxWrite (x : ApxReq) (va : Nat) (d : List Byte) (s : State) : State × Cpl :=
  engineWriteAs 112 x.part (apxPart s x.part).asid va d false s

/-- R364: the ring's size and free entries. -/
def ringSize (x : ApxReq) : Nat := 2 ^ iOrder x.img
def ringFree (x : ApxReq) : Nat := ringSize x - (x.produced - x.consumed)

/-- R366: CONSUMED is read again where the last value leaves the ring short of `want` entries. -/
def lookRing (want : Nat) (x : ApxReq) (s : State) : State × ApxReq :=
  if want ≤ ringFree x then (s, x)
  else
    let (s, k) := engineReadAs 112 x.part (apxPart s x.part).asid (iRing x.img + 8) 8 [] s
    let v := ofLE k.data
    (s, if k.status = .ok && decide (x.consumed ≤ v) && decide (v ≤ x.produced) then { x with consumed := v } else x)

/-- R365: an entry of the ring. -/
def ringEntry (tok pos kind why k : Nat) (draft : Bool) : List Byte :=
  [pack [(32, tok), (32, pos)], pack [(4, kind), (3, why), (1, b2n draft), (24, 0), (32, k)]].flatMap (toLE 8)

/-- Entries are written at the ring's next places, in order. -/
def putEntries (x : ApxReq) : List (Nat → List Byte) → State → State × Cpl × ApxReq
  | [], s => (s, cOk, x)
  | e :: es, s =>
    let (s, a) := apxWrite x (iRing x.img + 128 + 16 * (x.produced % ringSize x)) (e x.produced) s
    let (s, b, x) := putEntries { x with produced := x.produced + 1 } es s
    (s, worse a b, x)

/-- The words of the header that Apex writes: PRODUCED, and the word with OVERRUN and the END's reason. -/
def putHeader (x : ApxReq) (s : State) : State × Cpl :=
  let (s, a) := apxWrite x (iRing x.img + 16) (toLE 8 (pack [(32, x.overrun), (1, b2n (x.ringEnd != 0)), (3, x.ringEnd)])) s
  let (s, b) := apxWrite x (iRing x.img) (toLE 8 x.produced) s
  (s, worse a b)

/-- R367: an END entry is written where there is room, else it waits. -/
def putEnd (why pos : Nat) (x : ApxReq) (s : State) : State × Cpl × ApxReq :=
  let (s, x) := lookRing 1 x s
  if 1 ≤ ringFree x then
    let (s, a, x) := putEntries x [fun k => ringEntry 0 pos 1 why k false] s
    let x := { x with ringEnd := why, pendEnd := none }
    let (s, b) := putHeader x s
    (s, worse a b, x)
  else (s, cOk, { x with pendEnd := some (why, pos) })

/-- R363: the result record, and the ADD after it. -/
def putResult (x : ApxReq) (img : List Nat) (k : Cpl) (pos logLen accepted why : Nat) (toks : List Nat) (s : State) : State :=
  let w0 := pack [(4, k.status.code), (4, match k.reason with | some r => r.code | none => 0), (5, toks.length), (1, b2n (why != 0)), (3, why), (15, 0), (32, pos)]
  let ts := (List.range 9).map fun i => toks.getD (2 * i) 0 + 2 ^ 32 * toks.getD (2 * i + 1) 0
  let d := ([w0, pack [(32, logLen), (5, accepted)]] ++ ts ++ [0, 0, 0, 0, 0]).flatMap (toLE 8)
  let (s, w) := apxWrite x (iRes img) d s
  let s := modAStat x.part (fun y => { y with
    samples := sat 16 y.samples, tokens := satAdd 16 y.tokens toks.length, accepted := satAdd 16 y.accepted accepted }) s
  if w.status = .ok then completionAdd x.part (iObj img) s else s

/-! ### Commands (R349 to R352) -/

/-- A context is freed: its slot goes without a result, GEN advances, and the index is free again. -/
def freeReq (i : Nat) (s : State) : State :=
  let x := apxReq s i
  let s := setApxReq i { gen := (x.gen + 1) % 256 } s
  modApx (fun a => { a with pools := a.pools.mod x.part fun p => { p with freed := p.freed ++ [i] } }) s

def apxFinish (c : QCmd) (h : Nat) (k : Cpl) (s : State) : State :=
  finishCmd c none { k with value := h, aux := bits (c.w 0) 39 24, data := [] } s

/-- R351: the parameters OPEN and SET share. -/
def badParams (w : List Nat) : Bool :=
  let fin := fun b => match fp32.decode b with | .num .. => true | _ => false
  let neg := fun b => decide (2 ^ 31 < b)
  let one := 0x3F800000
  let temp := bits (imgW w 6) 31 0
  let topP := bits (imgW w 7) 31 0
  let minP := bits (imgW w 7) 63 32
  let rep := bits (imgW w 8) 31 0
  !fin temp || neg temp || !fin topP || neg topP || topP % 2 ^ 31 == 0 || decide (one < topP % 2 ^ 31)
  || !fin minP || neg minP || decide (one < minP % 2 ^ 31) || !fin rep || neg rep || decide (rep < one)
  || !fin (bits (imgW w 8) 63 32) || !fin (bits (imgW w 9) 31 0) || decide (4096 < bits (imgW w 6) 44 32) || decide (4 < bits (imgW w 12) 2 0)
  || decide (64 < bits (imgW w 5) 11 5)

/-- R8, R350: a reserved encoding. -/
def apxBad (c : QCmd) : Bool :=
  let op := bits (c.w 0) 3 0
  let isSet := op == 1 || op == 2
  op == 0 || decide (4 < op) || bits (c.w 0) 7 6 != 0 || bits (c.w 0) 63 40 != 0 || bits (c.w 1) 31 24 != 0 || c.w 14 != 0 || c.w 15 != 0
  || bits (c.w 5) 63 12 != 0 || bits (c.w 6) 63 45 != 0 || bits (c.w 9) 63 32 != 0 || bits (c.w 12) 63 3 != 0
  || (op != 1 && (bits (c.w 0) 23 4 != 0 || bits (c.w 1) 63 32 != 0 || bits (c.w 2) 31 0 != 0 || c.w 3 != 0 || c.w 4 != 0 || bits (c.w 5) 4 0 != 0))
  || (op == 1 && bits (c.w 1) 23 0 != 0)
  || (!isSet && ((rangeFrom 5 8).any (fun i => c.w i != 0) || c.w 2 != 0))
  || ((op == 2 || op == 3) && c.w 13 != 0) || ((op == 1 || op == 4) && c.w 13 % 128 != 0)
  || (isSet && badParams c.words)
  || (op == 1 && (decide (iOrder c.words < 6) || decide (16 < iOrder c.words) || c.w 4 % 4096 != 0))

/-- R349: a command enters queue `q`. -/
def apxSubmit (q : Nat) (c : QCmd) (s : State) : State × Option Cpl :=
  let foreign := bits (c.w 0) 3 0 == 1 && (iObj c.words).any (fun o => objForeign s c.part o)
  match (firstCheck [(q != c.part || foreign, cNP), (apxBad c, cBad)]).or ((fenceCpl s .apex c.part).or
    (if 64 ≤ (queueOf s .apex q).length then some (cRef .queueFull)
     else if (iObj c.words).any (fun o => bits (c.w 0) 3 0 == 1 && (obj s o).mode != .counter) then some (cRef .state) else none)) with
  | some k => (s, some k)
  | none =>
    let c := { c with op := bits (c.w 0) 3 0, cls := .generation, asid := (apxPart s c.part).asid, id := q, arrived := s.ft }
    (setQueue .apex q (queueOf s .apex q ++ [c]) s, none)

/-- The head of queue `q`, where it is of operation `op`. -/
def apxTake (op q : Nat) (s : State) : Option (QCmd × State) :=
  if fenced s .apex || scrubFenced s q then none
  else match queueOf s .apex q with
  | c :: rest => if c.op = op then some (c, setQueue .apex q rest (modApx (fun a => { a with tries := a.tries.del q }) s)) else none
  | [] => none

/-- R369: an access of the head command was answered RETRY: it stays, and is made again. -/
def apxAgain (q : Nat) (s : State) : State :=
  if s.apx.tries.any (fun e => e.1 == q) then s else modApx (fun a => { a with tries := a.tries.put q s.ft }) s

/-- The head command of a queue has met RETRY for 20 µs. -/
def apxTimeout (s : State) : State :=
  (s.apx.tries.filter fun e => decide (e.2 + 20000 ≤ s.ft)).foldl (fun s e =>
    let s := modApx (fun a => { a with tries := a.tries.del e.1 }) s
    match queueOf s .apex e.1 with
    | c :: rest => apxFinish c 0 cTimeout (setQueue .apex e.1 rest s)
    | [] => s) s

/-- R348: a handle of the partner's: forwarded, or RETRY while the link is down; not permitted without a partner. -/
def apxRemote (c : QCmd) (h : Nat) (s : State) : State :=
  if !hasPartner s then apxFinish c h cNP s
  else if linkDown s then apxFinish c h (cRetry 10000) s
  else send .forward 0 (0xD :: c.words) s

/-- R351, R352. -/
def execApxOpen (q : Nat) (s : State) : Res :=
  .next (match apxTake 1 q s with
  | none => s
  | some (c, s1) =>
    let n := c.part
    let w := c.words
    let asid := (apxPart s1 n).asid
    let seg := segStage s1 { part := n, asid := asid, va := iRing w, len := 128 + 16 * 2 ^ iOrder w, write := true, engine := true }
    let coherent := match seg with | .ok _ _ g _ => segCoherent g | _ => false
    let deny := fun (r : Option Cpl) => r.any fun k => k.status == .notPermitted
    let np := (sessNum s1 n (iSession w)).isNone || deny (rangeCheck s1 n asid (iRing w) (128 + 16 * 2 ^ iOrder w) true)
      || deny (rangeCheck s1 n asid (iRes w) 128 true)
    if np then apxFinish c 0 cNP s1
    else if coherent then apxFinish c 0 cBad s1
    else
      let p := s1.apx.pools.get n
      let pick := if p.next < (apxPart s1 n).count then some ((apxPart s1 n).base + p.next, { p with next := p.next + 1 })
        else match p.freed with | i :: rest => some (i, { p with freed := rest }) | [] => none
      match pick with
      | none => apxFinish c 0 (cRef .capacity) s1
      | some (i, p) =>
        let x : ApxReq := { st := .running, gen := (apxReq s1 i).gen, part := n, img := (w ++ List.replicate 16 0).take 16, ringPos := iStart w }
        let h := reqHandle s1 i x
        let hdr := [0, 0, 0, pack [(24, h), (8, 0), (32, iStart w)], 0, 0, 0, 0, 0, 0, 0, 0, 0, 0, 0, 0].flatMap (toLE 8)
        let (s2, k) := apxWrite x (iRing w) hdr s1
        if k.status = .retry then apxAgain q s
        else if k.status != .ok then apxFinish c 0 k s2
        else apxFinish c h cOk (modApx (fun a => { a with pools := a.pools.set n p }) (setApxReq i x s2)))

/-- A command that names a request. -/
def withReq (op q : Nat) (s : State) (k : Nat → QCmd → State → State) : State :=
  match apxTake op q s with
  | none => s
  | some (c, s) =>
    let h := bits (c.w 1) 23 0
    if !reqLocal s h then apxRemote c h s
    else match reqIdx s c.part h with
    | none => apxFinish c h cNP s
    | some i => k i c s

/-- R352. -/
def execApxSet (q : Nat) (s : State) : Res :=
  .next (withReq 2 q s fun i c s =>
    let x := apxReq s i
    apxFinish c (bits (c.w 1) 23 0) cOk (setApxReq i { x with img := setFields x.img c.words } s))

/-- R352: CLOSE writes an END entry if the request runs, and frees the context. -/
def execApxClose (q : Nat) (s : State) : Res :=
  .next (withReq 3 q s fun i c s1 =>
    let x := apxReq s1 i
    let h := bits (c.w 1) 23 0
    if x.closing.isSome then apxFinish c h cNP s1
    else if x.st = .running then
      let (s2, k, x) := putEnd 3 x.ringPos { x with slot := none } s1
      if k.status = .retry then apxAgain q s
      else if x.pendEnd.isSome then setApxReq i { x with st := .ended, closing := some c } s2
      else apxFinish c h { k with data := [] } (freeReq i s2)
    else if x.pendEnd.isSome then setApxReq i { x with closing := some c } s1
    else apxFinish c h cOk (freeReq i s1))

/-- R352: the image of a context. -/
def reqImage (s : State) (i : Nat) (x : ApxReq) : List Nat :=
  (List.range 16).map fun j =>
    if j = 0 then imgW x.img 0 % 2 ^ 62 + x.st.code * 2 ^ 62
    else if j = 1 then bits (imgW x.img 1) 63 32 * 2 ^ 32 + reqHandle s i x
    else if j = 14 then pack [(32, x.ringPos), (32, x.emitted)] else imgW x.img j

/-- R352. -/
def execApxDescribe (q : Nat) (s : State) : Res :=
  .next (withReq 4 q s fun i c s1 =>
    let x := apxReq s1 i
    let (s2, k) := apxWrite x (c.w 13) ((reqImage s1 i x).flatMap (toLE 8)) s1
    if k.status = .retry then apxAgain q s
    else apxFinish c (bits (c.w 1) 23 0) { k with data := [] } s2)

/-! ### Contributions (R353 to R356) -/

/-- R353: the candidates of each position of a message. -/
def msgCands (shard k npos : Nat) (d : List Byte) : List (List Cand) :=
  (List.range npos).map fun i => (List.range k).map fun j =>
    let e := d.drop (8 * (i * k + j))
    { shard := shard, token := ofLE (e.take 4), logit := ofLE ((e.drop 4).take 4) }

def slotsUsed (s : State) (p : Nat → Bool) : Nat := (s.apx.reqs.filter fun e => e.2.slot.isSome && p e.2.part).length
def slotEntries (x : ApxSlot) : Nat := sumOf (x.cands.map (·.length))

/-- R353 to R355: a contribution message: its header's words and the bytes after them. -/
def execSampleContrib (who : Requester) (hdr : List Nat) (data : List Byte) (s : State) : Res :=
  .next (
  let h := hdr.getD 0 0
  let handle := bits h 23 0
  let shard := bits h 29 24
  let nshard := bits h 35 30 + 1
  let nd := bits h 40 36
  let cls := bits h 43 41
  let pos := bits (hdr.getD 1 0) 31 0
  let kk := bits (hdr.getD 2 0) 8 0
  let n := (reqPart s who).getD 16
  if !reqLocal s handle && hasPartner s then
    (if linkDown s then reply who (cRetry 10000) s else emit (.msg .forward 0 (0xD :: hdr) data) s)
  else match reqIdx s n handle with
  | none => reply who cNP s
  | some i =>
    let x := apxReq s i
    let draftLen := 16 * ceilDiv nd 4
    let drafts := (List.range nd).map fun j => ofLE ((data.drop (4 * j)).take 4)
    let cands := msgCands shard kk (nd + 1) (data.drop draftLen)
    let bad := bits h 63 45 != 0 || decide (1 < cls) || decide (16 < nd) || bits (hdr.getD 1 0) 63 32 != 0 || bits (hdr.getD 2 0) 63 9 != 0
      || hdr.getD 3 0 != 0 || kk == 0 || decide (256 < kk) || decide (nshard ≤ shard)
      || data.length != draftLen + 8 * kk * (nd + 1) || decide (16384 < 32 + data.length) || cands.any twice
    if bad then reply who cBad s
    else match fenceCpl s .apex n with
    | some c => reply who c s
    | none =>
      let fresh := x.slot.isNone
      let (s, x) := if fresh && !iFull x.img then lookRing (nd + 2) x s else (s, x)
      let s := setApxReq i x s
      let full := fresh && !iFull x.img && decide (ringFree x < nd + 2)
      let mine := x.slot.getD { pos := pos, nshard := nshard, drafts := drafts, cls := cls, opened := s.ft, img := x.img,
                                cands := List.replicate (nd + 1) [] }
      let reasons :=
        (if (fresh && decide (1024 ≤ slotsUsed s fun _ => true)) || full then [Reason.queueFull] else []) ++
        (if fresh && decide ((apxPart s n).slotQuota ≤ slotsUsed s (· == n)) then [Reason.quota] else []) ++
        (if 4096 < slotEntries mine + kk * (nd + 1) then [Reason.capacity] else []) ++
        (if x.st != .running || decide (x.ringPos < pos) || decide (pos + 64 < x.ringPos) || mine.pos != pos || mine.nshard != nshard
            || mine.drafts != drafts || mine.cls != cls || mine.shards.contains shard then [Reason.state] else [])
      match lowestReason reasons with
      | some r =>
        let s := if full then modAStat n (fun y => { y with ringFull := sat 16 y.ringFull }) s else s
        reply who (cRef r) s
      | none =>
        let mine := { mine with
          shards := mine.shards ++ [shard], poison := mine.poison || bitOf h 44,
          cands := (mine.cands.zip cands).map fun p => p.1 ++ p.2 }
        let s := if fresh then modAStat n (fun y => { y with offered := satAdd 16 y.offered nd }) s else s
        reply who cOk (setApxReq i { x with slot := some mine } s))

def slotFull (x : ApxSlot) : Bool := decide (x.nshard ≤ x.shards.length)
def apxTmo (s : State) : Nat := max 1 s.apx.tmo * 1000

/-- R356: a slot that is not complete within SAMPLE_TMO is discarded. -/
def execSampleTimeout (i : Nat) (s : State) : Res :=
  let x := apxReq s i
  .next (match x.slot with
  | some y =>
    if !slotFull y && decide (y.opened + apxTmo s ≤ s.ft) then
      let s := modAStat x.part (fun z => { z with timeouts := sat 16 z.timeouts }) (setApxReq i { x with slot := none } s)
      putResult x y.img cTimeout y.pos 0 0 0 [] s
    else s
  | none => s)

/-! ### Serving and delivering (R362, R368) -/

/-- The complete slots of unit `u` that wait, of class `k`: (partition, cost of the first, quantum). -/
def apxWaiting (s : State) (u k : Nat) : List (Nat × ApxReq) :=
  s.apx.reqs.filter fun e => e.1 % 4 == u && !scrubFenced s e.2.part && e.2.slot.any fun y => slotFull y && !y.served && y.cls == k

def posCost (x : ApxReq) : Nat := match x.slot with | some y => 8 * (y.cands.headD []).length | none => 0

def apxNodes (s : State) (u k : Nat) : List (Nat × Nat × Nat) :=
  let l := apxWaiting s u k
  (List.range 16).filterMap fun n =>
    (l.find? fun e => e.2.part == n).map fun e => (n, posCost e.2, (apxPart s n).quantumKib * 1024)

/-- R368: what unit `u` serves next. -/
def apxTurn (s : State) (u : Nat) : Option (Nat × ApxReq × State) :=
  let a := arbOf s (arbKey .apex u)
  let go := fun (k n : Nat) (a : Arb) (promo : Option (Nat × Nat × Nat)) =>
    ((apxWaiting s u k).find? fun e => e.2.part == n).map fun e =>
      let empty := decide (((apxWaiting s u k).filter fun e => e.2.part == n).length ≤ 1)
      let a := match promo with
        | some p => promoServe p (posCost e.2) empty a
        | none => drrServe n (posCost e.2) empty a
      let a := { a with since := if empty then a.since.del (n * 8 + k) else a.since.put (n * 8 + k) s.ft }
      (e.1, e.2, setArb (arbKey .apex u) a s)
  match drrPick a (apxNodes s u 0) with
  | some (n, a) => go 0 n a none
  | none =>
    match promoNext a (fun n k => (apxWaiting s u k).any fun e => e.2.part == n) with
    | some p => go p.2.1 p.1 a (some p)
    | none => match drrPick a (apxNodes s u 1) with
      | some (n, a) => go 1 n a none
      | none => none

/-- The sample of context `i` is over: its slot is free. -/
def sampleEnd (i : Nat) (k : Cpl) (s : State) : State :=
  let x := apxReq s i
  match x.slot with
  | none => s
  | some y => putResult x y.img k y.pos 0 0 0 [] (setApxReq i { x with slot := none } s)

/-- R362 step 1: the APPEND of the emitted tokens enters the session's partition queue at Orbit. -/
def apxAppend (i : Nat) (s : State) : State :=
  let x := apxReq s i
  match x.slot with
  | none => s
  | some y =>
    let n := y.toks.length
    let body := (List.range (ceilDiv n 2)).map fun j => y.toks.getD (2 * j) 0 + 2 ^ 32 * y.toks.getD (2 * j + 1) 0
    let words := [pack [(4, 2), (2, 0), (1, 1)], iSession x.img, pack [(32, n), (32, y.pos)], 0, 0, 0, 0, 0] ++ body
    let c : QCmd := { op := 2, part := x.part, words := words, req := .block 0xD i }
    match orbSubmit x.part c s with
    | (s, none) => s
    | (s, some k) => { s with eng := { s.eng with done := s.eng.done ++ [(0xD, i, k)] } }

/-- R357 to R361: a unit draws and verifies the tokens of a complete slot. -/
def execSampleServe (u : Nat) (s : State) : Res :=
  .next (if fenced s .apex then s
  else match apxTurn s u with
  | none => s
  | some (i, x, s) =>
    match x.slot with
    | none => s
    | some y =>
      let depth := ((apxWaiting s u 0 ++ apxWaiting s u 1).filter fun e => e.2.part == x.part).length
      let s := monSample (0xD * 4096 + u) x.part (s.ft - y.opened) depth (384 + u) s
      let s := debit x.part (preCost s 0xD 0 [(8, slotEntries y)]) s
      if y.poison then sampleEnd i cPoison s
      else if y.cands.any twice then sampleEnd i cBad s
      else
        let prior := x.hist.drop (x.ringPos - y.pos)
        let d := drawAll y.img y.pos prior y.cands y.drafts {}
        let s := if d.noCand then modAStat x.part (fun z => { z with noCand := sat 16 z.noCand }) s else s
        if d.toks.isEmpty then sampleEnd i { status := .partialDone } s
        else
          let y := { y with served := true, toks := d.toks, noCand := d.noCand, endWhy := d.endWhy, accepted := d.accepted, firstTry := some s.ft }
          apxAppend i (setApxReq i { x with slot := some y } s))

/-- R362 step 2, R365 to R367: the ring entries, PRODUCED, the record, and the context's progress. -/
def deliver (i : Nat) (x : ApxReq) (y : ApxSlot) (logLen : Nat) (s : State) : State × Cpl :=
  let fresh := (y.toks.zipIdx).filter fun p => decide (x.ringPos ≤ y.pos + p.2)
  let endAt := y.pos + y.toks.length
  let ents := fresh.map fun (t, j) => fun k => ringEntry t (y.pos + j) 0 0 k (decide (j < y.accepted))
  let (s, x) := lookRing (ents.length + b2n (y.endWhy != 0)) x s
  let room := ringFree x
  let (s, a, x) := putEntries x (ents.take room) s
  let lost := ents.length - room
  let x := { x with overrun := satAdd 32 x.overrun lost }
  let s := modAStat x.part (fun z => { z with overrun := satAdd 16 z.overrun lost }) s
  let (s, b) := if ents.isEmpty then (s, cOk) else putHeader x s
  let (s, c, x) := if y.endWhy = 0 then (s, cOk, x) else putEnd y.endWhy endAt x s
  let k := worse (worse a b) c
  let x := { x with
    slot := none, st := if y.endWhy = 0 then x.st else .ended, ringPos := max x.ringPos endAt, emitted := x.emitted + fresh.length,
    hist := ((fresh.map (·.1)).reverse ++ x.hist).take 160 }
  let st := if k.status = .retry then cTimeout else if k.status != .ok then k else if y.noCand then { status := .partialDone } else cOk
  (putResult x y.img st y.pos logLen y.accepted y.endWhy y.toks (setApxReq i x s), k)

/-- R362: the APPEND has completed. RETRY is presented again after its hint, until 20 µs have passed. -/
def execSampleAppendComplete (i : Nat) (s : State) : Res :=
  let x := apxReq s i
  .next (match x.slot, s.eng.done.find? (fun e => e.1 == 0xD && e.2.1 == i) with
  | some y, some d =>
    if !y.served then s
    else
      let k := d.2.2
      let s1 := { s with eng := { s.eng with done := s.eng.done.erase d } }
      let late := y.firstTry.any fun t => decide (t + 20000 ≤ s.ft)
      if k.status = .retry then
        if late then sampleEnd i cTimeout s1
        else setApxReq i { x with slot := some { y with again := some (s.ft + k.hint) } } s1
      else if k.status != .ok then sampleEnd i { k with data := [] } s1
      else
        let (s2, w) := deliver i x y (ofLE ((k.data.drop 8).take 4)) s1
        if w.status = .retry && !late then s else s2
  | some y, none =>
    if y.served && y.again.any (fun t => decide (t ≤ s.ft)) then apxAppend i (setApxReq i { x with slot := some { y with again := none } } s)
    else s
  | _, _ => s)

/-- R367: an END entry that did not fit is written when there is room; a CLOSE that waited for it frees the context. -/
def execRingEndWrite (i : Nat) (s : State) : Res :=
  let x := apxReq s i
  .next (match x.pendEnd with
  | none => s
  | some (why, pos) =>
    let (s', k, y) := putEnd why pos x s
    if k.status = .retry then s
    else
      let s' := setApxReq i y s'
      match y.pendEnd, y.closing with
      | none, some c => apxFinish c (reqHandle s' i y) cOk (freeReq i s')
      | _, _ => s')

/-! ### Restarts, fences and scrubs (R356, R379) -/

/-- R16, R356, R379: the pending slots of the partitions that satisfy `p` are discarded with no result record. A delivery in
progress ends when the block is fenced. -/
def apexEnd (p : Nat → Bool) (all : Bool) (s : State) : State :=
  let drop := fun (_ : Nat) (x : ApxReq) => if p x.part && (all || x.slot.any (!·.served)) then { x with slot := none } else x
  modApx (fun a => { a with reqs := a.reqs.mapAll drop }) s

/-- R379: a scrub frees the partition's contexts, every GEN of its range advanced. -/
def apexScrub (n : Nat) (s : State) : State :=
  let o := apxPart s n
  let s := (rangeFrom o.base o.count).foldl (fun s i =>
    if (apxReq s i).st = .free then setApxReq i { apxReq s i with gen := ((apxReq s i).gen + 1) % 256 } s else s) s
  let is := (s.apx.reqs.filter fun e => e.2.part == n && e.2.st != .free).map (·.1)
  setQueue .apex n [] (is.foldl (fun s i => freeReq i s) s)

end Sys2Proof.Machine
end

