-- ==== Sys2Proof/Machine/Centroid.lean ====
section
/-!
DEFINITION. Centroid (R380 to R413): indexes in pool memory, appends and deletions, searches, and the merge.
-/
namespace Sys2Proof.Machine

/-! ### Accesses in sequence -/

/-- The rest of a sequence of accesses, while each has completed OK. -/
def okThen {α β : Type} (z : β) (r : State × Cpl × α) (k : State → α → State × Cpl × β) : State × Cpl × β :=
  if r.2.1.status = .ok then k r.1 r.2.2 else (r.1, r.2.1, z)

/-- Who accesses memory: the engine, its partition and Centroid's ASID. -/
structure CenCtx where
  e    : Nat := 0
  part : Nat := 0
  asid : Nat := 0
deriving DecidableEq, Repr

def cenRead (x : CenCtx) (va len : Nat) (s : State) : State × Cpl × List Byte :=
  if len = 0 then (s, cOk, [])
  else
    let (s, k) := engineReadAs (96 + x.e) x.part x.asid va len [] s
    (s, { k with data := [] }, k.data)

def cenWrite (x : CenCtx) (va : Nat) (d : List Byte) (mark : Bool) (s : State) : State × Cpl :=
  engineWriteAs (96 + x.e) x.part x.asid va d mark s

/-! ### Contexts and descriptors (R382 to R388) -/

def modCen (f : Centroid → Centroid) (s : State) : State := { s with cen := f s.cen }
def idxOf (s : State) (i : Nat) : Idx := s.cen.idxs.get i
def setIdx (i : Nat) (x : Idx) (s : State) : State := modCen (fun c => { c with idxs := c.idxs.set i x }) s
def cenPart (s : State) (n : Nat) : CenPart := (s.cmp.active.cenParts.find? (·.part == n)).getD { part := n }
def modCStat (n : Nat) (f : CenStat → CenStat) (s : State) : State := modCen (fun c => { c with stats := c.stats.mod n f }) s
def cenCtx (s : State) (e n : Nat) : CenCtx := { e := e, part := n, asid := (cenPart s n).asid }

/-- R382: the handle of a context. -/
def idxHandle (s : State) (i : Nat) (x : Idx) : Nat := i + 2048 * b2n s.cmp.roleB + 4096 * x.gen

/-- R383: the context of a current handle of partition `n`; one that waits to close takes no more commands. -/
def idxNum (s : State) (n h : Nat) : Option Nat :=
  let i := bits h 10 0
  let x := idxOf s i
  if x.isOpen && x.gen == bits h 19 12 && x.part == n && bitOf h 11 == s.cmp.roleB && x.closing.isNone && bits h 31 20 == 0 then some i else none

def xD (w : List Nat) : Nat := 32 * (bits (w.getD 0 0) 6 0 + 1)
def xIp (w : List Nat) : Bool := bits (w.getD 0 0) 8 7 == 1
def xNlist (w : List Nat) : Nat := bits (w.getD 0 0) 31 16 + 1
def xListCap (w : List Nat) : Nat := bits (w.getD 0 0) 63 32
def xCent (w : List Nat) : Nat := w.getD 1 0
def xDir (w : List Nat) : Nat := w.getD 2 0
def xSide (w : List Nat) : Nat := w.getD 3 0
def xSideCap (w : List Nat) : Nat := bits (w.getD 4 0) 31 0
def xDelLog (w : List Nat) : Nat := bits (w.getD 4 0) 37 32
def xDel (w : List Nat) : Nat := w.getD 5 0
def xSlots (w : List Nat) : Nat := 2 ^ xDelLog w
/-- R386: the bytes of a record. -/
def recBytes (w : List Nat) : Nat := 32 + xD w

/-- R384: a descriptor with a reserved encoding or an unaligned address. -/
def idxBad (w : List Nat) : Bool :=
  bits (w.getD 0 0) 15 9 != 0 || decide (1 < bits (w.getD 0 0) 8 7) || xListCap w == 0 || decide (2 ^ 31 < xListCap w)
  || xSideCap w == 0 || decide (2 ^ 31 < xSideCap w) || decide (xDelLog w < 10) || decide (32 < xDelLog w) || bits (w.getD 4 0) 63 38 != 0
  || w.getD 6 0 != 0 || w.getD 7 0 != 0 || [xCent w, xDir w, xSide w, xDel w].any (fun a => a % 128 != 0)

/-- R384: the live words. -/
def liveWords (x : Idx) : List Byte :=
  [x.seq, x.floor, pack [(32, x.head), (32, x.tail)], pack [(32, x.mgen), (32, x.dels)], 0, 0, 0, 0].flatMap (toLE 8)

def writeLive (c : CenCtx) (x : Idx) (s : State) : State × Cpl := cenWrite c (x.desc + 64) (liveWords x) false s

/-- A record (R386). -/
structure VRec where
  id   : Nat := 0
  attr : Nat := 0
  seq  : Nat := 0
  cluster : Nat := 0
  vec  : List Int := []
deriving DecidableEq, Repr, Inhabited

/-! ### An index written from outside (R384) -/

/-- The pool offset of an address, as the tables stand. -/
def peekOff (s : State) (c : CenCtx) (va : Nat) : Option Nat :=
  match (translate { part := c.part, asid := c.asid, va := va, len := 1, engine := true } s).2 with
  | .addr pa _ _ => if bits pa 63 52 = 0 then some (bits pa 51 0) else none
  | .cpl _ => none

/-- Some of the writes `ws` touch [va, va + len). -/
def spanHit (s : State) (c : CenCtx) (ws : List WriteRec) (va len : Nat) : Bool :=
  (piecesOf va len).any fun p =>
    match peekOff s c p.1 with
    | some o => ws.any fun y => decide (y.off < o + p.2) && decide (o < y.off + y.len)
    | none => false

/-- R384: others than Centroid have written the index since it was opened: its results are undefined. -/
def idxSpoiled (s : State) (i : Nat) : Bool :=
  let x := idxOf s i
  let w := x.words
  let c := cenCtx s 0 x.part
  let ws := (s.fld.wlog.drop x.since).filter fun y => !(y.engine && decide (96 ≤ y.num) && decide (y.num < 112))
  let hit := spanHit s c ws
  x.isOpen && !ws.isEmpty &&
    (hit x.desc 128 || hit (xCent w) (xNlist w * xD w) || hit (xDir w) (32 * xNlist w)
      || hit (xSide w) (xSideCap w * recBytes w) || hit (xDel w) (16 * xSlots w)
      || (List.range (xNlist w)).any fun k =>
        match peekOff s c (xDir w + 32 * k) with
        | some o => [0, 8].any fun j => hit (ofLE (memBytes s.mem (o + j) 8)) (xListCap w * recBytes w)
        | none => false)

def vecOf (d : List Byte) : List Int := d.map fun b => ofTwos 8 b.toNat

def recOf (d : List Byte) : VRec :=
  { id := ofLE (d.take 8), attr := ofLE ((d.drop 8).take 8), seq := ofLE ((d.drop 16).take 8), cluster := ofLE ((d.drop 24).take 2),
    vec := vecOf (d.drop 32) }

def recData (r : VRec) : List Byte := toLE 8 r.id ++ toLE 8 r.attr ++ toLE 8 r.seq ++ toLE 8 r.cluster ++ r.vec.map fun v => BitVec.ofNat 8 (toTwos 8 v)

/-- `n` records of `sz` bytes. -/
def recsOf (sz n : Nat) (d : List Byte) : List VRec := (List.range n).map fun i => recOf ((d.drop (i * sz)).take sz)

/-- R388. -/
def distance (ip : Bool) (q v : List Int) : Int :=
  if ip then -((q.zip v).foldl (fun a p => a + p.1 * p.2) 0) else (q.zip v).foldl (fun a p => a + (p.1 - p.2) * (p.1 - p.2)) 0

/-- Signed values in rising order, as naturals. -/
def ikey (i : Int) : Nat := (i + 2 ^ 63).toNat

/-- R396: the clusters in order of distance, then number. -/
def clusterOrder (w : List Nat) (cents : List Byte) (q : List Int) : List Nat :=
  (sortBy (·.2) ((List.range (xNlist w)).map fun c => (c, ikey (distance (xIp w) q (vecOf ((cents.drop (c * xD w)).take (xD w))))))).map (·.1)

/-- R385: the base, count and side (true for B) of a cluster's active area under a committed merge. -/
def activeArea (ent : List Byte) (mgen : Nat) : Nat × Nat × Bool :=
  let f := fun (lo n : Nat) => ofLE ((ent.drop lo).take n)
  let ga := f 24 4
  let gb := f 28 4
  let useB := decide (gb ≤ mgen) && (decide (mgen < ga) || decide (ga < gb))
  if useB then (f 8 8, f 20 4, true) else (f 0 8, f 16 4, false)

/-! ### The deletion table (R387, R402) -/

def vacated : Nat := 2 ^ 64 - 1

/-- R387: an identifier's home slot. -/
def homeSlot (w : List Nat) (id : Nat) : Nat := id * 0x9E3779B97F4A7C15 % 2 ^ 64 / 2 ^ (64 - xDelLog w)

/-- R387: the probe for an identifier: its mark's DEL_SEQ, if it has one, and the first vacated or empty slot met. -/
def probe (c : CenCtx) (w : List Nat) (id : Nat) : (fuel slot : Nat) → Option Nat → State → State × Cpl × Option Nat × Option Nat
  | 0, _, free, s => (s, cOk, none, free)
  | fuel + 1, slot, free, s =>
    okThen (none, free) (cenRead c (xDel w + 16 * slot) 16 s) fun s d =>
      let seq := ofLE (d.drop 8)
      if seq = 0 then (s, cOk, none, free.or (some slot))
      else if seq != vacated && ofLE (d.take 8) == id then (s, cOk, some seq, free)
      else probe c w id fuel ((slot + 1) % xSlots w) (if seq = vacated then free.or (some slot) else free) s

def findMark (c : CenCtx) (w : List Nat) (id : Nat) (s : State) : State × Cpl × Option Nat × Option Nat :=
  probe c w id (xSlots w) (homeSlot w id) none s

/-- The marks and vacated slots of a table's bytes, by slot. -/
def tableOf (w : List Nat) (d : List Byte) : Tab (Nat × Nat) :=
  (List.range (xSlots w)).foldl (fun t i =>
    let seq := ofLE ((d.drop (16 * i + 8)).take 8)
    if seq = 0 then t else t.set i (ofLE ((d.drop (16 * i)).take 8), seq)) []

/-- R402: compaction behind the vacated slot `v`. -/
def compactFrom (w : List Nat) : (fuel v j : Nat) → Tab (Nat × Nat) → Tab (Nat × Nat)
  | 0, v, _, t => t.del v
  | fuel + 1, v, j, t =>
    let j := (j + 1) % xSlots w
    let m := t.get j
    if m.2 = 0 then t.del v
    else
      let h := homeSlot w m.1
      let passes := decide ((v + xSlots w - h) % xSlots w < (j + xSlots w - h) % xSlots w)
      if m.2 != vacated && passes then compactFrom w fuel j j ((t.set v m).set j (m.1, vacated)) else compactFrom w fuel v j t

/-- R402: marks that satisfy `p` are removed, with any slot already vacated. -/
def compactTable (w : List Nat) (p : Nat → Bool) (t : Tab (Nat × Nat)) : Tab (Nat × Nat) :=
  let t := t.mapAll fun _ m => if m.2 != vacated && p m.2 then (m.1, vacated) else m
  (t.idxs fun _ m => m.2 == vacated).foldl (fun t v => if (t.get v).2 = vacated then compactFrom w (xSlots w) v v t else t) t

/-- The slots that differ are written. -/
def writeTable (c : CenCtx) (w : List Nat) (old new : Tab (Nat × Nat)) (s : State) : State × Cpl :=
  let slots := (old.map (·.1) ++ new.map (·.1)).eraseDups.filter fun i => old.get i != new.get i
  slots.foldl (fun (s, k) i =>
    let m := new.get i
    let (s, k') := cenWrite c (xDel w + 16 * i) (toLE 8 m.1 ++ toLE 8 m.2) false s
    (s, worse k k')) (s, cOk)

/-! ### The header (R391, R394) and admission (R381, R404, R405) -/

def nOp (c : QCmd) : Nat := bits (c.w 0) 3 0
def nObj (c : QCmd) : Option Nat := if bitOf (c.w 0) 7 then some (bits (c.w 0) 25 10) else none
def nInline (c : QCmd) : Bool := bitOf (c.w 0) 8
def nWiden (c : QCmd) : Bool := bitOf (c.w 0) 9
def nHandle (c : QCmd) : Nat := bits (c.w 1) 31 0
def nNq (c : QCmd) : Nat := bits (c.w 1) 37 32 + 1
def nK (c : QCmd) : Nat := bits (c.w 1) 47 38 + 1
def nProbe (c : QCmd) : Nat := bits (c.w 1) 55 48 + 1
def nStep (c : QCmd) : Nat := bits (c.w 1) 63 56
def nMax (c : QCmd) : Nat := bits (c.w 3) 15 0 + 1

/-- R394: a clause's words. -/
def clause (c : QCmd) (i : Nat) : Nat × Nat := (c.w (8 + 2 * i), c.w (9 + 2 * i))

def clauseBad (x : Nat × Nat) : Bool := bits x.1 2 0 == 7 || bits x.1 63 16 != 0 || decide (63 < bits x.1 9 4 + bits x.1 15 10)

/-- R394: a record's attributes pass a clause. -/
def clausePass (x : Nat × Nat) (param attr : Nat) : Bool :=
  let n := 2 ^ (bits x.1 15 10 + 1)
  let f := attr / 2 ^ bits x.1 9 4 % n
  let v := (if bitOf x.1 3 then param else x.2) % n
  match bits x.1 2 0 with
  | 1 => f == v | 2 => f != v | 3 => decide (f ≤ v) | 4 => decide (v ≤ f) | 5 => (f &&& v) != 0 | 6 => (f &&& v) == 0 | _ => true

def passes (c : QCmd) (param attr : Nat) : Bool := (List.range 4).all fun i => clausePass (clause c i) param attr

/-- R8, R391, R394, R397, R405: what makes a header BAD_REQUEST. -/
def cenBad (c : QCmd) : Bool :=
  let op := nOp c
  let srch := op == 3
  op == 0 || decide (6 < op) || bits (c.w 0) 63 42 != 0 || c.w 7 != 0 || bits (c.w 3) 63 16 != 0
  || (!srch && (bits (c.w 0) 6 4 != 0 || nInline c || nWiden c || bits (c.w 1) 63 32 != 0 || c.w 3 != 0 || c.w 5 != 0
        || (rangeFrom 8 8).any fun i => c.w i != 0))
  || (srch && (decide (4 < bits (c.w 0) 6 4) || nMax c < nProbe c || (nWiden c && nStep c == 0) || c.w 5 % 128 != 0 || c.w 6 != 0
        || (List.range 4).any fun i => clauseBad (clause c i)))
  || (nInline c && match c.req with | .port .. => false | _ => true)
  || ((op == 1 || op == 2) && (c.w 2 != 0 || c.w 6 != 0)) || ((op == 2 || op == 5 || op == 6) && c.w 4 != 0) || (op == 6 && c.w 6 != 0)
  || (op == 1 && c.w 4 % 128 != 0)
  || (op == 4 && (bits (c.w 2) 63 13 != 0 || bits (c.w 2) 12 0 == 0 || decide (4096 < bits (c.w 2) 12 0)))
  || (op == 5 && c.w 2 == 2 ^ 64 - 1)

def nClass (c : QCmd) : SClass :=
  if nOp c = 3 then (classOf (bits (c.w 0) 6 4)).getD .prompt else if nOp c = 6 then .background else .generation

/-- R567: comparisons a command makes: those with the centroids and the side list, which are known at its admission. -/
def cenUnits (s : State) (c : QCmd) : List (Nat × Nat) :=
  let x := idxOf s (bits (nHandle c) 10 0)
  if nOp c = 3 then [(7, nNq c * (xNlist x.words + (x.tail - x.head)))]
  else if nOp c = 4 then [(7, bits (c.w 2) 12 0 * xNlist x.words)] else []

/-- R381: a command enters queue `e`. -/
def cenSubmit (e : Nat) (c : QCmd) (s : State) : State × Option Cpl :=
  match (firstCheck [
      (decide (16 ≤ e) || !(seqOf s (96 + e)).owned || (seqOf s (96 + e)).part != c.part || (nObj c).any (fun o => objForeign s c.part o), cNP),
      (cenBad c, cBad)]).or (fenceCpl s .centroid c.part) with
  | some k => (s, some k)
  | none =>
    let c := { c with op := nOp c, cls := nClass c, asid := (cenPart s c.part).asid }
    let reasons := (if 32 ≤ (queueOf s .centroid e).length then [Reason.queueFull] else []) ++
      (if (nObj c).any (fun o => (obj s o).mode != .counter) then [Reason.state] else [])
    match enqueueUnless reasons .centroid e { c with cost := preCost s 0xF (nOp c) (cenUnits s c) } s with
    | (s, some k) => (if k.reason = some .energy then modCStat c.part (fun x => { x with energyRefused := sat 16 x.energyRefused }) s else s, some k)
    | r => r

/-- R392: the words of a completion, in its data; `h` is the handle, `seq` the index's SEQ. -/
def cenCpl (c : QCmd) (h seq : Nat) (k : Cpl) : Cpl :=
  let words := [pack [(4, k.status.code), (4, match k.reason with | some r => r.code | none => 0), (8, 0), (16, bits (c.w 0) 41 26), (32, h)], k.value, seq, 0]
  { k with data := words.flatMap (toLE 8), aux := seq }

/-- R384, R392: the completion of a command on index `i`; SEQ and the value of a spoiled one are free. -/
def cenTold (s : State) (i : Nat) (c : QCmd) (h seq : Nat) (k : Cpl) : Cpl :=
  if idxSpoiled s i then cenCpl c h (freeNat 64 s) { k with value := freeNat 64 (useFresh s) } else cenCpl c h seq k

/-- A command completes. -/
def cenFinish (c : QCmd) (i : Option Nat) (k : Cpl) (s : State) : State :=
  let x := match i with | some i => idxOf s i | none => {}
  let h := match i with | some i => idxHandle s i x | none => nHandle c
  let s := if k.reason = some .capacity then modCStat c.part (fun y => { y with capacity := sat 16 y.capacity }) s else s
  match i with
  | some i => finishCmd c (nObj c) (cenTold s i c h x.seq k) (if idxSpoiled s i then useFresh (useFresh s) else s)
  | none => finishCmd c (nObj c) (cenCpl c h x.seq k) s


/-- R405: an access was answered RETRY: the command stands where it stood. -/
def cenAgain (e : Nat) (s : State) : State :=
  if s.cen.tries.any (fun x => x.1 == e) then s else modCen (fun c => { c with tries := c.tries.put e s.ft }) s
def cenClear (e : Nat) (s : State) : State := modCen (fun c => { c with tries := c.tries.del e }) s

/-- The command of engine `e` with operation `op` that its search unit takes. -/
def cenTake (op e : Nat) (s : State) : Option (QCmd × State) :=
  (takeCmd .centroid e (96 + e) (fun c => nOp c == op) s).map fun r => (r.1, cenClear e r.2)

/-- R382, R383: the command of engine `e` on an open index; the partner's are forwarded. -/
def withIdx (op e : Nat) (s : State) (k : Nat → QCmd → State → State) : State :=
  match cenTake op e s with
  | none => s
  | some (c, s) =>
    if bitOf (nHandle c) 11 != s.cmp.roleB && hasPartner s then
      (if linkDown s then cenFinish c none (cRetry 10000) s else send .forward 0 (0xF :: c.words) s)
    else match idxNum s c.part (nHandle c) with
    | none => cenFinish c none cNP s
    | some i => k i c s

/-- The outcome of a command made in one step: RETRY leaves the state before it. -/
def cenDone (e : Nat) (before : State) (c : QCmd) (i : Option Nat) (r : State × Cpl) : State :=
  if r.2.status = .retry then cenAgain e before else cenFinish c i r.2 r.1

/-! ### Opening and closing (R393) -/

/-- R393: OPEN_INDEX reads the descriptor and puts the deletion table in order. -/
def openIdx (c : CenCtx) (pick : Option Nat) (addr gen : Nat) (s : State) : State × Cpl :=
  match rangeCheck s c.part c.asid addr 128 true with
  | some k => (s, k)
  | none =>
  let r := okThen () (cenRead c addr 128 s) fun s d =>
    let w := (List.range 16).map fun j => ofLE ((d.drop (8 * j)).take 8)
    let deny := [(xCent w, xNlist w * xD w, false), (xDir w, 32 * xNlist w, true), (xSide w, xSideCap w * recBytes w, true), (xDel w, 16 * xSlots w, true)].findSome?
      fun a => rangeCheck s c.part c.asid a.1 a.2.1 a.2.2
    if idxBad w then (s, cBad, ())
    else match deny with
    | some k => (s, k, ())
    | none =>
    match pick with
    | none => (s, cRef .capacity, ())
    | some i =>
      okThen () (cenRead c (xDel w) (16 * xSlots w) s) fun s t =>
        let old := tableOf w t
        let seq := w.getD 8 0
        let new := compactTable w (fun q => decide (seq < q)) old
        let (s, k) := writeTable c w old new s
        -- SIDE_TAIL is never behind SIDE_HEAD but for the wrap at 2^32
        let tail := bits (w.getD 10 0) 63 32 + (if bits (w.getD 10 0) 63 32 < bits (w.getD 10 0) 31 0 then 2 ^ 32 else 0)
        let x : Idx := { isOpen := true, gen := gen, part := c.part, desc := addr, words := w.take 6, seq := seq, floor := w.getD 9 0,
                         head := bits (w.getD 10 0) 31 0, tail := tail, mgen := bits (w.getD 11 0) 31 0,
                         dels := new.length, side := bits (w.getD 10 0) 31 0 }
        okThen () (s, k, ()) fun s _ =>
          let (s, k) := writeLive c x s
          (if k.status = .ok then setIdx i { x with since := writesNow s } s else s, k, ())
  (r.1, r.2.1)

/-- R393. -/
def execOpenIndex (e : Nat) (s : State) : Res :=
  .next (match cenTake 1 e s with
  | none => s
  | some (c, s1) =>
    let o := cenPart s1 c.part
    let p := s1.cen.pools.get c.part
    let pick := if p.next < o.count then some (o.base + p.next, { p with next := p.next + 1 })
      else match p.freed with | i :: rest => some (i, { p with freed := rest }) | [] => none
    let r := openIdx (cenCtx s1 e c.part) (pick.map (·.1)) (c.w 4) ((pick.map fun x => (idxOf s1 x.1).gen).getD 0) s1
    match pick with
    | some (i, p) =>
      if r.2.status = .ok then cenDone e s c (some i) (modCen (fun x => { x with pools := x.pools.set c.part p }) r.1, r.2)
      else cenDone e s c none r
    | none => cenDone e s c none r)

def searchesOn (s : State) (i : Nat) : Nat := (s.cen.srchs.filter (·.idx == i)).length

/-- A context is freed, its GEN advanced. -/
def freeIdx (i : Nat) (s : State) : State :=
  let x := idxOf s i
  modCen (fun c => { c with pools := c.pools.mod x.part fun p => { p with freed := p.freed ++ [i] } }) (setIdx i { gen := (x.gen + 1) % 256 } s)

/-- R393: the live words are written and the context freed; a write answered RETRY is made again at the next try. -/
def closeNow (e i : Nat) (c : QCmd) (s : State) : State :=
  let (s1, k) := writeLive (cenCtx s e c.part) (idxOf s i) s
  if k.status = .retry then setIdx i { idxOf s i with closing := some { c with id := e } } s
  else freeIdx i (cenFinish c (some i) k s1)

/-- A CLOSE_INDEX of engine `e` that waits for nothing more. -/
def closeReady (e : Nat) (s : State) : Option (Nat × QCmd) :=
  s.cen.idxs.findSome? fun x => match x.2.closing with
    | some c => if c.id = e ∧ searchesOn s x.1 = 0 ∧ !fenced s .centroid then some (x.1, c) else none
    | none => none

/-- R393, R405. -/
def execCloseIndex (e : Nat) (s : State) : Res :=
  .next (match closeReady e s with
  | some (i, c) => closeNow e i c s
  | none => withIdx 2 e s fun i c s =>
    let x := idxOf s i
    if x.merge.isSome then cenFinish c (some i) (cRef .state) s
    else if searchesOn s i = 0 then closeNow e i c s
    else setIdx i { x with closing := some { c with id := e } } s)

/-! ### Mutations (R389, R390, R393, R400) -/

/-- R400: what EXPECT makes of a mutation of `n` sequence numbers: an answer, or none where it is applied. -/
def expectAns (x : Idx) (expect n : Nat) : Option Cpl :=
  if expect = 0 ∨ x.seq + 1 = expect then none
  else if expect < x.seq + 1 then some (cVal (expect + n - 1)) else some (cRef .state)

/-- A list of marks looked up: whether any identifier has one. -/
def anyMarked (c : CenCtx) (w : List Nat) : List VRec → State → State × Cpl × Bool
  | [], s => (s, cOk, false)
  | r :: rs, s => okThen false (findMark c w r.id s) fun s m => if m.1.isSome then (s, cOk, true) else anyMarked c w rs s

/-- Side records are written at their places, from number `i` on. -/
def putSide (c : CenCtx) (w : List Nat) : List VRec → (i : Nat) → State → State × Cpl
  | [], _, s => (s, cOk)
  | r :: rs, i, s =>
    let (s, a) := cenWrite c (xSide w + i % 2 ^ 32 % xSideCap w * recBytes w) (recData r) false s
    let (s, b) := putSide c w rs (i + 1) s
    (s, worse a b)

/-- R393: APPEND. -/
def cenAppend (x : CenCtx) (i : Nat) (c : QCmd) (s : State) : State × Cpl :=
  let y := idxOf s i
  let w := y.words
  let n := bits (c.w 2) 12 0
  let late := expectAns y (c.w 6) n
  if late.any (fun k => k.status == .ok) then (s, late.getD cOk)
  else
    let r := okThen [] (cenRead x (c.w 4) (n * recBytes w) s) fun s d =>
      let rs := recsOf (recBytes w) n d
      if rs.any (fun r => r.id == 2 ^ 64 - 1) then (s, cBad, [])
      else okThen [] (anyMarked x w rs s) fun s m =>
        if xSideCap w - (y.tail - y.side) < n then (s, cRef .capacity, [])
        else if m || late.isSome then (s, cRef .state, [])
        else okThen [] (cenRead x (xCent w) (xNlist w * xD w) s) fun s cents =>
          (s, cOk, (rs.zipIdx).map fun (r, j) => { r with seq := y.seq + 1 + j, cluster := (clusterOrder w cents r.vec).headD 0 })
    if r.2.1.status != .ok then (r.1, r.2.1)
    else
      let (s, k) := putSide x w r.2.2 y.tail r.1
      let y' := { y with seq := y.seq + n, tail := y.tail + n }
      let (s, k') := if k.status = .ok then writeLive x y' s else (s, k)
      if k'.status = .ok then (modCStat x.part (fun z => { z with appends := satAdd 16 z.appends n }) (setIdx i y' s), cVal y'.seq) else (s, k')

/-- R393. -/
def execCenAppend (e : Nat) (s : State) : Res :=
  .next (withIdx 4 e s fun i c s1 => cenDone e s c (some i) (cenAppend (cenCtx s1 e c.part) i c s1))

/-- R387, R393, R405: DELETE. -/
def cenDelete (x : CenCtx) (i : Nat) (c : QCmd) (s : State) : State × Cpl :=
  let y := idxOf s i
  let w := y.words
  let late := expectAns y (c.w 6) 1
  if late.any (fun k => k.status == .ok) then (s, late.getD cOk)
  else
    let r := okThen (none, none) (findMark x w (c.w 2) s) fun s m => (s, cOk, m)
    if r.2.1.status != .ok then (r.1, r.2.1)
    else match r.2.2 with
    | (some _, _) => (r.1, late.getD (cVal y.seq))
    | (none, none) => (r.1, cRef .capacity)
    | (none, some slot) =>
      if 3 * xSlots w < 4 * (y.dels + 1) then (r.1, cRef .capacity)
      else if late.isSome then (r.1, cRef .state)
      else
        let y' := { y with seq := y.seq + 1, dels := y.dels + 1 }
        let (s, a) := cenWrite x (xDel w + 16 * slot) (toLE 8 (c.w 2) ++ toLE 8 y'.seq) false r.1
        let (s, b) := if a.status = .ok then writeLive x y' s else (s, a)
        if b.status = .ok then (modCStat x.part (fun z => { z with deletes := sat 16 z.deletes }) (setIdx i y' s), cVal y'.seq) else (s, b)

/-- R393. -/
def execCenDelete (e : Nat) (s : State) : Res :=
  .next (withIdx 5 e s fun i c s1 => cenDone e s c (some i) (cenDelete (cenCtx s1 e c.part) i c s1))

/-! ### Searching (R394 to R399) -/

/-- R391, R398: the queries of a block. -/
def queriesOf (w : List Nat) (n : Nat) (d : List Byte) : List SrchQ :=
  (List.range n).map fun j =>
    let q := (d.drop (j * (16 + xD w))).take (16 + xD w)
    { param := ofLE (q.take 8), vec := vecOf (q.drop 16) }

/-- R395: a search is admitted with its snapshot. None where the read of its query block is answered RETRY. -/
def admitSearch (e : Nat) (c : QCmd) (s : State) : Option State :=
  match idxNum s c.part (nHandle c) with
  | none => some (cenFinish c none cNP s)
  | some i =>
    let x := idxOf s i
    let w := x.words
    let len := nNq c * (16 + xD w)
    let asOf := if c.w 2 = 0 then x.seq else c.w 2
    let badLen := nInline c && c.words.length - 16 != ceilDiv len 8
    if 65536 < len || badLen then some (cenFinish c (some i) cBad s)
    else match (rangeCheck s c.part (cenPart s c.part).asid (c.w 5) (nNq c * (32 + 16 * nK c)) true).or
        (if nInline c then none else rangeCheck s c.part (cenPart s c.part).asid (c.w 4) len false) with
    | some k => some (cenFinish c (some i) k s)
    | none =>
      if asOf < x.floor || x.seq < asOf then some (cenFinish c (some i) (cRef .state) s)
      else
        let (s, k, d) := if nInline c then (s, cOk, ((c.words.drop 16).flatMap (toLE 8)).take len) else cenRead (cenCtx s e c.part) (c.w 4) len s
        if k.status = .retry then none
        else if k.status != .ok then some (cenFinish c (some i) k s)
        else
          let q : Srch := { id := s.cen.nextId, e := e, cmd := c, idx := i, asOf := asOf, mgen := x.mgen, head := x.head, tail := x.tail, qs := queriesOf w (nNq c) d }
          some (modCen (fun y => { y with srchs := y.srchs ++ [q], nextId := y.nextId + 1 }) s)

def searchRoom (s : State) (e : Nat) : Bool := decide ((s.cen.srchs.filter (·.e == e)).length < 8)

/-- A search that waits at engine `e` takes a place that is free. -/
def admitWaiting (e : Nat) (s : State) : State :=
  match s.cen.waiting.find? (·.1 == e) with
  | some x =>
    if searchRoom s e && !fenced s .centroid then
      match admitSearch e x.2 (modCen (fun y => { y with waiting := y.waiting.erase x }) (cenClear (e + 16) s)) with
      | some t => t
      | none => cenAgain (e + 16) s
    else s
  | none => s

/-- R381: a search that finds 8 active waits at the unit's input; one that waits there goes first. -/
def execSearch (e : Nat) (s : State) : Res :=
  .next (if (s.cen.waiting.any (·.1 == e)) && searchRoom s e then admitWaiting e s
  else withIdx 3 e s fun _ c s1 =>
    if searchRoom s1 e then (match admitSearch e c s1 with | some t => t | none => cenAgain e s)
    else modCen (fun x => { x with waiting := x.waiting ++ [(e, c)] }) s1)

/-- R390: the records of a list visible at `asOf`. -/
def visible (c : CenCtx) (w : List Nat) (asOf : Nat) : List VRec → State → State × Cpl × List VRec
  | [], s => (s, cOk, [])
  | r :: rs, s =>
    if asOf < r.seq then visible c w asOf rs s
    else okThen [] (findMark c w r.id s) fun s m =>
      okThen [] (visible c w asOf rs s) fun s l => (s, cOk, if m.1.any (fun q => decide (q ≤ asOf)) then l else r :: l)

/-- What reading a list came to: its visible records, or that it is poisoned; any other outcome ends the search. -/
def scanList (c : CenCtx) (w : List Nat) (asOf base n : Nat) (s : State) : State × Cpl × List VRec × Bool :=
  let r := okThen [] (cenRead c base (n * recBytes w) s) fun s d => visible c w asOf (recsOf (recBytes w) n d) s
  if r.2.1.status = .poison then (r.1, cOk, [], true) else (r.1, r.2.1, r.2.2, false)

/-- R395, R396: the visible records of a cluster's active area. -/
def scanCluster (c : CenCtx) (x : Srch) (w : List Nat) (k : Nat) (s : State) : State × Cpl × List VRec × Bool :=
  let (s, r, ent) := cenRead c (xDir w + 32 * k) 32 s
  if r.status = .poison then (s, cOk, [], true)
  else if r.status != .ok then (s, r, [], false)
  else
    let (b, n, _) := activeArea ent x.mgen
    scanList c w x.asOf b n s

/-- Several lists, one after another. -/
def scanAll (c : CenCtx) (x : Srch) (w : List Nat) : List Nat → State → State × Cpl × List (Nat × List VRec × Bool)
  | [], s => (s, cOk, [])
  | k :: ks, s =>
    let (s, r, l, bad) := scanCluster c x w k s
    if r.status != .ok then (s, r, [])
    else okThen [] (scanAll c x w ks s) fun s m => (s, cOk, (k, l, bad) :: m)

/-- R396: the side records between the snapshot's ends. -/
def scanSide (c : CenCtx) (x : Srch) (w : List Nat) (s : State) : State × Cpl × List VRec × Bool :=
  (rangeFrom x.head (x.tail - x.head)).foldl (fun (s, r, l, bad) i =>
    if r.status != .ok then (s, r, l, bad)
    else
      let (s, r, l', b) := scanList c w x.asOf (xSide w + i % 2 ^ 32 % xSideCap w * recBytes w) 1 s
      (s, r, l ++ l', bad || b)) (s, cOk, [], false)

/-- R396, R397: one query's round over the lists read; `order` is its clusters in order. -/
def roundOf (x : Srch) (w order : List Nat) (lists : List (Nat × List VRec × Bool)) (side : List VRec × Bool) (badAll : Bool)
    (probed : Nat) (q : SrchQ) : SrchQ :=
  let cs := order.take probed
  let mine := lists.filter fun l => cs.contains l.1
  let recs := mine.flatMap (fun l => l.2.1) ++ side.1.filter fun r => cs.contains r.cluster
  let hits := (recs.filter fun r => passes x.cmd q.param r.attr).map fun r => (r, distance (xIp w) q.vec r.vec)
  let best := (sortBy (fun p => ikey p.2) (sortBy (fun p => p.1.id) (sortBy (fun p => p.1.seq) hits))).take (nK x.cmd)
  let top := min (nMax x.cmd) (xNlist w)
  { q with
    probed := probed, res := best.map fun p => (p.1.id, p.2), scanned := recs.length,
    bad := badAll || side.2 || mine.any (fun l => l.2.2),
    isOver := decide (nK x.cmd ≤ best.length) || !nWiden x.cmd || decide (top ≤ probed) }

/-- The clusters a query's next round probes. -/
def nextProbed (x : Srch) (w : List Nat) (q : SrchQ) : Nat :=
  let top := min (nMax x.cmd) (xNlist w)
  if q.probed = 0 then min (nProbe x.cmd) (xNlist w) else min top (q.probed + nStep x.cmd)

/-- A round of every query that goes on. -/
def searchRound (x : Srch) (s : State) : State × Cpl × Srch :=
  let w := (idxOf s x.idx).words
  let c := cenCtx s x.e x.cmd.part
  let (s, k, cents) := cenRead c (xCent w) (xNlist w * xD w) s
  let badAll := k.status == .poison
  if k.status != .ok && !badAll then (s, k, x)
  else
    let plan := x.qs.map fun q => (q, if badAll then [] else clusterOrder w cents q.vec, nextProbed x w q)
    let lists := (plan.flatMap fun p => if p.1.isOver then [] else p.2.1.take p.2.2).eraseDups
    okThen x (scanAll c x w lists s) fun s ls =>
      let (s, k, side, sbad) := scanSide c x w s
      if k.status != .ok then (s, k, x)
      else (s, cOk, { x with qs := plan.map fun p => if p.1.isOver then p.1 else roundOf x w p.2.1 ls (side, sbad) badAll p.2.2 p.1 })

/-- R398: a query's result. -/
def queryResult (k asOf : Nat) (q : SrchQ) : List Byte :=
  let n := q.res.length
  let st := if n < k then Status.partialDone else Status.ok
  let hdr := [pack [(4, st.code), (11, n), (17, q.probed)], asOf, q.scanned, 0].flatMap (toLE 8)
  hdr ++ ((List.range k).flatMap fun i => match q.res[i]? with
    | some (id, d) => toLE 8 id ++ toLE 8 (toTwos 64 d)
    | none => toLE 8 (2 ^ 64 - 1) ++ toLE 8 (2 ^ 63 - 1))

/-- The results are written, those of a poisoned query with the mark; what R384 leaves undefined is free. -/
def writeResults (x : Srch) (s : State) : State × Cpl :=
  let c := cenCtx s x.e x.cmd.part
  let sz := 32 + 16 * nK x.cmd
  let spoiled := idxSpoiled s x.idx
  (x.qs.zipIdx).foldl (fun (s, k) (q, j) =>
    let free := q.bad || spoiled
    let d := if free then (List.range sz).map fun i => Config.freeByte s.fresh i else queryResult (nK x.cmd) x.asOf q
    let s := if free then useFresh s else s
    let (s, k') := cenWrite c (x.cmd.w 5 + j * sz) d q.bad s
    (s, worse k (worse (if q.bad then cPoison else cOk) k'))) (s, cOk)

/-- A search ends; a CLOSE_INDEX that waited for the last goes on, and a waiting search takes its place. -/
def endSearch (x : Srch) (k : Cpl) (s : State) : State :=
  let s := modCen (fun c => { c with srchs := c.srchs.filter (·.id != x.id) }) s
  let s := modCStat x.cmd.part (fun y => { y with searches := sat 16 y.searches }) s
  let s := cenFinish x.cmd (some x.idx) k s
  let s := match (idxOf s x.idx).closing with
    | some c => if searchesOn s x.idx = 0 then closeNow c.id x.idx c s else s
    | none => s
  admitWaiting x.e s

/-- R404: the search may take the scan unit: no active search of an earlier class is on its engine. -/
def scanTurn (s : State) (x : Srch) : Bool :=
  let act := (s.cen.srchs.filter (·.e == x.e)).map (·.cmd.cls.code)
  act.all (fun k => decide (x.cmd.cls.code ≤ k)) ||
    ((arbOf s (arbKey .centroid x.e)).promo.any (fun p => p.1 == x.cmd.part && p.2.1 == x.cmd.cls.code) && !act.contains 0)

/-- R396 to R398, R405: a round of a search; a read answered RETRY is made again until 20 µs have passed. -/
def execSearchRoundDone (id : Nat) (s : State) : Res :=
  .next (if fenced s .centroid then s
  else match s.cen.srchs.find? (·.id == id) with
  | none => s
  | some x =>
    if !scanTurn s x then s
    else
      let key := arbKey .centroid x.e
      let (s1, k, y) := searchRound x s
      let a := arbOf s1 key
      let s1 := setArb key { a with promo := a.promo.filter fun p => !(p.1 == x.cmd.part && p.2.1 == x.cmd.cls.code) } s1
      let again : State :=
        if x.firstTry.any (fun t => decide (t + 20000 ≤ s.ft)) then endSearch x cTimeout s
        else
          let put := fun (z : Srch) => if z.id = id then { z with firstTry := z.firstTry.or (some s.ft) } else z
          modCen (fun c => { c with srchs := c.srchs.map put }) s
      if k.status = .retry then again
      else if k.status != .ok then endSearch x k s1
      else
        let rounds := ((x.qs.zip y.qs).filter fun p => p.1.probed != 0 && !p.1.isOver).length
        let s1 := modCStat x.cmd.part (fun z => { z with widened := satAdd 16 z.widened (min 1 rounds) }) s1
        if y.qs.all (·.isOver) then
          let (s2, w) := writeResults y s1
          if w.status = .retry then again
          else
            let n := sumOf (y.qs.map fun q => q.res.length)
            let short := (y.qs.filter fun q => decide (q.res.length < nK x.cmd)).length
            let s2 := modCStat x.cmd.part (fun z => { z with partialQ := satAdd 16 z.partialQ short }) s2
            endSearch x (if w.status != .ok then { w with value := n } else if short = 0 then cVal n else { status := .partialDone, value := n }) s2
        else
          let put := fun (z : Srch) => if z.id = id then { y with firstTry := none } else z
          modCen (fun c => { c with srchs := c.srchs.map put }) s1)

/-! ### The merge (R401 to R403) -/

/-- R401: MERGE is admitted. -/
def execMerge (e : Nat) (s : State) : Res :=
  .next (withIdx 6 e s fun i c s =>
    let x := idxOf s i
    if x.merge.isSome then cenFinish c (some i) (cRef .state) s
    else
      let keep := if c.w 2 = 0 then x.seq else c.w 2
      setIdx i { x with merge := some { cmd := { c with id := e }, m := x.seq, f := max x.floor (min keep x.seq), n := x.mgen + 1 } } s)

/-- The side records of an index from HEAD to TAIL. -/
def sideRecs (c : CenCtx) (x : Idx) (s : State) : State × Cpl × List VRec :=
  (rangeFrom x.head (x.tail - x.head)).foldl (fun (s, k, l) i =>
    if k.status != .ok then (s, k, l)
    else
      let (s, k, d) := cenRead c (xSide x.words + i % 2 ^ 32 % xSideCap x.words * recBytes x.words) (recBytes x.words) s
      (s, k, if k.status = .ok then l ++ [recOf d] else l)) (s, cOk, [])

/-- Records without a mark at DEL_SEQ ≤ f, and whether any was marked. -/
def unmarked (c : CenCtx) (w : List Nat) (f : Nat) : List VRec → State → State × Cpl × List VRec × Bool
  | [], s => (s, cOk, [], false)
  | r :: rs, s =>
    okThen ([], false) (findMark c w r.id s) fun s m =>
      okThen ([], false) (unmarked c w f rs s) fun s l =>
        if m.1.any (fun q => decide (q ≤ f)) then (s, cOk, l.1, true) else (s, cOk, r :: l.1, l.2)

/-- R401 step 2: one cluster. -/
def mergeCluster (c : CenCtx) (x : Idx) (j : MergeJob) (side : List VRec) (k : Nat) (s : State) : State × Cpl :=
  let w := x.words
  let r := okThen () (cenRead c (xDir w + 32 * k) 32 s) fun s ent =>
    let (b, n, useB) := activeArea ent x.mgen
    okThen () (cenRead c b (n * recBytes w) s) fun s d =>
      okThen () (unmarked c w j.f (recsOf (recBytes w) n d) s) fun s l =>
        let mine := side.filter fun r => r.cluster == k && decide (r.seq ≤ j.m)
        if mine.isEmpty && !l.2 then (s, cOk, ())
        else okThen () (unmarked c w j.f mine s) fun s l2 =>
          let new := l.1 ++ l2.1
          if xListCap w < new.length then (s, { status := .refused, reason := some .capacity, value := k }, ())
          else
            let base := ofLE ((ent.drop (if useB then 0 else 8)).take 8)
            let (s, a) := if new.isEmpty then (s, cOk) else cenWrite c base (new.flatMap recData) false s
            let cnt := fun (o : Nat) (b : Bool) => if b then toLE 4 new.length else (ent.drop o).take 4
            let gen := fun (o : Nat) (b : Bool) => if b then toLE 4 j.n else (ent.drop o).take 4
            let (s, b) := cenWrite c (xDir w + 32 * k + 16) (cnt 16 useB ++ cnt 20 (!useB) ++ gen 24 useB ++ gen 28 (!useB)) false s
            (s, worse a b, ())
  (r.1, r.2.1)

/-- R401 step 2 over every cluster in ascending order. -/
def mergeAll (c : CenCtx) (x : Idx) (j : MergeJob) (side : List VRec) : List Nat → State → State × Cpl
  | [], s => (s, cOk)
  | k :: ks, s =>
    let (s, r) := mergeCluster c x j side k s
    if r.status = .ok then mergeAll c x j side ks s else (s, r)

/-- R401 steps 1 to 3, R403, R413. -/
def execMergeCommit (i : Nat) (s : State) : Res :=
  let x := idxOf s i
  .next (match x.merge with
  | none => s
  | some j =>
    if j.committed || fenced s .centroid || s.cen.srchs.any (fun q => q.idx == i && decide (q.mgen + 1 < j.n)) then s
    else
      let c := cenCtx s j.cmd.id x.part
      let again : State :=
        if j.firstTry.any (fun t => decide (t + 20000 ≤ s.ft)) then cenFinish j.cmd (some i) cTimeout (setIdx i { x with merge := none } s)
        else setIdx i { x with merge := some { j with firstTry := j.firstTry.or (some s.ft) } } s
      let stop := fun (k : Cpl) (t : State) => cenFinish j.cmd (some i) k (setIdx i { x with merge := none } t)
      let (s1, k, side) := sideRecs c x s
      let (s2, k) := if k.status = .ok then mergeAll c x j side (List.range (xNlist x.words)) s1 else (s1, k)
      if k.status = .retry then again
      else if k.status != .ok then stop k s2
      else
        let moved := (side.filter fun r => decide (r.seq ≤ j.m)).length
        let x' := { x with mgen := j.n, floor := j.f, head := x.head + moved, merge := some { j with committed := true, firstTry := none } }
        let (s3, k) := writeLive c x' s2
        if k.status = .retry then again
        else if k.status != .ok then stop k s3
        else modCStat x.part (fun z => { z with merges := sat 16 z.merges }) (setIdx i x' s3))

/-- R401 steps 4 and 5, R402. -/
def execMergeMarkRemove (i : Nat) (s : State) : Res :=
  let x := idxOf s i
  .next (match x.merge with
  | none => s
  | some j =>
    if !j.committed || fenced s .centroid || s.cen.srchs.any (fun q => q.idx == i && decide (q.mgen < j.n)) then s
    else
      let c := cenCtx s j.cmd.id x.part
      let (s1, k, d) := cenRead c (xDel x.words) (16 * xSlots x.words) s
      let again : State :=
        if j.firstTry.any (fun t => decide (t + 20000 ≤ s.ft)) then cenFinish j.cmd (some i) cTimeout (setIdx i { x with merge := none, side := x.head } s)
        else setIdx i { x with merge := some { j with firstTry := j.firstTry.or (some s.ft) } } s
      if k.status = .retry then again
      else if k.status != .ok then cenFinish j.cmd (some i) k (setIdx i { x with merge := none, side := x.head } s1)
      else
        let old := tableOf x.words d
        let new := compactTable x.words (fun q => decide (q ≤ j.f)) old
        let (s2, a) := writeTable c x.words old new s1
        let x' := { x with merge := none, side := x.head, dels := new.length }
        let (s3, b) := writeLive c x' s2
        if (worse a b).status = .retry then again
        else
          let k := if (worse a b).status = .ok then cVal j.n else worse a b
          cenFinish j.cmd (some i) k (setIdx i x' s3))

/-! ### Timeouts, fences and scrubs (R405, R413) -/

/-- The command an engine's queue holds, or the search that waits at its input, has met RETRY for 20 µs. -/
def cenTimeout (s : State) : State :=
  (s.cen.tries.filter fun e => decide (e.2 + 20000 ≤ s.ft)).foldl (fun s e =>
    let s := cenClear e.1 s
    if 16 ≤ e.1 then
      match s.cen.waiting.find? (·.1 == e.1 - 16) with
      | some x => cenFinish x.2 (idxNum s x.2.part (nHandle x.2)) cTimeout (modCen (fun y => { y with waiting := y.waiting.erase x }) s)
      | none => s
    else match takeCmd .centroid e.1 (96 + e.1) (fun _ => true) s with
    | some (c, s) => cenFinish c (idxNum s c.part (nHandle c)) cTimeout s
    | none => s) s

/-- R16, R413: active commands that satisfy `p` complete with POISON; a merge that has not committed
leaves the index unchanged, a committed one goes on later. -/
def cenEnd (p : QCmd → Bool) (s : State) : State :=
  let s := (s.cen.waiting.filter fun x => p x.2).foldl (fun s x =>
    cenFinish x.2 none cPoison (cenClear (x.1 + 16) (modCen (fun c => { c with waiting := c.waiting.erase x }) s))) s
  let s := (s.cen.idxs.filter fun e => e.2.closing.any p).foldl (fun s e =>
    match e.2.closing with
    | some c => cenFinish c (some e.1) cPoison (setIdx e.1 { idxOf s e.1 with closing := none } s)
    | none => s) s
  let s := (s.cen.srchs.filter fun x => p x.cmd).foldl (fun s x => endSearch x cPoison s) s
  (s.cen.idxs.filter fun e => e.2.merge.any fun j => p j.cmd && !j.committed).foldl (fun s e =>
    match e.2.merge with
    | some j => cenFinish j.cmd (some e.1) cPoison (setIdx e.1 { idxOf s e.1 with merge := none } s)
    | none => s) s

/-- R382, R413: a scrub closes the partition's contexts, every GEN of its range advanced. -/
def cenScrub (n : Nat) (s : State) : State :=
  let o := cenPart s n
  let s := (rangeFrom o.base o.count).foldl (fun s i =>
    if (idxOf s i).isOpen then s else setIdx i { idxOf s i with gen := ((idxOf s i).gen + 1) % 256 } s) s
  let is := (s.cen.idxs.filter fun e => e.2.isOpen && e.2.part == n).map (·.1)
  let s := is.foldl (fun s i => freeIdx i s) s
  modCen (fun c => { c with
    srchs := c.srchs.filter (·.cmd.part != n), waiting := c.waiting.filter (·.2.part != n),
    tries := c.tries.filter fun x => (seqOf s (96 + x.1 % 16)).part != n }) s

end Sys2Proof.Machine
end

