-- ==== Sys2Proof/Machine/Arc.lean ====
section
/-!
DEFINITION. Lattice and Arc (R19 to R27, R414 to R449): admission, policing, output scheduling, starvation and age
promotion, PAUSE and PFC, the fairness auditor and the monitors.
-/
namespace Sys2Proof.Machine

def modFlow (n : Nat) (f : FlowSt → FlowSt) (s : State) : State := modArc (fun a => { a with flows := a.flows.mod n f }) s
def modArcPart (n : Nat) (f : ArcPart → ArcPart) (s : State) : State := modArc (fun a => { a with parts := a.parts.mod n f }) s
def modEth (p : Nat) (f : EthStat → EthStat) (s : State) : State := modArc (fun a => { a with eth := a.eth.mod p f }) s
def outSt (s : State) (o : Nat) : OutSt := s.arc.outs.get o
def setOut (o : Nat) (x : OutSt) (s : State) : State := modArc (fun a => { a with outs := a.outs.set o x }) s
def ethCfg (s : State) (p : Nat) : EthCfg := (s.cmp.active.ethCfg.find? (·.port == p)).getD { port := p }

/-! ### Monitors (R437) -/

/-- R437: CLEAR. -/
def monClear (n : Nat) (s : State) : State := modArc (fun a => { a with mons := a.mons.filter fun e => e.1 % 16 != n }) s

/-! ### Cells (R22 to R26) -/

def cellsOf (len : Nat) : Nat := ceilDiv (max 1 len) 128
def totalCells : Nat := 2097152
def internalCells : Nat := 131072
def freeCells (s : State) : Nat := totalCells - (sumOf (s.lat.used.map (·.2)) + s.lat.internalUsed)

/-- R22: cells of the shared pool in use, and how many it has. -/
def sharedUsed (s : State) : Nat :=
  sumOf (s.lat.used.map fun e => e.2 - (partRec s e.1).rsvCells) + (s.lat.internalUsed - internalCells)
def sharedCells (s : State) : Nat := totalCells - internalCells - sumOf (s.cmp.active.parts.map (·.rsvCells))

/-- R22, R24: whether `k` cells can be had by a request of partition `n`, or by a packet of the internal reserve. -/
def cellRoom (s : State) (rsv : Bool) (n k : Nat) : Bool :=
  let isOver := if rsv then s.lat.internalUsed + k - max internalCells s.lat.internalUsed
    else s.lat.used.get n + k - max (partRec s n).rsvCells (s.lat.used.get n)
  decide (sharedUsed s + isOver ≤ sharedCells s)

def takeCells (rsv : Bool) (n k : Nat) (s : State) : State :=
  let l := if rsv then { s.lat with internalUsed := s.lat.internalUsed + k } else { s.lat with used := s.lat.used.mod n (· + k) }
  let s := { s with lat := l }
  { s with lat := { s.lat with minFree := min s.lat.minFree (freeCells s) } }

def giveCells (rsv : Bool) (n k : Nat) (s : State) : State :=
  { s with lat := if rsv then { s.lat with internalUsed := s.lat.internalUsed - k } else { s.lat with used := s.lat.used.mod n (· - k) } }

/-- R25: a write of 1 to MIN_RELOAD. -/
def minReload (s : State) : State := { s with lat := { s.lat with minFree := freeCells s } }

/-! ### Classification (R414 to R417) -/

def isPort (a : Nat) : Bool := decide (a < 256)

/-- R416: a packet's partition and slot. -/
def classify (s : State) (p : PktIn) : Nat × Nat :=
  if isPort p.input then
    let n := (port s p.input).part.getD 16
    if (port s p.input).mode = .eth then
      let e := ethCfg s p.input
      let pcp := p.pcp.getD e.defaultPcp
      (n, bits e.tcmap (3 * pcp + 2) (3 * pcp))
    else (n, p.slot)
  else (p.part, p.slot)

/-- The number of the implicit flow of a key. -/
def implicitFlow (a n slot : Nat) : Nat := 8192 + (a * 32 + n) * 8 + slot

/-- R415, R416: the flow of a key: its number and parameters, and whether it has an entry. -/
def flowOf (s : State) (a n slot : Nat) : FlowCfg × Bool :=
  match s.cmp.active.flows.find? fun f => f.attach == a && f.part == n && f.slot == slot with
  | some f => (f, true)
  | none => ({ n := implicitFlow a n slot, attach := a, part := n, slot := slot }, false)

/-- The parameters of a flow number. -/
def flowCfg (s : State) (n : Nat) : FlowCfg :=
  (s.cmp.active.flows.find? (·.n == n)).getD { n := n, attach := (n - 8192) / 256, part := (n - 8192) / 8 % 32, slot := n % 8 }

/-- R417. -/
def charged (f : FlowCfg) (len : Nat) : Nat := max 1 ((len : Int) + f.overhead).toNat

/-! ### Policing (R418, R419) -/

inductive Colour where
  | green | yellow | red
deriving DecidableEq, Repr

/-- R418: the buckets filled up to now; one eightieth of a byte for each 0.1 Gb/s and nanosecond. -/
def fillBuckets (s : State) (f : FlowCfg) (x : FlowSt) : FlowSt :=
  let dt := s.ft - x.last
  if x.metered then { x with tc := min (f.cbs * 1024 * 80) (x.tc + f.cir * dt), tp := min (f.pbs * 1024 * 80) (x.tp + f.pir * dt), last := s.ft }
  else { x with tc := f.cbs * 1024 * 80, tp := f.pbs * 1024 * 80, last := s.ft, metered := true }

/-- RFC 2698, colour-blind. -/
def colourOf (f : FlowCfg) (x : FlowSt) (b : Nat) : Colour :=
  if !f.police then .green else if x.tp < 80 * b then .red else if x.tc < 80 * b then .yellow else .green

/-- Only a forwarded packet takes tokens (R420). -/
def meter (f : FlowCfg) (c : Colour) (b : Nat) (x : FlowSt) : FlowSt :=
  if !f.police then x
  else match c with
  | .green => { x with tc := x.tc - 80 * b, tp := x.tp - 80 * b }
  | .yellow => { x with tp := x.tp - 80 * b, yellow := sat 16 x.yellow }
  | .red => x

/-- The cells of the buffer that a flow holds. -/
def flowCells (s : State) (f : Nat) : Nat := sumOf ((s.arc.packets.filter (·.flow == f)).map fun p => cellsOf p.len)

/-! ### Flow control of Ethernet inputs (R431, R433) -/

/-- The key of a port and priority with flow control: 8 for PAUSE. -/
def fcKey (s : State) (p prio : Nat) : Option Nat :=
  let e := ethCfg s p
  if (port s p).mode != .eth then none
  else if e.mode = 1 then some (p * 16 + 8) else if e.mode = 2 && bitOf e.pfcEn prio then some (p * 16 + prio) else none

/-- R433: the bytes in the buffer of frames received on a port at a flow-controlled priority. -/
def fcBytes (s : State) (key : Nat) : Nat :=
  sumOf ((s.arc.packets.filter fun x => isPort x.input && fcKey s x.input x.pcp == some key).map (·.len))

/-- R433: a PAUSE or PFC frame is sent. -/
def sendFc (key time : Nat) (s : State) : State :=
  let p := key / 16
  let s := if key % 16 = 8 then send .pauseFrame p [time] s else send .pfcFrame p [key % 16, time] s
  let s := modEth p (fun e => { e with fcTx := sat 16 e.fcTx }) s
  modArc (fun a => { a with fcSent := if time = 0 then a.fcSent.del key else a.fcSent.put key s.ft }) s

/-- A frame of the key waits for want of a cell (R24). -/
def fcWaiting (s : State) (key : Nat) : Bool :=
  s.arc.held.any fun h => !h.red && !h.big && isPort h.pkt.input && fcKey s h.pkt.input (h.pkt.pcp.getD (ethCfg s h.pkt.input).defaultPcp) == some key

/-- XOFF: the threshold is reached, or R24 applies. -/
def fcCheck (key : Nat) (s : State) : State :=
  let e := ethCfg s (key / 16)
  let b := fcBytes s key
  let sent := s.arc.fcSent.any fun x => x.1 == key
  if !sent && (decide (e.xoffKib * 1024 ≤ b) || fcWaiting s key) then sendFc key 0xFFFF s
  else if sent && decide (b < e.xonKib * 1024) && !fcWaiting s key then sendFc key 0 s
  else s

/-- R432: pause quanta in hundredths of a nanosecond: 64, or 32 on a ganged port. -/
def quantumOf (s : State) (p : Nat) : Nat := if (port s p).gang.isSome then 32 else 64
def quantaNs (s : State) (p t : Nat) : Nat := ceilDiv (t * quantumOf s p) 100

/-- R433: half of the time sent has elapsed while XOFF holds. -/
def execFcRefresh (p prio : Nat) (s : State) : Res :=
  .next (match fcKey s p prio with
  | none => s
  | some key =>
    match s.arc.fcSent.find? fun x => x.1 == key with
    | some (_, t) =>
      let e := ethCfg s p
      let hold := decide (e.xoffKib * 1024 ≤ fcBytes s key) || fcWaiting s key
      if hold && decide (t + quantaNs s p 0xFFFF / 2 ≤ s.ft) then sendFc key 0xFFFF s else s
    | none => s)

/-! ### Admission (R419, R420) -/

/-- R24: what becomes of a request-class packet that finds no cell. -/
def noCell (p : PktIn) (n slot : Nat) (s : State) : State :=
  let hold := modArc (fun a => { a with held := a.held ++ [{ pkt := p, at_ := s.ft }] })
  if isPort p.input then
    if (port s p.input).mode = .eth then
      match fcKey s p.input (p.pcp.getD (ethCfg s p.input).defaultPcp) with
      | some key => fcCheck key (hold s)
      | none => send .dropped p.input [n, slot] (modEth p.input (fun e => { e with tailDrops := sat 16 e.tailDrops }) s)
    else send .creditWithheld p.input [n] (hold s)
  else hold s

/-- The messages held for a port: a non-posted one completes with `c`, a posted one is dropped and counted. -/
def dropHeld (p : Nat) (c : Cpl) (s : State) : State :=
  let mine := s.arc.packets.filter fun k => k.out == p
  let s := modArc (fun a => { a with packets := a.packets.filter fun k => k.out != p }) s
  mine.foldl (fun s k =>
    let s := giveCells k.rsv k.part (cellsOf k.len) s
    let counted := k.posted || c.status == .refused
    let s := if counted then modPort p (fun x => { x with downDrops := sat 16 x.downDrops }) s else s
    if k.posted then s else reply k.who c s) s

/-- A packet joins its output's queue; a STOPPED port's messages are refused (R460). -/
def enterBuffer (p : PktIn) (f : FlowCfg) (n slot : Nat) (rsv : Bool) (s : State) : State :=
  let pcp := p.pcp.getD (ethCfg s p.input).defaultPcp
  let b := bucketOf p.steer
  let out := if isPair p.output then bucketPort s b else p.output
  let x : Packet := { id := s.arc.nextId, input := p.input, out := out, part := n, slot := slot, flow := f.n, chg := charged f p.len,
                      len := p.len, rsv := rsv, pcp := pcp, arrived := s.ft, who := p.who, posted := p.posted, cls := p.cls,
                      bucket := if isPair p.output then some b else none }
  let s := takeCells rsv n (cellsOf p.len) s
  let s := modArc (fun a => { a with packets := a.packets ++ [x], nextId := a.nextId + 1 }) s
  let o := outSt s out
  let key := n * 8 + slot
  let s := if slot = 0 || slot = 7 || o.since.any (fun e => e.1 == key) then s else setOut out { o with since := o.since.put key s.ft } s
  let s := if isPort out && (port s out).st == .stopped then dropHeld out (cRef .epochExhausted) s else s
  match fcKey s p.input pcp with
  | some k => if isPort p.input then fcCheck k s else s
  | none => s

/-- A request of XCL that completes, or a frame or posted message that is dropped. -/
def refusePkt (p : PktIn) (r : Reason) (s : State) : State :=
  let n := (classify s p).1
  let s := if isPort p.input then returnCredit p.input n p.cls p.len s else s
  if p.posted || (isPort p.input && (port s p.input).mode == .eth) then send .dropped p.input [r.code] s
  else
    let s := if r = .quota then modArcPart n (fun y => { y with quotaRefused := sat 16 y.quotaRefused }) s else s
    reply p.who (cRef r) s

/-- A packet of the same input, partition and slot waits at Arc's ingress: later ones wait behind it. -/
def waitsAhead (s : State) (p : PktIn) : Option HeldPkt :=
  s.arc.held.find? fun h => !h.big && h.pkt.input == p.input && classify s h.pkt == classify s p

/-- R420: the checks of admission, and the packet's entry into the buffer. One that has waited comes `again`; one that has
waited for its energy has `paid`. -/
def admitPktAs (again paid : Bool) (p : PktIn) (s : State) : State :=
  let (n, slot) := classify s p
  let (f, mapped) := flowOf s p.input n slot
  let s := if mapped || again then s else modArc (fun a => { a with unmapped := sat 16 a.unmapped }) s
  let pair := decide (256 ≤ p.input) && decide (p.input < 264)
  let rsv := slot == 7 || pair
  let k := cellsOf p.len
  let ahead := if again then none else waitsAhead s p
  if ahead.isSome then modArc (fun a => { a with held := a.held ++ [{ pkt := p, red := ahead.any (·.red), at_ := s.ft }] }) s
  else if rsv then
    -- R23: a reply takes a cell of the internal reserve, else of the shared pool
    (if cellRoom s true n k then enterBuffer p f n slot true s else modArc (fun a => { a with held := a.held ++ [{ pkt := p, at_ := s.ft }] }) s)
  else
    let xcl := isPort p.input && (port s p.input).mode == .xcl
    let x := fillBuckets s f (s.arc.flows.get f.n)
    let b := charged f p.len
    let col := colourOf f x b
    let s := modFlow f.n (fun _ => x) s
    let cost := preCost s 6 p.cls ((List.range 10).map fun u => (u, p.bytes))
    let low := xcl && (slot == 3 || slot == 4) && (p.cls == 1 || p.cls == 3) && !paid
    let ans := if low && !p.posted then energyAns s (if slot = 3 then .parkMove else .background) cost else .admitted
    let qfull := xcl && !p.posted && mapped && decide (f.qmax ≤ flowCells s f.n)
    let poor := ans == .refused
    let disc := col == .red && !f.hold
    let reasons := (if qfull then [Reason.queueFull] else []) ++ (if poor then [Reason.energy] else []) ++ (if disc then [Reason.quota] else [])
    match lowestReason reasons with
    | some r =>
      let s := if disc then modFlow f.n (fun y => { y with red := sat 16 y.red }) s else s
      let s := match r with
        | .queueFull => modFlow f.n (fun y => { y with qfull := sat 16 y.qfull }) s
        | .energy => countEnergyRefusal n (modArcPart n (fun y => { y with energyRefused := sat 16 y.energyRefused }) s)
        | _ => s
      refusePkt p r s
    | none =>
      if ans = .oversize then
        countEnergyWait n (modArc (fun a => { a with held := a.held ++ [{ pkt := p, big := true, at_ := s.ft }] }) s)
      else if col = .red then
        modFlow f.n (fun y => { y with red := sat 16 y.red }) (modArc (fun a => { a with held := a.held ++ [{ pkt := p, red := true, at_ := s.ft }] })
          (send .creditWithheld p.input [n] s))
      else if !cellRoom s false n k then noCell p n slot s
      else
        let s := modFlow f.n (meter f col b) s
        let s := if low then debit n cost s else s
        let s := if col = .yellow && p.ecn && isPort p.input && (port s p.input).mode == .eth then send .ceMarked p.output [f.n] s else s
        enterBuffer p f n slot false s

def admitPkt (p : PktIn) (s : State) : State := admitPktAs false false p s

/-- R420. -/
def execPacketAdmit (p : PktIn) (s : State) : Res := .next (admitPkt p s)

/-- A held packet is presented again; those behind it on its flow wait their turn. -/
def releaseHeld (a : Nat) (red : Bool) (s : State) : State :=
  match s.arc.held.find? fun h => h.pkt.input == a && h.red == red && !h.big with
  | none => s
  | some h =>
    let (n, slot) := classify s h.pkt
    let (f, _) := flowOf s a n slot
    let x := fillBuckets s f (s.arc.flows.get f.n)
    let rsv := slot == 7 || (decide (256 ≤ a) && decide (a < 264))
    if !cellRoom s rsv n (cellsOf h.pkt.len) || (!rsv && colourOf f x (charged f h.pkt.len) == .red) then s
    else admitPktAs true false h.pkt (modArc (fun y => { y with held := y.held.erase h }) s)

/-- R24. -/
def execAttachmentHoldRelease (a : Nat) (s : State) : Res := .next (releaseHeld a false s)
/-- R419. -/
def execRedHoldRelease (a : Nat) (s : State) : Res := .next (releaseHeld a true s)

/-! ### Output scheduling (R421 to R425, R430) -/

/-- R423: a shaper's count, filled up to now, in eightieths of a byte. -/
def shaperOf (s : State) (o n : Nat) : Option Shaper := s.cmp.active.shapers.find? fun x => x.attach == o && x.part == n && x.en
def shapeCount (s : State) (o n : Nat) (x : Shaper) : Int :=
  let st := outSt s o
  let full : Int := x.burst * 1024 * 80
  match st.shapeAt.find? fun e => e.1 == n with
  | some (_, t) => min full (st.shape.get n + (x.rate * (s.ft - t) : Nat))
  | none => full

/-- R432, R434: whether the other end has paused a packet's port, priority or class. -/
def pausedNow (s : State) (p : Packet) : Bool :=
  let on := fun (k : Nat) => s.arc.paused.any fun e => e.1 == k && decide (s.ft < e.2)
  if !isPort p.out then false
  else if (port s p.out).mode = .eth then on (p.out * 16 + 8) || on (p.out * 16 + p.pcp) else p.slot != 7 && on (p.out * 16 + p.slot)

/-- The packets of an output that may leave, of slot `k`, oldest first. -/
def eligible (s : State) (o k : Nat) : List Packet :=
  s.arc.packets.filter fun p => p.out == o && p.slot == k && !pausedNow s p && linkReady s o p.part p.cls p.len &&
    (k == 7 || match shaperOf s o p.part with | some x => decide (0 ≤ shapeCount s o p.part x) | none => true)

/-- R443: a partition's quantum at a tier, in bytes. -/
def tierQuantum (s : State) (n k : Nat) : Nat :=
  ((s.cmp.active.quanta.find? (·.1 == n)).map fun q => q.2.getD k 0).getD 0 * 1024

/-- R422: the flow that leads a partition's queue, its head packet, and the flows' arbiter. -/
def flowPick (s : State) (o k n : Nat) (ps : List Packet) : Option (Packet × Arb) :=
  let mine := ps.filter (·.part == n)
  let fs := sortBy id ((mine.map (·.flow)).eraseDups)
  let nodes := fs.filterMap fun f => (mine.find? (·.flow == f)).map fun p => (f, p.chg, (flowCfg s f).quantum * 64)
  match drrPick ((outSt s o).flows.get (n * 8 + k)) nodes with
  | some (f, a) => (mine.find? (·.flow == f)).map fun p => (p, a)
  | none => none

/-- What an output sends next: the packet, and the scheduler once it is sent. -/
def tierPick (s : State) (o k : Nat) : Option (Packet × OutSt) :=
  let ps := eligible s o k
  let st := outSt s o
  let ns := (sortBy id ((ps.map (·.part)).eraseDups)).filter fun n => tierQuantum s n k != 0
  let nodes := ns.filterMap fun n => (flowPick s o k n ps).map fun x => (n, x.1.chg, tierQuantum s n k)
  match drrPick (st.parts.get k) nodes with
  | none => none
  | some (n, pa) =>
    match flowPick s o k n ps with
    | none => none
    | some (p, fa) =>
      -- R422, R432: a node that empties loses its deficit; one whose packets are paused keeps it
      let here := s.arc.packets.filter fun x => x.out == o && x.slot == k && x.part == n
      let lastN := decide (here.length ≤ 1)
      let lastF := decide ((here.filter fun x => x.flow == p.flow).length ≤ 1)
      some (p, { st with parts := st.parts.set k (drrServe n p.chg lastN pa), flows := st.flows.set (n * 8 + k) (drrServe p.flow p.chg lastF fa) })

/-- R430: at a choice in its tier, the head packet of a flow under age promotion that is older than the one round robin
would send; of several, the one waiting longest, then the lowest flow. -/
def agePick (s : State) (o k : Nat) (p : Packet) : Option Packet :=
  let fs := (s.cmp.active.flows.filter fun f => f.audit && f.auditOut == o && f.slot == k && (s.arc.flows.get f.n).age).map (·.n)
  let heads := (sortBy id fs).filterMap fun f => (eligible s o k).find? (·.flow == f)
  (sortBy (·.arrived) (heads.filter fun x => decide (x.arrived < p.arrived))).head?

/-- R428: a flow has a packet for an output waiting, at Arc's ingress or in the output's queue. -/
def waitsFor (s : State) (f o : Nat) : Bool :=
  (s.arc.packets.any fun x => x.flow == f && x.out == o) ||
    s.arc.held.any fun h => h.pkt.output == o && (flowOf s h.pkt.input (classify s h.pkt).1 (classify s h.pkt).2).1.n == f

/-- The packet leaves: cells are freed, and what is counted of it is counted; a link carries it (R459, R468). -/
def sendPkt (p : Packet) (s : State) : State :=
  let s := modArc (fun a => { a with packets := a.packets.filter (·.id != p.id) }) s
  let s := giveCells p.rsv p.part (cellsOf p.len) s
  let o := outSt s p.out
  let left := s.arc.packets.any fun x => x.out == p.out && x.part == p.part && x.slot == p.slot
  let key := p.part * 8 + p.slot
  let since := if p.slot = 0 || p.slot = 7 then o.since else if left then o.since.put key s.ft else o.since.del key
  let o := { o with since := since, tier := o.tier.mod p.slot (· + p.chg) }
  let o := if p.slot = 7 then o else match shaperOf s p.out p.part with
    | some x => { o with shape := o.shape.set p.part (shapeCount s p.out p.part x - (80 * p.chg : Nat)), shapeAt := o.shapeAt.put p.part s.ft }
    | none => o
  let s := setOut p.out o s
  let f := flowCfg s p.flow
  let waits := waitsFor s p.flow p.out
  let s := modFlow p.flow (fun x => { x with
    bytes := x.bytes + p.chg, winBytes := if f.audit && f.auditOut == p.out then x.winBytes + p.chg else x.winBytes,
    backlog := x.backlog && (f.auditOut != p.out || waits), age := x.age && (f.auditOut != p.out || waits) }) s
  let depth := sumOf ((s.arc.packets.filter fun x => x.out == p.out && x.part == p.part).map fun x => cellsOf x.len)
  let s := monSample (6 * 4096 + p.out) p.part (s.ft - p.arrived) depth p.flow s
  let (q, s) := match p.bucket with
    | some b => let (n, s) := takeBseq b s
                (some (b, n), s)
    | none => (none, s)
  let s := linkSend p.out p.part p.cls p.len q s
  let s := returnCredit p.input p.part p.cls p.len s
  let s := send .packetOut p.out [p.id, p.input, p.part, p.slot, p.len] s
  match fcKey s p.input p.pcp with
  | some k => if isPort p.input then fcCheck k s else s
  | none => s

/-- R424, R425: the first entry of URGENT that has a packet to send, and URGENT after it is sent. -/
def urgentPick (s : State) (o : Nat) : Option (Packet × List Urgent) :=
  (outSt s o).urgent.findSome? fun u =>
    match u with
    | .queue n k left =>
      ((flowPick s o k n (eligible s o k)).map (·.1)).map fun p =>
        let done := decide (left ≤ p.chg) || decide ((s.arc.packets.filter fun x => x.out == o && x.slot == k && x.part == n).length ≤ 1)
        (p, if done then (outSt s o).urgent.erase u
            else (outSt s o).urgent.map fun x => if x = u then .queue n k (left - p.chg) else x)
    | .flow f => ((s.arc.packets.find? fun p => p.flow == f && p.out == o && !pausedNow s p && linkReady s o p.part p.cls p.len)).map fun p => (p, (outSt s o).urgent.erase u)

/-- R421, R422, R430: one class of an output. -/
def sendTier (o k : Nat) (s : State) : Option State :=
  match tierPick s o k with
  | none => none
  | some (p, st) =>
    match agePick s o k p with
    | some q =>
      -- the flow's head packet goes first; its deficit pays for it
      let a := (outSt s o).flows.get (q.part * 8 + k)
      let st := { outSt s o with flows := (outSt s o).flows.set (q.part * 8 + k) { a with defc := a.defc.set q.flow (a.defc.get q.flow - (q.chg : Nat)) } }
      some (sendPkt q (modArcPart q.part (fun y => { y with ageSends := sat 16 y.ageSends }) (setOut o st s)))
    | none => some (sendPkt p (setOut o st s))

/-- R421: an output sends its next packet. -/
def execOutputDequeue (o : Nat) (s : State) : Res :=
  .next (match eligible s o 7 with
  | p :: _ => sendPkt p s
  | [] =>
    match sendTier o 0 s with
    | some s => s
    | none =>
      match urgentPick s o with
      | some (p, u) => sendPkt p (setOut o { outSt s o with urgent := u } s)
      | none => ([1, 2, 3, 4].findSome? fun k => sendTier o k s).getD s)

/-! ### Starvation (R424 to R426) -/

/-- R439: the limit of a class in ns; 0 disables the timer. -/
def starveNs (s : State) (k : Nat) : Nat := if k = 0 then 0 else s.arc.starve.getD (k - 1) 0 * 1000

/-- R426: the quantum of a block's arbiter for a partition. -/
def blockQuantum (s : State) (b : Block) (n : Nat) : Nat :=
  match b with
  | .orbit => ((s.cmp.active.orbParts.find? (·.part == n)).map (·.quantumKib)).getD 0 * 1024
  | .apex => ((s.cmp.active.apxParts.find? (·.part == n)).map (·.quantumKib)).getD 0 * 1024
  | _ => 1

/-- R424: the queue of partition `n` and class `k` at an output of Arc is promoted when its timer has run out. -/
def starveOut (o n k : Nat) (s : State) : State :=
  let st := outSt s o
  let key := n * 8 + k
  match st.since.find? fun e => e.1 == key with
  | some (_, t) =>
    if starveNs s k != 0 && decide (t + starveNs s k ≤ s.ft) && !(st.urgent.any fun u => match u with | .queue a b _ => a == n && b == k | _ => false) then
      modArcPart n (fun y => { y with promotions := sat 16 y.promotions })
        (setOut o { st with urgent := st.urgent ++ [.queue n k (tierQuantum s n k)], since := st.since.put key s.ft } s)
    else s
  | none => s

/-- R426: the same timer at another block's arbiter. -/
def starveArb (b : Block) (u n k : Nat) (s : State) : State :=
  let a := arbOf s (arbKey b u)
  let key := n * 8 + k
  match a.since.find? fun e => e.1 == key with
  | some (_, t) =>
    if starveNs s k != 0 && decide (t + starveNs s k ≤ s.ft) && !(a.promo.any fun p => p.1 == n && p.2.1 == k) then
      setArb (arbKey b u) { a with promo := a.promo ++ [(n, k, blockQuantum s b n)], promotions := sat 16 a.promotions, since := a.since.put key s.ft } s
    else s
  | none => s

/-! ### Pauses received (R431, R432, R434) -/

/-- A pause for a key, by its time in quanta; 0 ends it. -/
def pauseKey (p key time : Nat) (s : State) : State :=
  modArc (fun a => { a with paused := if time = 0 then a.paused.del key else a.paused.put key (s.ft + quantaNs s p time) }) s

/-- R431: a MAC control frame that the port does not use is discarded and counted. -/
def fcDiscard (p : Nat) (s : State) : State := modEth p (fun e => { e with discards := sat 16 e.discards }) s

/-- R432. -/
def execPauseFrameRx (p time : Nat) (s : State) : Res :=
  .next (if (port s p).mode != .eth then s
  else if (ethCfg s p).mode = 1 then modEth p (fun e => { e with pauseRx := sat 16 e.pauseRx }) (pauseKey p (p * 16 + 8) time s)
  else fcDiscard p s)

/-- R432: `times` gives each priority's time; `mask` names the priorities. -/
def execPfcFrameRx (p mask : Nat) (times : List Nat) (s : State) : Res :=
  .next (if (port s p).mode != .eth then s
  else if (ethCfg s p).mode = 2 then
    let s := modEth p (fun e => { e with pauseRx := sat 16 e.pauseRx }) s
    (List.range 8).foldl (fun s i =>
      if bitOf mask i && bitOf (ethCfg s p).pfcEn i then pauseKey p (p * 16 + i) (times.getD i 0) s else s) s
  else fcDiscard p s)

/-- R434: the switch's own pause message on an XCL port: a mask of the five request classes. -/
def linkPaused (p mask time : Nat) (s : State) : State :=
  (List.range 5).foldl (fun s i => if bitOf mask i then pauseKey p (p * 16 + i) time s else s) s

/-- R432: a pause runs out. -/
def execPauseExpire (p k : Nat) (s : State) : Res :=
  let key := p * 16 + k
  .next (match s.arc.paused.find? fun e => e.1 == key with
  | some (_, t) => if t ≤ s.ft then modArc (fun a => { a with paused := a.paused.del key }) s else s
  | none => s)

/-! ### The auditor (R427 to R429) -/

/-- R428: a flow is assessed at the end of a window. -/
def assess (f : FlowCfg) (s : State) : State :=
  let x := s.arc.flows.get f.n
  let tier := (outSt s f.auditOut).tier.get f.slot
  let ok := s.arc.auditEn && x.backlog && !s.arc.noAssess && !s.arc.scrubbed.contains f.part && tier != 0
  if !ok then s
  else
    let share := 65536 * x.winBytes / tier
    let unfair := decide (s.arc.fairTol + share < f.entitle)
    -- a share of 65,536 does not fit the 16 bits of R441: what they hold is a free value
    let shown := if share < 65536 then share else freeNat 16 s
    let s := if share < 65536 then s else useFresh s
    let s := modFlow f.n (fun y => { y with shareArc := shown, shareLat := shown, age := unfair }) s
    if unfair then
      modArc (fun a => { a with unfair := sat 16 a.unfair }) (report .arcUnfair .arc (some f.part) [f.n, f.auditOut, share, share] s)
    else s

/-- R428: a window ends and the next begins. -/
def auditWindow (s : State) : State :=
  let fs := s.cmp.active.flows.filter (·.audit)
  let s := fs.foldl (fun s f => assess f s) s
  let s := fs.foldl (fun s f =>
    let waits := waitsFor s f.n f.auditOut
    modFlow f.n (fun y => { y with winBytes := 0, backlog := waits }) s) s
  modArc (fun a => { a with outs := a.outs.mapAll (fun _ o => { o with tier := [] }), noAssess := false, scrubbed := [] }) s

/-! ### FREEZE, THAW and CLEAR (R437, R447) -/

/-- R437: who may act on a partition's captures: a management session, on those of partition `n`, and a privileged XCL port, on
those of its own partition. -/
def monCtl (who : Requester) (n : Nat) (f : Nat → State → State) (s : State) : Res :=
  match who with
  | .mgmt _ _ _ => mgmtGate who .admin false (fun s => .next (reply who cOk (f n s))) s
  | .port p _ _ =>
    .next (match if (port s p).priv && (port s p).mode == .xcl then (port s p).part else none with
    | some n => reply who cOk (f n s)
    | none => reply who cNP s)
  | _ => .next (reply who cNP s)

/-- R437. -/
def execFreeze (who : Requester) (n : Nat) (s : State) : Res :=
  monCtl who n (fun n s => modArc (fun a => { a with frozen := setBit a.frozen n }) s) s
/-- R437. -/
def execThaw (who : Requester) (n : Nat) (s : State) : Res :=
  monCtl who n (fun n s => modArc (fun a => { a with frozen := clearBit a.frozen n }) s) s
/-- R437. -/
def execMonClear (who : Requester) (n : Nat) (s : State) : Res := monCtl who n monClear s

/-- R449: a scrub of the partition: buckets refilled, deficits, counts and age flags cleared, captures cleared and thawed. -/
def arcScrub (n : Nat) (s : State) : State :=
  let fs := s.cmp.active.flows.filter (·.part == n)
  let s := fs.foldl (fun s f => modFlow f.n (fun x => { x with tc := f.cbs * 1024 * 80, tp := f.pbs * 1024 * 80, last := s.ft, metered := true, age := false }) s) s
  let clearOut := fun (_ : Nat) (o : OutSt) =>
    { o with parts := o.parts.mapAll (fun _ a => { a with defc := a.defc.del n }), flows := o.flows.filter (fun e => e.1 / 8 != n),
             shape := o.shape.del n, shapeAt := o.shapeAt.del n }
  let s := modArc (fun a => { a with outs := a.outs.mapAll clearOut, frozen := clearBit a.frozen n, scrubbed := n :: a.scrubbed }) s
  monClear n s

/-- R449: the buckets and shapers as they stand now, before a swap changes their rates. -/
def arcFill (s : State) : State :=
  let s := s.cmp.active.flows.foldl (fun s f => modFlow f.n (fun x => fillBuckets s f x) s) s
  (s.cmp.active.shapers.filter (·.en)).foldl (fun s x =>
    let o := outSt s x.attach
    if o.shapeAt.any (fun e => e.1 == x.part) then
      setOut x.attach { o with shape := o.shape.set x.part (shapeCount s x.attach x.part x), shapeAt := o.shapeAt.put x.part s.ft } s
    else s) s

/-- R449: a swap keeps the buckets, clipped to the new bursts. -/
def arcSwap (s : State) : State :=
  let s := s.cmp.active.flows.foldl (fun s f => modFlow f.n (fun x => { x with tc := min x.tc (f.cbs * 1024 * 80), tp := min x.tp (f.pbs * 1024 * 80) }) s) s
  modArc (fun a => { a with noAssess := true }) s

end Sys2Proof.Machine
end

