-- ==== Sys2Proof/Machine/Edge.lean ====
section
/-!
DEFINITION. Links (R450 to R481, R486, R487, R499, R510 to R513): bring-up, flit groups and replay, rekeying, live
calibration and lane sparing, and ports going down.
-/
namespace Sys2Proof.Machine

/-! ### Lasers and lanes (R452, R496) -/

/-- R452: the laser module that feeds a port. -/
def moduleOf (p : Nat) : Nat :=
  let e := if isPair p then 64 + (p - 256) / 4 else p / 4
  if e < 60 then e / 3 else if e = 60 || e = 61 || e = 64 then 20 else 21

/-- R452: the ports a module feeds. -/
def portsOfModule (m : Nat) : List Nat := (List.range 264).filter fun p => moduleOf p == m

/-- R625: the module of a port is fitted and enabled. -/
def laserOn (s : State) (p : Nat) : Bool := s.pins.lsEn.contains (moduleOf p) && s.pins.lsPres.contains (moduleOf p)

/-- R452, R477: a port's lanes at boot: four active wavelengths of each fibre, and a spare, which is dark on ETH ports. -/
def freshLanes (eth gang : Bool) : List Lane :=
  let fibre := fun (base : Nat) =>
    ((List.range 4).map fun i => ({ rxPos := base + i, txPos := base + i } : Lane)) ++
      [if eth then { rx := .dark, tx := .dark } else { rx := .spare, tx := .spare }]
  if gang then fibre 0 ++ fibre 4 else fibre 0

def laneOf (x : Port) (l : Nat) : Lane := x.lanes.getD l {}
def setLane (l : Nat) (y : Lane) (x : Port) : Port := { x with lanes := listSet x.lanes l y }

/-- The lanes that satisfy `f`, in ascending physical number. -/
def lanesWith (x : Port) (f : Lane → Bool) : List Nat :=
  ((List.range x.lanes.length).zip x.lanes).filterMap fun (i, y) => if f y then some i else none

def rxSpare (x : Port) : Option Nat := (lanesWith x fun y => y.rx == .spare).head?
def rxAt (x : Port) (pos : Nat) : Option Nat := (lanesWith x fun y => y.rx == .active && y.rxPos == pos).head?
def txAtPos (x : Port) (pos : Nat) : Option Nat := (lanesWith x fun y => y.tx == .active && y.txPos == pos).head?

/-- R475: a lane's window of fabric time brought up to now. -/
def rollLane (ft : Nat) (y : Lane) : Lane :=
  let w := ft / 1000000
  if w = y.win then y
  else
    let n := if 3 < y.count then y.windows + 1 else 0
    { y with win := w, count := 0, windows := if y.win + 1 = w then n else 0 }

/-- R458: a replay is counted against a lane. -/
def countLane (l : Nat) (s : State) (x : Port) : Port :=
  let y := rollLane s.ft (laneOf x l)
  if l < x.lanes.length then setLane l { y with count := y.count + 1 } x else x

/-- A retirement is kept in the state area and reported (R475, R564). -/
def laneRetired (p l cause : Nat) (s : State) : State :=
  report .edgLaneRetired .edge (port s p).part [p, l, cause] (recordRetired (.lane p l) s)

/-! ### The pair link's buckets (R480, R481) -/

/-- The pair ports that are UP. -/
def pairUps (s : State) : List Nat := (List.range 8).filter fun j => (port s (256 + j)).st == .up

/-- Packets that wait in Arc follow their bucket. -/
def repoint (s : State) : State :=
  modArc (fun a => { a with packets := a.packets.map fun k => match k.bucket with | some b => { k with out := bucketPort s b } | none => k }) s

/-- R480: the buckets of a pair port that went down are given to the ports still up, in turn; what it had sent and was not
acknowledged is sent again there. -/
def pairRemap (p : Nat) (sent : List Unacked) (s : State) : State :=
  let ups := pairUps s
  if ups.isEmpty then s
  else
    let mine := (List.range 64).filter fun b => s.edg.buckets.getD b 0 == p - 256
    let new := (mine.zipIdx).map fun (b, i) => (b, ups.getD (i % ups.length) 0)
    let s := modEdge (fun e => { e with
      buckets := new.foldl (fun l x => listSet l x.1 x.2) e.buckets, remaps := satAdd 16 e.remaps new.length }) s
    let s := sent.foldl (fun s u => match u.bucket with
      | some (b, n) => send .packetOut (bucketPort s b) [b, n, u.len] (linkSend (bucketPort s b) u.part 0 u.len u.bucket s)
      | none => s) s
    repoint s

/-- R481: as a pair port reaches UP, the map is restored: a bucket to its port of reset where that is up, the others in turn. -/
def pairRestore (s : State) : State :=
  let ups := pairUps s
  if ups.isEmpty then s
  else
    let lost := (List.range 64).filter fun b => !ups.contains (b % 8)
    let new := (List.range 64).map fun b => if ups.contains (b % 8) then b % 8 else ups.getD ((lost.idxOf b) % ups.length) 0
    repoint (modEdge (fun e => { e with buckets := new }) s)

/-! ### Going down (R460, R472) -/

/-- The link state after a link has gone down; retired lanes stay retired, and a position under calibration is its lane's. -/
def downLane (y : Lane) : Lane :=
  { y with rx := if y.rx = .calibrating then .active else if y.rx = .shadow then .spare else y.rx,
           tx := if y.tx = .shadow then .spare else y.tx }

def cleared (s : State) (x : Port) (st : LinkState) : Port :=
  let x := match x.cal with
    | some c => if c.phase = CalPhase.shadow then x else setLane c.spare { laneOf x c.spare with rx := LaneSt.spare } x
    | none => x
  { x with
    st := st, since := s.ft, cal := none, laneReq := none, txSeq := 0, txAck := 4095, unacked := [], rxSeq := 0, rxCtr := 0,
    rxNext := none, keyed := false, credits := [], txCtr := txCtrOf s x, txAt := s.ft, linkDowns := sat 16 x.linkDowns,
    lanes := x.lanes.map downLane }

/-- R246: hierarchical instances with a peer entry on the port end. -/
def hierPortDown (p : Nat) (s : State) : State :=
  s.chd.engs.foldl (fun s (e, g) => g.insts.foldl (fun s i =>
    if (cPeers i.cmd).any fun k => (peerOf s k).any fun y => y.port == p then hierEnd e i true s else s) s) s

/-- R471: the port returns to step 1. -/
def toStep1 (p : Nat) (s : State) : State :=
  endAgree p (modPort p (fun x => cleared s x .down) s)

/-- R472: a port goes down. A REFUSED port stays REFUSED (R460). -/
def portDown (p : Nat) (s : State) : State :=
  let x := port s p
  if x.st = .down || x.st = .refused then s
  else if x.st = .training || x.st = .keying then toStep1 p s
  else
    let s := toStep1 p s
    let s := if isPair p then pairRemap p x.unacked s else dropHeld p cTimeout s
    let s := if x.mode = .xcl && x.coherent then domainDown 2 p 0 s else s
    if x.mode = .eth then hierPortDown p s else s

/-- R472. -/
def execPortDown (p : Nat) (s : State) : Res := .next (portDown p s)

/-- R460: the port enters STOPPED when its counter reaches 2^44 before a rekey has completed. -/
def execPortStopped (p : Nat) (s : State) : Res :=
  let x := port s p
  .next (if x.st = .up && x.mode != .eth && decide (2 ^ 44 ≤ txCtrOf s x) then
    let s := setPort p { rebaseCtr s x with st := .stopped } s
    if isPair p then pairRemap p x.unacked s else dropHeld p (cRef .epochExhausted) s
  else s)

/-! ### Replay (R459) -/

/-- R459: every unacknowledged group is sent again; one sent 8 times takes the link down. -/
def replay (p : Nat) (s : State) : State :=
  let x := port s p
  if x.unacked.isEmpty then s
  else if x.unacked.any fun u => decide (8 ≤ u.tries) then portDown p s
  else
    let s := setPort p { x with unacked := x.unacked.map fun u => { u with tries := u.tries + 1 }, replays := sat 16 x.replays, progress := s.ft } s
    send .groupReplay p (x.unacked.map (·.seq)) s

/-- R459. -/
def execReplayTimeout (p : Nat) (s : State) : Res :=
  let x := port s p
  .next (if x.st = .up && x.mode != .eth && !x.unacked.isEmpty && decide (x.progress + s.edg.replayTmo ≤ s.ft) then replay p s else s)

/-- R456, R459: an acknowledgement up to SEQ `a`. -/
def ackUpTo (a : Nat) (s : State) (x : Port) : Port :=
  if x.unacked.any fun u => u.seq == a then
    let rest := (x.unacked.dropWhile fun u => u.seq != a).drop 1
    { x with unacked := rest.map fun u => { u with tries := 1 }, txAck := a, progress := s.ft }
  else x

/-! ### Receiving groups (R458, R463, R480) -/

/-- R458: checks 4 to 6 of a verified group, or of a PLAIN one during bring-up. -/
def takeSeq (p : Nat) (g : GroupRx) (s : State) : State :=
  let x := port s p
  if g.seq = x.rxSeq then
    let s := send .groupAck p [g.seq] (setPort p { x with rxSeq := (x.rxSeq + 1) % 4096 } s)
    match g.msg with
    | some (b, n) =>
      if (n + 65536 - s.edg.rxBseq.get b) % 65536 < 32768 then
        modEdge (fun e => { e with rxBseq := e.rxBseq.set b ((n + 1) % 65536) }) s
      else modEdge (fun e => { e with dupDrops := sat 16 e.dupDrops }) s
    | none => s
  else if (x.rxSeq + 4096 - g.seq) % 4096 < 2048 then send .groupAck p [(x.rxSeq + 4095) % 4096] s
  else send .groupNak p [x.rxSeq] s

/-- R458 order 3, R513: a tag does not verify. -/
def authFail (p : Nat) (s : State) : State :=
  let n := (port s p).authRun + 1
  let s := modPort p (fun x => { x with authFails := sat 16 x.authFails, authRun := n }) s
  let s := report .edgAuthFail .edge (port s p).part [p] s
  modPort p (fun x => { x with backoff := if 8 ≤ n then some (s.ft + 1000000000) else none }) (portDown p s)

/-- R458: a flit group is received. -/
def groupRx (p : Nat) (g : GroupRx) (s : State) : State :=
  let x := port s p
  if x.st = .down || x.st = .refused || (x.mode != .xcl && x.mode != .pair) || g.kind = .other then s
  else if !g.crcOk || !g.badLanes.isEmpty then
    let x := g.badLanes.foldl (fun x l => countLane l s x) { x with corrupt := sat 16 x.corrupt, rxCtr := x.rxCtr + 1 }
    send .groupNak p [x.rxSeq] (setPort p x s)
  else if g.kind = .plain then
    if x.st = .up || x.st = .stopped then authFail p s
    else
      let s := takeSeq p g (setPort p (ackUpTo g.ack s x) s)
      if g.nak then replay p s else s
  else
    let toggled := x.rxNext.isSome && g.phase != x.rxPhase
    let expected := if toggled then 0 else x.rxCtr
    if g.ctrLow != expected % 4294967296 then portDown p s
    else if !g.tagOk then authFail p s
    else if g.lenBad then portDown p s
    else
      let x := { x with rxCtr := expected + 1, authRun := 0, backoff := none, lastGood := s.ft }
      let x := if toggled then { x with rxEpoch := x.rxNext.getD 0, rxNext := none, rxPhase := g.phase } else x
      let s := setPort p (ackUpTo g.ack s x) s
      let s := if g.kind = .data then takeSeq p g s else s
      if g.nak then replay p s else s

/-- R458. -/
def execFlitGroupRx (p : Nat) (g : GroupRx) (s : State) : Res := .next (groupRx p g s)

/-! ### Bring-up (R471, R510, R513) -/

/-- The lanes carry every position of the receiver's width. -/
def lanesReady (x : Port) : Bool := (List.range (positions x x.rxWidth)).all fun k => (rxAt x k).isSome

/-- R516: a faulted record carries the identity's tag. -/
def faultedTag (s : State) (t : Nat) : Bool :=
  s.per.faulted.any fun r => (!(epRec s r).s0.zero && (epRec s r).s0.tag == t) || (!(epRec s r).s1.zero && (epRec s r).s1.tag == t)

/-- R510, R513, R516, R517, R625: whether a port's bring-up can go on from step 2. -/
def canTrain (s : State) (p : Nat) : Bool :=
  let x := port s p
  laserOn s p && lanesReady x && x.backoff.isNone &&
    (x.mode == .eth || (peerOfPort s p).any fun t => !faultedTag s t)

/-- R471 steps 1 and 2 end: the port is TRAINING and sends HELLO. An ETH port is up. -/
def execLinkAligned (p : Nat) (s : State) : Res :=
  let x := port s p
  .next (if x.st != .down || x.mode = .unused || (x.gang.any fun g => g != p) || !(s.cmp.boot == .running || s.cmp.boot == .init) then s
  else if x.mode = .xcl && x.peer.isNone then report .edgNoPeerKey .edge x.part [p] s
  else if !canTrain s p then s
  else if x.mode = .eth then setPort p { x with st := .up, since := s.ft, lastGood := s.ft } s
  else
    send .linkHello p [1, if s.cmp.roleB then 2 else 1, b2n (!x.noSpare)]
      (setPort p { x with st := .training, since := s.ft } s))

/-- R467, R471 step 3: the other end's HELLO. A peer with no spare runs without one. -/
def execHello (p version role : Nat) (spare : Bool) (s : State) : Res :=
  let x := port s p
  .next (if x.st != .training || version != 1 then s
  else
    let dark := fun (y : Lane) => { y with rx := if y.rx = .spare then .dark else y.rx, tx := if y.tx = .spare then .dark else y.tx }
    let x := { x with st := .keying, since := s.ft, noSpare := !spare, lanes := if spare then x.lanes else x.lanes.map dark }
    let s := setPort p x s
    let s := if isPair p then { s with pair := { s.pair with helloRole := some role } } else s
    startAgree p false none s)

/-- R471: a step overruns its limit; the time a commit waits behind others does not count (R511). -/
def execLinkStepTimeout (p : Nat) (s : State) : Res :=
  let x := port s p
  let waits := (agreeOf s p).any fun a => a.queued.isSome || !a.begun
  let late := match x.st with
    | .training => decide (x.since + 1000000 < s.ft)
    | .keying => if x.keyed then decide (x.since + 1000000 < s.ft) else !waits && decide (x.since + 20000000 < s.ft)
    | .down => decide (x.since + 51000000 < s.ft)
    | _ => false
  .next (if !late || x.mode = .unused || x.mode = .eth then s
  else if x.st = .down then setPort p { x with since := s.ft } s
  else toStep1 p s)

/-- R513. -/
def execBringupBackoffEnd (p : Nat) (s : State) : Res :=
  .next (if (port s p).backoff.any fun t => decide (t ≤ s.ft) then modPort p (fun x => { x with backoff := none }) s else s)

/-- What the switch tells its partner of itself over the pair link (R56, R503, R505). -/
def statement (s : State) : Mirror :=
  .partner (running s) s.cmp.runSince (s.per.pool != .none) (s.per.pool == .founded) s.per.poolGen

/-- R33, R503: the statement goes to the partner while a pair port is UP. -/
def sendStatement (s : State) : State := if (pairUps s).isEmpty then s else emit (.mirror (statement s)) s

/-- A port reaches UP (R471); on the pair link the map is restored and the switch states whether it holds a pool (R503). -/
def goUp (p : Nat) (s : State) : State :=
  let s := modPort p (fun x => { x with st := .up, since := s.ft, txAt := s.ft, lastGood := s.ft }) s
  if isPair p then sendStatement (pairRestore s) else s

/-- R468, R471 step 5: credit units by class; on a pair port, of a partition (R478). -/
def execCredit (p part : Nat) (units : List Nat) (s : State) : Res :=
  let x := port s p
  .next (if x.mode != .xcl && x.mode != .pair || !(x.st == .up || x.st == .stopped || (x.st == .keying && x.keyed)) then s
  else
    let cr := (units.zipIdx).foldl (fun (t : Tab Nat) (u, c) => t.mod (creditKey p part c) (· + u)) x.credits
    let s := setPort p { x with credits := cr } s
    if x.st = .keying then goUp p s else s)

/-- R434, R467: the other end's PAUSE. -/
def execLinkPause (p mask time : Nat) (s : State) : Res :=
  .next (if (port s p).mode = .xcl && (port s p).st = .up then linkPaused p mask time s else s)

/-! ### Rekeying (R460, R511, R512, R515) -/

/-- R460, R499: the transmit counter reaches 2^40. -/
def startRekey (p : Nat) (s : State) : State :=
  let x := port s p
  if x.st = .up && (x.mode = .xcl || x.mode = .pair) then startAgree p true none s else s

/-- R460. -/
def execRekeyStart (p : Nat) (s : State) : Res :=
  .next (if decide (2 ^ 40 ≤ txCtrOf s (port s p)) then startRekey p s else s)

/-- R511, R512: both ends have committed E: the link keys of E are derived. -/
def finishAgree (a : Agree) (e : Nat) (s : State) : State :=
  let p := a.port
  let x := rebaseCtr s (port s p)
  let s := dropAgree p s
  let s := if a.rekey then
      let stopped := x.st == .stopped
      let s := setPort p { x with txEpoch := e, txPhase := !x.txPhase, txCtr := 0, txAt := s.ft, rxNext := some e } s
      if stopped then (if isPair p then pairRestore (modPort p (fun y => { y with st := .up }) s) else modPort p (fun y => { y with st := .up }) s) else s
    else
      let s := setPort p { x with keyed := true, since := s.ft, txEpoch := e, rxEpoch := e, txPhase := false, rxPhase := false, txCtr := 0,
                                  txAt := s.ft, rxCtr := 0, rxNext := none } s
      send .linkCredit p s.cmp.active.linkCredits s
  nextAgree a.tag s

/-- R511: once both REKEY_ACKs are exchanged, their epochs are compared. -/
def agreeCheck (p : Nat) (s : State) : State :=
  match agreeOf s p with
  | some a =>
    match a.epoch, a.got with
    | some e, some q => if !a.sent then s else if e = q then finishAgree a e s else restartAgree a s
    | _, _ => s
  | none => s

/-- R511: the peer's proposal. -/
def execRekey (p e : Nat) (s : State) : Res :=
  let x := port s p
  .next (if x.st != .keying && x.st != .up && x.st != .stopped then s
  else if e = 0 then portDown p s
  else match agreeOf s p with
    | some a =>
      if a.peer.isSome then s
      else
        let a := { a with peer := some e }
        if a.begun then agreeCommit a (setAgree a s) else setAgree a s
    | none => if x.st = .keying then s else startAgree p true (some e) s)

/-- R511: no answer for 1 ms. -/
def execRekeyResend (p : Nat) (s : State) : Res :=
  .next (match agreeOf s p with
  | some a =>
    if a.begun && a.peer.isNone && decide (a.since + 1000000 ≤ s.ft) then send .linkRekey p [a.own] (setAgree { a with since := s.ft } s) else s
  | none => s)

/-- R511, R512. -/
def execRekeyAck (p e : Nat) (s : State) : Res :=
  .next (match agreeOf s p with
  | some a => agreeCheck p (setAgree { a with got := some e } s)
  | none => s)

/-- R515: the commit behind the one that ended begins; its port's step time runs again. -/
def nextCommit (s : State) : State :=
  match s.per.commits with
  | c :: _ =>
    match c.why with
    | .agree p =>
      match agreeOf s p with
      | some a =>
        let wait := match a.queued with | some t => s.ft - t | none => 0
        modPort p (fun x => { x with since := x.since + wait }) (setAgree { a with queued := none } s)
      | none => s
    | .poolGen => s
  | [] => s

/-! ### Live calibration and sparing (R473 to R477, R499) -/

def calibrating (s : State) : Nat := (s.edg.ports.idxs fun _ x => x.cal.any fun c => c.retire.isNone).length

/-- R474: an occurrence is skipped. -/
def calSkip (p : Nat) (s : State) : State :=
  let n := (port s p).calRun + 1
  let s := modPort p (fun x => { x with calSkips := sat 8 x.calSkips, calRun := n }) s
  if n = 8 then report .fctCalOverdue .facet (port s p).part [p] s else s

/-- The spare is asked to shadow a position: for a calibration, or to retire its lane. -/
def askShadow (p pos lane spare : Nat) (retire : Option Nat) (s : State) : State :=
  let x := port s p
  let x := setLane spare { laneOf x spare with rx := .shadow, rxPos := pos } x
  send .laneReq p [1, pos]
    (setPort p { x with cal := some { pos := pos, lane := lane, spare := spare, retire := retire }, laneReq := some { action := 1, msg := { pos := pos } } } s)

/-- R473 step 1, R474: a calibration occurrence of the device schedule. -/
def calStart (p pos : Nat) (s : State) : State :=
  let x := port s p
  if x.mode = .eth || x.mode = .unused || x.noSpare || x.st != .up then s
  else match rxAt x pos, rxSpare x with
    | some l, some sp =>
      if x.cal.isSome || x.laneReq.isSome || decide (s.edg.calPorts ≤ calibrating s) || energyAns s .background 0 != .admitted then calSkip p s
      else askShadow p pos l sp none (modPort p (fun x => { x with calRun := 0 }) s)
    | _, _ => calSkip p s

/-- R476: without a healthy spare the width halves; at the narrowest width the port goes down. -/
def degrade (p l cause : Nat) (s : State) : State :=
  let x := port s p
  let ok := lanesWith x fun y => y.rx != .retired && !(x.noSpare && y.rx == .dark)
  let healthy := ok.filter (· != l)
  let w := positions x (x.rxWidth + 1)
  if 2 ≤ x.rxWidth || healthy.length < w then
    portDown p (laneRetired p l cause (setPort p { setLane l { laneOf x l with rx := .retired } x with lastCause := cause } s))
  else
    let m : LaneMsg := { width := x.rxWidth + 1, map := healthy.take w, spare0 := healthy.getD w 0xF,
                         spare1 := if x.gang.isSome then healthy.getD (w + 1) 0xF else 0xF }
    send .laneReq p ([4, 0, m.width, m.spare0, m.spare1] ++ m.map)
      (setPort p { x with cal := none, laneReq := some { action := 4, msg := m, lane := l, cause := cause } } s)

/-- R475 to R477, R499: a lane is retired for a cause: 1 REPLAYS, 2 SER, 3 LOCK, 4 MANAGEMENT. -/
def retireLane (p l cause : Nat) (s : State) : State :=
  let x := port s p
  let y := laneOf x l
  if decide (x.lanes.length ≤ l) || y.rx = .retired || x.mode = .unused then s
  else if x.mode = .eth then portDown p (setPort p { x with lastCause := cause } s)
  else match x.cal with
    | some c =>
      if c.retire.isSome then setPort p { x with cal := some { c with next := some (l, cause) } } s
      else if c.phase = .shadow then
        -- nothing has been taken from the spare: it is released and serves the failing lane
        let x := { setLane c.spare { laneOf x c.spare with rx := .spare } x with cal := none }
        let s := send .laneReq p [2, c.pos] (setPort p x s)
        if l = c.spare then laneRetired p l cause (setPort p (setLane l { laneOf x l with rx := .retired } { x with lastCause := cause }) s)
        else askShadow p y.rxPos l c.spare (some cause) s
      else if l = c.lane then
        send .laneReq p [3, c.pos] (setPort p { x with cal := none, laneReq := some { action := 3, msg := { pos := c.pos }, lane := l, cause := cause } } s)
      else setPort p { x with cal := some { c with phase := .restored, next := some (l, cause) } } s
    | none =>
      if y.rx = .active then
        match rxSpare x with
        | some sp => askShadow p y.rxPos l sp (some cause) s
        | none => degrade p l cause s
      else laneRetired p l cause (setPort p (setLane l { y with rx := .retired } { x with lastCause := cause }) s)

/-- R473 step 2, R476: 256 clean spare codewords have decoded. -/
def execCalShadowReady (p : Nat) (s : State) : Res :=
  let x := port s p
  .next (match x.cal with
  | some c =>
    if c.phase != .shadow then s
    else
      let x := setLane c.spare { laneOf x c.spare with rx := .active, rxPos := c.pos } x
      match c.retire with
      | none => setPort p { setLane c.lane { laneOf x c.lane with rx := .calibrating } x with cal := some { c with phase := .tuning } } s
      | some cause =>
        let x := { setLane c.lane { laneOf x c.lane with rx := .shadow } x with
                   cal := none, laneReq := some { action := 3, msg := { pos := c.pos }, lane := c.lane, cause := cause } }
        let s := send .laneReq p [3, c.pos] (setPort p x s)
        match c.next with
        | some (l, k) => retireLane p l k s
        | none => s
  | none => s)

/-- R473 step 3. -/
def execCalTuneEnd (p : Nat) (s : State) : Res :=
  let x := port s p
  .next (match x.cal with
  | some c => if c.phase = .tuning then setPort p { x with cal := some { c with phase := .verify } } s else s
  | none => s)

/-- R473 steps 4 and 5. -/
def execCalVerifyEnd (p : Nat) (pass : Bool) (s : State) : Res :=
  let x := port s p
  .next (match x.cal with
  | some c =>
    if c.phase != .verify && c.phase != .restored then s
    else if !pass then setPort p { x with cal := some { c with phase := .restored } } s
    else
      let x := setLane c.lane { laneOf x c.lane with rx := .active } (setLane c.spare { laneOf x c.spare with rx := .spare } x)
      let s := send .laneReq p [2, c.pos] (setPort p { x with cal := none, laneReq := some { action := 2, msg := { pos := c.pos } } } s)
      match c.next with
      | some (l, cause) => retireLane p l cause (modPort p (fun y => { y with laneReq := none }) s)
      | none => s
  | none => s)

/-- R473, R476: the transmitter's answer to a lane request. -/
def execLaneAck (p action pos : Nat) (s : State) : Res :=
  let x := port s p
  .next (match x.laneReq with
  | some r =>
    if r.action != action || (action != 4 && r.msg.pos != pos) then s
    else
      let x := { x with laneReq := none }
      if action = 3 then
        laneRetired p r.lane r.cause (setPort p (setLane r.lane { laneOf x r.lane with rx := .retired } { x with lastCause := r.cause }) s)
      else if action = 4 then
        let put := fun (i : Nat) (y : Lane) =>
          if i = r.lane || y.rx == .retired then { y with rx := .retired }
          else if r.msg.map.contains i then { y with rx := .active, rxPos := r.msg.map.idxOf i }
          else if i = r.msg.spare0 || i = r.msg.spare1 then { y with rx := .spare } else { y with rx := .dark }
        let lanes := (x.lanes.zipIdx).map fun (y, i) => put i y
        let s := setPort p { x with lanes := lanes, rxWidth := r.msg.width, lastCause := r.cause } s
        report .edgWidthChanged .edge x.part [p, r.msg.width] (laneRetired p r.lane r.cause s)
      else setPort p x s
  | none => s)

/-- R473: the other end asks for a position to be copied onto the spare. -/
def execLaneReqShadow (p pos : Nat) (s : State) : Res :=
  let x := port s p
  .next (if x.st != .up then s
  else match (lanesWith x fun y => y.tx == .spare).head? with
    | some l => send .laneAck p [1, pos] (setPort p (setLane l { laneOf x l with tx := .shadow, txPos := pos } x) s)
    | none => s)

/-- R473 step 5. -/
def execLaneReqRelease (p pos : Nat) (s : State) : Res :=
  let x := port s p
  .next (if x.st != .up then s
  else
    let x := match (lanesWith x fun y => y.tx == .shadow && y.txPos == pos).head? with
      | some l => setLane l { laneOf x l with tx := .spare } x
      | none => x
    send .laneAck p [2, pos] (setPort p x s))

/-- R476: the spare is the position, and the transmitter darkens the retired wavelength. -/
def execLaneReqRetire (p pos : Nat) (s : State) : Res :=
  let x := port s p
  .next (match (lanesWith x fun y => y.tx == .shadow && y.txPos == pos).head? with
  | some l =>
    if x.st != .up then s
    else
      let old := txAtPos x pos
      let x := match old with | some k => setLane k { laneOf x k with tx := .retired } x | none => x
      let s := send .laneAck p [3, pos] (setPort p (setLane l { laneOf x l with tx := .active } x) s)
      match old with | some k => laneRetired p k 0 s | none => s
  | none => s)

/-- R476: a narrower width with a new map. -/
def execLaneReqDegrade (p : Nat) (m : LaneMsg) (s : State) : Res :=
  let x := port s p
  .next (if x.st != .up || 2 < m.width || m.map.length != positions x m.width then s
  else
    let put := fun (i : Nat) (y : Lane) =>
      if m.map.contains i then { y with tx := .active, txPos := m.map.idxOf i }
      else if i = m.spare0 || i = m.spare1 then { y with tx := .spare }
      else if y.tx = .active then { y with tx := .retired } else y
    let lanes := (x.lanes.zipIdx).map fun (y, i) => put i y
    let gone := (List.range x.lanes.length).filter fun i => (lanes.getD i {}).tx == .retired && (laneOf x i).tx != .retired
    let s := setPort p { rebaseCtr s x with lanes := lanes, txWidth := m.width } s
    let s := gone.foldl (fun s k => laneRetired p k 0 s) s
    report .edgWidthChanged .edge x.part [p, m.width] (send .laneAck p [4] s))

/-- R475: a lane loses lock. -/
def execLaneLossOfLock (p l : Nat) (s : State) : Res :=
  let x := port s p
  let y := laneOf x l
  .next (if x.lanes.length ≤ l then s
  else setPort p (setLane l { y with lol := s.ft :: y.lol.filter fun t => decide (s.ft < t + 10000000000) } x) s)

/-- R475: a lane meets a threshold; `ser` tells that its SER has been above 10^-5 for 100 ms. -/
def execLaneRetireTrigger (p l : Nat) (ser : Bool) (s : State) : Res :=
  let x := port s p
  let y := rollLane s.ft (laneOf x l)
  let locks := (y.lol.filter fun t => decide (s.ft < t + 10000000000)).length
  .next (if x.lanes.length ≤ l then s
  else
    let s := setPort p (setLane l { y with serHigh := ser } x) s
    if 3 ≤ y.windows then retireLane p l 1 s
    else if 2 ≤ locks then retireLane p l 3 s
    else if ser then retireLane p l 2 s else s)

/-! ### Tray links (R486, R487) -/

def modTrayLink (t : Nat) (f : TrayLink → TrayLink) (s : State) : State := modEdge (fun e => { e with trays := e.trays.mod t f }) s

/-- R487: a tray lane meets the thresholds: lane 8 takes its place, else the link narrows, else it goes down. -/
def execTrayLaneSpare (t lane : Nat) (s : State) : Res :=
  let x := s.edg.trays.get t
  let rec_ := fun (y : TrayLink) => { y with recoveries := sat 16 y.recoveries }
  .next (if x.width = 3 then s
  else if x.spareCap && !x.spareUsed then modTrayLink t (fun y => rec_ { y with spareUsed := true, sparedLane := lane % 8 }) s
  else if x.width < 2 then modTrayLink t (fun y => rec_ { y with width := y.width + 1 }) s
  else trayDown t (modTrayLink t (fun y => { y with width := 3 }) s))

/-- R146, R486: a head's CXL link completes training, at a width, or Recovery. -/
def execTrayLinkUp (t width : Nat) (cap : Bool) (s : State) : Res :=
  let s := modTrayLink t (fun y => if y.width = 3 then { y with width := min width 2, spareCap := cap } else { y with spareCap := cap }) s
  .next (trayUp t s)

/-- R146, R493: a head's link is down. -/
def execTrayHeadLinkDown (t : Nat) (s : State) : Res := .next (trayDown t (modTrayLink t (fun y => { y with width := 3 }) s))

end Sys2Proof.Machine
end

