-- ==== Sys2Proof/Machine/Submit.lean ====
section
/-!
DEFINITION. How commands reach the blocks' queues (R61, R78, R137, R219, R256, R303, R349, R381): by a schedule action, an
engine-command message or an ISSUE; and what a domain restart or a scrub takes from every block.
-/
namespace Sys2Proof.Machine

/-- 64-bit words of bytes. -/
def wordsOf (n : Nat) (bs : List Byte) : List Nat := (List.range n).map fun i => ofLE ((bs.drop (8 * i)).take 8)

/-- The bytes of a block's command descriptor or header. -/
def descBytes : Block → Nat
  | .vertex => 32 | .plane => 64 | .chord => 256 | .cone => 64 | .apex => 128 | .orbit => 64 | .centroid => 128
  | _ => 0

/-- R61: the block of a code of ENGINE_CMD. -/
def cmdBlock : Nat → Option Block
  | 0x7 => some .vertex | 0x9 => some .plane | 0xB => some .chord | 0xC => some .cone | 0xD => some .apex
  | 0xE => some .orbit | 0xF => some .centroid | _ => none

/-- A command at its block's admission: answered, or accepted into its queue. -/
def submitTo (b : Block) (q : Nat) (c : QCmd) (s : State) : State × Option Cpl :=
  match b with
  | .vertex => vtxSubmit q c s
  | .plane => plnSubmit q c s
  | .chord => chdSubmit q c s
  | .cone => coneSubmit q c s
  | .apex => apxSubmit q c s
  | .orbit => orbSubmit q c s
  | .centroid => cenSubmit q c s
  | _ => (s, some cBad)

/-- R60, R61: an ENGINE_CMD action: the descriptor is read at PARAM_B in the partition's context with the block's ASID, or
ASID 0 where the block has none (DESIGN CHOICE, entry 24). -/
def scheduleCmd (n entry blk queue : Nat) (pb : Nat) (s : State) : State × Cpl :=
  match cmdBlock blk with
  | none => (s, cBad)
  | some b =>
    let asid := match b with
      | .orbit => (orbPart s n).asid | .apex => (apxPart s n).asid | .centroid => (cenPart s n).asid | _ => 0
    let len := descBytes b
    let (s, d) := engineRead n asid pb len s
    if d.status != .ok then (s, { d with data := [] })
    else match submitTo b queue { part := n, words := wordsOf (len / 8) d.data, req := .sched n entry } s with
      | (s, some k) => (s, k)
      | (s, none) => (s, cOk)

/-- A command just accepted into a queue goes on to the datapath at once. -/
def pushIssued (b : Block) (q : Nat) (s : State) : State :=
  match (queueOf s b q).getLast? with
  | some c => setIssued b q (issuedOf s b q ++ [c]) (setQueue b q (queueOf s b q).dropLast s)
  | none => s

/-- R78, R80: an ISSUE by sequencer `m` of block `b`. A command presented to the program is issued as it was admitted; a
descriptor of the program's own meets the block's admission. Only DEST 0 is an input. -/
def blockIssue (b : Block) (m dest : Nat) (bytes : List Byte) (req : Requester) (mine : Option QCmd) (part asid : Nat) (s : State) : State :=
  if dest != 0 then reply req cBad s
  else match mine with
    | some c =>
      let c := { c with issuer := match req with | .seq k slot => some (k, slot) | _ => none }
      setIssued b c.id (issuedOf s b c.id ++ [c]) s
    | none =>
      let own := b == .orbit || b == .apex
      let q := if own then part else m - (seqBase b).1
      let c : QCmd := { part := part, asid := asid, words := wordsOf (descBytes b / 8) bytes, req := req }
      match submitTo b q c s with
      | (s, some k) => reply req k s
      | (s, none) => if own then s else pushIssued b q s

/-- R78: a queued command is presented to its sequencer, at entry point 0, with its descriptor in D0; Centroid's header
lies in D0 and D1 (R381). -/
def execBlockCmdPresent (b : Block) (q : Nat) (s : State) : Res :=
  let m := (seqBase b).1 + q
  let x := seqOf s m
  .next (match queueOf s b q, entryPoint s m 0 with
  | c :: rest, some pc =>
    if b == .orbit || b == .apex || fenced s b || x.run != .idle || !x.starts.isEmpty || c.held || scrubFenced s c.part || (seqBase b).2 ≤ q then s
    else
      let d := (c.words.take (descBytes b / 8)).flatMap (toLE 8)
      let put := fun (old bs : List Byte) => (bs ++ old.drop bs.length).take 256
      let bufs := listSet x.bufs 0 (put (x.bufs.getD 0 []) d)
      let bufs := if b = .centroid then listSet bufs 1 (put (x.bufs.getD 1 []) (d.drop 64)) else bufs
      let s := setQueue b q rest s
      modSeq m (fun y => { y with
        pc := pc, run := .running, st := {}, acc := {}, loops := [0, 0, 0, 0], bufs := bufs, asid := c.asid, bank := s.mer.bank,
        stack := [], wait := .none, cmd := some c }) s
  | _, _ => s)

/-! ### What a domain restart takes from the engines (R48 step 2) -/

/-- A command that a sequencer's program issued. -/
def byProgram (c : QCmd) : Bool := c.issuer.isSome || (match c.req with | .seq _ _ => true | _ => false)

/-- R48, R254, R288, R356, R413: what abandoned programs of the partition have issued completes under R16, and Apex's pending
slots are discarded. -/
def abandonEngines (n : Nat) (s : State) : State :=
  let mine := fun (c : QCmd) => c.part == n && byProgram c
  cenEnd mine (apexEnd (· == n) false (coneEnd mine (chordEnd mine s)))

end Sys2Proof.Machine
end

