-- ==== Sys2Proof/Machine/Sequencer.lean ====
section
/-!
DEFINITION. The Olvin sequencers (R77 to R83): program starts, the eight instructions and their waits.
-/
namespace Sys2Proof.Machine

/-- R78: a program starts. -/
def beginProgram (m : Nat) (st : SeqStart) (cmd : Option QCmd) (s : State) : State :=
  match entryPoint s m st.entry with
  | none => s
  | some pc =>
    modSeq m (fun q => { q with
      pc := pc, run := .running, st := {}, acc := {}, loops := [0, 0, 0, 0], dbase := st.dbase.getD q.dbase,
      asid := st.asid, bank := s.mer.bank, stack := [], wait := .none, cmd := cmd }) s

/-- R78: the admission of a start on sequencer `m` for partition `n`. -/
def seqStart (n m entry asid dbase : Nat) (s : State) : State × Cpl :=
  let q := seqOf s m
  if 132 ≤ m || !q.owned || q.part != n then (s, cNP)
  else if (entryPoint s m entry).isNone then (s, cBad)
  else match fenceCpl s (seqBlock m) n with
  | some c => (s, c)
  | none =>
    let st : SeqStart := { entry := entry, dbase := some dbase, asid := asid }
    if q.run = .idle then (beginProgram m st none s, cOk)
    else if 4 ≤ q.starts.length then (s, cRef .queueFull)
    else (setSeq m { q with starts := q.starts ++ [st] } s, cOk)

/-- R78: the sequencer is IDLE, and the oldest queued start whose entry point is defined begins. -/
def seqIdle (m : Nat) (s : State) : State :=
  let s := modSeq m (fun q => { q with run := .idle, wait := .none, stack := [], cmd := none }) s
  match (seqOf s m).starts.dropWhile fun st => (entryPoint s m st.entry).isNone with
  | [] => modSeq m (fun q => { q with starts := [] }) s
  | st :: rest => beginProgram m st none (modSeq m (fun q => { q with starts := rest }) s)

/-- R78: a program ends, and a queued start begins. A command presented to it and not issued stays at the head of
its block's queue (DEDUCED, entry 126). -/
def endProgram (m : Nat) (s : State) : State :=
  let q := seqOf s m
  seqIdle m (match q.cmd with | some c => returnCmd (seqBlock m) c s | none => s)

/-- The word at the program counter, if the sequencer is about to run one with this opcode (R79). -/
def seqInstr (s : State) (m op : Nat) : Option Nat :=
  let q := seqOf s m
  match (seqProgram s m q.bank).code[q.pc]? with
  | some w => if q.run = .running && bits w 63 59 = op then some w else none
  | none => if q.run = .running && op = 0 then some 0 else none

/-- R80: where control goes after instruction `at_`: back to the body of a loop that has iterations left, out of
one that has none, or on. -/
def afterInstr (at_ : Nat) : List LoopFrame → List Nat → Nat × List LoopFrame × List Nat
  | [], ls => (at_ + 1, [], ls)
  | f :: fs, ls =>
    if at_ = f.last then
      let k := ls.getD f.lc 0 + 1
      if k < f.count then (f.first, f :: fs, listSet ls f.lc k)
      else afterInstr at_ fs ls
    else (at_ + 1, f :: fs, ls)

/-- The sequencer goes on after the instruction at `at_`. -/
def seqGoOn (at_ : Nat) (q : Seq) : Seq :=
  let (pc, st, ls) := afterInstr at_ q.stack q.loops
  { q with pc := pc, stack := st, loops := ls }

/-- R79, R80: the operand of WAITSYNC and SIGNAL. -/
def seqOperand (q : Seq) (w : Nat) : Nat :=
  if bitOf w 35 then ofLE (((q.bufs.getD (bits w 34 33) []).drop (8 * bits w 4 0)).take 8) else bits w 31 0

/-- A buffer with `bs` written over its start (256 B at most). -/
def overlay (old bs : List Byte) : List Byte := (bs ++ old.drop bs.length).take 256

/-- R80, R78: HALT, or running past the last instruction. -/
def execHalt (m : Nat) (s : State) : Res :=
  match seqInstr s m 0 with
  | some _ => .next (endProgram m s)
  | none => .next s

/-- R80: DFETCH sends its read and waits. -/
def execDfetch (m : Nat) (s : State) : Res :=
  match seqInstr s m 1 with
  | none => .next s
  | some w =>
    let q := seqOf s m
    let idx := if bitOf w 56 then q.loops.getD (bits w 55 54) 0 * bits w 49 34 else 0
    let va := (q.dbase + 16 * (bits w 31 0 + idx)) % 2 ^ 64
    let len := (bits w 53 50 + 1) * 16
    .next (send .memRead m [va, len] (setSeq m { seqGoOn q.pc q with run := .waiting, wait := .dfetch (bits w 58 57) va len } s))

/-- R80: the DFETCH read completes: the buffer takes the bytes, ST the outcome. -/
def execDfetchDataReturn (m : Nat) (s : State) : Res :=
  let q := seqOf s m
  match q.wait with
  | .dfetch buf va len =>
    let (s, c) := engineRead q.part q.asid va len s
    let q := seqOf s m
    let bufs := if c.status = .ok then listSet q.bufs buf (overlay (q.bufs.getD buf []) c.data) else q.bufs
    .next (setSeq m { q with bufs := bufs, st := { c with data := [] }, run := .running, wait := .none } s)
  | _ => .next s

/-- R80: LOOP. -/
def execLoop (m : Nat) (s : State) : Res :=
  match seqInstr s m 2 with
  | none => .next s
  | some w =>
    let q := seqOf s m
    let count := if bitOf w 56 then ofLE (((q.bufs.getD (bits w 43 42) []).drop (4 * bits w 41 36)).take 4) else bits w 31 0
    let body := bits w 55 44
    let lc := bits w 58 57
    if count = 0 then .next (setSeq m (seqGoOn (q.pc + body) q) s)
    else .next (setSeq m { q with
      pc := q.pc + 1, loops := listSet q.loops lc 0,
      stack := { lc := lc, first := q.pc + 1, last := q.pc + body, count := count } :: q.stack } s)

/-- R80: WAITSYNC. -/
def execWaitsync (m : Nat) (s : State) : Res :=
  match seqInstr s m 3 with
  | none => .next s
  | some w =>
    let q := seqOf s m
    let op := if bits w 58 57 = 0 then SyncOp.waitGe else if bits w 58 57 = 1 then .waitEq else .waitGen
    let s := setSeq m { seqGoOn q.pc q with run := .waiting, wait := .sync (bits w 51 36) } s
    match syncOp op (.seq m 0) (some q.part) {} (bits w 51 36) (seqOperand q w) none (bits w 56 52) s with
    | (s, some c) => .next (modSeq m (fun q => { q with st := c, run := .running, wait := .none }) s)
    | (s, none) => .next s

/-- R80: WAITANG. -/
def execWaitang (m : Nat) (s : State) : Res :=
  match seqInstr s m 4 with
  | none => .next s
  | some w =>
    let q := seqOf s m
    let a := (dom s q.part).angle
    let target :=
      if bits w 58 57 = 0 then bits w 47 0
      else if bits w 58 57 = 1 then angleOf (angleStep a) (bits w 15 0)
      else angleOf (angleStep a + 1) (bits w 15 0)
    let q' := seqGoOn q.pc q
    if target ≤ a then .next (setSeq m { q' with st := cOk } s)
    else .next (setSeq m { q' with run := .waiting, wait := .angle target (tmoLimit s (bits w 56 52)) } s)

/-- R72, R81: the limit of a WAITSYNC or WAITANG has passed. -/
def execSeqWaitTimeout (m : Nat) (s : State) : Res :=
  let q := seqOf s m
  match q.wait with
  | .angle _ (some t) =>
    if t ≤ s.ft then .next (setSeq m { q with st := cTimeout, run := .running, wait := .none } s) else .next s
  | .sync i =>
    let o := obj s i
    let mine := fun w : Waiter => waiterLate s w && (match w.req with | .seq k _ => k == m | _ => false)
    if o.waiters.any mine then
      let s := setObj i { o with waiters := o.waiters.filter fun w => !mine w } s
      let s := setSeq m { q with st := { status := .timeout, value := o.value, aux := o.gen }, run := .running, wait := .none } s
      .next (wake i s)
    else .next s
  | _ => .next s

/-- R80: ISSUE. A command presented to the program whose descriptor the buffer holds is thereby issued (R78). -/
def execIssue (m : Nat) (s : State) : Res :=
  match seqInstr s m 5 with
  | none => .next s
  | some w =>
    let q := seqOf s m
    if 16 ≤ q.outst.length then .next (setSeq m { q with run := .waiting, wait := .room } s)
    else
      let slot := q.nextSlot
      let await_ := bitOf w 56
      let bytes := q.bufs.getD (bits w 58 57) []
      let mine := match q.cmd with
        | some c => if ofLE (bytes.take 64) = ofLE ((c.words.flatMap (toLE 8)).take 64) then some c else none
        | none => none
      let q' := { seqGoOn q.pc q with
        nextSlot := slot + 1, outst := q.outst ++ [{ slot := slot, awaited := await_ }],
        run := if await_ then .waiting else .running, wait := if await_ then .issue slot else .none,
        cmd := if mine.isSome then none else q.cmd }
      .next (blockIssue (seqBlock m) m (bits w 51 48) bytes (.seq m slot) mine q.part q.asid (setSeq m q' s))

/-- R80: an outstanding issue has its outcome. An awaited one is taken after every earlier one. -/
def execIssueComplete (m slot : Nat) (s : State) : Res :=
  let q := seqOf s m
  match q.outst.find? (·.slot == slot) with
  | none => .next s
  | some i =>
    match i.done with
    | none => .next s
    | some c =>
      if i.awaited && q.outst.any (fun j => decide (j.slot < slot)) then .next s
      else
        let rest := q.outst.filter (·.slot != slot)
        let acc := if !i.awaited && c.status != .ok && q.acc.status == .ok then { c with data := [] } else q.acc
        let q := { q with outst := rest, acc := acc }
        if q.run = .abandoning then .next (if rest.isEmpty then seqIdle m (setSeq m q s) else setSeq m q s)
        else
        let q := match q.wait with
          | .issue k => if k = slot then { q with st := { c with data := [] }, run := .running, wait := .none } else q
          | .room => { q with run := .running, wait := .none }
          | .drain => if rest.isEmpty then { q with run := .running, wait := .none } else q
          | _ => q
        .next (setSeq m q s)

/-- R80: SIGNAL waits for earlier issues, then performs its operation. -/
def execSignal (m : Nat) (s : State) : Res :=
  match seqInstr s m 6 with
  | none => .next s
  | some w =>
    let q := seqOf s m
    if !q.outst.isEmpty then .next (setSeq m { q with run := .waiting, wait := .drain } s)
    else
      match syncOfCode (bits w 58 55) with
      | none => .next (setSeq m { seqGoOn q.pc q with st := cBad } s)
      | some op =>
        let s := setSeq m (seqGoOn q.pc q) s
        let (s, c) := syncOp op (.seq m 0) (some q.part) {} (bits w 51 36) (seqOperand q w) none 0 s
        .next (modSeq m (fun q => { q with st := c.getD cOk }) s)

/-- R80, R82: BRST; a branch that leaves a loop body ends that loop. -/
def execBrst (m : Nat) (s : State) : Res :=
  match seqInstr s m 7 with
  | none => .next s
  | some w =>
    let q := seqOf s m
    let src := bits w 58 57
    if src = 1 && !q.outst.isEmpty then .next (setSeq m { q with run := .waiting, wait := .drain } s)
    else
      let tested := if src = 1 then q.acc else q.st
      let codeOk := tested.status.code == bits w 55 52
      let reasonOk := !bitOf w 51 || (match tested.reason with | some r => r.code | none => 0) == bits w 50 47
      let match_ := src == 2 || (codeOk && reasonOk)
      let q := if src = 1 then { q with acc := cOk } else q
      if match_ != bitOf w 56 then
        let t := bits w 43 32
        .next (setSeq m { q with pc := t, stack := q.stack.filter fun f => decide (f.first ≤ t) && decide (t ≤ f.last) } s)
      else .next (setSeq m (seqGoOn q.pc q) s)

/-- R78: a START action (or an equal request) queues a program start; the answer goes to `who`. -/
def execSequencerStart (who : Requester) (m entry asid dbase : Nat) (s : State) : Res :=
  let n := (reqPart s who).getD (seqOf s m).part
  let (s, c) := seqStart n m entry asid dbase s
  .next (reply who c s)

end Sys2Proof.Machine
end

