-- ==== Sys2Proof/Machine/Domain.lean ====
section
/-!
DEFINITION. Angle domains (R40 to R52), accepted advances, restarts and the dispatch of schedule actions
(R63 to R65).
-/
namespace Sys2Proof.Machine

/-! ### Snapshots and commit (R44, R45) -/

/-- R44: what a snapshot of partition `n` holds. -/
def snapObjs (n : Nat) (s : State) : List (Nat × ObjSnap) :=
  (s.mer.objs.filter fun p => p.2.part == n).map fun p => (p.1, { mode := p.2.mode, value := p.2.value, gen := p.2.gen })

/-- R44: a snapshot becomes the one a restart returns to, and COMMIT_STEP its step. -/
def commitSnap (n step : Nat) (s : State) : State :=
  let d := dom s n
  match d.pendSnaps.find? (·.step == step) with
  | some sn => setDom n { d with commit := step, snap := sn, pendSnaps := d.pendSnaps.filter fun x => decide (step < x.step) } s
  | none => s

/-- R44, R45: the snapshot at an advance that raises STEP. -/
def stepSnapshot (n before angle : Nat) (s : State) : State :=
  let sn : Snapshot := { step := angleStep angle, objs := snapObjs n s, before := some before }
  let s := modDom n (fun d => { d with pendSnaps := d.pendSnaps ++ [sn] }) s
  mirrorThen (.snapshot n angle sn) (.commit n sn.step) (commitSnap n sn.step) s

/-! ### Accepted advances (R42, R44, R47, R49, R62, R65) -/

/-- R42: the lowest source position, if the domain has a source. -/
def lowest (d : Dom) : Option Nat := minOf (d.sources.map (·.2))

/-- R551: the pending swap's STEP trigger is reached by an advance of domain `n` to `step`. -/
def stepSwapReached (n step : Nat) (s : State) : Bool :=
  match s.cmp.swap with
  | some p => (match p.trig with | .step m t => m == n && decide (t ≤ step) | _ => false)
  | none => false

/-- R552: the STEP trigger of the pending swap has been reached. -/
def markSwap (s : State) : State := { s with cmp := { s.cmp with swap := s.cmp.swap.map fun p => { p with hit := true } } }

/-- R65: presentations end at the next step boundary and count as missed. -/
def endPresentations (n : Nat) (s : State) : State :=
  let rs := (dom s n).retries.filter fun r => !r.act.ft
  let s := modDom n (fun d => { d with retries := d.retries.filter fun r => r.act.ft }) s
  rs.foldl (fun s r => countMissed n r.act (cRetry 0) s) s

/-- R80: every WAITANG of the partition whose target the Angle has reached ends OK. -/
def endWaitang (n angle : Nat) (s : State) : State :=
  (s.mer.seqs.idxs fun _ q => q.part == n).foldl (fun s m =>
    modSeq m (fun q => match q.wait with
      | .angle t _ => if t ≤ angle then { q with st := cOk, run := .running, wait := .none } else q
      | _ => q) s) s

/-- R81: every WAITANG of the partition ends TIMEOUT. -/
def timeoutWaitang (n : Nat) (s : State) : State :=
  (s.mer.seqs.idxs fun _ q => q.part == n).foldl (fun s m =>
    modSeq m (fun q => match q.wait with
      | .angle _ _ => { q with st := cTimeout, run := .running, wait := .none }
      | _ => q) s) s

/-- R42 to R49, R62: an accepted advance of domain `n` to `a`. Where the STEP trigger of a pending swap is
reached, the occurrences at `a` itself wait for SWAP_TRIGGER (R66, R85). -/
def acceptAdvance (n a : Nat) (s : State) : State :=
  let d := dom s n
  let raised := decide (angleStep d.angle < angleStep a)
  let s := if raised then endPresentations n (stepSnapshot n d.angle a s) else s
  let s := modDom n (fun d => { d with angle := a, lastAdv := s.ft, st := if d.st = .stalled then .running else d.st }) s
  let s := modDom n (fun d' => { d' with lastRun := if d.st = .stalled then s.ft else d'.lastRun }) s
  let s := if decide (angleStep d.angle < 0xFFFFFF00) && decide (0xFFFFFF00 ≤ angleStep a)
           then report .angleWrapNear .meridian (some n) [] s else s
  let s := if raised && stepSwapReached n (angleStep a) s then markSwap (if a = 0 then s else fireAngle n (a - 1) s) else fireAngle n a s
  planeAngle n a (endWaitang n a s)

/-- R42: the lowest position has changed; where it lies above the domain Angle and the domain follows it, the
domain advances. -/
def followSources (n : Nat) (s : State) : State :=
  let d := dom s n
  match lowest d with
  | some a => if (d.st = .running || d.st = .stalled) && decide (d.angle < a) then acceptAdvance n a s else s
  | none => s

/-- R41: a report of a source's position. -/
def execAngleAdvance (p node a : Nat) (s : State) : Res :=
  match (port s p).part with
  | none => .next s
  | some n =>
    let d := dom s n
    if d.st = .restarting then .next s
    else if !d.sources.any (·.1 == node) || nodeAt s p node != some n then .next (setDom n { d with unregistered := sat 16 d.unregistered } s)
    else
      let pos := d.sources.get node
      if a < pos then .next (setDom n { d with backward := sat 16 d.backward } s)
      else if a = pos then .next s
      else .next (followSources n (setDom n { d with sources := d.sources.put node a } s))

/-! ### Stall (R47) -/

/-- R47: the stall limit has passed since the later of the last accepted advance and the last entry to RUNNING. -/
def stallDue (s : State) (d : Dom) : Bool :=
  d.st == .running && d.stallNs != 0 && decide (max d.lastAdv d.lastRun + d.stallNs ≤ s.ft)

/-- R52: the source at the lowest position, the lowest node number on a tie (LAG_NODE, LAG_ANGLE). -/
def lagSource (d : Dom) : Nat × Nat :=
  match lowest d with
  | some a => ((d.sources.find? fun p => p.2 == a).map fun p => (p.1, a)).getD (0, 0)
  | none => (0, 0)

/-- R47, R81: entry to STALLED. -/
def enterStalled (n : Nat) (s : State) : State :=
  let d := dom s n
  let s := setDom n { d with st := .stalled, stalls := sat 16 d.stalls } s
  timeoutWaitang n (report .angleStalled .meridian (some n) [(lagSource d).1, (lagSource d).2] s)

/-- R47. -/
def execAngleStallTimeout (n : Nat) (s : State) : Res :=
  if stallDue s (dom s n) then .next (enterStalled n s) else .next s

/-- R47: a write of ANGLE_STALL_NS takes effect at once. -/
def execStallCfgWrite (who : Requester) (n v : Nat) (s : State) : Res :=
  mgmtGate who .admin false (fun s =>
    let s := modDom n (fun d => { d with stallNs := bits v 39 0 }) s
    let s := if stallDue s (dom s n) then enterStalled n s else s
    .next (reply who cOk s)) s

/-! ### Restart (R48, R600) -/

/-- R48 step 2, R587: every program on a sequencer that `p` selects is abandoned, its starts are dropped and its
waits withdrawn; a command presented and not issued returns to the head of its block's queue. -/
def abandonSeqs (p : Nat → Seq → Bool) (s : State) : State :=
  (s.mer.seqs.idxs p).foldl (fun s m =>
    let q := seqOf s m
    let s := match q.cmd with | some c => returnCmd (seqBlock m) c s | none => s
    let s := match q.wait with
      | .sync i => let o := obj s i
                   setObj i { o with waiters := o.waiters.filter fun w => match w.req with | .seq k _ => k != m | _ => true } s
      | _ => s
    setSeq m { q with run := if q.outst.isEmpty then .idle else .abandoning, starts := [], stack := [], wait := .none, cmd := none } s) s

/-- R48 step 4: the objects of a partition take the values of a snapshot; one it does not list keeps its own. -/
def restoreObjs (n : Nat) (sn : Snapshot) (s : State) : State :=
  sn.objs.foldl (fun s (i, x) =>
    let o := obj s i
    if o.part = n then setObj i { o with mode := x.mode, value := x.value, gen := x.gen } s else s) s

/-- R48, R50: the partner's acknowledgements of snapshots taken before no longer move COMMIT_STEP. -/
def dropCommits (n : Nat) (s : State) : State :=
  { s with pair := { s.pair with waits := s.pair.waits.map fun w => match w.2.2 with
    | .commit m _ => if m = n then (w.1, w.2.1, .none) else w
    | _ => w } }

/-- R48: entry to RESTARTING, with steps 1 to 5. -/
def enterRestarting (n : Nat) (s : State) : State :=
  let d := dom s n
  let dropped := (d.due.filter fun a => !a.ft).map fun a => (a.entry, a.trigger)
  let s := report .angleRestarting .meridian (some n) [d.commit] s
  let s := abandonSeqs (fun _ q => q.part == n && q.owned) s
  let s := endWaiters n (some (cRetry 10000)) s
  let s := dropCommits n (restoreObjs n d.snap s)
  let low := match d.snap.before with | some p => min d.fireLow (p + 1) | none => 0
  let a := angleOf d.commit 0
  let s := modDom n (fun d => { d with
    st := .restarting, angle := a, sources := d.sources.map fun p => (p.1, a), pendSnaps := [],
    due := d.due.filter (·.ft), retries := d.retries.filter (·.act.ft),
    fireLow := low, unfired := (d.unfired ++ dropped).filter fun u => decide (u.2 < low) }) s
  abandonEngines n s

/-- R47, R48 step 6: the restart is complete. -/
def execRestartDone (n : Nat) (s : State) : Res :=
  let d := dom s n
  if d.st != .restarting then .next s
  else
    let s := (s.mer.seqs.idxs fun _ q => q.part == n && q.run == .abandoning).foldl (fun s m =>
      seqIdle m (modSeq m (fun q => { q with outst := [] }) s)) s
    let s := modDom n (fun d => { d with
      st := if d.sources.isEmpty then .idle else .running, lastRun := s.ft, lastAdv := s.ft }) s
    .next (mirrorOnly (.restarted n (dom s n).angle { step := d.commit, objs := snapObjs n s, before := d.snap.before }) s)

/-! ### Domain control (R40, R47, R50, R52) -/

/-- A write of MER_DOM_CTL_n: only management, never while RESTARTING (R51, R52). `bad` says that the command names a node
that it may not name (R13 order 2). -/
def domCtl (who : Requester) (n : Nat) (bad : State → Bool) (k : Dom → State → State × Cpl) (s : State) : Res :=
  mgmtGate who .admin false (fun s =>
    if decide (16 ≤ n) || bad s then .next (reply who cBad s)
    else if scrubFenced s n then .next (reply who (cRetry 50000) s)
    else if (dom s n).st = .restarting then .next (reply who (cRef .state) s)
    else
      let (s, c) := k (dom s n) s
      .next (reply who c s)) s

/-- R52: CMD 0x0. -/
def execDomCtlNone (who : Requester) (n : Nat) (s : State) : Res := domCtl who n (fun _ => false) (fun _ s => (s, cOk)) s

/-- R47: HOLD. -/
def execDomHold (who : Requester) (n : Nat) (s : State) : Res :=
  domCtl who n (fun _ => false) (fun d s =>
    if d.st = .running || d.st = .stalled then (setDom n { d with st := .held } s, cOk) else (s, cRef .state)) s

/-- R47: RELEASE, with the pending advance. -/
def releaseDom (n : Nat) (s : State) : State :=
  let s := modDom n (fun d => { d with st := .running, lastRun := s.ft }) s
  followSources n s

def execDomRelease (who : Requester) (n : Nat) (s : State) : Res :=
  domCtl who n (fun _ => false) (fun d s => if d.st = .held then (releaseDom n s, cOk) else (s, cRef .state)) s

/-- R48: RESTART. -/
def execDomRestart (who : Requester) (n : Nat) (s : State) : Res :=
  domCtl who n (fun _ => false) (fun _ s => (enterRestarting n s, cOk)) s

/-- R50: REBASE. -/
def execDomRebase (who : Requester) (n : Nat) (s : State) : Res :=
  domCtl who n (fun _ => false) (fun d s =>
    let named := match s.cmp.swap with | some p => (match p.trig with | .step m _ => m == n | _ => false) | none => false
    if d.st != .held || d.angle % 65536 != 0 || named then (s, cRef .state)
    else
      let sn : Snapshot := { step := 0, objs := snapObjs n s, before := none }
      let s := modDom n (fun d => { d with
        angle := 0, sources := d.sources.map fun p => (p.1, 0), snap := sn, commit := 0, pendSnaps := [],
        fireLow := 0, unfired := [] }) s
      let s := mirrorOnly (.snapshot n 0 sn) (dropCommits n s)
      (planeRebase n (orbitRebase n (timeoutWaitang n s)), cOk)) s

/-- R40, R52: SOURCE_ADD. -/
def execSourceAdd (who : Requester) (n node : Nat) (s : State) : Res :=
  domCtl who n (fun s => !(s.cmp.active.nodes ++ s.cmp.active.partnerNodes).any fun e => e.node == node && e.part == n) (fun d s =>
      match lowestReason ((if decide (256 ≤ d.sources.length) then [.capacity] else [])
          ++ (if d.sources.any (·.1 == node) then [.state] else [])) with
      | some r => (s, cRef r)
      | none =>
        let d := { d with sources := d.sources.put node d.angle }
        let d := if d.st = .idle then { d with st := .running, lastRun := s.ft } else d
        (setDom n d s, cOk)) s

/-- R40, R47: a source is removed; the lowest position may rise, or the domain becomes IDLE. -/
def removeSource (n node : Nat) (s : State) : State :=
  let d := dom s n
  let src := d.sources.del node
  let s := setDom n { d with sources := src, st := if src.isEmpty && d.st != .restarting then .idle else d.st } s
  followSources n s

def execSourceRemove (who : Requester) (n node : Nat) (s : State) : Res :=
  domCtl who n (fun _ => false) (fun d s => if d.sources.any (·.1 == node) then (removeSource n node s, cOk) else (s, cRef .state)) s

/-! ### Dispatch (R63 to R65) -/

/-- R60, R65: an action at its target's admission. Answers none where a waiting operation is pending. -/
def performAction (n : Nat) (a : DueAct) (s : State) : State × Option Cpl :=
  match entAction a.words with
  | 1 =>
    let (s, c) := seqStart n (entTarget a.words) (bits (entParamA a.words) 3 0) (bits (entParamA a.words) 15 4) (entParamB a.words) s
    (s, some c)
  | 2 =>
    match syncOfCode (bits (entParamA a.words) 3 0) with
    | none => (s, some cBad)
    | some op => syncOp op (.sched n a.entry) (some n) a (entTarget a.words) (entParamB a.words) none 0 s
  | 3 =>
    let (s, c) := scheduleCmd n a.entry (bits (entTarget a.words) 15 12) (bits (entTarget a.words) 11 0) (entParamB a.words) s
    (s, some c)
  | 4 =>
    (logEntry { code := bits (entParamA a.words) 15 0, sev := .info, part := some n, block := Block.meridian.code,
                user := true, angle := (dom s n).angle, data := [entParamB a.words] } s, some cOk)
  | _ => (s, some cBad)

/-- R64, R65: the next due action of domain `n` is dispatched. A domain that is RESTARTING fires nothing. -/
def execScheduleActionDispatch (n : Nat) (s : State) : Res :=
  let d := dom s n
  match d.due with
  | [] => .next s
  | a :: rest =>
    if !running s || (d.st = .restarting && !a.ft) then .next s
    else
      match performAction n a (setDom n { d with due := rest } s) with
      | (s, some c) => .next (judge n a c s)
      | (s, none) => .next s

/-- R65: the oldest action whose retry-after hint has run out is presented again, or is missed when its
presentation has ended. -/
def execActionRepresent (n : Nat) (s : State) : Res :=
  let d := dom s n
  match d.retries.find? (fun r => decide (r.due ≤ s.ft)) with
  | none => .next s
  | some r =>
    let s := setDom n { d with retries := d.retries.erase r } s
    match r.until_ with
    | some t =>
      if t ≤ s.ft then .next (countMissed n r.act (cRetry 0) s)
      else
        match performAction n r.act s with
        | (s, some c) => .next (judgeUntil n r.act (some t) c s)
        | (s, none) => .next s
    | none =>
      match performAction n r.act s with
      | (s, some c) => .next (judgeUntil n r.act none c s)
      | (s, none) => .next s

end Sys2Proof.Machine
end

