-- ==== Sys2Proof/Machine/Group.lean ====
section
/-!
DEFINITION. Group regions (R508, R509, R536): GROUP_FILL and GROUP_ZERO.
-/
namespace Sys2Proof.Machine

/-- The ranges of a group. -/
def groupRanges (s : State) (g : Nat) : List GroupRec := s.cmp.active.groupRegs.filter (·.g == g)

def inGroupG (s : State) (g p : Nat) : Bool := (groupRanges s g).any fun r => decide (r.first ≤ p) && decide (p < r.first + r.count)

/-- R536: FILLING. -/
def groupBusy (s : State) (g : Nat) : Bool := s.per.fills.any (·.g == g)

/-- The pages that [off, off + n) touches. -/
def pagesIn (off n : Nat) : List Nat := if n = 0 then [] else rangeFrom (off / pageBytes) ((off + n - 1) / pageBytes - off / pageBytes + 1)

/-- R508: the ranges and multiples a GROUP_FILL must keep to. -/
def fillBad (s : State) (g src dst bytes : Nat) : Bool :=
  src % 512 != 0 || dst % 512 != 0 || bytes % 512 != 0 ||
  match groupRanges s g with
  | [] => true
  | r :: _ => !((pagesIn src bytes).all (inPool s r.filler)) || !((pagesIn dst bytes).all (inGroupG s g))

/-- R509: Plane frees every COPY of a page, on both switches. -/
def dropCopies (p : Nat) (s : State) : State :=
  let s := if hasPartner s then send .forward 0 [9, 5, p, 0] s else s
  { s with pln := { s.pln with copies := s.pln.copies.filter fun c => c.page != p } }

/-- R509: one block: read under FILLER's keys, passed through the ordering point as WR_LINE, written whole. A source page
that is ZERO ends the fill as poison does (R538). -/
def fillBlock (filler src dst : Nat) (s : State) : State × Cpl :=
  if (page s (src / pageBytes)).st = .zero then (s, cPoison)
  else match foldRead filler { engine := true, num := 0 } src 512 s with
  | (s, k) =>
    if k.status != .ok then (s, cPoison)
    else
      let s := if dst % pageBytes = 0 then dropCopies (dst / pageBytes) s else s
      match readyWrite (dst / pageBytes) s with
      | (s, some c) => (s, c)
      | (s, none) => foldWrite filler { engine := true, num := 0 } false false dst k.data (engineWrite1 filler dst 512 s).1

/-- R509: the blocks in ascending order; VALUE counts the bytes done where the fill ends early. -/
def fillBlocks (filler : Nat) : (n src dst done : Nat) → State → State × Cpl
  | 0, _, _, done, s => (s, { value := done })
  | n + 1, src, dst, done, s =>
    match fillBlock filler src dst s with
    | (s, k) => if k.status = .ok then fillBlocks filler n (src + 512) (dst + 512) (done + 512) s else (s, { k with value := done, data := [] })

def fillerOf (s : State) (g : Nat) : Nat := ((groupRanges s g).head?.map (·.filler)).getD 16

/-- R509: an admitted fill runs. -/
def fillGo (f : Fill) (s : State) : State :=
  let away := fun p => !homeLocal s p
  if partnerOut s && ((pagesIn f.src f.bytes).any away || (pagesIn f.dst f.bytes).any away) then reply f.who (cRetry 10000) s
  else
    let s := if f.bytes = 0 || f.dst % pageBytes = 0 then s else dropCopies (f.dst / pageBytes) s
    let (s, k) := fillBlocks (fillerOf s f.g) (f.bytes / 512) f.src f.dst 0 s
    reply f.who k s

/-- R509, R568: a fill waits for budget and is never refused for want of it; an oversize one waits for an opening with R 0. -/
def fillTry (opening : Bool) (f : Fill) (s : State) : State :=
  let part := fillerOf s f.g
  let wait := fun s => { s with per := { s.per with fills := s.per.fills ++ [f] } }
  match energyAns s .background f.cost with
  | .admitted => fillGo f (debit part f.cost s)
  | .oversize => if opening && s.cmp.energy.r = 0 then fillGo f (admitOversize part f.cost s) else wait (countEnergyWait part s)
  | .refused => wait (countEnergyWait part s)

/-- The fills that wait are tried again as an epoch opens. -/
def fillsOpen (s : State) : State :=
  let fs := s.per.fills.filter fun f => !f.zero
  fs.foldl (fun s f => fillTry true f { s with per := { s.per with fills := s.per.fills.erase f } }) s

/-- R508: GROUP_FILL. The fill's pre-cost is of Plane's default row. -/
def execGroupFill (who : Requester) (g src dst bytes : Nat) (s : State) : Res :=
  mgmtGate who .admin false (fun s => .next (
    if fillBad s g src dst bytes then reply who cBad s
    else if groupBusy s g then reply who (cRef .state) s
    else fillTry false { g := g, src := src, dst := dst, bytes := bytes, cost := preCost s 9 0xF [(0, 2 * bytes)], who := who } s)) s

/-- R508: the group's pages are ZERO, their frames and COPYs free, and GGEN_g advances. -/
def groupZeroed (g v : Nat) (s : State) : State :=
  let ps := (s.pln.pages.map (·.1) ++ s.pln.copies.map (·.page)).eraseDups.filter (inGroupG s g)
  let s := ps.foldl (fun s p => zeroPage p s) s
  modPer (fun x => { x with ggen := x.ggen.set g v }) s

/-- R504, R508: the change of GGEN_g has been acknowledged. -/
def groupZeroDone (g : Nat) (s : State) : State :=
  let fs := s.per.fills.filter fun f => f.zero && f.g == g
  let s := groupZeroed g ((s.per.ggen.get g + 1) % 2 ^ 32) (modPer (fun x => { x with fills := x.fills.filter fun f => !(f.zero && f.g == g) }) s)
  fs.foldl (fun s f => reply f.who cOk s) s

/-- R508: GROUP_ZERO. -/
def execGroupZero (who : Requester) (g : Nat) (s : State) : Res :=
  mgmtGate who .admin false (fun s => .next (
    if (groupRanges s g).isEmpty then reply who cBad s
    else if groupBusy s g then reply who (cRef .state) s
    else
      let s := modPer (fun x => { x with fills := x.fills ++ [{ g := g, zero := true, who := who }] }) s
      mirrorThen (.ggen g ((s.per.ggen.get g + 1) % 2 ^ 32)) (.ggen g) (groupZeroDone g) s)) s

end Sys2Proof.Machine
end

