-- ==== Sys2Proof/Machine/Verify.lean ====
section
/-!
DEFINITION. The verification of a configuration image (R547, R549, R550): its header and section table, its signatures and
digests, and every condition that a rule states for an image failing verification.
-/
namespace Sys2Proof.Machine

/-! ### The header and the section table (R545 to R550) -/

/-- Whether every two entries of a list, the earlier first, satisfy `f`. -/
def pairwise {α : Type} (f : α → α → Bool) : List α → Bool
  | [] => true
  | x :: xs => xs.all (f x) && pairwise f xs

/-- Two ranges (first, count) have nothing in common. -/
def apart (a b : Nat × Nat) : Bool := a.2 == 0 || b.2 == 0 || decide (a.1 + a.2 ≤ b.1) || decide (b.1 + b.2 ≤ a.1)

/-- R546: the section types a swap takes. -/
def swappable (t : Nat) : Bool := decide (6 ≤ t) && decide (t ≤ 15)

/-- R546: the section of a type. -/
def section_ (i : Image) (t : Nat) : Option SecEntry := i.hdr.sections.find? (·.typ == t)

/-- The SHA-384 digest of a section, 0 where there is none. -/
def digestOf (i : Image) (t : Nat) : Nat := ((section_ i t).map (·.digest)).getD 0

/-- R545, R546: the header and the section table are as required. TRUST alone is optional. -/
def headerOk (i : Image) : Bool :=
  let h := i.hdr
  h.magic == 0x49435655 && h.format == 1 && h.stepping == 0xB0 && decide (h.length ≤ 50331648) &&
  decide (1 ≤ h.nsec) && decide (h.nsec ≤ 64) && h.nsec == h.sections.length && h.zero &&
  h.sections.all (fun e => e.zero && e.offset % 4096 == 0 && decide (e.offset + e.length ≤ h.length)) &&
  pairwise (fun a b => a.typ != b.typ && apart (a.offset, a.length) (b.offset, b.length)) h.sections &&
  (rangeFrom 1 14).all fun t => (section_ i t).isSome

/-- R548: the owner key while the owner hash is blank. -/
def coriofinKey : Nat := 0

/-! ### Schedules (R60, R61) -/

/-- Whether partition `r` holds an object. -/
def ownsObj (r : PartRec) (o : Nat) : Bool := r.objs.any fun x => decide (x.1 ≤ o) && decide (o < x.1 + x.2)

/-- R61: the queues of a block's command queues that a partition may name; Chord, Cone and Centroid queues feed engines. -/
def ownsQueue (r : PartRec) (blk q : Nat) : Bool :=
  match blk with
  | 0xB => decide (q < 32) && r.seqs.contains q
  | 0xC => decide (q < 64) && r.seqs.contains (32 + q)
  | 0xF => decide (q < 16) && r.seqs.contains (96 + q)
  | _ => true

/-- R60: an entry without a reserved encoding, a STRIDE or a PERIOD of zero, or a TARGET outside its partition. -/
def entryOk (r : PartRec) (w : List Nat) : Bool :=
  bits (w.getD 0 0) 55 48 == 0 &&
  (match entKind w with
    | 0 => w.getD 1 0 == 0
    | 1 => bits (w.getD 1 0) 31 0 != 0
    | 2 => entAngle w == 0
    | _ => entAngle w != 0) &&
  (match entAction w with
    | 1 => r.seqs.contains (entTarget w)
    | 2 => (syncOfCode (bits (entParamA w) 3 0)).isSome && ownsObj r (entTarget w)
    | 3 => [0x7, 0x9, 0xB, 0xC, 0xD, 0xE, 0xF].contains (bits (entTarget w) 15 12) &&
           ownsQueue r (bits (entTarget w) 15 12) (bits (entTarget w) 11 0)
    | 4 => true
    | _ => false)

/-! ### Programs (R79, R82) -/

def insOp (w : Nat) : Nat := bits w 63 59

/-- R79: no reserved opcode and no reserved field or field encoding. -/
def insOk (w : Nat) : Bool :=
  match insOp w with
  | 0 => bits w 58 0 == 0
  | 1 => bits w 33 32 == 0
  | 2 => bits w 35 32 == 0
  | 3 => bits w 32 32 == 0 && bits w 58 57 != 3
  | 4 => bits w 51 48 == 0 && bits w 58 57 != 3
  | 5 => bits w 55 52 == 0 && bits w 47 0 == 0
  | 6 => bits w 54 52 == 0 && bits w 32 32 == 0 && [1, 2, 4, 8].contains (bits w 58 55)
  | 7 => bits w 46 44 == 0 && bits w 31 0 == 0 && bits w 58 57 != 3 && decide (bits w 55 52 ≤ 0xB) && decide (bits w 50 47 ≤ 9)
  | _ => false

/-- The loops of a bank: the instruction, its counter, and the last instruction of its body. -/
def loopsOf (code : List Nat) : List (Nat × Nat × Nat) :=
  (code.zipIdx).filterMap fun (w, i) => if insOp w = 2 then some (i, bits w 58 57, i + bits w 55 44) else none

/-- The instruction lies in a loop's body. -/
def inBody (l : Nat × Nat × Nat) (i : Nat) : Bool := decide (l.1 < i) && decide (i ≤ l.2.2)

/-- R82: the conditions on loops and branches. -/
def loopsOk (code : List Nat) : Bool :=
  let ls := loopsOf code
  ls.all (fun l => decide (l.1 < l.2.2) && decide (l.2.2 < code.length) &&
    (ls.all fun o => !inBody o l.1 || (decide (l.2.2 ≤ o.2.2) && o.2.1 != l.2.1)) &&
    decide ((ls.filter fun o => inBody o l.1).length < 4)) &&
  (code.zipIdx).all fun (w, i) =>
    insOp w != 7 || (decide (bits w 43 32 < code.length) && ls.all fun l => !inBody l (bits w 43 32) || inBody l i)

/-- R82: a bank that does not fail verification. -/
def programOk (i : Image) (p : Program) : Bool :=
  let mine := i.parts.find? fun r => r.seqs.contains p.seq
  decide (p.code.length ≤ 4096) && decide (p.entries.length ≤ 16) && p.code.all insOk &&
  p.entries.all (fun e => match e with | some x => decide (x < p.code.length) | none => true) && loopsOk p.code &&
  p.code.all fun w => (insOp w != 3 && insOp w != 6) || mine.any fun r => ownsObj r (bits w 51 36)

/-! ### The composition -/

/-- R128: the pages below `x` homed on the switch of a role. -/
def homedBelow (role x : Nat) : Nat :=
  x / 2 + (if x % 2 = 1 && (bitOf (x - 1) 0 != bitOf (x - 1) 9) == (role == 1) then 1 else 0)

/-- The pool pages of a partition homed on the switch of a role. -/
def homedPages (r : PartRec) (role : Nat) : Nat := sumOf (r.pool.map fun x => homedBelow role (x.1 + x.2) - homedBelow role x.1)

/-- R22, R127, R137, R169: sums and frame counts. -/
def sharesOk (i : Image) : Bool :=
  decide (sumOf (i.parts.map (·.rsvCells)) ≤ 1572864) &&
  decide (sumOf (i.parts.map (·.trackerRsv)) ≤ 49152) &&
  (List.range 4).all (fun q => decide (sumOf (i.parts.map fun r => r.planeShare.getD q 0) ≤ 64) &&
    decide (sumOf (i.parts.map fun r => r.vertexShare.getD q 0) ≤ 64)) &&
  i.parts.all fun r => decide (homedPages r i.hdr.role ≤ r.ddrFrames + r.trayFrames) &&
    decide (homedPages r (1 - i.hdr.role) ≤ r.partnerDdr + r.partnerTray)

/-- R104, R115, R127, R168: masks and ranges that must not overlap. -/
def rangesOk (i : Image) : Bool :=
  let pools := i.parts.map fun r => r.pool
  let groups := i.groupRegs.map fun g => (g.g, (g.first, g.count))
  pairwise (fun a b => a.wayMask &&& b.wayMask == 0 && a.vtxWayMask &&& b.vtxWayMask == 0 &&
    apart (a.fqBase, a.fqSize) (b.fqBase, b.fqSize)) i.parts &&
  pairwise (fun a b => a.all fun x => b.all (apart x)) pools &&
  pools.all (fun p => p.all fun x => groups.all fun g => apart x g.2) &&
  pairwise (fun a b => a.1 == b.1 || apart a.2 b.2) groups &&
  i.parts.all fun r => r.vtxWayMask != 0 || !(i.ports.any fun p => p.coherent && p.part == some r.part)

/-- R87, R450, R451: ports, gangs and the node table. -/
def portsOk (i : Image) : Bool :=
  let modeOf := fun (p : Nat) => ((i.ports.find? (·.port == p)).map (·.mode)).getD .unused
  decide ((i.ports.filter (·.mode == .eth)).length ≤ 64) &&
  i.nodes.all (fun e => modeOf e.port == .xcl && !(i.ports.any fun p => p.port == e.port && p.gang.any (· != e.port)) &&
    !(i.partnerNodes.any (·.node == e.node)) &&
    decide ((i.nodes.filter (·.port == e.port)).length ≤ 16)) &&
  pairwise (fun a b => (a.node != b.node || a.port == b.port) && (a.port != b.port || a.part == b.part)) i.nodes &&
  i.ports.all fun p => match p.gang with
    | some g => g % 2 == 0 && (p.port == g || p.port == g + 1) &&
        i.ports.any (fun q => q.port == g && q.gang == some g && q.mode == p.mode && q.part == p.part) &&
        i.ports.any (fun q => q.port == g + 1 && q.gang == some g && q.mode == p.mode && q.part == p.part)
    | none => true

/-! ### The other sections -/

/-- R414, R415: partition `n` owns an input attachment, where that is a port, or an engine of Chord, Cone, Orbit, Apex or
Centroid, whose owner is its sequencer's. -/
def attachOk (i : Image) (a n : Nat) : Bool :=
  let seq := fun m => i.parts.any fun r => r.part == n && r.seqs.contains m
  if a < 256 then i.ports.any fun p => p.port == a && p.part == some n
  else if a < 280 then true
  else if a < 312 then seq (a - 280) else if a < 376 then seq (a - 280) else if a < 384 then seq (116 + (a - 376))
  else if a < 388 then seq (112 + (a - 384)) else if a < 404 then seq (96 + (a - 388)) else true

/-- R415, R419: the flow table. -/
def flowsOk (i : Image) : Bool :=
  pairwise (fun a b => a.attach != b.attach || a.part != b.part || a.slot != b.slot) i.flows &&
  i.flows.all (fun f => attachOk i f.attach f.part && !(f.police && f.slot == 7) && decide (f.cir ≤ f.pir) && f.quantum != 0 &&
    !(f.hold && i.ports.any fun p => p.port == f.attach && p.mode == .eth)) &&
  i.ethCfg.all fun e => e.mode == 0 || decide (e.xonKib < e.xoffKib)

/-- R257: a Cone group's engines. -/
def groupsOk (i : Image) : Bool :=
  i.coneGroups.all fun g => decide (1 ≤ g.engines.length) && decide (g.engines.length ≤ 16) &&
    g.engines.all fun e => i.parts.any fun r => r.part == g.part && r.seqs.contains (32 + e)

/-- R37, R648: the rated throughput of a unit, per second, the line of R37 that holds it, and the line's watts. -/
def unitRate : List (Nat × Nat × Nat) :=
  [(24000000000000, 0, 230), (845000000000, 1, 40), (8200000000000, 2, 185), (40000000000000, 3, 420), (800000000000, 3, 420),
   (14336000000000, 4, 80), (1150000000000000, 5, 290), (6272000000000, 6, 60), (112000000000, 7, 25), (6400000000000, 8, 120)]

/-- R648: a row charges no line of R37 with more than its budget; rates are in fJ. -/
def rowOk (r : EnergyRow) : Bool :=
  (List.range 9).all fun line =>
    let mine := (unitRate.zipIdx).filter fun u => u.1.2.1 == line
    mine.all fun u => decide (sumOf (mine.map fun v => r.rates.getD v.2 0 * v.1.1) ≤ u.1.2.2 * 1000000000000000)

/-- R648. -/
def energyOk (i : Image) : Bool :=
  pairwise (fun (a b : EnergyRow) => a.block != b.block || a.op != b.op) i.energy.rows && i.energy.rows.all rowOk &&
  [0x6, 0x7, 0x9, 0xB, 0xC, 0xD, 0xE, 0xF].all fun b => i.energy.rows.any fun r => r.block == b && r.op == 0xF

/-- R469: the units that each class needs at least. -/
def leastCredits : List Nat := [0, 33, 33, 2, 2, 1, 2, 2, 1, 514, 1, 1, 1, 73, 33]

/-- R547 cause 7: every condition stated for an image failing verification is met. -/
def rulesOk (i : Image) : Bool :=
  sharesOk i && rangesOk i && portsOk i && flowsOk i && groupsOk i && energyOk i &&
  i.scheds.all (fun d => d.2.entries.all (entryOk ((i.parts.find? (·.part == d.1)).getD {}))) &&
  i.objs.all (fun o => o.mode != 2 || (o.target != 0 && decide (o.target < 4294967296))) &&
  i.programs.all (programOk i) &&
  i.qps.all (fun q => decide (q.ackTmo ≤ 20)) &&
  (leastCredits.zipIdx).all fun (n, c) => decide (n ≤ i.linkCredits.getD c 0)

/-- R547: the cause for which an image is refused, 0 where it is verified. `answers` tells that the device does. -/
def imageCause (s : State) (answers : Bool) (i : Image) : Nat :=
  if !answers || !i.hdr.consistent then 1
  else if !headerOk i then 2
  else if i.hdr.ownerHash != s.cmp.ownerHash.getD coriofinKey || !i.hdr.sigOk then 3
  else if !i.hdr.fwSigOk then 4
  else if i.hdr.svn < s.cmp.rollback then 5
  else if !i.hdr.sections.all (·.digestOk) then 6
  else if !rulesOk i then 7 else 0

/-- R547: the cause of the image of a slot. -/
def nvmCause (s : State) (d : Nvm) : Nat :=
  match d.image with
  | some i => imageCause s d.answers i
  | none => if d.answers then 2 else 1

/-! ### Shadow images (R549, R550) -/

/-- R549: a shadow image with the sections that it only names, by an entry of LENGTH 0, taken from the active set. -/
def fillShadow (a i : Image) : Image :=
  let named := fun t => (section_ i t).any fun e => e.length == 0
  let hdr := { i.hdr with sections := i.hdr.sections.map fun e => if e.length == 0 then { e with digestOk := true } else e }
  let i := { i with hdr := hdr }
  let i := if named 2 then { i with parts := a.parts, groupRegs := a.groupRegs, ports := a.ports, partnerPorts := a.partnerPorts } else i
  let i := if named 3 then { i with nodes := a.nodes, partnerNodes := a.partnerNodes } else i
  if named 4 then { i with linkCredits := a.linkCredits, qps := a.qps, chdPeers := a.chdPeers, ethMacs := a.ethMacs, ethFwd := a.ethFwd } else i

/-- R550: the cause for which a shadow image fails; its sections that are not swappable have the digests of the active set
(8 where they do not, a cause of the model's own that no register shows). -/
def shadowCause (s : State) (i : Image) : Nat :=
  let c := imageCause s true i
  if c != 0 then c
  else if (rangeFrom 1 5).all fun t => digestOf i t == digestOf s.cmp.active t then 0 else 8

end Sys2Proof.Machine
end

