-- ==== Sys2Proof/Machine/Energy.lean ====
section
/-!
DEFINITION. Time and energy: the optical and PCIe references (R53, R642), energy epochs (R58, R565 to R571, R648), the budget,
sensors and thermal thresholds (R559, R560), and the log's timer (R564).
-/
namespace Sys2Proof.Machine

def modCmp (f : Compass → Compass) (s : State) : State := { s with cmp := f s.cmp }
def modPair (f : Pair → Pair) (s : State) : State := { s with pair := f s.pair }
def modPins (f : Pins → Pins) (s : State) : State := { s with pins := f s.pins }
def modMer (f : Meridian → Meridian) (s : State) : State := { s with mer := f s.mer }

/-! ### The optical references (R53, R636, R642) -/

/-- R452: a port's optical engine. -/
def engineOf (p : Nat) : Nat := if isPair p then 64 + (p - 256) / 4 else p / 4

/-- R636: the optical reference that serves a port. -/
def opticalRef (p : Nat) : Nat := if engineOf p ≤ 32 || engineOf p = 64 then 0 else 1

def refOk (s : State) (k : Nat) : Bool := if k = 0 then s.mer.ref0Ok else s.mer.ref1Ok
def setRef (k : Nat) (ok : Bool) (s : State) : State := modMer (fun m => if k = 0 then { m with ref0Ok := ok } else { m with ref1Ok := ok }) s

/-- R53, R642: an optical reference fails: the ports of the engines it serves go down, and with no reference left fabric time
holds its value. -/
def execOptRefclkFail (k : Nat) (s : State) : Res :=
  .next (if 2 ≤ k || !refOk s k then s
  else
    let s := setRef k false s
    let s := if s.mer.ref0Ok || s.mer.ref1Ok then s else modMer (fun m => { m with lock := .holdover }) s
    ((List.range 264).filter fun p => opticalRef p == k && (port s p).mode != .unused).foldl (fun s p => portDown p s) s)

/-- R53: an optical reference is stable again. `lag` is by how many ns fabric time has fallen behind while both were lost; it is
slewed out (R55). -/
def execOptRefclkRestore (k lag : Nat) (s : State) : Res :=
  .next (if 2 ≤ k || refOk s k then s
  else
    let held := !(s.mer.ref0Ok || s.mer.ref1Ok)
    let s := setRef k true s
    if held then modMer (fun m => { m with lock := .unlocked, slewRem := -(lag : Int) }) s else s)

/-- R146, R642: a PCIe reference fails: every common-clock tray port it serves goes down. `cc` are the common-clock tray ports. -/
def execPcieRefclkFail (k : Nat) (cc : List Nat) (s : State) : Res :=
  .next (if 2 ≤ k then s
  else
    let s := modPins (fun x => if k = 0 then { x with pcieOk0 := false } else { x with pcieOk1 := false }) s
    (cc.filter fun t => t / 16 == k).foldl (fun s t => trayDown t (modTrayLink t (fun y => { y with width := 3 }) s)) s)

/-- R642: a PCIe reference is stable again. Its tray ports retrain, and each comes up with TRAY_LINK_UP. -/
def execPcieRefclkRestore (k : Nat) (s : State) : Res :=
  .next (if 2 ≤ k then s else modPins (fun x => if k = 0 then { x with pcieOk0 := true } else { x with pcieOk1 := true }) s)

/-! ### Sensors (R559, R560) -/

/-- R559: how often a kind of sensor is sampled, in ns, and how many there are. -/
def sensorPeriod (sensor : Nat) : Nat :=
  match sensor / 4096 with
  | 0 | 1 | 2 => 10000 | 3 => 1000000 | _ => 100000000
def sensorCount (kind : Nat) : Nat := [64, 8, 16, 16, 16, 16, 16, 32].getD kind 0
def sensorExists (sensor : Nat) : Bool := decide (sensor % 4096 < sensorCount (sensor / 4096))

/-- R559: a sensor that has not answered for 3 of its periods is not current. -/
def sensorValid (s : State) (sensor : Nat) : Bool :=
  let x := s.cmp.sensors.get sensor
  x.valid && decide (s.ft ≤ x.ft + 3 * sensorPeriod sensor)

/-- R560: the highest current die or Prism temperature in m°C, with its sensor. -/
def hottest (s : State) : Option (Nat × Int) :=
  (s.cmp.sensors.filter fun e => decide (e.1 < 8192) && sensorValid s e.1).foldl (fun acc e => match acc with
    | none => some (e.1, e.2.value)
    | some (k, v) => if v < e.2.value then some (e.1, e.2.value) else some (k, v)) none

/-- R560: the temperature is compared with WARN_C and THROTTLE_C. -/
def thermal (s : State) : State :=
  match hottest s with
  | none => s
  | some (k, v) =>
    let data := [k, toTwos 32 v]
    let warm := decide ((s.cmp.warnC : Int) * 1000 ≤ v)
    let s := if warm && !s.cmp.warned then setFaultBit 3 (report .cmpThermalWarn .compass none data s) else s
    let s := modCmp (fun c => { c with warned := warm }) s
    if decide ((s.cmp.throttleC : Int) * 1000 ≤ v) && !s.cmp.throttled then
      let s := modCmp (fun c => { c with throttled := true }) s
      modEnergy (fun e => { e with f := min 8 e.fEnergy }) (setFaultBit 3 (report .cmpThrottle .compass none data s))
    else if s.cmp.throttled && decide (v < ((s.cmp.throttleC : Int) - 5) * 1000) then
      modEnergy (fun e => { e with f := e.fEnergy }) (modCmp (fun c => { c with throttled := false }) s)
    else s

/-- R559, R566: a sample; a regulator's output power is kept for the epoch in progress. -/
def execSensorSample (sensor : Nat) (value : Int) (s : State) : Res :=
  .next (if !sensorExists sensor then s
  else
    let s := modCmp (fun c => { c with sensors := c.sensors.set sensor { value := satInt 32 value, ft := s.ft, valid := true } }) s
    let s := if sensor / 4096 = 3 && decide (sensor % 4096 < 14) then
        modEnergy (fun e => { e with sampled := setBit e.sampled (sensor % 4096), everSampled := setBit e.everSampled (sensor % 4096) }) s
      else s
    if sensor / 4096 < 2 then thermal s else s)

/-! ### The budget (R565) -/

/-- R565: clipped to 500 to 2,800 W, from the next epoch. -/
def setBudget (w : Int) (s : State) : State := modEnergy (fun e => { e with capNext := (max 500 (min 2800 w)).toNat }) s

/-- A PMBus LINEAR11 number: a 5-bit exponent and an 11-bit mantissa, both signed. -/
def linear11 (v : Nat) : Int :=
  let e := ofTwos 5 (bits v 15 11)
  let m := ofTwos 11 (bits v 10 0)
  if 0 ≤ e then m * 2 ^ e.toNat else m / 2 ^ (-e).toNat

/-- R565: PMBus command 0xD0. -/
def execPmbusBudgetWrite (v : Nat) (s : State) : Res := .next (if s.pins.porstN then setBudget (linear11 v) s else s)

/-- R565: BUDGET_SET. -/
def execBudgetSet (who : Requester) (w : Nat) (s : State) : Res :=
  mgmtGate who .power false (fun s => .next (reply who cOk (setBudget w s))) s

/-! ### The end of an epoch (R566, R568, R569, R571) -/

/-- R648: the regulator indices that FITTED marks. -/
def fittedList (s : State) : List Nat := (List.range 14).filter fun i => bitOf s.cmp.active.energy.fitted i

/-- R566: the measured energy in nJ: each fitted regulator's last sample of the epoch, over 1 ms. -/
def measured (s : State) : Nat :=
  sumOf ((fittedList s).map fun i => if bitOf s.cmp.energy.sampled i then ((s.cmp.sensors.get (0x3000 + i)).value * 1000).toNat else 0)

/-- R566: BASE at an epoch's end, with the reports of lost telemetry. -/
def settleBase (s : State) : State :=
  let fit := fittedList s
  let e := s.cmp.energy
  let lost := fit.filter fun i => !bitOf e.sampled i
  let m := measured s
  if !fit.all (fun i => bitOf e.everSampled i) then modEnergy (fun e => { e with m := m, lastM := m }) s
  else if lost.isEmpty then
    modEnergy (fun e => { e with m := m, lastM := m, base := e.base + ((m : Int) - e.d - e.base) / 16, lostReported := 0 }) s
  else
    let new := lost.filter fun i => !bitOf e.lostReported i
    let s := modEnergy (fun e => { e with m := m, lastM := m, lostReported := sumOf (lost.map fun i => 2 ^ i) }) s
    new.foldl (fun s i => report .cmpTelemetryLost .compass none [i] s) s

/-- R569: an account below zero joins the deficit. -/
def settleDeficit (s : State) : State :=
  let e := s.cmp.energy
  if e.a < 0 then
    let d := e.deficit + (-e.a).toNat
    report .cmpEnergyOverdraw .compass none [d] (modEnergy (fun e => { e with deficit := d, instalment := ceilDiv d (max 1 e.repay) }) s)
  else s

/-- R571: the epoch joins the history. -/
def closeEpoch (s : State) : State :=
  modEnergy (fun e => { e with
    hist := ({ start := e.epochStart, capW := e.capW, f := e.f, aOpen := e.aOpen, aClose := e.a, m := e.m, deficit := e.deficit,
               heldOrRefused := e.heldOrRefused } :: e.hist).take 1024,
    parts := e.parts.mapAll fun _ p => { p with lastDebit := p.debit, debit := 0 } }) s

/-- R568: the jobs held as oversize, at an opening with R 0. -/
def admitHeld (s : State) : State :=
  let ks := s.eng.queues.map (·.1) ++ s.eng.issued.map (·.1)
  let take := fun (s : State) (c : QCmd) => if c.held then admitOversize c.part c.cost s else s
  let s := ks.foldl (fun s k => ((s.eng.queues.get k) ++ (s.eng.issued.get k)).foldl take
    { s with eng := { s.eng with
        queues := s.eng.queues.mapAll (fun j l => if j = k then l.map fun c => { c with held := false } else l),
        issued := s.eng.issued.mapAll (fun j l => if j = k then l.map fun c => { c with held := false } else l) } }) s
  let s := (s.arc.held.filter (·.big)).foldl (fun s h =>
    let (n, _) := classify s h.pkt
    let cost := preCost s 6 h.pkt.cls ((List.range 10).map fun u => (u, h.pkt.bytes))
    admitPktAs true true h.pkt (admitOversize n cost (modArc (fun a => { a with held := a.held.erase h }) s))) s
  (s.orb.jobs.filter fun j => j.waited && j.ready.isNone).foldl (fun s j =>
    let d := sess s j.num
    if d.st = .moving && d.target = .cold && d.refs = 0 &&
        energyAns s (if j.back then .background else .parkMove) (coldCost s j.num) = .oversize then
      coldGo j.num j (admitOversize d.part (coldCost s j.num) s)
    else s) s

/-- R569: the engine clock factor that a repayment leaves, in sixteenths. -/
def clockFactor (r : Nat) : Nat := max 8 (16 - ceilDiv (16 * r) 455000000)

/-- R566, R568 to R570: the next epoch opens. -/
def openEpoch (s : State) : State :=
  let e := s.cmp.energy
  let r := min e.deficit e.instalment
  let a : Int := (e.capNext : Int) * 1000000 - e.base - r
  let f := clockFactor r
  let s := modEnergy (fun e => { e with
    capW := e.capNext, r := r, deficit := e.deficit - r, a := a, aOpen := a, d := 0, m := 0, sampled := 0, heldOrRefused := 0,
    fEnergy := f, f := if s.cmp.throttled then min 8 f else f, epoch := s.ft / 1000000, epochStart := s.ft, belowZero := decide (a < 0) }) s
  let s := fillsOpen (if r = 0 then admitHeld s else s)
  if a < 0 && e.pauseEn && !e.paused then energyPause 0xFFFF s
  else if 0 < a && e.paused then energyPause 0 s else s

/-- R58, R428, R569: a whole multiple of 1 ms of fabric time, or a step of it, ends the epoch. -/
def execEnergyEpochEnd (s : State) : Res :=
  .next (if !s.pins.porstN || s.ft / 1000000 = s.cmp.energy.epoch then s
  else openEpoch (auditWindow (closeEpoch (settleDeficit (settleBase s)))))

/-- R570: half of the pause time sent, in a port's own quanta of 512 bit times, in ns. -/
def pauseHalf (s : State) (p : Nat) : Nat := if (port s p).gang.isSome then 10486 else 20971

/-- R570: the pause message is sent again. -/
def execEnergyPauseRefresh (p : Nat) (s : State) : Res :=
  .next (match s.cmp.energy.pauseAt.find? fun e => e.1 == p with
  | some (_, t) =>
    if s.cmp.energy.paused && decide (t + pauseHalf s p ≤ s.ft) then
      modEnergy (fun e => { e with pauseAt := e.pauseAt.put p s.ft }) (send .linkPause p [0x18, 0xFFFF] s)
    else s
  | none => s)

/-! ### The log's timer (R564) -/

/-- R564: 1 s after the last flush, unflushed entries are written to both devices. -/
def execLogFlushPeriodic (s : State) : Res :=
  .next (if s.pins.porstN && decide (s.cmp.lastFlush + 1000000000 ≤ s.ft) then { flushLog s with cmp := { (flushLog s).cmp with lastFlush := s.ft } } else s)

/-! ### The device schedule (R58, R62, R474) -/

/-- R58: the due entries of the device schedule act. -/
def runDevDue (s : State) : State :=
  s.mer.devDue.foldl (fun s i =>
    match s.cmp.active.devSched[i]? with
    | some e => match e.act with
      | .calibrate p pos => calStart p pos s
      | .rekey p => startRekey p s
      | .none => s
    | none => s) (modMer (fun m => { m with devDue := [] }) s)

/-- R62: armed fabric-time occurrences that fabric time has reached fire, the device schedule's among them. -/
def execFtOccurrenceFire (s : State) : Res :=
  if s.mer.everLocked && running s then .next (runDevDue (fireFt s)) else .next s

end Sys2Proof.Machine
end

