-- ==== Sys2Proof/Machine/Fence.lean ====
section
/-!
DEFINITION. Fencing and resetting a block (R16, R586 to R589), the restart of the coherent domain (R187), the accesses that
were answered RETRY (R113, R183, R322), and starvation promotion (R424).
-/
namespace Sys2Proof.Machine

/-! ### The fence (R587) -/

def modFence (b : Block) (f : Fence → Fence) (s : State) : State :=
  { s with cmp := { s.cmp with fences := s.cmp.fences.mod b.code f } }

/-- R556: the blocks that can be reset on their own: codes 0x7 to 0xF. -/
def resettable : List Block := [.vertex, .locus, .plane, .fold, .chord, .cone, .apex, .orbit, .centroid]

/-- R587 at time 0, R589: the block is fenced and its generation advances (R184); Vertex's domain goes down first (R182). A
block that is fenced already is not reset again. -/
def startFence (b : Block) (s : State) : State :=
  if fenced s b then s
  else
    let s := if b = .vertex then modVtx (fun v => { v with gen := (v.gen + 1) % 16 }) (domainDown 7 0 0 s) else s
    modFence b (fun f => { f with on := true, since := s.ft, drained := false, gen := (f.gen + 1) % 16 }) s

/-- R587: the commands of a block's queues that have not started complete: RETRY, or DOMAIN_DOWN at Vertex (R182). -/
def drainQueues (b : Block) (s : State) : State :=
  let mine := fun (k : Nat) => k / 64 == b.code
  let cs := (s.eng.queues.filter fun e => mine e.1).flatMap (·.2) ++ (s.eng.issued.filter fun e => mine e.1).flatMap (·.2)
  let s := { s with eng := { s.eng with queues := s.eng.queues.filter fun e => !mine e.1, issued := s.eng.issued.filter fun e => !mine e.1 } }
  let k := if b = .vertex then cDown else cRetry 25000
  cs.foldl (fun s c => finishCmd c none k s) s

/-- R587: a sequencer of the block is IDLE, its working state cleared. -/
def clearSeq (q : Seq) : Seq := { part := q.part, owned := q.owned, bank := q.bank }

/-- R16, R587 to 10 µs: what a fenced block holds completes, and its working state is cleared, as its chapter says (R106,
R156, R182, R254, R288, R332, R379, R413). -/
def drainBlock (b : Block) (s : State) : State :=
  let s := abandonSeqs (fun m q => q.owned && seqBlock m == b) s
  let s := (s.mer.seqs.idxs fun m q => q.owned && seqBlock m == b).foldl (fun s m => modSeq m clearSeq s) s
  let s := match b with
    | .vertex => modVtx (fun v => { v with wins := [], queue := [], held := [] }) s
    | .locus => locusClear s
    | .plane =>
      let js := s.pln.jobs
      js.foldl (fun s j => finishCmd j.cmd (if bitOf (j.cmd.w 0) 7 then some (bits (j.cmd.w 0) 35 20) else none) (worse j.out cPoison) s)
        { s with pln := { s.pln with jobs := [] } }
    | .fold =>
      (s.loc.reqs.filter fun r => r.phase == .access && !r.fwd && bits r.pa 63 52 == 0).foldl (fun s r => endReq r cPoison s) s
    | .chord =>
      let waiting := s.chd.engs.flatMap (·.2.waiting)
      let s := { s with chd := { s.chd with engs := s.chd.engs.mapAll fun _ g => { g with waiting := [] } } }
      let s := chordEnd (fun _ => true) s
      let s := { s with chd := { s.chd with engs := s.chd.engs.mapAll fun _ g => { g with insts := [], early := [] } } }
      waiting.foldl (fun s c => finishCmd c none (cRetry 25000) s) s
    | .cone => coneEnd (fun _ => true) s
    | .apex => apexEnd (fun _ => true) true s
    | .orbit => orbEnd (fun _ => true) s
    | .centroid => cenEnd (fun _ => true) s
    | _ => s
  drainQueues b s

/-- R587: 10 µs after the fence. -/
def execBlockFenceDrainEnd (b : Block) (s : State) : Res :=
  let f := s.cmp.fences.get b.code
  .next (if f.on && !f.drained && decide (f.since + 10000 ≤ s.ft) then modFence b (fun f => { f with drained := true }) (drainBlock b s) else s)

/-- R587: no sooner than 25 µs after the fence. -/
def execBlockFenceExit (b : Block) (s : State) : Res :=
  let f := s.cmp.fences.get b.code
  .next (if f.on && f.drained && decide (f.since + 25000 ≤ s.ft) then
    let s := modFence b (fun f => { f with on := false, drained := false, whos := [] }) s
    let s := report .cmpBlockReset .compass none [b.code] s
    f.whos.foldl (fun s w => reply w cOk s) s
  else s)

/-- R586: a block has stalled for BLOCK_WDT_US. -/
def execBlockWatchdogExpire (b : Block) (s : State) : Res :=
  .next (if !mgmtAnswers s then s
  else
    let s := setFaultBit 4 { s with cmp := { s.cmp with expiries := sat 16 s.cmp.expiries } }
    if resettable.contains b && bitOf s.cmp.autoReset (b.code - 7) then startFence b s else s)

/-- R556: BLOCK_RESET. The reply follows the return of the block (R542). -/
def execBlockReset (who : Requester) (b : Block) (s : State) : Res :=
  mgmtGate who .admin false (fun s =>
    .next (if resettable.contains b then modFence b (fun f => { f with whos := f.whos ++ [who] }) (startFence b s)
           else reply who cBad s)) s

/-! ### The coherent domain returns (R187) -/

/-- R183, R187: recalled data whose page can be written now reaches memory; the rest stays. -/
def writeRecalled (s : State) : State :=
  let l := s.vtx.recalled
  l.foldl (fun s (line, d) =>
    match lineReady line true s with
    | (_, some _) => modVtx (fun v => { v with recalled := v.recalled ++ [(line, d)] }) s
    | (s, none) => (foldWrite ((pagePart s (line * 128 / pageBytes)).getD 16) { engine := true, num := 0 } false false (line * 128) d s).1)
    (modVtx (fun v => { v with recalled := [] }) s)

/-- R187 step 4, R210: a line in OWN is written as POISON. -/
def poisonLine (line : Nat) (s : State) : State :=
  (foldWrite ((pagePart s (line * 128 / pageBytes)).getD 16) { engine := true, num := 0 } false true (line * 128) (List.replicate 128 0) s).1

/-- R187 step 5: the domains that the fall of the coherent domain restarts. -/
def restartDomains (s : State) : State :=
  let ns := s.vtx.restart
  ns.foldl (fun s n => if (dom s n).st = .restarting then s else enterRestarting n s) (modVtx (fun v => { v with restart := [] }) s)

/-- R187 steps 4 and 5: the walk ends. -/
def execDirectoryWalkDone (s : State) : Res :=
  .next (if s.vtx.st != .down || s.vtx.walked then s
  else
    let own := (s.vtx.dir.filter fun e => e.2.used && e.2.own).map (·.2.line)
    let s := own.foldl (fun s l => if s.vtx.recalled.any (fun r => r.1 == l) then s else poisonLine l s) s
    let s := modVtx (fun v => { v with dir := [], walked := true, st := .restarting }) s
    restartDomains (writeRecalled s))

/-- R187 step 6, R188: the domain is UP again; `partnerDone` tells that the partner's Vertex has done its steps 3 to 5. -/
def execCohDomainUp (partnerDone : Bool) (s : State) : Res :=
  let s := writeRecalled s
  .next (if s.vtx.st = .restarting && s.vtx.ackWait.isEmpty && s.vtx.recalled.isEmpty &&
      (partnerDone || !hasPartner s || !s.pair.linkUp) then
    restartDomains (modVtx (fun v => { v with st := .up, ptrs := [], walked := false }) s)
  else s)

/-! ### Accesses answered RETRY (R113, R183, R322) -/

/-- R183: the hint has run out, and the access is presented again. -/
def execEngineAccessRepresent (a : AccId) (s : State) : Res := .next (represent a s)

/-- R113, R322: an access not accepted within 20 µs. -/
def execEngineAccessTimeout (o : AccessOwner) (s : State) : Res :=
  .next (match o with
  | .orbit => orbTimeout s
  | .apex => apxTimeout s
  | .centroid => cenTimeout s
  | .locSync n => locSyncTimeout n s)

/-! ### Starvation (R278, R424, R426) -/

/-- R278: a class of an engine of Cone is promoted for one turn while a slice of the class waits there. The timer's start is
not kept: the event tells that it has run out. -/
def starveCone (u k : Nat) (s : State) : State :=
  let waits := s.cone.queries.any fun q => q.cls == k && q.slices.any fun x => x.active && x.engine == u
  let g := s.cone.engs.get u
  if waits && starveNs s k != 0 && g.promo.isNone then
    { s with cone := { s.cone with engs := s.cone.engs.set u { g with promo := some k, promotions := sat 16 g.promotions } } }
  else s

/-- R424: the timer of a queue reaches its limit: of output `u` at Lattice, of unit `u` of an engine or a block; `n` is the
partition and `k` the class. -/
def execStarvationPromote (b : Block) (u n k : Nat) (s : State) : Res :=
  .next (match b with
  | .lattice | .arc => starveOut u n k s
  | .cone => starveCone u k s
  | b => starveArb b u n k s)

end Sys2Proof.Machine
end

