-- ==== Sys2Proof/Machine/Roce.lean ====
section
/-!
DEFINITION. Ethernet forwarding, the RoCEv2 endpoint and the engine-command message (R462, R464, R466, R482 to R485).
-/
namespace Sys2Proof.Machine

/-! ### Ethernet frames (R464, R466) -/

def dropFrame (s : State) : State := modEdge (fun e => { e with ethDrops := e.ethDrops + 1 }) s

/-- R466: the port of a destination in a partition's table entries. -/
def ethRoute (s : State) (part mac : Nat) (vlan : Option Nat) : Option Nat :=
  (s.cmp.active.ethFwd.find? fun f => f.mac == mac && f.vlan == vlan && f.part == part).map (·.port)

/-- R464: 64 to 9,216 bytes without FCS. -/
def frameLenOk (data : List Byte) : Bool := decide (64 ≤ data.length) && decide (data.length ≤ 9216)

/-- R466: a frame arrives on an ETH port. One for the switch's own addresses is RoCEv2's, whose packets have commands of
their own. -/
def execEthFrameRx (p mac : Nat) (vlan : Option Nat) (data : List Byte) (s : State) : Res :=
  let x := port s p
  .next (if x.mode != .eth || x.st != .up then s
  else if s.cmp.active.ethMacs.contains mac then s
  else match x.part.bind fun n => ethRoute s n mac vlan with
    | some q => if (port s q).mode = .xcl && frameLenOk data then emit (.msg .ethFrame q [p, mac] data) s else dropFrame s
    | none => dropFrame s)

/-- R462, R466: an ETH message from an XCL port. -/
def execEthFrameFromXcl (p sclass mac : Nat) (vlan : Option Nat) (data : List Byte) (s : State) : Res :=
  let x := port s p
  .next (if x.mode != .xcl || x.st != .up then s
  else if 5 ≤ sclass || !frameLenOk data then dropFrame s
  else match x.part.bind fun n => ethRoute s n mac vlan with
    | some q => emit (.msg .ethFrame q [p, mac] data) s
    | none => dropFrame s)

/-! ### Queue pairs (R483 to R485) -/

def qpOf (s : State) (q : Nat) : Qp := s.edg.qps.get q
def modQp (q : Nat) (f : Qp → Qp) (s : State) : State := modEdge (fun e => { e with qps := e.qps.mod q f }) s

/-- The answers of R483. -/
inductive Nak where
  | psn | rnr | access | operational
deriving DecidableEq, Repr

def Nak.code : Nak → Nat
  | .psn => 0 | .rnr => 1 | .access => 2 | .operational => 3

def sendNak (q psn : Nat) (k : Nak) (s : State) : State :=
  let s := match k with
    | .access => modQp q (fun x => { x with accessErr := sat 16 x.accessErr }) s
    | .rnr => modQp q (fun x => { x with rnrNaks := sat 16 x.rnrNaks }) s
    | _ => s
  send .roceNak q [psn, k.code] s

/-- R483: a CE-marked packet is answered with a CNP, at most one per queue pair in 50 µs. -/
def markCe (q : Nat) (ce : Bool) (s : State) : State :=
  if ce && (match (qpOf s q).lastCnp with | some t => decide (t + 50000 ≤ s.ft) | none => true) then
    send .cnp q [] (modQp q (fun x => { x with lastCnp := some s.ft }) s)
  else s

/-- A packet arrives on a queue pair in RTS, in order; `n` is how many PSNs it stands for. One ahead is answered with a PSN
sequence error, one behind acknowledged again (`again`), one for a queue pair that is not in RTS dropped and counted. -/
def inOrder (q psn n : Nat) (ce : Bool) (again : State → State) (k : QpCfg → State → State) (s : State) : State :=
  match qpCfg s q with
  | none => modEdge (fun e => { e with qpDrops := e.qpDrops + 1 }) s
  | some c =>
    let x := qpOf s q
    if x.st != .rts || (port s c.port).st != .up then modEdge (fun e => { e with qpDrops := e.qpDrops + 1 }) s
    else
      let s := markCe q ce s
      if psn = x.expPsn then k c (modQp q (fun y => { y with expPsn := (psn + n) % 16777216 }) s)
      else if (x.expPsn + 16777216 - psn) % 16777216 < 8388608 then again s
      else sendNak q x.expPsn .psn s

/-- R485: an access that the queue pair does not allow. -/
def windowBad (s : State) (c : QpCfg) (off len rkey : Nat) : Bool :=
  !c.window || rkey != c.rkey || decide (c.limit < off + len) || scrubFenced s c.part

/-- R483, R485: what an access's outcome is answered with, where it is not done. -/
def nakOf (k : Cpl) : Option Nak :=
  match k.status with
  | .ok => none
  | .retry => some .rnr
  | .notPermitted | .badRequest | .faulted | .faultedUnrecorded => some .access
  | _ => some .operational

/-- R484: a request that met RNR is expected again under the same PSN. -/
def rollPsn (q psn : Nat) (k : Nak) (s : State) : State :=
  if k = .rnr then modQp q (fun x => { x with expPsn := psn }) s else s

def psnCount (c : Option QpCfg) (len : Nat) : Nat :=
  max 1 (ceilDiv len (if (c.map (·.pmtu4k)).getD false then 4096 else 1024))

/-- The read itself (R484, R485). -/
def windowRead (q psn off len rkey : Nat) (ext : List Byte) (c : QpCfg) (s : State) : State :=
  if windowBad s c off len rkey then sendNak q psn .access s
  else
    let (s, k) := engineReadAs 0 c.part c.asid (c.base + off) len ext s
    match nakOf k with
    | some e => sendNak q psn e (rollPsn q psn e s)
    | none => emit (.msg .roceData q [psn] k.data) s

/-- R484, R485. A repeated request is read again. -/
def execRoceRdmaReadRx (q psn off len rkey : Nat) (ce : Bool) (ext : List Byte) (s : State) : Res :=
  let again := fun (s : State) => match qpCfg s q with | some c => windowRead q psn off len rkey ext c s | none => s
  .next (inOrder q psn (psnCount (qpCfg s q) len) ce again (windowRead q psn off len rkey ext) s)

/-- R484, R485: a WRITE on a WINDOW queue pair; on a CHORD one it carries a record of R243, which has commands of its own. -/
def execRoceRdmaWriteRx (q psn off rkey : Nat) (data : List Byte) (ce : Bool) (s : State) : Res :=
  .next (inOrder q psn (psnCount (qpCfg s q) data.length) ce (send .roceAck q [psn]) (fun c s =>
    if !c.window then send .roceAck q [psn] s
    else if windowBad s c off data.length rkey then sendNak q psn .access s
    else
      let (s, k) := engineWriteAs 0 c.part c.asid (c.base + off) data false s
      match nakOf k with
      | some e => sendNak q psn e (rollPsn q psn e s)
      | none => send .roceAck q [psn] s) s)

/-- R464, R484: a SEND carries an ENG_CMD body into its block's queue for the partition; the outcome returns as a SEND. -/
def execRoceSendRx (q psn blk queue : Nat) (words : List Nat) (ce : Bool) (s : State) : Res :=
  .next (inOrder q psn (psnCount (qpCfg s q) (16 + 8 * words.length)) ce (send .roceAck q [psn]) (fun c s =>
    if !c.window then sendNak q psn .operational s
    else
      let s := send .roceAck q [psn] s
      match cmdBlock blk with
      | none => reply (.roce q psn) cBad s
      | some b =>
        match submitTo b queue { part := c.part, asid := c.asid, words := words, req := .roce q psn } s with
        | (s, some k) => reply (.roce q psn) k s
        | (s, none) => s) s)

/-- R483: everything from the oldest unacknowledged packet is sent again; after 7 retries the queue pair is in ERROR. -/
def retransmit (q : Nat) (rnr : Bool) (s : State) : State :=
  let x := qpOf s q
  let done := if rnr then decide (7 ≤ x.rnrTries) else decide (7 ≤ x.tries)
  if x.unacked.isEmpty then s
  else if done then modQp q (fun y => { y with st := .error, unacked := [] }) s
  else
    send .roceRetransmit q x.unacked (modQp q (fun y => { y with
      retries := sat 16 y.retries, lastAck := s.ft, tries := if rnr then y.tries else y.tries + 1,
      rnrTries := if rnr then y.rnrTries + 1 else y.rnrTries }) s)

/-- R483: an acknowledgement up to `psn`, or a NAK of `psn`: 0 PSN sequence error, 1 RNR, 2 remote access error, 3 remote
operational error. -/
def execRoceAckRx (q psn : Nat) (nak : Option Nat) (s : State) : Res :=
  let x := qpOf s q
  .next (if x.st != .rts then modEdge (fun e => { e with qpDrops := e.qpDrops + 1 }) s
  else match nak with
    | none =>
      if x.unacked.contains psn then
        modQp q (fun y => { y with unacked := (y.unacked.dropWhile (· != psn)).drop 1, lastAck := s.ft, tries := 0, rnrTries := 0 }) s
      else s
    | some k =>
      -- a NAK of a PSN acknowledges every packet before it
      let s := modQp q (fun y => { y with unacked := if y.unacked.contains psn then y.unacked.dropWhile (· != psn) else y.unacked }) s
      if k = 0 then retransmit q false s
      else if k = 1 then retransmit q true (modQp q (fun y => { y with rnrNaks := sat 16 y.rnrNaks }) s)
      else modQp q (fun y => { y with st := .error, unacked := [] }) s)

/-- R483: 4.096 µs × 2^ACK_TMO without an acknowledgement. -/
def execRoceAckTimeout (q : Nat) (s : State) : Res :=
  let x := qpOf s q
  .next (match qpCfg s q with
  | some c => if x.st = .rts && !x.unacked.isEmpty && decide (x.lastAck + 4096 * 2 ^ c.ackTmo ≤ s.ft) then retransmit q false s else s
  | none => s)

/-- R483: a CNP halves the send rate. -/
def execRoceCnpRx (q : Nat) (s : State) : Res :=
  .next (if (qpOf s q).st = .rts then
    modQp q (fun x => { x with rate := x.rate / 2, rateAt := if x.rate = 1000000 then s.ft else x.rateAt }) s else s)

/-- R483: 5 % of the port's rate every 55 µs. -/
def execRoceRateIncrease (q : Nat) (s : State) : Res :=
  let x := qpOf s q
  .next (if x.rate < 1000000 && decide (x.rateAt + 55000 ≤ s.ft) then
    modQp q (fun y => { y with rate := min 1000000 (y.rate + 50000), rateAt := s.ft }) s else s)

/-- R499, R519: a scrub resets the partition's queue pairs. -/
def qpScrub (n : Nat) (s : State) : State :=
  (s.cmp.active.qps.filter (·.part == n)).foldl (fun s c => modEdge (fun e => { e with qps := e.qps.set c.qp {} }) s) s

/-! ### The engine-command message (R462, R464) -/

/-- R462, R464: ENG_CMD delivers a command to its block's queue; `words` are the descriptor or header and any inline payload. -/
def execEngCmd (who : Requester) (sclass asid blk queue : Nat) (words : List Nat) (s : State) : Res :=
  match who with
  | .port p _ _ =>
    .next (if (port s p).mode != .xcl then s
    else if 5 ≤ sclass then reply who cBad s
    else match (port s p).part, cmdBlock blk with
      | some n, some b =>
        match submitTo b queue { part := n, asid := asid, words := words, req := who } s with
        | (s, some k) => reply who k s
        | (s, none) => s
      | _, _ => reply who cBad s)
  | _ => .next (reply who cBad s)

end Sys2Proof.Machine
end

