-- ==== Sys2Proof/Machine/Scrub.lean ====
section
/-!
DEFINITION. What a scrub clears of a partition (R519), block by block, and its bound (R520).
-/
namespace Sys2Proof.Machine

/-! ### Objects as the active image gives them (R68) -/

def modeOfCode : Nat → ObjMode
  | 1 => .counter | 2 => .barrier | 3 => .semaphore | _ => .unused

/-- R518: the partition an object belongs to. -/
def objPart (i : Image) (o : Nat) : Option Nat :=
  (i.parts.find? fun r => r.objs.any fun x => decide (x.1 ≤ o) && decide (o < x.1 + x.2)).map (·.part)

/-- R68: an object as the image gives it. -/
def objInit (n : Nat) (c : ObjCfg) : SyncObj := { part := n, mode := modeOfCode c.mode, target := c.target, value := c.init }

/-- The objects of an image, of the partitions that satisfy `p`. -/
def imageObjs (i : Image) (p : Nat → Bool) : List (Nat × SyncObj) :=
  i.objs.filterMap fun c => match objPart i c.obj with | some n => if p n then some (c.obj, objInit n c) else none | none => none

/-- R48: the snapshot held before a domain's first step boundary. -/
def firstSnap (n : Nat) (s : State) : Snapshot := { step := 0, objs := snapObjs n s, before := none }

/-! ### The items of R519 -/

/-- Sequencers: IDLE, their buffers zero, no start queued; the block queues: no command of the partition. -/
def scrubSeqs (n : Nat) (s : State) : State :=
  let s := abandonSeqs (fun _ q => q.owned && q.part == n) s
  let s := (s.mer.seqs.idxs fun _ q => q.owned && q.part == n).foldl (fun s m => modSeq m clearSeq s) s
  { s with eng := { s.eng with
      queues := s.eng.queues.mapAll fun _ l => l.filter (·.part != n), issued := s.eng.issued.mapAll fun _ l => l.filter (·.part != n) } }

/-- Objects: the values and modes of the active image, no waiters. The Angle domain: IDLE, no source, COMMIT_STEP 0. -/
def scrubDomain (n : Nat) (s : State) : State :=
  let s := endWaiters n none s
  let s := { s with mer := { s.mer with objs := s.mer.objs.filter fun e => e.2.part != n } }
  let s := (imageObjs s.cmp.active (· == n)).foldl (fun s o => setObj o.1 o.2 s) s
  setDom n { stallNs := (dom s n).stallNs, snap := firstSnap n s } s

/-- R196: COH_DOWN goes to the partition's coherent ports, entries of its pool range are freed without writing, and those in
its ways that record other partitions' holders are back-invalidated. -/
def scrubVertex (n : Nat) (s : State) : State :=
  let mine := fun (a : Nat) => match localPort s a with | some p => (port s p).part == some n | none => false
  let far := fun (l : Nat) => !inPool s n (l * 128 / pageBytes)
  let s := ((cohPorts s).filter fun p => (port s p).part == some n).foldl (fun s p => send .cohDown p [5] s) s
  let s := modVtx (fun v => { v with
    txns := v.txns.filter (fun t => t.req.part != n && far t.line), queue := v.queue.filter (·.part != n), held := v.held.filter (·.part != n),
    wins := v.wins.filter (·.part != n), jobs := v.jobs.filter (·.cmd.part != n), granted := v.granted.filter (fun g => !mine g.1 && far g.2.1),
    recalled := v.recalled.filter fun r => far r.1, stats := v.stats.del n }) s
  let drop := fun (i : Nat) (s : State) => modVtx (fun v => { v with dir := v.dir.set i {} }) s
  s.vtx.dir.foldl (fun s (i, e) =>
    if !far e.line then drop i s
    else if bitOf (partRec s n).vtxWayMask (i % 16) then
      drop i (((holders s e).filter fun a => !mine a).foldl (fun s a => sendSnoop a e.line .inv 0 n s) s)
    else if e.coarse then s
    else
      let ps := e.ptrs.filter fun a => !mine a
      if ps.isEmpty then drop i s else modVtx (fun v => { v with dir := v.dir.set i { e with ptrs := ps } }) s) s

/-- Packet buffer cells: freed; the partition's packets, held ones among them, are discarded. -/
def scrubPackets (n : Nat) (s : State) : State :=
  let mine := s.arc.packets.filter fun k => k.part == n
  let s := modArc (fun a => { a with packets := a.packets.filter (fun k => k.part != n), held := a.held.filter fun h => (classify s h.pkt).1 != n }) s
  mine.foldl (fun s k => giveCells k.rsv k.part (cellsOf k.len) s) s

/-- The partition's counters in every block. -/
def scrubCounters (n : Nat) (s : State) : State :=
  let s := modEnergy (fun e => { e with parts := e.parts.del n }) s
  { s with
    pln := { s.pln with pf := s.pln.pf.del n }, fld := { s.fld with parts := s.fld.parts.del n },
    cone := { s.cone with stats := s.cone.stats.del n }, orb := { s.orb with stats := s.orb.stats.del n },
    apx := { s.apx with stats := s.apx.stats.del n }, cen := { s.cen with stats := s.cen.stats.del n },
    arc := { s.arc with parts := s.arc.parts.del n } }

/-- R519 steps 2 and 3: the partition's work is discarded without completion and its items are cleared. -/
def scrubClear (n : Nat) (s : State) : State :=
  let s := scrubSeqs n s
  let s := orbScrub n (apexScrub n (cenScrub n (coneScrub n (chordScrub n s))))
  let s := scrubVertex n s
  let s := locusScrub n (planeScrub n s)
  let s := scrubPackets n s
  let s := qpScrub n (arcScrub n s)
  scrubCounters n (scrubDomain n s)

/-- R520: the bound, in ns. The partition's DDR5 frames are taken to be spread over the channels in use (DESIGN CHOICE,
entry 52). -/
def scrubBound (s : State) (n : Nat) (ddr : Bool) : Nat :=
  let r := partRec s n
  let p := r.prismFrames * pageBytes + (orbPart s n).count * 128
  let chans := (s.pln.chans.idxs fun _ c => c.st != .absent).length
  40000 + ceilDiv p 12000 + (if ddr then ceilDiv (ceilDiv r.ddrFrames (max 1 chans) * 996000) 512 else 0)

end Sys2Proof.Machine
end

