-- ==== Sys2Proof/Machine/Perimeter.lean ====
section
/-!
DEFINITION. Perimeter (R500 to R538): the pool root, commits to the epoch store, scrubs, zeroise, attestation and debug unlock.
-/
namespace Sys2Proof.Machine

/-! ### The pool (R503) -/

/-- R503, R516: a switch that holds no pool can found one; a faulted device record prevents it. -/
def canFound (s : State) : Bool :=
  s.cmp.boot == .init && s.per.pool == .none && !s.per.founding && !s.per.storeAbsent && !s.per.faulted.contains 0

/-- R503 steps 1 and 2: POOL_GEN, one above the store's, is committed to the device record. -/
def foundPool (debug : Bool) (s : State) : State :=
  queueCommit { record := 0, value := recValue s 0 + 1, tag := 0, why := .poolGen } (modPer (fun p => { p with founding := true, poolDebug := debug }) s)

/-- R503: neither switch holds a pool, and this one has pair role A. -/
def execPoolFound (s : State) : Res :=
  .next (if canFound s && s.per.partnerPool = some false && !s.cmp.roleB then foundPool s.per.debug s else s)

/-- R503: no pair port has reached UP within 2 s of the start of training. -/
def execPoolFoundTimeout (s : State) : Res :=
  .next (if canFound s && s.per.trainFt.any (fun t => decide (t + 2000000000 ≤ s.ft)) && (pairUps s).isEmpty then foundPool s.per.debug s else s)

/-- R503 steps 3 and 4: the pool is founded: every tenancy and group generation 0, every page ZERO. -/
def poolFounded (gen : Nat) (s : State) : State :=
  let s := modPer (fun p => { p with
    pool := .founded, poolGen := gen, founding := false, parts := p.parts.mapAll (fun _ x => { x with tenancy := 0 }), ggen := [] }) s
  let s := releaseAll { s with pair := { s.pair with joinStep := 0 } }
  sendStatement { s with pln := { s.pln with pages := [], copies := [], migs := [] }, fld := { s.fld with blocks := [] }, mem := [] }

/-! ### Commits (R511, R515) -/

/-- What a commit that is complete lets happen. -/
def commitOk (c : Commit) (s : State) : State :=
  let s := modPer (fun p => { p with commitN := sat 16 p.commitN }) s
  match c.why with
  | .poolGen => poolFounded c.value s
  | .agree p =>
    match agreeOf s p with
    | some a => agreeCheck p (send .linkRekeyAck p [c.value] (setAgree { a with sent := true } s))
    | none => s

/-- R515: the commit is not complete: its agreement ends, and a port in bring-up returns to step 1. -/
def commitFail (c : Commit) (s : State) : State :=
  let s := report .perEpochFault .perimeter none [c.record] s
  match c.why with
  | .poolGen => modPer (fun p => { p with founding := false }) s
  | .agree p =>
    match agreeOf s p with
    | some a => if a.rekey then endAgree p s else toStep1 p s
    | none => s

/-- R515: the write and read back of the commit at the head of the queue end; `ok` and `okAgain` tell whether the first and
the second read back match. -/
def execEpochCommitDone (ok okAgain : Bool) (s : State) : Res :=
  .next (match s.per.commits with
  | [] => s
  | c :: rest =>
    let done := ok || okAgain
    let s := writeCommit c done (modPer (fun p => { p with commits := rest }) s)
    nextCommit (if done then commitOk c s else commitFail c s))

/-- R517: EPOCH_CLEAR. -/
def execEpochClear (who : Requester) (r : Nat) (s : State) : Res :=
  mgmtGate who .admin false (fun s =>
    let keys := s.cmp.active.partnerKey :: s.cmp.active.ports.filterMap (·.peer)
    let x := epRec s r
    let tags := (if x.s0.zero then [] else [x.s0.tag]) ++ (if x.s1.zero then [] else [x.s1.tag])
    .next (if r = 0 || 512 ≤ r then reply who cBad s
    else if tags.any keys.contains then reply who cNP s
    else reply who cOk (modPer (fun p => { p with store := p.store.del r, faulted := p.faulted.filter (· != r) }) s))) s

/-! ### Scrubs (R519 to R521, R538) -/

def modPPart (n : Nat) (f : PerPart → PerPart) (s : State) : State := modPer (fun p => { p with parts := p.parts.mod n f }) s

/-- R519 steps 4 and 5: T_n advances and the fence is lifted. -/
def liftScrub (n : Nat) (s : State) : State :=
  let s := modPPart n (fun x => { x with tenancy := (x.tenancy + 1) % 2 ^ 32, scrubs := sat 16 x.scrubs, scrubFt := s.ft }) s
  modPer (fun p => { p with scrubbing := p.scrubbing.filter (· != n), tPending := p.tPending.filter (· != n) }) s

/-- R534, R562: how the scrub ended. -/
def scrubOver (x : Scrub) (s : State) : State :=
  let us := (s.ft - x.since) / 1000
  report .perScrub .perimeter (some x.part) [0, us] (modPer (fun p => { p with scrub := none, lastPart := x.part, lastStatus := 0, lastUs := us }) s)

/-- R504, R538: the partner has done its part and acknowledged T_n. -/
def scrubAcked (n : Nat) (s : State) : State :=
  match s.per.scrub with
  | some x =>
    if x.part = n then modPer (fun p => { p with scrub := some { x with acked := true } }) s
    else if s.per.tPending.contains n then liftScrub n s else s
  | none => if s.per.tPending.contains n then liftScrub n s else s

/-- R521: each block that holds state of the partition is fenced and reset. -/
def fenceAll (s : State) : State := resettable.foldl (fun s b => startFence b s) s

/-- R519 steps 1 to 3: the partition is fenced, its work discarded and its items cleared. -/
def beginScrub (n : Nat) (ddr force acked : Bool) (s : State) : State :=
  let s := modPer (fun p => { p with
    scrubbing := if p.scrubbing.contains n then p.scrubbing else n :: p.scrubbing, lastPart := n,
    scrub := some { part := n, ddr := ddr, force := force, since := s.ft, bound := scrubBound s n ddr, acked := acked, escalated := force } }) s
  scrubClear n (if force then fenceAll s else s)

/-- R519, R533: a scrub of a partition. A pair runs it on both switches. -/
def execScrub (who : Requester) (n : Nat) (ddr force : Bool) (s : State) : Res :=
  mgmtGate who .admin false (fun s =>
    let n := n % 16
    .next (if s.per.scrub.isSome || s.per.tPending.contains n then reply who (cRef .state) s
    else mirrorThen (.scrub n ddr force) (.scrub n) (scrubAcked n) (reply who cOk (beginScrub n ddr force false s)))) s

/-- R519 step 5, R521, R538: the clearing is done. A forced scrub completes while the pair link is down, with its fence and
T_n still to come. -/
def execScrubComplete (s : State) : Res :=
  .next (match s.per.scrub with
  | none => s
  | some x =>
    if x.acked then scrubOver x (liftScrub x.part s)
    else if x.force && linkDown s then scrubOver x (modPer (fun p => { p with tPending := x.part :: p.tPending }) s)
    else s)

/-- R521: a scrub not complete within twice its time. -/
def execScrubEscalate (s : State) : Res :=
  .next (match s.per.scrub with
  | none => s
  | some x =>
    if !x.escalated && decide (x.since + 2 * x.bound ≤ s.ft) then
      fenceAll (modPer (fun p => { p with scrub := some { x with escalated := true } }) s)
    else s)

/-! ### Zeroise (R522) -/

/-- R522: links down, keys erased, Prism and SRAM cleared; the switch is out of service until PORST_N. -/
def zeroise (s : State) : State :=
  let s := (s.edg.ports.map (·.1)).foldl (fun s p => portDown p s) s
  let s := dropPool (holdBlocks .halted s)
  modPer (fun p => { p with erased := true, scrub := none, scrubbing := [], tPending := [], challenge := none }) s

def execZeroise (who : Requester) (s : State) : Res := mgmtGate who .admin false (fun s => .next (reply who cOk (zeroise s))) s

/-! ### Attestation (R523 to R525) -/

/-- R524: the digest of an index, 48 bytes, big-endian. -/
def digest48 (v : Nat) : List Byte := (toLE 48 v).reverse
def measure (s : State) (i : Nat) : List Byte :=
  if i = 4 then (if s.cmp.shadowSt = .none then List.replicate 48 0 else digest48 (Config.measurement 4 s.cmp.shadow))
  else digest48 (Config.measurement i s.cmp.active)

/-- R525: bytes 0 to 415 of a partition report. -/
def reportBytes (s : State) (n : Nat) (nonce : List Byte) : List Byte :=
  let x := s.per.parts.get n
  [0x55, 0x56, 0x41, 0x52] ++ toLE 2 1 ++ toLE 2 0 ++ toLE 8 s.per.identity ++ nonce ++ toLE 8 s.ft ++ toLE 1 n ++
  toLE 1 (pack [(1, b2n s.per.debug), (1, b2n s.cmp.roleB), (1, b2n (s.per.pool == .founded))]) ++ toLE 2 0 ++ toLE 4 x.tenancy ++
  toLE 8 s.per.poolGen ++ toLE 8 x.scrubFt ++ measure s 2 ++ measure s 3 ++ measure s (0x10 + n) ++ toLE 4 s.cmp.rollback ++
  List.replicate 188 0

/-- A signature's 96 bytes are free. -/
def signature (s : State) : List Byte := (List.range 96).map fun i => Config.freeByte s.fresh i

/-- R525: a write of PER_ATTEST_DB; `busy` are the reports in progress. -/
def execAttestReport (who : Requester) (asid addr busy : Nat) (s : State) : Res :=
  match who with
  | .port p node _ =>
    let x := port s p
    let n := x.part.getD 16
    let q : XlReq := { part := n, endpoint := node, asid := asid, va := addr, len := 512, num := node }
    let np := fun (w : Bool) => segStage s { q with write := w } == .notPermitted
    .next (if x.mode != .xcl || !x.priv || 16 ≤ n || addr % 128 != 0 || np false || np true then reply who cNP s
    else if scrubFenced s n then reply who (cRetry 50000) s
    else if 4 ≤ busy then reply who (cRef .queueFull) s
    else match readPieces q (piecesOf addr 512) [] s [] cOk with
    | (s, k) =>
      if k.status != .ok then reply who { k with data := [] } s
      else
        let r := reportBytes s n ((k.data.drop 16).take 32) ++ signature s
        let (s, k) := writePieces { q with write := true } false (piecesOf addr 512) r (useFresh s) cOk
        reply who k s)
  | w => .next (reply w cNP s)

/-- R523, R555: an SPDM request of a session of port 5411; the first argument of the answer numbers the request by its place in
R523. One that fails completes NOT_PERMITTED (R527). -/
def spdm (who : Requester) (ok : Bool) (args : List Nat) (data : List Byte) (s : State) : Res :=
  match who with
  | .mgmt k _ _ =>
    .next (if !mgmtAnswers s || !sessionRoom k true s then s
    else
      let s := touchSession k true s
      if s.cmp.boot = .recovery || !ok then reply who cNP s
      else useFresh (emit (.msg .spdm k args data) s))
  | w => .next (reply w cNP s)

def execSpdmGetVersion (who : Requester) (s : State) : Res := spdm who true [1, 0x13] [] s
def execSpdmGetCapabilities (who : Requester) (s : State) : Res := spdm who true [2] [] s
def execSpdmNegotiateAlgorithms (who : Requester) (s : State) : Res := spdm who true [3] [] s
def execSpdmGetDigests (who : Requester) (s : State) : Res := spdm who true [4, 1] [] s
/-- R523: slot 0 only, holding the device chain; its bytes are the part's own. -/
def execSpdmGetCertificate (who : Requester) (slot off len : Nat) (s : State) : Res :=
  spdm who (slot == 0) [5, slot, off, len] ((List.range len).map fun i => Config.certificate (off + i)) s
def execSpdmChallenge (who : Requester) (slot : Nat) (nonce : List Byte) (s : State) : Res :=
  spdm who (slot == 0) [6, slot] (nonce ++ signature s) s
/-- R524: a measurement block by its index, or all of them with 0xFF; the signature is always of the identity key. Block 0x06 is
raw: DEBUG, debug scope, anti-rollback counter, POOL_GEN. -/
def execSpdmGetMeasurements (who : Requester) (index : Nat) (nonce : List Byte) (s : State) : Res :=
  let all := [1, 2, 3, 4, 5] ++ rangeFrom 0x10 16
  let known := index == 0 || index == 0xFF || index == 6 || all.contains index
  let blocks := if index = 0xFF then all.flatMap (measure s) else if all.contains index then measure s index else []
  let raw := if index = 6 || index = 0xFF then [b2n s.per.debug, s.per.scope, s.cmp.rollback, s.per.poolGen] else []
  spdm who known ([7, index] ++ raw) (blocks ++ nonce ++ signature s) s

/-! ### Debug unlock (R526) -/

/-- R526 step 1: a fresh 16 B challenge. -/
def execDebugChallenge (who : Requester) (s : State) : Res :=
  mgmtGate who .admin false (fun s =>
    let v := freeNat 64 s + 2 ^ 64 * freeNat 64 (useFresh s)
    let s := modPer (fun p => { p with challenge := some v }) (useFresh (useFresh s))
    .next (reply who (cData (toLE 16 v)) s)) s

/-- R526 steps 2 to 6. `keyOk` tells that the public key's SHA-384 is the debug key hash fused at manufacture, `sigOk` that the
token's signature verifies, `magicOk` that its MAGIC is right. -/
def execDebugUnlock (who : Requester) (keyOk sigOk magicOk : Bool) (scope identity challenge : Nat) (s : State) : Res :=
  mgmtGate who .admin false (fun s =>
    let ok := keyOk && sigOk && magicOk && decide (scope < 8) && identity == s.per.identity && s.per.challenge == some challenge
    let s := modPer (fun p => { p with challenge := none }) s
    .next (if !ok then reply who cNP s
    else if hasPartner s then reply who (cRef .state) s
    else
      let s := modPer (fun p => { p with scrub := none, tPending := [] }) s
      let s := (List.range 16).foldl (fun s n => scrubOver { part := n, force := true, since := s.ft } (liftScrub n (scrubClear n s))) (fenceAll s)
      let s := dropPool s
      let s := modPer (fun p => { p with debug := true, scope := scope }) s
      -- R516: a faulted device record prevents the founding
      reply who cOk (if s.per.storeAbsent || s.per.faulted.contains 0 then s else foundPool true s))) s

end Sys2Proof.Machine
end

