-- ==== Sys2Proof/Machine/Boot.lean ====
section
/-!
DEFINITION. Boot, reset and power (R541 to R543, R547, R560, R592, R604, R605, R628, R629, R633, R634): what each way of
starting leaves, INIT, and what the switch that starts to run does with its partner.
-/
namespace Sys2Proof.Machine

/-! ### PORST_N (R628, R629, R633, R634) -/

/-- R543, R634: what is left while PORST_N is asserted: fuses, NVM, the epoch store, and the levels the board drives. The log's
ring is gone, its numbers are not used again (R561). -/
def coldState (s : State) : State :=
  { pending := s.pending, out := s.out, fresh := s.fresh,
    pins := { s.pins with porstN := false, releaseHeld := false, loss := false, lsEn := [] },
    mer := { ref0Ok := s.mer.ref0Ok, ref1Ok := s.mer.ref1Ok },
    pair := { aliveIn := s.pair.aliveIn },
    per := { store := s.per.store, storeAbsent := s.per.storeAbsent, identity := s.per.identity },
    cmp := { nvmA := s.cmp.nvmA, nvmB := s.cmp.nvmB, rollback := s.cmp.rollback, ownerHash := s.cmp.ownerHash,
             jtagClosed := s.cmp.jtagClosed, nextSeq := s.cmp.nextSeq, flushed := s.cmp.nextSeq } }

/-- R634. -/
def execPorstNAssert (s : State) : Res := .next (coldState s)

/-- R633: the island loses power, which releases THERMTRIP_N. -/
def execIslandPowerLoss (s : State) : Res :=
  .next (modPins (fun p => { p with thermtrip := false, pgCmp := false }) (coldState s))

/-- R541: the boot ROM has read the fuses, and image A is read, or B alone. -/
def startLoading (onlyB : Bool) (s : State) : State :=
  modCmp (fun c => { c with boot := .loading, imageB := onlyB, onlyB := onlyB, aFail := 0, bFail := 0 }) s

/-- R628, R633: PORST_N is released with the PWR_GOOD inputs at the given levels; `temp` is the highest die and Prism temperature
in m°C. -/
def execPorstNRelease (pgCmp pgCore pgAux : Bool) (temp : Int) (s : State) : Res :=
  .next (if s.pins.porstN then s
  else
    let cool := decide (temp < ((s.cmp.tripC : Int) - 10) * 1000)
    let s := modPins (fun p => { p with pgCmp := pgCmp, pgCore := pgCore, pgAux := pgAux, thermtrip := p.thermtrip && !cool }) s
    if pgCmp && pgCore && pgAux then
      startLoading false (modPair (fun p => { p with aliveInDeb := p.aliveIn }) (modPins (fun p => { p with porstN := true }) s))
    else modPins (fun p => { p with releaseHeld := true }) s)

/-- R628: the inputs have all risen. -/
def execPwrGoodHoldRelease (s : State) : Res :=
  .next (if !s.pins.releaseHeld then s
  else
    startLoading false (modPair (fun p => { p with aliveInDeb := p.aliveIn })
      (modPins (fun p => { p with porstN := true, releaseHeld := false, pgCmp := true, pgCore := true, pgAux := true }) s)))

/-- R629: PWR_GOOD_CORE or PWR_GOOD_AUX deasserts. -/
def execPowerLoss (core aux : Bool) (s : State) : Res :=
  .next (if !s.pins.porstN || !(core || aux) then s
  else
    let pins := fun (p : Pins) => { p with pgCore := p.pgCore && !core, pgAux := p.pgAux && !aux, loss := true }
    modPins pins (holdBlocks .halted s))

/-- R560, R633: the trip comparator. With PORST_N low it only latches. -/
def execThermalTrip (sensor : Nat) (value : Int) (s : State) : Res :=
  .next (if 8192 ≤ sensor || !sensorExists sensor || decide (value < (s.cmp.tripC : Int) * 1000) then s
  else
    let s := modPins (fun p => { p with thermtrip := true }) s
    if !s.pins.porstN then s
    else
      let s := thermal (modCmp (fun c => { c with
        tripped := true, sensors := c.sensors.set sensor { value := satInt 32 value, ft := s.ft, valid := true } }) s)
      let s := setFaultBit 3 (report .cmpThermtrip .compass none [sensor, toTwos 32 value] s)
      holdBlocks .halted (flushLog s))

/-- R592: Compass's processor restarts on its own; everything that the model holds is left as it is. -/
def execCompassWatchdogExpire (s : State) : Res := .next s

/-! ### INIT (R541, R605 steps 2 and 3) -/

/-- R604. -/
def bist (hw : Hw) (s : State) : State :=
  modCmp (fun c => { c with hw := hw, bistDone := 0xFFFF, bistPass := 0xFFFF - hw.bistFail % 65536, bistRetired := hw.prismBad.length }) s

/-- R564: of the two copies of the retirement table, the one with the higher sequence number. -/
def retirements (s : State) : List Retired :=
  if s.cmp.nvmA.retSeq < s.cmp.nvmB.retSeq then s.cmp.nvmB.retired else s.cmp.nvmA.retired

/-- Plane as INIT leaves it: channels, trays and what the retirement table holds. A tray's head is up once its link is. -/
def initPlane (hw : Hw) (s : State) : State :=
  let rs := retirements s
  let tiers := [Tier.prism, .ddr, .tray]
  let chan := fun (c : Nat) => (c, ({ st := if rs.contains (.channel c) then .retired else .active } : Channel))
  let tray := fun (t : Nat × Nat) =>
    let st : ObjState := if rs.contains (.tray t.1) then .retired else .active
    let head : HeadState := if rs.contains (.head t.1) then .retired else .retraining
    (t.1, ({ st := st, head := head, frames := t.2 } : Tray))
  let frames := rs.filterMap fun r => match r with
    | .frame t n => some ({ tier := tiers.getD t .prism, n := n } : Frame)
    | _ => none
  let chans := ((hw.chans.filter fun c => decide (c < 12)).map chan).foldl (fun (t : Tab Channel) e => t.set e.1 e.2) []
  let trays := ((hw.trays.filter fun t => decide (t.1 < 32)).map tray).foldl (fun (t : Tab Tray) e => t.set e.1 e.2) []
  let s := { s with pln := { s.pln with chans := chans, trays := trays, retired := frames } }
  hw.prismBad.foldl (fun s n => retireFrame { tier := .prism, n := n } s) s

/-- R476, R477, R605 step 3: a port's lanes without those that are bad: a spare takes the place of one, else the port is narrower. -/
def bootLanes (eth gang : Bool) (bad : List Nat) : List Lane × Nat :=
  let ls := (freshLanes eth gang).zipIdx.map fun (y, i) => if bad.contains i then { y with rx := .retired, tx := .retired } else y
  let n := if gang then 8 else 4
  let lost := (List.range n).filter fun k => !(ls.any fun y => y.rx == .active && y.rxPos == k)
  let ok := (ls.zipIdx.filter fun y => y.1.rx != .retired && y.1.rx != .dark).map (·.2)
  if eth || lost.isEmpty then (ls, 0)
  else
    let place := fun (m : List Nat) (i : Nat) (y : Lane) =>
      if m.contains i then { y with rx := LaneSt.active, tx := .active, rxPos := m.idxOf i, txPos := m.idxOf i }
      else if y.rx = .retired then y else { y with rx := .spare, tx := .spare }
    if n ≤ ok.length then
      let spares := (ls.zipIdx.filter fun y => y.1.rx == .spare).map (·.2)
      let new := lost.zip spares
      let put := fun (i : Nat) (y : Lane) => match new.find? (fun e => e.2 == i) with
        | some e => { y with rx := LaneSt.active, tx := .active, rxPos := e.1, txPos := e.1 }
        | none => y
      (ls.zipIdx.map fun (y, i) => put i y, 0)
    else
      let w := if n / 2 ≤ ok.length then 1 else 2
      (ls.zipIdx.map fun (y, i) => place (ok.take (n / 2 ^ w)) i y, w)

/-- The ports of the image, and the eight pair ports. -/
def initPorts (hw : Hw) (s : State) : State :=
  let rs := retirements s
  let pairs := (List.range 8).map fun i => ({ port := 256 + i, mode := .pair } : PortCfg)
  let new := hw.badLanes.filter fun b => !rs.contains (.lane b.1 b.2)
  let init := fun (s : State) (c : PortCfg) =>
    let bad := (rs.filterMap fun r => match r with | .lane p l => if p = c.port then some l else none | _ => none) ++
      (new.filter fun b => b.1 == c.port).map (·.2)
    let (ls, w) := bootLanes (c.mode == .eth) c.gang.isSome bad
    setPort c.port { mode := c.mode, part := c.part, priv := c.priv, coherent := c.coherent, translating := c.translating,
                     gang := c.gang, peer := c.peer, since := s.ft, lanes := ls, txWidth := w, rxWidth := w } s
  let s := ((s.cmp.active.ports.filter fun c => decide (c.port < 256)) ++ pairs).foldl init s
  new.foldl (fun s b => laneRetired b.1 b.2 3 s) s

/-- The RW fields that are loaded from the image at boot and at each swap. -/
def loadRegs (s : State) : State :=
  let r := s.cmp.active.regCfg
  { s with arc := { s.arc with fairTol := r.fairTol, auditEn := r.auditEn, starve := r.starve },
           orb := { s.orb with deferNs := r.deferNs }, apx := { s.apx with tmo := r.sampleTmo } }

/-- R68, R77, R82: the objects, domains and sequencers of the active image. -/
def initMeridian (s : State) : State :=
  let i := s.cmp.active
  let s := (imageObjs i fun _ => true).foldl (fun s o => setObj o.1 o.2 s) s
  let s := i.parts.foldl (fun s r => r.seqs.foldl (fun s m => setSeq m { part := r.part, owned := true, bank := s.mer.bank } s) s) s
  i.parts.foldl (fun s r => setDom r.part { snap := firstSnap r.part s } s) s

/-- R418: the buckets of the policed flows are full. -/
def initFlows (s : State) : State :=
  s.cmp.active.flows.foldl (fun s f =>
    modFlow f.n (fun x => { x with tc := f.cbs * 1024 * 80, tp := f.pbs * 1024 * 80, last := s.ft, metered := true }) s) s

/-- R516: Perimeter reads every record of the epoch store. -/
def initStore (s : State) : State :=
  let torn := fun (x : Slot) => b2n (!x.valid && !x.zero)
  let bad := s.per.store.idxs fun _ r => (recWin r).isNone && !recFree r
  let s := modPer (fun p => { p with torn := min 0xFFFF (sumOf (p.store.map fun e => torn e.2.s0 + torn e.2.s1)), faulted := bad }) s
  bad.foldl (fun s r => report .perEpochCorrupt .perimeter none [r] s) s

/-- R484: the queue pairs of the image can send. -/
def initQps (s : State) : State :=
  s.cmp.active.qps.foldl (fun s q => modEdge (fun e => { e with qps := e.qps.set q.qp { st := .rts } }) s) s

/-- R541, R605: INIT, with the active set. A switch whose PAIR_ALIVE_IN is asserted is one that joins. -/
def startInit (hw : Hw) (s : State) : State :=
  let s := bist hw (holdBlocks .init s)
  let s := modCmp (fun c => { c with bootFt := s.ft, roleB := c.active.hdr.role == 1 }) s
  if hw.bistFail % 65536 != 0 then modCmp (fun c => { c with boot := .halted }) s
  else
    let s := modPins (fun p => { p with lsEn := p.lsPres }) s
    let s := initStore (initPlane hw s)
    let s := loadRegs (initFlows (initQps (initMeridian (initPorts hw s))))
    modPair (fun p => { p with joinStep := if p.aliveIn then 3 else 0 }) (modPer (fun p => { p with trainFt := some s.ft }) s)

/-- R565, R566: CAP_W at boot and the initial BASE. -/
def loadEnergy (s : State) : State :=
  let e := s.cmp.active.energy
  modEnergy (fun x => { x with base := e.base }) (setBudget e.capW s)

/-- R541, R547: the image in hand has been read. One that is refused is followed by image B, or by RECOVERY. INIT is not entered
while THERMTRIP_N is latched (R642). -/
def execImageLoadDone (hw : Hw) (s : State) : Res :=
  .next (if s.cmp.boot != .loading || s.pins.thermtrip then s
  else
    let d := if s.cmp.imageB then s.cmp.nvmB else s.cmp.nvmA
    let cause := nvmCause s d
    let s := modCmp (fun c => if c.imageB then { c with bFail := cause } else { c with aFail := cause }) s
    match d.image with
    | some i =>
      if cause = 0 then startInit hw (loadEnergy (modCmp (fun c => { c with active := i }) s))
      else if s.cmp.imageB then holdBlocks .recovery s
      else modCmp (fun c => { c with imageB := true }) s
    | none => if s.cmp.imageB then holdBlocks .recovery s else modCmp (fun c => { c with imageB := true }) s)

/-- R541: INIT is not complete within 30 s. A switch whose join was refused stays in INIT (R608). -/
def execInitTimeout (s : State) : Res :=
  .next (if s.cmp.boot = .init && !s.pair.joinRefused && decide (s.cmp.bootFt + 30000000000 ≤ s.ft) then holdBlocks .halted s else s)

/-- R543, R634. -/
def execWarmRstN (hw : Hw) (s : State) : Res :=
  let acts := s.pins.porstN && (s.cmp.boot == .init || s.cmp.boot == .running || s.cmp.boot == .halted)
  .next (if !acts || s.pins.thermtrip || s.pins.loss || s.per.erased then s
  else startInit hw (modCmp (fun c => { c with warmResets := sat 16 c.warmResets }) s))

/-! ### The partner of a switch that runs (R33, R503, R605) -/

/-- R33, R605 step 5: the mirror is sent whole. -/
def sendMirror (s : State) : State :=
  let s := s.pln.pages.foldl (fun s e => mirrorOnly (.page e.1 e.2) s) s
  let s := s.orb.sess.foldl (fun s e => mirrorOnly (.sess e.1 e.2 none) s) s
  s.mer.doms.foldl (fun s e => mirrorOnly (.snapshot e.1 e.2.angle e.2.snap) s) s

/-- The two switches hold the same pool and both run, neither by way of R605: they are a pair. -/
def tryPair (s : State) : State :=
  if running s && s.pair.st == .alone && s.pair.joinStep == 0 && s.pair.partnerRunning && s.pair.linkUp &&
      s.per.partnerPool == some true && s.per.partnerGen == s.per.poolGen then
    sendMirror (modPair (fun p => { p with st := .paired, admitted := 0xFFFF }) s)
  else s

/-- R541: INIT is complete once the switch holds a pool; one that joins has passed the join test (R605 step 4). -/
def canRun (s : State) : Bool :=
  s.cmp.boot == .init && s.per.pool != .none && !s.per.founding && !s.pair.joinRefused && (s.pair.joinStep == 0 || s.pair.st == .joining)

/-- R541, R593: the switch enters RUNNING. -/
def execInitComplete (s : State) : Res :=
  .next (if !canRun s then s
  else
    let s := modCmp (fun c => { c with boot := .running, runSince := s.ft }) s
    let s := modPair (fun p => { p with aliveOut := true }) s
    let s := report .cmpBoot .compass none [b2n s.cmp.imageB + 256 * s.cmp.active.hdr.svn] s
    let s := modMer (fun m => { m with ppsLast := s.ft / 1000000000 }) s
    let s := if s.mer.everLocked then skipFt s.ft s else s
    tryPair (sendStatement s))

/-! ### REBOOT (R540, R556) -/

/-- R556: the whole switch is reset and boots from NVM. Fabric time does not step (R55), and what counts since PORST_N stays. -/
def reboot (onlyB : Bool) (s : State) : State :=
  let c := coldState s
  startLoading onlyB { c with
    ft := s.ft, pins := { s.pins with lsEn := [] }, mer := { resetMer s.mer with bank := 0 },
    pair := { c.pair with aliveInDeb := s.pair.aliveInDeb, aliveChange := s.pair.aliveChange, takeovers := s.pair.takeovers },
    per := { c.per with debug := s.per.debug, scope := s.per.scope },
    cmp := { c.cmp with warmResets := s.cmp.warmResets, tripped := s.cmp.tripped } }

/-- R540, R556, R583. After a supply loss and a zeroise only PORST_N returns the switch (R522, R629). -/
def execReboot (who : Requester) (onlyB : Bool) (s : State) : Res :=
  mgmtGate who .admin true (fun s =>
    .next (if s.pins.loss || s.per.erased then reply who (cRef .state) s
    else
      let s := match s.per.scrub with
        | some x => if x.force then scrubOver x (liftScrub x.part s) else s
        | none => s
      reboot onlyB (reply who cOk s))) s

end Sys2Proof.Machine
end

