-- ==== Sys2Proof/Machine/Swap.lean ====
section
/-!
DEFINITION. Shadow sets and swaps (R549 to R552, R66, R75, R83, R344), updates and fuses (R548, R557, R558).
-/
namespace Sys2Proof.Machine

/-! ### Loading a shadow set (R549, R550) -/

/-- A sequencer still runs from the bank that a load or a swap would overwrite (R83). -/
def oldBankRuns (s : State) : Bool := s.mer.seqs.any fun e => e.2.run != .idle && e.2.bank != s.mer.bank

/-- R550: the last byte is loaded, and the image is verified. -/
def verifyShadow (i : Image) (s : State) : State :=
  let i := fillShadow s.cmp.active i
  let st : ShadowState := if shadowCause s i = 0 then .verified else .failed
  modCmp (fun c => { c with shadow := i, shadowSt := st, shadowAt := 0 }) s

/-- R549, R556: a chunk of a shadow image at an ascending offset; the first is at offset 0. `img` is the image whose last chunk
this is, where LAST is set. -/
def execShadowLoad (who : Requester) (off len : Nat) (last : Bool) (img : Image) (s : State) : Res :=
  mgmtGate who .admin false (fun s =>
    .next (if 65536 < len || 50331648 < off + len then reply who cBad s
    else if s.cmp.swap.isSome || oldBankRuns s then reply who (cRef .state) s
    else if (off != 0 && (s.cmp.shadowSt != .loading || decide (off < s.cmp.shadowAt))) then reply who cBad s
    else
      let s := modCmp (fun c => { c with shadowSt := .loading, shadowAt := off + len }) s
      reply who cOk (if last then verifyShadow img s else s))) s

/-- R549. -/
def execShadowFromNvm (who : Requester) (slotB : Bool) (s : State) : Res :=
  mgmtGate who .admin false (fun s =>
    let d := if slotB then s.cmp.nvmB else s.cmp.nvmA
    .next (if s.cmp.swap.isSome || oldBankRuns s then reply who (cRef .state) s
    else match d.image with
    | some i => reply who cOk (if d.answers then verifyShadow i s else modCmp (fun c => { c with shadowSt := .failed }) s)
    | none => reply who cOk (modCmp (fun c => { c with shadowSt := .failed }) s))) s

/-! ### The swap (R551, R552) -/

/-- R550, R551: only a VERIFIED set may be swapped, and one swap is pending at a time. It completes at its trigger. -/
def execSwap (who : Requester) (trig : SwapTrig) (s : State) : Res :=
  mgmtGate who .admin false (fun s =>
    let bad := match trig with | .step n _ => decide (16 ≤ n) | _ => false
    .next (if bad then reply who cBad s
    else if s.cmp.shadowSt != .verified || s.cmp.swap.isSome then reply who (cRef .state) s
    else modCmp (fun c => { c with swap := some { trig := trig, req := who }, swapSt := .pending }) s)) s

/-- R551: the pending swap is withdrawn. -/
def execSwapCancel (who : Requester) (s : State) : Res :=
  mgmtGate who .admin false (fun s =>
    .next (match s.cmp.swap with
    | some p => reply who cOk (reply p.req (cRef .state) (modCmp (fun c => { c with swap := none, swapSt := .none }) s))
    | none => reply who (cRef .state) s)) s

/-- R546, R518: the set in force after a swap: the swappable sections of `i`, the rest, composition included, of `a`. -/
def mergeImage (a i : Image) : Image :=
  let orb := fun (r : OrbPart) =>
    let q := (i.orbParts.find? (·.part == r.part)).getD {}
    { q with part := r.part, base := r.base, count := r.count, spans := r.spans }
  let apx := fun (r : ApxPart) =>
    let q := (i.apxParts.find? (·.part == r.part)).getD {}
    { q with part := r.part, base := r.base, count := r.count, slotQuota := r.slotQuota }
  let cen := fun (r : CenPart) =>
    let q := (i.cenParts.find? (·.part == r.part)).getD {}
    { q with part := r.part, base := r.base, count := r.count }
  let prt := fun (p : PortCfg) => { p with peer := (i.ports.find? (·.port == p.port)).bind (·.peer) }
  { i with
    hdr := { i.hdr with role := a.hdr.role }, parts := a.parts, groupRegs := a.groupRegs, nodes := a.nodes,
    partnerNodes := a.partnerNodes, ports := a.ports.map prt, partnerPorts := a.partnerPorts, linkCredits := a.linkCredits, qps := a.qps,
    chdPeers := a.chdPeers, ethMacs := a.ethMacs, ethFwd := a.ethFwd, orbParts := a.orbParts.map orb,
    apxParts := a.apxParts.map apx, cenParts := a.cenParts.map cen }

/-- R75: a waited-on object's mode or target changes. -/
def objConflict (s : State) (i : Image) : Bool :=
  s.mer.objs.any fun (o, x) => !x.waiters.isEmpty && (
    let c := (i.objs.find? (·.obj == o)).getD {}
    modeOfCode c.mode != x.mode || c.target != x.target)

/-- R344: a bound session's accelerator group changes. -/
def groupConflict (s : State) (i : Image) : Bool :=
  s.orb.sess.any fun (_, d) => d.group.any fun g =>
    i.orbGroups.find? (·.g == g) != s.cmp.active.orbGroups.find? (·.g == g)

/-- R552: the block whose check refuses the swap. -/
def swapConflict (s : State) (i : Image) : Option Block :=
  if objConflict s i || oldBankRuns s then some .meridian else if groupConflict s i then some .orbit else none

/-- R68, R75: objects take their modes and targets from the new set; VALUE and GENERATION stay. -/
def swapObjs (i : Image) (s : State) : State :=
  let upd := fun (o : Nat) (x : SyncObj) =>
    let c := (i.objs.find? (·.obj == o)).getD {}
    { x with mode := modeOfCode c.mode, target := c.target }
  let old := s.mer.objs.map (·.1)
  let s := modMer (fun m => { m with objs := m.objs.mapAll upd }) s
  ((imageObjs i fun _ => true).filter fun o => !old.contains o.1).foldl (fun s o => setObj o.1 o.2 s) s

/-- R66, R551: the new Angle schedule of a domain, from its Angle. -/
def swapSched (n : Nat) (s : State) : State :=
  let s := modDom n (fun d => { d with fireLow := d.angle, unfired := [] }) s
  let d := dom s n
  if d.st = .running || d.st = .stalled || d.st = .held then fireAngle n d.angle s else s

/-- R551: every swappable section takes effect, and the former active set is the shadow set. -/
def swapNow (s : State) : State :=
  let s := arcFill s
  let a := s.cmp.active
  let i := mergeImage a s.cmp.shadow
  let s := modCmp (fun c => { c with active := i, shadow := a, shadowSt := .verified, swap := none, swapSt := .done, swaps := sat 16 c.swaps }) s
  let s := swapObjs i (modMer (fun m => { m with bank := 1 - m.bank }) s)
  let s := modEdge (fun e => { e with ports := e.ports.mapAll fun p x =>
    { x with peer := (i.ports.find? (·.port == p)).bind (·.peer) } }) s
  let s := arcSwap (loadRegs s)
  let s := (s.mer.doms.map (·.1)).foldl (fun s n => swapSched n s) s
  let s := skipFt s.ft (modMer (fun m => { m with ftNext := [], devNext := [], devDue := [] }) s)
  report .cmpSwap .compass none [i.hdr.imageId] s

/-- R551: the trigger has come. -/
def swapDue (s : State) (p : SwapPend) : Bool :=
  match p.trig with
  | .now => true
  | .ft t => decide (t ≤ s.ft)
  | .step _ _ => p.hit

/-- R552. -/
def execSwapTrigger (s : State) : Res :=
  .next (match s.cmp.swap with
  | none => s
  | some p =>
    if !swapDue s p then s
    else match swapConflict s (mergeImage s.cmp.active s.cmp.shadow) with
    | some b =>
      reply p.req (cRef .state) (report .cmpSwapRefused .compass none [b.code] (modCmp (fun c => { c with swap := none, swapSt := .refused }) s))
    | none => reply p.req cOk (swapNow s))

/-! ### Updates (R557) -/

def slotOf (b : Bool) (s : State) : Nvm := if b then s.cmp.nvmB else s.cmp.nvmA
def modSlot (b : Bool) (f : Nvm → Nvm) (s : State) : State :=
  modCmp (fun c => if b then { c with nvmB := f c.nvmB } else { c with nvmA := f c.nvmA }) s

/-- R557 step 1: the erase begins; the command completes at its end. -/
def execUpdateBegin (who : Requester) (slotB : Bool) (len : Nat) (s : State) : Res :=
  mgmtGate who .admin true (fun s =>
    .next (if 50331648 < len then reply who cBad s
    else if s.cmp.update.isSome || (s.cmp.boot != .recovery && nvmCause s (slotOf (!slotB) s) != 0) then reply who (cRef .state) s
    else modCmp (fun c => { c with update := some { slotB := slotB, len := len, who := who } }) (modSlot slotB (fun d => { d with image := none }) s))) s

/-- R557. -/
def execUpdateEraseDone (s : State) : Res :=
  .next (match s.cmp.update with
  | some u => if u.erased then s else reply u.who cOk (modCmp (fun c => { c with update := some { u with erased := true } }) s)
  | none => s)

/-- R557 step 2. -/
def execUpdateData (who : Requester) (off len : Nat) (s : State) : Res :=
  mgmtGate who .admin true (fun s =>
    .next (if 65536 < len then reply who cBad s else match s.cmp.update with
    | some u =>
      if u.len < off + len then reply who cBad s
      else if !u.erased then reply who (cRef .state) s
      else reply who cOk (modCmp (fun c => { c with update := some { u with written := max u.written (off + len) } }) s)
    | none => reply who (cRef .state) s)) s

/-- R557 step 3: `img` is what the slot then holds. -/
def execUpdateCommit (who : Requester) (img : Image) (s : State) : Res :=
  mgmtGate who .admin true (fun s =>
    .next (match s.cmp.update with
    | some u =>
      if !u.erased then reply who (cRef .state) s
      else
        let cause := imageCause s (slotOf u.slotB s).answers img
        let s := modCmp (fun c => { c with update := none }) s
        if cause = 0 then
          reply who cOk (report .cmpUpdate .compass none [b2n u.slotB + 256 * img.hdr.svn] (modSlot u.slotB (fun d => { d with image := some img }) s))
        else reply who { cBad with value := cause } s
    | none => reply who (cRef .state) s)) s

/-! ### Fuses (R548, R558) -/

/-- A slot verifies with SVN at least `v`. -/
def slotSvn (s : State) (d : Nvm) (v : Nat) : Bool := nvmCause s d == 0 && d.image.any fun i => decide (v ≤ i.hdr.svn)

/-- R558. -/
def execRollbackAdvance (who : Requester) (v : Nat) (s : State) : Res :=
  mgmtGate who .admin false (fun s =>
    let ok := decide (s.cmp.rollback < v) && decide (v ≤ 128) && decide (v ≤ s.cmp.active.hdr.svn) &&
      slotSvn s s.cmp.nvmA v && slotSvn s s.cmp.nvmB v
    .next (if ok then reply who cOk (modCmp (fun c => { c with rollback := v }) s) else reply who (cRef .state) s)) s

/-- R548: the SHA-384 of the owner's key is fused once. -/
def execOwnerSet (who : Requester) (keyHash : Nat) (s : State) : Res :=
  mgmtGate who .admin false (fun s =>
    .next (if s.cmp.ownerHash.isSome then reply who (cRef .state) s
    else reply who cOk (modCmp (fun c => { c with ownerHash := some keyHash }) s))) s

end Sys2Proof.Machine
end

