-- ==== Sys2Proof/Machine/Manage.lean ====
section
/-!
DEFINITION. What management reads (R556, R559, R561, R564, R571), retirements cleared and made by it (R148, R475), sessions
that end (R553), and the lasers (R452, R625, R642).
-/
namespace Sys2Proof.Machine

/-! ### The log (R561, R563, R564) -/

/-- R561: the words of a log entry. -/
def logWords (e : LogEntry) : List Nat :=
  [pack [(16, e.code), (2, e.sev.code), (4, e.part.getD 0), (1, b2n e.part.isSome), (4, e.block), (1, b2n e.user), (4, 0), (32, e.seq)],
   e.ft % 2 ^ 64, e.angle % 2 ^ 48] ++ (List.range 5).map fun i => e.data.getD i 0 % 2 ^ 64

def logBytes (e : LogEntry) : List Byte := (logWords e).flatMap (toLE 8)

/-- The entries from `q` on, oldest first: those of a log area, and those of the ring that are not flushed. -/
def logFrom (s : State) (q : Nat) : List LogEntry :=
  let kept := if s.cmp.nvmA.answers then s.cmp.nvmA.log else if s.cmp.nvmB.answers then s.cmp.nvmB.log else []
  let ring := s.cmp.log.reverse
  ((kept.filter fun e => !ring.any fun r => r.seq == e.seq) ++ ring).filter fun e => decide (q ≤ e.seq)

/-- R556: as many entries as a body holds. -/
def execLogRead (who : Requester) (q : Nat) (s : State) : Res :=
  mgmtGate who .read true (fun s => .next (reply who (cData (((logFrom s q).take 1024).flatMap logBytes)) s)) s

/-- R564: LOG_FLUSH completes once every entry is programmed, on a device that answers. -/
def execLogFlush (who : Requester) (s : State) : Res :=
  mgmtGate who .admin false (fun s =>
    .next (if s.cmp.nvmA.answers || s.cmp.nvmB.answers then reply who cOk (flushLog s) else s)) s

/-! ### Sensors and energy (R559, R571, R577) -/

/-- R577: a sensor's value, age and validity. -/
def sensorWord (s : State) (k : Nat) : Nat :=
  let x := s.cmp.sensors.get k
  pack [(32, toTwos 32 x.value), (16, min 0xFFFF ((s.ft - x.ft) / 1000000)), (1, b2n (sensorExists k && sensorValid s k))]

/-- R556: up to 256 sensors, each as R577 shows it. -/
def execSensorRead (who : Requester) (ks : List Nat) (s : State) : Res :=
  mgmtGate who .read true (fun s =>
    .next (if 256 < ks.length then reply who cBad s else reply who (cData (ks.flatMap fun k => toLE 8 (sensorWord s k))) s)) s

/-- R571: an entry of 32 B. -/
def epochBytes (e : Epoch) : List Byte :=
  toLE 8 e.start ++ toLE 3 (pack [(12, e.capW), (5, e.f)]) ++ toLE 5 (toTwos 40 e.aOpen) ++ toLE 5 (toTwos 40 e.aClose) ++ toLE 5 e.m ++
  toLE 4 e.deficit ++ toLE 2 (min 0xFFFF e.heldOrRefused)

def execEnergyRead (who : Requester) (s : State) : Res :=
  mgmtGate who .read false (fun s => .next (reply who (cData (s.cmp.energy.hist.reverse.flatMap epochBytes)) s)) s

/-! ### Retirements (R148, R475) -/

/-- The frames of an object. -/
def objFrame (r : Retired) (f : Frame) : Bool :=
  match r with
  | .frame t n => f.tier.code == t && f.n == n
  | .channel c => onChan c f
  | .tray t => onTray t f
  | _ => false

/-- R148: the table is written without the object, and the object is used again. -/
def clearRetired (r : Retired) (s : State) : State :=
  let put := fun (d : Nvm) => if d.answers then { d with retired := d.retired.filter (· != r), retSeq := d.retSeq + 1 } else d
  let s := modCmp (fun c => { c with nvmA := put c.nvmA, nvmB := put c.nvmB }) s
  let s := { s with pln := { s.pln with errs := s.pln.errs.filter fun e => !objFrame r e.frame } }
  match r with
  | .frame t n => { s with pln := { s.pln with retired := s.pln.retired.filter fun f => !(f.tier.code == t && f.n == n) } }
  | .channel c => if (s.pln.chans.get c).st = .absent then s else setChan c { st := .active } s
  | .head t => modTray t (fun x => if x.head = .retired then { x with head := .retraining, downAt := [], downSince := none } else x) s
  | .tray t => modTray t (fun x => if x.st = .absent then x else { x with st := .active }) s
  | .lane p l =>
    let eth := (port s p).mode == .eth
    let st : LaneSt := if (rxAt (port s p) (laneOf (port s p) l).rxPos).isNone then .active else if eth then .dark else .spare
    if (laneOf (port s p) l).rx = .retired then modPort p (fun x => setLane l { laneOf x l with rx := st, lol := [], windows := 0, count := 0, serHigh := false } x) s
    else s

def execRetireClear (who : Requester) (r : Retired) (s : State) : Res :=
  mgmtGate who .admin false (fun s => .next (reply who cOk (clearRetired r s))) s

/-- R475, R476. -/
def execLaneRetire (who : Requester) (p l : Nat) (s : State) : Res :=
  mgmtGate who .admin false (fun s =>
    .next (if (port s p).lanes.length ≤ l then reply who cBad s else reply who cOk (retireLane p l 4 s))) s

/-! ### Sessions (R553) -/

def execMgmtSessionIdleClose (k : Nat) (s : State) : Res :=
  let x := s.cmp.sessions.get k
  .next (if x.isOpen && decide (x.last + 600000000000 ≤ s.ft) then modCmp (fun c => { c with sessions := c.sessions.del k }) s else s)

/-! ### Lasers (R452, R625, R642) -/

/-- The module's light goes, and every port that it feeds goes down. -/
def laserOff (m : Nat) (s : State) : State :=
  (portsOfModule m).foldl (fun s p => portDown p s) (send .lightOff m [] (modPins (fun x => { x with lsEn := x.lsEn.filter (· != m) }) s))

/-- R625: a write of EN. -/
def setLaser (m : Nat) (en : Bool) (s : State) : State :=
  if en then modPins (fun x => { x with lsEn := if x.lsEn.contains m then x.lsEn else m :: x.lsEn }) s
  else if s.pins.lsEn.contains m then laserOff m s else s

def execLaserEnable (who : Requester) (m : Nat) (en : Bool) (s : State) : Res :=
  mgmtGate who .admin false (fun s => .next (if 22 ≤ m then reply who cBad s else reply who cOk (setLaser m en s))) s

/-- R642: LS_PRES_N rises. -/
def execLaserModuleRemoved (m : Nat) (s : State) : Res :=
  let s := modPins (fun x => { x with lsPres := x.lsPres.filter (· != m) }) s
  .next (if s.pins.lsEn.contains m then laserOff m s else s)

end Sys2Proof.Machine
end

