-- ==== Sys2Proof/Machine/Pair.lean ====
section
/-!
DEFINITION. The pair (R31 to R35, R45, R56, R128, R133, R481, R503 to R505, R593 to R608): what the switches tell each other, joining,
liveness, the loss of a partner and taking over from it, and bringing one back.
-/
namespace Sys2Proof.Machine

/-! ### Acknowledged changes (R33, R34) -/

/-- What the partner's acknowledgement lets take effect. -/
def runAct (a : MirAct) (s : State) : State :=
  match a with
  | .none => s
  | .commit n step => commitSnap n step s
  | .mapEntry p e => applyEntry p e s
  | .hint p h => applyHint p h s
  | .switchover p => finishMigr p s
  | .orbit id => orbAcked id s
  | .ggen g => groupZeroDone g s
  | .scrub n => scrubAcked n s

/-- R33: the partner acknowledges a mirrored change. -/
def execMirrorAck (id : Nat) (s : State) : Res :=
  .next (match s.pair.waits.find? (·.1 == id) with
  | some (_, _, a) => runAct a (modPair (fun p => { p with waits := p.waits.filter (·.1 != id) }) s)
  | none => s)

/-! ### The partner lost (R597, R598, R615) -/

/-- R598: what becomes of an entry of a page homed on the lost switch; none where the page is POISON. -/
def convert (e : PageEnt) : Option PageEnt :=
  let e := if e.st = .migrating then { e with st := if e.origin.isSome then PgState.promoted else .resident, dst := none } else e
  match e.st with
  | .zero => some { e with dst := none }
  | .resident => if e.frame.tier = .tray then some e else none
  | .promoted => match e.origin with
    | some o => if !e.dirty && o.tier == .tray then some { e with st := .resident, frame := o, origin := none } else none
    | none => none
  | .migrating => none

/-- R598: a page whose data is lost takes a frame by its hint, and is POISON in full. -/
def lostPage (p : Nat) (s : State) : State :=
  let n := (pagePart s p).getD 16
  let h := (page s p).hint
  let ts := if h = .pinPrism then [.prism, .ddr, .tray] else hintTiers s n h
  let s := debit n (preCost s 9 0xF []) s
  match allocFirst n ts s with
  | some (f, s) => poisonPage p (setPage p { st := .resident, frame := f, hint := h } s)
  | none => poisonPage p s

/-- R597 step 4. -/
def convertPages (s : State) : State :=
  (s.pln.pages.idxs fun p _ => !homeLocal s p && (groupOf s p).isNone).foldl (fun s p =>
    match convert (page s p) with
    | some e => setPage p e s
    | none => lostPage p s) s

/-- R597 step 3: a domain's COMMIT_STEP and snapshot, and the nodes of the lost switch gone from it. -/
def takeDomain (n : Nat) (s : State) : State :=
  let d := dom s n
  let gone := fun (k : Nat) => nodeOnPartner s k
  let loses := d.sources.any fun e => gone e.1
  let s := match d.partnerSnap with
    | some x => if d.commit < x.step then setDom n { d with commit := x.step, snap := x, partnerSnap := none } s
                else setDom n { d with partnerSnap := none } s
    | none => s
  let s := modDom n (fun d => { d with sources := d.sources.filter fun e => !gone e.1 }) s
  if loses && (dom s n).st != .restarting then enterRestarting n s else s

/-- R597 step 1: the pair ports go down, and what waited for the partner does not wait any longer (R599). -/
def dropPartner (s : State) : State :=
  let waits := s.pair.waits
  let s := modPair (fun p => { p with waits := [], linkUp := false, partnerRunning := false }) s
  let s := waits.foldl (fun s w => runAct w.2.2 s) s
  (List.range 8).foldl (fun s i => portDown (256 + i) s) s

/-- R597: the survivor takes over. With no partition admitted the partner was only joining, and this switch stays SOLE
(R615). -/
def takeover (s : State) : State :=
  let alone := s.pair.joinStep == 0 && s.pair.admitted == 0
  let s := setFaultBit 2 (dropPartner s)
  let clear := fun (st : PairState) (p : Pair) =>
    { p with st := st, partnerRunning := false, takeoverFt := s.ft, handback := [], mismatch := false }
  let s := modPer (fun p => { p with partnerPool := none }) s
  if alone then modPair (clear .sole) s
  else
    let s := modPair (clear .takeover) s
    let s := domainDown 6 0 0 s
    let s := (s.mer.doms.map (·.1)).foldl (fun s n => takeDomain n s) s
    let s := restartDomains s
    let s := if s.mer.lock = .follower then modMer (fun m => { m with lock := .unlocked }) s else s
    orbTakeover (convertPages (orbForwardLost s))

/-- R594: the pair link is lost with PAIR_ALIVE_IN deasserted. -/
def declareIfLost (s : State) : State :=
  if running s && linkDown s && !s.pair.aliveInDeb then takeover s else s

/-! ### Liveness (R593 to R596) -/

/-- R594, R610: the level of PAIR_ALIVE_IN; its fall is debounced. -/
def execPairAliveInChange (level : Bool) (s : State) : Res :=
  .next (if !s.pins.porstN then modPair (fun p => { p with aliveIn := level }) s
  else modPair (fun p => { p with aliveIn := level, aliveChange := s.ft, aliveInDeb := level || p.aliveInDeb, mismatch := false }) s)

/-- R594. -/
def execAliveDebounceExpire (s : State) : Res :=
  .next (if !s.pair.aliveIn && s.pair.aliveInDeb && decide (s.pair.aliveChange + max 1 s.pair.debounceUs * 1000 ≤ s.ft) then
    declareIfLost (modPair (fun p => { p with aliveInDeb := false }) s)
  else s)

/-- R595: more than 1 ms of PAIR_ALIVE_IN deasserted with a working pair link, or asserted with a partner that says it does not
run. -/
def execAliveMismatch (s : State) : Res :=
  let low := !s.pair.aliveIn && s.pair.linkUp && !(pairUps s).isEmpty
  let high := s.pair.aliveIn && s.pair.linkUp && !s.pair.partnerRunning
  .next (if (low || high) && decide (s.pair.aliveChange + 1000000 < s.ft) && !s.pair.mismatch then
    setFaultBit 2 (modPair (fun p => { p with mismatch := true }) s)
  else s)

/-- R594, R610: a write of CMP_PAIR_CFG; with DECLARE, only while the pair link is lost. -/
def execDeclare (who : Requester) (v : Nat) (s : State) : Res :=
  mgmtGate who .admin false (fun s =>
    .next (if bitOf v 32 && !(running s && linkDown s) then reply who (cRef .state) s
    else
      let s := modPair (fun p => { p with yieldMs := bits v 15 0, debounceUs := bits v 31 16 }) s
      reply who cOk (if bitOf v 32 then takeover s else s))) s

/-- R596: role B yields. -/
def execYield (s : State) : Res :=
  .next (if running s && s.cmp.roleB && s.pair.st == .linkLost && s.pair.aliveInDeb && decide (s.pair.lostFt + max 1 s.pair.yieldMs * 1000000 ≤ s.ft) then
    modPair (fun p => { p with st := .yielded, aliveOut := false }) (dropPool (clearBlocks s))
  else s)

/-- R597 step 7. `contents` are blocks of the taken-over pages in trays that this switch's pool memory does not hold. -/
def putContents (l : List BlkIn) (s : State) : State :=
  l.foldl (fun s x =>
    let n := (pagePart s (x.b / 4096)).getD 16
    let s := putBlock n x.b ((x.bytes ++ List.replicate 512 0).take 512) (x.pmask % 16) x.compress s
    if x.bpoison then setBlk x.b { blk s x.b with bpoison := true } s else s) s

def execTakeoverComplete (contents : List BlkIn) (s : State) : Res :=
  .next (if s.pair.st = .takeover && s.vtx.st = .up && !(s.mer.doms.any fun e => e.2.st == .restarting) then
    putContents contents (modPair (fun p => { p with st := .sole, takeovers := sat 16 p.takeovers, admitted := 0, joinStep := 0 }) (releaseAll s))
  else s)

/-! ### The pair link (R35, R481) -/

/-- R481: every pair port is down, or none has delivered a verified group for PAIR_TMO. -/
def pairSilent (s : State) : Bool :=
  (pairUps s).all fun i => decide ((port s (256 + i)).lastGood + max 1 s.edg.pairTmo * 1000 ≤ s.ft)

def execPairLinkLost (s : State) : Res :=
  .next (if !s.pair.linkUp || !pairSilent s then s
  else
    let s := modPair (fun p => { p with linkUp := false, lostFt := s.ft, st := if p.st = .paired then .linkLost else p.st }) s
    if !running s then
      -- a switch in INIT meets its partner again at the next bring-up
      modPair (fun p => { p with st := .alone, partnerRunning := false }) (modPer (fun p => { p with partnerPool := none }) (setFaultBit 2 s))
    else if !hasPartner s then modPer (fun p => { p with partnerPool := none }) (setFaultBit 2 s)
    else declareIfLost (orbForwardLost (domainDown 6 0 0 (setFaultBit 2 s))))

/-- R45: of the snapshots that wait, only the most recent of each domain is sent. -/
def recentWaits : List (Nat × Mirror × MirAct) → List (Nat × Mirror × MirAct)
  | [] => []
  | w :: ws =>
    match w.2.1 with
    | .snapshot n _ _ => if ws.any (fun x => match x.2.1 with | .snapshot m _ _ => m == n | _ => false) then recentWaits ws else w :: recentWaits ws
    | _ => w :: recentWaits ws

/-- R45, R133, R481: the pair link is there again, and what waited for it is sent. -/
def execPairLinkRecover (s : State) : Res :=
  .next (if s.pair.linkUp || (pairUps s).isEmpty || !hasPartner s then s
  else
    let s := modPair (fun p => { p with linkUp := true, st := if p.st = .linkLost then .paired else p.st, waits := recentWaits p.waits }) s
    s.pair.waits.foldl (fun s w => emit (.mirror w.2.1) s) s)

/-! ### What the partner tells (R33, R56, R503 to R505) -/

/-- R56: of two switches, the leader is the one that has been running longer; within 1 s, or with neither running, role A. -/
def leads (s : State) : Bool :=
  if running s && s.pair.partnerRunning then
    let a := s.cmp.runSince
    let b := s.pair.partnerRunSince
    if a + 1000000000 ≤ b then true else if b + 1000000000 ≤ a then false else !s.cmp.roleB
  else if running s then true else if s.pair.partnerRunning then false else !s.cmp.roleB

/-- R56: a switch that does not run yet takes its time in one step; the limit of INIT counts on. -/
def leaderStep (t : Nat) (ever : Bool) (s : State) : State :=
  let spent := s.ft - s.cmp.bootFt
  let s := stepFt t s
  let s := modCmp (fun c => { c with bootFt := s.ft - spent }) s
  skipFt s.ft (modMer (fun m => { m with lock := .follower, everLocked := ever }) s)

/-- R56: a follower is disciplined to its leader, and takes its first-lock step with it. -/
def followTime (t : Nat) (ever step : Bool) (s : State) : State :=
  if leads s then s
  else if !running s then leaderStep t ever s
  else if step && !s.mer.everLocked then firstLock t (modMer (fun m => { m with lock := .follower }) s)
  else
    let arms := ever && !s.mer.everLocked
    let s := modMer (fun m => { m with lock := .follower, everLocked := ever, slewRem := (t : Int) - s.ft }) s
    if arms then fireFt (skipFt s.ft s) else s

/-- R505: this switch holds a pool and its partner runs with another. -/
def poolClash (s : State) : Bool :=
  s.per.pool != .none && s.per.partnerPool == some true && s.pair.partnerRunning && s.per.partnerGen != s.per.poolGen

/-- R505: the partner has been running longer. -/
def partnerOlder (s : State) : Bool := !leads s

/-- R583: both switches carry the same pair role and neither holds a pool. -/
def roleConflict (s : State) : Bool :=
  s.per.pool == .none && s.per.partnerPool == some false && s.pair.helloRole == some (if s.cmp.roleB then 2 else 1)

/-- R503, R505, R583, R605: what the partner says of itself. -/
def partnerStatement (run : Bool) (since : Nat) (pool founded : Bool) (gen : Nat) (s : State) : State :=
  let up := s.pair.linkUp || (!hasPartner s && !(pairUps s).isEmpty)
  let s := modPair (fun p => { p with partnerRunning := run, partnerRunSince := since, linkUp := up, mismatch := false }) s
  let s := modPer (fun p => { p with partnerPool := some pool, partnerFounded := founded, partnerGen := gen }) s
  if s.cmp.boot = .init && roleConflict s then holdBlocks .halted (report .cmpRoleConflict .compass none [] s)
  else if poolClash s && partnerOlder s then startInit s.cmp.hw (dropPool s)
  else if s.pair.st = .joining && s.pair.joinStep = 0 && run then sendMirror s
  else tryPair s

/-- R33: a page's entry as the partner holds it: the partner's own Prism and DDR5 are this switch's far ones. -/
def flipEnt (e : PageEnt) : PageEnt :=
  let flip := fun (f : Frame) => if f.tier = .tray then f else { f with far := !f.far }
  { e with frame := if e.st = .zero then e.frame else flip e.frame, origin := e.origin.map flip, dst := e.dst.map flip }

/-- R33: a page homed on the partner has a new entry; work here that waits for it goes on. -/
def partnerPage (p : Nat) (e : PageEnt) (s : State) : State :=
  let e := flipEnt e
  let s := if e.st = .zero then setPage p e (zeroPage p s) else setPage p e s
  if e.st = .migrating then s else settle p (inSought s p) s

/-- R44, R48, R605 step 5: the partner's snapshot of a domain. A joining switch whose partition is not admitted takes the
domain's position and objects from it. -/
def partnerSnapshot (n angle : Nat) (x : Snapshot) (s : State) : State :=
  let s := modDom n (fun d => { d with partnerSnap := some x }) s
  if 3 ≤ s.pair.joinStep && !bitOf s.pair.admitted n then
    restoreObjs n x (modDom n (fun d => { d with angle := angle, commit := x.step, snap := x }) s)
  else s

/-- R33: a MIRROR UPDATE is applied. -/
def applyMirror (m : Mirror) (s : State) : State :=
  match m with
  | .snapshot n a x => partnerSnapshot n a x s
  | .restarted n a x => partnerSnapshot n a x s
  | .page p e => partnerPage p e s
  | .sess num d done => orbUpdate num d done s
  | .time t ever step => followTime t ever step s
  | .partner run since pool founded gen => partnerStatement run since pool founded gen s
  | .ggen g v => groupZeroed g v s
  | .scrub n ddr force => beginScrub n ddr force true s

/-- R33, R597 step 1: an update is applied and acknowledged, unless the pair link is gone. `contents` are blocks of a page
that comes with it. -/
def execMirrorUpdate (seq : Nat) (m : Mirror) (contents : List BlkIn) (s : State) : Res :=
  let up := !(pairUps s).isEmpty && (s.cmp.boot == .init || running s)
  .next (if !up || s.pair.st = .takeover || s.pair.st = .yielded then s
  else send .mirrorAck 0 [seq] (putContents contents (applyMirror m s)))

/-! ### Joining (R504, R605, R608) -/

/-- R504, R608: the join test. -/
def joinTest (s : State) (firmware composition : Nat) (roleB : Bool) : Bool :=
  firmware == digestOf s.cmp.active 1 && composition == digestOf s.cmp.active 2 && roleB != s.cmp.roleB &&
    (!running s || s.pair.st == .sole || s.pair.st == .alone || (s.pair.st == .joining && !s.pair.partnerRunning))

/-- R504: the holder sends what the joiner needs. -/
def grantJoin (s : State) : State :=
  let args := [s.per.poolGen, b2n s.per.poolDebug, s.ft, b2n s.mer.everLocked, b2n (running s), s.cmp.runSince] ++
    s.per.parts.map (fun e => e.1 * 2 ^ 32 + e.2.tenancy) ++ s.per.ggen.map (fun e => e.1 * 2 ^ 32 + e.2)
  let s := send .poolRoot 0 args s
  if running s then modPair (fun p => { p with st := .joining, admitted := 0, joinStep := 0, handback := [] }) s else s

/-- R504, R605 step 4: the joiner has the pool. A partner that runs already is joined by way of R605. -/
def joined (gen : Nat) (debug : Bool) (tens ggens : List (Nat × Nat)) (t : Nat) (ever run : Bool) (since : Nat) (s : State) : State :=
  let parts := tens.foldl (fun (l : Tab PerPart) e => l.mod e.1 fun x => { x with tenancy := e.2 }) s.per.parts
  let gg := ggens.foldl (fun (l : Tab Nat) e => l.set e.1 e.2) []
  let s := modPer (fun p => { p with pool := .joined, poolGen := gen, poolDebug := debug, parts := parts, ggen := gg, founding := false }) s
  let s := modPair (fun p => { p with
    partnerRunning := run, partnerRunSince := since, linkUp := true, admitted := 0, st := if run then .joining else .alone,
    joinStep := if run then 4 else 0 }) s
  let s := if run then s else releaseAll s
  sendStatement (if leads s then sendTime false s else leaderStep t ever s)

def execPoolJoin (m : JoinMsg) (s : State) : Res :=
  .next (if (pairUps s).isEmpty then s
  else match m with
  | .asked fw comp roleB =>
    if s.per.pool = .none || !(s.cmp.boot == .init || running s) then s
    else if joinTest s fw comp roleB then grantJoin s else report .perJoinRefused .perimeter none [] s
  | .granted gen debug tens ggens t ever run since =>
    if s.cmp.boot = .init && !s.pair.joinRefused then joined gen debug tens ggens t ever run since s else s
  | .refused forRole =>
    if s.cmp.boot != .init then s
    else
      let s := report .perJoinRefused .perimeter none [] (modPair (fun p => { p with joinRefused := true }) s)
      if forRole then report .cmpRoleConflict .compass none [] s else s)

/-! ### Handback and admission (R606, R607) -/

/-- R128: the page's home by its number, were both switches admitted. -/
def homedAway (s : State) (p : Nat) : Bool := (bitOf p 0 != bitOf p 9) != s.cmp.roleB

/-- R129, R606: a free frame of the partition in the joining switch's half of a tray. -/
def partnerFrame (s : State) (n : Nat) : Option Frame :=
  let taken := takenNums s .tray
  let used := ((heldFrames s).filter fun (p, f) => f.tier == .tray && trayHalf f.n != s.cmp.roleB && pagePart s p == some n).length
  if (partRec s n).partnerTray ≤ used then none
  else (List.range 32).findSome? fun t =>
    if (s.pln.trays.get t).st = .active then
      let base := t * 1048576 + (1 - b2n s.cmp.roleB) * 524288
      (freeIn taken base 524288).map fun i => { tier := .tray, n := base + i }
    else none

/-- R606: the pages of partition `n` that are to move to the joining switch's halves of the trays. -/
def toHandBack (s : State) (n : Nat) : List Nat :=
  s.pln.pages.idxs fun p e => inPool s n p && homedAway s p && e.st != .zero &&
    (entFrames e).any fun f => f.tier != .tray || trayHalf f.n == s.cmp.roleB

/-- R606: one page is moved. -/
def handPage (n p : Nat) (s : State) : Option State :=
  (partnerFrame s n).map fun f =>
    let e := page s p
    let s := debitEvac p e.frame f s
    let s := { s with pln := { s.pln with migs := s.pln.migs.filter fun m => m.page != p } }
    changePage p { e with st := .resident, frame := f, origin := none, dst := none, dirty := false } s

/-- R606: the migrations of a partition's pages have finished. While one of them has no frame to go to, they have not. -/
def execHandbackComplete (n : Nat) (s : State) : Res :=
  let ok := running s && (s.pair.st == .joining || s.pair.st == .admitting) && s.pair.joinStep == 0 && s.pair.partnerRunning && s.pair.linkUp
  .next (if !ok || s.pair.handback.any (·.1 == n) then s
  else match (toHandBack s n).foldl (fun o p => o.bind fun s => handPage n p s) (some s) with
  | some s => modPair (fun p => { p with handback := p.handback.put n (angleStep (dom s n).angle + 1) }) s
  | none => s)

/-- R607 step 2: lines of the partition that the joining switch is to be home for are recalled; `written` is what their holders
write back. -/
def recallLines (n : Nat) (written : List (Nat × List Byte)) (s : State) : State :=
  let mine := fun (l : Nat) => pagePart s (l * 128 / pageBytes) == some n && homedAway s (l * 128 / pageBytes)
  let es := s.vtx.dir.filter fun e => e.2.used && mine e.2.line
  let s := es.foldl (fun s e => (holders s e.2).foldl (fun s a => sendSnoop a e.2.line .inv 0 n s) s) s
  let s := modVtx (fun v => { v with dir := v.dir.filter fun e => !(e.2.used && mine e.2.line) }) s
  (written.filter fun w => mine w.1).foldl (fun s w =>
    (foldWrite n { engine := true, num := 0 } false false (w.1 * 128) w.2 s).1) s

/-- R607: partition `n` is admitted, at the holder and at the joining switch. -/
def admitPart (n : Nat) (s : State) : State :=
  let s := releaseCredits n (modPair (fun p => { p with admitted := setBit p.admitted n, st := .admitting }) s)
  if s.cmp.active.parts.all fun r => bitOf s.pair.admitted r.part then
    modPair (fun p => { p with st := .paired, admitted := 0xFFFF, joinStep := 0, handback := [] }) (releaseAll s)
  else s

/-- R607: this switch can admit partition `n`, in ascending order. -/
def admitTurn (s : State) (n : Nat) : Bool :=
  running s && (s.pair.st == .joining || s.pair.st == .admitting) && s.pair.partnerRunning && s.pair.linkUp && decide (n < 16) &&
    !bitOf s.pair.admitted n && s.cmp.active.parts.all fun r => decide (n ≤ r.part) || bitOf s.pair.admitted r.part

/-- R607: a step boundary of the domain has come since the handback, or the domain is IDLE. -/
def admitBoundary (s : State) (n : Nat) : Bool :=
  match s.pair.handback.find? (·.1 == n) with
  | some (_, step) => (dom s n).st == .idle || decide (step ≤ angleStep (dom s n).angle)
  | none => false

/-- R607. -/
def execPartitionAdmit (n : Nat) (written : List (Nat × List Byte)) (s : State) : Res :=
  .next (if !admitTurn s n then s
  else if 3 ≤ s.pair.joinStep then admitPart n s
  else if admitBoundary s n then admitPart n (recallLines n written s) else s)

end Sys2Proof.Machine
end

