-- ==== Sys2Proof/Machine/Regs.lean ====
section
/-!
DEFINITION. The registers of the CSR space (R643 to R647): where each lies, who may read it, what it shows and what a read
clears. The layouts are those of the rules that name the registers.
-/
namespace Sys2Proof.Machine

/-- R643: the registers. An indexed one carries its instance. -/
inductive Reg where
  | cmpId | cmpBootStatus | cmpCfgStatus | cmpActiveId | cmpFuseStatus | cmpLogStatus | cmpLogSel | cmpLogData (w : Nat)
  | cmpSensorSel | cmpSensorData | cmpTempCfg | cmpEnergyCfg | cmpEnergyStatus | cmpEnergyDeficit | cmpEnergyBase
  | cmpEnergyPart (n : Nat) | cmpPairStatus | cmpPairCfg | cmpTakeoverFt | cmpFaultStatus | cmpWdtCfg | cmpBistStatus
  | cmpPwrStatus
  | perStatus | perPoolGen | perIdentityTag | perEpochStat | perScrubCtl | perScrubStatus | perPart (n : Nat)
  | perGroup (g : Nat) | perAttestDb
  | merFtNow | merFtStatus | merFtCfg | merDomAngle (n : Nat) | merDomCommit (n : Nat) | merDomStall (n : Nat)
  | merDomLag (n : Nat) | merDomCtl (n : Nat) | merDomCount (n : Nat) | merSchedMiss (n : Nat) | merSeqStatus (m : Nat)
  | merSyncIdx | merSyncValue | merSyncState | merSyncTarget
  | fctLane (p : Nat) | fctLaneErr (p : Nat) | fctLaser (m : Nat) | fctLaserCtl (m : Nat)
  | edgCfg | edgPairStatus | edgPortStatus (p : Nat) | edgPortErr (p : Nat) | edgPortSec (p : Nat) | edgTray (t : Nat)
  | edgQpSel | edgQpCfg | edgQpStat | edgQpTmo
  | latBufStatus | latPartBuf (n : Nat)
  | arcCfg | arcStarveCfg | arcStatus | arcFlowSel | arcFlowKey | arcFlowRate | arcFlowAudit | arcFlowStat
  | arcPartStat (n : Nat) | arcPartQuantum (n : Nat) | arcShapeSel | arcShapeCfg | arcEthCfg (p : Nat) | arcEthStat (p : Nat)
  | arcMonCtl | arcMonFrozen | arcMonSel | arcMonData
  | vtxStatus | vtxDownInfo | vtxDownFt | vtxCfg | vtxPortExcl (k : Nat) | vtxPartCfg (n : Nat) | vtxPartStat (n : Nat)
  | vtxDirIdx | vtxDirEntry
  | locSyncDb | locSyncStatus (n : Nat) | locFqStatus (n : Nat) | locFqHead (n : Nat) | locFqOvf (n : Nat)
  | locPartCfg (n : Nat) | locMirrorBase (n : Nat) | locFault (e w : Nat)
  | plnTierStatus | plnPrismStatus | plnPartUse (n : Nat) | plnPfStat (n : Nat) | plnDdrCh (c : Nat) | plnTray (t : Nat)
  | fldStatus | fldPartStat (n : Nat) | fldPartRatio (n : Nat)
  | chdStatus | chdCfg | chdEngStatus (e : Nat) | chdEngStat (e : Nat) | chdEngNum (e : Nat) | chdPeer (p : Nat)
  | coneStatus | coneEngStatus (e : Nat) | coneEngStat (e : Nat) | conePartStat (n : Nat) | coneGroupCfg (g : Nat)
  | coneGroupMask (g : Nat)
  | apxStatus | apxCfg | apxUnitStatus (u : Nat) | apxPartCfg (n : Nat) | apxPartPolicy (n : Nat) | apxPartStat (n : Nat)
  | apxPartExc (n : Nat) | apxPartUse (n : Nat)
  | orbStatus | orbCfg | orbPartCfg (n : Nat) | orbPartLog (n : Nat) | orbPartPolicy (n : Nat) | orbPartDrr (n : Nat)
  | orbPartUse (n : Nat) | orbPartUse2 (n : Nat) | orbPartStat (n : Nat) | orbPartRefuse (n : Nat) | orbGroup (g : Nat)
  | cenStatus | cenEngStatus (e : Nat) | cenPartCfg (n : Nat) | cenPartStat (n : Nat) | cenPartStat2 (n : Nat)
  | cenIdxSel | cenIdxState | cenIdxSeq
deriving DecidableEq, Repr

/-! ### Addresses (R643) -/

/-- A row of R643: the offset of instance 0, the stride, the number of instances, and the register. -/
abbrev RegRow := Nat × Nat × Nat × (Nat → Reg)

/-- A register without instances. -/
def one (off : Nat) (r : Reg) : RegRow := (off, 8, 1, fun _ => r)

def compassRows : List RegRow :=
  [one 0x0 .cmpId, one 0x8 .cmpBootStatus, one 0x10 .cmpCfgStatus, one 0x18 .cmpActiveId, one 0x20 .cmpFuseStatus,
   one 0x28 .cmpLogStatus, one 0x30 .cmpLogSel, (0x40, 8, 8, .cmpLogData), one 0x80 .cmpSensorSel, one 0x88 .cmpSensorData,
   one 0x90 .cmpTempCfg, one 0xA0 .cmpEnergyCfg, one 0xA8 .cmpEnergyStatus, one 0xB0 .cmpEnergyDeficit, one 0xB8 .cmpEnergyBase,
   (0x100, 8, 16, .cmpEnergyPart), one 0x200 .cmpPairStatus, one 0x208 .cmpPairCfg, one 0x210 .cmpTakeoverFt,
   one 0x218 .cmpFaultStatus, one 0x220 .cmpWdtCfg, one 0x228 .cmpBistStatus, one 0x230 .cmpPwrStatus]

def perimeterRows : List RegRow :=
  [one 0x0 .perStatus, one 0x8 .perPoolGen, one 0x10 .perIdentityTag, one 0x18 .perEpochStat, one 0x20 .perScrubCtl,
   one 0x28 .perScrubStatus, (0x100, 8, 16, .perPart), (0x200, 8, 16, .perGroup), one 0x400 .perAttestDb]

def meridianRows : List RegRow :=
  [one 0x0 .merFtNow, one 0x8 .merFtStatus, one 0x10 .merFtCfg, (0x1000, 0x40, 16, .merDomAngle), (0x1008, 0x40, 16, .merDomCommit),
   (0x1010, 0x40, 16, .merDomStall), (0x1018, 0x40, 16, .merDomLag), (0x1020, 0x40, 16, .merDomCtl),
   (0x1028, 0x40, 16, .merDomCount), (0x1030, 0x40, 16, .merSchedMiss), (0x2000, 8, 132, .merSeqStatus), one 0x3000 .merSyncIdx,
   one 0x3008 .merSyncValue, one 0x3010 .merSyncState, one 0x3018 .merSyncTarget]

def facetRows : List RegRow :=
  [(0x1000, 8, 264, .fctLane), (0x2000, 8, 264, .fctLaneErr), (0x3000, 8, 22, .fctLaser), (0x3100, 8, 22, .fctLaserCtl)]

def edgeRows : List RegRow :=
  [one 0x0 .edgCfg, one 0x8 .edgPairStatus, (0x1000, 8, 264, .edgPortStatus), (0x2000, 8, 264, .edgPortErr),
   (0x3000, 8, 264, .edgPortSec), (0x4000, 8, 32, .edgTray), one 0x5000 .edgQpSel, one 0x5008 .edgQpCfg, one 0x5010 .edgQpStat,
   one 0x5018 .edgQpTmo]

def latticeRows : List RegRow := [one 0x0 .latBufStatus, (0x100, 8, 16, .latPartBuf)]

def arcRows : List RegRow :=
  [one 0x0 .arcCfg, one 0x8 .arcStarveCfg, one 0x10 .arcStatus, one 0x100 .arcFlowSel, one 0x108 .arcFlowKey,
   one 0x110 .arcFlowRate, one 0x118 .arcFlowAudit, one 0x120 .arcFlowStat, (0x200, 8, 16, .arcPartStat),
   (0x280, 8, 16, .arcPartQuantum), one 0x300 .arcShapeSel, one 0x308 .arcShapeCfg, (0x1000, 8, 256, .arcEthCfg),
   (0x1800, 8, 256, .arcEthStat), one 0x2000 .arcMonCtl, one 0x2008 .arcMonFrozen, one 0x2010 .arcMonSel, one 0x2018 .arcMonData]

def vertexRows : List RegRow :=
  [one 0x0 .vtxStatus, one 0x8 .vtxDownInfo, one 0x10 .vtxDownFt, one 0x18 .vtxCfg, (0x40, 8, 4, .vtxPortExcl),
   (0x100, 8, 16, .vtxPartCfg), (0x200, 8, 16, .vtxPartStat), one 0x1000 .vtxDirIdx, one 0x1008 .vtxDirEntry]

def locusRows : List RegRow :=
  [one 0x0 .locSyncDb, (0x100, 8, 16, .locSyncStatus), (0x200, 8, 16, .locFqStatus), (0x280, 8, 16, .locFqHead),
   (0x300, 8, 16, .locFqOvf), (0x380, 8, 16, .locPartCfg), (0x400, 8, 16, .locMirrorBase),
   (0x40000, 8, 32768, fun i => .locFault (i / 8) (i % 8))]

def planeRows : List RegRow :=
  [one 0x0 .plnTierStatus, one 0x8 .plnPrismStatus, (0x100, 8, 16, .plnPartUse), (0x200, 8, 16, .plnPfStat),
   (0x1000, 8, 12, .plnDdrCh), (0x1100, 8, 32, .plnTray)]

def foldRows : List RegRow := [one 0x0 .fldStatus, (0x100, 8, 16, .fldPartStat), (0x200, 8, 16, .fldPartRatio)]

def chordRows : List RegRow :=
  [one 0x0 .chdStatus, one 0x8 .chdCfg, (0x100, 8, 32, .chdEngStatus), (0x200, 8, 32, .chdEngStat), (0x300, 8, 32, .chdEngNum),
   (0x1000, 8, 64, .chdPeer)]

def coneRows : List RegRow :=
  [one 0x0 .coneStatus, (0x100, 8, 64, .coneEngStatus), (0x400, 8, 64, .coneEngStat), (0x800, 8, 16, .conePartStat),
   (0x1000, 8, 32, .coneGroupCfg), (0x1100, 8, 32, .coneGroupMask)]

def apexRows : List RegRow :=
  [one 0x0 .apxStatus, one 0x8 .apxCfg, (0x100, 8, 4, .apxUnitStatus), (0x200, 8, 16, .apxPartCfg), (0x280, 8, 16, .apxPartPolicy),
   (0x300, 8, 16, .apxPartStat), (0x380, 8, 16, .apxPartExc), (0x400, 8, 16, .apxPartUse)]

def orbitRows : List RegRow :=
  [one 0x0 .orbStatus, one 0x8 .orbCfg, (0x100, 8, 16, .orbPartCfg), (0x180, 8, 16, .orbPartLog), (0x200, 8, 16, .orbPartPolicy),
   (0x280, 8, 16, .orbPartDrr), (0x300, 8, 16, .orbPartUse), (0x380, 8, 16, .orbPartUse2), (0x400, 8, 16, .orbPartStat),
   (0x480, 8, 16, .orbPartRefuse), (0x1000, 8, 256, .orbGroup)]

def centroidRows : List RegRow :=
  [one 0x0 .cenStatus, (0x100, 8, 16, .cenEngStatus), (0x200, 8, 16, .cenPartCfg), (0x300, 8, 16, .cenPartStat),
   (0x380, 8, 16, .cenPartStat2), one 0x1000 .cenIdxSel, one 0x1008 .cenIdxState, one 0x1010 .cenIdxSeq]

/-- The windows, in the order of the block codes. -/
def windows : List (List RegRow) :=
  [compassRows, perimeterRows, meridianRows, facetRows, edgeRows, latticeRows, arcRows, vertexRows, locusRows, planeRows,
   foldRows, chordRows, coneRows, apexRows, orbitRows, centroidRows]

/-- The register of a row that an offset names. -/
def rowAt (o : Nat) (r : RegRow) : Option Reg :=
  if r.1 ≤ o && (o - r.1) % r.2.1 == 0 && decide ((o - r.1) / r.2.1 < r.2.2.1) then some (r.2.2.2 ((o - r.1) / r.2.1)) else none

/-- R643, R646: the register at an offset within node 0xFFF. -/
def regAt (off : Nat) : Option Reg := (windows.getD (off / 0x100000) []).findSome? (rowAt (off % 0x100000))

/-! ### Who reads what (R644) -/

/-- R644: the access codes; `p` with the partition that owns the instance, if one does. -/
inductive RegAcc where
  | m | a | s | p (owner : Option Nat)
deriving DecidableEq, Repr

/-- The partition of sequencer `m`, which is that of its engine or unit (R77). -/
def seqOwner (s : State) (m : Nat) : Option Nat := if (seqOf s m).owned then some (seqOf s m).part else none
def engOwner (s : State) (b : Block) (e : Nat) : Option Nat := seqOwner s ((seqBase b).1 + e)

/-- R115: the partition whose ring holds a fault entry. -/
def faultOwner (s : State) (e : Nat) : Option Nat :=
  (s.cmp.active.parts.find? fun r => decide (r.fqBase ≤ e) && decide (e < r.fqBase + r.fqSize)).map (·.part)

/-- R643: the access column. -/
def regAcc (s : State) : Reg → RegAcc
  | .cmpId | .merFtNow | .merFtStatus => .a
  | .cmpEnergyPart n | .perPart n | .merDomAngle n | .merDomCommit n | .merDomStall n | .merDomLag n | .merDomCtl n
  | .merDomCount n | .merSchedMiss n | .latPartBuf n | .arcPartStat n | .arcPartQuantum n | .vtxPartCfg n | .vtxPartStat n
  | .locSyncStatus n | .locFqStatus n | .locFqHead n | .locFqOvf n | .locPartCfg n | .locMirrorBase n | .plnPartUse n
  | .plnPfStat n | .fldPartStat n | .fldPartRatio n | .conePartStat n | .apxPartCfg n | .apxPartPolicy n | .apxPartStat n
  | .apxPartExc n | .apxPartUse n | .orbPartCfg n | .orbPartLog n | .orbPartPolicy n | .orbPartDrr n | .orbPartUse n
  | .orbPartUse2 n | .orbPartStat n | .orbPartRefuse n | .cenPartCfg n | .cenPartStat n | .cenPartStat2 n => .p (some n)
  | .merSeqStatus m => .p (seqOwner s m)
  | .edgPortStatus p | .edgPortErr p | .arcEthCfg p | .arcEthStat p => .p (port s p).part
  | .locFault e _ => .p (faultOwner s e)
  | .chdEngStatus e | .chdEngStat e | .chdEngNum e => .p (engOwner s .chord e)
  | .coneEngStatus e | .coneEngStat e => .p (engOwner s .cone e)
  | .cenEngStatus e => .p (engOwner s .centroid e)
  | .chdPeer p => .p ((peerOf s p).map (·.part))
  | .coneGroupCfg g | .coneGroupMask g => .p ((coneGroup s g).map (·.part))
  | .orbGroup g => .p ((orbGroup s g).map (·.part))
  | .merSyncIdx | .merSyncValue | .merSyncState | .merSyncTarget | .edgQpSel | .edgQpCfg | .edgQpStat | .edgQpTmo
  | .arcFlowSel | .arcFlowKey | .arcFlowRate | .arcFlowAudit | .arcFlowStat | .arcShapeSel | .arcShapeCfg | .arcMonSel
  | .arcMonData => .s
  | _ => .m

/-- Who accesses a register: the management network (none), or a port. -/
abbrev Via := Option Nat

/-- The key of a requester's copy of a selector. -/
def selKey : Via → Nat
  | none => 0
  | some p => p + 1

/-- A flow, shaper or queue pair that a requester's selector names. -/
def selFlow (s : State) (v : Via) : Option FlowCfg := s.cmp.active.flows.find? (·.n == s.arc.flowSel.get (selKey v))
def selShape (s : State) (v : Via) : Nat × Nat :=
  let x := s.arc.shapeSel.get (selKey v)
  (bits x 8 0, bits x 12 9)
def selQp (s : State) (v : Via) : Option QpCfg := qpCfg s (s.edg.qpSel.get (selKey v))

/-- R448: the partition of the captures that a requester reads: its own, or the one it selects. -/
def monOwn (s : State) (v : Via) : Nat :=
  match v with
  | some p => (port s p).part.getD 16
  | none => bits (s.arc.monSel.get 0) 19 16

/-- R644: the partition of the object that the registers of a selector show; a selector itself has none. -/
def selPart (s : State) (v : Via) : Reg → Option Nat
  | .merSyncValue | .merSyncState | .merSyncTarget =>
    let o := obj s (s.mer.syncIdx.get (selKey v))
    if o.mode = .unused then none else some o.part
  | .arcFlowKey | .arcFlowRate | .arcFlowAudit | .arcFlowStat => (selFlow s v).map (·.part)
  | .arcShapeCfg => some (selShape s v).2
  | .edgQpCfg | .edgQpStat | .edgQpTmo => (selQp s v).map (·.part)
  | .arcMonData => some (monOwn s v)
  | _ => none

def isSelector : Reg → Bool
  | .merSyncIdx | .arcFlowSel | .arcShapeSel | .arcMonSel | .edgQpSel => true
  | _ => false

/-- R644: what a read by a requester comes to: not permitted, zero, or the value. -/
inductive ReadAns where
  | forbidden | zero | value
deriving DecidableEq, Repr

def readAns (s : State) (v : Via) (r : Reg) : ReadAns :=
  match v with
  | none => .value
  | some p =>
    match regAcc s r with
    | .a => .value
    | .m => .forbidden
    | .p o => if o.isSome && o == (port s p).part then .value else .forbidden
    | .s => if isSelector r || ((selPart s v r).isSome && selPart s v r == (port s p).part) then .value else .zero

/-! ### Values -/

def genOf (s : State) (b : Block) : Nat := (s.cmp.fences.get b.code).gen
def staleOf (s : State) (b : Block) : Nat := (s.cmp.fences.get b.code).staleDrops

/-- A status with its reason, as MER_SEQ_STATUS and MER_SCHED_MISS show it. -/
def statusBits (c : Cpl) : List (Nat × Nat) := [(4, c.status.code), (4, if c.status = .refused then (c.reason.map (·.code)).getD 0 else 0)]

/-- A mask of the numbers of a list from `base` on. -/
def maskOf (base n : Nat) (l : List Nat) : Nat := pack ((List.range n).map fun i => (1, b2n (l.contains (base + i))))

/-- R51: the node and position of the source that is furthest behind. -/
def lagOf (d : Dom) : Nat × Nat :=
  match minOf (d.sources.map (·.2)) with
  | none => (0, 0)
  | some a => (((d.sources.find? (·.2 == a)).map (·.1)).getD 0, a)

/-- R496: the physical lanes 0 to 4 that a port shows: the upper port of a gang shows lanes 5 to 9 of the lower. -/
def lanesShown (s : State) (p : Nat) : List Lane :=
  match (port s p).gang with
  | some g => if g = p then (port s p).lanes.take 5 else (port s g).lanes.drop 5
  | none => (port s p).lanes.take 5

/-- R496: a lane that carries or shadows a position. -/
def lanePos (y : Lane) : Nat := match y.rx with | .active | .shadow | .calibrating => y.rxPos | _ => 0

/-- A field for each of five lanes. -/
def laneFields (w : Nat) (f : Lane → Nat) (ls : List Lane) : List (Nat × Nat) := (List.range 5).map fun i => (w, (ls[i]?.map f).getD 0)

/-- R150, R498: before INIT the state that these registers show is not yet known to the switch, and they hold their reset values. -/
def inited (s : State) : Bool := s.cmp.boot != .rom && s.cmp.boot != .loading

/-- R150: free frames of this switch in a tier. -/
def framesFree (s : State) (t : Tier) : Nat :=
  let taken := takenNums s t
  match t with
  | .prism => 11008 - taken.length
  | .ddr => sumOf ((List.range 12).map fun c => if (s.pln.chans.get c).st = .active then
      65536 - (taken.filter fun n => n / 65536 == c).length else 0)
  | .tray => sumOf ((List.range 32).map fun k => if (s.pln.trays.get k).st = .active then
      min 524288 (s.pln.trays.get k).frames - (taken.filter fun n => n / 1048576 == k && trayHalf n == s.cmp.roleB).length else 0)

/-- R127: frames held that count against the partition's range, by tier. -/
def heldIn (s : State) (n : Nat) (t : Tier) : Nat := usedBy s n t

/-- R340, R341: sessions of the partition in this switch's half that satisfy `f`. -/
def sessCount (s : State) (n : Nat) (f : Sess → Bool) : Nat :=
  (s.orb.sess.filter fun e => e.2.part == n && e.2.st != .free && sessOwn s e.1 && f e.2).length

/-- R341: free slots of the KV segments of Orbit's context. -/
def slotsFree (s : State) (n : Nat) : Nat :=
  sumOf ((List.range 16).map fun k => match orbSeg s n k with
    | some w => if segType w = 3 then slotCount w - (slotsHeld s n k).length else 0
    | none => 0)

def chunksFree (s : State) (n : Nat) : Nat := match logSeg s n with | some w => heapChunks w - (chunksHeld s n).length | none => 0

/-- R166: a directory entry's word. -/
def dirWord (e : DirEnt) : Nat :=
  if !e.used then 0
  else
    let head := [(2, if e.own then 2 else 1), (1, b2n e.coarse), (26, e.line / 524288)]
    if e.coarse then pack (head ++ [(32, e.groups)])
    else pack (head ++ [(9, e.ptrs.getD 0 0), (9, e.ptrs.getD 1 0), (9, e.ptrs.getD 2 0), (2, e.ptrs.length)])

/-- R436: the objects of a block with monitors. -/
def monCount (blk : Nat) : Nat :=
  match blk with
  | 0x6 => 405 | 0x7 => 16 | 0x8 => 1 | 0x9 => 3 | 0xB => 32 | 0xC => 64 | 0xD => 4 | 0xE => 1 | 0xF => 16 | _ => 0

/-- R435: an item of a capture. -/
def monItem (m : Mon) (i : Nat) : Nat :=
  if i < 32 then m.bins.get i
  else match i with
  | 0x20 => m.minD | 0x21 => m.maxD | 0x22 => m.hwmNs | 0x23 => m.hwmFt | 0x24 => m.hwmSrc | 0x25 => m.samples | _ => 0

def monData (s : State) (v : Via) : Nat :=
  let x := s.arc.monSel.get (selKey v)
  let id := bits x 15 0
  if monCount (id / 4096) ≤ id % 4096 then 0 else monItem (s.arc.mons.get (id * 16 + monOwn s v)) (bits x 25 20)

/-- The active slices of a Cone engine whose length lies above `lo` and at most at `hi` (R278). -/
def slicesIn (s : State) (e lo hi : Nat) : Nat := ((activeOn s e).filter fun p => decide (lo < p.2.count) && decide (p.2.count ≤ hi)).length

/-- The value that a requester reads, before the access is checked. -/
def regVal (s : State) (v : Via) : Reg → Nat
  | .cmpId => 0xB04410
  | .cmpBootStatus => pack [(3, s.cmp.boot.code), (1, b2n s.cmp.imageB), (3, s.cmp.aFail), (3, s.cmp.bFail), (1, b2n s.cmp.roleB), (16, s.cmp.warmResets)]
  | .cmpCfgStatus => pack [(2, s.cmp.shadowSt.code), (2, s.cmp.swapSt.code), (16, s.cmp.swaps)]
  | .cmpActiveId => s.cmp.active.hdr.imageId % 2 ^ 64
  | .cmpFuseStatus => pack [(8, s.cmp.rollback), (1, b2n s.cmp.ownerHash.isSome), (1, b2n s.cmp.jtagClosed)]
  | .cmpLogStatus => pack [(15, min 32767 (unflushed s)), (1, b2n s.cmp.lost), (16, s.cmp.lostCount), (32, s.cmp.nextSeq - 1)]
  | .cmpLogSel => s.cmp.logSel
  | .cmpLogData w => ((s.cmp.log.find? (·.seq == s.cmp.logSel)).map fun e => (logWords e).getD w 0).getD 0
  | .cmpSensorSel => s.cmp.sensorSel
  | .cmpSensorData => sensorWord s s.cmp.sensorSel
  | .cmpTempCfg => pack [(8, s.cmp.warnC), (8, s.cmp.throttleC), (8, s.cmp.tripC)]
  | .cmpEnergyCfg => pack [(12, s.cmp.energy.capNext), (4, s.cmp.energy.repay), (1, b2n s.cmp.energy.pauseEn)]
  | .cmpEnergyStatus => pack [(40, toTwos 40 s.cmp.energy.a), (5, s.cmp.energy.f), (1, b2n s.cmp.energy.paused)]
  | .cmpEnergyDeficit => pack [(40, s.cmp.energy.deficit), (24, s.cmp.energy.instalment / 1000)]
  | .cmpEnergyBase => pack [(32, toTwos 32 (s.cmp.energy.base / 1000)), (32, s.cmp.energy.lastM / 1000)]
  | .cmpEnergyPart n =>
    let x := s.cmp.energy.parts.get n
    pack [(32, min (2 ^ 32 - 1) (x.lastDebit / 1000)), (16, x.refused), (16, x.waits)]
  | .cmpPairStatus => pack [(4, s.pair.st.code), (1, b2n s.pair.aliveInDeb), (1, b2n s.pair.aliveOut), (1, b2n s.pair.mismatch), (16, s.pair.admitted), (16, s.pair.takeovers)]
  | .cmpPairCfg => pack [(16, s.pair.yieldMs), (16, s.pair.debounceUs)]
  | .cmpTakeoverFt => s.pair.takeoverFt % 2 ^ 64
  | .cmpFaultStatus => s.cmp.faultStatus % 64
  | .cmpWdtCfg => pack [(16, s.cmp.wdtUs), (9, s.cmp.autoReset), (16, s.cmp.expiries)]
  | .cmpBistStatus => pack [(16, s.cmp.bistDone), (16, s.cmp.bistPass), (10, s.cmp.bistRetired)]
  | .cmpPwrStatus => pack [(1, b2n s.pins.pgCmp), (1, b2n s.pins.pgCore), (1, b2n s.pins.pgAux), (1, b2n s.pins.loss)]
  | .perStatus => pack [(1, b2n s.per.debug), (3, s.per.scope), (2, s.per.pool.code), (2, if s.per.storeAbsent then 2 else if s.per.faulted.isEmpty then 0 else 1)]
  | .perPoolGen => if s.per.pool = .none then 0 else s.per.poolGen % 2 ^ 64
  | .perIdentityTag => s.per.identity % 2 ^ 64
  | .perEpochStat => pack [(10, (s.per.store.idxs fun i r => decide (1 ≤ i) && decide (i < 512) && !recFree r).length), (16, s.per.commitN), (16, s.per.torn), (16, s.per.commits.length)]
  | .perScrubStatus => pack [(1, b2n s.per.scrub.isSome), (4, ((s.per.scrub.map (·.part)).getD s.per.lastPart)), (4, s.per.lastStatus), (32, min (2 ^ 32 - 1) s.per.lastUs)]
  | .perPart n => pack [(32, (s.per.parts.get n).tenancy), (16, (s.per.parts.get n).scrubs), (1, b2n (scrubFenced s n))]
  | .perGroup g =>
    let c := s.cmp.active.groupRegs.find? (·.g == g)
    pack [(1, b2n c.isSome), (4, (c.map (·.filler)).getD 0), (16, maskOf 0 16 ((c.map (·.readers)).getD [])), (32, s.per.ggen.get g), (1, b2n (s.per.fills.any (·.g == g)))]
  | .perScrubCtl | .perAttestDb | .merDomCtl _ | .arcMonCtl | .locSyncDb | .locFqHead _ => 0
  | .merFtNow => s.ft % 2 ^ 64
  | .merFtStatus => pack [(2, s.mer.lock.code), (1, b2n s.mer.everLocked), (32, toTwos 32 (satInt 32 s.mer.offset))]
  | .merFtCfg => pack [(1, b2n s.mer.portSel), (8, s.mer.ptpPort), (1, b2n s.mer.ppsInEn), (7, s.mer.ptpDomain), (1, b2n s.mer.transport)]
  | .merDomAngle n => pack [(48, (dom s n).angle), (3, (dom s n).st.code), (9, (dom s n).sources.length)]
  | .merDomCommit n => (dom s n).commit % 2 ^ 32
  | .merDomStall n => (dom s n).stallNs % 2 ^ 40
  | .merDomLag n => pack [(12, (lagOf (dom s n)).1), (48, (lagOf (dom s n)).2)]
  | .merDomCount n => pack [(16, (dom s n).backward), (16, (dom s n).unregistered), (16, (dom s n).stalls)]
  | .merSchedMiss n => pack [(16, (dom s n).missed), (18, (dom s n).lastEntry), (4, (dom s n).lastStatus), (4, (dom s n).lastReason), (16, (dom s n).skipped)]
  | .merSeqStatus m =>
    let q := seqOf s m
    pack ([(12, q.pc), (2, q.run.code)] ++ statusBits q.st ++ [(4, q.acc.status.code), (4, q.part), (5, q.outst.length), (3, q.starts.length)])
  | .merSyncIdx => s.mer.syncIdx.get (selKey v)
  | .merSyncValue => (obj s (s.mer.syncIdx.get (selKey v))).value % 2 ^ 64
  | .merSyncState =>
    let o := obj s (s.mer.syncIdx.get (selKey v))
    pack [(2, o.mode.code), (4, o.part), (32, o.gen), (15, o.waiters.length)]
  | .merSyncTarget => (obj s (s.mer.syncIdx.get (selKey v))).target % 2 ^ 32
  | .fctLane p =>
    let ls := lanesShown s p
    pack (laneFields 3 (·.rx.code) ls ++ laneFields 3 (·.tx.code) ls ++ laneFields 3 lanePos ls ++ [(8, (port s p).calSkips)])
  | .fctLaneErr p =>
    let ls := (lanesShown s p).map (rollLane s.ft)
    pack (laneFields 4 (fun y => min 15 (y.lol.filter fun t => decide (s.ft < t + 10000000000)).length) ls ++
      laneFields 4 (fun y => min 15 y.windows) ls ++ laneFields 1 (fun y => b2n y.serHigh) ls ++ [(3, (port s p).lastCause)])
  | .fctLaser m => if inited s && s.pins.lsPres.contains m then 1 + 2 * freeNat 13 s else 0
  | .fctLaserCtl m => b2n (s.pins.lsEn.contains m)
  | .edgCfg => pack [(16, s.edg.replayTmo), (16, s.edg.pairTmo), (8, s.edg.calPorts)]
  | .edgPairStatus => pack [(8, pack ((List.range 8).map fun j => (1, b2n ((port s (256 + j)).st == .up)))), (1, b2n s.pair.linkUp), (16, s.edg.remaps), (16, s.edg.dupDrops)]
  | .edgPortStatus p =>
    let x := port s p
    let mode := match x.mode with | .unused => 0 | .xcl => 1 | .eth => 2 | .pair => 3
    pack [(2, mode), (3, x.st.code), (1, b2n x.gang.isSome), (2, x.txWidth), (2, x.rxWidth), (4, x.part.getD 0), (1, b2n x.priv), (1, b2n x.coherent), (16, x.linkDowns)]
  | .edgPortErr p => let x := port s p; pack [(16, x.replays), (16, x.corrupt), (16, x.authFails), (16, x.downDrops)]
  | .edgPortSec p => pack [(32, (port s p).txEpoch), (32, txCtrOf s (port s p) / 4096)]
  | .edgTray t => let x := s.edg.trays.get t; pack [(2, x.width), (1, b2n x.spareCap), (1, b2n x.spareUsed), (3, x.sparedLane), (16, x.recoveries)]
  | .edgQpSel => s.edg.qpSel.get (selKey v)
  | .edgQpCfg => match selQp s v with
    | some c => pack [(1, 1), (1, b2n c.window), (4, c.part), (8, c.port), (24, c.qpn), (24, c.remoteQpn)]
    | none => 0
  | .edgQpStat => let x := s.edg.qps.get (s.edg.qpSel.get (selKey v)); pack [(2, x.st.code), (16, x.retries), (16, x.rnrNaks), (16, x.accessErr)]
  | .edgQpTmo => match selQp s v with
    | some c => pack [(5, c.ackTmo), (1, b2n c.pmtu4k)]
    | none => 0
  | .latBufStatus => pack [(22, freeCells s), (22, s.lat.minFree)]
  | .latPartBuf n => pack [(22, (partRec s n).rsvCells), (22, s.lat.used.get n)]
  | .arcCfg => pack [(16, s.arc.fairTol), (1, b2n s.arc.auditEn)]
  | .arcStarveCfg => pack ((List.range 4).map fun i => (16, s.arc.starve.getD i 0))
  | .arcStatus => pack [(16, s.arc.unfair), (14, (s.arc.flows.filter (·.2.age)).length), (16, s.arc.unmapped)]
  | .arcFlowSel => s.arc.flowSel.get (selKey v)
  | .arcFlowKey => match selFlow s v with
    | some f => pack [(1, 1), (9, f.attach), (4, f.part), (3, f.slot), (16, f.quantum), (8, toTwos 8 f.overhead), (1, b2n f.police), (1, b2n f.hold), (1, b2n f.audit), (9, f.auditOut)]
    | none => 0
  | .arcFlowRate => match selFlow s v with
    | some f => pack [(16, f.cir), (16, f.pir), (16, f.cbs), (16, f.pbs)]
    | none => 0
  | .arcFlowAudit => match selFlow s v with
    | some f => pack [(16, f.entitle), (16, (s.arc.flows.get f.n).shareArc), (16, (s.arc.flows.get f.n).shareLat), (1, b2n (s.arc.flows.get f.n).age), (15, f.qmax)]
    | none => 0
  | .arcFlowStat =>
    let x := s.arc.flows.get (s.arc.flowSel.get (selKey v))
    pack [(16, x.yellow), (16, x.red), (16, x.qfull), (16, min 65535 (x.bytes / 1048576))]
  | .arcPartStat n => let x := s.arc.parts.get n; pack [(16, x.quotaRefused), (16, x.energyRefused), (16, x.promotions), (16, x.ageSends)]
  | .arcPartQuantum n => pack ((List.range 5).map fun i => (12, (((s.cmp.active.quanta.find? (·.1 == n)).map (·.2)).getD []).getD i 0))
  | .arcShapeSel => s.arc.shapeSel.get (selKey v)
  | .arcShapeCfg => match s.cmp.active.shapers.find? fun x => x.attach == (selShape s v).1 && x.part == (selShape s v).2 with
    | some x => pack [(16, x.rate), (16, x.burst), (1, b2n x.en)]
    | none => 0
  | .arcEthCfg p =>
    if (port s p).mode != .eth then 0
    else let e := ethCfg s p; pack [(2, e.mode), (8, e.pfcEn), (24, e.tcmap), (3, e.defaultPcp), (12, e.xoffKib), (12, e.xonKib)]
  | .arcEthStat p => let x := s.arc.eth.get p; pack [(16, x.pauseRx), (16, x.fcTx), (16, x.tailDrops), (16, x.discards)]
  | .arcMonFrozen => s.arc.frozen % 65536
  | .arcMonSel => s.arc.monSel.get (selKey v)
  | .arcMonData => monData s v % 2 ^ 64
  | .vtxStatus => pack [(2, s.vtx.st.code), (4, s.vtx.gen), (1, b2n (!s.vtx.excluded.isEmpty)), (16, s.vtx.downCount), (16, s.vtx.staleDrops), (17, trackersFree s)]
  | .vtxDownInfo => pack [(4, s.vtx.cause), (10, s.vtx.agent), (45, s.vtx.infoLine)]
  | .vtxDownFt => s.vtx.downFt % 2 ^ 64
  | .vtxCfg => pack [(16, s.vtx.snoopTmo), (16, s.vtx.ackTmo)]
  | .vtxPortExcl k => maskOf (64 * k) 64 s.vtx.excluded
  | .vtxPartCfg n => pack [(16, (partRec s n).vtxWayMask), (17, (partRec s n).trackerRsv)]
  | .vtxPartStat n => let x := s.vtx.stats.get n; pack [(16, x.combReads), (16, x.combAtomics), (16, x.backInval), (16, x.downCmp)]
  | .vtxDirIdx => s.vtx.dirIdx
  | .vtxDirEntry => dirWord (s.vtx.dir.get s.vtx.dirIdx)
  | .locSyncStatus n => let x := locPart s n; pack [(5, x.syncs.length), (4, x.lastStatus), (12, x.lastRecord), (16, x.timeouts)]
  | .locFqStatus n => let x := locPart s n; pack [(12, x.head), (12, x.tail), (13, (partRec s n).fqSize), (1, b2n (decide ((partRec s n).fqSize ≤ x.count))), (1, b2n x.lost)]
  | .locFqOvf n => pack ((List.range 8).map fun t => (8, if t = 0 then 0 else (locPart s n).ovf.getD t 0))
  | .locPartCfg n => let r := partRec s n; pack [(12, r.ctxBase), (13, r.ctxCount), (12, r.fqBase), (16, r.wayMask), (6, r.walkQuota)]
  | .locMirrorBase n => ((partRec s n).mirror.getD 0) % 2 ^ 64
  | .locFault e w => (s.loc.ring.get e).getD w 0 % 2 ^ 64
  | .plnTierStatus => pack [(14, if inited s then framesFree s .prism else 0), (20, framesFree s .ddr), (25, framesFree s .tray)]
  | .plnPrismStatus => pack [(10, min 1023 (prismRetired s)), (1, b2n s.pln.degraded)]
  | .plnPartUse n => pack [(14, heldIn s n .prism), (20, heldIn s n .ddr), (25, heldIn s n .tray)]
  | .plnPfStat n => let x := s.pln.pf.get n; pack [(16, x.late), (16, x.partialPages), (16, x.spills), (16, x.energyRefused)]
  | .plnDdrCh c => pack [(2, (s.pln.chans.get c).st.code), (16, min 65535 (errsIn s hourNs false (onChan c))), (4, min 15 (errsIn s dayNs true (onChan c))), (10, min 1023 (s.pln.retired.filter (onChan c)).length)]
  | .plnTray t => pack [(2, (s.pln.trays.get t).st.code), (2, (s.pln.trays.get t).head.code), (4, min 15 (errsIn s dayNs true (onTray t))), (11, min 2047 (s.pln.retired.filter (onTray t)).length)]
  | .fldStatus => pack [(16, s.fld.verifyFail), (16, s.fld.checkRetry)]
  | .fldPartStat n => let x := s.fld.parts.get n; pack [(16, x.tagFail), (16, x.checkFail), (16, x.poisonWrites), (16, x.poisonReads)]
  | .fldPartRatio n => let x := s.fld.parts.get n; pack [(32, x.blocks), (32, x.sectors)]
  | .chdStatus => pack [(16, s.chd.mismatch), (16, s.chd.timeouts), (16, s.chd.discards)]
  | .chdCfg => s.chd.hierTmo
  | .chdEngStatus e => pack [(4, (eng s e).insts.length), (11, 1920 - unitsUsed (eng s e)), (4, (engOwner s .chord e).getD 0), (1, b2n (fenced s .chord)), (4, genOf s .chord), (11, ceilDiv (earlyBytes (eng s e)) 1024)]
  | .chdEngStat e => let x := eng s e; pack [(16, x.doneN), (16, x.dup), (16, x.noInst), (16, x.poisonChunks)]
  | .chdEngNum e => let x := eng s e; pack [(16, x.saturated), (16, x.overflow), (16, x.nanOut), (16, x.partialRows)]
  | .chdPeer p => match peerOf s p with
    | some c => pack [(1, 1), (4, c.part), (5, c.engine), (8, c.port), (24, c.qpn), (1, b2n ((port s c.port).st == .up))]
    | none => 0
  | .coneStatus => pack [(16, s.cone.timeouts), (16, s.cone.poisonQueries), (16, staleOf s .cone)]
  | .coneEngStatus e => pack [(5, (activeOn s e).length), (5, slicesIn s e 0 4096), (5, slicesIn s e 4096 16384), (5, slicesIn s e 16384 65536), (4, (engOwner s .cone e).getD 0), (1, b2n (fenced s .cone)), (4, genOf s .cone)]
  | .coneEngStat e => let x := s.cone.engs.get e; pack [(16, x.doneN), (16, x.slices), (16, x.promptTurns), (16, x.promotions)]
  | .conePartStat n => let x := s.cone.stats.get n; pack [(16, x.queries), (16, x.stateRefused), (16, x.offPrism), (16, x.nanHeads)]
  | .coneGroupCfg g => match coneGroup s g with
    | some c => pack [(1, 1), (4, c.part), (5, c.engines.length)]
    | none => 0
  | .coneGroupMask g => maskOf 0 64 (((coneGroup s g).map (·.engines)).getD [])
  | .apxStatus => pack [(1, b2n (fenced s .apex)), (4, genOf s .apex), (16, staleOf s .apex), (11, 1024 - slotsUsed s fun _ => true)]
  | .apxCfg => s.apx.tmo
  | .apxUnitStatus u => pack [(11, (apxWaiting s u 0).length), (11, (apxWaiting s u 1).length), (16, (arbOf s (arbKey .apex u)).promotions)]
  | .apxPartCfg n => pack [(15, (apxPart s n).base), (16, (apxPart s n).count), (12, (apxPart s n).asid)]
  | .apxPartPolicy n => pack [(11, (apxPart s n).slotQuota), (16, (apxPart s n).quantumKib)]
  | .apxPartStat n => let x := s.apx.stats.get n; pack [(16, x.samples), (16, x.tokens), (16, x.offered), (16, x.accepted)]
  | .apxPartExc n => let x := s.apx.stats.get n; pack [(16, x.timeouts), (16, x.ringFull), (16, x.overrun), (16, x.noCand)]
  | .apxPartUse n =>
    let k := fun (t : ReqState) => min 65535 (s.apx.reqs.filter fun e => e.2.st == t && e.2.part == n).length
    pack [(16, k .running), (16, k .ended), (11, slotsUsed s (· == n))]
  | .orbStatus => pack [(7, reviving s), (1, b2n (linkDown s)), (1, b2n (fenced s .orbit)), (4, genOf s .orbit), (16, staleOf s .orbit), (16, s.orb.logHeals)]
  | .orbCfg => s.orb.deferNs % 2 ^ 32
  | .orbPartCfg n => pack [(23, (orbPart s n).base), (24, (orbPart s n).count), (12, (orbPart s n).asid)]
  | .orbPartLog n => pack [(4, (orbPart s n).logSeg), (32, chunksFree s n)]
  | .orbPartPolicy n => pack [(16, (orbPart s n).hotIdleMs), (16, (orbPart s n).warmIdleS), (24, (orbPart s n).hotMax)]
  | .orbPartDrr n => pack [(16, (orbPart s n).quantumKib), (16, (orbPart s n).pfPages)]
  | .orbPartUse n => pack [(24, sessCount s n fun _ => true), (24, sessCount s n fun d => d.st == .parked && d.depth == .hot), (16, min 65535 (sessCount s n attached))]
  | .orbPartUse2 n => pack [(24, sessCount s n fun d => d.st == .parked && d.depth == .warm), (24, min (2 ^ 24 - 1) (slotsFree s n))]
  | .orbPartStat n => let x := s.orb.stats.get n; pack [(16, x.revivals), (16, x.parks), (16, x.deferred), (16, x.demotions)]
  | .orbPartRefuse n => let x := s.orb.stats.get n; pack [(16, x.capacity), (16, x.state), (16, x.energyWaits), (16, x.diverge)]
  | .orbGroup g => match orbGroup s g with
    | some c => pack [(1, 1), (4, c.part), (1, b2n c.roleB)]
    | none => 0
  | .cenStatus => pack [(1, b2n (fenced s .centroid)), (4, genOf s .centroid), (16, staleOf s .centroid)]
  | .cenEngStatus e => pack [(4, (s.cen.srchs.filter (·.e == e)).length), (4, (engOwner s .centroid e).getD 0), (6, (queueOf s .centroid e).length), (16, (arbOf s (arbKey .centroid e)).promotions)]
  | .cenPartCfg n => pack [(11, (cenPart s n).base), (12, (cenPart s n).count), (12, (cenPart s n).asid)]
  | .cenPartStat n => let x := s.cen.stats.get n; pack [(16, x.searches), (16, x.partialQ), (16, x.widened), (16, x.merges)]
  | .cenPartStat2 n => let x := s.cen.stats.get n; pack [(16, x.appends), (16, x.deletes), (16, x.capacity), (16, x.energyRefused)]
  | .cenIdxSel => s.cen.idxSel
  | .cenIdxState =>
    let x := idxOf s s.cen.idxSel
    pack [(1, b2n x.isOpen), (4, x.part), (1, b2n x.merge.isSome), (8, x.gen), (9, (s.cen.srchs.filter (·.idx == s.cen.idxSel)).length)]
  | .cenIdxSeq => (idxOf s s.cen.idxSel).seq % 2 ^ 64

/-! ### What a read clears (R6, R647) -/

def clearStale (b : Block) (s : State) : State :=
  { s with cmp := { s.cmp with fences := s.cmp.fences.mod b.code fun f => { f with staleDrops := 0 } } }

/-- R6: the RC fields are cleared by the read that returns them. A free value that a read shows is used up. -/
def regClear (v : Via) (r : Reg) (s : State) : State :=
  match r with
  | .cmpLogStatus => modCmp (fun c => { c with lostCount := 0 }) s
  | .cmpEnergyPart n => modEPart n (fun x => { x with refused := 0, waits := 0 }) s
  | .cmpWdtCfg => modCmp (fun c => { c with expiries := 0 }) s
  | .perEpochStat => modPer (fun p => { p with commitN := 0, torn := 0 }) s
  | .merDomCount n => modDom n (fun d => { d with backward := 0, unregistered := 0, stalls := 0 }) s
  | .merSchedMiss n => modDom n (fun d => { d with missed := 0, skipped := 0 }) s
  | .fctLane p => modPort p (fun x => { x with calSkips := 0 }) s
  | .fctLaser m => if inited s && s.pins.lsPres.contains m then useFresh s else s
  | .edgPairStatus => modEdge (fun e => { e with remaps := 0, dupDrops := 0 }) s
  | .edgPortStatus p => modPort p (fun x => { x with linkDowns := 0 }) s
  | .edgPortErr p => modPort p (fun x => { x with replays := 0, corrupt := 0, authFails := 0, downDrops := 0 }) s
  | .edgTray t => modEdge (fun e => { e with trays := e.trays.mod t fun x => { x with recoveries := 0 } }) s
  | .edgQpStat => modEdge (fun e => { e with qps := e.qps.mod (s.edg.qpSel.get (selKey v)) fun x => { x with retries := 0, rnrNaks := 0, accessErr := 0 } }) s
  | .arcStatus => modArc (fun a => { a with unfair := 0, unmapped := 0 }) s
  | .arcFlowStat => modFlow (s.arc.flowSel.get (selKey v)) (fun x => { x with yellow := 0, red := 0, qfull := 0, bytes := x.bytes % 1048576 }) s
  | .arcPartStat n => modArcPart n (fun _ => {}) s
  | .arcEthStat p => modEth p (fun _ => {}) s
  | .vtxStatus => modVtx (fun x => { x with staleDrops := 0 }) s
  | .vtxPartStat n => modVStat n (fun _ => {}) s
  | .locSyncStatus n => setLocPart n { locPart s n with timeouts := 0 } s
  | .locFqOvf n => setLocPart n { locPart s n with ovf := [0, 0, 0, 0, 0, 0, 0, 0] } s
  | .plnPfStat n => modPf n (fun _ => {}) s
  | .fldStatus => { s with fld := { s.fld with verifyFail := 0, checkRetry := 0 } }
  | .fldPartStat n => modFld n (fun x => { x with tagFail := 0, checkFail := 0, poisonWrites := 0, poisonReads := 0 }) s
  | .fldPartRatio n => modFld n (fun x => { x with blocks := 0, sectors := 0 }) s
  | .chdStatus => { s with chd := { s.chd with mismatch := 0, timeouts := 0, discards := 0 } }
  | .chdEngStat e => modEng e (fun x => { x with doneN := 0, dup := 0, noInst := 0, poisonChunks := 0 }) s
  | .chdEngNum e => modEng e (fun x => { x with saturated := 0, overflow := 0, nanOut := 0, partialRows := 0 }) s
  | .coneStatus => clearStale .cone { s with cone := { s.cone with timeouts := 0, poisonQueries := 0 } }
  | .coneEngStat e => modConeEng e (fun x => { x with doneN := 0, slices := 0, promptTurns := 0, promotions := 0 }) s
  | .conePartStat n => modConeStat n (fun _ => {}) s
  | .apxStatus => clearStale .apex s
  | .apxUnitStatus u => setArb (arbKey .apex u) { arbOf s (arbKey .apex u) with promotions := 0 } s
  | .apxPartStat n => modAStat n (fun x => { x with samples := 0, tokens := 0, offered := 0, accepted := 0 }) s
  | .apxPartExc n => modAStat n (fun x => { x with timeouts := 0, ringFull := 0, overrun := 0, noCand := 0 }) s
  | .orbStatus => clearStale .orbit (modOrb (fun o => { o with logHeals := 0 }) s)
  | .orbPartStat n => modOStat n (fun x => { x with revivals := 0, parks := 0, deferred := 0, demotions := 0 }) s
  | .orbPartRefuse n => modOStat n (fun x => { x with capacity := 0, state := 0, energyWaits := 0, diverge := 0 }) s
  | .cenStatus => clearStale .centroid s
  | .cenEngStatus e => setArb (arbKey .centroid e) { arbOf s (arbKey .centroid e) with promotions := 0 } s
  | .cenPartStat n => modCStat n (fun x => { x with searches := 0, partialQ := 0, widened := 0, merges := 0 }) s
  | .cenPartStat2 n => modCStat n (fun x => { x with appends := 0, deletes := 0, capacity := 0, energyRefused := 0 }) s
  | _ => s

/-- A permitted read: the register's value, and what the read clears. -/
def readReg (v : Via) (r : Reg) (s : State) : State × Nat := (regClear v r s, regVal s v r)

end Sys2Proof.Machine
end

