-- ==== Sys2Proof/Machine/Csr.lean ====
section
/-!
DEFINITION. CSR accesses (R25, R89, R556, R644 to R647): reads and writes by the management network and by XCL ports.
-/
namespace Sys2Proof.Machine

/-! ### Writes by the management network (R644) -/

/-- R47, R51, R52: MER_DOM_CTL_n. -/
def writeDomCtl (who : Requester) (n x : Nat) (s : State) : Res :=
  match bits x 2 0 with
  | 0 => execDomCtlNone who n s
  | 1 => execDomHold who n s
  | 2 => execDomRelease who n s
  | 3 => execDomRestart who n s
  | 4 => execDomRebase who n s
  | 5 => execSourceAdd who n (bits x 14 3) s
  | 6 => execSourceRemove who n (bits x 14 3) s
  | _ => mgmtGate who .admin false (fun s => .next (reply who cBad s)) s

/-- R447: what a write of ARC_MON_CTL does to a partition's captures. -/
def monCtlWrite (n x : Nat) (s : State) : State × Cpl :=
  if bitOf x 0 && bitOf x 1 then (s, cBad)
  else
    let s := if bitOf x 0 then modArc (fun a => { a with frozen := setBit a.frozen n }) s else s
    let s := if bitOf x 1 then modArc (fun a => { a with frozen := clearBit a.frozen n }) s else s
    (if bitOf x 2 then monClear n s else s, cOk)

/-- R122: a write of 1 to LOST. -/
def clearLost (n x : Nat) (s : State) : State := if bitOf x 38 then setLocPart n { locPart s n with lost := false } s else s

/-- R644, R645: a requester's copy of a selector. -/
def setSelector (v : Via) (r : Reg) (x : Nat) (s : State) : State :=
  let k := selKey v
  match r with
  | .merSyncIdx => { s with mer := { s.mer with syncIdx := s.mer.syncIdx.set k (bits x 15 0) } }
  | .edgQpSel => modEdge (fun e => { e with qpSel := e.qpSel.set k (bits x 11 0) }) s
  | .arcFlowSel => modArc (fun a => { a with flowSel := a.flowSel.set k (bits x 12 0) }) s
  | .arcShapeSel => modArc (fun a => { a with shapeSel := a.shapeSel.set k (bits x 12 0) }) s
  | .arcMonSel => modArc (fun a => { a with monSel := a.monSel.set k (bits x 25 0) }) s
  | _ => s

/-- R192, R188. -/
def clearExcl (k x : Nat) (s : State) : State :=
  modVtx (fun y => { y with excluded := y.excluded.filter fun p => !(p / 64 == k && bitOf x (p % 64) && (port s p).st == .up) }) s

/-- R579: CMP_ENERGY_CFG. -/
def writeEnergyCfg (x : Nat) (s : State) : State :=
  modEnergy (fun e => { e with repay := bits x 15 12, pauseEn := bitOf x 16 }) (setBudget (bits x 11 0) s)

/-- R191: VTX_CFG. -/
def writeVtxCfg (x : Nat) (s : State) : State :=
  let s := modVtx (fun y => { y with snoopTmo := bits x 15 0, ackTmo := bits x 31 16 }) s
  if bitOf x 32 then domainDown 10 0 0 s else s

/-- The writes of registers whose fields have no row of their own, and the completion: a write to read-only fields has no
effect (R6). -/
def mgmtWrite (r : Reg) (x : Nat) (s : State) : State × Cpl :=
  match r with
  | .cmpBootStatus => (modCmp (fun c => { c with warmResets := bits x 26 11 }) s, cOk)
  | .cmpLogStatus => (if bitOf x 15 then modCmp (fun c => { c with lost := false }) s else s, cOk)
  | .cmpLogSel => (modCmp (fun c => { c with logSel := bits x 31 0 }) s, cOk)
  | .cmpSensorSel => (modCmp (fun c => { c with sensorSel := bits x 15 0 }) s, cOk)
  | .cmpTempCfg => (modCmp (fun c => { c with warnC := bits x 7 0, throttleC := bits x 15 8 }) s, cOk)
  | .cmpEnergyCfg => (writeEnergyCfg x s, cOk)
  | .cmpFaultStatus => (modCmp (fun c => { c with faultStatus := (List.range 6).foldl (fun f i => if bitOf x i then clearBit f i else f) c.faultStatus }) s, cOk)
  | .cmpWdtCfg => (modCmp (fun c => { c with wdtUs := bits x 15 0, autoReset := bits x 24 16 }) s, cOk)
  | .merSyncIdx | .edgQpSel | .arcFlowSel | .arcShapeSel | .arcMonSel => (setSelector none r x s, cOk)
  | .edgCfg => (modEdge (fun e => { e with replayTmo := bits x 15 0, pairTmo := bits x 31 16, calPorts := bits x 39 32 }) s, cOk)
  | .latBufStatus => (if bitOf x 44 then minReload s else s, cOk)
  | .arcCfg => (modArc (fun a => { a with fairTol := bits x 15 0, auditEn := bitOf x 16 }) s, cOk)
  | .arcStarveCfg => (modArc (fun a => { a with starve := [bits x 15 0, bits x 31 16, bits x 47 32, bits x 63 48] }) s, cOk)
  | .arcMonCtl => monCtlWrite (bits x 7 4) x s
  | .vtxCfg => (writeVtxCfg x s, cOk)
  | .vtxPortExcl k => (clearExcl k x s, cOk)
  | .vtxDirIdx => (modVtx (fun y => { y with dirIdx := bits x 22 0 }) s, cOk)
  | .locSyncDb => locDoorbell (bits x 15 12) (bits x 11 0) s
  | .locFqStatus n => (clearLost n x s, cOk)
  | .chdCfg => ({ s with chd := { s.chd with hierTmo := bits x 15 0 } }, cOk)
  | .apxCfg => (modApx (fun a => { a with tmo := bits x 15 0 }) s, cOk)
  | .orbCfg => (modOrb (fun o => { o with deferNs := bits x 31 0 }) s, cOk)
  | .cenIdxSel => (modCen (fun c => { c with idxSel := bits x 10 0 }) s, cOk)
  | _ => (s, cOk)

/-- R556, R644: a write by a management session. Those with a row of their own are that row's. -/
def mgmtWriteReg (who : Requester) (r : Reg) (x : Nat) (s : State) : Res :=
  match r with
  | .cmpPairCfg => execDeclare who x s
  | .perScrubCtl => if bitOf x 6 then execZeroise who s else execScrub who (bits x 3 0) (bitOf x 4) (bitOf x 5) s
  | .merFtCfg => execFtCfgWrite who x s
  | .merDomStall n => execStallCfgWrite who n x s
  | .merDomCtl n => writeDomCtl who n x s
  | .fctLaserCtl m => execLaserEnable who m (bitOf x 0) s
  | .locFqHead n => execFqHeadRelease who n (bits x 11 0) s
  | .perAttestDb => mgmtGate who .admin false (fun s => .next (reply who cNP s)) s
  | _ => mgmtGate who .admin false (fun s =>
    let (s, c) := mgmtWrite r x s
    .next (reply who c s)) s

/-! ### Writes by privileged XCL ports (R645) -/

/-- R645: the doorbells, for port `p` of partition `n`. -/
def portWriteReg (who : Requester) (p n asid : Nat) (r : Reg) (x : Nat) (s : State) : Res :=
  let fin := fun (a : State × Cpl) => (.next (reply who a.2 a.1) : Res)
  match r with
  | .locSyncDb => fin (locDoorbell n (bits x 11 0) s)
  | .locFqHead k => execFqHeadRelease who k (bits x 11 0) s
  | .locFqStatus k => fin (if k = n then (clearLost n x s, cOk) else (s, cNP))
  | .perAttestDb => execAttestReport who asid x 0 s
  | .arcMonCtl => fin (monCtlWrite n x s)
  | .arcFlowSel | .arcShapeSel | .arcMonSel | .edgQpSel | .merSyncIdx => fin (setSelector (some p) r x s, cOk)
  | _ => fin (s, cNP)

/-- R89, R644 to R646: a write of a register by whoever asks. -/
def writeReg (who : Requester) (asid off x : Nat) (s : State) : Res :=
  match who with
  | .mgmt _ _ _ =>
    match regAt off with
    | none => mgmtGate who .admin false (fun s => .next (reply who cBad s)) s
    | some r => mgmtWriteReg who r x s
  | .port p _ _ =>
    if (port s p).mode != .xcl || !(port s p).priv || (port s p).part.isNone then .next (reply who cNP s)
    else match regAt off with
    | none => .next (reply who cNP s)
    | some r => portWriteReg who p ((port s p).part.getD 16) asid r x s
  | _ => .next (reply who cNP s)

/-- R644: a write to a register field that has no row of its own. -/
def execRegisterWrite (who : Requester) (asid off : Nat) (v : Word) (s : State) : Res := writeReg who asid off v.toNat s

/-- R556: CSR_WRITE. -/
def execCsrWrite (who : Requester) (off : Nat) (v : Word) (s : State) : Res :=
  match who with
  | .mgmt _ _ _ => writeReg who 0 off v.toNat s
  | _ => .next (reply who cNP s)

/-- R25: a write of 1 to MIN_RELOAD. -/
def execMinReload (who : Requester) (s : State) : Res :=
  mgmtGate who .admin false (fun s => .next (reply who cOk (minReload s))) s

/-! ### Reads -/

/-- The registers of a run of reads, one after another. -/
def readRun (v : Via) : List Reg → State → State × List Byte
  | [], s => (s, [])
  | r :: rs, s =>
    let a := readReg v r s
    let b := readRun v rs a.1
    (b.1, toLE 8 a.2 ++ b.2)

/-- R542, R556, R646: CSR_READ. In RECOVERY it reaches the registers of Compass only. -/
def execCsrRead (who : Requester) (off count : Nat) (s : State) : Res :=
  mgmtGate who .read (decide (off + 8 * count ≤ 0x100000)) (fun s =>
    let rs := (List.range count).filterMap fun i => regAt (off + 8 * i)
    if count = 0 || 512 < count || rs.length != count then .next (reply who cBad s)
    else
      let a := readRun none rs s
      .next (reply who (cData a.2) a.1)) s

/-- R89, R644, R646: CSR_RD of an XCL port. -/
def execCsrRd (who : Requester) (off : Nat) (s : State) : Res :=
  match who with
  | .port p _ _ =>
    .next (if (port s p).mode != .xcl || !(port s p).priv then reply who cNP s
    else match regAt off with
    | none => reply who cBad s
    | some r => match readAns s (some p) r with
      | .forbidden => reply who cNP s
      | .zero => reply who (cVal 0) s
      | .value =>
        let a := readReg (some p) r s
        reply who (cVal a.2) a.1)
  | _ => .next (reply who cNP s)

end Sys2Proof.Machine
end

