-- ==== Sys2Proof/Machine/Dispatch.lean ====
section
/-!
DEFINITION. The meaning of every command.
-/
namespace Sys2Proof.Machine

def exec (i : Instr) (s : State) : Host.Outcome State Fault Refusal :=
  match i with
  | .porstNRelease pgCmp pgCore pgAux temp => Sys2Proof.Machine.execPorstNRelease pgCmp pgCore pgAux temp s
  | .porstNAssert => Sys2Proof.Machine.execPorstNAssert s
  | .pwrGoodHoldRelease => Sys2Proof.Machine.execPwrGoodHoldRelease s
  | .imageLoadDone hw => Sys2Proof.Machine.execImageLoadDone hw s
  | .initComplete => Sys2Proof.Machine.execInitComplete s
  | .initTimeout => Sys2Proof.Machine.execInitTimeout s
  | .warmRstN hw => Sys2Proof.Machine.execWarmRstN hw s
  | .powerLoss core aux => Sys2Proof.Machine.execPowerLoss core aux s
  | .thermalTrip sensor value => Sys2Proof.Machine.execThermalTrip sensor value s
  | .sensorSample sensor value => Sys2Proof.Machine.execSensorSample sensor value s
  | .compassWatchdogExpire => Sys2Proof.Machine.execCompassWatchdogExpire s
  | .optRefclkFail k => Sys2Proof.Machine.execOptRefclkFail k s
  | .optRefclkRestore k lag => Sys2Proof.Machine.execOptRefclkRestore k lag s
  | .pcieRefclkFail k cc => Sys2Proof.Machine.execPcieRefclkFail k cc s
  | .ptpMessageRx viaPort domain layer2 offset => Sys2Proof.Machine.execPtpMessageRx viaPort domain layer2 offset s
  | .ppsInEdge => Sys2Proof.Machine.execPpsInEdge s
  | .ppsOutRise => Sys2Proof.Machine.execPpsOutRise s
  | .ftCfgWrite who v => Sys2Proof.Machine.execFtCfgWrite who v s
  | .energyEpochEnd => Sys2Proof.Machine.execEnergyEpochEnd s
  | .energyPauseRefresh p => Sys2Proof.Machine.execEnergyPauseRefresh p s
  | .pmbusBudgetWrite v => Sys2Proof.Machine.execPmbusBudgetWrite v s
  | .logFlushPeriodic => Sys2Proof.Machine.execLogFlushPeriodic s
  | .csrRead who off count => Sys2Proof.Machine.execCsrRead who off count s
  | .csrWrite who off v => Sys2Proof.Machine.execCsrWrite who off v s
  | .logRead who q => Sys2Proof.Machine.execLogRead who q s
  | .logFlush who => Sys2Proof.Machine.execLogFlush who s
  | .sensorRead who ks => Sys2Proof.Machine.execSensorRead who ks s
  | .energyRead who => Sys2Proof.Machine.execEnergyRead who s
  | .budgetSet who w => Sys2Proof.Machine.execBudgetSet who w s
  | .shadowLoad who off len last img => Sys2Proof.Machine.execShadowLoad who off len last img s
  | .shadowFromNvm who slotB => Sys2Proof.Machine.execShadowFromNvm who slotB s
  | .swap who trig => Sys2Proof.Machine.execSwap who trig s
  | .swapCancel who => Sys2Proof.Machine.execSwapCancel who s
  | .swapTrigger => Sys2Proof.Machine.execSwapTrigger s
  | .updateBegin who slotB len => Sys2Proof.Machine.execUpdateBegin who slotB len s
  | .updateEraseDone => Sys2Proof.Machine.execUpdateEraseDone s
  | .updateData who off len => Sys2Proof.Machine.execUpdateData who off len s
  | .updateCommit who img => Sys2Proof.Machine.execUpdateCommit who img s
  | .rollbackAdvance who v => Sys2Proof.Machine.execRollbackAdvance who v s
  | .ownerSet who keyHash => Sys2Proof.Machine.execOwnerSet who keyHash s
  | .reboot who onlyB => Sys2Proof.Machine.execReboot who onlyB s
  | .blockReset who b => Sys2Proof.Machine.execBlockReset who b s
  | .blockFenceDrainEnd b => Sys2Proof.Machine.execBlockFenceDrainEnd b s
  | .blockFenceExit b => Sys2Proof.Machine.execBlockFenceExit b s
  | .blockWatchdogExpire b => Sys2Proof.Machine.execBlockWatchdogExpire b s
  | .retireClear who r => Sys2Proof.Machine.execRetireClear who r s
  | .laneRetire who p l => Sys2Proof.Machine.execLaneRetire who p l s
  | .groupFill who g src dst bytes => Sys2Proof.Machine.execGroupFill who g src dst bytes s
  | .groupZero who g => Sys2Proof.Machine.execGroupZero who g s
  | .epochClear who r => Sys2Proof.Machine.execEpochClear who r s
  | .debugChallenge who => Sys2Proof.Machine.execDebugChallenge who s
  | .debugUnlock who keyOk sigOk magicOk scope identity challenge => Sys2Proof.Machine.execDebugUnlock who keyOk sigOk magicOk scope identity challenge s
  | .spdmGetVersion who => Sys2Proof.Machine.execSpdmGetVersion who s
  | .spdmGetCapabilities who => Sys2Proof.Machine.execSpdmGetCapabilities who s
  | .spdmNegotiateAlgorithms who => Sys2Proof.Machine.execSpdmNegotiateAlgorithms who s
  | .spdmGetDigests who => Sys2Proof.Machine.execSpdmGetDigests who s
  | .spdmGetCertificate who slot off len => Sys2Proof.Machine.execSpdmGetCertificate who slot off len s
  | .spdmChallenge who slot nonce => Sys2Proof.Machine.execSpdmChallenge who slot nonce s
  | .spdmGetMeasurements who index nonce => Sys2Proof.Machine.execSpdmGetMeasurements who index nonce s
  | .mgmtSessionIdleClose k => Sys2Proof.Machine.execMgmtSessionIdleClose k s
  | .registerWrite who asid off v => Sys2Proof.Machine.execRegisterWrite who asid off v s
  | .csrRd who off => Sys2Proof.Machine.execCsrRd who off s
  | .minReload who => Sys2Proof.Machine.execMinReload who s
  | .stallCfgWrite who n v => Sys2Proof.Machine.execStallCfgWrite who n v s
  | .domCtlNone who n => Sys2Proof.Machine.execDomCtlNone who n s
  | .domHold who n => Sys2Proof.Machine.execDomHold who n s
  | .domRelease who n => Sys2Proof.Machine.execDomRelease who n s
  | .domRestart who n => Sys2Proof.Machine.execDomRestart who n s
  | .restartDone n => Sys2Proof.Machine.execRestartDone n s
  | .domRebase who n => Sys2Proof.Machine.execDomRebase who n s
  | .sourceAdd who n node => Sys2Proof.Machine.execSourceAdd who n node s
  | .sourceRemove who n node => Sys2Proof.Machine.execSourceRemove who n node s
  | .angleAdvance p node a => Sys2Proof.Machine.execAngleAdvance p node a s
  | .angleStallTimeout n => Sys2Proof.Machine.execAngleStallTimeout n s
  | .ftOccurrenceFire => Sys2Proof.Machine.execFtOccurrenceFire s
  | .scheduleActionDispatch n => Sys2Proof.Machine.execScheduleActionDispatch n s
  | .actionRepresent n => Sys2Proof.Machine.execActionRepresent n s
  | .syncRead who i1 gen => Sys2Proof.Machine.execSyncRead who i1 gen s
  | .syncAdd who i1 operand gen => Sys2Proof.Machine.execSyncAdd who i1 operand gen s
  | .arrive who i1 operand gen => Sys2Proof.Machine.execArrive who i1 operand gen s
  | .acquire who i1 operand gen tmo => Sys2Proof.Machine.execAcquire who i1 operand gen tmo s
  | .tryAcquire who i1 operand gen => Sys2Proof.Machine.execTryAcquire who i1 operand gen s
  | .syncRelease who i1 operand gen => Sys2Proof.Machine.execSyncRelease who i1 operand gen s
  | .waitGe who i1 operand gen tmo => Sys2Proof.Machine.execWaitGe who i1 operand gen tmo s
  | .waitEq who i1 operand gen tmo => Sys2Proof.Machine.execWaitEq who i1 operand gen tmo s
  | .waitGen who i1 operand gen tmo => Sys2Proof.Machine.execWaitGen who i1 operand gen tmo s
  | .syncSet who i1 operand gen => Sys2Proof.Machine.execSyncSet who i1 operand gen s
  | .syncWaitTimeout i1 => Sys2Proof.Machine.execSyncWaitTimeout i1 s
  | .sequencerStart who m entry asid dbase => Sys2Proof.Machine.execSequencerStart who m entry asid dbase s
  | .blockCmdPresent b q => Sys2Proof.Machine.execBlockCmdPresent b q s
  | .halt m => Sys2Proof.Machine.execHalt m s
  | .dfetch m => Sys2Proof.Machine.execDfetch m s
  | .dfetchDataReturn m => Sys2Proof.Machine.execDfetchDataReturn m s
  | .loop m => Sys2Proof.Machine.execLoop m s
  | .waitsync m => Sys2Proof.Machine.execWaitsync m s
  | .waitang m => Sys2Proof.Machine.execWaitang m s
  | .seqWaitTimeout m => Sys2Proof.Machine.execSeqWaitTimeout m s
  | .issue m => Sys2Proof.Machine.execIssue m s
  | .issueComplete m slot => Sys2Proof.Machine.execIssueComplete m slot s
  | .signal m => Sys2Proof.Machine.execSignal m s
  | .brst m => Sys2Proof.Machine.execBrst m s
  | .packetAdmit p => Sys2Proof.Machine.execPacketAdmit p s
  | .attachmentHoldRelease a => Sys2Proof.Machine.execAttachmentHoldRelease a s
  | .redHoldRelease a => Sys2Proof.Machine.execRedHoldRelease a s
  | .outputDequeue o => Sys2Proof.Machine.execOutputDequeue o s
  | .starvationPromote b u n k => Sys2Proof.Machine.execStarvationPromote b u n k s
  | .pauseFrameRx p time => Sys2Proof.Machine.execPauseFrameRx p time s
  | .pfcFrameRx p mask times => Sys2Proof.Machine.execPfcFrameRx p mask times s
  | .pauseExpire p k => Sys2Proof.Machine.execPauseExpire p k s
  | .fcRefresh p prio => Sys2Proof.Machine.execFcRefresh p prio s
  | .freeze who n => Sys2Proof.Machine.execFreeze who n s
  | .thaw who n => Sys2Proof.Machine.execThaw who n s
  | .monClear who n => Sys2Proof.Machine.execMonClear who n s
  | .memRd who asid va len phys cls => Sys2Proof.Machine.execMemRd who asid va len phys cls s
  | .memWr who asid va data phys mark cls => Sys2Proof.Machine.execMemWr who asid va data phys mark cls s
  | .wrPosted who asid va data phys mark cls => Sys2Proof.Machine.execWrPosted who asid va data phys mark cls s
  | .xlReq who asid va => Sys2Proof.Machine.execXlReq who asid va s
  | .memoryAccessComplete a o ext => Sys2Proof.Machine.execMemoryAccessComplete a o ext s
  | .forwardTimeout => Sys2Proof.Machine.execForwardTimeout s
  | .staleReplyDrop b gen => Sys2Proof.Machine.execStaleReplyDrop b gen s
  | .missQueueServe => Sys2Proof.Machine.execMissQueueServe s
  | .walkReadComplete id => Sys2Proof.Machine.execWalkReadComplete id s
  | .walkReadRepresent id => Sys2Proof.Machine.execWalkReadRepresent id s
  | .walkTimeout id => Sys2Proof.Machine.execWalkTimeout id s
  | .fqHeadRelease who n h => Sys2Proof.Machine.execFqHeadRelease who n h s
  | .segLoad n => Sys2Proof.Machine.execSegLoad n s
  | .invRange n => Sys2Proof.Machine.execInvRange n s
  | .invContext n => Sys2Proof.Machine.execInvContext n s
  | .ctxEnable n => Sys2Proof.Machine.execCtxEnable n s
  | .xlInvAck node ctx => Sys2Proof.Machine.execXlInvAck node ctx s
  | .xlInvTimeout n node => Sys2Proof.Machine.execXlInvTimeout n node s
  | .locSyncComplete n => Sys2Proof.Machine.execLocSyncComplete n s
  | .hint q => Sys2Proof.Machine.execHint q s
  | .prefetch q => Sys2Proof.Machine.execPrefetch q s
  | .plnRelease q => Sys2Proof.Machine.execPlnRelease q s
  | .discard q => Sys2Proof.Machine.execDiscard q s
  | .migrationCopyDone p => Sys2Proof.Machine.execMigrationCopyDone p s
  | .frameRetire tier n => Sys2Proof.Machine.execFrameRetire tier n s
  | .channelEvacuate c => Sys2Proof.Machine.execChannelEvacuate c s
  | .ddrTrainingLoss c => Sys2Proof.Machine.execDdrTrainingLoss c s
  | .trayHeadLinkDown t => Sys2Proof.Machine.execTrayHeadLinkDown t s
  | .trayHeadRetire t => Sys2Proof.Machine.execTrayHeadRetire t s
  | .cxlEventRecord t media uncorrectable => Sys2Proof.Machine.execCxlEventRecord t media uncorrectable s
  | .trayEvacuate t => Sys2Proof.Machine.execTrayEvacuate t s
  | .objectRetired tray n => Sys2Proof.Machine.execObjectRetired tray n s
  | .trayLaneSpare t lane => Sys2Proof.Machine.execTrayLaneSpare t lane s
  | .rdShared r => Sys2Proof.Machine.execRdShared r s
  | .rdOwn r => Sys2Proof.Machine.execRdOwn r s
  | .upgrade r => Sys2Proof.Machine.execUpgrade r s
  | .rdCur r => Sys2Proof.Machine.execRdCur r s
  | .wrLine r data => Sys2Proof.Machine.execWrLine r data s
  | .wrPart r mask data => Sys2Proof.Machine.execWrPart r mask data s
  | .atomic r op ty operand compare => Sys2Proof.Machine.execAtomic r op ty operand compare s
  | .lineQueueStart l => Sys2Proof.Machine.execLineQueueStart l s
  | .combineWindowClose l => Sys2Proof.Machine.execCombineWindowClose l s
  | .atomicWindowClose l => Sys2Proof.Machine.execAtomicWindowClose l s
  | .wbDirty agent line gen data => Sys2Proof.Machine.execWbDirty agent line gen data s
  | .wbClean agent line gen => Sys2Proof.Machine.execWbClean agent line gen s
  | .rspI agent line gen => Sys2Proof.Machine.execRspI agent line gen s
  | .rspS agent line gen => Sys2Proof.Machine.execRspS agent line gen s
  | .rspKeep agent line gen => Sys2Proof.Machine.execRspKeep agent line gen s
  | .rspDataI agent line gen data => Sys2Proof.Machine.execRspDataI agent line gen data s
  | .rspDataS agent line gen data => Sys2Proof.Machine.execRspDataS agent line gen data s
  | .rspDataKeep agent line gen data => Sys2Proof.Machine.execRspDataKeep agent line gen data s
  | .rspFwdI agent line gen => Sys2Proof.Machine.execRspFwdI agent line gen s
  | .rspFwdS agent line gen => Sys2Proof.Machine.execRspFwdS agent line gen s
  | .rspFwdSData agent line gen data => Sys2Proof.Machine.execRspFwdSData agent line gen data s
  | .rspWb agent line gen => Sys2Proof.Machine.execRspWb agent line gen s
  | .cohDownAck p => Sys2Proof.Machine.execCohDownAck p s
  | .snoopTimeout l => Sys2Proof.Machine.execSnoopTimeout l s
  | .cohMemoryTimeout l => Sys2Proof.Machine.execCohMemoryTimeout l s
  | .partnerDomainDown => Sys2Proof.Machine.execPartnerDomainDown s
  | .directoryWalkDone => Sys2Proof.Machine.execDirectoryWalkDone s
  | .cohDomainUp partnerDone => Sys2Proof.Machine.execCohDomainUp partnerDone s
  | .portExclude p => Sys2Proof.Machine.execPortExclude p s
  | .portExclClear who k v => Sys2Proof.Machine.execPortExclClear who k v s
  | .forceDown who => Sys2Proof.Machine.execForceDown who s
  | .vtxFlush q => Sys2Proof.Machine.execVtxFlush q s
  | .downgrade q => Sys2Proof.Machine.execDowngrade q s
  | .reduce e => Sys2Proof.Machine.execReduce e s
  | .reduceScatter e => Sys2Proof.Machine.execReduceScatter e s
  | .gather e => Sys2Proof.Machine.execGather e s
  | .scatter e => Sys2Proof.Machine.execScatter e s
  | .indexGather e => Sys2Proof.Machine.execIndexGather e s
  | .instanceAdmit e => Sys2Proof.Machine.execInstanceAdmit e s
  | .readyWaitTimeout e tag => Sys2Proof.Machine.execReadyWaitTimeout e tag s
  | .chunkReadComplete e tag ext => Sys2Proof.Machine.execChunkReadComplete e tag ext s
  | .operandReadTimeout e tag => Sys2Proof.Machine.execOperandReadTimeout e tag s
  | .collContrib who hdr data => Sys2Proof.Machine.execCollContrib who hdr data s
  | .collectiveComplete e tag => Sys2Proof.Machine.execCollectiveComplete e tag s
  | .hierPartial e hdr data => Sys2Proof.Machine.execHierPartial e hdr data s
  | .hierResult e hdr data => Sys2Proof.Machine.execHierResult e hdr data s
  | .hierAbort e hdr => Sys2Proof.Machine.execHierAbort e hdr s
  | .hierTimeout e tag => Sys2Proof.Machine.execHierTimeout e tag s
  | .earlyRecordDiscard e => Sys2Proof.Machine.execEarlyRecordDiscard e s
  | .query e => Sys2Proof.Machine.execQuery e s
  | .batch e => Sys2Proof.Machine.execBatch e s
  | .sliceAdmit e => Sys2Proof.Machine.execSliceAdmit e s
  | .tileReadComplete id i1 ext => Sys2Proof.Machine.execTileReadComplete id i1 ext s
  | .coneReadTimeout id => Sys2Proof.Machine.execConeReadTimeout id s
  | .sliceResultArrive id i1 => Sys2Proof.Machine.execSliceResultArrive id i1 s
  | .queryComplete id => Sys2Proof.Machine.execQueryComplete id s
  | .orbOpen q => Sys2Proof.Machine.execOrbOpen q s
  | .orbAppend q ext => Sys2Proof.Machine.execOrbAppend q ext s
  | .toolResult q ext => Sys2Proof.Machine.execToolResult q ext s
  | .park q => Sys2Proof.Machine.execPark q s
  | .parkDetach n => Sys2Proof.Machine.execParkDetach n s
  | .move q => Sys2Proof.Machine.execMove q s
  | .moveDone n => Sys2Proof.Machine.execMoveDone n s
  | .coldMoveProceed n => Sys2Proof.Machine.execColdMoveProceed n s
  | .revive q => Sys2Proof.Machine.execRevive q s
  | .reviveDone n => Sys2Proof.Machine.execReviveDone n s
  | .orbClose q => Sys2Proof.Machine.execOrbClose q s
  | .closeRelease n => Sys2Proof.Machine.execCloseRelease n s
  | .orbDescribe q => Sys2Proof.Machine.execOrbDescribe q s
  | .orbLogRead q => Sys2Proof.Machine.execOrbLogRead q s
  | .demotion n => Sys2Proof.Machine.execDemotion n s
  | .apxOpen q => Sys2Proof.Machine.execApxOpen q s
  | .apxSet q => Sys2Proof.Machine.execApxSet q s
  | .apxClose q => Sys2Proof.Machine.execApxClose q s
  | .apxDescribe q => Sys2Proof.Machine.execApxDescribe q s
  | .sampleContrib who hdr data => Sys2Proof.Machine.execSampleContrib who hdr data s
  | .sampleServe u => Sys2Proof.Machine.execSampleServe u s
  | .sampleAppendComplete i1 => Sys2Proof.Machine.execSampleAppendComplete i1 s
  | .sampleTimeout i1 => Sys2Proof.Machine.execSampleTimeout i1 s
  | .ringEndWrite i1 => Sys2Proof.Machine.execRingEndWrite i1 s
  | .openIndex e => Sys2Proof.Machine.execOpenIndex e s
  | .closeIndex e => Sys2Proof.Machine.execCloseIndex e s
  | .search e => Sys2Proof.Machine.execSearch e s
  | .searchRoundDone id => Sys2Proof.Machine.execSearchRoundDone id s
  | .cenAppend e => Sys2Proof.Machine.execCenAppend e s
  | .cenDelete e => Sys2Proof.Machine.execCenDelete e s
  | .merge e => Sys2Proof.Machine.execMerge e s
  | .mergeCommit i1 => Sys2Proof.Machine.execMergeCommit i1 s
  | .mergeMarkRemove i1 => Sys2Proof.Machine.execMergeMarkRemove i1 s
  | .flitGroupRx p g => Sys2Proof.Machine.execFlitGroupRx p g s
  | .replayTimeout p => Sys2Proof.Machine.execReplayTimeout p s
  | .rekeyStart p => Sys2Proof.Machine.execRekeyStart p s
  | .portStopped p => Sys2Proof.Machine.execPortStopped p s
  | .hello p version role spare => Sys2Proof.Machine.execHello p version role spare s
  | .credit p part units => Sys2Proof.Machine.execCredit p part units s
  | .linkPause p mask time => Sys2Proof.Machine.execLinkPause p mask time s
  | .rekey p e => Sys2Proof.Machine.execRekey p e s
  | .rekeyResend p => Sys2Proof.Machine.execRekeyResend p s
  | .rekeyAck p e => Sys2Proof.Machine.execRekeyAck p e s
  | .epochCommitDone ok okAgain => Sys2Proof.Machine.execEpochCommitDone ok okAgain s
  | .laneReqShadow p pos => Sys2Proof.Machine.execLaneReqShadow p pos s
  | .laneReqRelease p pos => Sys2Proof.Machine.execLaneReqRelease p pos s
  | .laneReqRetire p pos => Sys2Proof.Machine.execLaneReqRetire p pos s
  | .laneReqDegrade p m => Sys2Proof.Machine.execLaneReqDegrade p m s
  | .laneAck p action pos => Sys2Proof.Machine.execLaneAck p action pos s
  | .linkStepTimeout p => Sys2Proof.Machine.execLinkStepTimeout p s
  | .bringupBackoffEnd p => Sys2Proof.Machine.execBringupBackoffEnd p s
  | .portDown p => Sys2Proof.Machine.execPortDown p s
  | .laneLossOfLock p l => Sys2Proof.Machine.execLaneLossOfLock p l s
  | .laneRetireTrigger p l ser => Sys2Proof.Machine.execLaneRetireTrigger p l ser s
  | .calShadowReady p => Sys2Proof.Machine.execCalShadowReady p s
  | .calTuneEnd p => Sys2Proof.Machine.execCalTuneEnd p s
  | .calVerifyEnd p pass => Sys2Proof.Machine.execCalVerifyEnd p pass s
  | .pairLinkLost => Sys2Proof.Machine.execPairLinkLost s
  | .pairLinkRecover => Sys2Proof.Machine.execPairLinkRecover s
  | .mirrorUpdate seq m contents => Sys2Proof.Machine.execMirrorUpdate seq m contents s
  | .mirrorAck id => Sys2Proof.Machine.execMirrorAck id s
  | .ethFrameRx p mac vlan data => Sys2Proof.Machine.execEthFrameRx p mac vlan data s
  | .ethFrameFromXcl p sclass mac vlan data => Sys2Proof.Machine.execEthFrameFromXcl p sclass mac vlan data s
  | .roceRdmaReadRx q psn off len rkey ce ext => Sys2Proof.Machine.execRoceRdmaReadRx q psn off len rkey ce ext s
  | .roceRdmaWriteRx q psn off rkey data ce => Sys2Proof.Machine.execRoceRdmaWriteRx q psn off rkey data ce s
  | .roceSendRx q psn blk queue words ce => Sys2Proof.Machine.execRoceSendRx q psn blk queue words ce s
  | .roceAckRx q psn nak => Sys2Proof.Machine.execRoceAckRx q psn nak s
  | .roceAckTimeout q => Sys2Proof.Machine.execRoceAckTimeout q s
  | .roceCnpRx q => Sys2Proof.Machine.execRoceCnpRx q s
  | .roceRateIncrease q => Sys2Proof.Machine.execRoceRateIncrease q s
  | .engCmd who sclass asid blk queue words => Sys2Proof.Machine.execEngCmd who sclass asid blk queue words s
  | .poolFound => Sys2Proof.Machine.execPoolFound s
  | .poolFoundTimeout => Sys2Proof.Machine.execPoolFoundTimeout s
  | .poolJoin m => Sys2Proof.Machine.execPoolJoin m s
  | .scrub who n ddr force => Sys2Proof.Machine.execScrub who n ddr force s
  | .scrubComplete => Sys2Proof.Machine.execScrubComplete s
  | .scrubEscalate => Sys2Proof.Machine.execScrubEscalate s
  | .zeroise who => Sys2Proof.Machine.execZeroise who s
  | .attestReport who asid addr busy => Sys2Proof.Machine.execAttestReport who asid addr busy s
  | .pairAliveInChange level => Sys2Proof.Machine.execPairAliveInChange level s
  | .aliveDebounceExpire => Sys2Proof.Machine.execAliveDebounceExpire s
  | .aliveMismatch => Sys2Proof.Machine.execAliveMismatch s
  | .declare who v => Sys2Proof.Machine.execDeclare who v s
  | .yield => Sys2Proof.Machine.execYield s
  | .takeoverComplete contents => Sys2Proof.Machine.execTakeoverComplete contents s
  | .handbackComplete n => Sys2Proof.Machine.execHandbackComplete n s
  | .partitionAdmit n written => Sys2Proof.Machine.execPartitionAdmit n written s
  | .laserEnable who m en => Sys2Proof.Machine.execLaserEnable who m en s
  | .laserModuleRemoved m => Sys2Proof.Machine.execLaserModuleRemoved m s
  | .linkAligned p => Sys2Proof.Machine.execLinkAligned p s
  | .trayLinkUp t width cap => Sys2Proof.Machine.execTrayLinkUp t width cap s
  | .pcieRefclkRestore k => Sys2Proof.Machine.execPcieRefclkRestore k s
  | .islandPowerLoss => Sys2Proof.Machine.execIslandPowerLoss s
  | .engineAccessRepresent a => Sys2Proof.Machine.execEngineAccessRepresent a s
  | .engineAccessTimeout o => Sys2Proof.Machine.execEngineAccessTimeout o s

end Sys2Proof.Machine
end

