-- ==== Sys2Proof/Machine/Step.lean ====
section
/-!
DEFINITION. A step of the switch: the command at the front of the queue, or a nanosecond of fabric time.
-/
namespace Sys2Proof.Machine

/-- The command at the front of the queue is taken and carried out. With nothing waiting a nanosecond passes (DESIGN CHOICE,
entry 2). -/
def step (s : State) : Host.Outcome State Fault Refusal :=
  match s.pending with
  | [] => .next (tick s)
  | c :: rest => exec c { s with pending := rest }

/-- The state with the command that a word spells at the front of its queue; unchanged where it spells none. -/
def State.withFetchWord (s : State) (nbits w : Nat) : State :=
  match Sys2Proof.decodeTableWord nbits w with
  | some c => { s with pending := c :: s.pending }
  | none => s

end Sys2Proof.Machine
end

