-- ==== Sys2Proof/WellFormed.lean ====
section
/-!
DEFINITION. Which commands are well formed: every operand within the range that its field or its kind of object has.
-/
namespace Sys2Proof

/-- A partition, a domain, a group region, a Centroid engine or a 4-bit generation. -/
def okPart (n : Nat) : Bool := decide (n < 16)
/-- A port, the pair ports among them (R450). -/
def okPort (p : Nat) : Bool := decide (p < 264)
/-- A port that is not a pair port. -/
def okFacePort (p : Nat) : Bool := decide (p < 256)
/-- R86: a node number. -/
def okNode (n : Nat) : Bool := decide (n < 4096)
/-- R92: an ASID. -/
def okAsid (n : Nat) : Bool := decide (n < 4096)
/-- A 64-bit address or operand. -/
def okWord (v : Nat) : Bool := decide (v < 2 ^ 64)
/-- A 32-bit number. -/
def okInt (v : Nat) : Bool := decide (v < 2 ^ 32)
/-- A 16-bit number: a synchronisation object, a sensor, an instance's tag. -/
def okHalf (v : Nat) : Bool := decide (v < 65536)
/-- R556: up to 256 sensors of 16 bits. -/
def okHalves (l : List Nat) : Bool := decide (l.length ≤ 256) && l.all okHalf
/-- An offset within node 0xFFF (R86). -/
def okOff (v : Nat) : Bool := decide (v < 2 ^ 52)
/-- R4: an Angle. -/
def okAngle (a : Nat) : Bool := decide (a < 2 ^ 48)
/-- R70: a timeout code. -/
def okTmo (t : Nat) : Bool := decide (t < 32)
/-- R77: a sequencer. -/
def okSeq (m : Nat) : Bool := decide (m < 132)
/-- R20: an attachment of Lattice. -/
def okAttach (a : Nat) : Bool := decide (a < 405)
/-- R115: a fault entry. -/
def okFault (h : Nat) : Bool := decide (h < 4096)
/-- A queue of Plane, Vertex or Apex, or a sampling unit (R77). -/
def okQueue4 (q : Nat) : Bool := decide (q < 4)
/-- A queue of Orbit (R77). -/
def okQueue8 (q : Nat) : Bool := decide (q < 8)
/-- R126: a DDR5 channel. -/
def okChan (c : Nat) : Bool := decide (c < 12)
/-- R126: a tray port. -/
def okTray (t : Nat) : Bool := decide (t < 32)
def okTrays (l : List Nat) : Bool := l.all okTray
/-- R158: an agent. -/
def okAgent (a : Nat) : Bool := decide (a < 1024)
/-- R159: the data of a line. -/
def okLine (d : List Byte) : Bool := decide (d.length = 128)
/-- R192: a register of exclusions. -/
def okExcl (k : Nat) : Bool := decide (k < 4)
/-- R218: a Chord engine. -/
def okChord (e : Nat) : Bool := decide (e < 32)
/-- R254: a Cone engine. -/
def okCone (e : Nat) : Bool := decide (e < 64)
/-- R291: a session number. -/
def okSess (n : Nat) : Bool := decide (n < 2 ^ 24)
/-- R347: a request context. -/
def okReq (i : Nat) : Bool := decide (i < 32768)
/-- R382: an index context. -/
def okIndex (i : Nat) : Bool := decide (i < 2048)
/-- R484: a queue pair. -/
def okQp (q : Nat) : Bool := decide (q < 4096)
/-- R483: a packet sequence number. -/
def okPsn (n : Nat) : Bool := decide (n < 2 ^ 24)
/-- R452: a laser module. -/
def okLaser (m : Nat) : Bool := decide (m < 22)
/-- R323: a service class code. -/
def okClass (c : Nat) : Bool := decide (c < 8)
/-- R514: a peer record of the epoch store. -/
def okRecord (r : Nat) : Bool := decide (r < 512)
/-- One of two reference clocks. -/
def okPairBit (k : Nat) : Bool := decide (k < 2)
/-- The words of a command descriptor, 64 bits each. -/
def okDesc (l : List Nat) : Bool := decide (l.length ≤ 512) && l.all okWord
/-- Who asks: a session of the management network (R553), a port and a node of it, or another part of the pair. -/
def okWho : Requester → Bool
  | .mgmt k tag roles => decide (k < 6) && okInt tag && okPart roles
  | .port p node tag => okFacePort p && okNode node && okInt tag
  | _ => true
/-- A coherent request. -/
def okCoh (r : CohReq) : Bool := okWho r.who && okAsid r.asid && okWord r.va

/-- Every operand is in range. -/
def Instr.wf : Instr → Bool
  | .porstNRelease _ _ _ _ => true
  | .porstNAssert => true
  | .pwrGoodHoldRelease => true
  | .imageLoadDone _ => true
  | .initComplete => true
  | .initTimeout => true
  | .warmRstN _ => true
  | .powerLoss _ _ => true
  | .thermalTrip sensor _ => okHalf sensor
  | .sensorSample sensor _ => okHalf sensor
  | .compassWatchdogExpire => true
  | .optRefclkFail k => okPairBit k
  | .optRefclkRestore k _ => okPairBit k
  | .pcieRefclkFail k cc => okPairBit k && okTrays cc
  | .ptpMessageRx _ _ _ _ => true
  | .ppsInEdge => true
  | .ppsOutRise => true
  | .ftCfgWrite who v => okWho who && okWord v
  | .energyEpochEnd => true
  | .energyPauseRefresh p => okFacePort p
  | .pmbusBudgetWrite v => okHalf v
  | .logFlushPeriodic => true
  | .csrRead who off _ => okWho who && okOff off
  | .csrWrite who off _ => okWho who && okOff off
  | .logRead who q => okWho who && okInt q
  | .logFlush who => okWho who
  | .sensorRead who ks => okWho who && okHalves ks
  | .energyRead who => okWho who
  | .budgetSet who _ => okWho who
  | .shadowLoad who _ _ _ _ => okWho who
  | .shadowFromNvm who _ => okWho who
  | .swap who _ => okWho who
  | .swapCancel who => okWho who
  | .swapTrigger => true
  | .updateBegin who _ _ => okWho who
  | .updateEraseDone => true
  | .updateData who _ _ => okWho who
  | .updateCommit who _ => okWho who
  | .rollbackAdvance who _ => okWho who
  | .ownerSet who _ => okWho who
  | .reboot who _ => okWho who
  | .blockReset who _ => okWho who
  | .blockFenceDrainEnd _ => true
  | .blockFenceExit _ => true
  | .blockWatchdogExpire _ => true
  | .retireClear who _ => okWho who
  | .laneRetire who p _ => okWho who && okPort p
  | .groupFill who g _ _ _ => okWho who && okPart g
  | .groupZero who g => okWho who && okPart g
  | .epochClear who r => okWho who && okRecord r
  | .debugChallenge who => okWho who
  | .debugUnlock who _ _ _ _ _ _ => okWho who
  | .spdmGetVersion who => okWho who
  | .spdmGetCapabilities who => okWho who
  | .spdmNegotiateAlgorithms who => okWho who
  | .spdmGetDigests who => okWho who
  | .spdmGetCertificate who _ _ _ => okWho who
  | .spdmChallenge who _ _ => okWho who
  | .spdmGetMeasurements who _ _ => okWho who
  | .mgmtSessionIdleClose _ => true
  | .registerWrite who asid off _ => okWho who && okAsid asid && okOff off
  | .csrRd who off => okWho who && okOff off
  | .minReload who => okWho who
  | .stallCfgWrite who n v => okWho who && okPart n && okWord v
  | .domCtlNone who n => okWho who && okPart n
  | .domHold who n => okWho who && okPart n
  | .domRelease who n => okWho who && okPart n
  | .domRestart who n => okWho who && okPart n
  | .restartDone n => okPart n
  | .domRebase who n => okWho who && okPart n
  | .sourceAdd who n node => okWho who && okPart n && okNode node
  | .sourceRemove who n node => okWho who && okPart n && okNode node
  | .angleAdvance p node a => okFacePort p && okNode node && okAngle a
  | .angleStallTimeout n => okPart n
  | .ftOccurrenceFire => true
  | .scheduleActionDispatch n => okPart n
  | .actionRepresent n => okPart n
  | .syncRead who i _ => okWho who && okHalf i
  | .syncAdd who i operand _ => okWho who && okHalf i && okWord operand
  | .arrive who i operand _ => okWho who && okHalf i && okWord operand
  | .acquire who i operand _ tmo => okWho who && okHalf i && okWord operand && okTmo tmo
  | .tryAcquire who i operand _ => okWho who && okHalf i && okWord operand
  | .syncRelease who i operand _ => okWho who && okHalf i && okWord operand
  | .waitGe who i operand _ tmo => okWho who && okHalf i && okWord operand && okTmo tmo
  | .waitEq who i operand _ tmo => okWho who && okHalf i && okWord operand && okTmo tmo
  | .waitGen who i operand _ tmo => okWho who && okHalf i && okWord operand && okTmo tmo
  | .syncSet who i operand _ => okWho who && okHalf i && okWord operand
  | .syncWaitTimeout i => okHalf i
  | .sequencerStart who m _ asid _ => okWho who && okSeq m && okAsid asid
  | .blockCmdPresent _ _ => true
  | .halt m => okSeq m
  | .dfetch m => okSeq m
  | .dfetchDataReturn m => okSeq m
  | .loop m => okSeq m
  | .waitsync m => okSeq m
  | .waitang m => okSeq m
  | .seqWaitTimeout m => okSeq m
  | .issue m => okSeq m
  | .issueComplete m _ => okSeq m
  | .signal m => okSeq m
  | .brst m => okSeq m
  | .packetAdmit _ => true
  | .attachmentHoldRelease a => okAttach a
  | .redHoldRelease a => okAttach a
  | .outputDequeue o => okAttach o
  | .starvationPromote _ _ _ _ => true
  | .pauseFrameRx p _ => okFacePort p
  | .pfcFrameRx p _ _ => okFacePort p
  | .pauseExpire p _ => okFacePort p
  | .fcRefresh p _ => okFacePort p
  | .freeze who n => okWho who && okPart n
  | .thaw who n => okWho who && okPart n
  | .monClear who n => okWho who && okPart n
  | .memRd who asid va _ _ _ => okWho who && okAsid asid && okWord va
  | .memWr who asid va _ _ _ _ => okWho who && okAsid asid && okWord va
  | .wrPosted who asid va _ _ _ _ => okWho who && okAsid asid && okWord va
  | .xlReq who asid va => okWho who && okAsid asid && okWord va
  | .memoryAccessComplete _ _ _ => true
  | .forwardTimeout => true
  | .staleReplyDrop _ _ => true
  | .missQueueServe => true
  | .walkReadComplete _ => true
  | .walkReadRepresent _ => true
  | .walkTimeout _ => true
  | .fqHeadRelease who n h => okWho who && okPart n && okFault h
  | .segLoad n => okPart n
  | .invRange n => okPart n
  | .invContext n => okPart n
  | .ctxEnable n => okPart n
  | .xlInvAck node _ => okNode node
  | .xlInvTimeout n node => okPart n && okNode node
  | .locSyncComplete n => okPart n
  | .hint q => okQueue4 q
  | .prefetch q => okQueue4 q
  | .plnRelease q => okQueue4 q
  | .discard q => okQueue4 q
  | .migrationCopyDone _ => true
  | .frameRetire _ _ => true
  | .channelEvacuate c => okChan c
  | .ddrTrainingLoss c => okChan c
  | .trayHeadLinkDown t => okTray t
  | .trayHeadRetire t => okTray t
  | .cxlEventRecord t _ _ => okTray t
  | .trayEvacuate t => okTray t
  | .objectRetired _ _ => true
  | .trayLaneSpare t _ => okTray t
  | .rdShared r => okCoh r
  | .rdOwn r => okCoh r
  | .upgrade r => okCoh r
  | .rdCur r => okCoh r
  | .wrLine r data => okCoh r && okLine data
  | .wrPart r _ data => okCoh r && okLine data
  | .atomic r _ _ _ _ => okCoh r
  | .lineQueueStart _ => true
  | .combineWindowClose _ => true
  | .atomicWindowClose _ => true
  | .wbDirty agent _ gen data => okAgent agent && okPart gen && okLine data
  | .wbClean agent _ gen => okAgent agent && okPart gen
  | .rspI agent _ gen => okAgent agent && okPart gen
  | .rspS agent _ gen => okAgent agent && okPart gen
  | .rspKeep agent _ gen => okAgent agent && okPart gen
  | .rspDataI agent _ gen data => okAgent agent && okPart gen && okLine data
  | .rspDataS agent _ gen data => okAgent agent && okPart gen && okLine data
  | .rspDataKeep agent _ gen data => okAgent agent && okPart gen && okLine data
  | .rspFwdI agent _ gen => okAgent agent && okPart gen
  | .rspFwdS agent _ gen => okAgent agent && okPart gen
  | .rspFwdSData agent _ gen data => okAgent agent && okPart gen && okLine data
  | .rspWb agent _ gen => okAgent agent && okPart gen
  | .cohDownAck p => okFacePort p
  | .snoopTimeout _ => true
  | .cohMemoryTimeout _ => true
  | .partnerDomainDown => true
  | .directoryWalkDone => true
  | .cohDomainUp _ => true
  | .portExclude p => okFacePort p
  | .portExclClear who k _ => okWho who && okExcl k
  | .forceDown who => okWho who
  | .vtxFlush q => okQueue4 q
  | .downgrade q => okQueue4 q
  | .reduce e => okChord e
  | .reduceScatter e => okChord e
  | .gather e => okChord e
  | .scatter e => okChord e
  | .indexGather e => okChord e
  | .instanceAdmit e => okChord e
  | .readyWaitTimeout e tag => okChord e && okHalf tag
  | .chunkReadComplete e tag _ => okChord e && okHalf tag
  | .operandReadTimeout e tag => okChord e && okHalf tag
  | .collContrib who _ _ => okWho who
  | .collectiveComplete e tag => okChord e && okHalf tag
  | .hierPartial e _ _ => okChord e
  | .hierResult e _ _ => okChord e
  | .hierAbort e _ => okChord e
  | .hierTimeout e tag => okChord e && okHalf tag
  | .earlyRecordDiscard e => okChord e
  | .query e => okCone e
  | .batch e => okCone e
  | .sliceAdmit e => okCone e
  | .tileReadComplete _ _ _ => true
  | .coneReadTimeout _ => true
  | .sliceResultArrive _ _ => true
  | .queryComplete _ => true
  | .orbOpen q => okQueue8 q
  | .orbAppend q _ => okQueue8 q
  | .toolResult q _ => okQueue8 q
  | .park q => okQueue8 q
  | .parkDetach n => okSess n
  | .move q => okQueue8 q
  | .moveDone n => okSess n
  | .coldMoveProceed n => okSess n
  | .revive q => okQueue8 q
  | .reviveDone n => okSess n
  | .orbClose q => okQueue8 q
  | .closeRelease n => okSess n
  | .orbDescribe q => okQueue8 q
  | .orbLogRead q => okQueue8 q
  | .demotion n => okSess n
  | .apxOpen q => okQueue4 q
  | .apxSet q => okQueue4 q
  | .apxClose q => okQueue4 q
  | .apxDescribe q => okQueue4 q
  | .sampleContrib who _ _ => okWho who
  | .sampleServe u => okQueue4 u
  | .sampleAppendComplete i => okReq i
  | .sampleTimeout i => okReq i
  | .ringEndWrite i => okReq i
  | .openIndex e => okPart e
  | .closeIndex e => okPart e
  | .search e => okPart e
  | .searchRoundDone _ => true
  | .cenAppend e => okPart e
  | .cenDelete e => okPart e
  | .merge e => okPart e
  | .mergeCommit i => okIndex i
  | .mergeMarkRemove i => okIndex i
  | .flitGroupRx p _ => okPort p
  | .replayTimeout p => okPort p
  | .rekeyStart p => okPort p
  | .portStopped p => okPort p
  | .hello p _ _ _ => okPort p
  | .credit p _ _ => okPort p
  | .linkPause p _ _ => okPort p
  | .rekey p e => okPort p && okInt e
  | .rekeyResend p => okPort p
  | .rekeyAck p e => okPort p && okInt e
  | .epochCommitDone _ _ => true
  | .laneReqShadow p _ => okPort p
  | .laneReqRelease p _ => okPort p
  | .laneReqRetire p _ => okPort p
  | .laneReqDegrade p _ => okPort p
  | .laneAck p _ _ => okPort p
  | .linkStepTimeout p => okPort p
  | .bringupBackoffEnd p => okPort p
  | .portDown p => okPort p
  | .laneLossOfLock p _ => okPort p
  | .laneRetireTrigger p _ _ => okPort p
  | .calShadowReady p => okPort p
  | .calTuneEnd p => okPort p
  | .calVerifyEnd p _ => okPort p
  | .pairLinkLost => true
  | .pairLinkRecover => true
  | .mirrorUpdate _ _ _ => true
  | .mirrorAck _ => true
  | .ethFrameRx p _ _ _ => okFacePort p
  | .ethFrameFromXcl p sclass _ _ _ => okFacePort p && okClass sclass
  | .roceRdmaReadRx q psn _ _ _ _ _ => okQp q && okPsn psn
  | .roceRdmaWriteRx q psn _ _ _ _ => okQp q && okPsn psn
  | .roceSendRx q psn _ _ words _ => okQp q && okPsn psn && okDesc words
  | .roceAckRx q psn _ => okQp q && okPsn psn
  | .roceAckTimeout q => okQp q
  | .roceCnpRx q => okQp q
  | .roceRateIncrease q => okQp q
  | .engCmd who sclass asid _ _ words => okWho who && okClass sclass && okAsid asid && okDesc words
  | .poolFound => true
  | .poolFoundTimeout => true
  | .poolJoin _ => true
  | .scrub who n _ _ => okWho who && okPart n
  | .scrubComplete => true
  | .scrubEscalate => true
  | .zeroise who => okWho who
  | .attestReport who asid addr _ => okWho who && okAsid asid && okWord addr
  | .pairAliveInChange _ => true
  | .aliveDebounceExpire => true
  | .aliveMismatch => true
  | .declare who v => okWho who && okWord v
  | .yield => true
  | .takeoverComplete _ => true
  | .handbackComplete n => okPart n
  | .partitionAdmit n _ => okPart n
  | .laserEnable who m _ => okWho who && okLaser m
  | .laserModuleRemoved m => okLaser m
  | .linkAligned p => okPort p
  | .trayLinkUp t _ _ => okTray t
  | .pcieRefclkRestore k => okPairBit k
  | .islandPowerLoss => true
  | .engineAccessRepresent _ => true
  | .engineAccessTimeout _ => true

end Sys2Proof
end

