-- ==== Sys2Proof/Safety.lean ====
section
/-!
DEFINITION. What the claims call good: a state whose tables and memory are in their one form, and a run without a stop.
-/
namespace Sys2Proof.Machine

/-- The pool memory is in its canonical form. -/
def State.memOk (s : State) : Prop := Memory.wf s.mem = true

/-- The commands that wait are well formed. -/
def State.queueOk (s : State) : Prop := s.pending.all Instr.wf = true

/-- A step ends in a next state. -/
def State.runs (s : State) : Prop := ∃ t, step s = .next t

/-! ### The words of the statements -/

/-- The command is carried out: exec answers a next state, of which `P` holds. -/
def Answers (c : Instr) (s : State) (P : State → Prop) : Prop := ∃ t, exec c s = .next t ∧ P t

/-- The command stops at a next state equal to the one it began in. -/
def Waits (c : Instr) (s : State) : Prop := exec c s = .next s

/-- R542, R553, R554: a management session is served: the port answers, the session is open or has room, the switch is not in
RECOVERY, and the session's roles allow the command. -/
abbrev Admits (s : State) (k roles : Nat) (need : Role) : Prop :=
  mgmtAnswers s = true ∧ sessionRoom k false s = true ∧ s.cmp.boot ≠ .recovery ∧ roleOk need roles = true

/-- Compass's state once session `k` has carried a command (R553). -/
abbrev served (s : State) (k : Nat) : Compass :=
  { s.cmp with sessions := s.cmp.sessions.set k { isOpen := true, spdm := false, last := s.ft } }

/-- The one thing sent is a completion. -/
abbrev Told (s t : State) (who : Requester) (c : Cpl) : Prop := t.out = .cpl who c :: s.out

/-- The parts of a state. -/
inductive Part where
  | pending | out | fresh | ft | pins | cmp | pair | mer | per | edg | lat | loc | pln | fld | eng | vtx | chd | cone | orb
  | apx | cen | arc | mem
deriving DecidableEq, Repr

/-- The two states agree in a part. -/
def SamePart (s t : State) : Part → Prop
  | .pending => t.pending = s.pending | .out => t.out = s.out | .fresh => t.fresh = s.fresh | .ft => t.ft = s.ft
  | .pins => t.pins = s.pins | .cmp => t.cmp = s.cmp | .pair => t.pair = s.pair | .mer => t.mer = s.mer | .per => t.per = s.per
  | .edg => t.edg = s.edg | .lat => t.lat = s.lat | .loc => t.loc = s.loc | .pln => t.pln = s.pln | .fld => t.fld = s.fld
  | .eng => t.eng = s.eng | .vtx => t.vtx = s.vtx | .chd => t.chd = s.chd | .cone => t.cone = s.cone | .orb => t.orb = s.orb
  | .apx => t.apx = s.apx | .cen => t.cen = s.cen | .arc => t.arc = s.arc | .mem => t.mem = s.mem

/-- The frame: nothing changes but the parts listed. -/
def Only (l : List Part) (s t : State) : Prop := ∀ p, p ∉ l → SamePart s t p

/-- Every byte of the pool memory reads as before. -/
def SameMem (s t : State) : Prop := ∀ a, memRead t.mem a = memRead s.mem a

/-- R13, R68, R69: port `p` may operate on object `i` now: it is of its partition, which neither a scrub nor a restart holds. -/
abbrev ObjOpen (s : State) (p i : Nat) : Prop :=
  (port s p).part = some (obj s i).part ∧ i < 65536 ∧ scrubFenced s (obj s i).part = false ∧ (dom s (obj s i).part).st ≠ .restarting

/-- No block that [off, off + len) touches is unverified or poisoned. -/
abbrev Clean (s : State) (off len : Nat) : Prop :=
  (blocksOf off len).all (fun b => (blk s b).bad.isNone && !(blk s b).bpoison && (blk s b).pmask == 0) = true

/-- The pool byte, homed here, that a request through a DIRECT COHERENT segment without COMBINABLE names (R93, R96). -/
def cohByte (s : State) (x : XlReq) : Option Nat :=
  match segStage s x with
  | .ok _ _ w off =>
    if segType w = 2 && segCoherent w && !segCombinable w then
      match directAns s x.part w off (x.write || x.atomic) with
      | (.leaf _, pa) => if bits pa 63 52 = 0 && homeLocal s (bits pa 51 0 / pageBytes) then some (bits pa 51 0) else none
      | _ => none
    else none
  | _ => none

/-- A coherent request of port `p` for node `node` of partition `n` reaches line `l`, on which nothing is in progress. -/
abbrev AtLine (s : State) (p node n l : Nat) : Prop :=
  (port s p).part = some n ∧ n < 16 ∧ nodeAt s p node = some n ∧ fenceCpl s .locus n = none ∧ s.vtx.st = .up ∧
  s.vtx.excluded.contains p = false ∧ s.vtx.excluded.contains ((port s p).gang.getD p) = false ∧ winOf s l = none ∧ trackerRoom s n = true ∧
  busyLine s l = false ∧ s.vtx.queue.any (fun r => r.line == l) = false ∧ (∀ r ∈ s.loc.reqs, r.id ≠ s.loc.nextReq)

/-- A switch that runs without a partner. -/
abbrev Alone (s : State) : Prop := running s = true ∧ s.pair.st = .alone ∧ s.pair.partnerRunning = false

end Sys2Proof.Machine
end

