-- ==== Sys2Proof/Certificates/Slice0/Obligations.lean ====
section
/-!
DEFINITION. The statements for the provers.
-/
section
open Sys2Proof Sys2Proof.Machine

/-- R541, R543, R628, R629, R633, R634: the pins and supplies. -/
def Obligations.PowerPins : Prop :=
  (∀ s temp, s.pins.porstN = false → Answers (.porstNRelease true true true temp) s fun t =>
    t.pins.porstN = true ∧ t.cmp.boot = .loading ∧ t.cmp.imageB = false ∧ Only [.pins, .cmp, .pair] s t) ∧
  (∀ s a b c temp, s.pins.porstN = false → (a && b && c) = false → Answers (.porstNRelease a b c temp) s fun t =>
    t.pins.porstN = false ∧ t.pins.releaseHeld = true ∧ Only [.pins] s t) ∧
  (∀ s, s.pins.releaseHeld = true → Answers .pwrGoodHoldRelease s fun t =>
    t.pins.porstN = true ∧ t.pins.releaseHeld = false ∧ t.cmp.boot = .loading ∧ Only [.pins, .cmp, .pair] s t) ∧
  (∀ s, Answers .porstNAssert s fun t => t.pins.porstN = false ∧ t.cmp.boot = .rom ∧ t.mem = [] ∧ t.per.store = s.per.store ∧
    t.cmp.nvmA = s.cmp.nvmA ∧ t.cmp.nvmB = s.cmp.nvmB ∧ t.cmp.rollback = s.cmp.rollback ∧ t.cmp.ownerHash = s.cmp.ownerHash ∧
    t.edg = {} ∧ t.loc = {} ∧ t.pln = {} ∧ t.vtx = {} ∧ t.chd = {} ∧ t.cone = {} ∧ t.orb = {} ∧ t.apx = {} ∧ t.cen = {} ∧ t.arc = {}) ∧
  (∀ s, Answers .islandPowerLoss s fun t => t.pins.porstN = false ∧ t.pins.thermtrip = false ∧ t.cmp.boot = .rom ∧ t.mem = [] ∧
    t.per.store = s.per.store) ∧
  (∀ s core aux, s.pins.porstN = true → (core || aux) = true → Answers (.powerLoss core aux) s fun t =>
    t.cmp.boot = .halted ∧ t.pins.loss = true ∧ t.pair.aliveOut = false ∧ t.mem = [] ∧ t.ft = s.ft ∧ t.per.store = s.per.store ∧
    t.cmp.active = s.cmp.active) ∧
  (∀ s, s.cmp.boot = .init → s.pair.joinRefused = false → s.cmp.bootFt + 30000000000 ≤ s.ft → Answers .initTimeout s fun t =>
    t.cmp.boot = .halted ∧ t.pair.aliveOut = false ∧ t.mem = [] ∧ t.ft = s.ft ∧ t.pins = s.pins)

/-- R560, R633: a trip. -/
def Obligations.ThermalTrip : Prop :=
  ∀ s sensor value, s.pins.porstN = true → sensor < 8192 → sensorExists sensor = true → (s.cmp.tripC : Int) * 1000 ≤ value →
    Answers (.thermalTrip sensor value) s fun t =>
      t.pins.thermtrip = true ∧ t.cmp.boot = .halted ∧ t.cmp.tripped = true ∧ bitOf t.cmp.faultStatus 3 = true ∧
      t.pair.aliveOut = false ∧ t.mem = []

/-- R559, R565, R592. -/
def Obligations.SensorsAndBudget : Prop :=
  (∀ s sensor value, sensorExists sensor = true → 2 ≤ sensor / 4096 → Answers (.sensorSample sensor value) s fun t =>
    t.cmp.sensors.get sensor = { value := satInt 32 value, ft := s.ft, valid := true } ∧ Only [.cmp] s t) ∧
  (∀ s sensor value, sensorExists sensor = true → sensor / 4096 < 2 → Answers (.sensorSample sensor value) s fun t =>
    t.cmp.sensors.get sensor = { value := satInt 32 value, ft := s.ft, valid := true } ∧ Only [.cmp] s t) ∧
  (∀ s v, s.pins.porstN = true → Answers (.pmbusBudgetWrite v) s fun t =>
    (t.cmp.energy.capNext : Int) = max 500 (min 2800 (linear11 v)) ∧ t.cmp.energy.capW = s.cmp.energy.capW ∧ Only [.cmp] s t) ∧
  (∀ s, Answers .compassWatchdogExpire s fun t => Only [] s t)

/-- R53, R642. -/
def Obligations.References : Prop :=
  (∀ s k, k < 2 → refOk s k = true → refOk s (1 - k) = false → s.edg.ports.idxs (fun _ p => p.mode != .unused) = [] → Answers (.optRefclkFail k) s fun t =>
    refOk t k = false ∧ t.mer.lock = .holdover ∧ ftRuns t = false ∧ Only [.mer] s t) ∧
  (∀ s k lag, k < 2 → refOk s 0 = false → refOk s 1 = false → Answers (.optRefclkRestore k lag) s fun t =>
    refOk t k = true ∧ t.mer.lock = .unlocked ∧ t.mer.slewRem = -(lag : Int) ∧ Only [.mer] s t) ∧
  (∀ s k, k < 2 → Answers (.pcieRefclkFail k []) s fun t =>
    (if k = 0 then t.pins.pcieOk0 else t.pins.pcieOk1) = false ∧ Only [.pins] s t) ∧
  (∀ s k, k < 2 → Answers (.pcieRefclkRestore k) s fun t =>
    (if k = 0 then t.pins.pcieOk0 else t.pins.pcieOk1) = true ∧ Only [.pins] s t)

/-- R54, R55, R57, R59. -/
def Obligations.FabricTime : Prop :=
  (∀ s (off : Int), s.mer.portSel = false → s.mer.lock ≠ .follower → s.mer.ref0Ok = true → s.mer.everLocked = true → s.mer.ppsInEn = false →
    -1000000 ≤ off → off ≤ 1000000 → Answers (.ptpMessageRx none s.mer.ptpDomain s.mer.transport off) s fun t =>
      t.mer.lock = .locked ∧ t.mer.slewRem = off ∧ t.mer.offset = off ∧ t.ft = s.ft ∧ Only [.mer] s t) ∧
  (∀ s, s.mer.ppsInEn = true → s.mer.everLocked = true → s.mer.lock ≠ .follower → Answers .ppsInEdge s fun t =>
    t.mer.slewRem = (if s.ft % 1000000000 < 500000000 then ((s.ft % 1000000000 : Nat) : Int) else ((s.ft % 1000000000 : Nat) : Int) - 1000000000) ∧
    Only [.mer] s t) ∧
  (∀ s, running s = true → s.ft / 1000000000 ≠ s.mer.ppsLast → Answers .ppsOutRise s fun t =>
    t.mer.ppsLast = s.ft / 1000000000 ∧ t.out = .msg .ppsRise 0 [s.ft] [] :: s.out ∧ Only [.mer, .out] s t) ∧
  (∀ s k tag roles v, Admits s k roles .admin → (bitOf v 0 = true → (port s (bits v 8 1)).mode = .eth) →
    Answers (.ftCfgWrite (.mgmt k tag roles) v) s fun t =>
      t.mer.portSel = bitOf v 0 ∧ t.mer.ptpPort = bits v 8 1 ∧ t.mer.ppsInEn = bitOf v 9 ∧ t.mer.ptpDomain = bits v 16 10 ∧
      t.mer.transport = bitOf v 17 ∧ Told s t (.mgmt k tag roles) cOk ∧ Only [.mer, .cmp, .out] s t) ∧
  (∀ s k tag roles v, Admits s k roles .admin → bitOf v 0 = true → (port s (bits v 8 1)).mode ≠ .eth →
    Answers (.ftCfgWrite (.mgmt k tag roles) v) s fun t =>
      t.mer = s.mer ∧ Told s t (.mgmt k tag roles) cBad ∧ Only [.cmp, .out] s t)

/-- R565, R566, R570, R571. -/
def Obligations.EnergyEpoch : Prop :=
  (∀ s, s.pins.porstN = true → s.ft / 1000000 ≠ s.cmp.energy.epoch → s.cmp.energy.deficit = 0 → 0 ≤ s.cmp.energy.a →
    s.cmp.energy.paused = false → s.eng.queues = [] → s.eng.issued = [] →
    s.arc.held = [] → s.orb.jobs = [] → s.per.fills = [] → s.arc.auditEn = false →
    s.cmp.active.energy.fitted = 0 → s.cmp.energy.base + (-(s.cmp.energy.d : Int) - s.cmp.energy.base) / 16 ≤ 500000000 → 500 ≤ s.cmp.energy.capNext →
    Answers .energyEpochEnd s fun t =>
      t.cmp.energy.capW = s.cmp.energy.capNext ∧ t.cmp.energy.a = (s.cmp.energy.capNext : Int) * 1000000 - t.cmp.energy.base ∧
      t.cmp.energy.epoch = s.ft / 1000000 ∧ (t.cmp.energy.hist.head?.map (·.capW)) = some s.cmp.energy.capW ∧ t.mem = s.mem) ∧
  (∀ s p at_, s.cmp.energy.paused = true → s.cmp.energy.pauseAt.find? (fun e => e.1 == p) = some (p, at_) → at_ + pauseHalf s p ≤ s.ft →
    Answers (.energyPauseRefresh p) s fun t =>
      t.out = .msg .linkPause p [0x18, 0xFFFF] [] :: s.out ∧ Only [.cmp, .out] s t)

/-- R564. -/
def Obligations.LogFlush : Prop :=
  (∀ s, s.pins.porstN = true → s.cmp.lastFlush + 1000000000 ≤ s.ft → s.cmp.nvmA.answers = true → s.cmp.nvmB.answers = true →
    Answers .logFlushPeriodic s fun t => unflushed t = 0 ∧ t.cmp.lastFlush = s.ft ∧ Only [.cmp] s t) ∧
  (∀ s k tag roles, Admits s k roles .admin → s.cmp.nvmA.answers = true → s.cmp.nvmB.answers = true →
    Answers (.logFlush (.mgmt k tag roles)) s fun t =>
      unflushed t = 0 ∧ Told s t (.mgmt k tag roles) cOk ∧ Only [.cmp, .out] s t)

/-- R541, R543, R547, R556, R593, R634. -/
def Obligations.Boot : Prop :=
  (∀ s hw i, s.cmp.boot = .loading → s.pins.thermtrip = false → s.cmp.imageB = false → s.cmp.nvmA.image = some i →
    nvmCause s s.cmp.nvmA = 0 → hw.bistFail % 65536 = 0 → Answers (.imageLoadDone hw) s fun t =>
      t.cmp.boot = .init ∧ t.cmp.active = i ∧ t.cmp.aFail = 0 ∧ t.cmp.bootFt = s.ft ∧ t.mem = []) ∧
  (∀ s hw, s.cmp.boot = .loading → s.pins.thermtrip = false → s.cmp.imageB = false → nvmCause s s.cmp.nvmA ≠ 0 →
    Answers (.imageLoadDone hw) s fun t =>
      t.cmp = { s.cmp with aFail := nvmCause s s.cmp.nvmA, imageB := true } ∧ Only [.cmp] s t) ∧
  (∀ s hw, s.cmp.boot = .loading → s.pins.thermtrip = false → s.cmp.imageB = true → nvmCause s s.cmp.nvmB ≠ 0 →
    Answers (.imageLoadDone hw) s fun t =>
      t.cmp.boot = .recovery ∧ t.cmp.bFail = nvmCause s s.cmp.nvmB ∧ t.pair.aliveOut = false) ∧
  (∀ s, canRun s = true → Answers .initComplete s fun t =>
    t.cmp.boot = .running ∧ t.pair.aliveOut = true ∧ t.cmp.runSince = s.ft ∧ t.mem = s.mem ∧ t.pins = s.pins ∧ t.edg.ports = s.edg.ports) ∧
  (∀ s hw, s.pins.porstN = true → (s.cmp.boot = .init ∨ s.cmp.boot = .running ∨ s.cmp.boot = .halted) → s.pins.thermtrip = false →
    s.pins.loss = false → s.per.erased = false → hw.bistFail % 65536 = 0 → Answers (.warmRstN hw) s fun t =>
      t.cmp.boot = .init ∧ t.cmp.active = s.cmp.active ∧ t.cmp.warmResets = sat 16 s.cmp.warmResets ∧ t.ft = s.ft ∧ t.per.pool = s.per.pool ∧
      t.per.poolGen = s.per.poolGen ∧ t.per.store = s.per.store ∧ t.mem = []) ∧
  (∀ s k tag roles b, Admits s k roles .admin → s.pins.loss = false → s.per.erased = false → s.per.scrub = none →
    Answers (.reboot (.mgmt k tag roles) b) s fun t =>
      t.cmp.boot = .loading ∧ t.cmp.imageB = b ∧ t.ft = s.ft ∧ t.per.store = s.per.store ∧ t.per.pool = .none ∧ t.mem = [] ∧
      t.cmp.nvmA = s.cmp.nvmA ∧ t.cmp.nvmB = s.cmp.nvmB ∧ t.cmp.warmResets = s.cmp.warmResets ∧ Told s t (.mgmt k tag roles) cOk)

/-- R546, R549, R550, R551, R552. -/
def Obligations.Swaps : Prop :=
  (∀ s k tag roles off len img, Admits s k roles .admin → s.cmp.swap = none → oldBankRuns s = false → len ≤ 65536 → off + len ≤ 50331648 →
    (off = 0 ∨ s.cmp.shadowSt = .loading ∧ s.cmp.shadowAt ≤ off) → Answers (.shadowLoad (.mgmt k tag roles) off len false img) s fun t =>
      t.cmp = { served s k with shadowSt := .loading, shadowAt := off + len } ∧ Told s t (.mgmt k tag roles) cOk ∧ Only [.cmp, .out] s t) ∧
  (∀ s k tag roles off len img, Admits s k roles .admin → s.cmp.swap = none → oldBankRuns s = false → len ≤ 65536 → off + len ≤ 50331648 →
    (off = 0 ∨ s.cmp.shadowSt = .loading ∧ s.cmp.shadowAt ≤ off) → shadowCause s (fillShadow s.cmp.active img) = 0 →
    Answers (.shadowLoad (.mgmt k tag roles) off len true img) s fun t =>
      t.cmp = { served s k with shadow := fillShadow s.cmp.active img, shadowSt := .verified, shadowAt := 0 } ∧
      Told s t (.mgmt k tag roles) cOk ∧ Only [.cmp, .out] s t) ∧
  (∀ s k tag roles b i, Admits s k roles .admin → s.cmp.swap = none → oldBankRuns s = false → (slotOf b s).image = some i → (slotOf b s).answers = true →
    Answers (.shadowFromNvm (.mgmt k tag roles) b) s fun t =>
      t.cmp = { served s k with shadow := fillShadow s.cmp.active i, shadowAt := 0, shadowSt := if shadowCause s (fillShadow s.cmp.active i) = 0 then .verified else .failed } ∧
      Told s t (.mgmt k tag roles) cOk ∧ Only [.cmp, .out] s t) ∧
  (∀ s k tag roles trig, Admits s k roles .admin → s.cmp.shadowSt = .verified → s.cmp.swap = none → (match trig with | .step n _ => decide (n < 16) | _ => true) = true →
    Answers (.swap (.mgmt k tag roles) trig) s fun t =>
      t.cmp = { served s k with swap := some { trig := trig, req := .mgmt k tag roles }, swapSt := .pending } ∧ Only [.cmp] s t) ∧
  (∀ s k tag roles p k2 tag2 roles2, Admits s k roles .admin → s.cmp.swap = some p → p.req = .mgmt k2 tag2 roles2 → Answers (.swapCancel (.mgmt k tag roles)) s fun t =>
      t.cmp = { served s k with swap := none, swapSt := .none } ∧
      t.out = .cpl (.mgmt k tag roles) cOk :: .cpl p.req (cRef .state) :: s.out ∧ Only [.cmp, .out] s t) ∧
  (∀ s p, s.cmp.swap = some p → swapDue s p = true → swapConflict s (mergeImage s.cmp.active s.cmp.shadow) = none → Answers .swapTrigger s fun t =>
      t.cmp.active = mergeImage s.cmp.active s.cmp.shadow ∧ t.cmp.shadow = s.cmp.active ∧ t.cmp.shadowSt = .verified ∧ t.cmp.swap = none ∧
      t.cmp.swapSt = .done ∧ t.cmp.swaps = sat 16 s.cmp.swaps ∧ t.mer.bank = 1 - s.mer.bank ∧ t.mem = s.mem ∧ t.pln = s.pln ∧ t.loc = s.loc) ∧
  (∀ s p b k tag roles, s.cmp.swap = some p → p.req = .mgmt k tag roles → swapDue s p = true →
    swapConflict s (mergeImage s.cmp.active s.cmp.shadow) = some b → Answers .swapTrigger s fun t =>
      t.cmp.active = s.cmp.active ∧ t.cmp.shadow = s.cmp.shadow ∧ t.cmp.swap = none ∧ t.cmp.swapSt = .refused ∧
      t.out = .cpl p.req (cRef .state) :: s.out ∧ Only [.cmp, .out] s t)

/-- R548, R557, R558. -/
def Obligations.Updates : Prop :=
  (∀ s k tag roles b len, Admits s k roles .admin → len ≤ 50331648 → s.cmp.update = none → nvmCause s (slotOf (!b) s) = 0 →
    Answers (.updateBegin (.mgmt k tag roles) b len) s fun t =>
      t.cmp.update = some { slotB := b, len := len, who := .mgmt k tag roles } ∧ (slotOf b t).image = none ∧ slotOf (!b) t = slotOf (!b) s ∧
      t.cmp.active = s.cmp.active ∧ Only [.cmp] s t) ∧
  (∀ s u k tag roles, s.cmp.update = some u → u.erased = false → u.who = .mgmt k tag roles → Answers .updateEraseDone s fun t =>
      t.cmp = { s.cmp with update := some { u with erased := true } } ∧ Told s t u.who cOk ∧ Only [.cmp, .out] s t) ∧
  (∀ s k tag roles off len u, Admits s k roles .admin → s.cmp.update = some u → u.erased = true → len ≤ 65536 → off + len ≤ u.len →
    Answers (.updateData (.mgmt k tag roles) off len) s fun t =>
      t.cmp = { served s k with update := some { u with written := max u.written (off + len) } } ∧ Told s t (.mgmt k tag roles) cOk ∧
      Only [.cmp, .out] s t) ∧
  (∀ s k tag roles img u, Admits s k roles .admin → s.cmp.update = some u → u.erased = true → imageCause s (slotOf u.slotB s).answers img = 0 →
    Answers (.updateCommit (.mgmt k tag roles) img) s fun t =>
      t.cmp.update = none ∧ (slotOf u.slotB t).image = some img ∧ Told s t (.mgmt k tag roles) cOk ∧ Only [.cmp, .out] s t) ∧
  (∀ s k tag roles img u, Admits s k roles .admin → s.cmp.update = some u → u.erased = true → imageCause s (slotOf u.slotB s).answers img ≠ 0 →
    Answers (.updateCommit (.mgmt k tag roles) img) s fun t =>
      t.cmp = { served s k with update := none } ∧
      Told s t (.mgmt k tag roles) { cBad with value := imageCause s (slotOf u.slotB s).answers img } ∧ Only [.cmp, .out] s t) ∧
  (∀ s k tag roles v, Admits s k roles .admin → s.cmp.rollback < v → v ≤ 128 → v ≤ s.cmp.active.hdr.svn → slotSvn s s.cmp.nvmA v = true →
    slotSvn s s.cmp.nvmB v = true → Answers (.rollbackAdvance (.mgmt k tag roles) v) s fun t =>
      t.cmp = { served s k with rollback := v } ∧ Told s t (.mgmt k tag roles) cOk ∧ Only [.cmp, .out] s t) ∧
  (∀ s k tag roles v, Admits s k roles .admin → v ≤ s.cmp.rollback → Answers (.rollbackAdvance (.mgmt k tag roles) v) s fun t =>
      t.cmp = served s k ∧ Told s t (.mgmt k tag roles) (cRef .state) ∧ Only [.cmp, .out] s t) ∧
  (∀ s k tag roles h, Admits s k roles .admin → s.cmp.ownerHash = none → Answers (.ownerSet (.mgmt k tag roles) h) s fun t =>
      t.cmp = { served s k with ownerHash := some h } ∧ Told s t (.mgmt k tag roles) cOk ∧ Only [.cmp, .out] s t) ∧
  (∀ s k tag roles h, Admits s k roles .admin → s.cmp.ownerHash ≠ none → Answers (.ownerSet (.mgmt k tag roles) h) s fun t =>
      t.cmp = served s k ∧ Told s t (.mgmt k tag roles) (cRef .state) ∧ Only [.cmp, .out] s t)

/-- R646: no register at an offset. -/
def Obligations.NoSlot : Prop :=
  (∀ s k tag roles off, Admits s k roles .read → off < 0x4000000 → regAt off = none →
    Answers (.csrRead (.mgmt k tag roles) off 1) s fun t =>
      t.cmp = served s k ∧ Told s t (.mgmt k tag roles) cBad ∧ Only [.cmp, .out] s t) ∧
  (∀ s k tag roles off v, Admits s k roles .admin → off < 0x4000000 → regAt off = none →
    Answers (.csrWrite (.mgmt k tag roles) off v) s fun t =>
      t.cmp = served s k ∧ Told s t (.mgmt k tag roles) cBad ∧ Only [.cmp, .out] s t) ∧
  (∀ s p node tag off, (port s p).mode = .xcl → (port s p).priv = true → off < 0x4000000 → regAt off = none →
    Answers (.csrRd (.port p node tag) off) s fun t => Told s t (.port p node tag) cBad ∧ Only [.out] s t) ∧
  (∀ s p node tag asid off v, (port s p).mode = .xcl → (port s p).priv = true → off < 0x4000000 → regAt off = none →
    Answers (.registerWrite (.port p node tag) asid off v) s fun t => Told s t (.port p node tag) cNP ∧ Only [.out] s t) ∧
  regAt (0x202000 + 8 * 132) = none

/-- R539: the identity register, read-only. -/
def Obligations.CmpId : Prop :=
  (∀ s k tag roles, Admits s k roles .read → Answers (.csrRead (.mgmt k tag roles) 0 1) s fun t =>
    Told s t (.mgmt k tag roles) (cData (toLE 8 0xB04410)) ∧ Only [.cmp, .out] s t) ∧
  (∀ s p node tag, (port s p).mode = .xcl → (port s p).priv = true → Answers (.csrRd (.port p node tag) 0) s fun t =>
    Told s t (.port p node tag) (cVal 0xB04410) ∧ Only [.out] s t) ∧
  (∀ s k tag roles v, Admits s k roles .admin → Answers (.csrWrite (.mgmt k tag roles) 0 v) s fun t =>
    t.cmp = served s k ∧ Only [.cmp, .out] s t)

/-- R27. -/
def Obligations.BufferReads : Prop :=
  (∀ s p node tag n, (port s p).mode = .xcl → (port s p).priv = true → n < 16 → (port s p).part ≠ some n →
    Answers (.csrRd (.port p node tag) (0x500100 + 8 * n)) s fun t => Told s t (.port p node tag) cNP ∧ Only [.out] s t) ∧
  (∀ s p node tag, (port s p).mode = .xcl → (port s p).priv = true →
    Answers (.csrRd (.port p node tag) 0x500000) s fun t => Told s t (.port p node tag) cNP ∧ Only [.out] s t) ∧
  (∀ s k tag roles, Admits s k roles .read → Answers (.csrRead (.mgmt k tag roles) 0x500000 1) s fun t =>
    Told s t (.mgmt k tag roles) (cData (toLE 8 (regVal (touchSession k false s) none .latBufStatus))) ∧ Only [.cmp, .out] s t)

/-- R576. -/
def Obligations.LogRegister : Prop :=
  (∀ s k tag roles v, Admits s k roles .admin → Answers (.csrWrite (.mgmt k tag roles) 0x30 v) s fun t =>
    t.cmp = { served s k with logSel := v.toNat % 2 ^ 32 } ∧ Told s t (.mgmt k tag roles) cOk ∧ Only [.cmp, .out] s t) ∧
  (∀ s k tag roles, Admits s k roles .read → s.cmp.logSel < 2 ^ 32 → Answers (.csrRead (.mgmt k tag roles) 0x30 1) s fun t =>
    t.cmp = served s k ∧ Told s t (.mgmt k tag roles) (cData (toLE 8 s.cmp.logSel)) ∧ Only [.cmp, .out] s t) ∧
  (∀ s k tag roles w e, Admits s k roles .read → w < 8 → s.cmp.log.find? (fun e => e.seq == s.cmp.logSel) = some e →
    Answers (.csrRead (.mgmt k tag roles) (0x40 + 8 * w) 1) s fun t =>
      t.cmp = served s k ∧ Told s t (.mgmt k tag roles) (cData (toLE 8 ((logWords e).getD w 0))) ∧ Only [.cmp, .out] s t) ∧
  (∀ s k tag roles w, Admits s k roles .read → w < 8 → (∀ e ∈ s.cmp.log, e.seq ≠ s.cmp.logSel) →
    Answers (.csrRead (.mgmt k tag roles) (0x40 + 8 * w) 1) s fun t =>
      t.cmp = served s k ∧ Told s t (.mgmt k tag roles) (cData (toLE 8 0)) ∧ Only [.cmp, .out] s t) ∧
  (∀ s k tag roles v w, Admits s k roles .admin → w < 8 → Answers (.csrWrite (.mgmt k tag roles) (0x40 + 8 * w) v) s fun t =>
    t.cmp = served s k ∧ Only [.cmp, .out] s t)

/-- R89, R553, R556, R559, R561, R571, R577, R644. -/
def Obligations.ManagementReads : Prop :=
  (∀ s k tag roles off count, Admits s k roles .read → 0 < count → count ≤ 512 → (∀ i < count, (regAt (off + 8 * i)).isSome = true) →
    Answers (.csrRead (.mgmt k tag roles) off count) s fun t =>
      ∃ d : List Byte, d.length = 8 * count ∧ t.out = .cpl (.mgmt k tag roles) (cData d) :: s.out ∧ t.mem = s.mem ∧ t.ft = s.ft) ∧
  (∀ s p node tag n, (port s p).mode = .xcl → (port s p).priv = true → (port s p).part = some n → n < 16 →
    Answers (.csrRd (.port p node tag) (0x201000 + 0x40 * n)) s fun t =>
      Told s t (.port p node tag) (cVal (regVal s (some p) (.merDomAngle n))) ∧ Only [.out] s t) ∧
  (∀ s k tag roles q, Admits s k roles .read → Answers (.logRead (.mgmt k tag roles) q) s fun t =>
    t.cmp = served s k ∧ Told s t (.mgmt k tag roles) (cData (((logFrom s q).take 1024).flatMap logBytes)) ∧ Only [.cmp, .out] s t) ∧
  (∀ s k tag roles ks, Admits s k roles .read → ks.length ≤ 256 → Answers (.sensorRead (.mgmt k tag roles) ks) s fun t =>
    t.cmp = served s k ∧ Told s t (.mgmt k tag roles) (cData (ks.flatMap fun i => toLE 8 (sensorWord s i))) ∧ Only [.cmp, .out] s t) ∧
  (∀ s k tag roles ks, Admits s k roles .read → 256 < ks.length → Answers (.sensorRead (.mgmt k tag roles) ks) s fun t =>
    t.cmp = served s k ∧ Told s t (.mgmt k tag roles) cBad ∧ Only [.cmp, .out] s t) ∧
  (∀ s k tag roles, Admits s k roles .read → Answers (.energyRead (.mgmt k tag roles)) s fun t =>
    t.cmp = served s k ∧ Told s t (.mgmt k tag roles) (cData (s.cmp.energy.hist.reverse.flatMap epochBytes)) ∧ Only [.cmp, .out] s t) ∧
  (∀ s k, (s.cmp.sessions.get k).isOpen = true → (s.cmp.sessions.get k).last + 600000000000 ≤ s.ft → Answers (.mgmtSessionIdleClose k) s fun t =>
    t.cmp = { s.cmp with sessions := s.cmp.sessions.del k } ∧ Only [.cmp] s t)

/-- R25, R249, R335, R554, R565, R578, R585, R644, R645. -/
def Obligations.ManagementWrites : Prop :=
  (∀ s k tag roles w, Admits s k roles .power → Answers (.budgetSet (.mgmt k tag roles) w) s fun t =>
    t.cmp = { served s k with energy := { s.cmp.energy with capNext := max 500 (min 2800 w) } } ∧ Told s t (.mgmt k tag roles) cOk ∧ Only [.cmp, .out] s t) ∧
  (∀ s k tag roles w, Admits s k 2 .power → roleOk .power roles = false → Answers (.budgetSet (.mgmt k tag roles) w) s fun t =>
    t.cmp = served s k ∧ Told s t (.mgmt k tag roles) cNP ∧ Only [.cmp, .out] s t) ∧
  (∀ s k tag roles, Admits s k roles .admin → Answers (.minReload (.mgmt k tag roles)) s fun t =>
    t.lat = { s.lat with minFree := freeCells s } ∧ t.cmp = served s k ∧ Told s t (.mgmt k tag roles) cOk ∧ Only [.cmp, .lat, .out] s t) ∧
  (∀ s k tag roles (v : Word), Admits s k roles .admin → Answers (.registerWrite (.mgmt k tag roles) 0 0x90 v) s fun t =>
    t.cmp = { served s k with warnC := bits v.toNat 7 0, throttleC := bits v.toNat 15 8 } ∧ Told s t (.mgmt k tag roles) cOk ∧
    Only [.cmp, .out] s t) ∧
  (∀ s k tag roles (v : Word), Admits s k roles .admin → Answers (.csrWrite (.mgmt k tag roles) 0xB00008 v) s fun t =>
    t.chd = { s.chd with hierTmo := bits v.toNat 15 0 } ∧ t.cmp = served s k ∧ Told s t (.mgmt k tag roles) cOk ∧ Only [.cmp, .chd, .out] s t) ∧
  (∀ s k tag roles (v : Word), Admits s k roles .admin → Answers (.csrWrite (.mgmt k tag roles) 0xE00008 v) s fun t =>
    t.orb = { s.orb with deferNs := bits v.toNat 31 0 } ∧ t.cmp = served s k ∧ Told s t (.mgmt k tag roles) cOk ∧ Only [.cmp, .orb, .out] s t) ∧
  (∀ s k tag roles (v : Word) i, Admits s k roles .admin → i < 6 → Answers (.csrWrite (.mgmt k tag roles) 0x218 v) s fun t =>
    bitOf t.cmp.faultStatus i = (bitOf s.cmp.faultStatus i && !bitOf v.toNat i) ∧ Told s t (.mgmt k tag roles) cOk ∧ Only [.cmp, .out] s t) ∧
  (∀ s p node tag asid n, (port s p).mode = .xcl → (port s p).priv = true → (port s p).part = some n →
    Answers (.registerWrite (.port p node tag) asid 0x602000 1#64) s fun t =>
      t.arc = { s.arc with frozen := setBit s.arc.frozen n } ∧ Told s t (.port p node tag) cOk ∧ Only [.arc, .out] s t)

/-- R182, R184, R556, R586, R587, R589. -/
def Obligations.BlockFences : Prop :=
  (∀ s k tag roles b, Admits s k roles .admin → resettable.contains b = true → b ≠ .vertex → fenced s b = false →
    Answers (.blockReset (.mgmt k tag roles) b) s fun t =>
      t.cmp.fences.get b.code = { s.cmp.fences.get b.code with on := true, since := s.ft, drained := false, gen := ((s.cmp.fences.get b.code).gen + 1) % 16, whos := (s.cmp.fences.get b.code).whos ++ [.mgmt k tag roles] } ∧
      t.cmp = { served s k with fences := t.cmp.fences } ∧ Only [.cmp] s t) ∧
  (∀ s k tag roles, Admits s k roles .admin → fenced s .vertex = false → s.vtx.st = .up →
    Answers (.blockReset (.mgmt k tag roles) .vertex) s fun t =>
      t.vtx.st = .down ∧ t.vtx.cause = 7 ∧ t.vtx.txns = [] ∧ t.vtx.queue = [] ∧ fenced t .vertex = true) ∧
  (∀ s k tag roles b, Admits s k roles .admin → resettable.contains b = false → Answers (.blockReset (.mgmt k tag roles) b) s fun t =>
    t.cmp = served s k ∧ Told s t (.mgmt k tag roles) cBad ∧ Only [.cmp, .out] s t) ∧
  (∀ s b, fenced s b = true → (s.cmp.fences.get b.code).drained = false → (s.cmp.fences.get b.code).since + 10000 ≤ s.ft →
    Answers (.blockFenceDrainEnd b) s fun t =>
      (t.cmp.fences.get b.code).drained = true ∧
      (∀ e ∈ t.eng.queues, e.1 / 64 ≠ b.code) ∧ (∀ e ∈ t.eng.issued, e.1 / 64 ≠ b.code)) ∧
  (∀ s b, fenced s b = true → (s.cmp.fences.get b.code).drained = true → (s.cmp.fences.get b.code).since + 25000 ≤ s.ft →
    Answers (.blockFenceExit b) s fun t =>
      fenced t b = false ∧ (t.cmp.fences.get b.code).gen = (s.cmp.fences.get b.code).gen ∧ t.mem = s.mem ∧ t.pln = s.pln ∧ t.vtx = s.vtx) ∧
  (∀ s b, mgmtAnswers s = true → (resettable.contains b && bitOf s.cmp.autoReset (b.code - 7)) = false →
    Answers (.blockWatchdogExpire b) s fun t =>
      t.cmp = { s.cmp with expiries := sat 16 s.cmp.expiries, faultStatus := setBit s.cmp.faultStatus 4 } ∧ Only [.cmp] s t) ∧
  (∀ s b, mgmtAnswers s = true → resettable.contains b = true → b ≠ .vertex → bitOf s.cmp.autoReset (b.code - 7) = true → fenced s b = false →
    Answers (.blockWatchdogExpire b) s fun t =>
      fenced t b = true ∧ t.cmp.expiries = sat 16 s.cmp.expiries ∧ bitOf t.cmp.faultStatus 4 = true ∧ Only [.cmp] s t)

/-- R148, R475, R517, R625, R642. -/
def Obligations.Repairs : Prop :=
  (∀ s k tag roles c, Admits s k roles .admin → (s.pln.chans.get c).st = .retired → s.cmp.nvmA.answers = true → s.cmp.nvmB.answers = true →
    Answers (.retireClear (.mgmt k tag roles) (.channel c)) s fun t =>
      (t.pln.chans.get c).st = .active ∧ (∀ r ∈ t.cmp.nvmA.retired, r ≠ .channel c) ∧ (∀ r ∈ t.cmp.nvmB.retired, r ≠ .channel c) ∧
      (∀ d, d ≠ c → t.pln.chans.get d = s.pln.chans.get d) ∧ Told s t (.mgmt k tag roles) cOk ∧ Only [.cmp, .pln, .out] s t) ∧
  (∀ s k tag roles p l sp, Admits s k roles .admin → l < (port s p).lanes.length → (laneOf (port s p) l).rx = .active → (port s p).mode = .xcl →
    (port s p).cal = none → rxSpare (port s p) = some sp → Answers (.laneRetire (.mgmt k tag roles) p l) s fun t =>
      (∃ c, (port t p).cal = some c ∧ c.pos = (laneOf (port s p) l).rxPos ∧ c.lane = l ∧ c.spare = sp ∧ c.retire = some 4) ∧
      t.cmp = served s k ∧ Only [.cmp, .edg, .out] s t) ∧
  (∀ s k tag roles p l, Admits s k roles .admin → (port s p).lanes.length ≤ l → Answers (.laneRetire (.mgmt k tag roles) p l) s fun t =>
    t.cmp = served s k ∧ Told s t (.mgmt k tag roles) cBad ∧ Only [.cmp, .out] s t) ∧
  (∀ s k tag roles m, Admits s k roles .admin → m < 22 → Answers (.laserEnable (.mgmt k tag roles) m true) s fun t =>
    t.pins.lsEn.contains m = true ∧ Told s t (.mgmt k tag roles) cOk ∧ Only [.cmp, .pins, .out] s t) ∧
  (∀ s k tag roles m, Admits s k roles .admin → m < 22 → (portsOfModule m).all (fun p => (port s p).st == .down) = true →
    s.pins.lsEn.contains m = true → Answers (.laserEnable (.mgmt k tag roles) m false) s fun t =>
      t.pins.lsEn.contains m = false ∧ t.cmp = served s k ∧ Only [.cmp, .pins, .out] s t) ∧
  (∀ s m, s.pins.lsEn.contains m = true → (portsOfModule m).all (fun p => (port s p).st == .down) = true →
    Answers (.laserModuleRemoved m) s fun t =>
      t.pins.lsPres.contains m = false ∧ t.pins.lsEn.contains m = false ∧ t.out = .msg .lightOff m [] [] :: s.out ∧ Only [.pins, .out] s t) ∧
  (∀ s k tag roles r, Admits s k roles .admin → 0 < r → r < 512 → 
    (s.cmp.active.partnerKey :: s.cmp.active.ports.filterMap (·.peer)).contains (epRec s r).s0.tag = false →
    (s.cmp.active.partnerKey :: s.cmp.active.ports.filterMap (·.peer)).contains (epRec s r).s1.tag = false → Answers (.epochClear (.mgmt k tag roles) r) s fun t =>
      epRec t r = {} ∧ (∀ q, q ≠ r → epRec t q = epRec s q) ∧ Told s t (.mgmt k tag roles) cOk ∧ Only [.cmp, .per, .out] s t) ∧
  (∀ s k tag roles r, Admits s k roles .admin → 0 < r → r < 512 → (epRec s r).s0.zero = false → (epRec s r).s0.tag = s.cmp.active.partnerKey →
    Answers (.epochClear (.mgmt k tag roles) r) s fun t =>
      t.per = s.per ∧ Told s t (.mgmt k tag roles) cNP ∧ Only [.cmp, .out] s t)

/-- R508, R509. -/
def Obligations.Groups : Prop :=
  (∀ s k tag roles g src dst bytes, Admits s k roles .admin → fillBad s g src dst bytes = true →
    Answers (.groupFill (.mgmt k tag roles) g src dst bytes) s fun t =>
      t.cmp = served s k ∧ Told s t (.mgmt k tag roles) cBad ∧ Only [.cmp, .out] s t) ∧
  (∀ s k tag roles g src dst, Admits s k roles .admin → fillBad s g src dst 512 = false → groupBusy s g = false → dst % pageBytes ≠ 0 →
    preCost s 9 0xF [(0, 1024)] = 0 → 0 ≤ s.cmp.energy.a → s.cmp.energy.base ≤ (s.cmp.energy.capW : Int) * 1000000 → Alone s →
    Answers (.groupFill (.mgmt k tag roles) g src dst 512) s fun t =>
      let u := dropCopies (dst / pageBytes) (debit (fillerOf s g) 0 (touchSession k false s)); let r := fillBlock (fillerOf s g) src dst u;
      t = reply (.mgmt k tag roles) (if r.2.status = .ok then { value := 512 } else { r.2 with value := 0, data := [] }) r.1) ∧
  (∀ s k tag roles g, Admits s k roles .admin → groupRanges s g ≠ [] → groupBusy s g = false → Alone s →
    Answers (.groupZero (.mgmt k tag roles) g) s fun t =>
      t.per.ggen.get g = (s.per.ggen.get g + 1) % 2 ^ 32 ∧ (∀ e ∈ s.pln.pages, inGroupG s g e.1 = true → (page t e.1).st = .zero) ∧
      t.per.fills = s.per.fills.filter (fun f => !(f.zero && f.g == g)) ∧ t.cmp = served s k ∧ Told s t (.mgmt k tag roles) cOk)

/-- R503, R504, R515, R516. -/
def Obligations.Pools : Prop :=
  (∀ s, canFound s = true → s.per.partnerPool = some false → s.cmp.roleB = false → Answers .poolFound s fun t =>
    t.per = { s.per with founding := true, poolDebug := s.per.debug, commits := s.per.commits ++ [{ record := 0, value := recValue s 0 + 1, tag := 0, why := .poolGen }] } ∧ Only [.per] s t) ∧
  (∀ s at_, canFound s = true → s.per.trainFt = some at_ → at_ + 2000000000 ≤ s.ft → pairUps s = [] → Answers .poolFoundTimeout s fun t =>
    t.per = { s.per with founding := true, poolDebug := s.per.debug, commits := s.per.commits ++ [{ record := 0, value := recValue s 0 + 1, tag := 0, why := .poolGen }] } ∧ Only [.per] s t) ∧
  (∀ s c ok again, s.per.commits = [c] → c.why = .poolGen → c.record = 0 → (ok || again) = true →
    Answers (.epochCommitDone ok again) s fun t =>
      t.per.pool = .founded ∧ t.per.poolGen = c.value ∧ t.per.founding = false ∧ recValue t 0 = c.value ∧ t.per.commits = [] ∧
      t.pln.pages = [] ∧ t.mem = [] ∧ t.per.ggen = []) ∧
  (∀ s c, s.per.commits = [c] → c.why = .poolGen → Answers (.epochCommitDone false false) s fun t =>
      t.per.pool = s.per.pool ∧ t.per.founding = false ∧ t.per.commits = [] ∧ t.mem = s.mem ∧ recValue t c.record = recValue s c.record) ∧
  (∀ s gen debug ens gens at_ ever since, (pairUps s).isEmpty = false → s.cmp.boot = .init → s.pair.joinRefused = false →
    Answers (.poolJoin (.granted gen debug ens gens at_ ever true since)) s fun t =>
      t.per.pool = .joined ∧ t.per.poolGen = gen ∧ t.per.poolDebug = debug ∧ t.pair.st = .joining ∧ t.pair.partnerRunning = true ∧ t.mem = s.mem) ∧
  (∀ s fw comp roleB, (pairUps s).isEmpty = false → s.per.pool ≠ .none → running s = true → joinTest s fw comp roleB = false →
    Answers (.poolJoin (.asked fw comp roleB)) s fun t => t.per = s.per ∧ t.pair = s.pair ∧ Only [.cmp] s t)

/-- R519, R521, R522, R533, R534, R538. -/
def Obligations.Scrubs : Prop :=
  (∀ s k tag roles n ddr, Admits s k roles .admin → n < 16 → s.per.scrub = none → s.per.tPending = [] → Alone s →
    Answers (.scrub (.mgmt k tag roles) n ddr false) s fun t =>
      t.per.scrubbing.contains n = true ∧ (∃ x, t.per.scrub = some x ∧ x.part = n ∧ x.since = s.ft ∧ x.ddr = ddr ∧ x.acked = true) ∧
      (∀ e ∈ t.eng.queues, ∀ c ∈ e.2, c.part ≠ n) ∧ t.per.poolGen = s.per.poolGen ∧ t.per.parts = s.per.parts) ∧
  (∀ s k tag roles n ddr force x, Admits s k roles .admin → s.per.scrub = some x → Answers (.scrub (.mgmt k tag roles) n ddr force) s fun t =>
      t.per = s.per ∧ t.cmp = served s k ∧ Told s t (.mgmt k tag roles) (cRef .state) ∧ Only [.cmp, .out] s t) ∧
  (∀ s x, s.per.scrub = some x → x.acked = true → Answers .scrubComplete s fun t =>
      (t.per.parts.get x.part).tenancy = ((s.per.parts.get x.part).tenancy + 1) % 2 ^ 32 ∧ t.per.scrub = none ∧
      t.per.scrubbing.contains x.part = false ∧ t.per.lastPart = x.part ∧ t.mem = s.mem ∧ Only [.per, .cmp] s t) ∧
  (∀ s x, s.per.scrub = some x → x.escalated = false → x.since + 2 * x.bound ≤ s.ft → Answers .scrubEscalate s fun t =>
      t.per.scrub = some { x with escalated := true } ∧ resettable.all (fenced t) = true ∧ t.mem = s.mem) ∧
  (∀ s k tag roles, Admits s k roles .admin → Answers (.zeroise (.mgmt k tag roles)) s fun t =>
      t.cmp.boot = .halted ∧ t.per.erased = true ∧ t.per.pool = .none ∧ t.per.poolGen = 0 ∧ t.mem = [] ∧ t.pair.aliveOut = false ∧
      t.per.store = s.per.store)

/-- R523 to R527, R555: what bytes a certificate and a signature hold is left open. -/
def Obligations.Attestation : Prop :=
  (∀ s k tag roles, mgmtAnswers s = true → sessionRoom k true s = true → s.cmp.boot ≠ .recovery → Answers (.spdmGetVersion (.mgmt k tag roles)) s fun t =>
    t.out = .msg .spdm k [1, 0x13] [] :: s.out ∧ Only [.cmp, .out, .fresh] s t) ∧
  (∀ s k tag roles, mgmtAnswers s = true → sessionRoom k true s = true → s.cmp.boot ≠ .recovery → Answers (.spdmGetCapabilities (.mgmt k tag roles)) s fun t =>
    t.out = .msg .spdm k [2] [] :: s.out ∧ Only [.cmp, .out, .fresh] s t) ∧
  (∀ s k tag roles, mgmtAnswers s = true → sessionRoom k true s = true → s.cmp.boot ≠ .recovery → Answers (.spdmNegotiateAlgorithms (.mgmt k tag roles)) s fun t =>
    t.out = .msg .spdm k [3] [] :: s.out ∧ Only [.cmp, .out, .fresh] s t) ∧
  (∀ s k tag roles, mgmtAnswers s = true → sessionRoom k true s = true → s.cmp.boot ≠ .recovery → Answers (.spdmGetDigests (.mgmt k tag roles)) s fun t =>
    t.out = .msg .spdm k [4, 1] [] :: s.out ∧ Only [.cmp, .out, .fresh] s t) ∧
  (∀ s k tag roles off len, mgmtAnswers s = true → sessionRoom k true s = true → s.cmp.boot ≠ .recovery →
    Answers (.spdmGetCertificate (.mgmt k tag roles) 0 off len) s fun t =>
      ∃ d : List Byte, d.length = len ∧ t.out = .msg .spdm k [5, 0, off, len] d :: s.out ∧ Only [.cmp, .out, .fresh] s t) ∧
  (∀ s k tag roles slot nonce, mgmtAnswers s = true → sessionRoom k true s = true → s.cmp.boot ≠ .recovery → slot ≠ 0 →
    Answers (.spdmChallenge (.mgmt k tag roles) slot nonce) s fun t => Told s t (.mgmt k tag roles) cNP ∧ Only [.cmp, .out] s t) ∧
  (∀ s k tag roles nonce, mgmtAnswers s = true → sessionRoom k true s = true → s.cmp.boot ≠ .recovery →
    Answers (.spdmChallenge (.mgmt k tag roles) 0 nonce) s fun t =>
      ∃ d : List Byte, d.length = 96 ∧ t.out = .msg .spdm k [6, 0] (nonce ++ d) :: s.out ∧ t.fresh = s.fresh + 1 ∧ Only [.cmp, .out, .fresh] s t) ∧
  (∀ s k tag roles nonce, mgmtAnswers s = true → sessionRoom k true s = true → s.cmp.boot ≠ .recovery →
    Answers (.spdmGetMeasurements (.mgmt k tag roles) 6 nonce) s fun t =>
      ∃ d : List Byte, d.length = 96 ∧
        t.out = .msg .spdm k [7, 6, b2n s.per.debug, s.per.scope, s.cmp.rollback, s.per.poolGen] (nonce ++ d) :: s.out ∧ Only [.cmp, .out, .fresh] s t) ∧
  (∀ s p node tag asid addr n, (port s p).mode = .xcl → (port s p).priv = true → (port s p).part = some n → n < 16 → addr % 128 = 0 →
    scrubFenced s n = false → segStage s { part := n, endpoint := node, asid := asid, va := addr, len := 512, num := node } ≠ .notPermitted →
    segStage s { part := n, endpoint := node, asid := asid, va := addr, len := 512, num := node, write := true } ≠ .notPermitted →
    Answers (.attestReport (.port p node tag) asid addr 4) s fun t => Told s t (.port p node tag) (cRef .queueFull) ∧ Only [.out] s t) ∧
  (∀ s p node tag asid addr n u k, (port s p).mode = .xcl → (port s p).priv = true → (port s p).part = some n → n < 16 → addr % 128 = 0 →
    scrubFenced s n = false → segStage s { part := n, endpoint := node, asid := asid, va := addr, len := 512, num := node } ≠ .notPermitted →
    segStage s { part := n, endpoint := node, asid := asid, va := addr, len := 512, num := node, write := true } ≠ .notPermitted →
    readPieces { part := n, endpoint := node, asid := asid, va := addr, len := 512, num := node } (piecesOf addr 512) [] s [] cOk = (u, k) →
    k.status = .ok → Answers (.attestReport (.port p node tag) asid addr 0) s fun t =>
      let w := writePieces { part := n, endpoint := node, asid := asid, va := addr, len := 512, num := node, write := true } false (piecesOf addr 512) (reportBytes u n ((k.data.drop 16).take 32) ++ signature u) (useFresh u) cOk;
      t = reply (.port p node tag) w.2 w.1) ∧
  (∀ s k tag roles, Admits s k roles .admin → Answers (.debugChallenge (.mgmt k tag roles)) s fun t =>
    ∃ v : Nat, t.per = { s.per with challenge := some v } ∧ Told s t (.mgmt k tag roles) (cData (toLE 16 v)) ∧ t.fresh = s.fresh + 2 ∧
      Only [.cmp, .per, .out, .fresh] s t) ∧
  (∀ s k tag roles scope c, Admits s k roles .admin → Alone s → s.per.challenge = some c → scope < 8 → s.per.storeAbsent = false →
    s.per.faulted.contains 0 = false →
    Answers (.debugUnlock (.mgmt k tag roles) true true true scope s.per.identity c) s fun t =>
      t.per.debug = true ∧ t.per.scope = scope ∧ t.per.challenge = none ∧ t.per.pool = .none ∧ t.per.founding = true ∧ t.per.poolDebug = true) ∧
  (∀ s k tag roles kb sb mb scope i c, Admits s k roles .admin → (kb && sb && mb) = false →
    Answers (.debugUnlock (.mgmt k tag roles) kb sb mb scope i c) s fun t =>
      t.per = { s.per with challenge := none } ∧ t.cmp = served s k ∧ Told s t (.mgmt k tag roles) cNP ∧ Only [.cmp, .per, .out] s t)

/-- R40, R47, R50, R51, R52. -/
def Obligations.DomainControl : Prop :=
  (∀ s k tag roles n, Admits s k roles .admin → n < 16 → scrubFenced s n = false → (dom s n).st ≠ .restarting →
    Answers (.domCtlNone (.mgmt k tag roles) n) s fun t =>
      t.mer = s.mer ∧ t.cmp = served s k ∧ Told s t (.mgmt k tag roles) cOk ∧ Only [.cmp, .out] s t) ∧
  (∀ s k tag roles n, Admits s k roles .admin → n < 16 → scrubFenced s n = false → (dom s n).st = .restarting →
    Answers (.domHold (.mgmt k tag roles) n) s fun t =>
      t.mer = s.mer ∧ t.cmp = served s k ∧ Told s t (.mgmt k tag roles) (cRef .state) ∧ Only [.cmp, .out] s t) ∧
  (∀ s k tag roles n, Admits s k roles .admin → n < 16 → scrubFenced s n = false → ((dom s n).st = .running ∨ (dom s n).st = .stalled) →
    Answers (.domHold (.mgmt k tag roles) n) s fun t =>
      t.mer = { s.mer with doms := s.mer.doms.set n { dom s n with st := .held } } ∧ t.cmp = served s k ∧
      Told s t (.mgmt k tag roles) cOk ∧ Only [.cmp, .mer, .out] s t) ∧
  (∀ s k tag roles n, Admits s k roles .admin → n < 16 → scrubFenced s n = false → (dom s n).st = .held →
    (∀ e ∈ (dom s n).sources, e.2 ≤ (dom s n).angle) → Answers (.domRelease (.mgmt k tag roles) n) s fun t =>
      t.mer = { s.mer with doms := s.mer.doms.set n { dom s n with st := .running, lastRun := s.ft } } ∧ t.cmp = served s k ∧
      Told s t (.mgmt k tag roles) cOk ∧ Only [.cmp, .mer, .out] s t) ∧
  (∀ s k tag roles n, Admits s k roles .admin → n < 16 → scrubFenced s n = false → (dom s n).st = .held → (dom s n).angle % 65536 = 0 →
    s.cmp.swap = none → Alone s → Answers (.domRebase (.mgmt k tag roles) n) s fun t =>
      (dom t n).angle = 0 ∧ (dom t n).commit = 0 ∧ (dom t n).sources = (dom s n).sources.map (fun e => (e.1, 0)) ∧ (dom t n).st = .held ∧
      (dom t n).snap.objs = snapObjs n s ∧ t.mem = s.mem) ∧
  (∀ s k tag roles n node, Admits s k roles .admin → n < 16 → scrubFenced s n = false → (dom s n).st ≠ .restarting →
    (s.cmp.active.nodes ++ s.cmp.active.partnerNodes).any (fun e => e.node == node && e.part == n) = true → (dom s n).sources.length < 256 →
    (dom s n).sources.any (fun e => e.1 == node) = false → Answers (.sourceAdd (.mgmt k tag roles) n node) s fun t =>
      (dom t n).sources = (dom s n).sources.put node (dom s n).angle ∧ (dom t n).angle = (dom s n).angle ∧
      (dom t n).st = (if (dom s n).st = .idle then .running else (dom s n).st) ∧ Told s t (.mgmt k tag roles) cOk ∧ Only [.cmp, .mer, .out] s t) ∧
  (∀ s k tag roles n node a, Admits s k roles .admin → n < 16 → scrubFenced s n = false → (dom s n).st ≠ .restarting →
    (dom s n).sources = [(node, a)] → Answers (.sourceRemove (.mgmt k tag roles) n node) s fun t =>
      t.mer = { s.mer with doms := s.mer.doms.set n { dom s n with sources := [], st := .idle } } ∧ t.cmp = served s k ∧
      Told s t (.mgmt k tag roles) cOk ∧ Only [.cmp, .mer, .out] s t)

/-- R41, R42, R47, R48. -/
def Obligations.Advances : Prop :=
  (∀ s p node a pos n, (port s p).part = some n → nodeAt s p node = some n → (dom s n).st = .running → (dom s n).sources = [(node, pos)] → pos = (dom s n).angle → pos < a →
    angleStep a = angleStep pos → Answers (.angleAdvance p node a) s fun t =>
      (dom t n).angle = a ∧ (dom t n).sources = [(node, a)] ∧ (dom t n).lastAdv = s.ft ∧ (dom t n).commit = (dom s n).commit ∧
      t.mer.objs = s.mer.objs ∧ t.mem = s.mem) ∧
  (∀ s p node a n, (port s p).part = some n → nodeAt s p node = some n → (dom s n).st ≠ .restarting → (dom s n).sources.any (fun e => e.1 == node) = true →
    a < (dom s n).sources.get node → Answers (.angleAdvance p node a) s fun t =>
      t.mer = { s.mer with doms := s.mer.doms.set n { dom s n with backward := sat 16 (dom s n).backward } } ∧ Only [.mer] s t) ∧
  (∀ s p node a n, (port s p).part = some n → (dom s n).st ≠ .restarting → ((dom s n).sources.any (fun e => e.1 == node) = false ∨ nodeAt s p node ≠ some n) →
    Answers (.angleAdvance p node a) s fun t =>
      t.mer = { s.mer with doms := s.mer.doms.set n { dom s n with unregistered := sat 16 (dom s n).unregistered } } ∧ Only [.mer] s t) ∧
  (∀ s n, (dom s n).st = .running → (dom s n).stallNs ≠ 0 → max (dom s n).lastAdv (dom s n).lastRun + (dom s n).stallNs ≤ s.ft →
    Answers (.angleStallTimeout n) s fun t =>
      (dom t n).st = .stalled ∧ (dom t n).stalls = sat 16 (dom s n).stalls ∧ (dom t n).angle = (dom s n).angle ∧ Only [.mer, .cmp] s t) ∧
  (∀ s k tag roles n v, Admits s k roles .admin → ((dom s n).st ≠ .running ∨ bits v 39 0 = 0) → Answers (.stallCfgWrite (.mgmt k tag roles) n v) s fun t =>
      t.mer = { s.mer with doms := s.mer.doms.set n { dom s n with stallNs := bits v 39 0 } } ∧ t.cmp = served s k ∧
      Told s t (.mgmt k tag roles) cOk ∧ Only [.cmp, .mer, .out] s t) ∧
  (∀ s k tag roles n v, Admits s k roles .admin → (dom s n).st = .running → bits v 39 0 ≠ 0 →
    max (dom s n).lastAdv (dom s n).lastRun + bits v 39 0 ≤ s.ft → Answers (.stallCfgWrite (.mgmt k tag roles) n v) s fun t =>
      (dom t n).st = .stalled ∧ (dom t n).stallNs = bits v 39 0 ∧ Told s t (.mgmt k tag roles) cOk ∧ Only [.cmp, .mer, .out] s t) ∧
  (∀ s k tag roles n, Admits s k roles .admin → n < 16 → scrubFenced s n = false → (dom s n).st ≠ .restarting →
    Answers (.domRestart (.mgmt k tag roles) n) s fun t =>
      (dom t n).st = .restarting ∧ (dom t n).angle = angleOf (dom s n).commit 0 ∧ (dom t n).commit = (dom s n).commit ∧
      (dom t n).sources = (dom s n).sources.map (fun e => (e.1, angleOf (dom s n).commit 0)) ∧ (dom t n).pendSnaps = []) ∧
  (∀ s n, (dom s n).st = .restarting → Alone s → Answers (.restartDone n) s fun t =>
      (dom t n).st = (if (dom s n).sources.isEmpty then .idle else .running) ∧ (dom t n).angle = (dom s n).angle ∧
      (dom t n).lastRun = s.ft ∧ t.mer.objs = s.mer.objs ∧ Only [.mer] s t)

/-- R60 to R65, R67. -/
def Obligations.Schedules : Prop :=
  (∀ s n w, running s = true → s.cmp.active.devSched = [] → s.mer.devDue = [] → s.cmp.active.scheds = [(n, { base := 0, entries := [w] })] →
    entKind w = 2 → w.getD 1 0 ≤ s.ft → s.mer.ftNext = [] → s.mer.everLocked = true → Answers .ftOccurrenceFire s fun t =>
      (dom t n).due = (dom s n).due ++ [{ entry := 0, words := w, trigger := w.getD 1 0, ft := true }] ∧ t.mer.ftNext.get 0 = 1 ∧ Only [.mer] s t) ∧
  (∀ s n a rest, running s = true → (dom s n).st ≠ .restarting → (dom s n).due = a :: rest → entAction a.words = 4 → 256 < 16384 - unflushed s →
    unflushed s < 4095 → Answers (.scheduleActionDispatch n) s fun t =>
      (dom t n).due = rest ∧ t.cmp.nextSeq = s.cmp.nextSeq + 1 ∧
      (t.cmp.log.head?.map fun e => (e.code, e.part, e.user, e.data)) = some (bits (entParamA a.words) 15 0, some n, true, [entParamB a.words]) ∧
      Only [.mer, .cmp] s t) ∧
  (∀ s n r, (dom s n).retries = [r] → r.due ≤ s.ft → r.until_ = none → entAction r.act.words = 4 → 256 < 16384 - unflushed s → unflushed s < 4095 →
    Answers (.actionRepresent n) s fun t =>
      (dom t n).retries = [] ∧ t.cmp.nextSeq = s.cmp.nextSeq + 1 ∧ (dom t n).missed = (dom s n).missed ∧ Only [.mer, .cmp] s t) ∧
  (∀ s n r u, (dom s n).retries = [r] → r.due ≤ s.ft → r.until_ = some u → u ≤ s.ft → Answers (.actionRepresent n) s fun t =>
      (dom t n).retries = [] ∧ (dom t n).missed = sat 16 (dom s n).missed ∧ (dom t n).lastEntry = r.act.entry ∧
      (dom t n).lastStatus = Status.code .retry ∧ Only [.mer] s t)

/-- R68 to R72: operations on a COUNTER. -/
def Obligations.SyncCounters : Prop :=
  (∀ s p node tag i, ObjOpen s p i → (obj s i).mode ≠ .unused → ((obj s i).mode ≠ .semaphore ∨ (obj s i).waiters = []) →
    (∀ w ∈ (obj s i).waiters, waitMet (obj s i) w = false) → Answers (.syncRead (.port p node tag) i none) s fun t =>
    Told s t (.port p node tag) { value := (obj s i).value, aux := (obj s i).gen } ∧ obj t i = obj s i ∧ t.mem = s.mem ∧
    (∀ j, j ≠ i → obj t j = obj s j)) ∧
  (∀ s p node tag i v, ObjOpen s p i → (obj s i).mode = .counter → (obj s i).waiters = [] → (obj s i).value + v < 2 ^ 64 →
    Answers (.syncAdd (.port p node tag) i v none) s fun t =>
      obj t i = { obj s i with value := (obj s i).value + v } ∧ (∀ j, j ≠ i → obj t j = obj s j) ∧
      Told s t (.port p node tag) { value := (obj s i).value, aux := (obj s i).gen } ∧ Only [.mer, .out] s t) ∧
  (∀ s p node tag i v, ObjOpen s p i → (obj s i).mode = .counter → 2 ^ 64 ≤ (obj s i).value + v → Answers (.syncAdd (.port p node tag) i v none) s fun t =>
      Told s t (.port p node tag) { cRef .state with value := (obj s i).value, aux := (obj s i).gen } ∧ Only [.out] s t) ∧
  (∀ s p node tag i v w q, ObjOpen s p i → (obj s i).mode = .counter → (obj s i).waiters = [w] → w.kind = .ge → w.req = .port q 9 3 →
    w.operand ≤ (obj s i).value + v → (obj s i).value + v < 2 ^ 64 → Answers (.syncAdd (.port p node tag) i v none) s fun t =>
      obj t i = { obj s i with value := (obj s i).value + v, waiters := [] } ∧
      t.out = .cpl (.port p node tag) { value := (obj s i).value, aux := (obj s i).gen } ::
        .cpl w.req { value := (obj s i).value + v, aux := (obj s i).gen } :: s.out ∧ Only [.mer, .out] s t) ∧
  (∀ s p node tag i v k, ObjOpen s p i → (obj s i).mode = .counter → v ≤ (obj s i).value → (obj s i).waiters = [] → Answers (.waitGe (.port p node tag) i v none k) s fun t =>
      Told s t (.port p node tag) { value := (obj s i).value, aux := (obj s i).gen } ∧ obj t i = obj s i ∧ Only [.mer, .out] s t) ∧
  (∀ s p node tag i v k, ObjOpen s p i → (obj s i).mode = .counter → (obj s i).value < v → waitersAll s < 16384 →
    waitersOf s (obj s i).part < (partRec s (obj s i).part).waiterQuota → Answers (.waitGe (.port p node tag) i v none k) s fun t =>
      obj t i = { obj s i with waiters := (obj s i).waiters ++
        [{ kind := .ge, operand := v, req := .port p node tag, deadline := if k = 0 then none else some (s.ft + 2 ^ (k - 1) * 1000) }] } ∧ Only [.mer] s t) ∧
  (∀ s p node tag i k, ObjOpen s p i → (obj s i).mode = .counter → (obj s i).waiters = [] → Answers (.waitEq (.port p node tag) i (obj s i).value none k) s fun t =>
      Told s t (.port p node tag) { value := (obj s i).value, aux := (obj s i).gen } ∧ obj t i = obj s i ∧ Only [.mer, .out] s t) ∧
  (∀ s k tag roles i v, i < 65536 → (obj s i).mode = .counter → (obj s i).waiters = [] → scrubFenced s (obj s i).part = false →
    (dom s (obj s i).part).st ≠ .restarting → Answers (.syncSet (.mgmt k tag roles) i v none) s fun t =>
      obj t i = { obj s i with value := v % 2 ^ 64, gen := ((obj s i).gen + 1) % 2 ^ 32 } ∧
      Told s t (.mgmt k tag roles) { value := (obj s i).value, aux := ((obj s i).gen + 1) % 2 ^ 32 } ∧ Only [.mer, .out] s t) ∧
  (∀ s p node tag i v, Answers (.syncSet (.port p node tag) i v none) s fun t => Told s t (.port p node tag) cNP ∧ Only [.out] s t) ∧
  (∀ s i w q, (obj s i).waiters = [w] → w.req = .port q 9 3 → (∃ d, w.deadline = some d ∧ d ≤ s.ft) → (obj s i).mode = .counter →
    Answers (.syncWaitTimeout i) s fun t =>
      obj t i = { obj s i with waiters := [] } ∧
      Told s t w.req { status := .timeout, value := (obj s i).value, aux := (obj s i).gen } ∧ Only [.mer, .out] s t)

/-- R68, R70, R71, R73: operations on a BARRIER and a SEMAPHORE. -/
def Obligations.SyncBarriers : Prop :=
  (∀ s p node tag i v, ObjOpen s p i → (obj s i).mode = .barrier → (obj s i).waiters = [] → 0 < v → (obj s i).value + v < (obj s i).target →
    Answers (.arrive (.port p node tag) i v none) s fun t =>
      obj t i = { obj s i with value := (obj s i).value + v } ∧
      Told s t (.port p node tag) { value := (obj s i).value, aux := (obj s i).gen } ∧ Only [.mer, .out] s t) ∧
  (∀ s p node tag i v, ObjOpen s p i → (obj s i).mode = .barrier → (obj s i).waiters = [] → 0 < v → (obj s i).value + v = (obj s i).target →
    Answers (.arrive (.port p node tag) i v none) s fun t =>
      obj t i = { obj s i with value := 0, gen := ((obj s i).gen + 1) % 2 ^ 32 } ∧
      Told s t (.port p node tag) { value := (obj s i).value, aux := ((obj s i).gen + 1) % 2 ^ 32 } ∧ Only [.mer, .out] s t) ∧
  (∀ s p node tag i v k, ObjOpen s p i → (obj s i).mode = .barrier → (obj s i).waiters = [] → v % 2 ^ 32 < (obj s i).gen →
    Answers (.waitGen (.port p node tag) i v none k) s fun t =>
      Told s t (.port p node tag) { value := (obj s i).value, aux := (obj s i).gen } ∧ obj t i = obj s i ∧ Only [.mer, .out] s t) ∧
  (∀ s p node tag i v k, ObjOpen s p i → (obj s i).mode = .semaphore → (obj s i).waiters = [] → 0 < v → v ≤ (obj s i).value →
    Answers (.acquire (.port p node tag) i v none k) s fun t =>
      obj t i = { obj s i with value := (obj s i).value - v } ∧
      Told s t (.port p node tag) { value := (obj s i).value, aux := (obj s i).gen } ∧ Only [.mer, .out] s t) ∧
  (∀ s p node tag i v k, ObjOpen s p i → (obj s i).mode = .semaphore → (obj s i).waiters ≠ [] → 0 < v → waitersAll s < 16384 →
    waitersOf s (obj s i).part < (partRec s (obj s i).part).waiterQuota → Answers (.acquire (.port p node tag) i v none k) s fun t =>
      (obj t i).value = (obj s i).value ∧ (obj t i).waiters.length = (obj s i).waiters.length + 1 ∧ (obj t i).waiters.head? = (obj s i).waiters.head? ∧
      Only [.mer] s t) ∧
  (∀ s p node tag i v, ObjOpen s p i → (obj s i).mode = .semaphore → (obj s i).waiters = [] → 0 < v → v ≤ (obj s i).value →
    Answers (.tryAcquire (.port p node tag) i v none) s fun t =>
      obj t i = { obj s i with value := (obj s i).value - v } ∧
      Told s t (.port p node tag) { value := (obj s i).value, aux := (obj s i).gen } ∧ Only [.mer, .out] s t) ∧
  (∀ s p node tag i v, ObjOpen s p i → (obj s i).mode = .semaphore → (obj s i).waiters ≠ [] → 0 < v →
    Answers (.tryAcquire (.port p node tag) i v none) s fun t =>
      Told s t (.port p node tag) { cRef .state with value := (obj s i).value, aux := (obj s i).gen } ∧ Only [.out] s t) ∧
  (∀ s p node tag i v, ObjOpen s p i → (obj s i).mode = .semaphore → (obj s i).waiters = [] → (obj s i).value + v < 2 ^ 64 →
    Answers (.syncRelease (.port p node tag) i v none) s fun t =>
      obj t i = { obj s i with value := (obj s i).value + v } ∧
      Told s t (.port p node tag) { value := (obj s i).value, aux := (obj s i).gen } ∧ Only [.mer, .out] s t) ∧
  (∀ s p node tag i v w x q, ObjOpen s p i → (obj s i).mode = .semaphore → (obj s i).waiters = [w, x] → w.kind = .acquire → x.kind = .acquire →
    w.req = .port q 9 3 → (obj s i).value + v < 2 ^ 64 → w.operand ≤ (obj s i).value + v → (obj s i).value + v < w.operand + x.operand →
    Answers (.syncRelease (.port p node tag) i v none) s fun t =>
      obj t i = { obj s i with value := (obj s i).value + v - w.operand, waiters := [x] } ∧
      t.out = .cpl (.port p node tag) { value := (obj s i).value, aux := (obj s i).gen } ::
        .cpl w.req { value := (obj s i).value + v, aux := (obj s i).gen } :: s.out)

/-- R72, R78 to R83: each instruction at the program counter of a running sequencer. -/
def Obligations.Olvin : Prop :=
  (∀ s k node tag m entry asid dbase pc, (port s k).part = some (seqOf s m).part → m < 132 → (seqOf s m).owned = true → entryPoint s m entry = some pc →
    fenceCpl s (seqBlock m) (seqOf s m).part = none → (seqOf s m).run = .idle → Answers (.sequencerStart (.port k node tag) m entry asid dbase) s fun t =>
      seqOf t m = { seqOf s m with pc := pc, run := .running, st := {}, acc := {}, loops := [0, 0, 0, 0], dbase := dbase, asid := asid, bank := s.mer.bank, stack := [], wait := .none, cmd := none } ∧
      Told s t (.port k node tag) cOk ∧ Only [.mer, .out] s t) ∧
  (∀ s k node tag m entry asid dbase pc, (port s k).part = some (seqOf s m).part → m < 132 → (seqOf s m).owned = true → entryPoint s m entry = some pc →
    fenceCpl s (seqBlock m) (seqOf s m).part = none → (seqOf s m).run ≠ .idle → (seqOf s m).starts.length < 4 →
    Answers (.sequencerStart (.port k node tag) m entry asid dbase) s fun t =>
      seqOf t m = { seqOf s m with starts := (seqOf s m).starts ++ [{ entry := entry, dbase := some dbase, asid := asid }] } ∧
      Told s t (.port k node tag) cOk ∧ Only [.mer, .out] s t) ∧
  (∀ s m w, seqInstr s m 0 = some w → (seqOf s m).cmd = none → (seqOf s m).starts = [] → Answers (.halt m) s fun t =>
      t.mer = { s.mer with seqs := s.mer.seqs.set m { seqOf s m with run := .idle, wait := .none, stack := [] } } ∧ Only [.mer] s t) ∧
  (∀ s m w, seqInstr s m 1 = some w → (seqOf s m).stack = [] → bitOf w 56 = false → Answers (.dfetch m) s fun t =>
      let va := ((seqOf s m).dbase + 16 * bits w 31 0) % 2 ^ 64; let len := (bits w 53 50 + 1) * 16;
      seqOf t m = { seqOf s m with pc := (seqOf s m).pc + 1, run := .waiting, wait := .dfetch (bits w 58 57) va len } ∧
      t.out = .msg .memRead m [va, len] [] :: s.out ∧ Only [.mer, .out] s t) ∧
  (∀ s m buf va len u c, (seqOf s m).wait = .dfetch buf va len → engineRead (seqOf s m).part (seqOf s m).asid va len s = (u, c) → c.status = .ok →
    Answers (.dfetchDataReturn m) s fun t =>
      t = setSeq m { seqOf u m with bufs := listSet (seqOf u m).bufs buf (overlay ((seqOf u m).bufs.getD buf []) c.data), st := { c with data := [] }, run := .running, wait := .none } u) ∧
  (∀ s m w, seqInstr s m 2 = some w → bitOf w 56 = false → 0 < bits w 31 0 → Answers (.loop m) s fun t =>
      seqOf t m = { seqOf s m with pc := (seqOf s m).pc + 1, loops := listSet (seqOf s m).loops (bits w 58 57) 0, stack := { lc := bits w 58 57, first := (seqOf s m).pc + 1, last := (seqOf s m).pc + bits w 55 44, count := bits w 31 0 } :: (seqOf s m).stack } ∧
      Only [.mer] s t) ∧
  (∀ s m w, seqInstr s m 2 = some w → bitOf w 56 = false → bits w 31 0 = 0 → (seqOf s m).stack = [] → Answers (.loop m) s fun t =>
      seqOf t m = { seqOf s m with pc := (seqOf s m).pc + bits w 55 44 + 1 } ∧ Only [.mer] s t) ∧
  (∀ s m w i, seqInstr s m 3 = some w → (seqOf s m).stack = [] → bits w 58 57 = 0 → bitOf w 35 = false → i = bits w 51 36 →
    (obj s i).part = (seqOf s m).part → (obj s i).mode = .counter → (obj s i).waiters = [] → bits w 31 0 ≤ (obj s i).value →
    scrubFenced s (seqOf s m).part = false → (dom s (seqOf s m).part).st ≠ .restarting → Answers (.waitsync m) s fun t =>
      seqOf t m = { seqOf s m with pc := (seqOf s m).pc + 1, st := { value := (obj s i).value, aux := (obj s i).gen }, run := .running, wait := .none } ∧
      obj t i = obj s i ∧ Only [.mer] s t) ∧
  (∀ s m w, seqInstr s m 4 = some w → (seqOf s m).stack = [] → bits w 58 57 = 0 → bits w 47 0 ≤ (dom s (seqOf s m).part).angle →
    Answers (.waitang m) s fun t =>
      seqOf t m = { seqOf s m with pc := (seqOf s m).pc + 1, st := cOk } ∧ Only [.mer] s t) ∧
  (∀ s m w, seqInstr s m 4 = some w → (seqOf s m).stack = [] → bits w 58 57 = 0 → (dom s (seqOf s m).part).angle < bits w 47 0 →
    Answers (.waitang m) s fun t =>
      seqOf t m = { seqOf s m with pc := (seqOf s m).pc + 1, run := .waiting, wait := .angle (bits w 47 0) (tmoLimit s (bits w 56 52)) } ∧ Only [.mer] s t) ∧
  (∀ s m target d, (seqOf s m).wait = .angle target (some d) → d ≤ s.ft → Answers (.seqWaitTimeout m) s fun t =>
      seqOf t m = { seqOf s m with st := cTimeout, run := .running, wait := .none } ∧ Only [.mer] s t) ∧
  (∀ s m w i, seqInstr s m 6 = some w → (seqOf s m).stack = [] → (seqOf s m).outst = [] → bits w 58 55 = 1 → bitOf w 35 = false → i = bits w 51 36 →
    (obj s i).part = (seqOf s m).part → (obj s i).mode = .counter → (obj s i).waiters = [] → (obj s i).value + bits w 31 0 < 2 ^ 64 →
    scrubFenced s (seqOf s m).part = false → (dom s (seqOf s m).part).st ≠ .restarting → Answers (.signal m) s fun t =>
      seqOf t m = { seqOf s m with pc := (seqOf s m).pc + 1, st := { value := (obj s i).value, aux := (obj s i).gen } } ∧
      obj t i = { obj s i with value := (obj s i).value + bits w 31 0 } ∧ Only [.mer] s t) ∧
  (∀ s m w, seqInstr s m 7 = some w → (seqOf s m).stack = [] → bits w 58 57 = 2 → bitOf w 56 = false → Answers (.brst m) s fun t =>
      seqOf t m = { seqOf s m with pc := bits w 43 32 } ∧ Only [.mer] s t) ∧
  (∀ s m w, seqInstr s m 7 = some w → (seqOf s m).stack = [] → bits w 58 57 = 0 → bitOf w 56 = false → (seqOf s m).st.status.code ≠ bits w 55 52 →
    Answers (.brst m) s fun t => seqOf t m = { seqOf s m with pc := (seqOf s m).pc + 1 } ∧ Only [.mer] s t)

/-- R78, R80. -/
def Obligations.Issues : Prop :=
  (∀ s q c rest pc, q < 64 → queueOf s .cone q = c :: rest → entryPoint s (32 + q) 0 = some pc → (seqOf s (32 + q)).run = .idle →
    (seqOf s (32 + q)).starts = [] → (seqOf s (32 + q)).bufs.length = 4 → fenced s .cone = false → c.held = false → scrubFenced s c.part = false →
    Answers (.blockCmdPresent .cone q) s fun t =>
      queueOf t .cone q = rest ∧ (seqOf t (32 + q)).run = .running ∧ (seqOf t (32 + q)).pc = pc ∧ (seqOf t (32 + q)).cmd = some c ∧
      (seqOf t (32 + q)).asid = c.asid ∧ ((seqOf t (32 + q)).bufs.getD 0 []).take 64 = (c.words.take 8).flatMap (toLE 8) ++
        (((seqOf s (32 + q)).bufs.getD 0 []).drop ((c.words.take 8).flatMap (toLE 8)).length).take (64 - ((c.words.take 8).flatMap (toLE 8)).length) ∧
      Only [.eng, .mer] s t) ∧
  (∀ s m w, seqInstr s m 5 = some w → 16 ≤ (seqOf s m).outst.length → Answers (.issue m) s fun t =>
      seqOf t m = { seqOf s m with run := .waiting, wait := .room } ∧ Only [.mer] s t) ∧
  (∀ s m w, seqInstr s m 5 = some w → (seqOf s m).outst.length < 16 → (seqOf s m).cmd = none → (seqOf s m).stack = [] → bits w 51 48 ≠ 0 → bitOf w 56 = true →
    (∀ j ∈ (seqOf s m).outst, j.slot ≠ (seqOf s m).nextSlot) → Answers (.issue m) s fun t =>
      seqOf t m = { seqOf s m with pc := (seqOf s m).pc + 1, nextSlot := (seqOf s m).nextSlot + 1, run := .waiting, wait := .issue (seqOf s m).nextSlot, outst := (seqOf s m).outst ++ [{ slot := (seqOf s m).nextSlot, awaited := true, done := some cBad }] } ∧
      Only [.mer] s t) ∧
  (∀ s m w c, seqInstr s m 5 = some w → 32 ≤ m → m < 96 → (seqOf s m).outst.length < 16 → (seqOf s m).cmd = some c → (seqOf s m).stack = [] → bits w 51 48 = 0 → bitOf w 56 = false →
    ofLE (((seqOf s m).bufs.getD (bits w 58 57) []).take 64) = ofLE ((c.words.flatMap (toLE 8)).take 64) → Answers (.issue m) s fun t =>
      issuedOf t .cone c.id = issuedOf s .cone c.id ++ [{ c with issuer := some (m, (seqOf s m).nextSlot) }] ∧
      seqOf t m = { seqOf s m with pc := (seqOf s m).pc + 1, nextSlot := (seqOf s m).nextSlot + 1, run := .running, wait := .none, cmd := none, outst := (seqOf s m).outst ++ [{ slot := (seqOf s m).nextSlot, awaited := false }] } ∧
      Only [.mer, .eng] s t) ∧
  (∀ s m slot c, (seqOf s m).outst = [{ slot := slot, awaited := true, done := some c }] → (seqOf s m).wait = .issue slot → (seqOf s m).run = .waiting →
    Answers (.issueComplete m slot) s fun t =>
      seqOf t m = { seqOf s m with outst := [], st := { c with data := [] }, run := .running, wait := .none } ∧ Only [.mer] s t) ∧
  (∀ s m slot c, (seqOf s m).outst = [{ slot := slot, awaited := false, done := some c }] → (seqOf s m).wait = .none → (seqOf s m).run = .running →
    c.status ≠ .ok → (seqOf s m).acc.status = .ok → Answers (.issueComplete m slot) s fun t =>
      seqOf t m = { seqOf s m with outst := [], acc := { c with data := [] } } ∧ Only [.mer] s t)

/-- R22, R24, R419 to R425. -/
def Obligations.Packets : Prop :=
  (∀ s p, 264 ≤ p.input → p.slot < 7 → isPair p.output = false → (port s p.output).st ≠ .stopped → waitsAhead s p = none → (flowOf s p.input p.part p.slot).1.police = false →
    cellRoom s false p.part (cellsOf p.len) = true → Answers (.packetAdmit p) s fun t =>
      (∃ x, t.arc.packets = s.arc.packets ++ [x] ∧ x.id = s.arc.nextId ∧ x.input = p.input ∧ x.out = p.output ∧ x.part = p.part ∧ x.slot = p.slot ∧
        x.len = p.len ∧ x.who = p.who ∧ x.arrived = s.ft) ∧
      t.lat.used.get p.part = s.lat.used.get p.part + cellsOf p.len ∧ t.lat.internalUsed = s.lat.internalUsed ∧ Only [.arc, .lat] s t) ∧
  (∀ s p node tag k n, p.input = k → k < 256 → p.who = .port k node tag → p.posted = false → p.cls = 0 → (port s k).mode = .xcl → (port s k).part = some n →
    p.slot < 3 → waitsAhead s p = none → (flowOf s k n p.slot).2 = true → (flowOf s k n p.slot).1.police = false →
    (flowOf s k n p.slot).1.qmax ≤ flowCells s (flowOf s k n p.slot).1.n → Answers (.packetAdmit p) s fun t =>
      t.arc.packets = s.arc.packets ∧ t.lat = s.lat ∧ Told s t (.port k node tag) (cRef .queueFull) ∧ Only [.arc, .out] s t) ∧
  (∀ s a p at_, 264 ≤ a → p.input = a → p.slot < 7 → isPair p.output = false → (flowOf s a p.part p.slot).1.police = false →
    cellRoom s false p.part (cellsOf p.len) = true → (port s p.output).st ≠ .stopped → s.arc.held = [{ pkt := p, at_ := at_ }] → Answers (.attachmentHoldRelease a) s fun t =>
      t.arc.held = [] ∧ t.arc.packets.length = s.arc.packets.length + 1 ∧ t.lat.used.get p.part = s.lat.used.get p.part + cellsOf p.len ∧
      Only [.arc, .lat] s t) ∧
  (∀ s a p at_, 264 ≤ a → p.input = a → p.slot < 7 → isPair p.output = false → (flowOf s a p.part p.slot).1.police = false →
    cellRoom s false p.part (cellsOf p.len) = true → (port s p.output).st ≠ .stopped → s.arc.held = [{ pkt := p, red := true, at_ := at_ }] → Answers (.redHoldRelease a) s fun t =>
      t.arc.held = [] ∧ t.arc.packets.length = s.arc.packets.length + 1 ∧ t.lat.used.get p.part = s.lat.used.get p.part + cellsOf p.len ∧
      Only [.arc, .lat] s t) ∧
  (∀ s o p rest, eligible s o 7 = p :: rest → 264 ≤ p.input → p.bucket = none → Answers (.outputDequeue o) s fun t =>
      t.arc.packets = s.arc.packets.filter (fun x => x.id != p.id) ∧ Out.msg .packetOut o [p.id, p.input, p.part, p.slot, p.len] [] ∈ t.out ∧
      (if p.rsv then t.lat.internalUsed = s.lat.internalUsed - cellsOf p.len else t.lat.used.get p.part = s.lat.used.get p.part - cellsOf p.len) ∧
      t.mem = s.mem ∧ t.cmp = s.cmp ∧ t.mer = s.mer) ∧
  (∀ s o n k at_, (outSt s o).since.find? (fun e => e.1 == n * 8 + k) = some (n * 8 + k, at_) → starveNs s k ≠ 0 → at_ + starveNs s k ≤ s.ft →
    (outSt s o).urgent = [] → Answers (.starvationPromote .lattice o n k) s fun t =>
      (outSt t o).urgent = [.queue n k (tierQuantum s n k)] ∧ (t.arc.parts.get n).promotions = sat 16 (s.arc.parts.get n).promotions ∧ Only [.arc] s t)

/-- R431 to R433, R437, R447. -/
def Obligations.FlowControl : Prop :=
  (∀ s p time, (port s p).mode = .eth → (ethCfg s p).mode = 1 → time ≠ 0 → Answers (.pauseFrameRx p time) s fun t =>
    t.arc.paused = s.arc.paused.put (p * 16 + 8) (s.ft + quantaNs s p time) ∧ (t.arc.eth.get p).pauseRx = sat 16 (s.arc.eth.get p).pauseRx ∧ Only [.arc] s t) ∧
  (∀ s p time, (port s p).mode = .eth → (ethCfg s p).mode = 2 → Answers (.pauseFrameRx p time) s fun t =>
    t.arc.paused = s.arc.paused ∧ (t.arc.eth.get p).discards = sat 16 (s.arc.eth.get p).discards ∧ Only [.arc] s t) ∧
  (∀ s p mask times i, (port s p).mode = .eth → (ethCfg s p).mode = 2 → i < 8 → bitOf mask i = true → bitOf (ethCfg s p).pfcEn i = true → times.getD i 0 ≠ 0 →
    Answers (.pfcFrameRx p mask times) s fun t =>
      t.arc.paused.get (p * 16 + i) = s.ft + quantaNs s p (times.getD i 0) ∧ (t.arc.eth.get p).pauseRx = sat 16 (s.arc.eth.get p).pauseRx ∧ Only [.arc] s t) ∧
  (∀ s p k at_, s.arc.paused.find? (fun e => e.1 == p * 16 + k) = some (p * 16 + k, at_) → at_ ≤ s.ft → Answers (.pauseExpire p k) s fun t =>
    t.arc = { s.arc with paused := s.arc.paused.del (p * 16 + k) } ∧ Only [.arc] s t) ∧
  (∀ s p prio at_, (port s p).mode = .eth → (ethCfg s p).mode = 1 → s.arc.fcSent.find? (fun e => e.1 == p * 16 + 8) = some (p * 16 + 8, at_) →
    (ethCfg s p).xoffKib * 1024 ≤ fcBytes s (p * 16 + 8) → at_ + quantaNs s p 0xFFFF / 2 ≤ s.ft → Answers (.fcRefresh p prio) s fun t =>
      t.out = .msg .pauseFrame p [0xFFFF] [] :: s.out ∧ t.arc.fcSent = s.arc.fcSent.put (p * 16 + 8) s.ft ∧ Only [.arc, .out] s t) ∧
  (∀ s p node tag k n, (port s p).mode = .xcl → (port s p).priv = true → (port s p).part = some n → Answers (.freeze (.port p node tag) k) s fun t =>
    t.arc = { s.arc with frozen := setBit s.arc.frozen n } ∧ Told s t (.port p node tag) cOk ∧ Only [.arc, .out] s t) ∧
  (∀ s k tag roles n, Admits s k roles .admin → Answers (.thaw (.mgmt k tag roles) n) s fun t =>
    t.arc = { s.arc with frozen := clearBit s.arc.frozen n } ∧ t.cmp = served s k ∧ Told s t (.mgmt k tag roles) cOk ∧ Only [.cmp, .arc, .out] s t) ∧
  (∀ s k tag roles n, Admits s k roles .admin → Answers (.monClear (.mgmt k tag roles) n) s fun t =>
    t.arc = { s.arc with mons := s.arc.mons.filter (fun e => e.1 % 16 != n) } ∧ t.cmp = served s k ∧ Told s t (.mgmt k tag roles) cOk ∧
    Only [.cmp, .arc, .out] s t) ∧
  (∀ s p node tag k, (port s p).priv = false → Answers (.freeze (.port p node tag) k) s fun t => Told s t (.port p node tag) cNP ∧ Only [.out] s t)

/-- R28, R86 to R96, R105, R461, R465. -/
def Obligations.MemoryRequests : Prop :=
  (∀ s p node tag asid va len cls n c g w off pa e, (port s p).part = some n → n < 16 → nodeAt s p node = some n → 0 < len → va % 4096 + len ≤ 4096 →
    segStage s { part := n, endpoint := node, asid := asid, va := va, len := len, num := node, tag := tag } = .ok c g w off →
    fenceCpl s .locus n = none → segType w = 2 → segCoherent w = false → directAns s n w off false = (.leaf e, pa) → bits pa 63 52 = 0 →
    serveCpl s (bits pa 51 0 / pageBytes) false = none → homeLocal s (bits pa 51 0 / pageBytes) = true →
    Answers (.memRd (.port p node tag) asid va len false cls) s fun t =>
      (∃ r ∈ t.loc.reqs, r.id = s.loc.nextReq ∧ r.who = .port p node tag ∧ r.kind = .rd ∧ r.phase = .access ∧ r.part = n ∧ r.pa = pa ∧ r.len = len ∧ r.since = s.ft) ∧
      t.loc.nextReq = s.loc.nextReq + 1 ∧ pa = (segBase w + off) % 2 ^ 64 ∧ Only [.loc] s t) ∧
  (∀ s p node tag asid va data cls n c g w off pa e, (port s p).part = some n → n < 16 → nodeAt s p node = some n → data ≠ [] → va % 4096 + data.length ≤ 4096 →
    segStage s { part := n, endpoint := node, asid := asid, va := va, len := data.length, write := true, num := node, tag := tag } = .ok c g w off →
    fenceCpl s .locus n = none → segType w = 2 → segCoherent w = false → directAns s n w off true = (.leaf e, pa) → bits pa 63 52 = 0 →
    serveCpl s (bits pa 51 0 / pageBytes) true = none → homeLocal s (bits pa 51 0 / pageBytes) = true → (page s (bits pa 51 0 / pageBytes)).st ≠ .zero →
    Answers (.memWr (.port p node tag) asid va data false false cls) s fun t =>
      (∃ r ∈ t.loc.reqs, r.id = s.loc.nextReq ∧ r.who = .port p node tag ∧ r.kind = .wr ∧ r.phase = .access ∧ r.part = n ∧ r.pa = pa ∧ r.data = data ∧ r.mark = false) ∧
      t.loc.nextReq = s.loc.nextReq + 1 ∧ pa = (segBase w + off) % 2 ^ 64 ∧ Only [.loc] s t) ∧
  (∀ s p node tag asid va data cls n c g w off pa e, (port s p).part = some n → n < 16 → nodeAt s p node = some n → data ≠ [] → va % 4096 + data.length ≤ 4096 →
    segStage s { part := n, endpoint := node, asid := asid, va := va, len := data.length, write := true, posted := true, num := node, tag := tag } = .ok c g w off →
    fenceCpl s .locus n = none → segType w = 2 → segCoherent w = false → directAns s n w off true = (.leaf e, pa) → bits pa 63 52 = 0 →
    serveCpl s (bits pa 51 0 / pageBytes) true = none → homeLocal s (bits pa 51 0 / pageBytes) = true → (page s (bits pa 51 0 / pageBytes)).st ≠ .zero →
    Answers (.wrPosted (.port p node tag) asid va data false true cls) s fun t =>
      (∃ r ∈ t.loc.reqs, r.id = s.loc.nextReq ∧ r.who = .port p node tag ∧ r.kind = .posted ∧ r.phase = .access ∧ r.part = n ∧ r.pa = pa ∧ r.data = data ∧ r.mark = true) ∧
      t.loc.nextReq = s.loc.nextReq + 1 ∧ Only [.loc] s t) ∧
  (∀ s p node tag asid va n c g w off pa e, (port s p).part = some n → n < 16 → nodeAt s p node = some n → (port s p).translating = true →
    segStage s { part := n, endpoint := node, asid := asid, va := va - va % pageBytes, len := 1, num := node, tag := tag } = .ok c g w off →
    fenceCpl s .locus n = none → segType w = 2 → directAns s n w off false = (.leaf e, pa) → (∀ r ∈ s.loc.reqs, r.id ≠ s.loc.nextReq) →
    Answers (.xlReq (.port p node tag) asid va) s fun t =>
      Told s t (.port p node tag) { value := pa, aux := 3 } ∧ (c, node) ∈ t.loc.cached ∧ t.loc.reqs = s.loc.reqs ∧ Only [.loc, .out] s t) ∧
  (∀ s p node tag asid va len cls n, (port s p).part = some n → n < 16 → nodeAt s p node = some n → 0 < len → len ≤ 4096 → findCtx s n node asid = none →
    (∀ r ∈ s.loc.reqs, r.id ≠ s.loc.nextReq) → Answers (.memRd (.port p node tag) asid va len false cls) s fun t =>
      Told s t (.port p node tag) cNP ∧ t.loc.reqs = s.loc.reqs ∧ Only [.loc, .out] s t) ∧
  (∀ s p node tag asid va cls n c g w off, (port s p).part = some n → n < 16 → nodeAt s p node = some n →
    segStage s { part := n, endpoint := node, asid := asid, va := va, len := 0, num := node, tag := tag } = .ok c g w off →
    (∀ r ∈ s.loc.reqs, r.id ≠ s.loc.nextReq) → Answers (.memRd (.port p node tag) asid va 0 false cls) s fun t =>
      Told s t (.port p node tag) cBad ∧ t.loc.reqs = s.loc.reqs ∧ Only [.loc, .out] s t) ∧
  (∀ s p node tag asid va len cls n c g, (port s p).part = some n → n < 16 → nodeAt s p node = some n → 0 < len → va % 4096 + len ≤ 4096 →
    segStage s { part := n, endpoint := node, asid := asid, va := va, len := len, num := node, tag := tag } = .fault .limit c g →
    fenceCpl s .locus n = none → (locPart s n).count < (partRec s n).fqSize → (∀ r ∈ s.loc.reqs, r.id ≠ s.loc.nextReq) →
    Answers (.memRd (.port p node tag) asid va len false cls) s fun t =>
      Told s t (.port p node tag) { status := .faulted } ∧ (locPart t n).count = (locPart s n).count + 1 ∧ t.loc.reqs = s.loc.reqs ∧
      t.loc.ring.get ((partRec s n).fqBase + (locPart s n).tail) =
        [pack [(4, 1), (1, 0), (1, 0), (1, 0), (3, 0), (12, node), (12, asid), (12, c - (partRec s n).ctxBase), (4, g)], va, s.ft, (dom s n).angle, 0, 0,
         pack [(16, len), (32, tag)], (locPart s n).seq % 2 ^ 32] ∧ Only [.loc, .out] s t) ∧
  (∀ s p node tag asid va len cls n c g w off, (port s p).part = some n → n < 16 → nodeAt s p node = some n → 0 < len → va % 4096 + len ≤ 4096 →
    segStage s { part := n, endpoint := node, asid := asid, va := va, len := len, num := node, tag := tag } = .ok c g w off →
    fenceCpl s .locus n = none → segType w = 1 → s.loc.tlb1 = [] → s.loc.tlb2 = [] → s.loc.walks = [] → 0 < (partRec s n).walkQuota →
    (s.loc.ctxs.get c).segs.getD g [] = w → Answers (.memRd (.port p node tag) asid va len false cls) s fun t =>
      t.loc.walks = [{ id := s.loc.nextWalk, part := n, ctx := c, segNo := g, seg := w, page := off / pageBytes, level := 4 - segRoot w, table := segBase w, joined := [s.loc.nextReq], first := s.ft }] ∧
      t.out = .msg .walkRead n [s.loc.nextWalk] [] :: s.out ∧ Only [.loc, .arc, .out] s t)

/-- R29, R35, R208, R209, R588. -/
def Obligations.MemoryAccesses : Prop :=
  (∀ s id r p node tag ext, s.loc.reqs.find? (fun x => x.id == id) = some r → r.phase = .access → r.retryAt = none → r.kind = .rd → r.who = .port p node tag →
    bits r.pa 63 52 = 0 → serveCpl s (bits r.pa 51 0 / pageBytes) false = none → readPoisoned s (bits r.pa 51 0) r.len = false →
    Answers (.memoryAccessComplete (.req id) .good ext) s fun t =>
      Told s t (.port p node tag) (cData (memBytes s.mem (bits r.pa 51 0) r.len)) ∧ t.loc.reqs = s.loc.reqs.filter (fun x => x.id != id) ∧
      t.pln.pages = s.pln.pages ∧ Only [.loc, .pln, .arc, .out] s t) ∧
  (∀ s id r p node tag, s.loc.reqs.find? (fun x => x.id == id) = some r → r.phase = .access → r.retryAt = none → r.kind = .wr → r.who = .port p node tag →
    bits r.pa 63 52 = 0 → serveCpl s (bits r.pa 51 0 / pageBytes) true = none → r.fwd = false → r.mark = false → (page s (bits r.pa 51 0 / pageBytes)).st = .resident →
    Memory.wf s.mem = true → Clean s (bits r.pa 51 0) r.data.length →
    Answers (.memoryAccessComplete (.req id) .good []) s fun t =>
      memBytes t.mem (bits r.pa 51 0) r.data.length = r.data ∧
      (∀ a, a < bits r.pa 51 0 ∨ bits r.pa 51 0 + r.data.length ≤ a → memRead t.mem a = memRead s.mem a) ∧
      Told s t (.port p node tag) cOk ∧ t.loc.reqs = s.loc.reqs.filter (fun x => x.id != id) ∧ t.pln.pages = s.pln.pages ∧
      Only [.loc, .pln, .arc, .fld, .mem, .out] s t) ∧
  (∀ s id r p node tag ext, s.loc.reqs.find? (fun x => x.id == id) = some r → r.phase = .access → r.retryAt = none → r.kind = .rd → r.who = .port p node tag →
    bits r.pa 63 52 ≠ 0 → ext.length = r.len → Answers (.memoryAccessComplete (.req id) .good ext) s fun t =>
      Told s t (.port p node tag) (cData ext) ∧ t.loc.reqs = s.loc.reqs.filter (fun x => x.id != id) ∧ Only [.loc, .out, .fresh] s t) ∧
  (∀ s id r p node tag ext, s.loc.reqs.find? (fun x => x.id == id) = some r → r.phase = .access → r.retryAt = none → r.kind ≠ .posted → r.who = .port p node tag →
    Answers (.memoryAccessComplete (.req id) .timeout ext) s fun t =>
      Told s t (.port p node tag) cTimeout ∧ t.loc.reqs = s.loc.reqs.filter (fun x => x.id != id) ∧ Only [.loc, .out] s t) ∧
  (∀ s r p node tag, linkDown s = true → s.pair.lostFt ≤ s.ft → s.loc.reqs = [r] → r.fwd = true → r.kind = .rd ∨ r.kind = .wr → r.who = .port p node tag → s.pln.jobs = [] →
    Answers .forwardTimeout s fun t => Told s t (.port p node tag) cTimeout ∧ t.loc.reqs = [] ∧ Only [.loc, .out] s t) ∧
  (∀ s b gen, b ≠ .vertex → gen ≠ (s.cmp.fences.get b.code).gen → Answers (.staleReplyDrop b gen) s fun t =>
    t.cmp.fences.get b.code = { s.cmp.fences.get b.code with staleDrops := min ((s.cmp.fences.get b.code).staleDrops + 1) 65535 } ∧ Only [.cmp] s t) ∧
  (∀ s gen, gen ≠ s.vtx.gen → Answers (.staleReplyDrop .vertex gen) s fun t =>
    t.vtx = { s.vtx with staleDrops := min (s.vtx.staleDrops + 1) 65535 } ∧ Only [.vtx] s t)

/-- R97, R98, R99, R105, R116, R117, R119. -/
def Obligations.Walks : Prop :=
  (∀ s m, s.loc.misses = [m] → m.part < 16 → s.loc.walks.length < 32 → walkersOf s m.part < (partRec s m.part).walkQuota →
    (∀ k ∈ s.loc.walks, k.ctx ≠ m.ctx ∨ k.segNo ≠ m.segNo ∨ k.page ≠ m.page) → Answers .missQueueServe s fun t =>
      t.loc.misses = [] ∧ t.loc.nextPart = (m.part + 1) % 16 ∧
      t.loc.walks = s.loc.walks ++ [{ id := s.loc.nextWalk, part := m.part, ctx := m.ctx, segNo := m.segNo, seg := (s.loc.ctxs.get m.ctx).segs.getD m.segNo [], page := m.page, joined := m.reqs, table := segBase ((s.loc.ctxs.get m.ctx).segs.getD m.segNo []), level := 4 - segRoot ((s.loc.ctxs.get m.ctx).segs.getD m.segNo []), first := s.ft }] ∧
      t.out = .msg .walkRead m.part [s.loc.nextWalk] [] :: s.out ∧ Only [.loc, .arc, .out] s t) ∧
  (∀ s id k addr n, s.loc.walks.find? (fun x => x.id == id) = some k → k.retryAt = none → addr = k.table + 8 * tableIndex k.level (k.page * pageBytes) →
    serveCpl s (addr / pageBytes) false = none → readPoisoned s addr 8 = false →
    entCheck s k.part k.level (segType k.seg == 3) false false (k.page * pageBytes) (memWord s.mem addr) = .next n → Answers (.walkReadComplete id) s fun t =>
      (∃ x ∈ t.loc.walks, x = { k with level := k.level - 1, table := n, first := s.ft }) ∧ t.out = .msg .walkRead k.part [id] [] :: s.out ∧ Only [.loc, .out] s t) ∧
  (∀ s id k addr r p node tag, s.loc.walks = [k] → k.id = id → k.retryAt = none → addr = k.table + 8 * tableIndex k.level (k.page * pageBytes) →
    serveCpl s (addr / pageBytes) false = none → readPoisoned s addr 8 = false → bitOf (memWord s.mem addr) 0 = false → s.loc.reqs = [r] → k.joined = [r.id] →
    r.part = k.part → r.kind = .rd → r.who = .port p node tag → (locPart s k.part).count < (partRec s k.part).fqSize → Answers (.walkReadComplete id) s fun t =>
      t.loc.walks = [] ∧ t.loc.reqs = [] ∧ Told s t (.port p node tag) { status := .faulted } ∧ (locPart t k.part).count = (locPart s k.part).count + 1 ∧
      t.loc.ring.get ((partRec s k.part).fqBase + (locPart s k.part).tail) =
        [pack [(4, 2), (1, 0), (1, 0), (1, 0), (3, k.level), (12, r.endpoint), (12, r.asid), (12, k.ctx - (partRec s k.part).ctxBase), (4, k.segNo)], r.va, s.ft,
         (dom s k.part).angle, memWord s.mem addr, addr, pack [(16, r.len), (32, tag)], (locPart s k.part).seq % 2 ^ 32] ∧ Only [.loc, .out] s t) ∧
  (∀ s id k c, s.loc.walks = [k] → k.id = id → k.retryAt = none → serveCpl s ((k.table + 8 * tableIndex k.level (k.page * pageBytes)) / pageBytes) false = some c →
    Answers (.walkReadComplete id) s fun t => t.loc.walks = [{ k with retryAt := some (s.ft + c.hint) }] ∧ Only [.loc] s t) ∧
  (∀ s k d, s.loc.walks = [k] → k.retryAt = some d → d ≤ s.ft → Answers (.walkReadRepresent k.id) s fun t =>
      t.loc.walks = [{ k with retryAt := none }] ∧ Only [.loc] s t) ∧
  (∀ s id k d r p node tag, s.loc.walks.find? (fun x => x.id == id) = some k → k.retryAt = some d → k.first + 20000 ≤ s.ft → s.loc.reqs = [r] → k.joined = [r.id] →
    r.kind ≠ .posted → r.who = .port p node tag → Answers (.walkTimeout id) s fun t =>
      t.loc.walks = s.loc.walks.filter (fun x => x.id != id) ∧ t.loc.reqs = [] ∧ Told s t (.port p node tag) cTimeout ∧ Only [.loc, .out] s t) ∧
  (∀ s p node tag n h, (port s p).priv = true → (port s p).part = some n → h < (partRec s n).fqSize → (partRec s n).fqSize ≤ 4096 →
    (h + (partRec s n).fqSize - (locPart s n).head) % (partRec s n).fqSize ≤ (locPart s n).count → Answers (.fqHeadRelease (.port p node tag) n h) s fun t =>
      locPart t n = { locPart s n with head := h, count := (locPart s n).count - (h + (partRec s n).fqSize - (locPart s n).head) % (partRec s n).fqSize } ∧
      Told s t (.port p node tag) cOk ∧ t.loc.ring = s.loc.ring ∧ Only [.loc, .out] s t) ∧
  (∀ s k tag roles n h, Admits s k roles .admin → n < 16 → h < 4096 → (partRec s n).fqSize ≤ h → (partRec s n).fqSize ≠ 0 →
    Answers (.fqHeadRelease (.mgmt k tag roles) n h) s fun t => Told s t (.mgmt k tag roles) cBad ∧ t.cmp = served s k ∧ Only [.cmp, .out] s t)

/-- R108 to R113. -/
def Obligations.LocusRecords : Prop :=
  (∀ s n y w c, firstSync s n = some y → w = recWords s n y.record → fenceCpl s .locus n = none → mirrorRetry s n y.record false = false →
    readPoisoned s (recAddr s n y.record) 32 = false → bits (w.getD 0 0) 3 0 = 1 → recCheck s n w = none → s.loc.walks = [] → s.loc.misses = [] →
    c = (partRec s n).ctxBase + bits (w.getD 0 0) 15 4 → Answers (.segLoad n) s fun t =>
      t.loc.ctxs = s.loc.ctxs.set c (mirrorCtx s n (bits (w.getD 0 0) 15 4)).2 ∧ (∀ l ∈ t.loc.tlb1, ∀ e ∈ l.2, e.ctx ≠ c) ∧ (∀ l ∈ t.loc.tlb2, ∀ e ∈ l.2, e.ctx ≠ c) ∧
      (∃ x ∈ (locPart t n).syncs, x.record = y.record ∧ x.applied = true ∧ x.status = cOk ∧ x.acks = (s.loc.cached.filter (fun e => e.1 == c)).map fun e => (e.2, s.ft)) ∧
      t.loc.reqs = s.loc.reqs ∧ Only [.loc, .out] s t) ∧
  (∀ s n y w c, firstSync s n = some y → w = recWords s n y.record → fenceCpl s .locus n = none → mirrorRetry s n y.record false = false →
    readPoisoned s (recAddr s n y.record) 32 = false → bits (w.getD 0 0) 3 0 = 2 → recCheck s n w = none → s.loc.walks = [] → s.loc.misses = [] →
    c = (partRec s n).ctxBase + bits (w.getD 0 0) 15 4 → Answers (.invRange n) s fun t =>
      (∀ l ∈ t.loc.tlb1, ∀ e ∈ l.2, e.ctx ≠ c ∨ covers w e.seg e.page e.big = false) ∧ (∀ l ∈ t.loc.tlb2, ∀ e ∈ l.2, e.ctx ≠ c ∨ covers w e.seg e.page e.big = false) ∧
      (∃ x ∈ (locPart t n).syncs, x.record = y.record ∧ x.applied = true ∧ x.status = cOk ∧ x.acks = (s.loc.cached.filter (fun e => e.1 == c)).map fun e => (e.2, s.ft)) ∧
      t.loc.cached = s.loc.cached ∧ t.loc.ctxs = s.loc.ctxs ∧ t.loc.reqs = s.loc.reqs ∧ Only [.loc, .out] s t) ∧
  (∀ s n y w c, firstSync s n = some y → w = recWords s n y.record → fenceCpl s .locus n = none → mirrorRetry s n y.record false = false →
    readPoisoned s (recAddr s n y.record) 32 = false → bits (w.getD 0 0) 3 0 = 3 → recCheck s n w = none → s.loc.walks = [] → s.loc.misses = [] →
    c = (partRec s n).ctxBase + bits (w.getD 0 0) 15 4 → Answers (.invContext n) s fun t =>
      (∀ l ∈ t.loc.tlb1, ∀ e ∈ l.2, e.ctx ≠ c) ∧ (∀ l ∈ t.loc.tlb2, ∀ e ∈ l.2, e.ctx ≠ c) ∧
      (∃ x ∈ (locPart t n).syncs, x.record = y.record ∧ x.applied = true ∧ x.status = cOk ∧ x.acks = (s.loc.cached.filter (fun e => e.1 == c)).map fun e => (e.2, s.ft)) ∧
      t.loc.ctxs = s.loc.ctxs ∧ t.loc.reqs = s.loc.reqs ∧ Only [.loc, .out] s t) ∧
  (∀ s n y w c, firstSync s n = some y → w = recWords s n y.record → fenceCpl s .locus n = none → mirrorRetry s n y.record false = false →
    readPoisoned s (recAddr s n y.record) 32 = false → bits (w.getD 0 0) 3 0 = 4 → recCheck s n w = none →
    c = (partRec s n).ctxBase + bits (w.getD 0 0) 15 4 → Answers (.ctxEnable n) s fun t =>
      t.loc.disabled = s.loc.disabled.filter (fun e => e.1 != c) ∧ t.loc.tlb1 = s.loc.tlb1 ∧ t.loc.tlb2 = s.loc.tlb2 ∧ t.loc.cached = s.loc.cached ∧
      (∃ x ∈ (locPart t n).syncs, x.record = y.record ∧ x.applied = true ∧ x.status = cOk ∧ x.acks = []) ∧ Only [.loc] s t) ∧
  (∀ s n y w, firstSync s n = some y → w = recWords s n y.record → fenceCpl s .locus n = none → mirrorRetry s n y.record false = false →
    readPoisoned s (recAddr s n y.record) 32 = false → bits (w.getD 0 0) 3 0 = 3 → recCheck s n w = some cBad → Answers (.invContext n) s fun t =>
      (∃ x ∈ (locPart t n).syncs, x.record = y.record ∧ x.applied = true ∧ x.status = cBad) ∧ t.loc.tlb1 = s.loc.tlb1 ∧ t.loc.tlb2 = s.loc.tlb2 ∧ t.loc.ctxs = s.loc.ctxs ∧ Only [.loc] s t) ∧
  (∀ s node ctx n, Tab.sorted s.loc.parts = true → Answers (.xlInvAck node ctx) s fun t =>
      (locPart t n).syncs = (locPart s n).syncs.map (fun y => if y.ctx = ctx then { y with acks := y.acks.filter fun a => a.1 != node } else y) ∧ Only [.loc] s t) ∧
  (∀ s n node y rest at_, (locPart s n).syncs = y :: rest → y.acks = [(node, at_)] → at_ + 50000 ≤ s.ft → Answers (.xlInvTimeout n node) s fun t =>
      (y.ctx, node) ∈ t.loc.disabled ∧ (locPart t n).syncs.head? = some { y with acks := [], timedOut := true } ∧ Only [.loc] s t) ∧
  (∀ s n y rest, (locPart s n).syncs = y :: rest → y.applied = true → y.acks = [] → oldPending s y = false → y.readable = true → y.obj = none → y.timedOut = false →
    serveCpl s (recAddr s n y.record / pageBytes) true = none →
    (page s ((recAddr s n y.record + 24) / pageBytes)).st = .resident → Memory.wf s.mem = true →
    Clean s (recAddr s n y.record + 24) 8 →
    y.status.status ≠ .timeout → Answers (.locSyncComplete n) s fun t =>
      locPart t n = { locPart s n with syncs := rest, lastStatus := y.status.status.code, lastRecord := y.record } ∧
      memBytes t.mem (recAddr s n y.record + 24) 8 = toLE 8 (y.status.status.code % 16 + 16 * (((y.status.reason.map Reason.code).getD 0) % 16) + 256) ∧
      (∀ a, a < recAddr s n y.record + 24 ∨ recAddr s n y.record + 32 ≤ a → memRead t.mem a = memRead s.mem a) ∧ Only [.loc, .pln, .fld, .mem] s t)

/-- R136, R138 to R140, R143, R156. -/
def Obligations.PlaneCommands : Prop :=
  (∀ s u q c pa w x p k node tag, takeCmd .plane q (128 + q) (fun c => plnOp c == 1) s = some (c, u) → plnCount c = 1 → translate (plnXl c 0) u = (u, .addr pa w x) →
    bits pa 63 52 = 0 → p = bits pa 51 0 / pageBytes → homeLocal u p = true → hasPartner u = false → pageBusy u p = false → (page u p).st = .zero → u.pln.jobs = [] →
    c.req = .port k node tag → c.issuer = none → bitOf (c.w 0) 7 = false → Answers (.hint q) s fun t =>
      page t p = { page u p with hint := hintOf (bits (c.w 0) 38 36) } ∧ (∀ r, r ≠ p → page t r = page u r) ∧ Told u t (.port k node tag) cOk ∧ t.pln.migs = u.pln.migs ∧
      Only [.pln, .out] u t) ∧
  (∀ s u v q c pa w x p f e, takeCmd .plane q (128 + q) (fun c => plnOp c == 1) s = some (c, u) → plnCount c = 1 → translate (plnXl c 0) u = (u, .addr pa w x) →
    bits pa 63 52 = 0 → p = bits pa 51 0 / pageBytes → homeLocal u p = true → hasPartner u = false → linkDown u = false → pageBusy u p = false → (page u p).st = .resident →
    e = { page u p with hint := hintOf (bits (c.w 0) 38 36) } → e ≠ page u p → (page u p).frame.tier ≠ (hintTiers u c.part e.hint).headD .ddr →
    allocTier c.part ((hintTiers u c.part e.hint).headD .ddr) (setPage p e u) = some (f, v) → v.pln.jobs = [] → Answers (.hint q) s fun t =>
      page t p = { page v p with st := .migrating, dst := some f } ∧ t.pln.migs = v.pln.migs ++ [{ page := p, src := (page v p).frame, dst := f, origin := (page v p).origin, order := v.pln.nextOrder }] ∧
      t.pln.jobs = [{ cmd := c, pend := [p] }] ∧ t.out = v.out ∧ Only [.pln] v t) ∧
  (∀ s u v q c pa w x p f, takeCmd .plane q (128 + q) (fun c => plnOp c == 2) s = some (c, u) → plnCount c = 1 → translate (plnXl c 0) u = (u, .addr pa w x) →
    bits pa 63 52 = 0 → p = bits pa 51 0 / pageBytes → homeLocal u p = true → groupOf u p = none → linkDown u = false → pageBusy u p = false → (page u p).st = .resident →
    (page u p).frame.tier ≠ .prism → plnRel c = none → plnDeadline c = none → needPrism c.part u = some (f, v) → v.pln.jobs = [] → Answers (.prefetch q) s fun t =>
      page t p = { page v p with st := .migrating, dst := some f } ∧ t.pln.migs = v.pln.migs ++ [{ page := p, src := (page v p).frame, dst := f, origin := (page v p).origin, order := v.pln.nextOrder }] ∧
      t.pln.jobs = [{ cmd := c, pend := [p] }] ∧ t.out = v.out ∧ Only [.pln] v t) ∧
  (∀ s u q c pa w x p k node tag, takeCmd .plane q (128 + q) (fun c => plnOp c == 3) s = some (c, u) → plnCount c = 1 → translate (plnXl c 0) u = (u, .addr pa w x) →
    bits pa 63 52 = 0 → p = bits pa 51 0 / pageBytes → homeLocal u p = true → pageBusy u p = false → u.pln.jobs = [] →
    c.req = .port k node tag → c.issuer = none → bitOf (c.w 0) 7 = false → Answers (.plnRelease q) s fun t =>
      p ∈ t.pln.passed ∧ (∀ e ∈ t.pln.relAt, e.1 ≠ p) ∧ (∀ e ∈ t.pln.copies, e.page = p → e.passed = true ∧ e.relAt = none) ∧ t.pln.pages = u.pln.pages ∧
      Told u t (.port k node tag) cOk ∧ Only [.pln, .out] u t) ∧
  (∀ s u q c pa w x p k node tag, takeCmd .plane q (128 + q) (fun c => plnOp c == 4) s = some (c, u) → plnPinned u c = false → plnCount c = 1 → translate (plnXl c 0) u = (u, .addr pa w x) →
    bits pa 63 52 = 0 → p = bits pa 51 0 / pageBytes → homeLocal u p = true → hasPartner u = false → (page u p).st ≠ .zero → u.pln.jobs = [] → Memory.wf u.mem = true →
    c.req = .port k node tag → c.issuer = none → bitOf (c.w 0) 7 = false → Answers (.discard q) s fun t =>
      page t p = { hint := (page u p).hint } ∧ (∀ r, r ≠ p → page t r = page u r) ∧ (∀ m ∈ t.pln.migs, m.page ≠ p) ∧
      (∀ a, memRead t.mem a = if a / pageBytes = p then 0 else memRead u.mem a) ∧ Told u t (.port k node tag) cOk ∧ Only [.pln, .fld, .mem, .out] u t) ∧
  (∀ s u q c k node tag, takeCmd .plane q (128 + q) (fun c => plnOp c == 4) s = some (c, u) → plnPinned u c = true → c.req = .port k node tag → c.issuer = none → bitOf (c.w 0) 7 = false →
    Answers (.discard q) s fun t => Told u t (.port k node tag) (cRef .state) ∧ Only [.out] u t) ∧
  (∀ s u q c k node tag x d, takeCmd .plane q (128 + q) (fun c => plnOp c == 3) s = some (c, u) → translate (plnXl c 0) u = (x, .cpl d) → x.pln.jobs = [] → 0 < plnCount c →
    d.status ≠ .ok → c.req = .port k node tag → c.issuer = none → bitOf (c.w 0) 7 = false → outcomeRank d.status < 7 → Answers (.plnRelease q) s fun t =>
      Told x t (.port k node tag) d ∧ t.pln.pages = x.pln.pages ∧ Only [.pln, .out] x t)

/-- R131 to R133, R146 to R148. -/
def Obligations.Migrations : Prop :=
  (∀ s p m, fenced s .plane = false → s.pln.migs.find? (fun m => m.page == p) = some m → m.copied = false → hasPartner s = false → s.pln.jobs = [] →
    (∀ e ∈ s.fld.blocks, e.1 / 4096 ≠ p ∨ (e.2.bad = none ∧ e.2.bpoison = false)) → Answers (.migrationCopyDone p) s fun t =>
      page t p = migrated (page s p) m ∧ (∀ r, r ≠ p → page t r = page s r) ∧ (∀ x ∈ t.pln.migs, x.page ≠ p) ∧ Only [.pln] s t) ∧
  (∀ s p m, fenced s .plane = false → s.pln.migs = [m] → m.page = p → m.copied = false → hasPartner s = true → s.pair.linkUp = true →
    (∀ e ∈ s.fld.blocks, e.1 / 4096 ≠ p ∨ (e.2.bad = none ∧ e.2.bpoison = false)) → Answers (.migrationCopyDone p) s fun t =>
      t.pln.migs = [{ m with copied := true }] ∧ t.pln.pages = s.pln.pages ∧ t.out = .mirror (.page p (migrated (page s p) m)) :: s.out ∧
      t.pair.waits = s.pair.waits ++ [(s.pair.mirrorSeq, .page p (migrated (page s p) m), .switchover p)] ∧ Only [.pln, .pair, .out] s t) ∧
  (∀ s p c, fenced s .plane = false → s.pln.migs = [] → s.pln.copies = [c] → c.page = p → c.done = false → s.pln.jobs = [] → (∀ e ∈ s.pln.relAt, e.1 ≠ p) →
    Answers (.migrationCopyDone p) s fun t =>
      t.pln.copies = [{ c with done := true }] ∧ t.pln.pages = s.pln.pages ∧ Only [.pln] s t) ∧
  (∀ s p, fenced s .plane = true → Answers (.migrationCopyDone p) s fun t => t = s) ∧
  (∀ s tier n f, f = { tier := tier, n := n } → running s = true → frameBad s f = true → f ∉ s.pln.retired → pagesOn s (fun g => g == f) = [] →
    (∀ m ∈ s.pln.migs, m.dst ≠ f) → s.cmp.nvmA.answers = true → s.cmp.nvmB.answers = true → Answers (.frameRetire tier n) s fun t =>
      t.pln.retired = s.pln.retired ++ [f] ∧ t.pln.pages = s.pln.pages ∧ t.pln.migs = s.pln.migs ∧ .frame tier.code n ∈ t.cmp.nvmA.retired ∧
      .frame tier.code n ∈ t.cmp.nvmB.retired ∧ Only [.pln, .cmp] s t) ∧
  (∀ s c, (s.pln.chans.get c).st = .active → chanBad s c = true → pagesOn s (onChan c) = [] → (∀ m ∈ s.pln.migs, onChan c m.dst = false) →
    s.cmp.nvmA.answers = true → s.cmp.nvmB.answers = true → Answers (.channelEvacuate c) s fun t =>
      (t.pln.chans.get c).st = .evacuating ∧ (∀ d, d ≠ c → t.pln.chans.get d = s.pln.chans.get d) ∧ t.pln.pages = s.pln.pages ∧
      .channel c ∈ t.cmp.nvmA.retired ∧ .channel c ∈ t.cmp.nvmB.retired ∧ Only [.pln, .cmp] s t) ∧
  (∀ s c p e, (s.pln.chans.get c).st = .evacuating → s.pln.migs = [] → s.pln.pages = [(p, e)] → homeLocal s p = true → e.st ≠ .zero → onChan c e.frame = true → Memory.wf s.mem = true →
    Answers (.ddrTrainingLoss c) s fun t =>
      (∀ i, i < 4096 → blk t (p * 4096 + i) = { pmask := 15, bpoison := true }) ∧ (∀ a, memRead t.mem a = if a / pageBytes = p then 0 else memRead s.mem a) ∧ Only [.fld, .mem] s t) ∧
  (∀ s c, (s.pln.chans.get c).st = .active → s.pln.migs = [] → (∀ e ∈ s.pln.pages, (entFrames e.2).any (onChan c) = false ∧ onChan c e.2.frame = false) →
    Answers (.ddrTrainingLoss c) s fun t => (t.pln.chans.get c).st = .evacuating ∧ t.pln.pages = s.pln.pages ∧ Only [.pln, .cmp] s t) ∧
  (∀ s c, (s.pln.chans.get c).st = .evacuating → (∀ e ∈ heldFrames s, onChan c e.2 = false) → Answers (.objectRetired false c) s fun t =>
      (t.pln.chans.get c).st = .retired ∧ t.pln.pages = s.pln.pages ∧ Only [.pln] s t) ∧
  (∀ s k, (s.pln.trays.get k).st = .evacuating → (∀ e ∈ heldFrames s, onTray k e.2 = false) → Answers (.objectRetired true k) s fun t =>
      s.pln.trays.get k = { t.pln.trays.get k with st := .evacuating } ∧ (t.pln.trays.get k).st = .retired ∧ Only [.pln] s t)

/-- R146, R147, R486, R487. -/
def Obligations.Trays : Prop :=
  (∀ s k, (s.pln.trays.get k).head = .up → (s.pln.trays.get k).st ≠ .absent → ((s.pln.trays.get k).downAt.filter fun a => decide (s.ft < a + hourNs)).length < 2 →
    Answers (.trayHeadLinkDown k) s fun t =>
      t.pln.trays.get k = { s.pln.trays.get k with head := .retraining, downAt := ((s.pln.trays.get k).downAt.filter fun a => decide (s.ft < a + hourNs)) ++ [s.ft], downSince := some s.ft } ∧
      t.edg.trays.get k = { s.edg.trays.get k with width := 3 } ∧ Only [.pln, .edg] s t) ∧
  (∀ s k, (s.pln.trays.get k).head = .up → (s.pln.trays.get k).st ≠ .absent → 2 ≤ ((s.pln.trays.get k).downAt.filter fun a => decide (s.ft < a + hourNs)).length →
    s.cmp.nvmA.answers = true → s.cmp.nvmB.answers = true → Answers (.trayHeadLinkDown k) s fun t =>
      (t.pln.trays.get k).head = .retired ∧ .head k ∈ t.cmp.nvmA.retired ∧ .head k ∈ t.cmp.nvmB.retired ∧ Only [.pln, .edg, .cmp] s t) ∧
  (∀ s k a, (s.pln.trays.get k).head ≠ .retired → (s.pln.trays.get k).st ≠ .absent → (s.pln.trays.get k).downSince = some a → a + 1000000000 ≤ s.ft →
    Answers (.trayHeadRetire k) s fun t =>
      t.pln.trays.get k = { s.pln.trays.get k with head := .retired, downSince := none } ∧ t.pln.pages = s.pln.pages ∧ Only [.pln, .cmp] s t) ∧
  (∀ s k width cap, (s.pln.trays.get k).head = .retraining → (s.edg.trays.get k).width = 3 → Answers (.trayLinkUp k width cap) s fun t =>
      t.pln.trays.get k = { s.pln.trays.get k with head := .up, downSince := none } ∧
      t.edg.trays.get k = { s.edg.trays.get k with width := min width 2, spareCap := cap } ∧ Only [.pln, .edg] s t) ∧
  (∀ s k, (s.pln.trays.get k).st = .active → headsGone s k = false → pagesOn s (fun f => onTray k f && ownHalf s f.n) = [] → (∀ m ∈ s.pln.migs, onTray k m.dst = false) →
    Answers (.cxlEventRecord k true true) s fun t =>
      t.pln.trays.get k = { s.pln.trays.get k with st := .evacuating } ∧ t.pln.pages = s.pln.pages ∧ Only [.pln, .cmp] s t) ∧
  (∀ s k media unc, media = false ∨ unc = false → Answers (.cxlEventRecord k media unc) s fun t => t = s) ∧
  (∀ s k, (s.pln.trays.get k).st = .active → headsGone s k = false → trayBad s k = true → pagesOn s (fun f => onTray k f && ownHalf s f.n) = [] →
    (∀ m ∈ s.pln.migs, onTray k m.dst = false) → Answers (.trayEvacuate k) s fun t =>
      t.pln.trays.get k = { s.pln.trays.get k with st := .evacuating } ∧ t.pln.pages = s.pln.pages ∧ Only [.pln, .cmp] s t) ∧
  (∀ s k, (s.pln.trays.get k).st = .active → (s.pln.trays.get k).head = .retired → hasPartner s = false → s.pln.migs = [] → (∀ e ∈ s.pln.pages, (entFrames e.2).any (onTray k) = false ∧ onTray k e.2.frame = false) →
    Answers (.trayEvacuate k) s fun t =>
      t.pln.trays.get k = { s.pln.trays.get k with st := .retired } ∧ t.pln.pages = s.pln.pages ∧ Only [.pln, .cmp] s t) ∧
  (∀ s k lane, (s.edg.trays.get k).width < 3 → (s.edg.trays.get k).spareCap = true → (s.edg.trays.get k).spareUsed = false → Answers (.trayLaneSpare k lane) s fun t =>
      t.edg.trays.get k = { s.edg.trays.get k with spareUsed := true, sparedLane := lane % 8, recoveries := min ((s.edg.trays.get k).recoveries + 1) 65535 } ∧ Only [.edg] s t) ∧
  (∀ s k lane, (s.edg.trays.get k).width < 2 → (s.edg.trays.get k).spareCap = false ∨ (s.edg.trays.get k).spareUsed = true → Answers (.trayLaneSpare k lane) s fun t =>
      t.edg.trays.get k = { s.edg.trays.get k with width := (s.edg.trays.get k).width + 1, recoveries := min ((s.edg.trays.get k).recoveries + 1) 65535 } ∧ Only [.edg] s t) ∧
  (∀ s k lane, (s.edg.trays.get k).width = 2 → (s.edg.trays.get k).spareUsed = true → (s.pln.trays.get k).head = .up → (s.pln.trays.get k).st = .active → (s.pln.trays.get k).downAt = [] →
    Answers (.trayLaneSpare k lane) s fun t => (t.edg.trays.get k).width = 3 ∧ (t.pln.trays.get k).head = .retraining ∧ Only [.edg, .pln] s t)

/-- R157 to R173, R178: requests of ports through a COHERENT segment. -/
def Obligations.CoherentRequests : Prop :=
  (∀ s p node tag n a (r : CohReq) i, r.who = .port p node tag → r.far = none → (port s p).coherent = true → AtLine s p node n (a / 128) →
    cohByte s { part := n, endpoint := node, asid := r.asid, va := r.va - r.va % 128, len := 128, num := node, tag := tag } = some a → dirFind s (a / 128) = none → freeWay s n (a / 128) = some i → Answers (.rdShared r) s fun t =>
      (∃ x ∈ t.vtx.txns, x.line = a / 128 ∧ x.req.op = .coh .rdShared ∧ x.req.who = .port p node tag ∧ x.req.agent = portAgent s p ∧ x.req.part = n ∧ x.snoops = [] ∧ x.mem = true) ∧
      t.vtx.dir.get i = { line := a / 128, used := true } ∧ t.loc.reqs = s.loc.reqs ∧ t.out = s.out ∧ Only [.vtx, .loc, .arc] s t) ∧
  (∀ s p node tag n a (r : CohReq) i, r.who = .port p node tag → r.far = none → (port s p).coherent = true → AtLine s p node n (a / 128) →
    cohByte s { part := n, endpoint := node, asid := r.asid, va := r.va - r.va % 128, len := 128, write := true, num := node, tag := tag } = some a → dirFind s (a / 128) = none → freeWay s n (a / 128) = some i → Answers (.rdOwn r) s fun t =>
      (∃ x ∈ t.vtx.txns, x.line = a / 128 ∧ x.req.op = .coh .rdOwn ∧ x.req.who = .port p node tag ∧ x.req.agent = portAgent s p ∧ x.req.part = n ∧ x.snoops = [] ∧ x.mem = true) ∧
      t.vtx.dir.get i = { line := a / 128, used := true } ∧ t.loc.reqs = s.loc.reqs ∧ t.out = s.out ∧ Only [.vtx, .loc, .arc] s t) ∧
  (∀ s p node tag n a (r : CohReq) i, r.who = .port p node tag → r.far = none → (port s p).coherent = true → AtLine s p node n (a / 128) →
    cohByte s { part := n, endpoint := node, asid := r.asid, va := r.va - r.va % 128, len := 128, write := true, num := node, tag := tag } = some a → dirFind s (a / 128) = none → freeWay s n (a / 128) = some i → Answers (.upgrade r) s fun t =>
      (∃ x ∈ t.vtx.txns, x.line = a / 128 ∧ x.req.op = .coh .upgrade ∧ x.req.who = .port p node tag ∧ x.req.agent = portAgent s p ∧ x.req.part = n ∧ x.snoops = [] ∧ x.mem = true) ∧
      t.vtx.dir.get i = { line := a / 128, used := true } ∧ t.loc.reqs = s.loc.reqs ∧ t.out = s.out ∧ Only [.vtx, .loc, .arc] s t) ∧
  (∀ s p node tag n a (r : CohReq), r.who = .port p node tag → r.far = none → AtLine s p node n (a / 128) →
    cohByte s { part := n, endpoint := node, asid := r.asid, va := r.va - r.va % 128, len := 128, num := node, tag := tag } = some a → dirFind s (a / 128) = none → Answers (.rdCur r) s fun t =>
      (∃ x ∈ t.vtx.txns, x.line = a / 128 ∧ x.req.op = .coh .rdCur ∧ x.req.who = .port p node tag ∧ x.req.agent = portAgent s p ∧ x.req.part = n ∧ x.snoops = [] ∧ x.mem = true) ∧
      t.vtx.dir = s.vtx.dir ∧ t.loc.reqs = s.loc.reqs ∧ t.out = s.out ∧ Only [.vtx, .loc, .arc] s t) ∧
  (∀ s p node tag n a (r : CohReq) data, r.who = .port p node tag → r.far = none → data.length = 128 → AtLine s p node n (a / 128) →
    cohByte s { part := n, endpoint := node, asid := r.asid, va := r.va - r.va % 128, len := 128, write := true, num := node, tag := tag } = some a → dirFind s (a / 128) = none → Answers (.wrLine r data) s fun t =>
      (∃ x ∈ t.vtx.txns, x.line = a / 128 ∧ x.req.op = .coh .wrLine ∧ x.req.who = .port p node tag ∧ x.req.agent = portAgent s p ∧ x.req.part = n ∧ x.snoops = [] ∧ x.mem = true ∧ x.req.data = data) ∧
      t.vtx.dir = s.vtx.dir ∧ t.loc.reqs = s.loc.reqs ∧ t.out = s.out ∧ Only [.vtx, .loc, .arc] s t) ∧
  (∀ s p node tag n a (r : CohReq) mask data, r.who = .port p node tag → r.far = none → data.length = 128 → AtLine s p node n (a / 128) →
    cohByte s { part := n, endpoint := node, asid := r.asid, va := r.va - r.va % 128, len := 128, write := true, num := node, tag := tag } = some a → dirFind s (a / 128) = none → Answers (.wrPart r mask data) s fun t =>
      (∃ x ∈ t.vtx.txns, x.line = a / 128 ∧ x.req.op = .coh .wrPart ∧ x.req.who = .port p node tag ∧ x.req.agent = portAgent s p ∧ x.req.part = n ∧ x.snoops = [] ∧ x.mem = true ∧ x.req.data = data ∧ x.req.mask = (List.range 128).map fun i => mask.getLsbD i) ∧
      t.vtx.dir = s.vtx.dir ∧ t.loc.reqs = s.loc.reqs ∧ t.out = s.out ∧ Only [.vtx, .loc, .arc] s t) ∧
  (∀ s p node tag n a (r : CohReq) op ty v c o, r.who = .port p node tag → r.far = none → atomOpOf op = some o → ty < 4 → (o ≠ .compareSwap ∨ ty < 2) → r.va % typeSize ty = 0 → AtLine s p node n (a / 128) →
    cohByte s { part := n, endpoint := node, asid := r.asid, va := r.va, len := typeSize ty, atomic := true, num := node, tag := tag } = some a → dirFind s (a / 128) = none → Answers (.atomic r op ty v c) s fun t =>
      (∃ x ∈ t.vtx.txns, x.line = a / 128 ∧ x.req.op = .coh .atomic ∧ x.req.who = .port p node tag ∧ x.req.agent = portAgent s p ∧ x.req.part = n ∧ x.snoops = [] ∧ x.mem = true ∧ x.req.atom = some (o, ty, v, c) ∧ x.req.off = a % 128) ∧
      t.vtx.dir = s.vtx.dir ∧ t.loc.reqs = s.loc.reqs ∧ t.out = s.out ∧ Only [.vtx, .loc, .arc] s t) ∧
  (∀ s p node tag (r : CohReq), r.who = .port p node tag → r.far = none → (port s p).coherent = false → Answers (.rdOwn r) s fun t =>
      Told s t (.port p node tag) cNP ∧ Only [.out] s t) ∧
  (∀ s p node tag n a (r : CohReq) i e b, r.who = .port p node tag → r.far = none → (port s p).coherent = true → AtLine s p node n (a / 128) →
    cohByte s { part := n, endpoint := node, asid := r.asid, va := r.va - r.va % 128, len := 128, num := node, tag := tag } = some a →
    dirFind s (a / 128) = some (i, e) → e.own = true → e.coarse = false → e.ptrs = [b] → b ≠ portAgent s p → agentPriv s b = true → s.vtx.granted = [] → Answers (.rdShared r) s fun t =>
      (∃ x ∈ t.vtx.txns, x.line = a / 128 ∧ x.req.op = .coh .rdShared ∧ x.snoops = [(b, .fwdSh)] ∧ x.mem = false ∧ x.since = s.ft) ∧
      t.out = .msg .cohSnoop b [3, a / 128 * 128, 0, s.vtx.gen, 0, portAgent s p, tag] [] :: s.out ∧ t.vtx.dir = s.vtx.dir ∧ Only [.vtx, .loc, .arc, .out] s t) ∧
  (∀ s p node tag n a (r : CohReq) i e b, r.who = .port p node tag → r.far = none → (port s p).coherent = true → AtLine s p node n (a / 128) →
    cohByte s { part := n, endpoint := node, asid := r.asid, va := r.va - r.va % 128, len := 128, write := true, num := node, tag := tag } = some a →
    dirFind s (a / 128) = some (i, e) → e.own = false → e.coarse = false → e.ptrs = [portAgent s p, b] → b ≠ portAgent s p → s.vtx.granted = [] → Answers (.upgrade r) s fun t =>
      (∃ x ∈ t.vtx.txns, x.line = a / 128 ∧ x.req.op = .coh .upgrade ∧ x.grant = true ∧ x.snoops = [(b, .inv)] ∧ x.mem = false) ∧
      t.out = .msg .cohSnoop b [2, a / 128 * 128, 0, s.vtx.gen, 0, portAgent s p, tag] [] :: s.out ∧ t.vtx.dir = s.vtx.dir ∧ Only [.vtx, .loc, .arc, .out] s t)

/-- R172, R175, R184. -/
def Obligations.SnoopResponses : Prop :=
  (∀ s a b line gen q i e, gen = s.vtx.gen → s.vtx.st = .up → (localPort s a).any (fun p => s.vtx.excluded.contains p) = false → lineMine s a line = true →
    txnOf s line = some q → q.snoops = [(a, .inv), (b, .inv)] → a ≠ b → dirFind s line = some (i, e) → e.own = false → Answers (.rspI a line gen) s fun t =>
      txnOf t line = some { q with snoops := [(b, .inv)], gone := q.gone ++ [a] } ∧ (∀ g ∈ t.vtx.granted, g.1 ≠ a ∨ g.2.1 ≠ line) ∧ t.vtx.dir = s.vtx.dir ∧ Only [.vtx] s t) ∧
  (∀ s a b line gen q i e, gen = s.vtx.gen → s.vtx.st = .up → (localPort s a).any (fun p => s.vtx.excluded.contains p) = false → lineMine s a line = true →
    txnOf s line = some q → q.snoops = [(a, .data), (b, .inv)] → a ≠ b → dirFind s line = some (i, e) → e.own = true → Answers (.rspS a line gen) s fun t =>
      txnOf t line = some { q with snoops := [(b, .inv)] } ∧ (∀ g ∈ t.vtx.granted, g.1 ≠ a ∨ g.2.1 ≠ line) ∧ t.vtx.dir = s.vtx.dir ∧ Only [.vtx] s t) ∧
  (∀ s a b line gen q i e, gen = s.vtx.gen → s.vtx.st = .up → (localPort s a).any (fun p => s.vtx.excluded.contains p) = false → lineMine s a line = true →
    txnOf s line = some q → q.snoops = [(a, .cur), (b, .inv)] → a ≠ b → dirFind s line = some (i, e) → e.own = true → Answers (.rspKeep a line gen) s fun t =>
      txnOf t line = some { q with snoops := [(b, .inv)] } ∧ (∀ g ∈ t.vtx.granted, g.1 ≠ a ∨ g.2.1 ≠ line) ∧ t.vtx.dir = s.vtx.dir ∧ Only [.vtx] s t) ∧
  (∀ s a b line gen data q i e, gen = s.vtx.gen → s.vtx.st = .up → (localPort s a).any (fun p => s.vtx.excluded.contains p) = false → lineMine s a line = true →
    txnOf s line = some q → q.snoops = [(a, .inv), (b, .inv)] → a ≠ b → dirFind s line = some (i, e) → e.own = true → data.length = 128 → q.req.op ≠ .coh .wrLine → Answers (.rspDataI a line gen data) s fun t =>
      txnOf t line = some { q with snoops := [(b, .inv)], gone := q.gone ++ [a], data := some data, dirty := q.dirty || q.req.op == .flush || q.req.op == .backInv } ∧ (∀ g ∈ t.vtx.granted, g.1 ≠ a ∨ g.2.1 ≠ line) ∧ t.vtx.dir = s.vtx.dir ∧ Only [.vtx] s t) ∧
  (∀ s a b line gen data q i e, gen = s.vtx.gen → s.vtx.st = .up → (localPort s a).any (fun p => s.vtx.excluded.contains p) = false → lineMine s a line = true →
    txnOf s line = some q → q.snoops = [(a, .data), (b, .inv)] → a ≠ b → dirFind s line = some (i, e) → e.own = true → data.length = 128 → q.req.op ≠ .coh .wrLine → Answers (.rspDataS a line gen data) s fun t =>
      txnOf t line = some { q with snoops := [(b, .inv)], data := some data, dirty := true } ∧ (∀ g ∈ t.vtx.granted, g.1 ≠ a ∨ g.2.1 ≠ line) ∧ t.vtx.dir = s.vtx.dir ∧ Only [.vtx] s t) ∧
  (∀ s a b line gen data q i e, gen = s.vtx.gen → s.vtx.st = .up → (localPort s a).any (fun p => s.vtx.excluded.contains p) = false → lineMine s a line = true →
    txnOf s line = some q → q.snoops = [(a, .cur), (b, .inv)] → a ≠ b → dirFind s line = some (i, e) → e.own = true → data.length = 128 → q.req.op ≠ .coh .wrLine → Answers (.rspDataKeep a line gen data) s fun t =>
      txnOf t line = some { q with snoops := [(b, .inv)], data := some data, dirty := q.dirty || q.req.op == .flush || q.req.op == .backInv } ∧ (∀ g ∈ t.vtx.granted, g.1 ≠ a ∨ g.2.1 ≠ line) ∧ t.vtx.dir = s.vtx.dir ∧ Only [.vtx] s t) ∧
  (∀ s a b line gen q i e, gen = s.vtx.gen → s.vtx.st = .up → (localPort s a).any (fun p => s.vtx.excluded.contains p) = false → lineMine s a line = true →
    txnOf s line = some q → q.snoops = [(a, .fwdOwn), (b, .inv)] → a ≠ b → dirFind s line = some (i, e) → e.own = true → Answers (.rspFwdI a line gen) s fun t =>
      txnOf t line = some { q with snoops := [(b, .inv)], gone := q.gone ++ [a], fwd := true } ∧ (∀ g ∈ t.vtx.granted, g.1 ≠ a ∨ g.2.1 ≠ line) ∧ t.vtx.dir = s.vtx.dir ∧ Only [.vtx] s t) ∧
  (∀ s a b line gen q i e, gen = s.vtx.gen → s.vtx.st = .up → (localPort s a).any (fun p => s.vtx.excluded.contains p) = false → lineMine s a line = true →
    txnOf s line = some q → q.snoops = [(a, .fwdSh), (b, .inv)] → a ≠ b → dirFind s line = some (i, e) → e.own = true → Answers (.rspFwdS a line gen) s fun t =>
      txnOf t line = some { q with snoops := [(b, .inv)], fwd := true } ∧ (∀ g ∈ t.vtx.granted, g.1 ≠ a ∨ g.2.1 ≠ line) ∧ t.vtx.dir = s.vtx.dir ∧ Only [.vtx] s t) ∧
  (∀ s a b line gen data q i e, gen = s.vtx.gen → s.vtx.st = .up → (localPort s a).any (fun p => s.vtx.excluded.contains p) = false → lineMine s a line = true →
    txnOf s line = some q → q.snoops = [(a, .fwdSh), (b, .inv)] → a ≠ b → dirFind s line = some (i, e) → e.own = true → data.length = 128 → q.req.op ≠ .coh .wrLine → Answers (.rspFwdSData a line gen data) s fun t =>
      txnOf t line = some { q with snoops := [(b, .inv)], data := some data, dirty := true, fwd := true } ∧ (∀ g ∈ t.vtx.granted, g.1 ≠ a ∨ g.2.1 ≠ line) ∧ t.vtx.dir = s.vtx.dir ∧ Only [.vtx] s t) ∧
  (∀ s a b line gen q i e, gen = s.vtx.gen → s.vtx.st = .up → (localPort s a).any (fun p => s.vtx.excluded.contains p) = false → lineMine s a line = true →
    txnOf s line = some q → q.snoops = [(a, .inv), (b, .inv)] → a ≠ b → dirFind s line = some (i, e) → e.own = true → a ∉ q.gone → Answers (.rspWb a line gen) s fun t =>
      txnOf t line = some { q with snoops := [(b, .inv)], wbs := q.wbs ++ [a] } ∧ (∀ g ∈ t.vtx.granted, g.1 ≠ a ∨ g.2.1 ≠ line) ∧ t.vtx.dir = s.vtx.dir ∧ Only [.vtx] s t) ∧
  (∀ s a line gen q, gen = s.vtx.gen → s.vtx.st = .up → (localPort s a).any (fun p => s.vtx.excluded.contains p) = false → lineMine s a line = true →
    txnOf s line = some q → q.snoops = [(a, .inv)] → q.wbs = [] → q.mem = false → q.req.op = .coh .wrPart → (∃ x ∈ s.vtx.dir, dirFind s line = some x ∧ x.2.own = false) → Answers (.rspI a line gen) s fun t =>
      txnOf t line = some { q with snoops := [], gone := q.gone ++ [a], mem := true, memSince := s.ft } ∧ Only [.vtx] s t) ∧
  (∀ s a line gen q p node tag i e, gen = s.vtx.gen → s.vtx.st = .up → (localPort s a).any (fun p => s.vtx.excluded.contains p) = false → lineMine s a line = true →
    s.vtx.txns = [q] → q.line = line → q.snoops = [(a, .fwdOwn)] → q.wbs = [] → q.mem = false → q.data = none → q.dirty = false → q.grant = false → q.retryAt = none → q.after = none → q.req.op = .coh .rdOwn →
    q.req.who = .port p node tag → s.vtx.held = [] → s.vtx.wins = [] → dirFind s line = some (i, e) → e.own = true → Answers (.rspFwdI a line gen) s fun t =>
      t.vtx.txns = [] ∧ (t.vtx.dir.get i).own = true ∧ (t.vtx.dir.get i).ptrs = [q.req.agent] ∧ t.out = s.out ∧ Only [.vtx] s t) ∧
  (∀ s a line gen, gen = s.vtx.gen → s.vtx.st = .up → (localPort s a).any (fun p => s.vtx.excluded.contains p) = false → lineMine s a line = true → txnOf s line = none →
    s.vtx.txns = [] → s.vtx.queue = [] → s.vtx.held = [] → s.vtx.wins = [] → s.vtx.jobs = [] → hasPartner s = false → cohPorts s = [] → Answers (.rspS a line gen) s fun t =>
      t.vtx.st = .down ∧ t.vtx.cause = 3 ∧ t.vtx.agent = a ∧ t.vtx.infoLine = line ∧ t.vtx.gen = (s.vtx.gen + 1) % 16 ∧ Only [.vtx, .cmp] s t) ∧
  (∀ s a line gen data i e p, gen = s.vtx.gen → s.vtx.st = .up → (localPort s a).any (fun p => s.vtx.excluded.contains p) = false → (localPort s a).any (fun p => !(port s p).coherent) = false → lineMine s a line = true → txnOf s line = none →
    dirFind s line = some (i, e) → e.own = true → e.ptrs = [a] → p = line * 128 / pageBytes → (page s p).st = .resident → Clean s (line * 128) 128 → Memory.wf s.mem = true → data.length = 128 →
    Answers (.wbDirty a line gen data) s fun t =>
      memBytes t.mem (line * 128) 128 = data ∧ (∀ x, x < line * 128 ∨ line * 128 + 128 ≤ x → memRead t.mem x = memRead s.mem x) ∧ t.vtx.dir.get i = {} ∧
      t.out = .msg .cohGrant a [6, line * 128] [] :: s.out ∧ Only [.vtx, .pln, .fld, .mem, .out] s t) ∧
  (∀ s a line gen i e, gen = s.vtx.gen → s.vtx.st = .up → (localPort s a).any (fun p => s.vtx.excluded.contains p) = false → (localPort s a).any (fun p => !(port s p).coherent) = false → lineMine s a line = true → txnOf s line = none →
    dirFind s line = some (i, e) → e.own = true → e.ptrs = [a] → Answers (.wbClean a line gen) s fun t =>
      t.vtx.dir.get i = {} ∧ t.out = .msg .cohGrant a [6, line * 128] [] :: s.out ∧ Only [.vtx, .out] s t) ∧
  (∀ s a line gen, gen ≠ s.vtx.gen → Answers (.wbClean a line gen) s fun t => t.vtx = { s.vtx with staleDrops := min (s.vtx.staleDrops + 1) 65535 } ∧ Only [.vtx] s t)

/-- R170 to R181, R183. -/
def Obligations.Transactions : Prop :=
  (∀ s l q p node tag i e, s.vtx.txns = [q] → q.line = l → q.mem = true → q.retryAt = none → q.data = none → q.dirty = false → q.fwd = false → q.grant = false → q.after = none →
    q.req.op = .coh .rdShared → q.req.priv = true → q.req.comb = false → q.req.line = l → q.req.who = .port p node tag → winOf s l = none → s.vtx.held = [] → dirFind s l = some (i, e) → e.coarse = false → e.ptrs = [] →
    e.own = false → serveCpl s (l * 128 / pageBytes) false = none → readPoisoned s (l * 128) 128 = false → Answers (.memoryAccessComplete (.line l) .good []) s fun t =>
      t.vtx.txns = [] ∧ (t.vtx.dir.get i).own = true ∧ (t.vtx.dir.get i).ptrs = [q.req.agent] ∧
      t.vtx.granted.head? = some (q.req.agent, l, q.req.tag) ∧ Told s t (.port p node tag) { data := memBytes s.mem (l * 128) 128, value := l * 128, aux := 1 } ∧
      t.pln.pages = s.pln.pages ∧ Only [.vtx, .pln, .out] s t) ∧
  (∀ s l q p node tag, s.vtx.txns = [q] → q.line = l → q.mem = true → q.retryAt = none → q.data = none → q.dirty = false → q.after = none → q.req.op = .coh .wrLine → q.req.mark = false →
    q.req.data.length = 128 → q.req.who = .port p node tag → s.vtx.held = [] → dirFind s l = none → serveCpl s (l * 128 / pageBytes) true = none → (page s (l * 128 / pageBytes)).st = .resident →
    Clean s (l * 128) 128 → Memory.wf s.mem = true → Answers (.memoryAccessComplete (.line l) .good []) s fun t =>
      memBytes t.mem (l * 128) 128 = q.req.data ∧ (∀ a, a < l * 128 ∨ l * 128 + 128 ≤ a → memRead t.mem a = memRead s.mem a) ∧ t.vtx.txns = [] ∧ t.vtx.dir = s.vtx.dir ∧
      Told s t (.port p node tag) { aux := 5 } ∧ t.pln.pages = s.pln.pages ∧ Only [.vtx, .pln, .fld, .mem, .out] s t) ∧
  (∀ s l q p node tag v old, s.vtx.txns = [q] → q.line = l → q.mem = true → q.retryAt = none → q.data = none → q.dirty = false → q.after = none → q.req.op = .coh .atomic → q.req.mark = false →
    q.req.atom = some (.fetchAdd, 1, v, 0) → q.req.who = .port p node tag → winOf s l = none → s.vtx.held = [] → dirFind s l = none → serveCpl s (l * 128 / pageBytes) true = none →
    (page s (l * 128 / pageBytes)).st = .resident → Clean s (l * 128 + q.req.off) 8 → Memory.wf s.mem = true → old = memWord s.mem (l * 128 + q.req.off) →
    Answers (.memoryAccessComplete (.line l) .good []) s fun t =>
      memBytes t.mem (l * 128 + q.req.off) 8 = toLE 8 ((old + v % 2 ^ 64) % 2 ^ 64) ∧ (∀ a, a < l * 128 + q.req.off ∨ l * 128 + q.req.off + 8 ≤ a → memRead t.mem a = memRead s.mem a) ∧
      t.vtx.txns = [] ∧ Told s t (.port p node tag) { value := old, aux := 5 } ∧ Only [.vtx, .pln, .fld, .mem, .out] s t) ∧
  (∀ s l r, s.vtx.queue = [r] → r.line = l → busyLine s l = false → r.op = .coh .rdCur → r.comb = false → dirFind s l = none → Answers (.lineQueueStart l) s fun t =>
      t.vtx.queue = [] ∧ t.vtx.txns = s.vtx.txns ++ [{ line := l, req := r, since := s.ft, mem := true, memSince := s.ft }] ∧ t.vtx.dir = s.vtx.dir ∧ Only [.vtx, .arc] s t) ∧
  (∀ s l r, s.vtx.queue = [r] → r.line = l → busyLine s l = true → Answers (.lineQueueStart l) s fun t => t = s) ∧
  (∀ s l w d, s.vtx.wins = [w] → w.line = l → w.atomic = false → w.data = some d → w.opened + 64 ≤ s.ft → Answers (.combineWindowClose l) s fun t =>
      t.vtx.wins = [] ∧ Only [.vtx] s t) ∧
  (∀ s l w q p node tag v old, s.vtx.wins = [w] → w.line = l → w.atomic = true → w.members = [] → w.opened + 64 ≤ s.ft → s.vtx.txns = [q] → q.line = l → q.atHome = true → q.data = none → q.after = none →
    q.req.op = .coh .atomic → q.req.mark = false → q.req.atom = some (.fetchAdd, 1, v, 0) → q.req.who = .port p node tag → s.vtx.held = [] → dirFind s l = none →
    Clean s (l * 128 + q.req.off) 8 → Memory.wf s.mem = true → old = memWord s.mem (l * 128 + q.req.off) → Answers (.atomicWindowClose l) s fun t =>
      memBytes t.mem (l * 128 + q.req.off) 8 = toLE 8 ((old + v % 2 ^ 64) % 2 ^ 64) ∧ (∀ a, a < l * 128 + q.req.off ∨ l * 128 + q.req.off + 8 ≤ a → memRead t.mem a = memRead s.mem a) ∧
      t.vtx.txns = [] ∧ t.vtx.wins = [] ∧ Told s t (.port p node tag) { value := old, aux := 5 } ∧ Only [.vtx, .fld, .mem, .out] s t) ∧
  (∀ s l w, s.vtx.wins = [w] → w.line = l → s.ft < w.opened + 64 → Answers (.atomicWindowClose l) s fun t => t = s) ∧
  (∀ s u q c pa w x l k node tag, takeCmd .vertex q (124 + q) (fun c => bits (c.w 0) 3 0 == 1) s = some (c, u) → u.vtx.st = .up → u.vtx.jobs = [] → vjCount c = 1 → bits (c.w 0) 3 0 = 1 →
    translate { part := c.part, asid := bits (c.w 0) 16 5, va := c.w 1, len := 128, engine := true, num := 124 + c.id } u = (u, .addr pa w x) → bits pa 63 52 = 0 → l = bits pa 51 0 / 128 →
    homeLocal u (bits pa 51 0 / pageBytes) = true → busyLine u l = false → winOf u l = none → dirFind u l = none → c.req = .port k node tag → c.issuer = none → bitOf (c.w 0) 4 = false → Answers (.vtxFlush q) s fun t =>
      Told u t (.port k node tag) cOk ∧ t.vtx = u.vtx ∧ Only [.eng, .vtx, .out] u t) ∧
  (∀ s u q c pa w x l k node tag, takeCmd .vertex q (124 + q) (fun c => bits (c.w 0) 3 0 == 2) s = some (c, u) → u.vtx.st = .up → u.vtx.jobs = [] → vjCount c = 1 → bits (c.w 0) 3 0 = 2 →
    translate { part := c.part, asid := bits (c.w 0) 16 5, va := c.w 1, len := 128, engine := true, num := 124 + c.id } u = (u, .addr pa w x) → bits pa 63 52 = 0 → l = bits pa 51 0 / 128 →
    homeLocal u (bits pa 51 0 / pageBytes) = true → busyLine u l = false → winOf u l = none → dirFind u l = none → c.req = .port k node tag → c.issuer = none → bitOf (c.w 0) 4 = false → Answers (.downgrade q) s fun t =>
      Told u t (.port k node tag) cOk ∧ t.vtx = u.vtx ∧ Only [.eng, .vtx, .out] u t) ∧
  (∀ s u q c pa w x l i e b, takeCmd .vertex q (124 + q) (fun c => bits (c.w 0) 3 0 == 1) s = some (c, u) → u.vtx.st = .up → u.vtx.jobs = [] → vjCount c = 1 → bits (c.w 0) 3 0 = 1 →
    translate { part := c.part, asid := bits (c.w 0) 16 5, va := c.w 1, len := 128, engine := true, num := 124 + c.id } u = (u, .addr pa w x) → bits pa 63 52 = 0 → l = bits pa 51 0 / 128 →
    homeLocal u (bits pa 51 0 / pageBytes) = true → busyLine u l = false → dirFind u l = some (i, e) → e.own = true → e.coarse = false → e.ptrs = [b] → u.vtx.granted = [] → Answers (.vtxFlush q) s fun t =>
      (∃ y ∈ t.vtx.txns, y.line = l ∧ y.req.op = .flush ∧ y.snoops = [(b, .inv)] ∧ y.mem = false) ∧ t.vtx.jobs.map (fun j => j.cmd) = [c] ∧ t.vtx.dir = u.vtx.dir ∧
      t.out = .msg .cohSnoop b [2, l * 128, 0, u.vtx.gen, 0, seqAgent u (124 + c.id), 0] [] :: u.out ∧ Only [.eng, .vtx, .arc, .out] u t) ∧
  (∀ s u q c k node tag, takeCmd .vertex q (124 + q) (fun c => bits (c.w 0) 3 0 == 1) s = some (c, u) → u.vtx.st ≠ .up → c.req = .port k node tag → c.issuer = none → bitOf (c.w 0) 4 = false →
    Answers (.vtxFlush q) s fun t => Told u t (.port k node tag) cDown ∧ c.part ∈ t.vtx.restart ∧ Only [.vtx, .out] u t)

/-- R183 to R188. -/
def Obligations.DomainFall : Prop :=
  (∀ s l q p node tag, s.vtx.st = .up → s.vtx.txns = [q] → q.line = l → q.snoops ≠ [] → q.since + max 1 s.vtx.snoopTmo * 1000 ≤ s.ft → q.after = none → q.req.who = .port p node tag → q.req.op ≠ .backInv →
    s.vtx.queue = [] → s.vtx.held = [] → s.vtx.wins = [] → s.vtx.jobs = [] → hasPartner s = false → Answers (.snoopTimeout l) s fun t =>
      t.vtx.st = .down ∧ t.vtx.cause = 1 ∧ t.vtx.agent = (q.snoops.map fun x => x.1).headD 0 ∧ t.vtx.infoLine = l ∧ t.vtx.txns = [] ∧ t.vtx.gen = (s.vtx.gen + 1) % 16 ∧ t.vtx.downFt = s.ft ∧
      t.vtx.downCount = min (s.vtx.downCount + 1) 65535 ∧ t.vtx.ackWait = cohPorts s ∧ .cpl (.port p node tag) { cDown with aux := 5 } ∈ t.out ∧
      (∀ k ∈ cohPorts s, .msg .cohDown k [5] [] ∈ t.out) ∧ Only [.vtx, .cmp, .out] s t) ∧
  (∀ s l q p node tag d, s.vtx.st = .up → s.vtx.txns = [q] → q.line = l → q.retryAt = some d → q.memSince + 20000 < s.ft → q.after = none → q.req.who = .port p node tag → q.req.op ≠ .backInv →
    s.vtx.queue = [] → s.vtx.held = [] → s.vtx.wins = [] → s.vtx.jobs = [] → hasPartner s = false → Answers (.cohMemoryTimeout l) s fun t =>
      t.vtx.st = .down ∧ t.vtx.cause = 8 ∧ t.vtx.txns = [] ∧ .cpl (.port p node tag) { cDown with aux := 5 } ∈ t.out ∧ Only [.vtx, .cmp, .out] s t) ∧
  (∀ s, s.vtx.st = .up → s.vtx.txns = [] → s.vtx.queue = [] → s.vtx.held = [] → s.vtx.wins = [] → s.vtx.jobs = [] → Answers .partnerDomainDown s fun t =>
      t.vtx.st = .down ∧ t.vtx.cause = 9 ∧ t.vtx.gen = (s.vtx.gen + 1) % 16 ∧ t.vtx.ackWait = cohPorts s ∧ Only [.vtx, .cmp, .out] s t) ∧
  (∀ s k tag roles, Admits s k roles .admin → s.vtx.st = .up → s.vtx.txns = [] → s.vtx.queue = [] → s.vtx.held = [] → s.vtx.wins = [] → s.vtx.jobs = [] → Answers (.forceDown (.mgmt k tag roles)) s fun t =>
      t.vtx.st = .down ∧ t.vtx.cause = 10 ∧ .cpl (.mgmt k tag roles) cOk ∈ t.out ∧ Only [.vtx, .cmp, .out] s t) ∧
  (∀ s p, Answers (.cohDownAck p) s fun t => t.vtx = { s.vtx with ackWait := s.vtx.ackWait.filter (fun q => q != p) } ∧ Only [.vtx] s t) ∧
  (∀ s p, p ∈ s.vtx.ackWait → s.vtx.ackSince + max 1 s.vtx.ackTmo * 1000 ≤ s.ft → Answers (.portExclude p) s fun t =>
      t.vtx = { s.vtx with ackWait := s.vtx.ackWait.filter (fun q => q != p), excluded := s.vtx.excluded ++ [p] } ∧ Only [.vtx] s t) ∧
  (∀ s k tag roles j (v : Word), Admits s k roles .admin → Answers (.portExclClear (.mgmt k tag roles) j v) s fun t =>
      (∀ p, p ∈ t.vtx.excluded ↔ p ∈ s.vtx.excluded ∧ ¬ (p / 64 = j ∧ v.getLsbD (p % 64) = true ∧ (port s p).st = .up)) ∧
      t.cmp = served s k ∧ Told s t (.mgmt k tag roles) cOk ∧ Only [.vtx, .cmp, .out] s t) ∧
  (∀ s, s.vtx.st = .down → s.vtx.walked = false → (∀ e ∈ s.vtx.dir, e.2.own = false) → s.vtx.recalled = [] → s.vtx.restart = [] → Answers .directoryWalkDone s fun t =>
      t.vtx = { s.vtx with dir := [], walked := true, st := .restarting } ∧ Only [.vtx] s t) ∧
  (∀ s i e, s.vtx.st = .down → s.vtx.walked = false → s.vtx.dir = [(i, e)] → e.used = true → e.own = true → s.vtx.recalled = [] → s.vtx.restart = [] → Clean s (e.line * 128) 128 → Memory.wf s.mem = true →
    Answers .directoryWalkDone s fun t =>
      t.vtx = { s.vtx with dir := [], walked := true, st := .restarting } ∧ readPoisoned t (e.line * 128) 128 = true ∧
      (∀ a, a < e.line * 128 ∨ e.line * 128 + 128 ≤ a → memRead t.mem a = memRead s.mem a) ∧ Only [.vtx, .fld, .mem] s t) ∧
  (∀ s done, s.vtx.st = .restarting → s.vtx.ackWait = [] → s.vtx.recalled = [] → s.vtx.restart = [] → (done = true ∨ hasPartner s = false) → Answers (.cohDomainUp done) s fun t =>
      t.vtx = { s.vtx with st := .up, ptrs := [], walked := false } ∧ Only [.vtx] s t) ∧
  (∀ s done p rest, s.vtx.st = .restarting → s.vtx.ackWait = p :: rest → s.vtx.recalled = [] → Answers (.cohDomainUp done) s fun t => t = s)

/-- R220, R223, R225, R239, R240. -/
def Obligations.Collectives : Prop :=
  (∀ s u v e c k, takeCmd .chord e e (fun c => cOp c == 1) s = some (c, u) → cOp c = 1 → (eng u e).waiting = [] → chdRoom (eng u e) c = true → (eng v e).early = [] → cReadyEn c = false →
    engineReadAs e c.part (cAsid c) (c.w 4) (32 * cMembers c) [] u = (v, k) → k.status = .ok → instOf v e (cTag c) = none →
    (instRanges c (memberRows (cMembers c) k.data)).all (fun r => r.1 % 128 == 0 || r.1 == c.w 7) = true →
    (instRanges c (memberRows (cMembers c) k.data)).all (fun r => (rangeCheck v c.part (cAsid c) r.1 r.2.1 r.2.2).isNone) = true → Answers (.reduce e) s fun t =>
      eng t e = { eng v e with insts := (eng v e).insts ++ [{ cmd := c, tag := cTag c, table := memberRows (cMembers c) k.data, units := cUnits c, lastRec := v.ft, since := writesNow v }] } ∧ Only [.chd] v t) ∧
  (∀ s u v e c k, takeCmd .chord e e (fun c => cOp c == 2) s = some (c, u) → cOp c = 2 → (eng u e).waiting = [] → chdRoom (eng u e) c = true → cReadyEn c = false →
    engineReadAs e c.part (cAsid c) (c.w 4) (32 * cMembers c) [] u = (v, k) → k.status = .ok → instOf v e (cTag c) = none →
    (instRanges c (memberRows (cMembers c) k.data)).all (fun r => r.1 % 128 == 0 || r.1 == c.w 7) = true →
    (instRanges c (memberRows (cMembers c) k.data)).all (fun r => (rangeCheck v c.part (cAsid c) r.1 r.2.1 r.2.2).isNone) = true → Answers (.reduceScatter e) s fun t =>
      eng t e = { eng v e with insts := (eng v e).insts ++ [{ cmd := c, tag := cTag c, table := memberRows (cMembers c) k.data, units := cUnits c, lastRec := v.ft, since := writesNow v }] } ∧ Only [.chd] v t) ∧
  (∀ s u v e c k, takeCmd .chord e e (fun c => cOp c == 3) s = some (c, u) → cOp c = 3 → (eng u e).waiting = [] → chdRoom (eng u e) c = true → cReadyEn c = false →
    engineReadAs e c.part (cAsid c) (c.w 4) (32 * cMembers c) [] u = (v, k) → k.status = .ok → instOf v e (cTag c) = none →
    (instRanges c (memberRows (cMembers c) k.data)).all (fun r => r.1 % 128 == 0 || r.1 == c.w 7) = true →
    (instRanges c (memberRows (cMembers c) k.data)).all (fun r => (rangeCheck v c.part (cAsid c) r.1 r.2.1 r.2.2).isNone) = true → Answers (.gather e) s fun t =>
      eng t e = { eng v e with insts := (eng v e).insts ++ [{ cmd := c, tag := cTag c, table := memberRows (cMembers c) k.data, units := cUnits c, lastRec := v.ft, since := writesNow v }] } ∧ Only [.chd] v t) ∧
  (∀ s u v e c k, takeCmd .chord e e (fun c => cOp c == 4) s = some (c, u) → cOp c = 4 → (eng u e).waiting = [] → chdRoom (eng u e) c = true → cReadyEn c = false →
    engineReadAs e c.part (cAsid c) (c.w 4) (32 * cMembers c) [] u = (v, k) → k.status = .ok → instOf v e (cTag c) = none →
    (instRanges c (memberRows (cMembers c) k.data)).all (fun r => r.1 % 128 == 0 || r.1 == c.w 7) = true →
    (instRanges c (memberRows (cMembers c) k.data)).all (fun r => (rangeCheck v c.part (cAsid c) r.1 r.2.1 r.2.2).isNone) = true → Answers (.scatter e) s fun t =>
      eng t e = { eng v e with insts := (eng v e).insts ++ [{ cmd := c, tag := cTag c, table := memberRows (cMembers c) k.data, units := cUnits c, lastRec := v.ft, since := writesNow v }] } ∧ Only [.chd] v t) ∧
  (∀ s u e c, takeCmd .chord e e (fun c => cOp c == 5) s = some (c, u) → cOp c = 5 → (eng u e).waiting = [] → chdRoom (eng u e) c = true → cReadyEn c = false → instOf u e (cTag c) = none →
    (instRanges c []).all (fun r => r.1 % 128 == 0 || r.1 == c.w 7) = true → (instRanges c []).all (fun r => (rangeCheck u c.part (cAsid c) r.1 r.2.1 r.2.2).isNone) = true → cMembers c = 0 →
    Answers (.indexGather e) s fun t =>
      eng t e = { eng u e with insts := (eng u e).insts ++ [{ cmd := c, tag := cTag c, units := cUnits c, lastRec := u.ft, since := writesNow u }] } ∧ Only [.chd] u t) ∧
  (∀ s u e c, takeCmd .chord e e (fun c => cOp c == 3) s = some (c, u) → chdRoom (eng u e) c = false → Answers (.gather e) s fun t =>
      eng t e = { eng u e with waiting := (eng u e).waiting ++ [c] } ∧ Only [.chd] u t) ∧
  (∀ s v e c rest k, (eng s e).waiting = c :: rest → (eng s e).early = [] → chdRoom (eng s e) c = true → fenced s .chord = false → cOp c ≠ 5 → cReadyEn c = false →
    engineReadAs e c.part (cAsid c) (c.w 4) (32 * cMembers c) [] (setEng e { eng s e with waiting := rest } s) = (v, k) → k.status = .ok → instOf v e (cTag c) = none → (eng v e).early = [] →
    (instRanges c (memberRows (cMembers c) k.data)).all (fun r => r.1 % 128 == 0 || r.1 == c.w 7) = true →
    (instRanges c (memberRows (cMembers c) k.data)).all (fun r => (rangeCheck v c.part (cAsid c) r.1 r.2.1 r.2.2).isNone) = true → Answers (.instanceAdmit e) s fun t =>
      eng t e = { eng v e with insts := (eng v e).insts ++ [{ cmd := c, tag := cTag c, table := memberRows (cMembers c) k.data, units := cUnits c, lastRec := v.ft, since := writesNow v }] } ∧ Only [.chd] v t)

/-- R227 to R239. -/
def Obligations.CollectiveData : Prop :=
  (∀ s v u e tag i c ds, fenced s .chord = false → instOf s e tag = some i → i.cmd = c → i.ready = true → i.pendRes = [] → cOp c = 1 → cPush c = false → cAll c = false → cHier c = false → cAccDst c = false →
    i.next < cChunks c → i.badCh = [] →
    readAll (some i.since) e c (chunkBytes (cIn c) (chunkLen c i.next)) ((i.table.zipIdx).map fun m => (m.1.1 + i.next * chunkBytes (cIn c) 256, [])) s = (v, cOk, ds) →
    engineWriteAs e c.part (cAsid c) (c.w 5 + i.next * (256 * fmtBits (cOut c) / 8)) (resultBytes c (chunkResult c i.next
      ((ds.map fun d => chunkVals (cIn c) (chunkLen c i.next) d).foldl (fun as x => accChunk (cRed c) (cL c) x as) (List.replicate (chunkLen c i.next) {})) none)) false v = (u, cOk) →
    instOf u e tag = some i → (eng u e).insts = [i] → Answers (.chunkReadComplete e tag []) s fun t =>
      (eng t e).insts = [{ i with next := i.next + 1, done := i.done ++ [i.next], out := worse (worse i.out cOk) cOk, retryAt := none, firstTry := none, lastRec := s.ft }] ∧
      t.mem = u.mem ∧ Only [.chd] u t) ∧
  (∀ s e tag i, fenced s .chord = false → instOf s e tag = some i → i.ready = false → (obj s (cReadyObj i.cmd)).value < i.cmd.w 2 → Answers (.chunkReadComplete e tag []) s fun t => t = s) ∧
  (∀ s e tag i k node x d, (eng s e).insts = [i] → i.tag = tag → i.ready = false → i.readyBy = some d → d ≤ s.ft → (obj s (cReadyObj i.cmd)).value < i.cmd.w 2 → cHier i.cmd = false → i.out = cOk →
    i.cmd.req = .port k node x → i.cmd.issuer = none → cObj i.cmd = none → Answers (.readyWaitTimeout e tag) s fun t =>
      (eng t e).insts = [] ∧ Told s t (.port k node x) cTimeout ∧ Only [.chd, .out] s t) ∧
  (∀ s e tag i k node x d f, (eng s e).insts = [i] → i.tag = tag → i.retryAt = some d → i.firstTry = some f → f + 20000 ≤ s.ft → cHier i.cmd = false → i.out = cOk →
    i.cmd.req = .port k node x → i.cmd.issuer = none → cObj i.cmd = none → Answers (.operandReadTimeout e tag) s fun t =>
      (eng t e).insts = [] ∧ Told s t (.port k node x) cTimeout ∧ Only [.chd, .out] s t) ∧
  (∀ s e tag i k node x, (eng s e).insts = [i] → i.tag = tag → cChunks i.cmd ≤ i.done.length → i.pendRes = [] → cHier i.cmd = false → i.out = cOk → i.badRows = 0 →
    i.cmd.req = .port k node x → i.cmd.issuer = none → cObj i.cmd = none → Answers (.collectiveComplete e tag) s fun t =>
      (eng t e).insts = [] ∧ (eng t e).doneN = min ((eng s e).doneN + 1) 65535 ∧ Told s t (.port k node x) cOk ∧ Only [.chd, .out] s t) ∧
  (∀ s e tag i k node x, (eng s e).insts = [i] → i.tag = tag → cChunks i.cmd ≤ i.done.length → i.pendRes = [] → cHier i.cmd = false → i.out = cOk → 0 < i.badRows →
    i.cmd.req = .port k node x → i.cmd.issuer = none → cObj i.cmd = none → Answers (.collectiveComplete e tag) s fun t =>
      (eng t e).insts = [] ∧ Told s t (.port k node x) { status := .partialDone, value := i.valid } ∧ Only [.chd, .out] s t) ∧
  (∀ s p node x e n m k i h0 h1 data, (port s p).part = some n → e = bits h0 4 0 → m = bits h0 28 21 → k = bits h0 63 32 → (seqOf s e).owned = true → (seqOf s e).part = n →
    (eng s e).insts = [i] → i.tag = bits h0 20 5 → cPush i.cmd = true → cIsRed i.cmd = false → m < cMembers i.cmd → k < cChunks i.cmd → bits h1 10 0 = chunkLen i.cmd k → bits h0 31 29 = 0 → bits h1 63 12 = 0 →
    bitOf h1 11 = false → fenceCpl s .chord n = none → (m, k) ∉ i.got → Answers (.collContrib (.port p node x) [h0, h1] data) s fun t =>
      (eng t e).insts = [{ i with got := i.got ++ [(m, k)], raw := i.raw.set (k * 256 + m) (data.take (bits h1 10 0)) }] ∧ Told s t (.port p node x) cOk ∧ Only [.chd, .out] s t) ∧
  (∀ s p node x e n m k i h0 h1 data, (port s p).part = some n → e = bits h0 4 0 → m = bits h0 28 21 → k = bits h0 63 32 → (seqOf s e).owned = true → (seqOf s e).part = n →
    (eng s e).insts = [i] → i.tag = bits h0 20 5 → cPush i.cmd = true → m < cMembers i.cmd → k < cChunks i.cmd →
    bits h1 10 0 = (if cIsRed i.cmd then chunkBytes (cIn i.cmd) (chunkLen i.cmd k) else chunkLen i.cmd k) → bits h0 31 29 = 0 → bits h1 63 12 = 0 →
    fenceCpl s .chord n = none → (m, k) ∈ i.got → Answers (.collContrib (.port p node x) [h0, h1] data) s fun t =>
      (eng t e).insts = [i] ∧ (eng t e).dup = min ((eng s e).dup + 1) 65535 ∧ Told s t (.port p node x) (cRef .state) ∧ Only [.chd, .out] s t) ∧
  (∀ s p node x h0 h1 data, (seqOf s (bits h0 4 0)).owned = false ∨ (port s p).part ≠ some (seqOf s (bits h0 4 0)).part → (seqOf s (bits h0 4 0)).part < 16 → Answers (.collContrib (.port p node x) [h0, h1] data) s fun t =>
      Told s t (.port p node x) cNP ∧ Only [.out] s t)

/-- R242 to R246. -/
def Obligations.HierarchicalReduce : Prop :=
  (∀ s e hdr data, instOf s e (bits (hdr.getD 0 0) 17 2) = none → bits (hdr.getD 0 0) 1 0 ≠ 3 → earlyBytes (eng s e) + 32 + data.length ≤ 1048576 → Answers (.hierPartial e hdr data) s fun t =>
      eng t e = { eng s e with early := (eng s e).early ++ [{ hdr := hdr, data := data, at_ := s.ft }] } ∧ Only [.chd] s t) ∧
  (∀ s e hdr data, instOf s e (bits (hdr.getD 0 0) 17 2) = none → bits (hdr.getD 0 0) 1 0 ≠ 3 → 1048576 < earlyBytes (eng s e) + 32 + data.length → Answers (.hierResult e hdr data) s fun t =>
      t.out = .msg .roceNak e [0x20, bits (hdr.getD 0 0) 17 2] [] :: s.out ∧ Only [.out] s t) ∧
  (∀ s e hdr data i h k, (eng s e).insts = [i] → hdr.getD 0 0 = h → i.tag = bits h 17 2 → cHier i.cmd = true → bits h 1 0 = 0 → hdrMatches i.cmd { hdr := hdr, data := data } = true → k = bits h 63 32 → cOrdered i.cmd = false →
    (0, bits h 23 18, k) ∉ i.seen → (i.parts.get k).length + 1 < cG i.cmd → Answers (.hierPartial e hdr data) s fun t =>
      (eng t e).insts = [{ i with seen := i.seen ++ [(0, bits h 23 18, k)], lastRec := s.ft, parts := i.parts.set k (i.parts.get k ++
        [{ sender := bits h 23 18, accs := decodePartial (cRed i.cmd) (cWide i.cmd) data, poison := bitOf h 31 }]) }] ∧ Only [.chd] s t) ∧
  (∀ s u e hdr data i h k, (eng s e).insts = [i] → hdr.getD 0 0 = h → i.tag = bits h 17 2 → cHier i.cmd = true → bits h 1 0 = 1 → hdrMatches i.cmd { hdr := hdr, data := data } = true → k = bits h 63 32 →
    (1, bits h 23 18, k) ∉ i.seen → bitOf h 31 = false → i.out = cOk →
    writeAll e i.cmd false (data.take (chunkLen i.cmd k * fmtBits (cOut i.cmd) / 8)) (resultDests i k) s = (u, cOk) → u.chd = s.chd → Answers (.hierResult e hdr data) s fun t =>
      (eng t e).insts = [{ i with seen := i.seen ++ [(1, bits h 23 18, k)], lastRec := s.ft, done := i.done ++ [k], out := cOk }] ∧ t.mem = u.mem ∧ Only [.chd] u t) ∧
  (∀ s e hdr i h k node x, (eng s e).insts = [i] → hdr.getD 0 0 = h → i.tag = bits h 17 2 → cHier i.cmd = true → bits h 1 0 = 2 → i.out = cOk → i.cmd.req = .port k node x → i.cmd.issuer = none → cObj i.cmd = none →
    Answers (.hierAbort e hdr) s fun t =>
      (eng t e).insts = [] ∧ t.chd.timeouts = min (s.chd.timeouts + 1) 65535 ∧ Told s t (.port k node x) cTimeout ∧ Only [.chd, .out] s t) ∧
  (∀ s e tag i k node x, (eng s e).insts = [i] → i.tag = tag → cHier i.cmd = true → cChunks i.cmd ≤ i.sent.length → i.done.length < cChunks i.cmd → i.lastRec + max 1 s.chd.hierTmo * 1000 ≤ s.ft → i.out = cOk →
    (∀ q ∈ cPeers i.cmd, peerOf s q = none) → i.cmd.req = .port k node x → i.cmd.issuer = none → cObj i.cmd = none → Answers (.hierTimeout e tag) s fun t =>
      (eng t e).insts = [] ∧ t.chd.timeouts = min (s.chd.timeouts + 1) 65535 ∧ t.out.head? = some (.cpl (.port k node x) cTimeout) ∧
      (∀ q ∈ cPeers i.cmd, .msg .hierAbort q [e, tag, cMe i.cmd] [] ∈ t.out) ∧ Only [.chd, .out] s t) ∧
  (∀ s e r, (eng s e).insts = [] → (eng s e).early = [r] → r.at_ + max 1 s.chd.hierTmo * 1000 ≤ s.ft → Answers (.earlyRecordDiscard e) s fun t =>
      (eng t e).early = [] ∧ t.chd.discards = min (s.chd.discards + 1) 65535 ∧ Only [.chd] s t)

/-- R263 to R267, R270, R274 to R280. -/
def Obligations.AttentionQueries : Prop :=
  (∀ s u v e c x w g k q, takeCmd .cone e (32 + e) (fun c => bits (c.w 0) 3 0 == 1) s = some (c, u) → coneCheck u e c = none → qSession u c.part (qAsid c.words) c.words = some (x, w) →
    coneGroup u (qGroup c.words) = some g → qInline c.words = false → engineReadAs (32 + e) c.part (qAsid c.words) (c.words.getD 5 0) (qVecBytes c.words) [] u = (v, k) → k.status = .ok → v.cone = u.cone →
    u.cone.queries = [] → c.words.length = 8 → slicesOf (qSplit c.words) (qT0 c.words) (qN c.words) = [(qT0 c.words, qN c.words)] →
    q = (sortBy id g.engines).getD ((rankIn g e + 0) % (sortBy id g.engines).length) e → Answers (.query e) s fun t =>
      t.cone.queries = [{ id := u.cone.nextId, cmd := c, hdr := c.words, vecs := k.data, num := x.num, slot := x.slot, seg := x.seg, segw := w, lead := e, cls := bits (c.w 0) 6 4, asid := qAsid c.words, acc := freshHeads c.words, out := { k with data := [] }, slices := [{ engine := q, first := qT0 c.words, count := qN c.words, active := decide (0 < qN c.words), heads := freshHeads c.words }] }] ∧
      sess t x.num = { sess v x.num with refs := (sess v x.num).refs + 1 } ∧ t.mem = v.mem ∧ Only [.cone, .orb] v t) ∧
  (∀ s u e c d k node tag, takeCmd .cone e (32 + e) (fun c => bits (c.w 0) 3 0 == 1) s = some (c, u) → coneCheck u e c = some d → d.reason ≠ some .state → c.req = .port k node tag → c.issuer = none → qObj c.words = none →
    Answers (.query e) s fun t => Told u t (.port k node tag) d ∧ Only [.out] u t) ∧
  (∀ s u v x e c k d p node tag, takeCmd .cone e (32 + e) (fun c => bits (c.w 0) 3 0 == 2) s = some (c, u) → coneCheck u e c = none → bits (c.w 1) 6 0 = 1 → u.cone.batches = [] →
    engineReadAs (32 + e) c.part (qAsid c.words) (c.w 5) 64 [] u = (v, k) → k.status = .ok → v.cone = u.cone →
    qCheck v c.part e (qAsid c.words) (qGroup c.words) true ((List.range 8).map fun j => ofLE ((k.data.drop (8 * j)).take 8)) c = some d → d.status ≠ .ok → d.reason ≠ some .state →
    engineWriteAs (32 + c.id) c.part (qAsid c.words) (c.w 5 + 56) (toLE 8 (pack [(4, d.status.code), (4, match d.reason with | some r => r.code | none => 0), (1, 1)])) false
      { v with cone := { v.cone with batches := [{ id := v.cone.nextId, cmd := c, left := 1, total := 1 }], nextId := v.cone.nextId + 1 } } = x →
    x.1.cone = { v.cone with batches := [{ id := v.cone.nextId, cmd := c, left := 1, total := 1 }], nextId := v.cone.nextId + 1 } → qObj c.words = none → c.req = .port p node tag → c.issuer = none →
    Answers (.batch e) s fun t =>
      t.cone.batches = [] ∧ t.mem = x.1.mem ∧ Told x.1 t (.port p node tag) { status := .partialDone, value := 0 } ∧ Only [.cone, .out] x.1 t) ∧
  (∀ s u v e c k x w n m h, takeCmd .cone e (32 + e) (fun c => bits (c.w 0) 3 0 == 2) s = some (c, u) → coneCheck u e c = none → bits (c.w 1) 6 0 = 1 → u.cone.batches = [] → u.cone.queries = [] →
    engineReadAs (32 + e) c.part (qAsid c.words) (c.w 5) 64 [] u = (v, k) → k.status = .ok → v.cone = u.cone → h = (List.range 8).map (fun j => ofLE ((k.data.drop (8 * j)).take 8)) →
    qCheck v c.part e (qAsid c.words) (qGroup c.words) true h c = none → qSession v c.part (qAsid c.words) h = some (x, w) → coneGroup v (qGroup c.words) = some { g := n, part := c.part, engines := [m] } →
    slicesOf (qSplit h) (qT0 h) (qN h) = [(qT0 h, qN h)] → Answers (.batch e) s fun t =>
      (t.cone.batches.map fun b => (b.left, b.total, b.okN)) = [(1, 1, 0)] ∧
      (t.cone.queries.map fun q => (q.hdr, q.num, q.batch, q.slices.map fun y => (y.engine, y.first, y.count))) = [(h, x.num, some (v.cone.nextId, 0), [(m, qT0 h, qN h)])] ∧ t.eng = u.eng) ∧
  (∀ s e q x, fenced s .cone = false → s.cone.queries = [q] → q.slices = [x] → x.engine = e → x.active = false → x.folded < x.count → q.stop = false → Answers (.sliceAdmit e) s fun t =>
      t.cone.queries = [{ q with slices := [{ x with active := true }] }] ∧ (t.cone.engs.get e).slices = min ((s.cone.engs.get e).slices + 1) 65535 ∧ Only [.cone] s t) ∧
  (∀ s v id q x n k recs off sp, fenced s .cone = false → s.cone.queries = [q] → q.id = id → q.slices = [x] → q.stop = false → q.vecs ≠ [] → x.active = true → x.folded < x.count → laneTurn s x.engine q.cls = true →
    n = min 256 (x.count - x.folded) → tileSpans q (x.first + x.folded) n = [sp] → readSpan q sp [] s = (v, k, recs, off) → k = cOk → v.cone = s.cone → Answers (.tileReadComplete id x.idx []) s fun t =>
      t.cone.queries = [{ q with slices := [{ x with folded := x.folded + n, heads := foldTile q recs x.heads, active := decide (x.folded + n < x.count) }], retryAt := none, firstTry := none }] ∧
      t.mem = v.mem ∧ Only [.cone] v t) ∧
  (∀ s id q p node tag d f, s.cone.queries = [q] → q.id = id → q.batch = none → q.out = cOk → q.retryAt = some d → q.firstTry = some f → f + 20000 ≤ s.ft → q.cmd.req = .port p node tag → q.cmd.issuer = none → qObj q.hdr = none →
    Answers (.coneReadTimeout id) s fun t =>
      t.cone.queries = [] ∧ t.cone.timeouts = min (s.cone.timeouts + 1) 65535 ∧ Told s t (.port p node tag) { cTimeout with aux := bits (q.hdr.getD 0 0) 63 48 } ∧ t.mem = s.mem ∧ Only [.cone, .orb, .out] s t) ∧
  (∀ s id i q x, s.cone.queries = [q] → q.id = id → q.slices.find? (fun y => y.idx == i) = some x → q.merged = i → x.count ≤ x.folded → q.stop = false → Answers (.sliceResultArrive id i) s fun t =>
      t.cone.queries = [{ q with merged := i + 1, acc := (q.acc.zip x.heads).map fun p => mergeHead p.1 p.2 }] ∧ Only [.cone] s t) ∧
  (∀ s u id q p node tag, fenced s .cone = false → s.cone.queries = [q] → q.id = id → q.batch = none → q.stop = false → q.slices.length ≤ q.merged →
    engineWriteAs (32 + q.lead) q.cmd.part q.asid (q.hdr.getD 6 0) (q.acc.flatMap (headRecord q.hdr)) false s = (u, cOk) → u.cone = s.cone → q.cmd.req = .port p node tag → q.cmd.issuer = none → qObj q.hdr = none →
    Answers (.queryComplete id) s fun t =>
      t.cone.queries = [] ∧ t.mem = u.mem ∧ Told u t (.port p node tag) { aux := bits (q.hdr.getD 0 0) 63 48 } ∧ Only [.cone, .orb, .out] u t) ∧
  (∀ s id q, fenced s .cone = false → s.cone.queries = [q] → q.id = id → q.stop = false → q.merged < q.slices.length → Answers (.queryComplete id) s fun t => t = s)

/-- R309, R311, R312, R314, R316, R318, R310, R320; R307 for the completions. -/
def Obligations.SessionCommands : Prop :=
  (∀ s u q c n x w p node tag, orbTake 1 q s = some (c, u) → linkDown u = false → hasPartner u = false → orbSeg u c.part (bits (c.w 1) 49 46) = some w → segType w = 3 →
    takeNumber u c.part = some (n, x) → oObj c = none → c.req = .port p node tag → c.issuer = none → Answers (.orbOpen q) s fun t =>
      sess t n = { st := .parked, depth := .cold, part := c.part, gen := (sess u n).gen, seg := bits (c.w 1) 49 46, openFt := u.ft, changeFt := u.ft, user := c.w 6 } ∧
      t.orb.pools.get c.part = x ∧ Told u t (.port p node tag) (orbCpl (sess t n) (handleOf (sess t n) n) false c cOk) ∧ Only [.orb, .out] u t) ∧
  (∀ s u q c w p node tag, orbTake 1 q s = some (c, u) → linkDown u = false → orbSeg u c.part (bits (c.w 1) 49 46) = some w → segType w = 3 →
    takeNumber u c.part = none → oObj c = none → c.req = .port p node tag → c.issuer = none → Answers (.orbOpen q) s fun t =>
      t.orb.sess = u.orb.sess ∧ Told u t (.port p node tag) (orbCpl {} (oHandle c) false c (cRef .capacity)) ∧ Only [.orb, .out] u t) ∧
  (∀ s u v x a k q c n p node tag (ext : List Byte), orbTake 2 q s = some (c, u) → sessNum u c.part (oHandle c) = some n → linkDown u = false → hasPartner u = false → u.pair.st ≠ .takeover →
    (sess u n).st ≠ .closing → (logSeg u c.part).isSome = true → cmdTokens c ext u = (v, k) → k.status = .ok → attached (sess v n) = false → (sess v n).st ≠ .reviving → (sess v n).st ≠ .free →
    (oPos c = 0xFFFFFFFF ∨ oPos c = (sess v n).logLen) → 0 < oCount c → (sess v n).logLen + oCount c ≤ logMax v (sess v n) →
    ceilDiv ((sess v n).logLen + oCount c) 1023 ≤ (sess v n).chunks.length → listWrite (sess v n).part (sess v n).chunks 1023 4 (sess v n).logLen (oCount c) k.data v = (x, a) → a.status = .ok →
    hasPartner x = false → oObj c = none → c.req = .port p node tag → c.issuer = none → Answers (.orbAppend q ext) s fun t =>
      sess t n = { sess v n with logLen := (sess v n).logLen + oCount c } ∧ t.mem = x.mem ∧
      Told x t (.port p node tag) (orbCpl (sess t n) (handleOf (sess t n) n) false c cOk) ∧ Only [.orb, .out] x t) ∧
  (∀ s u v y z x k a q c n p node tag (ext : List Byte), orbTake 3 q s = some (c, u) → sessNum u c.part (oHandle c) = some n → linkDown u = false → hasPartner u = false → u.pair.st ≠ .takeover →
    (sess u n).st ≠ .closing → (logSeg u c.part).isSome = true → cmdTokens c ext u = (v, k) → k.status = .ok → findResult n (oCall c) v = (y, cOk, none) →
    appendAt n (oPos c) (oCount c) k.data y = (z, cOk) → putRecord n 1 (oCall c) (if oPos c = 0xFFFFFFFF then (sess y n).logLen else oPos c) (oCount c) (c.w 6) z = some (x, a) → a.status = .ok →
    (sess x n).st ≠ .free → hasPartner x = false → oObj c = none → c.req = .port p node tag → c.issuer = none → Answers (.toolResult q ext) s fun t =>
      sess t n = { sess x n with resultSeen := (sess x n).resultSeen || ((sess x n).st == .parking && (sess x n).callId == oCall c) } ∧ t.mem = x.mem ∧
      Told x t (.port p node tag) (orbCpl (sess t n) (handleOf (sess t n) n) false c cOk) ∧ Only [.orb, .out] x t) ∧
  (∀ s u v q c n, orbTake 4 q s = some (c, u) → sessNum u c.part (oHandle c) = some n → linkDown u = false → hasPartner u = false → u.pair.st ≠ .takeover →
    jobOf u n = none → (sess u n).st = .attached → oWin c ≤ oKvLen c → oKvLen c ≤ (sess u n).logLen → bitOf (c.w 1) 45 = false →
    (oDepth c = .hot → hotCount u c.part < (orbPart u c.part).hotMax) → findResult n (oCall c) u = (v, cOk, none) → hasPartner v = false → Answers (.park q) s fun t =>
      sess t n = { sess u n with kvLen := oKvLen c, win := oWin c, tray := oTray c, demote := oDemote c, pin := oPin c, st := .parking, changeFt := v.ft, parkStep := angleStep (dom v c.part).angle, callId := oCall c, resultSeen := false, target := oDepth c } ∧
      t.orb.jobs = v.orb.jobs ++ [{ num := n, kind := .park, cmd := c }] ∧ Only [.orb] v t) ∧
  (∀ s u q c n p node tag, orbTake 5 q s = some (c, u) → sessNum u c.part (oHandle c) = some n → linkDown u = false → hasPartner u = false → u.pair.st ≠ .takeover →
    (sess u n).st = .parked → (sess u n).depth = oDepth c → (oDepth c = .cold ∨ (sess u n).tray = oTray c) → oObj c = none → c.req = .port p node tag → c.issuer = none →
    Answers (.move q) s fun t =>
      sess t n = { sess u n with demote := oDemote c, pin := oPin c } ∧ Told u t (.port p node tag) (orbCpl (sess t n) (handleOf (sess t n) n) false c cOk) ∧ Only [.orb, .out] u t) ∧
  (∀ s u q c n, orbTake 5 q s = some (c, u) → sessNum u c.part (oHandle c) = some n → linkDown u = false → hasPartner u = false → u.pair.st ≠ .takeover →
    (sess u n).st = .parked → (sess u n).depth ≠ .cold → oDepth c = .cold → energyAns u .parkMove (preCost u 9 4 [(0, (sess u n).pages.length * pageBytes)]) ≠ .refused →
    Answers (.move q) s fun t =>
      sess t n = { sess u n with demote := oDemote c, pin := oPin c, st := .moving, changeFt := u.ft, target := .cold } ∧
      t.orb.jobs = (u.orb.jobs.filter (·.num != n)) ++ [{ num := n, kind := .move, cmd := c }] ∧ Only [.orb] u t) ∧
  (∀ s u v q c n w sl, orbTake 6 q s = some (c, u) → sessNum u c.part (oHandle c) = some n → linkDown u = false → hasPartner u = false → u.pair.st ≠ .takeover →
    (sess u n).st = .parked → orbSeg u (sess u n).part (sess u n).seg = some w → oCopies c = 0 → (sess u n).win = 0 → (sess u n).slot.or (freeSlot u (sess u n).part (sess u n).seg) = some sl →
    backLog n (setSess n { sess u n with st := .reviving, changeFt := u.ft, group := some (oGroup c), slot := some sl, held := false } u) = some v →
    (orbPart v (sess u n).part).pfPages = 0 → hasPartner v = false → Answers (.revive q) s fun t =>
      t.orb.sess = v.orb.sess ∧ t.orb.jobs = v.orb.jobs ++ [{ num := n, kind := .revive, cmd := c }] ∧ Only [.orb] v t) ∧
  (∀ s u q c n p node tag, orbTake 6 q s = some (c, u) → sessNum u c.part (oHandle c) = some n → linkDown u = false → hasPartner u = false → u.pair.st ≠ .takeover →
    (sess u n).st = .attached → (sess u n).group = some (oGroup c) → oObj c = none → c.req = .port p node tag → c.issuer = none → Answers (.revive q) s fun t =>
      sess t n = sess u n ∧ Told u t (.port p node tag) (orbCpl (sess u n) (handleOf (sess u n) n) false c cOk) ∧ Only [.orb, .out] u t) ∧
  (∀ s u q c n, orbTake 7 q s = some (c, u) → sessNum u c.part (oHandle c) = some n → linkDown u = false → hasPartner u = false → u.pair.st ≠ .takeover →
    (sess u n).st ≠ .closing → jobOf u n = none → (∀ h ∈ u.orb.held, h.1 ≠ n) → Answers (.orbClose q) s fun t =>
      sess t n = { sess u n with st := .closing, changeFt := u.ft, group := none, held := false } ∧
      t.orb.jobs = u.orb.jobs ++ [{ num := n, kind := .close, cmd := c }] ∧ Only [.orb] u t) ∧
  (∀ s u x q c n p node tag, orbTake 8 q s = some (c, u) → sessNum u c.part (oHandle c) = some n → hasPartner u = false → oObj c = none → c.req = .port p node tag → c.issuer = none →
    engineWriteAs 116 c.part (orbPart u c.part).asid (c.w 5) ((sessWords (sess u n)).flatMap (toLE 8)) false u = (x, cOk) → Answers (.orbDescribe q) s fun t =>
      t.mem = x.mem ∧ Told x t (.port p node tag) (orbCpl (sess x n) (handleOf (sess x n) n) false c cOk) ∧ Only [.out] x t) ∧
  (∀ s u v x k cnt q c n p node tag, orbTake 9 q s = some (c, u) → sessNum u c.part (oHandle c) = some n → hasPartner u = false → oObj c = none → c.req = .port p node tag → c.issuer = none →
    cnt = min (oCount c) ((if bitOf (c.w 0) 7 then (sess u n).recCount else (sess u n).logLen) - oPos c) → cnt ≠ 0 →
    (if bitOf (c.w 0) 7 then logRecords n (oPos c) cnt u else logTokens n (oPos c) cnt u) = (v, k) → k.status = .ok →
    engineWriteAs 116 c.part (orbPart v c.part).asid (c.w 5) k.data false v = (x, cOk) → Answers (.orbLogRead q) s fun t =>
      t.mem = x.mem ∧ Told x t (.port p node tag) (orbCpl (sess x n) (handleOf (sess x n) n) false c (if cnt < oCount c then { status := .partialDone, value := cnt } else cVal cnt)) ∧ Only [.out] x t)

/-- R315, R317, R316, R318, R310 with R291, R327. -/
def Obligations.SessionProgress : Prop :=
  (∀ s n j p node tag, (sess s n).st = .parking → linkDown s = false → hasPartner s = false → fenced s .orbit = false → ((sess s n).parkStep < (dom s (sess s n).part).commit ∨ (dom s (sess s n).part).st = .idle) →
    jobOf s n = some j → j.joined = [] → (sess s n).resultSeen = true → oObj j.cmd = none → j.cmd.req = .port p node tag → j.cmd.issuer = none → Answers (.parkDetach n) s fun t =>
      sess t n = { sess s n with st := .attached, changeFt := s.ft, resultSeen := false } ∧ t.orb.jobs = s.orb.jobs.filter (·.num != n) ∧
      Told s t (.port p node tag) (orbCpl (sess t n) (handleOf (sess t n) n) true j.cmd cOk) ∧ Only [.orb, .out] s t) ∧
  (∀ s n j p node tag, (sess s n).st = .parking → linkDown s = false → hasPartner s = false → fenced s .orbit = false → ((sess s n).parkStep < (dom s (sess s n).part).commit ∨ (dom s (sess s n).part).st = .idle) →
    jobOf s n = some j → j.joined = [] → (sess s n).resultSeen = false → oDepth j.cmd = .cold → oObj j.cmd = none → j.cmd.req = .port p node tag → j.cmd.issuer = none → Answers (.parkDetach n) s fun t =>
      sess t n = { sess s n with st := .moving, changeFt := s.ft, group := none, target := .cold } ∧
      t.orb.jobs = (s.orb.jobs.filter (·.num != n)) ++ [{ num := n, kind := .move }] ∧ (t.orb.stats.get (sess s n).part).parks = sat 16 (s.orb.stats.get (sess s n).part).parks ∧
      Told s t (.port p node tag) (orbCpl (sess t n) (handleOf (sess t n) n) false j.cmd cOk) ∧ Only [.orb, .out] s t) ∧
  (∀ s n, (sess s n).st = .parking → fenced s .orbit = false → (dom s (sess s n).part).commit ≤ (sess s n).parkStep → (dom s (sess s n).part).st ≠ .idle → Answers (.parkDetach n) s fun t => t = s) ∧
  (∀ s u n j, (sess s n).st = .moving → (sess s n).target = .cold → (sess s n).refs = 0 → fenced s .orbit = false → jobOf s n = some j → j.ready = none →
    energyTake (sess s n).part (if j.back then .background else .parkMove) (coldCost s n) s = some (u, false) → sess u n = sess s n → Answers (.coldMoveProceed n) s fun t =>
      sess t n = { sess s n with pages := [], slot := none, kvLen := 0, win := 0 } ∧ t.mem = (freePages n u).mem ∧ Only [.orb] (freePages n u) t) ∧
  (∀ s n, (sess s n).refs ≠ 0 → Answers (.coldMoveProceed n) s fun t => t = s) ∧
  (∀ s n j p node tag, (sess s n).st = .moving → fenced s .orbit = false → linkDown s = false → hasPartner s = false → jobOf s n = some j → (j.issued = true ∨ (sess s n).target = .cold) → j.ready = some cOk →
    (∀ h ∈ s.orb.held, h.1 ≠ n) → j.cmd.words ≠ [] → oObj j.cmd = none → j.cmd.req = .port p node tag → j.cmd.issuer = none → Answers (.moveDone n) s fun t =>
      sess t n = { sess s n with st := .parked, changeFt := s.ft, depth := (sess s n).target } ∧ t.orb.jobs = s.orb.jobs.filter (·.num != n) ∧
      Told s t (.port p node tag) (orbCpl (sess t n) (handleOf (sess t n) n) false j.cmd cOk) ∧ Only [.orb, .eng, .out] s t) ∧
  (∀ s v n j cnt p node tag, fenced s .orbit = false → jobOf s n = some j → j.kind = .revive → j.joined = [] → reviveWork j s = (v, cOk, cnt) → hasPartner v = false → (sess v n).st = .reviving →
    oObj j.cmd = none → j.cmd.req = .port p node tag → j.cmd.issuer = none → Answers (.reviveDone n) s fun t =>
      sess t n = { sess v n with st := .attached, changeFt := v.ft } ∧ t.orb.jobs = v.orb.jobs.filter (·.num != n) ∧ t.mem = v.mem ∧
      Told v t (.port p node tag) (orbCpl (sess t n) (handleOf (sess t n) n) false j.cmd (cVal cnt)) ∧ Only [.orb, .out] v t) ∧
  (∀ s n j p node tag, (sess s n).st = .closing → (sess s n).refs = 0 → fenced s .orbit = false → linkDown s = false → hasPartner s = false → jobOf s n = some j → hasPartner (freePages n s) = false →
    oObj j.cmd = none → j.cmd.req = .port p node tag → j.cmd.issuer = none → Answers (.closeRelease n) s fun t =>
      sess t n = { gen := ((sess s n).gen + 1) % 256 } ∧ t.mem = (freePages n s).mem ∧
      Told (freePages n s) t (.port p node tag) (orbCpl { gen := ((sess s n).gen + 1) % 256 } (oHandle j.cmd) false j.cmd cOk) ∧ Only [.orb, .out] (freePages n s) t) ∧
  (∀ s n, (sess s n).refs ≠ 0 → Answers (.closeRelease n) s fun t => t = s) ∧
  (∀ s n, (sess s n).st = .parked → (sess s n).demote = true → (sess s n).depth = .warm → fenced s .orbit = false → linkDown s = false → hasPartner s = false → (orbPart s (sess s n).part).warmIdleS ≠ 0 →
    (sess s n).changeFt + (orbPart s (sess s n).part).warmIdleS * 1000000000 ≤ s.ft → Answers (.demotion n) s fun t =>
      sess t n = { sess s n with st := .moving, changeFt := s.ft, target := .cold } ∧
      t.orb.jobs = (s.orb.jobs.filter (·.num != n)) ++ [{ num := n, kind := .move, back := true }] ∧
      (t.orb.stats.get (sess s n).part).demotions = sat 16 (s.orb.stats.get (sess s n).part).demotions ∧ Only [.orb] s t)

/-- R351, R352, R353 to R356, R358, R362, R366, R367. -/
def Obligations.Sampling : Prop :=
  (∀ s u v q c i p node tag a b o (g : List Nat), apxTake 1 q s = some (c, u) → (sessNum u c.part (iSession c.words)).isSome = true → c.words.length = 16 →
    rangeCheck u c.part (apxPart u c.part).asid (iRing c.words) (128 + 16 * 2 ^ iOrder c.words) true = none → rangeCheck u c.part (apxPart u c.part).asid (iRes c.words) 128 true = none →
    segStage u { part := c.part, asid := (apxPart u c.part).asid, va := iRing c.words, len := 128 + 16 * 2 ^ iOrder c.words, write := true, engine := true } = .ok a b g o → segCoherent g = false →
    (u.apx.pools.get c.part).next < (apxPart u c.part).count → i = (apxPart u c.part).base + (u.apx.pools.get c.part).next →
    engineWriteAs 112 c.part (apxPart u c.part).asid (iRing c.words) ([0, 0, 0, pack [(24, i + 2 ^ 15 * (apxReq u i).gen + 2 ^ 23 * b2n u.cmp.roleB), (8, 0), (32, iStart c.words)], 0, 0, 0, 0, 0, 0, 0, 0, 0, 0, 0, 0].flatMap (toLE 8)) false u = (v, cOk) →
    c.req = .port p node tag → c.issuer = none → Answers (.apxOpen q) s fun t =>
      apxReq t i = { st := .running, gen := (apxReq u i).gen, part := c.part, img := c.words, ringPos := iStart c.words } ∧ t.mem = v.mem ∧
      Told v t (.port p node tag) { value := i + 2 ^ 15 * (apxReq u i).gen + 2 ^ 23 * b2n u.cmp.roleB, aux := bits (c.w 0) 39 24 } ∧ Only [.apx, .out] v t) ∧
  (∀ s u q c i p node tag, apxTake 2 q s = some (c, u) → reqLocal u (bits (c.w 1) 23 0) = true → reqIdx u c.part (bits (c.w 1) 23 0) = some i → c.req = .port p node tag → c.issuer = none → Answers (.apxSet q) s fun t =>
      apxReq t i = { apxReq u i with img := setFields (apxReq u i).img c.words } ∧ Told u t (.port p node tag) { value := bits (c.w 1) 23 0, aux := bits (c.w 0) 39 24 } ∧ Only [.apx, .out] u t) ∧
  (∀ s u q c i p node tag, apxTake 3 q s = some (c, u) → reqLocal u (bits (c.w 1) 23 0) = true → reqIdx u c.part (bits (c.w 1) 23 0) = some i → (apxReq u i).st ≠ .running → (apxReq u i).pendEnd = none → (apxReq u i).closing = none →
    c.req = .port p node tag → c.issuer = none → Answers (.apxClose q) s fun t =>
      apxReq t i = { gen := ((apxReq u i).gen + 1) % 256 } ∧ Told u t (.port p node tag) { value := bits (c.w 1) 23 0, aux := bits (c.w 0) 39 24 } ∧ Only [.apx, .out] u t) ∧
  (∀ s u v q c i y p node tag, apxTake 3 q s = some (c, u) → reqLocal u (bits (c.w 1) 23 0) = true → reqIdx u c.part (bits (c.w 1) 23 0) = some i → (apxReq u i).st = .running → (apxReq u i).closing = none →
    putEnd 3 (apxReq u i).ringPos { apxReq u i with slot := none } u = (v, cOk, y) → y.pendEnd = none → v.apx = u.apx → c.req = .port p node tag → c.issuer = none → Answers (.apxClose q) s fun t =>
      apxReq t i = { gen := ((apxReq u i).gen + 1) % 256 } ∧ t.mem = v.mem ∧ Told v t (.port p node tag) { value := bits (c.w 1) 23 0, aux := bits (c.w 0) 39 24 } ∧ Only [.apx, .out] v t) ∧
  (∀ s u v q c i p node tag, apxTake 4 q s = some (c, u) → reqLocal u (bits (c.w 1) 23 0) = true → reqIdx u c.part (bits (c.w 1) 23 0) = some i →
    engineWriteAs 112 (apxReq u i).part (apxPart u (apxReq u i).part).asid (c.w 13) ((reqImage u i (apxReq u i)).flatMap (toLE 8)) false u = (v, cOk) → c.req = .port p node tag → c.issuer = none → Answers (.apxDescribe q) s fun t =>
      t.mem = v.mem ∧ Told v t (.port p node tag) { value := bits (c.w 1) 23 0, aux := bits (c.w 0) 39 24 } ∧ Only [.out] v t) ∧
  (∀ s p node tag n i h shard nshard nd cls pos kk (hdr : List Nat) (data : List Byte), reqPart s (.port p node tag) = some n → h = hdr.getD 0 0 → reqLocal s (bits h 23 0) = true → reqIdx s n (bits h 23 0) = some i →
    shard = bits h 29 24 → nshard = bits h 35 30 + 1 → nd = bits h 40 36 → cls = bits h 43 41 → bits h 63 45 = 0 → cls ≤ 1 → nd ≤ 16 → hdr.getD 1 0 = pos → pos < 2 ^ 32 → hdr.getD 2 0 = kk → 0 < kk → kk ≤ 256 → hdr.getD 3 0 = 0 → shard < nshard →
    data.length = 16 * ceilDiv nd 4 + 8 * kk * (nd + 1) → 32 + data.length ≤ 16384 → (msgCands shard kk (nd + 1) (data.drop (16 * ceilDiv nd 4))).any twice = false → fenceCpl s .apex n = none →
    (apxReq s i).slot = none → iFull (apxReq s i).img = true → slotsUsed s (fun _ => true) < 1024 → slotsUsed s (· == n) < (apxPart s n).slotQuota → kk * (nd + 1) ≤ 4096 →
    (apxReq s i).st = .running → pos ≤ (apxReq s i).ringPos → (apxReq s i).ringPos ≤ pos + 64 → Answers (.sampleContrib (.port p node tag) hdr data) s fun t =>
      apxReq t i = { apxReq s i with slot := some { pos := pos, nshard := nshard, drafts := (List.range nd).map fun j => ofLE ((data.drop (4 * j)).take 4), cls := cls, opened := s.ft, img := (apxReq s i).img, shards := [shard], poison := bitOf h 44, cands := msgCands shard kk (nd + 1) (data.drop (16 * ceilDiv nd 4)) } } ∧
      Told s t (.port p node tag) cOk ∧ Only [.apx, .out] s t) ∧
  (∀ s u v k i y, (apxReq s i).slot = some y → slotFull y = false → y.opened + apxTmo s ≤ s.ft → iObj y.img = none →
    modAStat (apxReq s i).part (fun z => { z with timeouts := sat 16 z.timeouts }) (setApxReq i { apxReq s i with slot := none } s) = u →
    apxWrite (apxReq s i) (iRes y.img) (([pack [(4, 8), (4, 0), (5, 0), (1, 0), (3, 0), (15, 0), (32, y.pos)], pack [(32, 0), (5, 0)]] ++ List.replicate 14 0).flatMap (toLE 8)) u = (v, k) → v.apx = u.apx → Answers (.sampleTimeout i) s fun t =>
      apxReq t i = { apxReq s i with slot := none } ∧ t.mem = v.mem ∧ Only [.apx] v t) ∧
  (∀ s i y, (apxReq s i).slot = some y → s.ft < y.opened + apxTmo s → Answers (.sampleTimeout i) s fun t => t = s) ∧
  (∀ s v u i x y d, fenced s .apex = false → apxTurn s u = some (i, x, v) → x.slot = some y → y.poison = false → y.cands.any twice = false → drawAll y.img y.pos (x.hist.drop (x.ringPos - y.pos)) y.cands y.drafts {} = d → d.toks ≠ [] →
    Answers (.sampleServe u) s fun t =>
      apxReq t i = { x with slot := some { y with served := true, toks := d.toks, noCand := d.noCand, endWhy := d.endWhy, accepted := d.accepted, firstTry := some s.ft } } ∧
      ((∃ c ∈ queueOf t .orbit x.part, c.req = .block 0xD i) ∨ (∃ k, (0xD, i, k) ∈ t.eng.done)) ∧ t.mem = s.mem ∧ t.loc = s.loc ∧ t.mer = s.mer ∧ t.pln = s.pln) ∧
  (∀ s v i x y d, apxReq s i = x → x.slot = some y → y.served = true → s.eng.done.find? (fun e => e.1 == 0xD && e.2.1 == i) = some d → d.2.2.status = .ok →
    deliver i x y (ofLE ((d.2.2.data.drop 8).take 4)) { s with eng := { s.eng with done := s.eng.done.erase d } } = (v, cOk) → Answers (.sampleAppendComplete i) s fun t =>
      t = v ∧ (apxReq t i).slot = none ∧ (apxReq t i).ringPos = max x.ringPos (y.pos + y.toks.length) ∧ (apxReq t i).st = (if y.endWhy = 0 then x.st else .ended) ∧
      (apxReq t i).emitted = x.emitted + ((y.toks.zipIdx).filter fun p => decide (x.ringPos ≤ y.pos + p.2)).length) ∧
  (∀ s v i k y why pos, (apxReq s i).pendEnd = some (why, pos) → putEnd why pos (apxReq s i) s = (v, k, y) → k.status ≠ .retry → y.closing = none → Answers (.ringEndWrite i) s fun t =>
      apxReq t i = y ∧ t.mem = v.mem ∧ Only [.apx] v t)

/-- R393, R395 to R398, R400, R401. -/
def Obligations.IndexCommands : Prop :=
  (∀ s u e c i a b z v d w tb old p node tag, cenTake 1 e s = some (c, u) → (u.cen.pools.get c.part).next < (cenPart u c.part).count → i = (cenPart u c.part).base + (u.cen.pools.get c.part).next →
    rangeCheck u c.part (cenPart u c.part).asid (c.w 4) 128 true = none → cenRead (cenCtx u e c.part) (c.w 4) 128 u = (a, cOk, d) → w = (List.range 16).map (fun j => ofLE ((d.drop (8 * j)).take 8)) → idxBad w = false → bits (w.getD 10 0) 31 0 ≤ bits (w.getD 10 0) 63 32 →
    rangeCheck a c.part (cenPart u c.part).asid (xCent w) (xNlist w * xD w) false = none → rangeCheck a c.part (cenPart u c.part).asid (xDir w) (32 * xNlist w) true = none →
    rangeCheck a c.part (cenPart u c.part).asid (xSide w) (xSideCap w * recBytes w) true = none → rangeCheck a c.part (cenPart u c.part).asid (xDel w) (16 * xSlots w) true = none →
    cenRead (cenCtx u e c.part) (xDel w) (16 * xSlots w) a = (b, cOk, tb) → tableOf w tb = old → writeTable (cenCtx u e c.part) w old (compactTable w (fun q => decide (w.getD 8 0 < q)) old) b = (z, cOk) →
    writeLive (cenCtx u e c.part) { isOpen := true, gen := (idxOf u i).gen, part := c.part, desc := c.w 4, words := w.take 6, seq := w.getD 8 0, floor := w.getD 9 0, head := bits (w.getD 10 0) 31 0, tail := bits (w.getD 10 0) 63 32, mgen := bits (w.getD 11 0) 31 0, dels := (compactTable w (fun q => decide (w.getD 8 0 < q)) old).length, side := bits (w.getD 10 0) 31 0 } z = (v, cOk) →
    nObj c = none → c.req = .port p node tag → c.issuer = none → Answers (.openIndex e) s fun t =>
      idxOf t i = { isOpen := true, gen := (idxOf u i).gen, part := c.part, desc := c.w 4, words := w.take 6, seq := w.getD 8 0, floor := w.getD 9 0, head := bits (w.getD 10 0) 31 0, tail := bits (w.getD 10 0) 63 32, mgen := bits (w.getD 11 0) 31 0, dels := (compactTable w (fun q => decide (w.getD 8 0 < q)) old).length, side := bits (w.getD 10 0) 31 0, since := writesNow v } ∧
      (t.cen.pools.get c.part).next = (u.cen.pools.get c.part).next + 1 ∧ t.mem = v.mem ∧ Told v t (.port p node tag) (cenCpl c (idxHandle v i (idxOf t i)) (w.getD 8 0) cOk) ∧ Only [.cen, .out] v t) ∧
  (∀ s u e c a d w p node tag, cenTake 1 e s = some (c, u) → (cenPart u c.part).count ≤ (u.cen.pools.get c.part).next → (u.cen.pools.get c.part).freed = [] →
    rangeCheck u c.part (cenPart u c.part).asid (c.w 4) 128 true = none → cenRead (cenCtx u e c.part) (c.w 4) 128 u = (a, cOk, d) → w = (List.range 16).map (fun j => ofLE ((d.drop (8 * j)).take 8)) → idxBad w = false →
    rangeCheck a c.part (cenPart u c.part).asid (xCent w) (xNlist w * xD w) false = none → rangeCheck a c.part (cenPart u c.part).asid (xDir w) (32 * xNlist w) true = none →
    rangeCheck a c.part (cenPart u c.part).asid (xSide w) (xSideCap w * recBytes w) true = none → rangeCheck a c.part (cenPart u c.part).asid (xDel w) (16 * xSlots w) true = none →
    nObj c = none → c.req = .port p node tag → c.issuer = none → Answers (.openIndex e) s fun t =>
      t.cen.idxs = a.cen.idxs ∧ Told a t (.port p node tag) (cenCpl c (nHandle c) 0 (cRef .capacity)) ∧ Only [.cen, .out] a t) ∧
  (∀ s u v e c i p node tag, cenTake 2 e s = some (c, u) → bitOf (nHandle c) 11 = u.cmp.roleB → idxNum u c.part (nHandle c) = some i → closeReady e s = none → (idxOf u i).merge = none → searchesOn u i = 0 → writeLive (cenCtx u e c.part) (idxOf u i) u = (v, cOk) → v.cen = u.cen → nObj c = none → c.req = .port p node tag → c.issuer = none → Answers (.closeIndex e) s fun t =>
      idxOf t i = { gen := ((idxOf u i).gen + 1) % 256 } ∧ t.mem = v.mem ∧ Told v t (.port p node tag) (cenTold v i c (idxHandle v i (idxOf u i)) (idxOf u i).seq cOk) ∧ Only [.cen, .out, .fresh] v t ∧ (idxSpoiled v i = false → t.fresh = v.fresh)) ∧
  (∀ s u e c i, cenTake 2 e s = some (c, u) → bitOf (nHandle c) 11 = u.cmp.roleB → idxNum u c.part (nHandle c) = some i → closeReady e s = none → (idxOf u i).merge = none → searchesOn u i ≠ 0 → Answers (.closeIndex e) s fun t =>
      idxOf t i = { idxOf u i with closing := some { c with id := e } } ∧ Only [.cen] u t) ∧
  (∀ s u e c i, cenTake 3 e s = some (c, u) → bitOf (nHandle c) 11 = u.cmp.roleB → idxNum u c.part (nHandle c) = some i → (∀ x ∈ s.cen.waiting, x.1 ≠ e) → searchRoom u e = true → nInline c = true → nNq c * (16 + xD (idxOf u i).words) ≤ 65536 → c.words.length - 16 = ceilDiv (nNq c * (16 + xD (idxOf u i).words)) 8 →
    rangeCheck u c.part (cenPart u c.part).asid (c.w 5) (nNq c * (32 + 16 * nK c)) true = none → (idxOf u i).floor ≤ (if c.w 2 = 0 then (idxOf u i).seq else c.w 2) → (if c.w 2 = 0 then (idxOf u i).seq else c.w 2) ≤ (idxOf u i).seq → Answers (.search e) s fun t =>
      t.cen.srchs = u.cen.srchs ++ [{ id := u.cen.nextId, e := e, cmd := c, idx := i, asOf := (if c.w 2 = 0 then (idxOf u i).seq else c.w 2), mgen := (idxOf u i).mgen, head := (idxOf u i).head, tail := (idxOf u i).tail, qs := queriesOf (idxOf u i).words (nNq c) (((c.words.drop 16).flatMap (toLE 8)).take (nNq c * (16 + xD (idxOf u i).words))) }] ∧ Only [.cen] u t) ∧
  (∀ s u e c i, cenTake 3 e s = some (c, u) → bitOf (nHandle c) 11 = u.cmp.roleB → idxNum u c.part (nHandle c) = some i → searchRoom s e = false → searchRoom u e = false → Answers (.search e) s fun t =>
      t.cen.waiting = u.cen.waiting ++ [(e, c)] ∧ t.cen.srchs = u.cen.srchs ∧ Only [.cen] u t) ∧
  (∀ s v w z id x y p node tag, fenced s .centroid = false → s.cen.srchs = [x] → x.id = id → scanTurn s x = true → searchRound x s = (v, cOk, y) → (∀ q ∈ y.qs, q.isOver = true) → (∀ q ∈ x.qs, q.isOver = true ∨ q.probed = 0) →
    modCStat x.cmd.part (fun r => { r with widened := satAdd 16 r.widened 0 }) (setArb (arbKey .centroid x.e) { arbOf s (arbKey .centroid x.e) with promo := (arbOf s (arbKey .centroid x.e)).promo.filter fun r => !(r.1 == x.cmd.part && r.2.1 == x.cmd.cls.code) } v) = w →
    writeResults y w = (z, cOk) → z.cen = w.cen → v.cen = s.cen → (idxOf s x.idx).closing = none → s.cen.waiting = [] → nObj x.cmd = none → x.cmd.req = .port p node tag → x.cmd.issuer = none → Answers (.searchRoundDone id) s fun t =>
      t.cen.srchs = [] ∧ (t.cen.stats.get x.cmd.part).searches = sat 16 (s.cen.stats.get x.cmd.part).searches ∧ t.mem = z.mem ∧
      Told z t (.port p node tag) (cenTold { z with cen := t.cen } x.idx x.cmd (idxHandle z x.idx (idxOf s x.idx)) (idxOf s x.idx).seq (if (y.qs.filter fun q => decide (q.res.length < nK x.cmd)).length = 0 then cVal (sumOf (y.qs.map fun q => q.res.length)) else { status := .partialDone, value := sumOf (y.qs.map fun q => q.res.length) })) ∧
      Only [.cen, .out, .fresh] z t ∧ (idxSpoiled { z with cen := t.cen } x.idx = false → t.fresh = z.fresh)) ∧
  (∀ s u a b v f z e c i n d cents y p node tag, cenTake 4 e s = some (c, u) → bitOf (nHandle c) 11 = u.cmp.roleB → idxNum u c.part (nHandle c) = some i → idxOf u i = y → (c.w 6 = 0 ∨ y.seq + 1 = c.w 6) → n = bits (c.w 2) 12 0 → cenRead (cenCtx u e c.part) (c.w 4) (n * recBytes y.words) u = (a, cOk, d) →
    (recsOf (recBytes y.words) n d).any (fun r => r.id == 2 ^ 64 - 1) = false → anyMarked (cenCtx u e c.part) y.words (recsOf (recBytes y.words) n d) a = (b, cOk, false) → y.tail - y.side + n ≤ xSideCap y.words →
    cenRead (cenCtx u e c.part) (xCent y.words) (xNlist y.words * xD y.words) b = (v, cOk, cents) →
    putSide (cenCtx u e c.part) y.words (((recsOf (recBytes y.words) n d).zipIdx).map fun r => { r.1 with seq := y.seq + 1 + r.2, cluster := (clusterOrder y.words cents r.1.vec).headD 0 }) y.tail v = (f, cOk) →
    writeLive (cenCtx u e c.part) { y with seq := y.seq + n, tail := y.tail + n } f = (z, cOk) → nObj c = none → c.req = .port p node tag → c.issuer = none → Answers (.cenAppend e) s fun t =>
      idxOf t i = { y with seq := y.seq + n, tail := y.tail + n } ∧ t.mem = z.mem ∧ Told z t (.port p node tag) (cenTold { z with cen := t.cen } i c (idxHandle z i y) (y.seq + n) (cVal (y.seq + n))) ∧ Only [.cen, .out, .fresh] z t ∧ (idxSpoiled { z with cen := t.cen } i = false → t.fresh = z.fresh)) ∧
  (∀ s u a b z e c i y slot p node tag, cenTake 5 e s = some (c, u) → bitOf (nHandle c) 11 = u.cmp.roleB → idxNum u c.part (nHandle c) = some i → idxOf u i = y → (c.w 6 = 0 ∨ y.seq + 1 = c.w 6) → findMark (cenCtx u e c.part) y.words (c.w 2) u = (a, cOk, none, some slot) → 4 * (y.dels + 1) ≤ 3 * xSlots y.words →
    cenWrite (cenCtx u e c.part) (xDel y.words + 16 * slot) (toLE 8 (c.w 2) ++ toLE 8 (y.seq + 1)) false a = (b, cOk) → writeLive (cenCtx u e c.part) { y with seq := y.seq + 1, dels := y.dels + 1 } b = (z, cOk) →
    nObj c = none → c.req = .port p node tag → c.issuer = none → Answers (.cenDelete e) s fun t =>
      idxOf t i = { y with seq := y.seq + 1, dels := y.dels + 1 } ∧ t.mem = z.mem ∧ Told z t (.port p node tag) (cenTold { z with cen := t.cen } i c (idxHandle z i y) (y.seq + 1) (cVal (y.seq + 1))) ∧ Only [.cen, .out, .fresh] z t ∧ (idxSpoiled { z with cen := t.cen } i = false → t.fresh = z.fresh)) ∧
  (∀ s u e c i, cenTake 6 e s = some (c, u) → bitOf (nHandle c) 11 = u.cmp.roleB → idxNum u c.part (nHandle c) = some i → (idxOf u i).merge = none → Answers (.merge e) s fun t =>
      idxOf t i = { idxOf u i with merge := some { cmd := { c with id := e }, m := (idxOf u i).seq, f := max (idxOf u i).floor (min (if c.w 2 = 0 then (idxOf u i).seq else c.w 2) (idxOf u i).seq), n := (idxOf u i).mgen + 1 } } ∧ Only [.cen] u t) ∧
  (∀ s a b v i x j side, idxOf s i = x → x.merge = some j → j.committed = false → fenced s .centroid = false → s.cen.srchs = [] → sideRecs (cenCtx s j.cmd.id x.part) x s = (a, cOk, side) →
    mergeAll (cenCtx s j.cmd.id x.part) x j side (List.range (xNlist x.words)) a = (b, cOk) →
    writeLive (cenCtx s j.cmd.id x.part) { x with mgen := j.n, floor := j.f, head := x.head + (side.filter fun r => decide (r.seq ≤ j.m)).length, merge := some { j with committed := true, firstTry := none } } b = (v, cOk) → Answers (.mergeCommit i) s fun t =>
      idxOf t i = { x with mgen := j.n, floor := j.f, head := x.head + (side.filter fun r => decide (r.seq ≤ j.m)).length, merge := some { j with committed := true, firstTry := none } } ∧ t.mem = v.mem ∧ Only [.cen] v t) ∧
  (∀ s a b v i x j d old p node tag, idxOf s i = x → x.merge = some j → j.committed = true → fenced s .centroid = false → s.cen.srchs = [] → cenRead (cenCtx s j.cmd.id x.part) (xDel x.words) (16 * xSlots x.words) s = (a, cOk, d) →
    tableOf x.words d = old → writeTable (cenCtx s j.cmd.id x.part) x.words old (compactTable x.words (fun q => decide (q ≤ j.f)) old) a = (b, cOk) →
    writeLive (cenCtx s j.cmd.id x.part) { x with merge := none, side := x.head, dels := (compactTable x.words (fun q => decide (q ≤ j.f)) old).length } b = (v, cOk) → nObj j.cmd = none → j.cmd.req = .port p node tag → j.cmd.issuer = none → Answers (.mergeMarkRemove i) s fun t =>
      idxOf t i = { x with merge := none, side := x.head, dels := (compactTable x.words (fun q => decide (q ≤ j.f)) old).length } ∧ t.mem = v.mem ∧
      Told v t (.port p node tag) (cenTold { v with cen := t.cen } i j.cmd (idxHandle v i x) x.seq (cVal j.n)) ∧ Only [.cen, .out, .fresh] v t ∧ (idxSpoiled { v with cen := t.cen } i = false → t.fresh = v.fresh)) ∧
  (∀ s i j, (idxOf s i).merge = some j → j.committed = true → Answers (.mergeCommit i) s fun t => t = s) ∧
  (∀ s i, (idxOf s i).merge = none → Answers (.mergeMarkRemove i) s fun t => t = s)

/-- R458, R459, R460, R468, R434, R472, R513. -/
def Obligations.LinkGroups : Prop :=
  (∀ s p x (g : GroupRx), port s p = x → (x.mode = .xcl ∨ x.mode = .pair) → x.st = .up → g.kind = .data → g.crcOk = true → g.badLanes = [] → x.rxNext = none → g.ctrLow = x.rxCtr % 4294967296 → g.tagOk = true → g.lenBad = false →
    g.seq = x.rxSeq → g.nak = false → g.msg = none → x.unacked = [] → Answers (.flitGroupRx p g) s fun t =>
      port t p = { x with rxCtr := x.rxCtr + 1, authRun := 0, backoff := none, lastGood := s.ft, rxSeq := (x.rxSeq + 1) % 4096 } ∧ t.out = .msg .groupAck p [g.seq] [] :: s.out ∧ Only [.edg, .out] s t) ∧
  (∀ s p x (g : GroupRx), port s p = x → (x.mode = .xcl ∨ x.mode = .pair) → x.st = .up → g.kind ≠ .other → g.crcOk = false → g.badLanes = [] → Answers (.flitGroupRx p g) s fun t =>
      port t p = { x with corrupt := sat 16 x.corrupt, rxCtr := x.rxCtr + 1 } ∧ t.out = .msg .groupNak p [x.rxSeq] [] :: s.out ∧ Only [.edg, .out] s t) ∧
  (∀ s p x (g : GroupRx), port s p = x → (x.mode = .xcl ∨ x.mode = .pair) → x.st = .up → g.kind = .data → g.crcOk = true → g.badLanes = [] → x.rxNext = none → g.ctrLow ≠ x.rxCtr % 4294967296 → Answers (.flitGroupRx p g) s fun t =>
      Answers (.portDown p) s fun u => t = u) ∧
  (∀ s p x (g : GroupRx), port s p = x → x.mode = .xcl → x.coherent = false → x.st = .up → g.kind = .data → g.crcOk = true → g.badLanes = [] → x.rxNext = none → g.ctrLow = x.rxCtr % 4294967296 → g.tagOk = false → isPair p = false → agreeOf s p = none →
    (∀ k ∈ s.arc.packets, k.out ≠ p) → Answers (.flitGroupRx p g) s fun t =>
      (port t p).st = .down ∧ (port t p).authFails = sat 16 x.authFails ∧ (port t p).authRun = x.authRun + 1 ∧ (port t p).backoff = (if 8 ≤ x.authRun + 1 then some (s.ft + 1000000000) else none) ∧ t.mem = s.mem ∧ t.mer = s.mer) ∧
  (∀ s p x, port s p = x → x.mode = .xcl → x.coherent = false → (x.st = .up ∨ x.st = .stopped) → isPair p = false → agreeOf s p = none → (∀ k ∈ s.arc.packets, k.out ≠ p) → Answers (.portDown p) s fun t =>
      port t p = cleared s x .down ∧ Only [.edg] s t) ∧
  (∀ s p x k a node tag, port s p = x → x.mode = .xcl → x.coherent = false → x.st = .up → isPair p = false → agreeOf s p = none → s.arc.packets = [k] → k.out = p → k.posted = false → k.who = .port a node tag → Answers (.portDown p) s fun t =>
      port t p = cleared s x .down ∧ t.arc.packets = [] ∧ Told s t k.who cTimeout ∧ Only [.edg, .arc, .lat, .out] s t) ∧
  (∀ s p, (port s p).st = .refused → Answers (.portDown p) s fun t => t = s) ∧
  (∀ s p x, port s p = x → x.mode = .xcl → x.st = .up → isPair p = false → 2 ^ 44 ≤ txCtrOf s x → (∀ k ∈ s.arc.packets, k.out ≠ p) → Answers (.portStopped p) s fun t =>
      port t p = { x with st := .stopped, txCtr := txCtrOf s x, txAt := s.ft } ∧ Only [.edg] s t) ∧
  (∀ s p x, port s p = x → (x.mode = .xcl ∨ x.mode = .pair) → x.st = .up → x.unacked ≠ [] → (∀ u ∈ x.unacked, u.tries < 8) → x.progress + s.edg.replayTmo ≤ s.ft → Answers (.replayTimeout p) s fun t =>
      port t p = { x with unacked := x.unacked.map (fun u => { u with tries := u.tries + 1 }), replays := sat 16 x.replays, progress := s.ft } ∧
      t.out = .msg .groupReplay p (x.unacked.map (·.seq)) [] :: s.out ∧ Only [.edg, .out] s t) ∧
  (∀ s p x, port s p = x → x.mode = .xcl → x.st = .up → x.unacked ≠ [] → (∃ u ∈ x.unacked, 8 ≤ u.tries) → x.progress + s.edg.replayTmo ≤ s.ft → Answers (.replayTimeout p) s fun t => Answers (.portDown p) s fun u => t = u) ∧
  (∀ s p x part a, port s p = x → (x.mode = .xcl ∨ x.mode = .pair) → x.st = .up → Answers (.credit p part [a]) s fun t =>
      port t p = { x with credits := x.credits.mod (creditKey p part 0) (· + a) } ∧ Only [.edg] s t) ∧
  (∀ s p x part, port s p = x → x.mode = .xcl → isPair p = false → x.st = .keying → x.keyed = true → Answers (.credit p part []) s fun t =>
      port t p = { x with st := .up, since := s.ft, txAt := s.ft, lastGood := s.ft } ∧ Only [.edg] s t) ∧
  (∀ s p mask time i, (port s p).mode = .xcl → (port s p).st = .up → i < 5 → bitOf mask i = true → time ≠ 0 → Answers (.linkPause p mask time) s fun t =>
      t.arc.paused.get (p * 16 + i) = s.ft + quantaNs s p time ∧ Only [.arc] s t)

/-- R471, R467, R511, R512, R460, R513. -/
def Obligations.LinkBringup : Prop :=
  (∀ s p x, port s p = x → x.mode = .xcl → x.peer.isSome = true → x.st = .down → x.gang = none → s.cmp.boot = .running → canTrain s p = true → Answers (.linkAligned p) s fun t =>
      port t p = { x with st := .training, since := s.ft } ∧ t.out = .msg .linkHello p [1, if s.cmp.roleB then 2 else 1, b2n (!x.noSpare)] [] :: s.out ∧ Only [.edg, .out] s t) ∧
  (∀ s p x, port s p = x → x.mode = .eth → x.st = .down → x.gang = none → s.cmp.boot = .running → canTrain s p = true → Answers (.linkAligned p) s fun t =>
      port t p = { x with st := .up, since := s.ft, lastGood := s.ft } ∧ Only [.edg] s t) ∧
  (∀ s p x, port s p = x → x.mode = .xcl → x.peer = none → Answers (.linkAligned p) s fun t => t.edg = s.edg ∧ Only [.cmp] s t) ∧
  (∀ s p x role spare r tag, port s p = x → x.mode = .xcl → isPair p = false → x.st = .training → agreeOf s p = none → x.peer = some tag → recOfTag s tag = some r → recValue s r < 0xFFFFFFFF → (∀ a ∈ s.edg.agrees, a.tag ≠ tag) → Answers (.hello p 1 role spare) s fun t =>
      port t p = { x with st := .keying, since := s.ft, noSpare := !spare, lanes := if spare then x.lanes else x.lanes.map fun y => { y with rx := if y.rx = .spare then .dark else y.rx, tx := if y.tx = .spare then .dark else y.tx } } ∧
      t.edg.agrees = s.edg.agrees ++ [{ port := p, tag := tag, begun := true, own := recValue s r + 1, since := s.ft }] ∧ t.out = .msg .linkRekey p [recValue s r + 1] [] :: s.out ∧ Only [.edg, .out] s t) ∧
  (∀ s p version role spare, version ≠ 1 → Answers (.hello p version role spare) s fun t => t = s) ∧
  (∀ s p x r tag, port s p = x → x.mode = .xcl → isPair p = false → x.st = .up → 2 ^ 40 ≤ txCtrOf s x → agreeOf s p = none → x.peer = some tag → recOfTag s tag = some r → recValue s r < 0xFFFFFFFF → (∀ a ∈ s.edg.agrees, a.tag ≠ tag) → Answers (.rekeyStart p) s fun t =>
      port t p = x ∧ t.edg.agrees = s.edg.agrees ++ [{ port := p, tag := tag, rekey := true, begun := true, own := recValue s r + 1, since := s.ft }] ∧ t.out = .msg .linkRekey p [recValue s r + 1] [] :: s.out ∧ Only [.edg, .out] s t) ∧
  (∀ s p r tag, (port s p).mode = .xcl → isPair p = false → (port s p).st = .up → 2 ^ 40 ≤ txCtrOf s (port s p) → agreeOf s p = none → (port s p).peer = some tag → recOfTag s tag = some r → 0xFFFFFFFF ≤ recValue s r → (∀ a ∈ s.edg.agrees, a.tag ≠ tag) → Answers (.rekeyStart p) s fun t =>
      port t p = { port s p with st := .refused } ∧ t.edg.agrees = s.edg.agrees ∧ Only [.edg] s t) ∧
  (∀ s p e a r, ((port s p).st = .keying ∨ (port s p).st = .up) → e ≠ 0 → agreeOf s p = some a → a.peer = none → a.begun = true → s.per.commits = [] → recOfTag s a.tag = some r → Answers (.rekey p e) s fun t =>
      agreeOf t p = some { a with peer := some e, epoch := some (max a.own e), queued := none } ∧ t.per.commits = [{ record := r, value := max a.own e, tag := a.tag, why := .agree p }] ∧ Only [.edg, .per] s t) ∧
  (∀ s p, ((port s p).st = .keying ∨ (port s p).st = .up) → Answers (.rekey p 0) s fun t => Answers (.portDown p) s fun u => t = u) ∧
  (∀ s p a, agreeOf s p = some a → a.begun = true → a.peer = none → a.since + 1000000 ≤ s.ft → Answers (.rekeyResend p) s fun t =>
      agreeOf t p = some { a with since := s.ft } ∧ t.out = .msg .linkRekey p [a.own] [] :: s.out ∧ Only [.edg, .out] s t) ∧
  (∀ s p a e, s.edg.agrees = [a] → a.port = p → a.rekey = false → a.epoch = some e → a.sent = true → Answers (.rekeyAck p e) s fun t =>
      port t p = { port s p with keyed := true, since := s.ft, txEpoch := e, rxEpoch := e, txPhase := false, rxPhase := false, txCtr := 0, txAt := s.ft, rxCtr := 0, rxNext := none } ∧
      t.edg.agrees = [] ∧ t.out = .msg .linkCredit p s.cmp.active.linkCredits [] :: s.out ∧ Only [.edg, .out] s t) ∧
  (∀ s p a e, s.edg.agrees = [a] → a.port = p → a.rekey = true → a.epoch = some e → a.sent = true → (port s p).st = .up → Answers (.rekeyAck p e) s fun t =>
      port t p = { port s p with txEpoch := e, txPhase := !(port s p).txPhase, txCtr := 0, txAt := s.ft, rxNext := some e } ∧ t.edg.agrees = [] ∧ Only [.edg] s t) ∧
  (∀ s p a e q, agreeOf s p = some a → a.epoch = some e → a.sent = false → Answers (.rekeyAck p q) s fun t => agreeOf t p = some { a with got := some q } ∧ Only [.edg] s t) ∧
  (∀ s p x, port s p = x → x.mode = .xcl → x.st = .training → x.since + 1000000 < s.ft → agreeOf s p = none → Answers (.linkStepTimeout p) s fun t => port t p = cleared s x .down ∧ Only [.edg] s t) ∧
  (∀ s p x, port s p = x → x.mode = .xcl → x.st = .down → x.since + 51000000 < s.ft → Answers (.linkStepTimeout p) s fun t => port t p = { x with since := s.ft } ∧ Only [.edg] s t) ∧
  (∀ s p a, (port s p).backoff = some a → a ≤ s.ft → Answers (.bringupBackoffEnd p) s fun t => port t p = { port s p with backoff := none } ∧ Only [.edg] s t) ∧
  (∀ s p a, (port s p).backoff = some a → s.ft < a → Answers (.bringupBackoffEnd p) s fun t => t = s)

/-- R473 to R477, R499. -/
def Obligations.LaneSparing : Prop :=
  (∀ s p x pos l rest, port s p = x → x.st = .up → lanesWith x (fun y => y.tx == .spare) = l :: rest → Answers (.laneReqShadow p pos) s fun t =>
      port t p = setLane l { laneOf x l with tx := .shadow, txPos := pos } x ∧ t.out = .msg .laneAck p [1, pos] [] :: s.out ∧ Only [.edg, .out] s t) ∧
  (∀ s p x pos l rest, port s p = x → x.st = .up → lanesWith x (fun y => y.tx == .shadow && y.txPos == pos) = l :: rest → Answers (.laneReqRelease p pos) s fun t =>
      port t p = setLane l { laneOf x l with tx := .spare } x ∧ t.out = .msg .laneAck p [2, pos] [] :: s.out ∧ Only [.edg, .out] s t) ∧
  (∀ s p x pos l k rest, port s p = x → x.st = .up → lanesWith x (fun y => y.tx == .shadow && y.txPos == pos) = l :: rest → txAtPos x pos = some k → Answers (.laneReqRetire p pos) s fun t =>
      port t p = setLane l { laneOf (setLane k { laneOf x k with tx := .retired } x) l with tx := .active } (setLane k { laneOf x k with tx := .retired } x) ∧
      t.out = .msg .laneAck p [3, pos] [] :: s.out ∧ Only [.edg, .cmp, .out] s t) ∧
  (∀ s p x m, port s p = x → x.st = .up → m.width ≤ 2 → m.map.length = positions x m.width → Answers (.laneReqDegrade p m) s fun t =>
      port t p = { rebaseCtr s x with txWidth := m.width, lanes := (x.lanes.zipIdx).map fun y => if m.map.contains y.2 then { y.1 with tx := .active, txPos := m.map.idxOf y.2 } else if y.2 = m.spare0 ∨ y.2 = m.spare1 then { y.1 with tx := .spare } else if y.1.tx = .active then { y.1 with tx := .retired } else y.1 } ∧
      t.out = .msg .laneAck p [4] [] :: s.out ∧ Only [.edg, .cmp, .out] s t) ∧
  (∀ s p x r, port s p = x → x.laneReq = some r → (r.action = 1 ∨ r.action = 2) → Answers (.laneAck p r.action r.msg.pos) s fun t =>
      port t p = { x with laneReq := none } ∧ Only [.edg] s t) ∧
  (∀ s p x r, port s p = x → x.laneReq = some r → r.action = 3 → Answers (.laneAck p 3 r.msg.pos) s fun t =>
      port t p = setLane r.lane { laneOf x r.lane with rx := .retired } { x with laneReq := none, lastCause := r.cause } ∧ Only [.edg, .cmp] s t) ∧
  (∀ s p x r pos, port s p = x → x.laneReq = some r → r.action = 4 → Answers (.laneAck p 4 pos) s fun t =>
      port t p = { x with laneReq := none, rxWidth := r.msg.width, lastCause := r.cause, lanes := (x.lanes.zipIdx).map fun y => if y.2 = r.lane ∨ y.1.rx = .retired then { y.1 with rx := .retired } else if r.msg.map.contains y.2 then { y.1 with rx := .active, rxPos := r.msg.map.idxOf y.2 } else if y.2 = r.msg.spare0 ∨ y.2 = r.msg.spare1 then { y.1 with rx := .spare } else { y.1 with rx := .dark } } ∧ Only [.edg, .cmp] s t) ∧
  (∀ s p l, l < (port s p).lanes.length → Answers (.laneLossOfLock p l) s fun t =>
      port t p = setLane l { laneOf (port s p) l with lol := s.ft :: (laneOf (port s p) l).lol.filter fun a => decide (s.ft < a + 10000000000) } (port s p) ∧ Only [.edg] s t) ∧
  (∀ s p x l sp ser y, port s p = x → x.mode = .xcl → x.cal = none → l < x.lanes.length → rollLane s.ft (laneOf x l) = y → 3 ≤ y.windows → y.rx = .active →
    rxSpare (setLane l { y with serHigh := ser } x) = some sp → Answers (.laneRetireTrigger p l ser) s fun t =>
      port t p = { setLane sp { laneOf (setLane l { y with serHigh := ser } x) sp with rx := .shadow, rxPos := y.rxPos } (setLane l { y with serHigh := ser } x) with cal := some { pos := y.rxPos, lane := l, spare := sp, retire := some 1 }, laneReq := some { action := 1, msg := { pos := y.rxPos } } } ∧
      t.out = .msg .laneReq p [1, y.rxPos] [] :: s.out ∧ Only [.edg, .out] s t) ∧
  (∀ s p x l y, port s p = x → l < x.lanes.length → rollLane s.ft (laneOf x l) = y → y.windows < 3 → (y.lol.filter fun a => decide (s.ft < a + 10000000000)).length < 2 → Answers (.laneRetireTrigger p l false) s fun t =>
      port t p = setLane l { y with serHigh := false } x ∧ Only [.edg] s t) ∧
  (∀ s p x l, port s p = x → x.mode = .eth → l < x.lanes.length → 2 ≤ ((laneOf x l).lol.filter fun a => decide (s.ft < a + 10000000000)).length → (rollLane s.ft (laneOf x l)).windows < 3 → (laneOf x l).rx ≠ .retired → x.st = .down → Answers (.laneRetireTrigger p l false) s fun t =>
      (port t p).lastCause = 3 ∧ Only [.edg] s t) ∧
  (∀ s p x c, port s p = x → x.cal = some c → c.phase = .shadow → c.retire = none → Answers (.calShadowReady p) s fun t =>
      port t p = { setLane c.lane { laneOf (setLane c.spare { laneOf x c.spare with rx := .active, rxPos := c.pos } x) c.lane with rx := .calibrating } (setLane c.spare { laneOf x c.spare with rx := .active, rxPos := c.pos } x) with cal := some { c with phase := .tuning } } ∧ Only [.edg] s t) ∧
  (∀ s p x c k, port s p = x → x.cal = some c → c.phase = .shadow → c.retire = some k → c.next = none → Answers (.calShadowReady p) s fun t =>
      (port t p).cal = none ∧ (port t p).laneReq = some { action := 3, msg := { pos := c.pos }, lane := c.lane, cause := k } ∧ t.out = .msg .laneReq p [3, c.pos] [] :: s.out ∧ Only [.edg, .out] s t) ∧
  (∀ s p x c, port s p = x → x.cal = some c → c.phase = .tuning → Answers (.calTuneEnd p) s fun t => port t p = { x with cal := some { c with phase := .verify } } ∧ Only [.edg] s t) ∧
  (∀ s p x c, port s p = x → x.cal = some c → c.phase = .verify → Answers (.calVerifyEnd p false) s fun t => port t p = { x with cal := some { c with phase := .restored } } ∧ Only [.edg] s t) ∧
  (∀ s p x c, port s p = x → x.cal = some c → (c.phase = .verify ∨ c.phase = .restored) → c.next = none → Answers (.calVerifyEnd p true) s fun t =>
      port t p = { setLane c.lane { laneOf (setLane c.spare { laneOf x c.spare with rx := .spare } x) c.lane with rx := .active } (setLane c.spare { laneOf x c.spare with rx := .spare } x) with cal := none, laneReq := some { action := 2, msg := { pos := c.pos } } } ∧
      t.out = .msg .laneReq p [2, c.pos] [] :: s.out ∧ Only [.edg, .out] s t)

/-- R481, R45, R33, R594 to R597, R606, R607, R610, R615. -/
def Obligations.PairEvents : Prop :=
  (∀ s, s.pair.linkUp = true → pairSilent s = true → running s = true → s.pair.st = .paired → s.pair.partnerRunning = true → s.pair.aliveInDeb = true → s.vtx.st ≠ .up → s.orb.fwd = [] → Answers (.pairLinkLost) s fun t =>
      t.pair = { s.pair with linkUp := false, lostFt := s.ft, st := .linkLost } ∧ t.cmp = { s.cmp with faultStatus := setBit s.cmp.faultStatus 2 } ∧ Only [.pair, .cmp] s t) ∧
  (∀ s, s.pair.linkUp = true → pairSilent s = true → running s = true → s.pair.st = .paired → s.pair.partnerRunning = true → s.pair.aliveInDeb = true → s.vtx.st = .up → Answers (.pairLinkLost) s fun t =>
      t.pair.st = .linkLost ∧ t.pair.linkUp = false ∧ t.vtx.st ≠ .up ∧ t.mem = s.mem) ∧
  (∀ s, pairSilent s = false → Answers (.pairLinkLost) s fun t => t = s) ∧
  (∀ s, s.pair.linkUp = false → pairUps s ≠ [] → s.pair.st = .linkLost → s.pair.partnerRunning = true → Answers (.pairLinkRecover) s fun t =>
      t.pair = { s.pair with linkUp := true, st := .paired, waits := recentWaits s.pair.waits } ∧
      t.out = ((recentWaits s.pair.waits).map fun w => Out.mirror w.2.1).reverse ++ s.out ∧ Only [.pair, .out] s t) ∧
  (∀ s seq n a x, pairUps s ≠ [] → running s = true → s.pair.st ≠ .takeover → s.pair.joinStep = 0 → Answers (.mirrorUpdate seq (.snapshot n a x) []) s fun t =>
      dom t n = { dom s n with partnerSnap := some x } ∧ t.out = .msg .mirrorAck 0 [seq] [] :: s.out ∧ Only [.mer, .out] s t) ∧
  (∀ s seq n d, pairUps s ≠ [] → running s = true → s.pair.st ≠ .takeover → Answers (.mirrorUpdate seq (.sess n d none) []) s fun t =>
      sess t n = d ∧ t.out = .msg .mirrorAck 0 [seq] [] :: s.out ∧ Only [.orb, .out] s t) ∧
  (∀ s seq m (c : List BlkIn), s.pair.st = .takeover → Answers (.mirrorUpdate seq m c) s fun t => t = s) ∧
  (∀ s id m n x, s.pair.waits = [(id, m, .commit n x.step)] → (dom s n).pendSnaps = [x] → Answers (.mirrorAck id) s fun t =>
      t.pair.waits = [] ∧ dom t n = { dom s n with commit := x.step, snap := x, pendSnaps := [] } ∧ Only [.pair, .mer] s t) ∧
  (∀ s level, s.pins.porstN = true → Answers (.pairAliveInChange level) s fun t =>
      t.pair = { s.pair with aliveIn := level, aliveChange := s.ft, aliveInDeb := level || s.pair.aliveInDeb, mismatch := false } ∧ Only [.pair] s t) ∧
  (∀ s, s.pair.aliveIn = false → s.pair.aliveInDeb = true → s.pair.aliveChange + max 1 s.pair.debounceUs * 1000 ≤ s.ft → linkDown s = false → Answers (.aliveDebounceExpire) s fun t =>
      t.pair = { s.pair with aliveInDeb := false } ∧ Only [.pair] s t) ∧
  (∀ s, s.pair.aliveIn = false → s.pair.aliveInDeb = true → s.pair.aliveChange + max 1 s.pair.debounceUs * 1000 ≤ s.ft → running s = true → linkDown s = true → s.pair.admitted ≠ 0 → Answers (.aliveDebounceExpire) s fun t =>
      t.pair.st = .takeover ∧ t.pair.partnerRunning = false ∧ t.pair.takeovers = s.pair.takeovers) ∧
  (∀ s, s.pair.aliveIn = true → Answers (.aliveDebounceExpire) s fun t => t = s) ∧
  (∀ s, s.pair.aliveIn = false → s.pair.linkUp = true → pairUps s ≠ [] → s.pair.aliveChange + 1000000 < s.ft → s.pair.mismatch = false → Answers (.aliveMismatch) s fun t =>
      t.pair = { s.pair with mismatch := true } ∧ t.cmp = { s.cmp with faultStatus := setBit s.cmp.faultStatus 2 } ∧ Only [.pair, .cmp] s t) ∧
  (∀ s k tag roles v, Admits s k roles .admin → bitOf v 32 = false → Answers (.declare (.mgmt k tag roles) v) s fun t =>
      t.pair = { s.pair with yieldMs := bits v 15 0, debounceUs := bits v 31 16 } ∧ t.cmp = served s k ∧ Told s t (.mgmt k tag roles) cOk ∧ Only [.pair, .cmp, .out] s t) ∧
  (∀ s k tag roles v, Admits s k roles .admin → bitOf v 32 = true → linkDown s = false → Answers (.declare (.mgmt k tag roles) v) s fun t =>
      Told s t (.mgmt k tag roles) (cRef .state) ∧ t.cmp = served s k ∧ Only [.cmp, .out] s t) ∧
  (∀ s k tag roles v, Admits s k roles .admin → bitOf v 32 = true → running s = true → linkDown s = true → s.pair.joinStep = 0 → s.pair.admitted = 0 → Answers (.declare (.mgmt k tag roles) v) s fun t =>
      t.pair.st = .sole ∧ t.pair.partnerRunning = false ∧ t.pair.linkUp = false ∧ t.pair.waits = []) ∧
  (∀ s, running s = true → s.cmp.roleB = true → s.pair.st = .linkLost → s.pair.aliveInDeb = true → s.pair.lostFt + max 1 s.pair.yieldMs * 1000000 ≤ s.ft → Answers (.yield) s fun t =>
      t.pair.st = .yielded ∧ t.pair.aliveOut = false ∧ t.mem = [] ∧ t.edg.ports = [] ∧ t.per.pool = .none ∧ t.ft = s.ft ∧ t.out = s.out ∧ t.pins = s.pins) ∧
  (∀ s, s.cmp.roleB = false → Answers (.yield) s fun t => t = s) ∧
  (∀ s, s.pair.st = .takeover → s.vtx.st = .up → (∀ e ∈ s.mer.doms, e.2.st ≠ .restarting) → s.edg.withheld = [] → Answers (.takeoverComplete []) s fun t =>
      t.pair = { s.pair with st := .sole, takeovers := sat 16 s.pair.takeovers, admitted := 0, joinStep := 0 } ∧ Only [.pair] s t) ∧
  (∀ s n, running s = true → (s.pair.st = .joining ∨ s.pair.st = .admitting) → s.pair.joinStep = 0 → s.pair.partnerRunning = true → s.pair.linkUp = true → (∀ e ∈ s.pair.handback, e.1 ≠ n) → toHandBack s n = [] → Answers (.handbackComplete n) s fun t =>
      t.pair = { s.pair with handback := s.pair.handback.put n (angleStep (dom s n).angle + 1) } ∧ Only [.pair] s t) ∧
  (∀ s n, admitTurn s n = true → 3 ≤ s.pair.joinStep → s.edg.withheld = [] → (∃ r ∈ s.cmp.active.parts, r.part ≠ n ∧ bitOf s.pair.admitted r.part = false) → Answers (.partitionAdmit n []) s fun t =>
      t.pair = { s.pair with admitted := setBit s.pair.admitted n, st := .admitting } ∧ Only [.pair] s t) ∧
  (∀ s n, admitTurn s n = true → 3 ≤ s.pair.joinStep → s.edg.withheld = [] → (∀ r ∈ s.cmp.active.parts, r.part = n ∨ bitOf s.pair.admitted r.part = true) → Answers (.partitionAdmit n []) s fun t =>
      t.pair = { s.pair with admitted := 0xFFFF, st := .paired, joinStep := 0, handback := [] } ∧ Only [.pair] s t) ∧
  (∀ s n (w : List (Nat × List Byte)), admitTurn s n = true → s.pair.joinStep < 3 → admitBoundary s n = false → Answers (.partitionAdmit n w) s fun t => t = s)

/-- R462, R464, R466, R483 to R485, R183, R113, R322, R369. -/
def Obligations.NetworkEvents : Prop :=
  (∀ s p mac vlan (data : List Byte) n q, (port s p).mode = .eth → (port s p).st = .up → s.cmp.active.ethMacs.contains mac = false → (port s p).part = some n → ethRoute s n mac vlan = some q → (port s q).mode = .xcl → frameLenOk data = true →
    Answers (.ethFrameRx p mac vlan data) s fun t => t.out = .msg .ethFrame q [p, mac] data :: s.out ∧ Only [.out] s t) ∧
  (∀ s p mac vlan (data : List Byte) n, (port s p).mode = .eth → (port s p).st = .up → s.cmp.active.ethMacs.contains mac = false → (port s p).part = some n → ethRoute s n mac vlan = none → Answers (.ethFrameRx p mac vlan data) s fun t =>
      t.edg = { s.edg with ethDrops := s.edg.ethDrops + 1 } ∧ Only [.edg] s t) ∧
  (∀ s p cls mac vlan (data : List Byte) n q, (port s p).mode = .xcl → (port s p).st = .up → cls < 5 → frameLenOk data = true → (port s p).part = some n → ethRoute s n mac vlan = some q → Answers (.ethFrameFromXcl p cls mac vlan data) s fun t =>
      t.out = .msg .ethFrame q [p, mac] data :: s.out ∧ Only [.out] s t) ∧
  (∀ s p cls mac vlan (data : List Byte), (port s p).mode = .xcl → (port s p).st = .up → (5 ≤ cls ∨ frameLenOk data = false) → Answers (.ethFrameFromXcl p cls mac vlan data) s fun t =>
      t.edg = { s.edg with ethDrops := s.edg.ethDrops + 1 } ∧ Only [.edg] s t) ∧
  (∀ s u v q psn off len rkey c k (ext : List Byte), qpCfg s q = some c → (qpOf s q).st = .rts → (port s c.port).st = .up → psn = (qpOf s q).expPsn → windowBad s c off len rkey = false →
    modQp q (fun y => { y with expPsn := (psn + psnCount (some c) len) % 16777216 }) s = u → engineReadAs 0 c.part c.asid (c.base + off) len ext u = (v, k) → k.status = .ok → Answers (.roceRdmaReadRx q psn off len rkey false ext) s fun t =>
      t.out = .msg .roceData q [psn] k.data :: v.out ∧ Only [.out] v t) ∧
  (∀ s q psn off len rkey c (ext : List Byte), qpCfg s q = some c → (qpOf s q).st = .rts → (port s c.port).st = .up → psn = (qpOf s q).expPsn → windowBad s c off len rkey = true → Answers (.roceRdmaReadRx q psn off len rkey false ext) s fun t =>
      qpOf t q = { qpOf s q with expPsn := (psn + psnCount (some c) len) % 16777216, accessErr := sat 16 (qpOf s q).accessErr } ∧ t.out = .msg .roceNak q [psn, 2] [] :: s.out ∧ Only [.edg, .out] s t) ∧
  (∀ s u v q psn off rkey c (data : List Byte), qpCfg s q = some c → c.window = true → (qpOf s q).st = .rts → (port s c.port).st = .up → psn = (qpOf s q).expPsn → windowBad s c off data.length rkey = false →
    modQp q (fun y => { y with expPsn := (psn + psnCount (some c) data.length) % 16777216 }) s = u → engineWriteAs 0 c.part c.asid (c.base + off) data false u = (v, cOk) → Answers (.roceRdmaWriteRx q psn off rkey data false) s fun t =>
      t.mem = v.mem ∧ t.out = .msg .roceAck q [psn] [] :: v.out ∧ Only [.out] v t) ∧
  (∀ s q psn off rkey c (data : List Byte), qpCfg s q = some c → c.window = true → (qpOf s q).st = .rts → (port s c.port).st = .up → psn = (qpOf s q).expPsn → windowBad s c off data.length rkey = true → Answers (.roceRdmaWriteRx q psn off rkey data false) s fun t =>
      qpOf t q = { qpOf s q with expPsn := (psn + psnCount (some c) data.length) % 16777216, accessErr := sat 16 (qpOf s q).accessErr } ∧ t.out = .msg .roceNak q [psn, 2] [] :: s.out ∧ Only [.edg, .out] s t) ∧
  (∀ s v q psn blk b queue c words k, qpCfg s q = some c → c.window = true → (qpOf s q).st = .rts → (port s c.port).st = .up → psn = (qpOf s q).expPsn → cmdBlock blk = some b →
    submitTo b queue { part := c.part, asid := c.asid, words := words, req := .roce q psn } (send .roceAck q [psn] (modQp q (fun y => { y with expPsn := (psn + psnCount (some c) (16 + 8 * words.length)) % 16777216 }) s)) = (v, k) → Answers (.roceSendRx q psn blk queue words false) s fun t =>
      (k = none → t = v) ∧ (∀ x, k = some x → Told v t (.roce q psn) x)) ∧
  (∀ s q psn, (qpOf s q).st = .rts → (qpOf s q).unacked.contains psn = true → Answers (.roceAckRx q psn none) s fun t =>
      qpOf t q = { qpOf s q with unacked := ((qpOf s q).unacked.dropWhile (· != psn)).drop 1, lastAck := s.ft, tries := 0, rnrTries := 0 } ∧ Only [.edg] s t) ∧
  (∀ s q psn k, (qpOf s q).st = .rts → 2 ≤ k → Answers (.roceAckRx q psn (some k)) s fun t => qpOf t q = { qpOf s q with st := .error, unacked := [] } ∧ Only [.edg] s t) ∧
  (∀ s q c, qpCfg s q = some c → (qpOf s q).st = .rts → (qpOf s q).unacked ≠ [] → (qpOf s q).lastAck + 4096 * 2 ^ c.ackTmo ≤ s.ft → (qpOf s q).tries < 7 → Answers (.roceAckTimeout q) s fun t =>
      qpOf t q = { qpOf s q with retries := sat 16 (qpOf s q).retries, lastAck := s.ft, tries := (qpOf s q).tries + 1 } ∧ t.out = .msg .roceRetransmit q (qpOf s q).unacked [] :: s.out ∧ Only [.edg, .out] s t) ∧
  (∀ s q c, qpCfg s q = some c → (qpOf s q).st = .rts → (qpOf s q).unacked ≠ [] → (qpOf s q).lastAck + 4096 * 2 ^ c.ackTmo ≤ s.ft → 7 ≤ (qpOf s q).tries → Answers (.roceAckTimeout q) s fun t =>
      qpOf t q = { qpOf s q with st := .error, unacked := [] } ∧ Only [.edg] s t) ∧
  (∀ s q, (qpOf s q).st = .rts → Answers (.roceCnpRx q) s fun t => (qpOf t q).rate = (qpOf s q).rate / 2 ∧ Only [.edg] s t) ∧
  (∀ s q, (qpOf s q).rate < 1000000 → (qpOf s q).rateAt + 55000 ≤ s.ft → Answers (.roceRateIncrease q) s fun t =>
      qpOf t q = { qpOf s q with rate := min 1000000 ((qpOf s q).rate + 50000), rateAt := s.ft } ∧ Only [.edg] s t) ∧
  (∀ s v p node tag cls asid blk b queue words n k, (port s p).mode = .xcl → cls < 5 → (port s p).part = some n → cmdBlock blk = some b →
    submitTo b queue { part := n, asid := asid, words := words, req := .port p node tag } s = (v, k) → Answers (.engCmd (.port p node tag) cls asid blk queue words) s fun t =>
      (k = none → t = v) ∧ (∀ x, k = some x → Told v t (.port p node tag) x ∧ Only [.out] v t)) ∧
  (∀ s p node tag cls asid words n h, (port s p).mode = .xcl → cls < 5 → (port s p).part = some n → scrubFenced s n = false → fenced s .apex = false → words = 3 :: h :: List.replicate 14 0 → bits h 63 24 = 0 →
    (queueOf s .apex n).length < 64 → Answers (.engCmd (.port p node tag) cls asid 0xD n words) s fun t =>
      queueOf t .apex n = queueOf s .apex n ++ [{ op := 3, part := n, asid := (apxPart s n).asid, words := words, cls := .generation, req := .port p node tag, id := n, arrived := s.ft }] ∧ Only [.eng] s t) ∧
  (∀ s p node tag cls asid blk queue words, (port s p).mode = .xcl → 5 ≤ cls → Answers (.engCmd (.port p node tag) cls asid blk queue words) s fun t =>
      Told s t (.port p node tag) cBad ∧ Only [.out] s t) ∧
  (∀ s r a, s.loc.reqs = [r] → r.retryAt = some a → a ≤ s.ft → Answers (.engineAccessRepresent (.req r.id)) s fun t => t.loc = { s.loc with reqs := [{ r with retryAt := none }] } ∧ Only [.loc] s t) ∧
  (∀ s x a, s.vtx.txns = [x] → x.retryAt = some a → a ≤ s.ft → Answers (.engineAccessRepresent (.line x.line)) s fun t => t.vtx = { s.vtx with txns := [{ x with retryAt := none }] } ∧ Only [.vtx] s t) ∧
  (∀ s q c a p node tag, s.orb.tries = [(q, c, a)] → a + 20000 ≤ s.ft → queueOf s .orbit q = [c] → sessNum s c.part (oHandle c) = none → oObj c = none → c.req = .port p node tag → c.issuer = none → Answers (.engineAccessTimeout .orbit) s fun t =>
      t.orb.tries = [] ∧ queueOf t .orbit q = [] ∧ Told s t (.port p node tag) (orbCpl {} (oHandle c) false c cTimeout) ∧ Only [.orb, .eng, .out] s t) ∧
  (∀ s q c a p node tag, s.apx.tries = [(q, a)] → a + 20000 ≤ s.ft → queueOf s .apex q = [c] → c.req = .port p node tag → c.issuer = none → Answers (.engineAccessTimeout .apex) s fun t =>
      t.apx.tries = [] ∧ queueOf t .apex q = [] ∧ Told s t (.port p node tag) { cTimeout with aux := bits (c.w 0) 39 24 } ∧ Only [.apx, .eng, .out] s t)

/-- The queue, first in, first out (the model's own shape, entry 2). -/
def Obligations.StepRunsCommand : Prop :=
  ∀ s c rest, s.pending = c :: rest → step s = exec c { s with pending := rest }

/-- R53, R55, entry 2. -/
def Obligations.IdleTick : Prop :=
  (∀ s, s.pending = [] → ftRuns s = true → s.mer.slewRem = 0 → step s = .next { s with ft := (s.ft + 1) % 2 ^ 64, mer := { s.mer with slewPhase := 0 } }) ∧
  (∀ s, s.pending = [] → ftRuns s = true → s.mer.slewRem ≠ 0 → s.mer.slewPhase < 4999 →
    step s = .next { s with ft := (s.ft + 1) % 2 ^ 64, mer := { s.mer with slewPhase := s.mer.slewPhase + 1 } }) ∧
  (∀ s, s.pending = [] → ftRuns s = true → 0 < s.mer.slewRem → 4999 ≤ s.mer.slewPhase →
    step s = .next { s with mer := { s.mer with slewPhase := 0, slewRem := s.mer.slewRem - 1 } }) ∧
  (∀ s, s.pending = [] → ftRuns s = true → s.mer.slewRem < 0 → 4999 ≤ s.mer.slewPhase →
    step s = .next { s with ft := (s.ft + 2) % 2 ^ 64, mer := { s.mer with slewPhase := 0, slewRem := s.mer.slewRem + 1 } }) ∧
  (∀ s, s.pending = [] → ftRuns s = false → step s = .next s)

/-- R25, R154, R189, R191, R249, R250, R438, R439, R488, R539, R578, R613; also R51, R155, R335, R371, R372, R493, R579, R610. -/
def Obligations.ResetState : Prop :=
  State.reset.memOk ∧ State.reset.queueOk ∧ State.reset.pending = [] ∧ State.reset.mem = [] ∧ State.reset.cmp.boot = .rom ∧
  State.reset.cmp.active = {} ∧
  ∀ p ∈ [(0x0, 0xB04410), (0x90, 0x7D695F), (0xA0, 0x14AF0), (0x208, 0xA00C8), (0x220, 0x1FF03E8), (0x201010, 0x5F5E100), (0x400000, 0x1000320FA0),
    (0x404000, 3), (0x500000, 0x80000200000), (0x600000, 0x1051F), (0x600008, 0x138803E800C80032), (0x700000, 0x80000000000000), (0x700018, 0x640014),
    (0x901000, 3), (0x901100, 3), (0xB00008, 0x3E8), (0xB00100, 0x7800), (0xD00000, 0x80000000), (0xD00008, 0x64), (0xE00008, 0x4E20), (0x900000, 0)],
    (regAt p.1).map (regVal State.reset none) = some p.2

/-- The canonical form of the pool memory and the queue's well-formedness are kept by every command and by a tick. -/
def Obligations.MemoryFormKept : Prop :=
  ∀ s t, s.memOk → s.queueOk → step s = .next t → t.memOk ∧ t.queueOk

/-- R9, R15: what goes wrong is told in a completion. -/
def Obligations.EveryCommandRuns : Prop :=
  ∀ s, ∃ t, step s = .next t ∧ t.pending = s.pending.tail

end
end

