-- ==== Sys2Proof/Laws/Memory.lean ====
section
/-!
SUPPORT. Memory: every operation keeps the canonical form, a byte written reads back, and every other byte is left alone.
-/
namespace Sys2Proof.Machine

/-- The canonical form, entry by entry: what is listed is not zero, and lies below everything after it. -/
def Memory.Rises : List Host.Cell → Prop
  | [] => True
  | (a, b) :: t => b ≠ 0 ∧ (∀ c ∈ t, a < c.1) ∧ Memory.Rises t

theorem Memory.wf_iff (m : List Host.Cell) : Memory.wf m = true ↔ Memory.Rises m := by
  induction m with
  | nil => simp [Memory.wf, Memory.Rises]
  | cons c t ih =>
    obtain ⟨a, b⟩ := c
    cases t with
    | nil => simp [Memory.wf, Memory.Rises]
    | cons d t =>
      obtain ⟨a', b'⟩ := d
      rw [Memory.wf, Bool.and_eq_true, Bool.and_eq_true, ih]
      simp only [Memory.Rises, bne_iff_ne, ne_eq, decide_eq_true_eq, List.mem_cons, forall_eq_or_imp]
      constructor
      · rintro ⟨⟨hb, ha⟩, hb', ht, hr⟩
        exact ⟨hb, ⟨ha, fun c hc => Nat.lt_trans ha (ht c hc)⟩, hb', ht, hr⟩
      · rintro ⟨hb, ⟨ha, -⟩, hr⟩
        exact ⟨⟨hb, ha⟩, hr⟩

/-- A write lists no address but its own beside those listed. -/
theorem memWrite_keys {m : List Host.Cell} {k : Nat} {b : Byte} {c : Host.Cell} (h : c ∈ memWrite m k b) : c.1 = k ∨ c ∈ m := by
  induction m with
  | nil =>
    rw [memWrite] at h
    split at h
    · cases h
    · simp only [List.mem_singleton] at h; exact .inl (by rw [h])
  | cons d t ih =>
    obtain ⟨a, x⟩ := d
    rw [memWrite] at h
    split at h
    · split at h
      · exact .inr h
      · rcases List.mem_cons.1 h with h | h
        · exact .inl (by rw [h])
        · exact .inr h
    · split at h
      · split at h
        · exact .inr (List.mem_cons_of_mem _ h)
        · rcases List.mem_cons.1 h with h | h
          · exact .inl (by rw [h])
          · exact .inr (List.mem_cons_of_mem _ h)
      · rcases List.mem_cons.1 h with h | h
        · exact .inr (by rw [h]; exact List.mem_cons_self)
        · rcases ih h with h | h
          · exact .inl h
          · exact .inr (List.mem_cons_of_mem _ h)

theorem memWrite_rises {m : List Host.Cell} (k : Nat) (b : Byte) (h : Memory.Rises m) : Memory.Rises (memWrite m k b) := by
  induction m with
  | nil =>
    rw [memWrite]
    split
    · trivial
    · exact ⟨‹_›, by simp, trivial⟩
  | cons d t ih =>
    obtain ⟨a, x⟩ := d
    obtain ⟨hx, ht, hr⟩ := h
    rw [memWrite]
    split
    · rename_i hk
      split
      · exact ⟨hx, ht, hr⟩
      · refine ⟨‹_›, fun c hc => ?_, hx, ht, hr⟩
        rcases List.mem_cons.1 hc with hc | hc
        · rw [hc]; exact hk
        · exact Nat.lt_trans hk (ht c hc)
    · split
      · rename_i hk
        split
        · exact hr
        · exact ⟨‹_›, fun c hc => hk ▸ ht c hc, hr⟩
      · refine ⟨hx, fun c hc => ?_, ih hr⟩
        rcases memWrite_keys hc with hc | hc
        · rw [hc]; omega
        · exact ht c hc

theorem memWrite_wf {m : List Host.Cell} (k : Nat) (b : Byte) (h : Memory.wf m = true) : Memory.wf (memWrite m k b) = true :=
  (Memory.wf_iff _).2 (memWrite_rises k b ((Memory.wf_iff _).1 h))

theorem memStore_wf {m : List Host.Cell} (a : Nat) (d : List Byte) (h : Memory.wf m = true) : Memory.wf (memStore m a d) = true := by
  induction d generalizing m a with
  | nil => exact h
  | cons b bs ih => exact ih (a + 1) (memWrite_wf a b h)

theorem filter_rises {m : List Host.Cell} (p : Host.Cell → Bool) (h : Memory.Rises m) : Memory.Rises (m.filter p) := by
  induction m with
  | nil => trivial
  | cons c t ih =>
    obtain ⟨hx, ht, hr⟩ := h
    rw [List.filter_cons]
    split
    · exact ⟨hx, fun d hd => ht d (List.mem_filter.1 hd).1, ih hr⟩
    · exact ih hr

theorem memClear_wf {m : List Host.Cell} (lo n : Nat) (h : Memory.wf m = true) : Memory.wf (memClear m lo n) = true :=
  (Memory.wf_iff _).2 (filter_rises _ ((Memory.wf_iff _).1 h))

theorem reset_memOk : State.reset.memOk := rfl

/-! ### Reads after writes -/

/-- An address below everything listed reads as zero. -/
theorem memRead_below {m : List Host.Cell} {k : Nat} (h : ∀ c ∈ m, k < c.1) : memRead m k = 0 := by
  cases m with
  | nil => rfl
  | cons c t =>
    obtain ⟨a, x⟩ := c
    have hk : k < a := h (a, x) List.mem_cons_self
    rw [memRead, if_neg (by omega), if_pos hk]

theorem memRead_memWrite {m : List Host.Cell} (k : Nat) (b : Byte) (h : Memory.Rises m) : memRead (memWrite m k b) k = b := by
  induction m with
  | nil =>
    rw [memWrite]
    split
    · rename_i hb; rw [hb]; rfl
    · rw [memRead, if_pos rfl]
  | cons d t ih =>
    obtain ⟨a, x⟩ := d
    obtain ⟨hx, ht, hr⟩ := h
    rw [memWrite]
    split
    · rename_i hk
      split
      · rename_i hb; rw [hb, memRead, if_neg (by omega), if_pos hk]
      · rw [memRead, if_pos rfl]
    · split
      · rename_i hk
        split
        · rename_i hb; rw [hb]; exact memRead_below fun c hc => hk ▸ ht c hc
        · rw [memRead, if_pos rfl]
      · rw [memRead, if_neg ‹_›, if_neg ‹_›]; exact ih hr

theorem memRead_memWrite_ne {m : List Host.Cell} {k j : Nat} (b : Byte) (hj : j ≠ k) (h : Memory.Rises m) :
    memRead (memWrite m k b) j = memRead m j := by
  induction m with
  | nil =>
    rw [memWrite]
    split
    · rfl
    · simp only [memRead, if_neg (Ne.symm hj)]; split <;> rfl
  | cons d t ih =>
    obtain ⟨a, x⟩ := d
    obtain ⟨hx, ht, hr⟩ := h
    rw [memWrite]
    split
    · split
      · rfl
      · rw [memRead, if_neg (Ne.symm hj)]
        split
        · rename_i hk hb hjk
          rw [memRead, if_neg (by omega), if_pos (by omega)]
        · rfl
    · split
      · rename_i hk
        have hd : memRead ((a, x) :: t) j = if j < a then 0 else memRead t j := by rw [memRead, if_neg (by omega)]
        rw [hd]
        split
        · split
          · rename_i hja; exact memRead_below fun c hc => Nat.lt_trans hja (ht c hc)
          · rfl
        · rw [memRead, if_neg (Ne.symm hj), hk]
      · rw [memRead, memRead, ih hr]

/-- Outside the bytes stored every byte reads as before. -/
theorem memRead_memStore_outside {m : List Host.Cell} {a j : Nat} {d : List Byte} (hj : j < a ∨ a + d.length ≤ j) (h : Memory.Rises m) :
    memRead (memStore m a d) j = memRead m j := by
  induction d generalizing m a with
  | nil => rfl
  | cons b bs ih =>
    rw [List.length_cons] at hj
    rw [memStore, ih (by omega) (memWrite_rises a b h), memRead_memWrite_ne b (by omega) h]

/-- A stored byte reads back. -/
theorem memRead_memStore {m : List Host.Cell} {a i : Nat} {d : List Byte} (hi : i < d.length) (h : Memory.Rises m) :
    memRead (memStore m a d) (a + i) = d[i] := by
  induction d generalizing m a i with
  | nil => cases hi
  | cons b bs ih =>
    rw [memStore]
    cases i with
    | zero =>
      rw [memRead_memStore_outside (by omega) (memWrite_rises a b h)]
      exact memRead_memWrite a b h
    | succ i =>
      have := ih (a := a + 1) (i := i) (by simpa using hi) (memWrite_rises a b h)
      rw [show a + (i + 1) = a + 1 + i by omega, this]
      rfl

theorem memRead_memClear {m : List Host.Cell} (lo n k : Nat) (h : Memory.Rises m) :
    memRead (memClear m lo n) k = if lo ≤ k ∧ k < lo + n then 0 else memRead m k := by
  induction m with
  | nil => simp [memClear, memRead]
  | cons c t ih =>
    obtain ⟨a, x⟩ := c
    obtain ⟨hx, ht, hr⟩ := h
    have hkt : k < a → memRead (memClear t lo n) k = 0 := fun hk =>
      memRead_below fun c hc => Nat.lt_trans hk (ht c (List.mem_filter.1 hc).1)
    unfold memClear at ih hkt ⊢
    rw [List.filter_cons]
    by_cases ha : lo ≤ a ∧ a < lo + n
    · have : (!(decide (lo ≤ a) && decide (a < lo + n))) = false := by simp [ha]
      simp only [this, Bool.false_eq_true, if_false]
      by_cases hka : k < a
      · have he : a ≠ k := by omega
        rw [hkt hka, memRead, if_neg he, if_pos hka]; split <;> rfl
      · by_cases he : a = k
        · subst he
          rw [ih hr, if_pos ha]
          rw [if_pos ha]
        · rw [ih hr]
          split
          · rfl
          · rw [memRead, if_neg he, if_neg hka]
    · have : (!(decide (lo ≤ a) && decide (a < lo + n))) = true := by
        simp only [Bool.not_eq_true', Bool.and_eq_false_iff, decide_eq_false_iff_not]; omega
      simp only [this, if_true]
      rw [memRead]
      by_cases he : a = k
      · subst he; rw [if_pos rfl, if_neg ha, memRead, if_pos rfl]
      · rw [if_neg he]
        by_cases hka : k < a
        · rw [if_pos hka, memRead, if_neg he, if_pos hka]; split <;> rfl
        · rw [if_neg hka, ih hr, memRead, if_neg he, if_neg hka]

end Sys2Proof.Machine
end

