-- ==== Sys2Proof/Laws/Kept.lean ====
section
/-!
SUPPORT. What every operation leaves: the queue as it was, and the memory in its one form. `Kept s₀ s` says so of a state reached
from `s₀`; the lemmas `Kept.<operation>` say it of each operation, once.
-/
namespace Sys2Proof.Machine

/-- `s` was reached from `s₀` with its queue, and with memory in its form if it was. -/
structure Kept (s₀ s : State) : Prop where
  pending : s.pending = s₀.pending
  mem : s₀.memOk → s.memOk

/-- The same of the state in a pair, an option or an outcome. -/
def Kept1 {α : Type} (s₀ : State) (p : State × α) : Prop := Kept s₀ p.1
def Kept2 {α : Type} (s₀ : State) (p : α × State) : Prop := Kept s₀ p.2
def KeptO (s₀ : State) (o : Option State) : Prop := ∀ t, o = some t → Kept s₀ t
def KeptO1 {α : Type} (s₀ : State) (o : Option (State × α)) : Prop := ∀ t, o = some t → Kept s₀ t.1
def KeptO2 {α : Type} (s₀ : State) (o : Option (α × State)) : Prop := ∀ t, o = some t → Kept s₀ t.2
def KeptO22 {α β : Type} (s₀ : State) (o : Option (α × β × State)) : Prop := ∀ t, o = some t → Kept s₀ t.2.2
def KeptR (s₀ : State) (r : Res) : Prop := ∀ t, r = .next t → Kept s₀ t

variable {s₀ s t : State} {α β : Type}

theorem Kept.refl (s : State) : Kept s s := ⟨rfl, id⟩

theorem Kept.lit (h : Kept s₀ s) {a1 a2 a3 a4 a5 a6 a7 a8 a9 a10 a11 a12 a13 a14 a15 a16 a17 a18 a19 a20 a21} :
    Kept s₀ (State.mk s.pending a1 a2 a3 a4 a5 a6 a7 a8 a9 a10 a11 a12 a13 a14 a15 a16 a17 a18 a19 a20 a21 s.mem) := ⟨h.1, h.2⟩

theorem Kept1.mk {x : α} (h : Kept s₀ s) : Kept1 s₀ (s, x) := h
theorem Kept2.mk {x : α} (h : Kept s₀ s) : Kept2 s₀ (x, s) := h
theorem Kept.of1 {p : State × α} (h : Kept1 s₀ p) : Kept s₀ p.1 := h
theorem Kept.of2 {p : α × State} (h : Kept2 s₀ p) : Kept s₀ p.2 := h
theorem Kept.eq1 {p : State × α} {x : α} (e : p = (s, x)) (h : Kept1 s₀ p) : Kept s₀ s := by subst e; exact h
theorem Kept.eq2 {p : α × State} {x : α} (e : p = (x, s)) (h : Kept2 s₀ p) : Kept s₀ s := by subst e; exact h
theorem KeptO.none : KeptO s₀ none := by intro t h; cases h
theorem KeptO.some (h : Kept s₀ s) : KeptO s₀ (some s) := by intro t e; cases e; exact h
theorem KeptO1.none : KeptO1 s₀ (none : Option (State × α)) := by intro t h; cases h
theorem KeptO1.some {p : State × α} (h : Kept1 s₀ p) : KeptO1 s₀ (Option.some p) := by intro t e; cases e; exact h
theorem KeptO2.none : KeptO2 s₀ (none : Option (α × State)) := by intro t h; cases h
theorem KeptO2.some {p : α × State} (h : Kept2 s₀ p) : KeptO2 s₀ (Option.some p) := by intro t e; cases e; exact h
theorem KeptO22.none : KeptO22 s₀ (none : Option (α × β × State)) := by intro t h; cases h
theorem KeptO22.some {a : α} {b : β} (h : Kept s₀ s) : KeptO22 s₀ (Option.some (a, b, s)) := by intro t e; cases e; exact h
theorem Kept.eqO {o : Option State} (e : o = some s) (h : KeptO s₀ o) : Kept s₀ s := h s e
theorem Kept.eqO1 {o : Option (State × α)} {x : α} (e : o = some (s, x)) (h : KeptO1 s₀ o) : Kept s₀ s := h _ e
theorem Kept.eqO2 {o : Option (α × State)} {x : α} (e : o = some (x, s)) (h : KeptO2 s₀ o) : Kept s₀ s := h _ e
theorem Kept.eqO22 {o : Option (α × β × State)} {x : α} {y : β} (e : o = some (x, y, s)) (h : KeptO22 s₀ o) : Kept s₀ s := h _ e
theorem KeptR.next (h : Kept s₀ s) : KeptR s₀ (.next s) := by intro t e; cases e; exact h

theorem Kept.foldl {l : List α} {f : State → α → State} (h : Kept s₀ s) (hf : ∀ t a, Kept s₀ t → Kept s₀ (f t a)) :
    Kept s₀ (l.foldl f s) := by
  induction l generalizing s with
  | nil => exact h
  | cons a l ih => exact ih (hf s a h)
theorem Kept1.foldl {l : List α} {f : State × β → α → State × β} {p : State × β} (h : Kept1 s₀ p)
    (hf : ∀ q a, Kept1 s₀ q → Kept1 s₀ (f q a)) : Kept1 s₀ (l.foldl f p) := by
  induction l generalizing p with
  | nil => exact h
  | cons a l ih => exact ih (hf p a h)

theorem Kept.fold1 {l : List α} {f : State × β → α → State × β} {p : State × β} (h : Kept1 s₀ p)
    (hf : ∀ q a, Kept1 s₀ q → Kept1 s₀ (f q a)) : Kept s₀ (l.foldl f p).1 := Kept1.foldl h hf

theorem KeptO2.map {γ : Type} {o : Option γ} {f : γ → α × State} (h : ∀ a, Kept2 s₀ (f a)) : KeptO2 s₀ (o.map f) := by
  cases o with
  | none => exact KeptO2.none
  | some a => exact KeptO2.some (h a)
theorem KeptO.map {γ : Type} {o : Option γ} {f : γ → State} (h : ∀ a, Kept s₀ (f a)) : KeptO s₀ (o.map f) := by
  cases o with
  | none => exact KeptO.none
  | some a => exact KeptO.some (h a)
theorem KeptO22.map {γ : Type} {o : Option γ} {f : γ → α × β × State} (h : ∀ a, Kept s₀ (f a).2.2) : KeptO22 s₀ (o.map f) := by
  cases o with
  | none => exact KeptO22.none
  | some a => intro t e; cases e; exact h a
theorem KeptO2.bind {o : Option State} {f : State → Option (α × State)} (h : KeptO s₀ o) (hf : ∀ t, Kept s₀ t → KeptO2 s₀ (f t)) :
    KeptO2 s₀ (o.bind f) := by
  cases o with
  | none => exact KeptO2.none
  | some t => exact hf t (h t rfl)
theorem KeptO.bind {γ : Type} {o : Option γ} {f : γ → Option State} (hf : ∀ a, KeptO s₀ (f a)) : KeptO s₀ (o.bind f) := by
  cases o with
  | none => exact KeptO.none
  | some a => exact hf a
theorem KeptO2.mapO {o : Option (α × State)} {f : α × State → β × State} (h : KeptO2 s₀ o) (hf : ∀ q, Kept2 s₀ q → Kept2 s₀ (f q)) :
    KeptO2 s₀ (o.map f) := by
  cases o with
  | none => exact KeptO2.none
  | some q => exact KeptO2.some (hf q (h q rfl))

theorem KeptO.findSome {γ : Type} {l : List γ} {f : γ → Option State} (hf : ∀ a, KeptO s₀ (f a)) : KeptO s₀ (l.findSome? f) := by
  induction l with
  | nil => exact KeptO.none
  | cons a l ih =>
    rw [List.findSome?_cons]
    split
    · rename_i e; exact KeptO.some (hf a _ e)
    · exact ih
theorem KeptO.foldlBind {γ : Type} {l : List γ} {f : γ → State → Option State} {o : Option State} (h : KeptO s₀ o)
    (hf : ∀ a t, Kept s₀ t → KeptO s₀ (f a t)) : KeptO s₀ (l.foldl (fun o p => o.bind fun s => f p s) o) := by
  induction l generalizing o with
  | nil => exact h
  | cons a l ih =>
    refine ih ?_
    cases o with
    | none => exact KeptO.none
    | some t => exact hf a t (h t rfl)

theorem Kept.getD {o : Option State} (h : KeptO s₀ o) (hs : Kept s₀ s) : Kept s₀ (o.getD s) := by
  cases o with
  | none => exact hs
  | some t => exact h t rfl

end Sys2Proof.Machine
end

