-- ==== Sys2Proof/Laws/Kept1.lean ====
section
/-!
SUPPORT. The operations, modCen to passRelease in the order of their calls: each keeps the queue and the form of memory.
-/
namespace Sys2Proof.Machine

set_option linter.unusedTactic false
set_option linter.unreachableTactic false

theorem modCen_kept {s₀ : State} {a0 a1} :
    Kept s₀ a1 → Kept s₀ (modCen a0 a1) := by
  intro h0
  unfold modCen
  repeat' first
    | with_reducible assumption
    | extract_lets
    | split
    | fail_if_no_progress with_reducible apply Kept.lit
    | with_reducible exact Kept.of1 ‹_›
    | with_reducible exact Kept.of2 ‹_›
    | with_reducible exact Kept.of2 (p := (_, _)) ‹_›
    | dsimp only
    | dsimp +zetaDelta only

theorem modCStat_kept {s₀ : State} {a0 a1 a2} :
    Kept s₀ a2 → Kept s₀ (modCStat a0 a1 a2) := by
  intro h0
  unfold modCStat
  repeat' first
    | with_reducible assumption
    | with_reducible refine modCen_kept ?_
    | extract_lets
    | split
    | fail_if_no_progress with_reducible apply Kept.lit
    | with_reducible exact Kept.of1 ‹_›
    | with_reducible exact Kept.of2 ‹_›
    | with_reducible exact Kept.of2 (p := (_, _)) ‹_›
    | dsimp only
    | dsimp +zetaDelta only

theorem setObj_kept {s₀ : State} {a0 a1 a2} :
    Kept s₀ a2 → Kept s₀ (setObj a0 a1 a2) := by
  intro h0
  unfold setObj
  repeat' first
    | with_reducible assumption
    | extract_lets
    | split
    | fail_if_no_progress with_reducible apply Kept.lit
    | with_reducible exact Kept.of1 ‹_›
    | with_reducible exact Kept.of2 ‹_›
    | with_reducible exact Kept.of2 (p := (_, _)) ‹_›
    | dsimp only
    | dsimp +zetaDelta only

theorem setDom_kept {s₀ : State} {a0 a1 a2} :
    Kept s₀ a2 → Kept s₀ (setDom a0 a1 a2) := by
  intro h0
  unfold setDom
  repeat' first
    | with_reducible assumption
    | extract_lets
    | split
    | fail_if_no_progress with_reducible apply Kept.lit
    | with_reducible exact Kept.of1 ‹_›
    | with_reducible exact Kept.of2 ‹_›
    | with_reducible exact Kept.of2 (p := (_, _)) ‹_›
    | dsimp only
    | dsimp +zetaDelta only

theorem modDom_kept {s₀ : State} {a0 a1 a2} :
    Kept s₀ a2 → Kept s₀ (modDom a0 a1 a2) := by
  intro h0
  unfold modDom
  repeat' first
    | with_reducible assumption
    | with_reducible refine setDom_kept ?_
    | extract_lets
    | split
    | fail_if_no_progress with_reducible apply Kept.lit
    | with_reducible exact Kept.of1 ‹_›
    | with_reducible exact Kept.of2 ‹_›
    | with_reducible exact Kept.of2 (p := (_, _)) ‹_›
    | dsimp only
    | dsimp +zetaDelta only

theorem countMissed_kept {s₀ : State} {a0 a1 a2 a3} :
    Kept s₀ a3 → Kept s₀ (countMissed a0 a1 a2 a3) := by
  intro h0
  unfold countMissed
  repeat' first
    | with_reducible assumption
    | with_reducible refine modDom_kept ?_
    | extract_lets
    | split
    | fail_if_no_progress with_reducible apply Kept.lit
    | with_reducible exact Kept.of1 ‹_›
    | with_reducible exact Kept.of2 ‹_›
    | with_reducible exact Kept.of2 (p := (_, _)) ‹_›
    | dsimp only
    | dsimp +zetaDelta only

theorem judgeUntil_kept {s₀ : State} {a0 a1 a2 a3 a4} :
    Kept s₀ a4 → Kept s₀ (judgeUntil a0 a1 a2 a3 a4) := by
  intro h0
  unfold judgeUntil
  repeat' first
    | with_reducible assumption
    | with_reducible refine modDom_kept ?_
    | with_reducible refine countMissed_kept ?_
    | extract_lets
    | split
    | fail_if_no_progress with_reducible apply Kept.lit
    | with_reducible exact Kept.of1 ‹_›
    | with_reducible exact Kept.of2 ‹_›
    | with_reducible exact Kept.of2 (p := (_, _)) ‹_›
    | dsimp only
    | dsimp +zetaDelta only

theorem judge_kept {s₀ : State} {a0 a1 a2 a3} :
    Kept s₀ a3 → Kept s₀ (judge a0 a1 a2 a3) := by
  intro h0
  unfold judge
  repeat' first
    | with_reducible assumption
    | with_reducible refine judgeUntil_kept ?_
    | extract_lets
    | split
    | fail_if_no_progress with_reducible apply Kept.lit
    | with_reducible exact Kept.of1 ‹_›
    | with_reducible exact Kept.of2 ‹_›
    | with_reducible exact Kept.of2 (p := (_, _)) ‹_›
    | dsimp only
    | dsimp +zetaDelta only

theorem setSeq_kept {s₀ : State} {a0 a1 a2} :
    Kept s₀ a2 → Kept s₀ (setSeq a0 a1 a2) := by
  intro h0
  unfold setSeq
  repeat' first
    | with_reducible assumption
    | extract_lets
    | split
    | fail_if_no_progress with_reducible apply Kept.lit
    | with_reducible exact Kept.of1 ‹_›
    | with_reducible exact Kept.of2 ‹_›
    | with_reducible exact Kept.of2 (p := (_, _)) ‹_›
    | dsimp only
    | dsimp +zetaDelta only

theorem modSeq_kept {s₀ : State} {a0 a1 a2} :
    Kept s₀ a2 → Kept s₀ (modSeq a0 a1 a2) := by
  intro h0
  unfold modSeq
  repeat' first
    | with_reducible assumption
    | with_reducible refine setSeq_kept ?_
    | extract_lets
    | split
    | fail_if_no_progress with_reducible apply Kept.lit
    | with_reducible exact Kept.of1 ‹_›
    | with_reducible exact Kept.of2 ‹_›
    | with_reducible exact Kept.of2 (p := (_, _)) ‹_›
    | dsimp only
    | dsimp +zetaDelta only

theorem qpSend_kept {s₀ : State} {a0 a1 a2} :
    Kept s₀ a2 → Kept s₀ (qpSend a0 a1 a2) := by
  intro h0
  unfold qpSend
  repeat' first
    | with_reducible assumption
    | extract_lets
    | split
    | fail_if_no_progress with_reducible apply Kept.lit
    | with_reducible exact Kept.of1 ‹_›
    | with_reducible exact Kept.of2 ‹_›
    | with_reducible exact Kept.of2 (p := (_, _)) ‹_›
    | dsimp only
    | dsimp +zetaDelta only

theorem emit_kept {s₀ : State} {a0 a1} :
    Kept s₀ a1 → Kept s₀ (emit a0 a1) := by
  intro h0
  unfold emit
  repeat' first
    | with_reducible assumption
    | extract_lets
    | split
    | fail_if_no_progress with_reducible apply Kept.lit
    | with_reducible exact Kept.of1 ‹_›
    | with_reducible exact Kept.of2 ‹_›
    | with_reducible exact Kept.of2 (p := (_, _)) ‹_›
    | dsimp only
    | dsimp +zetaDelta only

theorem reply_kept {s₀ : State} {a0 a1 a2} :
    Kept s₀ a2 → Kept s₀ (reply a0 a1 a2) := by
  intro h0
  unfold reply
  repeat' first
    | with_reducible assumption
    | with_reducible refine modSeq_kept ?_
    | with_reducible refine qpSend_kept ?_
    | with_reducible refine emit_kept ?_
    | extract_lets
    | split
    | fail_if_no_progress with_reducible apply Kept.lit
    | with_reducible exact Kept.of1 ‹_›
    | with_reducible exact Kept.of2 ‹_›
    | with_reducible exact Kept.of2 (p := (_, _)) ‹_›
    | dsimp only
    | dsimp +zetaDelta only

theorem finishWait_kept {s₀ : State} {a0 a1 a2} :
    Kept s₀ a2 → Kept s₀ (finishWait a0 a1 a2) := by
  intro h0
  unfold finishWait
  repeat' first
    | with_reducible assumption
    | with_reducible refine judge_kept ?_
    | with_reducible refine modSeq_kept ?_
    | with_reducible refine reply_kept ?_
    | extract_lets
    | split
    | fail_if_no_progress with_reducible apply Kept.lit
    | with_reducible exact Kept.of1 ‹_›
    | with_reducible exact Kept.of2 ‹_›
    | with_reducible exact Kept.of2 (p := (_, _)) ‹_›
    | dsimp only
    | dsimp +zetaDelta only

theorem wake_kept {s₀ : State} {a0 a1} :
    Kept s₀ a1 → Kept s₀ (wake a0 a1) := by
  intro h0
  unfold wake
  repeat' first
    | with_reducible assumption
    | with_reducible refine setObj_kept ?_
    | with_reducible refine finishWait_kept ?_
    | with_reducible refine Kept.foldl ?_ (fun _ _ _ => ?_)
    | with_reducible refine Kept1.foldl ?_ (fun _ _ _ => ?_)
    | with_reducible refine Kept.fold1 ?_ (fun _ _ _ => ?_)
    | with_reducible refine Kept.eq1 ‹_› ?_
    | extract_lets
    | split
    | with_reducible apply Kept1.mk
    | fail_if_no_progress with_reducible apply Kept.lit
    | with_reducible exact Kept.of1 ‹_›
    | with_reducible exact Kept.of2 ‹_›
    | with_reducible exact Kept.of2 (p := (_, _)) ‹_›
    | dsimp only
    | dsimp +zetaDelta only

theorem completionAdd_kept {s₀ : State} {a0 a1 a2} :
    Kept s₀ a2 → Kept s₀ (completionAdd a0 a1 a2) := by
  intro h0
  unfold completionAdd
  repeat' first
    | with_reducible assumption
    | with_reducible refine wake_kept ?_
    | with_reducible refine setObj_kept ?_
    | extract_lets
    | split
    | fail_if_no_progress with_reducible apply Kept.lit
    | with_reducible exact Kept.of1 ‹_›
    | with_reducible exact Kept.of2 ‹_›
    | with_reducible exact Kept.of2 (p := (_, _)) ‹_›
    | dsimp only
    | dsimp +zetaDelta only

theorem finishCmd_kept {s₀ : State} {a0 a1 a2 a3} :
    Kept s₀ a3 → Kept s₀ (finishCmd a0 a1 a2 a3) := by
  intro h0
  unfold finishCmd
  repeat' first
    | with_reducible assumption
    | with_reducible refine completionAdd_kept ?_
    | with_reducible refine reply_kept ?_
    | extract_lets
    | split
    | fail_if_no_progress with_reducible apply Kept.lit
    | with_reducible exact Kept.of1 ‹_›
    | with_reducible exact Kept.of2 ‹_›
    | with_reducible exact Kept.of2 (p := (_, _)) ‹_›
    | dsimp only
    | dsimp +zetaDelta only

theorem useFresh_kept {s₀ : State} {a0} :
    Kept s₀ a0 → Kept s₀ (useFresh a0) := by
  intro h0
  unfold useFresh
  repeat' first
    | with_reducible assumption
    | extract_lets
    | split
    | fail_if_no_progress with_reducible apply Kept.lit
    | with_reducible exact Kept.of1 ‹_›
    | with_reducible exact Kept.of2 ‹_›
    | with_reducible exact Kept.of2 (p := (_, _)) ‹_›
    | dsimp only
    | dsimp +zetaDelta only

theorem cenFinish_kept {s₀ : State} {a0 a1 a2 a3} :
    Kept s₀ a3 → Kept s₀ (cenFinish a0 a1 a2 a3) := by
  intro h0
  unfold cenFinish
  repeat' first
    | with_reducible assumption
    | with_reducible refine modCStat_kept ?_
    | with_reducible refine finishCmd_kept ?_
    | with_reducible refine useFresh_kept ?_
    | extract_lets
    | split
    | fail_if_no_progress with_reducible apply Kept.lit
    | with_reducible exact Kept.of1 ‹_›
    | with_reducible exact Kept.of2 ‹_›
    | with_reducible exact Kept.of2 (p := (_, _)) ‹_›
    | dsimp only
    | dsimp +zetaDelta only

theorem cenClear_kept {s₀ : State} {a0 a1} :
    Kept s₀ a1 → Kept s₀ (cenClear a0 a1) := by
  intro h0
  unfold cenClear
  repeat' first
    | with_reducible assumption
    | with_reducible refine modCen_kept ?_
    | extract_lets
    | split
    | fail_if_no_progress with_reducible apply Kept.lit
    | with_reducible exact Kept.of1 ‹_›
    | with_reducible exact Kept.of2 ‹_›
    | with_reducible exact Kept.of2 (p := (_, _)) ‹_›
    | dsimp only
    | dsimp +zetaDelta only

theorem setIdx_kept {s₀ : State} {a0 a1 a2} :
    Kept s₀ a2 → Kept s₀ (setIdx a0 a1 a2) := by
  intro h0
  unfold setIdx
  repeat' first
    | with_reducible assumption
    | with_reducible refine modCen_kept ?_
    | extract_lets
    | split
    | fail_if_no_progress with_reducible apply Kept.lit
    | with_reducible exact Kept.of1 ‹_›
    | with_reducible exact Kept.of2 ‹_›
    | with_reducible exact Kept.of2 (p := (_, _)) ‹_›
    | dsimp only
    | dsimp +zetaDelta only

theorem setLocPart_kept {s₀ : State} {a0 a1 a2} :
    Kept s₀ a2 → Kept s₀ (setLocPart a0 a1 a2) := by
  intro h0
  unfold setLocPart
  repeat' first
    | with_reducible assumption
    | extract_lets
    | split
    | fail_if_no_progress with_reducible apply Kept.lit
    | with_reducible exact Kept.of1 ‹_›
    | with_reducible exact Kept.of2 ‹_›
    | with_reducible exact Kept.of2 (p := (_, _)) ‹_›
    | dsimp only
    | dsimp +zetaDelta only

theorem recordFault_kept {s₀ : State} {a0 a1 a2 a3 a4 a5 a6 a7} :
    Kept s₀ a7 → Kept1 s₀ (recordFault a0 a1 a2 a3 a4 a5 a6 a7) := by
  intro h0
  unfold recordFault
  repeat' first
    | with_reducible assumption
    | with_reducible refine setLocPart_kept ?_
    | extract_lets
    | split
    | with_reducible apply Kept1.mk
    | fail_if_no_progress with_reducible apply Kept.lit
    | with_reducible exact Kept.of1 ‹_›
    | with_reducible exact Kept.of2 ‹_›
    | with_reducible exact Kept.of2 (p := (_, _)) ‹_›
    | dsimp only
    | dsimp +zetaDelta only

theorem modFld_kept {s₀ : State} {a0 a1 a2} :
    Kept s₀ a2 → Kept s₀ (modFld a0 a1 a2) := by
  intro h0
  unfold modFld
  repeat' first
    | with_reducible assumption
    | extract_lets
    | split
    | fail_if_no_progress with_reducible apply Kept.lit
    | with_reducible exact Kept.of1 ‹_›
    | with_reducible exact Kept.of2 ‹_›
    | with_reducible exact Kept.of2 (p := (_, _)) ‹_›
    | dsimp only
    | dsimp +zetaDelta only

theorem countFail_kept {s₀ : State} {a0 a1 a2} :
    Kept s₀ a2 → Kept s₀ (countFail a0 a1 a2) := by
  intro h0
  unfold countFail
  repeat' first
    | with_reducible assumption
    | with_reducible refine modFld_kept ?_
    | extract_lets
    | split
    | fail_if_no_progress with_reducible apply Kept.lit
    | with_reducible exact Kept.of1 ‹_›
    | with_reducible exact Kept.of2 ‹_›
    | with_reducible exact Kept.of2 (p := (_, _)) ‹_›
    | dsimp only
    | dsimp +zetaDelta only

theorem setFaultBit_kept {s₀ : State} {a0 a1} :
    Kept s₀ a1 → Kept s₀ (setFaultBit a0 a1) := by
  intro h0
  unfold setFaultBit
  repeat' first
    | with_reducible assumption
    | extract_lets
    | split
    | fail_if_no_progress with_reducible apply Kept.lit
    | with_reducible exact Kept.of1 ‹_›
    | with_reducible exact Kept.of2 ‹_›
    | with_reducible exact Kept.of2 (p := (_, _)) ‹_›
    | dsimp only
    | dsimp +zetaDelta only

theorem logRaw_kept {s₀ : State} {a0 a1} :
    Kept s₀ a1 → Kept s₀ (logRaw a0 a1) := by
  intro h0
  unfold logRaw
  repeat' first
    | with_reducible assumption
    | with_reducible refine setFaultBit_kept ?_
    | extract_lets
    | split
    | fail_if_no_progress with_reducible apply Kept.lit
    | with_reducible exact Kept.of1 ‹_›
    | with_reducible exact Kept.of2 ‹_›
    | with_reducible exact Kept.of2 (p := (_, _)) ‹_›
    | dsimp only
    | dsimp +zetaDelta only

theorem flushLog_kept {s₀ : State} {a0} :
    Kept s₀ a0 → Kept s₀ (flushLog a0) := by
  intro h0
  unfold flushLog
  repeat' first
    | with_reducible assumption
    | with_reducible refine logRaw_kept ?_
    | extract_lets
    | split
    | fail_if_no_progress with_reducible apply Kept.lit
    | with_reducible exact Kept.of1 ‹_›
    | with_reducible exact Kept.of2 ‹_›
    | with_reducible exact Kept.of2 (p := (_, _)) ‹_›
    | dsimp only
    | dsimp +zetaDelta only

theorem logEntry_kept {s₀ : State} {a0 a1} :
    Kept s₀ a1 → Kept s₀ (logEntry a0 a1) := by
  intro h0
  unfold logEntry
  repeat' first
    | with_reducible assumption
    | with_reducible refine logRaw_kept ?_
    | with_reducible refine flushLog_kept ?_
    | extract_lets
    | split
    | fail_if_no_progress with_reducible apply Kept.lit
    | with_reducible exact Kept.of1 ‹_›
    | with_reducible exact Kept.of2 ‹_›
    | with_reducible exact Kept.of2 (p := (_, _)) ‹_›
    | dsimp only
    | dsimp +zetaDelta only

theorem report_kept {s₀ : State} {a0 a1 a2 a3 a4} :
    Kept s₀ a4 → Kept s₀ (report a0 a1 a2 a3 a4) := by
  intro h0
  unfold report
  repeat' first
    | with_reducible assumption
    | with_reducible refine logEntry_kept ?_
    | extract_lets
    | split
    | fail_if_no_progress with_reducible apply Kept.lit
    | with_reducible exact Kept.of1 ‹_›
    | with_reducible exact Kept.of2 ‹_›
    | with_reducible exact Kept.of2 (p := (_, _)) ‹_›
    | dsimp only
    | dsimp +zetaDelta only

theorem logPoison_kept {s₀ : State} {a0 a1 a2 a3 a4} :
    Kept s₀ a4 → Kept s₀ (logPoison a0 a1 a2 a3 a4) := by
  intro h0
  unfold logPoison
  repeat' first
    | with_reducible assumption
    | with_reducible refine report_kept ?_
    | extract_lets
    | split
    | fail_if_no_progress with_reducible apply Kept.lit
    | with_reducible exact Kept.of1 ‹_›
    | with_reducible exact Kept.of2 ‹_›
    | with_reducible exact Kept.of2 (p := (_, _)) ‹_›
    | dsimp only
    | dsimp +zetaDelta only

theorem setBlk_kept {s₀ : State} {a0 a1 a2} :
    Kept s₀ a2 → Kept s₀ (setBlk a0 a1 a2) := by
  intro h0
  unfold setBlk
  repeat' first
    | with_reducible assumption
    | extract_lets
    | split
    | fail_if_no_progress with_reducible apply Kept.lit
    | with_reducible exact Kept.of1 ‹_›
    | with_reducible exact Kept.of2 ‹_›
    | with_reducible exact Kept.of2 (p := (_, _)) ‹_›
    | dsimp only
    | dsimp +zetaDelta only

theorem detect_kept {s₀ : State} {a0 a1 a2 a3} :
    Kept s₀ a3 → Kept s₀ (detect a0 a1 a2 a3) := by
  intro h0
  unfold detect
  repeat' first
    | with_reducible assumption
    | with_reducible refine countFail_kept ?_
    | with_reducible refine logPoison_kept ?_
    | with_reducible refine setBlk_kept ?_
    | extract_lets
    | split
    | fail_if_no_progress with_reducible apply Kept.lit
    | with_reducible exact Kept.of1 ‹_›
    | with_reducible exact Kept.of2 ‹_›
    | with_reducible exact Kept.of2 (p := (_, _)) ‹_›
    | dsimp only
    | dsimp +zetaDelta only

theorem foldRead_kept {s₀ : State} {a0 a1 a2 a3 a4} :
    Kept s₀ a4 → Kept1 s₀ (foldRead a0 a1 a2 a3 a4) := by
  intro h0
  unfold foldRead
  repeat' first
    | with_reducible assumption
    | with_reducible refine detect_kept ?_
    | with_reducible refine modFld_kept ?_
    | with_reducible refine Kept.foldl ?_ (fun _ _ _ => ?_)
    | with_reducible refine Kept1.foldl ?_ (fun _ _ _ => ?_)
    | with_reducible refine Kept.fold1 ?_ (fun _ _ _ => ?_)
    | with_reducible refine Kept.eq1 ‹_› ?_
    | extract_lets
    | split
    | with_reducible apply Kept1.mk
    | fail_if_no_progress with_reducible apply Kept.lit
    | with_reducible exact Kept.of1 ‹_›
    | with_reducible exact Kept.of2 ‹_›
    | with_reducible exact Kept.of2 (p := (_, _)) ‹_›
    | dsimp only
    | dsimp +zetaDelta only

theorem walkFrom_kept {s₀ : State} {a0 a1 a2 a3 a4 a5 a6 a7} :
    Kept s₀ a7 → Kept1 s₀ (walkFrom a0 a1 a2 a3 a4 a5 a6 a7) := by
  intro h0
  induction a5 generalizing a6 a7 with
  | zero =>
      unfold walkFrom
      repeat' first
        | with_reducible assumption
        | with_reducible refine Kept.of1 (p := walkFrom _ _ _ _ _ _ _ _) ?_
        | with_reducible refine foldRead_kept ?_
        | with_reducible refine Kept.of1 (p := foldRead _ _ _ _ _) (foldRead_kept ?_)
        | with_reducible refine recordFault_kept ?_
        | with_reducible refine Kept.of1 (p := recordFault _ _ _ _ _ _ _ _) (recordFault_kept ?_)
        | with_reducible refine Kept.eq1 ‹_› ?_
        | extract_lets
        | split
        | with_reducible apply Kept1.mk
        | fail_if_no_progress with_reducible apply Kept.lit
        | with_reducible exact Kept.of1 ‹_›
        | with_reducible exact Kept.of2 ‹_›
        | with_reducible exact Kept.of2 (p := (_, _)) ‹_›
        | dsimp only
        | dsimp +zetaDelta only
  | succ _ ih =>
      unfold walkFrom
      repeat' first
        | with_reducible assumption
        | with_reducible apply ih
        | with_reducible refine Kept.of1 (p := walkFrom _ _ _ _ _ _ _ _) ?_
        | with_reducible refine foldRead_kept ?_
        | with_reducible refine Kept.of1 (p := foldRead _ _ _ _ _) (foldRead_kept ?_)
        | with_reducible refine recordFault_kept ?_
        | with_reducible refine Kept.of1 (p := recordFault _ _ _ _ _ _ _ _) (recordFault_kept ?_)
        | with_reducible refine Kept.eq1 ‹_› ?_
        | extract_lets
        | split
        | with_reducible apply Kept1.mk
        | fail_if_no_progress with_reducible apply Kept.lit
        | with_reducible exact Kept.of1 ‹_›
        | with_reducible exact Kept.of2 ‹_›
        | with_reducible exact Kept.of2 (p := (_, _)) ‹_›
        | dsimp only
        | dsimp +zetaDelta only

theorem translate_kept {s₀ : State} {a0 a1} :
    Kept s₀ a1 → Kept1 s₀ (translate a0 a1) := by
  intro h0
  unfold translate
  repeat' first
    | with_reducible assumption
    | with_reducible refine recordFault_kept ?_
    | with_reducible refine Kept.of1 (p := recordFault _ _ _ _ _ _ _ _) (recordFault_kept ?_)
    | with_reducible refine walkFrom_kept ?_
    | with_reducible refine Kept.of1 (p := walkFrom _ _ _ _ _ _ _ _) (walkFrom_kept ?_)
    | with_reducible refine Kept.eq1 ‹_› ?_
    | extract_lets
    | split
    | with_reducible apply Kept1.mk
    | fail_if_no_progress with_reducible apply Kept.lit
    | with_reducible exact Kept.of1 ‹_›
    | with_reducible exact Kept.of2 ‹_›
    | with_reducible exact Kept.of2 (p := (_, _)) ‹_›
    | dsimp only
    | dsimp +zetaDelta only

theorem modVtx_kept {s₀ : State} {a0 a1} :
    Kept s₀ a1 → Kept s₀ (modVtx a0 a1) := by
  intro h0
  unfold modVtx
  repeat' first
    | with_reducible assumption
    | extract_lets
    | split
    | fail_if_no_progress with_reducible apply Kept.lit
    | with_reducible exact Kept.of1 ‹_›
    | with_reducible exact Kept.of2 ‹_›
    | with_reducible exact Kept.of2 (p := (_, _)) ‹_›
    | dsimp only
    | dsimp +zetaDelta only

theorem engineDown_kept {s₀ : State} {a0 a1} :
    Kept s₀ a1 → Kept s₀ (engineDown a0 a1) := by
  intro h0
  unfold engineDown
  repeat' first
    | with_reducible assumption
    | with_reducible refine modVtx_kept ?_
    | extract_lets
    | split
    | fail_if_no_progress with_reducible apply Kept.lit
    | with_reducible exact Kept.of1 ‹_›
    | with_reducible exact Kept.of2 ‹_›
    | with_reducible exact Kept.of2 (p := (_, _)) ‹_›
    | dsimp only
    | dsimp +zetaDelta only

theorem modPf_kept {s₀ : State} {a0 a1 a2} :
    Kept s₀ a2 → Kept s₀ (modPf a0 a1 a2) := by
  intro h0
  unfold modPf
  repeat' first
    | with_reducible assumption
    | extract_lets
    | split
    | fail_if_no_progress with_reducible apply Kept.lit
    | with_reducible exact Kept.of1 ‹_›
    | with_reducible exact Kept.of2 ‹_›
    | with_reducible exact Kept.of2 (p := (_, _)) ‹_›
    | dsimp only
    | dsimp +zetaDelta only

theorem mirrorThen_kept {s₀ : State} {a0 a1 a2 a3} :
    (∀ x0, Kept s₀ x0 → Kept s₀ (a2 x0)) → Kept s₀ a3 → Kept s₀ (mirrorThen a0 a1 a2 a3) := by
  intro h0 h1
  unfold mirrorThen
  repeat' first
    | with_reducible assumption
    | with_reducible apply h0
    | with_reducible refine emit_kept ?_
    | with_reducible refine Kept.eq1 ‹_› ?_
    | extract_lets
    | split
    | fail_if_no_progress with_reducible apply Kept.lit
    | with_reducible exact Kept.of1 ‹_›
    | with_reducible exact Kept.of2 ‹_›
    | with_reducible exact Kept.of2 (p := (_, _)) ‹_›
    | dsimp only
    | dsimp +zetaDelta only

theorem mirrorOnly_kept {s₀ : State} {a0 a1} :
    Kept s₀ a1 → Kept s₀ (mirrorOnly a0 a1) := by
  intro h0
  unfold mirrorOnly
  repeat' first
    | with_reducible assumption
    | with_reducible refine mirrorThen_kept (fun _ _ => ?_) ?_
    | dsimp only [id_eq]
    | extract_lets
    | split
    | fail_if_no_progress with_reducible apply Kept.lit
    | with_reducible exact Kept.of1 ‹_›
    | with_reducible exact Kept.of2 ‹_›
    | with_reducible exact Kept.of2 (p := (_, _)) ‹_›
    | dsimp only
    | dsimp +zetaDelta only

theorem setPage_kept {s₀ : State} {a0 a1 a2} :
    Kept s₀ a2 → Kept s₀ (setPage a0 a1 a2) := by
  intro h0
  unfold setPage
  repeat' first
    | with_reducible assumption
    | extract_lets
    | split
    | fail_if_no_progress with_reducible apply Kept.lit
    | with_reducible exact Kept.of1 ‹_›
    | with_reducible exact Kept.of2 ‹_›
    | with_reducible exact Kept.of2 (p := (_, _)) ‹_›
    | dsimp only
    | dsimp +zetaDelta only

theorem changePage_kept {s₀ : State} {a0 a1 a2} :
    Kept s₀ a2 → Kept s₀ (changePage a0 a1 a2) := by
  intro h0
  unfold changePage
  repeat' first
    | with_reducible assumption
    | with_reducible refine mirrorOnly_kept ?_
    | with_reducible refine setPage_kept ?_
    | extract_lets
    | split
    | fail_if_no_progress with_reducible apply Kept.lit
    | with_reducible exact Kept.of1 ‹_›
    | with_reducible exact Kept.of2 ‹_›
    | with_reducible exact Kept.of2 (p := (_, _)) ‹_›
    | dsimp only
    | dsimp +zetaDelta only

theorem took_kept {s₀ : State} {a0 a1 a2} :
    Kept s₀ a2 → Kept s₀ (took a0 a1 a2) := by
  intro h0
  unfold took
  repeat' first
    | with_reducible assumption
    | extract_lets
    | split
    | fail_if_no_progress with_reducible apply Kept.lit
    | with_reducible exact Kept.of1 ‹_›
    | with_reducible exact Kept.of2 ‹_›
    | with_reducible exact Kept.of2 (p := (_, _)) ‹_›
    | dsimp only
    | dsimp +zetaDelta only

theorem needDdr_kept {s₀ : State} {a0 a1} :
    Kept s₀ a1 → KeptO2 s₀ (needDdr a0 a1) := by
  intro h0
  unfold needDdr
  repeat' first
    | with_reducible assumption
    | with_reducible refine took_kept ?_
    | with_reducible refine changePage_kept ?_
    | extract_lets
    | split
    | with_reducible apply KeptO2.none
    | with_reducible apply KeptO2.some
    | with_reducible apply Kept2.mk
    | fail_if_no_progress with_reducible apply Kept.lit
    | with_reducible exact Kept.of1 ‹_›
    | with_reducible exact Kept.of2 ‹_›
    | with_reducible exact Kept.of2 (p := (_, _)) ‹_›
    | dsimp only
    | dsimp +zetaDelta only

theorem allocFar_kept {s₀ : State} {a0 a1 a2} :
    Kept s₀ a2 → KeptO2 s₀ (allocFar a0 a1 a2) := by
  intro h0
  unfold allocFar
  repeat' first
    | with_reducible assumption
    | with_reducible refine needDdr_kept ?_
    | with_reducible refine took_kept ?_
    | with_reducible refine Kept.eqO2 ‹_› ?_
    | with_reducible refine KeptO2.mapO ?_ (fun _ _ => ?_)
    | with_reducible refine KeptO2.map (fun _ => ?_)
    | with_reducible refine KeptO.map (fun _ => ?_)
    | extract_lets
    | split
    | with_reducible apply KeptO2.none
    | with_reducible apply KeptO2.some
    | with_reducible apply Kept2.mk
    | fail_if_no_progress with_reducible apply Kept.lit
    | with_reducible exact Kept.of1 ‹_›
    | with_reducible exact Kept.of2 ‹_›
    | with_reducible exact Kept.of2 (p := (_, _)) ‹_›
    | dsimp only
    | dsimp +zetaDelta only

theorem allocFirstFar_kept {s₀ : State} {a0 a1 a2} :
    Kept s₀ a2 → KeptO2 s₀ (allocFirstFar a0 a1 a2) := by
  intro h0
  induction a1 generalizing a2 with
  | nil =>
      unfold allocFirstFar
      repeat' first
        | with_reducible assumption
        | with_reducible refine allocFar_kept ?_
        | with_reducible refine Kept.eqO2 ‹_› ?_
        | extract_lets
        | split
        | with_reducible apply KeptO2.none
        | with_reducible apply KeptO2.some
        | with_reducible apply Kept2.mk
        | fail_if_no_progress with_reducible apply Kept.lit
        | with_reducible exact Kept.of1 ‹_›
        | with_reducible exact Kept.of2 ‹_›
        | with_reducible exact Kept.of2 (p := (_, _)) ‹_›
        | dsimp only
        | dsimp +zetaDelta only
  | cons _ _ ih =>
      unfold allocFirstFar
      repeat' first
        | with_reducible assumption
        | with_reducible apply ih
        | with_reducible refine allocFar_kept ?_
        | with_reducible refine Kept.eqO2 ‹_› ?_
        | extract_lets
        | split
        | with_reducible apply KeptO2.none
        | with_reducible apply KeptO2.some
        | with_reducible apply Kept2.mk
        | fail_if_no_progress with_reducible apply Kept.lit
        | with_reducible exact Kept.of1 ‹_›
        | with_reducible exact Kept.of2 ‹_›
        | with_reducible exact Kept.of2 (p := (_, _)) ‹_›
        | dsimp only
        | dsimp +zetaDelta only

theorem spillOne_kept {s₀ : State} {a0 a1} :
    Kept s₀ a1 → KeptO s₀ (spillOne a0 a1) := by
  intro h0
  unfold spillOne
  extract_lets counted dropCopy copyOf clean demote heavy writeBack link
  have hc : ∀ t, Kept s₀ t → Kept s₀ (counted t) := fun t h => modPf_kept h
  have hd : ∀ c t, Kept s₀ t → Kept s₀ (dropCopy c t) := fun c t h => hc _ (Kept.lit h)
  have hm : ∀ p, Kept s₀ (demote p) := fun p => hc _ (changePage_kept h0)
  have hw : ∀ p, KeptO s₀ (writeBack p) := by
    intro p
    unfold writeBack
    extract_lets e ts
    split
    · exact KeptO.some (hm p)
    · split
      · exact KeptO.some (hc _ (changePage_kept (Kept.eqO2 ‹_› (allocFirstFar_kept h0))))
      · exact KeptO.none
  clear_value writeBack demote dropCopy counted
  split
  · exact KeptO.some (hd _ _ h0)
  · split
    · exact KeptO.some (hm _)
    · split
      · exact KeptO.some (hd _ _ h0)
      · split
        · exact KeptO.none
        · split
          · exact KeptO.some (hm _)
          · split
            · rename_i e
              have hb := KeptO.bind (s₀ := s₀) (o := lruPage a1 (heavy [.homeTier, .preferDdr, .preferTray])) (f := writeBack) hw
              exact KeptO.some (Kept.eqO e hb)
            · exact KeptO.bind hw

theorem needPrism_kept {s₀ : State} {a0 a1} :
    Kept s₀ a1 → KeptO2 s₀ (needPrism a0 a1) := by
  intro h0
  unfold needPrism
  repeat' first
    | with_reducible assumption
    | with_reducible refine spillOne_kept ?_
    | with_reducible refine Kept.eqO ‹_› ?_
    | with_reducible refine KeptO2.mapO ?_ (fun _ _ => ?_)
    | with_reducible refine KeptO2.map (fun _ => ?_)
    | with_reducible refine KeptO.map (fun _ => ?_)
    | with_reducible refine KeptO2.bind ?_ (fun _ _ => ?_)
    | with_reducible refine KeptO.bind (fun _ => ?_)
    | extract_lets
    | split
    | with_reducible apply KeptO2.none
    | with_reducible apply KeptO2.some
    | with_reducible apply Kept2.mk
    | fail_if_no_progress with_reducible apply Kept.lit
    | with_reducible exact Kept.of1 ‹_›
    | with_reducible exact Kept.of2 ‹_›
    | with_reducible exact Kept.of2 (p := (_, _)) ‹_›
    | dsimp only
    | dsimp +zetaDelta only

theorem allocTier_kept {s₀ : State} {a0 a1 a2} :
    Kept s₀ a2 → KeptO2 s₀ (allocTier a0 a1 a2) := by
  intro h0
  unfold allocTier
  repeat' first
    | with_reducible assumption
    | with_reducible refine needPrism_kept ?_
    | with_reducible refine allocFar_kept ?_
    | with_reducible refine Kept.eqO2 ‹_› ?_
    | extract_lets
    | split
    | with_reducible apply KeptO2.none
    | with_reducible apply KeptO2.some
    | with_reducible apply Kept2.mk
    | fail_if_no_progress with_reducible apply Kept.lit
    | with_reducible exact Kept.of1 ‹_›
    | with_reducible exact Kept.of2 ‹_›
    | with_reducible exact Kept.of2 (p := (_, _)) ‹_›
    | dsimp only
    | dsimp +zetaDelta only

theorem allocFirst_kept {s₀ : State} {a0 a1 a2} :
    Kept s₀ a2 → KeptO2 s₀ (allocFirst a0 a1 a2) := by
  intro h0
  induction a1 generalizing a2 with
  | nil =>
      unfold allocFirst
      repeat' first
        | with_reducible assumption
        | with_reducible refine allocTier_kept ?_
        | with_reducible refine Kept.eqO2 ‹_› ?_
        | extract_lets
        | split
        | with_reducible apply KeptO2.none
        | with_reducible apply KeptO2.some
        | with_reducible apply Kept2.mk
        | fail_if_no_progress with_reducible apply Kept.lit
        | with_reducible exact Kept.of1 ‹_›
        | with_reducible exact Kept.of2 ‹_›
        | with_reducible exact Kept.of2 (p := (_, _)) ‹_›
        | dsimp only
        | dsimp +zetaDelta only
  | cons _ _ ih =>
      unfold allocFirst
      repeat' first
        | with_reducible assumption
        | with_reducible apply ih
        | with_reducible refine allocTier_kept ?_
        | with_reducible refine Kept.eqO2 ‹_› ?_
        | extract_lets
        | split
        | with_reducible apply KeptO2.none
        | with_reducible apply KeptO2.some
        | with_reducible apply Kept2.mk
        | fail_if_no_progress with_reducible apply Kept.lit
        | with_reducible exact Kept.of1 ‹_›
        | with_reducible exact Kept.of2 ‹_›
        | with_reducible exact Kept.of2 (p := (_, _)) ‹_›
        | dsimp only
        | dsimp +zetaDelta only

theorem zeroAlloc_kept {s₀ : State} {a0 a1 a2} :
    Kept s₀ a2 → KeptO2 s₀ (zeroAlloc a0 a1 a2) := by
  intro h0
  unfold zeroAlloc
  repeat' first
    | with_reducible assumption
    | with_reducible refine allocFirst_kept ?_
    | with_reducible refine Kept.eqO2 ‹_› ?_
    | with_reducible refine KeptO2.mapO ?_ (fun _ _ => ?_)
    | with_reducible refine KeptO2.map (fun _ => ?_)
    | with_reducible refine KeptO.map (fun _ => ?_)
    | extract_lets
    | split
    | with_reducible apply KeptO2.none
    | with_reducible apply KeptO2.some
    | with_reducible apply Kept2.mk
    | fail_if_no_progress with_reducible apply Kept.lit
    | with_reducible exact Kept.of1 ‹_›
    | with_reducible exact Kept.of2 ‹_›
    | with_reducible exact Kept.of2 (p := (_, _)) ‹_›
    | dsimp only
    | dsimp +zetaDelta only

theorem usePage_kept {s₀ : State} {a0 a1} :
    Kept s₀ a1 → Kept s₀ (usePage a0 a1) := by
  intro h0
  unfold usePage
  repeat' first
    | with_reducible assumption
    | extract_lets
    | split
    | fail_if_no_progress with_reducible apply Kept.lit
    | with_reducible exact Kept.of1 ‹_›
    | with_reducible exact Kept.of2 ‹_›
    | with_reducible exact Kept.of2 (p := (_, _)) ‹_›
    | dsimp only
    | dsimp +zetaDelta only

theorem readyWrite_kept {s₀ : State} {a0 a1} :
    Kept s₀ a1 → Kept1 s₀ (readyWrite a0 a1) := by
  intro h0
  unfold readyWrite
  repeat' first
    | with_reducible assumption
    | with_reducible refine zeroAlloc_kept ?_
    | with_reducible refine usePage_kept ?_
    | with_reducible refine changePage_kept ?_
    | with_reducible refine setPage_kept ?_
    | with_reducible refine Kept.getD ?_ ?_
    | with_reducible refine Kept.eqO2 ‹_› ?_
    | extract_lets
    | split
    | with_reducible apply Kept1.mk
    | fail_if_no_progress with_reducible apply Kept.lit
    | with_reducible exact Kept.of1 ‹_›
    | with_reducible exact Kept.of2 ‹_›
    | with_reducible exact Kept.of2 (p := (_, _)) ‹_›
    | dsimp only
    | dsimp +zetaDelta only

theorem engineMeets_kept {s₀ : State} {a0 a1 a2 a3} :
    Kept s₀ a3 → Kept s₀ (engineMeets a0 a1 a2 a3) := by
  intro h0
  unfold engineMeets
  repeat' first
    | with_reducible assumption
    | with_reducible refine modVtx_kept ?_
    | extract_lets
    | split
    | fail_if_no_progress with_reducible apply Kept.lit
    | with_reducible exact Kept.of1 ‹_›
    | with_reducible exact Kept.of2 ‹_›
    | with_reducible exact Kept.of2 (p := (_, _)) ‹_›
    | dsimp only
    | dsimp +zetaDelta only

theorem dirFree_kept {s₀ : State} {a0 a1} :
    Kept s₀ a1 → Kept s₀ (dirFree a0 a1) := by
  intro h0
  unfold dirFree
  repeat' first
    | with_reducible assumption
    | with_reducible refine modVtx_kept ?_
    | extract_lets
    | split
    | fail_if_no_progress with_reducible apply Kept.lit
    | with_reducible exact Kept.of1 ‹_›
    | with_reducible exact Kept.of2 ‹_›
    | with_reducible exact Kept.of2 (p := (_, _)) ‹_›
    | dsimp only
    | dsimp +zetaDelta only

theorem send_kept {s₀ : State} {a0 a1 a2 a3} :
    Kept s₀ a3 → Kept s₀ (send a0 a1 a2 a3) := by
  intro h0
  unfold send
  repeat' first
    | with_reducible assumption
    | with_reducible refine emit_kept ?_
    | extract_lets
    | split
    | fail_if_no_progress with_reducible apply Kept.lit
    | with_reducible exact Kept.of1 ‹_›
    | with_reducible exact Kept.of2 ‹_›
    | with_reducible exact Kept.of2 (p := (_, _)) ‹_›
    | dsimp only
    | dsimp +zetaDelta only

theorem sendSnoop_kept {s₀ : State} {a0 a1 a2 a3 a4 a5} :
    Kept s₀ a5 → Kept s₀ (sendSnoop a0 a1 a2 a3 a4 a5) := by
  intro h0
  unfold sendSnoop
  repeat' first
    | with_reducible assumption
    | with_reducible refine send_kept ?_
    | extract_lets
    | split
    | fail_if_no_progress with_reducible apply Kept.lit
    | with_reducible exact Kept.of1 ‹_›
    | with_reducible exact Kept.of2 ‹_›
    | with_reducible exact Kept.of2 (p := (_, _)) ‹_›
    | dsimp only
    | dsimp +zetaDelta only

theorem engineWrite1_kept {s₀ : State} {a0 a1 a2 a3} :
    Kept s₀ a3 → Kept1 s₀ (engineWrite1 a0 a1 a2 a3) := by
  intro h0
  unfold engineWrite1
  repeat' first
    | with_reducible assumption
    | with_reducible refine engineMeets_kept ?_
    | with_reducible refine dirFree_kept ?_
    | with_reducible refine sendSnoop_kept ?_
    | with_reducible refine Kept.foldl ?_ (fun _ _ _ => ?_)
    | with_reducible refine Kept1.foldl ?_ (fun _ _ _ => ?_)
    | with_reducible refine Kept.fold1 ?_ (fun _ _ _ => ?_)
    | with_reducible refine Kept.eq1 ‹_› ?_
    | extract_lets
    | split
    | with_reducible apply Kept1.mk
    | fail_if_no_progress with_reducible apply Kept.lit
    | with_reducible exact Kept.of1 ‹_›
    | with_reducible exact Kept.of2 ‹_›
    | with_reducible exact Kept.of2 (p := (_, _)) ‹_›
    | dsimp only
    | dsimp +zetaDelta only

theorem noteWrite_kept {s₀ : State} {a0 a1 a2 a3} :
    Kept s₀ a3 → Kept s₀ (noteWrite a0 a1 a2 a3) := by
  intro h0
  unfold noteWrite
  repeat' first
    | with_reducible assumption
    | extract_lets
    | split
    | fail_if_no_progress with_reducible apply Kept.lit
    | with_reducible exact Kept.of1 ‹_›
    | with_reducible exact Kept.of2 ‹_›
    | with_reducible exact Kept.of2 (p := (_, _)) ‹_›
    | dsimp only
    | dsimp +zetaDelta only

theorem putBlock_kept {s₀ : State} {a0 a1 a2 a3 a4 a5} :
    Kept s₀ a5 → Kept s₀ (putBlock a0 a1 a2 a3 a4 a5) := by
  intro h0
  unfold putBlock
  split
  extract_lets _ u
  have hu : Kept s₀ u := setBlk_kept ⟨h0.1, fun m => memStore_wf _ _ (h0.2 m)⟩
  split
  · exact modFld_kept hu
  · exact hu

theorem writeBlock_kept {s₀ : State} {a0 a1 a2 a3 a4 a5 a6} :
    Kept s₀ a6 → Kept1 s₀ (writeBlock a0 a1 a2 a3 a4 a5 a6) := by
  intro h0
  unfold writeBlock
  repeat' first
    | with_reducible assumption
    | with_reducible refine putBlock_kept ?_
    | with_reducible refine logPoison_kept ?_
    | with_reducible refine setBlk_kept ?_
    | with_reducible refine countFail_kept ?_
    | with_reducible refine Kept.getD ?_ ?_
    | extract_lets
    | split
    | with_reducible apply Kept1.mk
    | fail_if_no_progress with_reducible apply Kept.lit
    | with_reducible exact Kept.of1 ‹_›
    | with_reducible exact Kept.of2 ‹_›
    | with_reducible exact Kept.of2 (p := (_, _)) ‹_›
    | dsimp only
    | dsimp +zetaDelta only

theorem foldWriteOpt_kept {s₀ : State} {a0 a1 a2 a3 a4 a5 a6} :
    Kept s₀ a6 → Kept1 s₀ (foldWriteOpt a0 a1 a2 a3 a4 a5 a6) := by
  intro h0
  unfold foldWriteOpt
  repeat' first
    | with_reducible assumption
    | with_reducible refine noteWrite_kept ?_
    | with_reducible refine writeBlock_kept ?_
    | with_reducible refine Kept.of1 (p := writeBlock _ _ _ _ _ _ _) (writeBlock_kept ?_)
    | with_reducible refine modFld_kept ?_
    | with_reducible refine Kept.foldl ?_ (fun _ _ _ => ?_)
    | with_reducible refine Kept1.foldl ?_ (fun _ _ _ => ?_)
    | with_reducible refine Kept.fold1 ?_ (fun _ _ _ => ?_)
    | with_reducible refine Kept.eq1 ‹_› ?_
    | extract_lets
    | split
    | with_reducible apply Kept1.mk
    | fail_if_no_progress with_reducible apply Kept.lit
    | with_reducible exact Kept.of1 ‹_›
    | with_reducible exact Kept.of2 ‹_›
    | with_reducible exact Kept.of2 (p := (_, _)) ‹_›
    | dsimp only
    | dsimp +zetaDelta only

theorem foldWrite_kept {s₀ : State} {a0 a1 a2 a3 a4 a5 a6} :
    Kept s₀ a6 → Kept1 s₀ (foldWrite a0 a1 a2 a3 a4 a5 a6) := by
  intro h0
  unfold foldWrite
  repeat' first
    | with_reducible assumption
    | with_reducible refine foldWriteOpt_kept ?_
    | with_reducible refine Kept.of1 (p := foldWriteOpt _ _ _ _ _ _ _) (foldWriteOpt_kept ?_)
    | with_reducible refine Kept.eq1 ‹_› ?_
    | extract_lets
    | split
    | with_reducible apply Kept1.mk
    | fail_if_no_progress with_reducible apply Kept.lit
    | with_reducible exact Kept.of1 ‹_›
    | with_reducible exact Kept.of2 ‹_›
    | with_reducible exact Kept.of2 (p := (_, _)) ‹_›
    | dsimp only
    | dsimp +zetaDelta only

theorem engineWriteCoh_kept {s₀ : State} {a0 a1 a2 a3 a4} :
    Kept s₀ a4 → Kept s₀ (engineWriteCoh a0 a1 a2 a3 a4) := by
  intro h0
  unfold engineWriteCoh
  repeat' first
    | with_reducible assumption
    | with_reducible refine engineWrite1_kept ?_
    | with_reducible refine Kept.of1 (p := engineWrite1 _ _ _ _) (engineWrite1_kept ?_)
    | with_reducible refine useFresh_kept ?_
    | with_reducible refine foldWrite_kept ?_
    | with_reducible refine Kept.of1 (p := foldWrite _ _ _ _ _ _ _) (foldWrite_kept ?_)
    | with_reducible refine Kept.foldl ?_ (fun _ _ _ => ?_)
    | with_reducible refine Kept1.foldl ?_ (fun _ _ _ => ?_)
    | with_reducible refine Kept.fold1 ?_ (fun _ _ _ => ?_)
    | with_reducible refine Kept.eq1 ‹_› ?_
    | extract_lets
    | split
    | with_reducible apply Kept1.mk
    | fail_if_no_progress with_reducible apply Kept.lit
    | with_reducible exact Kept.of1 ‹_›
    | with_reducible exact Kept.of2 ‹_›
    | with_reducible exact Kept.of2 (p := (_, _)) ‹_›
    | dsimp only
    | dsimp +zetaDelta only

theorem writePieces_kept {s₀ : State} {a0 a1 a2 a3 a4 a5} :
    Kept s₀ a4 → Kept1 s₀ (writePieces a0 a1 a2 a3 a4 a5) := by
  intro h0
  induction a2 generalizing a3 a4 a5 with
  | nil =>
      unfold writePieces
      repeat' first
        | with_reducible assumption
        | with_reducible refine Kept.of1 (p := writePieces _ _ _ _ _ _) ?_
        | with_reducible refine translate_kept ?_
        | with_reducible refine Kept.of1 (p := translate _ _) (translate_kept ?_)
        | with_reducible refine engineDown_kept ?_
        | with_reducible refine emit_kept ?_
        | with_reducible refine readyWrite_kept ?_
        | with_reducible refine Kept.of1 (p := readyWrite _ _) (readyWrite_kept ?_)
        | with_reducible refine engineWriteCoh_kept ?_
        | with_reducible refine foldWrite_kept ?_
        | with_reducible refine Kept.of1 (p := foldWrite _ _ _ _ _ _ _) (foldWrite_kept ?_)
        | with_reducible refine Kept.eq1 ‹_› ?_
        | extract_lets
        | split
        | with_reducible apply Kept1.mk
        | fail_if_no_progress with_reducible apply Kept.lit
        | with_reducible exact Kept.of1 ‹_›
        | with_reducible exact Kept.of2 ‹_›
        | with_reducible exact Kept.of2 (p := (_, _)) ‹_›
        | dsimp only
        | dsimp +zetaDelta only
  | cons _ _ ih =>
      unfold writePieces
      repeat' first
        | with_reducible assumption
        | with_reducible apply ih
        | with_reducible refine Kept.of1 (p := writePieces _ _ _ _ _ _) ?_
        | with_reducible refine translate_kept ?_
        | with_reducible refine Kept.of1 (p := translate _ _) (translate_kept ?_)
        | with_reducible refine engineDown_kept ?_
        | with_reducible refine emit_kept ?_
        | with_reducible refine readyWrite_kept ?_
        | with_reducible refine Kept.of1 (p := readyWrite _ _) (readyWrite_kept ?_)
        | with_reducible refine engineWriteCoh_kept ?_
        | with_reducible refine foldWrite_kept ?_
        | with_reducible refine Kept.of1 (p := foldWrite _ _ _ _ _ _ _) (foldWrite_kept ?_)
        | with_reducible refine Kept.eq1 ‹_› ?_
        | extract_lets
        | split
        | with_reducible apply Kept1.mk
        | fail_if_no_progress with_reducible apply Kept.lit
        | with_reducible exact Kept.of1 ‹_›
        | with_reducible exact Kept.of2 ‹_›
        | with_reducible exact Kept.of2 (p := (_, _)) ‹_›
        | dsimp only
        | dsimp +zetaDelta only

theorem engineWriteAs_kept {s₀ : State} {a0 a1 a2 a3 a4 a5 a6} :
    Kept s₀ a6 → Kept1 s₀ (engineWriteAs a0 a1 a2 a3 a4 a5 a6) := by
  intro h0
  unfold engineWriteAs
  repeat' first
    | with_reducible assumption
    | with_reducible refine writePieces_kept ?_
    | with_reducible refine Kept.of1 (p := writePieces _ _ _ _ _ _) (writePieces_kept ?_)
    | with_reducible refine Kept.eq1 ‹_› ?_
    | extract_lets
    | split
    | with_reducible apply Kept1.mk
    | fail_if_no_progress with_reducible apply Kept.lit
    | with_reducible exact Kept.of1 ‹_›
    | with_reducible exact Kept.of2 ‹_›
    | with_reducible exact Kept.of2 (p := (_, _)) ‹_›
    | dsimp only
    | dsimp +zetaDelta only

theorem cenWrite_kept {s₀ : State} {a0 a1 a2 a3 a4} :
    Kept s₀ a4 → Kept1 s₀ (cenWrite a0 a1 a2 a3 a4) := by
  intro h0
  unfold cenWrite
  repeat' first
    | with_reducible assumption
    | with_reducible refine engineWriteAs_kept ?_
    | with_reducible refine Kept.of1 (p := engineWriteAs _ _ _ _ _ _ _) (engineWriteAs_kept ?_)
    | with_reducible refine Kept.eq1 ‹_› ?_
    | extract_lets
    | split
    | with_reducible apply Kept1.mk
    | fail_if_no_progress with_reducible apply Kept.lit
    | with_reducible exact Kept.of1 ‹_›
    | with_reducible exact Kept.of2 ‹_›
    | with_reducible exact Kept.of2 (p := (_, _)) ‹_›
    | dsimp only
    | dsimp +zetaDelta only

theorem writeLive_kept {s₀ : State} {a0 a1 a2} :
    Kept s₀ a2 → Kept1 s₀ (writeLive a0 a1 a2) := by
  intro h0
  unfold writeLive
  repeat' first
    | with_reducible assumption
    | with_reducible refine cenWrite_kept ?_
    | with_reducible refine Kept.of1 (p := cenWrite _ _ _ _ _) (cenWrite_kept ?_)
    | with_reducible refine Kept.eq1 ‹_› ?_
    | extract_lets
    | split
    | with_reducible apply Kept1.mk
    | fail_if_no_progress with_reducible apply Kept.lit
    | with_reducible exact Kept.of1 ‹_›
    | with_reducible exact Kept.of2 ‹_›
    | with_reducible exact Kept.of2 (p := (_, _)) ‹_›
    | dsimp only
    | dsimp +zetaDelta only

theorem freeIdx_kept {s₀ : State} {a0 a1} :
    Kept s₀ a1 → Kept s₀ (freeIdx a0 a1) := by
  intro h0
  unfold freeIdx
  repeat' first
    | with_reducible assumption
    | with_reducible refine modCen_kept ?_
    | with_reducible refine setIdx_kept ?_
    | extract_lets
    | split
    | fail_if_no_progress with_reducible apply Kept.lit
    | with_reducible exact Kept.of1 ‹_›
    | with_reducible exact Kept.of2 ‹_›
    | with_reducible exact Kept.of2 (p := (_, _)) ‹_›
    | dsimp only
    | dsimp +zetaDelta only

theorem closeNow_kept {s₀ : State} {a0 a1 a2 a3} :
    Kept s₀ a3 → Kept s₀ (closeNow a0 a1 a2 a3) := by
  intro h0
  unfold closeNow
  repeat' first
    | with_reducible assumption
    | with_reducible refine writeLive_kept ?_
    | with_reducible refine Kept.of1 (p := writeLive _ _ _) (writeLive_kept ?_)
    | with_reducible refine setIdx_kept ?_
    | with_reducible refine freeIdx_kept ?_
    | with_reducible refine cenFinish_kept ?_
    | with_reducible refine Kept.eq1 ‹_› ?_
    | extract_lets
    | split
    | with_reducible apply Kept1.mk
    | fail_if_no_progress with_reducible apply Kept.lit
    | with_reducible exact Kept.of1 ‹_›
    | with_reducible exact Kept.of2 ‹_›
    | with_reducible exact Kept.of2 (p := (_, _)) ‹_›
    | dsimp only
    | dsimp +zetaDelta only

theorem engineRead1_kept {s₀ : State} {a0 a1 a2 a3 a4} :
    Kept s₀ a4 → Kept1 s₀ (engineRead1 a0 a1 a2 a3 a4) := by
  intro h0
  unfold engineRead1
  repeat' first
    | with_reducible assumption
    | with_reducible refine engineMeets_kept ?_
    | with_reducible refine sendSnoop_kept ?_
    | with_reducible refine Kept.foldl ?_ (fun _ _ _ => ?_)
    | with_reducible refine Kept1.foldl ?_ (fun _ _ _ => ?_)
    | with_reducible refine Kept.fold1 ?_ (fun _ _ _ => ?_)
    | with_reducible refine Kept.eq1 ‹_› ?_
    | extract_lets
    | split
    | with_reducible apply Kept1.mk
    | fail_if_no_progress with_reducible apply Kept.lit
    | with_reducible exact Kept.of1 ‹_›
    | with_reducible exact Kept.of2 ‹_›
    | with_reducible exact Kept.of2 (p := (_, _)) ‹_›
    | dsimp only
    | dsimp +zetaDelta only

theorem freeSince_kept {s₀ : State} {a0 a1 a2 a3} :
    Kept s₀ a3 → Kept1 s₀ (freeSince a0 a1 a2 a3) := by
  intro h0
  unfold freeSince
  repeat' first
    | with_reducible assumption
    | with_reducible refine useFresh_kept ?_
    | extract_lets
    | split
    | with_reducible apply Kept1.mk
    | fail_if_no_progress with_reducible apply Kept.lit
    | with_reducible exact Kept.of1 ‹_›
    | with_reducible exact Kept.of2 ‹_›
    | with_reducible exact Kept.of2 (p := (_, _)) ‹_›
    | dsimp only
    | dsimp +zetaDelta only

theorem readPieces_kept {s₀ : State} {a0 a1 a2 a3 a4 a5} :
    Kept s₀ a3 → Kept1 s₀ (readPieces a0 a1 a2 a3 a4 a5) := by
  intro h0
  induction a1 generalizing a2 a3 a4 a5 with
  | nil =>
      unfold readPieces
      repeat' first
        | with_reducible assumption
        | with_reducible refine Kept.of1 (p := readPieces _ _ _ _ _ _) ?_
        | with_reducible refine translate_kept ?_
        | with_reducible refine Kept.of1 (p := translate _ _) (translate_kept ?_)
        | with_reducible refine engineDown_kept ?_
        | with_reducible refine useFresh_kept ?_
        | with_reducible refine engineRead1_kept ?_
        | with_reducible refine Kept.of1 (p := engineRead1 _ _ _ _ _) (engineRead1_kept ?_)
        | with_reducible refine foldRead_kept ?_
        | with_reducible refine Kept.of1 (p := foldRead _ _ _ _ _) (foldRead_kept ?_)
        | with_reducible refine freeSince_kept ?_
        | with_reducible refine Kept.of1 (p := freeSince _ _ _ _) (freeSince_kept ?_)
        | with_reducible refine Kept.eq1 ‹_› ?_
        | extract_lets
        | split
        | with_reducible apply Kept1.mk
        | fail_if_no_progress with_reducible apply Kept.lit
        | with_reducible exact Kept.of1 ‹_›
        | with_reducible exact Kept.of2 ‹_›
        | with_reducible exact Kept.of2 (p := (_, _)) ‹_›
        | dsimp only
        | dsimp +zetaDelta only
  | cons _ _ ih =>
      unfold readPieces
      repeat' first
        | with_reducible assumption
        | with_reducible apply ih
        | with_reducible refine Kept.of1 (p := readPieces _ _ _ _ _ _) ?_
        | with_reducible refine translate_kept ?_
        | with_reducible refine Kept.of1 (p := translate _ _) (translate_kept ?_)
        | with_reducible refine engineDown_kept ?_
        | with_reducible refine useFresh_kept ?_
        | with_reducible refine engineRead1_kept ?_
        | with_reducible refine Kept.of1 (p := engineRead1 _ _ _ _ _) (engineRead1_kept ?_)
        | with_reducible refine foldRead_kept ?_
        | with_reducible refine Kept.of1 (p := foldRead _ _ _ _ _) (foldRead_kept ?_)
        | with_reducible refine freeSince_kept ?_
        | with_reducible refine Kept.of1 (p := freeSince _ _ _ _) (freeSince_kept ?_)
        | with_reducible refine Kept.eq1 ‹_› ?_
        | extract_lets
        | split
        | with_reducible apply Kept1.mk
        | fail_if_no_progress with_reducible apply Kept.lit
        | with_reducible exact Kept.of1 ‹_›
        | with_reducible exact Kept.of2 ‹_›
        | with_reducible exact Kept.of2 (p := (_, _)) ‹_›
        | dsimp only
        | dsimp +zetaDelta only

theorem engineReadFrom_kept {s₀ : State} {a0 a1 a2 a3 a4 a5 a6 a7} :
    Kept s₀ a7 → Kept1 s₀ (engineReadFrom a0 a1 a2 a3 a4 a5 a6 a7) := by
  intro h0
  unfold engineReadFrom
  repeat' first
    | with_reducible assumption
    | with_reducible refine readPieces_kept ?_
    | with_reducible refine Kept.of1 (p := readPieces _ _ _ _ _ _) (readPieces_kept ?_)
    | with_reducible refine Kept.eq1 ‹_› ?_
    | extract_lets
    | split
    | with_reducible apply Kept1.mk
    | fail_if_no_progress with_reducible apply Kept.lit
    | with_reducible exact Kept.of1 ‹_›
    | with_reducible exact Kept.of2 ‹_›
    | with_reducible exact Kept.of2 (p := (_, _)) ‹_›
    | dsimp only
    | dsimp +zetaDelta only

theorem engineReadAs_kept {s₀ : State} {a0 a1 a2 a3 a4 a5 a6} :
    Kept s₀ a6 → Kept1 s₀ (engineReadAs a0 a1 a2 a3 a4 a5 a6) := by
  intro h0
  unfold engineReadAs
  repeat' first
    | with_reducible assumption
    | with_reducible refine engineReadFrom_kept ?_
    | with_reducible refine Kept.of1 (p := engineReadFrom _ _ _ _ _ _ _ _) (engineReadFrom_kept ?_)
    | with_reducible refine Kept.eq1 ‹_› ?_
    | extract_lets
    | split
    | with_reducible apply Kept1.mk
    | fail_if_no_progress with_reducible apply Kept.lit
    | with_reducible exact Kept.of1 ‹_›
    | with_reducible exact Kept.of2 ‹_›
    | with_reducible exact Kept.of2 (p := (_, _)) ‹_›
    | dsimp only
    | dsimp +zetaDelta only

theorem cenRead_kept {s₀ : State} {a0 a1 a2 a3} :
    Kept s₀ a3 → Kept1 s₀ (cenRead a0 a1 a2 a3) := by
  intro h0
  unfold cenRead
  repeat' first
    | with_reducible assumption
    | with_reducible refine engineReadAs_kept ?_
    | with_reducible refine Kept.of1 (p := engineReadAs _ _ _ _ _ _ _) (engineReadAs_kept ?_)
    | with_reducible refine Kept.eq1 ‹_› ?_
    | extract_lets
    | split
    | with_reducible apply Kept1.mk
    | fail_if_no_progress with_reducible apply Kept.lit
    | with_reducible exact Kept.of1 ‹_›
    | with_reducible exact Kept.of2 ‹_›
    | with_reducible exact Kept.of2 (p := (_, _)) ‹_›
    | dsimp only
    | dsimp +zetaDelta only

theorem admitSearch_kept {s₀ : State} {a0 a1 a2} :
    Kept s₀ a2 → KeptO s₀ (admitSearch a0 a1 a2) := by
  intro h0
  unfold admitSearch
  repeat' first
    | with_reducible assumption
    | with_reducible refine cenFinish_kept ?_
    | with_reducible refine cenRead_kept ?_
    | with_reducible refine Kept.of1 (p := cenRead _ _ _ _) (cenRead_kept ?_)
    | with_reducible refine modCen_kept ?_
    | with_reducible refine Kept.eq1 ‹_› ?_
    | extract_lets
    | split
    | with_reducible apply KeptO.none
    | with_reducible apply KeptO.some
    | with_reducible apply Kept1.mk
    | fail_if_no_progress with_reducible apply Kept.lit
    | with_reducible exact Kept.of1 ‹_›
    | with_reducible exact Kept.of2 ‹_›
    | with_reducible exact Kept.of2 (p := (_, _)) ‹_›
    | dsimp only
    | dsimp +zetaDelta only

theorem cenAgain_kept {s₀ : State} {a0 a1} :
    Kept s₀ a1 → Kept s₀ (cenAgain a0 a1) := by
  intro h0
  unfold cenAgain
  repeat' first
    | with_reducible assumption
    | with_reducible refine modCen_kept ?_
    | extract_lets
    | split
    | fail_if_no_progress with_reducible apply Kept.lit
    | with_reducible exact Kept.of1 ‹_›
    | with_reducible exact Kept.of2 ‹_›
    | with_reducible exact Kept.of2 (p := (_, _)) ‹_›
    | dsimp only
    | dsimp +zetaDelta only

theorem admitWaiting_kept {s₀ : State} {a0 a1} :
    Kept s₀ a1 → Kept s₀ (admitWaiting a0 a1) := by
  intro h0
  unfold admitWaiting
  repeat' first
    | with_reducible assumption
    | with_reducible refine admitSearch_kept ?_
    | with_reducible refine modCen_kept ?_
    | with_reducible refine cenClear_kept ?_
    | with_reducible refine cenAgain_kept ?_
    | with_reducible refine Kept.eqO ‹_› ?_
    | extract_lets
    | split
    | fail_if_no_progress with_reducible apply Kept.lit
    | with_reducible exact Kept.of1 ‹_›
    | with_reducible exact Kept.of2 ‹_›
    | with_reducible exact Kept.of2 (p := (_, _)) ‹_›
    | dsimp only
    | dsimp +zetaDelta only

theorem endSearch_kept {s₀ : State} {a0 a1 a2} :
    Kept s₀ a2 → Kept s₀ (endSearch a0 a1 a2) := by
  intro h0
  unfold endSearch
  repeat' first
    | with_reducible assumption
    | with_reducible refine modCen_kept ?_
    | with_reducible refine modCStat_kept ?_
    | with_reducible refine cenFinish_kept ?_
    | with_reducible refine closeNow_kept ?_
    | with_reducible refine admitWaiting_kept ?_
    | extract_lets
    | split
    | fail_if_no_progress with_reducible apply Kept.lit
    | with_reducible exact Kept.of1 ‹_›
    | with_reducible exact Kept.of2 ‹_›
    | with_reducible exact Kept.of2 (p := (_, _)) ‹_›
    | dsimp only
    | dsimp +zetaDelta only

theorem cenEnd_kept {s₀ : State} {a0 a1} :
    Kept s₀ a1 → Kept s₀ (cenEnd a0 a1) := by
  intro h0
  unfold cenEnd
  repeat' first
    | with_reducible assumption
    | with_reducible refine cenFinish_kept ?_
    | with_reducible refine cenClear_kept ?_
    | with_reducible refine modCen_kept ?_
    | with_reducible refine setIdx_kept ?_
    | with_reducible refine endSearch_kept ?_
    | with_reducible refine Kept.foldl ?_ (fun _ _ _ => ?_)
    | with_reducible refine Kept1.foldl ?_ (fun _ _ _ => ?_)
    | with_reducible refine Kept.fold1 ?_ (fun _ _ _ => ?_)
    | with_reducible refine Kept.eq1 ‹_› ?_
    | extract_lets
    | split
    | with_reducible apply Kept1.mk
    | fail_if_no_progress with_reducible apply Kept.lit
    | with_reducible exact Kept.of1 ‹_›
    | with_reducible exact Kept.of2 ‹_›
    | with_reducible exact Kept.of2 (p := (_, _)) ‹_›
    | dsimp only
    | dsimp +zetaDelta only

theorem modApx_kept {s₀ : State} {a0 a1} :
    Kept s₀ a1 → Kept s₀ (modApx a0 a1) := by
  intro h0
  unfold modApx
  repeat' first
    | with_reducible assumption
    | extract_lets
    | split
    | fail_if_no_progress with_reducible apply Kept.lit
    | with_reducible exact Kept.of1 ‹_›
    | with_reducible exact Kept.of2 ‹_›
    | with_reducible exact Kept.of2 (p := (_, _)) ‹_›
    | dsimp only
    | dsimp +zetaDelta only

theorem apexEnd_kept {s₀ : State} {a0 a1 a2} :
    Kept s₀ a2 → Kept s₀ (apexEnd a0 a1 a2) := by
  intro h0
  unfold apexEnd
  repeat' first
    | with_reducible assumption
    | with_reducible refine modApx_kept ?_
    | extract_lets
    | split
    | fail_if_no_progress with_reducible apply Kept.lit
    | with_reducible exact Kept.of1 ‹_›
    | with_reducible exact Kept.of2 ‹_›
    | with_reducible exact Kept.of2 (p := (_, _)) ‹_›
    | dsimp only
    | dsimp +zetaDelta only

theorem modOrb_kept {s₀ : State} {a0 a1} :
    Kept s₀ a1 → Kept s₀ (modOrb a0 a1) := by
  intro h0
  unfold modOrb
  repeat' first
    | with_reducible assumption
    | extract_lets
    | split
    | fail_if_no_progress with_reducible apply Kept.lit
    | with_reducible exact Kept.of1 ‹_›
    | with_reducible exact Kept.of2 ‹_›
    | with_reducible exact Kept.of2 (p := (_, _)) ‹_›
    | dsimp only
    | dsimp +zetaDelta only

theorem setSess_kept {s₀ : State} {a0 a1 a2} :
    Kept s₀ a2 → Kept s₀ (setSess a0 a1 a2) := by
  intro h0
  unfold setSess
  repeat' first
    | with_reducible assumption
    | with_reducible refine modOrb_kept ?_
    | extract_lets
    | split
    | fail_if_no_progress with_reducible apply Kept.lit
    | with_reducible exact Kept.of1 ‹_›
    | with_reducible exact Kept.of2 ‹_›
    | with_reducible exact Kept.of2 (p := (_, _)) ‹_›
    | dsimp only
    | dsimp +zetaDelta only

theorem sessRelease_kept {s₀ : State} {a0 a1} :
    Kept s₀ a1 → Kept s₀ (sessRelease a0 a1) := by
  intro h0
  unfold sessRelease
  repeat' first
    | with_reducible assumption
    | with_reducible refine setSess_kept ?_
    | extract_lets
    | split
    | fail_if_no_progress with_reducible apply Kept.lit
    | with_reducible exact Kept.of1 ‹_›
    | with_reducible exact Kept.of2 ‹_›
    | with_reducible exact Kept.of2 (p := (_, _)) ‹_›
    | dsimp only
    | dsimp +zetaDelta only

theorem modConeEng_kept {s₀ : State} {a0 a1 a2} :
    Kept s₀ a2 → Kept s₀ (modConeEng a0 a1 a2) := by
  intro h0
  unfold modConeEng
  repeat' first
    | with_reducible assumption
    | extract_lets
    | split
    | fail_if_no_progress with_reducible apply Kept.lit
    | with_reducible exact Kept.of1 ‹_›
    | with_reducible exact Kept.of2 ‹_›
    | with_reducible exact Kept.of2 (p := (_, _)) ‹_›
    | dsimp only
    | dsimp +zetaDelta only

theorem finishBatch_kept {s₀ : State} {a0 a1} :
    Kept s₀ a1 → Kept s₀ (finishBatch a0 a1) := by
  intro h0
  unfold finishBatch
  repeat' first
    | with_reducible assumption
    | with_reducible refine finishCmd_kept ?_
    | extract_lets
    | split
    | fail_if_no_progress with_reducible apply Kept.lit
    | with_reducible exact Kept.of1 ‹_›
    | with_reducible exact Kept.of2 ‹_›
    | with_reducible exact Kept.of2 (p := (_, _)) ‹_›
    | dsimp only
    | dsimp +zetaDelta only

theorem memberDone_kept {s₀ : State} {a0 a1 a2 a3} :
    Kept s₀ a3 → Kept s₀ (memberDone a0 a1 a2 a3) := by
  intro h0
  unfold memberDone
  repeat' first
    | with_reducible assumption
    | with_reducible refine engineWriteAs_kept ?_
    | with_reducible refine Kept.of1 (p := engineWriteAs _ _ _ _ _ _ _) (engineWriteAs_kept ?_)
    | with_reducible refine finishBatch_kept ?_
    | with_reducible refine Kept.eq1 ‹_› ?_
    | extract_lets
    | split
    | with_reducible apply Kept1.mk
    | fail_if_no_progress with_reducible apply Kept.lit
    | with_reducible exact Kept.of1 ‹_›
    | with_reducible exact Kept.of2 ‹_›
    | with_reducible exact Kept.of2 (p := (_, _)) ‹_›
    | dsimp only
    | dsimp +zetaDelta only

theorem setQuery_kept {s₀ : State} {a0 a1} :
    Kept s₀ a1 → Kept s₀ (setQuery a0 a1) := by
  intro h0
  unfold setQuery
  repeat' first
    | with_reducible assumption
    | extract_lets
    | split
    | fail_if_no_progress with_reducible apply Kept.lit
    | with_reducible exact Kept.of1 ‹_›
    | with_reducible exact Kept.of2 ‹_›
    | with_reducible exact Kept.of2 (p := (_, _)) ‹_›
    | dsimp only
    | dsimp +zetaDelta only

theorem admitNext_kept {s₀ : State} {a0 a1} :
    Kept s₀ a1 → Kept s₀ (admitNext a0 a1) := by
  intro h0
  unfold admitNext
  repeat' first
    | with_reducible assumption
    | with_reducible refine modConeEng_kept ?_
    | with_reducible refine setQuery_kept ?_
    | extract_lets
    | split
    | fail_if_no_progress with_reducible apply Kept.lit
    | with_reducible exact Kept.of1 ‹_›
    | with_reducible exact Kept.of2 ‹_›
    | with_reducible exact Kept.of2 (p := (_, _)) ‹_›
    | dsimp only
    | dsimp +zetaDelta only

theorem admitAll_kept {s₀ : State} {a0 a1} :
    Kept s₀ a1 → Kept s₀ (admitAll a0 a1) := by
  intro h0
  unfold admitAll
  repeat' first
    | with_reducible assumption
    | with_reducible refine admitNext_kept ?_
    | with_reducible refine Kept.foldl ?_ (fun _ _ _ => ?_)
    | with_reducible refine Kept1.foldl ?_ (fun _ _ _ => ?_)
    | with_reducible refine Kept.fold1 ?_ (fun _ _ _ => ?_)
    | with_reducible refine Kept.eq1 ‹_› ?_
    | extract_lets
    | split
    | with_reducible apply Kept1.mk
    | fail_if_no_progress with_reducible apply Kept.lit
    | with_reducible exact Kept.of1 ‹_›
    | with_reducible exact Kept.of2 ‹_›
    | with_reducible exact Kept.of2 (p := (_, _)) ‹_›
    | dsimp only
    | dsimp +zetaDelta only

theorem endQuery_kept {s₀ : State} {a0 a1 a2} :
    Kept s₀ a2 → Kept s₀ (endQuery a0 a1 a2) := by
  intro h0
  unfold endQuery
  repeat' first
    | with_reducible assumption
    | with_reducible refine sessRelease_kept ?_
    | with_reducible refine modConeEng_kept ?_
    | with_reducible refine memberDone_kept ?_
    | with_reducible refine finishCmd_kept ?_
    | with_reducible refine admitAll_kept ?_
    | extract_lets
    | split
    | fail_if_no_progress with_reducible apply Kept.lit
    | with_reducible exact Kept.of1 ‹_›
    | with_reducible exact Kept.of2 ‹_›
    | with_reducible exact Kept.of2 (p := (_, _)) ‹_›
    | dsimp only
    | dsimp +zetaDelta only

theorem coneEnd_kept {s₀ : State} {a0 a1} :
    Kept s₀ a1 → Kept s₀ (coneEnd a0 a1) := by
  intro h0
  unfold coneEnd
  repeat' first
    | with_reducible assumption
    | with_reducible refine finishCmd_kept ?_
    | with_reducible refine endQuery_kept ?_
    | with_reducible refine Kept.foldl ?_ (fun _ _ _ => ?_)
    | with_reducible refine Kept1.foldl ?_ (fun _ _ _ => ?_)
    | with_reducible refine Kept.fold1 ?_ (fun _ _ _ => ?_)
    | with_reducible refine Kept.eq1 ‹_› ?_
    | extract_lets
    | split
    | with_reducible apply Kept1.mk
    | fail_if_no_progress with_reducible apply Kept.lit
    | with_reducible exact Kept.of1 ‹_›
    | with_reducible exact Kept.of2 ‹_›
    | with_reducible exact Kept.of2 (p := (_, _)) ‹_›
    | dsimp only
    | dsimp +zetaDelta only

theorem setEng_kept {s₀ : State} {a0 a1 a2} :
    Kept s₀ a2 → Kept s₀ (setEng a0 a1 a2) := by
  intro h0
  unfold setEng
  repeat' first
    | with_reducible assumption
    | extract_lets
    | split
    | fail_if_no_progress with_reducible apply Kept.lit
    | with_reducible exact Kept.of1 ‹_›
    | with_reducible exact Kept.of2 ‹_›
    | with_reducible exact Kept.of2 (p := (_, _)) ‹_›
    | dsimp only
    | dsimp +zetaDelta only

theorem modEng_kept {s₀ : State} {a0 a1 a2} :
    Kept s₀ a2 → Kept s₀ (modEng a0 a1 a2) := by
  intro h0
  unfold modEng
  repeat' first
    | with_reducible assumption
    | with_reducible refine setEng_kept ?_
    | extract_lets
    | split
    | fail_if_no_progress with_reducible apply Kept.lit
    | with_reducible exact Kept.of1 ‹_›
    | with_reducible exact Kept.of2 ‹_›
    | with_reducible exact Kept.of2 (p := (_, _)) ‹_›
    | dsimp only
    | dsimp +zetaDelta only

theorem peerSent_kept {s₀ : State} {a0 a1 a2} :
    Kept s₀ a2 → Kept s₀ (peerSent a0 a1 a2) := by
  intro h0
  unfold peerSent
  repeat' first
    | with_reducible assumption
    | with_reducible refine qpSend_kept ?_
    | extract_lets
    | split
    | fail_if_no_progress with_reducible apply Kept.lit
    | with_reducible exact Kept.of1 ‹_›
    | with_reducible exact Kept.of2 ‹_›
    | with_reducible exact Kept.of2 (p := (_, _)) ‹_›
    | dsimp only
    | dsimp +zetaDelta only

theorem sendAborts_kept {s₀ : State} {a0 a1 a2} :
    Kept s₀ a2 → Kept s₀ (sendAborts a0 a1 a2) := by
  intro h0
  unfold sendAborts
  repeat' first
    | with_reducible assumption
    | with_reducible refine peerSent_kept ?_
    | with_reducible refine send_kept ?_
    | with_reducible refine Kept.foldl ?_ (fun _ _ _ => ?_)
    | with_reducible refine Kept1.foldl ?_ (fun _ _ _ => ?_)
    | with_reducible refine Kept.fold1 ?_ (fun _ _ _ => ?_)
    | with_reducible refine Kept.eq1 ‹_› ?_
    | extract_lets
    | split
    | with_reducible apply Kept1.mk
    | fail_if_no_progress with_reducible apply Kept.lit
    | with_reducible exact Kept.of1 ‹_›
    | with_reducible exact Kept.of2 ‹_›
    | with_reducible exact Kept.of2 (p := (_, _)) ‹_›
    | dsimp only
    | dsimp +zetaDelta only

theorem chdFinish_kept {s₀ : State} {a0 a1 a2} :
    Kept s₀ a2 → Kept s₀ (chdFinish a0 a1 a2) := by
  intro h0
  unfold chdFinish
  repeat' first
    | with_reducible assumption
    | with_reducible refine modEng_kept ?_
    | with_reducible refine finishCmd_kept ?_
    | extract_lets
    | split
    | fail_if_no_progress with_reducible apply Kept.lit
    | with_reducible exact Kept.of1 ‹_›
    | with_reducible exact Kept.of2 ‹_›
    | with_reducible exact Kept.of2 (p := (_, _)) ‹_›
    | dsimp only
    | dsimp +zetaDelta only

theorem chordEnd_kept {s₀ : State} {a0 a1} :
    Kept s₀ a1 → Kept s₀ (chordEnd a0 a1) := by
  intro h0
  unfold chordEnd
  repeat' first
    | with_reducible assumption
    | with_reducible refine finishCmd_kept ?_
    | with_reducible refine modEng_kept ?_
    | with_reducible refine sendAborts_kept ?_
    | with_reducible refine chdFinish_kept ?_
    | with_reducible refine Kept.foldl ?_ (fun _ _ _ => ?_)
    | with_reducible refine Kept1.foldl ?_ (fun _ _ _ => ?_)
    | with_reducible refine Kept.fold1 ?_ (fun _ _ _ => ?_)
    | with_reducible refine Kept.eq1 ‹_› ?_
    | extract_lets
    | split
    | with_reducible apply Kept1.mk
    | fail_if_no_progress with_reducible apply Kept.lit
    | with_reducible exact Kept.of1 ‹_›
    | with_reducible exact Kept.of2 ‹_›
    | with_reducible exact Kept.of2 (p := (_, _)) ‹_›
    | dsimp only
    | dsimp +zetaDelta only

theorem abandonEngines_kept {s₀ : State} {a0 a1} :
    Kept s₀ a1 → Kept s₀ (abandonEngines a0 a1) := by
  intro h0
  unfold abandonEngines
  repeat' first
    | with_reducible assumption
    | with_reducible refine cenEnd_kept ?_
    | with_reducible refine apexEnd_kept ?_
    | with_reducible refine coneEnd_kept ?_
    | with_reducible refine chordEnd_kept ?_
    | extract_lets
    | split
    | fail_if_no_progress with_reducible apply Kept.lit
    | with_reducible exact Kept.of1 ‹_›
    | with_reducible exact Kept.of2 ‹_›
    | with_reducible exact Kept.of2 (p := (_, _)) ‹_›
    | dsimp only
    | dsimp +zetaDelta only

theorem abandonMigr_kept {s₀ : State} {a0 a1} :
    Kept s₀ a1 → Kept s₀ (abandonMigr a0 a1) := by
  intro h0
  unfold abandonMigr
  repeat' first
    | with_reducible assumption
    | with_reducible refine setPage_kept ?_
    | extract_lets
    | split
    | fail_if_no_progress with_reducible apply Kept.lit
    | with_reducible exact Kept.of1 ‹_›
    | with_reducible exact Kept.of2 ‹_›
    | with_reducible exact Kept.of2 (p := (_, _)) ‹_›
    | dsimp only
    | dsimp +zetaDelta only

theorem setQueue_kept {s₀ : State} {a0 a1 a2 a3} :
    Kept s₀ a3 → Kept s₀ (setQueue a0 a1 a2 a3) := by
  intro h0
  unfold setQueue
  repeat' first
    | with_reducible assumption
    | extract_lets
    | split
    | fail_if_no_progress with_reducible apply Kept.lit
    | with_reducible exact Kept.of1 ‹_›
    | with_reducible exact Kept.of2 ‹_›
    | with_reducible exact Kept.of2 (p := (_, _)) ‹_›
    | dsimp only
    | dsimp +zetaDelta only

theorem returnCmd_kept {s₀ : State} {a0 a1 a2} :
    Kept s₀ a2 → Kept s₀ (returnCmd a0 a1 a2) := by
  intro h0
  unfold returnCmd
  repeat' first
    | with_reducible assumption
    | with_reducible refine setQueue_kept ?_
    | extract_lets
    | split
    | fail_if_no_progress with_reducible apply Kept.lit
    | with_reducible exact Kept.of1 ‹_›
    | with_reducible exact Kept.of2 ‹_›
    | with_reducible exact Kept.of2 (p := (_, _)) ‹_›
    | dsimp only
    | dsimp +zetaDelta only

theorem abandonSeqs_kept {s₀ : State} {a0 a1} :
    Kept s₀ a1 → Kept s₀ (abandonSeqs a0 a1) := by
  intro h0
  unfold abandonSeqs
  repeat' first
    | with_reducible assumption
    | with_reducible refine returnCmd_kept ?_
    | with_reducible refine setObj_kept ?_
    | with_reducible refine setSeq_kept ?_
    | with_reducible refine Kept.foldl ?_ (fun _ _ _ => ?_)
    | with_reducible refine Kept1.foldl ?_ (fun _ _ _ => ?_)
    | with_reducible refine Kept.fold1 ?_ (fun _ _ _ => ?_)
    | with_reducible refine Kept.eq1 ‹_› ?_
    | extract_lets
    | split
    | with_reducible apply Kept1.mk
    | fail_if_no_progress with_reducible apply Kept.lit
    | with_reducible exact Kept.of1 ‹_›
    | with_reducible exact Kept.of2 ‹_›
    | with_reducible exact Kept.of2 (p := (_, _)) ‹_›
    | dsimp only
    | dsimp +zetaDelta only

theorem endPresentations_kept {s₀ : State} {a0 a1} :
    Kept s₀ a1 → Kept s₀ (endPresentations a0 a1) := by
  intro h0
  unfold endPresentations
  repeat' first
    | with_reducible assumption
    | with_reducible refine modDom_kept ?_
    | with_reducible refine countMissed_kept ?_
    | with_reducible refine Kept.foldl ?_ (fun _ _ _ => ?_)
    | with_reducible refine Kept1.foldl ?_ (fun _ _ _ => ?_)
    | with_reducible refine Kept.fold1 ?_ (fun _ _ _ => ?_)
    | with_reducible refine Kept.eq1 ‹_› ?_
    | extract_lets
    | split
    | with_reducible apply Kept1.mk
    | fail_if_no_progress with_reducible apply Kept.lit
    | with_reducible exact Kept.of1 ‹_›
    | with_reducible exact Kept.of2 ‹_›
    | with_reducible exact Kept.of2 (p := (_, _)) ‹_›
    | dsimp only
    | dsimp +zetaDelta only

theorem commitSnap_kept {s₀ : State} {a0 a1 a2} :
    Kept s₀ a2 → Kept s₀ (commitSnap a0 a1 a2) := by
  intro h0
  unfold commitSnap
  repeat' first
    | with_reducible assumption
    | with_reducible refine setDom_kept ?_
    | extract_lets
    | split
    | fail_if_no_progress with_reducible apply Kept.lit
    | with_reducible exact Kept.of1 ‹_›
    | with_reducible exact Kept.of2 ‹_›
    | with_reducible exact Kept.of2 (p := (_, _)) ‹_›
    | dsimp only
    | dsimp +zetaDelta only

theorem stepSnapshot_kept {s₀ : State} {a0 a1 a2 a3} :
    Kept s₀ a3 → Kept s₀ (stepSnapshot a0 a1 a2 a3) := by
  intro h0
  unfold stepSnapshot
  repeat' first
    | with_reducible assumption
    | with_reducible refine modDom_kept ?_
    | with_reducible refine mirrorThen_kept (fun _ _ => ?_) ?_
    | with_reducible refine commitSnap_kept ?_
    | extract_lets
    | split
    | fail_if_no_progress with_reducible apply Kept.lit
    | with_reducible exact Kept.of1 ‹_›
    | with_reducible exact Kept.of2 ‹_›
    | with_reducible exact Kept.of2 (p := (_, _)) ‹_›
    | dsimp only
    | dsimp +zetaDelta only

theorem markSwap_kept {s₀ : State} {a0} :
    Kept s₀ a0 → Kept s₀ (markSwap a0) := by
  intro h0
  unfold markSwap
  repeat' first
    | with_reducible assumption
    | with_reducible refine KeptO2.mapO ?_ (fun _ _ => ?_)
    | with_reducible refine KeptO2.map (fun _ => ?_)
    | with_reducible refine KeptO.map (fun _ => ?_)
    | extract_lets
    | split
    | fail_if_no_progress with_reducible apply Kept.lit
    | with_reducible exact Kept.of1 ‹_›
    | with_reducible exact Kept.of2 ‹_›
    | with_reducible exact Kept.of2 (p := (_, _)) ‹_›
    | dsimp only
    | dsimp +zetaDelta only

theorem fireAngle_kept {s₀ : State} {a0 a1 a2} :
    Kept s₀ a2 → Kept s₀ (fireAngle a0 a1 a2) := by
  intro h0
  unfold fireAngle
  repeat' first
    | with_reducible assumption
    | with_reducible refine setDom_kept ?_
    | extract_lets
    | split
    | fail_if_no_progress with_reducible apply Kept.lit
    | with_reducible exact Kept.of1 ‹_›
    | with_reducible exact Kept.of2 ‹_›
    | with_reducible exact Kept.of2 (p := (_, _)) ‹_›
    | dsimp only
    | dsimp +zetaDelta only

theorem passRelease_kept {s₀ : State} {a0 a1 a2} :
    Kept s₀ a2 → Kept s₀ (passRelease a0 a1 a2) := by
  intro h0
  unfold passRelease
  repeat' first
    | with_reducible assumption
    | extract_lets
    | split
    | fail_if_no_progress with_reducible apply Kept.lit
    | with_reducible exact Kept.of1 ‹_›
    | with_reducible exact Kept.of2 ‹_›
    | with_reducible exact Kept.of2 (p := (_, _)) ‹_›
    | dsimp only
    | dsimp +zetaDelta only

end Sys2Proof.Machine
end

