-- ==== Sys2Proof/Laws/Kept2.lean ====
section
/-!
SUPPORT. The operations, markLate to holdBlocks in the order of their calls: each keeps the queue and the form of memory.
-/
namespace Sys2Proof.Machine

set_option linter.unusedTactic false
set_option linter.unreachableTactic false

theorem markLate_kept {s₀ : State} {a0 a1 a2} :
    Kept s₀ a2 → Kept s₀ (markLate a0 a1 a2) := by
  intro h0
  unfold markLate
  repeat' first
    | with_reducible assumption
    | with_reducible refine modPf_kept ?_
    | extract_lets
    | split
    | fail_if_no_progress with_reducible apply Kept.lit
    | with_reducible exact Kept.of1 ‹_›
    | with_reducible exact Kept.of2 ‹_›
    | with_reducible exact Kept.of2 (p := (_, _)) ‹_›
    | dsimp only
    | dsimp +zetaDelta only

theorem planeAngle_kept {s₀ : State} {a0 a1 a2} :
    Kept s₀ a2 → Kept s₀ (planeAngle a0 a1 a2) := by
  intro h0
  unfold planeAngle
  repeat' first
    | with_reducible assumption
    | with_reducible refine passRelease_kept ?_
    | with_reducible refine markLate_kept ?_
    | extract_lets
    | split
    | fail_if_no_progress with_reducible apply Kept.lit
    | with_reducible exact Kept.of1 ‹_›
    | with_reducible exact Kept.of2 ‹_›
    | with_reducible exact Kept.of2 (p := (_, _)) ‹_›
    | dsimp only
    | dsimp +zetaDelta only

theorem endWaitang_kept {s₀ : State} {a0 a1 a2} :
    Kept s₀ a2 → Kept s₀ (endWaitang a0 a1 a2) := by
  intro h0
  unfold endWaitang
  repeat' first
    | with_reducible assumption
    | with_reducible refine modSeq_kept ?_
    | with_reducible refine Kept.foldl ?_ (fun _ _ _ => ?_)
    | with_reducible refine Kept1.foldl ?_ (fun _ _ _ => ?_)
    | with_reducible refine Kept.fold1 ?_ (fun _ _ _ => ?_)
    | with_reducible refine Kept.eq1 ‹_› ?_
    | extract_lets
    | split
    | with_reducible apply Kept1.mk
    | fail_if_no_progress with_reducible apply Kept.lit
    | with_reducible exact Kept.of1 ‹_›
    | with_reducible exact Kept.of2 ‹_›
    | with_reducible exact Kept.of2 (p := (_, _)) ‹_›
    | dsimp only
    | dsimp +zetaDelta only

theorem acceptAdvance_kept {s₀ : State} {a0 a1 a2} :
    Kept s₀ a2 → Kept s₀ (acceptAdvance a0 a1 a2) := by
  intro h0
  unfold acceptAdvance
  repeat' first
    | with_reducible assumption
    | with_reducible refine endPresentations_kept ?_
    | with_reducible refine stepSnapshot_kept ?_
    | with_reducible refine modDom_kept ?_
    | with_reducible refine report_kept ?_
    | with_reducible refine markSwap_kept ?_
    | with_reducible refine fireAngle_kept ?_
    | with_reducible refine planeAngle_kept ?_
    | with_reducible refine endWaitang_kept ?_
    | extract_lets
    | split
    | fail_if_no_progress with_reducible apply Kept.lit
    | with_reducible exact Kept.of1 ‹_›
    | with_reducible exact Kept.of2 ‹_›
    | with_reducible exact Kept.of2 (p := (_, _)) ‹_›
    | dsimp only
    | dsimp +zetaDelta only

theorem addOJob_kept {s₀ : State} {a0 a1} :
    Kept s₀ a1 → Kept s₀ (addOJob a0 a1) := by
  intro h0
  unfold addOJob
  repeat' first
    | with_reducible assumption
    | with_reducible refine modOrb_kept ?_
    | extract_lets
    | split
    | fail_if_no_progress with_reducible apply Kept.lit
    | with_reducible exact Kept.of1 ‹_›
    | with_reducible exact Kept.of2 ‹_›
    | with_reducible exact Kept.of2 (p := (_, _)) ‹_›
    | dsimp only
    | dsimp +zetaDelta only

theorem modEnergy_kept {s₀ : State} {a0 a1} :
    Kept s₀ a1 → Kept s₀ (modEnergy a0 a1) := by
  intro h0
  unfold modEnergy
  repeat' first
    | with_reducible assumption
    | extract_lets
    | split
    | fail_if_no_progress with_reducible apply Kept.lit
    | with_reducible exact Kept.of1 ‹_›
    | with_reducible exact Kept.of2 ‹_›
    | with_reducible exact Kept.of2 (p := (_, _)) ‹_›
    | dsimp only
    | dsimp +zetaDelta only

theorem modEPart_kept {s₀ : State} {a0 a1 a2} :
    Kept s₀ a2 → Kept s₀ (modEPart a0 a1 a2) := by
  intro h0
  unfold modEPart
  repeat' first
    | with_reducible assumption
    | with_reducible refine modEnergy_kept ?_
    | extract_lets
    | split
    | fail_if_no_progress with_reducible apply Kept.lit
    | with_reducible exact Kept.of1 ‹_›
    | with_reducible exact Kept.of2 ‹_›
    | with_reducible exact Kept.of2 (p := (_, _)) ‹_›
    | dsimp only
    | dsimp +zetaDelta only

theorem energyPause_kept {s₀ : State} {a0 a1} :
    Kept s₀ a1 → Kept s₀ (energyPause a0 a1) := by
  intro h0
  unfold energyPause
  repeat' first
    | with_reducible assumption
    | with_reducible refine send_kept ?_
    | with_reducible refine modEnergy_kept ?_
    | with_reducible refine Kept.foldl ?_ (fun _ _ _ => ?_)
    | with_reducible refine Kept1.foldl ?_ (fun _ _ _ => ?_)
    | with_reducible refine Kept.fold1 ?_ (fun _ _ _ => ?_)
    | with_reducible refine Kept.eq1 ‹_› ?_
    | extract_lets
    | split
    | with_reducible apply Kept1.mk
    | fail_if_no_progress with_reducible apply Kept.lit
    | with_reducible exact Kept.of1 ‹_›
    | with_reducible exact Kept.of2 ‹_›
    | with_reducible exact Kept.of2 (p := (_, _)) ‹_›
    | dsimp only
    | dsimp +zetaDelta only

theorem debit_kept {s₀ : State} {a0 a1 a2} :
    Kept s₀ a2 → Kept s₀ (debit a0 a1 a2) := by
  intro h0
  unfold debit
  repeat' first
    | with_reducible assumption
    | with_reducible refine modEnergy_kept ?_
    | with_reducible refine modEPart_kept ?_
    | with_reducible refine energyPause_kept ?_
    | extract_lets
    | split
    | fail_if_no_progress with_reducible apply Kept.lit
    | with_reducible exact Kept.of1 ‹_›
    | with_reducible exact Kept.of2 ‹_›
    | with_reducible exact Kept.of2 (p := (_, _)) ‹_›
    | dsimp only
    | dsimp +zetaDelta only

theorem admitOversize_kept {s₀ : State} {a0 a1 a2} :
    Kept s₀ a2 → Kept s₀ (admitOversize a0 a1 a2) := by
  intro h0
  unfold admitOversize
  repeat' first
    | with_reducible assumption
    | with_reducible refine debit_kept ?_
    | with_reducible refine modEnergy_kept ?_
    | with_reducible refine modEPart_kept ?_
    | with_reducible refine report_kept ?_
    | extract_lets
    | split
    | fail_if_no_progress with_reducible apply Kept.lit
    | with_reducible exact Kept.of1 ‹_›
    | with_reducible exact Kept.of2 ‹_›
    | with_reducible exact Kept.of2 (p := (_, _)) ‹_›
    | dsimp only
    | dsimp +zetaDelta only

theorem modArc_kept {s₀ : State} {a0 a1} :
    Kept s₀ a1 → Kept s₀ (modArc a0 a1) := by
  intro h0
  unfold modArc
  repeat' first
    | with_reducible assumption
    | extract_lets
    | split
    | fail_if_no_progress with_reducible apply Kept.lit
    | with_reducible exact Kept.of1 ‹_›
    | with_reducible exact Kept.of2 ‹_›
    | with_reducible exact Kept.of2 (p := (_, _)) ‹_›
    | dsimp only
    | dsimp +zetaDelta only

theorem takeCells_kept {s₀ : State} {a0 a1 a2 a3} :
    Kept s₀ a3 → Kept s₀ (takeCells a0 a1 a2 a3) := by
  intro h0
  unfold takeCells
  repeat' first
    | with_reducible assumption
    | extract_lets
    | split
    | fail_if_no_progress with_reducible apply Kept.lit
    | with_reducible exact Kept.of1 ‹_›
    | with_reducible exact Kept.of2 ‹_›
    | with_reducible exact Kept.of2 (p := (_, _)) ‹_›
    | dsimp only
    | dsimp +zetaDelta only

theorem setOut_kept {s₀ : State} {a0 a1 a2} :
    Kept s₀ a2 → Kept s₀ (setOut a0 a1 a2) := by
  intro h0
  unfold setOut
  repeat' first
    | with_reducible assumption
    | with_reducible refine modArc_kept ?_
    | extract_lets
    | split
    | fail_if_no_progress with_reducible apply Kept.lit
    | with_reducible exact Kept.of1 ‹_›
    | with_reducible exact Kept.of2 ‹_›
    | with_reducible exact Kept.of2 (p := (_, _)) ‹_›
    | dsimp only
    | dsimp +zetaDelta only

theorem giveCells_kept {s₀ : State} {a0 a1 a2 a3} :
    Kept s₀ a3 → Kept s₀ (giveCells a0 a1 a2 a3) := by
  intro h0
  unfold giveCells
  repeat' first
    | with_reducible assumption
    | extract_lets
    | split
    | fail_if_no_progress with_reducible apply Kept.lit
    | with_reducible exact Kept.of1 ‹_›
    | with_reducible exact Kept.of2 ‹_›
    | with_reducible exact Kept.of2 (p := (_, _)) ‹_›
    | dsimp only
    | dsimp +zetaDelta only

theorem setPort_kept {s₀ : State} {a0 a1 a2} :
    Kept s₀ a2 → Kept s₀ (setPort a0 a1 a2) := by
  intro h0
  unfold setPort
  repeat' first
    | with_reducible assumption
    | extract_lets
    | split
    | fail_if_no_progress with_reducible apply Kept.lit
    | with_reducible exact Kept.of1 ‹_›
    | with_reducible exact Kept.of2 ‹_›
    | with_reducible exact Kept.of2 (p := (_, _)) ‹_›
    | dsimp only
    | dsimp +zetaDelta only

theorem modPort_kept {s₀ : State} {a0 a1 a2} :
    Kept s₀ a2 → Kept s₀ (modPort a0 a1 a2) := by
  intro h0
  unfold modPort
  repeat' first
    | with_reducible assumption
    | with_reducible refine setPort_kept ?_
    | extract_lets
    | split
    | fail_if_no_progress with_reducible apply Kept.lit
    | with_reducible exact Kept.of1 ‹_›
    | with_reducible exact Kept.of2 ‹_›
    | with_reducible exact Kept.of2 (p := (_, _)) ‹_›
    | dsimp only
    | dsimp +zetaDelta only

theorem dropHeld_kept {s₀ : State} {a0 a1 a2} :
    Kept s₀ a2 → Kept s₀ (dropHeld a0 a1 a2) := by
  intro h0
  unfold dropHeld
  repeat' first
    | with_reducible assumption
    | with_reducible refine modArc_kept ?_
    | with_reducible refine giveCells_kept ?_
    | with_reducible refine modPort_kept ?_
    | with_reducible refine reply_kept ?_
    | with_reducible refine Kept.foldl ?_ (fun _ _ _ => ?_)
    | with_reducible refine Kept1.foldl ?_ (fun _ _ _ => ?_)
    | with_reducible refine Kept.fold1 ?_ (fun _ _ _ => ?_)
    | with_reducible refine Kept.eq1 ‹_› ?_
    | extract_lets
    | split
    | with_reducible apply Kept1.mk
    | fail_if_no_progress with_reducible apply Kept.lit
    | with_reducible exact Kept.of1 ‹_›
    | with_reducible exact Kept.of2 ‹_›
    | with_reducible exact Kept.of2 (p := (_, _)) ‹_›
    | dsimp only
    | dsimp +zetaDelta only

theorem modEth_kept {s₀ : State} {a0 a1 a2} :
    Kept s₀ a2 → Kept s₀ (modEth a0 a1 a2) := by
  intro h0
  unfold modEth
  repeat' first
    | with_reducible assumption
    | with_reducible refine modArc_kept ?_
    | extract_lets
    | split
    | fail_if_no_progress with_reducible apply Kept.lit
    | with_reducible exact Kept.of1 ‹_›
    | with_reducible exact Kept.of2 ‹_›
    | with_reducible exact Kept.of2 (p := (_, _)) ‹_›
    | dsimp only
    | dsimp +zetaDelta only

theorem sendFc_kept {s₀ : State} {a0 a1 a2} :
    Kept s₀ a2 → Kept s₀ (sendFc a0 a1 a2) := by
  intro h0
  unfold sendFc
  repeat' first
    | with_reducible assumption
    | with_reducible refine send_kept ?_
    | with_reducible refine modEth_kept ?_
    | with_reducible refine modArc_kept ?_
    | extract_lets
    | split
    | fail_if_no_progress with_reducible apply Kept.lit
    | with_reducible exact Kept.of1 ‹_›
    | with_reducible exact Kept.of2 ‹_›
    | with_reducible exact Kept.of2 (p := (_, _)) ‹_›
    | dsimp only
    | dsimp +zetaDelta only

theorem fcCheck_kept {s₀ : State} {a0 a1} :
    Kept s₀ a1 → Kept s₀ (fcCheck a0 a1) := by
  intro h0
  unfold fcCheck
  repeat' first
    | with_reducible assumption
    | with_reducible refine sendFc_kept ?_
    | extract_lets
    | split
    | fail_if_no_progress with_reducible apply Kept.lit
    | with_reducible exact Kept.of1 ‹_›
    | with_reducible exact Kept.of2 ‹_›
    | with_reducible exact Kept.of2 (p := (_, _)) ‹_›
    | dsimp only
    | dsimp +zetaDelta only

theorem enterBuffer_kept {s₀ : State} {a0 a1 a2 a3 a4 a5} :
    Kept s₀ a5 → Kept s₀ (enterBuffer a0 a1 a2 a3 a4 a5) := by
  intro h0
  unfold enterBuffer
  repeat' first
    | with_reducible assumption
    | with_reducible refine takeCells_kept ?_
    | with_reducible refine modArc_kept ?_
    | with_reducible refine setOut_kept ?_
    | with_reducible refine dropHeld_kept ?_
    | with_reducible refine fcCheck_kept ?_
    | with_reducible refine Kept.getD ?_ ?_
    | extract_lets
    | split
    | fail_if_no_progress with_reducible apply Kept.lit
    | with_reducible exact Kept.of1 ‹_›
    | with_reducible exact Kept.of2 ‹_›
    | with_reducible exact Kept.of2 (p := (_, _)) ‹_›
    | dsimp only
    | dsimp +zetaDelta only

theorem modFlow_kept {s₀ : State} {a0 a1 a2} :
    Kept s₀ a2 → Kept s₀ (modFlow a0 a1 a2) := by
  intro h0
  unfold modFlow
  repeat' first
    | with_reducible assumption
    | with_reducible refine modArc_kept ?_
    | extract_lets
    | split
    | fail_if_no_progress with_reducible apply Kept.lit
    | with_reducible exact Kept.of1 ‹_›
    | with_reducible exact Kept.of2 ‹_›
    | with_reducible exact Kept.of2 (p := (_, _)) ‹_›
    | dsimp only
    | dsimp +zetaDelta only

theorem countEnergyRefusal_kept {s₀ : State} {a0 a1} :
    Kept s₀ a1 → Kept s₀ (countEnergyRefusal a0 a1) := by
  intro h0
  unfold countEnergyRefusal
  repeat' first
    | with_reducible assumption
    | with_reducible refine modEnergy_kept ?_
    | with_reducible refine modEPart_kept ?_
    | extract_lets
    | split
    | fail_if_no_progress with_reducible apply Kept.lit
    | with_reducible exact Kept.of1 ‹_›
    | with_reducible exact Kept.of2 ‹_›
    | with_reducible exact Kept.of2 (p := (_, _)) ‹_›
    | dsimp only
    | dsimp +zetaDelta only

theorem modArcPart_kept {s₀ : State} {a0 a1 a2} :
    Kept s₀ a2 → Kept s₀ (modArcPart a0 a1 a2) := by
  intro h0
  unfold modArcPart
  repeat' first
    | with_reducible assumption
    | with_reducible refine modArc_kept ?_
    | extract_lets
    | split
    | fail_if_no_progress with_reducible apply Kept.lit
    | with_reducible exact Kept.of1 ‹_›
    | with_reducible exact Kept.of2 ‹_›
    | with_reducible exact Kept.of2 (p := (_, _)) ‹_›
    | dsimp only
    | dsimp +zetaDelta only

theorem modEdge_kept {s₀ : State} {a0 a1} :
    Kept s₀ a1 → Kept s₀ (modEdge a0 a1) := by
  intro h0
  unfold modEdge
  repeat' first
    | with_reducible assumption
    | extract_lets
    | split
    | fail_if_no_progress with_reducible apply Kept.lit
    | with_reducible exact Kept.of1 ‹_›
    | with_reducible exact Kept.of2 ‹_›
    | with_reducible exact Kept.of2 (p := (_, _)) ‹_›
    | dsimp only
    | dsimp +zetaDelta only

theorem returnCredit_kept {s₀ : State} {a0 a1 a2 a3 a4} :
    Kept s₀ a4 → Kept s₀ (returnCredit a0 a1 a2 a3 a4) := by
  intro h0
  unfold returnCredit
  repeat' first
    | with_reducible assumption
    | with_reducible refine modEdge_kept ?_
    | with_reducible refine send_kept ?_
    | extract_lets
    | split
    | fail_if_no_progress with_reducible apply Kept.lit
    | with_reducible exact Kept.of1 ‹_›
    | with_reducible exact Kept.of2 ‹_›
    | with_reducible exact Kept.of2 (p := (_, _)) ‹_›
    | dsimp only
    | dsimp +zetaDelta only

theorem refusePkt_kept {s₀ : State} {a0 a1 a2} :
    Kept s₀ a2 → Kept s₀ (refusePkt a0 a1 a2) := by
  intro h0
  unfold refusePkt
  repeat' first
    | with_reducible assumption
    | with_reducible refine returnCredit_kept ?_
    | with_reducible refine send_kept ?_
    | with_reducible refine modArcPart_kept ?_
    | with_reducible refine reply_kept ?_
    | extract_lets
    | split
    | fail_if_no_progress with_reducible apply Kept.lit
    | with_reducible exact Kept.of1 ‹_›
    | with_reducible exact Kept.of2 ‹_›
    | with_reducible exact Kept.of2 (p := (_, _)) ‹_›
    | dsimp only
    | dsimp +zetaDelta only

theorem countEnergyWait_kept {s₀ : State} {a0 a1} :
    Kept s₀ a1 → Kept s₀ (countEnergyWait a0 a1) := by
  intro h0
  unfold countEnergyWait
  repeat' first
    | with_reducible assumption
    | with_reducible refine modEnergy_kept ?_
    | with_reducible refine modEPart_kept ?_
    | extract_lets
    | split
    | fail_if_no_progress with_reducible apply Kept.lit
    | with_reducible exact Kept.of1 ‹_›
    | with_reducible exact Kept.of2 ‹_›
    | with_reducible exact Kept.of2 (p := (_, _)) ‹_›
    | dsimp only
    | dsimp +zetaDelta only

theorem noCell_kept {s₀ : State} {a0 a1 a2 a3} :
    Kept s₀ a3 → Kept s₀ (noCell a0 a1 a2 a3) := by
  intro h0
  unfold noCell
  repeat' first
    | with_reducible assumption
    | with_reducible refine modArc_kept ?_
    | with_reducible refine fcCheck_kept ?_
    | with_reducible refine send_kept ?_
    | with_reducible refine modEth_kept ?_
    | with_reducible refine Kept.getD ?_ ?_
    | extract_lets
    | split
    | fail_if_no_progress with_reducible apply Kept.lit
    | with_reducible exact Kept.of1 ‹_›
    | with_reducible exact Kept.of2 ‹_›
    | with_reducible exact Kept.of2 (p := (_, _)) ‹_›
    | dsimp only
    | dsimp +zetaDelta only

theorem admitPktAs_kept {s₀ : State} {a0 a1 a2 a3} :
    Kept s₀ a3 → Kept s₀ (admitPktAs a0 a1 a2 a3) := by
  intro h0
  unfold admitPktAs
  repeat' first
    | with_reducible assumption
    | with_reducible refine modArc_kept ?_
    | with_reducible refine enterBuffer_kept ?_
    | with_reducible refine modFlow_kept ?_
    | with_reducible refine countEnergyRefusal_kept ?_
    | with_reducible refine modArcPart_kept ?_
    | with_reducible refine refusePkt_kept ?_
    | with_reducible refine countEnergyWait_kept ?_
    | with_reducible refine send_kept ?_
    | with_reducible refine noCell_kept ?_
    | with_reducible refine debit_kept ?_
    | extract_lets
    | split
    | fail_if_no_progress with_reducible apply Kept.lit
    | with_reducible exact Kept.of1 ‹_›
    | with_reducible exact Kept.of2 ‹_›
    | with_reducible exact Kept.of2 (p := (_, _)) ‹_›
    | dsimp only
    | dsimp +zetaDelta only

theorem modLoc_kept {s₀ : State} {a0 a1} :
    Kept s₀ a1 → Kept s₀ (modLoc a0 a1) := by
  intro h0
  unfold modLoc
  repeat' first
    | with_reducible assumption
    | extract_lets
    | split
    | fail_if_no_progress with_reducible apply Kept.lit
    | with_reducible exact Kept.of1 ‹_›
    | with_reducible exact Kept.of2 ‹_›
    | with_reducible exact Kept.of2 (p := (_, _)) ‹_›
    | dsimp only
    | dsimp +zetaDelta only

theorem tlbDrop_kept {s₀ : State} {a0 a1} :
    Kept s₀ a1 → Kept s₀ (tlbDrop a0 a1) := by
  intro h0
  unfold tlbDrop
  repeat' first
    | with_reducible assumption
    | with_reducible refine modLoc_kept ?_
    | extract_lets
    | split
    | fail_if_no_progress with_reducible apply Kept.lit
    | with_reducible exact Kept.of1 ‹_›
    | with_reducible exact Kept.of2 ‹_›
    | with_reducible exact Kept.of2 (p := (_, _)) ‹_›
    | dsimp only
    | dsimp +zetaDelta only

theorem dropLeaf_kept {s₀ : State} {a0 a1 a2 a3} :
    Kept s₀ a3 → Kept s₀ (dropLeaf a0 a1 a2 a3) := by
  intro h0
  unfold dropLeaf
  repeat' first
    | with_reducible assumption
    | with_reducible refine tlbDrop_kept ?_
    | with_reducible refine send_kept ?_
    | with_reducible refine Kept.foldl ?_ (fun _ _ _ => ?_)
    | with_reducible refine Kept1.foldl ?_ (fun _ _ _ => ?_)
    | with_reducible refine Kept.fold1 ?_ (fun _ _ _ => ?_)
    | with_reducible refine Kept.eq1 ‹_› ?_
    | extract_lets
    | split
    | with_reducible apply Kept1.mk
    | fail_if_no_progress with_reducible apply Kept.lit
    | with_reducible exact Kept.of1 ‹_›
    | with_reducible exact Kept.of2 ‹_›
    | with_reducible exact Kept.of2 (p := (_, _)) ‹_›
    | dsimp only
    | dsimp +zetaDelta only

theorem putLeaf_kept {s₀ : State} {a0 a1 a2 a3 a4} :
    Kept s₀ a4 → Kept s₀ (putLeaf a0 a1 a2 a3 a4) := by
  intro h0
  unfold putLeaf
  repeat' first
    | with_reducible assumption
    | with_reducible refine foldWrite_kept ?_
    | with_reducible refine Kept.of1 (p := foldWrite _ _ _ _ _ _ _) (foldWrite_kept ?_)
    | with_reducible refine modLoc_kept ?_
    | with_reducible refine Kept.eq1 ‹_› ?_
    | extract_lets
    | split
    | with_reducible apply Kept1.mk
    | fail_if_no_progress with_reducible apply Kept.lit
    | with_reducible exact Kept.of1 ‹_›
    | with_reducible exact Kept.of2 ‹_›
    | with_reducible exact Kept.of2 (p := (_, _)) ‹_›
    | dsimp only
    | dsimp +zetaDelta only

theorem clearPage_kept {s₀ : State} {a0 a1} :
    Kept s₀ a1 → Kept s₀ (clearPage a0 a1) := by
  intro h0
  exact ⟨h0.1, fun m => memClear_wf _ _ (h0.2 m)⟩

theorem zeroPage_kept {s₀ : State} {a0 a1} :
    Kept s₀ a1 → Kept s₀ (zeroPage a0 a1) := by
  intro h0
  unfold zeroPage
  repeat' first
    | with_reducible assumption
    | with_reducible refine setPage_kept ?_
    | with_reducible refine clearPage_kept ?_
    | extract_lets
    | split
    | fail_if_no_progress with_reducible apply Kept.lit
    | with_reducible exact Kept.of1 ‹_›
    | with_reducible exact Kept.of2 ‹_›
    | with_reducible exact Kept.of2 (p := (_, _)) ‹_›
    | dsimp only
    | dsimp +zetaDelta only

theorem freePages_kept {s₀ : State} {a0 a1} :
    Kept s₀ a1 → Kept s₀ (freePages a0 a1) := by
  intro h0
  unfold freePages
  repeat' first
    | with_reducible assumption
    | with_reducible refine dropLeaf_kept ?_
    | with_reducible refine putLeaf_kept ?_
    | with_reducible refine zeroPage_kept ?_
    | with_reducible refine abandonMigr_kept ?_
    | with_reducible refine changePage_kept ?_
    | with_reducible refine setSess_kept ?_
    | with_reducible refine Kept.foldl ?_ (fun _ _ _ => ?_)
    | with_reducible refine Kept1.foldl ?_ (fun _ _ _ => ?_)
    | with_reducible refine Kept.fold1 ?_ (fun _ _ _ => ?_)
    | with_reducible refine Kept.eq1 ‹_› ?_
    | extract_lets
    | split
    | with_reducible apply Kept1.mk
    | fail_if_no_progress with_reducible apply Kept.lit
    | with_reducible exact Kept.of1 ‹_›
    | with_reducible exact Kept.of2 ‹_›
    | with_reducible exact Kept.of2 (p := (_, _)) ‹_›
    | dsimp only
    | dsimp +zetaDelta only

theorem setOJob_kept {s₀ : State} {a0 a1} :
    Kept s₀ a1 → Kept s₀ (setOJob a0 a1) := by
  intro h0
  unfold setOJob
  repeat' first
    | with_reducible assumption
    | with_reducible refine modOrb_kept ?_
    | extract_lets
    | split
    | fail_if_no_progress with_reducible apply Kept.lit
    | with_reducible exact Kept.of1 ‹_›
    | with_reducible exact Kept.of2 ‹_›
    | with_reducible exact Kept.of2 (p := (_, _)) ‹_›
    | dsimp only
    | dsimp +zetaDelta only

theorem coldGo_kept {s₀ : State} {a0 a1 a2} :
    Kept s₀ a2 → Kept s₀ (coldGo a0 a1 a2) := by
  intro h0
  unfold coldGo
  repeat' first
    | with_reducible assumption
    | with_reducible refine freePages_kept ?_
    | with_reducible refine setOJob_kept ?_
    | with_reducible refine setSess_kept ?_
    | extract_lets
    | split
    | fail_if_no_progress with_reducible apply Kept.lit
    | with_reducible exact Kept.of1 ‹_›
    | with_reducible exact Kept.of2 ‹_›
    | with_reducible exact Kept.of2 (p := (_, _)) ‹_›
    | dsimp only
    | dsimp +zetaDelta only

theorem admitHeld_kept {s₀ : State} {a0} :
    Kept s₀ a0 → Kept s₀ (admitHeld a0) := by
  intro h0
  unfold admitHeld
  repeat' first
    | with_reducible assumption
    | with_reducible refine admitOversize_kept ?_
    | with_reducible refine admitPktAs_kept ?_
    | with_reducible refine modArc_kept ?_
    | with_reducible refine coldGo_kept ?_
    | with_reducible refine Kept.foldl ?_ (fun _ _ _ => ?_)
    | with_reducible refine Kept1.foldl ?_ (fun _ _ _ => ?_)
    | with_reducible refine Kept.fold1 ?_ (fun _ _ _ => ?_)
    | with_reducible refine Kept.eq1 ‹_› ?_
    | extract_lets
    | split
    | with_reducible apply Kept1.mk
    | fail_if_no_progress with_reducible apply Kept.lit
    | with_reducible exact Kept.of1 ‹_›
    | with_reducible exact Kept.of2 ‹_›
    | with_reducible exact Kept.of2 (p := (_, _)) ‹_›
    | dsimp only
    | dsimp +zetaDelta only

theorem releaseCredits_kept {s₀ : State} {a0 a1} :
    Kept s₀ a1 → Kept s₀ (releaseCredits a0 a1) := by
  intro h0
  unfold releaseCredits
  repeat' first
    | with_reducible assumption
    | with_reducible refine modEdge_kept ?_
    | with_reducible refine send_kept ?_
    | with_reducible refine Kept.foldl ?_ (fun _ _ _ => ?_)
    | with_reducible refine Kept1.foldl ?_ (fun _ _ _ => ?_)
    | with_reducible refine Kept.fold1 ?_ (fun _ _ _ => ?_)
    | with_reducible refine Kept.eq1 ‹_› ?_
    | extract_lets
    | split
    | with_reducible apply Kept1.mk
    | fail_if_no_progress with_reducible apply Kept.lit
    | with_reducible exact Kept.of1 ‹_›
    | with_reducible exact Kept.of2 ‹_›
    | with_reducible exact Kept.of2 (p := (_, _)) ‹_›
    | dsimp only
    | dsimp +zetaDelta only

theorem modPair_kept {s₀ : State} {a0 a1} :
    Kept s₀ a1 → Kept s₀ (modPair a0 a1) := by
  intro h0
  unfold modPair
  repeat' first
    | with_reducible assumption
    | extract_lets
    | split
    | fail_if_no_progress with_reducible apply Kept.lit
    | with_reducible exact Kept.of1 ‹_›
    | with_reducible exact Kept.of2 ‹_›
    | with_reducible exact Kept.of2 (p := (_, _)) ‹_›
    | dsimp only
    | dsimp +zetaDelta only

theorem releaseAll_kept {s₀ : State} {a0} :
    Kept s₀ a0 → Kept s₀ (releaseAll a0) := by
  intro h0
  unfold releaseAll
  repeat' first
    | with_reducible assumption
    | with_reducible refine releaseCredits_kept ?_
    | with_reducible refine Kept.foldl ?_ (fun _ _ _ => ?_)
    | with_reducible refine Kept1.foldl ?_ (fun _ _ _ => ?_)
    | with_reducible refine Kept.fold1 ?_ (fun _ _ _ => ?_)
    | with_reducible refine Kept.eq1 ‹_› ?_
    | extract_lets
    | split
    | with_reducible apply Kept1.mk
    | fail_if_no_progress with_reducible apply Kept.lit
    | with_reducible exact Kept.of1 ‹_›
    | with_reducible exact Kept.of2 ‹_›
    | with_reducible exact Kept.of2 (p := (_, _)) ‹_›
    | dsimp only
    | dsimp +zetaDelta only

theorem admitPart_kept {s₀ : State} {a0 a1} :
    Kept s₀ a1 → Kept s₀ (admitPart a0 a1) := by
  intro h0
  unfold admitPart
  repeat' first
    | with_reducible assumption
    | with_reducible refine releaseCredits_kept ?_
    | with_reducible refine modPair_kept ?_
    | with_reducible refine releaseAll_kept ?_
    | extract_lets
    | split
    | fail_if_no_progress with_reducible apply Kept.lit
    | with_reducible exact Kept.of1 ‹_›
    | with_reducible exact Kept.of2 ‹_›
    | with_reducible exact Kept.of2 (p := (_, _)) ‹_›
    | dsimp only
    | dsimp +zetaDelta only

theorem admitPkt_kept {s₀ : State} {a0 a1} :
    Kept s₀ a1 → Kept s₀ (admitPkt a0 a1) := by
  intro h0
  unfold admitPkt
  repeat' first
    | with_reducible assumption
    | with_reducible refine admitPktAs_kept ?_
    | extract_lets
    | split
    | fail_if_no_progress with_reducible apply Kept.lit
    | with_reducible exact Kept.of1 ‹_›
    | with_reducible exact Kept.of2 ‹_›
    | with_reducible exact Kept.of2 (p := (_, _)) ‹_›
    | dsimp only
    | dsimp +zetaDelta only

theorem dropAgree_kept {s₀ : State} {a0 a1} :
    Kept s₀ a1 → Kept s₀ (dropAgree a0 a1) := by
  intro h0
  unfold dropAgree
  repeat' first
    | with_reducible assumption
    | with_reducible refine modEdge_kept ?_
    | extract_lets
    | split
    | fail_if_no_progress with_reducible apply Kept.lit
    | with_reducible exact Kept.of1 ‹_›
    | with_reducible exact Kept.of2 ‹_›
    | with_reducible exact Kept.of2 (p := (_, _)) ‹_›
    | dsimp only
    | dsimp +zetaDelta only

theorem repoint_kept {s₀ : State} {a0} :
    Kept s₀ a0 → Kept s₀ (repoint a0) := by
  intro h0
  unfold repoint
  repeat' first
    | with_reducible assumption
    | with_reducible refine modArc_kept ?_
    | extract_lets
    | split
    | fail_if_no_progress with_reducible apply Kept.lit
    | with_reducible exact Kept.of1 ‹_›
    | with_reducible exact Kept.of2 ‹_›
    | with_reducible exact Kept.of2 (p := (_, _)) ‹_›
    | dsimp only
    | dsimp +zetaDelta only

theorem pairRestore_kept {s₀ : State} {a0} :
    Kept s₀ a0 → Kept s₀ (pairRestore a0) := by
  intro h0
  unfold pairRestore
  repeat' first
    | with_reducible assumption
    | with_reducible refine repoint_kept ?_
    | with_reducible refine modEdge_kept ?_
    | extract_lets
    | split
    | fail_if_no_progress with_reducible apply Kept.lit
    | with_reducible exact Kept.of1 ‹_›
    | with_reducible exact Kept.of2 ‹_›
    | with_reducible exact Kept.of2 (p := (_, _)) ‹_›
    | dsimp only
    | dsimp +zetaDelta only

theorem setAgree_kept {s₀ : State} {a0 a1} :
    Kept s₀ a1 → Kept s₀ (setAgree a0 a1) := by
  intro h0
  unfold setAgree
  repeat' first
    | with_reducible assumption
    | with_reducible refine modEdge_kept ?_
    | extract_lets
    | split
    | fail_if_no_progress with_reducible apply Kept.lit
    | with_reducible exact Kept.of1 ‹_›
    | with_reducible exact Kept.of2 ‹_›
    | with_reducible exact Kept.of2 (p := (_, _)) ‹_›
    | dsimp only
    | dsimp +zetaDelta only

theorem modPer_kept {s₀ : State} {a0 a1} :
    Kept s₀ a1 → Kept s₀ (modPer a0 a1) := by
  intro h0
  unfold modPer
  repeat' first
    | with_reducible assumption
    | extract_lets
    | split
    | fail_if_no_progress with_reducible apply Kept.lit
    | with_reducible exact Kept.of1 ‹_›
    | with_reducible exact Kept.of2 ‹_›
    | with_reducible exact Kept.of2 (p := (_, _)) ‹_›
    | dsimp only
    | dsimp +zetaDelta only

theorem queueCommit_kept {s₀ : State} {a0 a1} :
    Kept s₀ a1 → Kept s₀ (queueCommit a0 a1) := by
  intro h0
  unfold queueCommit
  repeat' first
    | with_reducible assumption
    | with_reducible refine modPer_kept ?_
    | extract_lets
    | split
    | fail_if_no_progress with_reducible apply Kept.lit
    | with_reducible exact Kept.of1 ‹_›
    | with_reducible exact Kept.of2 ‹_›
    | with_reducible exact Kept.of2 (p := (_, _)) ‹_›
    | dsimp only
    | dsimp +zetaDelta only

theorem agreeCommit_kept {s₀ : State} {a0 a1} :
    Kept s₀ a1 → Kept s₀ (agreeCommit a0 a1) := by
  intro h0
  unfold agreeCommit
  repeat' first
    | with_reducible assumption
    | with_reducible refine queueCommit_kept ?_
    | with_reducible refine setAgree_kept ?_
    | with_reducible refine Kept.getD ?_ ?_
    | extract_lets
    | split
    | fail_if_no_progress with_reducible apply Kept.lit
    | with_reducible exact Kept.of1 ‹_›
    | with_reducible exact Kept.of2 ‹_›
    | with_reducible exact Kept.of2 (p := (_, _)) ‹_›
    | dsimp only
    | dsimp +zetaDelta only

theorem beginAgree_kept {s₀ : State} {a0 a1} :
    Kept s₀ a1 → Kept s₀ (beginAgree a0 a1) := by
  intro h0
  unfold beginAgree
  repeat' first
    | with_reducible assumption
    | with_reducible refine report_kept ?_
    | with_reducible refine modPort_kept ?_
    | with_reducible refine dropAgree_kept ?_
    | with_reducible refine send_kept ?_
    | with_reducible refine setAgree_kept ?_
    | with_reducible refine agreeCommit_kept ?_
    | with_reducible refine Kept.getD ?_ ?_
    | with_reducible refine KeptO2.mapO ?_ (fun _ _ => ?_)
    | with_reducible refine KeptO2.map (fun _ => ?_)
    | with_reducible refine KeptO.map (fun _ => ?_)
    | extract_lets
    | split
    | fail_if_no_progress with_reducible apply Kept.lit
    | with_reducible exact Kept.of1 ‹_›
    | with_reducible exact Kept.of2 ‹_›
    | with_reducible exact Kept.of2 (p := (_, _)) ‹_›
    | dsimp only
    | dsimp +zetaDelta only

theorem nextAgree_kept {s₀ : State} {a0 a1} :
    Kept s₀ a1 → Kept s₀ (nextAgree a0 a1) := by
  intro h0
  unfold nextAgree
  repeat' first
    | with_reducible assumption
    | with_reducible refine beginAgree_kept ?_
    | extract_lets
    | split
    | fail_if_no_progress with_reducible apply Kept.lit
    | with_reducible exact Kept.of1 ‹_›
    | with_reducible exact Kept.of2 ‹_›
    | with_reducible exact Kept.of2 (p := (_, _)) ‹_›
    | dsimp only
    | dsimp +zetaDelta only

theorem finishAgree_kept {s₀ : State} {a0 a1 a2} :
    Kept s₀ a2 → Kept s₀ (finishAgree a0 a1 a2) := by
  intro h0
  unfold finishAgree
  repeat' first
    | with_reducible assumption
    | with_reducible refine dropAgree_kept ?_
    | with_reducible refine setPort_kept ?_
    | with_reducible refine pairRestore_kept ?_
    | with_reducible refine modPort_kept ?_
    | with_reducible refine send_kept ?_
    | with_reducible refine nextAgree_kept ?_
    | extract_lets
    | split
    | fail_if_no_progress with_reducible apply Kept.lit
    | with_reducible exact Kept.of1 ‹_›
    | with_reducible exact Kept.of2 ‹_›
    | with_reducible exact Kept.of2 (p := (_, _)) ‹_›
    | dsimp only
    | dsimp +zetaDelta only

theorem restartAgree_kept {s₀ : State} {a0 a1} :
    Kept s₀ a1 → Kept s₀ (restartAgree a0 a1) := by
  intro h0
  unfold restartAgree
  repeat' first
    | with_reducible assumption
    | with_reducible refine setAgree_kept ?_
    | with_reducible refine beginAgree_kept ?_
    | extract_lets
    | split
    | fail_if_no_progress with_reducible apply Kept.lit
    | with_reducible exact Kept.of1 ‹_›
    | with_reducible exact Kept.of2 ‹_›
    | with_reducible exact Kept.of2 (p := (_, _)) ‹_›
    | dsimp only
    | dsimp +zetaDelta only

theorem agreeCheck_kept {s₀ : State} {a0 a1} :
    Kept s₀ a1 → Kept s₀ (agreeCheck a0 a1) := by
  intro h0
  unfold agreeCheck
  repeat' first
    | with_reducible assumption
    | with_reducible refine finishAgree_kept ?_
    | with_reducible refine restartAgree_kept ?_
    | extract_lets
    | split
    | fail_if_no_progress with_reducible apply Kept.lit
    | with_reducible exact Kept.of1 ‹_›
    | with_reducible exact Kept.of2 ‹_›
    | with_reducible exact Kept.of2 (p := (_, _)) ‹_›
    | dsimp only
    | dsimp +zetaDelta only

theorem okThen_kept {s₀ : State} {α β : Type} {a0 : β} {a1 : State × Cpl × α} {a2 : State → α → State × Cpl × β} :
    Kept1 s₀ a1 → (∀ x0 x1, Kept s₀ x0 → Kept1 s₀ (a2 x0 x1)) → Kept1 s₀ (okThen a0 a1 a2) := by
  intro h0 h1
  unfold okThen
  split
  · exact h1 _ _ h0
  · exact h0

theorem probe_kept {s₀ : State} {a0 a1 a2 a3 a4 a5 a6} :
    Kept s₀ a6 → Kept1 s₀ (probe a0 a1 a2 a3 a4 a5 a6) := by
  intro h0
  induction a3 generalizing a4 a5 a6 with
  | zero =>
      unfold probe
      repeat' first
        | with_reducible assumption
        | with_reducible refine Kept.of1 (p := probe _ _ _ _ _ _ _) ?_
        | with_reducible refine okThen_kept ?_ (fun _ _ _ => ?_)
        | with_reducible refine Kept.of1 (p := okThen _ _ _) (okThen_kept ?_ (fun _ _ _ => ?_))
        | with_reducible refine cenRead_kept ?_
        | with_reducible refine Kept.of1 (p := cenRead _ _ _ _) (cenRead_kept ?_)
        | with_reducible refine Kept.eq1 ‹_› ?_
        | extract_lets
        | split
        | with_reducible apply Kept1.mk
        | fail_if_no_progress with_reducible apply Kept.lit
        | with_reducible exact Kept.of1 ‹_›
        | with_reducible exact Kept.of2 ‹_›
        | with_reducible exact Kept.of2 (p := (_, _)) ‹_›
        | dsimp only
        | dsimp +zetaDelta only
  | succ _ ih =>
      unfold probe
      repeat' first
        | with_reducible assumption
        | with_reducible apply ih
        | with_reducible refine Kept.of1 (p := probe _ _ _ _ _ _ _) ?_
        | with_reducible refine okThen_kept ?_ (fun _ _ _ => ?_)
        | with_reducible refine Kept.of1 (p := okThen _ _ _) (okThen_kept ?_ (fun _ _ _ => ?_))
        | with_reducible refine cenRead_kept ?_
        | with_reducible refine Kept.of1 (p := cenRead _ _ _ _) (cenRead_kept ?_)
        | with_reducible refine Kept.eq1 ‹_› ?_
        | extract_lets
        | split
        | with_reducible apply Kept1.mk
        | fail_if_no_progress with_reducible apply Kept.lit
        | with_reducible exact Kept.of1 ‹_›
        | with_reducible exact Kept.of2 ‹_›
        | with_reducible exact Kept.of2 (p := (_, _)) ‹_›
        | dsimp only
        | dsimp +zetaDelta only

theorem findMark_kept {s₀ : State} {a0 a1 a2 a3} :
    Kept s₀ a3 → Kept1 s₀ (findMark a0 a1 a2 a3) := by
  intro h0
  unfold findMark
  repeat' first
    | with_reducible assumption
    | with_reducible refine probe_kept ?_
    | with_reducible refine Kept.of1 (p := probe _ _ _ _ _ _ _) (probe_kept ?_)
    | with_reducible refine Kept.eq1 ‹_› ?_
    | extract_lets
    | split
    | with_reducible apply Kept1.mk
    | fail_if_no_progress with_reducible apply Kept.lit
    | with_reducible exact Kept.of1 ‹_›
    | with_reducible exact Kept.of2 ‹_›
    | with_reducible exact Kept.of2 (p := (_, _)) ‹_›
    | dsimp only
    | dsimp +zetaDelta only

theorem anyMarked_kept {s₀ : State} {a0 a1 a2 a3} :
    Kept s₀ a3 → Kept1 s₀ (anyMarked a0 a1 a2 a3) := by
  intro h0
  induction a2 generalizing a3 with
  | nil =>
      unfold anyMarked
      repeat' first
        | with_reducible assumption
        | with_reducible refine Kept.of1 (p := anyMarked _ _ _ _) ?_
        | with_reducible refine okThen_kept ?_ (fun _ _ _ => ?_)
        | with_reducible refine Kept.of1 (p := okThen _ _ _) (okThen_kept ?_ (fun _ _ _ => ?_))
        | with_reducible refine findMark_kept ?_
        | with_reducible refine Kept.of1 (p := findMark _ _ _ _) (findMark_kept ?_)
        | with_reducible refine Kept.eq1 ‹_› ?_
        | extract_lets
        | split
        | with_reducible apply Kept1.mk
        | fail_if_no_progress with_reducible apply Kept.lit
        | with_reducible exact Kept.of1 ‹_›
        | with_reducible exact Kept.of2 ‹_›
        | with_reducible exact Kept.of2 (p := (_, _)) ‹_›
        | dsimp only
        | dsimp +zetaDelta only
  | cons _ _ ih =>
      unfold anyMarked
      repeat' first
        | with_reducible assumption
        | with_reducible apply ih
        | with_reducible refine Kept.of1 (p := anyMarked _ _ _ _) ?_
        | with_reducible refine okThen_kept ?_ (fun _ _ _ => ?_)
        | with_reducible refine Kept.of1 (p := okThen _ _ _) (okThen_kept ?_ (fun _ _ _ => ?_))
        | with_reducible refine findMark_kept ?_
        | with_reducible refine Kept.of1 (p := findMark _ _ _ _) (findMark_kept ?_)
        | with_reducible refine Kept.eq1 ‹_› ?_
        | extract_lets
        | split
        | with_reducible apply Kept1.mk
        | fail_if_no_progress with_reducible apply Kept.lit
        | with_reducible exact Kept.of1 ‹_›
        | with_reducible exact Kept.of2 ‹_›
        | with_reducible exact Kept.of2 (p := (_, _)) ‹_›
        | dsimp only
        | dsimp +zetaDelta only

theorem setApxReq_kept {s₀ : State} {a0 a1 a2} :
    Kept s₀ a2 → Kept s₀ (setApxReq a0 a1 a2) := by
  intro h0
  unfold setApxReq
  repeat' first
    | with_reducible assumption
    | with_reducible refine modApx_kept ?_
    | extract_lets
    | split
    | fail_if_no_progress with_reducible apply Kept.lit
    | with_reducible exact Kept.of1 ‹_›
    | with_reducible exact Kept.of2 ‹_›
    | with_reducible exact Kept.of2 (p := (_, _)) ‹_›
    | dsimp only
    | dsimp +zetaDelta only

theorem freeReq_kept {s₀ : State} {a0 a1} :
    Kept s₀ a1 → Kept s₀ (freeReq a0 a1) := by
  intro h0
  unfold freeReq
  repeat' first
    | with_reducible assumption
    | with_reducible refine setApxReq_kept ?_
    | with_reducible refine modApx_kept ?_
    | extract_lets
    | split
    | fail_if_no_progress with_reducible apply Kept.lit
    | with_reducible exact Kept.of1 ‹_›
    | with_reducible exact Kept.of2 ‹_›
    | with_reducible exact Kept.of2 (p := (_, _)) ‹_›
    | dsimp only
    | dsimp +zetaDelta only

theorem apexScrub_kept {s₀ : State} {a0 a1} :
    Kept s₀ a1 → Kept s₀ (apexScrub a0 a1) := by
  intro h0
  unfold apexScrub
  repeat' first
    | with_reducible assumption
    | with_reducible refine setApxReq_kept ?_
    | with_reducible refine setQueue_kept ?_
    | with_reducible refine freeReq_kept ?_
    | with_reducible refine Kept.foldl ?_ (fun _ _ _ => ?_)
    | with_reducible refine Kept1.foldl ?_ (fun _ _ _ => ?_)
    | with_reducible refine Kept.fold1 ?_ (fun _ _ _ => ?_)
    | with_reducible refine Kept.eq1 ‹_› ?_
    | extract_lets
    | split
    | with_reducible apply Kept1.mk
    | fail_if_no_progress with_reducible apply Kept.lit
    | with_reducible exact Kept.of1 ‹_›
    | with_reducible exact Kept.of2 ‹_›
    | with_reducible exact Kept.of2 (p := (_, _)) ‹_›
    | dsimp only
    | dsimp +zetaDelta only

theorem heapRead_kept {s₀ : State} {a0 a1 a2 a3 a4 a5} :
    Kept s₀ a5 → Kept1 s₀ (heapRead a0 a1 a2 a3 a4 a5) := by
  intro h0
  unfold heapRead
  repeat' first
    | with_reducible assumption
    | with_reducible refine engineReadAs_kept ?_
    | with_reducible refine Kept.of1 (p := engineReadAs _ _ _ _ _ _ _) (engineReadAs_kept ?_)
    | with_reducible refine Kept.eq1 ‹_› ?_
    | extract_lets
    | split
    | with_reducible apply Kept1.mk
    | fail_if_no_progress with_reducible apply Kept.lit
    | with_reducible exact Kept.of1 ‹_›
    | with_reducible exact Kept.of2 ‹_›
    | with_reducible exact Kept.of2 (p := (_, _)) ‹_›
    | dsimp only
    | dsimp +zetaDelta only

theorem chunkRead_kept {s₀ : State} {a0 a1 a2 a3 a4} :
    Kept s₀ a4 → Kept1 s₀ (chunkRead a0 a1 a2 a3 a4) := by
  intro h0
  unfold chunkRead
  repeat' first
    | with_reducible assumption
    | with_reducible refine heapRead_kept ?_
    | with_reducible refine Kept.of1 (p := heapRead _ _ _ _ _ _) (heapRead_kept ?_)
    | with_reducible refine report_kept ?_
    | with_reducible refine engineWriteAs_kept ?_
    | with_reducible refine Kept.of1 (p := engineWriteAs _ _ _ _ _ _ _) (engineWriteAs_kept ?_)
    | with_reducible refine modOrb_kept ?_
    | with_reducible refine Kept.eq1 ‹_› ?_
    | extract_lets
    | split
    | with_reducible apply Kept1.mk
    | fail_if_no_progress with_reducible apply Kept.lit
    | with_reducible exact Kept.of1 ‹_›
    | with_reducible exact Kept.of2 ‹_›
    | with_reducible exact Kept.of2 (p := (_, _)) ‹_›
    | dsimp only
    | dsimp +zetaDelta only

theorem listRead_kept {s₀ : State} {a0 a1 a2 a3 a4 a5 a6} :
    Kept s₀ a6 → Kept1 s₀ (listRead a0 a1 a2 a3 a4 a5 a6) := by
  intro h0
  unfold listRead
  repeat' first
    | with_reducible assumption
    | with_reducible refine chunkRead_kept ?_
    | with_reducible refine Kept.of1 (p := chunkRead _ _ _ _ _) (chunkRead_kept ?_)
    | with_reducible refine Kept.foldl ?_ (fun _ _ _ => ?_)
    | with_reducible refine Kept1.foldl ?_ (fun _ _ _ => ?_)
    | with_reducible refine Kept.fold1 ?_ (fun _ _ _ => ?_)
    | with_reducible refine Kept.eq1 ‹_› ?_
    | extract_lets
    | split
    | with_reducible apply Kept1.mk
    | fail_if_no_progress with_reducible apply Kept.lit
    | with_reducible exact Kept.of1 ‹_›
    | with_reducible exact Kept.of2 ‹_›
    | with_reducible exact Kept.of2 (p := (_, _)) ‹_›
    | dsimp only
    | dsimp +zetaDelta only

theorem logTokens_kept {s₀ : State} {a0 a1 a2 a3} :
    Kept s₀ a3 → Kept1 s₀ (logTokens a0 a1 a2 a3) := by
  intro h0
  unfold logTokens
  repeat' first
    | with_reducible assumption
    | with_reducible refine listRead_kept ?_
    | with_reducible refine Kept.of1 (p := listRead _ _ _ _ _ _ _) (listRead_kept ?_)
    | with_reducible refine Kept.eq1 ‹_› ?_
    | extract_lets
    | split
    | with_reducible apply Kept1.mk
    | fail_if_no_progress with_reducible apply Kept.lit
    | with_reducible exact Kept.of1 ‹_›
    | with_reducible exact Kept.of2 ‹_›
    | with_reducible exact Kept.of2 (p := (_, _)) ‹_›
    | dsimp only
    | dsimp +zetaDelta only

theorem modOStat_kept {s₀ : State} {a0 a1 a2} :
    Kept s₀ a2 → Kept s₀ (modOStat a0 a1 a2) := by
  intro h0
  unfold modOStat
  repeat' first
    | with_reducible assumption
    | with_reducible refine modOrb_kept ?_
    | extract_lets
    | split
    | fail_if_no_progress with_reducible apply Kept.lit
    | with_reducible exact Kept.of1 ‹_›
    | with_reducible exact Kept.of2 ‹_›
    | with_reducible exact Kept.of2 (p := (_, _)) ‹_›
    | dsimp only
    | dsimp +zetaDelta only

theorem heapWrite_kept {s₀ : State} {a0 a1 a2 a3 a4} :
    Kept s₀ a4 → Kept1 s₀ (heapWrite a0 a1 a2 a3 a4) := by
  intro h0
  unfold heapWrite
  repeat' first
    | with_reducible assumption
    | with_reducible refine engineWriteAs_kept ?_
    | with_reducible refine Kept.of1 (p := engineWriteAs _ _ _ _ _ _ _) (engineWriteAs_kept ?_)
    | with_reducible refine Kept.eq1 ‹_› ?_
    | extract_lets
    | split
    | with_reducible apply Kept1.mk
    | fail_if_no_progress with_reducible apply Kept.lit
    | with_reducible exact Kept.of1 ‹_›
    | with_reducible exact Kept.of2 ‹_›
    | with_reducible exact Kept.of2 (p := (_, _)) ‹_›
    | dsimp only
    | dsimp +zetaDelta only

theorem growList_kept {s₀ : State} {a0 a1 a2 a3 a4} :
    Kept s₀ a4 → KeptO1 s₀ (growList a0 a1 a2 a3 a4) := by
  intro h0
  induction a3 generalizing a4 with
  | zero =>
      unfold growList
      repeat' first
        | with_reducible assumption
        | with_reducible refine heapWrite_kept ?_
        | with_reducible refine Kept.of1 (p := heapWrite _ _ _ _ _) (heapWrite_kept ?_)
        | with_reducible refine setSess_kept ?_
        | with_reducible refine Kept.eq1 ‹_› ?_
        | with_reducible refine Kept.eqO1 ‹_› ?_
        | extract_lets
        | split
        | with_reducible apply KeptO1.none
        | with_reducible apply KeptO1.some
        | with_reducible apply Kept1.mk
        | fail_if_no_progress with_reducible apply Kept.lit
        | with_reducible exact Kept.of1 ‹_›
        | with_reducible exact Kept.of2 ‹_›
        | with_reducible exact Kept.of2 (p := (_, _)) ‹_›
        | dsimp only
        | dsimp +zetaDelta only
  | succ _ ih =>
      unfold growList
      repeat' first
        | with_reducible assumption
        | with_reducible apply ih
        | with_reducible refine heapWrite_kept ?_
        | with_reducible refine Kept.of1 (p := heapWrite _ _ _ _ _) (heapWrite_kept ?_)
        | with_reducible refine setSess_kept ?_
        | with_reducible refine Kept.eq1 ‹_› ?_
        | with_reducible refine Kept.eqO1 ‹_› ?_
        | extract_lets
        | split
        | with_reducible apply KeptO1.none
        | with_reducible apply KeptO1.some
        | with_reducible apply Kept1.mk
        | fail_if_no_progress with_reducible apply Kept.lit
        | with_reducible exact Kept.of1 ‹_›
        | with_reducible exact Kept.of2 ‹_›
        | with_reducible exact Kept.of2 (p := (_, _)) ‹_›
        | dsimp only
        | dsimp +zetaDelta only

theorem listWrite_kept {s₀ : State} {a0 a1 a2 a3 a4 a5 a6 a7} :
    Kept s₀ a7 → Kept1 s₀ (listWrite a0 a1 a2 a3 a4 a5 a6 a7) := by
  intro h0
  unfold listWrite
  repeat' first
    | with_reducible assumption
    | with_reducible refine heapWrite_kept ?_
    | with_reducible refine Kept.of1 (p := heapWrite _ _ _ _ _) (heapWrite_kept ?_)
    | with_reducible refine Kept.foldl ?_ (fun _ _ _ => ?_)
    | with_reducible refine Kept1.foldl ?_ (fun _ _ _ => ?_)
    | with_reducible refine Kept.fold1 ?_ (fun _ _ _ => ?_)
    | with_reducible refine Kept.eq1 ‹_› ?_
    | extract_lets
    | split
    | with_reducible apply Kept1.mk
    | fail_if_no_progress with_reducible apply Kept.lit
    | with_reducible exact Kept.of1 ‹_›
    | with_reducible exact Kept.of2 ‹_›
    | with_reducible exact Kept.of2 (p := (_, _)) ‹_›
    | dsimp only
    | dsimp +zetaDelta only

theorem putTokens_kept {s₀ : State} {a0 a1 a2 a3} :
    Kept s₀ a3 → KeptO1 s₀ (putTokens a0 a1 a2 a3) := by
  intro h0
  unfold putTokens
  repeat' first
    | with_reducible assumption
    | with_reducible refine growList_kept ?_
    | with_reducible refine listWrite_kept ?_
    | with_reducible refine Kept.of1 (p := listWrite _ _ _ _ _ _ _ _) (listWrite_kept ?_)
    | with_reducible refine setSess_kept ?_
    | with_reducible refine Kept.eq1 ‹_› ?_
    | with_reducible refine Kept.eqO1 ‹_› ?_
    | extract_lets
    | split
    | with_reducible apply KeptO1.none
    | with_reducible apply KeptO1.some
    | with_reducible apply Kept1.mk
    | fail_if_no_progress with_reducible apply Kept.lit
    | with_reducible exact Kept.of1 ‹_›
    | with_reducible exact Kept.of2 ‹_›
    | with_reducible exact Kept.of2 (p := (_, _)) ‹_›
    | dsimp only
    | dsimp +zetaDelta only

theorem backTo_kept {s₀ : State} {a0 a1 a2} :
    Kept s₀ a2 → Kept1 s₀ (backTo a0 a1 a2) := by
  intro h0
  induction a1 generalizing a2 with
  | zero =>
      unfold backTo
      repeat' first
        | with_reducible assumption
        | with_reducible refine Kept.of1 (p := backTo _ _ _) ?_
        | with_reducible refine changePage_kept ?_
        | with_reducible refine putLeaf_kept ?_
        | with_reducible refine setSess_kept ?_
        | with_reducible refine Kept.eq1 ‹_› ?_
        | with_reducible refine KeptO2.bind ?_ (fun _ _ => ?_)
        | with_reducible refine KeptO.bind (fun _ => ?_)
        | extract_lets
        | split
        | with_reducible apply Kept1.mk
        | fail_if_no_progress with_reducible apply Kept.lit
        | with_reducible exact Kept.of1 ‹_›
        | with_reducible exact Kept.of2 ‹_›
        | with_reducible exact Kept.of2 (p := (_, _)) ‹_›
        | dsimp only
        | dsimp +zetaDelta only
  | succ _ ih =>
      unfold backTo
      repeat' first
        | with_reducible assumption
        | with_reducible apply ih
        | with_reducible refine Kept.of1 (p := backTo _ _ _) ?_
        | with_reducible refine changePage_kept ?_
        | with_reducible refine putLeaf_kept ?_
        | with_reducible refine setSess_kept ?_
        | with_reducible refine Kept.eq1 ‹_› ?_
        | with_reducible refine KeptO2.bind ?_ (fun _ _ => ?_)
        | with_reducible refine KeptO.bind (fun _ => ?_)
        | extract_lets
        | split
        | with_reducible apply Kept1.mk
        | fail_if_no_progress with_reducible apply Kept.lit
        | with_reducible exact Kept.of1 ‹_›
        | with_reducible exact Kept.of2 ‹_›
        | with_reducible exact Kept.of2 (p := (_, _)) ‹_›
        | dsimp only
        | dsimp +zetaDelta only

theorem backSome_kept {s₀ : State} {a0 a1} :
    Kept s₀ a1 → Kept1 s₀ (backSome a0 a1) := by
  intro h0
  unfold backSome
  repeat' first
    | with_reducible assumption
    | with_reducible refine backTo_kept ?_
    | with_reducible refine Kept.of1 (p := backTo _ _ _) (backTo_kept ?_)
    | with_reducible refine Kept.eq1 ‹_› ?_
    | extract_lets
    | split
    | with_reducible apply Kept1.mk
    | fail_if_no_progress with_reducible apply Kept.lit
    | with_reducible exact Kept.of1 ‹_›
    | with_reducible exact Kept.of2 ‹_›
    | with_reducible exact Kept.of2 (p := (_, _)) ‹_›
    | dsimp only
    | dsimp +zetaDelta only

theorem backLog_kept {s₀ : State} {a0 a1} :
    Kept s₀ a1 → KeptO s₀ (backLog a0 a1) := by
  intro h0
  unfold backLog
  repeat' first
    | with_reducible assumption
    | with_reducible refine backSome_kept ?_
    | with_reducible refine Kept.of1 (p := backSome _ _) (backSome_kept ?_)
    | with_reducible refine Kept.eq1 ‹_› ?_
    | extract_lets
    | split
    | with_reducible apply KeptO.none
    | with_reducible apply KeptO.some
    | with_reducible apply Kept1.mk
    | fail_if_no_progress with_reducible apply Kept.lit
    | with_reducible exact Kept.of1 ‹_›
    | with_reducible exact Kept.of2 ‹_›
    | with_reducible exact Kept.of2 (p := (_, _)) ‹_›
    | dsimp only
    | dsimp +zetaDelta only

theorem appendAt_kept {s₀ : State} {a0 a1 a2 a3 a4} :
    Kept s₀ a4 → Kept1 s₀ (appendAt a0 a1 a2 a3 a4) := by
  intro h0
  unfold appendAt
  repeat' first
    | with_reducible assumption
    | with_reducible refine logTokens_kept ?_
    | with_reducible refine Kept.of1 (p := logTokens _ _ _ _) (logTokens_kept ?_)
    | with_reducible refine modOStat_kept ?_
    | with_reducible refine report_kept ?_
    | with_reducible refine putTokens_kept ?_
    | with_reducible refine backLog_kept ?_
    | with_reducible refine Kept.eq1 ‹_› ?_
    | with_reducible refine Kept.eqO ‹_› ?_
    | with_reducible refine Kept.eqO1 ‹_› ?_
    | extract_lets
    | split
    | with_reducible apply Kept1.mk
    | fail_if_no_progress with_reducible apply Kept.lit
    | with_reducible exact Kept.of1 ‹_›
    | with_reducible exact Kept.of2 ‹_›
    | with_reducible exact Kept.of2 (p := (_, _)) ‹_›
    | dsimp only
    | dsimp +zetaDelta only

theorem locPiece_kept {s₀ : State} {a0 a1 a2 a3} :
    Kept s₀ a3 → Kept s₀ (locPiece a0 a1 a2 a3) := by
  intro h0
  unfold locPiece
  repeat' first
    | with_reducible assumption
    | with_reducible refine reply_kept ?_
    | extract_lets
    | split
    | fail_if_no_progress with_reducible apply Kept.lit
    | with_reducible exact Kept.of1 ‹_›
    | with_reducible exact Kept.of2 ‹_›
    | with_reducible exact Kept.of2 (p := (_, _)) ‹_›
    | dsimp only
    | dsimp +zetaDelta only

theorem vReply_kept {s₀ : State} {a0 a1 a2 a3} :
    Kept s₀ a3 → Kept s₀ (vReply a0 a1 a2 a3) := by
  intro h0
  unfold vReply
  repeat' first
    | with_reducible assumption
    | with_reducible refine locPiece_kept ?_
    | with_reducible refine reply_kept ?_
    | extract_lets
    | split
    | fail_if_no_progress with_reducible apply Kept.lit
    | with_reducible exact Kept.of1 ‹_›
    | with_reducible exact Kept.of2 ‹_›
    | with_reducible exact Kept.of2 (p := (_, _)) ‹_›
    | dsimp only
    | dsimp +zetaDelta only

theorem putEntry_kept {s₀ : State} {a0 a1 a2} :
    Kept s₀ a2 → Kept s₀ (putEntry a0 a1 a2) := by
  intro h0
  unfold putEntry
  repeat' first
    | with_reducible assumption
    | with_reducible refine modVtx_kept ?_
    | extract_lets
    | split
    | fail_if_no_progress with_reducible apply Kept.lit
    | with_reducible exact Kept.of1 ‹_›
    | with_reducible exact Kept.of2 ‹_›
    | with_reducible exact Kept.of2 (p := (_, _)) ‹_›
    | dsimp only
    | dsimp +zetaDelta only

theorem noteGrant_kept {s₀ : State} {a0 a1} :
    Kept s₀ a1 → Kept s₀ (noteGrant a0 a1) := by
  intro h0
  unfold noteGrant
  repeat' first
    | with_reducible assumption
    | with_reducible refine modVtx_kept ?_
    | extract_lets
    | split
    | fail_if_no_progress with_reducible apply Kept.lit
    | with_reducible exact Kept.of1 ‹_›
    | with_reducible exact Kept.of2 ‹_›
    | with_reducible exact Kept.of2 (p := (_, _)) ‹_›
    | dsimp only
    | dsimp +zetaDelta only

theorem finishTxn_kept {s₀ : State} {a0 a1 a2 a3} :
    Kept s₀ a3 → Kept s₀ (finishTxn a0 a1 a2 a3) := by
  intro h0
  unfold finishTxn
  repeat' first
    | with_reducible assumption
    | with_reducible refine modVtx_kept ?_
    | with_reducible refine putEntry_kept ?_
    | with_reducible refine vReply_kept ?_
    | with_reducible refine noteGrant_kept ?_
    | with_reducible refine Kept.getD ?_ ?_
    | extract_lets
    | split
    | fail_if_no_progress with_reducible apply Kept.lit
    | with_reducible exact Kept.of1 ‹_›
    | with_reducible exact Kept.of2 ‹_›
    | with_reducible exact Kept.of2 (p := (_, _)) ‹_›
    | dsimp only
    | dsimp +zetaDelta only

theorem applyMembers_kept {s₀ : State} {a0 a1 a2} :
    Kept s₀ a2 → Kept1 s₀ (applyMembers a0 a1 a2) := by
  intro h0
  induction a0 generalizing a1 a2 with
  | nil =>
      unfold applyMembers
      repeat' first
        | with_reducible assumption
        | with_reducible refine Kept.of1 (p := applyMembers _ _ _) ?_
        | with_reducible refine vReply_kept ?_
        | with_reducible refine Kept.eq1 ‹_› ?_
        | extract_lets
        | split
        | with_reducible apply Kept1.mk
        | fail_if_no_progress with_reducible apply Kept.lit
        | with_reducible exact Kept.of1 ‹_›
        | with_reducible exact Kept.of2 ‹_›
        | with_reducible exact Kept.of2 (p := (_, _)) ‹_›
        | dsimp only
        | dsimp +zetaDelta only
  | cons _ _ ih =>
      unfold applyMembers
      repeat' first
        | with_reducible assumption
        | with_reducible apply ih
        | with_reducible refine Kept.of1 (p := applyMembers _ _ _) ?_
        | with_reducible refine vReply_kept ?_
        | with_reducible refine Kept.eq1 ‹_› ?_
        | extract_lets
        | split
        | with_reducible apply Kept1.mk
        | fail_if_no_progress with_reducible apply Kept.lit
        | with_reducible exact Kept.of1 ‹_›
        | with_reducible exact Kept.of2 ‹_›
        | with_reducible exact Kept.of2 (p := (_, _)) ‹_›
        | dsimp only
        | dsimp +zetaDelta only

theorem applyAtomic_kept {s₀ : State} {a0 a1 a2} :
    Kept s₀ a2 → Kept s₀ (applyAtomic a0 a1 a2) := by
  intro h0
  unfold applyAtomic
  repeat' first
    | with_reducible assumption
    | with_reducible refine foldRead_kept ?_
    | with_reducible refine Kept.of1 (p := foldRead _ _ _ _ _) (foldRead_kept ?_)
    | with_reducible refine vReply_kept ?_
    | with_reducible refine finishTxn_kept ?_
    | with_reducible refine foldWriteOpt_kept ?_
    | with_reducible refine Kept.of1 (p := foldWriteOpt _ _ _ _ _ _ _) (foldWriteOpt_kept ?_)
    | with_reducible refine applyMembers_kept ?_
    | with_reducible refine Kept.of1 (p := applyMembers _ _ _) (applyMembers_kept ?_)
    | with_reducible refine Kept.foldl ?_ (fun _ _ _ => ?_)
    | with_reducible refine Kept1.foldl ?_ (fun _ _ _ => ?_)
    | with_reducible refine Kept.fold1 ?_ (fun _ _ _ => ?_)
    | with_reducible refine Kept.eq1 ‹_› ?_
    | extract_lets
    | split
    | with_reducible apply Kept1.mk
    | fail_if_no_progress with_reducible apply Kept.lit
    | with_reducible exact Kept.of1 ‹_›
    | with_reducible exact Kept.of2 ‹_›
    | with_reducible exact Kept.of2 (p := (_, _)) ‹_›
    | dsimp only
    | dsimp +zetaDelta only

theorem settleJobs_kept {s₀ : State} {a0 a1 a2} :
    Kept s₀ a2 → Kept s₀ (settleJobs a0 a1 a2) := by
  intro h0
  unfold settleJobs
  repeat' first
    | with_reducible assumption
    | with_reducible refine modPf_kept ?_
    | with_reducible refine Kept.foldl ?_ (fun _ _ _ => ?_)
    | with_reducible refine Kept1.foldl ?_ (fun _ _ _ => ?_)
    | with_reducible refine Kept.fold1 ?_ (fun _ _ _ => ?_)
    | with_reducible refine Kept.eq1 ‹_› ?_
    | extract_lets
    | split
    | with_reducible apply Kept1.mk
    | fail_if_no_progress with_reducible apply Kept.lit
    | with_reducible exact Kept.of1 ‹_›
    | with_reducible exact Kept.of2 ‹_›
    | with_reducible exact Kept.of2 (p := (_, _)) ‹_›
    | dsimp only
    | dsimp +zetaDelta only

theorem debitEvac_kept {s₀ : State} {a0 a1 a2 a3} :
    Kept s₀ a3 → Kept s₀ (debitEvac a0 a1 a2 a3) := by
  intro h0
  unfold debitEvac
  repeat' first
    | with_reducible assumption
    | with_reducible refine debit_kept ?_
    | with_reducible refine Kept.getD ?_ ?_
    | extract_lets
    | split
    | fail_if_no_progress with_reducible apply Kept.lit
    | with_reducible exact Kept.of1 ‹_›
    | with_reducible exact Kept.of2 ‹_›
    | with_reducible exact Kept.of2 (p := (_, _)) ‹_›
    | dsimp only
    | dsimp +zetaDelta only

theorem startMigr_kept {s₀ : State} {a0 a1 a2 a3} :
    Kept s₀ a3 → Kept s₀ (startMigr a0 a1 a2 a3) := by
  intro h0
  unfold startMigr
  repeat' first
    | with_reducible assumption
    | with_reducible refine debitEvac_kept ?_
    | with_reducible refine setPage_kept ?_
    | extract_lets
    | split
    | fail_if_no_progress with_reducible apply Kept.lit
    | with_reducible exact Kept.of1 ‹_›
    | with_reducible exact Kept.of2 ‹_›
    | with_reducible exact Kept.of2 (p := (_, _)) ‹_›
    | dsimp only
    | dsimp +zetaDelta only

theorem moveToHint_kept {s₀ : State} {a0 a1 a2} :
    Kept s₀ a2 → Kept1 s₀ (moveToHint a0 a1 a2) := by
  intro h0
  unfold moveToHint
  repeat' first
    | with_reducible assumption
    | with_reducible refine startMigr_kept ?_
    | with_reducible refine allocTier_kept ?_
    | with_reducible refine Kept.getD ?_ ?_
    | with_reducible refine Kept.eqO2 ‹_› ?_
    | extract_lets
    | split
    | with_reducible apply Kept1.mk
    | fail_if_no_progress with_reducible apply Kept.lit
    | with_reducible exact Kept.of1 ‹_›
    | with_reducible exact Kept.of2 ‹_›
    | with_reducible exact Kept.of2 (p := (_, _)) ‹_›
    | dsimp only
    | dsimp +zetaDelta only

theorem noteRelease_kept {s₀ : State} {a0 a1 a2} :
    Kept s₀ a2 → Kept s₀ (noteRelease a0 a1 a2) := by
  intro h0
  unfold noteRelease
  repeat' first
    | with_reducible assumption
    | extract_lets
    | split
    | fail_if_no_progress with_reducible apply Kept.lit
    | with_reducible exact Kept.of1 ‹_›
    | with_reducible exact Kept.of2 ‹_›
    | with_reducible exact Kept.of2 (p := (_, _)) ‹_›
    | dsimp only
    | dsimp +zetaDelta only

theorem moveToPrism_kept {s₀ : State} {a0 a1 a2} :
    Kept s₀ a2 → Kept1 s₀ (moveToPrism a0 a1 a2) := by
  intro h0
  unfold moveToPrism
  repeat' first
    | with_reducible assumption
    | with_reducible refine needPrism_kept ?_
    | with_reducible refine startMigr_kept ?_
    | with_reducible refine Kept.eqO2 ‹_› ?_
    | extract_lets
    | split
    | with_reducible apply Kept1.mk
    | fail_if_no_progress with_reducible apply Kept.lit
    | with_reducible exact Kept.of1 ‹_›
    | with_reducible exact Kept.of2 ‹_›
    | with_reducible exact Kept.of2 (p := (_, _)) ‹_›
    | dsimp only
    | dsimp +zetaDelta only

theorem releasePage_kept {s₀ : State} {a0 a1} :
    Kept s₀ a1 → Kept s₀ (releasePage a0 a1) := by
  intro h0
  unfold releasePage
  repeat' first
    | with_reducible assumption
    | extract_lets
    | split
    | fail_if_no_progress with_reducible apply Kept.lit
    | with_reducible exact Kept.of1 ‹_›
    | with_reducible exact Kept.of2 ‹_›
    | with_reducible exact Kept.of2 (p := (_, _)) ‹_›
    | dsimp only
    | dsimp +zetaDelta only

theorem plnAct_kept {s₀ : State} {a0 a1 a2} :
    Kept s₀ a2 → Kept1 s₀ (plnAct a0 a1 a2) := by
  intro h0
  unfold plnAct
  repeat' first
    | with_reducible assumption
    | with_reducible refine send_kept ?_
    | with_reducible refine moveToHint_kept ?_
    | with_reducible refine Kept.of1 (p := moveToHint _ _ _) (moveToHint_kept ?_)
    | with_reducible refine mirrorThen_kept (fun _ _ => ?_) ?_
    | with_reducible refine setPage_kept ?_
    | with_reducible refine noteRelease_kept ?_
    | with_reducible refine moveToPrism_kept ?_
    | with_reducible refine Kept.of1 (p := moveToPrism _ _ _) (moveToPrism_kept ?_)
    | with_reducible refine releasePage_kept ?_
    | with_reducible refine zeroPage_kept ?_
    | dsimp only [id_eq]
    | with_reducible refine Kept.eq1 ‹_› ?_
    | extract_lets
    | split
    | with_reducible apply Kept1.mk
    | fail_if_no_progress with_reducible apply Kept.lit
    | with_reducible exact Kept.of1 ‹_›
    | with_reducible exact Kept.of2 ‹_›
    | with_reducible exact Kept.of2 (p := (_, _)) ‹_›
    | dsimp only
    | dsimp +zetaDelta only

theorem plnStart_kept {s₀ : State} {a0 a1 a2 a3} :
    Kept s₀ a3 → Kept1 s₀ (plnStart a0 a1 a2 a3) := by
  intro h0
  unfold plnStart
  repeat' first
    | with_reducible assumption
    | with_reducible refine plnAct_kept ?_
    | with_reducible refine Kept.of1 (p := plnAct _ _ _) (plnAct_kept ?_)
    | with_reducible refine abandonMigr_kept ?_
    | with_reducible refine modPf_kept ?_
    | with_reducible refine Kept.eq1 ‹_› ?_
    | extract_lets
    | split
    | with_reducible apply Kept1.mk
    | fail_if_no_progress with_reducible apply Kept.lit
    | with_reducible exact Kept.of1 ‹_›
    | with_reducible exact Kept.of2 ‹_›
    | with_reducible exact Kept.of2 (p := (_, _)) ‹_›
    | dsimp only
    | dsimp +zetaDelta only

theorem resumeTodo_kept {s₀ : State} {a0 a1 a2} :
    Kept s₀ a2 → Kept1 s₀ (resumeTodo a0 a1 a2) := by
  intro h0
  induction a1 generalizing a2 with
  | nil =>
      unfold resumeTodo
      repeat' first
        | with_reducible assumption
        | with_reducible refine Kept.of1 (p := resumeTodo _ _ _) ?_
        | with_reducible refine plnStart_kept ?_
        | with_reducible refine Kept.of1 (p := plnStart _ _ _ _) (plnStart_kept ?_)
        | with_reducible refine Kept.eq1 ‹_› ?_
        | extract_lets
        | split
        | with_reducible apply Kept1.mk
        | fail_if_no_progress with_reducible apply Kept.lit
        | with_reducible exact Kept.of1 ‹_›
        | with_reducible exact Kept.of2 ‹_›
        | with_reducible exact Kept.of2 (p := (_, _)) ‹_›
        | dsimp only
        | dsimp +zetaDelta only
  | cons _ _ ih =>
      unfold resumeTodo
      repeat' first
        | with_reducible assumption
        | with_reducible apply ih
        | with_reducible refine Kept.of1 (p := resumeTodo _ _ _) ?_
        | with_reducible refine plnStart_kept ?_
        | with_reducible refine Kept.of1 (p := plnStart _ _ _ _) (plnStart_kept ?_)
        | with_reducible refine Kept.eq1 ‹_› ?_
        | extract_lets
        | split
        | with_reducible apply Kept1.mk
        | fail_if_no_progress with_reducible apply Kept.lit
        | with_reducible exact Kept.of1 ‹_›
        | with_reducible exact Kept.of2 ‹_›
        | with_reducible exact Kept.of2 (p := (_, _)) ‹_›
        | dsimp only
        | dsimp +zetaDelta only

theorem finishJobs_kept {s₀ : State} {a0} :
    Kept s₀ a0 → Kept s₀ (finishJobs a0) := by
  intro h0
  unfold finishJobs
  repeat' first
    | with_reducible assumption
    | with_reducible refine finishCmd_kept ?_
    | with_reducible refine Kept.foldl ?_ (fun _ _ _ => ?_)
    | with_reducible refine Kept1.foldl ?_ (fun _ _ _ => ?_)
    | with_reducible refine Kept.fold1 ?_ (fun _ _ _ => ?_)
    | with_reducible refine Kept.eq1 ‹_› ?_
    | extract_lets
    | split
    | with_reducible apply Kept1.mk
    | fail_if_no_progress with_reducible apply Kept.lit
    | with_reducible exact Kept.of1 ‹_›
    | with_reducible exact Kept.of2 ‹_›
    | with_reducible exact Kept.of2 (p := (_, _)) ‹_›
    | dsimp only
    | dsimp +zetaDelta only

theorem settle_kept {s₀ : State} {a0 a1 a2} :
    Kept s₀ a2 → Kept s₀ (settle a0 a1 a2) := by
  intro h0
  unfold settle
  repeat' first
    | with_reducible assumption
    | with_reducible refine settleJobs_kept ?_
    | with_reducible refine resumeTodo_kept ?_
    | with_reducible refine Kept.of1 (p := resumeTodo _ _ _) (resumeTodo_kept ?_)
    | with_reducible refine finishJobs_kept ?_
    | with_reducible refine Kept.eq1 ‹_› ?_
    | extract_lets
    | split
    | with_reducible apply Kept1.mk
    | fail_if_no_progress with_reducible apply Kept.lit
    | with_reducible exact Kept.of1 ‹_›
    | with_reducible exact Kept.of2 ‹_›
    | with_reducible exact Kept.of2 (p := (_, _)) ‹_›
    | dsimp only
    | dsimp +zetaDelta only

theorem applyEntry_kept {s₀ : State} {a0 a1 a2} :
    Kept s₀ a2 → Kept s₀ (applyEntry a0 a1 a2) := by
  intro h0
  unfold applyEntry
  repeat' first
    | with_reducible assumption
    | with_reducible refine zeroPage_kept ?_
    | with_reducible refine setPage_kept ?_
    | with_reducible refine modLoc_kept ?_
    | with_reducible refine settle_kept ?_
    | extract_lets
    | split
    | fail_if_no_progress with_reducible apply Kept.lit
    | with_reducible exact Kept.of1 ‹_›
    | with_reducible exact Kept.of2 ‹_›
    | with_reducible exact Kept.of2 (p := (_, _)) ‹_›
    | dsimp only
    | dsimp +zetaDelta only

theorem applyHint_kept {s₀ : State} {a0 a1 a2} :
    Kept s₀ a2 → Kept s₀ (applyHint a0 a1 a2) := by
  intro h0
  unfold applyHint
  repeat' first
    | with_reducible assumption
    | with_reducible refine setPage_kept ?_
    | with_reducible refine moveToHint_kept ?_
    | with_reducible refine Kept.of1 (p := moveToHint _ _ _) (moveToHint_kept ?_)
    | with_reducible refine settle_kept ?_
    | with_reducible refine Kept.eq1 ‹_› ?_
    | extract_lets
    | split
    | with_reducible apply Kept1.mk
    | fail_if_no_progress with_reducible apply Kept.lit
    | with_reducible exact Kept.of1 ‹_›
    | with_reducible exact Kept.of2 ‹_›
    | with_reducible exact Kept.of2 (p := (_, _)) ‹_›
    | dsimp only
    | dsimp +zetaDelta only

theorem restoreObjs_kept {s₀ : State} {a0 a1 a2} :
    Kept s₀ a2 → Kept s₀ (restoreObjs a0 a1 a2) := by
  intro h0
  unfold restoreObjs
  repeat' first
    | with_reducible assumption
    | with_reducible refine setObj_kept ?_
    | with_reducible refine Kept.foldl ?_ (fun _ _ _ => ?_)
    | with_reducible refine Kept1.foldl ?_ (fun _ _ _ => ?_)
    | with_reducible refine Kept.fold1 ?_ (fun _ _ _ => ?_)
    | with_reducible refine Kept.eq1 ‹_› ?_
    | extract_lets
    | split
    | with_reducible apply Kept1.mk
    | fail_if_no_progress with_reducible apply Kept.lit
    | with_reducible exact Kept.of1 ‹_›
    | with_reducible exact Kept.of2 ‹_›
    | with_reducible exact Kept.of2 (p := (_, _)) ‹_›
    | dsimp only
    | dsimp +zetaDelta only

theorem partnerSnapshot_kept {s₀ : State} {a0 a1 a2 a3} :
    Kept s₀ a3 → Kept s₀ (partnerSnapshot a0 a1 a2 a3) := by
  intro h0
  unfold partnerSnapshot
  repeat' first
    | with_reducible assumption
    | with_reducible refine modDom_kept ?_
    | with_reducible refine restoreObjs_kept ?_
    | extract_lets
    | split
    | fail_if_no_progress with_reducible apply Kept.lit
    | with_reducible exact Kept.of1 ‹_›
    | with_reducible exact Kept.of2 ‹_›
    | with_reducible exact Kept.of2 (p := (_, _)) ‹_›
    | dsimp only
    | dsimp +zetaDelta only

theorem partnerPage_kept {s₀ : State} {a0 a1 a2} :
    Kept s₀ a2 → Kept s₀ (partnerPage a0 a1 a2) := by
  intro h0
  unfold partnerPage
  repeat' first
    | with_reducible assumption
    | with_reducible refine setPage_kept ?_
    | with_reducible refine zeroPage_kept ?_
    | with_reducible refine settle_kept ?_
    | extract_lets
    | split
    | fail_if_no_progress with_reducible apply Kept.lit
    | with_reducible exact Kept.of1 ‹_›
    | with_reducible exact Kept.of2 ‹_›
    | with_reducible exact Kept.of2 (p := (_, _)) ‹_›
    | dsimp only
    | dsimp +zetaDelta only

theorem orbUpdate_kept {s₀ : State} {a0 a1 a2 a3} :
    Kept s₀ a3 → Kept s₀ (orbUpdate a0 a1 a2 a3) := by
  intro h0
  unfold orbUpdate
  repeat' first
    | with_reducible assumption
    | with_reducible refine setSess_kept ?_
    | with_reducible refine finishCmd_kept ?_
    | with_reducible refine modOrb_kept ?_
    | extract_lets
    | split
    | fail_if_no_progress with_reducible apply Kept.lit
    | with_reducible exact Kept.of1 ‹_›
    | with_reducible exact Kept.of2 ‹_›
    | with_reducible exact Kept.of2 (p := (_, _)) ‹_›
    | dsimp only
    | dsimp +zetaDelta only

theorem stepFt_kept {s₀ : State} {a0 a1} :
    Kept s₀ a1 → Kept s₀ (stepFt a0 a1) := by
  intro h0
  unfold stepFt
  repeat' first
    | with_reducible assumption
    | with_reducible refine modEnergy_kept ?_
    | extract_lets
    | split
    | fail_if_no_progress with_reducible apply Kept.lit
    | with_reducible exact Kept.of1 ‹_›
    | with_reducible exact Kept.of2 ‹_›
    | with_reducible exact Kept.of2 (p := (_, _)) ‹_›
    | dsimp only
    | dsimp +zetaDelta only

theorem modCmp_kept {s₀ : State} {a0 a1} :
    Kept s₀ a1 → Kept s₀ (modCmp a0 a1) := by
  intro h0
  unfold modCmp
  repeat' first
    | with_reducible assumption
    | extract_lets
    | split
    | fail_if_no_progress with_reducible apply Kept.lit
    | with_reducible exact Kept.of1 ‹_›
    | with_reducible exact Kept.of2 ‹_›
    | with_reducible exact Kept.of2 (p := (_, _)) ‹_›
    | dsimp only
    | dsimp +zetaDelta only

theorem skipFt_kept {s₀ : State} {a0 a1} :
    Kept s₀ a1 → Kept s₀ (skipFt a0 a1) := by
  intro h0
  unfold skipFt
  repeat' first
    | with_reducible assumption
    | with_reducible refine modDom_kept ?_
    | with_reducible refine Kept.foldl ?_ (fun _ _ _ => ?_)
    | with_reducible refine Kept1.foldl ?_ (fun _ _ _ => ?_)
    | with_reducible refine Kept.fold1 ?_ (fun _ _ _ => ?_)
    | with_reducible refine Kept.eq1 ‹_› ?_
    | extract_lets
    | split
    | with_reducible apply Kept1.mk
    | fail_if_no_progress with_reducible apply Kept.lit
    | with_reducible exact Kept.of1 ‹_›
    | with_reducible exact Kept.of2 ‹_›
    | with_reducible exact Kept.of2 (p := (_, _)) ‹_›
    | dsimp only
    | dsimp +zetaDelta only

theorem modMer_kept {s₀ : State} {a0 a1} :
    Kept s₀ a1 → Kept s₀ (modMer a0 a1) := by
  intro h0
  unfold modMer
  repeat' first
    | with_reducible assumption
    | extract_lets
    | split
    | fail_if_no_progress with_reducible apply Kept.lit
    | with_reducible exact Kept.of1 ‹_›
    | with_reducible exact Kept.of2 ‹_›
    | with_reducible exact Kept.of2 (p := (_, _)) ‹_›
    | dsimp only
    | dsimp +zetaDelta only

theorem leaderStep_kept {s₀ : State} {a0 a1 a2} :
    Kept s₀ a2 → Kept s₀ (leaderStep a0 a1 a2) := by
  intro h0
  unfold leaderStep
  repeat' first
    | with_reducible assumption
    | with_reducible refine stepFt_kept ?_
    | with_reducible refine modCmp_kept ?_
    | with_reducible refine skipFt_kept ?_
    | with_reducible refine modMer_kept ?_
    | extract_lets
    | split
    | fail_if_no_progress with_reducible apply Kept.lit
    | with_reducible exact Kept.of1 ‹_›
    | with_reducible exact Kept.of2 ‹_›
    | with_reducible exact Kept.of2 (p := (_, _)) ‹_›
    | dsimp only
    | dsimp +zetaDelta only

theorem fireFt_kept {s₀ : State} {a0} :
    Kept s₀ a0 → Kept s₀ (fireFt a0) := by
  intro h0
  unfold fireFt
  repeat' first
    | with_reducible assumption
    | with_reducible refine modDom_kept ?_
    | with_reducible refine Kept.foldl ?_ (fun _ _ _ => ?_)
    | with_reducible refine Kept1.foldl ?_ (fun _ _ _ => ?_)
    | with_reducible refine Kept.fold1 ?_ (fun _ _ _ => ?_)
    | with_reducible refine Kept.eq1 ‹_› ?_
    | extract_lets
    | split
    | with_reducible apply Kept1.mk
    | fail_if_no_progress with_reducible apply Kept.lit
    | with_reducible exact Kept.of1 ‹_›
    | with_reducible exact Kept.of2 ‹_›
    | with_reducible exact Kept.of2 (p := (_, _)) ‹_›
    | dsimp only
    | dsimp +zetaDelta only

theorem firstLock_kept {s₀ : State} {a0 a1} :
    Kept s₀ a1 → Kept s₀ (firstLock a0 a1) := by
  intro h0
  unfold firstLock
  repeat' first
    | with_reducible assumption
    | with_reducible refine stepFt_kept ?_
    | with_reducible refine fireFt_kept ?_
    | with_reducible refine skipFt_kept ?_
    | extract_lets
    | split
    | fail_if_no_progress with_reducible apply Kept.lit
    | with_reducible exact Kept.of1 ‹_›
    | with_reducible exact Kept.of2 ‹_›
    | with_reducible exact Kept.of2 (p := (_, _)) ‹_›
    | dsimp only
    | dsimp +zetaDelta only

theorem followTime_kept {s₀ : State} {a0 a1 a2 a3} :
    Kept s₀ a3 → Kept s₀ (followTime a0 a1 a2 a3) := by
  intro h0
  unfold followTime
  repeat' first
    | with_reducible assumption
    | with_reducible refine leaderStep_kept ?_
    | with_reducible refine firstLock_kept ?_
    | with_reducible refine modMer_kept ?_
    | with_reducible refine fireFt_kept ?_
    | with_reducible refine skipFt_kept ?_
    | extract_lets
    | split
    | fail_if_no_progress with_reducible apply Kept.lit
    | with_reducible exact Kept.of1 ‹_›
    | with_reducible exact Kept.of2 ‹_›
    | with_reducible exact Kept.of2 (p := (_, _)) ‹_›
    | dsimp only
    | dsimp +zetaDelta only

theorem clearBlocks_kept {s₀ : State} {a0} :
    Kept s₀ a0 → Kept s₀ (clearBlocks a0) := by
  intro h0
  exact ⟨h0.1, fun _ => rfl⟩

theorem holdBlocks_kept {s₀ : State} {a0 a1} :
    Kept s₀ a1 → Kept s₀ (holdBlocks a0 a1) := by
  intro h0
  unfold holdBlocks
  repeat' first
    | with_reducible assumption
    | with_reducible refine clearBlocks_kept ?_
    | extract_lets
    | split
    | fail_if_no_progress with_reducible apply Kept.lit
    | with_reducible exact Kept.of1 ‹_›
    | with_reducible exact Kept.of2 ‹_›
    | with_reducible exact Kept.of2 (p := (_, _)) ‹_›
    | dsimp only
    | dsimp +zetaDelta only

end Sys2Proof.Machine
end

