-- ==== Sys2Proof/Laws/Kept3.lean ====
section
/-!
SUPPORT. The operations, bist to cenAppend in the order of their calls: each keeps the queue and the form of memory.
-/
namespace Sys2Proof.Machine

set_option linter.unusedTactic false
set_option linter.unreachableTactic false

theorem bist_kept {s₀ : State} {a0 a1} :
    Kept s₀ a1 → Kept s₀ (bist a0 a1) := by
  intro h0
  unfold bist
  repeat' first
    | with_reducible assumption
    | with_reducible refine modCmp_kept ?_
    | extract_lets
    | split
    | fail_if_no_progress with_reducible apply Kept.lit
    | with_reducible exact Kept.of1 ‹_›
    | with_reducible exact Kept.of2 ‹_›
    | with_reducible exact Kept.of2 (p := (_, _)) ‹_›
    | dsimp only
    | dsimp +zetaDelta only

theorem modPins_kept {s₀ : State} {a0 a1} :
    Kept s₀ a1 → Kept s₀ (modPins a0 a1) := by
  intro h0
  unfold modPins
  repeat' first
    | with_reducible assumption
    | extract_lets
    | split
    | fail_if_no_progress with_reducible apply Kept.lit
    | with_reducible exact Kept.of1 ‹_›
    | with_reducible exact Kept.of2 ‹_›
    | with_reducible exact Kept.of2 (p := (_, _)) ‹_›
    | dsimp only
    | dsimp +zetaDelta only

theorem initStore_kept {s₀ : State} {a0} :
    Kept s₀ a0 → Kept s₀ (initStore a0) := by
  intro h0
  unfold initStore
  repeat' first
    | with_reducible assumption
    | with_reducible refine modPer_kept ?_
    | with_reducible refine report_kept ?_
    | with_reducible refine Kept.foldl ?_ (fun _ _ _ => ?_)
    | with_reducible refine Kept1.foldl ?_ (fun _ _ _ => ?_)
    | with_reducible refine Kept.fold1 ?_ (fun _ _ _ => ?_)
    | with_reducible refine Kept.eq1 ‹_› ?_
    | extract_lets
    | split
    | with_reducible apply Kept1.mk
    | fail_if_no_progress with_reducible apply Kept.lit
    | with_reducible exact Kept.of1 ‹_›
    | with_reducible exact Kept.of2 ‹_›
    | with_reducible exact Kept.of2 (p := (_, _)) ‹_›
    | dsimp only
    | dsimp +zetaDelta only

theorem reportRetired_kept {s₀ : State} {a0 a1 a2} :
    Kept s₀ a2 → Kept s₀ (reportRetired a0 a1 a2) := by
  intro h0
  unfold reportRetired
  repeat' first
    | with_reducible assumption
    | with_reducible refine report_kept ?_
    | extract_lets
    | split
    | fail_if_no_progress with_reducible apply Kept.lit
    | with_reducible exact Kept.of1 ‹_›
    | with_reducible exact Kept.of2 ‹_›
    | with_reducible exact Kept.of2 (p := (_, _)) ‹_›
    | dsimp only
    | dsimp +zetaDelta only

theorem recordRetired_kept {s₀ : State} {a0 a1} :
    Kept s₀ a1 → Kept s₀ (recordRetired a0 a1) := by
  intro h0
  unfold recordRetired
  repeat' first
    | with_reducible assumption
    | with_reducible refine report_kept ?_
    | extract_lets
    | split
    | fail_if_no_progress with_reducible apply Kept.lit
    | with_reducible exact Kept.of1 ‹_›
    | with_reducible exact Kept.of2 ‹_›
    | with_reducible exact Kept.of2 (p := (_, _)) ‹_›
    | dsimp only
    | dsimp +zetaDelta only

theorem checkDegraded_kept {s₀ : State} {a0} :
    Kept s₀ a0 → Kept s₀ (checkDegraded a0) := by
  intro h0
  unfold checkDegraded
  repeat' first
    | with_reducible assumption
    | with_reducible refine report_kept ?_
    | extract_lets
    | split
    | fail_if_no_progress with_reducible apply Kept.lit
    | with_reducible exact Kept.of1 ‹_›
    | with_reducible exact Kept.of2 ‹_›
    | with_reducible exact Kept.of2 (p := (_, _)) ‹_›
    | dsimp only
    | dsimp +zetaDelta only

theorem redirect_kept {s₀ : State} {a0 a1} :
    Kept s₀ a1 → Kept s₀ (redirect a0 a1) := by
  intro h0
  unfold redirect
  repeat' first
    | with_reducible assumption
    | with_reducible refine abandonMigr_kept ?_
    | with_reducible refine allocFirst_kept ?_
    | with_reducible refine startMigr_kept ?_
    | with_reducible refine settle_kept ?_
    | with_reducible refine Kept.foldl ?_ (fun _ _ _ => ?_)
    | with_reducible refine Kept1.foldl ?_ (fun _ _ _ => ?_)
    | with_reducible refine Kept.fold1 ?_ (fun _ _ _ => ?_)
    | with_reducible refine Kept.getD ?_ ?_
    | with_reducible refine Kept.eq1 ‹_› ?_
    | with_reducible refine Kept.eqO2 ‹_› ?_
    | extract_lets
    | split
    | with_reducible apply Kept1.mk
    | fail_if_no_progress with_reducible apply Kept.lit
    | with_reducible exact Kept.of1 ‹_›
    | with_reducible exact Kept.of2 ‹_›
    | with_reducible exact Kept.of2 (p := (_, _)) ‹_›
    | dsimp only
    | dsimp +zetaDelta only

theorem evacPage_kept {s₀ : State} {a0 a1} :
    Kept s₀ a1 → Kept s₀ (evacPage a0 a1) := by
  intro h0
  unfold evacPage
  repeat' first
    | with_reducible assumption
    | with_reducible refine allocFirst_kept ?_
    | with_reducible refine startMigr_kept ?_
    | with_reducible refine Kept.eqO2 ‹_› ?_
    | extract_lets
    | split
    | fail_if_no_progress with_reducible apply Kept.lit
    | with_reducible exact Kept.of1 ‹_›
    | with_reducible exact Kept.of2 ‹_›
    | with_reducible exact Kept.of2 (p := (_, _)) ‹_›
    | dsimp only
    | dsimp +zetaDelta only

theorem evacuate_kept {s₀ : State} {a0 a1} :
    Kept s₀ a1 → Kept s₀ (evacuate a0 a1) := by
  intro h0
  unfold evacuate
  repeat' first
    | with_reducible assumption
    | with_reducible refine redirect_kept ?_
    | with_reducible refine changePage_kept ?_
    | with_reducible refine evacPage_kept ?_
    | with_reducible refine Kept.foldl ?_ (fun _ _ _ => ?_)
    | with_reducible refine Kept1.foldl ?_ (fun _ _ _ => ?_)
    | with_reducible refine Kept.fold1 ?_ (fun _ _ _ => ?_)
    | with_reducible refine Kept.eq1 ‹_› ?_
    | extract_lets
    | split
    | with_reducible apply Kept1.mk
    | fail_if_no_progress with_reducible apply Kept.lit
    | with_reducible exact Kept.of1 ‹_›
    | with_reducible exact Kept.of2 ‹_›
    | with_reducible exact Kept.of2 (p := (_, _)) ‹_›
    | dsimp only
    | dsimp +zetaDelta only

theorem retireFrame_kept {s₀ : State} {a0 a1} :
    Kept s₀ a1 → Kept s₀ (retireFrame a0 a1) := by
  intro h0
  unfold retireFrame
  repeat' first
    | with_reducible assumption
    | with_reducible refine reportRetired_kept ?_
    | with_reducible refine recordRetired_kept ?_
    | with_reducible refine checkDegraded_kept ?_
    | with_reducible refine evacuate_kept ?_
    | extract_lets
    | split
    | fail_if_no_progress with_reducible apply Kept.lit
    | with_reducible exact Kept.of1 ‹_›
    | with_reducible exact Kept.of2 ‹_›
    | with_reducible exact Kept.of2 (p := (_, _)) ‹_›
    | dsimp only
    | dsimp +zetaDelta only

theorem initPlane_kept {s₀ : State} {a0 a1} :
    Kept s₀ a1 → Kept s₀ (initPlane a0 a1) := by
  intro h0
  unfold initPlane
  repeat' first
    | with_reducible assumption
    | with_reducible refine retireFrame_kept ?_
    | with_reducible refine Kept.foldl ?_ (fun _ _ _ => ?_)
    | with_reducible refine Kept1.foldl ?_ (fun _ _ _ => ?_)
    | with_reducible refine Kept.fold1 ?_ (fun _ _ _ => ?_)
    | with_reducible refine Kept.eq1 ‹_› ?_
    | extract_lets
    | split
    | with_reducible apply Kept1.mk
    | fail_if_no_progress with_reducible apply Kept.lit
    | with_reducible exact Kept.of1 ‹_›
    | with_reducible exact Kept.of2 ‹_›
    | with_reducible exact Kept.of2 (p := (_, _)) ‹_›
    | dsimp only
    | dsimp +zetaDelta only

theorem loadRegs_kept {s₀ : State} {a0} :
    Kept s₀ a0 → Kept s₀ (loadRegs a0) := by
  intro h0
  unfold loadRegs
  repeat' first
    | with_reducible assumption
    | extract_lets
    | split
    | fail_if_no_progress with_reducible apply Kept.lit
    | with_reducible exact Kept.of1 ‹_›
    | with_reducible exact Kept.of2 ‹_›
    | with_reducible exact Kept.of2 (p := (_, _)) ‹_›
    | dsimp only
    | dsimp +zetaDelta only

theorem initFlows_kept {s₀ : State} {a0} :
    Kept s₀ a0 → Kept s₀ (initFlows a0) := by
  intro h0
  unfold initFlows
  repeat' first
    | with_reducible assumption
    | with_reducible refine modFlow_kept ?_
    | with_reducible refine Kept.foldl ?_ (fun _ _ _ => ?_)
    | with_reducible refine Kept1.foldl ?_ (fun _ _ _ => ?_)
    | with_reducible refine Kept.fold1 ?_ (fun _ _ _ => ?_)
    | with_reducible refine Kept.eq1 ‹_› ?_
    | extract_lets
    | split
    | with_reducible apply Kept1.mk
    | fail_if_no_progress with_reducible apply Kept.lit
    | with_reducible exact Kept.of1 ‹_›
    | with_reducible exact Kept.of2 ‹_›
    | with_reducible exact Kept.of2 (p := (_, _)) ‹_›
    | dsimp only
    | dsimp +zetaDelta only

theorem initQps_kept {s₀ : State} {a0} :
    Kept s₀ a0 → Kept s₀ (initQps a0) := by
  intro h0
  unfold initQps
  repeat' first
    | with_reducible assumption
    | with_reducible refine modEdge_kept ?_
    | with_reducible refine Kept.foldl ?_ (fun _ _ _ => ?_)
    | with_reducible refine Kept1.foldl ?_ (fun _ _ _ => ?_)
    | with_reducible refine Kept.fold1 ?_ (fun _ _ _ => ?_)
    | with_reducible refine Kept.eq1 ‹_› ?_
    | extract_lets
    | split
    | with_reducible apply Kept1.mk
    | fail_if_no_progress with_reducible apply Kept.lit
    | with_reducible exact Kept.of1 ‹_›
    | with_reducible exact Kept.of2 ‹_›
    | with_reducible exact Kept.of2 (p := (_, _)) ‹_›
    | dsimp only
    | dsimp +zetaDelta only

theorem initMeridian_kept {s₀ : State} {a0} :
    Kept s₀ a0 → Kept s₀ (initMeridian a0) := by
  intro h0
  unfold initMeridian
  repeat' first
    | with_reducible assumption
    | with_reducible refine setObj_kept ?_
    | with_reducible refine setSeq_kept ?_
    | with_reducible refine setDom_kept ?_
    | with_reducible refine Kept.foldl ?_ (fun _ _ _ => ?_)
    | with_reducible refine Kept1.foldl ?_ (fun _ _ _ => ?_)
    | with_reducible refine Kept.fold1 ?_ (fun _ _ _ => ?_)
    | with_reducible refine Kept.eq1 ‹_› ?_
    | extract_lets
    | split
    | with_reducible apply Kept1.mk
    | fail_if_no_progress with_reducible apply Kept.lit
    | with_reducible exact Kept.of1 ‹_›
    | with_reducible exact Kept.of2 ‹_›
    | with_reducible exact Kept.of2 (p := (_, _)) ‹_›
    | dsimp only
    | dsimp +zetaDelta only

theorem laneRetired_kept {s₀ : State} {a0 a1 a2 a3} :
    Kept s₀ a3 → Kept s₀ (laneRetired a0 a1 a2 a3) := by
  intro h0
  unfold laneRetired
  repeat' first
    | with_reducible assumption
    | with_reducible refine report_kept ?_
    | with_reducible refine recordRetired_kept ?_
    | extract_lets
    | split
    | fail_if_no_progress with_reducible apply Kept.lit
    | with_reducible exact Kept.of1 ‹_›
    | with_reducible exact Kept.of2 ‹_›
    | with_reducible exact Kept.of2 (p := (_, _)) ‹_›
    | dsimp only
    | dsimp +zetaDelta only

theorem initPorts_kept {s₀ : State} {a0 a1} :
    Kept s₀ a1 → Kept s₀ (initPorts a0 a1) := by
  intro h0
  unfold initPorts
  repeat' first
    | with_reducible assumption
    | with_reducible refine setPort_kept ?_
    | with_reducible refine laneRetired_kept ?_
    | with_reducible refine Kept.foldl ?_ (fun _ _ _ => ?_)
    | with_reducible refine Kept1.foldl ?_ (fun _ _ _ => ?_)
    | with_reducible refine Kept.fold1 ?_ (fun _ _ _ => ?_)
    | with_reducible refine Kept.eq1 ‹_› ?_
    | extract_lets
    | split
    | with_reducible apply Kept1.mk
    | fail_if_no_progress with_reducible apply Kept.lit
    | with_reducible exact Kept.of1 ‹_›
    | with_reducible exact Kept.of2 ‹_›
    | with_reducible exact Kept.of2 (p := (_, _)) ‹_›
    | dsimp only
    | dsimp +zetaDelta only

theorem startInit_kept {s₀ : State} {a0 a1} :
    Kept s₀ a1 → Kept s₀ (startInit a0 a1) := by
  intro h0
  unfold startInit
  repeat' first
    | with_reducible assumption
    | with_reducible refine bist_kept ?_
    | with_reducible refine holdBlocks_kept ?_
    | with_reducible refine modCmp_kept ?_
    | with_reducible refine modPins_kept ?_
    | with_reducible refine initStore_kept ?_
    | with_reducible refine initPlane_kept ?_
    | with_reducible refine loadRegs_kept ?_
    | with_reducible refine initFlows_kept ?_
    | with_reducible refine initQps_kept ?_
    | with_reducible refine initMeridian_kept ?_
    | with_reducible refine initPorts_kept ?_
    | with_reducible refine modPair_kept ?_
    | with_reducible refine modPer_kept ?_
    | extract_lets
    | split
    | fail_if_no_progress with_reducible apply Kept.lit
    | with_reducible exact Kept.of1 ‹_›
    | with_reducible exact Kept.of2 ‹_›
    | with_reducible exact Kept.of2 (p := (_, _)) ‹_›
    | dsimp only
    | dsimp +zetaDelta only

theorem dropPool_kept {s₀ : State} {a0} :
    Kept s₀ a0 → Kept s₀ (dropPool a0) := by
  intro h0
  unfold dropPool
  repeat' first
    | with_reducible assumption
    | with_reducible refine modPer_kept ?_
    | extract_lets
    | split
    | fail_if_no_progress with_reducible apply Kept.lit
    | with_reducible exact Kept.of1 ‹_›
    | with_reducible exact Kept.of2 ‹_›
    | with_reducible exact Kept.of2 (p := (_, _)) ‹_›
    | dsimp only
    | dsimp +zetaDelta only

theorem sendMirror_kept {s₀ : State} {a0} :
    Kept s₀ a0 → Kept s₀ (sendMirror a0) := by
  intro h0
  unfold sendMirror
  repeat' first
    | with_reducible assumption
    | with_reducible refine mirrorOnly_kept ?_
    | with_reducible refine Kept.foldl ?_ (fun _ _ _ => ?_)
    | with_reducible refine Kept1.foldl ?_ (fun _ _ _ => ?_)
    | with_reducible refine Kept.fold1 ?_ (fun _ _ _ => ?_)
    | with_reducible refine Kept.eq1 ‹_› ?_
    | extract_lets
    | split
    | with_reducible apply Kept1.mk
    | fail_if_no_progress with_reducible apply Kept.lit
    | with_reducible exact Kept.of1 ‹_›
    | with_reducible exact Kept.of2 ‹_›
    | with_reducible exact Kept.of2 (p := (_, _)) ‹_›
    | dsimp only
    | dsimp +zetaDelta only

theorem tryPair_kept {s₀ : State} {a0} :
    Kept s₀ a0 → Kept s₀ (tryPair a0) := by
  intro h0
  unfold tryPair
  repeat' first
    | with_reducible assumption
    | with_reducible refine sendMirror_kept ?_
    | with_reducible refine modPair_kept ?_
    | extract_lets
    | split
    | fail_if_no_progress with_reducible apply Kept.lit
    | with_reducible exact Kept.of1 ‹_›
    | with_reducible exact Kept.of2 ‹_›
    | with_reducible exact Kept.of2 (p := (_, _)) ‹_›
    | dsimp only
    | dsimp +zetaDelta only

theorem partnerStatement_kept {s₀ : State} {a0 a1 a2 a3 a4 a5} :
    Kept s₀ a5 → Kept s₀ (partnerStatement a0 a1 a2 a3 a4 a5) := by
  intro h0
  unfold partnerStatement
  repeat' first
    | with_reducible assumption
    | with_reducible refine modPair_kept ?_
    | with_reducible refine modPer_kept ?_
    | with_reducible refine holdBlocks_kept ?_
    | with_reducible refine report_kept ?_
    | with_reducible refine startInit_kept ?_
    | with_reducible refine dropPool_kept ?_
    | with_reducible refine sendMirror_kept ?_
    | with_reducible refine tryPair_kept ?_
    | extract_lets
    | split
    | fail_if_no_progress with_reducible apply Kept.lit
    | with_reducible exact Kept.of1 ‹_›
    | with_reducible exact Kept.of2 ‹_›
    | with_reducible exact Kept.of2 (p := (_, _)) ‹_›
    | dsimp only
    | dsimp +zetaDelta only

theorem groupZeroed_kept {s₀ : State} {a0 a1 a2} :
    Kept s₀ a2 → Kept s₀ (groupZeroed a0 a1 a2) := by
  intro h0
  unfold groupZeroed
  repeat' first
    | with_reducible assumption
    | with_reducible refine zeroPage_kept ?_
    | with_reducible refine modPer_kept ?_
    | with_reducible refine Kept.foldl ?_ (fun _ _ _ => ?_)
    | with_reducible refine Kept1.foldl ?_ (fun _ _ _ => ?_)
    | with_reducible refine Kept.fold1 ?_ (fun _ _ _ => ?_)
    | with_reducible refine Kept.eq1 ‹_› ?_
    | extract_lets
    | split
    | with_reducible apply Kept1.mk
    | fail_if_no_progress with_reducible apply Kept.lit
    | with_reducible exact Kept.of1 ‹_›
    | with_reducible exact Kept.of2 ‹_›
    | with_reducible exact Kept.of2 (p := (_, _)) ‹_›
    | dsimp only
    | dsimp +zetaDelta only

theorem scrubSeqs_kept {s₀ : State} {a0 a1} :
    Kept s₀ a1 → Kept s₀ (scrubSeqs a0 a1) := by
  intro h0
  unfold scrubSeqs
  repeat' first
    | with_reducible assumption
    | with_reducible refine abandonSeqs_kept ?_
    | with_reducible refine modSeq_kept ?_
    | with_reducible refine Kept.foldl ?_ (fun _ _ _ => ?_)
    | with_reducible refine Kept1.foldl ?_ (fun _ _ _ => ?_)
    | with_reducible refine Kept.fold1 ?_ (fun _ _ _ => ?_)
    | with_reducible refine Kept.eq1 ‹_› ?_
    | extract_lets
    | split
    | with_reducible apply Kept1.mk
    | fail_if_no_progress with_reducible apply Kept.lit
    | with_reducible exact Kept.of1 ‹_›
    | with_reducible exact Kept.of2 ‹_›
    | with_reducible exact Kept.of2 (p := (_, _)) ‹_›
    | dsimp only
    | dsimp +zetaDelta only

theorem freeSess_kept {s₀ : State} {a0 a1} :
    Kept s₀ a1 → Kept s₀ (freeSess a0 a1) := by
  intro h0
  unfold freeSess
  repeat' first
    | with_reducible assumption
    | with_reducible refine setSess_kept ?_
    | with_reducible refine modOrb_kept ?_
    | extract_lets
    | split
    | fail_if_no_progress with_reducible apply Kept.lit
    | with_reducible exact Kept.of1 ‹_›
    | with_reducible exact Kept.of2 ‹_›
    | with_reducible exact Kept.of2 (p := (_, _)) ‹_›
    | dsimp only
    | dsimp +zetaDelta only

theorem orbScrub_kept {s₀ : State} {a0 a1} :
    Kept s₀ a1 → Kept s₀ (orbScrub a0 a1) := by
  intro h0
  unfold orbScrub
  repeat' first
    | with_reducible assumption
    | with_reducible refine setSess_kept ?_
    | with_reducible refine freeSess_kept ?_
    | with_reducible refine modOrb_kept ?_
    | with_reducible refine setQueue_kept ?_
    | with_reducible refine Kept.foldl ?_ (fun _ _ _ => ?_)
    | with_reducible refine Kept1.foldl ?_ (fun _ _ _ => ?_)
    | with_reducible refine Kept.fold1 ?_ (fun _ _ _ => ?_)
    | with_reducible refine Kept.eq1 ‹_› ?_
    | extract_lets
    | split
    | with_reducible apply Kept1.mk
    | fail_if_no_progress with_reducible apply Kept.lit
    | with_reducible exact Kept.of1 ‹_›
    | with_reducible exact Kept.of2 ‹_›
    | with_reducible exact Kept.of2 (p := (_, _)) ‹_›
    | dsimp only
    | dsimp +zetaDelta only

theorem cenScrub_kept {s₀ : State} {a0 a1} :
    Kept s₀ a1 → Kept s₀ (cenScrub a0 a1) := by
  intro h0
  unfold cenScrub
  repeat' first
    | with_reducible assumption
    | with_reducible refine setIdx_kept ?_
    | with_reducible refine freeIdx_kept ?_
    | with_reducible refine modCen_kept ?_
    | with_reducible refine Kept.foldl ?_ (fun _ _ _ => ?_)
    | with_reducible refine Kept1.foldl ?_ (fun _ _ _ => ?_)
    | with_reducible refine Kept.fold1 ?_ (fun _ _ _ => ?_)
    | with_reducible refine Kept.eq1 ‹_› ?_
    | extract_lets
    | split
    | with_reducible apply Kept1.mk
    | fail_if_no_progress with_reducible apply Kept.lit
    | with_reducible exact Kept.of1 ‹_›
    | with_reducible exact Kept.of2 ‹_›
    | with_reducible exact Kept.of2 (p := (_, _)) ‹_›
    | dsimp only
    | dsimp +zetaDelta only

theorem coneScrub_kept {s₀ : State} {a0 a1} :
    Kept s₀ a1 → Kept s₀ (coneScrub a0 a1) := by
  intro h0
  unfold coneScrub
  repeat' first
    | with_reducible assumption
    | with_reducible refine sessRelease_kept ?_
    | with_reducible refine Kept.foldl ?_ (fun _ _ _ => ?_)
    | with_reducible refine Kept1.foldl ?_ (fun _ _ _ => ?_)
    | with_reducible refine Kept.fold1 ?_ (fun _ _ _ => ?_)
    | with_reducible refine Kept.eq1 ‹_› ?_
    | extract_lets
    | split
    | with_reducible apply Kept1.mk
    | fail_if_no_progress with_reducible apply Kept.lit
    | with_reducible exact Kept.of1 ‹_›
    | with_reducible exact Kept.of2 ‹_›
    | with_reducible exact Kept.of2 (p := (_, _)) ‹_›
    | dsimp only
    | dsimp +zetaDelta only

theorem chordScrub_kept {s₀ : State} {a0 a1} :
    Kept s₀ a1 → Kept s₀ (chordScrub a0 a1) := by
  intro h0
  unfold chordScrub
  repeat' first
    | with_reducible assumption
    | extract_lets
    | split
    | fail_if_no_progress with_reducible apply Kept.lit
    | with_reducible exact Kept.of1 ‹_›
    | with_reducible exact Kept.of2 ‹_›
    | with_reducible exact Kept.of2 (p := (_, _)) ‹_›
    | dsimp only
    | dsimp +zetaDelta only

theorem scrubVertex_kept {s₀ : State} {a0 a1} :
    Kept s₀ a1 → Kept s₀ (scrubVertex a0 a1) := by
  intro h0
  unfold scrubVertex
  repeat' first
    | with_reducible assumption
    | with_reducible refine send_kept ?_
    | with_reducible refine modVtx_kept ?_
    | with_reducible refine sendSnoop_kept ?_
    | with_reducible refine Kept.foldl ?_ (fun _ _ _ => ?_)
    | with_reducible refine Kept1.foldl ?_ (fun _ _ _ => ?_)
    | with_reducible refine Kept.fold1 ?_ (fun _ _ _ => ?_)
    | with_reducible refine Kept.eq1 ‹_› ?_
    | extract_lets
    | split
    | with_reducible apply Kept1.mk
    | fail_if_no_progress with_reducible apply Kept.lit
    | with_reducible exact Kept.of1 ‹_›
    | with_reducible exact Kept.of2 ‹_›
    | with_reducible exact Kept.of2 (p := (_, _)) ‹_›
    | dsimp only
    | dsimp +zetaDelta only

theorem locusScrub_kept {s₀ : State} {a0 a1} :
    Kept s₀ a1 → Kept s₀ (locusScrub a0 a1) := by
  intro h0
  unfold locusScrub
  repeat' first
    | with_reducible assumption
    | with_reducible refine tlbDrop_kept ?_
    | with_reducible refine modLoc_kept ?_
    | extract_lets
    | split
    | fail_if_no_progress with_reducible apply Kept.lit
    | with_reducible exact Kept.of1 ‹_›
    | with_reducible exact Kept.of2 ‹_›
    | with_reducible exact Kept.of2 (p := (_, _)) ‹_›
    | dsimp only
    | dsimp +zetaDelta only

theorem planeScrub_kept {s₀ : State} {a0 a1} :
    Kept s₀ a1 → Kept s₀ (planeScrub a0 a1) := by
  intro h0
  unfold planeScrub
  repeat' first
    | with_reducible assumption
    | with_reducible refine setPage_kept ?_
    | with_reducible refine zeroPage_kept ?_
    | with_reducible refine Kept.foldl ?_ (fun _ _ _ => ?_)
    | with_reducible refine Kept1.foldl ?_ (fun _ _ _ => ?_)
    | with_reducible refine Kept.fold1 ?_ (fun _ _ _ => ?_)
    | with_reducible refine Kept.eq1 ‹_› ?_
    | extract_lets
    | split
    | with_reducible apply Kept1.mk
    | fail_if_no_progress with_reducible apply Kept.lit
    | with_reducible exact Kept.of1 ‹_›
    | with_reducible exact Kept.of2 ‹_›
    | with_reducible exact Kept.of2 (p := (_, _)) ‹_›
    | dsimp only
    | dsimp +zetaDelta only

theorem scrubPackets_kept {s₀ : State} {a0 a1} :
    Kept s₀ a1 → Kept s₀ (scrubPackets a0 a1) := by
  intro h0
  unfold scrubPackets
  repeat' first
    | with_reducible assumption
    | with_reducible refine modArc_kept ?_
    | with_reducible refine giveCells_kept ?_
    | with_reducible refine Kept.foldl ?_ (fun _ _ _ => ?_)
    | with_reducible refine Kept1.foldl ?_ (fun _ _ _ => ?_)
    | with_reducible refine Kept.fold1 ?_ (fun _ _ _ => ?_)
    | with_reducible refine Kept.eq1 ‹_› ?_
    | extract_lets
    | split
    | with_reducible apply Kept1.mk
    | fail_if_no_progress with_reducible apply Kept.lit
    | with_reducible exact Kept.of1 ‹_›
    | with_reducible exact Kept.of2 ‹_›
    | with_reducible exact Kept.of2 (p := (_, _)) ‹_›
    | dsimp only
    | dsimp +zetaDelta only

theorem qpScrub_kept {s₀ : State} {a0 a1} :
    Kept s₀ a1 → Kept s₀ (qpScrub a0 a1) := by
  intro h0
  unfold qpScrub
  repeat' first
    | with_reducible assumption
    | with_reducible refine modEdge_kept ?_
    | with_reducible refine Kept.foldl ?_ (fun _ _ _ => ?_)
    | with_reducible refine Kept1.foldl ?_ (fun _ _ _ => ?_)
    | with_reducible refine Kept.fold1 ?_ (fun _ _ _ => ?_)
    | with_reducible refine Kept.eq1 ‹_› ?_
    | extract_lets
    | split
    | with_reducible apply Kept1.mk
    | fail_if_no_progress with_reducible apply Kept.lit
    | with_reducible exact Kept.of1 ‹_›
    | with_reducible exact Kept.of2 ‹_›
    | with_reducible exact Kept.of2 (p := (_, _)) ‹_›
    | dsimp only
    | dsimp +zetaDelta only

theorem monClear_kept {s₀ : State} {a0 a1} :
    Kept s₀ a1 → Kept s₀ (monClear a0 a1) := by
  intro h0
  unfold monClear
  repeat' first
    | with_reducible assumption
    | with_reducible refine modArc_kept ?_
    | extract_lets
    | split
    | fail_if_no_progress with_reducible apply Kept.lit
    | with_reducible exact Kept.of1 ‹_›
    | with_reducible exact Kept.of2 ‹_›
    | with_reducible exact Kept.of2 (p := (_, _)) ‹_›
    | dsimp only
    | dsimp +zetaDelta only

theorem arcScrub_kept {s₀ : State} {a0 a1} :
    Kept s₀ a1 → Kept s₀ (arcScrub a0 a1) := by
  intro h0
  unfold arcScrub
  repeat' first
    | with_reducible assumption
    | with_reducible refine modFlow_kept ?_
    | with_reducible refine modArc_kept ?_
    | with_reducible refine monClear_kept ?_
    | with_reducible refine Kept.foldl ?_ (fun _ _ _ => ?_)
    | with_reducible refine Kept1.foldl ?_ (fun _ _ _ => ?_)
    | with_reducible refine Kept.fold1 ?_ (fun _ _ _ => ?_)
    | with_reducible refine Kept.eq1 ‹_› ?_
    | extract_lets
    | split
    | with_reducible apply Kept1.mk
    | fail_if_no_progress with_reducible apply Kept.lit
    | with_reducible exact Kept.of1 ‹_›
    | with_reducible exact Kept.of2 ‹_›
    | with_reducible exact Kept.of2 (p := (_, _)) ‹_›
    | dsimp only
    | dsimp +zetaDelta only

theorem scrubCounters_kept {s₀ : State} {a0 a1} :
    Kept s₀ a1 → Kept s₀ (scrubCounters a0 a1) := by
  intro h0
  unfold scrubCounters
  repeat' first
    | with_reducible assumption
    | with_reducible refine modEnergy_kept ?_
    | extract_lets
    | split
    | fail_if_no_progress with_reducible apply Kept.lit
    | with_reducible exact Kept.of1 ‹_›
    | with_reducible exact Kept.of2 ‹_›
    | with_reducible exact Kept.of2 (p := (_, _)) ‹_›
    | dsimp only
    | dsimp +zetaDelta only

theorem endWaiters_kept {s₀ : State} {a0 a1 a2} :
    Kept s₀ a2 → Kept s₀ (endWaiters a0 a1 a2) := by
  intro h0
  unfold endWaiters
  repeat' first
    | with_reducible assumption
    | with_reducible refine setObj_kept ?_
    | with_reducible refine reply_kept ?_
    | with_reducible refine Kept.foldl ?_ (fun _ _ _ => ?_)
    | with_reducible refine Kept1.foldl ?_ (fun _ _ _ => ?_)
    | with_reducible refine Kept.fold1 ?_ (fun _ _ _ => ?_)
    | with_reducible refine Kept.eq1 ‹_› ?_
    | extract_lets
    | split
    | with_reducible apply Kept1.mk
    | fail_if_no_progress with_reducible apply Kept.lit
    | with_reducible exact Kept.of1 ‹_›
    | with_reducible exact Kept.of2 ‹_›
    | with_reducible exact Kept.of2 (p := (_, _)) ‹_›
    | dsimp only
    | dsimp +zetaDelta only

theorem scrubDomain_kept {s₀ : State} {a0 a1} :
    Kept s₀ a1 → Kept s₀ (scrubDomain a0 a1) := by
  intro h0
  unfold scrubDomain
  repeat' first
    | with_reducible assumption
    | with_reducible refine endWaiters_kept ?_
    | with_reducible refine setObj_kept ?_
    | with_reducible refine setDom_kept ?_
    | with_reducible refine Kept.foldl ?_ (fun _ _ _ => ?_)
    | with_reducible refine Kept1.foldl ?_ (fun _ _ _ => ?_)
    | with_reducible refine Kept.fold1 ?_ (fun _ _ _ => ?_)
    | with_reducible refine Kept.eq1 ‹_› ?_
    | extract_lets
    | split
    | with_reducible apply Kept1.mk
    | fail_if_no_progress with_reducible apply Kept.lit
    | with_reducible exact Kept.of1 ‹_›
    | with_reducible exact Kept.of2 ‹_›
    | with_reducible exact Kept.of2 (p := (_, _)) ‹_›
    | dsimp only
    | dsimp +zetaDelta only

theorem scrubClear_kept {s₀ : State} {a0 a1} :
    Kept s₀ a1 → Kept s₀ (scrubClear a0 a1) := by
  intro h0
  unfold scrubClear
  repeat' first
    | with_reducible assumption
    | with_reducible refine scrubSeqs_kept ?_
    | with_reducible refine orbScrub_kept ?_
    | with_reducible refine apexScrub_kept ?_
    | with_reducible refine cenScrub_kept ?_
    | with_reducible refine coneScrub_kept ?_
    | with_reducible refine chordScrub_kept ?_
    | with_reducible refine scrubVertex_kept ?_
    | with_reducible refine locusScrub_kept ?_
    | with_reducible refine planeScrub_kept ?_
    | with_reducible refine scrubPackets_kept ?_
    | with_reducible refine qpScrub_kept ?_
    | with_reducible refine arcScrub_kept ?_
    | with_reducible refine scrubCounters_kept ?_
    | with_reducible refine scrubDomain_kept ?_
    | extract_lets
    | split
    | fail_if_no_progress with_reducible apply Kept.lit
    | with_reducible exact Kept.of1 ‹_›
    | with_reducible exact Kept.of2 ‹_›
    | with_reducible exact Kept.of2 (p := (_, _)) ‹_›
    | dsimp only
    | dsimp +zetaDelta only

theorem modVStat_kept {s₀ : State} {a0 a1 a2} :
    Kept s₀ a2 → Kept s₀ (modVStat a0 a1 a2) := by
  intro h0
  unfold modVStat
  repeat' first
    | with_reducible assumption
    | with_reducible refine modVtx_kept ?_
    | extract_lets
    | split
    | fail_if_no_progress with_reducible apply Kept.lit
    | with_reducible exact Kept.of1 ‹_›
    | with_reducible exact Kept.of2 ‹_›
    | with_reducible exact Kept.of2 (p := (_, _)) ‹_›
    | dsimp only
    | dsimp +zetaDelta only

theorem vDownOne_kept {s₀ : State} {a0 a1} :
    Kept s₀ a1 → Kept s₀ (vDownOne a0 a1) := by
  intro h0
  unfold vDownOne
  repeat' first
    | with_reducible assumption
    | with_reducible refine modVStat_kept ?_
    | with_reducible refine vReply_kept ?_
    | extract_lets
    | split
    | fail_if_no_progress with_reducible apply Kept.lit
    | with_reducible exact Kept.of1 ‹_›
    | with_reducible exact Kept.of2 ‹_›
    | with_reducible exact Kept.of2 (p := (_, _)) ‹_›
    | dsimp only
    | dsimp +zetaDelta only

theorem domainDown_kept {s₀ : State} {a0 a1 a2 a3} :
    Kept s₀ a3 → Kept s₀ (domainDown a0 a1 a2 a3) := by
  intro h0
  unfold domainDown
  repeat' first
    | with_reducible assumption
    | with_reducible refine modVtx_kept ?_
    | with_reducible refine report_kept ?_
    | with_reducible refine send_kept ?_
    | with_reducible refine vDownOne_kept ?_
    | with_reducible refine finishCmd_kept ?_
    | with_reducible refine Kept.foldl ?_ (fun _ _ _ => ?_)
    | with_reducible refine Kept1.foldl ?_ (fun _ _ _ => ?_)
    | with_reducible refine Kept.fold1 ?_ (fun _ _ _ => ?_)
    | with_reducible refine Kept.eq1 ‹_› ?_
    | with_reducible refine KeptO2.mapO ?_ (fun _ _ => ?_)
    | with_reducible refine KeptO2.map (fun _ => ?_)
    | with_reducible refine KeptO.map (fun _ => ?_)
    | extract_lets
    | split
    | with_reducible apply Kept1.mk
    | fail_if_no_progress with_reducible apply Kept.lit
    | with_reducible exact Kept.of1 ‹_›
    | with_reducible exact Kept.of2 ‹_›
    | with_reducible exact Kept.of2 (p := (_, _)) ‹_›
    | dsimp only
    | dsimp +zetaDelta only

theorem modFence_kept {s₀ : State} {a0 a1 a2} :
    Kept s₀ a2 → Kept s₀ (modFence a0 a1 a2) := by
  intro h0
  unfold modFence
  repeat' first
    | with_reducible assumption
    | extract_lets
    | split
    | fail_if_no_progress with_reducible apply Kept.lit
    | with_reducible exact Kept.of1 ‹_›
    | with_reducible exact Kept.of2 ‹_›
    | with_reducible exact Kept.of2 (p := (_, _)) ‹_›
    | dsimp only
    | dsimp +zetaDelta only

theorem startFence_kept {s₀ : State} {a0 a1} :
    Kept s₀ a1 → Kept s₀ (startFence a0 a1) := by
  intro h0
  unfold startFence
  repeat' first
    | with_reducible assumption
    | with_reducible refine modVtx_kept ?_
    | with_reducible refine domainDown_kept ?_
    | with_reducible refine modFence_kept ?_
    | extract_lets
    | split
    | fail_if_no_progress with_reducible apply Kept.lit
    | with_reducible exact Kept.of1 ‹_›
    | with_reducible exact Kept.of2 ‹_›
    | with_reducible exact Kept.of2 (p := (_, _)) ‹_›
    | dsimp only
    | dsimp +zetaDelta only

theorem fenceAll_kept {s₀ : State} {a0} :
    Kept s₀ a0 → Kept s₀ (fenceAll a0) := by
  intro h0
  unfold fenceAll
  repeat' first
    | with_reducible assumption
    | with_reducible refine startFence_kept ?_
    | with_reducible refine Kept.foldl ?_ (fun _ _ _ => ?_)
    | with_reducible refine Kept1.foldl ?_ (fun _ _ _ => ?_)
    | with_reducible refine Kept.fold1 ?_ (fun _ _ _ => ?_)
    | with_reducible refine Kept.eq1 ‹_› ?_
    | extract_lets
    | split
    | with_reducible apply Kept1.mk
    | fail_if_no_progress with_reducible apply Kept.lit
    | with_reducible exact Kept.of1 ‹_›
    | with_reducible exact Kept.of2 ‹_›
    | with_reducible exact Kept.of2 (p := (_, _)) ‹_›
    | dsimp only
    | dsimp +zetaDelta only

theorem beginScrub_kept {s₀ : State} {a0 a1 a2 a3 a4} :
    Kept s₀ a4 → Kept s₀ (beginScrub a0 a1 a2 a3 a4) := by
  intro h0
  unfold beginScrub
  repeat' first
    | with_reducible assumption
    | with_reducible refine modPer_kept ?_
    | with_reducible refine scrubClear_kept ?_
    | with_reducible refine fenceAll_kept ?_
    | extract_lets
    | split
    | fail_if_no_progress with_reducible apply Kept.lit
    | with_reducible exact Kept.of1 ‹_›
    | with_reducible exact Kept.of2 ‹_›
    | with_reducible exact Kept.of2 (p := (_, _)) ‹_›
    | dsimp only
    | dsimp +zetaDelta only

theorem applyMirror_kept {s₀ : State} {a0 a1} :
    Kept s₀ a1 → Kept s₀ (applyMirror a0 a1) := by
  intro h0
  unfold applyMirror
  repeat' first
    | with_reducible assumption
    | with_reducible refine partnerSnapshot_kept ?_
    | with_reducible refine partnerPage_kept ?_
    | with_reducible refine orbUpdate_kept ?_
    | with_reducible refine followTime_kept ?_
    | with_reducible refine partnerStatement_kept ?_
    | with_reducible refine groupZeroed_kept ?_
    | with_reducible refine beginScrub_kept ?_
    | extract_lets
    | split
    | fail_if_no_progress with_reducible apply Kept.lit
    | with_reducible exact Kept.of1 ‹_›
    | with_reducible exact Kept.of2 ‹_›
    | with_reducible exact Kept.of2 (p := (_, _)) ‹_›
    | dsimp only
    | dsimp +zetaDelta only

theorem endReq_kept {s₀ : State} {a0 a1 a2} :
    Kept s₀ a2 → Kept s₀ (endReq a0 a1 a2) := by
  intro h0
  unfold endReq
  repeat' first
    | with_reducible assumption
    | with_reducible refine modLoc_kept ?_
    | with_reducible refine reply_kept ?_
    | extract_lets
    | split
    | fail_if_no_progress with_reducible apply Kept.lit
    | with_reducible exact Kept.of1 ‹_›
    | with_reducible exact Kept.of2 ‹_›
    | with_reducible exact Kept.of2 (p := (_, _)) ‹_›
    | dsimp only
    | dsimp +zetaDelta only

theorem setReq_kept {s₀ : State} {a0 a1} :
    Kept s₀ a1 → Kept s₀ (setReq a0 a1) := by
  intro h0
  unfold setReq
  repeat' first
    | with_reducible assumption
    | with_reducible refine modLoc_kept ?_
    | extract_lets
    | split
    | fail_if_no_progress with_reducible apply Kept.lit
    | with_reducible exact Kept.of1 ‹_›
    | with_reducible exact Kept.of2 ‹_›
    | with_reducible exact Kept.of2 (p := (_, _)) ‹_›
    | dsimp only
    | dsimp +zetaDelta only

theorem setWin_kept {s₀ : State} {a0 a1} :
    Kept s₀ a1 → Kept s₀ (setWin a0 a1) := by
  intro h0
  unfold setWin
  repeat' first
    | with_reducible assumption
    | with_reducible refine modVtx_kept ?_
    | extract_lets
    | split
    | fail_if_no_progress with_reducible apply Kept.lit
    | with_reducible exact Kept.of1 ‹_›
    | with_reducible exact Kept.of2 ‹_›
    | with_reducible exact Kept.of2 (p := (_, _)) ‹_›
    | dsimp only
    | dsimp +zetaDelta only

theorem serveMembers_kept {s₀ : State} {a0 a1 a2} :
    Kept s₀ a2 → Kept s₀ (serveMembers a0 a1 a2) := by
  intro h0
  unfold serveMembers
  repeat' first
    | with_reducible assumption
    | with_reducible refine modVStat_kept ?_
    | with_reducible refine putEntry_kept ?_
    | with_reducible refine noteGrant_kept ?_
    | with_reducible refine vReply_kept ?_
    | with_reducible refine Kept.foldl ?_ (fun _ _ _ => ?_)
    | with_reducible refine Kept1.foldl ?_ (fun _ _ _ => ?_)
    | with_reducible refine Kept.fold1 ?_ (fun _ _ _ => ?_)
    | with_reducible refine Kept.eq1 ‹_› ?_
    | extract_lets
    | split
    | with_reducible apply Kept1.mk
    | fail_if_no_progress with_reducible apply Kept.lit
    | with_reducible exact Kept.of1 ‹_›
    | with_reducible exact Kept.of2 ‹_›
    | with_reducible exact Kept.of2 (p := (_, _)) ‹_›
    | dsimp only
    | dsimp +zetaDelta only

theorem monSample_kept {s₀ : State} {a0 a1 a2 a3 a4 a5} :
    Kept s₀ a5 → Kept s₀ (monSample a0 a1 a2 a3 a4 a5) := by
  intro h0
  unfold monSample
  repeat' first
    | with_reducible assumption
    | with_reducible refine modArc_kept ?_
    | extract_lets
    | split
    | fail_if_no_progress with_reducible apply Kept.lit
    | with_reducible exact Kept.of1 ‹_›
    | with_reducible exact Kept.of2 ‹_›
    | with_reducible exact Kept.of2 (p := (_, _)) ‹_›
    | dsimp only
    | dsimp +zetaDelta only

theorem pushTxn_kept {s₀ : State} {a0 a1} :
    Kept s₀ a1 → Kept s₀ (pushTxn a0 a1) := by
  intro h0
  unfold pushTxn
  repeat' first
    | with_reducible assumption
    | with_reducible refine modVtx_kept ?_
    | extract_lets
    | split
    | fail_if_no_progress with_reducible apply Kept.lit
    | with_reducible exact Kept.of1 ‹_›
    | with_reducible exact Kept.of2 ‹_›
    | with_reducible exact Kept.of2 (p := (_, _)) ‹_›
    | dsimp only
    | dsimp +zetaDelta only

theorem openTxn_kept {s₀ : State} {a0 a1} :
    Kept s₀ a1 → Kept s₀ (openTxn a0 a1) := by
  intro h0
  unfold openTxn
  repeat' first
    | with_reducible assumption
    | with_reducible refine sendSnoop_kept ?_
    | with_reducible refine pushTxn_kept ?_
    | with_reducible refine Kept.foldl ?_ (fun _ _ _ => ?_)
    | with_reducible refine Kept1.foldl ?_ (fun _ _ _ => ?_)
    | with_reducible refine Kept.fold1 ?_ (fun _ _ _ => ?_)
    | with_reducible refine Kept.eq1 ‹_› ?_
    | extract_lets
    | split
    | with_reducible apply Kept1.mk
    | fail_if_no_progress with_reducible apply Kept.lit
    | with_reducible exact Kept.of1 ‹_›
    | with_reducible exact Kept.of2 ‹_›
    | with_reducible exact Kept.of2 (p := (_, _)) ‹_›
    | dsimp only
    | dsimp +zetaDelta only

theorem vStart_kept {s₀ : State} {a0 a1 a2} :
    Kept s₀ a2 → Kept s₀ (vStart a0 a1 a2) := by
  intro h0
  unfold vStart
  repeat' first
    | with_reducible assumption
    | with_reducible refine monSample_kept ?_
    | with_reducible refine domainDown_kept ?_
    | with_reducible refine vDownOne_kept ?_
    | with_reducible refine modVtx_kept ?_
    | with_reducible refine openTxn_kept ?_
    | with_reducible refine modVStat_kept ?_
    | with_reducible refine KeptO2.mapO ?_ (fun _ _ => ?_)
    | with_reducible refine KeptO2.map (fun _ => ?_)
    | with_reducible refine KeptO.map (fun _ => ?_)
    | extract_lets
    | split
    | fail_if_no_progress with_reducible apply Kept.lit
    | with_reducible exact Kept.of1 ‹_›
    | with_reducible exact Kept.of2 ‹_›
    | with_reducible exact Kept.of2 (p := (_, _)) ‹_›
    | dsimp only
    | dsimp +zetaDelta only

theorem vAfter_kept {s₀ : State} {a0 a1} :
    Kept s₀ a1 → Kept s₀ (vAfter a0 a1) := by
  intro h0
  unfold vAfter
  repeat' first
    | with_reducible assumption
    | with_reducible refine vStart_kept ?_
    | with_reducible refine modVtx_kept ?_
    | extract_lets
    | split
    | fail_if_no_progress with_reducible apply Kept.lit
    | with_reducible exact Kept.of1 ‹_›
    | with_reducible exact Kept.of2 ‹_›
    | with_reducible exact Kept.of2 (p := (_, _)) ‹_›
    | dsimp only
    | dsimp +zetaDelta only

theorem closeWin_kept {s₀ : State} {a0 a1} :
    Kept s₀ a1 → Kept s₀ (closeWin a0 a1) := by
  intro h0
  unfold closeWin
  repeat' first
    | with_reducible assumption
    | with_reducible refine modVtx_kept ?_
    | with_reducible refine vAfter_kept ?_
    | with_reducible refine applyAtomic_kept ?_
    | with_reducible refine setWin_kept ?_
    | extract_lets
    | split
    | fail_if_no_progress with_reducible apply Kept.lit
    | with_reducible exact Kept.of1 ‹_›
    | with_reducible exact Kept.of2 ‹_›
    | with_reducible exact Kept.of2 (p := (_, _)) ‹_›
    | dsimp only
    | dsimp +zetaDelta only

theorem vAccept_kept {s₀ : State} {a0 a1} :
    Kept s₀ a1 → Kept s₀ (vAccept a0 a1) := by
  intro h0
  unfold vAccept
  repeat' first
    | with_reducible assumption
    | with_reducible refine vDownOne_kept ?_
    | with_reducible refine modVtx_kept ?_
    | with_reducible refine setWin_kept ?_
    | with_reducible refine modVStat_kept ?_
    | with_reducible refine serveMembers_kept ?_
    | with_reducible refine closeWin_kept ?_
    | with_reducible refine send_kept ?_
    | with_reducible refine vStart_kept ?_
    | extract_lets
    | split
    | fail_if_no_progress with_reducible apply Kept.lit
    | with_reducible exact Kept.of1 ‹_›
    | with_reducible exact Kept.of2 ‹_›
    | with_reducible exact Kept.of2 (p := (_, _)) ‹_›
    | dsimp only
    | dsimp +zetaDelta only

theorem toVertex_kept {s₀ : State} {a0 a1 a2} :
    Kept s₀ a2 → Kept s₀ (toVertex a0 a1 a2) := by
  intro h0
  unfold toVertex
  repeat' first
    | with_reducible assumption
    | with_reducible refine vAccept_kept ?_
    | with_reducible refine modLoc_kept ?_
    | with_reducible refine setReq_kept ?_
    | with_reducible refine Kept.foldl ?_ (fun _ _ _ => ?_)
    | with_reducible refine Kept1.foldl ?_ (fun _ _ _ => ?_)
    | with_reducible refine Kept.fold1 ?_ (fun _ _ _ => ?_)
    | with_reducible refine Kept.eq1 ‹_› ?_
    | extract_lets
    | split
    | with_reducible apply Kept1.mk
    | fail_if_no_progress with_reducible apply Kept.lit
    | with_reducible exact Kept.of1 ‹_›
    | with_reducible exact Kept.of2 ‹_›
    | with_reducible exact Kept.of2 (p := (_, _)) ‹_›
    | dsimp only
    | dsimp +zetaDelta only

theorem route_kept {s₀ : State} {a0 a1 a2 a3 a4 a5} :
    Kept s₀ a5 → Kept s₀ (route a0 a1 a2 a3 a4 a5) := by
  intro h0
  unfold route
  repeat' first
    | with_reducible assumption
    | with_reducible refine modLoc_kept ?_
    | with_reducible refine endReq_kept ?_
    | with_reducible refine emit_kept ?_
    | with_reducible refine setReq_kept ?_
    | with_reducible refine engineDown_kept ?_
    | with_reducible refine toVertex_kept ?_
    | with_reducible refine zeroAlloc_kept ?_
    | with_reducible refine mirrorThen_kept (fun _ _ => ?_) ?_
    | with_reducible refine setPage_kept ?_
    | dsimp only [id_eq]
    | with_reducible refine Kept.getD ?_ ?_
    | with_reducible refine Kept.eqO2 ‹_› ?_
    | extract_lets
    | split
    | fail_if_no_progress with_reducible apply Kept.lit
    | with_reducible exact Kept.of1 ‹_›
    | with_reducible exact Kept.of2 ‹_›
    | with_reducible exact Kept.of2 (p := (_, _)) ‹_›
    | dsimp only
    | dsimp +zetaDelta only

theorem tlbFind_kept {s₀ : State} {a0 a1 a2 a3 a4} :
    Kept s₀ a4 → Kept2 s₀ (tlbFind a0 a1 a2 a3 a4) := by
  intro h0
  unfold tlbFind
  repeat' first
    | with_reducible assumption
    | with_reducible refine modLoc_kept ?_
    | extract_lets
    | split
    | with_reducible apply Kept2.mk
    | fail_if_no_progress with_reducible apply Kept.lit
    | with_reducible exact Kept.of1 ‹_›
    | with_reducible exact Kept.of2 ‹_›
    | with_reducible exact Kept.of2 (p := (_, _)) ‹_›
    | dsimp only
    | dsimp +zetaDelta only

theorem startWalk_kept {s₀ : State} {a0 a1} :
    Kept s₀ a1 → Kept s₀ (startWalk a0 a1) := by
  intro h0
  unfold startWalk
  repeat' first
    | with_reducible assumption
    | with_reducible refine monSample_kept ?_
    | with_reducible refine send_kept ?_
    | with_reducible refine modLoc_kept ?_
    | extract_lets
    | split
    | fail_if_no_progress with_reducible apply Kept.lit
    | with_reducible exact Kept.of1 ‹_›
    | with_reducible exact Kept.of2 ‹_›
    | with_reducible exact Kept.of2 (p := (_, _)) ‹_›
    | dsimp only
    | dsimp +zetaDelta only

theorem missOn_kept {s₀ : State} {a0 a1 a2 a3 a4} :
    Kept s₀ a4 → Kept s₀ (missOn a0 a1 a2 a3 a4) := by
  intro h0
  unfold missOn
  repeat' first
    | with_reducible assumption
    | with_reducible refine modLoc_kept ?_
    | with_reducible refine startWalk_kept ?_
    | extract_lets
    | split
    | fail_if_no_progress with_reducible apply Kept.lit
    | with_reducible exact Kept.of1 ‹_›
    | with_reducible exact Kept.of2 ‹_›
    | with_reducible exact Kept.of2 (p := (_, _)) ‹_›
    | dsimp only
    | dsimp +zetaDelta only

theorem startXlate_kept {s₀ : State} {a0 a1} :
    Kept s₀ a1 → Kept s₀ (startXlate a0 a1) := by
  intro h0
  unfold startXlate
  repeat' first
    | with_reducible assumption
    | with_reducible refine endReq_kept ?_
    | with_reducible refine recordFault_kept ?_
    | with_reducible refine Kept.of1 (p := recordFault _ _ _ _ _ _ _ _) (recordFault_kept ?_)
    | with_reducible refine setReq_kept ?_
    | with_reducible refine route_kept ?_
    | with_reducible refine tlbFind_kept ?_
    | with_reducible refine Kept.of2 (p := tlbFind _ _ _ _ _) (tlbFind_kept ?_)
    | with_reducible refine missOn_kept ?_
    | with_reducible refine Kept.eq1 ‹_› ?_
    | with_reducible refine Kept.eq2 ‹_› ?_
    | extract_lets
    | split
    | with_reducible apply Kept1.mk
    | fail_if_no_progress with_reducible apply Kept.lit
    | with_reducible exact Kept.of1 ‹_›
    | with_reducible exact Kept.of2 ‹_›
    | with_reducible exact Kept.of2 (p := (_, _)) ‹_›
    | dsimp only
    | dsimp +zetaDelta only

theorem applyRec_kept {s₀ : State} {a0 a1 a2 a3} :
    Kept s₀ a3 → Kept s₀ (applyRec a0 a1 a2 a3) := by
  intro h0
  unfold applyRec
  repeat' first
    | with_reducible assumption
    | with_reducible refine modLoc_kept ?_
    | with_reducible refine tlbDrop_kept ?_
    | with_reducible refine send_kept ?_
    | with_reducible refine setLocPart_kept ?_
    | with_reducible refine startXlate_kept ?_
    | with_reducible refine Kept.foldl ?_ (fun _ _ _ => ?_)
    | with_reducible refine Kept1.foldl ?_ (fun _ _ _ => ?_)
    | with_reducible refine Kept.fold1 ?_ (fun _ _ _ => ?_)
    | with_reducible refine Kept.eq1 ‹_› ?_
    | extract_lets
    | split
    | with_reducible apply Kept1.mk
    | fail_if_no_progress with_reducible apply Kept.lit
    | with_reducible exact Kept.of1 ‹_›
    | with_reducible exact Kept.of2 ‹_›
    | with_reducible exact Kept.of2 (p := (_, _)) ‹_›
    | dsimp only
    | dsimp +zetaDelta only

theorem writeAll_kept {s₀ : State} {a0 a1 a2 a3 a4 a5} :
    Kept s₀ a5 → Kept1 s₀ (writeAll a0 a1 a2 a3 a4 a5) := by
  intro h0
  induction a4 generalizing a5 with
  | nil =>
      unfold writeAll
      repeat' first
        | with_reducible assumption
        | with_reducible refine Kept.of1 (p := writeAll _ _ _ _ _ _) ?_
        | with_reducible refine engineWriteAs_kept ?_
        | with_reducible refine Kept.of1 (p := engineWriteAs _ _ _ _ _ _ _) (engineWriteAs_kept ?_)
        | with_reducible refine Kept.eq1 ‹_› ?_
        | extract_lets
        | split
        | with_reducible apply Kept1.mk
        | fail_if_no_progress with_reducible apply Kept.lit
        | with_reducible exact Kept.of1 ‹_›
        | with_reducible exact Kept.of2 ‹_›
        | with_reducible exact Kept.of2 (p := (_, _)) ‹_›
        | dsimp only
        | dsimp +zetaDelta only
  | cons _ _ ih =>
      unfold writeAll
      repeat' first
        | with_reducible assumption
        | with_reducible apply ih
        | with_reducible refine Kept.of1 (p := writeAll _ _ _ _ _ _) ?_
        | with_reducible refine engineWriteAs_kept ?_
        | with_reducible refine Kept.of1 (p := engineWriteAs _ _ _ _ _ _ _) (engineWriteAs_kept ?_)
        | with_reducible refine Kept.eq1 ‹_› ?_
        | extract_lets
        | split
        | with_reducible apply Kept1.mk
        | fail_if_no_progress with_reducible apply Kept.lit
        | with_reducible exact Kept.of1 ‹_›
        | with_reducible exact Kept.of2 ‹_›
        | with_reducible exact Kept.of2 (p := (_, _)) ‹_›
        | dsimp only
        | dsimp +zetaDelta only

theorem countResult_kept {s₀ : State} {a0 a1 a2 a3} :
    Kept s₀ a3 → Kept s₀ (countResult a0 a1 a2 a3) := by
  intro h0
  unfold countResult
  repeat' first
    | with_reducible assumption
    | with_reducible refine modEng_kept ?_
    | extract_lets
    | split
    | fail_if_no_progress with_reducible apply Kept.lit
    | with_reducible exact Kept.of1 ‹_›
    | with_reducible exact Kept.of2 ‹_›
    | with_reducible exact Kept.of2 (p := (_, _)) ‹_›
    | dsimp only
    | dsimp +zetaDelta only

theorem applyResult_kept {s₀ : State} {a0 a1 a2 a3} :
    Kept s₀ a3 → Kept1 s₀ (applyResult a0 a1 a2 a3) := by
  intro h0
  unfold applyResult
  repeat' first
    | with_reducible assumption
    | with_reducible refine writeAll_kept ?_
    | with_reducible refine Kept.of1 (p := writeAll _ _ _ _ _ _) (writeAll_kept ?_)
    | with_reducible refine countResult_kept ?_
    | with_reducible refine Kept.eq1 ‹_› ?_
    | extract_lets
    | split
    | with_reducible apply Kept1.mk
    | fail_if_no_progress with_reducible apply Kept.lit
    | with_reducible exact Kept.of1 ‹_›
    | with_reducible exact Kept.of2 ‹_›
    | with_reducible exact Kept.of2 (p := (_, _)) ‹_›
    | dsimp only
    | dsimp +zetaDelta only

theorem apxAgain_kept {s₀ : State} {a0 a1} :
    Kept s₀ a1 → Kept s₀ (apxAgain a0 a1) := by
  intro h0
  unfold apxAgain
  repeat' first
    | with_reducible assumption
    | with_reducible refine modApx_kept ?_
    | extract_lets
    | split
    | fail_if_no_progress with_reducible apply Kept.lit
    | with_reducible exact Kept.of1 ‹_›
    | with_reducible exact Kept.of2 ‹_›
    | with_reducible exact Kept.of2 (p := (_, _)) ‹_›
    | dsimp only
    | dsimp +zetaDelta only

theorem energyTake_kept {s₀ : State} {a0 a1 a2 a3} :
    Kept s₀ a3 → KeptO1 s₀ (energyTake a0 a1 a2 a3) := by
  intro h0
  unfold energyTake
  repeat' first
    | with_reducible assumption
    | with_reducible refine debit_kept ?_
    | with_reducible refine countEnergyWait_kept ?_
    | extract_lets
    | split
    | with_reducible apply KeptO1.none
    | with_reducible apply KeptO1.some
    | with_reducible apply Kept1.mk
    | fail_if_no_progress with_reducible apply Kept.lit
    | with_reducible exact Kept.of1 ‹_›
    | with_reducible exact Kept.of2 ‹_›
    | with_reducible exact Kept.of2 (p := (_, _)) ‹_›
    | dsimp only
    | dsimp +zetaDelta only

theorem enqueue_kept {s₀ : State} {a0 a1 a2 a3} :
    Kept s₀ a3 → Kept1 s₀ (enqueue a0 a1 a2 a3) := by
  intro h0
  unfold enqueue
  repeat' first
    | with_reducible assumption
    | with_reducible refine energyTake_kept ?_
    | with_reducible refine countEnergyRefusal_kept ?_
    | with_reducible refine setQueue_kept ?_
    | with_reducible refine Kept.eqO1 ‹_› ?_
    | extract_lets
    | split
    | with_reducible apply Kept1.mk
    | fail_if_no_progress with_reducible apply Kept.lit
    | with_reducible exact Kept.of1 ‹_›
    | with_reducible exact Kept.of2 ‹_›
    | with_reducible exact Kept.of2 (p := (_, _)) ‹_›
    | dsimp only
    | dsimp +zetaDelta only

theorem enqueueUnless_kept {s₀ : State} {a0 a1 a2 a3 a4} :
    Kept s₀ a4 → Kept1 s₀ (enqueueUnless a0 a1 a2 a3 a4) := by
  intro h0
  unfold enqueueUnless
  repeat' first
    | with_reducible assumption
    | with_reducible refine countEnergyRefusal_kept ?_
    | with_reducible refine enqueue_kept ?_
    | with_reducible refine Kept.of1 (p := enqueue _ _ _ _) (enqueue_kept ?_)
    | with_reducible refine Kept.eq1 ‹_› ?_
    | extract_lets
    | split
    | with_reducible apply Kept1.mk
    | fail_if_no_progress with_reducible apply Kept.lit
    | with_reducible exact Kept.of1 ‹_›
    | with_reducible exact Kept.of2 ‹_›
    | with_reducible exact Kept.of2 (p := (_, _)) ‹_›
    | dsimp only
    | dsimp +zetaDelta only

theorem countOrb_kept {s₀ : State} {a0 a1 a2} :
    Kept s₀ a2 → Kept s₀ (countOrb a0 a1 a2) := by
  intro h0
  unfold countOrb
  repeat' first
    | with_reducible assumption
    | with_reducible refine modOStat_kept ?_
    | extract_lets
    | split
    | fail_if_no_progress with_reducible apply Kept.lit
    | with_reducible exact Kept.of1 ‹_›
    | with_reducible exact Kept.of2 ‹_›
    | with_reducible exact Kept.of2 (p := (_, _)) ‹_›
    | dsimp only
    | dsimp +zetaDelta only

theorem setArb_kept {s₀ : State} {a0 a1 a2} :
    Kept s₀ a2 → Kept s₀ (setArb a0 a1 a2) := by
  intro h0
  unfold setArb
  repeat' first
    | with_reducible assumption
    | extract_lets
    | split
    | fail_if_no_progress with_reducible apply Kept.lit
    | with_reducible exact Kept.of1 ‹_›
    | with_reducible exact Kept.of2 ‹_›
    | with_reducible exact Kept.of2 (p := (_, _)) ‹_›
    | dsimp only
    | dsimp +zetaDelta only

theorem orbSubmit_kept {s₀ : State} {a0 a1 a2} :
    Kept s₀ a2 → Kept1 s₀ (orbSubmit a0 a1 a2) := by
  intro h0
  unfold orbSubmit
  repeat' first
    | with_reducible assumption
    | with_reducible refine useFresh_kept ?_
    | with_reducible refine setQueue_kept ?_
    | with_reducible refine enqueueUnless_kept ?_
    | with_reducible refine Kept.of1 (p := enqueueUnless _ _ _ _ _) (enqueueUnless_kept ?_)
    | with_reducible refine countOrb_kept ?_
    | with_reducible refine setArb_kept ?_
    | with_reducible refine modOStat_kept ?_
    | with_reducible refine reply_kept ?_
    | with_reducible refine Kept.eq1 ‹_› ?_
    | extract_lets
    | split
    | with_reducible apply Kept1.mk
    | fail_if_no_progress with_reducible apply Kept.lit
    | with_reducible exact Kept.of1 ‹_›
    | with_reducible exact Kept.of2 ‹_›
    | with_reducible exact Kept.of2 (p := (_, _)) ‹_›
    | dsimp only
    | dsimp +zetaDelta only

theorem apxAppend_kept {s₀ : State} {a0 a1} :
    Kept s₀ a1 → Kept s₀ (apxAppend a0 a1) := by
  intro h0
  unfold apxAppend
  repeat' first
    | with_reducible assumption
    | with_reducible refine orbSubmit_kept ?_
    | with_reducible refine Kept.of1 (p := orbSubmit _ _ _) (orbSubmit_kept ?_)
    | with_reducible refine Kept.eq1 ‹_› ?_
    | extract_lets
    | split
    | with_reducible apply Kept1.mk
    | fail_if_no_progress with_reducible apply Kept.lit
    | with_reducible exact Kept.of1 ‹_›
    | with_reducible exact Kept.of2 ‹_›
    | with_reducible exact Kept.of2 (p := (_, _)) ‹_›
    | dsimp only
    | dsimp +zetaDelta only

theorem apxFinish_kept {s₀ : State} {a0 a1 a2 a3} :
    Kept s₀ a3 → Kept s₀ (apxFinish a0 a1 a2 a3) := by
  intro h0
  unfold apxFinish
  repeat' first
    | with_reducible assumption
    | with_reducible refine finishCmd_kept ?_
    | extract_lets
    | split
    | fail_if_no_progress with_reducible apply Kept.lit
    | with_reducible exact Kept.of1 ‹_›
    | with_reducible exact Kept.of2 ‹_›
    | with_reducible exact Kept.of2 (p := (_, _)) ‹_›
    | dsimp only
    | dsimp +zetaDelta only

theorem apxRemote_kept {s₀ : State} {a0 a1 a2} :
    Kept s₀ a2 → Kept s₀ (apxRemote a0 a1 a2) := by
  intro h0
  unfold apxRemote
  repeat' first
    | with_reducible assumption
    | with_reducible refine apxFinish_kept ?_
    | with_reducible refine send_kept ?_
    | extract_lets
    | split
    | fail_if_no_progress with_reducible apply Kept.lit
    | with_reducible exact Kept.of1 ‹_›
    | with_reducible exact Kept.of2 ‹_›
    | with_reducible exact Kept.of2 (p := (_, _)) ‹_›
    | dsimp only
    | dsimp +zetaDelta only

theorem apxSubmit_kept {s₀ : State} {a0 a1 a2} :
    Kept s₀ a2 → Kept1 s₀ (apxSubmit a0 a1 a2) := by
  intro h0
  unfold apxSubmit
  repeat' first
    | with_reducible assumption
    | with_reducible refine setQueue_kept ?_
    | extract_lets
    | split
    | with_reducible apply Kept1.mk
    | fail_if_no_progress with_reducible apply Kept.lit
    | with_reducible exact Kept.of1 ‹_›
    | with_reducible exact Kept.of2 ‹_›
    | with_reducible exact Kept.of2 (p := (_, _)) ‹_›
    | dsimp only
    | dsimp +zetaDelta only

theorem apxTake_kept {s₀ : State} {a0 a1 a2} :
    Kept s₀ a2 → KeptO2 s₀ (apxTake a0 a1 a2) := by
  intro h0
  unfold apxTake
  repeat' first
    | with_reducible assumption
    | with_reducible refine setQueue_kept ?_
    | with_reducible refine modApx_kept ?_
    | extract_lets
    | split
    | with_reducible apply KeptO2.none
    | with_reducible apply KeptO2.some
    | with_reducible apply Kept2.mk
    | fail_if_no_progress with_reducible apply Kept.lit
    | with_reducible exact Kept.of1 ‹_›
    | with_reducible exact Kept.of2 ‹_›
    | with_reducible exact Kept.of2 (p := (_, _)) ‹_›
    | dsimp only
    | dsimp +zetaDelta only

theorem apxTimeout_kept {s₀ : State} {a0} :
    Kept s₀ a0 → Kept s₀ (apxTimeout a0) := by
  intro h0
  unfold apxTimeout
  repeat' first
    | with_reducible assumption
    | with_reducible refine modApx_kept ?_
    | with_reducible refine apxFinish_kept ?_
    | with_reducible refine setQueue_kept ?_
    | with_reducible refine Kept.foldl ?_ (fun _ _ _ => ?_)
    | with_reducible refine Kept1.foldl ?_ (fun _ _ _ => ?_)
    | with_reducible refine Kept.fold1 ?_ (fun _ _ _ => ?_)
    | with_reducible refine Kept.eq1 ‹_› ?_
    | extract_lets
    | split
    | with_reducible apply Kept1.mk
    | fail_if_no_progress with_reducible apply Kept.lit
    | with_reducible exact Kept.of1 ‹_›
    | with_reducible exact Kept.of2 ‹_›
    | with_reducible exact Kept.of2 (p := (_, _)) ‹_›
    | dsimp only
    | dsimp +zetaDelta only

theorem apxTurn_kept {s₀ : State} {a0 a1} :
    Kept s₀ a0 → KeptO22 s₀ (apxTurn a0 a1) := by
  intro h0
  unfold apxTurn
  extract_lets a go
  have hg : ∀ k n a p, KeptO22 s₀ (go k n a p) := fun k n a p => KeptO22.map fun e => setArb_kept h0
  clear_value go
  split
  · exact hg _ _ _ _
  · split
    · exact hg _ _ _ _
    · split
      · exact hg _ _ _ _
      · exact KeptO22.none

theorem apxWrite_kept {s₀ : State} {a0 a1 a2 a3} :
    Kept s₀ a3 → Kept1 s₀ (apxWrite a0 a1 a2 a3) := by
  intro h0
  unfold apxWrite
  repeat' first
    | with_reducible assumption
    | with_reducible refine engineWriteAs_kept ?_
    | with_reducible refine Kept.of1 (p := engineWriteAs _ _ _ _ _ _ _) (engineWriteAs_kept ?_)
    | with_reducible refine Kept.eq1 ‹_› ?_
    | extract_lets
    | split
    | with_reducible apply Kept1.mk
    | fail_if_no_progress with_reducible apply Kept.lit
    | with_reducible exact Kept.of1 ‹_›
    | with_reducible exact Kept.of2 ‹_›
    | with_reducible exact Kept.of2 (p := (_, _)) ‹_›
    | dsimp only
    | dsimp +zetaDelta only

theorem arcFill_kept {s₀ : State} {a0} :
    Kept s₀ a0 → Kept s₀ (arcFill a0) := by
  intro h0
  unfold arcFill
  repeat' first
    | with_reducible assumption
    | with_reducible refine modFlow_kept ?_
    | with_reducible refine setOut_kept ?_
    | with_reducible refine Kept.foldl ?_ (fun _ _ _ => ?_)
    | with_reducible refine Kept1.foldl ?_ (fun _ _ _ => ?_)
    | with_reducible refine Kept.fold1 ?_ (fun _ _ _ => ?_)
    | with_reducible refine Kept.eq1 ‹_› ?_
    | extract_lets
    | split
    | with_reducible apply Kept1.mk
    | fail_if_no_progress with_reducible apply Kept.lit
    | with_reducible exact Kept.of1 ‹_›
    | with_reducible exact Kept.of2 ‹_›
    | with_reducible exact Kept.of2 (p := (_, _)) ‹_›
    | dsimp only
    | dsimp +zetaDelta only

theorem arcSwap_kept {s₀ : State} {a0} :
    Kept s₀ a0 → Kept s₀ (arcSwap a0) := by
  intro h0
  unfold arcSwap
  repeat' first
    | with_reducible assumption
    | with_reducible refine modFlow_kept ?_
    | with_reducible refine modArc_kept ?_
    | with_reducible refine Kept.foldl ?_ (fun _ _ _ => ?_)
    | with_reducible refine Kept1.foldl ?_ (fun _ _ _ => ?_)
    | with_reducible refine Kept.fold1 ?_ (fun _ _ _ => ?_)
    | with_reducible refine Kept.eq1 ‹_› ?_
    | extract_lets
    | split
    | with_reducible apply Kept1.mk
    | fail_if_no_progress with_reducible apply Kept.lit
    | with_reducible exact Kept.of1 ‹_›
    | with_reducible exact Kept.of2 ‹_›
    | with_reducible exact Kept.of2 (p := (_, _)) ‹_›
    | dsimp only
    | dsimp +zetaDelta only

theorem askShadow_kept {s₀ : State} {a0 a1 a2 a3 a4 a5} :
    Kept s₀ a5 → Kept s₀ (askShadow a0 a1 a2 a3 a4 a5) := by
  intro h0
  unfold askShadow
  repeat' first
    | with_reducible assumption
    | with_reducible refine send_kept ?_
    | with_reducible refine setPort_kept ?_
    | extract_lets
    | split
    | fail_if_no_progress with_reducible apply Kept.lit
    | with_reducible exact Kept.of1 ‹_›
    | with_reducible exact Kept.of2 ‹_›
    | with_reducible exact Kept.of2 (p := (_, _)) ‹_›
    | dsimp only
    | dsimp +zetaDelta only

theorem assess_kept {s₀ : State} {a0 a1} :
    Kept s₀ a1 → Kept s₀ (assess a0 a1) := by
  intro h0
  unfold assess
  repeat' first
    | with_reducible assumption
    | with_reducible refine useFresh_kept ?_
    | with_reducible refine modFlow_kept ?_
    | with_reducible refine modArc_kept ?_
    | with_reducible refine report_kept ?_
    | extract_lets
    | split
    | fail_if_no_progress with_reducible apply Kept.lit
    | with_reducible exact Kept.of1 ‹_›
    | with_reducible exact Kept.of2 ‹_›
    | with_reducible exact Kept.of2 (p := (_, _)) ‹_›
    | dsimp only
    | dsimp +zetaDelta only

theorem auditWindow_kept {s₀ : State} {a0} :
    Kept s₀ a0 → Kept s₀ (auditWindow a0) := by
  intro h0
  unfold auditWindow
  repeat' first
    | with_reducible assumption
    | with_reducible refine assess_kept ?_
    | with_reducible refine modFlow_kept ?_
    | with_reducible refine modArc_kept ?_
    | with_reducible refine Kept.foldl ?_ (fun _ _ _ => ?_)
    | with_reducible refine Kept1.foldl ?_ (fun _ _ _ => ?_)
    | with_reducible refine Kept.fold1 ?_ (fun _ _ _ => ?_)
    | with_reducible refine Kept.eq1 ‹_› ?_
    | extract_lets
    | split
    | with_reducible apply Kept1.mk
    | fail_if_no_progress with_reducible apply Kept.lit
    | with_reducible exact Kept.of1 ‹_›
    | with_reducible exact Kept.of2 ‹_›
    | with_reducible exact Kept.of2 (p := (_, _)) ‹_›
    | dsimp only
    | dsimp +zetaDelta only

theorem endAgree_kept {s₀ : State} {a0 a1} :
    Kept s₀ a1 → Kept s₀ (endAgree a0 a1) := by
  intro h0
  unfold endAgree
  repeat' first
    | with_reducible assumption
    | with_reducible refine modPer_kept ?_
    | with_reducible refine dropAgree_kept ?_
    | with_reducible refine nextAgree_kept ?_
    | extract_lets
    | split
    | fail_if_no_progress with_reducible apply Kept.lit
    | with_reducible exact Kept.of1 ‹_›
    | with_reducible exact Kept.of2 ‹_›
    | with_reducible exact Kept.of2 (p := (_, _)) ‹_›
    | dsimp only
    | dsimp +zetaDelta only

theorem toStep1_kept {s₀ : State} {a0 a1} :
    Kept s₀ a1 → Kept s₀ (toStep1 a0 a1) := by
  intro h0
  unfold toStep1
  repeat' first
    | with_reducible assumption
    | with_reducible refine endAgree_kept ?_
    | with_reducible refine modPort_kept ?_
    | extract_lets
    | split
    | fail_if_no_progress with_reducible apply Kept.lit
    | with_reducible exact Kept.of1 ‹_›
    | with_reducible exact Kept.of2 ‹_›
    | with_reducible exact Kept.of2 (p := (_, _)) ‹_›
    | dsimp only
    | dsimp +zetaDelta only

theorem linkSend_kept {s₀ : State} {a0 a1 a2 a3 a4 a5} :
    Kept s₀ a5 → Kept s₀ (linkSend a0 a1 a2 a3 a4 a5) := by
  intro h0
  unfold linkSend
  repeat' first
    | with_reducible assumption
    | with_reducible refine setPort_kept ?_
    | extract_lets
    | split
    | fail_if_no_progress with_reducible apply Kept.lit
    | with_reducible exact Kept.of1 ‹_›
    | with_reducible exact Kept.of2 ‹_›
    | with_reducible exact Kept.of2 (p := (_, _)) ‹_›
    | dsimp only
    | dsimp +zetaDelta only

theorem pairRemap_kept {s₀ : State} {a0 a1 a2} :
    Kept s₀ a2 → Kept s₀ (pairRemap a0 a1 a2) := by
  intro h0
  unfold pairRemap
  repeat' first
    | with_reducible assumption
    | with_reducible refine modEdge_kept ?_
    | with_reducible refine send_kept ?_
    | with_reducible refine linkSend_kept ?_
    | with_reducible refine repoint_kept ?_
    | with_reducible refine Kept.foldl ?_ (fun _ _ _ => ?_)
    | with_reducible refine Kept1.foldl ?_ (fun _ _ _ => ?_)
    | with_reducible refine Kept.fold1 ?_ (fun _ _ _ => ?_)
    | with_reducible refine Kept.eq1 ‹_› ?_
    | extract_lets
    | split
    | with_reducible apply Kept1.mk
    | fail_if_no_progress with_reducible apply Kept.lit
    | with_reducible exact Kept.of1 ‹_›
    | with_reducible exact Kept.of2 ‹_›
    | with_reducible exact Kept.of2 (p := (_, _)) ‹_›
    | dsimp only
    | dsimp +zetaDelta only

theorem hierEnd_kept {s₀ : State} {a0 a1 a2 a3} :
    Kept s₀ a3 → Kept s₀ (hierEnd a0 a1 a2 a3) := by
  intro h0
  unfold hierEnd
  repeat' first
    | with_reducible assumption
    | with_reducible refine sendAborts_kept ?_
    | with_reducible refine chdFinish_kept ?_
    | extract_lets
    | split
    | fail_if_no_progress with_reducible apply Kept.lit
    | with_reducible exact Kept.of1 ‹_›
    | with_reducible exact Kept.of2 ‹_›
    | with_reducible exact Kept.of2 (p := (_, _)) ‹_›
    | dsimp only
    | dsimp +zetaDelta only

theorem hierPortDown_kept {s₀ : State} {a0 a1} :
    Kept s₀ a1 → Kept s₀ (hierPortDown a0 a1) := by
  intro h0
  unfold hierPortDown
  repeat' first
    | with_reducible assumption
    | with_reducible refine hierEnd_kept ?_
    | with_reducible refine Kept.foldl ?_ (fun _ _ _ => ?_)
    | with_reducible refine Kept1.foldl ?_ (fun _ _ _ => ?_)
    | with_reducible refine Kept.fold1 ?_ (fun _ _ _ => ?_)
    | with_reducible refine Kept.eq1 ‹_› ?_
    | extract_lets
    | split
    | with_reducible apply Kept1.mk
    | fail_if_no_progress with_reducible apply Kept.lit
    | with_reducible exact Kept.of1 ‹_›
    | with_reducible exact Kept.of2 ‹_›
    | with_reducible exact Kept.of2 (p := (_, _)) ‹_›
    | dsimp only
    | dsimp +zetaDelta only

theorem portDown_kept {s₀ : State} {a0 a1} :
    Kept s₀ a1 → Kept s₀ (portDown a0 a1) := by
  intro h0
  unfold portDown
  repeat' first
    | with_reducible assumption
    | with_reducible refine toStep1_kept ?_
    | with_reducible refine pairRemap_kept ?_
    | with_reducible refine dropHeld_kept ?_
    | with_reducible refine domainDown_kept ?_
    | with_reducible refine hierPortDown_kept ?_
    | extract_lets
    | split
    | fail_if_no_progress with_reducible apply Kept.lit
    | with_reducible exact Kept.of1 ‹_›
    | with_reducible exact Kept.of2 ‹_›
    | with_reducible exact Kept.of2 (p := (_, _)) ‹_›
    | dsimp only
    | dsimp +zetaDelta only

theorem authFail_kept {s₀ : State} {a0 a1} :
    Kept s₀ a1 → Kept s₀ (authFail a0 a1) := by
  intro h0
  unfold authFail
  repeat' first
    | with_reducible assumption
    | with_reducible refine modPort_kept ?_
    | with_reducible refine report_kept ?_
    | with_reducible refine portDown_kept ?_
    | extract_lets
    | split
    | fail_if_no_progress with_reducible apply Kept.lit
    | with_reducible exact Kept.of1 ‹_›
    | with_reducible exact Kept.of2 ‹_›
    | with_reducible exact Kept.of2 (p := (_, _)) ‹_›
    | dsimp only
    | dsimp +zetaDelta only

theorem beginProgram_kept {s₀ : State} {a0 a1 a2 a3} :
    Kept s₀ a3 → Kept s₀ (beginProgram a0 a1 a2 a3) := by
  intro h0
  unfold beginProgram
  repeat' first
    | with_reducible assumption
    | with_reducible refine modSeq_kept ?_
    | with_reducible refine Kept.getD ?_ ?_
    | extract_lets
    | split
    | fail_if_no_progress with_reducible apply Kept.lit
    | with_reducible exact Kept.of1 ‹_›
    | with_reducible exact Kept.of2 ‹_›
    | with_reducible exact Kept.of2 (p := (_, _)) ‹_›
    | dsimp only
    | dsimp +zetaDelta only

theorem setIssued_kept {s₀ : State} {a0 a1 a2 a3} :
    Kept s₀ a3 → Kept s₀ (setIssued a0 a1 a2 a3) := by
  intro h0
  unfold setIssued
  repeat' first
    | with_reducible assumption
    | extract_lets
    | split
    | fail_if_no_progress with_reducible apply Kept.lit
    | with_reducible exact Kept.of1 ‹_›
    | with_reducible exact Kept.of2 ‹_›
    | with_reducible exact Kept.of2 (p := (_, _)) ‹_›
    | dsimp only
    | dsimp +zetaDelta only

theorem vtxSubmit_kept {s₀ : State} {a0 a1 a2} :
    Kept s₀ a2 → Kept1 s₀ (vtxSubmit a0 a1 a2) := by
  intro h0
  unfold vtxSubmit
  repeat' first
    | with_reducible assumption
    | with_reducible refine engineDown_kept ?_
    | with_reducible refine enqueue_kept ?_
    | with_reducible refine Kept.of1 (p := enqueue _ _ _ _) (enqueue_kept ?_)
    | with_reducible refine Kept.eq1 ‹_› ?_
    | extract_lets
    | split
    | with_reducible apply Kept1.mk
    | fail_if_no_progress with_reducible apply Kept.lit
    | with_reducible exact Kept.of1 ‹_›
    | with_reducible exact Kept.of2 ‹_›
    | with_reducible exact Kept.of2 (p := (_, _)) ‹_›
    | dsimp only
    | dsimp +zetaDelta only

theorem plnSubmit_kept {s₀ : State} {a0 a1 a2} :
    Kept s₀ a2 → Kept1 s₀ (plnSubmit a0 a1 a2) := by
  intro h0
  unfold plnSubmit
  repeat' first
    | with_reducible assumption
    | with_reducible refine enqueue_kept ?_
    | with_reducible refine Kept.of1 (p := enqueue _ _ _ _) (enqueue_kept ?_)
    | with_reducible refine modPf_kept ?_
    | with_reducible refine Kept.getD ?_ ?_
    | with_reducible refine Kept.eq1 ‹_› ?_
    | extract_lets
    | split
    | with_reducible apply Kept1.mk
    | fail_if_no_progress with_reducible apply Kept.lit
    | with_reducible exact Kept.of1 ‹_›
    | with_reducible exact Kept.of2 ‹_›
    | with_reducible exact Kept.of2 (p := (_, _)) ‹_›
    | dsimp only
    | dsimp +zetaDelta only

theorem chdSubmit_kept {s₀ : State} {a0 a1 a2} :
    Kept s₀ a2 → Kept1 s₀ (chdSubmit a0 a1 a2) := by
  intro h0
  unfold chdSubmit
  repeat' first
    | with_reducible assumption
    | with_reducible refine enqueueUnless_kept ?_
    | with_reducible refine Kept.of1 (p := enqueueUnless _ _ _ _ _) (enqueueUnless_kept ?_)
    | with_reducible refine Kept.getD ?_ ?_
    | with_reducible refine Kept.eq1 ‹_› ?_
    | extract_lets
    | split
    | with_reducible apply Kept1.mk
    | fail_if_no_progress with_reducible apply Kept.lit
    | with_reducible exact Kept.of1 ‹_›
    | with_reducible exact Kept.of2 ‹_›
    | with_reducible exact Kept.of2 (p := (_, _)) ‹_›
    | dsimp only
    | dsimp +zetaDelta only

theorem modConeStat_kept {s₀ : State} {a0 a1 a2} :
    Kept s₀ a2 → Kept s₀ (modConeStat a0 a1 a2) := by
  intro h0
  unfold modConeStat
  repeat' first
    | with_reducible assumption
    | extract_lets
    | split
    | fail_if_no_progress with_reducible apply Kept.lit
    | with_reducible exact Kept.of1 ‹_›
    | with_reducible exact Kept.of2 ‹_›
    | with_reducible exact Kept.of2 (p := (_, _)) ‹_›
    | dsimp only
    | dsimp +zetaDelta only

theorem coneSubmit_kept {s₀ : State} {a0 a1 a2} :
    Kept s₀ a2 → Kept1 s₀ (coneSubmit a0 a1 a2) := by
  intro h0
  unfold coneSubmit
  repeat' first
    | with_reducible assumption
    | with_reducible refine enqueueUnless_kept ?_
    | with_reducible refine Kept.of1 (p := enqueueUnless _ _ _ _ _) (enqueueUnless_kept ?_)
    | with_reducible refine modConeStat_kept ?_
    | with_reducible refine Kept.getD ?_ ?_
    | with_reducible refine Kept.eq1 ‹_› ?_
    | extract_lets
    | split
    | with_reducible apply Kept1.mk
    | fail_if_no_progress with_reducible apply Kept.lit
    | with_reducible exact Kept.of1 ‹_›
    | with_reducible exact Kept.of2 ‹_›
    | with_reducible exact Kept.of2 (p := (_, _)) ‹_›
    | dsimp only
    | dsimp +zetaDelta only

theorem cenSubmit_kept {s₀ : State} {a0 a1 a2} :
    Kept s₀ a2 → Kept1 s₀ (cenSubmit a0 a1 a2) := by
  intro h0
  unfold cenSubmit
  repeat' first
    | with_reducible assumption
    | with_reducible refine enqueueUnless_kept ?_
    | with_reducible refine Kept.of1 (p := enqueueUnless _ _ _ _ _) (enqueueUnless_kept ?_)
    | with_reducible refine modCStat_kept ?_
    | with_reducible refine Kept.eq1 ‹_› ?_
    | extract_lets
    | split
    | with_reducible apply Kept1.mk
    | fail_if_no_progress with_reducible apply Kept.lit
    | with_reducible exact Kept.of1 ‹_›
    | with_reducible exact Kept.of2 ‹_›
    | with_reducible exact Kept.of2 (p := (_, _)) ‹_›
    | dsimp only
    | dsimp +zetaDelta only

theorem submitTo_kept {s₀ : State} {a0 a1 a2 a3} :
    Kept s₀ a3 → Kept1 s₀ (submitTo a0 a1 a2 a3) := by
  intro h0
  unfold submitTo
  repeat' first
    | with_reducible assumption
    | with_reducible refine vtxSubmit_kept ?_
    | with_reducible refine Kept.of1 (p := vtxSubmit _ _ _) (vtxSubmit_kept ?_)
    | with_reducible refine plnSubmit_kept ?_
    | with_reducible refine Kept.of1 (p := plnSubmit _ _ _) (plnSubmit_kept ?_)
    | with_reducible refine chdSubmit_kept ?_
    | with_reducible refine Kept.of1 (p := chdSubmit _ _ _) (chdSubmit_kept ?_)
    | with_reducible refine coneSubmit_kept ?_
    | with_reducible refine Kept.of1 (p := coneSubmit _ _ _) (coneSubmit_kept ?_)
    | with_reducible refine apxSubmit_kept ?_
    | with_reducible refine Kept.of1 (p := apxSubmit _ _ _) (apxSubmit_kept ?_)
    | with_reducible refine orbSubmit_kept ?_
    | with_reducible refine Kept.of1 (p := orbSubmit _ _ _) (orbSubmit_kept ?_)
    | with_reducible refine cenSubmit_kept ?_
    | with_reducible refine Kept.of1 (p := cenSubmit _ _ _) (cenSubmit_kept ?_)
    | with_reducible refine Kept.eq1 ‹_› ?_
    | extract_lets
    | split
    | with_reducible apply Kept1.mk
    | fail_if_no_progress with_reducible apply Kept.lit
    | with_reducible exact Kept.of1 ‹_›
    | with_reducible exact Kept.of2 ‹_›
    | with_reducible exact Kept.of2 (p := (_, _)) ‹_›
    | dsimp only
    | dsimp +zetaDelta only

theorem pushIssued_kept {s₀ : State} {a0 a1 a2} :
    Kept s₀ a2 → Kept s₀ (pushIssued a0 a1 a2) := by
  intro h0
  unfold pushIssued
  repeat' first
    | with_reducible assumption
    | with_reducible refine setIssued_kept ?_
    | with_reducible refine setQueue_kept ?_
    | extract_lets
    | split
    | fail_if_no_progress with_reducible apply Kept.lit
    | with_reducible exact Kept.of1 ‹_›
    | with_reducible exact Kept.of2 ‹_›
    | with_reducible exact Kept.of2 (p := (_, _)) ‹_›
    | dsimp only
    | dsimp +zetaDelta only

theorem blockIssue_kept {s₀ : State} {a0 a1 a2 a3 a4 a5 a6 a7 a8} :
    Kept s₀ a8 → Kept s₀ (blockIssue a0 a1 a2 a3 a4 a5 a6 a7 a8) := by
  intro h0
  unfold blockIssue
  repeat' first
    | with_reducible assumption
    | with_reducible refine reply_kept ?_
    | with_reducible refine setIssued_kept ?_
    | with_reducible refine submitTo_kept ?_
    | with_reducible refine Kept.of1 (p := submitTo _ _ _ _) (submitTo_kept ?_)
    | with_reducible refine pushIssued_kept ?_
    | with_reducible refine Kept.eq1 ‹_› ?_
    | extract_lets
    | split
    | with_reducible apply Kept1.mk
    | fail_if_no_progress with_reducible apply Kept.lit
    | with_reducible exact Kept.of1 ‹_›
    | with_reducible exact Kept.of2 ‹_›
    | with_reducible exact Kept.of2 (p := (_, _)) ‹_›
    | dsimp only
    | dsimp +zetaDelta only

theorem calSkip_kept {s₀ : State} {a0 a1} :
    Kept s₀ a1 → Kept s₀ (calSkip a0 a1) := by
  intro h0
  unfold calSkip
  repeat' first
    | with_reducible assumption
    | with_reducible refine modPort_kept ?_
    | with_reducible refine report_kept ?_
    | extract_lets
    | split
    | fail_if_no_progress with_reducible apply Kept.lit
    | with_reducible exact Kept.of1 ‹_›
    | with_reducible exact Kept.of2 ‹_›
    | with_reducible exact Kept.of2 (p := (_, _)) ‹_›
    | dsimp only
    | dsimp +zetaDelta only

theorem calStart_kept {s₀ : State} {a0 a1 a2} :
    Kept s₀ a2 → Kept s₀ (calStart a0 a1 a2) := by
  intro h0
  unfold calStart
  repeat' first
    | with_reducible assumption
    | with_reducible refine calSkip_kept ?_
    | with_reducible refine askShadow_kept ?_
    | with_reducible refine modPort_kept ?_
    | extract_lets
    | split
    | fail_if_no_progress with_reducible apply Kept.lit
    | with_reducible exact Kept.of1 ‹_›
    | with_reducible exact Kept.of2 ‹_›
    | with_reducible exact Kept.of2 (p := (_, _)) ‹_›
    | dsimp only
    | dsimp +zetaDelta only

theorem putSide_kept {s₀ : State} {a0 a1 a2 a3 a4} :
    Kept s₀ a4 → Kept1 s₀ (putSide a0 a1 a2 a3 a4) := by
  intro h0
  induction a2 generalizing a3 a4 with
  | nil =>
      unfold putSide
      repeat' first
        | with_reducible assumption
        | with_reducible refine Kept.of1 (p := putSide _ _ _ _ _) ?_
        | with_reducible refine cenWrite_kept ?_
        | with_reducible refine Kept.of1 (p := cenWrite _ _ _ _ _) (cenWrite_kept ?_)
        | with_reducible refine Kept.eq1 ‹_› ?_
        | extract_lets
        | split
        | with_reducible apply Kept1.mk
        | fail_if_no_progress with_reducible apply Kept.lit
        | with_reducible exact Kept.of1 ‹_›
        | with_reducible exact Kept.of2 ‹_›
        | with_reducible exact Kept.of2 (p := (_, _)) ‹_›
        | dsimp only
        | dsimp +zetaDelta only
  | cons _ _ ih =>
      unfold putSide
      repeat' first
        | with_reducible assumption
        | with_reducible apply ih
        | with_reducible refine Kept.of1 (p := putSide _ _ _ _ _) ?_
        | with_reducible refine cenWrite_kept ?_
        | with_reducible refine Kept.of1 (p := cenWrite _ _ _ _ _) (cenWrite_kept ?_)
        | with_reducible refine Kept.eq1 ‹_› ?_
        | extract_lets
        | split
        | with_reducible apply Kept1.mk
        | fail_if_no_progress with_reducible apply Kept.lit
        | with_reducible exact Kept.of1 ‹_›
        | with_reducible exact Kept.of2 ‹_›
        | with_reducible exact Kept.of2 (p := (_, _)) ‹_›
        | dsimp only
        | dsimp +zetaDelta only

theorem cenAppend_kept {s₀ : State} {a0 a1 a2 a3} :
    Kept s₀ a3 → Kept1 s₀ (cenAppend a0 a1 a2 a3) := by
  intro h0
  unfold cenAppend
  repeat' first
    | with_reducible assumption
    | with_reducible refine okThen_kept ?_ (fun _ _ _ => ?_)
    | with_reducible refine Kept.of1 (p := okThen _ _ _) (okThen_kept ?_ (fun _ _ _ => ?_))
    | with_reducible refine cenRead_kept ?_
    | with_reducible refine Kept.of1 (p := cenRead _ _ _ _) (cenRead_kept ?_)
    | with_reducible refine anyMarked_kept ?_
    | with_reducible refine Kept.of1 (p := anyMarked _ _ _ _) (anyMarked_kept ?_)
    | with_reducible refine putSide_kept ?_
    | with_reducible refine Kept.of1 (p := putSide _ _ _ _ _) (putSide_kept ?_)
    | with_reducible refine writeLive_kept ?_
    | with_reducible refine Kept.of1 (p := writeLive _ _ _) (writeLive_kept ?_)
    | with_reducible refine modCStat_kept ?_
    | with_reducible refine setIdx_kept ?_
    | with_reducible refine Kept.getD ?_ ?_
    | with_reducible refine Kept.eq1 ‹_› ?_
    | extract_lets
    | split
    | with_reducible apply Kept1.mk
    | fail_if_no_progress with_reducible apply Kept.lit
    | with_reducible exact Kept.of1 ‹_›
    | with_reducible exact Kept.of2 ‹_›
    | with_reducible exact Kept.of2 (p := (_, _)) ‹_›
    | dsimp only
    | dsimp +zetaDelta only

end Sys2Proof.Machine
end

