-- ==== Sys2Proof/Laws/Kept4.lean ====
section
/-!
SUPPORT. The operations, cenDelete to regClear in the order of their calls: each keeps the queue and the form of memory.
-/
namespace Sys2Proof.Machine

set_option linter.unusedTactic false
set_option linter.unreachableTactic false

theorem cenDelete_kept {s₀ : State} {a0 a1 a2 a3} :
    Kept s₀ a3 → Kept1 s₀ (cenDelete a0 a1 a2 a3) := by
  intro h0
  unfold cenDelete
  repeat' first
    | with_reducible assumption
    | with_reducible refine okThen_kept ?_ (fun _ _ _ => ?_)
    | with_reducible refine Kept.of1 (p := okThen _ _ _) (okThen_kept ?_ (fun _ _ _ => ?_))
    | with_reducible refine findMark_kept ?_
    | with_reducible refine Kept.of1 (p := findMark _ _ _ _) (findMark_kept ?_)
    | with_reducible refine cenWrite_kept ?_
    | with_reducible refine Kept.of1 (p := cenWrite _ _ _ _ _) (cenWrite_kept ?_)
    | with_reducible refine writeLive_kept ?_
    | with_reducible refine Kept.of1 (p := writeLive _ _ _) (writeLive_kept ?_)
    | with_reducible refine modCStat_kept ?_
    | with_reducible refine setIdx_kept ?_
    | with_reducible refine Kept.getD ?_ ?_
    | with_reducible refine Kept.eq1 ‹_› ?_
    | extract_lets
    | split
    | with_reducible apply Kept1.mk
    | fail_if_no_progress with_reducible apply Kept.lit
    | with_reducible exact Kept.of1 ‹_›
    | with_reducible exact Kept.of2 ‹_›
    | with_reducible exact Kept.of2 (p := (_, _)) ‹_›
    | dsimp only
    | dsimp +zetaDelta only

theorem cenDone_kept {s₀ : State} {a0 a1 a2 a3 a4} :
    Kept s₀ a1 → Kept1 s₀ a4 → Kept s₀ (cenDone a0 a1 a2 a3 a4) := by
  intro h0 h1
  unfold cenDone
  repeat' first
    | with_reducible assumption
    | with_reducible refine cenAgain_kept ?_
    | with_reducible refine cenFinish_kept ?_
    | with_reducible refine Kept.eq1 ‹_› ?_
    | extract_lets
    | split
    | fail_if_no_progress with_reducible apply Kept.lit
    | with_reducible exact Kept.of1 ‹_›
    | with_reducible exact Kept.of2 ‹_›
    | with_reducible exact Kept.of2 (p := (_, _)) ‹_›
    | dsimp only
    | dsimp +zetaDelta only

theorem monCmd_kept {s₀ : State} {a0 a1 a2 a3} :
    Kept s₀ a3 → Kept s₀ (monCmd a0 a1 a2 a3) := by
  intro h0
  unfold monCmd
  repeat' first
    | with_reducible assumption
    | with_reducible refine monSample_kept ?_
    | extract_lets
    | split
    | fail_if_no_progress with_reducible apply Kept.lit
    | with_reducible exact Kept.of1 ‹_›
    | with_reducible exact Kept.of2 ‹_›
    | with_reducible exact Kept.of2 (p := (_, _)) ‹_›
    | dsimp only
    | dsimp +zetaDelta only

theorem takeCmd_kept {s₀ : State} {a0 a1 a2 a3 a4} :
    Kept s₀ a4 → KeptO2 s₀ (takeCmd a0 a1 a2 a3 a4) := by
  intro h0
  unfold takeCmd
  repeat' first
    | with_reducible assumption
    | with_reducible refine setIssued_kept ?_
    | with_reducible refine monCmd_kept ?_
    | with_reducible refine setQueue_kept ?_
    | extract_lets
    | split
    | with_reducible apply KeptO2.none
    | with_reducible apply KeptO2.some
    | with_reducible apply Kept2.mk
    | fail_if_no_progress with_reducible apply Kept.lit
    | with_reducible exact Kept.of1 ‹_›
    | with_reducible exact Kept.of2 ‹_›
    | with_reducible exact Kept.of2 (p := (_, _)) ‹_›
    | dsimp only
    | dsimp +zetaDelta only

theorem cenTake_kept {s₀ : State} {a0 a1 a2} :
    Kept s₀ a2 → KeptO2 s₀ (cenTake a0 a1 a2) := by
  intro h0
  unfold cenTake
  repeat' first
    | with_reducible assumption
    | with_reducible refine cenClear_kept ?_
    | with_reducible refine takeCmd_kept ?_
    | with_reducible refine Kept.eqO2 ‹_› ?_
    | with_reducible refine KeptO2.mapO ?_ (fun _ _ => ?_)
    | with_reducible refine KeptO2.map (fun _ => ?_)
    | with_reducible refine KeptO.map (fun _ => ?_)
    | extract_lets
    | split
    | with_reducible apply KeptO2.none
    | with_reducible apply KeptO2.some
    | with_reducible apply Kept2.mk
    | fail_if_no_progress with_reducible apply Kept.lit
    | with_reducible exact Kept.of1 ‹_›
    | with_reducible exact Kept.of2 ‹_›
    | with_reducible exact Kept.of2 (p := (_, _)) ‹_›
    | dsimp only
    | dsimp +zetaDelta only

theorem cenTimeout_kept {s₀ : State} {a0} :
    Kept s₀ a0 → Kept s₀ (cenTimeout a0) := by
  intro h0
  unfold cenTimeout
  repeat' first
    | with_reducible assumption
    | with_reducible refine cenClear_kept ?_
    | with_reducible refine cenFinish_kept ?_
    | with_reducible refine modCen_kept ?_
    | with_reducible refine takeCmd_kept ?_
    | with_reducible refine Kept.foldl ?_ (fun _ _ _ => ?_)
    | with_reducible refine Kept1.foldl ?_ (fun _ _ _ => ?_)
    | with_reducible refine Kept.fold1 ?_ (fun _ _ _ => ?_)
    | with_reducible refine Kept.eq1 ‹_› ?_
    | with_reducible refine Kept.eqO2 ‹_› ?_
    | extract_lets
    | split
    | with_reducible apply Kept1.mk
    | fail_if_no_progress with_reducible apply Kept.lit
    | with_reducible exact Kept.of1 ‹_›
    | with_reducible exact Kept.of2 ‹_›
    | with_reducible exact Kept.of2 (p := (_, _)) ‹_›
    | dsimp only
    | dsimp +zetaDelta only

theorem chdAdmit_kept {s₀ : State} {a0 a1 a2} :
    Kept s₀ a2 → Kept s₀ (chdAdmit a0 a1 a2) := by
  intro h0
  unfold chdAdmit
  repeat' first
    | with_reducible assumption
    | with_reducible refine engineReadAs_kept ?_
    | with_reducible refine Kept.of1 (p := engineReadAs _ _ _ _ _ _ _) (engineReadAs_kept ?_)
    | with_reducible refine modEng_kept ?_
    | with_reducible refine finishCmd_kept ?_
    | with_reducible refine Kept.eq1 ‹_› ?_
    | extract_lets
    | split
    | with_reducible apply Kept1.mk
    | fail_if_no_progress with_reducible apply Kept.lit
    | with_reducible exact Kept.of1 ‹_›
    | with_reducible exact Kept.of2 ‹_›
    | with_reducible exact Kept.of2 (p := (_, _)) ‹_›
    | dsimp only
    | dsimp +zetaDelta only

theorem chdServe_kept {s₀ : State} {a0 a1 a2} :
    Kept s₀ a2 → Kept s₀ (chdServe a0 a1 a2) := by
  intro h0
  unfold chdServe
  repeat' first
    | with_reducible assumption
    | with_reducible refine takeCmd_kept ?_
    | with_reducible refine chdAdmit_kept ?_
    | with_reducible refine setEng_kept ?_
    | with_reducible refine Kept.eqO2 ‹_› ?_
    | extract_lets
    | split
    | fail_if_no_progress with_reducible apply Kept.lit
    | with_reducible exact Kept.of1 ‹_›
    | with_reducible exact Kept.of2 ‹_›
    | with_reducible exact Kept.of2 (p := (_, _)) ‹_›
    | dsimp only
    | dsimp +zetaDelta only

theorem chdTimeout_kept {s₀ : State} {a0 a1 a2} :
    Kept s₀ a2 → Kept s₀ (chdTimeout a0 a1 a2) := by
  intro h0
  unfold chdTimeout
  repeat' first
    | with_reducible assumption
    | with_reducible refine hierEnd_kept ?_
    | with_reducible refine chdFinish_kept ?_
    | extract_lets
    | split
    | fail_if_no_progress with_reducible apply Kept.lit
    | with_reducible exact Kept.of1 ‹_›
    | with_reducible exact Kept.of2 ‹_›
    | with_reducible exact Kept.of2 (p := (_, _)) ‹_›
    | dsimp only
    | dsimp +zetaDelta only

theorem clearExcl_kept {s₀ : State} {a0 a1 a2} :
    Kept s₀ a2 → Kept s₀ (clearExcl a0 a1 a2) := by
  intro h0
  unfold clearExcl
  repeat' first
    | with_reducible assumption
    | with_reducible refine modVtx_kept ?_
    | extract_lets
    | split
    | fail_if_no_progress with_reducible apply Kept.lit
    | with_reducible exact Kept.of1 ‹_›
    | with_reducible exact Kept.of2 ‹_›
    | with_reducible exact Kept.of2 (p := (_, _)) ‹_›
    | dsimp only
    | dsimp +zetaDelta only

theorem clearLost_kept {s₀ : State} {a0 a1 a2} :
    Kept s₀ a2 → Kept s₀ (clearLost a0 a1 a2) := by
  intro h0
  unfold clearLost
  repeat' first
    | with_reducible assumption
    | with_reducible refine setLocPart_kept ?_
    | extract_lets
    | split
    | fail_if_no_progress with_reducible apply Kept.lit
    | with_reducible exact Kept.of1 ‹_›
    | with_reducible exact Kept.of2 ‹_›
    | with_reducible exact Kept.of2 (p := (_, _)) ‹_›
    | dsimp only
    | dsimp +zetaDelta only

theorem setChan_kept {s₀ : State} {a0 a1 a2} :
    Kept s₀ a2 → Kept s₀ (setChan a0 a1 a2) := by
  intro h0
  unfold setChan
  repeat' first
    | with_reducible assumption
    | extract_lets
    | split
    | fail_if_no_progress with_reducible apply Kept.lit
    | with_reducible exact Kept.of1 ‹_›
    | with_reducible exact Kept.of2 ‹_›
    | with_reducible exact Kept.of2 (p := (_, _)) ‹_›
    | dsimp only
    | dsimp +zetaDelta only

theorem setTray_kept {s₀ : State} {a0 a1 a2} :
    Kept s₀ a2 → Kept s₀ (setTray a0 a1 a2) := by
  intro h0
  unfold setTray
  repeat' first
    | with_reducible assumption
    | extract_lets
    | split
    | fail_if_no_progress with_reducible apply Kept.lit
    | with_reducible exact Kept.of1 ‹_›
    | with_reducible exact Kept.of2 ‹_›
    | with_reducible exact Kept.of2 (p := (_, _)) ‹_›
    | dsimp only
    | dsimp +zetaDelta only

theorem modTray_kept {s₀ : State} {a0 a1 a2} :
    Kept s₀ a2 → Kept s₀ (modTray a0 a1 a2) := by
  intro h0
  unfold modTray
  repeat' first
    | with_reducible assumption
    | with_reducible refine setTray_kept ?_
    | extract_lets
    | split
    | fail_if_no_progress with_reducible apply Kept.lit
    | with_reducible exact Kept.of1 ‹_›
    | with_reducible exact Kept.of2 ‹_›
    | with_reducible exact Kept.of2 (p := (_, _)) ‹_›
    | dsimp only
    | dsimp +zetaDelta only

theorem clearRetired_kept {s₀ : State} {a0 a1} :
    Kept s₀ a1 → Kept s₀ (clearRetired a0 a1) := by
  intro h0
  unfold clearRetired
  repeat' first
    | with_reducible assumption
    | with_reducible refine modCmp_kept ?_
    | with_reducible refine setChan_kept ?_
    | with_reducible refine modTray_kept ?_
    | with_reducible refine modPort_kept ?_
    | extract_lets
    | split
    | fail_if_no_progress with_reducible apply Kept.lit
    | with_reducible exact Kept.of1 ‹_›
    | with_reducible exact Kept.of2 ‹_›
    | with_reducible exact Kept.of2 (p := (_, _)) ‹_›
    | dsimp only
    | dsimp +zetaDelta only

theorem clearStale_kept {s₀ : State} {a0 a1} :
    Kept s₀ a1 → Kept s₀ (clearStale a0 a1) := by
  intro h0
  unfold clearStale
  repeat' first
    | with_reducible assumption
    | extract_lets
    | split
    | fail_if_no_progress with_reducible apply Kept.lit
    | with_reducible exact Kept.of1 ‹_›
    | with_reducible exact Kept.of2 ‹_›
    | with_reducible exact Kept.of2 (p := (_, _)) ‹_›
    | dsimp only
    | dsimp +zetaDelta only

theorem closeEpoch_kept {s₀ : State} {a0} :
    Kept s₀ a0 → Kept s₀ (closeEpoch a0) := by
  intro h0
  unfold closeEpoch
  repeat' first
    | with_reducible assumption
    | with_reducible refine modEnergy_kept ?_
    | extract_lets
    | split
    | fail_if_no_progress with_reducible apply Kept.lit
    | with_reducible exact Kept.of1 ‹_›
    | with_reducible exact Kept.of2 ‹_›
    | with_reducible exact Kept.of2 (p := (_, _)) ‹_›
    | dsimp only
    | dsimp +zetaDelta only

theorem cmdTokens_kept {s₀ : State} {a0 a1 a2} :
    Kept s₀ a2 → Kept1 s₀ (cmdTokens a0 a1 a2) := by
  intro h0
  unfold cmdTokens
  repeat' first
    | with_reducible assumption
    | with_reducible refine engineReadAs_kept ?_
    | with_reducible refine Kept.of1 (p := engineReadAs _ _ _ _ _ _ _) (engineReadAs_kept ?_)
    | with_reducible refine Kept.eq1 ‹_› ?_
    | extract_lets
    | split
    | with_reducible apply Kept1.mk
    | fail_if_no_progress with_reducible apply Kept.lit
    | with_reducible exact Kept.of1 ‹_›
    | with_reducible exact Kept.of2 ‹_›
    | with_reducible exact Kept.of2 (p := (_, _)) ‹_›
    | dsimp only
    | dsimp +zetaDelta only

theorem cohDrop_kept {s₀ : State} {a0 a1 a2 a3} :
    Kept s₀ a3 → KeptO s₀ (cohDrop a0 a1 a2 a3) := by
  intro h0
  unfold cohDrop
  repeat' first
    | with_reducible assumption
    | with_reducible refine modVtx_kept ?_
    | extract_lets
    | split
    | with_reducible apply KeptO.none
    | with_reducible apply KeptO.some
    | fail_if_no_progress with_reducible apply Kept.lit
    | with_reducible exact Kept.of1 ‹_›
    | with_reducible exact Kept.of2 ‹_›
    | with_reducible exact Kept.of2 (p := (_, _)) ‹_›
    | dsimp only
    | dsimp +zetaDelta only

theorem memMsg_kept {s₀ : State} {a0 a1 a2 a3 a4 a5 a6 a7 a8 a9 a10 a11} :
    Kept s₀ a11 → Kept s₀ (memMsg a0 a1 a2 a3 a4 a5 a6 a7 a8 a9 a10 a11) := by
  intro h0
  unfold memMsg
  repeat' first
    | with_reducible assumption
    | with_reducible refine modLoc_kept ?_
    | with_reducible refine endReq_kept ?_
    | with_reducible refine route_kept ?_
    | with_reducible refine startXlate_kept ?_
    | with_reducible refine reply_kept ?_
    | with_reducible refine Kept.getD ?_ ?_
    | extract_lets
    | split
    | fail_if_no_progress with_reducible apply Kept.lit
    | with_reducible exact Kept.of1 ‹_›
    | with_reducible exact Kept.of2 ‹_›
    | with_reducible exact Kept.of2 (p := (_, _)) ‹_›
    | dsimp only
    | dsimp +zetaDelta only

theorem cohMsg_kept {s₀ : State} {a0 a1 a2 a3 a4 a5 a6 a7} :
    Kept s₀ a7 → Kept s₀ (cohMsg a0 a1 a2 a3 a4 a5 a6 a7) := by
  intro h0
  unfold cohMsg
  repeat' first
    | with_reducible assumption
    | with_reducible refine vAccept_kept ?_
    | with_reducible refine reply_kept ?_
    | with_reducible refine memMsg_kept ?_
    | with_reducible refine Kept.getD ?_ ?_
    | extract_lets
    | split
    | fail_if_no_progress with_reducible apply Kept.lit
    | with_reducible exact Kept.of1 ‹_›
    | with_reducible exact Kept.of2 ‹_›
    | with_reducible exact Kept.of2 (p := (_, _)) ‹_›
    | dsimp only
    | dsimp +zetaDelta only

theorem dropGrant_kept {s₀ : State} {a0 a1 a2} :
    Kept s₀ a2 → Kept s₀ (dropGrant a0 a1 a2) := by
  intro h0
  unfold dropGrant
  repeat' first
    | with_reducible assumption
    | with_reducible refine modVtx_kept ?_
    | extract_lets
    | split
    | fail_if_no_progress with_reducible apply Kept.lit
    | with_reducible exact Kept.of1 ‹_›
    | with_reducible exact Kept.of2 ‹_›
    | with_reducible exact Kept.of2 (p := (_, _)) ‹_›
    | dsimp only
    | dsimp +zetaDelta only

theorem setTxn_kept {s₀ : State} {a0 a1} :
    Kept s₀ a1 → Kept s₀ (setTxn a0 a1) := by
  intro h0
  unfold setTxn
  repeat' first
    | with_reducible assumption
    | with_reducible refine modVtx_kept ?_
    | extract_lets
    | split
    | fail_if_no_progress with_reducible apply Kept.lit
    | with_reducible exact Kept.of1 ‹_›
    | with_reducible exact Kept.of2 ‹_›
    | with_reducible exact Kept.of2 (p := (_, _)) ‹_›
    | dsimp only
    | dsimp +zetaDelta only

theorem lineReady_kept {s₀ : State} {a0 a1 a2} :
    Kept s₀ a2 → Kept1 s₀ (lineReady a0 a1 a2) := by
  intro h0
  unfold lineReady
  repeat' first
    | with_reducible assumption
    | with_reducible refine readyWrite_kept ?_
    | with_reducible refine Kept.of1 (p := readyWrite _ _) (readyWrite_kept ?_)
    | with_reducible refine usePage_kept ?_
    | with_reducible refine Kept.eq1 ‹_› ?_
    | extract_lets
    | split
    | with_reducible apply Kept1.mk
    | fail_if_no_progress with_reducible apply Kept.lit
    | with_reducible exact Kept.of1 ‹_›
    | with_reducible exact Kept.of2 ‹_›
    | with_reducible exact Kept.of2 (p := (_, _)) ‹_›
    | dsimp only
    | dsimp +zetaDelta only

theorem vjRun_kept {s₀ : State} {a0 a1 a2 a3} :
    Kept s₀ a3 → Kept s₀ (vjRun a0 a1 a2 a3) := by
  intro h0
  induction a1 generalizing a2 a3 with
  | zero =>
      unfold vjRun
      repeat' first
        | with_reducible assumption
        | with_reducible refine finishCmd_kept ?_
        | with_reducible refine modVtx_kept ?_
        | with_reducible refine translate_kept ?_
        | with_reducible refine Kept.of1 (p := translate _ _) (translate_kept ?_)
        | with_reducible refine send_kept ?_
        | with_reducible refine closeWin_kept ?_
        | with_reducible refine vStart_kept ?_
        | with_reducible refine Kept.eq1 ‹_› ?_
        | with_reducible refine KeptO2.mapO ?_ (fun _ _ => ?_)
        | with_reducible refine KeptO2.map (fun _ => ?_)
        | with_reducible refine KeptO.map (fun _ => ?_)
        | extract_lets
        | split
        | with_reducible apply Kept1.mk
        | fail_if_no_progress with_reducible apply Kept.lit
        | with_reducible exact Kept.of1 ‹_›
        | with_reducible exact Kept.of2 ‹_›
        | with_reducible exact Kept.of2 (p := (_, _)) ‹_›
        | dsimp only
        | dsimp +zetaDelta only
  | succ _ ih =>
      unfold vjRun
      repeat' first
        | with_reducible assumption
        | with_reducible apply ih
        | with_reducible refine finishCmd_kept ?_
        | with_reducible refine modVtx_kept ?_
        | with_reducible refine translate_kept ?_
        | with_reducible refine Kept.of1 (p := translate _ _) (translate_kept ?_)
        | with_reducible refine send_kept ?_
        | with_reducible refine closeWin_kept ?_
        | with_reducible refine vStart_kept ?_
        | with_reducible refine Kept.eq1 ‹_› ?_
        | with_reducible refine KeptO2.mapO ?_ (fun _ _ => ?_)
        | with_reducible refine KeptO2.map (fun _ => ?_)
        | with_reducible refine KeptO.map (fun _ => ?_)
        | extract_lets
        | split
        | with_reducible apply Kept1.mk
        | fail_if_no_progress with_reducible apply Kept.lit
        | with_reducible exact Kept.of1 ‹_›
        | with_reducible exact Kept.of2 ‹_›
        | with_reducible exact Kept.of2 (p := (_, _)) ‹_›
        | dsimp only
        | dsimp +zetaDelta only

theorem vjNext_kept {s₀ : State} {a0 a1} :
    Kept s₀ a1 → Kept s₀ (vjNext a0 a1) := by
  intro h0
  unfold vjNext
  repeat' first
    | with_reducible assumption
    | with_reducible refine vjRun_kept ?_
    | extract_lets
    | split
    | fail_if_no_progress with_reducible apply Kept.lit
    | with_reducible exact Kept.of1 ‹_›
    | with_reducible exact Kept.of2 ‹_›
    | with_reducible exact Kept.of2 (p := (_, _)) ‹_›
    | dsimp only
    | dsimp +zetaDelta only

theorem vMemDone_kept {s₀ : State} {a0 a1} :
    Kept s₀ a1 → Kept s₀ (vMemDone a0 a1) := by
  intro h0
  unfold vMemDone
  repeat' first
    | with_reducible assumption
    | with_reducible refine lineReady_kept ?_
    | with_reducible refine Kept.of1 (p := lineReady _ _ _) (lineReady_kept ?_)
    | with_reducible refine setTxn_kept ?_
    | with_reducible refine vjNext_kept ?_
    | with_reducible refine vAfter_kept ?_
    | with_reducible refine finishTxn_kept ?_
    | with_reducible refine foldWrite_kept ?_
    | with_reducible refine Kept.of1 (p := foldWrite _ _ _ _ _ _ _) (foldWrite_kept ?_)
    | with_reducible refine foldRead_kept ?_
    | with_reducible refine Kept.of1 (p := foldRead _ _ _ _ _) (foldRead_kept ?_)
    | with_reducible refine modVtx_kept ?_
    | with_reducible refine vReply_kept ?_
    | with_reducible refine setWin_kept ?_
    | with_reducible refine serveMembers_kept ?_
    | with_reducible refine applyAtomic_kept ?_
    | with_reducible refine foldWriteOpt_kept ?_
    | with_reducible refine Kept.of1 (p := foldWriteOpt _ _ _ _ _ _ _) (foldWriteOpt_kept ?_)
    | with_reducible refine Kept.foldl ?_ (fun _ _ _ => ?_)
    | with_reducible refine Kept1.foldl ?_ (fun _ _ _ => ?_)
    | with_reducible refine Kept.fold1 ?_ (fun _ _ _ => ?_)
    | with_reducible refine Kept.eq1 ‹_› ?_
    | extract_lets
    | split
    | with_reducible apply Kept1.mk
    | fail_if_no_progress with_reducible apply Kept.lit
    | with_reducible exact Kept.of1 ‹_›
    | with_reducible exact Kept.of2 ‹_›
    | with_reducible exact Kept.of2 (p := (_, _)) ‹_›
    | dsimp only
    | dsimp +zetaDelta only

theorem vAdvance_kept {s₀ : State} {a0 a1} :
    Kept s₀ a1 → Kept s₀ (vAdvance a0 a1) := by
  intro h0
  unfold vAdvance
  repeat' first
    | with_reducible assumption
    | with_reducible refine setTxn_kept ?_
    | with_reducible refine vMemDone_kept ?_
    | extract_lets
    | split
    | fail_if_no_progress with_reducible apply Kept.lit
    | with_reducible exact Kept.of1 ‹_›
    | with_reducible exact Kept.of2 ‹_›
    | with_reducible exact Kept.of2 (p := (_, _)) ‹_›
    | dsimp only
    | dsimp +zetaDelta only

theorem cohRsp_kept {s₀ : State} {a0 a1 a2 a3 a4 a5} :
    Kept s₀ a5 → Kept s₀ (cohRsp a0 a1 a2 a3 a4 a5) := by
  intro h0
  unfold cohRsp
  repeat' first
    | with_reducible assumption
    | with_reducible refine cohDrop_kept ?_
    | with_reducible refine domainDown_kept ?_
    | with_reducible refine dropGrant_kept ?_
    | with_reducible refine vAdvance_kept ?_
    | with_reducible refine setTxn_kept ?_
    | with_reducible refine Kept.eqO ‹_› ?_
    | extract_lets
    | split
    | fail_if_no_progress with_reducible apply Kept.lit
    | with_reducible exact Kept.of1 ‹_›
    | with_reducible exact Kept.of2 ‹_›
    | with_reducible exact Kept.of2 (p := (_, _)) ‹_›
    | dsimp only
    | dsimp +zetaDelta only

theorem cohWb_kept {s₀ : State} {a0 a1 a2 a3 a4} :
    Kept s₀ a4 → Kept s₀ (cohWb a0 a1 a2 a3 a4) := by
  intro h0
  unfold cohWb
  repeat' first
    | with_reducible assumption
    | with_reducible refine cohDrop_kept ?_
    | with_reducible refine send_kept ?_
    | with_reducible refine dropGrant_kept ?_
    | with_reducible refine readyWrite_kept ?_
    | with_reducible refine Kept.of1 (p := readyWrite _ _) (readyWrite_kept ?_)
    | with_reducible refine foldWrite_kept ?_
    | with_reducible refine Kept.of1 (p := foldWrite _ _ _ _ _ _ _) (foldWrite_kept ?_)
    | with_reducible refine vAdvance_kept ?_
    | with_reducible refine setTxn_kept ?_
    | with_reducible refine domainDown_kept ?_
    | with_reducible refine dirFree_kept ?_
    | with_reducible refine Kept.getD ?_ ?_
    | with_reducible refine Kept.eq1 ‹_› ?_
    | with_reducible refine Kept.eqO ‹_› ?_
    | extract_lets
    | split
    | with_reducible apply Kept1.mk
    | fail_if_no_progress with_reducible apply Kept.lit
    | with_reducible exact Kept.of1 ‹_›
    | with_reducible exact Kept.of2 ‹_›
    | with_reducible exact Kept.of2 (p := (_, _)) ‹_›
    | dsimp only
    | dsimp +zetaDelta only

theorem coldState_kept {s₀ : State} {a0} :
    Kept s₀ a0 → Kept s₀ (coldState a0) := by
  intro h0
  exact ⟨h0.1, fun _ => rfl⟩

theorem commitFail_kept {s₀ : State} {a0 a1} :
    Kept s₀ a1 → Kept s₀ (commitFail a0 a1) := by
  intro h0
  unfold commitFail
  repeat' first
    | with_reducible assumption
    | with_reducible refine report_kept ?_
    | with_reducible refine modPer_kept ?_
    | with_reducible refine endAgree_kept ?_
    | with_reducible refine toStep1_kept ?_
    | extract_lets
    | split
    | fail_if_no_progress with_reducible apply Kept.lit
    | with_reducible exact Kept.of1 ‹_›
    | with_reducible exact Kept.of2 ‹_›
    | with_reducible exact Kept.of2 (p := (_, _)) ‹_›
    | dsimp only
    | dsimp +zetaDelta only

theorem sendStatement_kept {s₀ : State} {a0} :
    Kept s₀ a0 → Kept s₀ (sendStatement a0) := by
  intro h0
  unfold sendStatement
  repeat' first
    | with_reducible assumption
    | with_reducible refine emit_kept ?_
    | extract_lets
    | split
    | fail_if_no_progress with_reducible apply Kept.lit
    | with_reducible exact Kept.of1 ‹_›
    | with_reducible exact Kept.of2 ‹_›
    | with_reducible exact Kept.of2 (p := (_, _)) ‹_›
    | dsimp only
    | dsimp +zetaDelta only

theorem poolFounded_kept {s₀ : State} {a0 a1} :
    Kept s₀ a1 → Kept s₀ (poolFounded a0 a1) := by
  intro h0
  unfold poolFounded
  extract_lets u _ v
  have hv : Kept s₀ v := releaseAll_kept (Kept.lit (modPer_kept h0))
  refine sendStatement_kept ?_
  clear_value v
  exact ⟨hv.1, fun _ => rfl⟩

theorem commitOk_kept {s₀ : State} {a0 a1} :
    Kept s₀ a1 → Kept s₀ (commitOk a0 a1) := by
  intro h0
  unfold commitOk
  repeat' first
    | with_reducible assumption
    | with_reducible refine modPer_kept ?_
    | with_reducible refine poolFounded_kept ?_
    | with_reducible refine agreeCheck_kept ?_
    | with_reducible refine send_kept ?_
    | with_reducible refine setAgree_kept ?_
    | extract_lets
    | split
    | fail_if_no_progress with_reducible apply Kept.lit
    | with_reducible exact Kept.of1 ‹_›
    | with_reducible exact Kept.of2 ‹_›
    | with_reducible exact Kept.of2 (p := (_, _)) ‹_›
    | dsimp only
    | dsimp +zetaDelta only

theorem poisonPage_kept {s₀ : State} {a0 a1} :
    Kept s₀ a1 → Kept s₀ (poisonPage a0 a1) := by
  intro h0
  unfold poisonPage
  repeat' first
    | with_reducible assumption
    | with_reducible refine clearPage_kept ?_
    | with_reducible refine Kept.foldl ?_ (fun _ _ _ => ?_)
    | with_reducible refine Kept1.foldl ?_ (fun _ _ _ => ?_)
    | with_reducible refine Kept.fold1 ?_ (fun _ _ _ => ?_)
    | with_reducible refine Kept.eq1 ‹_› ?_
    | extract_lets
    | split
    | with_reducible apply Kept1.mk
    | fail_if_no_progress with_reducible apply Kept.lit
    | with_reducible exact Kept.of1 ‹_›
    | with_reducible exact Kept.of2 ‹_›
    | with_reducible exact Kept.of2 (p := (_, _)) ‹_›
    | dsimp only
    | dsimp +zetaDelta only

theorem lostPage_kept {s₀ : State} {a0 a1} :
    Kept s₀ a1 → Kept s₀ (lostPage a0 a1) := by
  intro h0
  unfold lostPage
  repeat' first
    | with_reducible assumption
    | with_reducible refine debit_kept ?_
    | with_reducible refine allocFirst_kept ?_
    | with_reducible refine poisonPage_kept ?_
    | with_reducible refine setPage_kept ?_
    | with_reducible refine Kept.getD ?_ ?_
    | with_reducible refine Kept.eqO2 ‹_› ?_
    | extract_lets
    | split
    | fail_if_no_progress with_reducible apply Kept.lit
    | with_reducible exact Kept.of1 ‹_›
    | with_reducible exact Kept.of2 ‹_›
    | with_reducible exact Kept.of2 (p := (_, _)) ‹_›
    | dsimp only
    | dsimp +zetaDelta only

theorem convertPages_kept {s₀ : State} {a0} :
    Kept s₀ a0 → Kept s₀ (convertPages a0) := by
  intro h0
  unfold convertPages
  repeat' first
    | with_reducible assumption
    | with_reducible refine setPage_kept ?_
    | with_reducible refine lostPage_kept ?_
    | with_reducible refine Kept.foldl ?_ (fun _ _ _ => ?_)
    | with_reducible refine Kept1.foldl ?_ (fun _ _ _ => ?_)
    | with_reducible refine Kept.fold1 ?_ (fun _ _ _ => ?_)
    | with_reducible refine Kept.eq1 ‹_› ?_
    | extract_lets
    | split
    | with_reducible apply Kept1.mk
    | fail_if_no_progress with_reducible apply Kept.lit
    | with_reducible exact Kept.of1 ‹_›
    | with_reducible exact Kept.of2 ‹_›
    | with_reducible exact Kept.of2 (p := (_, _)) ‹_›
    | dsimp only
    | dsimp +zetaDelta only

theorem copyEntry_kept {s₀ : State} {a0 a1 a2 a3 a4} :
    Kept s₀ a3 → Kept1 s₀ (copyEntry a0 a1 a2 a3 a4) := by
  intro h0
  unfold copyEntry
  repeat' first
    | with_reducible assumption
    | with_reducible refine engineReadAs_kept ?_
    | with_reducible refine Kept.of1 (p := engineReadAs _ _ _ _ _ _ _) (engineReadAs_kept ?_)
    | with_reducible refine useFresh_kept ?_
    | with_reducible refine engineWriteAs_kept ?_
    | with_reducible refine Kept.of1 (p := engineWriteAs _ _ _ _ _ _ _) (engineWriteAs_kept ?_)
    | with_reducible refine Kept.foldl ?_ (fun _ _ _ => ?_)
    | with_reducible refine Kept1.foldl ?_ (fun _ _ _ => ?_)
    | with_reducible refine Kept.fold1 ?_ (fun _ _ _ => ?_)
    | with_reducible refine Kept.getD ?_ ?_
    | with_reducible refine Kept.eq1 ‹_› ?_
    | extract_lets
    | split
    | with_reducible apply Kept1.mk
    | fail_if_no_progress with_reducible apply Kept.lit
    | with_reducible exact Kept.of1 ‹_›
    | with_reducible exact Kept.of2 ‹_›
    | with_reducible exact Kept.of2 (p := (_, _)) ‹_›
    | dsimp only
    | dsimp +zetaDelta only

theorem copyPoison_kept {s₀ : State} {a0 a1} :
    Kept s₀ a1 → Kept s₀ (copyPoison a0 a1) := by
  intro h0
  unfold copyPoison
  refine Kept.foldl h0 (fun t b h => ?_)
  have hd := detect_kept (a0 := (pagePart t a0).getD 16) (a1 := b) (a2 := { engine := true, num := 0xFFF }) h
  exact setBlk_kept ⟨hd.1, fun m => memClear_wf _ _ (hd.2 m)⟩

theorem switchover_kept {s₀ : State} {a0 a1} :
    Kept s₀ a1 → Kept s₀ (switchover a0 a1) := by
  intro h0
  unfold switchover
  repeat' first
    | with_reducible assumption
    | with_reducible refine setPage_kept ?_
    | extract_lets
    | split
    | fail_if_no_progress with_reducible apply Kept.lit
    | with_reducible exact Kept.of1 ‹_›
    | with_reducible exact Kept.of2 ‹_›
    | with_reducible exact Kept.of2 (p := (_, _)) ‹_›
    | dsimp only
    | dsimp +zetaDelta only

theorem finishMigr_kept {s₀ : State} {a0 a1} :
    Kept s₀ a1 → Kept s₀ (finishMigr a0 a1) := by
  intro h0
  unfold finishMigr
  repeat' first
    | with_reducible assumption
    | with_reducible refine switchover_kept ?_
    | with_reducible refine settle_kept ?_
    | extract_lets
    | split
    | fail_if_no_progress with_reducible apply Kept.lit
    | with_reducible exact Kept.of1 ‹_›
    | with_reducible exact Kept.of2 ‹_›
    | with_reducible exact Kept.of2 (p := (_, _)) ‹_›
    | dsimp only
    | dsimp +zetaDelta only

theorem orbAcked_kept {s₀ : State} {a0 a1} :
    Kept s₀ a1 → Kept s₀ (orbAcked a0 a1) := by
  intro h0
  unfold orbAcked
  repeat' first
    | with_reducible assumption
    | with_reducible refine finishCmd_kept ?_
    | with_reducible refine modOrb_kept ?_
    | extract_lets
    | split
    | fail_if_no_progress with_reducible apply Kept.lit
    | with_reducible exact Kept.of1 ‹_›
    | with_reducible exact Kept.of2 ‹_›
    | with_reducible exact Kept.of2 (p := (_, _)) ‹_›
    | dsimp only
    | dsimp +zetaDelta only

theorem groupZeroDone_kept {s₀ : State} {a0 a1} :
    Kept s₀ a1 → Kept s₀ (groupZeroDone a0 a1) := by
  intro h0
  unfold groupZeroDone
  repeat' first
    | with_reducible assumption
    | with_reducible refine groupZeroed_kept ?_
    | with_reducible refine modPer_kept ?_
    | with_reducible refine reply_kept ?_
    | with_reducible refine Kept.foldl ?_ (fun _ _ _ => ?_)
    | with_reducible refine Kept1.foldl ?_ (fun _ _ _ => ?_)
    | with_reducible refine Kept.fold1 ?_ (fun _ _ _ => ?_)
    | with_reducible refine Kept.eq1 ‹_› ?_
    | extract_lets
    | split
    | with_reducible apply Kept1.mk
    | fail_if_no_progress with_reducible apply Kept.lit
    | with_reducible exact Kept.of1 ‹_›
    | with_reducible exact Kept.of2 ‹_›
    | with_reducible exact Kept.of2 (p := (_, _)) ‹_›
    | dsimp only
    | dsimp +zetaDelta only

theorem modPPart_kept {s₀ : State} {a0 a1 a2} :
    Kept s₀ a2 → Kept s₀ (modPPart a0 a1 a2) := by
  intro h0
  unfold modPPart
  repeat' first
    | with_reducible assumption
    | with_reducible refine modPer_kept ?_
    | extract_lets
    | split
    | fail_if_no_progress with_reducible apply Kept.lit
    | with_reducible exact Kept.of1 ‹_›
    | with_reducible exact Kept.of2 ‹_›
    | with_reducible exact Kept.of2 (p := (_, _)) ‹_›
    | dsimp only
    | dsimp +zetaDelta only

theorem liftScrub_kept {s₀ : State} {a0 a1} :
    Kept s₀ a1 → Kept s₀ (liftScrub a0 a1) := by
  intro h0
  unfold liftScrub
  repeat' first
    | with_reducible assumption
    | with_reducible refine modPPart_kept ?_
    | with_reducible refine modPer_kept ?_
    | extract_lets
    | split
    | fail_if_no_progress with_reducible apply Kept.lit
    | with_reducible exact Kept.of1 ‹_›
    | with_reducible exact Kept.of2 ‹_›
    | with_reducible exact Kept.of2 (p := (_, _)) ‹_›
    | dsimp only
    | dsimp +zetaDelta only

theorem scrubAcked_kept {s₀ : State} {a0 a1} :
    Kept s₀ a1 → Kept s₀ (scrubAcked a0 a1) := by
  intro h0
  unfold scrubAcked
  repeat' first
    | with_reducible assumption
    | with_reducible refine modPer_kept ?_
    | with_reducible refine liftScrub_kept ?_
    | extract_lets
    | split
    | fail_if_no_progress with_reducible apply Kept.lit
    | with_reducible exact Kept.of1 ‹_›
    | with_reducible exact Kept.of2 ‹_›
    | with_reducible exact Kept.of2 (p := (_, _)) ‹_›
    | dsimp only
    | dsimp +zetaDelta only

theorem runAct_kept {s₀ : State} {a0 a1} :
    Kept s₀ a1 → Kept s₀ (runAct a0 a1) := by
  intro h0
  unfold runAct
  repeat' first
    | with_reducible assumption
    | with_reducible refine commitSnap_kept ?_
    | with_reducible refine applyEntry_kept ?_
    | with_reducible refine applyHint_kept ?_
    | with_reducible refine finishMigr_kept ?_
    | with_reducible refine orbAcked_kept ?_
    | with_reducible refine groupZeroDone_kept ?_
    | with_reducible refine scrubAcked_kept ?_
    | extract_lets
    | split
    | fail_if_no_progress with_reducible apply Kept.lit
    | with_reducible exact Kept.of1 ‹_›
    | with_reducible exact Kept.of2 ‹_›
    | with_reducible exact Kept.of2 (p := (_, _)) ‹_›
    | dsimp only
    | dsimp +zetaDelta only

theorem dropPartner_kept {s₀ : State} {a0} :
    Kept s₀ a0 → Kept s₀ (dropPartner a0) := by
  intro h0
  unfold dropPartner
  repeat' first
    | with_reducible assumption
    | with_reducible refine modPair_kept ?_
    | with_reducible refine runAct_kept ?_
    | with_reducible refine portDown_kept ?_
    | with_reducible refine Kept.foldl ?_ (fun _ _ _ => ?_)
    | with_reducible refine Kept1.foldl ?_ (fun _ _ _ => ?_)
    | with_reducible refine Kept.fold1 ?_ (fun _ _ _ => ?_)
    | with_reducible refine Kept.eq1 ‹_› ?_
    | extract_lets
    | split
    | with_reducible apply Kept1.mk
    | fail_if_no_progress with_reducible apply Kept.lit
    | with_reducible exact Kept.of1 ‹_›
    | with_reducible exact Kept.of2 ‹_›
    | with_reducible exact Kept.of2 (p := (_, _)) ‹_›
    | dsimp only
    | dsimp +zetaDelta only

theorem dropCommits_kept {s₀ : State} {a0 a1} :
    Kept s₀ a1 → Kept s₀ (dropCommits a0 a1) := by
  intro h0
  unfold dropCommits
  repeat' first
    | with_reducible assumption
    | extract_lets
    | split
    | fail_if_no_progress with_reducible apply Kept.lit
    | with_reducible exact Kept.of1 ‹_›
    | with_reducible exact Kept.of2 ‹_›
    | with_reducible exact Kept.of2 (p := (_, _)) ‹_›
    | dsimp only
    | dsimp +zetaDelta only

theorem enterRestarting_kept {s₀ : State} {a0 a1} :
    Kept s₀ a1 → Kept s₀ (enterRestarting a0 a1) := by
  intro h0
  unfold enterRestarting
  repeat' first
    | with_reducible assumption
    | with_reducible refine report_kept ?_
    | with_reducible refine abandonSeqs_kept ?_
    | with_reducible refine endWaiters_kept ?_
    | with_reducible refine dropCommits_kept ?_
    | with_reducible refine restoreObjs_kept ?_
    | with_reducible refine modDom_kept ?_
    | with_reducible refine abandonEngines_kept ?_
    | extract_lets
    | split
    | fail_if_no_progress with_reducible apply Kept.lit
    | with_reducible exact Kept.of1 ‹_›
    | with_reducible exact Kept.of2 ‹_›
    | with_reducible exact Kept.of2 (p := (_, _)) ‹_›
    | dsimp only
    | dsimp +zetaDelta only

theorem takeDomain_kept {s₀ : State} {a0 a1} :
    Kept s₀ a1 → Kept s₀ (takeDomain a0 a1) := by
  intro h0
  unfold takeDomain
  repeat' first
    | with_reducible assumption
    | with_reducible refine setDom_kept ?_
    | with_reducible refine modDom_kept ?_
    | with_reducible refine enterRestarting_kept ?_
    | extract_lets
    | split
    | fail_if_no_progress with_reducible apply Kept.lit
    | with_reducible exact Kept.of1 ‹_›
    | with_reducible exact Kept.of2 ‹_›
    | with_reducible exact Kept.of2 (p := (_, _)) ‹_›
    | dsimp only
    | dsimp +zetaDelta only

theorem restartDomains_kept {s₀ : State} {a0} :
    Kept s₀ a0 → Kept s₀ (restartDomains a0) := by
  intro h0
  unfold restartDomains
  repeat' first
    | with_reducible assumption
    | with_reducible refine enterRestarting_kept ?_
    | with_reducible refine modVtx_kept ?_
    | with_reducible refine Kept.foldl ?_ (fun _ _ _ => ?_)
    | with_reducible refine Kept1.foldl ?_ (fun _ _ _ => ?_)
    | with_reducible refine Kept.fold1 ?_ (fun _ _ _ => ?_)
    | with_reducible refine Kept.eq1 ‹_› ?_
    | extract_lets
    | split
    | with_reducible apply Kept1.mk
    | fail_if_no_progress with_reducible apply Kept.lit
    | with_reducible exact Kept.of1 ‹_›
    | with_reducible exact Kept.of2 ‹_›
    | with_reducible exact Kept.of2 (p := (_, _)) ‹_›
    | dsimp only
    | dsimp +zetaDelta only

theorem orbTakeover_kept {s₀ : State} {a0} :
    Kept s₀ a0 → Kept s₀ (orbTakeover a0) := by
  intro h0
  unfold orbTakeover
  repeat' first
    | with_reducible assumption
    | with_reducible refine addOJob_kept ?_
    | with_reducible refine setSess_kept ?_
    | with_reducible refine freePages_kept ?_
    | with_reducible refine Kept.foldl ?_ (fun _ _ _ => ?_)
    | with_reducible refine Kept1.foldl ?_ (fun _ _ _ => ?_)
    | with_reducible refine Kept.fold1 ?_ (fun _ _ _ => ?_)
    | with_reducible refine Kept.eq1 ‹_› ?_
    | extract_lets
    | split
    | with_reducible apply Kept1.mk
    | fail_if_no_progress with_reducible apply Kept.lit
    | with_reducible exact Kept.of1 ‹_›
    | with_reducible exact Kept.of2 ‹_›
    | with_reducible exact Kept.of2 (p := (_, _)) ‹_›
    | dsimp only
    | dsimp +zetaDelta only

theorem orbReply_kept {s₀ : State} {a0 a1 a2 a3} :
    Kept s₀ a3 → Kept s₀ (orbReply a0 a1 a2 a3) := by
  intro h0
  unfold orbReply
  repeat' first
    | with_reducible assumption
    | with_reducible refine finishCmd_kept ?_
    | with_reducible refine countOrb_kept ?_
    | extract_lets
    | split
    | fail_if_no_progress with_reducible apply Kept.lit
    | with_reducible exact Kept.of1 ‹_›
    | with_reducible exact Kept.of2 ‹_›
    | with_reducible exact Kept.of2 (p := (_, _)) ‹_›
    | dsimp only
    | dsimp +zetaDelta only

theorem orbForwardLost_kept {s₀ : State} {a0} :
    Kept s₀ a0 → Kept s₀ (orbForwardLost a0) := by
  intro h0
  unfold orbForwardLost
  repeat' first
    | with_reducible assumption
    | with_reducible refine orbReply_kept ?_
    | with_reducible refine modOrb_kept ?_
    | with_reducible refine Kept.foldl ?_ (fun _ _ _ => ?_)
    | with_reducible refine Kept1.foldl ?_ (fun _ _ _ => ?_)
    | with_reducible refine Kept.fold1 ?_ (fun _ _ _ => ?_)
    | with_reducible refine Kept.eq1 ‹_› ?_
    | extract_lets
    | split
    | with_reducible apply Kept1.mk
    | fail_if_no_progress with_reducible apply Kept.lit
    | with_reducible exact Kept.of1 ‹_›
    | with_reducible exact Kept.of2 ‹_›
    | with_reducible exact Kept.of2 (p := (_, _)) ‹_›
    | dsimp only
    | dsimp +zetaDelta only

theorem takeover_kept {s₀ : State} {a0} :
    Kept s₀ a0 → Kept s₀ (takeover a0) := by
  intro h0
  unfold takeover
  repeat' first
    | with_reducible assumption
    | with_reducible refine setFaultBit_kept ?_
    | with_reducible refine dropPartner_kept ?_
    | with_reducible refine modPer_kept ?_
    | with_reducible refine modPair_kept ?_
    | with_reducible refine domainDown_kept ?_
    | with_reducible refine takeDomain_kept ?_
    | with_reducible refine restartDomains_kept ?_
    | with_reducible refine modMer_kept ?_
    | with_reducible refine orbTakeover_kept ?_
    | with_reducible refine convertPages_kept ?_
    | with_reducible refine orbForwardLost_kept ?_
    | with_reducible refine Kept.foldl ?_ (fun _ _ _ => ?_)
    | with_reducible refine Kept1.foldl ?_ (fun _ _ _ => ?_)
    | with_reducible refine Kept.fold1 ?_ (fun _ _ _ => ?_)
    | with_reducible refine Kept.eq1 ‹_› ?_
    | extract_lets
    | split
    | with_reducible apply Kept1.mk
    | fail_if_no_progress with_reducible apply Kept.lit
    | with_reducible exact Kept.of1 ‹_›
    | with_reducible exact Kept.of2 ‹_›
    | with_reducible exact Kept.of2 (p := (_, _)) ‹_›
    | dsimp only
    | dsimp +zetaDelta only

theorem declareIfLost_kept {s₀ : State} {a0} :
    Kept s₀ a0 → Kept s₀ (declareIfLost a0) := by
  intro h0
  unfold declareIfLost
  repeat' first
    | with_reducible assumption
    | with_reducible refine takeover_kept ?_
    | extract_lets
    | split
    | fail_if_no_progress with_reducible apply Kept.lit
    | with_reducible exact Kept.of1 ‹_›
    | with_reducible exact Kept.of2 ‹_›
    | with_reducible exact Kept.of2 (p := (_, _)) ‹_›
    | dsimp only
    | dsimp +zetaDelta only

theorem degrade_kept {s₀ : State} {a0 a1 a2 a3} :
    Kept s₀ a3 → Kept s₀ (degrade a0 a1 a2 a3) := by
  intro h0
  unfold degrade
  repeat' first
    | with_reducible assumption
    | with_reducible refine portDown_kept ?_
    | with_reducible refine laneRetired_kept ?_
    | with_reducible refine setPort_kept ?_
    | with_reducible refine send_kept ?_
    | extract_lets
    | split
    | fail_if_no_progress with_reducible apply Kept.lit
    | with_reducible exact Kept.of1 ‹_›
    | with_reducible exact Kept.of2 ‹_›
    | with_reducible exact Kept.of2 (p := (_, _)) ‹_›
    | dsimp only
    | dsimp +zetaDelta only

theorem lookRing_kept {s₀ : State} {a0 a1 a2} :
    Kept s₀ a2 → Kept1 s₀ (lookRing a0 a1 a2) := by
  intro h0
  unfold lookRing
  repeat' first
    | with_reducible assumption
    | with_reducible refine engineReadAs_kept ?_
    | with_reducible refine Kept.of1 (p := engineReadAs _ _ _ _ _ _ _) (engineReadAs_kept ?_)
    | with_reducible refine Kept.eq1 ‹_› ?_
    | extract_lets
    | split
    | with_reducible apply Kept1.mk
    | fail_if_no_progress with_reducible apply Kept.lit
    | with_reducible exact Kept.of1 ‹_›
    | with_reducible exact Kept.of2 ‹_›
    | with_reducible exact Kept.of2 (p := (_, _)) ‹_›
    | dsimp only
    | dsimp +zetaDelta only

theorem putEntries_kept {s₀ : State} {a0 a1 a2} :
    Kept s₀ a2 → Kept1 s₀ (putEntries a0 a1 a2) := by
  intro h0
  induction a1 generalizing a0 a2 with
  | nil =>
      unfold putEntries
      repeat' first
        | with_reducible assumption
        | with_reducible refine Kept.of1 (p := putEntries _ _ _) ?_
        | with_reducible refine apxWrite_kept ?_
        | with_reducible refine Kept.of1 (p := apxWrite _ _ _ _) (apxWrite_kept ?_)
        | with_reducible refine Kept.eq1 ‹_› ?_
        | extract_lets
        | split
        | with_reducible apply Kept1.mk
        | fail_if_no_progress with_reducible apply Kept.lit
        | with_reducible exact Kept.of1 ‹_›
        | with_reducible exact Kept.of2 ‹_›
        | with_reducible exact Kept.of2 (p := (_, _)) ‹_›
        | dsimp only
        | dsimp +zetaDelta only
  | cons _ _ ih =>
      unfold putEntries
      repeat' first
        | with_reducible assumption
        | with_reducible apply ih
        | with_reducible refine Kept.of1 (p := putEntries _ _ _) ?_
        | with_reducible refine apxWrite_kept ?_
        | with_reducible refine Kept.of1 (p := apxWrite _ _ _ _) (apxWrite_kept ?_)
        | with_reducible refine Kept.eq1 ‹_› ?_
        | extract_lets
        | split
        | with_reducible apply Kept1.mk
        | fail_if_no_progress with_reducible apply Kept.lit
        | with_reducible exact Kept.of1 ‹_›
        | with_reducible exact Kept.of2 ‹_›
        | with_reducible exact Kept.of2 (p := (_, _)) ‹_›
        | dsimp only
        | dsimp +zetaDelta only

theorem modAStat_kept {s₀ : State} {a0 a1 a2} :
    Kept s₀ a2 → Kept s₀ (modAStat a0 a1 a2) := by
  intro h0
  unfold modAStat
  repeat' first
    | with_reducible assumption
    | with_reducible refine modApx_kept ?_
    | extract_lets
    | split
    | fail_if_no_progress with_reducible apply Kept.lit
    | with_reducible exact Kept.of1 ‹_›
    | with_reducible exact Kept.of2 ‹_›
    | with_reducible exact Kept.of2 (p := (_, _)) ‹_›
    | dsimp only
    | dsimp +zetaDelta only

theorem putHeader_kept {s₀ : State} {a0 a1} :
    Kept s₀ a1 → Kept1 s₀ (putHeader a0 a1) := by
  intro h0
  unfold putHeader
  repeat' first
    | with_reducible assumption
    | with_reducible refine apxWrite_kept ?_
    | with_reducible refine Kept.of1 (p := apxWrite _ _ _ _) (apxWrite_kept ?_)
    | with_reducible refine Kept.eq1 ‹_› ?_
    | extract_lets
    | split
    | with_reducible apply Kept1.mk
    | fail_if_no_progress with_reducible apply Kept.lit
    | with_reducible exact Kept.of1 ‹_›
    | with_reducible exact Kept.of2 ‹_›
    | with_reducible exact Kept.of2 (p := (_, _)) ‹_›
    | dsimp only
    | dsimp +zetaDelta only

theorem putEnd_kept {s₀ : State} {a0 a1 a2 a3} :
    Kept s₀ a3 → Kept1 s₀ (putEnd a0 a1 a2 a3) := by
  intro h0
  unfold putEnd
  repeat' first
    | with_reducible assumption
    | with_reducible refine lookRing_kept ?_
    | with_reducible refine Kept.of1 (p := lookRing _ _ _) (lookRing_kept ?_)
    | with_reducible refine putEntries_kept ?_
    | with_reducible refine Kept.of1 (p := putEntries _ _ _) (putEntries_kept ?_)
    | with_reducible refine putHeader_kept ?_
    | with_reducible refine Kept.of1 (p := putHeader _ _) (putHeader_kept ?_)
    | with_reducible refine Kept.eq1 ‹_› ?_
    | extract_lets
    | split
    | with_reducible apply Kept1.mk
    | fail_if_no_progress with_reducible apply Kept.lit
    | with_reducible exact Kept.of1 ‹_›
    | with_reducible exact Kept.of2 ‹_›
    | with_reducible exact Kept.of2 (p := (_, _)) ‹_›
    | dsimp only
    | dsimp +zetaDelta only

theorem putResult_kept {s₀ : State} {a0 a1 a2 a3 a4 a5 a6 a7 a8} :
    Kept s₀ a8 → Kept s₀ (putResult a0 a1 a2 a3 a4 a5 a6 a7 a8) := by
  intro h0
  unfold putResult
  repeat' first
    | with_reducible assumption
    | with_reducible refine apxWrite_kept ?_
    | with_reducible refine Kept.of1 (p := apxWrite _ _ _ _) (apxWrite_kept ?_)
    | with_reducible refine modAStat_kept ?_
    | with_reducible refine completionAdd_kept ?_
    | with_reducible refine Kept.eq1 ‹_› ?_
    | extract_lets
    | split
    | with_reducible apply Kept1.mk
    | fail_if_no_progress with_reducible apply Kept.lit
    | with_reducible exact Kept.of1 ‹_›
    | with_reducible exact Kept.of2 ‹_›
    | with_reducible exact Kept.of2 (p := (_, _)) ‹_›
    | dsimp only
    | dsimp +zetaDelta only

theorem deliver_kept {s₀ : State} {a0 a1 a2 a3 a4} :
    Kept s₀ a4 → Kept1 s₀ (deliver a0 a1 a2 a3 a4) := by
  intro h0
  unfold deliver
  repeat' first
    | with_reducible assumption
    | with_reducible refine lookRing_kept ?_
    | with_reducible refine Kept.of1 (p := lookRing _ _ _) (lookRing_kept ?_)
    | with_reducible refine putEntries_kept ?_
    | with_reducible refine Kept.of1 (p := putEntries _ _ _) (putEntries_kept ?_)
    | with_reducible refine modAStat_kept ?_
    | with_reducible refine putHeader_kept ?_
    | with_reducible refine Kept.of1 (p := putHeader _ _) (putHeader_kept ?_)
    | with_reducible refine putEnd_kept ?_
    | with_reducible refine Kept.of1 (p := putEnd _ _ _ _) (putEnd_kept ?_)
    | with_reducible refine putResult_kept ?_
    | with_reducible refine setApxReq_kept ?_
    | with_reducible refine Kept.eq1 ‹_› ?_
    | extract_lets
    | split
    | with_reducible apply Kept1.mk
    | fail_if_no_progress with_reducible apply Kept.lit
    | with_reducible exact Kept.of1 ‹_›
    | with_reducible exact Kept.of2 ‹_›
    | with_reducible exact Kept.of2 (p := (_, _)) ‹_›
    | dsimp only
    | dsimp +zetaDelta only

theorem readAll_kept {s₀ : State} {a0 a1 a2 a3 a4 a5} :
    Kept s₀ a5 → Kept1 s₀ (readAll a0 a1 a2 a3 a4 a5) := by
  intro h0
  induction a4 generalizing a5 with
  | nil =>
      unfold readAll
      repeat' first
        | with_reducible assumption
        | with_reducible refine Kept.of1 (p := readAll _ _ _ _ _ _) ?_
        | with_reducible refine engineReadFrom_kept ?_
        | with_reducible refine Kept.of1 (p := engineReadFrom _ _ _ _ _ _ _ _) (engineReadFrom_kept ?_)
        | with_reducible refine Kept.eq1 ‹_› ?_
        | extract_lets
        | split
        | with_reducible apply Kept1.mk
        | fail_if_no_progress with_reducible apply Kept.lit
        | with_reducible exact Kept.of1 ‹_›
        | with_reducible exact Kept.of2 ‹_›
        | with_reducible exact Kept.of2 (p := (_, _)) ‹_›
        | dsimp only
        | dsimp +zetaDelta only
  | cons _ _ ih =>
      unfold readAll
      repeat' first
        | with_reducible assumption
        | with_reducible apply ih
        | with_reducible refine Kept.of1 (p := readAll _ _ _ _ _ _) ?_
        | with_reducible refine engineReadFrom_kept ?_
        | with_reducible refine Kept.of1 (p := engineReadFrom _ _ _ _ _ _ _ _) (engineReadFrom_kept ?_)
        | with_reducible refine Kept.eq1 ‹_› ?_
        | extract_lets
        | split
        | with_reducible apply Kept1.mk
        | fail_if_no_progress with_reducible apply Kept.lit
        | with_reducible exact Kept.of1 ‹_›
        | with_reducible exact Kept.of2 ‹_›
        | with_reducible exact Kept.of2 (p := (_, _)) ‹_›
        | dsimp only
        | dsimp +zetaDelta only

theorem writeChunk_kept {s₀ : State} {a0 a1 a2 a3 a4 a5} :
    Kept s₀ a5 → Kept1 s₀ (writeChunk a0 a1 a2 a3 a4 a5) := by
  intro h0
  unfold writeChunk
  repeat' first
    | with_reducible assumption
    | with_reducible refine writeAll_kept ?_
    | with_reducible refine Kept.of1 (p := writeAll _ _ _ _ _ _) (writeAll_kept ?_)
    | with_reducible refine countResult_kept ?_
    | with_reducible refine Kept.eq1 ‹_› ?_
    | extract_lets
    | split
    | with_reducible apply Kept1.mk
    | fail_if_no_progress with_reducible apply Kept.lit
    | with_reducible exact Kept.of1 ‹_›
    | with_reducible exact Kept.of2 ‹_›
    | with_reducible exact Kept.of2 (p := (_, _)) ‹_›
    | dsimp only
    | dsimp +zetaDelta only

theorem hierTry_kept {s₀ : State} {a0 a1 a2 a3} :
    Kept s₀ a3 → Kept1 s₀ (hierTry a0 a1 a2 a3) := by
  intro h0
  unfold hierTry
  repeat' first
    | with_reducible assumption
    | with_reducible refine writeChunk_kept ?_
    | with_reducible refine Kept.of1 (p := writeChunk _ _ _ _ _ _) (writeChunk_kept ?_)
    | with_reducible refine peerSent_kept ?_
    | with_reducible refine emit_kept ?_
    | with_reducible refine Kept.foldl ?_ (fun _ _ _ => ?_)
    | with_reducible refine Kept1.foldl ?_ (fun _ _ _ => ?_)
    | with_reducible refine Kept.fold1 ?_ (fun _ _ _ => ?_)
    | with_reducible refine Kept.eq1 ‹_› ?_
    | extract_lets
    | split
    | with_reducible apply Kept1.mk
    | fail_if_no_progress with_reducible apply Kept.lit
    | with_reducible exact Kept.of1 ‹_›
    | with_reducible exact Kept.of2 ‹_›
    | with_reducible exact Kept.of2 (p := (_, _)) ‹_›
    | dsimp only
    | dsimp +zetaDelta only

theorem hierLocal_kept {s₀ : State} {a0 a1 a2 a3 a4 a5} :
    Kept s₀ a5 → Kept1 s₀ (hierLocal a0 a1 a2 a3 a4 a5) := by
  intro h0
  unfold hierLocal
  repeat' first
    | with_reducible assumption
    | with_reducible refine hierTry_kept ?_
    | with_reducible refine Kept.of1 (p := hierTry _ _ _ _) (hierTry_kept ?_)
    | with_reducible refine peerSent_kept ?_
    | with_reducible refine emit_kept ?_
    | with_reducible refine Kept.eq1 ‹_› ?_
    | extract_lets
    | split
    | with_reducible apply Kept1.mk
    | fail_if_no_progress with_reducible apply Kept.lit
    | with_reducible exact Kept.of1 ‹_›
    | with_reducible exact Kept.of2 ‹_›
    | with_reducible exact Kept.of2 (p := (_, _)) ‹_›
    | dsimp only
    | dsimp +zetaDelta only

theorem reduceChunk_kept {s₀ : State} {a0 a1 a2 a3 a4 a5 a6} :
    Kept s₀ a6 → Kept1 s₀ (reduceChunk a0 a1 a2 a3 a4 a5 a6) := by
  intro h0
  unfold reduceChunk
  repeat' first
    | with_reducible assumption
    | with_reducible refine hierLocal_kept ?_
    | with_reducible refine Kept.of1 (p := hierLocal _ _ _ _ _ _) (hierLocal_kept ?_)
    | with_reducible refine writeChunk_kept ?_
    | with_reducible refine Kept.of1 (p := writeChunk _ _ _ _ _ _) (writeChunk_kept ?_)
    | with_reducible refine Kept.foldl ?_ (fun _ _ _ => ?_)
    | with_reducible refine Kept1.foldl ?_ (fun _ _ _ => ?_)
    | with_reducible refine Kept.fold1 ?_ (fun _ _ _ => ?_)
    | with_reducible refine Kept.eq1 ‹_› ?_
    | extract_lets
    | split
    | with_reducible apply Kept1.mk
    | fail_if_no_progress with_reducible apply Kept.lit
    | with_reducible exact Kept.of1 ‹_›
    | with_reducible exact Kept.of2 ‹_›
    | with_reducible exact Kept.of2 (p := (_, _)) ‹_›
    | dsimp only
    | dsimp +zetaDelta only

theorem doChunk_kept {s₀ : State} {a0 a1 a2 a3 a4} :
    Kept s₀ a4 → Kept1 s₀ (doChunk a0 a1 a2 a3 a4) := by
  intro h0
  unfold doChunk
  repeat' first
    | with_reducible assumption
    | with_reducible refine readAll_kept ?_
    | with_reducible refine Kept.of1 (p := readAll _ _ _ _ _ _) (readAll_kept ?_)
    | with_reducible refine reduceChunk_kept ?_
    | with_reducible refine Kept.of1 (p := reduceChunk _ _ _ _ _ _ _) (reduceChunk_kept ?_)
    | with_reducible refine writeAll_kept ?_
    | with_reducible refine Kept.of1 (p := writeAll _ _ _ _ _ _) (writeAll_kept ?_)
    | with_reducible refine countResult_kept ?_
    | with_reducible refine engineReadAs_kept ?_
    | with_reducible refine Kept.of1 (p := engineReadAs _ _ _ _ _ _ _) (engineReadAs_kept ?_)
    | with_reducible refine modEng_kept ?_
    | with_reducible refine Kept.foldl ?_ (fun _ _ _ => ?_)
    | with_reducible refine Kept1.foldl ?_ (fun _ _ _ => ?_)
    | with_reducible refine Kept.fold1 ?_ (fun _ _ _ => ?_)
    | with_reducible refine Kept.eq1 ‹_› ?_
    | extract_lets
    | split
    | with_reducible apply Kept1.mk
    | fail_if_no_progress with_reducible apply Kept.lit
    | with_reducible exact Kept.of1 ‹_›
    | with_reducible exact Kept.of2 ‹_›
    | with_reducible exact Kept.of2 (p := (_, _)) ‹_›
    | dsimp only
    | dsimp +zetaDelta only

theorem touchSession_kept {s₀ : State} {a0 a1 a2} :
    Kept s₀ a2 → Kept s₀ (touchSession a0 a1 a2) := by
  intro h0
  unfold touchSession
  repeat' first
    | with_reducible assumption
    | extract_lets
    | split
    | fail_if_no_progress with_reducible apply Kept.lit
    | with_reducible exact Kept.of1 ‹_›
    | with_reducible exact Kept.of2 ‹_›
    | with_reducible exact Kept.of2 (p := (_, _)) ‹_›
    | dsimp only
    | dsimp +zetaDelta only

theorem mgmtGate_kept {s₀ : State} {a0 a1 a2 a3 a4} :
    (∀ x0, Kept s₀ x0 → KeptR s₀ (a3 x0)) → Kept s₀ a4 → KeptR s₀ (mgmtGate a0 a1 a2 a3 a4) := by
  intro h0 h1
  unfold mgmtGate
  repeat' first
    | with_reducible assumption
    | with_reducible apply h0
    | with_reducible refine touchSession_kept ?_
    | with_reducible refine reply_kept ?_
    | with_reducible refine Kept.eq1 ‹_› ?_
    | extract_lets
    | split
    | with_reducible apply KeptR.next
    | fail_if_no_progress with_reducible apply Kept.lit
    | with_reducible exact Kept.of1 ‹_›
    | with_reducible exact Kept.of2 ‹_›
    | with_reducible exact Kept.of2 (p := (_, _)) ‹_›
    | dsimp only
    | dsimp +zetaDelta only

theorem domCtl_kept {s₀ : State} {a0 a1 a2 a3 a4} :
    (∀ x0 x1, Kept s₀ x1 → Kept1 s₀ (a3 x0 x1)) → Kept s₀ a4 → KeptR s₀ (domCtl a0 a1 a2 a3 a4) := by
  intro h0 h1
  unfold domCtl
  repeat' first
    | with_reducible assumption
    | with_reducible apply h0
    | with_reducible refine mgmtGate_kept (fun _ _ => ?_) ?_
    | with_reducible refine reply_kept ?_
    | with_reducible refine Kept.eq1 ‹_› ?_
    | extract_lets
    | split
    | with_reducible apply KeptR.next
    | fail_if_no_progress with_reducible apply Kept.lit
    | with_reducible exact Kept.of1 ‹_›
    | with_reducible exact Kept.of2 ‹_›
    | with_reducible exact Kept.of2 (p := (_, _)) ‹_›
    | dsimp only
    | dsimp +zetaDelta only

theorem locusClear_kept {s₀ : State} {a0} :
    Kept s₀ a0 → Kept s₀ (locusClear a0) := by
  intro h0
  unfold locusClear
  repeat' first
    | with_reducible assumption
    | with_reducible refine endReq_kept ?_
    | with_reducible refine modLoc_kept ?_
    | with_reducible refine Kept.foldl ?_ (fun _ _ _ => ?_)
    | with_reducible refine Kept1.foldl ?_ (fun _ _ _ => ?_)
    | with_reducible refine Kept.fold1 ?_ (fun _ _ _ => ?_)
    | with_reducible refine Kept.eq1 ‹_› ?_
    | extract_lets
    | split
    | with_reducible apply Kept1.mk
    | fail_if_no_progress with_reducible apply Kept.lit
    | with_reducible exact Kept.of1 ‹_›
    | with_reducible exact Kept.of2 ‹_›
    | with_reducible exact Kept.of2 (p := (_, _)) ‹_›
    | dsimp only
    | dsimp +zetaDelta only

theorem dropOJob_kept {s₀ : State} {a0 a1} :
    Kept s₀ a1 → Kept s₀ (dropOJob a0 a1) := by
  intro h0
  unfold dropOJob
  repeat' first
    | with_reducible assumption
    | with_reducible refine modOrb_kept ?_
    | extract_lets
    | split
    | fail_if_no_progress with_reducible apply Kept.lit
    | with_reducible exact Kept.of1 ‹_›
    | with_reducible exact Kept.of2 ‹_›
    | with_reducible exact Kept.of2 (p := (_, _)) ‹_›
    | dsimp only
    | dsimp +zetaDelta only

theorem orbFinish_kept {s₀ : State} {a0 a1 a2 a3 a4} :
    Kept s₀ a4 → Kept s₀ (orbFinish a0 a1 a2 a3 a4) := by
  intro h0
  unfold orbFinish
  repeat' first
    | with_reducible assumption
    | with_reducible refine modOrb_kept ?_
    | with_reducible refine countOrb_kept ?_
    | with_reducible refine mirrorThen_kept (fun _ _ => ?_) ?_
    | with_reducible refine finishCmd_kept ?_
    | extract_lets
    | split
    | fail_if_no_progress with_reducible apply Kept.lit
    | with_reducible exact Kept.of1 ‹_›
    | with_reducible exact Kept.of2 ‹_›
    | with_reducible exact Kept.of2 (p := (_, _)) ‹_›
    | dsimp only
    | dsimp +zetaDelta only

theorem orbEndAll_kept {s₀ : State} {a0 a1 a2 a3} :
    Kept s₀ a3 → Kept s₀ (orbEndAll a0 a1 a2 a3) := by
  intro h0
  unfold orbEndAll
  repeat' first
    | with_reducible assumption
    | with_reducible refine orbFinish_kept ?_
    | with_reducible refine Kept.foldl ?_ (fun _ _ _ => ?_)
    | with_reducible refine Kept1.foldl ?_ (fun _ _ _ => ?_)
    | with_reducible refine Kept.fold1 ?_ (fun _ _ _ => ?_)
    | with_reducible refine Kept.eq1 ‹_› ?_
    | extract_lets
    | split
    | with_reducible apply Kept1.mk
    | fail_if_no_progress with_reducible apply Kept.lit
    | with_reducible exact Kept.of1 ‹_›
    | with_reducible exact Kept.of2 ‹_›
    | with_reducible exact Kept.of2 (p := (_, _)) ‹_›
    | dsimp only
    | dsimp +zetaDelta only

theorem endRevive_kept {s₀ : State} {a0 a1 a2} :
    Kept s₀ a2 → Kept s₀ (endRevive a0 a1 a2) := by
  intro h0
  unfold endRevive
  repeat' first
    | with_reducible assumption
    | with_reducible refine dropOJob_kept ?_
    | with_reducible refine setSess_kept ?_
    | with_reducible refine orbEndAll_kept ?_
    | with_reducible refine modOStat_kept ?_
    | extract_lets
    | split
    | fail_if_no_progress with_reducible apply Kept.lit
    | with_reducible exact Kept.of1 ‹_›
    | with_reducible exact Kept.of2 ‹_›
    | with_reducible exact Kept.of2 (p := (_, _)) ‹_›
    | dsimp only
    | dsimp +zetaDelta only

theorem orbEnd_kept {s₀ : State} {a0 a1} :
    Kept s₀ a1 → Kept s₀ (orbEnd a0 a1) := by
  intro h0
  unfold orbEnd
  repeat' first
    | with_reducible assumption
    | with_reducible refine orbReply_kept ?_
    | with_reducible refine setSess_kept ?_
    | with_reducible refine modOrb_kept ?_
    | with_reducible refine endRevive_kept ?_
    | with_reducible refine setOJob_kept ?_
    | with_reducible refine Kept.foldl ?_ (fun _ _ _ => ?_)
    | with_reducible refine Kept1.foldl ?_ (fun _ _ _ => ?_)
    | with_reducible refine Kept.fold1 ?_ (fun _ _ _ => ?_)
    | with_reducible refine Kept.eq1 ‹_› ?_
    | extract_lets
    | split
    | with_reducible apply Kept1.mk
    | fail_if_no_progress with_reducible apply Kept.lit
    | with_reducible exact Kept.of1 ‹_›
    | with_reducible exact Kept.of2 ‹_›
    | with_reducible exact Kept.of2 (p := (_, _)) ‹_›
    | dsimp only
    | dsimp +zetaDelta only

theorem drainQueues_kept {s₀ : State} {a0 a1} :
    Kept s₀ a1 → Kept s₀ (drainQueues a0 a1) := by
  intro h0
  unfold drainQueues
  repeat' first
    | with_reducible assumption
    | with_reducible refine finishCmd_kept ?_
    | with_reducible refine Kept.foldl ?_ (fun _ _ _ => ?_)
    | with_reducible refine Kept1.foldl ?_ (fun _ _ _ => ?_)
    | with_reducible refine Kept.fold1 ?_ (fun _ _ _ => ?_)
    | with_reducible refine Kept.eq1 ‹_› ?_
    | extract_lets
    | split
    | with_reducible apply Kept1.mk
    | fail_if_no_progress with_reducible apply Kept.lit
    | with_reducible exact Kept.of1 ‹_›
    | with_reducible exact Kept.of2 ‹_›
    | with_reducible exact Kept.of2 (p := (_, _)) ‹_›
    | dsimp only
    | dsimp +zetaDelta only

theorem drainBlock_kept {s₀ : State} {a0 a1} :
    Kept s₀ a1 → Kept s₀ (drainBlock a0 a1) := by
  intro h0
  unfold drainBlock
  repeat' first
    | with_reducible assumption
    | with_reducible refine abandonSeqs_kept ?_
    | with_reducible refine modSeq_kept ?_
    | with_reducible refine modVtx_kept ?_
    | with_reducible refine locusClear_kept ?_
    | with_reducible refine finishCmd_kept ?_
    | with_reducible refine endReq_kept ?_
    | with_reducible refine chordEnd_kept ?_
    | with_reducible refine coneEnd_kept ?_
    | with_reducible refine apexEnd_kept ?_
    | with_reducible refine orbEnd_kept ?_
    | with_reducible refine cenEnd_kept ?_
    | with_reducible refine drainQueues_kept ?_
    | with_reducible refine Kept.foldl ?_ (fun _ _ _ => ?_)
    | with_reducible refine Kept1.foldl ?_ (fun _ _ _ => ?_)
    | with_reducible refine Kept.fold1 ?_ (fun _ _ _ => ?_)
    | with_reducible refine Kept.eq1 ‹_› ?_
    | extract_lets
    | split
    | with_reducible apply Kept1.mk
    | fail_if_no_progress with_reducible apply Kept.lit
    | with_reducible exact Kept.of1 ‹_›
    | with_reducible exact Kept.of2 ‹_›
    | with_reducible exact Kept.of2 (p := (_, _)) ‹_›
    | dsimp only
    | dsimp +zetaDelta only

theorem dropCopies_kept {s₀ : State} {a0 a1} :
    Kept s₀ a1 → Kept s₀ (dropCopies a0 a1) := by
  intro h0
  unfold dropCopies
  repeat' first
    | with_reducible assumption
    | with_reducible refine send_kept ?_
    | extract_lets
    | split
    | fail_if_no_progress with_reducible apply Kept.lit
    | with_reducible exact Kept.of1 ‹_›
    | with_reducible exact Kept.of2 ‹_›
    | with_reducible exact Kept.of2 (p := (_, _)) ‹_›
    | dsimp only
    | dsimp +zetaDelta only

theorem dropFrame_kept {s₀ : State} {a0} :
    Kept s₀ a0 → Kept s₀ (dropFrame a0) := by
  intro h0
  unfold dropFrame
  repeat' first
    | with_reducible assumption
    | with_reducible refine modEdge_kept ?_
    | extract_lets
    | split
    | fail_if_no_progress with_reducible apply Kept.lit
    | with_reducible exact Kept.of1 ‹_›
    | with_reducible exact Kept.of2 ‹_›
    | with_reducible exact Kept.of2 (p := (_, _)) ‹_›
    | dsimp only
    | dsimp +zetaDelta only

theorem seqIdle_kept {s₀ : State} {a0 a1} :
    Kept s₀ a1 → Kept s₀ (seqIdle a0 a1) := by
  intro h0
  unfold seqIdle
  repeat' first
    | with_reducible assumption
    | with_reducible refine modSeq_kept ?_
    | with_reducible refine beginProgram_kept ?_
    | extract_lets
    | split
    | fail_if_no_progress with_reducible apply Kept.lit
    | with_reducible exact Kept.of1 ‹_›
    | with_reducible exact Kept.of2 ‹_›
    | with_reducible exact Kept.of2 (p := (_, _)) ‹_›
    | dsimp only
    | dsimp +zetaDelta only

theorem endProgram_kept {s₀ : State} {a0 a1} :
    Kept s₀ a1 → Kept s₀ (endProgram a0 a1) := by
  intro h0
  unfold endProgram
  repeat' first
    | with_reducible assumption
    | with_reducible refine seqIdle_kept ?_
    | with_reducible refine returnCmd_kept ?_
    | extract_lets
    | split
    | fail_if_no_progress with_reducible apply Kept.lit
    | with_reducible exact Kept.of1 ‹_›
    | with_reducible exact Kept.of2 ‹_›
    | with_reducible exact Kept.of2 (p := (_, _)) ‹_›
    | dsimp only
    | dsimp +zetaDelta only

theorem engineRead_kept {s₀ : State} {a0 a1 a2 a3 a4} :
    Kept s₀ a4 → Kept1 s₀ (engineRead a0 a1 a2 a3 a4) := by
  intro h0
  unfold engineRead
  repeat' first
    | with_reducible assumption
    | with_reducible refine engineReadAs_kept ?_
    | with_reducible refine Kept.of1 (p := engineReadAs _ _ _ _ _ _ _) (engineReadAs_kept ?_)
    | with_reducible refine Kept.eq1 ‹_› ?_
    | extract_lets
    | split
    | with_reducible apply Kept1.mk
    | fail_if_no_progress with_reducible apply Kept.lit
    | with_reducible exact Kept.of1 ‹_›
    | with_reducible exact Kept.of2 ‹_›
    | with_reducible exact Kept.of2 (p := (_, _)) ‹_›
    | dsimp only
    | dsimp +zetaDelta only

theorem timeoutWaitang_kept {s₀ : State} {a0 a1} :
    Kept s₀ a1 → Kept s₀ (timeoutWaitang a0 a1) := by
  intro h0
  unfold timeoutWaitang
  repeat' first
    | with_reducible assumption
    | with_reducible refine modSeq_kept ?_
    | with_reducible refine Kept.foldl ?_ (fun _ _ _ => ?_)
    | with_reducible refine Kept1.foldl ?_ (fun _ _ _ => ?_)
    | with_reducible refine Kept.fold1 ?_ (fun _ _ _ => ?_)
    | with_reducible refine Kept.eq1 ‹_› ?_
    | extract_lets
    | split
    | with_reducible apply Kept1.mk
    | fail_if_no_progress with_reducible apply Kept.lit
    | with_reducible exact Kept.of1 ‹_›
    | with_reducible exact Kept.of2 ‹_›
    | with_reducible exact Kept.of2 (p := (_, _)) ‹_›
    | dsimp only
    | dsimp +zetaDelta only

theorem enterStalled_kept {s₀ : State} {a0 a1} :
    Kept s₀ a1 → Kept s₀ (enterStalled a0 a1) := by
  intro h0
  unfold enterStalled
  repeat' first
    | with_reducible assumption
    | with_reducible refine setDom_kept ?_
    | with_reducible refine timeoutWaitang_kept ?_
    | with_reducible refine report_kept ?_
    | extract_lets
    | split
    | fail_if_no_progress with_reducible apply Kept.lit
    | with_reducible exact Kept.of1 ‹_›
    | with_reducible exact Kept.of2 ‹_›
    | with_reducible exact Kept.of2 (p := (_, _)) ‹_›
    | dsimp only
    | dsimp +zetaDelta only

theorem evacChan_kept {s₀ : State} {a0 a1} :
    Kept s₀ a1 → Kept s₀ (evacChan a0 a1) := by
  intro h0
  unfold evacChan
  repeat' first
    | with_reducible assumption
    | with_reducible refine setChan_kept ?_
    | with_reducible refine reportRetired_kept ?_
    | with_reducible refine recordRetired_kept ?_
    | with_reducible refine evacuate_kept ?_
    | extract_lets
    | split
    | fail_if_no_progress with_reducible apply Kept.lit
    | with_reducible exact Kept.of1 ‹_›
    | with_reducible exact Kept.of2 ‹_›
    | with_reducible exact Kept.of2 (p := (_, _)) ‹_›
    | dsimp only
    | dsimp +zetaDelta only

theorem losePages_kept {s₀ : State} {a0 a1} :
    Kept s₀ a1 → Kept s₀ (losePages a0 a1) := by
  intro h0
  unfold losePages
  repeat' first
    | with_reducible assumption
    | with_reducible refine redirect_kept ?_
    | with_reducible refine changePage_kept ?_
    | with_reducible refine poisonPage_kept ?_
    | with_reducible refine Kept.foldl ?_ (fun _ _ _ => ?_)
    | with_reducible refine Kept1.foldl ?_ (fun _ _ _ => ?_)
    | with_reducible refine Kept.fold1 ?_ (fun _ _ _ => ?_)
    | with_reducible refine Kept.eq1 ‹_› ?_
    | extract_lets
    | split
    | with_reducible apply Kept1.mk
    | fail_if_no_progress with_reducible apply Kept.lit
    | with_reducible exact Kept.of1 ‹_›
    | with_reducible exact Kept.of2 ‹_›
    | with_reducible exact Kept.of2 (p := (_, _)) ‹_›
    | dsimp only
    | dsimp +zetaDelta only

theorem evacTray_kept {s₀ : State} {a0 a1} :
    Kept s₀ a1 → Kept s₀ (evacTray a0 a1) := by
  intro h0
  unfold evacTray
  repeat' first
    | with_reducible assumption
    | with_reducible refine losePages_kept ?_
    | with_reducible refine reportRetired_kept ?_
    | with_reducible refine recordRetired_kept ?_
    | with_reducible refine setTray_kept ?_
    | with_reducible refine evacuate_kept ?_
    | extract_lets
    | split
    | fail_if_no_progress with_reducible apply Kept.lit
    | with_reducible exact Kept.of1 ‹_›
    | with_reducible exact Kept.of2 ‹_›
    | with_reducible exact Kept.of2 (p := (_, _)) ‹_›
    | dsimp only
    | dsimp +zetaDelta only

theorem syncOp_kept {s₀ : State} {a0 a1 a2 a3 a4 a5 a6 a7 a8} :
    Kept s₀ a8 → Kept1 s₀ (syncOp a0 a1 a2 a3 a4 a5 a6 a7 a8) := by
  intro h0
  unfold syncOp
  repeat' first
    | with_reducible assumption
    | with_reducible refine setObj_kept ?_
    | with_reducible refine finishWait_kept ?_
    | with_reducible refine wake_kept ?_
    | with_reducible refine Kept.foldl ?_ (fun _ _ _ => ?_)
    | with_reducible refine Kept1.foldl ?_ (fun _ _ _ => ?_)
    | with_reducible refine Kept.fold1 ?_ (fun _ _ _ => ?_)
    | with_reducible refine Kept.eq1 ‹_› ?_
    | extract_lets
    | split
    | with_reducible apply Kept1.mk
    | fail_if_no_progress with_reducible apply Kept.lit
    | with_reducible exact Kept.of1 ‹_›
    | with_reducible exact Kept.of2 ‹_›
    | with_reducible exact Kept.of2 (p := (_, _)) ‹_›
    | dsimp only
    | dsimp +zetaDelta only

theorem syncMsg_kept {s₀ : State} {a0 a1 a2 a3 a4 a5 a6} :
    Kept s₀ a6 → KeptR s₀ (syncMsg a0 a1 a2 a3 a4 a5 a6) := by
  intro h0
  unfold syncMsg
  repeat' first
    | with_reducible assumption
    | with_reducible refine syncOp_kept ?_
    | with_reducible refine Kept.of1 (p := syncOp _ _ _ _ _ _ _ _ _) (syncOp_kept ?_)
    | with_reducible refine reply_kept ?_
    | with_reducible refine Kept.eq1 ‹_› ?_
    | extract_lets
    | split
    | with_reducible apply KeptR.next
    | with_reducible apply Kept1.mk
    | fail_if_no_progress with_reducible apply Kept.lit
    | with_reducible exact Kept.of1 ‹_›
    | with_reducible exact Kept.of2 ‹_›
    | with_reducible exact Kept.of2 (p := (_, _)) ‹_›
    | dsimp only
    | dsimp +zetaDelta only

theorem seqStart_kept {s₀ : State} {a0 a1 a2 a3 a4 a5} :
    Kept s₀ a5 → Kept1 s₀ (seqStart a0 a1 a2 a3 a4 a5) := by
  intro h0
  unfold seqStart
  repeat' first
    | with_reducible assumption
    | with_reducible refine beginProgram_kept ?_
    | with_reducible refine setSeq_kept ?_
    | extract_lets
    | split
    | with_reducible apply Kept1.mk
    | fail_if_no_progress with_reducible apply Kept.lit
    | with_reducible exact Kept.of1 ‹_›
    | with_reducible exact Kept.of2 ‹_›
    | with_reducible exact Kept.of2 (p := (_, _)) ‹_›
    | dsimp only
    | dsimp +zetaDelta only

theorem scheduleCmd_kept {s₀ : State} {a0 a1 a2 a3 a4 a5} :
    Kept s₀ a5 → Kept1 s₀ (scheduleCmd a0 a1 a2 a3 a4 a5) := by
  intro h0
  unfold scheduleCmd
  repeat' first
    | with_reducible assumption
    | with_reducible refine engineRead_kept ?_
    | with_reducible refine Kept.of1 (p := engineRead _ _ _ _ _) (engineRead_kept ?_)
    | with_reducible refine submitTo_kept ?_
    | with_reducible refine Kept.of1 (p := submitTo _ _ _ _) (submitTo_kept ?_)
    | with_reducible refine Kept.eq1 ‹_› ?_
    | extract_lets
    | split
    | with_reducible apply Kept1.mk
    | fail_if_no_progress with_reducible apply Kept.lit
    | with_reducible exact Kept.of1 ‹_›
    | with_reducible exact Kept.of2 ‹_›
    | with_reducible exact Kept.of2 (p := (_, _)) ‹_›
    | dsimp only
    | dsimp +zetaDelta only

theorem performAction_kept {s₀ : State} {a0 a1 a2} :
    Kept s₀ a2 → Kept1 s₀ (performAction a0 a1 a2) := by
  intro h0
  unfold performAction
  repeat' first
    | with_reducible assumption
    | with_reducible refine seqStart_kept ?_
    | with_reducible refine Kept.of1 (p := seqStart _ _ _ _ _ _) (seqStart_kept ?_)
    | with_reducible refine syncOp_kept ?_
    | with_reducible refine Kept.of1 (p := syncOp _ _ _ _ _ _ _ _ _) (syncOp_kept ?_)
    | with_reducible refine scheduleCmd_kept ?_
    | with_reducible refine Kept.of1 (p := scheduleCmd _ _ _ _ _ _) (scheduleCmd_kept ?_)
    | with_reducible refine logEntry_kept ?_
    | with_reducible refine Kept.eq1 ‹_› ?_
    | extract_lets
    | split
    | with_reducible apply Kept1.mk
    | fail_if_no_progress with_reducible apply Kept.lit
    | with_reducible exact Kept.of1 ‹_›
    | with_reducible exact Kept.of2 ‹_›
    | with_reducible exact Kept.of2 (p := (_, _)) ‹_›
    | dsimp only
    | dsimp +zetaDelta only

theorem followSources_kept {s₀ : State} {a0 a1} :
    Kept s₀ a1 → Kept s₀ (followSources a0 a1) := by
  intro h0
  unfold followSources
  repeat' first
    | with_reducible assumption
    | with_reducible refine acceptAdvance_kept ?_
    | extract_lets
    | split
    | fail_if_no_progress with_reducible apply Kept.lit
    | with_reducible exact Kept.of1 ‹_›
    | with_reducible exact Kept.of2 ‹_›
    | with_reducible exact Kept.of2 (p := (_, _)) ‹_›
    | dsimp only
    | dsimp +zetaDelta only

theorem withReq_kept {s₀ : State} {a0 a1 a2 a3} :
    Kept s₀ a2 → (∀ x0 x1 x2, Kept s₀ x2 → Kept s₀ (a3 x0 x1 x2)) → Kept s₀ (withReq a0 a1 a2 a3) := by
  intro h0 h1
  unfold withReq
  repeat' first
    | with_reducible assumption
    | with_reducible apply h1
    | with_reducible refine apxTake_kept ?_
    | with_reducible refine apxRemote_kept ?_
    | with_reducible refine apxFinish_kept ?_
    | with_reducible refine Kept.eq1 ‹_› ?_
    | with_reducible refine Kept.eqO2 ‹_› ?_
    | extract_lets
    | split
    | fail_if_no_progress with_reducible apply Kept.lit
    | with_reducible exact Kept.of1 ‹_›
    | with_reducible exact Kept.of2 ‹_›
    | with_reducible exact Kept.of2 (p := (_, _)) ‹_›
    | dsimp only
    | dsimp +zetaDelta only

theorem releaseHeld_kept {s₀ : State} {a0 a1 a2} :
    Kept s₀ a2 → Kept s₀ (releaseHeld a0 a1 a2) := by
  intro h0
  unfold releaseHeld
  repeat' first
    | with_reducible assumption
    | with_reducible refine admitPktAs_kept ?_
    | with_reducible refine modArc_kept ?_
    | extract_lets
    | split
    | fail_if_no_progress with_reducible apply Kept.lit
    | with_reducible exact Kept.of1 ‹_›
    | with_reducible exact Kept.of2 ‹_›
    | with_reducible exact Kept.of2 (p := (_, _)) ‹_›
    | dsimp only
    | dsimp +zetaDelta only

theorem execAttestReport_kept {s₀ : State} {a0 a1 a2 a3 a4} :
    Kept s₀ a4 → KeptR s₀ (execAttestReport a0 a1 a2 a3 a4) := by
  intro h0
  unfold execAttestReport
  repeat' first
    | with_reducible assumption
    | with_reducible refine reply_kept ?_
    | with_reducible refine readPieces_kept ?_
    | with_reducible refine Kept.of1 (p := readPieces _ _ _ _ _ _) (readPieces_kept ?_)
    | with_reducible refine writePieces_kept ?_
    | with_reducible refine Kept.of1 (p := writePieces _ _ _ _ _ _) (writePieces_kept ?_)
    | with_reducible refine useFresh_kept ?_
    | with_reducible refine Kept.getD ?_ ?_
    | with_reducible refine Kept.eq1 ‹_› ?_
    | extract_lets
    | split
    | with_reducible apply KeptR.next
    | with_reducible apply Kept1.mk
    | fail_if_no_progress with_reducible apply Kept.lit
    | with_reducible exact Kept.of1 ‹_›
    | with_reducible exact Kept.of2 ‹_›
    | with_reducible exact Kept.of2 (p := (_, _)) ‹_›
    | dsimp only
    | dsimp +zetaDelta only

theorem sessHold_kept {s₀ : State} {a0 a1} :
    Kept s₀ a1 → Kept s₀ (sessHold a0 a1) := by
  intro h0
  unfold sessHold
  repeat' first
    | with_reducible assumption
    | with_reducible refine setSess_kept ?_
    | extract_lets
    | split
    | fail_if_no_progress with_reducible apply Kept.lit
    | with_reducible exact Kept.of1 ‹_›
    | with_reducible exact Kept.of2 ‹_›
    | with_reducible exact Kept.of2 (p := (_, _)) ‹_›
    | dsimp only
    | dsimp +zetaDelta only

theorem startQuery_kept {s₀ : State} {a0 a1 a2} :
    Kept s₀ a2 → Kept s₀ (startQuery a0 a1 a2) := by
  intro h0
  unfold startQuery
  repeat' first
    | with_reducible assumption
    | with_reducible refine engineReadAs_kept ?_
    | with_reducible refine Kept.of1 (p := engineReadAs _ _ _ _ _ _ _) (engineReadAs_kept ?_)
    | with_reducible refine modConeStat_kept ?_
    | with_reducible refine sessHold_kept ?_
    | with_reducible refine admitAll_kept ?_
    | with_reducible refine Kept.eq1 ‹_› ?_
    | extract_lets
    | split
    | with_reducible apply Kept1.mk
    | fail_if_no_progress with_reducible apply Kept.lit
    | with_reducible exact Kept.of1 ‹_›
    | with_reducible exact Kept.of2 ‹_›
    | with_reducible exact Kept.of2 (p := (_, _)) ‹_›
    | dsimp only
    | dsimp +zetaDelta only

theorem runBatch_kept {s₀ : State} {a0 a1 a2 a3} :
    Kept s₀ a3 → Kept s₀ (runBatch a0 a1 a2 a3) := by
  intro h0
  unfold runBatch
  repeat' first
    | with_reducible assumption
    | with_reducible refine engineReadAs_kept ?_
    | with_reducible refine Kept.of1 (p := engineReadAs _ _ _ _ _ _ _) (engineReadAs_kept ?_)
    | with_reducible refine finishCmd_kept ?_
    | with_reducible refine memberDone_kept ?_
    | with_reducible refine modConeStat_kept ?_
    | with_reducible refine startQuery_kept ?_
    | with_reducible refine Kept.foldl ?_ (fun _ _ _ => ?_)
    | with_reducible refine Kept1.foldl ?_ (fun _ _ _ => ?_)
    | with_reducible refine Kept.fold1 ?_ (fun _ _ _ => ?_)
    | dsimp only [id_eq]
    | with_reducible refine Kept.getD ?_ ?_
    | with_reducible refine Kept.eq1 ‹_› ?_
    | with_reducible refine KeptO2.mapO ?_ (fun _ _ => ?_)
    | with_reducible refine KeptO2.map (fun _ => ?_)
    | with_reducible refine KeptO.map (fun _ => ?_)
    | extract_lets
    | split
    | with_reducible apply Kept1.mk
    | fail_if_no_progress with_reducible apply Kept.lit
    | with_reducible exact Kept.of1 ‹_›
    | with_reducible exact Kept.of2 ‹_›
    | with_reducible exact Kept.of2 (p := (_, _)) ‹_›
    | dsimp only
    | dsimp +zetaDelta only

theorem setBudget_kept {s₀ : State} {a0 a1} :
    Kept s₀ a1 → Kept s₀ (setBudget a0 a1) := by
  intro h0
  unfold setBudget
  repeat' first
    | with_reducible assumption
    | with_reducible refine modEnergy_kept ?_
    | extract_lets
    | split
    | fail_if_no_progress with_reducible apply Kept.lit
    | with_reducible exact Kept.of1 ‹_›
    | with_reducible exact Kept.of2 ‹_›
    | with_reducible exact Kept.of2 (p := (_, _)) ‹_›
    | dsimp only
    | dsimp +zetaDelta only

theorem retireLane_kept {s₀ : State} {a0 a1 a2 a3} :
    Kept s₀ a3 → Kept s₀ (retireLane a0 a1 a2 a3) := by
  intro h0
  unfold retireLane
  repeat' first
    | with_reducible assumption
    | with_reducible refine portDown_kept ?_
    | with_reducible refine setPort_kept ?_
    | with_reducible refine send_kept ?_
    | with_reducible refine laneRetired_kept ?_
    | with_reducible refine askShadow_kept ?_
    | with_reducible refine degrade_kept ?_
    | extract_lets
    | split
    | fail_if_no_progress with_reducible apply Kept.lit
    | with_reducible exact Kept.of1 ‹_›
    | with_reducible exact Kept.of2 ‹_›
    | with_reducible exact Kept.of2 (p := (_, _)) ‹_›
    | dsimp only
    | dsimp +zetaDelta only

theorem withIdx_kept {s₀ : State} {a0 a1 a2 a3} :
    Kept s₀ a2 → (∀ x0 x1 x2, Kept s₀ x2 → Kept s₀ (a3 x0 x1 x2)) → Kept s₀ (withIdx a0 a1 a2 a3) := by
  intro h0 h1
  unfold withIdx
  repeat' first
    | with_reducible assumption
    | with_reducible apply h1
    | with_reducible refine cenTake_kept ?_
    | with_reducible refine cenFinish_kept ?_
    | with_reducible refine send_kept ?_
    | with_reducible refine Kept.eq1 ‹_› ?_
    | with_reducible refine Kept.eqO2 ‹_› ?_
    | extract_lets
    | split
    | fail_if_no_progress with_reducible apply Kept.lit
    | with_reducible exact Kept.of1 ‹_›
    | with_reducible exact Kept.of2 ‹_›
    | with_reducible exact Kept.of2 (p := (_, _)) ‹_›
    | dsimp only
    | dsimp +zetaDelta only

theorem setInst_kept {s₀ : State} {a0 a1 a2} :
    Kept s₀ a2 → Kept s₀ (setInst a0 a1 a2) := by
  intro h0
  unfold setInst
  repeat' first
    | with_reducible assumption
    | with_reducible refine modEng_kept ?_
    | extract_lets
    | split
    | fail_if_no_progress with_reducible apply Kept.lit
    | with_reducible exact Kept.of1 ‹_›
    | with_reducible exact Kept.of2 ‹_›
    | with_reducible exact Kept.of2 (p := (_, _)) ‹_›
    | dsimp only
    | dsimp +zetaDelta only

theorem writeRecalled_kept {s₀ : State} {a0} :
    Kept s₀ a0 → Kept s₀ (writeRecalled a0) := by
  intro h0
  unfold writeRecalled
  repeat' first
    | with_reducible assumption
    | with_reducible refine lineReady_kept ?_
    | with_reducible refine Kept.of1 (p := lineReady _ _ _) (lineReady_kept ?_)
    | with_reducible refine modVtx_kept ?_
    | with_reducible refine foldWrite_kept ?_
    | with_reducible refine Kept.of1 (p := foldWrite _ _ _ _ _ _ _) (foldWrite_kept ?_)
    | with_reducible refine Kept.foldl ?_ (fun _ _ _ => ?_)
    | with_reducible refine Kept1.foldl ?_ (fun _ _ _ => ?_)
    | with_reducible refine Kept.fold1 ?_ (fun _ _ _ => ?_)
    | with_reducible refine Kept.getD ?_ ?_
    | with_reducible refine Kept.eq1 ‹_› ?_
    | extract_lets
    | split
    | with_reducible apply Kept1.mk
    | fail_if_no_progress with_reducible apply Kept.lit
    | with_reducible exact Kept.of1 ‹_›
    | with_reducible exact Kept.of2 ‹_›
    | with_reducible exact Kept.of2 (p := (_, _)) ‹_›
    | dsimp only
    | dsimp +zetaDelta only

theorem goUp_kept {s₀ : State} {a0 a1} :
    Kept s₀ a1 → Kept s₀ (goUp a0 a1) := by
  intro h0
  unfold goUp
  repeat' first
    | with_reducible assumption
    | with_reducible refine modPort_kept ?_
    | with_reducible refine sendStatement_kept ?_
    | with_reducible refine pairRestore_kept ?_
    | extract_lets
    | split
    | fail_if_no_progress with_reducible apply Kept.lit
    | with_reducible exact Kept.of1 ‹_›
    | with_reducible exact Kept.of2 ‹_›
    | with_reducible exact Kept.of2 (p := (_, _)) ‹_›
    | dsimp only
    | dsimp +zetaDelta only

theorem regClear_kept {s₀ : State} {a0 a1 a2} :
    Kept s₀ a2 → Kept s₀ (regClear a0 a1 a2) := by
  intro h0
  unfold regClear
  repeat' first
    | with_reducible assumption
    | with_reducible refine modCmp_kept ?_
    | with_reducible refine modEPart_kept ?_
    | with_reducible refine modPer_kept ?_
    | with_reducible refine modDom_kept ?_
    | with_reducible refine modPort_kept ?_
    | with_reducible refine useFresh_kept ?_
    | with_reducible refine modEdge_kept ?_
    | with_reducible refine modArc_kept ?_
    | with_reducible refine modFlow_kept ?_
    | with_reducible refine modArcPart_kept ?_
    | with_reducible refine modEth_kept ?_
    | with_reducible refine modVtx_kept ?_
    | with_reducible refine modVStat_kept ?_
    | with_reducible refine setLocPart_kept ?_
    | with_reducible refine modPf_kept ?_
    | with_reducible refine modFld_kept ?_
    | with_reducible refine modEng_kept ?_
    | with_reducible refine clearStale_kept ?_
    | with_reducible refine modConeEng_kept ?_
    | with_reducible refine modConeStat_kept ?_
    | with_reducible refine setArb_kept ?_
    | with_reducible refine modAStat_kept ?_
    | with_reducible refine modOrb_kept ?_
    | with_reducible refine modOStat_kept ?_
    | with_reducible refine modCStat_kept ?_
    | extract_lets
    | split
    | fail_if_no_progress with_reducible apply Kept.lit
    | with_reducible exact Kept.of1 ‹_›
    | with_reducible exact Kept.of2 ‹_›
    | with_reducible exact Kept.of2 (p := (_, _)) ‹_›
    | dsimp only
    | dsimp +zetaDelta only

end Sys2Proof.Machine
end

