-- ==== Sys2Proof/Laws/Kept5.lean ====
section
/-!
SUPPORT. The operations, readReg to retransmit in the order of their calls: each keeps the queue and the form of memory.
-/
namespace Sys2Proof.Machine

set_option linter.unusedTactic false
set_option linter.unreachableTactic false

theorem readReg_kept {s₀ : State} {a0 a1 a2} :
    Kept s₀ a2 → Kept1 s₀ (readReg a0 a1 a2) := by
  intro h0
  unfold readReg
  repeat' first
    | with_reducible assumption
    | with_reducible refine regClear_kept ?_
    | extract_lets
    | split
    | with_reducible apply Kept1.mk
    | fail_if_no_progress with_reducible apply Kept.lit
    | with_reducible exact Kept.of1 ‹_›
    | with_reducible exact Kept.of2 ‹_›
    | with_reducible exact Kept.of2 (p := (_, _)) ‹_›
    | dsimp only
    | dsimp +zetaDelta only

theorem readRun_kept {s₀ : State} {a0 a1 a2} :
    Kept s₀ a2 → Kept1 s₀ (readRun a0 a1 a2) := by
  intro h0
  induction a1 generalizing a2 with
  | nil =>
      unfold readRun
      repeat' first
        | with_reducible assumption
        | with_reducible refine Kept.of1 (p := readRun _ _ _) ?_
        | with_reducible refine readReg_kept ?_
        | with_reducible refine Kept.of1 (p := readReg _ _ _) (readReg_kept ?_)
        | with_reducible refine Kept.eq1 ‹_› ?_
        | extract_lets
        | split
        | with_reducible apply Kept1.mk
        | fail_if_no_progress with_reducible apply Kept.lit
        | with_reducible exact Kept.of1 ‹_›
        | with_reducible exact Kept.of2 ‹_›
        | with_reducible exact Kept.of2 (p := (_, _)) ‹_›
        | dsimp only
        | dsimp +zetaDelta only
  | cons _ _ ih =>
      unfold readRun
      repeat' first
        | with_reducible assumption
        | with_reducible apply ih
        | with_reducible refine Kept.of1 (p := readRun _ _ _) ?_
        | with_reducible refine readReg_kept ?_
        | with_reducible refine Kept.of1 (p := readReg _ _ _) (readReg_kept ?_)
        | with_reducible refine Kept.eq1 ‹_› ?_
        | extract_lets
        | split
        | with_reducible apply Kept1.mk
        | fail_if_no_progress with_reducible apply Kept.lit
        | with_reducible exact Kept.of1 ‹_›
        | with_reducible exact Kept.of2 ‹_›
        | with_reducible exact Kept.of2 (p := (_, _)) ‹_›
        | dsimp only
        | dsimp +zetaDelta only

theorem execDeclare_kept {s₀ : State} {a0 a1 a2} :
    Kept s₀ a2 → KeptR s₀ (execDeclare a0 a1 a2) := by
  intro h0
  unfold execDeclare
  repeat' first
    | with_reducible assumption
    | with_reducible refine mgmtGate_kept (fun _ _ => ?_) ?_
    | with_reducible refine reply_kept ?_
    | with_reducible refine modPair_kept ?_
    | with_reducible refine takeover_kept ?_
    | extract_lets
    | split
    | with_reducible apply KeptR.next
    | fail_if_no_progress with_reducible apply Kept.lit
    | with_reducible exact Kept.of1 ‹_›
    | with_reducible exact Kept.of2 ‹_›
    | with_reducible exact Kept.of2 (p := (_, _)) ‹_›
    | dsimp only
    | dsimp +zetaDelta only

theorem zeroise_kept {s₀ : State} {a0} :
    Kept s₀ a0 → Kept s₀ (zeroise a0) := by
  intro h0
  unfold zeroise
  repeat' first
    | with_reducible assumption
    | with_reducible refine portDown_kept ?_
    | with_reducible refine dropPool_kept ?_
    | with_reducible refine holdBlocks_kept ?_
    | with_reducible refine modPer_kept ?_
    | with_reducible refine Kept.foldl ?_ (fun _ _ _ => ?_)
    | with_reducible refine Kept1.foldl ?_ (fun _ _ _ => ?_)
    | with_reducible refine Kept.fold1 ?_ (fun _ _ _ => ?_)
    | with_reducible refine Kept.eq1 ‹_› ?_
    | extract_lets
    | split
    | with_reducible apply Kept1.mk
    | fail_if_no_progress with_reducible apply Kept.lit
    | with_reducible exact Kept.of1 ‹_›
    | with_reducible exact Kept.of2 ‹_›
    | with_reducible exact Kept.of2 (p := (_, _)) ‹_›
    | dsimp only
    | dsimp +zetaDelta only

theorem execZeroise_kept {s₀ : State} {a0 a1} :
    Kept s₀ a1 → KeptR s₀ (execZeroise a0 a1) := by
  intro h0
  unfold execZeroise
  repeat' first
    | with_reducible assumption
    | with_reducible refine mgmtGate_kept (fun _ _ => ?_) ?_
    | with_reducible refine reply_kept ?_
    | with_reducible refine zeroise_kept ?_
    | extract_lets
    | split
    | with_reducible apply KeptR.next
    | fail_if_no_progress with_reducible apply Kept.lit
    | with_reducible exact Kept.of1 ‹_›
    | with_reducible exact Kept.of2 ‹_›
    | with_reducible exact Kept.of2 (p := (_, _)) ‹_›
    | dsimp only
    | dsimp +zetaDelta only

theorem execScrub_kept {s₀ : State} {a0 a1 a2 a3 a4} :
    Kept s₀ a4 → KeptR s₀ (execScrub a0 a1 a2 a3 a4) := by
  intro h0
  unfold execScrub
  repeat' first
    | with_reducible assumption
    | with_reducible refine mgmtGate_kept (fun _ _ => ?_) ?_
    | with_reducible refine reply_kept ?_
    | with_reducible refine mirrorThen_kept (fun _ _ => ?_) ?_
    | with_reducible refine scrubAcked_kept ?_
    | with_reducible refine beginScrub_kept ?_
    | extract_lets
    | split
    | with_reducible apply KeptR.next
    | fail_if_no_progress with_reducible apply Kept.lit
    | with_reducible exact Kept.of1 ‹_›
    | with_reducible exact Kept.of2 ‹_›
    | with_reducible exact Kept.of2 (p := (_, _)) ‹_›
    | dsimp only
    | dsimp +zetaDelta only

theorem execFtCfgWrite_kept {s₀ : State} {a0 a1 a2} :
    Kept s₀ a2 → KeptR s₀ (execFtCfgWrite a0 a1 a2) := by
  intro h0
  unfold execFtCfgWrite
  repeat' first
    | with_reducible assumption
    | with_reducible refine mgmtGate_kept (fun _ _ => ?_) ?_
    | with_reducible refine reply_kept ?_
    | extract_lets
    | split
    | with_reducible apply KeptR.next
    | fail_if_no_progress with_reducible apply Kept.lit
    | with_reducible exact Kept.of1 ‹_›
    | with_reducible exact Kept.of2 ‹_›
    | with_reducible exact Kept.of2 (p := (_, _)) ‹_›
    | dsimp only
    | dsimp +zetaDelta only

theorem execStallCfgWrite_kept {s₀ : State} {a0 a1 a2 a3} :
    Kept s₀ a3 → KeptR s₀ (execStallCfgWrite a0 a1 a2 a3) := by
  intro h0
  unfold execStallCfgWrite
  repeat' first
    | with_reducible assumption
    | with_reducible refine mgmtGate_kept (fun _ _ => ?_) ?_
    | with_reducible refine modDom_kept ?_
    | with_reducible refine enterStalled_kept ?_
    | with_reducible refine reply_kept ?_
    | extract_lets
    | split
    | with_reducible apply KeptR.next
    | fail_if_no_progress with_reducible apply Kept.lit
    | with_reducible exact Kept.of1 ‹_›
    | with_reducible exact Kept.of2 ‹_›
    | with_reducible exact Kept.of2 (p := (_, _)) ‹_›
    | dsimp only
    | dsimp +zetaDelta only

theorem execDomCtlNone_kept {s₀ : State} {a0 a1 a2} :
    Kept s₀ a2 → KeptR s₀ (execDomCtlNone a0 a1 a2) := by
  intro h0
  unfold execDomCtlNone
  repeat' first
    | with_reducible assumption
    | with_reducible refine domCtl_kept (fun _ _ _ => ?_) ?_
    | extract_lets
    | split
    | with_reducible apply KeptR.next
    | with_reducible apply Kept1.mk
    | fail_if_no_progress with_reducible apply Kept.lit
    | with_reducible exact Kept.of1 ‹_›
    | with_reducible exact Kept.of2 ‹_›
    | with_reducible exact Kept.of2 (p := (_, _)) ‹_›
    | dsimp only
    | dsimp +zetaDelta only

theorem execDomHold_kept {s₀ : State} {a0 a1 a2} :
    Kept s₀ a2 → KeptR s₀ (execDomHold a0 a1 a2) := by
  intro h0
  unfold execDomHold
  repeat' first
    | with_reducible assumption
    | with_reducible refine domCtl_kept (fun _ _ _ => ?_) ?_
    | with_reducible refine setDom_kept ?_
    | extract_lets
    | split
    | with_reducible apply KeptR.next
    | with_reducible apply Kept1.mk
    | fail_if_no_progress with_reducible apply Kept.lit
    | with_reducible exact Kept.of1 ‹_›
    | with_reducible exact Kept.of2 ‹_›
    | with_reducible exact Kept.of2 (p := (_, _)) ‹_›
    | dsimp only
    | dsimp +zetaDelta only

theorem releaseDom_kept {s₀ : State} {a0 a1} :
    Kept s₀ a1 → Kept s₀ (releaseDom a0 a1) := by
  intro h0
  unfold releaseDom
  repeat' first
    | with_reducible assumption
    | with_reducible refine modDom_kept ?_
    | with_reducible refine followSources_kept ?_
    | extract_lets
    | split
    | fail_if_no_progress with_reducible apply Kept.lit
    | with_reducible exact Kept.of1 ‹_›
    | with_reducible exact Kept.of2 ‹_›
    | with_reducible exact Kept.of2 (p := (_, _)) ‹_›
    | dsimp only
    | dsimp +zetaDelta only

theorem execDomRelease_kept {s₀ : State} {a0 a1 a2} :
    Kept s₀ a2 → KeptR s₀ (execDomRelease a0 a1 a2) := by
  intro h0
  unfold execDomRelease
  repeat' first
    | with_reducible assumption
    | with_reducible refine domCtl_kept (fun _ _ _ => ?_) ?_
    | with_reducible refine releaseDom_kept ?_
    | extract_lets
    | split
    | with_reducible apply KeptR.next
    | with_reducible apply Kept1.mk
    | fail_if_no_progress with_reducible apply Kept.lit
    | with_reducible exact Kept.of1 ‹_›
    | with_reducible exact Kept.of2 ‹_›
    | with_reducible exact Kept.of2 (p := (_, _)) ‹_›
    | dsimp only
    | dsimp +zetaDelta only

theorem execDomRestart_kept {s₀ : State} {a0 a1 a2} :
    Kept s₀ a2 → KeptR s₀ (execDomRestart a0 a1 a2) := by
  intro h0
  unfold execDomRestart
  repeat' first
    | with_reducible assumption
    | with_reducible refine domCtl_kept (fun _ _ _ => ?_) ?_
    | with_reducible refine enterRestarting_kept ?_
    | extract_lets
    | split
    | with_reducible apply KeptR.next
    | with_reducible apply Kept1.mk
    | fail_if_no_progress with_reducible apply Kept.lit
    | with_reducible exact Kept.of1 ‹_›
    | with_reducible exact Kept.of2 ‹_›
    | with_reducible exact Kept.of2 (p := (_, _)) ‹_›
    | dsimp only
    | dsimp +zetaDelta only

theorem planeRebase_kept {s₀ : State} {a0 a1} :
    Kept s₀ a1 → Kept s₀ (planeRebase a0 a1) := by
  intro h0
  unfold planeRebase
  repeat' first
    | with_reducible assumption
    | with_reducible refine passRelease_kept ?_
    | with_reducible refine markLate_kept ?_
    | extract_lets
    | split
    | fail_if_no_progress with_reducible apply Kept.lit
    | with_reducible exact Kept.of1 ‹_›
    | with_reducible exact Kept.of2 ‹_›
    | with_reducible exact Kept.of2 (p := (_, _)) ‹_›
    | dsimp only
    | dsimp +zetaDelta only

theorem orbitRebase_kept {s₀ : State} {a0 a1} :
    Kept s₀ a1 → Kept s₀ (orbitRebase a0 a1) := by
  intro h0
  unfold orbitRebase
  repeat' first
    | with_reducible assumption
    | with_reducible refine modOrb_kept ?_
    | extract_lets
    | split
    | fail_if_no_progress with_reducible apply Kept.lit
    | with_reducible exact Kept.of1 ‹_›
    | with_reducible exact Kept.of2 ‹_›
    | with_reducible exact Kept.of2 (p := (_, _)) ‹_›
    | dsimp only
    | dsimp +zetaDelta only

theorem execDomRebase_kept {s₀ : State} {a0 a1 a2} :
    Kept s₀ a2 → KeptR s₀ (execDomRebase a0 a1 a2) := by
  intro h0
  unfold execDomRebase
  repeat' first
    | with_reducible assumption
    | with_reducible refine domCtl_kept (fun _ _ _ => ?_) ?_
    | with_reducible refine modDom_kept ?_
    | with_reducible refine mirrorOnly_kept ?_
    | with_reducible refine dropCommits_kept ?_
    | with_reducible refine planeRebase_kept ?_
    | with_reducible refine orbitRebase_kept ?_
    | with_reducible refine timeoutWaitang_kept ?_
    | extract_lets
    | split
    | with_reducible apply KeptR.next
    | with_reducible apply Kept1.mk
    | fail_if_no_progress with_reducible apply Kept.lit
    | with_reducible exact Kept.of1 ‹_›
    | with_reducible exact Kept.of2 ‹_›
    | with_reducible exact Kept.of2 (p := (_, _)) ‹_›
    | dsimp only
    | dsimp +zetaDelta only

theorem execSourceAdd_kept {s₀ : State} {a0 a1 a2 a3} :
    Kept s₀ a3 → KeptR s₀ (execSourceAdd a0 a1 a2 a3) := by
  intro h0
  unfold execSourceAdd
  repeat' first
    | with_reducible assumption
    | with_reducible refine domCtl_kept (fun _ _ _ => ?_) ?_
    | with_reducible refine setDom_kept ?_
    | extract_lets
    | split
    | with_reducible apply KeptR.next
    | with_reducible apply Kept1.mk
    | fail_if_no_progress with_reducible apply Kept.lit
    | with_reducible exact Kept.of1 ‹_›
    | with_reducible exact Kept.of2 ‹_›
    | with_reducible exact Kept.of2 (p := (_, _)) ‹_›
    | dsimp only
    | dsimp +zetaDelta only

theorem removeSource_kept {s₀ : State} {a0 a1 a2} :
    Kept s₀ a2 → Kept s₀ (removeSource a0 a1 a2) := by
  intro h0
  unfold removeSource
  repeat' first
    | with_reducible assumption
    | with_reducible refine setDom_kept ?_
    | with_reducible refine followSources_kept ?_
    | extract_lets
    | split
    | fail_if_no_progress with_reducible apply Kept.lit
    | with_reducible exact Kept.of1 ‹_›
    | with_reducible exact Kept.of2 ‹_›
    | with_reducible exact Kept.of2 (p := (_, _)) ‹_›
    | dsimp only
    | dsimp +zetaDelta only

theorem execSourceRemove_kept {s₀ : State} {a0 a1 a2 a3} :
    Kept s₀ a3 → KeptR s₀ (execSourceRemove a0 a1 a2 a3) := by
  intro h0
  unfold execSourceRemove
  repeat' first
    | with_reducible assumption
    | with_reducible refine domCtl_kept (fun _ _ _ => ?_) ?_
    | with_reducible refine removeSource_kept ?_
    | extract_lets
    | split
    | with_reducible apply KeptR.next
    | with_reducible apply Kept1.mk
    | fail_if_no_progress with_reducible apply Kept.lit
    | with_reducible exact Kept.of1 ‹_›
    | with_reducible exact Kept.of2 ‹_›
    | with_reducible exact Kept.of2 (p := (_, _)) ‹_›
    | dsimp only
    | dsimp +zetaDelta only

theorem writeDomCtl_kept {s₀ : State} {a0 a1 a2 a3} :
    Kept s₀ a3 → KeptR s₀ (writeDomCtl a0 a1 a2 a3) := by
  intro h0
  unfold writeDomCtl
  repeat' first
    | with_reducible assumption
    | with_reducible refine execDomCtlNone_kept ?_
    | with_reducible refine execDomHold_kept ?_
    | with_reducible refine execDomRelease_kept ?_
    | with_reducible refine execDomRestart_kept ?_
    | with_reducible refine execDomRebase_kept ?_
    | with_reducible refine execSourceAdd_kept ?_
    | with_reducible refine execSourceRemove_kept ?_
    | with_reducible refine mgmtGate_kept (fun _ _ => ?_) ?_
    | with_reducible refine reply_kept ?_
    | extract_lets
    | split
    | with_reducible apply KeptR.next
    | fail_if_no_progress with_reducible apply Kept.lit
    | with_reducible exact Kept.of1 ‹_›
    | with_reducible exact Kept.of2 ‹_›
    | with_reducible exact Kept.of2 (p := (_, _)) ‹_›
    | dsimp only
    | dsimp +zetaDelta only

theorem laserOff_kept {s₀ : State} {a0 a1} :
    Kept s₀ a1 → Kept s₀ (laserOff a0 a1) := by
  intro h0
  unfold laserOff
  repeat' first
    | with_reducible assumption
    | with_reducible refine portDown_kept ?_
    | with_reducible refine send_kept ?_
    | with_reducible refine modPins_kept ?_
    | with_reducible refine Kept.foldl ?_ (fun _ _ _ => ?_)
    | with_reducible refine Kept1.foldl ?_ (fun _ _ _ => ?_)
    | with_reducible refine Kept.fold1 ?_ (fun _ _ _ => ?_)
    | with_reducible refine Kept.eq1 ‹_› ?_
    | extract_lets
    | split
    | with_reducible apply Kept1.mk
    | fail_if_no_progress with_reducible apply Kept.lit
    | with_reducible exact Kept.of1 ‹_›
    | with_reducible exact Kept.of2 ‹_›
    | with_reducible exact Kept.of2 (p := (_, _)) ‹_›
    | dsimp only
    | dsimp +zetaDelta only

theorem setLaser_kept {s₀ : State} {a0 a1 a2} :
    Kept s₀ a2 → Kept s₀ (setLaser a0 a1 a2) := by
  intro h0
  unfold setLaser
  repeat' first
    | with_reducible assumption
    | with_reducible refine modPins_kept ?_
    | with_reducible refine laserOff_kept ?_
    | extract_lets
    | split
    | fail_if_no_progress with_reducible apply Kept.lit
    | with_reducible exact Kept.of1 ‹_›
    | with_reducible exact Kept.of2 ‹_›
    | with_reducible exact Kept.of2 (p := (_, _)) ‹_›
    | dsimp only
    | dsimp +zetaDelta only

theorem execLaserEnable_kept {s₀ : State} {a0 a1 a2 a3} :
    Kept s₀ a3 → KeptR s₀ (execLaserEnable a0 a1 a2 a3) := by
  intro h0
  unfold execLaserEnable
  repeat' first
    | with_reducible assumption
    | with_reducible refine mgmtGate_kept (fun _ _ => ?_) ?_
    | with_reducible refine reply_kept ?_
    | with_reducible refine setLaser_kept ?_
    | extract_lets
    | split
    | with_reducible apply KeptR.next
    | fail_if_no_progress with_reducible apply Kept.lit
    | with_reducible exact Kept.of1 ‹_›
    | with_reducible exact Kept.of2 ‹_›
    | with_reducible exact Kept.of2 (p := (_, _)) ‹_›
    | dsimp only
    | dsimp +zetaDelta only

theorem fqRelease_kept {s₀ : State} {a0 a1 a2} :
    Kept s₀ a2 → Kept1 s₀ (fqRelease a0 a1 a2) := by
  intro h0
  unfold fqRelease
  repeat' first
    | with_reducible assumption
    | with_reducible refine setLocPart_kept ?_
    | extract_lets
    | split
    | with_reducible apply Kept1.mk
    | fail_if_no_progress with_reducible apply Kept.lit
    | with_reducible exact Kept.of1 ‹_›
    | with_reducible exact Kept.of2 ‹_›
    | with_reducible exact Kept.of2 (p := (_, _)) ‹_›
    | dsimp only
    | dsimp +zetaDelta only

theorem execFqHeadRelease_kept {s₀ : State} {a0 a1 a2 a3} :
    Kept s₀ a3 → KeptR s₀ (execFqHeadRelease a0 a1 a2 a3) := by
  intro h0
  unfold execFqHeadRelease
  repeat' first
    | with_reducible assumption
    | with_reducible refine fqRelease_kept ?_
    | with_reducible refine Kept.of1 (p := fqRelease _ _ _) (fqRelease_kept ?_)
    | with_reducible refine reply_kept ?_
    | with_reducible refine mgmtGate_kept (fun _ _ => ?_) ?_
    | with_reducible refine Kept.eq1 ‹_› ?_
    | extract_lets
    | split
    | with_reducible apply KeptR.next
    | with_reducible apply Kept1.mk
    | fail_if_no_progress with_reducible apply Kept.lit
    | with_reducible exact Kept.of1 ‹_›
    | with_reducible exact Kept.of2 ‹_›
    | with_reducible exact Kept.of2 (p := (_, _)) ‹_›
    | dsimp only
    | dsimp +zetaDelta only

theorem writeEnergyCfg_kept {s₀ : State} {a0 a1} :
    Kept s₀ a1 → Kept s₀ (writeEnergyCfg a0 a1) := by
  intro h0
  unfold writeEnergyCfg
  repeat' first
    | with_reducible assumption
    | with_reducible refine modEnergy_kept ?_
    | with_reducible refine setBudget_kept ?_
    | extract_lets
    | split
    | fail_if_no_progress with_reducible apply Kept.lit
    | with_reducible exact Kept.of1 ‹_›
    | with_reducible exact Kept.of2 ‹_›
    | with_reducible exact Kept.of2 (p := (_, _)) ‹_›
    | dsimp only
    | dsimp +zetaDelta only

theorem setSelector_kept {s₀ : State} {a0 a1 a2 a3} :
    Kept s₀ a3 → Kept s₀ (setSelector a0 a1 a2 a3) := by
  intro h0
  unfold setSelector
  repeat' first
    | with_reducible assumption
    | with_reducible refine modEdge_kept ?_
    | with_reducible refine modArc_kept ?_
    | extract_lets
    | split
    | fail_if_no_progress with_reducible apply Kept.lit
    | with_reducible exact Kept.of1 ‹_›
    | with_reducible exact Kept.of2 ‹_›
    | with_reducible exact Kept.of2 (p := (_, _)) ‹_›
    | dsimp only
    | dsimp +zetaDelta only

theorem minReload_kept {s₀ : State} {a0} :
    Kept s₀ a0 → Kept s₀ (minReload a0) := by
  intro h0
  unfold minReload
  repeat' first
    | with_reducible assumption
    | extract_lets
    | split
    | fail_if_no_progress with_reducible apply Kept.lit
    | with_reducible exact Kept.of1 ‹_›
    | with_reducible exact Kept.of2 ‹_›
    | with_reducible exact Kept.of2 (p := (_, _)) ‹_›
    | dsimp only
    | dsimp +zetaDelta only

theorem monCtlWrite_kept {s₀ : State} {a0 a1 a2} :
    Kept s₀ a2 → Kept1 s₀ (monCtlWrite a0 a1 a2) := by
  intro h0
  unfold monCtlWrite
  repeat' first
    | with_reducible assumption
    | with_reducible refine modArc_kept ?_
    | with_reducible refine monClear_kept ?_
    | extract_lets
    | split
    | with_reducible apply Kept1.mk
    | fail_if_no_progress with_reducible apply Kept.lit
    | with_reducible exact Kept.of1 ‹_›
    | with_reducible exact Kept.of2 ‹_›
    | with_reducible exact Kept.of2 (p := (_, _)) ‹_›
    | dsimp only
    | dsimp +zetaDelta only

theorem writeVtxCfg_kept {s₀ : State} {a0 a1} :
    Kept s₀ a1 → Kept s₀ (writeVtxCfg a0 a1) := by
  intro h0
  unfold writeVtxCfg
  repeat' first
    | with_reducible assumption
    | with_reducible refine modVtx_kept ?_
    | with_reducible refine domainDown_kept ?_
    | extract_lets
    | split
    | fail_if_no_progress with_reducible apply Kept.lit
    | with_reducible exact Kept.of1 ‹_›
    | with_reducible exact Kept.of2 ‹_›
    | with_reducible exact Kept.of2 (p := (_, _)) ‹_›
    | dsimp only
    | dsimp +zetaDelta only

theorem locDoorbell_kept {s₀ : State} {a0 a1 a2} :
    Kept s₀ a2 → Kept1 s₀ (locDoorbell a0 a1 a2) := by
  intro h0
  unfold locDoorbell
  repeat' first
    | with_reducible assumption
    | with_reducible refine setLocPart_kept ?_
    | extract_lets
    | split
    | with_reducible apply Kept1.mk
    | fail_if_no_progress with_reducible apply Kept.lit
    | with_reducible exact Kept.of1 ‹_›
    | with_reducible exact Kept.of2 ‹_›
    | with_reducible exact Kept.of2 (p := (_, _)) ‹_›
    | dsimp only
    | dsimp +zetaDelta only

theorem mgmtWrite_kept {s₀ : State} {a0 a1 a2} :
    Kept s₀ a2 → Kept1 s₀ (mgmtWrite a0 a1 a2) := by
  intro h0
  unfold mgmtWrite
  repeat' first
    | with_reducible assumption
    | with_reducible refine modCmp_kept ?_
    | with_reducible refine writeEnergyCfg_kept ?_
    | with_reducible refine setSelector_kept ?_
    | with_reducible refine modEdge_kept ?_
    | with_reducible refine minReload_kept ?_
    | with_reducible refine modArc_kept ?_
    | with_reducible refine monCtlWrite_kept ?_
    | with_reducible refine Kept.of1 (p := monCtlWrite _ _ _) (monCtlWrite_kept ?_)
    | with_reducible refine writeVtxCfg_kept ?_
    | with_reducible refine clearExcl_kept ?_
    | with_reducible refine modVtx_kept ?_
    | with_reducible refine locDoorbell_kept ?_
    | with_reducible refine Kept.of1 (p := locDoorbell _ _ _) (locDoorbell_kept ?_)
    | with_reducible refine clearLost_kept ?_
    | with_reducible refine modApx_kept ?_
    | with_reducible refine modOrb_kept ?_
    | with_reducible refine modCen_kept ?_
    | with_reducible refine Kept.foldl ?_ (fun _ _ _ => ?_)
    | with_reducible refine Kept1.foldl ?_ (fun _ _ _ => ?_)
    | with_reducible refine Kept.fold1 ?_ (fun _ _ _ => ?_)
    | with_reducible refine Kept.eq1 ‹_› ?_
    | extract_lets
    | split
    | with_reducible apply Kept1.mk
    | fail_if_no_progress with_reducible apply Kept.lit
    | with_reducible exact Kept.of1 ‹_›
    | with_reducible exact Kept.of2 ‹_›
    | with_reducible exact Kept.of2 (p := (_, _)) ‹_›
    | dsimp only
    | dsimp +zetaDelta only

theorem mgmtWriteReg_kept {s₀ : State} {a0 a1 a2 a3} :
    Kept s₀ a3 → KeptR s₀ (mgmtWriteReg a0 a1 a2 a3) := by
  intro h0
  unfold mgmtWriteReg
  repeat' first
    | with_reducible assumption
    | with_reducible refine execDeclare_kept ?_
    | with_reducible refine execZeroise_kept ?_
    | with_reducible refine execScrub_kept ?_
    | with_reducible refine execFtCfgWrite_kept ?_
    | with_reducible refine execStallCfgWrite_kept ?_
    | with_reducible refine writeDomCtl_kept ?_
    | with_reducible refine execLaserEnable_kept ?_
    | with_reducible refine execFqHeadRelease_kept ?_
    | with_reducible refine mgmtGate_kept (fun _ _ => ?_) ?_
    | with_reducible refine reply_kept ?_
    | with_reducible refine mgmtWrite_kept ?_
    | with_reducible refine Kept.of1 (p := mgmtWrite _ _ _) (mgmtWrite_kept ?_)
    | with_reducible refine Kept.eq1 ‹_› ?_
    | extract_lets
    | split
    | with_reducible apply KeptR.next
    | with_reducible apply Kept1.mk
    | fail_if_no_progress with_reducible apply Kept.lit
    | with_reducible exact Kept.of1 ‹_›
    | with_reducible exact Kept.of2 ‹_›
    | with_reducible exact Kept.of2 (p := (_, _)) ‹_›
    | dsimp only
    | dsimp +zetaDelta only

theorem portWriteReg_kept {s₀ : State} {a0 a1 a2 a3 a4 a5 a6} :
    Kept s₀ a6 → KeptR s₀ (portWriteReg a0 a1 a2 a3 a4 a5 a6) := by
  intro h0
  unfold portWriteReg
  repeat' first
    | with_reducible assumption
    | with_reducible refine reply_kept ?_
    | with_reducible refine locDoorbell_kept ?_
    | with_reducible refine Kept.of1 (p := locDoorbell _ _ _) (locDoorbell_kept ?_)
    | with_reducible refine execFqHeadRelease_kept ?_
    | with_reducible refine clearLost_kept ?_
    | with_reducible refine execAttestReport_kept ?_
    | with_reducible refine monCtlWrite_kept ?_
    | with_reducible refine Kept.of1 (p := monCtlWrite _ _ _) (monCtlWrite_kept ?_)
    | with_reducible refine setSelector_kept ?_
    | with_reducible refine Kept.eq1 ‹_› ?_
    | extract_lets
    | split
    | with_reducible apply KeptR.next
    | with_reducible apply Kept1.mk
    | fail_if_no_progress with_reducible apply Kept.lit
    | with_reducible exact Kept.of1 ‹_›
    | with_reducible exact Kept.of2 ‹_›
    | with_reducible exact Kept.of2 (p := (_, _)) ‹_›
    | dsimp only
    | dsimp +zetaDelta only

theorem writeReg_kept {s₀ : State} {a0 a1 a2 a3 a4} :
    Kept s₀ a4 → KeptR s₀ (writeReg a0 a1 a2 a3 a4) := by
  intro h0
  unfold writeReg
  repeat' first
    | with_reducible assumption
    | with_reducible refine mgmtGate_kept (fun _ _ => ?_) ?_
    | with_reducible refine reply_kept ?_
    | with_reducible refine mgmtWriteReg_kept ?_
    | with_reducible refine portWriteReg_kept ?_
    | with_reducible refine Kept.getD ?_ ?_
    | extract_lets
    | split
    | with_reducible apply KeptR.next
    | fail_if_no_progress with_reducible apply Kept.lit
    | with_reducible exact Kept.of1 ‹_›
    | with_reducible exact Kept.of2 ‹_›
    | with_reducible exact Kept.of2 (p := (_, _)) ‹_›
    | dsimp only
    | dsimp +zetaDelta only

theorem failRec_kept {s₀ : State} {a0 a1 a2 a3 a4 a5} :
    Kept s₀ a5 → Kept s₀ (failRec a0 a1 a2 a3 a4 a5) := by
  intro h0
  unfold failRec
  repeat' first
    | with_reducible assumption
    | with_reducible refine setLocPart_kept ?_
    | extract_lets
    | split
    | fail_if_no_progress with_reducible apply Kept.lit
    | with_reducible exact Kept.of1 ‹_›
    | with_reducible exact Kept.of2 ‹_›
    | with_reducible exact Kept.of2 (p := (_, _)) ‹_›
    | dsimp only
    | dsimp +zetaDelta only

theorem locApply_kept {s₀ : State} {a0 a1 a2} :
    Kept s₀ a2 → Kept s₀ (locApply a0 a1 a2) := by
  intro h0
  unfold locApply
  repeat' first
    | with_reducible assumption
    | with_reducible refine failRec_kept ?_
    | with_reducible refine foldRead_kept ?_
    | with_reducible refine Kept.of1 (p := foldRead _ _ _ _ _) (foldRead_kept ?_)
    | with_reducible refine applyRec_kept ?_
    | with_reducible refine Kept.eq1 ‹_› ?_
    | extract_lets
    | split
    | with_reducible apply Kept1.mk
    | fail_if_no_progress with_reducible apply Kept.lit
    | with_reducible exact Kept.of1 ‹_›
    | with_reducible exact Kept.of2 ‹_›
    | with_reducible exact Kept.of2 (p := (_, _)) ‹_›
    | dsimp only
    | dsimp +zetaDelta only

theorem scrubOver_kept {s₀ : State} {a0 a1} :
    Kept s₀ a1 → Kept s₀ (scrubOver a0 a1) := by
  intro h0
  unfold scrubOver
  repeat' first
    | with_reducible assumption
    | with_reducible refine report_kept ?_
    | with_reducible refine modPer_kept ?_
    | extract_lets
    | split
    | fail_if_no_progress with_reducible apply Kept.lit
    | with_reducible exact Kept.of1 ‹_›
    | with_reducible exact Kept.of2 ‹_›
    | with_reducible exact Kept.of2 (p := (_, _)) ‹_›
    | dsimp only
    | dsimp +zetaDelta only

theorem foundPool_kept {s₀ : State} {a0 a1} :
    Kept s₀ a1 → Kept s₀ (foundPool a0 a1) := by
  intro h0
  unfold foundPool
  repeat' first
    | with_reducible assumption
    | with_reducible refine queueCommit_kept ?_
    | with_reducible refine modPer_kept ?_
    | extract_lets
    | split
    | fail_if_no_progress with_reducible apply Kept.lit
    | with_reducible exact Kept.of1 ‹_›
    | with_reducible exact Kept.of2 ‹_›
    | with_reducible exact Kept.of2 (p := (_, _)) ‹_›
    | dsimp only
    | dsimp +zetaDelta only

theorem orbMirror_kept {s₀ : State} {a0 a1} :
    Kept s₀ a1 → Kept s₀ (orbMirror a0 a1) := by
  intro h0
  unfold orbMirror
  repeat' first
    | with_reducible assumption
    | with_reducible refine mirrorOnly_kept ?_
    | extract_lets
    | split
    | fail_if_no_progress with_reducible apply Kept.lit
    | with_reducible exact Kept.of1 ‹_›
    | with_reducible exact Kept.of2 ‹_›
    | with_reducible exact Kept.of2 (p := (_, _)) ‹_›
    | dsimp only
    | dsimp +zetaDelta only

theorem orbPlane_kept {s₀ : State} {a0 a1 a2 a3 a4 a5 a6 a7 a8} :
    Kept s₀ a8 → KeptO s₀ (orbPlane a0 a1 a2 a3 a4 a5 a6 a7 a8) := by
  intro h0
  unfold orbPlane
  repeat' first
    | with_reducible assumption
    | with_reducible refine enqueue_kept ?_
    | with_reducible refine Kept.of1 (p := enqueue _ _ _ _) (enqueue_kept ?_)
    | with_reducible refine Kept.getD ?_ ?_
    | with_reducible refine Kept.eq1 ‹_› ?_
    | extract_lets
    | split
    | with_reducible apply KeptO.none
    | with_reducible apply KeptO.some
    | with_reducible apply Kept1.mk
    | fail_if_no_progress with_reducible apply Kept.lit
    | with_reducible exact Kept.of1 ‹_›
    | with_reducible exact Kept.of2 ‹_›
    | with_reducible exact Kept.of2 (p := (_, _)) ‹_›
    | dsimp only
    | dsimp +zetaDelta only

theorem issueMove_kept {s₀ : State} {a0 a1} :
    Kept s₀ a1 → Kept s₀ (issueMove a0 a1) := by
  intro h0
  unfold issueMove
  repeat' first
    | with_reducible assumption
    | with_reducible refine setOJob_kept ?_
    | with_reducible refine orbPlane_kept ?_
    | with_reducible refine modOStat_kept ?_
    | with_reducible refine Kept.eqO ‹_› ?_
    | extract_lets
    | split
    | fail_if_no_progress with_reducible apply Kept.lit
    | with_reducible exact Kept.of1 ‹_›
    | with_reducible exact Kept.of2 ‹_›
    | with_reducible exact Kept.of2 (p := (_, _)) ‹_›
    | dsimp only
    | dsimp +zetaDelta only

theorem startMove_kept {s₀ : State} {a0 a1 a2 a3 a4} :
    Kept s₀ a4 → Kept s₀ (startMove a0 a1 a2 a3 a4) := by
  intro h0
  unfold startMove
  repeat' first
    | with_reducible assumption
    | with_reducible refine setSess_kept ?_
    | with_reducible refine orbMirror_kept ?_
    | with_reducible refine issueMove_kept ?_
    | with_reducible refine addOJob_kept ?_
    | with_reducible refine dropOJob_kept ?_
    | extract_lets
    | split
    | fail_if_no_progress with_reducible apply Kept.lit
    | with_reducible exact Kept.of1 ‹_›
    | with_reducible exact Kept.of2 ‹_›
    | with_reducible exact Kept.of2 (p := (_, _)) ‹_›
    | dsimp only
    | dsimp +zetaDelta only

theorem poisonLine_kept {s₀ : State} {a0 a1} :
    Kept s₀ a1 → Kept s₀ (poisonLine a0 a1) := by
  intro h0
  unfold poisonLine
  repeat' first
    | with_reducible assumption
    | with_reducible refine foldWrite_kept ?_
    | with_reducible refine Kept.of1 (p := foldWrite _ _ _ _ _ _ _) (foldWrite_kept ?_)
    | with_reducible refine Kept.getD ?_ ?_
    | with_reducible refine Kept.eq1 ‹_› ?_
    | extract_lets
    | split
    | with_reducible apply Kept1.mk
    | fail_if_no_progress with_reducible apply Kept.lit
    | with_reducible exact Kept.of1 ‹_›
    | with_reducible exact Kept.of2 ‹_›
    | with_reducible exact Kept.of2 (p := (_, _)) ‹_›
    | dsimp only
    | dsimp +zetaDelta only

theorem plnRun_kept {s₀ : State} {a0 a1 a2 a3 a4} :
    Kept s₀ a4 → Kept1 s₀ (plnRun a0 a1 a2 a3 a4) := by
  intro h0
  induction a1 generalizing a2 a3 a4 with
  | zero =>
      unfold plnRun
      repeat' first
        | with_reducible assumption
        | with_reducible refine Kept.of1 (p := plnRun _ _ _ _ _) ?_
        | with_reducible refine translate_kept ?_
        | with_reducible refine Kept.of1 (p := translate _ _) (translate_kept ?_)
        | with_reducible refine plnStart_kept ?_
        | with_reducible refine Kept.of1 (p := plnStart _ _ _ _) (plnStart_kept ?_)
        | with_reducible refine Kept.eq1 ‹_› ?_
        | extract_lets
        | split
        | with_reducible apply Kept1.mk
        | fail_if_no_progress with_reducible apply Kept.lit
        | with_reducible exact Kept.of1 ‹_›
        | with_reducible exact Kept.of2 ‹_›
        | with_reducible exact Kept.of2 (p := (_, _)) ‹_›
        | dsimp only
        | dsimp +zetaDelta only
  | succ _ ih =>
      unfold plnRun
      repeat' first
        | with_reducible assumption
        | with_reducible apply ih
        | with_reducible refine Kept.of1 (p := plnRun _ _ _ _ _) ?_
        | with_reducible refine translate_kept ?_
        | with_reducible refine Kept.of1 (p := translate _ _) (translate_kept ?_)
        | with_reducible refine plnStart_kept ?_
        | with_reducible refine Kept.of1 (p := plnStart _ _ _ _) (plnStart_kept ?_)
        | with_reducible refine Kept.eq1 ‹_› ?_
        | extract_lets
        | split
        | with_reducible apply Kept1.mk
        | fail_if_no_progress with_reducible apply Kept.lit
        | with_reducible exact Kept.of1 ‹_›
        | with_reducible exact Kept.of2 ‹_›
        | with_reducible exact Kept.of2 (p := (_, _)) ‹_›
        | dsimp only
        | dsimp +zetaDelta only

theorem settleZero_kept {s₀ : State} {a0 a1} :
    Kept s₀ a1 → Kept s₀ (settleZero a0 a1) := by
  intro h0
  unfold settleZero
  repeat' first
    | with_reducible assumption
    | with_reducible refine settle_kept ?_
    | with_reducible refine Kept.foldl ?_ (fun _ _ _ => ?_)
    | with_reducible refine Kept1.foldl ?_ (fun _ _ _ => ?_)
    | with_reducible refine Kept.fold1 ?_ (fun _ _ _ => ?_)
    | with_reducible refine Kept.eq1 ‹_› ?_
    | extract_lets
    | split
    | with_reducible apply Kept1.mk
    | fail_if_no_progress with_reducible apply Kept.lit
    | with_reducible exact Kept.of1 ‹_›
    | with_reducible exact Kept.of2 ‹_›
    | with_reducible exact Kept.of2 (p := (_, _)) ‹_›
    | dsimp only
    | dsimp +zetaDelta only

theorem plnServe_kept {s₀ : State} {a0 a1 a2} :
    Kept s₀ a2 → Kept s₀ (plnServe a0 a1 a2) := by
  intro h0
  unfold plnServe
  repeat' first
    | with_reducible assumption
    | with_reducible refine takeCmd_kept ?_
    | with_reducible refine finishCmd_kept ?_
    | with_reducible refine plnRun_kept ?_
    | with_reducible refine Kept.of1 (p := plnRun _ _ _ _ _) (plnRun_kept ?_)
    | with_reducible refine settleZero_kept ?_
    | with_reducible refine finishJobs_kept ?_
    | with_reducible refine markLate_kept ?_
    | with_reducible refine Kept.eq1 ‹_› ?_
    | with_reducible refine Kept.eqO2 ‹_› ?_
    | extract_lets
    | split
    | with_reducible apply Kept1.mk
    | fail_if_no_progress with_reducible apply Kept.lit
    | with_reducible exact Kept.of1 ‹_›
    | with_reducible exact Kept.of2 ‹_›
    | with_reducible exact Kept.of2 (p := (_, _)) ‹_›
    | dsimp only
    | dsimp +zetaDelta only

theorem vtxServe_kept {s₀ : State} {a0 a1 a2} :
    Kept s₀ a2 → Kept s₀ (vtxServe a0 a1 a2) := by
  intro h0
  unfold vtxServe
  repeat' first
    | with_reducible assumption
    | with_reducible refine takeCmd_kept ?_
    | with_reducible refine finishCmd_kept ?_
    | with_reducible refine engineDown_kept ?_
    | with_reducible refine vjRun_kept ?_
    | with_reducible refine modVtx_kept ?_
    | with_reducible refine Kept.eqO2 ‹_› ?_
    | extract_lets
    | split
    | fail_if_no_progress with_reducible apply Kept.lit
    | with_reducible exact Kept.of1 ‹_›
    | with_reducible exact Kept.of2 ‹_›
    | with_reducible exact Kept.of2 (p := (_, _)) ‹_›
    | dsimp only
    | dsimp +zetaDelta only

theorem hierRecv_kept {s₀ : State} {a0 a1 a2} :
    Kept s₀ a2 → Kept s₀ (hierRecv a0 a1 a2) := by
  intro h0
  unfold hierRecv
  repeat' first
    | with_reducible assumption
    | with_reducible refine send_kept ?_
    | with_reducible refine setEng_kept ?_
    | with_reducible refine hierEnd_kept ?_
    | with_reducible refine report_kept ?_
    | with_reducible refine hierTry_kept ?_
    | with_reducible refine Kept.of1 (p := hierTry _ _ _ _) (hierTry_kept ?_)
    | with_reducible refine setInst_kept ?_
    | with_reducible refine applyResult_kept ?_
    | with_reducible refine Kept.of1 (p := applyResult _ _ _ _) (applyResult_kept ?_)
    | with_reducible refine Kept.eq1 ‹_› ?_
    | extract_lets
    | split
    | with_reducible apply Kept1.mk
    | fail_if_no_progress with_reducible apply Kept.lit
    | with_reducible exact Kept.of1 ‹_›
    | with_reducible exact Kept.of2 ‹_›
    | with_reducible exact Kept.of2 (p := (_, _)) ‹_›
    | dsimp only
    | dsimp +zetaDelta only

theorem matchEarly_kept {s₀ : State} {a0 a1} :
    Kept s₀ a1 → Kept s₀ (matchEarly a0 a1) := by
  intro h0
  unfold matchEarly
  repeat' first
    | with_reducible assumption
    | with_reducible refine hierRecv_kept ?_
    | with_reducible refine setEng_kept ?_
    | with_reducible refine Kept.foldl ?_ (fun _ _ _ => ?_)
    | with_reducible refine Kept1.foldl ?_ (fun _ _ _ => ?_)
    | with_reducible refine Kept.fold1 ?_ (fun _ _ _ => ?_)
    | with_reducible refine Kept.eq1 ‹_› ?_
    | extract_lets
    | split
    | with_reducible apply Kept1.mk
    | fail_if_no_progress with_reducible apply Kept.lit
    | with_reducible exact Kept.of1 ‹_›
    | with_reducible exact Kept.of2 ‹_›
    | with_reducible exact Kept.of2 (p := (_, _)) ‹_›
    | dsimp only
    | dsimp +zetaDelta only

theorem fillBlock_kept {s₀ : State} {a0 a1 a2 a3} :
    Kept s₀ a3 → Kept1 s₀ (fillBlock a0 a1 a2 a3) := by
  intro h0
  unfold fillBlock
  repeat' first
    | with_reducible assumption
    | with_reducible refine foldRead_kept ?_
    | with_reducible refine Kept.of1 (p := foldRead _ _ _ _ _) (foldRead_kept ?_)
    | with_reducible refine dropCopies_kept ?_
    | with_reducible refine readyWrite_kept ?_
    | with_reducible refine Kept.of1 (p := readyWrite _ _) (readyWrite_kept ?_)
    | with_reducible refine foldWrite_kept ?_
    | with_reducible refine Kept.of1 (p := foldWrite _ _ _ _ _ _ _) (foldWrite_kept ?_)
    | with_reducible refine engineWrite1_kept ?_
    | with_reducible refine Kept.of1 (p := engineWrite1 _ _ _ _) (engineWrite1_kept ?_)
    | with_reducible refine Kept.eq1 ‹_› ?_
    | extract_lets
    | split
    | with_reducible apply Kept1.mk
    | fail_if_no_progress with_reducible apply Kept.lit
    | with_reducible exact Kept.of1 ‹_›
    | with_reducible exact Kept.of2 ‹_›
    | with_reducible exact Kept.of2 (p := (_, _)) ‹_›
    | dsimp only
    | dsimp +zetaDelta only

theorem fillBlocks_kept {s₀ : State} {a0 a1 a2 a3 a4 a5} :
    Kept s₀ a5 → Kept1 s₀ (fillBlocks a0 a1 a2 a3 a4 a5) := by
  intro h0
  induction a1 generalizing a2 a3 a4 a5 with
  | zero =>
      unfold fillBlocks
      repeat' first
        | with_reducible assumption
        | with_reducible refine Kept.of1 (p := fillBlocks _ _ _ _ _ _) ?_
        | with_reducible refine fillBlock_kept ?_
        | with_reducible refine Kept.of1 (p := fillBlock _ _ _ _) (fillBlock_kept ?_)
        | with_reducible refine Kept.eq1 ‹_› ?_
        | extract_lets
        | split
        | with_reducible apply Kept1.mk
        | fail_if_no_progress with_reducible apply Kept.lit
        | with_reducible exact Kept.of1 ‹_›
        | with_reducible exact Kept.of2 ‹_›
        | with_reducible exact Kept.of2 (p := (_, _)) ‹_›
        | dsimp only
        | dsimp +zetaDelta only
  | succ _ ih =>
      unfold fillBlocks
      repeat' first
        | with_reducible assumption
        | with_reducible apply ih
        | with_reducible refine Kept.of1 (p := fillBlocks _ _ _ _ _ _) ?_
        | with_reducible refine fillBlock_kept ?_
        | with_reducible refine Kept.of1 (p := fillBlock _ _ _ _) (fillBlock_kept ?_)
        | with_reducible refine Kept.eq1 ‹_› ?_
        | extract_lets
        | split
        | with_reducible apply Kept1.mk
        | fail_if_no_progress with_reducible apply Kept.lit
        | with_reducible exact Kept.of1 ‹_›
        | with_reducible exact Kept.of2 ‹_›
        | with_reducible exact Kept.of2 (p := (_, _)) ‹_›
        | dsimp only
        | dsimp +zetaDelta only

theorem fillGo_kept {s₀ : State} {a0 a1} :
    Kept s₀ a1 → Kept s₀ (fillGo a0 a1) := by
  intro h0
  unfold fillGo
  repeat' first
    | with_reducible assumption
    | with_reducible refine reply_kept ?_
    | with_reducible refine dropCopies_kept ?_
    | with_reducible refine fillBlocks_kept ?_
    | with_reducible refine Kept.of1 (p := fillBlocks _ _ _ _ _ _) (fillBlocks_kept ?_)
    | with_reducible refine Kept.eq1 ‹_› ?_
    | extract_lets
    | split
    | with_reducible apply Kept1.mk
    | fail_if_no_progress with_reducible apply Kept.lit
    | with_reducible exact Kept.of1 ‹_›
    | with_reducible exact Kept.of2 ‹_›
    | with_reducible exact Kept.of2 (p := (_, _)) ‹_›
    | dsimp only
    | dsimp +zetaDelta only

theorem fillTry_kept {s₀ : State} {a0 a1 a2} :
    Kept s₀ a2 → Kept s₀ (fillTry a0 a1 a2) := by
  intro h0
  unfold fillTry
  repeat' first
    | with_reducible assumption
    | with_reducible refine fillGo_kept ?_
    | with_reducible refine debit_kept ?_
    | with_reducible refine admitOversize_kept ?_
    | with_reducible refine countEnergyWait_kept ?_
    | extract_lets
    | split
    | fail_if_no_progress with_reducible apply Kept.lit
    | with_reducible exact Kept.of1 ‹_›
    | with_reducible exact Kept.of2 ‹_›
    | with_reducible exact Kept.of2 (p := (_, _)) ‹_›
    | dsimp only
    | dsimp +zetaDelta only

theorem fillsOpen_kept {s₀ : State} {a0} :
    Kept s₀ a0 → Kept s₀ (fillsOpen a0) := by
  intro h0
  unfold fillsOpen
  repeat' first
    | with_reducible assumption
    | with_reducible refine fillTry_kept ?_
    | with_reducible refine Kept.foldl ?_ (fun _ _ _ => ?_)
    | with_reducible refine Kept1.foldl ?_ (fun _ _ _ => ?_)
    | with_reducible refine Kept.fold1 ?_ (fun _ _ _ => ?_)
    | with_reducible refine Kept.eq1 ‹_› ?_
    | extract_lets
    | split
    | with_reducible apply Kept1.mk
    | fail_if_no_progress with_reducible apply Kept.lit
    | with_reducible exact Kept.of1 ‹_›
    | with_reducible exact Kept.of2 ‹_›
    | with_reducible exact Kept.of2 (p := (_, _)) ‹_›
    | dsimp only
    | dsimp +zetaDelta only

theorem openEpoch_kept {s₀ : State} {a0} :
    Kept s₀ a0 → Kept s₀ (openEpoch a0) := by
  intro h0
  unfold openEpoch
  repeat' first
    | with_reducible assumption
    | with_reducible refine modEnergy_kept ?_
    | with_reducible refine fillsOpen_kept ?_
    | with_reducible refine admitHeld_kept ?_
    | with_reducible refine energyPause_kept ?_
    | extract_lets
    | split
    | fail_if_no_progress with_reducible apply Kept.lit
    | with_reducible exact Kept.of1 ‹_›
    | with_reducible exact Kept.of2 ‹_›
    | with_reducible exact Kept.of2 (p := (_, _)) ‹_›
    | dsimp only
    | dsimp +zetaDelta only

theorem settleDeficit_kept {s₀ : State} {a0} :
    Kept s₀ a0 → Kept s₀ (settleDeficit a0) := by
  intro h0
  unfold settleDeficit
  repeat' first
    | with_reducible assumption
    | with_reducible refine report_kept ?_
    | with_reducible refine modEnergy_kept ?_
    | extract_lets
    | split
    | fail_if_no_progress with_reducible apply Kept.lit
    | with_reducible exact Kept.of1 ‹_›
    | with_reducible exact Kept.of2 ‹_›
    | with_reducible exact Kept.of2 (p := (_, _)) ‹_›
    | dsimp only
    | dsimp +zetaDelta only

theorem settleBase_kept {s₀ : State} {a0} :
    Kept s₀ a0 → Kept s₀ (settleBase a0) := by
  intro h0
  unfold settleBase
  repeat' first
    | with_reducible assumption
    | with_reducible refine modEnergy_kept ?_
    | with_reducible refine report_kept ?_
    | with_reducible refine Kept.foldl ?_ (fun _ _ _ => ?_)
    | with_reducible refine Kept1.foldl ?_ (fun _ _ _ => ?_)
    | with_reducible refine Kept.fold1 ?_ (fun _ _ _ => ?_)
    | with_reducible refine Kept.eq1 ‹_› ?_
    | extract_lets
    | split
    | with_reducible apply Kept1.mk
    | fail_if_no_progress with_reducible apply Kept.lit
    | with_reducible exact Kept.of1 ‹_›
    | with_reducible exact Kept.of2 ‹_›
    | with_reducible exact Kept.of2 (p := (_, _)) ‹_›
    | dsimp only
    | dsimp +zetaDelta only

theorem represent_kept {s₀ : State} {a0 a1} :
    Kept s₀ a1 → Kept s₀ (represent a0 a1) := by
  intro h0
  unfold represent
  repeat' first
    | with_reducible assumption
    | with_reducible refine setReq_kept ?_
    | with_reducible refine setTxn_kept ?_
    | extract_lets
    | split
    | fail_if_no_progress with_reducible apply Kept.lit
    | with_reducible exact Kept.of1 ‹_›
    | with_reducible exact Kept.of2 ‹_›
    | with_reducible exact Kept.of2 (p := (_, _)) ‹_›
    | dsimp only
    | dsimp +zetaDelta only

theorem orbTimeout_kept {s₀ : State} {a0} :
    Kept s₀ a0 → Kept s₀ (orbTimeout a0) := by
  intro h0
  unfold orbTimeout
  repeat' first
    | with_reducible assumption
    | with_reducible refine modOrb_kept ?_
    | with_reducible refine orbReply_kept ?_
    | with_reducible refine setQueue_kept ?_
    | with_reducible refine Kept.foldl ?_ (fun _ _ _ => ?_)
    | with_reducible refine Kept1.foldl ?_ (fun _ _ _ => ?_)
    | with_reducible refine Kept.fold1 ?_ (fun _ _ _ => ?_)
    | with_reducible refine Kept.eq1 ‹_› ?_
    | extract_lets
    | split
    | with_reducible apply Kept1.mk
    | fail_if_no_progress with_reducible apply Kept.lit
    | with_reducible exact Kept.of1 ‹_›
    | with_reducible exact Kept.of2 ‹_›
    | with_reducible exact Kept.of2 (p := (_, _)) ‹_›
    | dsimp only
    | dsimp +zetaDelta only

theorem locFinish_kept {s₀ : State} {a0 a1 a2 a3} :
    Kept s₀ a3 → Kept s₀ (locFinish a0 a1 a2 a3) := by
  intro h0
  unfold locFinish
  repeat' first
    | with_reducible assumption
    | with_reducible refine foldWrite_kept ?_
    | with_reducible refine Kept.of1 (p := foldWrite _ _ _ _ _ _ _) (foldWrite_kept ?_)
    | with_reducible refine readyWrite_kept ?_
    | with_reducible refine Kept.of1 (p := readyWrite _ _) (readyWrite_kept ?_)
    | with_reducible refine setLocPart_kept ?_
    | with_reducible refine completionAdd_kept ?_
    | with_reducible refine Kept.eq1 ‹_› ?_
    | extract_lets
    | split
    | with_reducible apply Kept1.mk
    | fail_if_no_progress with_reducible apply Kept.lit
    | with_reducible exact Kept.of1 ‹_›
    | with_reducible exact Kept.of2 ‹_›
    | with_reducible exact Kept.of2 (p := (_, _)) ‹_›
    | dsimp only
    | dsimp +zetaDelta only

theorem locSyncTimeout_kept {s₀ : State} {a0 a1} :
    Kept s₀ a1 → Kept s₀ (locSyncTimeout a0 a1) := by
  intro h0
  unfold locSyncTimeout
  repeat' first
    | with_reducible assumption
    | with_reducible refine locFinish_kept ?_
    | extract_lets
    | split
    | fail_if_no_progress with_reducible apply Kept.lit
    | with_reducible exact Kept.of1 ‹_›
    | with_reducible exact Kept.of2 ‹_›
    | with_reducible exact Kept.of2 (p := (_, _)) ‹_›
    | dsimp only
    | dsimp +zetaDelta only

theorem setEpRec_kept {s₀ : State} {a0 a1 a2} :
    Kept s₀ a2 → Kept s₀ (setEpRec a0 a1 a2) := by
  intro h0
  unfold setEpRec
  repeat' first
    | with_reducible assumption
    | with_reducible refine modPer_kept ?_
    | extract_lets
    | split
    | fail_if_no_progress with_reducible apply Kept.lit
    | with_reducible exact Kept.of1 ‹_›
    | with_reducible exact Kept.of2 ‹_›
    | with_reducible exact Kept.of2 (p := (_, _)) ‹_›
    | dsimp only
    | dsimp +zetaDelta only

theorem writeCommit_kept {s₀ : State} {a0 a1 a2} :
    Kept s₀ a2 → Kept s₀ (writeCommit a0 a1 a2) := by
  intro h0
  unfold writeCommit
  repeat' first
    | with_reducible assumption
    | with_reducible refine setEpRec_kept ?_
    | with_reducible refine Kept.getD ?_ ?_
    | with_reducible refine KeptO2.mapO ?_ (fun _ _ => ?_)
    | with_reducible refine KeptO2.map (fun _ => ?_)
    | with_reducible refine KeptO.map (fun _ => ?_)
    | extract_lets
    | split
    | fail_if_no_progress with_reducible apply Kept.lit
    | with_reducible exact Kept.of1 ‹_›
    | with_reducible exact Kept.of2 ‹_›
    | with_reducible exact Kept.of2 (p := (_, _)) ‹_›
    | dsimp only
    | dsimp +zetaDelta only

theorem nextCommit_kept {s₀ : State} {a0} :
    Kept s₀ a0 → Kept s₀ (nextCommit a0) := by
  intro h0
  unfold nextCommit
  repeat' first
    | with_reducible assumption
    | with_reducible refine modPort_kept ?_
    | with_reducible refine setAgree_kept ?_
    | extract_lets
    | split
    | fail_if_no_progress with_reducible apply Kept.lit
    | with_reducible exact Kept.of1 ‹_›
    | with_reducible exact Kept.of2 ‹_›
    | with_reducible exact Kept.of2 (p := (_, _)) ‹_›
    | dsimp only
    | dsimp +zetaDelta only

theorem takeSeq_kept {s₀ : State} {a0 a1 a2} :
    Kept s₀ a2 → Kept s₀ (takeSeq a0 a1 a2) := by
  intro h0
  unfold takeSeq
  repeat' first
    | with_reducible assumption
    | with_reducible refine send_kept ?_
    | with_reducible refine setPort_kept ?_
    | with_reducible refine modEdge_kept ?_
    | extract_lets
    | split
    | fail_if_no_progress with_reducible apply Kept.lit
    | with_reducible exact Kept.of1 ‹_›
    | with_reducible exact Kept.of2 ‹_›
    | with_reducible exact Kept.of2 (p := (_, _)) ‹_›
    | dsimp only
    | dsimp +zetaDelta only

theorem replay_kept {s₀ : State} {a0 a1} :
    Kept s₀ a1 → Kept s₀ (replay a0 a1) := by
  intro h0
  unfold replay
  repeat' first
    | with_reducible assumption
    | with_reducible refine portDown_kept ?_
    | with_reducible refine setPort_kept ?_
    | with_reducible refine send_kept ?_
    | extract_lets
    | split
    | fail_if_no_progress with_reducible apply Kept.lit
    | with_reducible exact Kept.of1 ‹_›
    | with_reducible exact Kept.of2 ‹_›
    | with_reducible exact Kept.of2 (p := (_, _)) ‹_›
    | dsimp only
    | dsimp +zetaDelta only

theorem groupRx_kept {s₀ : State} {a0 a1 a2} :
    Kept s₀ a2 → Kept s₀ (groupRx a0 a1 a2) := by
  intro h0
  unfold groupRx
  repeat' first
    | with_reducible assumption
    | with_reducible refine send_kept ?_
    | with_reducible refine setPort_kept ?_
    | with_reducible refine authFail_kept ?_
    | with_reducible refine takeSeq_kept ?_
    | with_reducible refine replay_kept ?_
    | with_reducible refine portDown_kept ?_
    | with_reducible refine Kept.foldl ?_ (fun _ _ _ => ?_)
    | with_reducible refine Kept1.foldl ?_ (fun _ _ _ => ?_)
    | with_reducible refine Kept.fold1 ?_ (fun _ _ _ => ?_)
    | with_reducible refine Kept.getD ?_ ?_
    | with_reducible refine Kept.eq1 ‹_› ?_
    | extract_lets
    | split
    | with_reducible apply Kept1.mk
    | fail_if_no_progress with_reducible apply Kept.lit
    | with_reducible exact Kept.of1 ‹_›
    | with_reducible exact Kept.of2 ‹_›
    | with_reducible exact Kept.of2 (p := (_, _)) ‹_›
    | dsimp only
    | dsimp +zetaDelta only

theorem monCtl_kept {s₀ : State} {a0 a1 a2 a3} :
    (∀ x0 x1, Kept s₀ x1 → Kept s₀ (a2 x0 x1)) → Kept s₀ a3 → KeptR s₀ (monCtl a0 a1 a2 a3) := by
  intro h0 h1
  unfold monCtl
  repeat' first
    | with_reducible assumption
    | with_reducible apply h0
    | with_reducible refine mgmtGate_kept (fun _ _ => ?_) ?_
    | with_reducible refine reply_kept ?_
    | with_reducible refine Kept.eq1 ‹_› ?_
    | extract_lets
    | split
    | with_reducible apply KeptR.next
    | fail_if_no_progress with_reducible apply Kept.lit
    | with_reducible exact Kept.of1 ‹_›
    | with_reducible exact Kept.of2 ‹_›
    | with_reducible exact Kept.of2 (p := (_, _)) ‹_›
    | dsimp only
    | dsimp +zetaDelta only

theorem startAgree_kept {s₀ : State} {a0 a1 a2 a3} :
    Kept s₀ a3 → Kept s₀ (startAgree a0 a1 a2 a3) := by
  intro h0
  unfold startAgree
  repeat' first
    | with_reducible assumption
    | with_reducible refine beginAgree_kept ?_
    | with_reducible refine modEdge_kept ?_
    | extract_lets
    | split
    | fail_if_no_progress with_reducible apply Kept.lit
    | with_reducible exact Kept.of1 ‹_›
    | with_reducible exact Kept.of2 ‹_›
    | with_reducible exact Kept.of2 (p := (_, _)) ‹_›
    | dsimp only
    | dsimp +zetaDelta only

theorem startRekey_kept {s₀ : State} {a0 a1} :
    Kept s₀ a1 → Kept s₀ (startRekey a0 a1) := by
  intro h0
  unfold startRekey
  repeat' first
    | with_reducible assumption
    | with_reducible refine startAgree_kept ?_
    | extract_lets
    | split
    | fail_if_no_progress with_reducible apply Kept.lit
    | with_reducible exact Kept.of1 ‹_›
    | with_reducible exact Kept.of2 ‹_›
    | with_reducible exact Kept.of2 (p := (_, _)) ‹_›
    | dsimp only
    | dsimp +zetaDelta only

theorem runDevDue_kept {s₀ : State} {a0} :
    Kept s₀ a0 → Kept s₀ (runDevDue a0) := by
  intro h0
  unfold runDevDue
  repeat' first
    | with_reducible assumption
    | with_reducible refine calStart_kept ?_
    | with_reducible refine startRekey_kept ?_
    | with_reducible refine modMer_kept ?_
    | with_reducible refine Kept.foldl ?_ (fun _ _ _ => ?_)
    | with_reducible refine Kept1.foldl ?_ (fun _ _ _ => ?_)
    | with_reducible refine Kept.fold1 ?_ (fun _ _ _ => ?_)
    | with_reducible refine Kept.eq1 ‹_› ?_
    | extract_lets
    | split
    | with_reducible apply Kept1.mk
    | fail_if_no_progress with_reducible apply Kept.lit
    | with_reducible exact Kept.of1 ‹_›
    | with_reducible exact Kept.of2 ‹_›
    | with_reducible exact Kept.of2 (p := (_, _)) ‹_›
    | dsimp only
    | dsimp +zetaDelta only

theorem handPage_kept {s₀ : State} {a0 a1 a2} :
    Kept s₀ a2 → KeptO s₀ (handPage a0 a1 a2) := by
  intro h0
  unfold handPage
  repeat' first
    | with_reducible assumption
    | with_reducible refine debitEvac_kept ?_
    | with_reducible refine changePage_kept ?_
    | with_reducible refine KeptO2.mapO ?_ (fun _ _ => ?_)
    | with_reducible refine KeptO2.map (fun _ => ?_)
    | with_reducible refine KeptO.map (fun _ => ?_)
    | extract_lets
    | split
    | with_reducible apply KeptO.none
    | with_reducible apply KeptO.some
    | fail_if_no_progress with_reducible apply Kept.lit
    | with_reducible exact Kept.of1 ‹_›
    | with_reducible exact Kept.of2 ‹_›
    | with_reducible exact Kept.of2 (p := (_, _)) ‹_›
    | dsimp only
    | dsimp +zetaDelta only

theorem loadEnergy_kept {s₀ : State} {a0} :
    Kept s₀ a0 → Kept s₀ (loadEnergy a0) := by
  intro h0
  unfold loadEnergy
  repeat' first
    | with_reducible assumption
    | with_reducible refine modEnergy_kept ?_
    | with_reducible refine setBudget_kept ?_
    | extract_lets
    | split
    | fail_if_no_progress with_reducible apply Kept.lit
    | with_reducible exact Kept.of1 ‹_›
    | with_reducible exact Kept.of2 ‹_›
    | with_reducible exact Kept.of2 (p := (_, _)) ‹_›
    | dsimp only
    | dsimp +zetaDelta only

theorem pauseKey_kept {s₀ : State} {a0 a1 a2 a3} :
    Kept s₀ a3 → Kept s₀ (pauseKey a0 a1 a2 a3) := by
  intro h0
  unfold pauseKey
  repeat' first
    | with_reducible assumption
    | with_reducible refine modArc_kept ?_
    | extract_lets
    | split
    | fail_if_no_progress with_reducible apply Kept.lit
    | with_reducible exact Kept.of1 ‹_›
    | with_reducible exact Kept.of2 ‹_›
    | with_reducible exact Kept.of2 (p := (_, _)) ‹_›
    | dsimp only
    | dsimp +zetaDelta only

theorem linkPaused_kept {s₀ : State} {a0 a1 a2 a3} :
    Kept s₀ a3 → Kept s₀ (linkPaused a0 a1 a2 a3) := by
  intro h0
  unfold linkPaused
  repeat' first
    | with_reducible assumption
    | with_reducible refine pauseKey_kept ?_
    | with_reducible refine Kept.foldl ?_ (fun _ _ _ => ?_)
    | with_reducible refine Kept1.foldl ?_ (fun _ _ _ => ?_)
    | with_reducible refine Kept.fold1 ?_ (fun _ _ _ => ?_)
    | with_reducible refine Kept.eq1 ‹_› ?_
    | extract_lets
    | split
    | with_reducible apply Kept1.mk
    | fail_if_no_progress with_reducible apply Kept.lit
    | with_reducible exact Kept.of1 ‹_›
    | with_reducible exact Kept.of2 ‹_›
    | with_reducible exact Kept.of2 (p := (_, _)) ‹_›
    | dsimp only
    | dsimp +zetaDelta only

theorem noteTier_kept {s₀ : State} {a0 a1 a2} :
    Kept s₀ a2 → Kept s₀ (noteTier a0 a1 a2) := by
  intro h0
  unfold noteTier
  repeat' first
    | with_reducible assumption
    | with_reducible refine setBlk_kept ?_
    | extract_lets
    | split
    | fail_if_no_progress with_reducible apply Kept.lit
    | with_reducible exact Kept.of1 ‹_›
    | with_reducible exact Kept.of2 ‹_›
    | with_reducible exact Kept.of2 (p := (_, _)) ‹_›
    | dsimp only
    | dsimp +zetaDelta only

theorem reqComplete_kept {s₀ : State} {a0 a1 a2 a3} :
    Kept s₀ a3 → Kept s₀ (reqComplete a0 a1 a2 a3) := by
  intro h0
  unfold reqComplete
  repeat' first
    | with_reducible assumption
    | with_reducible refine endReq_kept ?_
    | with_reducible refine useFresh_kept ?_
    | with_reducible refine setReq_kept ?_
    | with_reducible refine noteTier_kept ?_
    | with_reducible refine monSample_kept ?_
    | with_reducible refine readyWrite_kept ?_
    | with_reducible refine Kept.of1 (p := readyWrite _ _) (readyWrite_kept ?_)
    | with_reducible refine foldWrite_kept ?_
    | with_reducible refine Kept.of1 (p := foldWrite _ _ _ _ _ _ _) (foldWrite_kept ?_)
    | with_reducible refine foldRead_kept ?_
    | with_reducible refine Kept.of1 (p := foldRead _ _ _ _ _) (foldRead_kept ?_)
    | with_reducible refine usePage_kept ?_
    | with_reducible refine Kept.eq1 ‹_› ?_
    | extract_lets
    | split
    | with_reducible apply Kept1.mk
    | fail_if_no_progress with_reducible apply Kept.lit
    | with_reducible exact Kept.of1 ‹_›
    | with_reducible exact Kept.of2 ‹_›
    | with_reducible exact Kept.of2 (p := (_, _)) ‹_›
    | dsimp only
    | dsimp +zetaDelta only

theorem sideRecs_kept {s₀ : State} {a0 a1 a2} :
    Kept s₀ a2 → Kept1 s₀ (sideRecs a0 a1 a2) := by
  intro h0
  unfold sideRecs
  repeat' first
    | with_reducible assumption
    | with_reducible refine cenRead_kept ?_
    | with_reducible refine Kept.of1 (p := cenRead _ _ _ _) (cenRead_kept ?_)
    | with_reducible refine Kept.foldl ?_ (fun _ _ _ => ?_)
    | with_reducible refine Kept1.foldl ?_ (fun _ _ _ => ?_)
    | with_reducible refine Kept.fold1 ?_ (fun _ _ _ => ?_)
    | with_reducible refine Kept.eq1 ‹_› ?_
    | extract_lets
    | split
    | with_reducible apply Kept1.mk
    | fail_if_no_progress with_reducible apply Kept.lit
    | with_reducible exact Kept.of1 ‹_›
    | with_reducible exact Kept.of2 ‹_›
    | with_reducible exact Kept.of2 (p := (_, _)) ‹_›
    | dsimp only
    | dsimp +zetaDelta only

theorem unmarked_kept {s₀ : State} {a0 a1 a2 a3 a4} :
    Kept s₀ a4 → Kept1 s₀ (unmarked a0 a1 a2 a3 a4) := by
  intro h0
  induction a3 generalizing a4 with
  | nil =>
      unfold unmarked
      repeat' first
        | with_reducible assumption
        | with_reducible refine Kept.of1 (p := unmarked _ _ _ _ _) ?_
        | with_reducible refine okThen_kept ?_ (fun _ _ _ => ?_)
        | with_reducible refine Kept.of1 (p := okThen _ _ _) (okThen_kept ?_ (fun _ _ _ => ?_))
        | with_reducible refine findMark_kept ?_
        | with_reducible refine Kept.of1 (p := findMark _ _ _ _) (findMark_kept ?_)
        | with_reducible refine Kept.eq1 ‹_› ?_
        | extract_lets
        | split
        | with_reducible apply Kept1.mk
        | fail_if_no_progress with_reducible apply Kept.lit
        | with_reducible exact Kept.of1 ‹_›
        | with_reducible exact Kept.of2 ‹_›
        | with_reducible exact Kept.of2 (p := (_, _)) ‹_›
        | dsimp only
        | dsimp +zetaDelta only
  | cons _ _ ih =>
      unfold unmarked
      repeat' first
        | with_reducible assumption
        | with_reducible apply ih
        | with_reducible refine Kept.of1 (p := unmarked _ _ _ _ _) ?_
        | with_reducible refine okThen_kept ?_ (fun _ _ _ => ?_)
        | with_reducible refine Kept.of1 (p := okThen _ _ _) (okThen_kept ?_ (fun _ _ _ => ?_))
        | with_reducible refine findMark_kept ?_
        | with_reducible refine Kept.of1 (p := findMark _ _ _ _) (findMark_kept ?_)
        | with_reducible refine Kept.eq1 ‹_› ?_
        | extract_lets
        | split
        | with_reducible apply Kept1.mk
        | fail_if_no_progress with_reducible apply Kept.lit
        | with_reducible exact Kept.of1 ‹_›
        | with_reducible exact Kept.of2 ‹_›
        | with_reducible exact Kept.of2 (p := (_, _)) ‹_›
        | dsimp only
        | dsimp +zetaDelta only

theorem mergeCluster_kept {s₀ : State} {a0 a1 a2 a3 a4 a5} :
    Kept s₀ a5 → Kept1 s₀ (mergeCluster a0 a1 a2 a3 a4 a5) := by
  intro h0
  unfold mergeCluster
  repeat' first
    | with_reducible assumption
    | with_reducible refine okThen_kept ?_ (fun _ _ _ => ?_)
    | with_reducible refine Kept.of1 (p := okThen _ _ _) (okThen_kept ?_ (fun _ _ _ => ?_))
    | with_reducible refine cenRead_kept ?_
    | with_reducible refine Kept.of1 (p := cenRead _ _ _ _) (cenRead_kept ?_)
    | with_reducible refine unmarked_kept ?_
    | with_reducible refine Kept.of1 (p := unmarked _ _ _ _ _) (unmarked_kept ?_)
    | with_reducible refine cenWrite_kept ?_
    | with_reducible refine Kept.of1 (p := cenWrite _ _ _ _ _) (cenWrite_kept ?_)
    | with_reducible refine Kept.eq1 ‹_› ?_
    | extract_lets
    | split
    | with_reducible apply Kept1.mk
    | fail_if_no_progress with_reducible apply Kept.lit
    | with_reducible exact Kept.of1 ‹_›
    | with_reducible exact Kept.of2 ‹_›
    | with_reducible exact Kept.of2 (p := (_, _)) ‹_›
    | dsimp only
    | dsimp +zetaDelta only

theorem mergeAll_kept {s₀ : State} {a0 a1 a2 a3 a4 a5} :
    Kept s₀ a5 → Kept1 s₀ (mergeAll a0 a1 a2 a3 a4 a5) := by
  intro h0
  induction a4 generalizing a5 with
  | nil =>
      unfold mergeAll
      repeat' first
        | with_reducible assumption
        | with_reducible refine Kept.of1 (p := mergeAll _ _ _ _ _ _) ?_
        | with_reducible refine mergeCluster_kept ?_
        | with_reducible refine Kept.of1 (p := mergeCluster _ _ _ _ _ _) (mergeCluster_kept ?_)
        | with_reducible refine Kept.eq1 ‹_› ?_
        | extract_lets
        | split
        | with_reducible apply Kept1.mk
        | fail_if_no_progress with_reducible apply Kept.lit
        | with_reducible exact Kept.of1 ‹_›
        | with_reducible exact Kept.of2 ‹_›
        | with_reducible exact Kept.of2 (p := (_, _)) ‹_›
        | dsimp only
        | dsimp +zetaDelta only
  | cons _ _ ih =>
      unfold mergeAll
      repeat' first
        | with_reducible assumption
        | with_reducible apply ih
        | with_reducible refine Kept.of1 (p := mergeAll _ _ _ _ _ _) ?_
        | with_reducible refine mergeCluster_kept ?_
        | with_reducible refine Kept.of1 (p := mergeCluster _ _ _ _ _ _) (mergeCluster_kept ?_)
        | with_reducible refine Kept.eq1 ‹_› ?_
        | extract_lets
        | split
        | with_reducible apply Kept1.mk
        | fail_if_no_progress with_reducible apply Kept.lit
        | with_reducible exact Kept.of1 ‹_›
        | with_reducible exact Kept.of2 ‹_›
        | with_reducible exact Kept.of2 (p := (_, _)) ‹_›
        | dsimp only
        | dsimp +zetaDelta only

theorem writeTable_kept {s₀ : State} {a0 a1 a2 a3 a4} :
    Kept s₀ a4 → Kept1 s₀ (writeTable a0 a1 a2 a3 a4) := by
  intro h0
  unfold writeTable
  repeat' first
    | with_reducible assumption
    | with_reducible refine cenWrite_kept ?_
    | with_reducible refine Kept.of1 (p := cenWrite _ _ _ _ _) (cenWrite_kept ?_)
    | with_reducible refine Kept.foldl ?_ (fun _ _ _ => ?_)
    | with_reducible refine Kept1.foldl ?_ (fun _ _ _ => ?_)
    | with_reducible refine Kept.fold1 ?_ (fun _ _ _ => ?_)
    | with_reducible refine Kept.eq1 ‹_› ?_
    | extract_lets
    | split
    | with_reducible apply Kept1.mk
    | fail_if_no_progress with_reducible apply Kept.lit
    | with_reducible exact Kept.of1 ‹_›
    | with_reducible exact Kept.of2 ‹_›
    | with_reducible exact Kept.of2 (p := (_, _)) ‹_›
    | dsimp only
    | dsimp +zetaDelta only

theorem putContents_kept {s₀ : State} {a0 a1} :
    Kept s₀ a1 → Kept s₀ (putContents a0 a1) := by
  intro h0
  unfold putContents
  repeat' first
    | with_reducible assumption
    | with_reducible refine putBlock_kept ?_
    | with_reducible refine setBlk_kept ?_
    | with_reducible refine Kept.foldl ?_ (fun _ _ _ => ?_)
    | with_reducible refine Kept1.foldl ?_ (fun _ _ _ => ?_)
    | with_reducible refine Kept.fold1 ?_ (fun _ _ _ => ?_)
    | with_reducible refine Kept.getD ?_ ?_
    | with_reducible refine Kept.eq1 ‹_› ?_
    | extract_lets
    | split
    | with_reducible apply Kept1.mk
    | fail_if_no_progress with_reducible apply Kept.lit
    | with_reducible exact Kept.of1 ‹_›
    | with_reducible exact Kept.of2 ‹_›
    | with_reducible exact Kept.of2 (p := (_, _)) ‹_›
    | dsimp only
    | dsimp +zetaDelta only

theorem orbTake_kept {s₀ : State} {a0 a1 a2} :
    Kept s₀ a2 → KeptO2 s₀ (orbTake a0 a1 a2) := by
  intro h0
  unfold orbTake
  repeat' first
    | with_reducible assumption
    | with_reducible refine setQueue_kept ?_
    | with_reducible refine modOrb_kept ?_
    | with_reducible refine monSample_kept ?_
    | with_reducible refine setArb_kept ?_
    | extract_lets
    | split
    | with_reducible apply KeptO2.none
    | with_reducible apply KeptO2.some
    | with_reducible apply Kept2.mk
    | fail_if_no_progress with_reducible apply Kept.lit
    | with_reducible exact Kept.of1 ‹_›
    | with_reducible exact Kept.of2 ‹_›
    | with_reducible exact Kept.of2 (p := (_, _)) ‹_›
    | dsimp only
    | dsimp +zetaDelta only

theorem withSess_kept {s₀ : State} {a0 a1 a2 a3 a4 a5} :
    Kept s₀ a4 → (∀ x0 x1 x2, Kept s₀ x2 → Kept s₀ (a5 x0 x1 x2)) → Kept s₀ (withSess a0 a1 a2 a3 a4 a5) := by
  intro h0 h1
  unfold withSess
  repeat' first
    | with_reducible assumption
    | with_reducible apply h1
    | with_reducible refine orbTake_kept ?_
    | with_reducible refine orbReply_kept ?_
    | with_reducible refine send_kept ?_
    | with_reducible refine modOrb_kept ?_
    | with_reducible refine Kept.eq1 ‹_› ?_
    | with_reducible refine Kept.eqO2 ‹_› ?_
    | extract_lets
    | split
    | fail_if_no_progress with_reducible apply Kept.lit
    | with_reducible exact Kept.of1 ‹_›
    | with_reducible exact Kept.of2 ‹_›
    | with_reducible exact Kept.of2 (p := (_, _)) ‹_›
    | dsimp only
    | dsimp +zetaDelta only

theorem reviveList_kept {s₀ : State} {a0 a1 a2} :
    Kept s₀ a2 → Kept1 s₀ (reviveList a0 a1 a2) := by
  intro h0
  unfold reviveList
  repeat' first
    | with_reducible assumption
    | with_reducible refine engineReadAs_kept ?_
    | with_reducible refine Kept.of1 (p := engineReadAs _ _ _ _ _ _ _) (engineReadAs_kept ?_)
    | with_reducible refine Kept.eq1 ‹_› ?_
    | extract_lets
    | split
    | with_reducible apply Kept1.mk
    | fail_if_no_progress with_reducible apply Kept.lit
    | with_reducible exact Kept.of1 ‹_›
    | with_reducible exact Kept.of2 ‹_›
    | with_reducible exact Kept.of2 (p := (_, _)) ‹_›
    | dsimp only
    | dsimp +zetaDelta only

theorem startRevive_kept {s₀ : State} {a0 a1 a2} :
    Kept s₀ a2 → Kept s₀ (startRevive a0 a1 a2) := by
  intro h0
  unfold startRevive
  repeat' first
    | with_reducible assumption
    | with_reducible refine orbReply_kept ?_
    | with_reducible refine reviveList_kept ?_
    | with_reducible refine Kept.of1 (p := reviveList _ _ _) (reviveList_kept ?_)
    | with_reducible refine setSess_kept ?_
    | with_reducible refine backLog_kept ?_
    | with_reducible refine backSome_kept ?_
    | with_reducible refine Kept.of1 (p := backSome _ _) (backSome_kept ?_)
    | with_reducible refine orbFinish_kept ?_
    | with_reducible refine orbPlane_kept ?_
    | with_reducible refine orbMirror_kept ?_
    | with_reducible refine addOJob_kept ?_
    | with_reducible refine Kept.getD ?_ ?_
    | with_reducible refine Kept.eq1 ‹_› ?_
    | with_reducible refine Kept.eqO ‹_› ?_
    | extract_lets
    | split
    | with_reducible apply Kept1.mk
    | fail_if_no_progress with_reducible apply Kept.lit
    | with_reducible exact Kept.of1 ‹_›
    | with_reducible exact Kept.of2 ‹_›
    | with_reducible exact Kept.of2 (p := (_, _)) ‹_›
    | dsimp only
    | dsimp +zetaDelta only

theorem startHeld_kept {s₀ : State} {a0 a1} :
    Kept s₀ a1 → Kept s₀ (startHeld a0 a1) := by
  intro h0
  unfold startHeld
  repeat' first
    | with_reducible assumption
    | with_reducible refine startRevive_kept ?_
    | with_reducible refine setSess_kept ?_
    | with_reducible refine modOrb_kept ?_
    | extract_lets
    | split
    | fail_if_no_progress with_reducible apply Kept.lit
    | with_reducible exact Kept.of1 ‹_›
    | with_reducible exact Kept.of2 ‹_›
    | with_reducible exact Kept.of2 (p := (_, _)) ‹_›
    | dsimp only
    | dsimp +zetaDelta only

theorem openIdx_kept {s₀ : State} {a0 a1 a2 a3 a4} :
    Kept s₀ a4 → Kept1 s₀ (openIdx a0 a1 a2 a3 a4) := by
  intro h0
  unfold openIdx
  repeat' first
    | with_reducible assumption
    | with_reducible refine okThen_kept ?_ (fun _ _ _ => ?_)
    | with_reducible refine Kept.of1 (p := okThen _ _ _) (okThen_kept ?_ (fun _ _ _ => ?_))
    | with_reducible refine cenRead_kept ?_
    | with_reducible refine Kept.of1 (p := cenRead _ _ _ _) (cenRead_kept ?_)
    | with_reducible refine writeTable_kept ?_
    | with_reducible refine Kept.of1 (p := writeTable _ _ _ _ _) (writeTable_kept ?_)
    | with_reducible refine writeLive_kept ?_
    | with_reducible refine Kept.of1 (p := writeLive _ _ _) (writeLive_kept ?_)
    | with_reducible refine setIdx_kept ?_
    | with_reducible refine Kept.eq1 ‹_› ?_
    | extract_lets
    | split
    | with_reducible apply Kept1.mk
    | fail_if_no_progress with_reducible apply Kept.lit
    | with_reducible exact Kept.of1 ‹_›
    | with_reducible exact Kept.of2 ‹_›
    | with_reducible exact Kept.of2 (p := (_, _)) ‹_›
    | dsimp only
    | dsimp +zetaDelta only

theorem setRef_kept {s₀ : State} {a0 a1 a2} :
    Kept s₀ a2 → Kept s₀ (setRef a0 a1 a2) := by
  intro h0
  unfold setRef
  repeat' first
    | with_reducible assumption
    | with_reducible refine modMer_kept ?_
    | extract_lets
    | split
    | fail_if_no_progress with_reducible apply Kept.lit
    | with_reducible exact Kept.of1 ‹_›
    | with_reducible exact Kept.of2 ‹_›
    | with_reducible exact Kept.of2 (p := (_, _)) ‹_›
    | dsimp only
    | dsimp +zetaDelta only

theorem orbAgain_kept {s₀ : State} {a0 a1 a2} :
    Kept s₀ a2 → Kept s₀ (orbAgain a0 a1 a2) := by
  intro h0
  unfold orbAgain
  repeat' first
    | with_reducible assumption
    | with_reducible refine modOrb_kept ?_
    | extract_lets
    | split
    | fail_if_no_progress with_reducible apply Kept.lit
    | with_reducible exact Kept.of1 ‹_›
    | with_reducible exact Kept.of2 ‹_›
    | with_reducible exact Kept.of2 (p := (_, _)) ‹_›
    | dsimp only
    | dsimp +zetaDelta only

theorem retrying_kept {s₀ : State} {a0 a1 a2 a3 a4} :
    Kept s₀ a2 → Kept1 s₀ a3 → (∀ x0 x1, Kept s₀ x0 → Kept s₀ (a4 x0 x1)) → Kept s₀ (retrying a0 a1 a2 a3 a4) := by
  intro h0 h1 h2
  unfold retrying
  repeat' first
    | with_reducible assumption
    | with_reducible apply h2
    | with_reducible refine orbAgain_kept ?_
    | with_reducible refine Kept.eq1 ‹_› ?_
    | extract_lets
    | split
    | fail_if_no_progress with_reducible apply Kept.lit
    | with_reducible exact Kept.of1 ‹_›
    | with_reducible exact Kept.of2 ‹_›
    | with_reducible exact Kept.of2 (p := (_, _)) ‹_›
    | dsimp only
    | dsimp +zetaDelta only

theorem logRecords_kept {s₀ : State} {a0 a1 a2 a3} :
    Kept s₀ a3 → Kept1 s₀ (logRecords a0 a1 a2 a3) := by
  intro h0
  unfold logRecords
  repeat' first
    | with_reducible assumption
    | with_reducible refine listRead_kept ?_
    | with_reducible refine Kept.of1 (p := listRead _ _ _ _ _ _ _) (listRead_kept ?_)
    | with_reducible refine Kept.eq1 ‹_› ?_
    | extract_lets
    | split
    | with_reducible apply Kept1.mk
    | fail_if_no_progress with_reducible apply Kept.lit
    | with_reducible exact Kept.of1 ‹_›
    | with_reducible exact Kept.of2 ‹_›
    | with_reducible exact Kept.of2 (p := (_, _)) ‹_›
    | dsimp only
    | dsimp +zetaDelta only

theorem takeBseq_kept {s₀ : State} {a0 a1} :
    Kept s₀ a1 → Kept2 s₀ (takeBseq a0 a1) := by
  intro h0
  unfold takeBseq
  repeat' first
    | with_reducible assumption
    | with_reducible refine modEdge_kept ?_
    | extract_lets
    | split
    | with_reducible apply Kept2.mk
    | fail_if_no_progress with_reducible apply Kept.lit
    | with_reducible exact Kept.of1 ‹_›
    | with_reducible exact Kept.of2 ‹_›
    | with_reducible exact Kept.of2 (p := (_, _)) ‹_›
    | dsimp only
    | dsimp +zetaDelta only

theorem sendPkt_kept {s₀ : State} {a0 a1} :
    Kept s₀ a1 → Kept s₀ (sendPkt a0 a1) := by
  intro h0
  unfold sendPkt
  repeat' first
    | with_reducible assumption
    | with_reducible refine modArc_kept ?_
    | with_reducible refine giveCells_kept ?_
    | with_reducible refine setOut_kept ?_
    | with_reducible refine modFlow_kept ?_
    | with_reducible refine monSample_kept ?_
    | with_reducible refine takeBseq_kept ?_
    | with_reducible refine Kept.of2 (p := takeBseq _ _) (takeBseq_kept ?_)
    | with_reducible refine linkSend_kept ?_
    | with_reducible refine returnCredit_kept ?_
    | with_reducible refine send_kept ?_
    | with_reducible refine fcCheck_kept ?_
    | with_reducible refine Kept.eq2 ‹_› ?_
    | split
    | fail_if_no_progress with_reducible apply Kept.lit
    | with_reducible exact Kept.of1 ‹_›
    | with_reducible exact Kept.of2 ‹_›
    | with_reducible exact Kept.of2 (p := (_, _)) ‹_›
    | dsimp only

theorem sendTier_kept {s₀ : State} {a0 a1 a2} :
    Kept s₀ a2 → KeptO s₀ (sendTier a0 a1 a2) := by
  intro h0
  unfold sendTier
  repeat' first
    | with_reducible assumption
    | with_reducible refine sendPkt_kept ?_
    | with_reducible refine modArcPart_kept ?_
    | with_reducible refine setOut_kept ?_
    | extract_lets
    | split
    | with_reducible apply KeptO.none
    | with_reducible apply KeptO.some
    | fail_if_no_progress with_reducible apply Kept.lit
    | with_reducible exact Kept.of1 ‹_›
    | with_reducible exact Kept.of2 ‹_›
    | with_reducible exact Kept.of2 (p := (_, _)) ‹_›
    | dsimp only
    | dsimp +zetaDelta only

theorem findResult_kept {s₀ : State} {a0 a1 a2} :
    Kept s₀ a2 → Kept1 s₀ (findResult a0 a1 a2) := by
  intro h0
  unfold findResult
  repeat' first
    | with_reducible assumption
    | with_reducible refine logRecords_kept ?_
    | with_reducible refine Kept.of1 (p := logRecords _ _ _ _) (logRecords_kept ?_)
    | with_reducible refine Kept.eq1 ‹_› ?_
    | extract_lets
    | split
    | with_reducible apply Kept1.mk
    | fail_if_no_progress with_reducible apply Kept.lit
    | with_reducible exact Kept.of1 ‹_›
    | with_reducible exact Kept.of2 ‹_›
    | with_reducible exact Kept.of2 (p := (_, _)) ‹_›
    | dsimp only
    | dsimp +zetaDelta only

theorem putRecord_kept {s₀ : State} {a0 a1 a2 a3 a4 a5 a6} :
    Kept s₀ a6 → KeptO1 s₀ (putRecord a0 a1 a2 a3 a4 a5 a6) := by
  intro h0
  unfold putRecord
  repeat' first
    | with_reducible assumption
    | with_reducible refine growList_kept ?_
    | with_reducible refine listWrite_kept ?_
    | with_reducible refine Kept.of1 (p := listWrite _ _ _ _ _ _ _ _) (listWrite_kept ?_)
    | with_reducible refine setSess_kept ?_
    | with_reducible refine Kept.eq1 ‹_› ?_
    | with_reducible refine Kept.eqO1 ‹_› ?_
    | extract_lets
    | split
    | with_reducible apply KeptO1.none
    | with_reducible apply KeptO1.some
    | with_reducible apply Kept1.mk
    | fail_if_no_progress with_reducible apply Kept.lit
    | with_reducible exact Kept.of1 ‹_›
    | with_reducible exact Kept.of2 ‹_›
    | with_reducible exact Kept.of2 (p := (_, _)) ‹_›
    | dsimp only
    | dsimp +zetaDelta only

theorem recallLines_kept {s₀ : State} {a0 a1 a2} :
    Kept s₀ a2 → Kept s₀ (recallLines a0 a1 a2) := by
  intro h0
  unfold recallLines
  repeat' first
    | with_reducible assumption
    | with_reducible refine sendSnoop_kept ?_
    | with_reducible refine modVtx_kept ?_
    | with_reducible refine foldWrite_kept ?_
    | with_reducible refine Kept.of1 (p := foldWrite _ _ _ _ _ _ _) (foldWrite_kept ?_)
    | with_reducible refine Kept.foldl ?_ (fun _ _ _ => ?_)
    | with_reducible refine Kept1.foldl ?_ (fun _ _ _ => ?_)
    | with_reducible refine Kept.fold1 ?_ (fun _ _ _ => ?_)
    | with_reducible refine Kept.eq1 ‹_› ?_
    | extract_lets
    | split
    | with_reducible apply Kept1.mk
    | fail_if_no_progress with_reducible apply Kept.lit
    | with_reducible exact Kept.of1 ‹_›
    | with_reducible exact Kept.of2 ‹_›
    | with_reducible exact Kept.of2 (p := (_, _)) ‹_›
    | dsimp only
    | dsimp +zetaDelta only

theorem fcDiscard_kept {s₀ : State} {a0 a1} :
    Kept s₀ a1 → Kept s₀ (fcDiscard a0 a1) := by
  intro h0
  unfold fcDiscard
  repeat' first
    | with_reducible assumption
    | with_reducible refine modEth_kept ?_
    | extract_lets
    | split
    | fail_if_no_progress with_reducible apply Kept.lit
    | with_reducible exact Kept.of1 ‹_›
    | with_reducible exact Kept.of2 ‹_›
    | with_reducible exact Kept.of2 (p := (_, _)) ‹_›
    | dsimp only
    | dsimp +zetaDelta only

theorem retireHead_kept {s₀ : State} {a0 a1} :
    Kept s₀ a1 → Kept s₀ (retireHead a0 a1) := by
  intro h0
  unfold retireHead
  repeat' first
    | with_reducible assumption
    | with_reducible refine modTray_kept ?_
    | with_reducible refine reportRetired_kept ?_
    | with_reducible refine recordRetired_kept ?_
    | extract_lets
    | split
    | fail_if_no_progress with_reducible apply Kept.lit
    | with_reducible exact Kept.of1 ‹_›
    | with_reducible exact Kept.of2 ‹_›
    | with_reducible exact Kept.of2 (p := (_, _)) ‹_›
    | dsimp only
    | dsimp +zetaDelta only

theorem trayDown_kept {s₀ : State} {a0 a1} :
    Kept s₀ a1 → Kept s₀ (trayDown a0 a1) := by
  intro h0
  unfold trayDown
  repeat' first
    | with_reducible assumption
    | with_reducible refine setTray_kept ?_
    | with_reducible refine retireHead_kept ?_
    | extract_lets
    | split
    | fail_if_no_progress with_reducible apply Kept.lit
    | with_reducible exact Kept.of1 ‹_›
    | with_reducible exact Kept.of2 ‹_›
    | with_reducible exact Kept.of2 (p := (_, _)) ‹_›
    | dsimp only
    | dsimp +zetaDelta only

theorem modTrayLink_kept {s₀ : State} {a0 a1 a2} :
    Kept s₀ a2 → Kept s₀ (modTrayLink a0 a1 a2) := by
  intro h0
  unfold modTrayLink
  repeat' first
    | with_reducible assumption
    | with_reducible refine modEdge_kept ?_
    | extract_lets
    | split
    | fail_if_no_progress with_reducible apply Kept.lit
    | with_reducible exact Kept.of1 ‹_›
    | with_reducible exact Kept.of2 ‹_›
    | with_reducible exact Kept.of2 (p := (_, _)) ‹_›
    | dsimp only
    | dsimp +zetaDelta only

theorem grantJoin_kept {s₀ : State} {a0} :
    Kept s₀ a0 → Kept s₀ (grantJoin a0) := by
  intro h0
  unfold grantJoin
  repeat' first
    | with_reducible assumption
    | with_reducible refine send_kept ?_
    | with_reducible refine modPair_kept ?_
    | extract_lets
    | split
    | fail_if_no_progress with_reducible apply Kept.lit
    | with_reducible exact Kept.of1 ‹_›
    | with_reducible exact Kept.of2 ‹_›
    | with_reducible exact Kept.of2 (p := (_, _)) ‹_›
    | dsimp only
    | dsimp +zetaDelta only

theorem sendTime_kept {s₀ : State} {a0 a1} :
    Kept s₀ a1 → Kept s₀ (sendTime a0 a1) := by
  intro h0
  unfold sendTime
  repeat' first
    | with_reducible assumption
    | with_reducible refine emit_kept ?_
    | extract_lets
    | split
    | fail_if_no_progress with_reducible apply Kept.lit
    | with_reducible exact Kept.of1 ‹_›
    | with_reducible exact Kept.of2 ‹_›
    | with_reducible exact Kept.of2 (p := (_, _)) ‹_›
    | dsimp only
    | dsimp +zetaDelta only

theorem joined_kept {s₀ : State} {a0 a1 a2 a3 a4 a5 a6 a7 a8} :
    Kept s₀ a8 → Kept s₀ (joined a0 a1 a2 a3 a4 a5 a6 a7 a8) := by
  intro h0
  unfold joined
  repeat' first
    | with_reducible assumption
    | with_reducible refine modPer_kept ?_
    | with_reducible refine modPair_kept ?_
    | with_reducible refine releaseAll_kept ?_
    | with_reducible refine sendStatement_kept ?_
    | with_reducible refine sendTime_kept ?_
    | with_reducible refine leaderStep_kept ?_
    | with_reducible refine Kept.foldl ?_ (fun _ _ _ => ?_)
    | with_reducible refine Kept1.foldl ?_ (fun _ _ _ => ?_)
    | with_reducible refine Kept.fold1 ?_ (fun _ _ _ => ?_)
    | with_reducible refine Kept.eq1 ‹_› ?_
    | extract_lets
    | split
    | with_reducible apply Kept1.mk
    | fail_if_no_progress with_reducible apply Kept.lit
    | with_reducible exact Kept.of1 ‹_›
    | with_reducible exact Kept.of2 ‹_›
    | with_reducible exact Kept.of2 (p := (_, _)) ‹_›
    | dsimp only
    | dsimp +zetaDelta only

theorem startLoading_kept {s₀ : State} {a0 a1} :
    Kept s₀ a1 → Kept s₀ (startLoading a0 a1) := by
  intro h0
  unfold startLoading
  repeat' first
    | with_reducible assumption
    | with_reducible refine modCmp_kept ?_
    | extract_lets
    | split
    | fail_if_no_progress with_reducible apply Kept.lit
    | with_reducible exact Kept.of1 ‹_›
    | with_reducible exact Kept.of2 ‹_›
    | with_reducible exact Kept.of2 (p := (_, _)) ‹_›
    | dsimp only
    | dsimp +zetaDelta only

theorem reboot_kept {s₀ : State} {a0 a1} :
    Kept s₀ a1 → Kept s₀ (reboot a0 a1) := by
  intro h0
  unfold reboot
  repeat' first
    | with_reducible assumption
    | with_reducible refine coldState_kept ?_
    | with_reducible refine startLoading_kept ?_
    | extract_lets
    | split
    | fail_if_no_progress with_reducible apply Kept.lit
    | with_reducible exact Kept.of1 ‹_›
    | with_reducible exact Kept.of2 ‹_›
    | with_reducible exact Kept.of2 (p := (_, _)) ‹_›
    | dsimp only
    | dsimp +zetaDelta only

theorem reviveWork_kept {s₀ : State} {a0 a1} :
    Kept s₀ a1 → Kept1 s₀ (reviveWork a0 a1) := by
  intro h0
  unfold reviveWork
  repeat' first
    | with_reducible assumption
    | with_reducible refine copyEntry_kept ?_
    | with_reducible refine Kept.of1 (p := copyEntry _ _ _ _ _) (copyEntry_kept ?_)
    | with_reducible refine logTokens_kept ?_
    | with_reducible refine Kept.of1 (p := logTokens _ _ _ _) (logTokens_kept ?_)
    | with_reducible refine engineWriteAs_kept ?_
    | with_reducible refine Kept.of1 (p := engineWriteAs _ _ _ _ _ _ _) (engineWriteAs_kept ?_)
    | with_reducible refine Kept.foldl ?_ (fun _ _ _ => ?_)
    | with_reducible refine Kept1.foldl ?_ (fun _ _ _ => ?_)
    | with_reducible refine Kept.fold1 ?_ (fun _ _ _ => ?_)
    | with_reducible refine Kept.getD ?_ ?_
    | with_reducible refine Kept.eq1 ‹_› ?_
    | extract_lets
    | split
    | with_reducible apply Kept1.mk
    | fail_if_no_progress with_reducible apply Kept.lit
    | with_reducible exact Kept.of1 ‹_›
    | with_reducible exact Kept.of2 ‹_›
    | with_reducible exact Kept.of2 (p := (_, _)) ‹_›
    | dsimp only
    | dsimp +zetaDelta only

theorem modQp_kept {s₀ : State} {a0 a1 a2} :
    Kept s₀ a2 → Kept s₀ (modQp a0 a1 a2) := by
  intro h0
  unfold modQp
  repeat' first
    | with_reducible assumption
    | with_reducible refine modEdge_kept ?_
    | extract_lets
    | split
    | fail_if_no_progress with_reducible apply Kept.lit
    | with_reducible exact Kept.of1 ‹_›
    | with_reducible exact Kept.of2 ‹_›
    | with_reducible exact Kept.of2 (p := (_, _)) ‹_›
    | dsimp only
    | dsimp +zetaDelta only

theorem retransmit_kept {s₀ : State} {a0 a1 a2} :
    Kept s₀ a2 → Kept s₀ (retransmit a0 a1 a2) := by
  intro h0
  unfold retransmit
  repeat' first
    | with_reducible assumption
    | with_reducible refine modQp_kept ?_
    | with_reducible refine send_kept ?_
    | extract_lets
    | split
    | fail_if_no_progress with_reducible apply Kept.lit
    | with_reducible exact Kept.of1 ‹_›
    | with_reducible exact Kept.of2 ‹_›
    | with_reducible exact Kept.of2 (p := (_, _)) ‹_›
    | dsimp only
    | dsimp +zetaDelta only

end Sys2Proof.Machine
end

