-- ==== Sys2Proof/Laws/Kept6.lean ====
section
/-!
SUPPORT. The operations, sendNak to tick in the order of their calls: each keeps the queue and the form of memory.
-/
namespace Sys2Proof.Machine

set_option linter.unusedTactic false
set_option linter.unreachableTactic false

theorem sendNak_kept {s₀ : State} {a0 a1 a2 a3} :
    Kept s₀ a3 → Kept s₀ (sendNak a0 a1 a2 a3) := by
  intro h0
  unfold sendNak
  repeat' first
    | with_reducible assumption
    | with_reducible refine modQp_kept ?_
    | with_reducible refine send_kept ?_
    | extract_lets
    | split
    | fail_if_no_progress with_reducible apply Kept.lit
    | with_reducible exact Kept.of1 ‹_›
    | with_reducible exact Kept.of2 ‹_›
    | with_reducible exact Kept.of2 (p := (_, _)) ‹_›
    | dsimp only
    | dsimp +zetaDelta only

theorem rollPsn_kept {s₀ : State} {a0 a1 a2 a3} :
    Kept s₀ a3 → Kept s₀ (rollPsn a0 a1 a2 a3) := by
  intro h0
  unfold rollPsn
  repeat' first
    | with_reducible assumption
    | with_reducible refine modQp_kept ?_
    | extract_lets
    | split
    | fail_if_no_progress with_reducible apply Kept.lit
    | with_reducible exact Kept.of1 ‹_›
    | with_reducible exact Kept.of2 ‹_›
    | with_reducible exact Kept.of2 (p := (_, _)) ‹_›
    | dsimp only
    | dsimp +zetaDelta only

theorem windowRead_kept {s₀ : State} {a0 a1 a2 a3 a4 a5 a6 a7} :
    Kept s₀ a7 → Kept s₀ (windowRead a0 a1 a2 a3 a4 a5 a6 a7) := by
  intro h0
  unfold windowRead
  repeat' first
    | with_reducible assumption
    | with_reducible refine sendNak_kept ?_
    | with_reducible refine engineReadAs_kept ?_
    | with_reducible refine Kept.of1 (p := engineReadAs _ _ _ _ _ _ _) (engineReadAs_kept ?_)
    | with_reducible refine rollPsn_kept ?_
    | with_reducible refine emit_kept ?_
    | with_reducible refine Kept.eq1 ‹_› ?_
    | extract_lets
    | split
    | with_reducible apply Kept1.mk
    | fail_if_no_progress with_reducible apply Kept.lit
    | with_reducible exact Kept.of1 ‹_›
    | with_reducible exact Kept.of2 ‹_›
    | with_reducible exact Kept.of2 (p := (_, _)) ‹_›
    | dsimp only
    | dsimp +zetaDelta only

theorem markCe_kept {s₀ : State} {a0 a1 a2} :
    Kept s₀ a2 → Kept s₀ (markCe a0 a1 a2) := by
  intro h0
  unfold markCe
  repeat' first
    | with_reducible assumption
    | with_reducible refine send_kept ?_
    | with_reducible refine modQp_kept ?_
    | extract_lets
    | split
    | fail_if_no_progress with_reducible apply Kept.lit
    | with_reducible exact Kept.of1 ‹_›
    | with_reducible exact Kept.of2 ‹_›
    | with_reducible exact Kept.of2 (p := (_, _)) ‹_›
    | dsimp only
    | dsimp +zetaDelta only

theorem inOrder_kept {s₀ : State} {a0 a1 a2 a3 a4 a5 a6} :
    (∀ x0, Kept s₀ x0 → Kept s₀ (a4 x0)) → (∀ x0 x1, Kept s₀ x1 → Kept s₀ (a5 x0 x1)) → Kept s₀ a6 → Kept s₀ (inOrder a0 a1 a2 a3 a4 a5 a6) := by
  intro h0 h1 h2
  unfold inOrder
  repeat' first
    | with_reducible assumption
    | with_reducible apply h1
    | with_reducible apply h0
    | with_reducible refine modEdge_kept ?_
    | with_reducible refine markCe_kept ?_
    | with_reducible refine modQp_kept ?_
    | with_reducible refine sendNak_kept ?_
    | with_reducible refine Kept.eq1 ‹_› ?_
    | extract_lets
    | split
    | fail_if_no_progress with_reducible apply Kept.lit
    | with_reducible exact Kept.of1 ‹_›
    | with_reducible exact Kept.of2 ‹_›
    | with_reducible exact Kept.of2 (p := (_, _)) ‹_›
    | dsimp only
    | dsimp +zetaDelta only

theorem sampleEnd_kept {s₀ : State} {a0 a1 a2} :
    Kept s₀ a2 → Kept s₀ (sampleEnd a0 a1 a2) := by
  intro h0
  unfold sampleEnd
  repeat' first
    | with_reducible assumption
    | with_reducible refine putResult_kept ?_
    | with_reducible refine setApxReq_kept ?_
    | extract_lets
    | split
    | fail_if_no_progress with_reducible apply Kept.lit
    | with_reducible exact Kept.of1 ‹_›
    | with_reducible exact Kept.of2 ‹_›
    | with_reducible exact Kept.of2 (p := (_, _)) ‹_›
    | dsimp only
    | dsimp +zetaDelta only

theorem visible_kept {s₀ : State} {a0 a1 a2 a3 a4} :
    Kept s₀ a4 → Kept1 s₀ (visible a0 a1 a2 a3 a4) := by
  intro h0
  induction a3 generalizing a4 with
  | nil =>
      unfold visible
      repeat' first
        | with_reducible assumption
        | with_reducible refine Kept.of1 (p := visible _ _ _ _ _) ?_
        | with_reducible refine okThen_kept ?_ (fun _ _ _ => ?_)
        | with_reducible refine Kept.of1 (p := okThen _ _ _) (okThen_kept ?_ (fun _ _ _ => ?_))
        | with_reducible refine findMark_kept ?_
        | with_reducible refine Kept.of1 (p := findMark _ _ _ _) (findMark_kept ?_)
        | with_reducible refine Kept.eq1 ‹_› ?_
        | extract_lets
        | split
        | with_reducible apply Kept1.mk
        | fail_if_no_progress with_reducible apply Kept.lit
        | with_reducible exact Kept.of1 ‹_›
        | with_reducible exact Kept.of2 ‹_›
        | with_reducible exact Kept.of2 (p := (_, _)) ‹_›
        | dsimp only
        | dsimp +zetaDelta only
  | cons _ _ ih =>
      unfold visible
      repeat' first
        | with_reducible assumption
        | with_reducible apply ih
        | with_reducible refine Kept.of1 (p := visible _ _ _ _ _) ?_
        | with_reducible refine okThen_kept ?_ (fun _ _ _ => ?_)
        | with_reducible refine Kept.of1 (p := okThen _ _ _) (okThen_kept ?_ (fun _ _ _ => ?_))
        | with_reducible refine findMark_kept ?_
        | with_reducible refine Kept.of1 (p := findMark _ _ _ _) (findMark_kept ?_)
        | with_reducible refine Kept.eq1 ‹_› ?_
        | extract_lets
        | split
        | with_reducible apply Kept1.mk
        | fail_if_no_progress with_reducible apply Kept.lit
        | with_reducible exact Kept.of1 ‹_›
        | with_reducible exact Kept.of2 ‹_›
        | with_reducible exact Kept.of2 (p := (_, _)) ‹_›
        | dsimp only
        | dsimp +zetaDelta only

theorem scanList_kept {s₀ : State} {a0 a1 a2 a3 a4 a5} :
    Kept s₀ a5 → Kept1 s₀ (scanList a0 a1 a2 a3 a4 a5) := by
  intro h0
  unfold scanList
  repeat' first
    | with_reducible assumption
    | with_reducible refine okThen_kept ?_ (fun _ _ _ => ?_)
    | with_reducible refine Kept.of1 (p := okThen _ _ _) (okThen_kept ?_ (fun _ _ _ => ?_))
    | with_reducible refine cenRead_kept ?_
    | with_reducible refine Kept.of1 (p := cenRead _ _ _ _) (cenRead_kept ?_)
    | with_reducible refine visible_kept ?_
    | with_reducible refine Kept.of1 (p := visible _ _ _ _ _) (visible_kept ?_)
    | with_reducible refine Kept.eq1 ‹_› ?_
    | extract_lets
    | split
    | with_reducible apply Kept1.mk
    | fail_if_no_progress with_reducible apply Kept.lit
    | with_reducible exact Kept.of1 ‹_›
    | with_reducible exact Kept.of2 ‹_›
    | with_reducible exact Kept.of2 (p := (_, _)) ‹_›
    | dsimp only
    | dsimp +zetaDelta only

theorem scanCluster_kept {s₀ : State} {a0 a1 a2 a3 a4} :
    Kept s₀ a4 → Kept1 s₀ (scanCluster a0 a1 a2 a3 a4) := by
  intro h0
  unfold scanCluster
  repeat' first
    | with_reducible assumption
    | with_reducible refine cenRead_kept ?_
    | with_reducible refine Kept.of1 (p := cenRead _ _ _ _) (cenRead_kept ?_)
    | with_reducible refine scanList_kept ?_
    | with_reducible refine Kept.of1 (p := scanList _ _ _ _ _ _) (scanList_kept ?_)
    | with_reducible refine Kept.eq1 ‹_› ?_
    | extract_lets
    | split
    | with_reducible apply Kept1.mk
    | fail_if_no_progress with_reducible apply Kept.lit
    | with_reducible exact Kept.of1 ‹_›
    | with_reducible exact Kept.of2 ‹_›
    | with_reducible exact Kept.of2 (p := (_, _)) ‹_›
    | dsimp only
    | dsimp +zetaDelta only

theorem scanAll_kept {s₀ : State} {a0 a1 a2 a3 a4} :
    Kept s₀ a4 → Kept1 s₀ (scanAll a0 a1 a2 a3 a4) := by
  intro h0
  induction a3 generalizing a4 with
  | nil =>
      unfold scanAll
      repeat' first
        | with_reducible assumption
        | with_reducible refine Kept.of1 (p := scanAll _ _ _ _ _) ?_
        | with_reducible refine scanCluster_kept ?_
        | with_reducible refine Kept.of1 (p := scanCluster _ _ _ _ _) (scanCluster_kept ?_)
        | with_reducible refine okThen_kept ?_ (fun _ _ _ => ?_)
        | with_reducible refine Kept.of1 (p := okThen _ _ _) (okThen_kept ?_ (fun _ _ _ => ?_))
        | with_reducible refine Kept.eq1 ‹_› ?_
        | extract_lets
        | split
        | with_reducible apply Kept1.mk
        | fail_if_no_progress with_reducible apply Kept.lit
        | with_reducible exact Kept.of1 ‹_›
        | with_reducible exact Kept.of2 ‹_›
        | with_reducible exact Kept.of2 (p := (_, _)) ‹_›
        | dsimp only
        | dsimp +zetaDelta only
  | cons _ _ ih =>
      unfold scanAll
      repeat' first
        | with_reducible assumption
        | with_reducible apply ih
        | with_reducible refine Kept.of1 (p := scanAll _ _ _ _ _) ?_
        | with_reducible refine scanCluster_kept ?_
        | with_reducible refine Kept.of1 (p := scanCluster _ _ _ _ _) (scanCluster_kept ?_)
        | with_reducible refine okThen_kept ?_ (fun _ _ _ => ?_)
        | with_reducible refine Kept.of1 (p := okThen _ _ _) (okThen_kept ?_ (fun _ _ _ => ?_))
        | with_reducible refine Kept.eq1 ‹_› ?_
        | extract_lets
        | split
        | with_reducible apply Kept1.mk
        | fail_if_no_progress with_reducible apply Kept.lit
        | with_reducible exact Kept.of1 ‹_›
        | with_reducible exact Kept.of2 ‹_›
        | with_reducible exact Kept.of2 (p := (_, _)) ‹_›
        | dsimp only
        | dsimp +zetaDelta only

theorem scanSide_kept {s₀ : State} {a0 a1 a2 a3} :
    Kept s₀ a3 → Kept1 s₀ (scanSide a0 a1 a2 a3) := by
  intro h0
  unfold scanSide
  repeat' first
    | with_reducible assumption
    | with_reducible refine scanList_kept ?_
    | with_reducible refine Kept.of1 (p := scanList _ _ _ _ _ _) (scanList_kept ?_)
    | with_reducible refine Kept.foldl ?_ (fun _ _ _ => ?_)
    | with_reducible refine Kept1.foldl ?_ (fun _ _ _ => ?_)
    | with_reducible refine Kept.fold1 ?_ (fun _ _ _ => ?_)
    | with_reducible refine Kept.eq1 ‹_› ?_
    | extract_lets
    | split
    | with_reducible apply Kept1.mk
    | fail_if_no_progress with_reducible apply Kept.lit
    | with_reducible exact Kept.of1 ‹_›
    | with_reducible exact Kept.of2 ‹_›
    | with_reducible exact Kept.of2 (p := (_, _)) ‹_›
    | dsimp only
    | dsimp +zetaDelta only

theorem searchRound_kept {s₀ : State} {a0 a1} :
    Kept s₀ a1 → Kept1 s₀ (searchRound a0 a1) := by
  intro h0
  unfold searchRound
  repeat' first
    | with_reducible assumption
    | with_reducible refine cenRead_kept ?_
    | with_reducible refine Kept.of1 (p := cenRead _ _ _ _) (cenRead_kept ?_)
    | with_reducible refine okThen_kept ?_ (fun _ _ _ => ?_)
    | with_reducible refine Kept.of1 (p := okThen _ _ _) (okThen_kept ?_ (fun _ _ _ => ?_))
    | with_reducible refine scanAll_kept ?_
    | with_reducible refine Kept.of1 (p := scanAll _ _ _ _ _) (scanAll_kept ?_)
    | with_reducible refine scanSide_kept ?_
    | with_reducible refine Kept.of1 (p := scanSide _ _ _ _) (scanSide_kept ?_)
    | with_reducible refine Kept.eq1 ‹_› ?_
    | extract_lets
    | split
    | with_reducible apply Kept1.mk
    | fail_if_no_progress with_reducible apply Kept.lit
    | with_reducible exact Kept.of1 ‹_›
    | with_reducible exact Kept.of2 ‹_›
    | with_reducible exact Kept.of2 (p := (_, _)) ‹_›
    | dsimp only
    | dsimp +zetaDelta only

theorem writeResults_kept {s₀ : State} {a0 a1} :
    Kept s₀ a1 → Kept1 s₀ (writeResults a0 a1) := by
  intro h0
  unfold writeResults
  repeat' first
    | with_reducible assumption
    | with_reducible refine useFresh_kept ?_
    | with_reducible refine cenWrite_kept ?_
    | with_reducible refine Kept.of1 (p := cenWrite _ _ _ _ _) (cenWrite_kept ?_)
    | with_reducible refine Kept.foldl ?_ (fun _ _ _ => ?_)
    | with_reducible refine Kept1.foldl ?_ (fun _ _ _ => ?_)
    | with_reducible refine Kept.fold1 ?_ (fun _ _ _ => ?_)
    | with_reducible refine Kept.eq1 ‹_› ?_
    | extract_lets
    | split
    | with_reducible apply Kept1.mk
    | fail_if_no_progress with_reducible apply Kept.lit
    | with_reducible exact Kept.of1 ‹_›
    | with_reducible exact Kept.of2 ‹_›
    | with_reducible exact Kept.of2 (p := (_, _)) ‹_›
    | dsimp only
    | dsimp +zetaDelta only

theorem thermal_kept {s₀ : State} {a0} :
    Kept s₀ a0 → Kept s₀ (thermal a0) := by
  intro h0
  unfold thermal
  repeat' first
    | with_reducible assumption
    | with_reducible refine setFaultBit_kept ?_
    | with_reducible refine report_kept ?_
    | with_reducible refine modCmp_kept ?_
    | with_reducible refine modEnergy_kept ?_
    | extract_lets
    | split
    | fail_if_no_progress with_reducible apply Kept.lit
    | with_reducible exact Kept.of1 ‹_›
    | with_reducible exact Kept.of2 ‹_›
    | with_reducible exact Kept.of2 (p := (_, _)) ‹_›
    | dsimp only
    | dsimp +zetaDelta only

theorem verifyShadow_kept {s₀ : State} {a0 a1} :
    Kept s₀ a1 → Kept s₀ (verifyShadow a0 a1) := by
  intro h0
  unfold verifyShadow
  repeat' first
    | with_reducible assumption
    | with_reducible refine modCmp_kept ?_
    | extract_lets
    | split
    | fail_if_no_progress with_reducible apply Kept.lit
    | with_reducible exact Kept.of1 ‹_›
    | with_reducible exact Kept.of2 ‹_›
    | with_reducible exact Kept.of2 (p := (_, _)) ‹_›
    | dsimp only
    | dsimp +zetaDelta only

theorem spdm_kept {s₀ : State} {a0 a1 a2 a3 a4} :
    Kept s₀ a4 → KeptR s₀ (spdm a0 a1 a2 a3 a4) := by
  intro h0
  unfold spdm
  repeat' first
    | with_reducible assumption
    | with_reducible refine touchSession_kept ?_
    | with_reducible refine reply_kept ?_
    | with_reducible refine useFresh_kept ?_
    | with_reducible refine emit_kept ?_
    | extract_lets
    | split
    | with_reducible apply KeptR.next
    | fail_if_no_progress with_reducible apply Kept.lit
    | with_reducible exact Kept.of1 ‹_›
    | with_reducible exact Kept.of2 ‹_›
    | with_reducible exact Kept.of2 (p := (_, _)) ‹_›
    | dsimp only
    | dsimp +zetaDelta only

theorem starveOut_kept {s₀ : State} {a0 a1 a2 a3} :
    Kept s₀ a3 → Kept s₀ (starveOut a0 a1 a2 a3) := by
  intro h0
  unfold starveOut
  repeat' first
    | with_reducible assumption
    | with_reducible refine modArcPart_kept ?_
    | with_reducible refine setOut_kept ?_
    | extract_lets
    | split
    | fail_if_no_progress with_reducible apply Kept.lit
    | with_reducible exact Kept.of1 ‹_›
    | with_reducible exact Kept.of2 ‹_›
    | with_reducible exact Kept.of2 (p := (_, _)) ‹_›
    | dsimp only
    | dsimp +zetaDelta only

theorem starveCone_kept {s₀ : State} {a0 a1 a2} :
    Kept s₀ a2 → Kept s₀ (starveCone a0 a1 a2) := by
  intro h0
  unfold starveCone
  repeat' first
    | with_reducible assumption
    | extract_lets
    | split
    | fail_if_no_progress with_reducible apply Kept.lit
    | with_reducible exact Kept.of1 ‹_›
    | with_reducible exact Kept.of2 ‹_›
    | with_reducible exact Kept.of2 (p := (_, _)) ‹_›
    | dsimp only
    | dsimp +zetaDelta only

theorem starveArb_kept {s₀ : State} {a0 a1 a2 a3 a4} :
    Kept s₀ a4 → Kept s₀ (starveArb a0 a1 a2 a3 a4) := by
  intro h0
  unfold starveArb
  repeat' first
    | with_reducible assumption
    | with_reducible refine setArb_kept ?_
    | extract_lets
    | split
    | fail_if_no_progress with_reducible apply Kept.lit
    | with_reducible exact Kept.of1 ‹_›
    | with_reducible exact Kept.of2 ‹_›
    | with_reducible exact Kept.of2 (p := (_, _)) ‹_›
    | dsimp only
    | dsimp +zetaDelta only

theorem swapObjs_kept {s₀ : State} {a0 a1} :
    Kept s₀ a1 → Kept s₀ (swapObjs a0 a1) := by
  intro h0
  unfold swapObjs
  repeat' first
    | with_reducible assumption
    | with_reducible refine modMer_kept ?_
    | with_reducible refine setObj_kept ?_
    | with_reducible refine Kept.foldl ?_ (fun _ _ _ => ?_)
    | with_reducible refine Kept1.foldl ?_ (fun _ _ _ => ?_)
    | with_reducible refine Kept.fold1 ?_ (fun _ _ _ => ?_)
    | with_reducible refine Kept.getD ?_ ?_
    | with_reducible refine Kept.eq1 ‹_› ?_
    | extract_lets
    | split
    | with_reducible apply Kept1.mk
    | fail_if_no_progress with_reducible apply Kept.lit
    | with_reducible exact Kept.of1 ‹_›
    | with_reducible exact Kept.of2 ‹_›
    | with_reducible exact Kept.of2 (p := (_, _)) ‹_›
    | dsimp only
    | dsimp +zetaDelta only

theorem swapSched_kept {s₀ : State} {a0 a1} :
    Kept s₀ a1 → Kept s₀ (swapSched a0 a1) := by
  intro h0
  unfold swapSched
  repeat' first
    | with_reducible assumption
    | with_reducible refine modDom_kept ?_
    | with_reducible refine fireAngle_kept ?_
    | extract_lets
    | split
    | fail_if_no_progress with_reducible apply Kept.lit
    | with_reducible exact Kept.of1 ‹_›
    | with_reducible exact Kept.of2 ‹_›
    | with_reducible exact Kept.of2 (p := (_, _)) ‹_›
    | dsimp only
    | dsimp +zetaDelta only

theorem swapNow_kept {s₀ : State} {a0} :
    Kept s₀ a0 → Kept s₀ (swapNow a0) := by
  intro h0
  unfold swapNow
  repeat' first
    | with_reducible assumption
    | with_reducible refine arcFill_kept ?_
    | with_reducible refine modCmp_kept ?_
    | with_reducible refine swapObjs_kept ?_
    | with_reducible refine modMer_kept ?_
    | with_reducible refine modEdge_kept ?_
    | with_reducible refine arcSwap_kept ?_
    | with_reducible refine loadRegs_kept ?_
    | with_reducible refine swapSched_kept ?_
    | with_reducible refine skipFt_kept ?_
    | with_reducible refine report_kept ?_
    | with_reducible refine Kept.foldl ?_ (fun _ _ _ => ?_)
    | with_reducible refine Kept1.foldl ?_ (fun _ _ _ => ?_)
    | with_reducible refine Kept.fold1 ?_ (fun _ _ _ => ?_)
    | with_reducible refine Kept.eq1 ‹_› ?_
    | with_reducible refine KeptO2.bind ?_ (fun _ _ => ?_)
    | with_reducible refine KeptO.bind (fun _ => ?_)
    | extract_lets
    | split
    | with_reducible apply Kept1.mk
    | fail_if_no_progress with_reducible apply Kept.lit
    | with_reducible exact Kept.of1 ‹_›
    | with_reducible exact Kept.of2 ‹_›
    | with_reducible exact Kept.of2 (p := (_, _)) ‹_›
    | dsimp only
    | dsimp +zetaDelta only

theorem readVecs_kept {s₀ : State} {a0 a1} :
    Kept s₀ a1 → Kept s₀ (readVecs a0 a1) := by
  intro h0
  unfold readVecs
  repeat' first
    | with_reducible assumption
    | with_reducible refine engineReadAs_kept ?_
    | with_reducible refine Kept.of1 (p := engineReadAs _ _ _ _ _ _ _) (engineReadAs_kept ?_)
    | with_reducible refine setQuery_kept ?_
    | with_reducible refine Kept.eq1 ‹_› ?_
    | extract_lets
    | split
    | with_reducible apply Kept1.mk
    | fail_if_no_progress with_reducible apply Kept.lit
    | with_reducible exact Kept.of1 ‹_›
    | with_reducible exact Kept.of2 ‹_›
    | with_reducible exact Kept.of2 (p := (_, _)) ‹_›
    | dsimp only
    | dsimp +zetaDelta only

theorem readSpan_kept {s₀ : State} {a0 a1 a2 a3} :
    Kept s₀ a3 → Kept1 s₀ (readSpan a0 a1 a2 a3) := by
  intro h0
  unfold readSpan
  repeat' first
    | with_reducible assumption
    | with_reducible refine translate_kept ?_
    | with_reducible refine Kept.of1 (p := translate _ _) (translate_kept ?_)
    | with_reducible refine engineReadFrom_kept ?_
    | with_reducible refine Kept.of1 (p := engineReadFrom _ _ _ _ _ _ _ _) (engineReadFrom_kept ?_)
    | with_reducible refine usePage_kept ?_
    | with_reducible refine Kept.eq1 ‹_› ?_
    | extract_lets
    | split
    | with_reducible apply Kept1.mk
    | fail_if_no_progress with_reducible apply Kept.lit
    | with_reducible exact Kept.of1 ‹_›
    | with_reducible exact Kept.of2 ‹_›
    | with_reducible exact Kept.of2 (p := (_, _)) ‹_›
    | dsimp only
    | dsimp +zetaDelta only

theorem resultAt_kept {s₀ : State} {a0 a1 a2 a3} :
    Kept s₀ a3 → Kept1 s₀ (resultAt a0 a1 a2 a3) := by
  intro h0
  unfold resultAt
  repeat' first
    | with_reducible assumption
    | with_reducible refine findResult_kept ?_
    | with_reducible refine Kept.of1 (p := findResult _ _ _) (findResult_kept ?_)
    | with_reducible refine logTokens_kept ?_
    | with_reducible refine Kept.of1 (p := logTokens _ _ _ _) (logTokens_kept ?_)
    | with_reducible refine appendAt_kept ?_
    | with_reducible refine Kept.of1 (p := appendAt _ _ _ _ _) (appendAt_kept ?_)
    | with_reducible refine putRecord_kept ?_
    | with_reducible refine setSess_kept ?_
    | with_reducible refine Kept.eq1 ‹_› ?_
    | with_reducible refine Kept.eqO1 ‹_› ?_
    | extract_lets
    | split
    | with_reducible apply Kept1.mk
    | fail_if_no_progress with_reducible apply Kept.lit
    | with_reducible exact Kept.of1 ‹_›
    | with_reducible exact Kept.of2 ‹_›
    | with_reducible exact Kept.of2 (p := (_, _)) ‹_›
    | dsimp only
    | dsimp +zetaDelta only

theorem trayUp_kept {s₀ : State} {a0 a1} :
    Kept s₀ a1 → Kept s₀ (trayUp a0 a1) := by
  intro h0
  unfold trayUp
  repeat' first
    | with_reducible assumption
    | with_reducible refine setTray_kept ?_
    | extract_lets
    | split
    | fail_if_no_progress with_reducible apply Kept.lit
    | with_reducible exact Kept.of1 ‹_›
    | with_reducible exact Kept.of2 ‹_›
    | with_reducible exact Kept.of2 (p := (_, _)) ‹_›
    | dsimp only
    | dsimp +zetaDelta only

theorem modSlot_kept {s₀ : State} {a0 a1 a2} :
    Kept s₀ a2 → Kept s₀ (modSlot a0 a1 a2) := by
  intro h0
  unfold modSlot
  repeat' first
    | with_reducible assumption
    | with_reducible refine modCmp_kept ?_
    | extract_lets
    | split
    | fail_if_no_progress with_reducible apply Kept.lit
    | with_reducible exact Kept.of1 ‹_›
    | with_reducible exact Kept.of2 ‹_›
    | with_reducible exact Kept.of2 (p := (_, _)) ‹_›
    | dsimp only
    | dsimp +zetaDelta only

theorem tlbFill_kept {s₀ : State} {a0 a1 a2 a3 a4 a5 a6 a7} :
    Kept s₀ a7 → Kept s₀ (tlbFill a0 a1 a2 a3 a4 a5 a6 a7) := by
  intro h0
  unfold tlbFill
  repeat' first
    | with_reducible assumption
    | with_reducible refine modLoc_kept ?_
    | with_reducible refine KeptO2.mapO ?_ (fun _ _ => ?_)
    | with_reducible refine KeptO2.map (fun _ => ?_)
    | with_reducible refine KeptO.map (fun _ => ?_)
    | extract_lets
    | split
    | fail_if_no_progress with_reducible apply Kept.lit
    | with_reducible exact Kept.of1 ‹_›
    | with_reducible exact Kept.of2 ‹_›
    | with_reducible exact Kept.of2 (p := (_, _)) ‹_›
    | dsimp only
    | dsimp +zetaDelta only

theorem walkOutcome_kept {s₀ : State} {a0 a1 a2 a3 a4 a5} :
    Kept s₀ a5 → Kept s₀ (walkOutcome a0 a1 a2 a3 a4 a5) := by
  intro h0
  unfold walkOutcome
  repeat' first
    | with_reducible assumption
    | with_reducible refine recordFault_kept ?_
    | with_reducible refine Kept.of1 (p := recordFault _ _ _ _ _ _ _ _) (recordFault_kept ?_)
    | with_reducible refine endReq_kept ?_
    | with_reducible refine route_kept ?_
    | with_reducible refine Kept.eq1 ‹_› ?_
    | extract_lets
    | split
    | with_reducible apply Kept1.mk
    | fail_if_no_progress with_reducible apply Kept.lit
    | with_reducible exact Kept.of1 ‹_›
    | with_reducible exact Kept.of2 ‹_›
    | with_reducible exact Kept.of2 (p := (_, _)) ‹_›
    | dsimp only
    | dsimp +zetaDelta only

theorem tick_kept {s₀ : State} {a0} :
    Kept s₀ a0 → Kept s₀ (tick a0) := by
  intro h0
  unfold tick
  repeat' first
    | with_reducible assumption
    | extract_lets
    | split
    | fail_if_no_progress with_reducible apply Kept.lit
    | with_reducible exact Kept.of1 ‹_›
    | with_reducible exact Kept.of2 ‹_›
    | with_reducible exact Kept.of2 (p := (_, _)) ‹_›
    | dsimp only
    | dsimp +zetaDelta only

end Sys2Proof.Machine
end

