-- ==== Sys2Proof/Laws/State.lean ====
section
/-!
SUPPORT. The updates of one part of State: what each leaves in every field.
-/
namespace Sys2Proof.Machine

@[simp] theorem clearStale_pending (b : Block) (s : State) : (clearStale b s).pending = s.pending := rfl
@[simp] theorem clearStale_out (b : Block) (s : State) : (clearStale b s).out = s.out := rfl
@[simp] theorem clearStale_fresh (b : Block) (s : State) : (clearStale b s).fresh = s.fresh := rfl
@[simp] theorem clearStale_ft (b : Block) (s : State) : (clearStale b s).ft = s.ft := rfl
@[simp] theorem clearStale_pins (b : Block) (s : State) : (clearStale b s).pins = s.pins := rfl
@[simp] theorem clearStale_cmp (b : Block) (s : State) : (clearStale b s).cmp = { s.cmp with fences := s.cmp.fences.mod b.code fun f => { f with staleDrops := 0 } } := rfl
@[simp] theorem clearStale_pair (b : Block) (s : State) : (clearStale b s).pair = s.pair := rfl
@[simp] theorem clearStale_mer (b : Block) (s : State) : (clearStale b s).mer = s.mer := rfl
@[simp] theorem clearStale_per (b : Block) (s : State) : (clearStale b s).per = s.per := rfl
@[simp] theorem clearStale_edg (b : Block) (s : State) : (clearStale b s).edg = s.edg := rfl
@[simp] theorem clearStale_lat (b : Block) (s : State) : (clearStale b s).lat = s.lat := rfl
@[simp] theorem clearStale_loc (b : Block) (s : State) : (clearStale b s).loc = s.loc := rfl
@[simp] theorem clearStale_pln (b : Block) (s : State) : (clearStale b s).pln = s.pln := rfl
@[simp] theorem clearStale_fld (b : Block) (s : State) : (clearStale b s).fld = s.fld := rfl
@[simp] theorem clearStale_eng (b : Block) (s : State) : (clearStale b s).eng = s.eng := rfl
@[simp] theorem clearStale_vtx (b : Block) (s : State) : (clearStale b s).vtx = s.vtx := rfl
@[simp] theorem clearStale_chd (b : Block) (s : State) : (clearStale b s).chd = s.chd := rfl
@[simp] theorem clearStale_cone (b : Block) (s : State) : (clearStale b s).cone = s.cone := rfl
@[simp] theorem clearStale_orb (b : Block) (s : State) : (clearStale b s).orb = s.orb := rfl
@[simp] theorem clearStale_apx (b : Block) (s : State) : (clearStale b s).apx = s.apx := rfl
@[simp] theorem clearStale_cen (b : Block) (s : State) : (clearStale b s).cen = s.cen := rfl
@[simp] theorem clearStale_arc (b : Block) (s : State) : (clearStale b s).arc = s.arc := rfl
@[simp] theorem clearStale_mem (b : Block) (s : State) : (clearStale b s).mem = s.mem := rfl

@[simp] theorem emit_pending (o : Out) (s : State) : (emit o s).pending = s.pending := rfl
@[simp] theorem emit_out (o : Out) (s : State) : (emit o s).out = o :: s.out := rfl
@[simp] theorem emit_fresh (o : Out) (s : State) : (emit o s).fresh = s.fresh := rfl
@[simp] theorem emit_ft (o : Out) (s : State) : (emit o s).ft = s.ft := rfl
@[simp] theorem emit_pins (o : Out) (s : State) : (emit o s).pins = s.pins := rfl
@[simp] theorem emit_cmp (o : Out) (s : State) : (emit o s).cmp = s.cmp := rfl
@[simp] theorem emit_pair (o : Out) (s : State) : (emit o s).pair = s.pair := rfl
@[simp] theorem emit_mer (o : Out) (s : State) : (emit o s).mer = s.mer := rfl
@[simp] theorem emit_per (o : Out) (s : State) : (emit o s).per = s.per := rfl
@[simp] theorem emit_edg (o : Out) (s : State) : (emit o s).edg = s.edg := rfl
@[simp] theorem emit_lat (o : Out) (s : State) : (emit o s).lat = s.lat := rfl
@[simp] theorem emit_loc (o : Out) (s : State) : (emit o s).loc = s.loc := rfl
@[simp] theorem emit_pln (o : Out) (s : State) : (emit o s).pln = s.pln := rfl
@[simp] theorem emit_fld (o : Out) (s : State) : (emit o s).fld = s.fld := rfl
@[simp] theorem emit_eng (o : Out) (s : State) : (emit o s).eng = s.eng := rfl
@[simp] theorem emit_vtx (o : Out) (s : State) : (emit o s).vtx = s.vtx := rfl
@[simp] theorem emit_chd (o : Out) (s : State) : (emit o s).chd = s.chd := rfl
@[simp] theorem emit_cone (o : Out) (s : State) : (emit o s).cone = s.cone := rfl
@[simp] theorem emit_orb (o : Out) (s : State) : (emit o s).orb = s.orb := rfl
@[simp] theorem emit_apx (o : Out) (s : State) : (emit o s).apx = s.apx := rfl
@[simp] theorem emit_cen (o : Out) (s : State) : (emit o s).cen = s.cen := rfl
@[simp] theorem emit_arc (o : Out) (s : State) : (emit o s).arc = s.arc := rfl
@[simp] theorem emit_mem (o : Out) (s : State) : (emit o s).mem = s.mem := rfl

@[simp] theorem giveCells_pending (rsv : Bool) (n k : Nat) (s : State) : (giveCells rsv n k s).pending = s.pending := rfl
@[simp] theorem giveCells_out (rsv : Bool) (n k : Nat) (s : State) : (giveCells rsv n k s).out = s.out := rfl
@[simp] theorem giveCells_fresh (rsv : Bool) (n k : Nat) (s : State) : (giveCells rsv n k s).fresh = s.fresh := rfl
@[simp] theorem giveCells_ft (rsv : Bool) (n k : Nat) (s : State) : (giveCells rsv n k s).ft = s.ft := rfl
@[simp] theorem giveCells_pins (rsv : Bool) (n k : Nat) (s : State) : (giveCells rsv n k s).pins = s.pins := rfl
@[simp] theorem giveCells_cmp (rsv : Bool) (n k : Nat) (s : State) : (giveCells rsv n k s).cmp = s.cmp := rfl
@[simp] theorem giveCells_pair (rsv : Bool) (n k : Nat) (s : State) : (giveCells rsv n k s).pair = s.pair := rfl
@[simp] theorem giveCells_mer (rsv : Bool) (n k : Nat) (s : State) : (giveCells rsv n k s).mer = s.mer := rfl
@[simp] theorem giveCells_per (rsv : Bool) (n k : Nat) (s : State) : (giveCells rsv n k s).per = s.per := rfl
@[simp] theorem giveCells_edg (rsv : Bool) (n k : Nat) (s : State) : (giveCells rsv n k s).edg = s.edg := rfl
@[simp] theorem giveCells_lat (rsv : Bool) (n k : Nat) (s : State) : (giveCells rsv n k s).lat = if rsv then { s.lat with internalUsed := s.lat.internalUsed - k } else { s.lat with used := s.lat.used.mod n (· - k) } := rfl
@[simp] theorem giveCells_loc (rsv : Bool) (n k : Nat) (s : State) : (giveCells rsv n k s).loc = s.loc := rfl
@[simp] theorem giveCells_pln (rsv : Bool) (n k : Nat) (s : State) : (giveCells rsv n k s).pln = s.pln := rfl
@[simp] theorem giveCells_fld (rsv : Bool) (n k : Nat) (s : State) : (giveCells rsv n k s).fld = s.fld := rfl
@[simp] theorem giveCells_eng (rsv : Bool) (n k : Nat) (s : State) : (giveCells rsv n k s).eng = s.eng := rfl
@[simp] theorem giveCells_vtx (rsv : Bool) (n k : Nat) (s : State) : (giveCells rsv n k s).vtx = s.vtx := rfl
@[simp] theorem giveCells_chd (rsv : Bool) (n k : Nat) (s : State) : (giveCells rsv n k s).chd = s.chd := rfl
@[simp] theorem giveCells_cone (rsv : Bool) (n k : Nat) (s : State) : (giveCells rsv n k s).cone = s.cone := rfl
@[simp] theorem giveCells_orb (rsv : Bool) (n k : Nat) (s : State) : (giveCells rsv n k s).orb = s.orb := rfl
@[simp] theorem giveCells_apx (rsv : Bool) (n k : Nat) (s : State) : (giveCells rsv n k s).apx = s.apx := rfl
@[simp] theorem giveCells_cen (rsv : Bool) (n k : Nat) (s : State) : (giveCells rsv n k s).cen = s.cen := rfl
@[simp] theorem giveCells_arc (rsv : Bool) (n k : Nat) (s : State) : (giveCells rsv n k s).arc = s.arc := rfl
@[simp] theorem giveCells_mem (rsv : Bool) (n k : Nat) (s : State) : (giveCells rsv n k s).mem = s.mem := rfl

@[simp] theorem modApx_pending (f : Apex → Apex) (s : State) : (modApx f s).pending = s.pending := rfl
@[simp] theorem modApx_out (f : Apex → Apex) (s : State) : (modApx f s).out = s.out := rfl
@[simp] theorem modApx_fresh (f : Apex → Apex) (s : State) : (modApx f s).fresh = s.fresh := rfl
@[simp] theorem modApx_ft (f : Apex → Apex) (s : State) : (modApx f s).ft = s.ft := rfl
@[simp] theorem modApx_pins (f : Apex → Apex) (s : State) : (modApx f s).pins = s.pins := rfl
@[simp] theorem modApx_cmp (f : Apex → Apex) (s : State) : (modApx f s).cmp = s.cmp := rfl
@[simp] theorem modApx_pair (f : Apex → Apex) (s : State) : (modApx f s).pair = s.pair := rfl
@[simp] theorem modApx_mer (f : Apex → Apex) (s : State) : (modApx f s).mer = s.mer := rfl
@[simp] theorem modApx_per (f : Apex → Apex) (s : State) : (modApx f s).per = s.per := rfl
@[simp] theorem modApx_edg (f : Apex → Apex) (s : State) : (modApx f s).edg = s.edg := rfl
@[simp] theorem modApx_lat (f : Apex → Apex) (s : State) : (modApx f s).lat = s.lat := rfl
@[simp] theorem modApx_loc (f : Apex → Apex) (s : State) : (modApx f s).loc = s.loc := rfl
@[simp] theorem modApx_pln (f : Apex → Apex) (s : State) : (modApx f s).pln = s.pln := rfl
@[simp] theorem modApx_fld (f : Apex → Apex) (s : State) : (modApx f s).fld = s.fld := rfl
@[simp] theorem modApx_eng (f : Apex → Apex) (s : State) : (modApx f s).eng = s.eng := rfl
@[simp] theorem modApx_vtx (f : Apex → Apex) (s : State) : (modApx f s).vtx = s.vtx := rfl
@[simp] theorem modApx_chd (f : Apex → Apex) (s : State) : (modApx f s).chd = s.chd := rfl
@[simp] theorem modApx_cone (f : Apex → Apex) (s : State) : (modApx f s).cone = s.cone := rfl
@[simp] theorem modApx_orb (f : Apex → Apex) (s : State) : (modApx f s).orb = s.orb := rfl
@[simp] theorem modApx_apx (f : Apex → Apex) (s : State) : (modApx f s).apx = f s.apx := rfl
@[simp] theorem modApx_cen (f : Apex → Apex) (s : State) : (modApx f s).cen = s.cen := rfl
@[simp] theorem modApx_arc (f : Apex → Apex) (s : State) : (modApx f s).arc = s.arc := rfl
@[simp] theorem modApx_mem (f : Apex → Apex) (s : State) : (modApx f s).mem = s.mem := rfl

@[simp] theorem modArc_pending (f : Arc → Arc) (s : State) : (modArc f s).pending = s.pending := rfl
@[simp] theorem modArc_out (f : Arc → Arc) (s : State) : (modArc f s).out = s.out := rfl
@[simp] theorem modArc_fresh (f : Arc → Arc) (s : State) : (modArc f s).fresh = s.fresh := rfl
@[simp] theorem modArc_ft (f : Arc → Arc) (s : State) : (modArc f s).ft = s.ft := rfl
@[simp] theorem modArc_pins (f : Arc → Arc) (s : State) : (modArc f s).pins = s.pins := rfl
@[simp] theorem modArc_cmp (f : Arc → Arc) (s : State) : (modArc f s).cmp = s.cmp := rfl
@[simp] theorem modArc_pair (f : Arc → Arc) (s : State) : (modArc f s).pair = s.pair := rfl
@[simp] theorem modArc_mer (f : Arc → Arc) (s : State) : (modArc f s).mer = s.mer := rfl
@[simp] theorem modArc_per (f : Arc → Arc) (s : State) : (modArc f s).per = s.per := rfl
@[simp] theorem modArc_edg (f : Arc → Arc) (s : State) : (modArc f s).edg = s.edg := rfl
@[simp] theorem modArc_lat (f : Arc → Arc) (s : State) : (modArc f s).lat = s.lat := rfl
@[simp] theorem modArc_loc (f : Arc → Arc) (s : State) : (modArc f s).loc = s.loc := rfl
@[simp] theorem modArc_pln (f : Arc → Arc) (s : State) : (modArc f s).pln = s.pln := rfl
@[simp] theorem modArc_fld (f : Arc → Arc) (s : State) : (modArc f s).fld = s.fld := rfl
@[simp] theorem modArc_eng (f : Arc → Arc) (s : State) : (modArc f s).eng = s.eng := rfl
@[simp] theorem modArc_vtx (f : Arc → Arc) (s : State) : (modArc f s).vtx = s.vtx := rfl
@[simp] theorem modArc_chd (f : Arc → Arc) (s : State) : (modArc f s).chd = s.chd := rfl
@[simp] theorem modArc_cone (f : Arc → Arc) (s : State) : (modArc f s).cone = s.cone := rfl
@[simp] theorem modArc_orb (f : Arc → Arc) (s : State) : (modArc f s).orb = s.orb := rfl
@[simp] theorem modArc_apx (f : Arc → Arc) (s : State) : (modArc f s).apx = s.apx := rfl
@[simp] theorem modArc_cen (f : Arc → Arc) (s : State) : (modArc f s).cen = s.cen := rfl
@[simp] theorem modArc_arc (f : Arc → Arc) (s : State) : (modArc f s).arc = f s.arc := rfl
@[simp] theorem modArc_mem (f : Arc → Arc) (s : State) : (modArc f s).mem = s.mem := rfl

@[simp] theorem modCen_pending (f : Centroid → Centroid) (s : State) : (modCen f s).pending = s.pending := rfl
@[simp] theorem modCen_out (f : Centroid → Centroid) (s : State) : (modCen f s).out = s.out := rfl
@[simp] theorem modCen_fresh (f : Centroid → Centroid) (s : State) : (modCen f s).fresh = s.fresh := rfl
@[simp] theorem modCen_ft (f : Centroid → Centroid) (s : State) : (modCen f s).ft = s.ft := rfl
@[simp] theorem modCen_pins (f : Centroid → Centroid) (s : State) : (modCen f s).pins = s.pins := rfl
@[simp] theorem modCen_cmp (f : Centroid → Centroid) (s : State) : (modCen f s).cmp = s.cmp := rfl
@[simp] theorem modCen_pair (f : Centroid → Centroid) (s : State) : (modCen f s).pair = s.pair := rfl
@[simp] theorem modCen_mer (f : Centroid → Centroid) (s : State) : (modCen f s).mer = s.mer := rfl
@[simp] theorem modCen_per (f : Centroid → Centroid) (s : State) : (modCen f s).per = s.per := rfl
@[simp] theorem modCen_edg (f : Centroid → Centroid) (s : State) : (modCen f s).edg = s.edg := rfl
@[simp] theorem modCen_lat (f : Centroid → Centroid) (s : State) : (modCen f s).lat = s.lat := rfl
@[simp] theorem modCen_loc (f : Centroid → Centroid) (s : State) : (modCen f s).loc = s.loc := rfl
@[simp] theorem modCen_pln (f : Centroid → Centroid) (s : State) : (modCen f s).pln = s.pln := rfl
@[simp] theorem modCen_fld (f : Centroid → Centroid) (s : State) : (modCen f s).fld = s.fld := rfl
@[simp] theorem modCen_eng (f : Centroid → Centroid) (s : State) : (modCen f s).eng = s.eng := rfl
@[simp] theorem modCen_vtx (f : Centroid → Centroid) (s : State) : (modCen f s).vtx = s.vtx := rfl
@[simp] theorem modCen_chd (f : Centroid → Centroid) (s : State) : (modCen f s).chd = s.chd := rfl
@[simp] theorem modCen_cone (f : Centroid → Centroid) (s : State) : (modCen f s).cone = s.cone := rfl
@[simp] theorem modCen_orb (f : Centroid → Centroid) (s : State) : (modCen f s).orb = s.orb := rfl
@[simp] theorem modCen_apx (f : Centroid → Centroid) (s : State) : (modCen f s).apx = s.apx := rfl
@[simp] theorem modCen_cen (f : Centroid → Centroid) (s : State) : (modCen f s).cen = f s.cen := rfl
@[simp] theorem modCen_arc (f : Centroid → Centroid) (s : State) : (modCen f s).arc = s.arc := rfl
@[simp] theorem modCen_mem (f : Centroid → Centroid) (s : State) : (modCen f s).mem = s.mem := rfl

@[simp] theorem modCmp_pending (f : Compass → Compass) (s : State) : (modCmp f s).pending = s.pending := rfl
@[simp] theorem modCmp_out (f : Compass → Compass) (s : State) : (modCmp f s).out = s.out := rfl
@[simp] theorem modCmp_fresh (f : Compass → Compass) (s : State) : (modCmp f s).fresh = s.fresh := rfl
@[simp] theorem modCmp_ft (f : Compass → Compass) (s : State) : (modCmp f s).ft = s.ft := rfl
@[simp] theorem modCmp_pins (f : Compass → Compass) (s : State) : (modCmp f s).pins = s.pins := rfl
@[simp] theorem modCmp_cmp (f : Compass → Compass) (s : State) : (modCmp f s).cmp = f s.cmp := rfl
@[simp] theorem modCmp_pair (f : Compass → Compass) (s : State) : (modCmp f s).pair = s.pair := rfl
@[simp] theorem modCmp_mer (f : Compass → Compass) (s : State) : (modCmp f s).mer = s.mer := rfl
@[simp] theorem modCmp_per (f : Compass → Compass) (s : State) : (modCmp f s).per = s.per := rfl
@[simp] theorem modCmp_edg (f : Compass → Compass) (s : State) : (modCmp f s).edg = s.edg := rfl
@[simp] theorem modCmp_lat (f : Compass → Compass) (s : State) : (modCmp f s).lat = s.lat := rfl
@[simp] theorem modCmp_loc (f : Compass → Compass) (s : State) : (modCmp f s).loc = s.loc := rfl
@[simp] theorem modCmp_pln (f : Compass → Compass) (s : State) : (modCmp f s).pln = s.pln := rfl
@[simp] theorem modCmp_fld (f : Compass → Compass) (s : State) : (modCmp f s).fld = s.fld := rfl
@[simp] theorem modCmp_eng (f : Compass → Compass) (s : State) : (modCmp f s).eng = s.eng := rfl
@[simp] theorem modCmp_vtx (f : Compass → Compass) (s : State) : (modCmp f s).vtx = s.vtx := rfl
@[simp] theorem modCmp_chd (f : Compass → Compass) (s : State) : (modCmp f s).chd = s.chd := rfl
@[simp] theorem modCmp_cone (f : Compass → Compass) (s : State) : (modCmp f s).cone = s.cone := rfl
@[simp] theorem modCmp_orb (f : Compass → Compass) (s : State) : (modCmp f s).orb = s.orb := rfl
@[simp] theorem modCmp_apx (f : Compass → Compass) (s : State) : (modCmp f s).apx = s.apx := rfl
@[simp] theorem modCmp_cen (f : Compass → Compass) (s : State) : (modCmp f s).cen = s.cen := rfl
@[simp] theorem modCmp_arc (f : Compass → Compass) (s : State) : (modCmp f s).arc = s.arc := rfl
@[simp] theorem modCmp_mem (f : Compass → Compass) (s : State) : (modCmp f s).mem = s.mem := rfl

@[simp] theorem modConeEng_pending (e : Nat) (f : ConeEng → ConeEng) (s : State) : (modConeEng e f s).pending = s.pending := rfl
@[simp] theorem modConeEng_out (e : Nat) (f : ConeEng → ConeEng) (s : State) : (modConeEng e f s).out = s.out := rfl
@[simp] theorem modConeEng_fresh (e : Nat) (f : ConeEng → ConeEng) (s : State) : (modConeEng e f s).fresh = s.fresh := rfl
@[simp] theorem modConeEng_ft (e : Nat) (f : ConeEng → ConeEng) (s : State) : (modConeEng e f s).ft = s.ft := rfl
@[simp] theorem modConeEng_pins (e : Nat) (f : ConeEng → ConeEng) (s : State) : (modConeEng e f s).pins = s.pins := rfl
@[simp] theorem modConeEng_cmp (e : Nat) (f : ConeEng → ConeEng) (s : State) : (modConeEng e f s).cmp = s.cmp := rfl
@[simp] theorem modConeEng_pair (e : Nat) (f : ConeEng → ConeEng) (s : State) : (modConeEng e f s).pair = s.pair := rfl
@[simp] theorem modConeEng_mer (e : Nat) (f : ConeEng → ConeEng) (s : State) : (modConeEng e f s).mer = s.mer := rfl
@[simp] theorem modConeEng_per (e : Nat) (f : ConeEng → ConeEng) (s : State) : (modConeEng e f s).per = s.per := rfl
@[simp] theorem modConeEng_edg (e : Nat) (f : ConeEng → ConeEng) (s : State) : (modConeEng e f s).edg = s.edg := rfl
@[simp] theorem modConeEng_lat (e : Nat) (f : ConeEng → ConeEng) (s : State) : (modConeEng e f s).lat = s.lat := rfl
@[simp] theorem modConeEng_loc (e : Nat) (f : ConeEng → ConeEng) (s : State) : (modConeEng e f s).loc = s.loc := rfl
@[simp] theorem modConeEng_pln (e : Nat) (f : ConeEng → ConeEng) (s : State) : (modConeEng e f s).pln = s.pln := rfl
@[simp] theorem modConeEng_fld (e : Nat) (f : ConeEng → ConeEng) (s : State) : (modConeEng e f s).fld = s.fld := rfl
@[simp] theorem modConeEng_eng (e : Nat) (f : ConeEng → ConeEng) (s : State) : (modConeEng e f s).eng = s.eng := rfl
@[simp] theorem modConeEng_vtx (e : Nat) (f : ConeEng → ConeEng) (s : State) : (modConeEng e f s).vtx = s.vtx := rfl
@[simp] theorem modConeEng_chd (e : Nat) (f : ConeEng → ConeEng) (s : State) : (modConeEng e f s).chd = s.chd := rfl
@[simp] theorem modConeEng_cone (e : Nat) (f : ConeEng → ConeEng) (s : State) : (modConeEng e f s).cone = { s.cone with engs := s.cone.engs.mod e f } := rfl
@[simp] theorem modConeEng_orb (e : Nat) (f : ConeEng → ConeEng) (s : State) : (modConeEng e f s).orb = s.orb := rfl
@[simp] theorem modConeEng_apx (e : Nat) (f : ConeEng → ConeEng) (s : State) : (modConeEng e f s).apx = s.apx := rfl
@[simp] theorem modConeEng_cen (e : Nat) (f : ConeEng → ConeEng) (s : State) : (modConeEng e f s).cen = s.cen := rfl
@[simp] theorem modConeEng_arc (e : Nat) (f : ConeEng → ConeEng) (s : State) : (modConeEng e f s).arc = s.arc := rfl
@[simp] theorem modConeEng_mem (e : Nat) (f : ConeEng → ConeEng) (s : State) : (modConeEng e f s).mem = s.mem := rfl

@[simp] theorem modConeStat_pending (n : Nat) (f : ConeStat → ConeStat) (s : State) : (modConeStat n f s).pending = s.pending := rfl
@[simp] theorem modConeStat_out (n : Nat) (f : ConeStat → ConeStat) (s : State) : (modConeStat n f s).out = s.out := rfl
@[simp] theorem modConeStat_fresh (n : Nat) (f : ConeStat → ConeStat) (s : State) : (modConeStat n f s).fresh = s.fresh := rfl
@[simp] theorem modConeStat_ft (n : Nat) (f : ConeStat → ConeStat) (s : State) : (modConeStat n f s).ft = s.ft := rfl
@[simp] theorem modConeStat_pins (n : Nat) (f : ConeStat → ConeStat) (s : State) : (modConeStat n f s).pins = s.pins := rfl
@[simp] theorem modConeStat_cmp (n : Nat) (f : ConeStat → ConeStat) (s : State) : (modConeStat n f s).cmp = s.cmp := rfl
@[simp] theorem modConeStat_pair (n : Nat) (f : ConeStat → ConeStat) (s : State) : (modConeStat n f s).pair = s.pair := rfl
@[simp] theorem modConeStat_mer (n : Nat) (f : ConeStat → ConeStat) (s : State) : (modConeStat n f s).mer = s.mer := rfl
@[simp] theorem modConeStat_per (n : Nat) (f : ConeStat → ConeStat) (s : State) : (modConeStat n f s).per = s.per := rfl
@[simp] theorem modConeStat_edg (n : Nat) (f : ConeStat → ConeStat) (s : State) : (modConeStat n f s).edg = s.edg := rfl
@[simp] theorem modConeStat_lat (n : Nat) (f : ConeStat → ConeStat) (s : State) : (modConeStat n f s).lat = s.lat := rfl
@[simp] theorem modConeStat_loc (n : Nat) (f : ConeStat → ConeStat) (s : State) : (modConeStat n f s).loc = s.loc := rfl
@[simp] theorem modConeStat_pln (n : Nat) (f : ConeStat → ConeStat) (s : State) : (modConeStat n f s).pln = s.pln := rfl
@[simp] theorem modConeStat_fld (n : Nat) (f : ConeStat → ConeStat) (s : State) : (modConeStat n f s).fld = s.fld := rfl
@[simp] theorem modConeStat_eng (n : Nat) (f : ConeStat → ConeStat) (s : State) : (modConeStat n f s).eng = s.eng := rfl
@[simp] theorem modConeStat_vtx (n : Nat) (f : ConeStat → ConeStat) (s : State) : (modConeStat n f s).vtx = s.vtx := rfl
@[simp] theorem modConeStat_chd (n : Nat) (f : ConeStat → ConeStat) (s : State) : (modConeStat n f s).chd = s.chd := rfl
@[simp] theorem modConeStat_cone (n : Nat) (f : ConeStat → ConeStat) (s : State) : (modConeStat n f s).cone = { s.cone with stats := s.cone.stats.mod n f } := rfl
@[simp] theorem modConeStat_orb (n : Nat) (f : ConeStat → ConeStat) (s : State) : (modConeStat n f s).orb = s.orb := rfl
@[simp] theorem modConeStat_apx (n : Nat) (f : ConeStat → ConeStat) (s : State) : (modConeStat n f s).apx = s.apx := rfl
@[simp] theorem modConeStat_cen (n : Nat) (f : ConeStat → ConeStat) (s : State) : (modConeStat n f s).cen = s.cen := rfl
@[simp] theorem modConeStat_arc (n : Nat) (f : ConeStat → ConeStat) (s : State) : (modConeStat n f s).arc = s.arc := rfl
@[simp] theorem modConeStat_mem (n : Nat) (f : ConeStat → ConeStat) (s : State) : (modConeStat n f s).mem = s.mem := rfl

@[simp] theorem modEdge_pending (f : Edge → Edge) (s : State) : (modEdge f s).pending = s.pending := rfl
@[simp] theorem modEdge_out (f : Edge → Edge) (s : State) : (modEdge f s).out = s.out := rfl
@[simp] theorem modEdge_fresh (f : Edge → Edge) (s : State) : (modEdge f s).fresh = s.fresh := rfl
@[simp] theorem modEdge_ft (f : Edge → Edge) (s : State) : (modEdge f s).ft = s.ft := rfl
@[simp] theorem modEdge_pins (f : Edge → Edge) (s : State) : (modEdge f s).pins = s.pins := rfl
@[simp] theorem modEdge_cmp (f : Edge → Edge) (s : State) : (modEdge f s).cmp = s.cmp := rfl
@[simp] theorem modEdge_pair (f : Edge → Edge) (s : State) : (modEdge f s).pair = s.pair := rfl
@[simp] theorem modEdge_mer (f : Edge → Edge) (s : State) : (modEdge f s).mer = s.mer := rfl
@[simp] theorem modEdge_per (f : Edge → Edge) (s : State) : (modEdge f s).per = s.per := rfl
@[simp] theorem modEdge_edg (f : Edge → Edge) (s : State) : (modEdge f s).edg = f s.edg := rfl
@[simp] theorem modEdge_lat (f : Edge → Edge) (s : State) : (modEdge f s).lat = s.lat := rfl
@[simp] theorem modEdge_loc (f : Edge → Edge) (s : State) : (modEdge f s).loc = s.loc := rfl
@[simp] theorem modEdge_pln (f : Edge → Edge) (s : State) : (modEdge f s).pln = s.pln := rfl
@[simp] theorem modEdge_fld (f : Edge → Edge) (s : State) : (modEdge f s).fld = s.fld := rfl
@[simp] theorem modEdge_eng (f : Edge → Edge) (s : State) : (modEdge f s).eng = s.eng := rfl
@[simp] theorem modEdge_vtx (f : Edge → Edge) (s : State) : (modEdge f s).vtx = s.vtx := rfl
@[simp] theorem modEdge_chd (f : Edge → Edge) (s : State) : (modEdge f s).chd = s.chd := rfl
@[simp] theorem modEdge_cone (f : Edge → Edge) (s : State) : (modEdge f s).cone = s.cone := rfl
@[simp] theorem modEdge_orb (f : Edge → Edge) (s : State) : (modEdge f s).orb = s.orb := rfl
@[simp] theorem modEdge_apx (f : Edge → Edge) (s : State) : (modEdge f s).apx = s.apx := rfl
@[simp] theorem modEdge_cen (f : Edge → Edge) (s : State) : (modEdge f s).cen = s.cen := rfl
@[simp] theorem modEdge_arc (f : Edge → Edge) (s : State) : (modEdge f s).arc = s.arc := rfl
@[simp] theorem modEdge_mem (f : Edge → Edge) (s : State) : (modEdge f s).mem = s.mem := rfl

@[simp] theorem modEnergy_pending (f : Energy → Energy) (s : State) : (modEnergy f s).pending = s.pending := rfl
@[simp] theorem modEnergy_out (f : Energy → Energy) (s : State) : (modEnergy f s).out = s.out := rfl
@[simp] theorem modEnergy_fresh (f : Energy → Energy) (s : State) : (modEnergy f s).fresh = s.fresh := rfl
@[simp] theorem modEnergy_ft (f : Energy → Energy) (s : State) : (modEnergy f s).ft = s.ft := rfl
@[simp] theorem modEnergy_pins (f : Energy → Energy) (s : State) : (modEnergy f s).pins = s.pins := rfl
@[simp] theorem modEnergy_cmp (f : Energy → Energy) (s : State) : (modEnergy f s).cmp = { s.cmp with energy := f s.cmp.energy } := rfl
@[simp] theorem modEnergy_pair (f : Energy → Energy) (s : State) : (modEnergy f s).pair = s.pair := rfl
@[simp] theorem modEnergy_mer (f : Energy → Energy) (s : State) : (modEnergy f s).mer = s.mer := rfl
@[simp] theorem modEnergy_per (f : Energy → Energy) (s : State) : (modEnergy f s).per = s.per := rfl
@[simp] theorem modEnergy_edg (f : Energy → Energy) (s : State) : (modEnergy f s).edg = s.edg := rfl
@[simp] theorem modEnergy_lat (f : Energy → Energy) (s : State) : (modEnergy f s).lat = s.lat := rfl
@[simp] theorem modEnergy_loc (f : Energy → Energy) (s : State) : (modEnergy f s).loc = s.loc := rfl
@[simp] theorem modEnergy_pln (f : Energy → Energy) (s : State) : (modEnergy f s).pln = s.pln := rfl
@[simp] theorem modEnergy_fld (f : Energy → Energy) (s : State) : (modEnergy f s).fld = s.fld := rfl
@[simp] theorem modEnergy_eng (f : Energy → Energy) (s : State) : (modEnergy f s).eng = s.eng := rfl
@[simp] theorem modEnergy_vtx (f : Energy → Energy) (s : State) : (modEnergy f s).vtx = s.vtx := rfl
@[simp] theorem modEnergy_chd (f : Energy → Energy) (s : State) : (modEnergy f s).chd = s.chd := rfl
@[simp] theorem modEnergy_cone (f : Energy → Energy) (s : State) : (modEnergy f s).cone = s.cone := rfl
@[simp] theorem modEnergy_orb (f : Energy → Energy) (s : State) : (modEnergy f s).orb = s.orb := rfl
@[simp] theorem modEnergy_apx (f : Energy → Energy) (s : State) : (modEnergy f s).apx = s.apx := rfl
@[simp] theorem modEnergy_cen (f : Energy → Energy) (s : State) : (modEnergy f s).cen = s.cen := rfl
@[simp] theorem modEnergy_arc (f : Energy → Energy) (s : State) : (modEnergy f s).arc = s.arc := rfl
@[simp] theorem modEnergy_mem (f : Energy → Energy) (s : State) : (modEnergy f s).mem = s.mem := rfl

@[simp] theorem modFence_pending (b : Block) (f : Fence → Fence) (s : State) : (modFence b f s).pending = s.pending := rfl
@[simp] theorem modFence_out (b : Block) (f : Fence → Fence) (s : State) : (modFence b f s).out = s.out := rfl
@[simp] theorem modFence_fresh (b : Block) (f : Fence → Fence) (s : State) : (modFence b f s).fresh = s.fresh := rfl
@[simp] theorem modFence_ft (b : Block) (f : Fence → Fence) (s : State) : (modFence b f s).ft = s.ft := rfl
@[simp] theorem modFence_pins (b : Block) (f : Fence → Fence) (s : State) : (modFence b f s).pins = s.pins := rfl
@[simp] theorem modFence_cmp (b : Block) (f : Fence → Fence) (s : State) : (modFence b f s).cmp = { s.cmp with fences := s.cmp.fences.mod b.code f } := rfl
@[simp] theorem modFence_pair (b : Block) (f : Fence → Fence) (s : State) : (modFence b f s).pair = s.pair := rfl
@[simp] theorem modFence_mer (b : Block) (f : Fence → Fence) (s : State) : (modFence b f s).mer = s.mer := rfl
@[simp] theorem modFence_per (b : Block) (f : Fence → Fence) (s : State) : (modFence b f s).per = s.per := rfl
@[simp] theorem modFence_edg (b : Block) (f : Fence → Fence) (s : State) : (modFence b f s).edg = s.edg := rfl
@[simp] theorem modFence_lat (b : Block) (f : Fence → Fence) (s : State) : (modFence b f s).lat = s.lat := rfl
@[simp] theorem modFence_loc (b : Block) (f : Fence → Fence) (s : State) : (modFence b f s).loc = s.loc := rfl
@[simp] theorem modFence_pln (b : Block) (f : Fence → Fence) (s : State) : (modFence b f s).pln = s.pln := rfl
@[simp] theorem modFence_fld (b : Block) (f : Fence → Fence) (s : State) : (modFence b f s).fld = s.fld := rfl
@[simp] theorem modFence_eng (b : Block) (f : Fence → Fence) (s : State) : (modFence b f s).eng = s.eng := rfl
@[simp] theorem modFence_vtx (b : Block) (f : Fence → Fence) (s : State) : (modFence b f s).vtx = s.vtx := rfl
@[simp] theorem modFence_chd (b : Block) (f : Fence → Fence) (s : State) : (modFence b f s).chd = s.chd := rfl
@[simp] theorem modFence_cone (b : Block) (f : Fence → Fence) (s : State) : (modFence b f s).cone = s.cone := rfl
@[simp] theorem modFence_orb (b : Block) (f : Fence → Fence) (s : State) : (modFence b f s).orb = s.orb := rfl
@[simp] theorem modFence_apx (b : Block) (f : Fence → Fence) (s : State) : (modFence b f s).apx = s.apx := rfl
@[simp] theorem modFence_cen (b : Block) (f : Fence → Fence) (s : State) : (modFence b f s).cen = s.cen := rfl
@[simp] theorem modFence_arc (b : Block) (f : Fence → Fence) (s : State) : (modFence b f s).arc = s.arc := rfl
@[simp] theorem modFence_mem (b : Block) (f : Fence → Fence) (s : State) : (modFence b f s).mem = s.mem := rfl

@[simp] theorem modFld_pending (n : Nat) (f : FldStat → FldStat) (s : State) : (modFld n f s).pending = s.pending := rfl
@[simp] theorem modFld_out (n : Nat) (f : FldStat → FldStat) (s : State) : (modFld n f s).out = s.out := rfl
@[simp] theorem modFld_fresh (n : Nat) (f : FldStat → FldStat) (s : State) : (modFld n f s).fresh = s.fresh := rfl
@[simp] theorem modFld_ft (n : Nat) (f : FldStat → FldStat) (s : State) : (modFld n f s).ft = s.ft := rfl
@[simp] theorem modFld_pins (n : Nat) (f : FldStat → FldStat) (s : State) : (modFld n f s).pins = s.pins := rfl
@[simp] theorem modFld_cmp (n : Nat) (f : FldStat → FldStat) (s : State) : (modFld n f s).cmp = s.cmp := rfl
@[simp] theorem modFld_pair (n : Nat) (f : FldStat → FldStat) (s : State) : (modFld n f s).pair = s.pair := rfl
@[simp] theorem modFld_mer (n : Nat) (f : FldStat → FldStat) (s : State) : (modFld n f s).mer = s.mer := rfl
@[simp] theorem modFld_per (n : Nat) (f : FldStat → FldStat) (s : State) : (modFld n f s).per = s.per := rfl
@[simp] theorem modFld_edg (n : Nat) (f : FldStat → FldStat) (s : State) : (modFld n f s).edg = s.edg := rfl
@[simp] theorem modFld_lat (n : Nat) (f : FldStat → FldStat) (s : State) : (modFld n f s).lat = s.lat := rfl
@[simp] theorem modFld_loc (n : Nat) (f : FldStat → FldStat) (s : State) : (modFld n f s).loc = s.loc := rfl
@[simp] theorem modFld_pln (n : Nat) (f : FldStat → FldStat) (s : State) : (modFld n f s).pln = s.pln := rfl
@[simp] theorem modFld_fld (n : Nat) (f : FldStat → FldStat) (s : State) : (modFld n f s).fld = { s.fld with parts := s.fld.parts.mod n f } := rfl
@[simp] theorem modFld_eng (n : Nat) (f : FldStat → FldStat) (s : State) : (modFld n f s).eng = s.eng := rfl
@[simp] theorem modFld_vtx (n : Nat) (f : FldStat → FldStat) (s : State) : (modFld n f s).vtx = s.vtx := rfl
@[simp] theorem modFld_chd (n : Nat) (f : FldStat → FldStat) (s : State) : (modFld n f s).chd = s.chd := rfl
@[simp] theorem modFld_cone (n : Nat) (f : FldStat → FldStat) (s : State) : (modFld n f s).cone = s.cone := rfl
@[simp] theorem modFld_orb (n : Nat) (f : FldStat → FldStat) (s : State) : (modFld n f s).orb = s.orb := rfl
@[simp] theorem modFld_apx (n : Nat) (f : FldStat → FldStat) (s : State) : (modFld n f s).apx = s.apx := rfl
@[simp] theorem modFld_cen (n : Nat) (f : FldStat → FldStat) (s : State) : (modFld n f s).cen = s.cen := rfl
@[simp] theorem modFld_arc (n : Nat) (f : FldStat → FldStat) (s : State) : (modFld n f s).arc = s.arc := rfl
@[simp] theorem modFld_mem (n : Nat) (f : FldStat → FldStat) (s : State) : (modFld n f s).mem = s.mem := rfl

@[simp] theorem modLoc_pending (f : Locus → Locus) (s : State) : (modLoc f s).pending = s.pending := rfl
@[simp] theorem modLoc_out (f : Locus → Locus) (s : State) : (modLoc f s).out = s.out := rfl
@[simp] theorem modLoc_fresh (f : Locus → Locus) (s : State) : (modLoc f s).fresh = s.fresh := rfl
@[simp] theorem modLoc_ft (f : Locus → Locus) (s : State) : (modLoc f s).ft = s.ft := rfl
@[simp] theorem modLoc_pins (f : Locus → Locus) (s : State) : (modLoc f s).pins = s.pins := rfl
@[simp] theorem modLoc_cmp (f : Locus → Locus) (s : State) : (modLoc f s).cmp = s.cmp := rfl
@[simp] theorem modLoc_pair (f : Locus → Locus) (s : State) : (modLoc f s).pair = s.pair := rfl
@[simp] theorem modLoc_mer (f : Locus → Locus) (s : State) : (modLoc f s).mer = s.mer := rfl
@[simp] theorem modLoc_per (f : Locus → Locus) (s : State) : (modLoc f s).per = s.per := rfl
@[simp] theorem modLoc_edg (f : Locus → Locus) (s : State) : (modLoc f s).edg = s.edg := rfl
@[simp] theorem modLoc_lat (f : Locus → Locus) (s : State) : (modLoc f s).lat = s.lat := rfl
@[simp] theorem modLoc_loc (f : Locus → Locus) (s : State) : (modLoc f s).loc = f s.loc := rfl
@[simp] theorem modLoc_pln (f : Locus → Locus) (s : State) : (modLoc f s).pln = s.pln := rfl
@[simp] theorem modLoc_fld (f : Locus → Locus) (s : State) : (modLoc f s).fld = s.fld := rfl
@[simp] theorem modLoc_eng (f : Locus → Locus) (s : State) : (modLoc f s).eng = s.eng := rfl
@[simp] theorem modLoc_vtx (f : Locus → Locus) (s : State) : (modLoc f s).vtx = s.vtx := rfl
@[simp] theorem modLoc_chd (f : Locus → Locus) (s : State) : (modLoc f s).chd = s.chd := rfl
@[simp] theorem modLoc_cone (f : Locus → Locus) (s : State) : (modLoc f s).cone = s.cone := rfl
@[simp] theorem modLoc_orb (f : Locus → Locus) (s : State) : (modLoc f s).orb = s.orb := rfl
@[simp] theorem modLoc_apx (f : Locus → Locus) (s : State) : (modLoc f s).apx = s.apx := rfl
@[simp] theorem modLoc_cen (f : Locus → Locus) (s : State) : (modLoc f s).cen = s.cen := rfl
@[simp] theorem modLoc_arc (f : Locus → Locus) (s : State) : (modLoc f s).arc = s.arc := rfl
@[simp] theorem modLoc_mem (f : Locus → Locus) (s : State) : (modLoc f s).mem = s.mem := rfl

@[simp] theorem modMer_pending (f : Meridian → Meridian) (s : State) : (modMer f s).pending = s.pending := rfl
@[simp] theorem modMer_out (f : Meridian → Meridian) (s : State) : (modMer f s).out = s.out := rfl
@[simp] theorem modMer_fresh (f : Meridian → Meridian) (s : State) : (modMer f s).fresh = s.fresh := rfl
@[simp] theorem modMer_ft (f : Meridian → Meridian) (s : State) : (modMer f s).ft = s.ft := rfl
@[simp] theorem modMer_pins (f : Meridian → Meridian) (s : State) : (modMer f s).pins = s.pins := rfl
@[simp] theorem modMer_cmp (f : Meridian → Meridian) (s : State) : (modMer f s).cmp = s.cmp := rfl
@[simp] theorem modMer_pair (f : Meridian → Meridian) (s : State) : (modMer f s).pair = s.pair := rfl
@[simp] theorem modMer_mer (f : Meridian → Meridian) (s : State) : (modMer f s).mer = f s.mer := rfl
@[simp] theorem modMer_per (f : Meridian → Meridian) (s : State) : (modMer f s).per = s.per := rfl
@[simp] theorem modMer_edg (f : Meridian → Meridian) (s : State) : (modMer f s).edg = s.edg := rfl
@[simp] theorem modMer_lat (f : Meridian → Meridian) (s : State) : (modMer f s).lat = s.lat := rfl
@[simp] theorem modMer_loc (f : Meridian → Meridian) (s : State) : (modMer f s).loc = s.loc := rfl
@[simp] theorem modMer_pln (f : Meridian → Meridian) (s : State) : (modMer f s).pln = s.pln := rfl
@[simp] theorem modMer_fld (f : Meridian → Meridian) (s : State) : (modMer f s).fld = s.fld := rfl
@[simp] theorem modMer_eng (f : Meridian → Meridian) (s : State) : (modMer f s).eng = s.eng := rfl
@[simp] theorem modMer_vtx (f : Meridian → Meridian) (s : State) : (modMer f s).vtx = s.vtx := rfl
@[simp] theorem modMer_chd (f : Meridian → Meridian) (s : State) : (modMer f s).chd = s.chd := rfl
@[simp] theorem modMer_cone (f : Meridian → Meridian) (s : State) : (modMer f s).cone = s.cone := rfl
@[simp] theorem modMer_orb (f : Meridian → Meridian) (s : State) : (modMer f s).orb = s.orb := rfl
@[simp] theorem modMer_apx (f : Meridian → Meridian) (s : State) : (modMer f s).apx = s.apx := rfl
@[simp] theorem modMer_cen (f : Meridian → Meridian) (s : State) : (modMer f s).cen = s.cen := rfl
@[simp] theorem modMer_arc (f : Meridian → Meridian) (s : State) : (modMer f s).arc = s.arc := rfl
@[simp] theorem modMer_mem (f : Meridian → Meridian) (s : State) : (modMer f s).mem = s.mem := rfl

@[simp] theorem modOrb_pending (f : Orbit → Orbit) (s : State) : (modOrb f s).pending = s.pending := rfl
@[simp] theorem modOrb_out (f : Orbit → Orbit) (s : State) : (modOrb f s).out = s.out := rfl
@[simp] theorem modOrb_fresh (f : Orbit → Orbit) (s : State) : (modOrb f s).fresh = s.fresh := rfl
@[simp] theorem modOrb_ft (f : Orbit → Orbit) (s : State) : (modOrb f s).ft = s.ft := rfl
@[simp] theorem modOrb_pins (f : Orbit → Orbit) (s : State) : (modOrb f s).pins = s.pins := rfl
@[simp] theorem modOrb_cmp (f : Orbit → Orbit) (s : State) : (modOrb f s).cmp = s.cmp := rfl
@[simp] theorem modOrb_pair (f : Orbit → Orbit) (s : State) : (modOrb f s).pair = s.pair := rfl
@[simp] theorem modOrb_mer (f : Orbit → Orbit) (s : State) : (modOrb f s).mer = s.mer := rfl
@[simp] theorem modOrb_per (f : Orbit → Orbit) (s : State) : (modOrb f s).per = s.per := rfl
@[simp] theorem modOrb_edg (f : Orbit → Orbit) (s : State) : (modOrb f s).edg = s.edg := rfl
@[simp] theorem modOrb_lat (f : Orbit → Orbit) (s : State) : (modOrb f s).lat = s.lat := rfl
@[simp] theorem modOrb_loc (f : Orbit → Orbit) (s : State) : (modOrb f s).loc = s.loc := rfl
@[simp] theorem modOrb_pln (f : Orbit → Orbit) (s : State) : (modOrb f s).pln = s.pln := rfl
@[simp] theorem modOrb_fld (f : Orbit → Orbit) (s : State) : (modOrb f s).fld = s.fld := rfl
@[simp] theorem modOrb_eng (f : Orbit → Orbit) (s : State) : (modOrb f s).eng = s.eng := rfl
@[simp] theorem modOrb_vtx (f : Orbit → Orbit) (s : State) : (modOrb f s).vtx = s.vtx := rfl
@[simp] theorem modOrb_chd (f : Orbit → Orbit) (s : State) : (modOrb f s).chd = s.chd := rfl
@[simp] theorem modOrb_cone (f : Orbit → Orbit) (s : State) : (modOrb f s).cone = s.cone := rfl
@[simp] theorem modOrb_orb (f : Orbit → Orbit) (s : State) : (modOrb f s).orb = f s.orb := rfl
@[simp] theorem modOrb_apx (f : Orbit → Orbit) (s : State) : (modOrb f s).apx = s.apx := rfl
@[simp] theorem modOrb_cen (f : Orbit → Orbit) (s : State) : (modOrb f s).cen = s.cen := rfl
@[simp] theorem modOrb_arc (f : Orbit → Orbit) (s : State) : (modOrb f s).arc = s.arc := rfl
@[simp] theorem modOrb_mem (f : Orbit → Orbit) (s : State) : (modOrb f s).mem = s.mem := rfl

@[simp] theorem modPair_pending (f : Pair → Pair) (s : State) : (modPair f s).pending = s.pending := rfl
@[simp] theorem modPair_out (f : Pair → Pair) (s : State) : (modPair f s).out = s.out := rfl
@[simp] theorem modPair_fresh (f : Pair → Pair) (s : State) : (modPair f s).fresh = s.fresh := rfl
@[simp] theorem modPair_ft (f : Pair → Pair) (s : State) : (modPair f s).ft = s.ft := rfl
@[simp] theorem modPair_pins (f : Pair → Pair) (s : State) : (modPair f s).pins = s.pins := rfl
@[simp] theorem modPair_cmp (f : Pair → Pair) (s : State) : (modPair f s).cmp = s.cmp := rfl
@[simp] theorem modPair_pair (f : Pair → Pair) (s : State) : (modPair f s).pair = f s.pair := rfl
@[simp] theorem modPair_mer (f : Pair → Pair) (s : State) : (modPair f s).mer = s.mer := rfl
@[simp] theorem modPair_per (f : Pair → Pair) (s : State) : (modPair f s).per = s.per := rfl
@[simp] theorem modPair_edg (f : Pair → Pair) (s : State) : (modPair f s).edg = s.edg := rfl
@[simp] theorem modPair_lat (f : Pair → Pair) (s : State) : (modPair f s).lat = s.lat := rfl
@[simp] theorem modPair_loc (f : Pair → Pair) (s : State) : (modPair f s).loc = s.loc := rfl
@[simp] theorem modPair_pln (f : Pair → Pair) (s : State) : (modPair f s).pln = s.pln := rfl
@[simp] theorem modPair_fld (f : Pair → Pair) (s : State) : (modPair f s).fld = s.fld := rfl
@[simp] theorem modPair_eng (f : Pair → Pair) (s : State) : (modPair f s).eng = s.eng := rfl
@[simp] theorem modPair_vtx (f : Pair → Pair) (s : State) : (modPair f s).vtx = s.vtx := rfl
@[simp] theorem modPair_chd (f : Pair → Pair) (s : State) : (modPair f s).chd = s.chd := rfl
@[simp] theorem modPair_cone (f : Pair → Pair) (s : State) : (modPair f s).cone = s.cone := rfl
@[simp] theorem modPair_orb (f : Pair → Pair) (s : State) : (modPair f s).orb = s.orb := rfl
@[simp] theorem modPair_apx (f : Pair → Pair) (s : State) : (modPair f s).apx = s.apx := rfl
@[simp] theorem modPair_cen (f : Pair → Pair) (s : State) : (modPair f s).cen = s.cen := rfl
@[simp] theorem modPair_arc (f : Pair → Pair) (s : State) : (modPair f s).arc = s.arc := rfl
@[simp] theorem modPair_mem (f : Pair → Pair) (s : State) : (modPair f s).mem = s.mem := rfl

@[simp] theorem modPer_pending (f : Perimeter → Perimeter) (s : State) : (modPer f s).pending = s.pending := rfl
@[simp] theorem modPer_out (f : Perimeter → Perimeter) (s : State) : (modPer f s).out = s.out := rfl
@[simp] theorem modPer_fresh (f : Perimeter → Perimeter) (s : State) : (modPer f s).fresh = s.fresh := rfl
@[simp] theorem modPer_ft (f : Perimeter → Perimeter) (s : State) : (modPer f s).ft = s.ft := rfl
@[simp] theorem modPer_pins (f : Perimeter → Perimeter) (s : State) : (modPer f s).pins = s.pins := rfl
@[simp] theorem modPer_cmp (f : Perimeter → Perimeter) (s : State) : (modPer f s).cmp = s.cmp := rfl
@[simp] theorem modPer_pair (f : Perimeter → Perimeter) (s : State) : (modPer f s).pair = s.pair := rfl
@[simp] theorem modPer_mer (f : Perimeter → Perimeter) (s : State) : (modPer f s).mer = s.mer := rfl
@[simp] theorem modPer_per (f : Perimeter → Perimeter) (s : State) : (modPer f s).per = f s.per := rfl
@[simp] theorem modPer_edg (f : Perimeter → Perimeter) (s : State) : (modPer f s).edg = s.edg := rfl
@[simp] theorem modPer_lat (f : Perimeter → Perimeter) (s : State) : (modPer f s).lat = s.lat := rfl
@[simp] theorem modPer_loc (f : Perimeter → Perimeter) (s : State) : (modPer f s).loc = s.loc := rfl
@[simp] theorem modPer_pln (f : Perimeter → Perimeter) (s : State) : (modPer f s).pln = s.pln := rfl
@[simp] theorem modPer_fld (f : Perimeter → Perimeter) (s : State) : (modPer f s).fld = s.fld := rfl
@[simp] theorem modPer_eng (f : Perimeter → Perimeter) (s : State) : (modPer f s).eng = s.eng := rfl
@[simp] theorem modPer_vtx (f : Perimeter → Perimeter) (s : State) : (modPer f s).vtx = s.vtx := rfl
@[simp] theorem modPer_chd (f : Perimeter → Perimeter) (s : State) : (modPer f s).chd = s.chd := rfl
@[simp] theorem modPer_cone (f : Perimeter → Perimeter) (s : State) : (modPer f s).cone = s.cone := rfl
@[simp] theorem modPer_orb (f : Perimeter → Perimeter) (s : State) : (modPer f s).orb = s.orb := rfl
@[simp] theorem modPer_apx (f : Perimeter → Perimeter) (s : State) : (modPer f s).apx = s.apx := rfl
@[simp] theorem modPer_cen (f : Perimeter → Perimeter) (s : State) : (modPer f s).cen = s.cen := rfl
@[simp] theorem modPer_arc (f : Perimeter → Perimeter) (s : State) : (modPer f s).arc = s.arc := rfl
@[simp] theorem modPer_mem (f : Perimeter → Perimeter) (s : State) : (modPer f s).mem = s.mem := rfl

@[simp] theorem modPf_pending (n : Nat) (f : PfStat → PfStat) (s : State) : (modPf n f s).pending = s.pending := rfl
@[simp] theorem modPf_out (n : Nat) (f : PfStat → PfStat) (s : State) : (modPf n f s).out = s.out := rfl
@[simp] theorem modPf_fresh (n : Nat) (f : PfStat → PfStat) (s : State) : (modPf n f s).fresh = s.fresh := rfl
@[simp] theorem modPf_ft (n : Nat) (f : PfStat → PfStat) (s : State) : (modPf n f s).ft = s.ft := rfl
@[simp] theorem modPf_pins (n : Nat) (f : PfStat → PfStat) (s : State) : (modPf n f s).pins = s.pins := rfl
@[simp] theorem modPf_cmp (n : Nat) (f : PfStat → PfStat) (s : State) : (modPf n f s).cmp = s.cmp := rfl
@[simp] theorem modPf_pair (n : Nat) (f : PfStat → PfStat) (s : State) : (modPf n f s).pair = s.pair := rfl
@[simp] theorem modPf_mer (n : Nat) (f : PfStat → PfStat) (s : State) : (modPf n f s).mer = s.mer := rfl
@[simp] theorem modPf_per (n : Nat) (f : PfStat → PfStat) (s : State) : (modPf n f s).per = s.per := rfl
@[simp] theorem modPf_edg (n : Nat) (f : PfStat → PfStat) (s : State) : (modPf n f s).edg = s.edg := rfl
@[simp] theorem modPf_lat (n : Nat) (f : PfStat → PfStat) (s : State) : (modPf n f s).lat = s.lat := rfl
@[simp] theorem modPf_loc (n : Nat) (f : PfStat → PfStat) (s : State) : (modPf n f s).loc = s.loc := rfl
@[simp] theorem modPf_pln (n : Nat) (f : PfStat → PfStat) (s : State) : (modPf n f s).pln = { s.pln with pf := s.pln.pf.mod n f } := rfl
@[simp] theorem modPf_fld (n : Nat) (f : PfStat → PfStat) (s : State) : (modPf n f s).fld = s.fld := rfl
@[simp] theorem modPf_eng (n : Nat) (f : PfStat → PfStat) (s : State) : (modPf n f s).eng = s.eng := rfl
@[simp] theorem modPf_vtx (n : Nat) (f : PfStat → PfStat) (s : State) : (modPf n f s).vtx = s.vtx := rfl
@[simp] theorem modPf_chd (n : Nat) (f : PfStat → PfStat) (s : State) : (modPf n f s).chd = s.chd := rfl
@[simp] theorem modPf_cone (n : Nat) (f : PfStat → PfStat) (s : State) : (modPf n f s).cone = s.cone := rfl
@[simp] theorem modPf_orb (n : Nat) (f : PfStat → PfStat) (s : State) : (modPf n f s).orb = s.orb := rfl
@[simp] theorem modPf_apx (n : Nat) (f : PfStat → PfStat) (s : State) : (modPf n f s).apx = s.apx := rfl
@[simp] theorem modPf_cen (n : Nat) (f : PfStat → PfStat) (s : State) : (modPf n f s).cen = s.cen := rfl
@[simp] theorem modPf_arc (n : Nat) (f : PfStat → PfStat) (s : State) : (modPf n f s).arc = s.arc := rfl
@[simp] theorem modPf_mem (n : Nat) (f : PfStat → PfStat) (s : State) : (modPf n f s).mem = s.mem := rfl

@[simp] theorem modPins_pending (f : Pins → Pins) (s : State) : (modPins f s).pending = s.pending := rfl
@[simp] theorem modPins_out (f : Pins → Pins) (s : State) : (modPins f s).out = s.out := rfl
@[simp] theorem modPins_fresh (f : Pins → Pins) (s : State) : (modPins f s).fresh = s.fresh := rfl
@[simp] theorem modPins_ft (f : Pins → Pins) (s : State) : (modPins f s).ft = s.ft := rfl
@[simp] theorem modPins_pins (f : Pins → Pins) (s : State) : (modPins f s).pins = f s.pins := rfl
@[simp] theorem modPins_cmp (f : Pins → Pins) (s : State) : (modPins f s).cmp = s.cmp := rfl
@[simp] theorem modPins_pair (f : Pins → Pins) (s : State) : (modPins f s).pair = s.pair := rfl
@[simp] theorem modPins_mer (f : Pins → Pins) (s : State) : (modPins f s).mer = s.mer := rfl
@[simp] theorem modPins_per (f : Pins → Pins) (s : State) : (modPins f s).per = s.per := rfl
@[simp] theorem modPins_edg (f : Pins → Pins) (s : State) : (modPins f s).edg = s.edg := rfl
@[simp] theorem modPins_lat (f : Pins → Pins) (s : State) : (modPins f s).lat = s.lat := rfl
@[simp] theorem modPins_loc (f : Pins → Pins) (s : State) : (modPins f s).loc = s.loc := rfl
@[simp] theorem modPins_pln (f : Pins → Pins) (s : State) : (modPins f s).pln = s.pln := rfl
@[simp] theorem modPins_fld (f : Pins → Pins) (s : State) : (modPins f s).fld = s.fld := rfl
@[simp] theorem modPins_eng (f : Pins → Pins) (s : State) : (modPins f s).eng = s.eng := rfl
@[simp] theorem modPins_vtx (f : Pins → Pins) (s : State) : (modPins f s).vtx = s.vtx := rfl
@[simp] theorem modPins_chd (f : Pins → Pins) (s : State) : (modPins f s).chd = s.chd := rfl
@[simp] theorem modPins_cone (f : Pins → Pins) (s : State) : (modPins f s).cone = s.cone := rfl
@[simp] theorem modPins_orb (f : Pins → Pins) (s : State) : (modPins f s).orb = s.orb := rfl
@[simp] theorem modPins_apx (f : Pins → Pins) (s : State) : (modPins f s).apx = s.apx := rfl
@[simp] theorem modPins_cen (f : Pins → Pins) (s : State) : (modPins f s).cen = s.cen := rfl
@[simp] theorem modPins_arc (f : Pins → Pins) (s : State) : (modPins f s).arc = s.arc := rfl
@[simp] theorem modPins_mem (f : Pins → Pins) (s : State) : (modPins f s).mem = s.mem := rfl

@[simp] theorem modVtx_pending (f : Vertex → Vertex) (s : State) : (modVtx f s).pending = s.pending := rfl
@[simp] theorem modVtx_out (f : Vertex → Vertex) (s : State) : (modVtx f s).out = s.out := rfl
@[simp] theorem modVtx_fresh (f : Vertex → Vertex) (s : State) : (modVtx f s).fresh = s.fresh := rfl
@[simp] theorem modVtx_ft (f : Vertex → Vertex) (s : State) : (modVtx f s).ft = s.ft := rfl
@[simp] theorem modVtx_pins (f : Vertex → Vertex) (s : State) : (modVtx f s).pins = s.pins := rfl
@[simp] theorem modVtx_cmp (f : Vertex → Vertex) (s : State) : (modVtx f s).cmp = s.cmp := rfl
@[simp] theorem modVtx_pair (f : Vertex → Vertex) (s : State) : (modVtx f s).pair = s.pair := rfl
@[simp] theorem modVtx_mer (f : Vertex → Vertex) (s : State) : (modVtx f s).mer = s.mer := rfl
@[simp] theorem modVtx_per (f : Vertex → Vertex) (s : State) : (modVtx f s).per = s.per := rfl
@[simp] theorem modVtx_edg (f : Vertex → Vertex) (s : State) : (modVtx f s).edg = s.edg := rfl
@[simp] theorem modVtx_lat (f : Vertex → Vertex) (s : State) : (modVtx f s).lat = s.lat := rfl
@[simp] theorem modVtx_loc (f : Vertex → Vertex) (s : State) : (modVtx f s).loc = s.loc := rfl
@[simp] theorem modVtx_pln (f : Vertex → Vertex) (s : State) : (modVtx f s).pln = s.pln := rfl
@[simp] theorem modVtx_fld (f : Vertex → Vertex) (s : State) : (modVtx f s).fld = s.fld := rfl
@[simp] theorem modVtx_eng (f : Vertex → Vertex) (s : State) : (modVtx f s).eng = s.eng := rfl
@[simp] theorem modVtx_vtx (f : Vertex → Vertex) (s : State) : (modVtx f s).vtx = f s.vtx := rfl
@[simp] theorem modVtx_chd (f : Vertex → Vertex) (s : State) : (modVtx f s).chd = s.chd := rfl
@[simp] theorem modVtx_cone (f : Vertex → Vertex) (s : State) : (modVtx f s).cone = s.cone := rfl
@[simp] theorem modVtx_orb (f : Vertex → Vertex) (s : State) : (modVtx f s).orb = s.orb := rfl
@[simp] theorem modVtx_apx (f : Vertex → Vertex) (s : State) : (modVtx f s).apx = s.apx := rfl
@[simp] theorem modVtx_cen (f : Vertex → Vertex) (s : State) : (modVtx f s).cen = s.cen := rfl
@[simp] theorem modVtx_arc (f : Vertex → Vertex) (s : State) : (modVtx f s).arc = s.arc := rfl
@[simp] theorem modVtx_mem (f : Vertex → Vertex) (s : State) : (modVtx f s).mem = s.mem := rfl

@[simp] theorem setArb_pending (k : Nat) (a : Arb) (s : State) : (setArb k a s).pending = s.pending := rfl
@[simp] theorem setArb_out (k : Nat) (a : Arb) (s : State) : (setArb k a s).out = s.out := rfl
@[simp] theorem setArb_fresh (k : Nat) (a : Arb) (s : State) : (setArb k a s).fresh = s.fresh := rfl
@[simp] theorem setArb_ft (k : Nat) (a : Arb) (s : State) : (setArb k a s).ft = s.ft := rfl
@[simp] theorem setArb_pins (k : Nat) (a : Arb) (s : State) : (setArb k a s).pins = s.pins := rfl
@[simp] theorem setArb_cmp (k : Nat) (a : Arb) (s : State) : (setArb k a s).cmp = s.cmp := rfl
@[simp] theorem setArb_pair (k : Nat) (a : Arb) (s : State) : (setArb k a s).pair = s.pair := rfl
@[simp] theorem setArb_mer (k : Nat) (a : Arb) (s : State) : (setArb k a s).mer = s.mer := rfl
@[simp] theorem setArb_per (k : Nat) (a : Arb) (s : State) : (setArb k a s).per = s.per := rfl
@[simp] theorem setArb_edg (k : Nat) (a : Arb) (s : State) : (setArb k a s).edg = s.edg := rfl
@[simp] theorem setArb_lat (k : Nat) (a : Arb) (s : State) : (setArb k a s).lat = s.lat := rfl
@[simp] theorem setArb_loc (k : Nat) (a : Arb) (s : State) : (setArb k a s).loc = s.loc := rfl
@[simp] theorem setArb_pln (k : Nat) (a : Arb) (s : State) : (setArb k a s).pln = s.pln := rfl
@[simp] theorem setArb_fld (k : Nat) (a : Arb) (s : State) : (setArb k a s).fld = s.fld := rfl
@[simp] theorem setArb_eng (k : Nat) (a : Arb) (s : State) : (setArb k a s).eng = { s.eng with arbs := s.eng.arbs.set k a } := rfl
@[simp] theorem setArb_vtx (k : Nat) (a : Arb) (s : State) : (setArb k a s).vtx = s.vtx := rfl
@[simp] theorem setArb_chd (k : Nat) (a : Arb) (s : State) : (setArb k a s).chd = s.chd := rfl
@[simp] theorem setArb_cone (k : Nat) (a : Arb) (s : State) : (setArb k a s).cone = s.cone := rfl
@[simp] theorem setArb_orb (k : Nat) (a : Arb) (s : State) : (setArb k a s).orb = s.orb := rfl
@[simp] theorem setArb_apx (k : Nat) (a : Arb) (s : State) : (setArb k a s).apx = s.apx := rfl
@[simp] theorem setArb_cen (k : Nat) (a : Arb) (s : State) : (setArb k a s).cen = s.cen := rfl
@[simp] theorem setArb_arc (k : Nat) (a : Arb) (s : State) : (setArb k a s).arc = s.arc := rfl
@[simp] theorem setArb_mem (k : Nat) (a : Arb) (s : State) : (setArb k a s).mem = s.mem := rfl

@[simp] theorem setBlk_pending (b : Nat) (x : Blk) (s : State) : (setBlk b x s).pending = s.pending := rfl
@[simp] theorem setBlk_out (b : Nat) (x : Blk) (s : State) : (setBlk b x s).out = s.out := rfl
@[simp] theorem setBlk_fresh (b : Nat) (x : Blk) (s : State) : (setBlk b x s).fresh = s.fresh := rfl
@[simp] theorem setBlk_ft (b : Nat) (x : Blk) (s : State) : (setBlk b x s).ft = s.ft := rfl
@[simp] theorem setBlk_pins (b : Nat) (x : Blk) (s : State) : (setBlk b x s).pins = s.pins := rfl
@[simp] theorem setBlk_cmp (b : Nat) (x : Blk) (s : State) : (setBlk b x s).cmp = s.cmp := rfl
@[simp] theorem setBlk_pair (b : Nat) (x : Blk) (s : State) : (setBlk b x s).pair = s.pair := rfl
@[simp] theorem setBlk_mer (b : Nat) (x : Blk) (s : State) : (setBlk b x s).mer = s.mer := rfl
@[simp] theorem setBlk_per (b : Nat) (x : Blk) (s : State) : (setBlk b x s).per = s.per := rfl
@[simp] theorem setBlk_edg (b : Nat) (x : Blk) (s : State) : (setBlk b x s).edg = s.edg := rfl
@[simp] theorem setBlk_lat (b : Nat) (x : Blk) (s : State) : (setBlk b x s).lat = s.lat := rfl
@[simp] theorem setBlk_loc (b : Nat) (x : Blk) (s : State) : (setBlk b x s).loc = s.loc := rfl
@[simp] theorem setBlk_pln (b : Nat) (x : Blk) (s : State) : (setBlk b x s).pln = s.pln := rfl
@[simp] theorem setBlk_fld (b : Nat) (x : Blk) (s : State) : (setBlk b x s).fld = { s.fld with blocks := s.fld.blocks.set b x } := rfl
@[simp] theorem setBlk_eng (b : Nat) (x : Blk) (s : State) : (setBlk b x s).eng = s.eng := rfl
@[simp] theorem setBlk_vtx (b : Nat) (x : Blk) (s : State) : (setBlk b x s).vtx = s.vtx := rfl
@[simp] theorem setBlk_chd (b : Nat) (x : Blk) (s : State) : (setBlk b x s).chd = s.chd := rfl
@[simp] theorem setBlk_cone (b : Nat) (x : Blk) (s : State) : (setBlk b x s).cone = s.cone := rfl
@[simp] theorem setBlk_orb (b : Nat) (x : Blk) (s : State) : (setBlk b x s).orb = s.orb := rfl
@[simp] theorem setBlk_apx (b : Nat) (x : Blk) (s : State) : (setBlk b x s).apx = s.apx := rfl
@[simp] theorem setBlk_cen (b : Nat) (x : Blk) (s : State) : (setBlk b x s).cen = s.cen := rfl
@[simp] theorem setBlk_arc (b : Nat) (x : Blk) (s : State) : (setBlk b x s).arc = s.arc := rfl
@[simp] theorem setBlk_mem (b : Nat) (x : Blk) (s : State) : (setBlk b x s).mem = s.mem := rfl

@[simp] theorem setChan_pending (c : Nat) (x : Channel) (s : State) : (setChan c x s).pending = s.pending := rfl
@[simp] theorem setChan_out (c : Nat) (x : Channel) (s : State) : (setChan c x s).out = s.out := rfl
@[simp] theorem setChan_fresh (c : Nat) (x : Channel) (s : State) : (setChan c x s).fresh = s.fresh := rfl
@[simp] theorem setChan_ft (c : Nat) (x : Channel) (s : State) : (setChan c x s).ft = s.ft := rfl
@[simp] theorem setChan_pins (c : Nat) (x : Channel) (s : State) : (setChan c x s).pins = s.pins := rfl
@[simp] theorem setChan_cmp (c : Nat) (x : Channel) (s : State) : (setChan c x s).cmp = s.cmp := rfl
@[simp] theorem setChan_pair (c : Nat) (x : Channel) (s : State) : (setChan c x s).pair = s.pair := rfl
@[simp] theorem setChan_mer (c : Nat) (x : Channel) (s : State) : (setChan c x s).mer = s.mer := rfl
@[simp] theorem setChan_per (c : Nat) (x : Channel) (s : State) : (setChan c x s).per = s.per := rfl
@[simp] theorem setChan_edg (c : Nat) (x : Channel) (s : State) : (setChan c x s).edg = s.edg := rfl
@[simp] theorem setChan_lat (c : Nat) (x : Channel) (s : State) : (setChan c x s).lat = s.lat := rfl
@[simp] theorem setChan_loc (c : Nat) (x : Channel) (s : State) : (setChan c x s).loc = s.loc := rfl
@[simp] theorem setChan_pln (c : Nat) (x : Channel) (s : State) : (setChan c x s).pln = { s.pln with chans := s.pln.chans.set c x } := rfl
@[simp] theorem setChan_fld (c : Nat) (x : Channel) (s : State) : (setChan c x s).fld = s.fld := rfl
@[simp] theorem setChan_eng (c : Nat) (x : Channel) (s : State) : (setChan c x s).eng = s.eng := rfl
@[simp] theorem setChan_vtx (c : Nat) (x : Channel) (s : State) : (setChan c x s).vtx = s.vtx := rfl
@[simp] theorem setChan_chd (c : Nat) (x : Channel) (s : State) : (setChan c x s).chd = s.chd := rfl
@[simp] theorem setChan_cone (c : Nat) (x : Channel) (s : State) : (setChan c x s).cone = s.cone := rfl
@[simp] theorem setChan_orb (c : Nat) (x : Channel) (s : State) : (setChan c x s).orb = s.orb := rfl
@[simp] theorem setChan_apx (c : Nat) (x : Channel) (s : State) : (setChan c x s).apx = s.apx := rfl
@[simp] theorem setChan_cen (c : Nat) (x : Channel) (s : State) : (setChan c x s).cen = s.cen := rfl
@[simp] theorem setChan_arc (c : Nat) (x : Channel) (s : State) : (setChan c x s).arc = s.arc := rfl
@[simp] theorem setChan_mem (c : Nat) (x : Channel) (s : State) : (setChan c x s).mem = s.mem := rfl

@[simp] theorem setDom_pending (n : Nat) (d : Dom) (s : State) : (setDom n d s).pending = s.pending := rfl
@[simp] theorem setDom_out (n : Nat) (d : Dom) (s : State) : (setDom n d s).out = s.out := rfl
@[simp] theorem setDom_fresh (n : Nat) (d : Dom) (s : State) : (setDom n d s).fresh = s.fresh := rfl
@[simp] theorem setDom_ft (n : Nat) (d : Dom) (s : State) : (setDom n d s).ft = s.ft := rfl
@[simp] theorem setDom_pins (n : Nat) (d : Dom) (s : State) : (setDom n d s).pins = s.pins := rfl
@[simp] theorem setDom_cmp (n : Nat) (d : Dom) (s : State) : (setDom n d s).cmp = s.cmp := rfl
@[simp] theorem setDom_pair (n : Nat) (d : Dom) (s : State) : (setDom n d s).pair = s.pair := rfl
@[simp] theorem setDom_mer (n : Nat) (d : Dom) (s : State) : (setDom n d s).mer = { s.mer with doms := s.mer.doms.set n d } := rfl
@[simp] theorem setDom_per (n : Nat) (d : Dom) (s : State) : (setDom n d s).per = s.per := rfl
@[simp] theorem setDom_edg (n : Nat) (d : Dom) (s : State) : (setDom n d s).edg = s.edg := rfl
@[simp] theorem setDom_lat (n : Nat) (d : Dom) (s : State) : (setDom n d s).lat = s.lat := rfl
@[simp] theorem setDom_loc (n : Nat) (d : Dom) (s : State) : (setDom n d s).loc = s.loc := rfl
@[simp] theorem setDom_pln (n : Nat) (d : Dom) (s : State) : (setDom n d s).pln = s.pln := rfl
@[simp] theorem setDom_fld (n : Nat) (d : Dom) (s : State) : (setDom n d s).fld = s.fld := rfl
@[simp] theorem setDom_eng (n : Nat) (d : Dom) (s : State) : (setDom n d s).eng = s.eng := rfl
@[simp] theorem setDom_vtx (n : Nat) (d : Dom) (s : State) : (setDom n d s).vtx = s.vtx := rfl
@[simp] theorem setDom_chd (n : Nat) (d : Dom) (s : State) : (setDom n d s).chd = s.chd := rfl
@[simp] theorem setDom_cone (n : Nat) (d : Dom) (s : State) : (setDom n d s).cone = s.cone := rfl
@[simp] theorem setDom_orb (n : Nat) (d : Dom) (s : State) : (setDom n d s).orb = s.orb := rfl
@[simp] theorem setDom_apx (n : Nat) (d : Dom) (s : State) : (setDom n d s).apx = s.apx := rfl
@[simp] theorem setDom_cen (n : Nat) (d : Dom) (s : State) : (setDom n d s).cen = s.cen := rfl
@[simp] theorem setDom_arc (n : Nat) (d : Dom) (s : State) : (setDom n d s).arc = s.arc := rfl
@[simp] theorem setDom_mem (n : Nat) (d : Dom) (s : State) : (setDom n d s).mem = s.mem := rfl

@[simp] theorem setEng_pending (e : Nat) (x : ChdEng) (s : State) : (setEng e x s).pending = s.pending := rfl
@[simp] theorem setEng_out (e : Nat) (x : ChdEng) (s : State) : (setEng e x s).out = s.out := rfl
@[simp] theorem setEng_fresh (e : Nat) (x : ChdEng) (s : State) : (setEng e x s).fresh = s.fresh := rfl
@[simp] theorem setEng_ft (e : Nat) (x : ChdEng) (s : State) : (setEng e x s).ft = s.ft := rfl
@[simp] theorem setEng_pins (e : Nat) (x : ChdEng) (s : State) : (setEng e x s).pins = s.pins := rfl
@[simp] theorem setEng_cmp (e : Nat) (x : ChdEng) (s : State) : (setEng e x s).cmp = s.cmp := rfl
@[simp] theorem setEng_pair (e : Nat) (x : ChdEng) (s : State) : (setEng e x s).pair = s.pair := rfl
@[simp] theorem setEng_mer (e : Nat) (x : ChdEng) (s : State) : (setEng e x s).mer = s.mer := rfl
@[simp] theorem setEng_per (e : Nat) (x : ChdEng) (s : State) : (setEng e x s).per = s.per := rfl
@[simp] theorem setEng_edg (e : Nat) (x : ChdEng) (s : State) : (setEng e x s).edg = s.edg := rfl
@[simp] theorem setEng_lat (e : Nat) (x : ChdEng) (s : State) : (setEng e x s).lat = s.lat := rfl
@[simp] theorem setEng_loc (e : Nat) (x : ChdEng) (s : State) : (setEng e x s).loc = s.loc := rfl
@[simp] theorem setEng_pln (e : Nat) (x : ChdEng) (s : State) : (setEng e x s).pln = s.pln := rfl
@[simp] theorem setEng_fld (e : Nat) (x : ChdEng) (s : State) : (setEng e x s).fld = s.fld := rfl
@[simp] theorem setEng_eng (e : Nat) (x : ChdEng) (s : State) : (setEng e x s).eng = s.eng := rfl
@[simp] theorem setEng_vtx (e : Nat) (x : ChdEng) (s : State) : (setEng e x s).vtx = s.vtx := rfl
@[simp] theorem setEng_chd (e : Nat) (x : ChdEng) (s : State) : (setEng e x s).chd = { s.chd with engs := s.chd.engs.set e x } := rfl
@[simp] theorem setEng_cone (e : Nat) (x : ChdEng) (s : State) : (setEng e x s).cone = s.cone := rfl
@[simp] theorem setEng_orb (e : Nat) (x : ChdEng) (s : State) : (setEng e x s).orb = s.orb := rfl
@[simp] theorem setEng_apx (e : Nat) (x : ChdEng) (s : State) : (setEng e x s).apx = s.apx := rfl
@[simp] theorem setEng_cen (e : Nat) (x : ChdEng) (s : State) : (setEng e x s).cen = s.cen := rfl
@[simp] theorem setEng_arc (e : Nat) (x : ChdEng) (s : State) : (setEng e x s).arc = s.arc := rfl
@[simp] theorem setEng_mem (e : Nat) (x : ChdEng) (s : State) : (setEng e x s).mem = s.mem := rfl

@[simp] theorem setFaultBit_pending (i : Nat) (s : State) : (setFaultBit i s).pending = s.pending := rfl
@[simp] theorem setFaultBit_out (i : Nat) (s : State) : (setFaultBit i s).out = s.out := rfl
@[simp] theorem setFaultBit_fresh (i : Nat) (s : State) : (setFaultBit i s).fresh = s.fresh := rfl
@[simp] theorem setFaultBit_ft (i : Nat) (s : State) : (setFaultBit i s).ft = s.ft := rfl
@[simp] theorem setFaultBit_pins (i : Nat) (s : State) : (setFaultBit i s).pins = s.pins := rfl
@[simp] theorem setFaultBit_cmp (i : Nat) (s : State) : (setFaultBit i s).cmp = { s.cmp with faultStatus := setBit s.cmp.faultStatus i } := rfl
@[simp] theorem setFaultBit_pair (i : Nat) (s : State) : (setFaultBit i s).pair = s.pair := rfl
@[simp] theorem setFaultBit_mer (i : Nat) (s : State) : (setFaultBit i s).mer = s.mer := rfl
@[simp] theorem setFaultBit_per (i : Nat) (s : State) : (setFaultBit i s).per = s.per := rfl
@[simp] theorem setFaultBit_edg (i : Nat) (s : State) : (setFaultBit i s).edg = s.edg := rfl
@[simp] theorem setFaultBit_lat (i : Nat) (s : State) : (setFaultBit i s).lat = s.lat := rfl
@[simp] theorem setFaultBit_loc (i : Nat) (s : State) : (setFaultBit i s).loc = s.loc := rfl
@[simp] theorem setFaultBit_pln (i : Nat) (s : State) : (setFaultBit i s).pln = s.pln := rfl
@[simp] theorem setFaultBit_fld (i : Nat) (s : State) : (setFaultBit i s).fld = s.fld := rfl
@[simp] theorem setFaultBit_eng (i : Nat) (s : State) : (setFaultBit i s).eng = s.eng := rfl
@[simp] theorem setFaultBit_vtx (i : Nat) (s : State) : (setFaultBit i s).vtx = s.vtx := rfl
@[simp] theorem setFaultBit_chd (i : Nat) (s : State) : (setFaultBit i s).chd = s.chd := rfl
@[simp] theorem setFaultBit_cone (i : Nat) (s : State) : (setFaultBit i s).cone = s.cone := rfl
@[simp] theorem setFaultBit_orb (i : Nat) (s : State) : (setFaultBit i s).orb = s.orb := rfl
@[simp] theorem setFaultBit_apx (i : Nat) (s : State) : (setFaultBit i s).apx = s.apx := rfl
@[simp] theorem setFaultBit_cen (i : Nat) (s : State) : (setFaultBit i s).cen = s.cen := rfl
@[simp] theorem setFaultBit_arc (i : Nat) (s : State) : (setFaultBit i s).arc = s.arc := rfl
@[simp] theorem setFaultBit_mem (i : Nat) (s : State) : (setFaultBit i s).mem = s.mem := rfl

@[simp] theorem setIssued_pending (b : Block) (q : Nat) (l : List QCmd) (s : State) : (setIssued b q l s).pending = s.pending := rfl
@[simp] theorem setIssued_out (b : Block) (q : Nat) (l : List QCmd) (s : State) : (setIssued b q l s).out = s.out := rfl
@[simp] theorem setIssued_fresh (b : Block) (q : Nat) (l : List QCmd) (s : State) : (setIssued b q l s).fresh = s.fresh := rfl
@[simp] theorem setIssued_ft (b : Block) (q : Nat) (l : List QCmd) (s : State) : (setIssued b q l s).ft = s.ft := rfl
@[simp] theorem setIssued_pins (b : Block) (q : Nat) (l : List QCmd) (s : State) : (setIssued b q l s).pins = s.pins := rfl
@[simp] theorem setIssued_cmp (b : Block) (q : Nat) (l : List QCmd) (s : State) : (setIssued b q l s).cmp = s.cmp := rfl
@[simp] theorem setIssued_pair (b : Block) (q : Nat) (l : List QCmd) (s : State) : (setIssued b q l s).pair = s.pair := rfl
@[simp] theorem setIssued_mer (b : Block) (q : Nat) (l : List QCmd) (s : State) : (setIssued b q l s).mer = s.mer := rfl
@[simp] theorem setIssued_per (b : Block) (q : Nat) (l : List QCmd) (s : State) : (setIssued b q l s).per = s.per := rfl
@[simp] theorem setIssued_edg (b : Block) (q : Nat) (l : List QCmd) (s : State) : (setIssued b q l s).edg = s.edg := rfl
@[simp] theorem setIssued_lat (b : Block) (q : Nat) (l : List QCmd) (s : State) : (setIssued b q l s).lat = s.lat := rfl
@[simp] theorem setIssued_loc (b : Block) (q : Nat) (l : List QCmd) (s : State) : (setIssued b q l s).loc = s.loc := rfl
@[simp] theorem setIssued_pln (b : Block) (q : Nat) (l : List QCmd) (s : State) : (setIssued b q l s).pln = s.pln := rfl
@[simp] theorem setIssued_fld (b : Block) (q : Nat) (l : List QCmd) (s : State) : (setIssued b q l s).fld = s.fld := rfl
@[simp] theorem setIssued_eng (b : Block) (q : Nat) (l : List QCmd) (s : State) : (setIssued b q l s).eng = { s.eng with issued := s.eng.issued.set (qKey b q) l } := rfl
@[simp] theorem setIssued_vtx (b : Block) (q : Nat) (l : List QCmd) (s : State) : (setIssued b q l s).vtx = s.vtx := rfl
@[simp] theorem setIssued_chd (b : Block) (q : Nat) (l : List QCmd) (s : State) : (setIssued b q l s).chd = s.chd := rfl
@[simp] theorem setIssued_cone (b : Block) (q : Nat) (l : List QCmd) (s : State) : (setIssued b q l s).cone = s.cone := rfl
@[simp] theorem setIssued_orb (b : Block) (q : Nat) (l : List QCmd) (s : State) : (setIssued b q l s).orb = s.orb := rfl
@[simp] theorem setIssued_apx (b : Block) (q : Nat) (l : List QCmd) (s : State) : (setIssued b q l s).apx = s.apx := rfl
@[simp] theorem setIssued_cen (b : Block) (q : Nat) (l : List QCmd) (s : State) : (setIssued b q l s).cen = s.cen := rfl
@[simp] theorem setIssued_arc (b : Block) (q : Nat) (l : List QCmd) (s : State) : (setIssued b q l s).arc = s.arc := rfl
@[simp] theorem setIssued_mem (b : Block) (q : Nat) (l : List QCmd) (s : State) : (setIssued b q l s).mem = s.mem := rfl

@[simp] theorem setLocPart_pending (n : Nat) (x : LocPart) (s : State) : (setLocPart n x s).pending = s.pending := rfl
@[simp] theorem setLocPart_out (n : Nat) (x : LocPart) (s : State) : (setLocPart n x s).out = s.out := rfl
@[simp] theorem setLocPart_fresh (n : Nat) (x : LocPart) (s : State) : (setLocPart n x s).fresh = s.fresh := rfl
@[simp] theorem setLocPart_ft (n : Nat) (x : LocPart) (s : State) : (setLocPart n x s).ft = s.ft := rfl
@[simp] theorem setLocPart_pins (n : Nat) (x : LocPart) (s : State) : (setLocPart n x s).pins = s.pins := rfl
@[simp] theorem setLocPart_cmp (n : Nat) (x : LocPart) (s : State) : (setLocPart n x s).cmp = s.cmp := rfl
@[simp] theorem setLocPart_pair (n : Nat) (x : LocPart) (s : State) : (setLocPart n x s).pair = s.pair := rfl
@[simp] theorem setLocPart_mer (n : Nat) (x : LocPart) (s : State) : (setLocPart n x s).mer = s.mer := rfl
@[simp] theorem setLocPart_per (n : Nat) (x : LocPart) (s : State) : (setLocPart n x s).per = s.per := rfl
@[simp] theorem setLocPart_edg (n : Nat) (x : LocPart) (s : State) : (setLocPart n x s).edg = s.edg := rfl
@[simp] theorem setLocPart_lat (n : Nat) (x : LocPart) (s : State) : (setLocPart n x s).lat = s.lat := rfl
@[simp] theorem setLocPart_loc (n : Nat) (x : LocPart) (s : State) : (setLocPart n x s).loc = { s.loc with parts := s.loc.parts.set n x } := rfl
@[simp] theorem setLocPart_pln (n : Nat) (x : LocPart) (s : State) : (setLocPart n x s).pln = s.pln := rfl
@[simp] theorem setLocPart_fld (n : Nat) (x : LocPart) (s : State) : (setLocPart n x s).fld = s.fld := rfl
@[simp] theorem setLocPart_eng (n : Nat) (x : LocPart) (s : State) : (setLocPart n x s).eng = s.eng := rfl
@[simp] theorem setLocPart_vtx (n : Nat) (x : LocPart) (s : State) : (setLocPart n x s).vtx = s.vtx := rfl
@[simp] theorem setLocPart_chd (n : Nat) (x : LocPart) (s : State) : (setLocPart n x s).chd = s.chd := rfl
@[simp] theorem setLocPart_cone (n : Nat) (x : LocPart) (s : State) : (setLocPart n x s).cone = s.cone := rfl
@[simp] theorem setLocPart_orb (n : Nat) (x : LocPart) (s : State) : (setLocPart n x s).orb = s.orb := rfl
@[simp] theorem setLocPart_apx (n : Nat) (x : LocPart) (s : State) : (setLocPart n x s).apx = s.apx := rfl
@[simp] theorem setLocPart_cen (n : Nat) (x : LocPart) (s : State) : (setLocPart n x s).cen = s.cen := rfl
@[simp] theorem setLocPart_arc (n : Nat) (x : LocPart) (s : State) : (setLocPart n x s).arc = s.arc := rfl
@[simp] theorem setLocPart_mem (n : Nat) (x : LocPart) (s : State) : (setLocPart n x s).mem = s.mem := rfl

@[simp] theorem setObj_pending (i : Nat) (o : SyncObj) (s : State) : (setObj i o s).pending = s.pending := rfl
@[simp] theorem setObj_out (i : Nat) (o : SyncObj) (s : State) : (setObj i o s).out = s.out := rfl
@[simp] theorem setObj_fresh (i : Nat) (o : SyncObj) (s : State) : (setObj i o s).fresh = s.fresh := rfl
@[simp] theorem setObj_ft (i : Nat) (o : SyncObj) (s : State) : (setObj i o s).ft = s.ft := rfl
@[simp] theorem setObj_pins (i : Nat) (o : SyncObj) (s : State) : (setObj i o s).pins = s.pins := rfl
@[simp] theorem setObj_cmp (i : Nat) (o : SyncObj) (s : State) : (setObj i o s).cmp = s.cmp := rfl
@[simp] theorem setObj_pair (i : Nat) (o : SyncObj) (s : State) : (setObj i o s).pair = s.pair := rfl
@[simp] theorem setObj_mer (i : Nat) (o : SyncObj) (s : State) : (setObj i o s).mer = { s.mer with objs := s.mer.objs.set i o } := rfl
@[simp] theorem setObj_per (i : Nat) (o : SyncObj) (s : State) : (setObj i o s).per = s.per := rfl
@[simp] theorem setObj_edg (i : Nat) (o : SyncObj) (s : State) : (setObj i o s).edg = s.edg := rfl
@[simp] theorem setObj_lat (i : Nat) (o : SyncObj) (s : State) : (setObj i o s).lat = s.lat := rfl
@[simp] theorem setObj_loc (i : Nat) (o : SyncObj) (s : State) : (setObj i o s).loc = s.loc := rfl
@[simp] theorem setObj_pln (i : Nat) (o : SyncObj) (s : State) : (setObj i o s).pln = s.pln := rfl
@[simp] theorem setObj_fld (i : Nat) (o : SyncObj) (s : State) : (setObj i o s).fld = s.fld := rfl
@[simp] theorem setObj_eng (i : Nat) (o : SyncObj) (s : State) : (setObj i o s).eng = s.eng := rfl
@[simp] theorem setObj_vtx (i : Nat) (o : SyncObj) (s : State) : (setObj i o s).vtx = s.vtx := rfl
@[simp] theorem setObj_chd (i : Nat) (o : SyncObj) (s : State) : (setObj i o s).chd = s.chd := rfl
@[simp] theorem setObj_cone (i : Nat) (o : SyncObj) (s : State) : (setObj i o s).cone = s.cone := rfl
@[simp] theorem setObj_orb (i : Nat) (o : SyncObj) (s : State) : (setObj i o s).orb = s.orb := rfl
@[simp] theorem setObj_apx (i : Nat) (o : SyncObj) (s : State) : (setObj i o s).apx = s.apx := rfl
@[simp] theorem setObj_cen (i : Nat) (o : SyncObj) (s : State) : (setObj i o s).cen = s.cen := rfl
@[simp] theorem setObj_arc (i : Nat) (o : SyncObj) (s : State) : (setObj i o s).arc = s.arc := rfl
@[simp] theorem setObj_mem (i : Nat) (o : SyncObj) (s : State) : (setObj i o s).mem = s.mem := rfl

@[simp] theorem setPage_pending (p : Nat) (e : PageEnt) (s : State) : (setPage p e s).pending = s.pending := rfl
@[simp] theorem setPage_out (p : Nat) (e : PageEnt) (s : State) : (setPage p e s).out = s.out := rfl
@[simp] theorem setPage_fresh (p : Nat) (e : PageEnt) (s : State) : (setPage p e s).fresh = s.fresh := rfl
@[simp] theorem setPage_ft (p : Nat) (e : PageEnt) (s : State) : (setPage p e s).ft = s.ft := rfl
@[simp] theorem setPage_pins (p : Nat) (e : PageEnt) (s : State) : (setPage p e s).pins = s.pins := rfl
@[simp] theorem setPage_cmp (p : Nat) (e : PageEnt) (s : State) : (setPage p e s).cmp = s.cmp := rfl
@[simp] theorem setPage_pair (p : Nat) (e : PageEnt) (s : State) : (setPage p e s).pair = s.pair := rfl
@[simp] theorem setPage_mer (p : Nat) (e : PageEnt) (s : State) : (setPage p e s).mer = s.mer := rfl
@[simp] theorem setPage_per (p : Nat) (e : PageEnt) (s : State) : (setPage p e s).per = s.per := rfl
@[simp] theorem setPage_edg (p : Nat) (e : PageEnt) (s : State) : (setPage p e s).edg = s.edg := rfl
@[simp] theorem setPage_lat (p : Nat) (e : PageEnt) (s : State) : (setPage p e s).lat = s.lat := rfl
@[simp] theorem setPage_loc (p : Nat) (e : PageEnt) (s : State) : (setPage p e s).loc = s.loc := rfl
@[simp] theorem setPage_pln (p : Nat) (e : PageEnt) (s : State) : (setPage p e s).pln = { s.pln with pages := s.pln.pages.set p e } := rfl
@[simp] theorem setPage_fld (p : Nat) (e : PageEnt) (s : State) : (setPage p e s).fld = s.fld := rfl
@[simp] theorem setPage_eng (p : Nat) (e : PageEnt) (s : State) : (setPage p e s).eng = s.eng := rfl
@[simp] theorem setPage_vtx (p : Nat) (e : PageEnt) (s : State) : (setPage p e s).vtx = s.vtx := rfl
@[simp] theorem setPage_chd (p : Nat) (e : PageEnt) (s : State) : (setPage p e s).chd = s.chd := rfl
@[simp] theorem setPage_cone (p : Nat) (e : PageEnt) (s : State) : (setPage p e s).cone = s.cone := rfl
@[simp] theorem setPage_orb (p : Nat) (e : PageEnt) (s : State) : (setPage p e s).orb = s.orb := rfl
@[simp] theorem setPage_apx (p : Nat) (e : PageEnt) (s : State) : (setPage p e s).apx = s.apx := rfl
@[simp] theorem setPage_cen (p : Nat) (e : PageEnt) (s : State) : (setPage p e s).cen = s.cen := rfl
@[simp] theorem setPage_arc (p : Nat) (e : PageEnt) (s : State) : (setPage p e s).arc = s.arc := rfl
@[simp] theorem setPage_mem (p : Nat) (e : PageEnt) (s : State) : (setPage p e s).mem = s.mem := rfl

@[simp] theorem setPort_pending (p : Nat) (x : Port) (s : State) : (setPort p x s).pending = s.pending := rfl
@[simp] theorem setPort_out (p : Nat) (x : Port) (s : State) : (setPort p x s).out = s.out := rfl
@[simp] theorem setPort_fresh (p : Nat) (x : Port) (s : State) : (setPort p x s).fresh = s.fresh := rfl
@[simp] theorem setPort_ft (p : Nat) (x : Port) (s : State) : (setPort p x s).ft = s.ft := rfl
@[simp] theorem setPort_pins (p : Nat) (x : Port) (s : State) : (setPort p x s).pins = s.pins := rfl
@[simp] theorem setPort_cmp (p : Nat) (x : Port) (s : State) : (setPort p x s).cmp = s.cmp := rfl
@[simp] theorem setPort_pair (p : Nat) (x : Port) (s : State) : (setPort p x s).pair = s.pair := rfl
@[simp] theorem setPort_mer (p : Nat) (x : Port) (s : State) : (setPort p x s).mer = s.mer := rfl
@[simp] theorem setPort_per (p : Nat) (x : Port) (s : State) : (setPort p x s).per = s.per := rfl
@[simp] theorem setPort_edg (p : Nat) (x : Port) (s : State) : (setPort p x s).edg = { s.edg with ports := s.edg.ports.set p x } := rfl
@[simp] theorem setPort_lat (p : Nat) (x : Port) (s : State) : (setPort p x s).lat = s.lat := rfl
@[simp] theorem setPort_loc (p : Nat) (x : Port) (s : State) : (setPort p x s).loc = s.loc := rfl
@[simp] theorem setPort_pln (p : Nat) (x : Port) (s : State) : (setPort p x s).pln = s.pln := rfl
@[simp] theorem setPort_fld (p : Nat) (x : Port) (s : State) : (setPort p x s).fld = s.fld := rfl
@[simp] theorem setPort_eng (p : Nat) (x : Port) (s : State) : (setPort p x s).eng = s.eng := rfl
@[simp] theorem setPort_vtx (p : Nat) (x : Port) (s : State) : (setPort p x s).vtx = s.vtx := rfl
@[simp] theorem setPort_chd (p : Nat) (x : Port) (s : State) : (setPort p x s).chd = s.chd := rfl
@[simp] theorem setPort_cone (p : Nat) (x : Port) (s : State) : (setPort p x s).cone = s.cone := rfl
@[simp] theorem setPort_orb (p : Nat) (x : Port) (s : State) : (setPort p x s).orb = s.orb := rfl
@[simp] theorem setPort_apx (p : Nat) (x : Port) (s : State) : (setPort p x s).apx = s.apx := rfl
@[simp] theorem setPort_cen (p : Nat) (x : Port) (s : State) : (setPort p x s).cen = s.cen := rfl
@[simp] theorem setPort_arc (p : Nat) (x : Port) (s : State) : (setPort p x s).arc = s.arc := rfl
@[simp] theorem setPort_mem (p : Nat) (x : Port) (s : State) : (setPort p x s).mem = s.mem := rfl

@[simp] theorem setQueue_pending (b : Block) (q : Nat) (l : List QCmd) (s : State) : (setQueue b q l s).pending = s.pending := rfl
@[simp] theorem setQueue_out (b : Block) (q : Nat) (l : List QCmd) (s : State) : (setQueue b q l s).out = s.out := rfl
@[simp] theorem setQueue_fresh (b : Block) (q : Nat) (l : List QCmd) (s : State) : (setQueue b q l s).fresh = s.fresh := rfl
@[simp] theorem setQueue_ft (b : Block) (q : Nat) (l : List QCmd) (s : State) : (setQueue b q l s).ft = s.ft := rfl
@[simp] theorem setQueue_pins (b : Block) (q : Nat) (l : List QCmd) (s : State) : (setQueue b q l s).pins = s.pins := rfl
@[simp] theorem setQueue_cmp (b : Block) (q : Nat) (l : List QCmd) (s : State) : (setQueue b q l s).cmp = s.cmp := rfl
@[simp] theorem setQueue_pair (b : Block) (q : Nat) (l : List QCmd) (s : State) : (setQueue b q l s).pair = s.pair := rfl
@[simp] theorem setQueue_mer (b : Block) (q : Nat) (l : List QCmd) (s : State) : (setQueue b q l s).mer = s.mer := rfl
@[simp] theorem setQueue_per (b : Block) (q : Nat) (l : List QCmd) (s : State) : (setQueue b q l s).per = s.per := rfl
@[simp] theorem setQueue_edg (b : Block) (q : Nat) (l : List QCmd) (s : State) : (setQueue b q l s).edg = s.edg := rfl
@[simp] theorem setQueue_lat (b : Block) (q : Nat) (l : List QCmd) (s : State) : (setQueue b q l s).lat = s.lat := rfl
@[simp] theorem setQueue_loc (b : Block) (q : Nat) (l : List QCmd) (s : State) : (setQueue b q l s).loc = s.loc := rfl
@[simp] theorem setQueue_pln (b : Block) (q : Nat) (l : List QCmd) (s : State) : (setQueue b q l s).pln = s.pln := rfl
@[simp] theorem setQueue_fld (b : Block) (q : Nat) (l : List QCmd) (s : State) : (setQueue b q l s).fld = s.fld := rfl
@[simp] theorem setQueue_eng (b : Block) (q : Nat) (l : List QCmd) (s : State) : (setQueue b q l s).eng = { s.eng with queues := s.eng.queues.set (qKey b q) l } := rfl
@[simp] theorem setQueue_vtx (b : Block) (q : Nat) (l : List QCmd) (s : State) : (setQueue b q l s).vtx = s.vtx := rfl
@[simp] theorem setQueue_chd (b : Block) (q : Nat) (l : List QCmd) (s : State) : (setQueue b q l s).chd = s.chd := rfl
@[simp] theorem setQueue_cone (b : Block) (q : Nat) (l : List QCmd) (s : State) : (setQueue b q l s).cone = s.cone := rfl
@[simp] theorem setQueue_orb (b : Block) (q : Nat) (l : List QCmd) (s : State) : (setQueue b q l s).orb = s.orb := rfl
@[simp] theorem setQueue_apx (b : Block) (q : Nat) (l : List QCmd) (s : State) : (setQueue b q l s).apx = s.apx := rfl
@[simp] theorem setQueue_cen (b : Block) (q : Nat) (l : List QCmd) (s : State) : (setQueue b q l s).cen = s.cen := rfl
@[simp] theorem setQueue_arc (b : Block) (q : Nat) (l : List QCmd) (s : State) : (setQueue b q l s).arc = s.arc := rfl
@[simp] theorem setQueue_mem (b : Block) (q : Nat) (l : List QCmd) (s : State) : (setQueue b q l s).mem = s.mem := rfl

@[simp] theorem setSeq_pending (m : Nat) (q : Seq) (s : State) : (setSeq m q s).pending = s.pending := rfl
@[simp] theorem setSeq_out (m : Nat) (q : Seq) (s : State) : (setSeq m q s).out = s.out := rfl
@[simp] theorem setSeq_fresh (m : Nat) (q : Seq) (s : State) : (setSeq m q s).fresh = s.fresh := rfl
@[simp] theorem setSeq_ft (m : Nat) (q : Seq) (s : State) : (setSeq m q s).ft = s.ft := rfl
@[simp] theorem setSeq_pins (m : Nat) (q : Seq) (s : State) : (setSeq m q s).pins = s.pins := rfl
@[simp] theorem setSeq_cmp (m : Nat) (q : Seq) (s : State) : (setSeq m q s).cmp = s.cmp := rfl
@[simp] theorem setSeq_pair (m : Nat) (q : Seq) (s : State) : (setSeq m q s).pair = s.pair := rfl
@[simp] theorem setSeq_mer (m : Nat) (q : Seq) (s : State) : (setSeq m q s).mer = { s.mer with seqs := s.mer.seqs.set m q } := rfl
@[simp] theorem setSeq_per (m : Nat) (q : Seq) (s : State) : (setSeq m q s).per = s.per := rfl
@[simp] theorem setSeq_edg (m : Nat) (q : Seq) (s : State) : (setSeq m q s).edg = s.edg := rfl
@[simp] theorem setSeq_lat (m : Nat) (q : Seq) (s : State) : (setSeq m q s).lat = s.lat := rfl
@[simp] theorem setSeq_loc (m : Nat) (q : Seq) (s : State) : (setSeq m q s).loc = s.loc := rfl
@[simp] theorem setSeq_pln (m : Nat) (q : Seq) (s : State) : (setSeq m q s).pln = s.pln := rfl
@[simp] theorem setSeq_fld (m : Nat) (q : Seq) (s : State) : (setSeq m q s).fld = s.fld := rfl
@[simp] theorem setSeq_eng (m : Nat) (q : Seq) (s : State) : (setSeq m q s).eng = s.eng := rfl
@[simp] theorem setSeq_vtx (m : Nat) (q : Seq) (s : State) : (setSeq m q s).vtx = s.vtx := rfl
@[simp] theorem setSeq_chd (m : Nat) (q : Seq) (s : State) : (setSeq m q s).chd = s.chd := rfl
@[simp] theorem setSeq_cone (m : Nat) (q : Seq) (s : State) : (setSeq m q s).cone = s.cone := rfl
@[simp] theorem setSeq_orb (m : Nat) (q : Seq) (s : State) : (setSeq m q s).orb = s.orb := rfl
@[simp] theorem setSeq_apx (m : Nat) (q : Seq) (s : State) : (setSeq m q s).apx = s.apx := rfl
@[simp] theorem setSeq_cen (m : Nat) (q : Seq) (s : State) : (setSeq m q s).cen = s.cen := rfl
@[simp] theorem setSeq_arc (m : Nat) (q : Seq) (s : State) : (setSeq m q s).arc = s.arc := rfl
@[simp] theorem setSeq_mem (m : Nat) (q : Seq) (s : State) : (setSeq m q s).mem = s.mem := rfl

@[simp] theorem setTray_pending (t : Nat) (x : Tray) (s : State) : (setTray t x s).pending = s.pending := rfl
@[simp] theorem setTray_out (t : Nat) (x : Tray) (s : State) : (setTray t x s).out = s.out := rfl
@[simp] theorem setTray_fresh (t : Nat) (x : Tray) (s : State) : (setTray t x s).fresh = s.fresh := rfl
@[simp] theorem setTray_ft (t : Nat) (x : Tray) (s : State) : (setTray t x s).ft = s.ft := rfl
@[simp] theorem setTray_pins (t : Nat) (x : Tray) (s : State) : (setTray t x s).pins = s.pins := rfl
@[simp] theorem setTray_cmp (t : Nat) (x : Tray) (s : State) : (setTray t x s).cmp = s.cmp := rfl
@[simp] theorem setTray_pair (t : Nat) (x : Tray) (s : State) : (setTray t x s).pair = s.pair := rfl
@[simp] theorem setTray_mer (t : Nat) (x : Tray) (s : State) : (setTray t x s).mer = s.mer := rfl
@[simp] theorem setTray_per (t : Nat) (x : Tray) (s : State) : (setTray t x s).per = s.per := rfl
@[simp] theorem setTray_edg (t : Nat) (x : Tray) (s : State) : (setTray t x s).edg = s.edg := rfl
@[simp] theorem setTray_lat (t : Nat) (x : Tray) (s : State) : (setTray t x s).lat = s.lat := rfl
@[simp] theorem setTray_loc (t : Nat) (x : Tray) (s : State) : (setTray t x s).loc = s.loc := rfl
@[simp] theorem setTray_pln (t : Nat) (x : Tray) (s : State) : (setTray t x s).pln = { s.pln with trays := s.pln.trays.set t x } := rfl
@[simp] theorem setTray_fld (t : Nat) (x : Tray) (s : State) : (setTray t x s).fld = s.fld := rfl
@[simp] theorem setTray_eng (t : Nat) (x : Tray) (s : State) : (setTray t x s).eng = s.eng := rfl
@[simp] theorem setTray_vtx (t : Nat) (x : Tray) (s : State) : (setTray t x s).vtx = s.vtx := rfl
@[simp] theorem setTray_chd (t : Nat) (x : Tray) (s : State) : (setTray t x s).chd = s.chd := rfl
@[simp] theorem setTray_cone (t : Nat) (x : Tray) (s : State) : (setTray t x s).cone = s.cone := rfl
@[simp] theorem setTray_orb (t : Nat) (x : Tray) (s : State) : (setTray t x s).orb = s.orb := rfl
@[simp] theorem setTray_apx (t : Nat) (x : Tray) (s : State) : (setTray t x s).apx = s.apx := rfl
@[simp] theorem setTray_cen (t : Nat) (x : Tray) (s : State) : (setTray t x s).cen = s.cen := rfl
@[simp] theorem setTray_arc (t : Nat) (x : Tray) (s : State) : (setTray t x s).arc = s.arc := rfl
@[simp] theorem setTray_mem (t : Nat) (x : Tray) (s : State) : (setTray t x s).mem = s.mem := rfl

@[simp] theorem touchSession_pending (k : Nat) (spdm : Bool) (s : State) : (touchSession k spdm s).pending = s.pending := rfl
@[simp] theorem touchSession_out (k : Nat) (spdm : Bool) (s : State) : (touchSession k spdm s).out = s.out := rfl
@[simp] theorem touchSession_fresh (k : Nat) (spdm : Bool) (s : State) : (touchSession k spdm s).fresh = s.fresh := rfl
@[simp] theorem touchSession_ft (k : Nat) (spdm : Bool) (s : State) : (touchSession k spdm s).ft = s.ft := rfl
@[simp] theorem touchSession_pins (k : Nat) (spdm : Bool) (s : State) : (touchSession k spdm s).pins = s.pins := rfl
@[simp] theorem touchSession_cmp (k : Nat) (spdm : Bool) (s : State) : (touchSession k spdm s).cmp = { s.cmp with sessions := s.cmp.sessions.set k { isOpen := true, spdm := spdm, last := s.ft } } := rfl
@[simp] theorem touchSession_pair (k : Nat) (spdm : Bool) (s : State) : (touchSession k spdm s).pair = s.pair := rfl
@[simp] theorem touchSession_mer (k : Nat) (spdm : Bool) (s : State) : (touchSession k spdm s).mer = s.mer := rfl
@[simp] theorem touchSession_per (k : Nat) (spdm : Bool) (s : State) : (touchSession k spdm s).per = s.per := rfl
@[simp] theorem touchSession_edg (k : Nat) (spdm : Bool) (s : State) : (touchSession k spdm s).edg = s.edg := rfl
@[simp] theorem touchSession_lat (k : Nat) (spdm : Bool) (s : State) : (touchSession k spdm s).lat = s.lat := rfl
@[simp] theorem touchSession_loc (k : Nat) (spdm : Bool) (s : State) : (touchSession k spdm s).loc = s.loc := rfl
@[simp] theorem touchSession_pln (k : Nat) (spdm : Bool) (s : State) : (touchSession k spdm s).pln = s.pln := rfl
@[simp] theorem touchSession_fld (k : Nat) (spdm : Bool) (s : State) : (touchSession k spdm s).fld = s.fld := rfl
@[simp] theorem touchSession_eng (k : Nat) (spdm : Bool) (s : State) : (touchSession k spdm s).eng = s.eng := rfl
@[simp] theorem touchSession_vtx (k : Nat) (spdm : Bool) (s : State) : (touchSession k spdm s).vtx = s.vtx := rfl
@[simp] theorem touchSession_chd (k : Nat) (spdm : Bool) (s : State) : (touchSession k spdm s).chd = s.chd := rfl
@[simp] theorem touchSession_cone (k : Nat) (spdm : Bool) (s : State) : (touchSession k spdm s).cone = s.cone := rfl
@[simp] theorem touchSession_orb (k : Nat) (spdm : Bool) (s : State) : (touchSession k spdm s).orb = s.orb := rfl
@[simp] theorem touchSession_apx (k : Nat) (spdm : Bool) (s : State) : (touchSession k spdm s).apx = s.apx := rfl
@[simp] theorem touchSession_cen (k : Nat) (spdm : Bool) (s : State) : (touchSession k spdm s).cen = s.cen := rfl
@[simp] theorem touchSession_arc (k : Nat) (spdm : Bool) (s : State) : (touchSession k spdm s).arc = s.arc := rfl
@[simp] theorem touchSession_mem (k : Nat) (spdm : Bool) (s : State) : (touchSession k spdm s).mem = s.mem := rfl

@[simp] theorem useFresh_pending (s : State) : (useFresh s).pending = s.pending := rfl
@[simp] theorem useFresh_out (s : State) : (useFresh s).out = s.out := rfl
@[simp] theorem useFresh_fresh (s : State) : (useFresh s).fresh = s.fresh + 1 := rfl
@[simp] theorem useFresh_ft (s : State) : (useFresh s).ft = s.ft := rfl
@[simp] theorem useFresh_pins (s : State) : (useFresh s).pins = s.pins := rfl
@[simp] theorem useFresh_cmp (s : State) : (useFresh s).cmp = s.cmp := rfl
@[simp] theorem useFresh_pair (s : State) : (useFresh s).pair = s.pair := rfl
@[simp] theorem useFresh_mer (s : State) : (useFresh s).mer = s.mer := rfl
@[simp] theorem useFresh_per (s : State) : (useFresh s).per = s.per := rfl
@[simp] theorem useFresh_edg (s : State) : (useFresh s).edg = s.edg := rfl
@[simp] theorem useFresh_lat (s : State) : (useFresh s).lat = s.lat := rfl
@[simp] theorem useFresh_loc (s : State) : (useFresh s).loc = s.loc := rfl
@[simp] theorem useFresh_pln (s : State) : (useFresh s).pln = s.pln := rfl
@[simp] theorem useFresh_fld (s : State) : (useFresh s).fld = s.fld := rfl
@[simp] theorem useFresh_eng (s : State) : (useFresh s).eng = s.eng := rfl
@[simp] theorem useFresh_vtx (s : State) : (useFresh s).vtx = s.vtx := rfl
@[simp] theorem useFresh_chd (s : State) : (useFresh s).chd = s.chd := rfl
@[simp] theorem useFresh_cone (s : State) : (useFresh s).cone = s.cone := rfl
@[simp] theorem useFresh_orb (s : State) : (useFresh s).orb = s.orb := rfl
@[simp] theorem useFresh_apx (s : State) : (useFresh s).apx = s.apx := rfl
@[simp] theorem useFresh_cen (s : State) : (useFresh s).cen = s.cen := rfl
@[simp] theorem useFresh_arc (s : State) : (useFresh s).arc = s.arc := rfl
@[simp] theorem useFresh_mem (s : State) : (useFresh s).mem = s.mem := rfl

@[simp] theorem usePage_pending (p : Nat) (s : State) : (usePage p s).pending = s.pending := rfl
@[simp] theorem usePage_out (p : Nat) (s : State) : (usePage p s).out = s.out := rfl
@[simp] theorem usePage_fresh (p : Nat) (s : State) : (usePage p s).fresh = s.fresh := rfl
@[simp] theorem usePage_ft (p : Nat) (s : State) : (usePage p s).ft = s.ft := rfl
@[simp] theorem usePage_pins (p : Nat) (s : State) : (usePage p s).pins = s.pins := rfl
@[simp] theorem usePage_cmp (p : Nat) (s : State) : (usePage p s).cmp = s.cmp := rfl
@[simp] theorem usePage_pair (p : Nat) (s : State) : (usePage p s).pair = s.pair := rfl
@[simp] theorem usePage_mer (p : Nat) (s : State) : (usePage p s).mer = s.mer := rfl
@[simp] theorem usePage_per (p : Nat) (s : State) : (usePage p s).per = s.per := rfl
@[simp] theorem usePage_edg (p : Nat) (s : State) : (usePage p s).edg = s.edg := rfl
@[simp] theorem usePage_lat (p : Nat) (s : State) : (usePage p s).lat = s.lat := rfl
@[simp] theorem usePage_loc (p : Nat) (s : State) : (usePage p s).loc = s.loc := rfl
@[simp] theorem usePage_pln (p : Nat) (s : State) : (usePage p s).pln = { s.pln with clock := s.pln.clock + 1, use := s.pln.use.set p (s.pln.clock + 1) } := rfl
@[simp] theorem usePage_fld (p : Nat) (s : State) : (usePage p s).fld = s.fld := rfl
@[simp] theorem usePage_eng (p : Nat) (s : State) : (usePage p s).eng = s.eng := rfl
@[simp] theorem usePage_vtx (p : Nat) (s : State) : (usePage p s).vtx = s.vtx := rfl
@[simp] theorem usePage_chd (p : Nat) (s : State) : (usePage p s).chd = s.chd := rfl
@[simp] theorem usePage_cone (p : Nat) (s : State) : (usePage p s).cone = s.cone := rfl
@[simp] theorem usePage_orb (p : Nat) (s : State) : (usePage p s).orb = s.orb := rfl
@[simp] theorem usePage_apx (p : Nat) (s : State) : (usePage p s).apx = s.apx := rfl
@[simp] theorem usePage_cen (p : Nat) (s : State) : (usePage p s).cen = s.cen := rfl
@[simp] theorem usePage_arc (p : Nat) (s : State) : (usePage p s).arc = s.arc := rfl
@[simp] theorem usePage_mem (p : Nat) (s : State) : (usePage p s).mem = s.mem := rfl

end Sys2Proof.Machine
end

