-- ==== Sys2Proof/Laws/Shared.lean ====
section
/-!
SUPPORT. The operations that many commands share, each in the form the statements use it.
-/
namespace Sys2Proof.Machine

/-- R542, R553, R554: a session that is served is noted, and its command goes on. -/
theorem mgmtGate_admits {s : State} {k tag roles : Nat} {need : Role} {r : Bool} {f : State → Res} (h : Admits s k roles need) :
    mgmtGate (.mgmt k tag roles) need r f s = f (touchSession k false s) := by
  obtain ⟨h1, h2, h3, h4⟩ := h
  simp [mgmtGate, h1, h2, h4, h3]

/-- R554: a session without the role is told so. -/
theorem mgmtGate_forbidden {s : State} {k tag roles : Nat} {need : Role} {r : Bool} {f : State → Res} (h1 : mgmtAnswers s = true)
    (h2 : sessionRoom k false s = true) (h3 : s.cmp.boot ≠ .recovery) (h4 : roleOk need roles = false) :
    mgmtGate (.mgmt k tag roles) need r f s = .next (reply (.mgmt k tag roles) cNP (touchSession k false s)) := by
  simp [mgmtGate, h1, h2, h4, h3]

theorem touchSession_served (s : State) (k : Nat) : (touchSession k false s).cmp = served s k := rfl

/-- R33: with no running partner a mirrored change takes effect at once. -/
theorem mirrorThen_alone {s : State} (m : Mirror) (act : MirAct) (k : State → State) (h : hasPartner s = false) :
    mirrorThen m act k s = k s := by
  simp [mirrorThen, h]

theorem hasPartner_alone {s : State} (h : s.pair.partnerRunning = false) : hasPartner s = false := by
  simp [hasPartner, h]

/-- R649: a command that names no object and that no program issued answers its requester. -/
theorem finishCmd_plain (c : QCmd) (k : Cpl) (s : State) (hi : c.issuer = none) : finishCmd c none k s = reply c.req k s := by
  simp [finishCmd, hi, completionAdd]

theorem reply_port (p node tag : Nat) (c : Cpl) (s : State) : reply (.port p node tag) c s = emit (.cpl (.port p node tag) c) s := rfl
theorem reply_mgmt (k tag roles : Nat) (c : Cpl) (s : State) : reply (.mgmt k tag roles) c s = emit (.cpl (.mgmt k tag roles) c) s := rfl

/-! ### Frames -/

/-- Two states that agree in every part agree outside any. -/
theorem Only.refl (l : List Part) (s : State) : Only l s s := by intro p _; cases p <;> rfl

/-- A frame through a state in between. -/
theorem Only.trans {l : List Part} {s t u : State} (h : Only l s t) (k : Only l t u) : Only l s u := by
  intro p hp
  have a := h p hp
  have b := k p hp
  cases p <;> exact Eq.trans b a

/-- A frame holds of more parts. -/
theorem Only.mono {l m : List Part} {s t : State} (h : Only l s t) (hs : ∀ p ∈ l, p ∈ m) : Only m s t :=
  fun p hp => h p fun hq => hp (hs p hq)

/-- A frame, part by part. -/
theorem Only.of {l : List Part} {s t : State} (h : ∀ p, p ∈ l ∨ SamePart s t p) : Only l s t :=
  fun p hp => (h p).resolve_left hp

theorem only_emit (o : Out) (s : State) : Only [.out] s (emit o s) := by
  intro p hp; cases p <;> first | exact absurd List.mem_cons_self hp | rfl

theorem only_useFresh (s : State) : Only [.fresh] s (useFresh s) := by
  intro p hp; cases p <;> first | exact absurd List.mem_cons_self hp | rfl

theorem only_touchSession (k : Nat) (b : Bool) (s : State) : Only [.cmp] s (touchSession k b s) := by
  intro p hp; cases p <;> first | exact absurd List.mem_cons_self hp | rfl

theorem sameMem_of_mem {s t : State} (h : t.mem = s.mem) : SameMem s t := by intro a; rw [h]

/-! ### A tick -/

theorem tick_stopped {s : State} (h : ftRuns s = false) : tick s = s := by simp [tick, h]

theorem tick_plain {s : State} (h : ftRuns s = true) (hs : s.mer.slewRem = 0) :
    tick s = { s with ft := (s.ft + 1) % 2 ^ 64, mer := { s.mer with slewPhase := 0 } } := by
  simp [tick, h, hs]

end Sys2Proof.Machine
end

