-- ==== Sys2Proof/Laws/Tab.lean ====
section
/-!
SUPPORT. Sparse tables: what an index holds after an entry is set, removed or changed.
-/
namespace Sys2Proof.Machine

variable {α : Type} [Inhabited α]

@[simp] theorem Tab.get_nil (k : Nat) : Tab.get ([] : Tab α) k = default := rfl

theorem Tab.get_put (t : Tab α) (k j : Nat) (x : α) : (t.put k x).get j = if j = k then x else t.get j := by
  induction t with
  | nil =>
    simp only [Tab.put, Tab.get]
    by_cases h : k = j
    · rw [if_pos h, if_pos h.symm]
    · rw [if_neg h, if_neg (Ne.symm h)]
  | cons e t ih =>
    obtain ⟨i, v⟩ := e
    simp only [Tab.put]
    split
    · simp only [Tab.get]
      by_cases h : k = j
      · rw [if_pos h, if_pos h.symm]
      · rw [if_neg h, if_neg (Ne.symm h)]
    · split
      · rename_i h; subst h
        simp only [Tab.get]
        by_cases h : k = j
        · rw [if_pos h, if_pos h.symm]
        · rw [if_neg h, if_neg (Ne.symm h), if_neg h]
      · simp only [Tab.get, ih]
        by_cases h : i = j
        · rw [if_pos h, if_pos h, if_neg (by omega)]
        · rw [if_neg h, if_neg h]

theorem Tab.get_del (t : Tab α) (k j : Nat) : (t.del k).get j = if j = k then default else t.get j := by
  induction t with
  | nil => simp [Tab.del]
  | cons e t ih =>
    obtain ⟨i, v⟩ := e
    simp only [Tab.del]
    split
    · rename_i h; subst h
      rw [ih]
      by_cases h : j = i
      · rw [if_pos h, if_pos h]
      · rw [if_neg h, if_neg h, Tab.get, if_neg (Ne.symm h)]
    · simp only [Tab.get, ih]
      by_cases h : i = j
      · rw [if_pos h, if_pos h, if_neg (by omega)]
      · rw [if_neg h, if_neg h]

variable [DecidableEq α]

theorem Tab.get_set (t : Tab α) (k j : Nat) (x : α) : (t.set k x).get j = if j = k then x else t.get j := by
  unfold Tab.set
  split
  · rename_i h; rw [Tab.get_del, h]
  · exact Tab.get_put t k j x

@[simp] theorem Tab.get_set_same (t : Tab α) (k : Nat) (x : α) : (t.set k x).get k = x := by rw [Tab.get_set, if_pos rfl]
theorem Tab.get_set_ne (t : Tab α) {k j : Nat} (x : α) (h : j ≠ k) : (t.set k x).get j = t.get j := by rw [Tab.get_set, if_neg h]
@[simp] theorem Tab.get_mod_same (t : Tab α) (k : Nat) (f : α → α) : (t.mod k f).get k = f (t.get k) := Tab.get_set_same ..
theorem Tab.get_mod_ne (t : Tab α) {k j : Nat} (f : α → α) (h : j ≠ k) : (t.mod k f).get j = t.get j := Tab.get_set_ne t _ h

end Sys2Proof.Machine
end

