-- ==== Sys2Proof/Tests/Slice0.lean ====
section
/-!
SUPPORT. Tests: the well-formedness smoke, the spec's worked examples, and for each statement a state and operands that meet
the premises of its clauses.
-/
namespace Sys2Proof.Tests
open Sys2Proof Sys2Proof.Machine

set_option synthInstance.maxSize 100000
set_option synthInstance.maxHeartbeats 4000000
set_option maxRecDepth 100000
set_option Elab.async false

/-! ### States for the tests -/

/-- The state a command leaves. -/
def endOf (r : Res) : State := match r with | .next t => t | _ => {}

/-- A switch that runs without a partner. -/
def base : State := { pins := { porstN := true }, cmp := { boot := .running } }

/-- An image that verifies. -/
def goodImage : Image :=
  { hdr := { magic := 0x49435655, format := 1, stepping := 0xB0, svn := 3, length := 50331648, nsec := 14, sigOk := true, fwSigOk := true,
             sections := (List.range 14).map fun i => { typ := i + 1, offset := 4096 * (i + 1), length := 1 } },
    energy := { rows := [0x6, 0x7, 0x9, 0xB, 0xC, 0xD, 0xE, 0xF].map fun b => { block := b, op := 0xF } } }

/-- A running switch whose port 3 is a privileged XCL port of partition 1, up. -/
def portBase : State := { base with edg := { ports := [(3, { mode := .xcl, st := .up, part := some 1, priv := true })] } }

/-- The configuration of partition 1: 64 pool pages, contexts 0 to 15, every sequencer, objects 0 to 15, and node 7 at port 3. -/
def partImage : Image :=
  { parts := [{ part := 1, pool := [(0, 64)], prismFrames := 64, ddrFrames := 64, trayFrames := 64, ctxCount := 16, fqSize := 4, walkQuota := 4,
                waiterQuota := 8, wayMask := 1, vtxWayMask := 1, trackerRsv := 64, rsvCells := 64, objs := [(0, 16)], seqs := List.range 132 }],
    nodes := [{ node := 7, port := 3, part := 1 }] }

/-- A segment that maps the pool directly, readable, writable and atomic. -/
def directSeg : List Nat := [114, 64 * pageBytes - 1, 0, 0]

/-- A running switch with that partition: its first four pages lie in Prism, contexts 0 and 1 map them for the engines and for
node 7, whose port 3 is up and privileged. -/
def memState : State :=
  { portBase with
    cmp := { boot := .running, active := partImage },
    loc := { ctxs := [(0, { valid := true, segs := [directSeg] }), (1, { valid := true, endpoint := 7, segs := [directSeg] })] },
    pln := { pages := (List.range 4).map fun i => (i, { st := .resident, frame := { tier := .prism, n := i } }) } }

/-- That switch with domain 1 in a state, at an Angle, with node 7 as its one source there. -/
def domState (st : DomState) (a : Nat) : State :=
  { memState with mer := { doms := [(1, { st := st, angle := a, sources := [(7, a)], commit := 1 })] } }

/-- That switch with object 2 of partition 1 in a mode, with a value and waiters; its target is 10, its generation 1. -/
def objState (m : ObjMode) (v : Nat) (ws : List Waiter) : State :=
  { memState with mer := { objs := [(2, { part := 1, mode := m, target := 10, value := v, gen := 1, waiters := ws })] } }

/-- That switch with sequencer 0 of partition 1, about to execute a word. -/
def seqState (w : Nat) (q : Seq := { run := .running }) : State :=
  { memState with
    mer := { seqs := [(0, { q with part := 1, owned := true })] },
    cmp := { boot := .running, active := { partImage with programs := [{ seq := 0, code := [w], entries := [some 0] }] } } }

/-- A running switch with an Ethernet port 5, up, of a flow-control mode. -/
def ethState (m : Nat) : State :=
  { base with edg := { ports := [(5, { mode := .eth, st := .up, part := some 1 })] },
              cmp := { boot := .running, active := { ethCfg := [{ port := 5, mode := m, pfcEn := 255 }] } } }


/-- A command of Plane for one page of segment 0, with more bits in word 0. -/
def cmdAt (op p extra : Nat) : QCmd :=
  { part := 1, words := [op + extra, p * pageBytes, 1, 0, 0, 0, 0, 0], req := .port 3 7 1 }

/-- That switch once Plane has taken the command: pages 0 to 3 lie in Prism, page 4 in DDR5, and channel 0 is active. -/
def plnTaken (_ : QCmd) : State :=
  { memState with
    pln := { pages := (List.range 4).map (fun i => (i, { st := .resident, frame := { tier := .prism, n := i } })) ++ [(4, { st := .resident, frame := { tier := .ddr } })],
             chans := [(0, { st := .active })] } }

/-- That switch with the command issued to queue 0 of Plane. -/
def plnState (c : QCmd) : State := { plnTaken c with eng := { issued := [(qKey .plane 0, [c])] } }

/-- A running switch whose ports 3 and 4 of partition 1 are coherent and privileged, whose pages 0 to 3 lie in Prism, and whose
contexts map them COHERENT for the engines and for node 7. -/
def cohState (v : Vertex) : State :=
  { memState with
    edg := { ports := [(3, { mode := .xcl, st := .up, part := some 1, priv := true, coherent := true }), (4, { mode := .xcl, st := .up, part := some 1, priv := true, coherent := true })] },
    loc := { ctxs := [(0, { valid := true, segs := [[242, 64 * pageBytes - 1, 0, 0]] }), (1, { valid := true, endpoint := 7, segs := [[242, 64 * pageBytes - 1, 0, 0]] })] },
    vtx := v }

/-- A transaction of agent 3 on line 2 whose memory access is under way. -/
def vq (op : CohOp) : VTxn :=
  { line := 2, mem := true,
    req := { who := .port 3 7 1, agent := 3, part := 1, tag := 1, op := .coh op, line := 2, off := 8, priv := true, data := List.replicate 128 5, atom := some (.fetchAdd, 1, 5, 0) } }

/-- A command of Vertex for line 2, with its operation. -/
def vcmd (op : Nat) : QCmd := { part := 1, words := [op, 256, 1, 0], req := .port 3 7 1 }

/-- Engine 2 of Chord belongs to partition 1 of that switch; the member table at 0x1000 names one member at 0x2000. -/
def chState (g : ChdEng) : State :=
  { memState with mer := { seqs := [(2, { part := 1, owned := true })] }, chd := { engs := [(2, g)] }, mem := [(4097, 32)] }

/-- A collective of one member and one element, with its word 0. -/
def chCmd (w0 : Nat) : QCmd :=
  { part := 1, words := [w0, 9 + (if w0 % 16 = 5 then 0 else 65536), 0, 1, 4096, 12288, 0, 16384, 16384, 2 ^ 32 + 1, 0], req := .port 3 7 1 }

/-- Its instance. -/
def chInst (w0 : Nat) : Inst := { cmd := chCmd w0, tag := 9, table := [(8192, 0)] }

/-- A REDUCE over a group of `g` switches, and its instance. -/
def hierCmd (g : Nat) : QCmd := { part := 1, words := [1 + 2 ^ 18, 9 + 65536, 0, 1, 4096, 12288, 0, 0, 0, 0, g], req := .port 3 7 1 }
def hierInst (g : Nat) : Inst := { cmd := hierCmd g, tag := 9, table := [(8192, 0)] }

/-- The state once a block has taken a command. -/
def afterTake (o : Option (QCmd × State)) : State := match o with | some (_, u) => u | none => {}

/-- A KV segment of one layer, records of 128 bytes, 16 tokens a page and one page a slot, its root table a level-2 one. -/
def kvSeg : List Nat := [59, 4 * pageBytes - 1, 0, 1 + 8 * 2 ^ 12 + 16 * 2 ^ 28 + 2 ^ 40]

/-- That switch with engine 2 of Cone in group 0, and session 5 attached on a KV segment. -/
def coneState (k : Cone) : State :=
  { memState with
    cmp := { boot := .running, active := { partImage with coneGroups := [{ part := 1, engines := [2] }] } },
    loc := { ctxs := [(0, { valid := true, segs := [directSeg, kvSeg] })] },
    mer := { seqs := [(34, { part := 1, owned := true })] },
    orb := { sess := [(5, { st := .attached, part := 1, seg := 1, slot := some 0 })] },
    -- the segment's tables: one at 0, and one at 0x3000 that maps page 1
    mem := [(0, 1), (1, 48), (12288, 15), (12290, 32)],
    cone := k }

/-- A QUERY of one head of 32 bf16 elements over one token, its command, a BATCH of one member, and the query in progress. -/
def coneHdr : List Nat := [1 + 2 ^ 9, 5, 2 ^ 23, 1 + 2 ^ 4 + 2 ^ 8 + 2 ^ 16 + 2 ^ 32, 0, 4096, 8192, 0]
def coneCmd : QCmd := { id := 2, part := 1, words := coneHdr, req := .port 3 7 1 }
def batchCmd : QCmd := { id := 2, part := 1, words := [2, 1, 0, 0, 0, 4096, 0, 0], req := .port 3 7 1 }
def coneSl : Slice := { engine := 2, count := 1, active := true, heads := [{ o := List.replicate 32 0 }] }
def coneQ : Query :=
  { id := 4, cmd := coneCmd, hdr := coneHdr, vecs := List.replicate 64 0, num := 5, seg := 1, segw := kvSeg, lead := 2, slices := [coneSl],
    acc := [{ o := List.replicate 32 0 }] }

/-- A session that is PARKED at COLD, one that is ATTACHED, and a command of Orbit for it. -/
def parkedSess : Sess := { st := .parked, depth := .cold, part := 1, seg := 1, chunks := [0], recChunks := [1] }
def attSess : Sess := { st := .attached, part := 1, seg := 1, slot := some 0, group := some 0, logLen := 2, chunks := [0], recChunks := [1] }
def orbCmd (ws : List Nat) : QCmd :=
  { op := ws.headD 0 % 16, part := 1, id := 1, cls := oClass (ws.headD 0 % 16), words := ws, req := .port 3 7 1 }

/-- A running switch with session 5 of partition 1 and commands in its queue at Orbit. -/
def orbState (d : Sess) (cs : List QCmd) (cnt : Nat := 8) (js : List OrbJob := []) : State :=
  { memState with
    cmp := { boot := .running, active := { partImage with orbParts := [{ part := 1, count := cnt, logSeg := 2, spans := [(1, 1)], hotMax := 4, quantumKib := 1, hotIdleMs := 1 }] } },
    loc := { ctxs := [(0, { valid := true, segs := [directSeg, kvSeg, [50, 4194303, 4194304, 0]] })] },
    eng := { queues := [(qKey .orbit 1, cs)] },
    orb := { sess := if d = {} then [] else [(5, d)], jobs := js },
    mem := [(0, 1), (1, 48), (12288, 15), (12290, 32)] }

/-- A running request of partition 1 for session 5, whose ring lies at 0x4000 and whose result record lies at 0x8000. -/
def apxR : ApxReq :=
  { st := .running, part := 1, img := [1 + 32, 5 * 2 ^ 32, 0, 7, 16384, 6, 0, 0x3F800000, 0x3F800000, 0, 0, 0, 0, 32768, 0, 0] }
def apxCmd (ws : List Nat) : QCmd := { op := ws.headD 0 % 16, part := 1, id := 1, cls := .generation, words := ws, req := .port 3 7 1 }
def apxState (rs : List (Nat × ApxReq)) (cs : List QCmd) : State :=
  { memState with
    cmp := { boot := .running, active := { partImage with apxParts := [{ part := 1, count := 4, slotQuota := 4, quantumKib := 1 }], orbParts := [{ part := 1, count := 8, quantumKib := 1 }] } },
    eng := { queues := [(qKey .apex 1, cs)] },
    orb := { sess := [(5, parkedSess)] },
    apx := { reqs := rs } }
def afterServe (o : Option (Nat × ApxReq × State)) : State := match o with | some (_, _, u) => u | none => {}

/-- An index of one cluster of 32 elements, its descriptor at 0, with one record on its side list. -/
def cenW : List Nat := [4 * 2 ^ 32, 4096, 8192, 12288, 8 + 10 * 2 ^ 32, 32768]
def cenI : Idx := { isOpen := true, part := 1, words := cenW, seq := 5, tail := 1 }
def cenCmd (ws : List Nat) : QCmd := { op := ws.headD 0 % 16, part := 1, cls := .generation, words := ws, req := .port 3 7 1 }
def cenSrch (c : QCmd) : Srch := { cmd := c, asOf := 5, tail := 1, qs := [{ vec := List.replicate 32 0 }] }
def cenState (is : List (Nat × Idx)) (cs : List QCmd) : State :=
  { memState with
    cmp := { boot := .running, active := { partImage with cenParts := [{ part := 1, count := 4 }] } },
    mer := { seqs := [(96, { part := 1, owned := true })] },
    eng := { issued := [(qKey .centroid 0, cs)] },
    cen := { idxs := is } }

/-- An XCL port of partition 1 that is up, with its five lanes, and a running switch whose port 3 it is; the epoch store holds
its peer's record 1. -/
def lnkPort (x : Port) : Port :=
  { x with mode := .xcl, st := .up, part := some 1, priv := true, peer := some 77, lanes := freshLanes false false }
def portIn (x : Port) : State :=
  { base with
    edg := { ports := [(3, x)] },
    per := { store := [(1, { s0 := { seq := 1, value := 4, tag := 77, valid := true, zero := false } })] } }
def upPort (x : Port) : State := portIn (lnkPort x)
def agreeIn (a : Agree) : State := { upPort {} with edg := { ports := [(3, lnkPort {})], agrees := [a] } }
def shadowPort : Port := setLane 4 { rx := .spare, tx := .shadow, txPos := 1 } (lnkPort {})
def worn : Port := setLane 1 { rxPos := 1, txPos := 1, windows := 3 } (lnkPort {})

/-- A running switch of role A, PAIRED over one pair port. -/
def pairUp : State :=
  { base with
    edg := { ports := [(256, { mode := .pair, st := .up })], pairTmo := 0 },
    ft := 1000,
    pair := { st := .paired, partnerRunning := true, linkUp := true, aliveInDeb := true } }

/-- A running switch with an Ethernet port 5 and an XCL port 3 of partition 1, a table entry for address 9, and queue pairs 2
and 4. -/
def netQp : QpCfg := { qp := 2, window := true, part := 1, port := 5, base := 8192, limit := 64, rkey := 6 }
def netState : State :=
  { memState with
    edg := { ports := [(3, { mode := .xcl, st := .up, part := some 1, priv := true }), (5, { mode := .eth, st := .up, part := some 1 })],
             qps := [(2, { st := .rts }), (4, { st := .rts, unacked := [1] })] },
    cmp := { boot := .running, active := { partImage with ethFwd := [{ mac := 9, part := 1, port := 3 }], qps := [netQp, { netQp with qp := 4 }] } } }

/-! ### Well-formedness: a term that each check refuses, and its neighbour that it accepts -/

/-- A command out of the range of each check. -/
theorem test_ill_formed_refused :
    [Instr.minReload (.mgmt 6 0 0), .minReload (.mgmt 0 (2 ^ 32) 0), .minReload (.mgmt 0 0 16), .minReload (.port 256 0 0), .minReload (.port 0 4096 0),
   .optRefclkFail 2, .pcieRefclkFail 0 [32], .thermalTrip 65536 0, .ftCfgWrite .none (2 ^ 64), .sensorRead .none (List.replicate 257 0),
   .sensorRead .none [65536], .csrRead .none (2 ^ 52) 1, .logRead .none (2 ^ 32), .epochClear .none 512, .groupZero .none 16, .laneRetire .none 264 0,
   .registerWrite .none 4096 0 0, .angleAdvance 0 0 (2 ^ 48), .acquire .none 0 0 none 32, .halt 132, .outputDequeue 405, .fqHeadRelease .none 0 4096,
   .hint 4, .channelEvacuate 12, .trayHeadRetire 32, .wrLine {} [], .wbClean 1024 0 0, .wbClean 0 0 16, .portExclClear .none 4 0, .reduce 32,
   .query 64, .park 8, .parkDetach (2 ^ 24), .sampleTimeout 32768, .mergeCommit 2048, .ethFrameFromXcl 0 8 0 none [],
   .roceAckTimeout 4096, .roceAckRx 0 (2 ^ 24) none, .roceSendRx 0 0 0 0 (List.replicate 513 0) false, .roceSendRx 0 0 0 0 [2 ^ 64] false, .laserModuleRemoved 22].all (fun i => !i.wf) = true := by decide +kernel

/-- The greatest operands that the checks accept. -/
theorem test_well_formed_accepted :
    [Instr.minReload (.mgmt 5 (2 ^ 32 - 1) 15), .minReload (.port 255 4095 0), .optRefclkFail 1, .laneRetire .none 263 0, .angleAdvance 255 4095 (2 ^ 48 - 1),
     .halt 131, .outputDequeue 404, .parkDetach (2 ^ 24 - 1), .mergeCommit 2047, .wbClean 1023 0 15].all Instr.wf = true := by decide +kernel

/-! ### The spec's worked examples, and single steps -/

/-- "One key-value record of Tarsel-27T": slot 1,234, token 180,003, layer 47. -/
theorem test_kv_record :
    kvOffset [0, 0xFFFFFFFFFFFF, 0, 120 + 128 * 2 ^ 12 + 8 * 2 ^ 28 + 32768 * 2 ^ 40] 1234 180003 47 = some 0x4D2AFC8BD800 := by decide +kernel

/-- "A sparse activation row on a tray": blocks 0 to 3. -/
theorem test_stored_forms :
    [0, 92, 280, 512].map (fun n => storedForm true (List.replicate n 1 ++ List.replicate (512 - n) 0)) =
      [(.zero, 0), (.sp16, 2), (.sp16, 5), (.raw, 8)] := by decide +kernel

/-- "A prompt burst and its repayment": R 37,500,000 gives F 14, R 0 gives 16. -/
theorem test_clock_factor : (clockFactor 37500000, clockFactor 0) = (14, 16) := by decide

/-- "Three tokens for Wren-0417": with r = 0xC000_0000, weights 1 and 0.3679, token 88,410 is drawn. -/
theorem test_draw : drawFrom 0xC0000000 13679 [(1207, 10000), (88410, 3679)] 0 = some 88410 := by decide

/-- The same example: TOP_P 0.8 keeps two of the weights 1, 0.3679 and 0.1353. -/
theorem test_top_p :
    topPrefix (fix149 0x3F4CCCCD) ((10000 + 3679 + 1353) * 2 ^ 135) [(1207, 10000 * 2 ^ 135), (88410, 3679 * 2 ^ 135), (3391, 1353 * 2 ^ 135)] 0 =
      [(1207, 10000 * 2 ^ 135), (88410, 3679 * 2 ^ 135)] := by decide +kernel

/-- The example of R646: entry 515 of the fault rings, word 0. -/
theorem test_fault_entry : regAt 0x8480C0 = some (.locFault 515 0) := by decide +kernel

/-- The published answer of Philox4x32-10 for a zero key and counter. -/
theorem test_philox : philox 0 0 0 0 0 0 = (0x6627E8D5, 0xE169C58D, 0xBC57AC4C, 0x9B00DBD8) := by decide +kernel

/-- The greatest e4m3 value is 448, its encoding 0x7E (R221). -/
theorem test_e4m3 : e4m3.encode (.num false 448 0) = 0x7E := by decide +kernel

/-- The PFC example of R432: 1,000 quanta on an 800 Gb/s port pause priority 3 for 640 ns. -/
theorem test_pfc_pause :
    (endOf (execPfcFrameRx 5 8 (List.replicate 8 1000) { ethState 2 with ft := 30 })).arc.paused = [(83, 670)] := by decide +kernel

/-- R539: a privileged port's read of CMP_ID, taken from the queue. -/
theorem test_cmp_id : (endOf (step { portBase with pending := [.csrRd (.port 3 7 1) 0] })).out = [.cpl (.port 3 7 1) (cVal 0xB04410)] := by decide +kernel

/-- R69: ADD returns the old value. -/
theorem test_sync_add :
    ((endOf (execSyncAdd (.port 3 7 1) 2 4 none (objState .counter 9 []))).mer.objs.get 2).value = 13 := by decide +kernel

/-- The table gives no bits: no word spells a command. -/
theorem test_no_bits : Sys2Proof.decodeTableWord 32 0 = none := by decide

/-- R541: the release of PORST_N with the supplies good starts the ROM. -/
theorem test_porst_release : (endOf (execPorstNRelease true true true 40 State.reset)).cmp.boot = .loading := by decide +kernel

/-- R233: of two source bytes the second was written after the instance's admission: it is free. -/
theorem test_source_written :
    (freeSince (some 0) 512 [1, 2] { State.reset with fld := { wlog := [{ off := 513, len := 1 }] } }).2 = [1, Config.freeByte 0 1] := by rfl

/-- R262: what was written before stands. -/
theorem test_source_stands :
    (freeSince (some 1) 512 [1, 2] { State.reset with fld := { wlog := [{ off := 513, len := 1 }] } }).2 = [1, 2] := by decide +kernel

/-- What an operation answers with is its own end. -/
theorem ran {α β : Type} {p : α × β} {b : β} (h : p.2 = b) : p = (p.1, b) := by cases h; rfl

/-- A block that has a command to take takes it. -/
theorem taken {o : Option (QCmd × State)} {c : QCmd} (h : o.map (·.1) = some c) : o = some (c, afterTake o) := by
  match o, h with
  | some (_, u), h => cases h; rfl

/-- Zeros hold no deleted record. -/
theorem tableOf_zeros (w : List Nat) (n : Nat) : tableOf w (List.replicate n 0) = [] := by
  have zero : ∀ k, ofLE (List.replicate k (0#8)) = 0 := by
    intro k
    induction k with
    | zero => rfl
    | succ k ih => simp only [List.replicate_succ, ofLE, ih]; rfl
  have go : ∀ l : List Nat, l.foldl (fun (t : Tab (Nat × Nat)) i =>
      let seq := ofLE (((List.replicate n (0#8)).drop (16 * i + 8)).take 8)
      if seq = 0 then t else t.set i (ofLE (((List.replicate n (0#8)).drop (16 * i)).take 8), seq)) [] = [] := by
    intro l
    induction l with
    | nil => rfl
    | cons i l ih => rw [List.foldl_cons]; simp only [List.drop_replicate, List.take_replicate, zero, if_true] at ih ⊢; exact ih
  exact go _

/-- An index whose descriptor lies behind its table of deletions, all zero. -/
def ixState : State :=
  { cenState [] [cenCmd [1, 0, 0, 0, 131072, 0, 0, 0]] with mem := memStore [] 131072 ((cenW ++ [0, 0, 5, 0, 2 ^ 32]).flatMap (toLE 8)) }
def ixTaken : State := afterTake (cenTake 1 0 ixState)

theorem test_indexCommands_read :
    cenRead (cenCtx ixTaken 0 (cenCmd [1, 0, 0, 0, 131072, 0, 0, 0]).part) (xDel (cenW ++ [0, 0, 5, 0, 2 ^ 32, 0, 0, 0, 0, 0]))
      (16 * xSlots (cenW ++ [0, 0, 5, 0, 2 ^ 32, 0, 0, 0, 0, 0])) ixTaken = (ixTaken, cOk, List.replicate 16384 0) := by decide +kernel

/-! ### The premises of each statement meet -/

theorem test_powerPins_premises :
    (∃ (s : State), s.pins.porstN = false) ∧
    (∃ (s : State) (a : Bool) (b : Bool) (c : Bool), s.pins.porstN = false ∧ (a && b && c) = false) ∧
    (∃ (s : State), s.pins.releaseHeld = true) ∧
    (∃ (s : State) (core : Bool) (aux : Bool), s.pins.porstN = true ∧ (core || aux) = true) ∧
    (∃ (s : State), s.cmp.boot = .init ∧ s.pair.joinRefused = false ∧ s.cmp.bootFt + 30000000000 ≤ s.ft) :=
  ⟨⟨State.reset, by decide +kernel⟩,
    ⟨State.reset, false, true, true, by decide +kernel⟩,
    ⟨({ pins := { releaseHeld := true } } : State), by decide +kernel⟩,
    ⟨base, true, false, by decide +kernel⟩,
    ⟨({ pins := { porstN := true }, cmp := { boot := .init }, ft := 30000000000 } : State), by decide +kernel⟩⟩

theorem test_thermalTrip_premises :
    ∃ (s : State) (sensor : Nat) (value : Int), s.pins.porstN = true ∧ sensor < 8192 ∧ sensorExists sensor = true ∧ (s.cmp.tripC : Int) * 1000 ≤ value :=
  ⟨base, 0, 200000, by decide +kernel⟩

theorem test_sensorsAndBudget_premises :
    (∃ (sensor : Nat), sensorExists sensor = true ∧ 2 ≤ sensor / 4096) ∧
    (∃ (sensor : Nat), sensorExists sensor = true ∧ sensor / 4096 < 2) ∧
    (∃ (s : State), s.pins.porstN = true) :=
  ⟨⟨8192, by decide +kernel⟩,
    ⟨0, by decide +kernel⟩,
    ⟨base, by decide +kernel⟩⟩

theorem test_references_premises :
    (∃ (s : State) (k : Nat), k < 2 ∧ refOk s k = true ∧ refOk s (1 - k) = false ∧ s.edg.ports.idxs (fun _ p => p.mode != .unused) = []) ∧
    (∃ (s : State) (k : Nat), k < 2 ∧ refOk s 0 = false ∧ refOk s 1 = false) ∧
    (∃ (k : Nat), k < 2) ∧
    (∃ (k : Nat), k < 2) :=
  ⟨⟨{ base with mer := { ref0Ok := false } }, 1, by decide +kernel⟩,
    ⟨{ base with mer := { ref0Ok := false, ref1Ok := false } }, 1, by decide +kernel⟩,
    ⟨1, by decide +kernel⟩,
    ⟨0, by decide +kernel⟩⟩

theorem test_fabricTime_premises :
    (∃ (s : State) (off : Int), s.mer.portSel = false ∧ s.mer.lock ≠ .follower ∧ s.mer.ref0Ok = true ∧ s.mer.everLocked = true ∧ s.mer.ppsInEn = false ∧ -1000000 ≤ off ∧ off ≤ 1000000) ∧
    (∃ (s : State), s.mer.ppsInEn = true ∧ s.mer.everLocked = true ∧ s.mer.lock ≠ .follower) ∧
    (∃ (s : State), running s = true ∧ s.ft / 1000000000 ≠ s.mer.ppsLast) ∧
    (∃ (s : State) (k : Nat) (roles : Nat) (v : Nat), Admits s k roles .admin ∧ ((bitOf v 0 = true → (port s (bits v 8 1)).mode = .eth))) ∧
    (∃ (s : State) (k : Nat) (roles : Nat) (v : Nat), Admits s k roles .admin ∧ bitOf v 0 = true ∧ (port s (bits v 8 1)).mode ≠ .eth) :=
  ⟨⟨{ base with mer := { everLocked := true } }, -20, by decide +kernel⟩,
    ⟨{ base with mer := { everLocked := true, ppsInEn := true }, ft := 700000000 }, by decide +kernel⟩,
    ⟨{ base with ft := 1000000000 }, by decide +kernel⟩,
    ⟨base, 0, 4, 512, by decide +kernel⟩,
    ⟨base, 0, 4, 257, by decide +kernel⟩⟩

theorem test_energyEpoch_premises :
    (∃ (s : State), s.pins.porstN = true ∧ s.ft / 1000000 ≠ s.cmp.energy.epoch ∧ s.cmp.energy.deficit = 0 ∧ 0 ≤ s.cmp.energy.a ∧ s.cmp.energy.paused = false ∧ s.eng.queues = [] ∧ s.eng.issued = [] ∧ s.arc.held = [] ∧ s.orb.jobs = [] ∧ s.per.fills = [] ∧ s.arc.auditEn = false ∧ s.cmp.active.energy.fitted = 0 ∧ s.cmp.energy.base + (-(s.cmp.energy.d : Int) - s.cmp.energy.base) / 16 ≤ 500000000 ∧ 500 ≤ s.cmp.energy.capNext) ∧
    (∃ (s : State) (p : Nat) (at_ : _), s.cmp.energy.paused = true ∧ s.cmp.energy.pauseAt.find? (fun e => e.1 == p) = some (p, at_) ∧ at_ + pauseHalf s p ≤ s.ft) :=
  ⟨⟨{ base with ft := 1000000, arc := { auditEn := false } }, by decide +kernel⟩,
    ⟨{ base with ft := 1000000000, cmp := { boot := .running, energy := { paused := true, pauseAt := [(3, 0)] } } }, 3, 0, by decide +kernel⟩⟩

theorem test_logFlush_premises :
    (∃ (s : State), s.pins.porstN = true ∧ s.cmp.lastFlush + 1000000000 ≤ s.ft ∧ s.cmp.nvmA.answers = true ∧ s.cmp.nvmB.answers = true) ∧
    (∃ (s : State) (k : Nat) (roles : Nat), Admits s k roles .admin ∧ s.cmp.nvmA.answers = true ∧ s.cmp.nvmB.answers = true) :=
  ⟨⟨{ base with ft := 1000000000 }, by decide +kernel⟩,
    ⟨base, 1, 4, by decide +kernel⟩⟩

theorem test_boot_premises :
    (∃ (s : State) (hw : Hw) (i : Image), s.cmp.boot = .loading ∧ s.pins.thermtrip = false ∧ s.cmp.imageB = false ∧ s.cmp.nvmA.image = some i ∧ nvmCause s s.cmp.nvmA = 0 ∧ hw.bistFail % 65536 = 0) ∧
    (∃ (s : State), s.cmp.boot = .loading ∧ s.pins.thermtrip = false ∧ s.cmp.imageB = false ∧ nvmCause s s.cmp.nvmA ≠ 0) ∧
    (∃ (s : State), s.cmp.boot = .loading ∧ s.pins.thermtrip = false ∧ s.cmp.imageB = true ∧ nvmCause s s.cmp.nvmB ≠ 0) ∧
    (∃ (s : State), canRun s = true) ∧
    (∃ (s : State) (hw : Hw), s.pins.porstN = true ∧ (s.cmp.boot = .init ∨ s.cmp.boot = .running ∨ s.cmp.boot = .halted) ∧ s.pins.thermtrip = false ∧ s.pins.loss = false ∧ s.per.erased = false ∧ hw.bistFail % 65536 = 0) ∧
    (∃ (s : State) (k : Nat) (roles : Nat), Admits s k roles .admin ∧ s.pins.loss = false ∧ s.per.erased = false ∧ s.per.scrub = none) :=
  ⟨⟨{ State.reset with cmp := { boot := .loading, nvmA := { image := some goodImage } } }, {}, goodImage, by decide +kernel⟩,
    ⟨{ State.reset with cmp := { boot := .loading } }, by decide +kernel⟩,
    ⟨{ State.reset with cmp := { boot := .loading, imageB := true } }, by decide +kernel⟩,
    ⟨{ base with cmp := { boot := .init }, per := { pool := .founded } }, by decide +kernel⟩,
    ⟨base, {}, by decide +kernel⟩,
    ⟨base, 0, 4, by decide +kernel⟩⟩

theorem test_swaps_premises :
    (∃ (s : State) (k : Nat) (roles : Nat) (off : Nat) (len : Nat), Admits s k roles .admin ∧ s.cmp.swap = none ∧ oldBankRuns s = false ∧ len ≤ 65536 ∧ off + len ≤ 50331648 ∧ (off = 0 ∨ s.cmp.shadowSt = .loading ∧ s.cmp.shadowAt ≤ off)) ∧
    (∃ (s : State) (k : Nat) (roles : Nat) (off : Nat) (len : Nat) (img : Image), Admits s k roles .admin ∧ s.cmp.swap = none ∧ oldBankRuns s = false ∧ len ≤ 65536 ∧ off + len ≤ 50331648 ∧ (off = 0 ∨ s.cmp.shadowSt = .loading ∧ s.cmp.shadowAt ≤ off) ∧ shadowCause s (fillShadow s.cmp.active img) = 0) ∧
    (∃ (s : State) (k : Nat) (roles : Nat) (b : Bool) (i : Image), Admits s k roles .admin ∧ s.cmp.swap = none ∧ oldBankRuns s = false ∧ (slotOf b s).image = some i ∧ (slotOf b s).answers = true) ∧
    (∃ (s : State) (k : Nat) (roles : Nat) (trig : SwapTrig), Admits s k roles .admin ∧ s.cmp.shadowSt = .verified ∧ s.cmp.swap = none ∧ (match trig with | .step n _ => decide (n < 16) | _ => true) = true) ∧
    (∃ (s : State) (k : Nat) (roles : Nat) (p : SwapPend) (k2 : _) (tag2 : _) (roles2 : _), Admits s k roles .admin ∧ s.cmp.swap = some p ∧ p.req = .mgmt k2 tag2 roles2) ∧
    (∃ (s : State) (p : SwapPend), s.cmp.swap = some p ∧ swapDue s p = true ∧ swapConflict s (mergeImage s.cmp.active s.cmp.shadow) = none) ∧
    (∃ (s : State) (p : SwapPend) (b : Block) (k : _) (tag : _) (roles : _), s.cmp.swap = some p ∧ p.req = .mgmt k tag roles ∧ swapDue s p = true ∧ swapConflict s (mergeImage s.cmp.active s.cmp.shadow) = some b) :=
  ⟨⟨base, 0, 4, 0, 65536, by decide +kernel⟩,
    ⟨base, 0, 4, 0, 65536, goodImage, by decide +kernel⟩,
    ⟨{ base with cmp := { boot := .running, nvmB := { image := some goodImage } } }, 0, 4, true, goodImage, by decide +kernel⟩,
    ⟨{ base with cmp := { boot := .running, shadowSt := .verified } }, 0, 4, .ft 7, by decide +kernel⟩,
    ⟨{ base with cmp := { boot := .running, swap := some { trig := .now, req := .mgmt 0 0 4 } } }, 0, 4, { trig := .now, req := .mgmt 0 0 4 }, 0, 0, 4, by decide +kernel⟩,
    ⟨{ base with cmp := { boot := .running, swap := some { trig := .now, req := .mgmt 0 0 4 } } }, { trig := .now, req := .mgmt 0 0 4 }, by decide +kernel⟩,
    ⟨{ base with cmp := { boot := .running, swap := some { trig := .now, req := .mgmt 0 0 4 } }, mer := { seqs := [(0, { run := .running, bank := 1 })] } }, { trig := .now, req := .mgmt 0 0 4 }, .meridian, 0, 0, 4, by decide +kernel⟩⟩

theorem test_updates_premises :
    (∃ (s : State) (k : Nat) (roles : Nat) (b : Bool) (len : Nat), Admits s k roles .admin ∧ len ≤ 50331648 ∧ s.cmp.update = none ∧ nvmCause s (slotOf (!b) s) = 0) ∧
    (∃ (s : State) (u : Update) (k : _) (tag : _) (roles : _), s.cmp.update = some u ∧ u.erased = false ∧ u.who = .mgmt k tag roles) ∧
    (∃ (s : State) (k : Nat) (roles : Nat) (off : Nat) (len : Nat) (u : Update), Admits s k roles .admin ∧ s.cmp.update = some u ∧ u.erased = true ∧ len ≤ 65536 ∧ off + len ≤ u.len) ∧
    (∃ (s : State) (k : Nat) (roles : Nat) (img : Image) (u : Update), Admits s k roles .admin ∧ s.cmp.update = some u ∧ u.erased = true ∧ imageCause s (slotOf u.slotB s).answers img = 0) ∧
    (∃ (s : State) (k : Nat) (roles : Nat) (img : Image) (u : Update), Admits s k roles .admin ∧ s.cmp.update = some u ∧ u.erased = true ∧ imageCause s (slotOf u.slotB s).answers img ≠ 0) ∧
    (∃ (s : State) (k : Nat) (roles : Nat) (v : Nat), Admits s k roles .admin ∧ s.cmp.rollback < v ∧ v ≤ 128 ∧ v ≤ s.cmp.active.hdr.svn ∧ slotSvn s s.cmp.nvmA v = true ∧ slotSvn s s.cmp.nvmB v = true) ∧
    (∃ (s : State) (k : Nat) (roles : Nat) (v : Nat), Admits s k roles .admin ∧ v ≤ s.cmp.rollback) ∧
    (∃ (s : State) (k : Nat) (roles : Nat), Admits s k roles .admin ∧ s.cmp.ownerHash = none) ∧
    (∃ (s : State) (k : Nat) (roles : Nat), Admits s k roles .admin ∧ s.cmp.ownerHash ≠ none) :=
  ⟨⟨{ base with cmp := { boot := .running, nvmA := { image := some goodImage } } }, 0, 4, true, 4096, by decide +kernel⟩,
    ⟨{ base with cmp := { boot := .running, update := some { who := .mgmt 0 3 4 } } }, { who := .mgmt 0 3 4 }, 0, 3, 4, by decide +kernel⟩,
    ⟨{ base with cmp := { boot := .running, update := some { len := 4096, erased := true } } }, 0, 4, 0, 4096, { len := 4096, erased := true }, by decide +kernel⟩,
    ⟨{ base with cmp := { boot := .running, update := some { len := 4096, erased := true } } }, 0, 4, goodImage, { len := 4096, erased := true }, by decide +kernel⟩,
    ⟨{ base with cmp := { boot := .running, update := some { len := 4096, erased := true } } }, 0, 4, ({} : Image), { len := 4096, erased := true }, by decide +kernel⟩,
    ⟨{ base with cmp := { boot := .running, active := goodImage, nvmA := { image := some goodImage }, nvmB := { image := some goodImage } } }, 0, 4, 3, by decide +kernel⟩,
    ⟨base, 0, 4, 0, by decide +kernel⟩,
    ⟨base, 0, 4, by decide +kernel⟩,
    ⟨{ base with cmp := { boot := .running, ownerHash := some 5 } }, 0, 4, by decide +kernel⟩⟩

theorem test_noSlot_premises :
    (∃ (s : State) (k : Nat) (roles : Nat) (off : Nat), Admits s k roles .read ∧ off < 0x4000000 ∧ regAt off = none) ∧
    (∃ (s : State) (k : Nat) (roles : Nat) (off : Nat), Admits s k roles .admin ∧ off < 0x4000000 ∧ regAt off = none) ∧
    (∃ (s : State) (p : Nat) (off : Nat), (port s p).mode = .xcl ∧ (port s p).priv = true ∧ off < 0x4000000 ∧ regAt off = none) ∧
    (∃ (s : State) (p : Nat) (off : Nat), (port s p).mode = .xcl ∧ (port s p).priv = true ∧ off < 0x4000000 ∧ regAt off = none) :=
  ⟨⟨base, 0, 1, 4, by decide +kernel⟩,
    ⟨base, 0, 4, 0x202420, by decide +kernel⟩,
    ⟨portBase, 3, 0x202420, by decide +kernel⟩,
    ⟨portBase, 3, 0x202420, by decide +kernel⟩⟩

theorem test_cmpId_premises :
    (∃ (s : State) (k : Nat) (roles : Nat), Admits s k roles .read) ∧
    (∃ (s : State) (p : Nat), (port s p).mode = .xcl ∧ (port s p).priv = true) ∧
    (∃ (s : State) (k : Nat) (roles : Nat), Admits s k roles .admin) :=
  ⟨⟨base, 0, 1, by decide +kernel⟩,
    ⟨portBase, 3, by decide +kernel⟩,
    ⟨base, 0, 4, by decide +kernel⟩⟩

theorem test_bufferReads_premises :
    (∃ (s : State) (p : Nat) (n : _), (port s p).mode = .xcl ∧ (port s p).priv = true ∧ n < 16 ∧ (port s p).part ≠ some n) ∧
    (∃ (s : State) (p : Nat), (port s p).mode = .xcl ∧ (port s p).priv = true) ∧
    (∃ (s : State) (k : Nat) (roles : Nat), Admits s k roles .read) :=
  ⟨⟨portBase, 3, 2, by decide +kernel⟩,
    ⟨portBase, 3, by decide +kernel⟩,
    ⟨base, 0, 1, by decide +kernel⟩⟩

theorem test_logRegister_premises :
    (∃ (s : State) (k : Nat) (roles : Nat), Admits s k roles .admin) ∧
    (∃ (s : State) (k : Nat) (roles : Nat), Admits s k roles .read ∧ s.cmp.logSel < 2 ^ 32) ∧
    (∃ (s : State) (k : Nat) (roles : Nat) (w : _) (e : LogEntry), Admits s k roles .read ∧ w < 8 ∧ s.cmp.log.find? (fun e => e.seq == s.cmp.logSel) = some e) ∧
    (∃ (s : State) (k : Nat) (roles : Nat) (w : _), Admits s k roles .read ∧ w < 8 ∧ ((∀ e ∈ s.cmp.log, e.seq ≠ s.cmp.logSel))) ∧
    (∃ (s : State) (k : Nat) (roles : Nat) (w : _), Admits s k roles .admin ∧ w < 8) :=
  ⟨⟨base, 0, 4, by decide +kernel⟩,
    ⟨base, 0, 1, by decide +kernel⟩,
    ⟨{ base with cmp := { boot := .running, log := [{ code := 9, seq := 5 }], logSel := 5 } }, 0, 1, 7, { code := 9, seq := 5 }, by decide +kernel⟩,
    ⟨base, 0, 1, 0, by decide +kernel⟩,
    ⟨base, 0, 4, 7, by decide +kernel⟩⟩

theorem test_managementReads_premises :
    (∃ (s : State) (k : Nat) (roles : Nat) (off : Nat) (count : Nat), Admits s k roles .read ∧ 0 < count ∧ count ≤ 512 ∧ ((∀ i < count, (regAt (off + 8 * i)).isSome = true))) ∧
    (∃ (s : State) (p : Nat) (n : _), (port s p).mode = .xcl ∧ (port s p).priv = true ∧ (port s p).part = some n ∧ n < 16) ∧
    (∃ (s : State) (k : Nat) (roles : Nat), Admits s k roles .read) ∧
    (∃ (s : State) (k : Nat) (roles : Nat) (ks : List Nat), Admits s k roles .read ∧ ks.length ≤ 256) ∧
    (∃ (s : State) (k : Nat) (roles : Nat) (ks : List Nat), Admits s k roles .read ∧ 256 < ks.length) ∧
    (∃ (s : State) (k : Nat) (roles : Nat), Admits s k roles .read) ∧
    (∃ (s : State) (k : Nat), (s.cmp.sessions.get k).isOpen = true ∧ (s.cmp.sessions.get k).last + 600000000000 ≤ s.ft) :=
  ⟨⟨base, 0, 1, 0x40, 8, by decide +kernel⟩,
    ⟨portBase, 3, 1, by decide +kernel⟩,
    ⟨base, 0, 1, by decide +kernel⟩,
    ⟨base, 0, 1, [0, 1], by decide +kernel⟩,
    ⟨base, 0, 1, List.replicate 257 0, by decide +kernel⟩,
    ⟨base, 0, 1, by decide +kernel⟩,
    ⟨{ base with ft := 600000000000, cmp := { boot := .running, sessions := [(2, { isOpen := true })] } }, 2, by decide +kernel⟩⟩

theorem test_managementWrites_premises :
    (∃ (s : State) (k : Nat) (roles : Nat), Admits s k roles .power) ∧
    (∃ (s : State) (k : Nat) (roles : Nat), Admits s k 2 .power ∧ roleOk .power roles = false) ∧
    (∃ (s : State) (k : Nat) (roles : Nat), Admits s k roles .admin) ∧
    (∃ (s : State) (k : Nat) (roles : Nat), Admits s k roles .admin) ∧
    (∃ (s : State) (k : Nat) (roles : Nat), Admits s k roles .admin) ∧
    (∃ (s : State) (k : Nat) (roles : Nat), Admits s k roles .admin) ∧
    (∃ (s : State) (k : Nat) (roles : Nat) (i : _), Admits s k roles .admin ∧ i < 6) ∧
    (∃ (s : State) (p : Nat) (n : _), (port s p).mode = .xcl ∧ (port s p).priv = true ∧ (port s p).part = some n) :=
  ⟨⟨base, 0, 2, by decide +kernel⟩,
    ⟨base, 0, 1, by decide +kernel⟩,
    ⟨base, 0, 4, by decide +kernel⟩,
    ⟨base, 0, 4, by decide +kernel⟩,
    ⟨base, 0, 4, by decide +kernel⟩,
    ⟨base, 0, 4, by decide +kernel⟩,
    ⟨{ base with cmp := { boot := .running, faultStatus := 63 } }, 0, 4, 2, by decide +kernel⟩,
    ⟨portBase, 3, 1, by decide +kernel⟩⟩

theorem test_blockFences_premises :
    (∃ (s : State) (k : Nat) (roles : Nat) (b : Block), Admits s k roles .admin ∧ resettable.contains b = true ∧ b ≠ .vertex ∧ fenced s b = false) ∧
    (∃ (s : State) (k : Nat) (roles : Nat), Admits s k roles .admin ∧ fenced s .vertex = false ∧ s.vtx.st = .up) ∧
    (∃ (s : State) (k : Nat) (roles : Nat) (b : Block), Admits s k roles .admin ∧ resettable.contains b = false) ∧
    (∃ (s : State) (b : Block), fenced s b = true ∧ (s.cmp.fences.get b.code).drained = false ∧ (s.cmp.fences.get b.code).since + 10000 ≤ s.ft) ∧
    (∃ (s : State) (b : Block), fenced s b = true ∧ (s.cmp.fences.get b.code).drained = true ∧ (s.cmp.fences.get b.code).since + 25000 ≤ s.ft) ∧
    (∃ (s : State) (b : Block), mgmtAnswers s = true ∧ (resettable.contains b && bitOf s.cmp.autoReset (b.code - 7)) = false) ∧
    (∃ (s : State) (b : Block), mgmtAnswers s = true ∧ resettable.contains b = true ∧ b ≠ .vertex ∧ bitOf s.cmp.autoReset (b.code - 7) = true ∧ fenced s b = false) :=
  ⟨⟨base, 0, 4, .cone, by decide +kernel⟩,
    ⟨base, 0, 4, by decide +kernel⟩,
    ⟨base, 0, 4, .arc, by decide +kernel⟩,
    ⟨{ base with ft := 10000, cmp := { boot := .running, fences := [(Block.cone.code, { on := true })] } }, .cone, by decide +kernel⟩,
    ⟨{ base with ft := 25000, cmp := { boot := .running, fences := [(Block.cone.code, { on := true, drained := true })] } }, .cone, by decide +kernel⟩,
    ⟨{ base with cmp := { boot := .running, autoReset := 0 } }, .cone, by decide +kernel⟩,
    ⟨{ base with cmp := { boot := .running, autoReset := 511 } }, .cone, by decide +kernel⟩⟩

theorem test_repairs_premises :
    (∃ (s : State) (k : Nat) (roles : Nat) (c : _), Admits s k roles .admin ∧ (s.pln.chans.get c).st = .retired ∧ s.cmp.nvmA.answers = true ∧ s.cmp.nvmB.answers = true) ∧
    (∃ (s : State) (k : Nat) (roles : Nat) (p : Nat) (l : Nat) (sp : _), Admits s k roles .admin ∧ l < (port s p).lanes.length ∧ (laneOf (port s p) l).rx = .active ∧ (port s p).mode = .xcl ∧ (port s p).cal = none ∧ rxSpare (port s p) = some sp) ∧
    (∃ (s : State) (k : Nat) (roles : Nat) (p : Nat) (l : Nat), Admits s k roles .admin ∧ (port s p).lanes.length ≤ l) ∧
    (∃ (s : State) (k : Nat) (roles : Nat) (m : Nat), Admits s k roles .admin ∧ m < 22) ∧
    (∃ (s : State) (k : Nat) (roles : Nat) (m : Nat), Admits s k roles .admin ∧ m < 22 ∧ (portsOfModule m).all (fun p => (port s p).st == .down) = true ∧ s.pins.lsEn.contains m = true) ∧
    (∃ (s : State) (m : Nat), s.pins.lsEn.contains m = true ∧ (portsOfModule m).all (fun p => (port s p).st == .down) = true) ∧
    (∃ (s : State) (k : Nat) (roles : Nat) (r : Nat), Admits s k roles .admin ∧ 0 < r ∧ r < 512 ∧ (s.cmp.active.partnerKey :: s.cmp.active.ports.filterMap (·.peer)).contains (epRec s r).s0.tag = false ∧ (s.cmp.active.partnerKey :: s.cmp.active.ports.filterMap (·.peer)).contains (epRec s r).s1.tag = false) ∧
    (∃ (s : State) (k : Nat) (roles : Nat) (r : Nat), Admits s k roles .admin ∧ 0 < r ∧ r < 512 ∧ (epRec s r).s0.zero = false ∧ (epRec s r).s0.tag = s.cmp.active.partnerKey) :=
  ⟨⟨{ base with pln := { chans := [(2, { st := .retired })] } }, 0, 4, 2, by decide +kernel⟩,
    ⟨{ base with edg := { ports := [(3, { mode := .xcl, st := .up, lanes := freshLanes false false })] } }, 0, 4, 3, 1, 4, by decide +kernel⟩,
    ⟨base, 0, 4, 3, 0, by decide +kernel⟩,
    ⟨base, 0, 4, 21, by decide +kernel⟩,
    ⟨{ base with pins := { porstN := true, lsEn := [4] } }, 0, 4, 4, by decide +kernel⟩,
    ⟨{ base with pins := { porstN := true, lsEn := [4] } }, 4, by decide +kernel⟩,
    ⟨{ base with per := { store := [(9, { s0 := { tag := 3, zero := false, valid := true } })] } }, 0, 4, 9, by decide +kernel⟩,
    ⟨{ base with per := { store := [(9, { s0 := { tag := 1, zero := false, valid := true } })] } }, 0, 4, 9, by decide +kernel⟩⟩

theorem test_groups_premises :
    (∃ (s : State) (k : Nat) (roles : Nat) (g : Nat) (src : Nat) (dst : Nat) (bytes : Nat), Admits s k roles .admin ∧ fillBad s g src dst bytes = true) ∧
    (∃ (s : State) (k : Nat) (roles : Nat) (g : Nat) (src : Nat) (dst : Nat), Admits s k roles .admin ∧ fillBad s g src dst 512 = false ∧ groupBusy s g = false ∧ dst % pageBytes ≠ 0 ∧ preCost s 9 0xF [(0, 1024)] = 0 ∧ 0 ≤ s.cmp.energy.a ∧ s.cmp.energy.base ≤ (s.cmp.energy.capW : Int) * 1000000 ∧ Alone s) ∧
    (∃ (s : State) (k : Nat) (roles : Nat) (g : Nat), Admits s k roles .admin ∧ groupRanges s g ≠ [] ∧ groupBusy s g = false ∧ Alone s) :=
  ⟨⟨base, 0, 4, 1, 0, 0, 512, by decide +kernel⟩,
    ⟨{ base with cmp := { boot := .running, active := { groupRegs := [{ g := 1, first := 8, count := 1, filler := 2 }], parts := [{ part := 2, pool := [(0, 2)] }] } } }, 0, 4, 1, 0, 8 * pageBytes + 512, by decide +kernel⟩,
    ⟨{ base with cmp := { boot := .running, active := { groupRegs := [{ g := 1, first := 8, count := 1, filler := 2 }], parts := [{ part := 2, pool := [(0, 2)] }] } }, pln := { pages := [(8, { st := .resident, frame := { tier := .prism, n := 5 } })] } }, 0, 4, 1, by decide +kernel⟩⟩

theorem test_pools_premises :
    (∃ (s : State), canFound s = true ∧ s.per.partnerPool = some false ∧ s.cmp.roleB = false) ∧
    (∃ (s : State) (at_ : _), canFound s = true ∧ s.per.trainFt = some at_ ∧ at_ + 2000000000 ≤ s.ft ∧ pairUps s = []) ∧
    (∃ (s : State) (c : Commit) (ok : Bool) (again : Bool), s.per.commits = [c] ∧ c.why = .poolGen ∧ c.record = 0 ∧ (ok || again) = true) ∧
    (∃ (s : State) (c : Commit), s.per.commits = [c] ∧ c.why = .poolGen) ∧
    (∃ (s : State), (pairUps s).isEmpty = false ∧ s.cmp.boot = .init ∧ s.pair.joinRefused = false) ∧
    (∃ (s : State) (fw : _) (comp : _) (roleB : _), (pairUps s).isEmpty = false ∧ s.per.pool ≠ .none ∧ running s = true ∧ joinTest s fw comp roleB = false) :=
  ⟨⟨{ base with cmp := { boot := .init }, per := { partnerPool := some false } }, by decide +kernel⟩,
    ⟨{ base with cmp := { boot := .init }, per := { trainFt := some 0 }, ft := 2000000000 }, 0, by decide +kernel⟩,
    ⟨{ base with cmp := { boot := .init }, per := { founding := true, commits := [{ value := 1 }] } }, { value := 1 }, false, true, by decide +kernel⟩,
    ⟨{ base with cmp := { boot := .init }, per := { founding := true, commits := [{ value := 1 }] } }, { value := 1 }, by decide +kernel⟩,
    ⟨{ base with cmp := { boot := .init }, edg := { ports := [(256, { mode := .pair, st := .up })] } }, by decide +kernel⟩,
    ⟨{ base with per := { pool := .founded }, edg := { ports := [(256, { mode := .pair, st := .up })] } }, 1, 2, true, by decide +kernel⟩⟩

theorem test_scrubs_premises :
    (∃ (s : State) (k : Nat) (roles : Nat) (n : Nat), Admits s k roles .admin ∧ n < 16 ∧ s.per.scrub = none ∧ s.per.tPending = [] ∧ Alone s) ∧
    (∃ (s : State) (k : Nat) (roles : Nat) (x : Scrub), Admits s k roles .admin ∧ s.per.scrub = some x) ∧
    (∃ (s : State) (x : Scrub), s.per.scrub = some x ∧ x.acked = true) ∧
    (∃ (s : State) (x : Scrub), s.per.scrub = some x ∧ x.escalated = false ∧ x.since + 2 * x.bound ≤ s.ft) ∧
    (∃ (s : State) (k : Nat) (roles : Nat), Admits s k roles .admin) :=
  ⟨⟨base, 0, 4, 3, by decide +kernel⟩,
    ⟨{ base with per := { scrub := some {} } }, 0, 4, {}, by decide +kernel⟩,
    ⟨{ base with per := { scrubbing := [2], scrub := some { part := 2, acked := true } } }, { part := 2, acked := true }, by decide +kernel⟩,
    ⟨{ base with ft := 100, per := { scrubbing := [2], scrub := some { part := 2, bound := 50 } } }, { part := 2, bound := 50 }, by decide +kernel⟩,
    ⟨base, 0, 4, by decide +kernel⟩⟩

theorem test_attestation_premises :
    (∃ (s : State) (k : Nat), mgmtAnswers s = true ∧ sessionRoom k true s = true ∧ s.cmp.boot ≠ .recovery) ∧
    (∃ (s : State) (k : Nat), mgmtAnswers s = true ∧ sessionRoom k true s = true ∧ s.cmp.boot ≠ .recovery) ∧
    (∃ (s : State) (k : Nat), mgmtAnswers s = true ∧ sessionRoom k true s = true ∧ s.cmp.boot ≠ .recovery) ∧
    (∃ (s : State) (k : Nat), mgmtAnswers s = true ∧ sessionRoom k true s = true ∧ s.cmp.boot ≠ .recovery) ∧
    (∃ (s : State) (k : Nat), mgmtAnswers s = true ∧ sessionRoom k true s = true ∧ s.cmp.boot ≠ .recovery) ∧
    (∃ (s : State) (k : Nat) (slot : Nat), mgmtAnswers s = true ∧ sessionRoom k true s = true ∧ s.cmp.boot ≠ .recovery ∧ slot ≠ 0) ∧
    (∃ (s : State) (k : Nat), mgmtAnswers s = true ∧ sessionRoom k true s = true ∧ s.cmp.boot ≠ .recovery) ∧
    (∃ (s : State) (k : Nat), mgmtAnswers s = true ∧ sessionRoom k true s = true ∧ s.cmp.boot ≠ .recovery) ∧
    (∃ (s : State) (p : Nat) (node : Nat) (asid : Nat) (addr : Nat) (n : _), (port s p).mode = .xcl ∧ (port s p).priv = true ∧ (port s p).part = some n ∧ n < 16 ∧ addr % 128 = 0 ∧ scrubFenced s n = false ∧ segStage s { part := n, endpoint := node, asid := asid, va := addr, len := 512, num := node } ≠ .notPermitted ∧ segStage s { part := n, endpoint := node, asid := asid, va := addr, len := 512, num := node, write := true } ≠ .notPermitted) ∧
    (∃ (s : State) (p : Nat) (node : Nat) (asid : Nat) (addr : Nat) (n : _) (u : State) (k : Cpl), (port s p).mode = .xcl ∧ (port s p).priv = true ∧ (port s p).part = some n ∧ n < 16 ∧ addr % 128 = 0 ∧ scrubFenced s n = false ∧ segStage s { part := n, endpoint := node, asid := asid, va := addr, len := 512, num := node } ≠ .notPermitted ∧ segStage s { part := n, endpoint := node, asid := asid, va := addr, len := 512, num := node, write := true } ≠ .notPermitted ∧ readPieces { part := n, endpoint := node, asid := asid, va := addr, len := 512, num := node } (piecesOf addr 512) [] s [] cOk = (u, k) ∧ k.status = .ok) ∧
    (∃ (s : State) (k : Nat) (roles : Nat), Admits s k roles .admin) ∧
    (∃ (s : State) (k : Nat) (roles : Nat) (scope : Nat) (c : Nat), Admits s k roles .admin ∧ Alone s ∧ s.per.challenge = some c ∧ scope < 8 ∧ s.per.storeAbsent = false ∧ s.per.faulted.contains 0 = false) ∧
    (∃ (s : State) (k : Nat) (roles : Nat) (kb : Bool) (sb : Bool) (mb : Bool), Admits s k roles .admin ∧ (kb && sb && mb) = false) :=
  ⟨⟨base, 1, by decide +kernel⟩,
    ⟨base, 1, by decide +kernel⟩,
    ⟨base, 1, by decide +kernel⟩,
    ⟨base, 1, by decide +kernel⟩,
    ⟨base, 1, by decide +kernel⟩,
    ⟨base, 1, 1, by decide +kernel⟩,
    ⟨base, 1, by decide +kernel⟩,
    ⟨base, 1, by decide +kernel⟩,
    ⟨memState, 3, 7, 0, 0, 1, by decide +kernel⟩,
    ⟨memState, 3, 7, 0, 0, 1, _, (readPieces { part := 1, endpoint := 7, asid := 0, va := 0, len := 512, num := 7 } (piecesOf 0 512) [] memState [] cOk).2, by decide +kernel, by decide +kernel, by decide +kernel, by decide +kernel, by decide +kernel, by decide +kernel, by decide +kernel, by decide +kernel, ran (by decide +kernel), by decide +kernel⟩,
    ⟨base, 0, 4, by decide +kernel⟩,
    ⟨{ base with per := { challenge := some 9, pool := .founded, identity := 4 } }, 0, 4, 7, 9, by decide +kernel⟩,
    ⟨base, 0, 4, true, false, true, by decide +kernel⟩⟩

theorem test_domainControl_premises :
    (∃ (s : State) (k : Nat) (roles : Nat) (n : Nat), Admits s k roles .admin ∧ n < 16 ∧ scrubFenced s n = false ∧ (dom s n).st ≠ .restarting) ∧
    (∃ (s : State) (k : Nat) (roles : Nat) (n : Nat), Admits s k roles .admin ∧ n < 16 ∧ scrubFenced s n = false ∧ (dom s n).st = .restarting) ∧
    (∃ (s : State) (k : Nat) (roles : Nat) (n : Nat), Admits s k roles .admin ∧ n < 16 ∧ scrubFenced s n = false ∧ ((dom s n).st = .running ∨ (dom s n).st = .stalled)) ∧
    (∃ (s : State) (k : Nat) (roles : Nat) (n : Nat), Admits s k roles .admin ∧ n < 16 ∧ scrubFenced s n = false ∧ (dom s n).st = .held ∧ ((∀ e ∈ (dom s n).sources, e.2 ≤ (dom s n).angle))) ∧
    (∃ (s : State) (k : Nat) (roles : Nat) (n : Nat), Admits s k roles .admin ∧ n < 16 ∧ scrubFenced s n = false ∧ (dom s n).st = .held ∧ (dom s n).angle % 65536 = 0 ∧ s.cmp.swap = none ∧ Alone s) ∧
    (∃ (s : State) (k : Nat) (roles : Nat) (n : Nat) (node : Nat), Admits s k roles .admin ∧ n < 16 ∧ scrubFenced s n = false ∧ (dom s n).st ≠ .restarting ∧ (s.cmp.active.nodes ++ s.cmp.active.partnerNodes).any (fun e => e.node == node && e.part == n) = true ∧ (dom s n).sources.length < 256 ∧ (dom s n).sources.any (fun e => e.1 == node) = false) ∧
    (∃ (s : State) (k : Nat) (roles : Nat) (n : Nat) (node : Nat) (a : _), Admits s k roles .admin ∧ n < 16 ∧ scrubFenced s n = false ∧ (dom s n).st ≠ .restarting ∧ (dom s n).sources = [(node, a)]) :=
  ⟨⟨base, 0, 4, 15, by decide +kernel⟩,
    ⟨domState .restarting 65536, 0, 4, 1, by decide +kernel⟩,
    ⟨domState .stalled 65536, 0, 4, 1, by decide +kernel⟩,
    ⟨domState .held 65536, 0, 4, 1, by decide +kernel⟩,
    ⟨domState .held 65536, 0, 4, 1, by decide +kernel⟩,
    ⟨memState, 0, 4, 1, 7, by decide +kernel⟩,
    ⟨domState .running 65536, 0, 4, 1, 7, 65536, by decide +kernel⟩⟩

theorem test_advances_premises :
    (∃ (s : State) (p : Nat) (node : Nat) (a : Nat) (pos : _) (n : _), (port s p).part = some n ∧ nodeAt s p node = some n ∧ (dom s n).st = .running ∧ (dom s n).sources = [(node, pos)] ∧ pos = (dom s n).angle ∧ pos < a ∧ angleStep a = angleStep pos) ∧
    (∃ (s : State) (p : Nat) (node : Nat) (a : Nat) (n : _), (port s p).part = some n ∧ nodeAt s p node = some n ∧ (dom s n).st ≠ .restarting ∧ (dom s n).sources.any (fun e => e.1 == node) = true ∧ a < (dom s n).sources.get node) ∧
    (∃ (s : State) (p : Nat) (node : Nat) (n : _), (port s p).part = some n ∧ (dom s n).st ≠ .restarting ∧ ((dom s n).sources.any (fun e => e.1 == node) = false ∨ nodeAt s p node ≠ some n)) ∧
    (∃ (s : State) (n : Nat), (dom s n).st = .running ∧ (dom s n).stallNs ≠ 0 ∧ max (dom s n).lastAdv (dom s n).lastRun + (dom s n).stallNs ≤ s.ft) ∧
    (∃ (s : State) (k : Nat) (roles : Nat) (n : Nat) (v : Nat), Admits s k roles .admin ∧ ((dom s n).st ≠ .running ∨ bits v 39 0 = 0)) ∧
    (∃ (s : State) (k : Nat) (roles : Nat) (n : Nat) (v : Nat), Admits s k roles .admin ∧ (dom s n).st = .running ∧ bits v 39 0 ≠ 0 ∧ max (dom s n).lastAdv (dom s n).lastRun + bits v 39 0 ≤ s.ft) ∧
    (∃ (s : State) (k : Nat) (roles : Nat) (n : Nat), Admits s k roles .admin ∧ n < 16 ∧ scrubFenced s n = false ∧ (dom s n).st ≠ .restarting) ∧
    (∃ (s : State) (n : Nat), (dom s n).st = .restarting ∧ Alone s) :=
  ⟨⟨domState .running 65536, 3, 7, 65540, 65536, 1, by decide +kernel⟩,
    ⟨domState .running 65536, 3, 7, 65535, 1, by decide +kernel⟩,
    ⟨domState .running 65536, 3, 8, 1, by decide +kernel⟩,
    ⟨{ domState .running 65536 with ft := 0x5F5E100 }, 1, by decide +kernel⟩,
    ⟨domState .held 65536, 0, 4, 1, 9, by decide +kernel⟩,
    ⟨{ domState .running 65536 with ft := 10 }, 0, 4, 1, 9, by decide +kernel⟩,
    ⟨domState .running 65536, 0, 4, 1, by decide +kernel⟩,
    ⟨domState .restarting 65536, 1, by decide +kernel⟩⟩

theorem test_schedules_premises :
    (∃ (s : State) (n : _) (w : _), running s = true ∧ s.cmp.active.devSched = [] ∧ s.mer.devDue = [] ∧ s.cmp.active.scheds = [(n, { base := 0, entries := [w] })] ∧ entKind w = 2 ∧ w.getD 1 0 ≤ s.ft ∧ s.mer.ftNext = [] ∧ s.mer.everLocked = true) ∧
    (∃ (s : State) (n : Nat) (a : DueAct) (rest : _), running s = true ∧ (dom s n).st ≠ .restarting ∧ (dom s n).due = a :: rest ∧ entAction a.words = 4 ∧ 256 < 16384 - unflushed s ∧ unflushed s < 4095) ∧
    (∃ (s : State) (n : Nat) (r : RetryAct), (dom s n).retries = [r] ∧ r.due ≤ s.ft ∧ r.until_ = none ∧ entAction r.act.words = 4 ∧ 256 < 16384 - unflushed s ∧ unflushed s < 4095) ∧
    (∃ (s : State) (n : Nat) (r : RetryAct) (u : _), (dom s n).retries = [r] ∧ r.due ≤ s.ft ∧ r.until_ = some u ∧ u ≤ s.ft) :=
  ⟨⟨{ base with mer := { everLocked := true }, cmp := { boot := .running, active := { scheds := [(1, { base := 0, entries := [[0x8400000000000000, 7, 5, 6]] })] } }, ft := 7 }, 1, [0x8400000000000000, 7, 5, 6], by decide +kernel⟩,
    ⟨{ base with mer := { doms := [(1, { due := [{ words := [0x0400000000000000, 0, 5, 6] }] })] } }, 1, { words := [0x0400000000000000, 0, 5, 6] }, ([] : List DueAct), by decide +kernel⟩,
    ⟨{ base with mer := { doms := [(1, { retries := [{ act := { words := [0x0400000000000000, 0, 5, 6] } }] })] } }, 1, { act := { words := [0x0400000000000000, 0, 5, 6] } }, by decide +kernel⟩,
    ⟨{ base with mer := { doms := [(1, { retries := [{ until_ := some 0 }] })] } }, 1, { until_ := some 0 }, 0, by decide +kernel⟩⟩

theorem test_syncCounters_premises :
    (∃ (s : State) (p : Nat) (i : Nat), ObjOpen s p i ∧ (obj s i).mode ≠ .unused ∧ ((obj s i).mode ≠ .semaphore ∨ (obj s i).waiters = []) ∧ ((∀ w ∈ (obj s i).waiters, waitMet (obj s i) w = false))) ∧
    (∃ (s : State) (p : Nat) (i : Nat) (v : Nat), ObjOpen s p i ∧ (obj s i).mode = .counter ∧ (obj s i).waiters = [] ∧ (obj s i).value + v < 2 ^ 64) ∧
    (∃ (s : State) (p : Nat) (i : Nat) (v : Nat), ObjOpen s p i ∧ (obj s i).mode = .counter ∧ 2 ^ 64 ≤ (obj s i).value + v) ∧
    (∃ (s : State) (p : Nat) (i : Nat) (v : Nat) (w : Waiter) (q : _), ObjOpen s p i ∧ (obj s i).mode = .counter ∧ (obj s i).waiters = [w] ∧ w.kind = .ge ∧ w.req = .port q 9 3 ∧ w.operand ≤ (obj s i).value + v ∧ (obj s i).value + v < 2 ^ 64) ∧
    (∃ (s : State) (p : Nat) (i : Nat) (v : Nat), ObjOpen s p i ∧ (obj s i).mode = .counter ∧ v ≤ (obj s i).value ∧ (obj s i).waiters = []) ∧
    (∃ (s : State) (p : Nat) (i : Nat) (v : Nat), ObjOpen s p i ∧ (obj s i).mode = .counter ∧ (obj s i).value < v ∧ waitersAll s < 16384 ∧ waitersOf s (obj s i).part < (partRec s (obj s i).part).waiterQuota) ∧
    (∃ (s : State) (p : Nat) (i : Nat), ObjOpen s p i ∧ (obj s i).mode = .counter ∧ (obj s i).waiters = []) ∧
    (∃ (s : State) (i : Nat), i < 65536 ∧ (obj s i).mode = .counter ∧ (obj s i).waiters = [] ∧ scrubFenced s (obj s i).part = false ∧ (dom s (obj s i).part).st ≠ .restarting) ∧
    (∃ (s : State) (i : Nat) (w : Waiter) (q : _), (obj s i).waiters = [w] ∧ w.req = .port q 9 3 ∧ (∃ d, w.deadline = some d ∧ d ≤ s.ft) ∧ (obj s i).mode = .counter) :=
  ⟨⟨objState .counter 5 [], 3, 2, by decide +kernel⟩,
    ⟨objState .counter 5 [], 3, 2, 6, by decide +kernel⟩,
    ⟨objState .counter (2 ^ 64 - 1) [], 3, 2, 1, by decide +kernel⟩,
    ⟨objState .counter 5 [{ operand := 8, req := .port 3 9 3 }], 3, 2, 3, { operand := 8, req := .port 3 9 3 }, 3, by decide +kernel⟩,
    ⟨objState .counter 5 [], 3, 2, 5, by decide +kernel⟩,
    ⟨objState .counter 5 [], 3, 2, 6, by decide +kernel⟩,
    ⟨objState .counter 5 [], 3, 2, by decide +kernel⟩,
    ⟨objState .counter 5 [], 2, by decide +kernel⟩,
    ⟨objState .counter 5 [{ operand := 8, req := .port 3 9 3, deadline := some 0 }], 2, { operand := 8, req := .port 3 9 3, deadline := some 0 }, 3, by decide +kernel⟩⟩

theorem test_syncBarriers_premises :
    (∃ (s : State) (p : Nat) (i : Nat) (v : Nat), ObjOpen s p i ∧ (obj s i).mode = .barrier ∧ (obj s i).waiters = [] ∧ 0 < v ∧ (obj s i).value + v < (obj s i).target) ∧
    (∃ (s : State) (p : Nat) (i : Nat) (v : Nat), ObjOpen s p i ∧ (obj s i).mode = .barrier ∧ (obj s i).waiters = [] ∧ 0 < v ∧ (obj s i).value + v = (obj s i).target) ∧
    (∃ (s : State) (p : Nat) (i : Nat) (v : Nat), ObjOpen s p i ∧ (obj s i).mode = .barrier ∧ (obj s i).waiters = [] ∧ v % 2 ^ 32 < (obj s i).gen) ∧
    (∃ (s : State) (p : Nat) (i : Nat) (v : Nat), ObjOpen s p i ∧ (obj s i).mode = .semaphore ∧ (obj s i).waiters = [] ∧ 0 < v ∧ v ≤ (obj s i).value) ∧
    (∃ (s : State) (p : Nat) (i : Nat) (v : Nat), ObjOpen s p i ∧ (obj s i).mode = .semaphore ∧ (obj s i).waiters ≠ [] ∧ 0 < v ∧ waitersAll s < 16384 ∧ waitersOf s (obj s i).part < (partRec s (obj s i).part).waiterQuota) ∧
    (∃ (s : State) (p : Nat) (i : Nat) (v : Nat), ObjOpen s p i ∧ (obj s i).mode = .semaphore ∧ (obj s i).waiters = [] ∧ 0 < v ∧ v ≤ (obj s i).value) ∧
    (∃ (s : State) (p : Nat) (i : Nat) (v : Nat), ObjOpen s p i ∧ (obj s i).mode = .semaphore ∧ (obj s i).waiters ≠ [] ∧ 0 < v) ∧
    (∃ (s : State) (p : Nat) (i : Nat) (v : Nat), ObjOpen s p i ∧ (obj s i).mode = .semaphore ∧ (obj s i).waiters = [] ∧ (obj s i).value + v < 2 ^ 64) ∧
    (∃ (s : State) (p : Nat) (i : Nat) (v : Nat) (w : Waiter) (x : Waiter) (q : _), ObjOpen s p i ∧ (obj s i).mode = .semaphore ∧ (obj s i).waiters = [w, x] ∧ w.kind = .acquire ∧ x.kind = .acquire ∧ w.req = .port q 9 3 ∧ (obj s i).value + v < 2 ^ 64 ∧ w.operand ≤ (obj s i).value + v ∧ (obj s i).value + v < w.operand + x.operand) :=
  ⟨⟨objState .barrier 5 [], 3, 2, 4, by decide +kernel⟩,
    ⟨objState .barrier 5 [], 3, 2, 5, by decide +kernel⟩,
    ⟨objState .barrier 5 [], 3, 2, 0, by decide +kernel⟩,
    ⟨objState .semaphore 5 [], 3, 2, 5, by decide +kernel⟩,
    ⟨objState .semaphore 5 [{ kind := .acquire, operand := 8 }], 3, 2, 1, by decide +kernel⟩,
    ⟨objState .semaphore 5 [], 3, 2, 5, by decide +kernel⟩,
    ⟨objState .semaphore 5 [{ kind := .acquire, operand := 8 }], 3, 2, 1, by decide +kernel⟩,
    ⟨objState .semaphore 5 [], 3, 2, 5, by decide +kernel⟩,
    ⟨objState .semaphore 5 [{ kind := .acquire, operand := 8, req := .port 3 9 3 }, { kind := .acquire, operand := 1 }], 3, 2, 3, { kind := .acquire, operand := 8, req := .port 3 9 3 }, { kind := .acquire, operand := 1 }, 3, by decide +kernel⟩⟩

theorem test_olvin_premises :
    (∃ (s : State) (k : Nat) (m : Nat) (entry : Nat) (pc : _), (port s k).part = some (seqOf s m).part ∧ m < 132 ∧ (seqOf s m).owned = true ∧ entryPoint s m entry = some pc ∧ fenceCpl s (seqBlock m) (seqOf s m).part = none ∧ (seqOf s m).run = .idle) ∧
    (∃ (s : State) (k : Nat) (m : Nat) (entry : Nat) (pc : _), (port s k).part = some (seqOf s m).part ∧ m < 132 ∧ (seqOf s m).owned = true ∧ entryPoint s m entry = some pc ∧ fenceCpl s (seqBlock m) (seqOf s m).part = none ∧ (seqOf s m).run ≠ .idle ∧ (seqOf s m).starts.length < 4) ∧
    (∃ (s : State) (m : Nat) (w : _), seqInstr s m 0 = some w ∧ (seqOf s m).cmd = none ∧ (seqOf s m).starts = []) ∧
    (∃ (s : State) (m : Nat) (w : _), seqInstr s m 1 = some w ∧ (seqOf s m).stack = [] ∧ bitOf w 56 = false) ∧
    (∃ (s : State) (m : Nat) (buf : _) (va : _) (len : _) (u : State) (c : Cpl), (seqOf s m).wait = .dfetch buf va len ∧ engineRead (seqOf s m).part (seqOf s m).asid va len s = (u, c) ∧ c.status = .ok) ∧
    (∃ (s : State) (m : Nat) (w : _), seqInstr s m 2 = some w ∧ bitOf w 56 = false ∧ 0 < bits w 31 0) ∧
    (∃ (s : State) (m : Nat) (w : _), seqInstr s m 2 = some w ∧ bitOf w 56 = false ∧ bits w 31 0 = 0 ∧ (seqOf s m).stack = []) ∧
    (∃ (s : State) (m : Nat) (w : _) (i : _), seqInstr s m 3 = some w ∧ (seqOf s m).stack = [] ∧ bits w 58 57 = 0 ∧ bitOf w 35 = false ∧ i = bits w 51 36 ∧ (obj s i).part = (seqOf s m).part ∧ (obj s i).mode = .counter ∧ (obj s i).waiters = [] ∧ bits w 31 0 ≤ (obj s i).value ∧ scrubFenced s (seqOf s m).part = false ∧ (dom s (seqOf s m).part).st ≠ .restarting) ∧
    (∃ (s : State) (m : Nat) (w : _), seqInstr s m 4 = some w ∧ (seqOf s m).stack = [] ∧ bits w 58 57 = 0 ∧ bits w 47 0 ≤ (dom s (seqOf s m).part).angle) ∧
    (∃ (s : State) (m : Nat) (w : _), seqInstr s m 4 = some w ∧ (seqOf s m).stack = [] ∧ bits w 58 57 = 0 ∧ (dom s (seqOf s m).part).angle < bits w 47 0) ∧
    (∃ (s : State) (m : Nat) (target : _) (d : _), (seqOf s m).wait = .angle target (some d) ∧ d ≤ s.ft) ∧
    (∃ (s : State) (m : Nat) (w : _) (i : _), seqInstr s m 6 = some w ∧ (seqOf s m).stack = [] ∧ (seqOf s m).outst = [] ∧ bits w 58 55 = 1 ∧ bitOf w 35 = false ∧ i = bits w 51 36 ∧ (obj s i).part = (seqOf s m).part ∧ (obj s i).mode = .counter ∧ (obj s i).waiters = [] ∧ (obj s i).value + bits w 31 0 < 2 ^ 64 ∧ scrubFenced s (seqOf s m).part = false ∧ (dom s (seqOf s m).part).st ≠ .restarting) ∧
    (∃ (s : State) (m : Nat) (w : _), seqInstr s m 7 = some w ∧ (seqOf s m).stack = [] ∧ bits w 58 57 = 2 ∧ bitOf w 56 = false) ∧
    (∃ (s : State) (m : Nat) (w : _), seqInstr s m 7 = some w ∧ (seqOf s m).stack = [] ∧ bits w 58 57 = 0 ∧ bitOf w 56 = false ∧ (seqOf s m).st.status.code ≠ bits w 55 52) :=
  ⟨⟨seqState 0 { run := .idle }, 3, 0, 0, 0, by decide +kernel⟩,
    ⟨seqState 0, 3, 0, 0, 0, by decide +kernel⟩,
    ⟨seqState 0, 0, 0, by decide +kernel⟩,
    ⟨seqState (2 ^ 59 + 2 ^ 57 + 3 * 2 ^ 50 + 5) { run := .running, dbase := 32 }, 0, 2 ^ 59 + 2 ^ 57 + 3 * 2 ^ 50 + 5, by decide +kernel⟩,
    ⟨seqState 0 { run := .waiting, wait := .dfetch 1 16 32 }, 0, 1, 16, 32, _, (engineRead 1 0 16 32 (seqState 0 { run := .waiting, wait := .dfetch 1 16 32 })).2, by decide +kernel, ran (by decide +kernel), by decide +kernel⟩,
    ⟨seqState (2 * 2 ^ 59 + 2 ^ 57 + 3 * 2 ^ 44 + 5), 0, 2 * 2 ^ 59 + 2 ^ 57 + 3 * 2 ^ 44 + 5, by decide +kernel⟩,
    ⟨seqState (2 * 2 ^ 59 + 2 ^ 57 + 3 * 2 ^ 44), 0, 2 * 2 ^ 59 + 2 ^ 57 + 3 * 2 ^ 44, by decide +kernel⟩,
    ⟨{ seqState (3 * 2 ^ 59 + 2 * 2 ^ 36 + 5) with mer := { seqs := (seqState (3 * 2 ^ 59 + 2 * 2 ^ 36 + 5)).mer.seqs, objs := [(2, { part := 1, mode := .counter, value := 5 })] } }, 0, 3 * 2 ^ 59 + 2 * 2 ^ 36 + 5, 2, by decide +kernel⟩,
    ⟨seqState (4 * 2 ^ 59), 0, 4 * 2 ^ 59, by decide +kernel⟩,
    ⟨seqState (4 * 2 ^ 59 + 2 ^ 52 + 9), 0, 4 * 2 ^ 59 + 2 ^ 52 + 9, by decide +kernel⟩,
    ⟨{ seqState 0 { run := .waiting, wait := .angle 9 (some 3) } with ft := 3 }, 0, 9, 3, by decide +kernel⟩,
    ⟨{ seqState (6 * 2 ^ 59 + 2 ^ 55 + 2 * 2 ^ 36 + 5) with mer := { seqs := (seqState (6 * 2 ^ 59 + 2 ^ 55 + 2 * 2 ^ 36 + 5)).mer.seqs, objs := [(2, { part := 1, mode := .counter, value := 5 })] } }, 0, 6 * 2 ^ 59 + 2 ^ 55 + 2 * 2 ^ 36 + 5, 2, by decide +kernel⟩,
    ⟨seqState (7 * 2 ^ 59 + 2 * 2 ^ 57 + 4 * 2 ^ 32), 0, 7 * 2 ^ 59 + 2 * 2 ^ 57 + 4 * 2 ^ 32, by decide +kernel⟩,
    ⟨seqState (7 * 2 ^ 59 + 2 ^ 52 + 4 * 2 ^ 32), 0, 7 * 2 ^ 59 + 2 ^ 52 + 4 * 2 ^ 32, by decide +kernel⟩⟩

theorem test_issues_premises :
    (∃ (s : State) (q : Nat) (c : QCmd) (rest : _) (pc : _), q < 64 ∧ queueOf s .cone q = c :: rest ∧ entryPoint s (32 + q) 0 = some pc ∧ (seqOf s (32 + q)).run = .idle ∧ (seqOf s (32 + q)).starts = [] ∧ (seqOf s (32 + q)).bufs.length = 4 ∧ fenced s .cone = false ∧ c.held = false ∧ scrubFenced s c.part = false) ∧
    (∃ (s : State) (m : Nat) (w : _), seqInstr s m 5 = some w ∧ 16 ≤ (seqOf s m).outst.length) ∧
    (∃ (s : State) (m : Nat) (w : _), seqInstr s m 5 = some w ∧ (seqOf s m).outst.length < 16 ∧ (seqOf s m).cmd = none ∧ (seqOf s m).stack = [] ∧ bits w 51 48 ≠ 0 ∧ bitOf w 56 = true ∧ ((∀ j ∈ (seqOf s m).outst, j.slot ≠ (seqOf s m).nextSlot))) ∧
    (∃ (s : State) (m : Nat) (w : _) (c : QCmd), seqInstr s m 5 = some w ∧ 32 ≤ m ∧ m < 96 ∧ (seqOf s m).outst.length < 16 ∧ (seqOf s m).cmd = some c ∧ (seqOf s m).stack = [] ∧ bits w 51 48 = 0 ∧ bitOf w 56 = false ∧ ofLE (((seqOf s m).bufs.getD (bits w 58 57) []).take 64) = ofLE ((c.words.flatMap (toLE 8)).take 64)) ∧
    (∃ (s : State) (m : Nat) (slot : Nat) (c : Cpl), (seqOf s m).outst = [{ slot := slot, awaited := true, done := some c }] ∧ (seqOf s m).wait = .issue slot ∧ (seqOf s m).run = .waiting) ∧
    (∃ (s : State) (m : Nat) (slot : Nat) (c : Cpl), (seqOf s m).outst = [{ slot := slot, awaited := false, done := some c }] ∧ (seqOf s m).wait = .none ∧ (seqOf s m).run = .running ∧ c.status ≠ .ok ∧ (seqOf s m).acc.status = .ok) :=
  ⟨⟨{ seqState 0 with mer := { seqs := [(35, { part := 1, owned := true })] }, eng := { queues := [(12 * 64 + 3, [{ id := 3, part := 1, words := [1, 2, 3, 4, 5, 6, 7, 8] }])] }, cmp := { boot := .running, active := { partImage with programs := [{ seq := 35, code := [0], entries := [some 0] }] } } }, 3, { id := 3, part := 1, words := [1, 2, 3, 4, 5, 6, 7, 8] }, ([] : List QCmd), 0, by decide +kernel⟩,
    ⟨seqState (5 * 2 ^ 59) { run := .running, outst := List.replicate 16 {} }, 0, 5 * 2 ^ 59, by decide +kernel⟩,
    ⟨seqState (5 * 2 ^ 59 + 2 ^ 56 + 2 ^ 48), 0, 5 * 2 ^ 59 + 2 ^ 56 + 2 ^ 48, by decide +kernel⟩,
    ⟨{ seqState 0 with mer := { seqs := [(35, { part := 1, owned := true, run := .running, cmd := some { id := 3, part := 1, words := [] } })] }, cmp := { boot := .running, active := { partImage with programs := [{ seq := 35, code := [5 * 2 ^ 59], entries := [some 0] }] } } }, 35, 5 * 2 ^ 59, { id := 3, part := 1, words := [] }, by decide +kernel⟩,
    ⟨seqState 0 { outst := [{ slot := 4, awaited := true, done := some cBad }], wait := .issue 4, run := .waiting }, 0, 4, cBad, by decide +kernel⟩,
    ⟨seqState 0 { run := .running, outst := [{ slot := 4, awaited := false, done := some cBad }] }, 0, 4, cBad, by decide +kernel⟩⟩

theorem test_packets_premises :
    (∃ (s : State) (p : PktIn), 264 ≤ p.input ∧ p.slot < 7 ∧ isPair p.output = false ∧ (port s p.output).st ≠ .stopped ∧ waitsAhead s p = none ∧ (flowOf s p.input p.part p.slot).1.police = false ∧ cellRoom s false p.part (cellsOf p.len) = true) ∧
    (∃ (s : State) (p : PktIn) (node : _) (tag : _) (k : _) (n : _), p.input = k ∧ k < 256 ∧ p.who = .port k node tag ∧ p.posted = false ∧ p.cls = 0 ∧ (port s k).mode = .xcl ∧ (port s k).part = some n ∧ p.slot < 3 ∧ waitsAhead s p = none ∧ (flowOf s k n p.slot).2 = true ∧ (flowOf s k n p.slot).1.police = false ∧ (flowOf s k n p.slot).1.qmax ≤ flowCells s (flowOf s k n p.slot).1.n) ∧
    (∃ (s : State) (a : Nat) (p : PktIn) (at_ : _), 264 ≤ a ∧ p.input = a ∧ p.slot < 7 ∧ isPair p.output = false ∧ (flowOf s a p.part p.slot).1.police = false ∧ cellRoom s false p.part (cellsOf p.len) = true ∧ (port s p.output).st ≠ .stopped ∧ s.arc.held = [{ pkt := p, at_ := at_ }]) ∧
    (∃ (s : State) (a : Nat) (p : PktIn) (at_ : _), 264 ≤ a ∧ p.input = a ∧ p.slot < 7 ∧ isPair p.output = false ∧ (flowOf s a p.part p.slot).1.police = false ∧ cellRoom s false p.part (cellsOf p.len) = true ∧ (port s p.output).st ≠ .stopped ∧ s.arc.held = [{ pkt := p, red := true, at_ := at_ }]) ∧
    (∃ (s : State) (o : Nat) (p : Packet) (rest : _), eligible s o 7 = p :: rest ∧ 264 ≤ p.input ∧ p.bucket = none) ∧
    (∃ (s : State) (o : Nat) (n : Nat) (k : Nat) (at_ : _), (outSt s o).since.find? (fun e => e.1 == n * 8 + k) = some (n * 8 + k, at_) ∧ starveNs s k ≠ 0 ∧ at_ + starveNs s k ≤ s.ft ∧ (outSt s o).urgent = []) :=
  ⟨⟨base, ({ input := 300, output := 3, len := 300, slot := 1, part := 1 } : PktIn), by decide +kernel⟩,
    ⟨{ portBase with cmp := { boot := .running, active := { flows := [{ n := 2, attach := 3, part := 1, slot := 1, qmax := 1 }] } }, arc := { packets := [{ flow := 2, len := 128 }] } }, { input := 3, output := 300, len := 64, slot := 1, who := .port 3 7 1 }, 7, 1, 3, 1, by decide +kernel⟩,
    ⟨{ base with arc := { held := [{ pkt := { input := 300, output := 3, len := 300, slot := 1, part := 1 }, at_ := 0 }] } }, 300, { input := 300, output := 3, len := 300, slot := 1, part := 1 }, 0, by decide +kernel⟩,
    ⟨{ base with arc := { held := [{ pkt := { input := 300, output := 3, len := 300, slot := 1, part := 1 }, red := true, at_ := 0 }] } }, 300, { input := 300, output := 3, len := 300, slot := 1, part := 1 }, 0, by decide +kernel⟩,
    ⟨{ base with arc := { packets := [{ id := 4, input := 300, out := 301, part := 1, slot := 7, len := 300, rsv := true }] }, lat := { internalUsed := 9 } }, 301, { id := 4, input := 300, out := 301, part := 1, slot := 7, len := 300, rsv := true }, ([] : List Packet), by decide +kernel⟩,
    ⟨{ base with ft := 50000, arc := { outs := [(301, { since := [(9, 0)] })] } }, 301, 1, 1, 0, by decide +kernel⟩⟩

theorem test_flowControl_premises :
    (∃ (s : State) (p : Nat) (time : Nat), (port s p).mode = .eth ∧ (ethCfg s p).mode = 1 ∧ time ≠ 0) ∧
    (∃ (s : State) (p : Nat), (port s p).mode = .eth ∧ (ethCfg s p).mode = 2) ∧
    (∃ (s : State) (p : Nat) (mask : Nat) (times : List Nat) (i : _), (port s p).mode = .eth ∧ (ethCfg s p).mode = 2 ∧ i < 8 ∧ bitOf mask i = true ∧ bitOf (ethCfg s p).pfcEn i = true ∧ times.getD i 0 ≠ 0) ∧
    (∃ (s : State) (p : Nat) (k : Nat) (at_ : _), s.arc.paused.find? (fun e => e.1 == p * 16 + k) = some (p * 16 + k, at_) ∧ at_ ≤ s.ft) ∧
    (∃ (s : State) (p : Nat) (at_ : _), (port s p).mode = .eth ∧ (ethCfg s p).mode = 1 ∧ s.arc.fcSent.find? (fun e => e.1 == p * 16 + 8) = some (p * 16 + 8, at_) ∧ (ethCfg s p).xoffKib * 1024 ≤ fcBytes s (p * 16 + 8) ∧ at_ + quantaNs s p 0xFFFF / 2 ≤ s.ft) ∧
    (∃ (s : State) (p : Nat) (n : _), (port s p).mode = .xcl ∧ (port s p).priv = true ∧ (port s p).part = some n) ∧
    (∃ (s : State) (k : Nat) (roles : Nat), Admits s k roles .admin) ∧
    (∃ (s : State) (k : Nat) (roles : Nat), Admits s k roles .admin) ∧
    (∃ (s : State) (p : Nat), (port s p).priv = false) :=
  ⟨⟨ethState 1, 5, 7, by decide +kernel⟩,
    ⟨ethState 2, 5, by decide +kernel⟩,
    ⟨ethState 2, 5, 8, [0, 0, 0, 9], 3, by decide +kernel⟩,
    ⟨{ base with arc := { paused := [(5 * 16 + 3, 0)] } }, 5, 3, 0, by decide +kernel⟩,
    ⟨{ ethState 1 with arc := { fcSent := [(5 * 16 + 8, 0)] }, ft := 100000 }, 5, 0, by decide +kernel⟩,
    ⟨portBase, 3, 1, by decide +kernel⟩,
    ⟨{ base with arc := { frozen := 6 } }, 0, 4, by decide +kernel⟩,
    ⟨base, 0, 4, by decide +kernel⟩,
    ⟨base, 3, by decide +kernel⟩⟩

theorem test_memoryRequests_premises :
    (∃ (s : State) (p : Nat) (node : Nat) (tag : Nat) (asid : Nat) (va : Nat) (len : Nat) (n : _) (c : _) (g : _) (w : List Nat) (off : _) (pa : _) (e : _), (port s p).part = some n ∧ n < 16 ∧ nodeAt s p node = some n ∧ 0 < len ∧ va % 4096 + len ≤ 4096 ∧ segStage s { part := n, endpoint := node, asid := asid, va := va, len := len, num := node, tag := tag } = .ok c g w off ∧ fenceCpl s .locus n = none ∧ segType w = 2 ∧ segCoherent w = false ∧ directAns s n w off false = (.leaf e, pa) ∧ bits pa 63 52 = 0 ∧ serveCpl s (bits pa 51 0 / pageBytes) false = none ∧ homeLocal s (bits pa 51 0 / pageBytes) = true) ∧
    (∃ (s : State) (p : Nat) (node : Nat) (tag : Nat) (asid : Nat) (va : Nat) (data : List Byte) (n : _) (c : _) (g : _) (w : List Nat) (off : _) (pa : _) (e : _), (port s p).part = some n ∧ n < 16 ∧ nodeAt s p node = some n ∧ data ≠ [] ∧ va % 4096 + data.length ≤ 4096 ∧ segStage s { part := n, endpoint := node, asid := asid, va := va, len := data.length, write := true, num := node, tag := tag } = .ok c g w off ∧ fenceCpl s .locus n = none ∧ segType w = 2 ∧ segCoherent w = false ∧ directAns s n w off true = (.leaf e, pa) ∧ bits pa 63 52 = 0 ∧ serveCpl s (bits pa 51 0 / pageBytes) true = none ∧ homeLocal s (bits pa 51 0 / pageBytes) = true ∧ (page s (bits pa 51 0 / pageBytes)).st ≠ .zero) ∧
    (∃ (s : State) (p : Nat) (node : Nat) (tag : Nat) (asid : Nat) (va : Nat) (data : List Byte) (n : _) (c : _) (g : _) (w : List Nat) (off : _) (pa : _) (e : _), (port s p).part = some n ∧ n < 16 ∧ nodeAt s p node = some n ∧ data ≠ [] ∧ va % 4096 + data.length ≤ 4096 ∧ segStage s { part := n, endpoint := node, asid := asid, va := va, len := data.length, write := true, posted := true, num := node, tag := tag } = .ok c g w off ∧ fenceCpl s .locus n = none ∧ segType w = 2 ∧ segCoherent w = false ∧ directAns s n w off true = (.leaf e, pa) ∧ bits pa 63 52 = 0 ∧ serveCpl s (bits pa 51 0 / pageBytes) true = none ∧ homeLocal s (bits pa 51 0 / pageBytes) = true ∧ (page s (bits pa 51 0 / pageBytes)).st ≠ .zero) ∧
    (∃ (s : State) (p : Nat) (node : Nat) (tag : Nat) (asid : Nat) (va : Nat) (n : _) (c : _) (g : _) (w : List Nat) (off : _) (pa : _) (e : _), (port s p).part = some n ∧ n < 16 ∧ nodeAt s p node = some n ∧ (port s p).translating = true ∧ segStage s { part := n, endpoint := node, asid := asid, va := va - va % pageBytes, len := 1, num := node, tag := tag } = .ok c g w off ∧ fenceCpl s .locus n = none ∧ segType w = 2 ∧ directAns s n w off false = (.leaf e, pa) ∧ ((∀ r ∈ s.loc.reqs, r.id ≠ s.loc.nextReq))) ∧
    (∃ (s : State) (p : Nat) (node : Nat) (asid : Nat) (len : Nat) (n : _), (port s p).part = some n ∧ n < 16 ∧ nodeAt s p node = some n ∧ 0 < len ∧ len ≤ 4096 ∧ findCtx s n node asid = none ∧ ((∀ r ∈ s.loc.reqs, r.id ≠ s.loc.nextReq))) ∧
    (∃ (s : State) (p : Nat) (node : Nat) (tag : Nat) (asid : Nat) (va : Nat) (n : _) (c : _) (g : _) (w : List Nat) (off : _), (port s p).part = some n ∧ n < 16 ∧ nodeAt s p node = some n ∧ segStage s { part := n, endpoint := node, asid := asid, va := va, len := 0, num := node, tag := tag } = .ok c g w off ∧ ((∀ r ∈ s.loc.reqs, r.id ≠ s.loc.nextReq))) ∧
    (∃ (s : State) (p : Nat) (node : Nat) (tag : Nat) (asid : Nat) (va : Nat) (len : Nat) (n : _) (c : _) (g : _), (port s p).part = some n ∧ n < 16 ∧ nodeAt s p node = some n ∧ 0 < len ∧ va % 4096 + len ≤ 4096 ∧ segStage s { part := n, endpoint := node, asid := asid, va := va, len := len, num := node, tag := tag } = .fault .limit c g ∧ fenceCpl s .locus n = none ∧ (locPart s n).count < (partRec s n).fqSize ∧ ((∀ r ∈ s.loc.reqs, r.id ≠ s.loc.nextReq))) ∧
    (∃ (s : State) (p : Nat) (node : Nat) (tag : Nat) (asid : Nat) (va : Nat) (len : Nat) (n : _) (c : _) (g : _) (w : List Nat) (off : _), (port s p).part = some n ∧ n < 16 ∧ nodeAt s p node = some n ∧ 0 < len ∧ va % 4096 + len ≤ 4096 ∧ segStage s { part := n, endpoint := node, asid := asid, va := va, len := len, num := node, tag := tag } = .ok c g w off ∧ fenceCpl s .locus n = none ∧ segType w = 1 ∧ s.loc.tlb1 = [] ∧ s.loc.tlb2 = [] ∧ s.loc.walks = [] ∧ 0 < (partRec s n).walkQuota ∧ (s.loc.ctxs.get c).segs.getD g [] = w) :=
  ⟨⟨memState, 3, 7, 1, 0, 64, 8, 1, 1, 0, directSeg, 64, 64, 0, by decide +kernel⟩,
    ⟨memState, 3, 7, 1, 0, 64, [1, 2], 1, 1, 0, directSeg, 64, 64, 0, by decide +kernel⟩,
    ⟨memState, 3, 7, 1, 0, 64, [1, 2], 1, 1, 0, directSeg, 64, 64, 0, by decide +kernel⟩,
    ⟨{ memState with edg := { ports := [(3, { mode := .xcl, st := .up, part := some 1, priv := true, translating := true })] } }, 3, 7, 1, 0, 2097160, 1, 1, 0, directSeg, 2097152, 2097152, 0, by decide +kernel⟩,
    ⟨memState, 3, 7, 5, 8, 1, by decide +kernel⟩,
    ⟨memState, 3, 7, 1, 0, 64, 1, 1, 0, directSeg, 64, by decide +kernel⟩,
    ⟨memState, 3, 7, 1, 0, 2 ^ 40, 8, 1, 1, 0, by decide +kernel⟩,
    ⟨{ memState with loc := { ctxs := [(1, { valid := true, endpoint := 7, segs := [[0x11, pageBytes - 1, 8192, 0]] })] } }, 3, 7, 1, 0, 64, 8, 1, 1, 0, [0x11, pageBytes - 1, 8192, 0], 64, by decide +kernel⟩⟩

theorem test_memoryAccesses_premises :
    (∃ (s : State) (id : _) (r : MemReq) (p : _) (node : _) (tag : _), s.loc.reqs.find? (fun x => x.id == id) = some r ∧ r.phase = .access ∧ r.retryAt = none ∧ r.kind = .rd ∧ r.who = .port p node tag ∧ bits r.pa 63 52 = 0 ∧ serveCpl s (bits r.pa 51 0 / pageBytes) false = none ∧ readPoisoned s (bits r.pa 51 0) r.len = false) ∧
    (∃ (s : State) (id : _) (r : MemReq) (p : _) (node : _) (tag : _), s.loc.reqs.find? (fun x => x.id == id) = some r ∧ r.phase = .access ∧ r.retryAt = none ∧ r.kind = .wr ∧ r.who = .port p node tag ∧ bits r.pa 63 52 = 0 ∧ serveCpl s (bits r.pa 51 0 / pageBytes) true = none ∧ r.fwd = false ∧ r.mark = false ∧ (page s (bits r.pa 51 0 / pageBytes)).st = .resident ∧ Memory.wf s.mem = true ∧ Clean s (bits r.pa 51 0) r.data.length) ∧
    (∃ (s : State) (id : _) (r : MemReq) (p : _) (node : _) (tag : _) (ext : List Byte), s.loc.reqs.find? (fun x => x.id == id) = some r ∧ r.phase = .access ∧ r.retryAt = none ∧ r.kind = .rd ∧ r.who = .port p node tag ∧ bits r.pa 63 52 ≠ 0 ∧ ext.length = r.len) ∧
    (∃ (s : State) (id : _) (r : MemReq) (p : _) (node : _) (tag : _), s.loc.reqs.find? (fun x => x.id == id) = some r ∧ r.phase = .access ∧ r.retryAt = none ∧ r.kind ≠ .posted ∧ r.who = .port p node tag) ∧
    (∃ (s : State) (r : MemReq) (p : _) (node : _) (tag : _), linkDown s = true ∧ s.pair.lostFt ≤ s.ft ∧ s.loc.reqs = [r] ∧ r.fwd = true ∧ r.kind = .rd ∨ r.kind = .wr ∧ r.who = .port p node tag ∧ s.pln.jobs = []) ∧
    (∃ (s : State) (b : Block) (gen : Nat), b ≠ .vertex ∧ gen ≠ (s.cmp.fences.get b.code).gen) ∧
    (∃ (s : State) (gen : Nat), gen ≠ s.vtx.gen) :=
  ⟨⟨{ memState with loc := { reqs := [{ id := 4, who := .port 3 7 1, part := 1, len := 8, phase := .access, pa := 64 }] }, mem := [(65, 9)] }, 4, { id := 4, who := .port 3 7 1, part := 1, len := 8, phase := .access, pa := 64 }, 3, 7, 1, by decide +kernel⟩,
    ⟨{ memState with loc := { reqs := [{ id := 4, who := .port 3 7 1, part := 1, len := 2, kind := .wr, data := [5, 6], phase := .access, pa := 64 }] }, mem := [(65, 9)] }, 4, { id := 4, who := .port 3 7 1, part := 1, len := 2, kind := .wr, data := [5, 6], phase := .access, pa := 64 }, 3, 7, 1, by decide +kernel⟩,
    ⟨{ memState with loc := { reqs := [{ id := 4, who := .port 3 7 1, part := 1, len := 1, phase := .access, pa := 7 * 2 ^ 52 }] } }, 4, { id := 4, who := .port 3 7 1, part := 1, len := 1, phase := .access, pa := 7 * 2 ^ 52 }, 3, 7, 1, [6], by decide +kernel⟩,
    ⟨{ memState with loc := { reqs := [{ id := 4, who := .port 3 7 1, part := 1, len := 8, phase := .access, pa := 64 }] } }, 4, { id := 4, who := .port 3 7 1, part := 1, len := 8, phase := .access, pa := 64 }, 3, 7, 1, by decide +kernel⟩,
    ⟨{ memState with pair := { st := .linkLost }, loc := { reqs := [{ id := 4, who := .port 3 7 1, fwd := true }] } }, { id := 4, who := .port 3 7 1, fwd := true }, 3, 7, 1, by decide +kernel⟩,
    ⟨base, .locus, 1, by decide +kernel⟩,
    ⟨base, 1, by decide +kernel⟩⟩

theorem test_walks_premises :
    (∃ (s : State) (m : Miss), s.loc.misses = [m] ∧ m.part < 16 ∧ s.loc.walks.length < 32 ∧ walkersOf s m.part < (partRec s m.part).walkQuota ∧ ((∀ k ∈ s.loc.walks, k.ctx ≠ m.ctx ∨ k.segNo ≠ m.segNo ∨ k.page ≠ m.page))) ∧
    (∃ (s : State) (id : Nat) (k : Walk) (addr : _) (n : _), s.loc.walks.find? (fun x => x.id == id) = some k ∧ k.retryAt = none ∧ addr = k.table + 8 * tableIndex k.level (k.page * pageBytes) ∧ serveCpl s (addr / pageBytes) false = none ∧ readPoisoned s addr 8 = false ∧ entCheck s k.part k.level (segType k.seg == 3) false false (k.page * pageBytes) (memWord s.mem addr) = .next n) ∧
    (∃ (s : State) (id : Nat) (k : Walk) (addr : _) (r : MemReq) (p : _) (node : _) (tag : _), s.loc.walks = [k] ∧ k.id = id ∧ k.retryAt = none ∧ addr = k.table + 8 * tableIndex k.level (k.page * pageBytes) ∧ serveCpl s (addr / pageBytes) false = none ∧ readPoisoned s addr 8 = false ∧ bitOf (memWord s.mem addr) 0 = false ∧ s.loc.reqs = [r] ∧ k.joined = [r.id] ∧ r.part = k.part ∧ r.kind = .rd ∧ r.who = .port p node tag ∧ (locPart s k.part).count < (partRec s k.part).fqSize) ∧
    (∃ (s : State) (id : Nat) (k : Walk) (c : Cpl), s.loc.walks = [k] ∧ k.id = id ∧ k.retryAt = none ∧ serveCpl s ((k.table + 8 * tableIndex k.level (k.page * pageBytes)) / pageBytes) false = some c) ∧
    (∃ (s : State) (k : Walk) (d : _), s.loc.walks = [k] ∧ k.retryAt = some d ∧ d ≤ s.ft) ∧
    (∃ (s : State) (id : Nat) (k : Walk) (d : _) (r : MemReq) (p : _) (node : _) (tag : _), s.loc.walks.find? (fun x => x.id == id) = some k ∧ k.retryAt = some d ∧ k.first + 20000 ≤ s.ft ∧ s.loc.reqs = [r] ∧ k.joined = [r.id] ∧ r.kind ≠ .posted ∧ r.who = .port p node tag) ∧
    (∃ (s : State) (p : Nat) (n : Nat) (h : Nat), (port s p).priv = true ∧ (port s p).part = some n ∧ h < (partRec s n).fqSize ∧ (partRec s n).fqSize ≤ 4096 ∧ (h + (partRec s n).fqSize - (locPart s n).head) % (partRec s n).fqSize ≤ (locPart s n).count) ∧
    (∃ (s : State) (k : Nat) (roles : Nat) (n : Nat) (h : Nat), Admits s k roles .admin ∧ n < 16 ∧ h < 4096 ∧ (partRec s n).fqSize ≤ h ∧ (partRec s n).fqSize ≠ 0) :=
  ⟨⟨{ memState with loc := { ctxs := memState.loc.ctxs, misses := [{ part := 1, ctx := 1, reqs := [4] }] } }, { part := 1, ctx := 1, reqs := [4] }, by decide +kernel⟩,
    ⟨{ memState with loc := { walks := [{ id := 5, part := 1, table := 8192 }] }, mem := [(8192, 1), (8193, 48)] }, 5, { id := 5, part := 1, table := 8192 }, 8192, 12288, by decide +kernel⟩,
    ⟨{ memState with loc := { walks := [{ id := 5, part := 1, table := 8192, joined := [4] }], reqs := [{ id := 4, part := 1, who := .port 3 7 1, len := 8 }] } }, 5, { id := 5, part := 1, table := 8192, joined := [4] }, 8192, { id := 4, part := 1, who := .port 3 7 1, len := 8 }, 3, 7, 1, by decide +kernel⟩,
    ⟨{ memState with loc := { walks := [{ id := 5, part := 1, table := 8192 }] }, cmp := { memState.cmp with fences := [(Block.plane.code, { on := true })] } }, 5, { id := 5, part := 1, table := 8192 }, cRetry 25000, by decide +kernel⟩,
    ⟨{ memState with loc := { walks := [{ id := 5, retryAt := some 0 }] } }, { id := 5, retryAt := some 0 }, 0, by decide +kernel⟩,
    ⟨{ memState with ft := 20000, loc := { walks := [{ id := 5, part := 1, joined := [4], retryAt := some 0 }], reqs := [{ id := 4, part := 1, who := .port 3 7 1, len := 8 }] } }, 5, { id := 5, part := 1, joined := [4], retryAt := some 0 }, 0, { id := 4, part := 1, who := .port 3 7 1, len := 8 }, 3, 7, 1, by decide +kernel⟩,
    ⟨{ memState with loc := { parts := [(1, { tail := 3, count := 3 })] } }, 3, 1, 2, by decide +kernel⟩,
    ⟨memState, 0, 4, 1, 9, by decide +kernel⟩⟩

theorem test_locusRecords_premises :
    (∃ (s : State) (n : Nat) (y : LocSync) (w : List Nat) (c : _), firstSync s n = some y ∧ w = recWords s n y.record ∧ fenceCpl s .locus n = none ∧ mirrorRetry s n y.record false = false ∧ readPoisoned s (recAddr s n y.record) 32 = false ∧ bits (w.getD 0 0) 3 0 = 1 ∧ recCheck s n w = none ∧ s.loc.walks = [] ∧ s.loc.misses = [] ∧ c = (partRec s n).ctxBase + bits (w.getD 0 0) 15 4) ∧
    (∃ (s : State) (n : Nat) (y : LocSync) (w : List Nat) (c : _), firstSync s n = some y ∧ w = recWords s n y.record ∧ fenceCpl s .locus n = none ∧ mirrorRetry s n y.record false = false ∧ readPoisoned s (recAddr s n y.record) 32 = false ∧ bits (w.getD 0 0) 3 0 = 2 ∧ recCheck s n w = none ∧ s.loc.walks = [] ∧ s.loc.misses = [] ∧ c = (partRec s n).ctxBase + bits (w.getD 0 0) 15 4) ∧
    (∃ (s : State) (n : Nat) (y : LocSync) (w : List Nat) (c : _), firstSync s n = some y ∧ w = recWords s n y.record ∧ fenceCpl s .locus n = none ∧ mirrorRetry s n y.record false = false ∧ readPoisoned s (recAddr s n y.record) 32 = false ∧ bits (w.getD 0 0) 3 0 = 3 ∧ recCheck s n w = none ∧ s.loc.walks = [] ∧ s.loc.misses = [] ∧ c = (partRec s n).ctxBase + bits (w.getD 0 0) 15 4) ∧
    (∃ (s : State) (n : Nat) (y : LocSync) (w : List Nat) (c : _), firstSync s n = some y ∧ w = recWords s n y.record ∧ fenceCpl s .locus n = none ∧ mirrorRetry s n y.record false = false ∧ readPoisoned s (recAddr s n y.record) 32 = false ∧ bits (w.getD 0 0) 3 0 = 4 ∧ recCheck s n w = none ∧ c = (partRec s n).ctxBase + bits (w.getD 0 0) 15 4) ∧
    (∃ (s : State) (n : Nat) (y : LocSync) (w : List Nat), firstSync s n = some y ∧ w = recWords s n y.record ∧ fenceCpl s .locus n = none ∧ mirrorRetry s n y.record false = false ∧ readPoisoned s (recAddr s n y.record) 32 = false ∧ bits (w.getD 0 0) 3 0 = 3 ∧ recCheck s n w = some cBad) ∧
    (∃ (s : State), Tab.sorted s.loc.parts = true) ∧
    (∃ (s : State) (n : Nat) (node : Nat) (y : LocSync) (rest : _) (at_ : _), (locPart s n).syncs = y :: rest ∧ y.acks = [(node, at_)] ∧ at_ + 50000 ≤ s.ft) ∧
    (∃ (s : State) (n : Nat) (y : LocSync) (rest : _), (locPart s n).syncs = y :: rest ∧ y.applied = true ∧ y.acks = [] ∧ oldPending s y = false ∧ y.readable = true ∧ y.obj = none ∧ y.timedOut = false ∧ serveCpl s (recAddr s n y.record / pageBytes) true = none ∧ (page s ((recAddr s n y.record + 24) / pageBytes)).st = .resident ∧ Memory.wf s.mem = true ∧ Clean s (recAddr s n y.record + 24) 8 ∧ y.status.status ≠ .timeout) :=
  ⟨⟨{ memState with loc := { ctxs := memState.loc.ctxs, tlb1 := [(132, [{ ctx := 2 }])], parts := [(1, { syncs := [{}] })] }, mem := [(16384, 33)] }, 1, {}, [33, 0, 0, 0], 2, by decide +kernel⟩,
    ⟨{ memState with loc := { ctxs := memState.loc.ctxs, tlb1 := [(132, [{ ctx := 2 }])], parts := [(1, { syncs := [{}] })], cached := [(2, 7)] }, mem := [(16384, 34)] }, 1, {}, [34, 0, 0, 0], 2, by decide +kernel⟩,
    ⟨{ memState with loc := { ctxs := memState.loc.ctxs, tlb1 := [(132, [{ ctx := 2 }])], parts := [(1, { syncs := [{}] })], cached := [(2, 7)] }, mem := [(16384, 35)] }, 1, {}, [35, 0, 0, 0], 2, by decide +kernel⟩,
    ⟨{ memState with loc := { ctxs := memState.loc.ctxs, disabled := [(2, 7)], parts := [(1, { syncs := [{}] })] }, mem := [(16384, 36)] }, 1, {}, [36, 0, 0, 0], 2, by decide +kernel⟩,
    ⟨{ memState with loc := { ctxs := memState.loc.ctxs, parts := [(1, { syncs := [{}] })] }, mem := [(16384, 35), (16385, 1)] }, 1, {}, [291, 0, 0, 0], by decide +kernel⟩,
    ⟨{ memState with loc := { parts := [(1, { syncs := [{ applied := true, ctx := 2, acks := [(7, 0)] }] })] } }, by decide +kernel⟩,
    ⟨{ memState with ft := 50000, loc := { parts := [(1, { syncs := [{ applied := true, ctx := 2, acks := [(7, 0)] }] })] } }, 1, 7, { applied := true, ctx := 2, acks := [(7, 0)] }, ([] : List LocSync), 0, by decide +kernel⟩,
    ⟨{ memState with loc := { parts := [(1, { syncs := [{ applied := true, ctx := 2, status := cOk }] })] } }, 1, { applied := true, ctx := 2, status := cOk }, ([] : List LocSync), by decide +kernel⟩⟩

theorem test_planeCommands_premises :
    (∃ (s : State) (u : State) (q : Nat) (c : QCmd) (pa : _) (w : List Nat) (x : _) (p : _) (k : _) (node : _) (tag : _), takeCmd .plane q (128 + q) (fun c => plnOp c == 1) s = some (c, u) ∧ plnCount c = 1 ∧ translate (plnXl c 0) u = (u, .addr pa w x) ∧ bits pa 63 52 = 0 ∧ p = bits pa 51 0 / pageBytes ∧ homeLocal u p = true ∧ hasPartner u = false ∧ pageBusy u p = false ∧ (page u p).st = .zero ∧ u.pln.jobs = [] ∧ c.req = .port k node tag ∧ c.issuer = none ∧ bitOf (c.w 0) 7 = false) ∧
    (∃ (s : State) (u : State) (v : State) (q : Nat) (c : QCmd) (pa : _) (w : List Nat) (x : _) (p : _) (f : Frame) (e : PageEnt), takeCmd .plane q (128 + q) (fun c => plnOp c == 1) s = some (c, u) ∧ plnCount c = 1 ∧ translate (plnXl c 0) u = (u, .addr pa w x) ∧ bits pa 63 52 = 0 ∧ p = bits pa 51 0 / pageBytes ∧ homeLocal u p = true ∧ hasPartner u = false ∧ linkDown u = false ∧ pageBusy u p = false ∧ (page u p).st = .resident ∧ e = { page u p with hint := hintOf (bits (c.w 0) 38 36) } ∧ e ≠ page u p ∧ (page u p).frame.tier ≠ (hintTiers u c.part e.hint).headD .ddr ∧ allocTier c.part ((hintTiers u c.part e.hint).headD .ddr) (setPage p e u) = some (f, v) ∧ v.pln.jobs = []) ∧
    (∃ (s : State) (u : State) (v : State) (q : Nat) (c : QCmd) (pa : _) (w : List Nat) (x : _) (p : _) (f : Frame), takeCmd .plane q (128 + q) (fun c => plnOp c == 2) s = some (c, u) ∧ plnCount c = 1 ∧ translate (plnXl c 0) u = (u, .addr pa w x) ∧ bits pa 63 52 = 0 ∧ p = bits pa 51 0 / pageBytes ∧ homeLocal u p = true ∧ groupOf u p = none ∧ linkDown u = false ∧ pageBusy u p = false ∧ (page u p).st = .resident ∧ (page u p).frame.tier ≠ .prism ∧ plnRel c = none ∧ plnDeadline c = none ∧ needPrism c.part u = some (f, v) ∧ v.pln.jobs = []) ∧
    (∃ (s : State) (u : State) (q : Nat) (c : QCmd) (pa : _) (w : List Nat) (x : _) (p : _) (k : _) (node : _) (tag : _), takeCmd .plane q (128 + q) (fun c => plnOp c == 3) s = some (c, u) ∧ plnCount c = 1 ∧ translate (plnXl c 0) u = (u, .addr pa w x) ∧ bits pa 63 52 = 0 ∧ p = bits pa 51 0 / pageBytes ∧ homeLocal u p = true ∧ pageBusy u p = false ∧ u.pln.jobs = [] ∧ c.req = .port k node tag ∧ c.issuer = none ∧ bitOf (c.w 0) 7 = false) ∧
    (∃ (s : State) (u : State) (q : Nat) (c : QCmd) (pa : _) (w : List Nat) (x : _) (p : _) (k : _) (node : _) (tag : _), takeCmd .plane q (128 + q) (fun c => plnOp c == 4) s = some (c, u) ∧ plnPinned u c = false ∧ plnCount c = 1 ∧ translate (plnXl c 0) u = (u, .addr pa w x) ∧ bits pa 63 52 = 0 ∧ p = bits pa 51 0 / pageBytes ∧ homeLocal u p = true ∧ hasPartner u = false ∧ (page u p).st ≠ .zero ∧ u.pln.jobs = [] ∧ Memory.wf u.mem = true ∧ c.req = .port k node tag ∧ c.issuer = none ∧ bitOf (c.w 0) 7 = false) ∧
    (∃ (s : State) (u : State) (q : Nat) (c : QCmd) (k : _) (node : _) (tag : _), takeCmd .plane q (128 + q) (fun c => plnOp c == 4) s = some (c, u) ∧ plnPinned u c = true ∧ c.req = .port k node tag ∧ c.issuer = none ∧ bitOf (c.w 0) 7 = false) ∧
    (∃ (s : State) (u : State) (q : Nat) (c : QCmd) (k : _) (node : _) (tag : _) (x : State) (d : Cpl), takeCmd .plane q (128 + q) (fun c => plnOp c == 3) s = some (c, u) ∧ translate (plnXl c 0) u = (x, .cpl d) ∧ x.pln.jobs = [] ∧ 0 < plnCount c ∧ d.status ≠ .ok ∧ c.req = .port k node tag ∧ c.issuer = none ∧ bitOf (c.w 0) 7 = false ∧ outcomeRank d.status < 7) :=
  ⟨⟨plnState (cmdAt 1 8 (2 * 2 ^ 36)), plnTaken (cmdAt 1 8 (2 * 2 ^ 36)), 0, cmdAt 1 8 (2 * 2 ^ 36), 8 * pageBytes, directSeg, 0, 8, 3, 7, 1, by decide +kernel⟩,
    ⟨plnState (cmdAt 1 0 (3 * 2 ^ 36)), plnTaken (cmdAt 1 0 (3 * 2 ^ 36)), ((allocTier 1 .ddr (setPage 0 { st := .resident, hint := .preferDdr } (plnTaken (cmdAt 1 0 (3 * 2 ^ 36))))).getD ({}, {})).2, 0, cmdAt 1 0 (3 * 2 ^ 36), 0, directSeg, 0, 0, { tier := .ddr, n := 1 }, { st := .resident, hint := .preferDdr }, by decide +kernel⟩,
    ⟨plnState (cmdAt 2 4 0), plnTaken (cmdAt 2 4 0), ((needPrism 1 (plnTaken (cmdAt 2 4 0))).getD ({}, {})).2, 0, cmdAt 2 4 0, 4 * pageBytes, directSeg, 0, 4, { tier := .prism, n := 4 }, by decide +kernel⟩,
    ⟨plnState (cmdAt 3 1 0), plnTaken (cmdAt 3 1 0), 0, cmdAt 3 1 0, pageBytes, directSeg, 0, 1, 3, 7, 1, by decide +kernel⟩,
    ⟨plnState (cmdAt 4 1 0), plnTaken (cmdAt 4 1 0), 0, cmdAt 4 1 0, pageBytes, directSeg, 0, 1, 3, 7, 1, by decide +kernel⟩,
    ⟨{ plnState (cmdAt 4 1 0) with pln := { pages := [(1, { st := .resident, hint := .pinPrism })] } }, { plnTaken (cmdAt 4 1 0) with pln := { pages := [(1, { st := .resident, hint := .pinPrism })] } }, 0, cmdAt 4 1 0, 3, 7, 1, by decide +kernel⟩,
    ⟨plnState (cmdAt 3 100 0), plnTaken (cmdAt 3 100 0), 0, cmdAt 3 100 0, 3, 7, 1, (translate (plnXl (cmdAt 3 100 0) 0) (plnTaken (cmdAt 3 100 0))).1, (match (translate (plnXl (cmdAt 3 100 0) 0) (plnTaken (cmdAt 3 100 0))).2 with | .cpl c => c | _ => cOk), by decide +kernel⟩⟩

theorem test_migrations_premises :
    (∃ (s : State) (p : Nat) (m : Migr), fenced s .plane = false ∧ s.pln.migs.find? (fun m => m.page == p) = some m ∧ m.copied = false ∧ hasPartner s = false ∧ s.pln.jobs = [] ∧ ((∀ e ∈ s.fld.blocks, e.1 / 4096 ≠ p ∨ (e.2.bad = none ∧ e.2.bpoison = false)))) ∧
    (∃ (s : State) (p : Nat) (m : Migr), fenced s .plane = false ∧ s.pln.migs = [m] ∧ m.page = p ∧ m.copied = false ∧ hasPartner s = true ∧ s.pair.linkUp = true ∧ ((∀ e ∈ s.fld.blocks, e.1 / 4096 ≠ p ∨ (e.2.bad = none ∧ e.2.bpoison = false)))) ∧
    (∃ (s : State) (p : Nat) (c : PgCopy), fenced s .plane = false ∧ s.pln.migs = [] ∧ s.pln.copies = [c] ∧ c.page = p ∧ c.done = false ∧ s.pln.jobs = [] ∧ ((∀ e ∈ s.pln.relAt, e.1 ≠ p))) ∧
    (∃ (s : State), fenced s .plane = true) ∧
    (∃ (s : State) (tier : Tier) (n : Nat) (f : Frame), f = { tier := tier, n := n } ∧ running s = true ∧ frameBad s f = true ∧ f ∉ s.pln.retired ∧ pagesOn s (fun g => g == f) = [] ∧ ((∀ m ∈ s.pln.migs, m.dst ≠ f)) ∧ s.cmp.nvmA.answers = true ∧ s.cmp.nvmB.answers = true) ∧
    (∃ (s : State) (c : Nat), (s.pln.chans.get c).st = .active ∧ chanBad s c = true ∧ pagesOn s (onChan c) = [] ∧ ((∀ m ∈ s.pln.migs, onChan c m.dst = false)) ∧ s.cmp.nvmA.answers = true ∧ s.cmp.nvmB.answers = true) ∧
    (∃ (s : State) (c : Nat) (p : _) (e : PageEnt), (s.pln.chans.get c).st = .evacuating ∧ s.pln.migs = [] ∧ s.pln.pages = [(p, e)] ∧ homeLocal s p = true ∧ e.st ≠ .zero ∧ onChan c e.frame = true ∧ Memory.wf s.mem = true) ∧
    (∃ (s : State) (c : Nat), (s.pln.chans.get c).st = .active ∧ s.pln.migs = [] ∧ ((∀ e ∈ s.pln.pages, (entFrames e.2).any (onChan c) = false ∧ onChan c e.2.frame = false))) ∧
    (∃ (s : State) (c : Nat), (s.pln.chans.get c).st = .evacuating ∧ ((∀ e ∈ heldFrames s, onChan c e.2 = false))) ∧
    (∃ (s : State) (k : Nat), (s.pln.trays.get k).st = .evacuating ∧ ((∀ e ∈ heldFrames s, onTray k e.2 = false))) :=
  ⟨⟨{ memState with pln := { pages := [(2, { st := .migrating, dst := some { tier := .ddr, n := 5 } })], migs := [{ page := 2, dst := { tier := .ddr, n := 5 } }] } }, 2, { page := 2, dst := { tier := .ddr, n := 5 } }, by decide +kernel⟩,
    ⟨{ memState with pair := { st := .paired, partnerRunning := true, linkUp := true }, pln := { pages := [(2, { st := .migrating, dst := some { tier := .ddr, n := 5 } })], migs := [{ page := 2, dst := { tier := .ddr, n := 5 } }] } }, 2, { page := 2, dst := { tier := .ddr, n := 5 } }, by decide +kernel⟩,
    ⟨{ memState with pln := { copies := [{ page := 2, frame := 9 }] } }, 2, { page := 2, frame := 9 }, by decide +kernel⟩,
    ⟨{ memState with cmp := { fences := [(Block.plane.code, { on := true })] } }, by decide +kernel⟩,
    ⟨{ memState with pln := { errs := [{ frame := { tier := .ddr, n := 9 }, ue := true }] } }, .ddr, 9, { tier := .ddr, n := 9 }, by decide +kernel⟩,
    ⟨{ memState with pln := { chans := [(2, { st := .active })], errs := List.replicate 3 { frame := { tier := .ddr, n := 2 * 65536 }, ue := true } } }, 2, by decide +kernel⟩,
    ⟨{ memState with pln := { chans := [(2, { st := .evacuating })], pages := [(5, { st := .resident, frame := { tier := .ddr, n := 2 * 65536 } })] }, mem := [(5 * pageBytes, 9)] }, 2, 5, { st := .resident, frame := { tier := .ddr, n := 2 * 65536 } }, by decide +kernel⟩,
    ⟨{ memState with pln := { chans := [(2, { st := .active })] } }, 2, by decide +kernel⟩,
    ⟨{ memState with pln := { chans := [(2, { st := .evacuating })] } }, 2, by decide +kernel⟩,
    ⟨{ memState with pln := { trays := [(2, { st := .evacuating })] } }, 2, by decide +kernel⟩⟩

theorem test_trays_premises :
    (∃ (s : State) (k : Nat), (s.pln.trays.get k).head = .up ∧ (s.pln.trays.get k).st ≠ .absent ∧ (((s.pln.trays.get k).downAt.filter fun a => decide (s.ft < a + hourNs)).length < 2)) ∧
    (∃ (s : State) (k : Nat), (s.pln.trays.get k).head = .up ∧ (s.pln.trays.get k).st ≠ .absent ∧ (2 ≤ ((s.pln.trays.get k).downAt.filter fun a => decide (s.ft < a + hourNs)).length) ∧ s.cmp.nvmA.answers = true ∧ s.cmp.nvmB.answers = true) ∧
    (∃ (s : State) (k : Nat) (a : _), (s.pln.trays.get k).head ≠ .retired ∧ (s.pln.trays.get k).st ≠ .absent ∧ (s.pln.trays.get k).downSince = some a ∧ a + 1000000000 ≤ s.ft) ∧
    (∃ (s : State) (k : Nat), (s.pln.trays.get k).head = .retraining ∧ (s.edg.trays.get k).width = 3) ∧
    (∃ (s : State) (k : Nat), (s.pln.trays.get k).st = .active ∧ headsGone s k = false ∧ pagesOn s (fun f => onTray k f && ownHalf s f.n) = [] ∧ ((∀ m ∈ s.pln.migs, onTray k m.dst = false))) ∧
    (∃ (media : Bool) (unc : Bool), media = false ∨ unc = false) ∧
    (∃ (s : State) (k : Nat), (s.pln.trays.get k).st = .active ∧ headsGone s k = false ∧ trayBad s k = true ∧ pagesOn s (fun f => onTray k f && ownHalf s f.n) = [] ∧ ((∀ m ∈ s.pln.migs, onTray k m.dst = false))) ∧
    (∃ (s : State) (k : Nat), (s.pln.trays.get k).st = .active ∧ (s.pln.trays.get k).head = .retired ∧ hasPartner s = false ∧ s.pln.migs = [] ∧ ((∀ e ∈ s.pln.pages, (entFrames e.2).any (onTray k) = false ∧ onTray k e.2.frame = false))) ∧
    (∃ (s : State) (k : Nat), (s.edg.trays.get k).width < 3 ∧ (s.edg.trays.get k).spareCap = true ∧ (s.edg.trays.get k).spareUsed = false) ∧
    (∃ (s : State) (k : Nat), (s.edg.trays.get k).width < 2 ∧ (s.edg.trays.get k).spareCap = false ∨ (s.edg.trays.get k).spareUsed = true) ∧
    (∃ (s : State) (k : Nat), (s.edg.trays.get k).width = 2 ∧ (s.edg.trays.get k).spareUsed = true ∧ (s.pln.trays.get k).head = .up ∧ (s.pln.trays.get k).st = .active ∧ (s.pln.trays.get k).downAt = []) :=
  ⟨⟨{ memState with pln := { trays := [(2, { st := .active })] } }, 2, by decide +kernel⟩,
    ⟨{ memState with pln := { trays := [(2, { st := .active, downAt := [0, 0] })] } }, 2, by decide +kernel⟩,
    ⟨{ memState with ft := 1000000000, pln := { trays := [(2, { st := .active, head := .retraining, downSince := some 0 })] } }, 2, 0, by decide +kernel⟩,
    ⟨{ memState with pln := { trays := [(2, { st := .active, head := .retraining, downSince := some 0 })] } }, 2, by decide +kernel⟩,
    ⟨{ memState with pln := { trays := [(2, { st := .active })] } }, 2, by decide +kernel⟩,
    ⟨true, false, by decide +kernel⟩,
    ⟨{ memState with pln := { trays := [(2, { st := .active })], errs := List.replicate 8 { frame := { tier := .tray, n := 2 * 1048576 }, ue := true } } }, 2, by decide +kernel⟩,
    ⟨{ memState with pln := { trays := [(2, { st := .active, head := .retired })] } }, 2, by decide +kernel⟩,
    ⟨{ memState with edg := { trays := [(2, { width := 2, spareCap := true })] } }, 2, by decide +kernel⟩,
    ⟨{ memState with edg := { trays := [(2, { width := 0, spareCap := true, spareUsed := true })] } }, 2, by decide +kernel⟩,
    ⟨{ memState with edg := { trays := [(2, { width := 2, spareUsed := true })] }, pln := { trays := [(2, { st := .active })] } }, 2, by decide +kernel⟩⟩

theorem test_coherentRequests_premises :
    (∃ (s : State) (p : _) (node : _) (tag : _) (n : _) (a : _) (r : CohReq) (i : _), r.who = .port p node tag ∧ r.far = none ∧ (port s p).coherent = true ∧ AtLine s p node n (a / 128) ∧ cohByte s { part := n, endpoint := node, asid := r.asid, va := r.va - r.va % 128, len := 128, num := node, tag := tag } = some a ∧ dirFind s (a / 128) = none ∧ freeWay s n (a / 128) = some i) ∧
    (∃ (s : State) (p : _) (node : _) (tag : _) (n : _) (a : _) (r : CohReq) (i : _), r.who = .port p node tag ∧ r.far = none ∧ (port s p).coherent = true ∧ AtLine s p node n (a / 128) ∧ cohByte s { part := n, endpoint := node, asid := r.asid, va := r.va - r.va % 128, len := 128, write := true, num := node, tag := tag } = some a ∧ dirFind s (a / 128) = none ∧ freeWay s n (a / 128) = some i) ∧
    (∃ (s : State) (p : _) (node : _) (tag : _) (n : _) (a : _) (r : CohReq) (i : _), r.who = .port p node tag ∧ r.far = none ∧ (port s p).coherent = true ∧ AtLine s p node n (a / 128) ∧ cohByte s { part := n, endpoint := node, asid := r.asid, va := r.va - r.va % 128, len := 128, write := true, num := node, tag := tag } = some a ∧ dirFind s (a / 128) = none ∧ freeWay s n (a / 128) = some i) ∧
    (∃ (s : State) (p : _) (node : _) (tag : _) (n : _) (a : _) (r : CohReq), r.who = .port p node tag ∧ r.far = none ∧ AtLine s p node n (a / 128) ∧ cohByte s { part := n, endpoint := node, asid := r.asid, va := r.va - r.va % 128, len := 128, num := node, tag := tag } = some a ∧ dirFind s (a / 128) = none) ∧
    (∃ (s : State) (p : _) (node : _) (tag : _) (n : _) (a : _) (r : CohReq) (data : List Byte), r.who = .port p node tag ∧ r.far = none ∧ data.length = 128 ∧ AtLine s p node n (a / 128) ∧ cohByte s { part := n, endpoint := node, asid := r.asid, va := r.va - r.va % 128, len := 128, write := true, num := node, tag := tag } = some a ∧ dirFind s (a / 128) = none) ∧
    (∃ (s : State) (p : _) (node : _) (tag : _) (n : _) (a : _) (r : CohReq) (data : List Byte), r.who = .port p node tag ∧ r.far = none ∧ data.length = 128 ∧ AtLine s p node n (a / 128) ∧ cohByte s { part := n, endpoint := node, asid := r.asid, va := r.va - r.va % 128, len := 128, write := true, num := node, tag := tag } = some a ∧ dirFind s (a / 128) = none) ∧
    (∃ (s : State) (p : _) (node : _) (tag : _) (n : _) (a : _) (r : CohReq) (op : Nat) (ty : Nat) (o : AtomOp), r.who = .port p node tag ∧ r.far = none ∧ atomOpOf op = some o ∧ ty < 4 ∧ (o ≠ .compareSwap ∨ ty < 2) ∧ r.va % typeSize ty = 0 ∧ AtLine s p node n (a / 128) ∧ cohByte s { part := n, endpoint := node, asid := r.asid, va := r.va, len := typeSize ty, atomic := true, num := node, tag := tag } = some a ∧ dirFind s (a / 128) = none) ∧
    (∃ (s : State) (p : _) (node : _) (tag : _) (r : CohReq), r.who = .port p node tag ∧ r.far = none ∧ (port s p).coherent = false) ∧
    (∃ (s : State) (p : _) (node : _) (tag : _) (n : _) (a : _) (r : CohReq) (i : _) (e : DirEnt) (b : _), r.who = .port p node tag ∧ r.far = none ∧ (port s p).coherent = true ∧ AtLine s p node n (a / 128) ∧ cohByte s { part := n, endpoint := node, asid := r.asid, va := r.va - r.va % 128, len := 128, num := node, tag := tag } = some a ∧ dirFind s (a / 128) = some (i, e) ∧ e.own = true ∧ e.coarse = false ∧ e.ptrs = [b] ∧ b ≠ portAgent s p ∧ agentPriv s b = true ∧ s.vtx.granted = []) ∧
    (∃ (s : State) (p : _) (node : _) (tag : _) (n : _) (a : _) (r : CohReq) (i : _) (e : DirEnt) (b : _), r.who = .port p node tag ∧ r.far = none ∧ (port s p).coherent = true ∧ AtLine s p node n (a / 128) ∧ cohByte s { part := n, endpoint := node, asid := r.asid, va := r.va - r.va % 128, len := 128, write := true, num := node, tag := tag } = some a ∧ dirFind s (a / 128) = some (i, e) ∧ e.own = false ∧ e.coarse = false ∧ e.ptrs = [portAgent s p, b] ∧ b ≠ portAgent s p ∧ s.vtx.granted = []) :=
  ⟨⟨cohState {}, 3, 7, 1, 1, 256, { who := .port 3 7 1, va := 300 }, 32, by decide +kernel⟩,
    ⟨cohState {}, 3, 7, 1, 1, 256, { who := .port 3 7 1, va := 300 }, 32, by decide +kernel⟩,
    ⟨cohState {}, 3, 7, 1, 1, 256, { who := .port 3 7 1, va := 300 }, 32, by decide +kernel⟩,
    ⟨cohState {}, 3, 7, 1, 1, 256, { who := .port 3 7 1, va := 300 }, by decide +kernel⟩,
    ⟨cohState {}, 3, 7, 1, 1, 256, { who := .port 3 7 1, va := 300 }, List.replicate 128 5, by decide +kernel⟩,
    ⟨cohState {}, 3, 7, 1, 1, 256, { who := .port 3 7 1, va := 300 }, List.replicate 128 5, by decide +kernel⟩,
    ⟨cohState {}, 3, 7, 1, 1, 304, { who := .port 3 7 1, va := 304 }, 0, 1, .fetchAdd, by decide +kernel⟩,
    ⟨base, 3, 7, 1, { who := .port 3 7 1, va := 304 }, by decide +kernel⟩,
    ⟨cohState { dir := [(32, { line := 2, used := true, own := true, ptrs := [4] })] }, 3, 7, 1, 1, 256, { who := .port 3 7 1, va := 300 }, 32, { line := 2, used := true, own := true, ptrs := [4] }, 4, by decide +kernel⟩,
    ⟨cohState { dir := [(32, { line := 2, used := true, ptrs := [3, 4] })] }, 3, 7, 1, 1, 256, { who := .port 3 7 1, va := 300 }, 32, { line := 2, used := true, ptrs := [3, 4] }, 4, by decide +kernel⟩⟩

theorem test_snoopResponses_premises :
    (∃ (s : State) (a : Nat) (b : _) (line : Nat) (gen : Nat) (q : VTxn) (i : _) (e : DirEnt), gen = s.vtx.gen ∧ s.vtx.st = .up ∧ (localPort s a).any (fun p => s.vtx.excluded.contains p) = false ∧ lineMine s a line = true ∧ txnOf s line = some q ∧ q.snoops = [(a, .inv), (b, .inv)] ∧ a ≠ b ∧ dirFind s line = some (i, e) ∧ e.own = false) ∧
    (∃ (s : State) (a : Nat) (b : _) (line : Nat) (gen : Nat) (q : VTxn) (i : _) (e : DirEnt), gen = s.vtx.gen ∧ s.vtx.st = .up ∧ (localPort s a).any (fun p => s.vtx.excluded.contains p) = false ∧ lineMine s a line = true ∧ txnOf s line = some q ∧ q.snoops = [(a, .data), (b, .inv)] ∧ a ≠ b ∧ dirFind s line = some (i, e) ∧ e.own = true) ∧
    (∃ (s : State) (a : Nat) (b : _) (line : Nat) (gen : Nat) (q : VTxn) (i : _) (e : DirEnt), gen = s.vtx.gen ∧ s.vtx.st = .up ∧ (localPort s a).any (fun p => s.vtx.excluded.contains p) = false ∧ lineMine s a line = true ∧ txnOf s line = some q ∧ q.snoops = [(a, .cur), (b, .inv)] ∧ a ≠ b ∧ dirFind s line = some (i, e) ∧ e.own = true) ∧
    (∃ (s : State) (a : Nat) (b : _) (line : Nat) (gen : Nat) (data : List Byte) (q : VTxn) (i : _) (e : DirEnt), gen = s.vtx.gen ∧ s.vtx.st = .up ∧ (localPort s a).any (fun p => s.vtx.excluded.contains p) = false ∧ lineMine s a line = true ∧ txnOf s line = some q ∧ q.snoops = [(a, .inv), (b, .inv)] ∧ a ≠ b ∧ dirFind s line = some (i, e) ∧ e.own = true ∧ data.length = 128 ∧ q.req.op ≠ .coh .wrLine) ∧
    (∃ (s : State) (a : Nat) (b : _) (line : Nat) (gen : Nat) (data : List Byte) (q : VTxn) (i : _) (e : DirEnt), gen = s.vtx.gen ∧ s.vtx.st = .up ∧ (localPort s a).any (fun p => s.vtx.excluded.contains p) = false ∧ lineMine s a line = true ∧ txnOf s line = some q ∧ q.snoops = [(a, .data), (b, .inv)] ∧ a ≠ b ∧ dirFind s line = some (i, e) ∧ e.own = true ∧ data.length = 128 ∧ q.req.op ≠ .coh .wrLine) ∧
    (∃ (s : State) (a : Nat) (b : _) (line : Nat) (gen : Nat) (data : List Byte) (q : VTxn) (i : _) (e : DirEnt), gen = s.vtx.gen ∧ s.vtx.st = .up ∧ (localPort s a).any (fun p => s.vtx.excluded.contains p) = false ∧ lineMine s a line = true ∧ txnOf s line = some q ∧ q.snoops = [(a, .cur), (b, .inv)] ∧ a ≠ b ∧ dirFind s line = some (i, e) ∧ e.own = true ∧ data.length = 128 ∧ q.req.op ≠ .coh .wrLine) ∧
    (∃ (s : State) (a : Nat) (b : _) (line : Nat) (gen : Nat) (q : VTxn) (i : _) (e : DirEnt), gen = s.vtx.gen ∧ s.vtx.st = .up ∧ (localPort s a).any (fun p => s.vtx.excluded.contains p) = false ∧ lineMine s a line = true ∧ txnOf s line = some q ∧ q.snoops = [(a, .fwdOwn), (b, .inv)] ∧ a ≠ b ∧ dirFind s line = some (i, e) ∧ e.own = true) ∧
    (∃ (s : State) (a : Nat) (b : _) (line : Nat) (gen : Nat) (q : VTxn) (i : _) (e : DirEnt), gen = s.vtx.gen ∧ s.vtx.st = .up ∧ (localPort s a).any (fun p => s.vtx.excluded.contains p) = false ∧ lineMine s a line = true ∧ txnOf s line = some q ∧ q.snoops = [(a, .fwdSh), (b, .inv)] ∧ a ≠ b ∧ dirFind s line = some (i, e) ∧ e.own = true) ∧
    (∃ (s : State) (a : Nat) (b : _) (line : Nat) (gen : Nat) (data : List Byte) (q : VTxn) (i : _) (e : DirEnt), gen = s.vtx.gen ∧ s.vtx.st = .up ∧ (localPort s a).any (fun p => s.vtx.excluded.contains p) = false ∧ lineMine s a line = true ∧ txnOf s line = some q ∧ q.snoops = [(a, .fwdSh), (b, .inv)] ∧ a ≠ b ∧ dirFind s line = some (i, e) ∧ e.own = true ∧ data.length = 128 ∧ q.req.op ≠ .coh .wrLine) ∧
    (∃ (s : State) (a : Nat) (b : _) (line : Nat) (gen : Nat) (q : VTxn) (i : _) (e : DirEnt), gen = s.vtx.gen ∧ s.vtx.st = .up ∧ (localPort s a).any (fun p => s.vtx.excluded.contains p) = false ∧ lineMine s a line = true ∧ txnOf s line = some q ∧ q.snoops = [(a, .inv), (b, .inv)] ∧ a ≠ b ∧ dirFind s line = some (i, e) ∧ e.own = true ∧ a ∉ q.gone) ∧
    (∃ (s : State) (a : Nat) (line : Nat) (gen : Nat) (q : VTxn), gen = s.vtx.gen ∧ s.vtx.st = .up ∧ (localPort s a).any (fun p => s.vtx.excluded.contains p) = false ∧ lineMine s a line = true ∧ txnOf s line = some q ∧ q.snoops = [(a, .inv)] ∧ q.wbs = [] ∧ q.mem = false ∧ q.req.op = .coh .wrPart ∧ (∃ x ∈ s.vtx.dir, dirFind s line = some x ∧ x.2.own = false)) ∧
    (∃ (s : State) (a : Nat) (line : Nat) (gen : Nat) (q : VTxn) (p : _) (node : _) (tag : _) (i : _) (e : DirEnt), gen = s.vtx.gen ∧ s.vtx.st = .up ∧ (localPort s a).any (fun p => s.vtx.excluded.contains p) = false ∧ lineMine s a line = true ∧ s.vtx.txns = [q] ∧ q.line = line ∧ q.snoops = [(a, .fwdOwn)] ∧ q.wbs = [] ∧ q.mem = false ∧ q.data = none ∧ q.dirty = false ∧ q.grant = false ∧ q.retryAt = none ∧ q.after = none ∧ q.req.op = .coh .rdOwn ∧ q.req.who = .port p node tag ∧ s.vtx.held = [] ∧ s.vtx.wins = [] ∧ dirFind s line = some (i, e) ∧ e.own = true) ∧
    (∃ (s : State) (a : Nat) (line : Nat) (gen : Nat), gen = s.vtx.gen ∧ s.vtx.st = .up ∧ (localPort s a).any (fun p => s.vtx.excluded.contains p) = false ∧ lineMine s a line = true ∧ txnOf s line = none ∧ s.vtx.txns = [] ∧ s.vtx.queue = [] ∧ s.vtx.held = [] ∧ s.vtx.wins = [] ∧ s.vtx.jobs = [] ∧ hasPartner s = false ∧ cohPorts s = []) ∧
    (∃ (s : State) (a : Nat) (line : Nat) (gen : Nat) (data : List Byte) (i : _) (e : DirEnt) (p : _), gen = s.vtx.gen ∧ s.vtx.st = .up ∧ (localPort s a).any (fun p => s.vtx.excluded.contains p) = false ∧ (localPort s a).any (fun p => !(port s p).coherent) = false ∧ lineMine s a line = true ∧ txnOf s line = none ∧ dirFind s line = some (i, e) ∧ e.own = true ∧ e.ptrs = [a] ∧ p = line * 128 / pageBytes ∧ (page s p).st = .resident ∧ Clean s (line * 128) 128 ∧ Memory.wf s.mem = true ∧ data.length = 128) ∧
    (∃ (s : State) (a : Nat) (line : Nat) (gen : Nat) (i : _) (e : DirEnt), gen = s.vtx.gen ∧ s.vtx.st = .up ∧ (localPort s a).any (fun p => s.vtx.excluded.contains p) = false ∧ (localPort s a).any (fun p => !(port s p).coherent) = false ∧ lineMine s a line = true ∧ txnOf s line = none ∧ dirFind s line = some (i, e) ∧ e.own = true ∧ e.ptrs = [a]) ∧
    (∃ (s : State) (gen : Nat), gen ≠ s.vtx.gen) :=
  ⟨⟨cohState { txns := [{ line := 2, req := { agent := 3, part := 1, op := .coh .rdOwn, line := 2, who := .port 3 7 1 }, snoops := [(4, .inv), (5, .inv)] }], dir := [(32, { line := 2, used := true, own := false, ptrs := [4] })] }, 4, 5, 2, 0, { line := 2, req := { agent := 3, part := 1, op := .coh .rdOwn, line := 2, who := .port 3 7 1 }, snoops := [(4, .inv), (5, .inv)] }, 32, { line := 2, used := true, own := false, ptrs := [4] }, by decide +kernel⟩,
    ⟨cohState { txns := [{ line := 2, req := { agent := 3, part := 1, op := .coh .rdShared, line := 2, who := .port 3 7 1 }, snoops := [(4, .data), (5, .inv)] }], dir := [(32, { line := 2, used := true, own := true, ptrs := [4] })] }, 4, 5, 2, 0, { line := 2, req := { agent := 3, part := 1, op := .coh .rdShared, line := 2, who := .port 3 7 1 }, snoops := [(4, .data), (5, .inv)] }, 32, { line := 2, used := true, own := true, ptrs := [4] }, by decide +kernel⟩,
    ⟨cohState { txns := [{ line := 2, req := { agent := 3, part := 1, op := .coh .rdCur, line := 2, who := .port 3 7 1 }, snoops := [(4, .cur), (5, .inv)] }], dir := [(32, { line := 2, used := true, own := true, ptrs := [4] })] }, 4, 5, 2, 0, { line := 2, req := { agent := 3, part := 1, op := .coh .rdCur, line := 2, who := .port 3 7 1 }, snoops := [(4, .cur), (5, .inv)] }, 32, { line := 2, used := true, own := true, ptrs := [4] }, by decide +kernel⟩,
    ⟨cohState { txns := [{ line := 2, req := { agent := 3, part := 1, op := .coh .rdOwn, line := 2, who := .port 3 7 1 }, snoops := [(4, .inv), (5, .inv)] }], dir := [(32, { line := 2, used := true, own := true, ptrs := [4] })] }, 4, 5, 2, 0, List.replicate 128 5, { line := 2, req := { agent := 3, part := 1, op := .coh .rdOwn, line := 2, who := .port 3 7 1 }, snoops := [(4, .inv), (5, .inv)] }, 32, { line := 2, used := true, own := true, ptrs := [4] }, by decide +kernel⟩,
    ⟨cohState { txns := [{ line := 2, req := { agent := 3, part := 1, op := .coh .rdShared, line := 2, who := .port 3 7 1 }, snoops := [(4, .data), (5, .inv)] }], dir := [(32, { line := 2, used := true, own := true, ptrs := [4] })] }, 4, 5, 2, 0, List.replicate 128 5, { line := 2, req := { agent := 3, part := 1, op := .coh .rdShared, line := 2, who := .port 3 7 1 }, snoops := [(4, .data), (5, .inv)] }, 32, { line := 2, used := true, own := true, ptrs := [4] }, by decide +kernel⟩,
    ⟨cohState { txns := [{ line := 2, req := { agent := 3, part := 1, op := .coh .rdCur, line := 2, who := .port 3 7 1 }, snoops := [(4, .cur), (5, .inv)] }], dir := [(32, { line := 2, used := true, own := true, ptrs := [4] })] }, 4, 5, 2, 0, List.replicate 128 5, { line := 2, req := { agent := 3, part := 1, op := .coh .rdCur, line := 2, who := .port 3 7 1 }, snoops := [(4, .cur), (5, .inv)] }, 32, { line := 2, used := true, own := true, ptrs := [4] }, by decide +kernel⟩,
    ⟨cohState { txns := [{ line := 2, req := { agent := 3, part := 1, op := .coh .rdOwn, line := 2, who := .port 3 7 1 }, snoops := [(4, .fwdOwn), (5, .inv)] }], dir := [(32, { line := 2, used := true, own := true, ptrs := [4] })] }, 4, 5, 2, 0, { line := 2, req := { agent := 3, part := 1, op := .coh .rdOwn, line := 2, who := .port 3 7 1 }, snoops := [(4, .fwdOwn), (5, .inv)] }, 32, { line := 2, used := true, own := true, ptrs := [4] }, by decide +kernel⟩,
    ⟨cohState { txns := [{ line := 2, req := { agent := 3, part := 1, op := .coh .rdShared, line := 2, who := .port 3 7 1 }, snoops := [(4, .fwdSh), (5, .inv)] }], dir := [(32, { line := 2, used := true, own := true, ptrs := [4] })] }, 4, 5, 2, 0, { line := 2, req := { agent := 3, part := 1, op := .coh .rdShared, line := 2, who := .port 3 7 1 }, snoops := [(4, .fwdSh), (5, .inv)] }, 32, { line := 2, used := true, own := true, ptrs := [4] }, by decide +kernel⟩,
    ⟨cohState { txns := [{ line := 2, req := { agent := 3, part := 1, op := .coh .rdShared, line := 2, who := .port 3 7 1 }, snoops := [(4, .fwdSh), (5, .inv)] }], dir := [(32, { line := 2, used := true, own := true, ptrs := [4] })] }, 4, 5, 2, 0, List.replicate 128 5, { line := 2, req := { agent := 3, part := 1, op := .coh .rdShared, line := 2, who := .port 3 7 1 }, snoops := [(4, .fwdSh), (5, .inv)] }, 32, { line := 2, used := true, own := true, ptrs := [4] }, by decide +kernel⟩,
    ⟨cohState { txns := [{ line := 2, req := { agent := 3, part := 1, op := .coh .rdOwn, line := 2, who := .port 3 7 1 }, snoops := [(4, .inv), (5, .inv)] }], dir := [(32, { line := 2, used := true, own := true, ptrs := [4] })] }, 4, 5, 2, 0, { line := 2, req := { agent := 3, part := 1, op := .coh .rdOwn, line := 2, who := .port 3 7 1 }, snoops := [(4, .inv), (5, .inv)] }, 32, { line := 2, used := true, own := true, ptrs := [4] }, by decide +kernel⟩,
    ⟨cohState { txns := [{ line := 2, req := { agent := 3, part := 1, op := .coh .wrPart, line := 2, who := .port 3 7 1 }, snoops := [(4, .inv)] }], dir := [(32, { line := 2, used := true, own := false, ptrs := [4] })] }, 4, 2, 0, { line := 2, req := { agent := 3, part := 1, op := .coh .wrPart, line := 2, who := .port 3 7 1 }, snoops := [(4, .inv)] }, by decide +kernel⟩,
    ⟨cohState { txns := [{ line := 2, req := { agent := 3, part := 1, op := .coh .rdOwn, line := 2, who := .port 3 7 1 }, snoops := [(4, .fwdOwn)] }], dir := [(32, { line := 2, used := true, own := true, ptrs := [4] })] }, 4, 2, 0, { line := 2, req := { agent := 3, part := 1, op := .coh .rdOwn, line := 2, who := .port 3 7 1 }, snoops := [(4, .fwdOwn)] }, 3, 7, 1, 32, { line := 2, used := true, own := true, ptrs := [4] }, by decide +kernel⟩,
    ⟨{ cohState {} with edg := { ports := [(4, { part := some 1 })] } }, 4, 2, 0, by decide +kernel⟩,
    ⟨cohState { dir := [(32, { line := 2, used := true, own := true, ptrs := [4] })] }, 4, 2, 0, List.replicate 128 5, 32, { line := 2, used := true, own := true, ptrs := [4] }, 0, by decide +kernel⟩,
    ⟨cohState { dir := [(32, { line := 2, used := true, own := true, ptrs := [4] })] }, 4, 2, 0, 32, { line := 2, used := true, own := true, ptrs := [4] }, by decide +kernel⟩,
    ⟨base, 1, by decide +kernel⟩⟩

theorem test_transactions_premises :
    (∃ (s : State) (l : _) (q : VTxn) (p : _) (node : _) (tag : _) (i : _) (e : DirEnt), s.vtx.txns = [q] ∧ q.line = l ∧ q.mem = true ∧ q.retryAt = none ∧ q.data = none ∧ q.dirty = false ∧ q.fwd = false ∧ q.grant = false ∧ q.after = none ∧ q.req.op = .coh .rdShared ∧ q.req.priv = true ∧ q.req.comb = false ∧ q.req.line = l ∧ q.req.who = .port p node tag ∧ winOf s l = none ∧ s.vtx.held = [] ∧ dirFind s l = some (i, e) ∧ e.coarse = false ∧ e.ptrs = [] ∧ e.own = false ∧ serveCpl s (l * 128 / pageBytes) false = none ∧ readPoisoned s (l * 128) 128 = false) ∧
    (∃ (s : State) (l : _) (q : VTxn) (p : _) (node : _) (tag : _), s.vtx.txns = [q] ∧ q.line = l ∧ q.mem = true ∧ q.retryAt = none ∧ q.data = none ∧ q.dirty = false ∧ q.after = none ∧ q.req.op = .coh .wrLine ∧ q.req.mark = false ∧ q.req.data.length = 128 ∧ q.req.who = .port p node tag ∧ s.vtx.held = [] ∧ dirFind s l = none ∧ serveCpl s (l * 128 / pageBytes) true = none ∧ (page s (l * 128 / pageBytes)).st = .resident ∧ Clean s (l * 128) 128 ∧ Memory.wf s.mem = true) ∧
    (∃ (s : State) (l : _) (q : VTxn) (p : _) (node : _) (tag : _) (v : _) (old : _), s.vtx.txns = [q] ∧ q.line = l ∧ q.mem = true ∧ q.retryAt = none ∧ q.data = none ∧ q.dirty = false ∧ q.after = none ∧ q.req.op = .coh .atomic ∧ q.req.mark = false ∧ q.req.atom = some (.fetchAdd, 1, v, 0) ∧ q.req.who = .port p node tag ∧ winOf s l = none ∧ s.vtx.held = [] ∧ dirFind s l = none ∧ serveCpl s (l * 128 / pageBytes) true = none ∧ (page s (l * 128 / pageBytes)).st = .resident ∧ Clean s (l * 128 + q.req.off) 8 ∧ Memory.wf s.mem = true ∧ old = memWord s.mem (l * 128 + q.req.off)) ∧
    (∃ (s : State) (l : Nat) (r : VReq), s.vtx.queue = [r] ∧ r.line = l ∧ busyLine s l = false ∧ r.op = .coh .rdCur ∧ r.comb = false ∧ dirFind s l = none) ∧
    (∃ (s : State) (l : Nat) (r : VReq), s.vtx.queue = [r] ∧ r.line = l ∧ busyLine s l = true) ∧
    (∃ (s : State) (l : Nat) (w : VWin) (d : _), s.vtx.wins = [w] ∧ w.line = l ∧ w.atomic = false ∧ w.data = some d ∧ w.opened + 64 ≤ s.ft) ∧
    (∃ (s : State) (l : Nat) (w : VWin) (q : VTxn) (p : _) (node : _) (tag : _) (v : _) (old : _), s.vtx.wins = [w] ∧ w.line = l ∧ w.atomic = true ∧ w.members = [] ∧ w.opened + 64 ≤ s.ft ∧ s.vtx.txns = [q] ∧ q.line = l ∧ q.atHome = true ∧ q.data = none ∧ q.after = none ∧ q.req.op = .coh .atomic ∧ q.req.mark = false ∧ q.req.atom = some (.fetchAdd, 1, v, 0) ∧ q.req.who = .port p node tag ∧ s.vtx.held = [] ∧ dirFind s l = none ∧ Clean s (l * 128 + q.req.off) 8 ∧ Memory.wf s.mem = true ∧ old = memWord s.mem (l * 128 + q.req.off)) ∧
    (∃ (s : State) (l : Nat) (w : VWin), s.vtx.wins = [w] ∧ w.line = l ∧ s.ft < w.opened + 64) ∧
    (∃ (s : State) (u : State) (q : Nat) (c : QCmd) (pa : _) (w : List Nat) (x : _) (l : _) (k : _) (node : _) (tag : _), takeCmd .vertex q (124 + q) (fun c => bits (c.w 0) 3 0 == 1) s = some (c, u) ∧ u.vtx.st = .up ∧ u.vtx.jobs = [] ∧ vjCount c = 1 ∧ bits (c.w 0) 3 0 = 1 ∧ translate { part := c.part, asid := bits (c.w 0) 16 5, va := c.w 1, len := 128, engine := true, num := 124 + c.id } u = (u, .addr pa w x) ∧ bits pa 63 52 = 0 ∧ l = bits pa 51 0 / 128 ∧ homeLocal u (bits pa 51 0 / pageBytes) = true ∧ busyLine u l = false ∧ winOf u l = none ∧ dirFind u l = none ∧ c.req = .port k node tag ∧ c.issuer = none ∧ bitOf (c.w 0) 4 = false) ∧
    (∃ (s : State) (u : State) (q : Nat) (c : QCmd) (pa : _) (w : List Nat) (x : _) (l : _) (k : _) (node : _) (tag : _), takeCmd .vertex q (124 + q) (fun c => bits (c.w 0) 3 0 == 2) s = some (c, u) ∧ u.vtx.st = .up ∧ u.vtx.jobs = [] ∧ vjCount c = 1 ∧ bits (c.w 0) 3 0 = 2 ∧ translate { part := c.part, asid := bits (c.w 0) 16 5, va := c.w 1, len := 128, engine := true, num := 124 + c.id } u = (u, .addr pa w x) ∧ bits pa 63 52 = 0 ∧ l = bits pa 51 0 / 128 ∧ homeLocal u (bits pa 51 0 / pageBytes) = true ∧ busyLine u l = false ∧ winOf u l = none ∧ dirFind u l = none ∧ c.req = .port k node tag ∧ c.issuer = none ∧ bitOf (c.w 0) 4 = false) ∧
    (∃ (s : State) (u : State) (q : Nat) (c : QCmd) (pa : _) (w : List Nat) (x : _) (l : _) (i : _) (e : DirEnt) (b : _), takeCmd .vertex q (124 + q) (fun c => bits (c.w 0) 3 0 == 1) s = some (c, u) ∧ u.vtx.st = .up ∧ u.vtx.jobs = [] ∧ vjCount c = 1 ∧ bits (c.w 0) 3 0 = 1 ∧ translate { part := c.part, asid := bits (c.w 0) 16 5, va := c.w 1, len := 128, engine := true, num := 124 + c.id } u = (u, .addr pa w x) ∧ bits pa 63 52 = 0 ∧ l = bits pa 51 0 / 128 ∧ homeLocal u (bits pa 51 0 / pageBytes) = true ∧ busyLine u l = false ∧ dirFind u l = some (i, e) ∧ e.own = true ∧ e.coarse = false ∧ e.ptrs = [b] ∧ u.vtx.granted = []) ∧
    (∃ (s : State) (u : State) (q : Nat) (c : QCmd) (k : _) (node : _) (tag : _), takeCmd .vertex q (124 + q) (fun c => bits (c.w 0) 3 0 == 1) s = some (c, u) ∧ u.vtx.st ≠ .up ∧ c.req = .port k node tag ∧ c.issuer = none ∧ bitOf (c.w 0) 4 = false) :=
  ⟨⟨cohState { txns := [vq .rdShared], dir := [(32, { line := 2, used := true })] }, 2, vq .rdShared, 3, 7, 1, 32, { line := 2, used := true }, by decide +kernel⟩,
    ⟨cohState { txns := [vq .wrLine] }, 2, vq .wrLine, 3, 7, 1, by decide +kernel⟩,
    ⟨{ cohState { txns := [vq .atomic] } with mem := [(264, 255)] }, 2, vq .atomic, 3, 7, 1, 5, 255, by decide +kernel⟩,
    ⟨cohState { queue := [(vq .rdCur).req] }, 2, (vq .rdCur).req, by decide +kernel⟩,
    ⟨cohState { queue := [(vq .rdCur).req], txns := [vq .rdShared] }, 2, (vq .rdCur).req, by decide +kernel⟩,
    ⟨{ cohState { wins := [{ line := 2, data := some [] }] } with ft := 64 }, 2, { line := 2, data := some [] }, ([] : List Byte), by decide +kernel⟩,
    ⟨{ cohState { wins := [{ line := 2, atomic := true }], txns := [{ vq .atomic with atHome := true }] } with ft := 64, mem := [(264, 255)] }, 2, { line := 2, atomic := true }, { vq .atomic with atHome := true }, 3, 7, 1, 5, 255, by decide +kernel⟩,
    ⟨cohState { wins := [{ line := 2, atomic := true }] }, 2, { line := 2, atomic := true }, by decide +kernel⟩,
    ⟨{ cohState {} with eng := { issued := [(qKey .vertex 0, [vcmd 1])] } }, cohState {}, 0, vcmd 1, 256, [242, 64 * pageBytes - 1, 0, 0], 0, 2, 3, 7, 1, by decide +kernel⟩,
    ⟨{ cohState {} with eng := { issued := [(qKey .vertex 0, [vcmd 2])] } }, cohState {}, 0, vcmd 2, 256, [242, 64 * pageBytes - 1, 0, 0], 0, 2, 3, 7, 1, by decide +kernel⟩,
    ⟨{ cohState { dir := [(32, { line := 2, used := true, own := true, ptrs := [4] })] } with eng := { issued := [(qKey .vertex 0, [vcmd 1])] } }, cohState { dir := [(32, { line := 2, used := true, own := true, ptrs := [4] })] }, 0, vcmd 1, 256, [242, 64 * pageBytes - 1, 0, 0], 0, 2, 32, { line := 2, used := true, own := true, ptrs := [4] }, 4, by decide +kernel⟩,
    ⟨{ cohState { st := .down } with eng := { issued := [(qKey .vertex 0, [vcmd 1])] } }, cohState { st := .down }, 0, vcmd 1, 3, 7, 1, by decide +kernel⟩⟩

theorem test_domainFall_premises :
    (∃ (s : State) (l : Nat) (q : VTxn) (p : _) (node : _) (tag : _), s.vtx.st = .up ∧ s.vtx.txns = [q] ∧ q.line = l ∧ q.snoops ≠ [] ∧ q.since + max 1 s.vtx.snoopTmo * 1000 ≤ s.ft ∧ q.after = none ∧ q.req.who = .port p node tag ∧ q.req.op ≠ .backInv ∧ s.vtx.queue = [] ∧ s.vtx.held = [] ∧ s.vtx.wins = [] ∧ s.vtx.jobs = [] ∧ hasPartner s = false) ∧
    (∃ (s : State) (l : Nat) (q : VTxn) (p : _) (node : _) (tag : _) (d : _), s.vtx.st = .up ∧ s.vtx.txns = [q] ∧ q.line = l ∧ q.retryAt = some d ∧ q.memSince + 20000 < s.ft ∧ q.after = none ∧ q.req.who = .port p node tag ∧ q.req.op ≠ .backInv ∧ s.vtx.queue = [] ∧ s.vtx.held = [] ∧ s.vtx.wins = [] ∧ s.vtx.jobs = [] ∧ hasPartner s = false) ∧
    (∃ (s : State), s.vtx.st = .up ∧ s.vtx.txns = [] ∧ s.vtx.queue = [] ∧ s.vtx.held = [] ∧ s.vtx.wins = [] ∧ s.vtx.jobs = []) ∧
    (∃ (s : State) (k : Nat) (roles : Nat), Admits s k roles .admin ∧ s.vtx.st = .up ∧ s.vtx.txns = [] ∧ s.vtx.queue = [] ∧ s.vtx.held = [] ∧ s.vtx.wins = [] ∧ s.vtx.jobs = []) ∧
    (∃ (s : State) (p : Nat), p ∈ s.vtx.ackWait ∧ s.vtx.ackSince + max 1 s.vtx.ackTmo * 1000 ≤ s.ft) ∧
    (∃ (s : State) (k : Nat) (roles : Nat), Admits s k roles .admin) ∧
    (∃ (s : State), s.vtx.st = .down ∧ s.vtx.walked = false ∧ ((∀ e ∈ s.vtx.dir, e.2.own = false)) ∧ s.vtx.recalled = [] ∧ s.vtx.restart = []) ∧
    (∃ (s : State) (i : _) (e : DirEnt), s.vtx.st = .down ∧ s.vtx.walked = false ∧ s.vtx.dir = [(i, e)] ∧ e.used = true ∧ e.own = true ∧ s.vtx.recalled = [] ∧ s.vtx.restart = [] ∧ Clean s (e.line * 128) 128 ∧ Memory.wf s.mem = true) ∧
    (∃ (s : State) (done : Bool), s.vtx.st = .restarting ∧ s.vtx.ackWait = [] ∧ s.vtx.recalled = [] ∧ s.vtx.restart = [] ∧ (done = true ∨ hasPartner s = false)) ∧
    (∃ (s : State) (p : _) (rest : _), s.vtx.st = .restarting ∧ s.vtx.ackWait = p :: rest ∧ s.vtx.recalled = []) :=
  ⟨⟨{ cohState { txns := [{ vq .rdShared with snoops := [(4, .fwdSh)] }] } with ft := 20000 }, 2, { vq .rdShared with snoops := [(4, .fwdSh)] }, 3, 7, 1, by decide +kernel⟩,
    ⟨{ cohState { txns := [{ vq .rdShared with retryAt := some 0 }] } with ft := 20001 }, 2, { vq .rdShared with retryAt := some 0 }, 3, 7, 1, 0, by decide +kernel⟩,
    ⟨cohState {}, by decide +kernel⟩,
    ⟨cohState {}, 0, 4, by decide +kernel⟩,
    ⟨{ cohState { ackWait := [3, 4] } with ft := 100000 }, 4, by decide +kernel⟩,
    ⟨cohState { excluded := [3, 70] }, 0, 4, by decide +kernel⟩,
    ⟨cohState { st := .down, dir := [(32, { line := 2, used := true, ptrs := [4] })] }, by decide +kernel⟩,
    ⟨cohState { st := .down, dir := [(32, { line := 2, used := true, own := true, ptrs := [4] })] }, 32, { line := 2, used := true, own := true, ptrs := [4] }, by decide +kernel⟩,
    ⟨cohState { st := .restarting }, true, by decide +kernel⟩,
    ⟨cohState { st := .restarting, ackWait := [4] }, 4, ([] : List Nat), by decide +kernel⟩⟩

theorem test_collectives_premises :
    (∃ (s : State) (u : State) (v : State) (e : Nat) (c : QCmd) (k : Cpl), takeCmd .chord e e (fun c => cOp c == 1) s = some (c, u) ∧ cOp c = 1 ∧ (eng u e).waiting = [] ∧ chdRoom (eng u e) c = true ∧ (eng v e).early = [] ∧ cReadyEn c = false ∧ engineReadAs e c.part (cAsid c) (c.w 4) (32 * cMembers c) [] u = (v, k) ∧ k.status = .ok ∧ instOf v e (cTag c) = none ∧ (instRanges c (memberRows (cMembers c) k.data)).all (fun r => r.1 % 128 == 0 || r.1 == c.w 7) = true ∧ (instRanges c (memberRows (cMembers c) k.data)).all (fun r => (rangeCheck v c.part (cAsid c) r.1 r.2.1 r.2.2).isNone) = true) ∧
    (∃ (s : State) (u : State) (v : State) (e : Nat) (c : QCmd) (k : Cpl), takeCmd .chord e e (fun c => cOp c == 2) s = some (c, u) ∧ cOp c = 2 ∧ (eng u e).waiting = [] ∧ chdRoom (eng u e) c = true ∧ cReadyEn c = false ∧ engineReadAs e c.part (cAsid c) (c.w 4) (32 * cMembers c) [] u = (v, k) ∧ k.status = .ok ∧ instOf v e (cTag c) = none ∧ (instRanges c (memberRows (cMembers c) k.data)).all (fun r => r.1 % 128 == 0 || r.1 == c.w 7) = true ∧ (instRanges c (memberRows (cMembers c) k.data)).all (fun r => (rangeCheck v c.part (cAsid c) r.1 r.2.1 r.2.2).isNone) = true) ∧
    (∃ (s : State) (u : State) (v : State) (e : Nat) (c : QCmd) (k : Cpl), takeCmd .chord e e (fun c => cOp c == 3) s = some (c, u) ∧ cOp c = 3 ∧ (eng u e).waiting = [] ∧ chdRoom (eng u e) c = true ∧ cReadyEn c = false ∧ engineReadAs e c.part (cAsid c) (c.w 4) (32 * cMembers c) [] u = (v, k) ∧ k.status = .ok ∧ instOf v e (cTag c) = none ∧ (instRanges c (memberRows (cMembers c) k.data)).all (fun r => r.1 % 128 == 0 || r.1 == c.w 7) = true ∧ (instRanges c (memberRows (cMembers c) k.data)).all (fun r => (rangeCheck v c.part (cAsid c) r.1 r.2.1 r.2.2).isNone) = true) ∧
    (∃ (s : State) (u : State) (v : State) (e : Nat) (c : QCmd) (k : Cpl), takeCmd .chord e e (fun c => cOp c == 4) s = some (c, u) ∧ cOp c = 4 ∧ (eng u e).waiting = [] ∧ chdRoom (eng u e) c = true ∧ cReadyEn c = false ∧ engineReadAs e c.part (cAsid c) (c.w 4) (32 * cMembers c) [] u = (v, k) ∧ k.status = .ok ∧ instOf v e (cTag c) = none ∧ (instRanges c (memberRows (cMembers c) k.data)).all (fun r => r.1 % 128 == 0 || r.1 == c.w 7) = true ∧ (instRanges c (memberRows (cMembers c) k.data)).all (fun r => (rangeCheck v c.part (cAsid c) r.1 r.2.1 r.2.2).isNone) = true) ∧
    (∃ (s : State) (u : State) (e : Nat) (c : QCmd), takeCmd .chord e e (fun c => cOp c == 5) s = some (c, u) ∧ cOp c = 5 ∧ (eng u e).waiting = [] ∧ chdRoom (eng u e) c = true ∧ cReadyEn c = false ∧ instOf u e (cTag c) = none ∧ (instRanges c []).all (fun r => r.1 % 128 == 0 || r.1 == c.w 7) = true ∧ (instRanges c []).all (fun r => (rangeCheck u c.part (cAsid c) r.1 r.2.1 r.2.2).isNone) = true ∧ cMembers c = 0) ∧
    (∃ (s : State) (u : State) (e : Nat) (c : QCmd), takeCmd .chord e e (fun c => cOp c == 3) s = some (c, u) ∧ chdRoom (eng u e) c = false) ∧
    (∃ (s : State) (v : State) (e : Nat) (c : QCmd) (rest : _) (k : Cpl), (eng s e).waiting = c :: rest ∧ (eng s e).early = [] ∧ chdRoom (eng s e) c = true ∧ fenced s .chord = false ∧ cOp c ≠ 5 ∧ cReadyEn c = false ∧ engineReadAs e c.part (cAsid c) (c.w 4) (32 * cMembers c) [] (setEng e { eng s e with waiting := rest } s) = (v, k) ∧ k.status = .ok ∧ instOf v e (cTag c) = none ∧ (eng v e).early = [] ∧ (instRanges c (memberRows (cMembers c) k.data)).all (fun r => r.1 % 128 == 0 || r.1 == c.w 7) = true ∧ (instRanges c (memberRows (cMembers c) k.data)).all (fun r => (rangeCheck v c.part (cAsid c) r.1 r.2.1 r.2.2).isNone) = true) :=
  ⟨⟨{ chState {} with eng := { issued := [(qKey .chord 2, [chCmd 1])] } }, _, afterTake (takeCmd .chord 2 2 (fun c => cOp c == 1) { chState {} with eng := { issued := [(qKey .chord 2, [chCmd 1])] } }), 2, chCmd 1, cData (memBytes [(4097, 32)] 4096 32), taken (by decide +kernel), by decide +kernel⟩,
    ⟨{ chState {} with eng := { issued := [(qKey .chord 2, [chCmd 2])] } }, _, afterTake (takeCmd .chord 2 2 (fun c => cOp c == 2) { chState {} with eng := { issued := [(qKey .chord 2, [chCmd 2])] } }), 2, chCmd 2, cData (memBytes [(4097, 32)] 4096 32), taken (by decide +kernel), by decide +kernel⟩,
    ⟨{ chState {} with eng := { issued := [(qKey .chord 2, [chCmd 3])] } }, _, afterTake (takeCmd .chord 2 2 (fun c => cOp c == 3) { chState {} with eng := { issued := [(qKey .chord 2, [chCmd 3])] } }), 2, chCmd 3, cData (memBytes [(4097, 32)] 4096 32), taken (by decide +kernel), by decide +kernel⟩,
    ⟨{ chState {} with eng := { issued := [(qKey .chord 2, [chCmd 4])] } }, _, afterTake (takeCmd .chord 2 2 (fun c => cOp c == 4) { chState {} with eng := { issued := [(qKey .chord 2, [chCmd 4])] } }), 2, chCmd 4, cData (memBytes [(4097, 32)] 4096 32), taken (by decide +kernel), by decide +kernel⟩,
    ⟨{ chState {} with eng := { issued := [(qKey .chord 2, [chCmd 5])] } }, _, 2, chCmd 5, taken (by decide +kernel), by decide +kernel⟩,
    ⟨{ chState { insts := List.replicate 8 {} } with eng := { issued := [(qKey .chord 2, [chCmd 3])] } }, _, 2, chCmd 3, taken (by decide +kernel), by decide +kernel⟩,
    ⟨chState { waiting := [chCmd 1] }, setEng 2 {} (chState { waiting := [chCmd 1] }), 2, chCmd 1, ([] : List QCmd), cData (memBytes [(4097, 32)] 4096 32), by decide +kernel⟩⟩

theorem test_collectiveData_premises :
    (∃ (s : State) (v : State) (u : State) (e : Nat) (tag : Nat) (i : Inst) (c : QCmd) (ds : _), fenced s .chord = false ∧ instOf s e tag = some i ∧ i.cmd = c ∧ i.ready = true ∧ i.pendRes = [] ∧ cOp c = 1 ∧ cPush c = false ∧ cAll c = false ∧ cHier c = false ∧ cAccDst c = false ∧ i.next < cChunks c ∧ i.badCh = [] ∧ (readAll (some i.since) e c (chunkBytes (cIn c) (chunkLen c i.next)) ((i.table.zipIdx).map fun m => (m.1.1 + i.next * chunkBytes (cIn c) 256, [])) s = (v, cOk, ds)) ∧ (engineWriteAs e c.part (cAsid c) (c.w 5 + i.next * (256 * fmtBits (cOut c) / 8)) (resultBytes c (chunkResult c i.next ((ds.map fun d => chunkVals (cIn c) (chunkLen c i.next) d).foldl (fun as x => accChunk (cRed c) (cL c) x as) (List.replicate (chunkLen c i.next) {})) none)) false v = (u, cOk)) ∧ instOf u e tag = some i ∧ (eng u e).insts = [i]) ∧
    (∃ (s : State) (e : Nat) (tag : Nat) (i : Inst), fenced s .chord = false ∧ instOf s e tag = some i ∧ i.ready = false ∧ (obj s (cReadyObj i.cmd)).value < i.cmd.w 2) ∧
    (∃ (s : State) (e : Nat) (tag : Nat) (i : Inst) (k : _) (node : _) (x : _) (d : _), (eng s e).insts = [i] ∧ i.tag = tag ∧ i.ready = false ∧ i.readyBy = some d ∧ d ≤ s.ft ∧ (obj s (cReadyObj i.cmd)).value < i.cmd.w 2 ∧ cHier i.cmd = false ∧ i.out = cOk ∧ i.cmd.req = .port k node x ∧ i.cmd.issuer = none ∧ cObj i.cmd = none) ∧
    (∃ (s : State) (e : Nat) (tag : Nat) (i : Inst) (k : _) (node : _) (x : _) (d : _) (f : _), (eng s e).insts = [i] ∧ i.tag = tag ∧ i.retryAt = some d ∧ i.firstTry = some f ∧ f + 20000 ≤ s.ft ∧ cHier i.cmd = false ∧ i.out = cOk ∧ i.cmd.req = .port k node x ∧ i.cmd.issuer = none ∧ cObj i.cmd = none) ∧
    (∃ (s : State) (e : Nat) (tag : Nat) (i : Inst) (k : _) (node : _) (x : _), (eng s e).insts = [i] ∧ i.tag = tag ∧ cChunks i.cmd ≤ i.done.length ∧ i.pendRes = [] ∧ cHier i.cmd = false ∧ i.out = cOk ∧ i.badRows = 0 ∧ i.cmd.req = .port k node x ∧ i.cmd.issuer = none ∧ cObj i.cmd = none) ∧
    (∃ (s : State) (e : Nat) (tag : Nat) (i : Inst) (k : _) (node : _) (x : _), (eng s e).insts = [i] ∧ i.tag = tag ∧ cChunks i.cmd ≤ i.done.length ∧ i.pendRes = [] ∧ cHier i.cmd = false ∧ i.out = cOk ∧ 0 < i.badRows ∧ i.cmd.req = .port k node x ∧ i.cmd.issuer = none ∧ cObj i.cmd = none) ∧
    (∃ (s : State) (p : Nat) (e : _) (n : _) (m : _) (k : _) (i : Inst) (h0 : _) (h1 : _), (port s p).part = some n ∧ e = bits h0 4 0 ∧ m = bits h0 28 21 ∧ k = bits h0 63 32 ∧ (seqOf s e).owned = true ∧ (seqOf s e).part = n ∧ (eng s e).insts = [i] ∧ i.tag = bits h0 20 5 ∧ cPush i.cmd = true ∧ cIsRed i.cmd = false ∧ m < cMembers i.cmd ∧ k < cChunks i.cmd ∧ bits h1 10 0 = chunkLen i.cmd k ∧ bits h0 31 29 = 0 ∧ bits h1 63 12 = 0 ∧ bitOf h1 11 = false ∧ fenceCpl s .chord n = none ∧ (m, k) ∉ i.got) ∧
    (∃ (s : State) (p : Nat) (e : _) (n : _) (m : _) (k : _) (i : Inst) (h0 : _) (h1 : _), (port s p).part = some n ∧ e = bits h0 4 0 ∧ m = bits h0 28 21 ∧ k = bits h0 63 32 ∧ (seqOf s e).owned = true ∧ (seqOf s e).part = n ∧ (eng s e).insts = [i] ∧ i.tag = bits h0 20 5 ∧ cPush i.cmd = true ∧ m < cMembers i.cmd ∧ k < cChunks i.cmd ∧ bits h1 10 0 = (if cIsRed i.cmd then chunkBytes (cIn i.cmd) (chunkLen i.cmd k) else chunkLen i.cmd k) ∧ bits h0 31 29 = 0 ∧ bits h1 63 12 = 0 ∧ fenceCpl s .chord n = none ∧ (m, k) ∈ i.got) ∧
    (∃ (s : State) (p : Nat) (h0 : _), (seqOf s (bits h0 4 0)).owned = false ∨ (port s p).part ≠ some (seqOf s (bits h0 4 0)).part ∧ (seqOf s (bits h0 4 0)).part < 16) :=
  ⟨⟨chState { insts := [chInst 1] }, (readAll (some 0) 2 (chCmd 1) 4 [(8192, [])] (chState { insts := [chInst 1] })).1, (engineWriteAs 2 1 0 12288 [0, 0, 0, 0] false (chState { insts := [chInst 1] })).1, 2, 9, chInst 1, chCmd 1, [[0, 0, 0, 0]], by decide +kernel⟩,
    ⟨chState { insts := [{ chInst 1 with ready := false, cmd := { chCmd 1 with words := [65, 0, 4] } }] }, 2, 9, { chInst 1 with ready := false, cmd := { chCmd 1 with words := [65, 0, 4] } }, by decide +kernel⟩,
    ⟨chState { insts := [{ chInst 1 with ready := false, readyBy := some 0, cmd := { chCmd 1 with words := [65, 0, 4] } }] }, 2, 9, { chInst 1 with ready := false, readyBy := some 0, cmd := { chCmd 1 with words := [65, 0, 4] } }, 3, 7, 1, 0, by decide +kernel⟩,
    ⟨{ chState { insts := [{ chInst 1 with retryAt := some 0, firstTry := some 0 }] } with ft := 20000 }, 2, 9, { chInst 1 with retryAt := some 0, firstTry := some 0 }, 3, 7, 1, 0, 0, by decide +kernel⟩,
    ⟨chState { insts := [{ chInst 1 with done := [0] }] }, 2, 9, { chInst 1 with done := [0] }, 3, 7, 1, by decide +kernel⟩,
    ⟨chState { insts := [{ chInst 1 with done := [0], badRows := 2, valid := 5 }] }, 2, 9, { chInst 1 with done := [0], badRows := 2, valid := 5 }, 3, 7, 1, by decide +kernel⟩,
    ⟨chState { insts := [chInst 32771] }, 3, 2, 1, 0, 0, chInst 32771, 2 + 9 * 32, 16, by decide +kernel⟩,
    ⟨chState { insts := [{ chInst 32771 with got := [(0, 0)] }] }, 3, 2, 1, 0, 0, { chInst 32771 with got := [(0, 0)] }, 2 + 9 * 32, 16, by decide +kernel⟩,
    ⟨chState {}, 3, 3, by decide +kernel⟩⟩

theorem test_hierarchicalReduce_premises :
    (∃ (s : State) (e : Nat) (hdr : List Nat) (data : List Byte), instOf s e (bits (hdr.getD 0 0) 17 2) = none ∧ bits (hdr.getD 0 0) 1 0 ≠ 3 ∧ earlyBytes (eng s e) + 32 + data.length ≤ 1048576) ∧
    (∃ (s : State) (e : Nat) (hdr : List Nat) (data : List Byte) (i : Inst) (h : _) (k : _), (eng s e).insts = [i] ∧ hdr.getD 0 0 = h ∧ i.tag = bits h 17 2 ∧ cHier i.cmd = true ∧ bits h 1 0 = 0 ∧ hdrMatches i.cmd { hdr := hdr, data := data } = true ∧ k = bits h 63 32 ∧ cOrdered i.cmd = false ∧ (0, bits h 23 18, k) ∉ i.seen ∧ (i.parts.get k).length + 1 < cG i.cmd) ∧
    (∃ (s : State) (u : State) (e : Nat) (hdr : List Nat) (data : List Byte) (i : Inst) (h : _) (k : _), (eng s e).insts = [i] ∧ hdr.getD 0 0 = h ∧ i.tag = bits h 17 2 ∧ cHier i.cmd = true ∧ bits h 1 0 = 1 ∧ hdrMatches i.cmd { hdr := hdr, data := data } = true ∧ k = bits h 63 32 ∧ (1, bits h 23 18, k) ∉ i.seen ∧ bitOf h 31 = false ∧ i.out = cOk ∧ writeAll e i.cmd false (data.take (chunkLen i.cmd k * fmtBits (cOut i.cmd) / 8)) (resultDests i k) s = (u, cOk) ∧ u.chd = s.chd) ∧
    (∃ (s : State) (e : Nat) (hdr : List Nat) (i : Inst) (h : _) (k : _) (node : _) (x : _), (eng s e).insts = [i] ∧ hdr.getD 0 0 = h ∧ i.tag = bits h 17 2 ∧ cHier i.cmd = true ∧ bits h 1 0 = 2 ∧ i.out = cOk ∧ i.cmd.req = .port k node x ∧ i.cmd.issuer = none ∧ cObj i.cmd = none) ∧
    (∃ (s : State) (e : Nat) (tag : Nat) (i : Inst) (k : _) (node : _) (x : _), (eng s e).insts = [i] ∧ i.tag = tag ∧ cHier i.cmd = true ∧ cChunks i.cmd ≤ i.sent.length ∧ i.done.length < cChunks i.cmd ∧ i.lastRec + max 1 s.chd.hierTmo * 1000 ≤ s.ft ∧ i.out = cOk ∧ ((∀ q ∈ cPeers i.cmd, peerOf s q = none)) ∧ i.cmd.req = .port k node x ∧ i.cmd.issuer = none ∧ cObj i.cmd = none) ∧
    (∃ (s : State) (e : Nat) (r : HierRec), (eng s e).insts = [] ∧ (eng s e).early = [r] ∧ r.at_ + max 1 s.chd.hierTmo * 1000 ≤ s.ft) :=
  ⟨⟨chState {}, 2, [36, 0, 0, 0], [1], by decide +kernel⟩,
    ⟨chState { insts := [hierInst 3] }, 2, [36 + 2 ^ 18 + 3 * 2 ^ 24, 1 + 0, 0, 0], [], hierInst 3, 36 + 2 ^ 18 + 3 * 2 ^ 24, 0, by decide +kernel⟩,
    ⟨chState { insts := [hierInst 2] }, _, 2, [37 + 2 ^ 18 + 2 * 2 ^ 24, 1, 0, 0], [1, 2, 3, 4], hierInst 2, 37 + 2 ^ 18 + 2 * 2 ^ 24, 0, by decide +kernel, by decide +kernel, by decide +kernel, by decide +kernel, by decide +kernel, by decide +kernel, by decide +kernel, by decide +kernel, by decide +kernel, by decide +kernel, ran (by decide +kernel), by decide +kernel⟩,
    ⟨chState { insts := [hierInst 2] }, 2, [38], hierInst 2, 38, 3, 7, 1, by decide +kernel⟩,
    ⟨{ chState { insts := [{ hierInst 2 with sent := [0] }] } with ft := 1000000 }, 2, 9, { hierInst 2 with sent := [0] }, 3, 7, 1, by decide +kernel⟩,
    ⟨{ chState { early := [{}] } with ft := 1000000 }, 2, {}, by decide +kernel⟩⟩

theorem test_attentionQueries_premises :
    (∃ (s : State) (u : State) (v : State) (e : Nat) (c : QCmd) (x : SessInfo) (w : List Nat) (g : ConeGroup) (k : Cpl) (q : _), takeCmd .cone e (32 + e) (fun c => bits (c.w 0) 3 0 == 1) s = some (c, u) ∧ coneCheck u e c = none ∧ qSession u c.part (qAsid c.words) c.words = some (x, w) ∧ coneGroup u (qGroup c.words) = some g ∧ qInline c.words = false ∧ engineReadAs (32 + e) c.part (qAsid c.words) (c.words.getD 5 0) (qVecBytes c.words) [] u = (v, k) ∧ k.status = .ok ∧ v.cone = u.cone ∧ u.cone.queries = [] ∧ c.words.length = 8 ∧ slicesOf (qSplit c.words) (qT0 c.words) (qN c.words) = [(qT0 c.words, qN c.words)] ∧ q = (sortBy id g.engines).getD ((rankIn g e + 0) % (sortBy id g.engines).length) e) ∧
    (∃ (s : State) (u : State) (e : Nat) (c : QCmd) (d : Cpl) (k : _) (node : _) (tag : _), takeCmd .cone e (32 + e) (fun c => bits (c.w 0) 3 0 == 1) s = some (c, u) ∧ coneCheck u e c = some d ∧ d.reason ≠ some .state ∧ c.req = .port k node tag ∧ c.issuer = none ∧ qObj c.words = none) ∧
    (∃ (s : State) (u : State) (v : State) (x : State × Cpl) (e : Nat) (c : QCmd) (k : Cpl) (d : Cpl) (p : _) (node : _) (tag : _), takeCmd .cone e (32 + e) (fun c => bits (c.w 0) 3 0 == 2) s = some (c, u) ∧ coneCheck u e c = none ∧ bits (c.w 1) 6 0 = 1 ∧ u.cone.batches = [] ∧ engineReadAs (32 + e) c.part (qAsid c.words) (c.w 5) 64 [] u = (v, k) ∧ k.status = .ok ∧ v.cone = u.cone ∧ (qCheck v c.part e (qAsid c.words) (qGroup c.words) true ((List.range 8).map fun j => ofLE ((k.data.drop (8 * j)).take 8)) c = some d) ∧ d.status ≠ .ok ∧ d.reason ≠ some .state ∧ engineWriteAs (32 + c.id) c.part (qAsid c.words) (c.w 5 + 56) (toLE 8 (pack [(4, d.status.code), (4, match d.reason with | some r => r.code | none => 0), (1, 1)])) false { v with cone := { v.cone with batches := [{ id := v.cone.nextId, cmd := c, left := 1, total := 1 }], nextId := v.cone.nextId + 1 } } = x ∧ x.1.cone = { v.cone with batches := [{ id := v.cone.nextId, cmd := c, left := 1, total := 1 }], nextId := v.cone.nextId + 1 } ∧ qObj c.words = none ∧ c.req = .port p node tag ∧ c.issuer = none) ∧
    (∃ (s : State) (u : State) (v : State) (e : Nat) (c : QCmd) (k : Cpl) (x : SessInfo) (w : List Nat) (n : _) (m : _) (h : List Nat), takeCmd .cone e (32 + e) (fun c => bits (c.w 0) 3 0 == 2) s = some (c, u) ∧ coneCheck u e c = none ∧ bits (c.w 1) 6 0 = 1 ∧ u.cone.batches = [] ∧ u.cone.queries = [] ∧ engineReadAs (32 + e) c.part (qAsid c.words) (c.w 5) 64 [] u = (v, k) ∧ k.status = .ok ∧ v.cone = u.cone ∧ h = (List.range 8).map (fun j => ofLE ((k.data.drop (8 * j)).take 8)) ∧ qCheck v c.part e (qAsid c.words) (qGroup c.words) true h c = none ∧ qSession v c.part (qAsid c.words) h = some (x, w) ∧ coneGroup v (qGroup c.words) = some { g := n, part := c.part, engines := [m] } ∧ slicesOf (qSplit h) (qT0 h) (qN h) = [(qT0 h, qN h)]) ∧
    (∃ (s : State) (e : Nat) (q : Query) (x : Slice), fenced s .cone = false ∧ s.cone.queries = [q] ∧ q.slices = [x] ∧ x.engine = e ∧ x.active = false ∧ x.folded < x.count ∧ q.stop = false) ∧
    (∃ (s : State) (v : State) (id : Nat) (q : Query) (x : Slice) (n : _) (k : Cpl) (recs : List (List Byte)) (off : _) (sp : _), fenced s .cone = false ∧ s.cone.queries = [q] ∧ q.id = id ∧ q.slices = [x] ∧ q.stop = false ∧ q.vecs ≠ [] ∧ x.active = true ∧ x.folded < x.count ∧ laneTurn s x.engine q.cls = true ∧ n = min 256 (x.count - x.folded) ∧ tileSpans q (x.first + x.folded) n = [sp] ∧ readSpan q sp [] s = (v, k, recs, off) ∧ k = cOk ∧ v.cone = s.cone) ∧
    (∃ (s : State) (id : Nat) (q : Query) (p : _) (node : _) (tag : _) (d : _) (f : _), s.cone.queries = [q] ∧ q.id = id ∧ q.batch = none ∧ q.out = cOk ∧ q.retryAt = some d ∧ q.firstTry = some f ∧ f + 20000 ≤ s.ft ∧ q.cmd.req = .port p node tag ∧ q.cmd.issuer = none ∧ qObj q.hdr = none) ∧
    (∃ (s : State) (id : Nat) (i : Nat) (q : Query) (x : Slice), s.cone.queries = [q] ∧ q.id = id ∧ q.slices.find? (fun y => y.idx == i) = some x ∧ q.merged = i ∧ x.count ≤ x.folded ∧ q.stop = false) ∧
    (∃ (s : State) (u : State) (id : Nat) (q : Query) (p : _) (node : _) (tag : _), fenced s .cone = false ∧ s.cone.queries = [q] ∧ q.id = id ∧ q.batch = none ∧ q.stop = false ∧ q.slices.length ≤ q.merged ∧ engineWriteAs (32 + q.lead) q.cmd.part q.asid (q.hdr.getD 6 0) (q.acc.flatMap (headRecord q.hdr)) false s = (u, cOk) ∧ u.cone = s.cone ∧ q.cmd.req = .port p node tag ∧ q.cmd.issuer = none ∧ qObj q.hdr = none) ∧
    (∃ (s : State) (id : Nat) (q : Query), fenced s .cone = false ∧ s.cone.queries = [q] ∧ q.id = id ∧ q.stop = false ∧ q.merged < q.slices.length) :=
  ⟨⟨{ coneState {} with eng := { issued := [(qKey .cone 2, [coneCmd])] } }, _, afterTake (takeCmd .cone 2 34 (fun c => bits (c.w 0) 3 0 == 1) { coneState {} with eng := { issued := [(qKey .cone 2, [coneCmd])] } }), 2, coneCmd, { num := 5, attached := true, seg := 1 }, kvSeg, { part := 1, engines := [2] }, cData (List.replicate 64 0), 2, taken (by decide +kernel), by decide +kernel⟩,
    ⟨{ memState with eng := { issued := [(qKey .cone 2, [coneCmd])] } }, _, 2, coneCmd, cNP, 3, 7, 1, taken (by decide +kernel), by decide +kernel⟩,
    ⟨{ coneState {} with eng := { issued := [(qKey .cone 2, [batchCmd])] } }, _, afterTake (takeCmd .cone 2 34 (fun c => bits (c.w 0) 3 0 == 2) { coneState {} with eng := { issued := [(qKey .cone 2, [batchCmd])] } }), engineWriteAs 34 1 0 (4096 + 56) (toLE 8 261) false { afterTake (takeCmd .cone 2 34 (fun c => bits (c.w 0) 3 0 == 2) { coneState {} with eng := { issued := [(qKey .cone 2, [batchCmd])] } }) with cone := { batches := [{ id := 0, cmd := batchCmd, left := 1, total := 1 }], nextId := 1 } }, 2, batchCmd, cData (List.replicate 64 0), cNP, 3, 7, 1, taken (by decide +kernel), by decide +kernel⟩,
    ⟨{ coneState {} with mem := memStore [] 4096 (coneHdr.flatMap (toLE 8)), eng := { issued := [(qKey .cone 2, [batchCmd])] } }, _, afterTake (takeCmd .cone 2 34 (fun c => bits (c.w 0) 3 0 == 2) { coneState {} with mem := memStore [] 4096 (coneHdr.flatMap (toLE 8)), eng := { issued := [(qKey .cone 2, [batchCmd])] } }), 2, batchCmd, cData (memBytes (memStore [] 4096 (coneHdr.flatMap (toLE 8))) 4096 64), { num := 5, attached := true, seg := 1 }, kvSeg, 0, 2, coneHdr, taken (by decide +kernel), by decide +kernel⟩,
    ⟨coneState { queries := [{ coneQ with slices := [{ coneSl with active := false }] }] }, 2, { coneQ with slices := [{ coneSl with active := false }] }, { coneSl with active := false }, by decide +kernel⟩,
    ⟨coneState { queries := [coneQ] }, (readSpan coneQ (0, 1) [] (coneState { queries := [coneQ] })).1, 4, coneQ, coneSl, 1, cOk, [List.replicate 128 0], false, (0, 1), by decide +kernel⟩,
    ⟨{ coneState { queries := [{ coneQ with retryAt := some 0, firstTry := some 0 }] } with ft := 20000 }, 4, { coneQ with retryAt := some 0, firstTry := some 0 }, 3, 7, 1, 0, 0, by decide +kernel⟩,
    ⟨coneState { queries := [{ coneQ with slices := [{ coneSl with folded := 1, active := false }] }] }, 4, 0, { coneQ with slices := [{ coneSl with folded := 1, active := false }] }, { coneSl with folded := 1, active := false }, by decide +kernel⟩,
    ⟨coneState { queries := [{ coneQ with slices := [{ coneSl with folded := 1, active := false }], merged := 1 }] }, _, 4, { coneQ with slices := [{ coneSl with folded := 1, active := false }], merged := 1 }, 3, 7, 1, by decide +kernel, by decide +kernel, by decide +kernel, by decide +kernel, by decide +kernel, by decide +kernel, ran (by decide +kernel), by decide +kernel⟩,
    ⟨coneState { queries := [coneQ] }, 4, coneQ, by decide +kernel⟩⟩

theorem test_sessionCommands_premises :
    (∃ (s : State) (u : State) (q : Nat) (c : QCmd) (n : _) (x : NumPool) (w : List Nat) (p : _) (node : _) (tag : _), orbTake 1 q s = some (c, u) ∧ linkDown u = false ∧ hasPartner u = false ∧ orbSeg u c.part (bits (c.w 1) 49 46) = some w ∧ segType w = 3 ∧ takeNumber u c.part = some (n, x) ∧ oObj c = none ∧ c.req = .port p node tag ∧ c.issuer = none) ∧
    (∃ (s : State) (u : State) (q : Nat) (c : QCmd) (w : List Nat) (p : _) (node : _) (tag : _), orbTake 1 q s = some (c, u) ∧ linkDown u = false ∧ orbSeg u c.part (bits (c.w 1) 49 46) = some w ∧ segType w = 3 ∧ takeNumber u c.part = none ∧ oObj c = none ∧ c.req = .port p node tag ∧ c.issuer = none) ∧
    (∃ (s : State) (u : State) (v : State) (x : State) (a : Cpl) (k : Cpl) (q : Nat) (c : QCmd) (n : _) (p : _) (node : _) (tag : _) (ext : List Byte), orbTake 2 q s = some (c, u) ∧ sessNum u c.part (oHandle c) = some n ∧ linkDown u = false ∧ hasPartner u = false ∧ u.pair.st ≠ .takeover ∧ (sess u n).st ≠ .closing ∧ (logSeg u c.part).isSome = true ∧ cmdTokens c ext u = (v, k) ∧ k.status = .ok ∧ attached (sess v n) = false ∧ (sess v n).st ≠ .reviving ∧ (sess v n).st ≠ .free ∧ (oPos c = 0xFFFFFFFF ∨ oPos c = (sess v n).logLen) ∧ 0 < oCount c ∧ (sess v n).logLen + oCount c ≤ logMax v (sess v n) ∧ ceilDiv ((sess v n).logLen + oCount c) 1023 ≤ (sess v n).chunks.length ∧ listWrite (sess v n).part (sess v n).chunks 1023 4 (sess v n).logLen (oCount c) k.data v = (x, a) ∧ a.status = .ok ∧ hasPartner x = false ∧ oObj c = none ∧ c.req = .port p node tag ∧ c.issuer = none) ∧
    (∃ (s : State) (u : State) (v : State) (y : State) (z : State) (x : State) (k : Cpl) (a : Cpl) (q : Nat) (c : QCmd) (n : _) (p : _) (node : _) (tag : _) (ext : List Byte), orbTake 3 q s = some (c, u) ∧ sessNum u c.part (oHandle c) = some n ∧ linkDown u = false ∧ hasPartner u = false ∧ u.pair.st ≠ .takeover ∧ (sess u n).st ≠ .closing ∧ (logSeg u c.part).isSome = true ∧ cmdTokens c ext u = (v, k) ∧ k.status = .ok ∧ findResult n (oCall c) v = (y, cOk, none) ∧ appendAt n (oPos c) (oCount c) k.data y = (z, cOk) ∧ putRecord n 1 (oCall c) (if oPos c = 0xFFFFFFFF then (sess y n).logLen else oPos c) (oCount c) (c.w 6) z = some (x, a) ∧ a.status = .ok ∧ (sess x n).st ≠ .free ∧ hasPartner x = false ∧ oObj c = none ∧ c.req = .port p node tag ∧ c.issuer = none) ∧
    (∃ (s : State) (u : State) (v : State) (q : Nat) (c : QCmd) (n : _), orbTake 4 q s = some (c, u) ∧ sessNum u c.part (oHandle c) = some n ∧ linkDown u = false ∧ hasPartner u = false ∧ u.pair.st ≠ .takeover ∧ jobOf u n = none ∧ (sess u n).st = .attached ∧ oWin c ≤ oKvLen c ∧ oKvLen c ≤ (sess u n).logLen ∧ bitOf (c.w 1) 45 = false ∧ ((oDepth c = .hot → hotCount u c.part < (orbPart u c.part).hotMax)) ∧ findResult n (oCall c) u = (v, cOk, none) ∧ hasPartner v = false) ∧
    (∃ (s : State) (u : State) (q : Nat) (c : QCmd) (n : _) (p : _) (node : _) (tag : _), orbTake 5 q s = some (c, u) ∧ sessNum u c.part (oHandle c) = some n ∧ linkDown u = false ∧ hasPartner u = false ∧ u.pair.st ≠ .takeover ∧ (sess u n).st = .parked ∧ (sess u n).depth = oDepth c ∧ (oDepth c = .cold ∨ (sess u n).tray = oTray c) ∧ oObj c = none ∧ c.req = .port p node tag ∧ c.issuer = none) ∧
    (∃ (s : State) (u : State) (q : Nat) (c : QCmd) (n : _), orbTake 5 q s = some (c, u) ∧ sessNum u c.part (oHandle c) = some n ∧ linkDown u = false ∧ hasPartner u = false ∧ u.pair.st ≠ .takeover ∧ (sess u n).st = .parked ∧ (sess u n).depth ≠ .cold ∧ oDepth c = .cold ∧ energyAns u .parkMove (preCost u 9 4 [(0, (sess u n).pages.length * pageBytes)]) ≠ .refused) ∧
    (∃ (s : State) (u : State) (v : State) (q : Nat) (c : QCmd) (n : _) (w : List Nat) (sl : _), orbTake 6 q s = some (c, u) ∧ sessNum u c.part (oHandle c) = some n ∧ linkDown u = false ∧ hasPartner u = false ∧ u.pair.st ≠ .takeover ∧ (sess u n).st = .parked ∧ orbSeg u (sess u n).part (sess u n).seg = some w ∧ oCopies c = 0 ∧ (sess u n).win = 0 ∧ (sess u n).slot.or (freeSlot u (sess u n).part (sess u n).seg) = some sl ∧ backLog n (setSess n { sess u n with st := .reviving, changeFt := u.ft, group := some (oGroup c), slot := some sl, held := false } u) = some v ∧ (orbPart v (sess u n).part).pfPages = 0 ∧ hasPartner v = false) ∧
    (∃ (s : State) (u : State) (q : Nat) (c : QCmd) (n : _) (p : _) (node : _) (tag : _), orbTake 6 q s = some (c, u) ∧ sessNum u c.part (oHandle c) = some n ∧ linkDown u = false ∧ hasPartner u = false ∧ u.pair.st ≠ .takeover ∧ (sess u n).st = .attached ∧ (sess u n).group = some (oGroup c) ∧ oObj c = none ∧ c.req = .port p node tag ∧ c.issuer = none) ∧
    (∃ (s : State) (u : State) (q : Nat) (c : QCmd) (n : _), orbTake 7 q s = some (c, u) ∧ sessNum u c.part (oHandle c) = some n ∧ linkDown u = false ∧ hasPartner u = false ∧ u.pair.st ≠ .takeover ∧ (sess u n).st ≠ .closing ∧ jobOf u n = none ∧ ((∀ h ∈ u.orb.held, h.1 ≠ n))) ∧
    (∃ (s : State) (u : State) (x : State) (q : Nat) (c : QCmd) (n : _) (p : _) (node : _) (tag : _), orbTake 8 q s = some (c, u) ∧ sessNum u c.part (oHandle c) = some n ∧ hasPartner u = false ∧ oObj c = none ∧ c.req = .port p node tag ∧ c.issuer = none ∧ engineWriteAs 116 c.part (orbPart u c.part).asid (c.w 5) ((sessWords (sess u n)).flatMap (toLE 8)) false u = (x, cOk)) ∧
    (∃ (s : State) (u : State) (v : State) (x : State) (k : Cpl) (cnt : _) (q : Nat) (c : QCmd) (n : _) (p : _) (node : _) (tag : _), orbTake 9 q s = some (c, u) ∧ sessNum u c.part (oHandle c) = some n ∧ hasPartner u = false ∧ oObj c = none ∧ c.req = .port p node tag ∧ c.issuer = none ∧ cnt = min (oCount c) ((if bitOf (c.w 0) 7 then (sess u n).recCount else (sess u n).logLen) - oPos c) ∧ cnt ≠ 0 ∧ (if bitOf (c.w 0) 7 then logRecords n (oPos c) cnt u else logTokens n (oPos c) cnt u) = (v, k) ∧ k.status = .ok ∧ engineWriteAs 116 c.part (orbPart v c.part).asid (c.w 5) k.data false v = (x, cOk)) :=
  ⟨⟨orbState {} [orbCmd [1, 2 ^ 46, 0, 0, 0, 0, 0, 0]], _, 1, orbCmd [1, 2 ^ 46, 0, 0, 0, 0, 0, 0], 0, { next := 1 }, kvSeg, 3, 7, 1, taken (by decide +kernel), by decide +kernel⟩,
    ⟨orbState {} [orbCmd [1, 2 ^ 46, 0, 0, 0, 0, 0, 0]] 0, _, 1, orbCmd [1, 2 ^ 46, 0, 0, 0, 0, 0, 0], kvSeg, 3, 7, 1, taken (by decide +kernel), by decide +kernel⟩,
    ⟨orbState parkedSess [orbCmd [66, 5, 1 + 0xFFFFFFFF * 2 ^ 32, 0, 0, 0, 0, 0, 77]], _, (afterTake (orbTake 2 1 (orbState parkedSess [orbCmd [66, 5, 1 + 0xFFFFFFFF * 2 ^ 32, 0, 0, 0, 0, 0, 77]]))), _, cOk, cData [77, 0, 0, 0], 1, orbCmd [66, 5, 1 + 0xFFFFFFFF * 2 ^ 32, 0, 0, 0, 0, 0, 77], 5, 3, 7, 1, [], taken (by decide +kernel), by decide +kernel, by decide +kernel, by decide +kernel, by decide +kernel, by decide +kernel, by decide +kernel, by decide +kernel, by decide +kernel, by decide +kernel, by decide +kernel, by decide +kernel, by decide +kernel, by decide +kernel, by decide +kernel, by decide +kernel, ran (by decide +kernel), by decide +kernel⟩,
    ⟨orbState parkedSess [orbCmd [67, 5, 1 + 0xFFFFFFFF * 2 ^ 32, 0, 9, 0, 0, 0, 77]], _, (afterTake (orbTake 3 1 (orbState parkedSess [orbCmd [67, 5, 1 + 0xFFFFFFFF * 2 ^ 32, 0, 9, 0, 0, 0, 77]]))), (afterTake (orbTake 3 1 (orbState parkedSess [orbCmd [67, 5, 1 + 0xFFFFFFFF * 2 ^ 32, 0, 9, 0, 0, 0, 77]]))), _, ((putRecord 5 1 9 0 1 0 (appendAt 5 0xFFFFFFFF 1 [77, 0, 0, 0] (afterTake (orbTake 3 1 (orbState parkedSess [orbCmd [67, 5, 1 + 0xFFFFFFFF * 2 ^ 32, 0, 9, 0, 0, 0, 77]])))).1).getD ({}, cOk)).1, cData [77, 0, 0, 0], cOk, 1, orbCmd [67, 5, 1 + 0xFFFFFFFF * 2 ^ 32, 0, 9, 0, 0, 0, 77], 5, 3, 7, 1, [], taken (by decide +kernel), by decide +kernel, by decide +kernel, by decide +kernel, by decide +kernel, by decide +kernel, by decide +kernel, by decide +kernel, by decide +kernel, by decide +kernel, ran (by decide +kernel), by decide +kernel⟩,
    ⟨orbState attSess [orbCmd [4, 5 + 2 ^ 41, 0, 0, 0, 0, 0, 0]], _, (afterTake (orbTake 4 1 (orbState attSess [orbCmd [4, 5 + 2 ^ 41, 0, 0, 0, 0, 0, 0]]))), 1, orbCmd [4, 5 + 2 ^ 41, 0, 0, 0, 0, 0, 0], 5, taken (by decide +kernel), by decide +kernel⟩,
    ⟨orbState parkedSess [orbCmd [5, 5 + 2 ^ 41, 0, 0, 0, 0, 0, 0]], _, 1, orbCmd [5, 5 + 2 ^ 41, 0, 0, 0, 0, 0, 0], 5, 3, 7, 1, taken (by decide +kernel), by decide +kernel⟩,
    ⟨orbState { parkedSess with depth := .warm } [orbCmd [5, 5 + 2 ^ 41, 0, 0, 0, 0, 0, 0]], _, 1, orbCmd [5, 5 + 2 ^ 41, 0, 0, 0, 0, 0, 0], 5, taken (by decide +kernel), by decide +kernel⟩,
    ⟨orbState parkedSess [orbCmd [6, 5, 0, 0, 0, 0, 0, 0]], _, (backLog 5 (setSess 5 { parkedSess with st := .reviving, group := some 0, slot := some 0 } (afterTake (orbTake 6 1 (orbState parkedSess [orbCmd [6, 5, 0, 0, 0, 0, 0, 0]]))))).getD {}, 1, orbCmd [6, 5, 0, 0, 0, 0, 0, 0], 5, kvSeg, 0, taken (by decide +kernel), by decide +kernel⟩,
    ⟨orbState attSess [orbCmd [6, 5, 0, 0, 0, 0, 0, 0]], _, 1, orbCmd [6, 5, 0, 0, 0, 0, 0, 0], 5, 3, 7, 1, taken (by decide +kernel), by decide +kernel⟩,
    ⟨orbState attSess [orbCmd [7, 5, 0, 0, 0, 0, 0, 0]], _, 1, orbCmd [7, 5, 0, 0, 0, 0, 0, 0], 5, taken (by decide +kernel), by decide +kernel⟩,
    ⟨orbState attSess [orbCmd [8, 5, 0, 0, 0, 8192, 0, 0]], _, _, 1, orbCmd [8, 5, 0, 0, 0, 8192, 0, 0], 5, 3, 7, 1, taken (by decide +kernel), by decide +kernel, by decide +kernel, by decide +kernel, by decide +kernel, by decide +kernel, ran (by decide +kernel)⟩,
    ⟨orbState attSess [orbCmd [9, 5, 1, 0, 0, 8192, 0, 0]], _, _, _, (logTokens 5 0 1 (afterTake (orbTake 9 1 (orbState attSess [orbCmd [9, 5, 1, 0, 0, 8192, 0, 0]])))).2, 1, 1, orbCmd [9, 5, 1, 0, 0, 8192, 0, 0], 5, 3, 7, 1, taken (by decide +kernel), by decide +kernel, by decide +kernel, by decide +kernel, by decide +kernel, by decide +kernel, by decide +kernel, by decide +kernel, ran (by decide +kernel), by decide +kernel, ran (by decide +kernel)⟩⟩

theorem test_sessionProgress_premises :
    (∃ (s : State) (n : Nat) (j : OrbJob) (p : _) (node : _) (tag : _), (sess s n).st = .parking ∧ linkDown s = false ∧ hasPartner s = false ∧ fenced s .orbit = false ∧ ((sess s n).parkStep < (dom s (sess s n).part).commit ∨ (dom s (sess s n).part).st = .idle) ∧ jobOf s n = some j ∧ j.joined = [] ∧ (sess s n).resultSeen = true ∧ oObj j.cmd = none ∧ j.cmd.req = .port p node tag ∧ j.cmd.issuer = none) ∧
    (∃ (s : State) (n : Nat) (j : OrbJob) (p : _) (node : _) (tag : _), (sess s n).st = .parking ∧ linkDown s = false ∧ hasPartner s = false ∧ fenced s .orbit = false ∧ ((sess s n).parkStep < (dom s (sess s n).part).commit ∨ (dom s (sess s n).part).st = .idle) ∧ jobOf s n = some j ∧ j.joined = [] ∧ (sess s n).resultSeen = false ∧ oDepth j.cmd = .cold ∧ oObj j.cmd = none ∧ j.cmd.req = .port p node tag ∧ j.cmd.issuer = none) ∧
    (∃ (s : State) (n : Nat), (sess s n).st = .parking ∧ fenced s .orbit = false ∧ (dom s (sess s n).part).commit ≤ (sess s n).parkStep ∧ (dom s (sess s n).part).st ≠ .idle) ∧
    (∃ (s : State) (u : State) (n : Nat) (j : OrbJob), (sess s n).st = .moving ∧ (sess s n).target = .cold ∧ (sess s n).refs = 0 ∧ fenced s .orbit = false ∧ jobOf s n = some j ∧ j.ready = none ∧ energyTake (sess s n).part (if j.back then .background else .parkMove) (coldCost s n) s = some (u, false) ∧ sess u n = sess s n) ∧
    (∃ (s : State) (n : Nat), (sess s n).refs ≠ 0) ∧
    (∃ (s : State) (n : Nat) (j : OrbJob) (p : _) (node : _) (tag : _), (sess s n).st = .moving ∧ fenced s .orbit = false ∧ linkDown s = false ∧ hasPartner s = false ∧ jobOf s n = some j ∧ (j.issued = true ∨ (sess s n).target = .cold) ∧ j.ready = some cOk ∧ ((∀ h ∈ s.orb.held, h.1 ≠ n)) ∧ j.cmd.words ≠ [] ∧ oObj j.cmd = none ∧ j.cmd.req = .port p node tag ∧ j.cmd.issuer = none) ∧
    (∃ (s : State) (v : State) (n : Nat) (j : OrbJob) (cnt : _) (p : _) (node : _) (tag : _), fenced s .orbit = false ∧ jobOf s n = some j ∧ j.kind = .revive ∧ j.joined = [] ∧ reviveWork j s = (v, cOk, cnt) ∧ hasPartner v = false ∧ (sess v n).st = .reviving ∧ oObj j.cmd = none ∧ j.cmd.req = .port p node tag ∧ j.cmd.issuer = none) ∧
    (∃ (s : State) (n : Nat) (j : OrbJob) (p : _) (node : _) (tag : _), (sess s n).st = .closing ∧ (sess s n).refs = 0 ∧ fenced s .orbit = false ∧ linkDown s = false ∧ hasPartner s = false ∧ jobOf s n = some j ∧ hasPartner (freePages n s) = false ∧ oObj j.cmd = none ∧ j.cmd.req = .port p node tag ∧ j.cmd.issuer = none) ∧
    (∃ (s : State) (n : Nat), (sess s n).refs ≠ 0) ∧
    (∃ (s : State) (n : Nat), (sess s n).st = .parked ∧ (sess s n).demote = true ∧ (sess s n).depth = .warm ∧ fenced s .orbit = false ∧ linkDown s = false ∧ hasPartner s = false ∧ (orbPart s (sess s n).part).warmIdleS ≠ 0 ∧ (sess s n).changeFt + (orbPart s (sess s n).part).warmIdleS * 1000000000 ≤ s.ft) :=
  ⟨⟨{ orbState { attSess with st := .parking, resultSeen := true } [] 8 [{ num := 5, cmd := orbCmd [4, 5 + 2 ^ 41, 0, 0, 0, 0, 0, 0] }] with mer := { doms := [(1, { st := .idle })] } }, 5, { num := 5, cmd := orbCmd [4, 5 + 2 ^ 41, 0, 0, 0, 0, 0, 0] }, 3, 7, 1, by decide +kernel⟩,
    ⟨{ orbState { attSess with st := .parking } [] 8 [{ num := 5, cmd := orbCmd [4, 5 + 2 ^ 41, 0, 0, 0, 0, 0, 0] }] with mer := { doms := [(1, { commit := 1 })] } }, 5, { num := 5, cmd := orbCmd [4, 5 + 2 ^ 41, 0, 0, 0, 0, 0, 0] }, 3, 7, 1, by decide +kernel⟩,
    ⟨{ orbState { attSess with st := .parking } [] 8 [{ num := 5, cmd := orbCmd [4, 5 + 2 ^ 41, 0, 0, 0, 0, 0, 0] }] with mer := { doms := [(1, { st := .running })] } }, 5, by decide +kernel⟩,
    ⟨orbState { parkedSess with st := .moving, target := .cold, slot := some 0 } [] 8 [{ num := 5, kind := .move, cmd := orbCmd [5, 5 + 2 ^ 41, 0, 0, 0, 0, 0, 0] }], ((energyTake 1 .parkMove (coldCost (orbState { parkedSess with st := .moving, target := .cold, slot := some 0 } [] 8 [{ num := 5, kind := .move, cmd := orbCmd [5, 5 + 2 ^ 41, 0, 0, 0, 0, 0, 0] }]) 5) (orbState { parkedSess with st := .moving, target := .cold, slot := some 0 } [] 8 [{ num := 5, kind := .move, cmd := orbCmd [5, 5 + 2 ^ 41, 0, 0, 0, 0, 0, 0] }])).getD ({}, true)).1, 5, { num := 5, kind := .move, cmd := orbCmd [5, 5 + 2 ^ 41, 0, 0, 0, 0, 0, 0] }, by decide +kernel⟩,
    ⟨orbState { attSess with refs := 1 } [] 8 [{ num := 5, kind := .move, cmd := orbCmd [5, 5 + 2 ^ 41, 0, 0, 0, 0, 0, 0] }], 5, by decide +kernel⟩,
    ⟨orbState { parkedSess with st := .moving, target := .cold, slot := some 0 } [] 8 [{ num := 5, kind := .move, cmd := orbCmd [5, 5 + 2 ^ 41, 0, 0, 0, 0, 0, 0], ready := some cOk }], 5, { num := 5, kind := .move, cmd := orbCmd [5, 5 + 2 ^ 41, 0, 0, 0, 0, 0, 0], ready := some cOk }, 3, 7, 1, by decide +kernel⟩,
    ⟨orbState { parkedSess with st := .reviving, slot := some 0 } [] 8 [{ num := 5, kind := .revive, cmd := orbCmd [6, 5, 0, 0, 0, 0, 0, 0] }], (reviveWork ({ num := 5, kind := .revive, cmd := orbCmd [6, 5, 0, 0, 0, 0, 0, 0] }) (orbState { parkedSess with st := .reviving, slot := some 0 } [] 8 [{ num := 5, kind := .revive, cmd := orbCmd [6, 5, 0, 0, 0, 0, 0, 0] }])).1, 5, { num := 5, kind := .revive, cmd := orbCmd [6, 5, 0, 0, 0, 0, 0, 0] }, 0, 3, 7, 1, by decide +kernel⟩,
    ⟨orbState { attSess with st := .closing } [] 8 [{ num := 5, kind := .close, cmd := orbCmd [7, 5, 0, 0, 0, 0, 0, 0] }], 5, { num := 5, kind := .close, cmd := orbCmd [7, 5, 0, 0, 0, 0, 0, 0] }, 3, 7, 1, by decide +kernel⟩,
    ⟨orbState { attSess with refs := 1 } [] 8 [{ num := 5, kind := .move, cmd := orbCmd [5, 5 + 2 ^ 41, 0, 0, 0, 0, 0, 0] }], 5, by decide +kernel⟩,
    ⟨{ orbState { parkedSess with depth := .warm, demote := true } [] with ft := 1000000000, cmp := { boot := .running, active := { orbParts := [{ part := 1, warmIdleS := 1 }] } } }, 5, by decide +kernel⟩⟩

theorem test_sampling_premises :
    (∃ (s : State) (u : State) (v : State) (q : Nat) (c : QCmd) (i : _) (p : _) (node : _) (tag : _) (a : _) (b : _) (o : _) (g : List Nat), apxTake 1 q s = some (c, u) ∧ (sessNum u c.part (iSession c.words)).isSome = true ∧ c.words.length = 16 ∧ rangeCheck u c.part (apxPart u c.part).asid (iRing c.words) (128 + 16 * 2 ^ iOrder c.words) true = none ∧ rangeCheck u c.part (apxPart u c.part).asid (iRes c.words) 128 true = none ∧ segStage u { part := c.part, asid := (apxPart u c.part).asid, va := iRing c.words, len := 128 + 16 * 2 ^ iOrder c.words, write := true, engine := true } = .ok a b g o ∧ segCoherent g = false ∧ (u.apx.pools.get c.part).next < (apxPart u c.part).count ∧ i = (apxPart u c.part).base + (u.apx.pools.get c.part).next ∧ engineWriteAs 112 c.part (apxPart u c.part).asid (iRing c.words) ([0, 0, 0, pack [(24, i + 2 ^ 15 * (apxReq u i).gen + 2 ^ 23 * b2n u.cmp.roleB), (8, 0), (32, iStart c.words)], 0, 0, 0, 0, 0, 0, 0, 0, 0, 0, 0, 0].flatMap (toLE 8)) false u = (v, cOk) ∧ c.req = .port p node tag ∧ c.issuer = none) ∧
    (∃ (s : State) (u : State) (q : Nat) (c : QCmd) (i : _) (p : _) (node : _) (tag : _), apxTake 2 q s = some (c, u) ∧ reqLocal u (bits (c.w 1) 23 0) = true ∧ reqIdx u c.part (bits (c.w 1) 23 0) = some i ∧ c.req = .port p node tag ∧ c.issuer = none) ∧
    (∃ (s : State) (u : State) (q : Nat) (c : QCmd) (i : _) (p : _) (node : _) (tag : _), apxTake 3 q s = some (c, u) ∧ reqLocal u (bits (c.w 1) 23 0) = true ∧ reqIdx u c.part (bits (c.w 1) 23 0) = some i ∧ (apxReq u i).st ≠ .running ∧ (apxReq u i).pendEnd = none ∧ (apxReq u i).closing = none ∧ c.req = .port p node tag ∧ c.issuer = none) ∧
    (∃ (s : State) (u : State) (v : State) (q : Nat) (c : QCmd) (i : _) (y : ApxReq) (p : _) (node : _) (tag : _), apxTake 3 q s = some (c, u) ∧ reqLocal u (bits (c.w 1) 23 0) = true ∧ reqIdx u c.part (bits (c.w 1) 23 0) = some i ∧ (apxReq u i).st = .running ∧ (apxReq u i).closing = none ∧ putEnd 3 (apxReq u i).ringPos { apxReq u i with slot := none } u = (v, cOk, y) ∧ y.pendEnd = none ∧ v.apx = u.apx ∧ c.req = .port p node tag ∧ c.issuer = none) ∧
    (∃ (s : State) (u : State) (v : State) (q : Nat) (c : QCmd) (i : _) (p : _) (node : _) (tag : _), apxTake 4 q s = some (c, u) ∧ reqLocal u (bits (c.w 1) 23 0) = true ∧ reqIdx u c.part (bits (c.w 1) 23 0) = some i ∧ engineWriteAs 112 (apxReq u i).part (apxPart u (apxReq u i).part).asid (c.w 13) ((reqImage u i (apxReq u i)).flatMap (toLE 8)) false u = (v, cOk) ∧ c.req = .port p node tag ∧ c.issuer = none) ∧
    (∃ (s : State) (p : Nat) (node : Nat) (tag : Nat) (n : _) (i : _) (h : _) (shard : _) (nshard : _) (nd : _) (cls : _) (pos : _) (kk : _) (hdr : List Nat) (data : List Byte), reqPart s (.port p node tag) = some n ∧ h = hdr.getD 0 0 ∧ reqLocal s (bits h 23 0) = true ∧ reqIdx s n (bits h 23 0) = some i ∧ shard = bits h 29 24 ∧ nshard = bits h 35 30 + 1 ∧ nd = bits h 40 36 ∧ cls = bits h 43 41 ∧ bits h 63 45 = 0 ∧ cls ≤ 1 ∧ nd ≤ 16 ∧ hdr.getD 1 0 = pos ∧ pos < 2 ^ 32 ∧ hdr.getD 2 0 = kk ∧ 0 < kk ∧ kk ≤ 256 ∧ hdr.getD 3 0 = 0 ∧ shard < nshard ∧ data.length = 16 * ceilDiv nd 4 + 8 * kk * (nd + 1) ∧ 32 + data.length ≤ 16384 ∧ (msgCands shard kk (nd + 1) (data.drop (16 * ceilDiv nd 4))).any twice = false ∧ fenceCpl s .apex n = none ∧ (apxReq s i).slot = none ∧ iFull (apxReq s i).img = true ∧ slotsUsed s (fun _ => true) < 1024 ∧ slotsUsed s (· == n) < (apxPart s n).slotQuota ∧ kk * (nd + 1) ≤ 4096 ∧ (apxReq s i).st = .running ∧ pos ≤ (apxReq s i).ringPos ∧ (apxReq s i).ringPos ≤ pos + 64) ∧
    (∃ (s : State) (u : State) (v : State) (k : Cpl) (i : Nat) (y : ApxSlot), (apxReq s i).slot = some y ∧ slotFull y = false ∧ y.opened + apxTmo s ≤ s.ft ∧ iObj y.img = none ∧ modAStat (apxReq s i).part (fun z => { z with timeouts := sat 16 z.timeouts }) (setApxReq i { apxReq s i with slot := none } s) = u ∧ apxWrite (apxReq s i) (iRes y.img) (([pack [(4, 8), (4, 0), (5, 0), (1, 0), (3, 0), (15, 0), (32, y.pos)], pack [(32, 0), (5, 0)]] ++ List.replicate 14 0).flatMap (toLE 8)) u = (v, k) ∧ v.apx = u.apx) ∧
    (∃ (s : State) (i : Nat) (y : ApxSlot), (apxReq s i).slot = some y ∧ s.ft < y.opened + apxTmo s) ∧
    (∃ (s : State) (v : State) (u : Nat) (i : _) (x : ApxReq) (y : ApxSlot) (d : Drawn), fenced s .apex = false ∧ apxTurn s u = some (i, x, v) ∧ x.slot = some y ∧ y.poison = false ∧ y.cands.any twice = false ∧ drawAll y.img y.pos (x.hist.drop (x.ringPos - y.pos)) y.cands y.drafts {} = d ∧ d.toks ≠ []) ∧
    (∃ (s : State) (v : State) (i : Nat) (x : ApxReq) (y : ApxSlot) (d : Nat × Nat × Cpl), apxReq s i = x ∧ x.slot = some y ∧ y.served = true ∧ s.eng.done.find? (fun e => e.1 == 0xD && e.2.1 == i) = some d ∧ d.2.2.status = .ok ∧ deliver i x y (ofLE ((d.2.2.data.drop 8).take 4)) { s with eng := { s.eng with done := s.eng.done.erase d } } = (v, cOk)) ∧
    (∃ (s : State) (v : State) (i : Nat) (k : Cpl) (y : ApxReq) (why : _) (pos : _), (apxReq s i).pendEnd = some (why, pos) ∧ putEnd why pos (apxReq s i) s = (v, k, y) ∧ k.status ≠ .retry ∧ y.closing = none) :=
  ⟨⟨apxState [] [apxCmd [1 + 32, 5 * 2 ^ 32, 0, 7, 16384, 6, 0, 0x3F800000, 0x3F800000, 0, 0, 0, 0, 32768, 0, 0]], _, _, 1, apxCmd [1 + 32, 5 * 2 ^ 32, 0, 7, 16384, 6, 0, 0x3F800000, 0x3F800000, 0, 0, 0, 0, 32768, 0, 0], 0, 3, 7, 1, 0, 0, 16384, directSeg, taken (by decide +kernel), by decide +kernel, by decide +kernel, by decide +kernel, by decide +kernel, by decide +kernel, by decide +kernel, by decide +kernel, by decide +kernel, ran (by decide +kernel), by decide +kernel⟩,
    ⟨apxState [(1, apxR)] [apxCmd [2, 1, 0, 0, 0, 0, 0, 0x3F800000, 0x3F800000, 0, 0, 0, 0, 0, 0, 0]], _, 1, apxCmd [2, 1, 0, 0, 0, 0, 0, 0x3F800000, 0x3F800000, 0, 0, 0, 0, 0, 0, 0], 1, 3, 7, 1, taken (by decide +kernel), by decide +kernel⟩,
    ⟨apxState [(1, { apxR with st := .ended })] [apxCmd [3, 1, 0, 0, 0, 0, 0, 0, 0, 0, 0, 0, 0, 0, 0, 0]], _, 1, apxCmd [3, 1, 0, 0, 0, 0, 0, 0, 0, 0, 0, 0, 0, 0, 0, 0], 1, 3, 7, 1, taken (by decide +kernel), by decide +kernel⟩,
    ⟨apxState [(1, apxR)] [apxCmd [3, 1, 0, 0, 0, 0, 0, 0, 0, 0, 0, 0, 0, 0, 0, 0]], _, (putEnd 3 0 apxR (afterTake (apxTake 3 1 (apxState [(1, apxR)] [apxCmd [3, 1, 0, 0, 0, 0, 0, 0, 0, 0, 0, 0, 0, 0, 0, 0]])))).1, 1, apxCmd [3, 1, 0, 0, 0, 0, 0, 0, 0, 0, 0, 0, 0, 0, 0, 0], 1, (putEnd 3 0 apxR (afterTake (apxTake 3 1 (apxState [(1, apxR)] [apxCmd [3, 1, 0, 0, 0, 0, 0, 0, 0, 0, 0, 0, 0, 0, 0, 0]])))).2.2, 3, 7, 1, taken (by decide +kernel), by decide +kernel⟩,
    ⟨apxState [(1, apxR)] [apxCmd [4, 1, 0, 0, 0, 0, 0, 0, 0, 0, 0, 0, 0, 49152, 0, 0]], _, _, 1, apxCmd [4, 1, 0, 0, 0, 0, 0, 0, 0, 0, 0, 0, 0, 49152, 0, 0], 1, 3, 7, 1, taken (by decide +kernel), by decide +kernel, by decide +kernel, ran (by decide +kernel), by decide +kernel⟩,
    ⟨apxState [(1, apxR)] [], 3, 7, 1, 1, 1, 1 + 2 ^ 41, 0, 1, 0, 1, 0, 1, [1 + 2 ^ 41, 0, 1, 0], List.replicate 8 0, by decide +kernel⟩,
    ⟨{ apxState [(1, { apxR with slot := some { nshard := 2 } })] [] with ft := 100000 }, modAStat 1 (fun z => { z with timeouts := sat 16 z.timeouts }) (setApxReq 1 apxR ({ apxState [(1, { apxR with slot := some { nshard := 2 } })] [] with ft := 100000 })), _, cOk, 1, { nshard := 2 }, by decide +kernel, by decide +kernel, by decide +kernel, by decide +kernel, by decide +kernel, ran (by decide +kernel), by decide +kernel⟩,
    ⟨apxState [(1, { apxR with slot := some { nshard := 2 } })] [], 1, { nshard := 2 }, by decide +kernel⟩,
    ⟨apxState [(1, { apxR with slot := some { cands := [[{ token := 9 }]], shards := [0] } })] [], afterServe (apxTurn (apxState [(1, { apxR with slot := some { cands := [[{ token := 9 }]], shards := [0] } })] []) 1), 1, 1, { apxR with slot := some { cands := [[{ token := 9 }]], shards := [0] } }, { cands := [[{ token := 9 }]], shards := [0] }, { toks := [9] }, by decide +kernel⟩,
    ⟨{ apxState [(1, { apxR with slot := some { toks := [9], served := true, img := apxR.img } })] [] with eng := { done := [(0xD, 1, cOk)] } }, _, 1, { apxR with slot := some { toks := [9], served := true, img := apxR.img } }, { toks := [9], served := true, img := apxR.img }, (0xD, 1, cOk), by decide +kernel, by decide +kernel, by decide +kernel, by decide +kernel, by decide +kernel, ran (by decide +kernel)⟩,
    ⟨apxState [(1, { apxR with st := .ended, pendEnd := some (1, 4) })] [], (putEnd 1 4 { apxR with st := .ended, pendEnd := some (1, 4) } (apxState [(1, { apxR with st := .ended, pendEnd := some (1, 4) })] [])).1, 1, cOk, (putEnd 1 4 { apxR with st := .ended, pendEnd := some (1, 4) } (apxState [(1, { apxR with st := .ended, pendEnd := some (1, 4) })] [])).2.2, 1, 4, by decide +kernel⟩⟩

theorem test_indexCommands_premises :
    (∃ (s : State) (u : State) (e : Nat) (c : QCmd) (a : State) (d : List Byte) (w : List Nat) (p : _) (node : _) (tag : _), cenTake 1 e s = some (c, u) ∧ (cenPart u c.part).count ≤ (u.cen.pools.get c.part).next ∧ (u.cen.pools.get c.part).freed = [] ∧ rangeCheck u c.part (cenPart u c.part).asid (c.w 4) 128 true = none ∧ cenRead (cenCtx u e c.part) (c.w 4) 128 u = (a, cOk, d) ∧ w = (List.range 16).map (fun j => ofLE ((d.drop (8 * j)).take 8)) ∧ idxBad w = false ∧ rangeCheck a c.part (cenPart u c.part).asid (xCent w) (xNlist w * xD w) false = none ∧ rangeCheck a c.part (cenPart u c.part).asid (xDir w) (32 * xNlist w) true = none ∧ rangeCheck a c.part (cenPart u c.part).asid (xSide w) (xSideCap w * recBytes w) true = none ∧ rangeCheck a c.part (cenPart u c.part).asid (xDel w) (16 * xSlots w) true = none ∧ nObj c = none ∧ c.req = .port p node tag ∧ c.issuer = none) ∧
    (∃ (s : State) (u : State) (v : State) (e : Nat) (c : QCmd) (i : _) (p : _) (node : _) (tag : _), cenTake 2 e s = some (c, u) ∧ bitOf (nHandle c) 11 = u.cmp.roleB ∧ idxNum u c.part (nHandle c) = some i ∧ closeReady e s = none ∧ (idxOf u i).merge = none ∧ searchesOn u i = 0 ∧ writeLive (cenCtx u e c.part) (idxOf u i) u = (v, cOk) ∧ v.cen = u.cen ∧ nObj c = none ∧ c.req = .port p node tag ∧ c.issuer = none) ∧
    (∃ (s : State) (u : State) (e : Nat) (c : QCmd) (i : _), cenTake 2 e s = some (c, u) ∧ bitOf (nHandle c) 11 = u.cmp.roleB ∧ idxNum u c.part (nHandle c) = some i ∧ closeReady e s = none ∧ (idxOf u i).merge = none ∧ searchesOn u i ≠ 0) ∧
    (∃ (s : State) (u : State) (e : Nat) (c : QCmd) (i : _), cenTake 3 e s = some (c, u) ∧ bitOf (nHandle c) 11 = u.cmp.roleB ∧ idxNum u c.part (nHandle c) = some i ∧ ((∀ x ∈ s.cen.waiting, x.1 ≠ e)) ∧ searchRoom u e = true ∧ nInline c = true ∧ nNq c * (16 + xD (idxOf u i).words) ≤ 65536 ∧ c.words.length - 16 = ceilDiv (nNq c * (16 + xD (idxOf u i).words)) 8 ∧ rangeCheck u c.part (cenPart u c.part).asid (c.w 5) (nNq c * (32 + 16 * nK c)) true = none ∧ (idxOf u i).floor ≤ (if c.w 2 = 0 then (idxOf u i).seq else c.w 2) ∧ (if c.w 2 = 0 then (idxOf u i).seq else c.w 2) ≤ (idxOf u i).seq) ∧
    (∃ (s : State) (u : State) (e : Nat) (c : QCmd) (i : _), cenTake 3 e s = some (c, u) ∧ bitOf (nHandle c) 11 = u.cmp.roleB ∧ idxNum u c.part (nHandle c) = some i ∧ searchRoom s e = false ∧ searchRoom u e = false) ∧
    (∃ (s : State) (v : State) (w : State) (z : State) (id : Nat) (x : Srch) (y : Srch) (p : _) (node : _) (tag : _), fenced s .centroid = false ∧ s.cen.srchs = [x] ∧ x.id = id ∧ scanTurn s x = true ∧ searchRound x s = (v, cOk, y) ∧ ((∀ q ∈ y.qs, q.isOver = true)) ∧ ((∀ q ∈ x.qs, q.isOver = true ∨ q.probed = 0)) ∧ (modCStat x.cmd.part (fun r => { r with widened := satAdd 16 r.widened 0 }) (setArb (arbKey .centroid x.e) { arbOf s (arbKey .centroid x.e) with promo := (arbOf s (arbKey .centroid x.e)).promo.filter fun r => !(r.1 == x.cmd.part && r.2.1 == x.cmd.cls.code) } v) = w) ∧ writeResults y w = (z, cOk) ∧ z.cen = w.cen ∧ v.cen = s.cen ∧ (idxOf s x.idx).closing = none ∧ s.cen.waiting = [] ∧ nObj x.cmd = none ∧ x.cmd.req = .port p node tag ∧ x.cmd.issuer = none) ∧
    (∃ (s : State) (u : State) (a : State) (b : State) (v : State) (f : State) (z : State) (e : Nat) (c : QCmd) (i : _) (n : _) (d : List Byte) (cents : List Byte) (y : Idx) (p : _) (node : _) (tag : _), cenTake 4 e s = some (c, u) ∧ bitOf (nHandle c) 11 = u.cmp.roleB ∧ idxNum u c.part (nHandle c) = some i ∧ idxOf u i = y ∧ (c.w 6 = 0 ∨ y.seq + 1 = c.w 6) ∧ n = bits (c.w 2) 12 0 ∧ cenRead (cenCtx u e c.part) (c.w 4) (n * recBytes y.words) u = (a, cOk, d) ∧ (recsOf (recBytes y.words) n d).any (fun r => r.id == 2 ^ 64 - 1) = false ∧ anyMarked (cenCtx u e c.part) y.words (recsOf (recBytes y.words) n d) a = (b, cOk, false) ∧ y.tail - y.side + n ≤ xSideCap y.words ∧ cenRead (cenCtx u e c.part) (xCent y.words) (xNlist y.words * xD y.words) b = (v, cOk, cents) ∧ (putSide (cenCtx u e c.part) y.words (((recsOf (recBytes y.words) n d).zipIdx).map fun r => { r.1 with seq := y.seq + 1 + r.2, cluster := (clusterOrder y.words cents r.1.vec).headD 0 }) y.tail v = (f, cOk)) ∧ writeLive (cenCtx u e c.part) { y with seq := y.seq + n, tail := y.tail + n } f = (z, cOk) ∧ nObj c = none ∧ c.req = .port p node tag ∧ c.issuer = none) ∧
    (∃ (s : State) (u : State) (a : State) (b : State) (z : State) (e : Nat) (c : QCmd) (i : _) (y : Idx) (slot : _) (p : _) (node : _) (tag : _), cenTake 5 e s = some (c, u) ∧ bitOf (nHandle c) 11 = u.cmp.roleB ∧ idxNum u c.part (nHandle c) = some i ∧ idxOf u i = y ∧ (c.w 6 = 0 ∨ y.seq + 1 = c.w 6) ∧ findMark (cenCtx u e c.part) y.words (c.w 2) u = (a, cOk, none, some slot) ∧ 4 * (y.dels + 1) ≤ 3 * xSlots y.words ∧ cenWrite (cenCtx u e c.part) (xDel y.words + 16 * slot) (toLE 8 (c.w 2) ++ toLE 8 (y.seq + 1)) false a = (b, cOk) ∧ writeLive (cenCtx u e c.part) { y with seq := y.seq + 1, dels := y.dels + 1 } b = (z, cOk) ∧ nObj c = none ∧ c.req = .port p node tag ∧ c.issuer = none) ∧
    (∃ (s : State) (u : State) (e : Nat) (c : QCmd) (i : _), cenTake 6 e s = some (c, u) ∧ bitOf (nHandle c) 11 = u.cmp.roleB ∧ idxNum u c.part (nHandle c) = some i ∧ (idxOf u i).merge = none) ∧
    (∃ (s : State) (a : State) (b : State) (v : State) (i : Nat) (x : Idx) (j : MergeJob) (side : List VRec), idxOf s i = x ∧ x.merge = some j ∧ j.committed = false ∧ fenced s .centroid = false ∧ s.cen.srchs = [] ∧ sideRecs (cenCtx s j.cmd.id x.part) x s = (a, cOk, side) ∧ mergeAll (cenCtx s j.cmd.id x.part) x j side (List.range (xNlist x.words)) a = (b, cOk) ∧ (writeLive (cenCtx s j.cmd.id x.part) { x with mgen := j.n, floor := j.f, head := x.head + (side.filter fun r => decide (r.seq ≤ j.m)).length, merge := some { j with committed := true, firstTry := none } } b = (v, cOk))) ∧
    (∃ (s : State) (i : Nat) (j : MergeJob), (idxOf s i).merge = some j ∧ j.committed = true) ∧
    (∃ (s : State) (i : Nat), (idxOf s i).merge = none) :=
  ⟨⟨({ cenState [] [cenCmd [1, 0, 0, 0, 0, 0, 0, 0]] with mem := memStore [] 0 ((cenW ++ [0, 0, 5, 0, 2 ^ 32]).flatMap (toLE 8)), cen := { pools := [(1, { next := 4096 })] } }), _, 0, cenCmd [1, 0, 0, 0, 0, 0, 0, 0], (afterTake (cenTake 1 0 ({ cenState [] [cenCmd [1, 0, 0, 0, 0, 0, 0, 0]] with mem := memStore [] 0 ((cenW ++ [0, 0, 5, 0, 2 ^ 32]).flatMap (toLE 8)), cen := { pools := [(1, { next := 4096 })] } }))), memBytes (afterTake (cenTake 1 0 ({ cenState [] [cenCmd [1, 0, 0, 0, 0, 0, 0, 0]] with mem := memStore [] 0 ((cenW ++ [0, 0, 5, 0, 2 ^ 32]).flatMap (toLE 8)), cen := { pools := [(1, { next := 4096 })] } }))).mem 0 128, cenW ++ [0, 0, 5, 0, 2 ^ 32, 0, 0, 0, 0, 0], 3, 7, 1, taken (by decide +kernel), by decide +kernel⟩,
    ⟨cenState [(0, cenI)] [cenCmd [2, 0, 0, 0, 0, 0, 0, 0]], _, _, 0, cenCmd [2, 0, 0, 0, 0, 0, 0, 0], 0, 3, 7, 1, taken (by decide +kernel), by decide +kernel, by decide +kernel, by decide +kernel, by decide +kernel, by decide +kernel, ran (by decide +kernel), by decide +kernel⟩,
    ⟨{ cenState [(0, cenI)] [cenCmd [2, 0, 0, 0, 0, 0, 0, 0]] with cen := { idxs := [(0, cenI)], srchs := [{}] } }, _, 0, cenCmd [2, 0, 0, 0, 0, 0, 0, 0], 0, taken (by decide +kernel), by decide +kernel⟩,
    ⟨cenState [(0, cenI)] [cenCmd ([3 + 2 ^ 8, 0, 0, 0, 0, 16384, 0, 0] ++ List.replicate 8 0 ++ List.replicate 6 0)], _, 0, cenCmd ([3 + 2 ^ 8, 0, 0, 0, 0, 16384, 0, 0] ++ List.replicate 8 0 ++ List.replicate 6 0), 0, taken (by decide +kernel), by decide +kernel⟩,
    ⟨{ cenState [(0, cenI)] [cenCmd ([3 + 2 ^ 8, 0, 0, 0, 0, 16384, 0, 0] ++ List.replicate 8 0 ++ List.replicate 6 0)] with cen := { idxs := [(0, cenI)], srchs := List.replicate 8 {} } }, _, 0, cenCmd ([3 + 2 ^ 8, 0, 0, 0, 0, 16384, 0, 0] ++ List.replicate 8 0 ++ List.replicate 6 0), 0, taken (by decide +kernel), by decide +kernel⟩,
    ⟨{ cenState [(0, cenI)] [] with cen := { idxs := [(0, cenI)], srchs := [cenSrch (cenCmd ([3 + 2 ^ 8, 0, 0, 0, 0, 16384, 0, 0] ++ List.replicate 8 0 ++ List.replicate 6 0))] } }, (searchRound (cenSrch (cenCmd ([3 + 2 ^ 8, 0, 0, 0, 0, 16384, 0, 0] ++ List.replicate 8 0 ++ List.replicate 6 0))) ({ cenState [(0, cenI)] [] with cen := { idxs := [(0, cenI)], srchs := [cenSrch (cenCmd ([3 + 2 ^ 8, 0, 0, 0, 0, 16384, 0, 0] ++ List.replicate 8 0 ++ List.replicate 6 0))] } })).1, (modCStat 1 (fun r => { r with widened := satAdd 16 r.widened 0 }) (setArb (arbKey .centroid 0) { arbOf ({ cenState [(0, cenI)] [] with cen := { idxs := [(0, cenI)], srchs := [cenSrch (cenCmd ([3 + 2 ^ 8, 0, 0, 0, 0, 16384, 0, 0] ++ List.replicate 8 0 ++ List.replicate 6 0))] } }) (arbKey .centroid 0) with promo := [] } (searchRound (cenSrch (cenCmd ([3 + 2 ^ 8, 0, 0, 0, 0, 16384, 0, 0] ++ List.replicate 8 0 ++ List.replicate 6 0))) ({ cenState [(0, cenI)] [] with cen := { idxs := [(0, cenI)], srchs := [cenSrch (cenCmd ([3 + 2 ^ 8, 0, 0, 0, 0, 16384, 0, 0] ++ List.replicate 8 0 ++ List.replicate 6 0))] } })).1)), _, 0, cenSrch (cenCmd ([3 + 2 ^ 8, 0, 0, 0, 0, 16384, 0, 0] ++ List.replicate 8 0 ++ List.replicate 6 0)), (searchRound (cenSrch (cenCmd ([3 + 2 ^ 8, 0, 0, 0, 0, 16384, 0, 0] ++ List.replicate 8 0 ++ List.replicate 6 0))) ({ cenState [(0, cenI)] [] with cen := { idxs := [(0, cenI)], srchs := [cenSrch (cenCmd ([3 + 2 ^ 8, 0, 0, 0, 0, 16384, 0, 0] ++ List.replicate 8 0 ++ List.replicate 6 0))] } })).2.2, 3, 7, 1, by decide +kernel, by decide +kernel, by decide +kernel, by decide +kernel, by decide +kernel, by decide +kernel, by decide +kernel, by decide +kernel, ran (by decide +kernel), by decide +kernel⟩,
    ⟨cenState [(0, cenI)] [cenCmd [4, 0, 1, 0, 16384, 0, 0, 0]], _, (afterTake (cenTake 4 0 (cenState [(0, cenI)] [cenCmd [4, 0, 1, 0, 16384, 0, 0, 0]]))), (afterTake (cenTake 4 0 (cenState [(0, cenI)] [cenCmd [4, 0, 1, 0, 16384, 0, 0, 0]]))), (afterTake (cenTake 4 0 (cenState [(0, cenI)] [cenCmd [4, 0, 1, 0, 16384, 0, 0, 0]]))), (putSide { e := 0, part := 1 } cenW [{ recOf (List.replicate 64 0) with seq := 6, cluster := 0 }] 1 (afterTake (cenTake 4 0 (cenState [(0, cenI)] [cenCmd [4, 0, 1, 0, 16384, 0, 0, 0]])))).1, _, 0, cenCmd [4, 0, 1, 0, 16384, 0, 0, 0], 0, 1, List.replicate 64 0, List.replicate 32 0, cenI, 3, 7, 1, taken (by decide +kernel), by decide +kernel, by decide +kernel, by decide +kernel, by decide +kernel, by decide +kernel, by decide +kernel, by decide +kernel, by decide +kernel, by decide +kernel, by decide +kernel, by decide +kernel, ran (by decide +kernel), by decide +kernel⟩,
    ⟨cenState [(0, cenI)] [cenCmd [5, 0, 7, 0, 0, 0, 0, 0]], _, (afterTake (cenTake 5 0 (cenState [(0, cenI)] [cenCmd [5, 0, 7, 0, 0, 0, 0, 0]]))), _, _, 0, cenCmd [5, 0, 7, 0, 0, 0, 0, 0], 0, cenI, homeSlot cenW 7, 3, 7, 1, taken (by decide +kernel), by decide +kernel, by decide +kernel, by decide +kernel, by decide +kernel, by decide +kernel, by decide +kernel, ran (by decide +kernel), ran (by decide +kernel), by decide +kernel⟩,
    ⟨cenState [(0, cenI)] [cenCmd [6, 0, 0, 0, 0, 0, 0, 0]], _, 0, cenCmd [6, 0, 0, 0, 0, 0, 0, 0], 0, taken (by decide +kernel), by decide +kernel⟩,
    ⟨cenState [(0, { cenI with merge := some { cmd := cenCmd [6, 0, 0, 0, 0, 0, 0, 0], m := 5, f := 5, n := 1 } })] [], (sideRecs { e := 0, part := 1 } { cenI with merge := some { cmd := cenCmd [6, 0, 0, 0, 0, 0, 0, 0], m := 5, f := 5, n := 1 } } (cenState [(0, { cenI with merge := some { cmd := cenCmd [6, 0, 0, 0, 0, 0, 0, 0], m := 5, f := 5, n := 1 } })] [])).1, _, (writeLive { e := 0, part := 1 } { cenI with mgen := 1, floor := 5, head := 1, merge := some { cmd := cenCmd [6, 0, 0, 0, 0, 0, 0, 0], m := 5, f := 5, n := 1, committed := true } } (mergeAll { e := 0, part := 1 } { cenI with merge := some { cmd := cenCmd [6, 0, 0, 0, 0, 0, 0, 0], m := 5, f := 5, n := 1 } } { cmd := cenCmd [6, 0, 0, 0, 0, 0, 0, 0], m := 5, f := 5, n := 1 } (sideRecs { e := 0, part := 1 } { cenI with merge := some { cmd := cenCmd [6, 0, 0, 0, 0, 0, 0, 0], m := 5, f := 5, n := 1 } } (cenState [(0, { cenI with merge := some { cmd := cenCmd [6, 0, 0, 0, 0, 0, 0, 0], m := 5, f := 5, n := 1 } })] [])).2.2 [0] (sideRecs { e := 0, part := 1 } { cenI with merge := some { cmd := cenCmd [6, 0, 0, 0, 0, 0, 0, 0], m := 5, f := 5, n := 1 } } (cenState [(0, { cenI with merge := some { cmd := cenCmd [6, 0, 0, 0, 0, 0, 0, 0], m := 5, f := 5, n := 1 } })] [])).1).1).1, 0, { cenI with merge := some { cmd := cenCmd [6, 0, 0, 0, 0, 0, 0, 0], m := 5, f := 5, n := 1 } }, { cmd := cenCmd [6, 0, 0, 0, 0, 0, 0, 0], m := 5, f := 5, n := 1 }, (sideRecs { e := 0, part := 1 } { cenI with merge := some { cmd := cenCmd [6, 0, 0, 0, 0, 0, 0, 0], m := 5, f := 5, n := 1 } } (cenState [(0, { cenI with merge := some { cmd := cenCmd [6, 0, 0, 0, 0, 0, 0, 0], m := 5, f := 5, n := 1 } })] [])).2.2, by decide +kernel, by decide +kernel, by decide +kernel, by decide +kernel, by decide +kernel, by decide +kernel, ran (by decide +kernel), by decide +kernel⟩,
    ⟨cenState [(0, { cenI with merge := some { cmd := cenCmd [6, 0, 0, 0, 0, 0, 0, 0], m := 5, f := 5, n := 1, committed := true } })] [], 0, { cmd := cenCmd [6, 0, 0, 0, 0, 0, 0, 0], m := 5, f := 5, n := 1, committed := true }, by decide +kernel⟩,
    ⟨cenState [(0, cenI)] [], 0, by decide +kernel⟩⟩

theorem test_linkGroups_premises :
    (∃ (s : State) (p : Nat) (x : Port) (g : GroupRx), port s p = x ∧ (x.mode = .xcl ∨ x.mode = .pair) ∧ x.st = .up ∧ g.kind = .data ∧ g.crcOk = true ∧ g.badLanes = [] ∧ x.rxNext = none ∧ g.ctrLow = x.rxCtr % 4294967296 ∧ g.tagOk = true ∧ g.lenBad = false ∧ g.seq = x.rxSeq ∧ g.nak = false ∧ g.msg = none ∧ x.unacked = []) ∧
    (∃ (s : State) (p : Nat) (x : Port) (g : GroupRx), port s p = x ∧ (x.mode = .xcl ∨ x.mode = .pair) ∧ x.st = .up ∧ g.kind ≠ .other ∧ g.crcOk = false ∧ g.badLanes = []) ∧
    (∃ (s : State) (p : Nat) (x : Port) (g : GroupRx), port s p = x ∧ (x.mode = .xcl ∨ x.mode = .pair) ∧ x.st = .up ∧ g.kind = .data ∧ g.crcOk = true ∧ g.badLanes = [] ∧ x.rxNext = none ∧ g.ctrLow ≠ x.rxCtr % 4294967296) ∧
    (∃ (s : State) (p : Nat) (x : Port) (g : GroupRx), port s p = x ∧ x.mode = .xcl ∧ x.coherent = false ∧ x.st = .up ∧ g.kind = .data ∧ g.crcOk = true ∧ g.badLanes = [] ∧ x.rxNext = none ∧ g.ctrLow = x.rxCtr % 4294967296 ∧ g.tagOk = false ∧ isPair p = false ∧ agreeOf s p = none ∧ ((∀ k ∈ s.arc.packets, k.out ≠ p))) ∧
    (∃ (s : State) (p : Nat) (x : Port), port s p = x ∧ x.mode = .xcl ∧ x.coherent = false ∧ (x.st = .up ∨ x.st = .stopped) ∧ isPair p = false ∧ agreeOf s p = none ∧ ((∀ k ∈ s.arc.packets, k.out ≠ p))) ∧
    (∃ (s : State) (p : Nat) (x : Port) (k : Packet) (a : _) (node : _) (tag : _), port s p = x ∧ x.mode = .xcl ∧ x.coherent = false ∧ x.st = .up ∧ isPair p = false ∧ agreeOf s p = none ∧ s.arc.packets = [k] ∧ k.out = p ∧ k.posted = false ∧ k.who = .port a node tag) ∧
    (∃ (s : State) (p : Nat), (port s p).st = .refused) ∧
    (∃ (s : State) (p : Nat) (x : Port), port s p = x ∧ x.mode = .xcl ∧ x.st = .up ∧ isPair p = false ∧ 2 ^ 44 ≤ txCtrOf s x ∧ ((∀ k ∈ s.arc.packets, k.out ≠ p))) ∧
    (∃ (s : State) (p : Nat) (x : Port), port s p = x ∧ (x.mode = .xcl ∨ x.mode = .pair) ∧ x.st = .up ∧ x.unacked ≠ [] ∧ ((∀ u ∈ x.unacked, u.tries < 8)) ∧ x.progress + s.edg.replayTmo ≤ s.ft) ∧
    (∃ (s : State) (p : Nat) (x : Port), port s p = x ∧ x.mode = .xcl ∧ x.st = .up ∧ x.unacked ≠ [] ∧ (∃ u ∈ x.unacked, 8 ≤ u.tries) ∧ x.progress + s.edg.replayTmo ≤ s.ft) ∧
    (∃ (s : State) (p : Nat) (x : Port), port s p = x ∧ (x.mode = .xcl ∨ x.mode = .pair) ∧ x.st = .up) ∧
    (∃ (s : State) (p : Nat) (x : Port), port s p = x ∧ x.mode = .xcl ∧ isPair p = false ∧ x.st = .keying ∧ x.keyed = true) ∧
    (∃ (s : State) (p : Nat) (mask : Nat) (time : Nat) (i : _), (port s p).mode = .xcl ∧ (port s p).st = .up ∧ i < 5 ∧ bitOf mask i = true ∧ time ≠ 0) :=
  ⟨⟨upPort {}, 3, lnkPort {}, {}, by decide +kernel⟩,
    ⟨upPort {}, 3, lnkPort {}, { crcOk := false }, by decide +kernel⟩,
    ⟨upPort {}, 3, lnkPort {}, { ctrLow := 9 }, by decide +kernel⟩,
    ⟨upPort { authRun := 7 }, 3, lnkPort { authRun := 7 }, { tagOk := false }, by decide +kernel⟩,
    ⟨upPort {}, 3, lnkPort {}, by decide +kernel⟩,
    ⟨{ upPort {} with arc := { packets := [{ out := 3, who := .port 4 7 1, len := 64 }] } }, 3, lnkPort {}, { out := 3, who := .port 4 7 1, len := 64 }, 4, 7, 1, by decide +kernel⟩,
    ⟨{ upPort {} with edg := { ports := [(3, { st := .refused })] } }, 3, by decide +kernel⟩,
    ⟨upPort { txCtr := 2 ^ 44 }, 3, lnkPort { txCtr := 2 ^ 44 }, by decide +kernel⟩,
    ⟨{ upPort { unacked := [{}] } with ft := 4000 }, 3, lnkPort { unacked := [{}] }, by decide +kernel⟩,
    ⟨{ upPort { unacked := [{ tries := 8 }] } with ft := 4000 }, 3, lnkPort { unacked := [{ tries := 8 }] }, by decide +kernel⟩,
    ⟨upPort {}, 3, lnkPort {}, by decide +kernel⟩,
    ⟨portIn { lnkPort {} with st := .keying, keyed := true }, 3, { lnkPort {} with st := .keying, keyed := true }, by decide +kernel⟩,
    ⟨upPort {}, 3, 2, 9, 1, by decide +kernel⟩⟩

theorem test_linkBringup_premises :
    (∃ (s : State) (p : Nat) (x : Port), port s p = x ∧ x.mode = .xcl ∧ x.peer.isSome = true ∧ x.st = .down ∧ x.gang = none ∧ s.cmp.boot = .running ∧ canTrain s p = true) ∧
    (∃ (s : State) (p : Nat) (x : Port), port s p = x ∧ x.mode = .eth ∧ x.st = .down ∧ x.gang = none ∧ s.cmp.boot = .running ∧ canTrain s p = true) ∧
    (∃ (s : State) (p : Nat) (x : Port), port s p = x ∧ x.mode = .xcl ∧ x.peer = none) ∧
    (∃ (s : State) (p : Nat) (x : Port) (r : _) (tag : _), port s p = x ∧ x.mode = .xcl ∧ isPair p = false ∧ x.st = .training ∧ agreeOf s p = none ∧ x.peer = some tag ∧ recOfTag s tag = some r ∧ recValue s r < 0xFFFFFFFF ∧ ((∀ a ∈ s.edg.agrees, a.tag ≠ tag))) ∧
    (∃ (version : Nat), version ≠ 1) ∧
    (∃ (s : State) (p : Nat) (x : Port) (r : _) (tag : _), port s p = x ∧ x.mode = .xcl ∧ isPair p = false ∧ x.st = .up ∧ 2 ^ 40 ≤ txCtrOf s x ∧ agreeOf s p = none ∧ x.peer = some tag ∧ recOfTag s tag = some r ∧ recValue s r < 0xFFFFFFFF ∧ ((∀ a ∈ s.edg.agrees, a.tag ≠ tag))) ∧
    (∃ (s : State) (p : Nat) (r : _) (tag : _), (port s p).mode = .xcl ∧ isPair p = false ∧ (port s p).st = .up ∧ 2 ^ 40 ≤ txCtrOf s (port s p) ∧ agreeOf s p = none ∧ (port s p).peer = some tag ∧ recOfTag s tag = some r ∧ 0xFFFFFFFF ≤ recValue s r ∧ ((∀ a ∈ s.edg.agrees, a.tag ≠ tag))) ∧
    (∃ (s : State) (p : Nat) (e : Nat) (a : Agree) (r : _), ((port s p).st = .keying ∨ (port s p).st = .up) ∧ e ≠ 0 ∧ agreeOf s p = some a ∧ a.peer = none ∧ a.begun = true ∧ s.per.commits = [] ∧ recOfTag s a.tag = some r) ∧
    (∃ (s : State) (p : Nat), ((port s p).st = .keying ∨ (port s p).st = .up)) ∧
    (∃ (s : State) (p : Nat) (a : Agree), agreeOf s p = some a ∧ a.begun = true ∧ a.peer = none ∧ a.since + 1000000 ≤ s.ft) ∧
    (∃ (s : State) (p : Nat) (a : Agree) (e : Nat), s.edg.agrees = [a] ∧ a.port = p ∧ a.rekey = false ∧ a.epoch = some e ∧ a.sent = true) ∧
    (∃ (s : State) (p : Nat) (a : Agree) (e : Nat), s.edg.agrees = [a] ∧ a.port = p ∧ a.rekey = true ∧ a.epoch = some e ∧ a.sent = true ∧ (port s p).st = .up) ∧
    (∃ (s : State) (p : Nat) (a : Agree) (e : _), agreeOf s p = some a ∧ a.epoch = some e ∧ a.sent = false) ∧
    (∃ (s : State) (p : Nat) (x : Port), port s p = x ∧ x.mode = .xcl ∧ x.st = .training ∧ x.since + 1000000 < s.ft ∧ agreeOf s p = none) ∧
    (∃ (s : State) (p : Nat) (x : Port), port s p = x ∧ x.mode = .xcl ∧ x.st = .down ∧ x.since + 51000000 < s.ft) ∧
    (∃ (s : State) (p : Nat) (a : _), (port s p).backoff = some a ∧ a ≤ s.ft) ∧
    (∃ (s : State) (p : Nat) (a : _), (port s p).backoff = some a ∧ s.ft < a) :=
  ⟨⟨{ portIn { lnkPort {} with st := .down } with pins := { porstN := true, lsEn := [0], lsPres := [0] } }, 3, { lnkPort {} with st := .down }, by decide +kernel⟩,
    ⟨{ portIn { lnkPort {} with st := .down, mode := .eth } with pins := { porstN := true, lsEn := [0], lsPres := [0] } }, 3, { lnkPort {} with st := .down, mode := .eth }, by decide +kernel⟩,
    ⟨portIn { lnkPort {} with st := .down, peer := none }, 3, { lnkPort {} with st := .down, peer := none }, by decide +kernel⟩,
    ⟨portIn { lnkPort {} with st := .training }, 3, { lnkPort {} with st := .training }, 1, 77, by decide +kernel⟩,
    ⟨2, by decide +kernel⟩,
    ⟨upPort { txCtr := 2 ^ 40 }, 3, lnkPort { txCtr := 2 ^ 40 }, 1, 77, by decide +kernel⟩,
    ⟨{ upPort { txCtr := 2 ^ 40 } with per := { store := [(1, { s0 := { seq := 1, value := 0xFFFFFFFF, tag := 77, valid := true, zero := false } })] } }, 3, 1, 77, by decide +kernel⟩,
    ⟨agreeIn { port := 3, tag := 77, begun := true, own := 5 }, 3, 9, { port := 3, tag := 77, begun := true, own := 5 }, 1, by decide +kernel⟩,
    ⟨upPort {}, 3, by decide +kernel⟩,
    ⟨{ agreeIn { port := 3, tag := 77, begun := true, own := 5 } with ft := 1000000 }, 3, { port := 3, tag := 77, begun := true, own := 5 }, by decide +kernel⟩,
    ⟨agreeIn { port := 3, tag := 77, begun := true, epoch := some 9, sent := true }, 3, { port := 3, tag := 77, begun := true, epoch := some 9, sent := true }, 9, by decide +kernel⟩,
    ⟨agreeIn { port := 3, tag := 77, rekey := true, begun := true, epoch := some 9, sent := true }, 3, { port := 3, tag := 77, rekey := true, begun := true, epoch := some 9, sent := true }, 9, by decide +kernel⟩,
    ⟨agreeIn { port := 3, tag := 77, begun := true, epoch := some 9 }, 3, { port := 3, tag := 77, begun := true, epoch := some 9 }, 9, by decide +kernel⟩,
    ⟨{ portIn { lnkPort {} with st := .training } with ft := 1000001 }, 3, { lnkPort {} with st := .training }, by decide +kernel⟩,
    ⟨{ portIn { lnkPort {} with st := .down } with ft := 51000001 }, 3, { lnkPort {} with st := .down }, by decide +kernel⟩,
    ⟨upPort { backoff := some 0 }, 3, 0, by decide +kernel⟩,
    ⟨upPort { backoff := some 9 }, 3, 9, by decide +kernel⟩⟩

theorem test_laneSparing_premises :
    (∃ (s : State) (p : Nat) (x : Port) (l : _) (rest : List Nat), port s p = x ∧ x.st = .up ∧ lanesWith x (fun y => y.tx == .spare) = l :: rest) ∧
    (∃ (s : State) (p : Nat) (x : Port) (pos : Nat) (l : _) (rest : List Nat), port s p = x ∧ x.st = .up ∧ lanesWith x (fun y => y.tx == .shadow && y.txPos == pos) = l :: rest) ∧
    (∃ (s : State) (p : Nat) (x : Port) (pos : Nat) (l : _) (k : _) (rest : List Nat), port s p = x ∧ x.st = .up ∧ lanesWith x (fun y => y.tx == .shadow && y.txPos == pos) = l :: rest ∧ txAtPos x pos = some k) ∧
    (∃ (s : State) (p : Nat) (x : Port) (m : LaneMsg), port s p = x ∧ x.st = .up ∧ m.width ≤ 2 ∧ m.map.length = positions x m.width) ∧
    (∃ (s : State) (p : Nat) (x : Port) (r : LaneReq), port s p = x ∧ x.laneReq = some r ∧ (r.action = 1 ∨ r.action = 2)) ∧
    (∃ (s : State) (p : Nat) (x : Port) (r : LaneReq), port s p = x ∧ x.laneReq = some r ∧ r.action = 3) ∧
    (∃ (s : State) (p : Nat) (x : Port) (r : LaneReq), port s p = x ∧ x.laneReq = some r ∧ r.action = 4) ∧
    (∃ (s : State) (p : Nat) (l : Nat), l < (port s p).lanes.length) ∧
    (∃ (s : State) (p : Nat) (x : Port) (l : Nat) (sp : _) (ser : Bool) (y : Lane), port s p = x ∧ x.mode = .xcl ∧ x.cal = none ∧ l < x.lanes.length ∧ rollLane s.ft (laneOf x l) = y ∧ 3 ≤ y.windows ∧ y.rx = .active ∧ rxSpare (setLane l { y with serHigh := ser } x) = some sp) ∧
    (∃ (s : State) (p : Nat) (x : Port) (l : Nat) (y : Lane), port s p = x ∧ l < x.lanes.length ∧ rollLane s.ft (laneOf x l) = y ∧ y.windows < 3 ∧ ((y.lol.filter fun a => decide (s.ft < a + 10000000000)).length < 2)) ∧
    (∃ (s : State) (p : Nat) (x : Port) (l : Nat), port s p = x ∧ x.mode = .eth ∧ l < x.lanes.length ∧ (2 ≤ ((laneOf x l).lol.filter fun a => decide (s.ft < a + 10000000000)).length) ∧ (rollLane s.ft (laneOf x l)).windows < 3 ∧ (laneOf x l).rx ≠ .retired ∧ x.st = .down) ∧
    (∃ (s : State) (p : Nat) (x : Port) (c : Cal), port s p = x ∧ x.cal = some c ∧ c.phase = .shadow ∧ c.retire = none) ∧
    (∃ (s : State) (p : Nat) (x : Port) (c : Cal) (k : _), port s p = x ∧ x.cal = some c ∧ c.phase = .shadow ∧ c.retire = some k ∧ c.next = none) ∧
    (∃ (s : State) (p : Nat) (x : Port) (c : Cal), port s p = x ∧ x.cal = some c ∧ c.phase = .tuning) ∧
    (∃ (s : State) (p : Nat) (x : Port) (c : Cal), port s p = x ∧ x.cal = some c ∧ c.phase = .verify) ∧
    (∃ (s : State) (p : Nat) (x : Port) (c : Cal), port s p = x ∧ x.cal = some c ∧ (c.phase = .verify ∨ c.phase = .restored) ∧ c.next = none) :=
  ⟨⟨upPort {}, 3, lnkPort {}, 4, [], by decide +kernel⟩,
    ⟨portIn shadowPort, 3, shadowPort, 1, 4, [], by decide +kernel⟩,
    ⟨portIn shadowPort, 3, shadowPort, 1, 4, 1, [], by decide +kernel⟩,
    ⟨upPort {}, 3, lnkPort {}, { width := 1, map := [0, 1] }, by decide +kernel⟩,
    ⟨upPort { laneReq := some { action := 2, msg := { pos := 1 } } }, 3, lnkPort { laneReq := some { action := 2, msg := { pos := 1 } } }, { action := 2, msg := { pos := 1 } }, by decide +kernel⟩,
    ⟨upPort { laneReq := some { action := 3, msg := { pos := 1 }, lane := 1, cause := 1 } }, 3, lnkPort { laneReq := some { action := 3, msg := { pos := 1 }, lane := 1, cause := 1 } }, { action := 3, msg := { pos := 1 }, lane := 1, cause := 1 }, by decide +kernel⟩,
    ⟨upPort { laneReq := some { action := 4, msg := { width := 1, map := [0, 2] }, lane := 1, cause := 1 } }, 3, lnkPort { laneReq := some { action := 4, msg := { width := 1, map := [0, 2] }, lane := 1, cause := 1 } }, { action := 4, msg := { width := 1, map := [0, 2] }, lane := 1, cause := 1 }, by decide +kernel⟩,
    ⟨upPort {}, 3, 4, by decide +kernel⟩,
    ⟨portIn worn, 3, worn, 1, 4, false, { rxPos := 1, txPos := 1, windows := 3 }, by decide +kernel⟩,
    ⟨upPort {}, 3, lnkPort {}, 1, { rxPos := 1, txPos := 1 }, by decide +kernel⟩,
    ⟨portIn { mode := .eth, lanes := [{ lol := [0, 0] }] }, 3, { mode := .eth, lanes := [{ lol := [0, 0] }] }, 0, by decide +kernel⟩,
    ⟨upPort { cal := some { pos := 1, lane := 1, spare := 4 } }, 3, lnkPort { cal := some { pos := 1, lane := 1, spare := 4 } }, { pos := 1, lane := 1, spare := 4 }, by decide +kernel⟩,
    ⟨upPort { cal := some { pos := 1, lane := 1, spare := 4, retire := some 1 } }, 3, lnkPort { cal := some { pos := 1, lane := 1, spare := 4, retire := some 1 } }, { pos := 1, lane := 1, spare := 4, retire := some 1 }, 1, by decide +kernel⟩,
    ⟨upPort { cal := some { phase := .tuning } }, 3, lnkPort { cal := some { phase := .tuning } }, { phase := .tuning }, by decide +kernel⟩,
    ⟨upPort { cal := some { phase := .verify } }, 3, lnkPort { cal := some { phase := .verify } }, { phase := .verify }, by decide +kernel⟩,
    ⟨upPort { cal := some { pos := 1, lane := 1, spare := 4, phase := .verify } }, 3, lnkPort { cal := some { pos := 1, lane := 1, spare := 4, phase := .verify } }, { pos := 1, lane := 1, spare := 4, phase := .verify }, by decide +kernel⟩⟩

theorem test_pairEvents_premises :
    (∃ (s : State), s.pair.linkUp = true ∧ pairSilent s = true ∧ running s = true ∧ s.pair.st = .paired ∧ s.pair.partnerRunning = true ∧ s.pair.aliveInDeb = true ∧ s.vtx.st ≠ .up ∧ s.orb.fwd = []) ∧
    (∃ (s : State), s.pair.linkUp = true ∧ pairSilent s = true ∧ running s = true ∧ s.pair.st = .paired ∧ s.pair.partnerRunning = true ∧ s.pair.aliveInDeb = true ∧ s.vtx.st = .up) ∧
    (∃ (s : State), pairSilent s = false) ∧
    (∃ (s : State), s.pair.linkUp = false ∧ pairUps s ≠ [] ∧ s.pair.st = .linkLost ∧ s.pair.partnerRunning = true) ∧
    (∃ (s : State), pairUps s ≠ [] ∧ running s = true ∧ s.pair.st ≠ .takeover ∧ s.pair.joinStep = 0) ∧
    (∃ (s : State), pairUps s ≠ [] ∧ running s = true ∧ s.pair.st ≠ .takeover) ∧
    (∃ (s : State), s.pair.st = .takeover) ∧
    (∃ (s : State) (id : Nat) (m : Mirror) (n : _) (x : Snapshot), s.pair.waits = [(id, m, .commit n x.step)] ∧ (dom s n).pendSnaps = [x]) ∧
    (∃ (s : State), s.pins.porstN = true) ∧
    (∃ (s : State), s.pair.aliveIn = false ∧ s.pair.aliveInDeb = true ∧ s.pair.aliveChange + max 1 s.pair.debounceUs * 1000 ≤ s.ft ∧ linkDown s = false) ∧
    (∃ (s : State), s.pair.aliveIn = false ∧ s.pair.aliveInDeb = true ∧ s.pair.aliveChange + max 1 s.pair.debounceUs * 1000 ≤ s.ft ∧ running s = true ∧ linkDown s = true ∧ s.pair.admitted ≠ 0) ∧
    (∃ (s : State), s.pair.aliveIn = true) ∧
    (∃ (s : State), s.pair.aliveIn = false ∧ s.pair.linkUp = true ∧ pairUps s ≠ [] ∧ s.pair.aliveChange + 1000000 < s.ft ∧ s.pair.mismatch = false) ∧
    (∃ (s : State) (k : Nat) (roles : Nat) (v : Nat), Admits s k roles .admin ∧ bitOf v 32 = false) ∧
    (∃ (s : State) (k : Nat) (roles : Nat) (v : Nat), Admits s k roles .admin ∧ bitOf v 32 = true ∧ linkDown s = false) ∧
    (∃ (s : State) (k : Nat) (roles : Nat) (v : Nat), Admits s k roles .admin ∧ bitOf v 32 = true ∧ running s = true ∧ linkDown s = true ∧ s.pair.joinStep = 0 ∧ s.pair.admitted = 0) ∧
    (∃ (s : State), running s = true ∧ s.cmp.roleB = true ∧ s.pair.st = .linkLost ∧ s.pair.aliveInDeb = true ∧ s.pair.lostFt + max 1 s.pair.yieldMs * 1000000 ≤ s.ft) ∧
    (∃ (s : State), s.cmp.roleB = false) ∧
    (∃ (s : State), s.pair.st = .takeover ∧ s.vtx.st = .up ∧ ((∀ e ∈ s.mer.doms, e.2.st ≠ .restarting)) ∧ s.edg.withheld = []) ∧
    (∃ (s : State) (n : Nat), running s = true ∧ (s.pair.st = .joining ∨ s.pair.st = .admitting) ∧ s.pair.joinStep = 0 ∧ s.pair.partnerRunning = true ∧ s.pair.linkUp = true ∧ ((∀ e ∈ s.pair.handback, e.1 ≠ n)) ∧ toHandBack s n = []) ∧
    (∃ (s : State) (n : Nat), admitTurn s n = true ∧ 3 ≤ s.pair.joinStep ∧ s.edg.withheld = [] ∧ (∃ r ∈ s.cmp.active.parts, r.part ≠ n ∧ bitOf s.pair.admitted r.part = false)) ∧
    (∃ (s : State) (n : Nat), admitTurn s n = true ∧ 3 ≤ s.pair.joinStep ∧ s.edg.withheld = [] ∧ ((∀ r ∈ s.cmp.active.parts, r.part = n ∨ bitOf s.pair.admitted r.part = true))) ∧
    (∃ (s : State) (n : Nat), admitTurn s n = true ∧ s.pair.joinStep < 3 ∧ admitBoundary s n = false) :=
  ⟨⟨{ pairUp with vtx := { st := .down } }, by decide +kernel⟩,
    ⟨pairUp, by decide +kernel⟩,
    ⟨{ pairUp with edg := { ports := [(256, { mode := .pair, st := .up, lastGood := 9 })] } }, by decide +kernel⟩,
    ⟨{ pairUp with pair := { st := .linkLost, partnerRunning := true, waits := [(3, .ggen 1 2, .none)] } }, by decide +kernel⟩,
    ⟨pairUp, by decide +kernel⟩,
    ⟨pairUp, by decide +kernel⟩,
    ⟨{ base with pair := { st := .takeover } }, by decide +kernel⟩,
    ⟨{ pairUp with pair := { st := .paired, partnerRunning := true, linkUp := true, waits := [(3, .ggen 1 2, .commit 1 4)] }, mer := { doms := [(1, { pendSnaps := [{ step := 4 }] })] } }, 3, .ggen 1 2, 1, { step := 4 }, by decide +kernel⟩,
    ⟨base, by decide +kernel⟩,
    ⟨{ base with pair := { aliveInDeb := true }, ft := 10000 }, by decide +kernel⟩,
    ⟨{ pairUp with pair := { st := .linkLost, partnerRunning := true, aliveInDeb := true, admitted := 2 }, ft := 10000 }, by decide +kernel⟩,
    ⟨{ base with pair := { aliveIn := true } }, by decide +kernel⟩,
    ⟨{ pairUp with ft := 1000001 }, by decide +kernel⟩,
    ⟨base, 0, 4, 5, by decide +kernel⟩,
    ⟨base, 0, 4, 2 ^ 32, by decide +kernel⟩,
    ⟨{ pairUp with pair := { st := .linkLost, partnerRunning := true } }, 0, 4, 2 ^ 32, by decide +kernel⟩,
    ⟨{ pairUp with pair := { st := .linkLost, partnerRunning := true, aliveInDeb := true }, cmp := { boot := .running, roleB := true }, ft := 200000000 }, by decide +kernel⟩,
    ⟨base, by decide +kernel⟩,
    ⟨{ base with pair := { st := .takeover } }, by decide +kernel⟩,
    ⟨{ base with pair := { st := .joining, partnerRunning := true, linkUp := true } }, 1, by decide +kernel⟩,
    ⟨{ base with pair := { st := .joining, partnerRunning := true, linkUp := true, joinStep := 4 }, cmp := { boot := .running, active := { parts := [{ part := 1 }, { part := 2 }] } } }, 1, by decide +kernel⟩,
    ⟨{ base with pair := { st := .admitting, partnerRunning := true, linkUp := true, joinStep := 4, admitted := 2 }, cmp := { boot := .running, active := { parts := [{ part := 1 }, { part := 2 }] } } }, 2, by decide +kernel⟩,
    ⟨{ base with pair := { st := .joining, partnerRunning := true, linkUp := true }, cmp := { boot := .running, active := { parts := [{ part := 1 }] } } }, 1, by decide +kernel⟩⟩

theorem test_networkEvents_premises :
    (∃ (s : State) (p : Nat) (mac : Nat) (vlan : Option Nat) (data : List Byte) (n : _) (q : _), (port s p).mode = .eth ∧ (port s p).st = .up ∧ s.cmp.active.ethMacs.contains mac = false ∧ (port s p).part = some n ∧ ethRoute s n mac vlan = some q ∧ (port s q).mode = .xcl ∧ frameLenOk data = true) ∧
    (∃ (s : State) (p : Nat) (mac : Nat) (vlan : Option Nat) (n : _), (port s p).mode = .eth ∧ (port s p).st = .up ∧ s.cmp.active.ethMacs.contains mac = false ∧ (port s p).part = some n ∧ ethRoute s n mac vlan = none) ∧
    (∃ (s : State) (p : Nat) (cls : Nat) (mac : Nat) (vlan : Option Nat) (data : List Byte) (n : _) (q : _), (port s p).mode = .xcl ∧ (port s p).st = .up ∧ cls < 5 ∧ frameLenOk data = true ∧ (port s p).part = some n ∧ ethRoute s n mac vlan = some q) ∧
    (∃ (s : State) (p : Nat) (cls : Nat) (data : List Byte), (port s p).mode = .xcl ∧ (port s p).st = .up ∧ (5 ≤ cls ∨ frameLenOk data = false)) ∧
    (∃ (s : State) (u : State) (v : State) (q : Nat) (psn : Nat) (off : Nat) (len : Nat) (rkey : Nat) (c : QpCfg) (k : Cpl) (ext : List Byte), qpCfg s q = some c ∧ (qpOf s q).st = .rts ∧ (port s c.port).st = .up ∧ psn = (qpOf s q).expPsn ∧ windowBad s c off len rkey = false ∧ modQp q (fun y => { y with expPsn := (psn + psnCount (some c) len) % 16777216 }) s = u ∧ engineReadAs 0 c.part c.asid (c.base + off) len ext u = (v, k) ∧ k.status = .ok) ∧
    (∃ (s : State) (q : Nat) (psn : Nat) (off : Nat) (len : Nat) (rkey : Nat) (c : QpCfg), qpCfg s q = some c ∧ (qpOf s q).st = .rts ∧ (port s c.port).st = .up ∧ psn = (qpOf s q).expPsn ∧ windowBad s c off len rkey = true) ∧
    (∃ (s : State) (u : State) (v : State) (q : Nat) (psn : Nat) (off : Nat) (rkey : Nat) (c : QpCfg) (data : List Byte), qpCfg s q = some c ∧ c.window = true ∧ (qpOf s q).st = .rts ∧ (port s c.port).st = .up ∧ psn = (qpOf s q).expPsn ∧ windowBad s c off data.length rkey = false ∧ modQp q (fun y => { y with expPsn := (psn + psnCount (some c) data.length) % 16777216 }) s = u ∧ engineWriteAs 0 c.part c.asid (c.base + off) data false u = (v, cOk)) ∧
    (∃ (s : State) (q : Nat) (psn : Nat) (off : Nat) (rkey : Nat) (c : QpCfg) (data : List Byte), qpCfg s q = some c ∧ c.window = true ∧ (qpOf s q).st = .rts ∧ (port s c.port).st = .up ∧ psn = (qpOf s q).expPsn ∧ windowBad s c off data.length rkey = true) ∧
    (∃ (s : State) (v : State) (q : Nat) (psn : Nat) (blk : Nat) (b : Block) (queue : Nat) (c : QpCfg) (words : List Nat) (k : Option Cpl), qpCfg s q = some c ∧ c.window = true ∧ (qpOf s q).st = .rts ∧ (port s c.port).st = .up ∧ psn = (qpOf s q).expPsn ∧ cmdBlock blk = some b ∧ submitTo b queue { part := c.part, asid := c.asid, words := words, req := .roce q psn } (send .roceAck q [psn] (modQp q (fun y => { y with expPsn := (psn + psnCount (some c) (16 + 8 * words.length)) % 16777216 }) s)) = (v, k)) ∧
    (∃ (s : State) (q : Nat) (psn : Nat), (qpOf s q).st = .rts ∧ (qpOf s q).unacked.contains psn = true) ∧
    (∃ (s : State) (q : Nat) (k : _), (qpOf s q).st = .rts ∧ 2 ≤ k) ∧
    (∃ (s : State) (q : Nat) (c : QpCfg), qpCfg s q = some c ∧ (qpOf s q).st = .rts ∧ (qpOf s q).unacked ≠ [] ∧ (qpOf s q).lastAck + 4096 * 2 ^ c.ackTmo ≤ s.ft ∧ (qpOf s q).tries < 7) ∧
    (∃ (s : State) (q : Nat) (c : QpCfg), qpCfg s q = some c ∧ (qpOf s q).st = .rts ∧ (qpOf s q).unacked ≠ [] ∧ (qpOf s q).lastAck + 4096 * 2 ^ c.ackTmo ≤ s.ft ∧ 7 ≤ (qpOf s q).tries) ∧
    (∃ (s : State) (q : Nat), (qpOf s q).st = .rts) ∧
    (∃ (s : State) (q : Nat), (qpOf s q).rate < 1000000 ∧ (qpOf s q).rateAt + 55000 ≤ s.ft) ∧
    (∃ (s : State) (v : State) (p : Nat) (node : Nat) (tag : Nat) (cls : Nat) (asid : Nat) (blk : Nat) (b : Block) (queue : Nat) (words : List Nat) (n : _) (k : Option Cpl), (port s p).mode = .xcl ∧ cls < 5 ∧ (port s p).part = some n ∧ cmdBlock blk = some b ∧ submitTo b queue { part := n, asid := asid, words := words, req := .port p node tag } s = (v, k)) ∧
    (∃ (s : State) (p : Nat) (cls : Nat) (words : List Nat) (n : Nat) (h : _), (port s p).mode = .xcl ∧ cls < 5 ∧ (port s p).part = some n ∧ scrubFenced s n = false ∧ fenced s .apex = false ∧ words = 3 :: h :: List.replicate 14 0 ∧ bits h 63 24 = 0 ∧ (queueOf s .apex n).length < 64) ∧
    (∃ (s : State) (p : Nat) (cls : Nat), (port s p).mode = .xcl ∧ 5 ≤ cls) ∧
    (∃ (s : State) (r : MemReq) (a : _), s.loc.reqs = [r] ∧ r.retryAt = some a ∧ a ≤ s.ft) ∧
    (∃ (s : State) (x : VTxn) (a : _), s.vtx.txns = [x] ∧ x.retryAt = some a ∧ a ≤ s.ft) ∧
    (∃ (s : State) (q : _) (c : QCmd) (a : _) (p : _) (node : _) (tag : _), s.orb.tries = [(q, c, a)] ∧ a + 20000 ≤ s.ft ∧ queueOf s .orbit q = [c] ∧ sessNum s c.part (oHandle c) = none ∧ oObj c = none ∧ c.req = .port p node tag ∧ c.issuer = none) ∧
    (∃ (s : State) (q : _) (c : QCmd) (a : _) (p : _) (node : _) (tag : _), s.apx.tries = [(q, a)] ∧ a + 20000 ≤ s.ft ∧ queueOf s .apex q = [c] ∧ c.req = .port p node tag ∧ c.issuer = none) :=
  ⟨⟨netState, 5, 9, none, List.replicate 64 0, 1, 3, by decide +kernel⟩,
    ⟨netState, 5, 8, none, 1, by decide +kernel⟩,
    ⟨netState, 3, 0, 9, none, List.replicate 64 0, 1, 3, by decide +kernel⟩,
    ⟨netState, 3, 5, [], by decide +kernel⟩,
    ⟨netState, modQp 2 (fun y => { y with expPsn := 1 }) netState, modQp 2 (fun y => { y with expPsn := 1 }) netState, 2, 0, 0, 8, 6, netQp, cData (List.replicate 8 0), [], by decide +kernel⟩,
    ⟨netState, 2, 0, 0, 8, 5, netQp, by decide +kernel⟩,
    ⟨netState, modQp 2 (fun y => { y with expPsn := 1 }) netState, _, 2, 0, 0, 6, netQp, List.replicate 8 7, by decide +kernel, by decide +kernel, by decide +kernel, by decide +kernel, by decide +kernel, by decide +kernel, by decide +kernel, ran (by decide +kernel)⟩,
    ⟨netState, 2, 0, 0, 5, netQp, List.replicate 8 7, by decide +kernel⟩,
    ⟨netState, send .roceAck 2 [0] (modQp 2 (fun y => { y with expPsn := 1 }) netState), 2, 0, 13, .apex, 1, netQp, [], some cBad, by decide +kernel⟩,
    ⟨netState, 4, 1, by decide +kernel⟩,
    ⟨netState, 4, 2, by decide +kernel⟩,
    ⟨{ netState with ft := 4096 }, 4, { netQp with qp := 4 }, by decide +kernel⟩,
    ⟨{ netState with ft := 4096, edg := { qps := [(4, { st := .rts, unacked := [1], tries := 7 })] } }, 4, { netQp with qp := 4 }, by decide +kernel⟩,
    ⟨netState, 4, by decide +kernel⟩,
    ⟨{ netState with ft := 55000, edg := { qps := [(4, { rate := 500000 })] } }, 4, by decide +kernel⟩,
    ⟨netState, netState, 3, 7, 1, 0, 0, 13, .apex, 1, [], 1, some cBad, by decide +kernel⟩,
    ⟨netState, 3, 0, [3, 5, 0, 0, 0, 0, 0, 0, 0, 0, 0, 0, 0, 0, 0, 0], 1, 5, by decide +kernel⟩,
    ⟨netState, 3, 5, by decide +kernel⟩,
    ⟨{ base with loc := { reqs := [{ retryAt := some 0 }] } }, { retryAt := some 0 }, 0, by decide +kernel⟩,
    ⟨{ base with vtx := { txns := [{ retryAt := some 0 }] } }, { retryAt := some 0 }, 0, by decide +kernel⟩,
    ⟨{ orbState {} [orbCmd [2, 5]] with orb := { tries := [(1, orbCmd [2, 5], 0)] }, ft := 20000 }, 1, orbCmd [2, 5], 0, 3, 7, 1, by decide +kernel⟩,
    ⟨{ apxState [] [apxCmd [3]] with apx := { tries := [(1, 0)] }, ft := 20000 }, 1, apxCmd [3], 0, 3, 7, 1, by decide +kernel⟩⟩

theorem test_stepRunsCommand_premises :
    ∃ (s : State) (c : _) (rest : List Instr), s.pending = c :: rest :=
  ⟨{ base with pending := [.initComplete, .initComplete] }, .initComplete, [.initComplete], by decide +kernel⟩

theorem test_idleTick_premises :
    (∃ (s : State), s.pending = [] ∧ ftRuns s = true ∧ s.mer.slewRem = 0) ∧
    (∃ (s : State), s.pending = [] ∧ ftRuns s = true ∧ s.mer.slewRem ≠ 0 ∧ s.mer.slewPhase < 4999) ∧
    (∃ (s : State), s.pending = [] ∧ ftRuns s = true ∧ 0 < s.mer.slewRem ∧ 4999 ≤ s.mer.slewPhase) ∧
    (∃ (s : State), s.pending = [] ∧ ftRuns s = true ∧ s.mer.slewRem < 0 ∧ 4999 ≤ s.mer.slewPhase) ∧
    (∃ (s : State), s.pending = [] ∧ ftRuns s = false) :=
  ⟨⟨{ State.reset with pins := { porstN := true }, mer := { ref0Ok := true } }, by decide +kernel⟩,
    ⟨{ State.reset with pins := { porstN := true }, mer := { ref0Ok := true, slewRem := 3, slewPhase := 4998 } }, by decide +kernel⟩,
    ⟨{ State.reset with pins := { porstN := true }, mer := { ref0Ok := true, slewRem := 3, slewPhase := 4999 } }, by decide +kernel⟩,
    ⟨{ State.reset with pins := { porstN := true }, mer := { ref1Ok := true, slewRem := -3, slewPhase := 4999 } }, by decide +kernel⟩,
    ⟨State.reset, by decide +kernel⟩⟩

theorem test_hierarchicalReduce_2 : ∃ (s : State) (e : Nat) (hdr : List Nat) (data : List Byte),
    instOf s e (bits (hdr.getD 0 0) 17 2) = none ∧ bits (hdr.getD 0 0) 1 0 ≠ 3 ∧ 1048576 < earlyBytes (eng s e) + 32 + data.length :=
  ⟨chState { early := [{ data := List.replicate 2 0 }] }, 2, [36, 0, 0, 0], List.replicate 1048576 0, by decide +kernel, by decide +kernel, by
    rw [List.length_replicate]; decide +kernel⟩

theorem test_indexCommands_1 : ∃ (s : State) (u : State) (e : Nat) (c : QCmd) (i : _) (a : State) (b : State) (z : State) (v : State) (d : List Byte) (w : List Nat) (tb : List Byte) (old : Tab (Nat × Nat)) (p : _) (node : _) (tag : _),
    cenTake 1 e s = some (c, u) ∧ (u.cen.pools.get c.part).next < (cenPart u c.part).count ∧ i = (cenPart u c.part).base + (u.cen.pools.get c.part).next ∧ rangeCheck u c.part (cenPart u c.part).asid (c.w 4) 128 true = none ∧ cenRead (cenCtx u e c.part) (c.w 4) 128 u = (a, cOk, d) ∧ w = (List.range 16).map (fun j => ofLE ((d.drop (8 * j)).take 8)) ∧ idxBad w = false ∧ bits (w.getD 10 0) 31 0 ≤ bits (w.getD 10 0) 63 32 ∧ rangeCheck a c.part (cenPart u c.part).asid (xCent w) (xNlist w * xD w) false = none ∧ rangeCheck a c.part (cenPart u c.part).asid (xDir w) (32 * xNlist w) true = none ∧ rangeCheck a c.part (cenPart u c.part).asid (xSide w) (xSideCap w * recBytes w) true = none ∧ rangeCheck a c.part (cenPart u c.part).asid (xDel w) (16 * xSlots w) true = none ∧ cenRead (cenCtx u e c.part) (xDel w) (16 * xSlots w) a = (b, cOk, tb) ∧ tableOf w tb = old ∧ writeTable (cenCtx u e c.part) w old (compactTable w (fun q => decide (w.getD 8 0 < q)) old) b = (z, cOk) ∧ writeLive (cenCtx u e c.part) { isOpen := true, gen := (idxOf u i).gen, part := c.part, desc := c.w 4, words := w.take 6, seq := w.getD 8 0, floor := w.getD 9 0, head := bits (w.getD 10 0) 31 0, tail := bits (w.getD 10 0) 63 32, mgen := bits (w.getD 11 0) 31 0, dels := (compactTable w (fun q => decide (w.getD 8 0 < q)) old).length, side := bits (w.getD 10 0) 31 0 } z = (v, cOk) ∧ nObj c = none ∧ c.req = .port p node tag ∧ c.issuer = none :=
  ⟨ixState, ixTaken, 0, cenCmd [1, 0, 0, 0, 131072, 0, 0, 0], 0, ixTaken, ixTaken, ixTaken, _, memBytes ixTaken.mem 131072 128, cenW ++ [0, 0, 5, 0, 2 ^ 32, 0, 0, 0, 0, 0], List.replicate 16384 0, [], 3, 7, 1, taken (by decide +kernel), by decide +kernel, by decide +kernel, by decide +kernel, by decide +kernel, by decide +kernel, by decide +kernel, by decide +kernel, by decide +kernel, by decide +kernel, by decide +kernel, by decide +kernel, test_indexCommands_read, tableOf_zeros _ _, by decide +kernel, ran (by decide +kernel), by decide +kernel, by decide +kernel, by decide +kernel⟩

theorem test_indexCommands_12 : ∃ (s : State) (a : State) (b : State) (v : State) (i : Nat) (x : Idx) (j : MergeJob) (d : List Byte) (old : Tab (Nat × Nat)) (p : _) (node : _) (tag : _),
    idxOf s i = x ∧ x.merge = some j ∧ j.committed = true ∧ fenced s .centroid = false ∧ s.cen.srchs = [] ∧ cenRead (cenCtx s j.cmd.id x.part) (xDel x.words) (16 * xSlots x.words) s = (a, cOk, d) ∧ tableOf x.words d = old ∧ writeTable (cenCtx s j.cmd.id x.part) x.words old (compactTable x.words (fun q => decide (q ≤ j.f)) old) a = (b, cOk) ∧ writeLive (cenCtx s j.cmd.id x.part) { x with merge := none, side := x.head, dels := (compactTable x.words (fun q => decide (q ≤ j.f)) old).length } b = (v, cOk) ∧ nObj j.cmd = none ∧ j.cmd.req = .port p node tag ∧ j.cmd.issuer = none :=
  ⟨cenState [(0, { cenI with words := [4 * 2 ^ 32, 4096, 8192, 12288, 8, 32768], merge := some { cmd := cenCmd [6, 0, 0, 0, 0, 0, 0, 0], m := 5, f := 5, n := 1, committed := true } })] [], cenState [(0, { cenI with words := [4 * 2 ^ 32, 4096, 8192, 12288, 8, 32768], merge := some { cmd := cenCmd [6, 0, 0, 0, 0, 0, 0, 0], m := 5, f := 5, n := 1, committed := true } })] [], cenState [(0, { cenI with words := [4 * 2 ^ 32, 4096, 8192, 12288, 8, 32768], merge := some { cmd := cenCmd [6, 0, 0, 0, 0, 0, 0, 0], m := 5, f := 5, n := 1, committed := true } })] [], (writeLive { e := 0, part := 1 } { cenI with words := [4 * 2 ^ 32, 4096, 8192, 12288, 8, 32768] } (cenState [(0, { cenI with words := [4 * 2 ^ 32, 4096, 8192, 12288, 8, 32768], merge := some { cmd := cenCmd [6, 0, 0, 0, 0, 0, 0, 0], m := 5, f := 5, n := 1, committed := true } })] [])).1, 0, { cenI with words := [4 * 2 ^ 32, 4096, 8192, 12288, 8, 32768], merge := some { cmd := cenCmd [6, 0, 0, 0, 0, 0, 0, 0], m := 5, f := 5, n := 1, committed := true } }, { cmd := cenCmd [6, 0, 0, 0, 0, 0, 0, 0], m := 5, f := 5, n := 1, committed := true }, List.replicate 16 0, [], 3, 7, 1, by decide +kernel⟩

theorem test_memoryFormKept_premises : ∃ s t, s.memOk ∧ s.queueOk ∧ step s = .next t :=
  ⟨{ memState with mem := [(5, 1), (9, 2)] }, tick { memState with mem := [(5, 1), (9, 2)] }, rfl, rfl, rfl⟩

end Sys2Proof.Tests
end

section
/-!
The idle step: with no command waiting a step is a tick, and a tick is one of four.
-/
namespace Sys2Proof.Machine

variable {s : State}

theorem step_idle (h : s.pending = []) : step s = .next (tick s) := by simp only [step, h]

/-- R55: between two corrections fabric time advances by one, and the phase of the slew with it. -/
theorem tick_between (h : ftRuns s = true) (hs : s.mer.slewRem ≠ 0) (hp : s.mer.slewPhase < 4999) :
    tick s = { s with ft := (s.ft + 1) % 2 ^ 64, mer := { s.mer with slewPhase := s.mer.slewPhase + 1 } } := by
  have hlt : s.mer.slewPhase + 1 < 5000 := by omega
  simp [tick, h, hs, hlt]

/-- R55: a correction is due, and a positive one holds fabric time. -/
theorem tick_holds (h : ftRuns s = true) (hs : 0 < s.mer.slewRem) (hp : 4999 ≤ s.mer.slewPhase) :
    tick s = { s with mer := { s.mer with slewPhase := 0, slewRem := s.mer.slewRem - 1 } } := by
  have hlt : ¬ s.mer.slewPhase + 1 < 5000 := by omega
  have hne : s.mer.slewRem ≠ 0 := by omega
  simp [tick, h, hs, hlt, hne]

/-- R55: a correction is due, and a negative one advances fabric time by one more. -/
theorem tick_skips (h : ftRuns s = true) (hs : s.mer.slewRem < 0) (hp : 4999 ≤ s.mer.slewPhase) :
    tick s = { s with ft := (s.ft + 2) % 2 ^ 64, mer := { s.mer with slewPhase := 0, slewRem := s.mer.slewRem + 1 } } := by
  have hlt : ¬ s.mer.slewPhase + 1 < 5000 := by omega
  have hne : s.mer.slewRem ≠ 0 := by omega
  have hpos : ¬ 0 < s.mer.slewRem := by omega
  simp [tick, h, hlt, hne, hpos]

/-- Settles O57: an idle step is a tick, case by case. -/
theorem idleTick : Obligations.IdleTick := by
  refine ⟨?plain, ?between, ?holds, ?skips, ?stopped⟩
  case plain => intro s hq h hs; rw [step_idle hq, tick_plain h hs]
  case between => intro s hq h hs hp; rw [step_idle hq, tick_between h hs hp]
  case holds => intro s hq h hs hp; rw [step_idle hq, tick_holds h hs hp]
  case skips => intro s hq h hs hp; rw [step_idle hq, tick_skips h hs hp]
  case stopped => intro s hq h; rw [step_idle hq, tick_stopped h]

end Sys2Proof.Machine
end

section
/-!
Every command ends in a next state and leaves the queue as it was: one lemma per command, over the `_kept` lemmas of the operations
it calls, then the step and the statement on it.
-/
namespace Sys2Proof.Machine

variable {s₀ s t : State} {α : Type}

/-- The outcome is a next state, reached from `s₀` with its queue. -/
def Runs (s₀ : State) (r : Res) : Prop := ∃ t, r = .next t ∧ Kept s₀ t

theorem Runs.next (h : Kept s₀ t) : Runs s₀ (.next t) := ⟨t, rfl, h⟩

theorem Runs.of {r : Res} (hn : ∃ t, r = .next t) (hk : KeptR s₀ r) : Runs s₀ r := by
  obtain ⟨t, ht⟩ := hn
  exact ⟨t, ht, hk t ht⟩

theorem Runs.ite {c : Prop} [Decidable c] {a b : Res} (ha : Runs s₀ a) (hb : Runs s₀ b) : Runs s₀ (if c then a else b) := by
  split
  · exact ha
  · exact hb

theorem Kept.ite {c : Prop} [Decidable c] {a b : State} (ha : Kept s₀ a) (hb : Kept s₀ b) : Kept s₀ (if c then a else b) := by
  split
  · exact ha
  · exact hb

/-- A change that a condition decides on. -/
theorem Kept.maybe {c : Prop} [Decidable c] {a b : State} (hb : Kept s₀ b) (hf : Kept s₀ b → Kept s₀ a) : Kept s₀ (if c then a else b) :=
  .ite (hf hb) hb

theorem Kept.maybeNot {c : Prop} [Decidable c] {a b : State} (ha : Kept s₀ a) (hf : Kept s₀ a → Kept s₀ b) :
    Kept s₀ (if c then a else b) := .ite ha (hf ha)

theorem Kept1.ite {c : Prop} [Decidable c] {p q : State × α} (hp : Kept1 s₀ p) (hq : Kept1 s₀ q) : Kept1 s₀ (if c then p else q) := by
  split
  · exact hp
  · exact hq

/-! ### The gates of the management commands and the register writes -/

theorem mgmtGate_runs {who : Requester} {need : Role} {r : Bool} {k : State → Res} (hk : ∀ x, Kept s₀ x → Runs s₀ (k x)) (h : Kept s₀ s) :
    Runs s₀ (mgmtGate who need r k s) := by
  unfold mgmtGate
  split
  · refine .ite (.next h) (.ite (.next (reply_kept ?_)) (.ite (.next (reply_kept ?_)) (hk _ ?_))) <;> exact touchSession_kept h
  · exact .next (reply_kept h)

/-- A gate lets a state on that its continuation answers. -/
theorem mgmtGate_next {who : Requester} {need : Role} {r : Bool} {k : State → Res} (hk : ∀ x, ∃ t, k x = .next t) :
    ∃ t, mgmtGate who need r k s = .next t := by
  unfold mgmtGate
  split
  · split
    · exact ⟨_, rfl⟩
    · dsimp only
      split
      · exact ⟨_, rfl⟩
      · split
        · exact ⟨_, rfl⟩
        · exact hk _
  · exact ⟨_, rfl⟩

theorem domCtl_next {who : Requester} {n : Nat} {bad : State → Bool} {k : Dom → State → State × Cpl} :
    ∃ t, domCtl who n bad k s = .next t := by
  unfold domCtl
  refine mgmtGate_next fun x => ?_
  split
  · exact ⟨_, rfl⟩
  · split
    · exact ⟨_, rfl⟩
    · split <;> exact ⟨_, rfl⟩

theorem spdm_runs {who : Requester} {ok : Bool} {args : List Nat} {data : List Byte} (h : Kept s₀ s) : Runs s₀ (spdm who ok args data s) := by
  refine .of ?_ (spdm_kept h)
  unfold spdm
  split <;> exact ⟨_, rfl⟩

theorem monCtl_runs {who : Requester} {n : Nat} {f : Nat → State → State} (hf : ∀ n x, Kept s₀ x → Kept s₀ (f n x)) (h : Kept s₀ s) :
    Runs s₀ (monCtl who n f s) := by
  refine .of ?_ (monCtl_kept hf h)
  unfold monCtl
  split
  · exact mgmtGate_next fun _ => ⟨_, rfl⟩
  · exact ⟨_, rfl⟩
  · exact ⟨_, rfl⟩

theorem syncMsg_runs {op : SyncOp} {who : Requester} {i operand : Nat} {gen : Option Nat} {tmo : Nat} (h : Kept s₀ s) :
    Runs s₀ (syncMsg op who i operand gen tmo s) := .of ⟨_, rfl⟩ (syncMsg_kept h)

theorem execFtCfgWrite_runs {who : Requester} {v : Nat} (h : Kept s₀ s) : Runs s₀ (execFtCfgWrite who v s) := by
  refine .of (mgmtGate_next fun x => ?_) (execFtCfgWrite_kept h)
  split <;> exact ⟨_, rfl⟩

theorem execStallCfgWrite_runs {who : Requester} {n v : Nat} (h : Kept s₀ s) : Runs s₀ (execStallCfgWrite who n v s) :=
  .of (mgmtGate_next fun _ => ⟨_, rfl⟩) (execStallCfgWrite_kept h)

theorem execScrub_runs {who : Requester} {n : Nat} {ddr force : Bool} (h : Kept s₀ s) : Runs s₀ (execScrub who n ddr force s) :=
  .of (mgmtGate_next fun _ => ⟨_, rfl⟩) (execScrub_kept h)

theorem execZeroise_runs {who : Requester} (h : Kept s₀ s) : Runs s₀ (execZeroise who s) :=
  .of (mgmtGate_next fun _ => ⟨_, rfl⟩) (execZeroise_kept h)

theorem execDeclare_runs {who : Requester} {v : Nat} (h : Kept s₀ s) : Runs s₀ (execDeclare who v s) :=
  .of (mgmtGate_next fun _ => ⟨_, rfl⟩) (execDeclare_kept h)

theorem execLaserEnable_runs {who : Requester} {m : Nat} {en : Bool} (h : Kept s₀ s) : Runs s₀ (execLaserEnable who m en s) :=
  .of (mgmtGate_next fun _ => ⟨_, rfl⟩) (execLaserEnable_kept h)

theorem execFqHeadRelease_runs {who : Requester} {n head : Nat} (h : Kept s₀ s) : Runs s₀ (execFqHeadRelease who n head s) := by
  refine .of ?_ (execFqHeadRelease_kept h)
  unfold execFqHeadRelease
  split
  · split <;> exact ⟨_, rfl⟩
  · refine mgmtGate_next fun x => ?_
    split <;> exact ⟨_, rfl⟩

theorem execAttestReport_runs {who : Requester} {asid addr busy : Nat} (h : Kept s₀ s) : Runs s₀ (execAttestReport who asid addr busy s) := by
  refine .of ?_ (execAttestReport_kept h)
  unfold execAttestReport
  split <;> exact ⟨_, rfl⟩

theorem writeDomCtl_runs {who : Requester} {n x : Nat} (h : Kept s₀ s) : Runs s₀ (writeDomCtl who n x s) := by
  refine .of ?_ (writeDomCtl_kept h)
  unfold writeDomCtl
  split
  case h_8 => exact mgmtGate_next fun _ => ⟨_, rfl⟩
  all_goals exact domCtl_next

theorem mgmtWriteReg_runs {who : Requester} {r : Reg} {x : Nat} (h : Kept s₀ s) : Runs s₀ (mgmtWriteReg who r x s) := by
  unfold mgmtWriteReg
  split
  · exact execDeclare_runs h
  · exact .ite (execZeroise_runs h) (execScrub_runs h)
  · exact execFtCfgWrite_runs h
  · exact execStallCfgWrite_runs h
  · exact writeDomCtl_runs h
  · exact execLaserEnable_runs h
  · exact execFqHeadRelease_runs h
  · exact mgmtGate_runs (fun _ h1 => .next (reply_kept h1)) h
  · exact mgmtGate_runs (fun _ h1 => .next (reply_kept (mgmtWrite_kept h1))) h

theorem portWriteReg_runs {who : Requester} {p n asid : Nat} {r : Reg} {x : Nat} (h : Kept s₀ s) :
    Runs s₀ (portWriteReg who p n asid r x s) := by
  refine .of ?_ (portWriteReg_kept h)
  unfold portWriteReg
  split
  case h_2 => exact (execFqHeadRelease_runs (.refl s)).imp fun _ ht => ht.1
  case h_4 => exact (execAttestReport_runs (.refl s)).imp fun _ ht => ht.1
  all_goals exact ⟨_, rfl⟩

theorem writeReg_runs {who : Requester} {asid off x : Nat} (h : Kept s₀ s) : Runs s₀ (writeReg who asid off x s) := by
  unfold writeReg
  split
  · split
    · exact mgmtGate_runs (fun _ h1 => .next (reply_kept h1)) h
    · exact mgmtWriteReg_runs h
  · refine .ite (.next (reply_kept h)) ?_
    split
    · exact .next (reply_kept h)
    · exact portWriteReg_runs h
  · exact .next (reply_kept h)

/-! ### Sync -/

theorem execSyncWaitTimeout_runs {i : Nat} (h : Kept s₀ s) : Runs s₀ (execSyncWaitTimeout i s) := by
  dsimp only [execSyncWaitTimeout]
  exact .next (.maybeNot (.foldl (setObj_kept h) fun _ _ h1 => finishWait_kept h1) wake_kept)

/-! ### Sched -/

theorem execPtpMessageRx_runs {viaPort : Option Nat} {domain : Nat} {layer2 : Bool} {offset : Int} (h : Kept s₀ s) :
    Runs s₀ (execPtpMessageRx viaPort domain layer2 offset s) := by
  dsimp only [execPtpMessageRx]
  refine .ite (.next h) ?_
  exact .ite (.next (sendTime_kept (firstLock_kept (.lit h)))) (.next (.maybe (.lit h) report_kept))

theorem execPpsInEdge_runs (h : Kept s₀ s) : Runs s₀ (execPpsInEdge s) := by
  dsimp only [execPpsInEdge]
  exact .ite (.next (.lit h)) (.next h)

theorem execPpsOutRise_runs (h : Kept s₀ s) : Runs s₀ (execPpsOutRise s) := by
  dsimp only [execPpsOutRise]
  exact .ite (.next (send_kept (.lit h))) (.next h)

/-! ### Plane -/

theorem execMigrationCopyDone_runs {p : Nat} (h : Kept s₀ s) : Runs s₀ (execMigrationCopyDone p s) := by
  dsimp only [execMigrationCopyDone]
  refine .ite (.next h) ?_
  split
  · exact .next (mirrorThen_kept (fun _ h1 => finishMigr_kept h1) (.lit (copyPoison_kept h)))
  · exact .ite (.next (settle_kept (usePage_kept (.lit h)))) (.next h)

theorem execFrameRetire_runs {tier : Tier} {n : Nat} (h : Kept s₀ s) : Runs s₀ (execFrameRetire tier n s) := by
  dsimp only [execFrameRetire]
  exact .ite (.next (retireFrame_kept h)) (.next h)

theorem execChannelEvacuate_runs {c : Nat} (h : Kept s₀ s) : Runs s₀ (execChannelEvacuate c s) := by
  dsimp only [execChannelEvacuate]
  exact .ite (.next (evacChan_kept h)) (.next h)

theorem execDdrTrainingLoss_runs {c : Nat} (h : Kept s₀ s) : Runs s₀ (execDdrTrainingLoss c s) := by
  dsimp only [execDdrTrainingLoss]
  exact .ite (.next (.maybe (losePages_kept h) evacChan_kept)) (.next h)

theorem execTrayHeadRetire_runs {t : Nat} (h : Kept s₀ s) : Runs s₀ (execTrayHeadRetire t s) := by
  dsimp only [execTrayHeadRetire]
  exact .ite (.next (retireHead_kept h)) (.next h)

theorem execCxlEventRecord_runs {t : Nat} {media uncorrectable : Bool} (h : Kept s₀ s) :
    Runs s₀ (execCxlEventRecord t media uncorrectable s) := by
  dsimp only [execCxlEventRecord]
  exact .ite (.next (evacTray_kept h)) (.next h)

theorem execTrayEvacuate_runs {t : Nat} (h : Kept s₀ s) : Runs s₀ (execTrayEvacuate t s) := by
  dsimp only [execTrayEvacuate]
  exact .ite (.next (evacTray_kept h)) (.next h)

theorem execObjectRetired_runs {tray : Bool} {n : Nat} (h : Kept s₀ s) : Runs s₀ (execObjectRetired tray n s) := by
  dsimp only [execObjectRetired]
  exact .ite (.next h) (.ite (.next (evacuate_kept h)) (.ite (.next (modTray_kept h)) (.next (setChan_kept h))))

/-! ### Locus -/

theorem execAtomic_runs {r : CohReq} {op ty operand compare : Nat} (h : Kept s₀ s) : Runs s₀ (execAtomic r op ty operand compare s) := by
  dsimp only [execAtomic]
  split <;> exact .next (cohMsg_kept h)

theorem execLineQueueStart_runs {l : Nat} (h : Kept s₀ s) : Runs s₀ (execLineQueueStart l s) := by
  dsimp only [execLineQueueStart]
  refine .ite (.next h) ?_
  split
  · exact .next (vStart_kept (modVtx_kept h))
  · exact .next h

theorem execCombineWindowClose_runs {l : Nat} (h : Kept s₀ s) : Runs s₀ (execCombineWindowClose l s) := by
  dsimp only [execCombineWindowClose]
  split
  · exact .ite (.next (closeWin_kept h)) (.next h)
  · exact .next h

theorem execAtomicWindowClose_runs {l : Nat} (h : Kept s₀ s) : Runs s₀ (execAtomicWindowClose l s) := by
  dsimp only [execAtomicWindowClose]
  split
  · exact .ite (.next (closeWin_kept h)) (.next h)
  · exact .next h

theorem execSnoopTimeout_runs {l : Nat} (h : Kept s₀ s) : Runs s₀ (execSnoopTimeout l s) := by
  dsimp only [execSnoopTimeout]
  split
  · exact .ite (.next (domainDown_kept h)) (.next h)
  · exact .next h

theorem execCohMemoryTimeout_runs {l : Nat} (h : Kept s₀ s) : Runs s₀ (execCohMemoryTimeout l s) := by
  dsimp only [execCohMemoryTimeout]
  split
  · exact .ite (.next (domainDown_kept h)) (.next h)
  · exact .next h

theorem execPortExclude_runs {p : Nat} (h : Kept s₀ s) : Runs s₀ (execPortExclude p s) := by
  dsimp only [execPortExclude]
  exact .ite (.next (modVtx_kept h)) (.next h)

theorem execPortExclClear_runs {who : Requester} {k : Nat} {v : Word} (h : Kept s₀ s) : Runs s₀ (execPortExclClear who k v s) := by
  dsimp only [execPortExclClear]
  exact mgmtGate_runs (fun _ h1 => .next (reply_kept (modVtx_kept h1))) h

theorem execForceDown_runs {who : Requester} (h : Kept s₀ s) : Runs s₀ (execForceDown who s) := by
  dsimp only [execForceDown]
  exact mgmtGate_runs (fun _ h1 => .next (reply_kept (domainDown_kept h1))) h

theorem execMemoryAccessComplete_runs {a : AccId} {o : TierOut} {ext : List Byte} (h : Kept s₀ s) :
    Runs s₀ (execMemoryAccessComplete a o ext s) := by
  dsimp only [execMemoryAccessComplete]
  split
  · split
    · exact .ite (.next (reqComplete_kept h)) (.next h)
    · exact .next h
  · split
    · exact .ite (.next (vMemDone_kept (noteTier_kept h))) (.next h)
    · exact .next h

theorem execForwardTimeout_runs (h : Kept s₀ s) : Runs s₀ (execForwardTimeout s) := by
  dsimp only [execForwardTimeout]
  exact .ite (.next (finishJobs_kept (.lit (.foldl h fun _ _ h1 => endReq_kept h1)))) (.next h)

theorem execStaleReplyDrop_runs {b : Block} {gen : Nat} (h : Kept s₀ s) : Runs s₀ (execStaleReplyDrop b gen s) := by
  dsimp only [execStaleReplyDrop]
  exact .ite (.ite (.next (modVtx_kept h)) (.next h)) (.ite (.next (.lit h)) (.next h))

theorem execMissQueueServe_runs (h : Kept s₀ s) : Runs s₀ (execMissQueueServe s) := by
  dsimp only [execMissQueueServe]
  split
  · exact .next h
  · exact .ite (.next (modLoc_kept (modLoc_kept h))) (.next (startWalk_kept (modLoc_kept h)))

theorem execWalkReadComplete_runs {id : Nat} (h : Kept s₀ s) : Runs s₀ (execWalkReadComplete id s) := by
  dsimp only [execWalkReadComplete]
  split
  · exact .next h
  · refine .ite (.next h) ?_
    split
    · exact .next (modLoc_kept h)
    · split
      · exact .next (send_kept (modLoc_kept (.ite (foldRead_kept h) h)))
      · refine .next (.foldl ?_ fun _ _ h1 => walkOutcome_kept h1)
        split
        · exact .foldl (modLoc_kept (.ite (foldRead_kept h) h)) fun _ _ h1 => tlbFill_kept h1
        · exact .foldl (modLoc_kept (.ite (foldRead_kept h) h)) fun _ _ h1 => tlbFill_kept h1
        · exact modLoc_kept (.ite (foldRead_kept h) h)

theorem execWalkTimeout_runs {id : Nat} (h : Kept s₀ s) : Runs s₀ (execWalkTimeout id s) := by
  dsimp only [execWalkTimeout]
  split
  · exact .next h
  · exact .ite (.next (.foldl (modLoc_kept h) fun _ _ h1 => endReq_kept h1)) (.next h)

theorem execXlInvTimeout_runs {n node : Nat} (h : Kept s₀ s) : Runs s₀ (execXlInvTimeout n node s) := by
  dsimp only [execXlInvTimeout]
  split
  · exact .next h
  · exact .next (modLoc_kept (setLocPart_kept h))

theorem execLocSyncComplete_runs {n : Nat} (h : Kept s₀ s) : Runs s₀ (execLocSyncComplete n s) := by
  dsimp only [execLocSyncComplete]
  split
  · exact .next h
  · refine .ite ?_ (.ite (.next h) (.next (locFinish_kept h)))
    exact .ite (.next h) (.ite (.next (failRec_kept (foldRead_kept h))) (.ite (.next (failRec_kept h)) (.next h)))

/-! ### Chord -/

theorem execReadyWaitTimeout_runs {e tag : Nat} (h : Kept s₀ s) : Runs s₀ (execReadyWaitTimeout e tag s) := by
  dsimp only [execReadyWaitTimeout]
  split
  · exact .ite (.next (chdTimeout_kept h)) (.next h)
  · exact .next h

theorem execChunkReadComplete_runs {e tag : Nat} {ext : List (List Byte)} (h : Kept s₀ s) :
    Runs s₀ (execChunkReadComplete e tag ext s) := by
  dsimp only [execChunkReadComplete]
  refine .ite (.next h) ?_
  split
  · exact .next h
  · refine .ite (.next h) ?_
    split
    · exact .next (setInst_kept (applyResult_kept h))
    · split
      · exact .next (setInst_kept (.fold1 (.mk h) fun _ _ h1 => hierTry_kept h1))
      · refine .ite (.next (setInst_kept h)) ?_
        exact .ite (.next (chdFinish_kept (engineDown_kept h))) (.next (setInst_kept (doChunk_kept h)))

theorem execOperandReadTimeout_runs {e tag : Nat} (h : Kept s₀ s) : Runs s₀ (execOperandReadTimeout e tag s) := by
  dsimp only [execOperandReadTimeout]
  split
  · exact .ite (.next (chdTimeout_kept h)) (.next h)
  · split
    · exact .ite (.next (finishCmd_kept (modEng_kept h))) (.next h)
    · exact .next h

theorem execCollectiveComplete_runs {e tag : Nat} (h : Kept s₀ s) : Runs s₀ (execCollectiveComplete e tag s) := by
  dsimp only [execCollectiveComplete]
  split
  · exact .ite (.next (chdFinish_kept h)) (.next h)
  · exact .next h

theorem execCollContrib_runs {who : Requester} {hdr : List Nat} {data : List Byte} (h : Kept s₀ s) :
    Runs s₀ (execCollContrib who hdr data s) := by
  dsimp only [execCollContrib]
  refine .ite (.next (reply_kept h)) (.ite (.next (reply_kept h)) ?_)
  split
  · exact .next (reply_kept h)
  · split
    · exact .next (reply_kept (setEng_kept h))
    · exact .ite (.next (reply_kept (setEng_kept h))) (.next (reply_kept (setInst_kept h)))

theorem execHierTimeout_runs {e tag : Nat} (h : Kept s₀ s) : Runs s₀ (execHierTimeout e tag s) := by
  dsimp only [execHierTimeout]
  split
  · exact .ite (.next (hierEnd_kept h)) (.next h)
  · exact .next h

theorem execEarlyRecordDiscard_runs {e : Nat} (h : Kept s₀ s) : Runs s₀ (execEarlyRecordDiscard e s) := by
  dsimp only [execEarlyRecordDiscard]
  split
  · exact .next (setEng_kept (.lit (matchEarly_kept h)))
  · exact .next (matchEarly_kept h)

theorem execReduce_runs {e : Nat} (h : Kept s₀ s) : Runs s₀ (execReduce e s) := by
  dsimp only [execReduce]
  exact .next (matchEarly_kept (chdServe_kept h))

theorem execInstanceAdmit_runs {e : Nat} (h : Kept s₀ s) : Runs s₀ (execInstanceAdmit e s) := by
  dsimp only [execInstanceAdmit]
  split
  · exact .ite (.next (matchEarly_kept (chdAdmit_kept (setEng_kept h)))) (.next h)
  · exact .next h

/-! ### Orbit -/

theorem execOrbOpen_runs {q : Nat} (h : Kept s₀ s) : Runs s₀ (execOrbOpen q s) := by
  dsimp only [execOrbOpen]
  refine .next ?_
  split
  · exact h
  · rename_i s1 e
    have hs : Kept s₀ s1 := .eqO2 e (orbTake_kept h)
    refine .ite (orbReply_kept hs) (.ite (orbReply_kept hs) ?_)
    split
    · exact orbReply_kept hs
    · exact orbFinish_kept (modOrb_kept (setSess_kept hs))

theorem execOrbAppend_runs {q : Nat} {ext : List Byte} (h : Kept s₀ s) : Runs s₀ (execOrbAppend q ext s) := by
  dsimp only [execOrbAppend]
  refine .next (withSess_kept h (fun _ _ _ h1 => .ite (orbReply_kept h1) ?_))
  refine .ite (orbReply_kept h1) (.ite (orbAgain_kept h) (.ite (orbReply_kept (cmdTokens_kept h1)) ?_))
  exact retrying_kept h (appendAt_kept (cmdTokens_kept h1)) (fun _ _ h1 => .ite (orbFinish_kept h1) (orbReply_kept h1))

theorem execToolResult_runs {q : Nat} {ext : List Byte} (h : Kept s₀ s) : Runs s₀ (execToolResult q ext s) := by
  dsimp only [execToolResult]
  refine .next (withSess_kept h (fun _ _ _ h1 => .ite (orbReply_kept h1) ?_))
  refine .ite (orbReply_kept h1) (.ite (orbAgain_kept h) (.ite (orbReply_kept (cmdTokens_kept h1)) ?_))
  exact retrying_kept h (resultAt_kept (cmdTokens_kept h1)) (fun _ _ h1 => .ite (orbFinish_kept h1) (orbReply_kept h1))

theorem execPark_runs {q : Nat} (h : Kept s₀ s) : Runs s₀ (execPark q s) := by
  dsimp only [execPark]
  refine .next (withSess_kept h (fun _ _ _ h1 => ?_))
  split
  · exact setOJob_kept h1
  · refine .ite (orbReply_kept h1) ?_
    refine .ite (orbReply_kept h1) (.ite (orbAgain_kept h) (.ite (orbReply_kept (findResult_kept h1)) ?_))
    split
    · exact orbReply_kept (findResult_kept h1)
    · refine .ite (orbAgain_kept h) (.ite (orbReply_kept (.eqO1 ‹_› ?_)) ?_)
      · split
        · exact putRecord_kept (setSess_kept (findResult_kept h1))
        · exact .some (.mk (setSess_kept (findResult_kept h1)))
      · refine .ite (orbFinish_kept (.eqO1 ‹_› ?_)) (orbMirror_kept (addOJob_kept (setSess_kept (.eqO1 ‹_› ?_))))
        · split
          · exact putRecord_kept (setSess_kept (findResult_kept h1))
          · exact .some (.mk (setSess_kept (findResult_kept h1)))
        · split
          · exact putRecord_kept (setSess_kept (findResult_kept h1))
          · exact .some (.mk (setSess_kept (findResult_kept h1)))

theorem execParkDetach_runs {n : Nat} (h : Kept s₀ s) : Runs s₀ (execParkDetach n s) := by
  dsimp only [execParkDetach]
  refine .next (.ite h ?_)
  split
  · exact h
  · refine .ite (orbEndAll_kept (dropOJob_kept (setSess_kept h))) ?_
    exact orbEndAll_kept (startMove_kept (modOStat_kept (setSess_kept h)))

theorem execRevive_runs {q : Nat} (h : Kept s₀ s) : Runs s₀ (execRevive q s) := by
  dsimp only [execRevive]
  refine .next (withSess_kept h (fun _ _ _ h1 => ?_))
  split
  · exact .ite (orbAgain_kept h) (startRevive_kept h1)
  · split
    · exact .ite (setOJob_kept h1) (orbReply_kept h1)
    · exact orbReply_kept h1
  · exact .ite (orbFinish_kept h1) (orbReply_kept h1)
  · refine .ite ?_ (.ite (orbReply_kept h1) (orbMirror_kept (setSess_kept (modOrb_kept h1))))
    split
    · exact orbFinish_kept (orbEndAll_kept (dropOJob_kept (setSess_kept h1)))
    · exact h1
  · exact .ite (orbReply_kept h1) (orbMirror_kept (setSess_kept (modOrb_kept h1)))
  · exact orbReply_kept h1

theorem execReviveDone_runs {n : Nat} (h : Kept s₀ s) : Runs s₀ (execReviveDone n s) := by
  dsimp only [execReviveDone]
  refine .next (.ite h ?_)
  split
  · exact h
  · exact .ite h (.ite (.ite (endRevive_kept h) (setOJob_kept h)) (endRevive_kept (reviveWork_kept h)))

theorem execMove_runs {q : Nat} (h : Kept s₀ s) : Runs s₀ (execMove q s) := by
  dsimp only [execMove]
  refine .next (withSess_kept h (fun _ _ _ h1 => .ite (orbFinish_kept (setSess_kept h1)) ?_))
  refine .ite (orbReply_kept (countEnergyRefusal_kept h1)) ?_
  exact .ite (orbReply_kept h1) (.ite (orbReply_kept h1) (startMove_kept (setSess_kept h1)))

theorem execColdMoveProceed_runs {n : Nat} (h : Kept s₀ s) : Runs s₀ (execColdMoveProceed n s) := by
  dsimp only [execColdMoveProceed]
  refine .next (.ite h ?_)
  split
  · exact h
  · refine .ite h ?_
    split
    · exact coldGo_kept (.eqO1 ‹_› (energyTake_kept h))
    · exact .ite h (setOJob_kept (modOStat_kept h))

theorem execMoveDone_runs {n : Nat} (h : Kept s₀ s) : Runs s₀ (execMoveDone n s) := by
  dsimp only [execMoveDone]
  refine .next (.ite h ?_)
  split
  · exact h
  · split
    · exact issueMove_kept h
    · refine .ite (issueMove_kept h) ?_
      refine startHeld_kept (.ite (orbMirror_kept (dropOJob_kept (setSess_kept (.lit (issueMove_kept h))))) ?_)
      exact orbFinish_kept (dropOJob_kept (setSess_kept (.lit (issueMove_kept h))))

theorem execDemotion_runs {n : Nat} (h : Kept s₀ s) : Runs s₀ (execDemotion n s) := by
  dsimp only [execDemotion]
  exact .next (.ite (startMove_kept (modOStat_kept h)) h)

theorem execOrbClose_runs {q : Nat} (h : Kept s₀ s) : Runs s₀ (execOrbClose q s) := by
  dsimp only [execOrbClose]
  refine .next (withSess_kept h (fun _ _ _ h1 => .ite (orbReply_kept h1) ?_))
  exact orbMirror_kept (addOJob_kept (.foldl (modOrb_kept (dropOJob_kept (setSess_kept h1))) fun _ _ h1 => orbReply_kept h1))

theorem execCloseRelease_runs {n : Nat} (h : Kept s₀ s) : Runs s₀ (execCloseRelease n s) := by
  dsimp only [execCloseRelease]
  refine .next (.ite h ?_)
  split
  · exact h
  · exact orbFinish_kept (freeSess_kept (dropOJob_kept (freePages_kept h)))

theorem execOrbDescribe_runs {q : Nat} (h : Kept s₀ s) : Runs s₀ (execOrbDescribe q s) := by
  dsimp only [execOrbDescribe]
  exact .next (withSess_kept h (fun _ _ _ h1 => retrying_kept h (engineWriteAs_kept h1) (fun _ _ h2 => orbReply_kept h2)))

theorem execOrbLogRead_runs {q : Nat} (h : Kept s₀ s) : Runs s₀ (execOrbLogRead q s) := by
  dsimp only [execOrbLogRead]
  refine .next (withSess_kept h (fun _ _ _ h1 => .ite (orbAgain_kept h) ?_))
  refine .ite (orbReply_kept (.of1 (.ite (.mk h1) (.ite (logRecords_kept h1) (logTokens_kept h1))))) ?_
  refine retrying_kept h (.ite (.mk (.of1 (.ite (.mk h1) (.ite (logRecords_kept h1) (logTokens_kept h1))))) ?_)
    (fun _ _ h1 => orbReply_kept h1)
  exact engineWriteAs_kept (.of1 (.ite (.mk h1) (.ite (logRecords_kept h1) (logTokens_kept h1))))

/-! ### Cone -/

theorem execQuery_runs {e : Nat} (h : Kept s₀ s) : Runs s₀ (execQuery e s) := by
  dsimp only [execQuery]
  split
  · exact .next h
  · rename_i s1 e
    have hs : Kept s₀ s1 := .eqO2 e (takeCmd_kept h)
    split
    · exact .ite (.next (finishCmd_kept hs)) (.next (finishCmd_kept (.ite (modConeStat_kept hs) hs)))
    · split
      · exact .next (startQuery_kept hs)
      · exact .next (finishCmd_kept hs)

theorem execBatch_runs {e : Nat} (h : Kept s₀ s) : Runs s₀ (execBatch e s) := by
  dsimp only [execBatch]
  split
  · exact .next (.ite h (runBatch_kept (.lit h)))
  · split
    · exact .next h
    · rename_i s1 e
      have hs : Kept s₀ s1 := .eqO2 e (takeCmd_kept h)
      split
      · exact .next (finishCmd_kept hs)
      · exact .next (runBatch_kept hs)

theorem execSliceAdmit_runs {e : Nat} (h : Kept s₀ s) : Runs s₀ (execSliceAdmit e s) := by
  dsimp only [execSliceAdmit]
  exact .next (.ite h (admitNext_kept h))

theorem execTileReadComplete_runs {id i : Nat} {ext : List (List Byte)} (h : Kept s₀ s) : Runs s₀ (execTileReadComplete id i ext s) := by
  dsimp only [execTileReadComplete]
  refine .ite (.next h) ?_
  split
  · exact .next h
  · split
    · exact .next h
    · refine .ite (.next h) (.ite (.next (readVecs_kept h)) ?_)
      refine .ite (.next (setQuery_kept h)) (.ite ?_ (.next (.maybeNot ?_ admitNext_kept)))
      · exact .next (setQuery_kept (.maybe (modConeEng_kept (.fold1 (.mk h) fun _ _ h1 => .mk (readSpan_kept h1))) modConeStat_kept))
      · exact setQuery_kept (.maybe (modConeEng_kept (.fold1 (.mk h) fun _ _ h1 => .mk (readSpan_kept h1))) modConeStat_kept)

theorem execConeReadTimeout_runs {id : Nat} (h : Kept s₀ s) : Runs s₀ (execConeReadTimeout id s) := by
  dsimp only [execConeReadTimeout]
  split
  · exact .ite (.next (endQuery_kept h)) (.next h)
  · split
    · exact .next (finishCmd_kept (.lit h))
    · exact .next h

theorem execSliceResultArrive_runs {id i : Nat} (h : Kept s₀ s) : Runs s₀ (execSliceResultArrive id i s) := by
  dsimp only [execSliceResultArrive]
  split
  · exact .next h
  · split
    · exact .next h
    · exact .ite (.next (setQuery_kept h)) (.next h)

theorem execQueryComplete_runs {id : Nat} (h : Kept s₀ s) : Runs s₀ (execQueryComplete id s) := by
  dsimp only [execQueryComplete]
  refine .ite (.next h) ?_
  split
  · exact .next h
  · refine .ite ?_ (.ite (.next h) ?_)
    · refine .ite (.next (endQuery_kept h)) (.ite (.next (setQuery_kept (engineWriteAs_kept (useFresh_kept h)))) ?_)
      exact .next (endQuery_kept (.lit (engineWriteAs_kept (useFresh_kept h))))
    · exact .ite (.next (setQuery_kept h)) (.next (endQuery_kept (modConeStat_kept (engineWriteAs_kept h))))

/-! ### Apex -/

theorem execApxOpen_runs {q : Nat} (h : Kept s₀ s) : Runs s₀ (execApxOpen q s) := by
  dsimp only [execApxOpen]
  refine .next ?_
  split
  · exact h
  · rename_i s1 e
    have hs : Kept s₀ s1 := .eqO2 e (apxTake_kept h)
    refine .ite (apxFinish_kept hs) (.ite (apxFinish_kept hs) ?_)
    split
    · exact apxFinish_kept hs
    · refine .ite (apxAgain_kept h) (.ite (apxFinish_kept (apxWrite_kept hs)) ?_)
      exact apxFinish_kept (modApx_kept (setApxReq_kept (apxWrite_kept hs)))

theorem execApxSet_runs {q : Nat} (h : Kept s₀ s) : Runs s₀ (execApxSet q s) := by
  dsimp only [execApxSet]
  exact .next (withReq_kept h (fun _ _ _ h1 => apxFinish_kept (setApxReq_kept h1)))

theorem execApxClose_runs {q : Nat} (h : Kept s₀ s) : Runs s₀ (execApxClose q s) := by
  dsimp only [execApxClose]
  refine .next (withReq_kept h (fun _ _ _ h1 => .ite (apxFinish_kept h1) ?_))
  refine .ite (.ite (apxAgain_kept h) ?_) (.ite (setApxReq_kept h1) (apxFinish_kept (freeReq_kept h1)))
  exact .ite (setApxReq_kept (putEnd_kept h1)) (apxFinish_kept (freeReq_kept (putEnd_kept h1)))

theorem execApxDescribe_runs {q : Nat} (h : Kept s₀ s) : Runs s₀ (execApxDescribe q s) := by
  dsimp only [execApxDescribe]
  exact .next (withReq_kept h (fun _ _ _ h1 => .ite (apxAgain_kept h) (apxFinish_kept (apxWrite_kept h1))))

theorem execSampleContrib_runs {who : Requester} {hdr : List Nat} {data : List Byte} (h : Kept s₀ s) :
    Runs s₀ (execSampleContrib who hdr data s) := by
  dsimp only [execSampleContrib]
  refine .next (.ite (.ite (reply_kept h) (emit_kept h)) ?_)
  split
  · exact reply_kept h
  · refine .ite (reply_kept h) ?_
    split
    · exact reply_kept h
    · split
      · exact reply_kept (.maybe (setApxReq_kept (.of1 (.ite (lookRing_kept h) (.mk h)))) modAStat_kept)
      · exact reply_kept (setApxReq_kept (.maybe (setApxReq_kept (.of1 (.ite (lookRing_kept h) (.mk h)))) modAStat_kept))

theorem execSampleTimeout_runs {i : Nat} (h : Kept s₀ s) : Runs s₀ (execSampleTimeout i s) := by
  dsimp only [execSampleTimeout]
  refine .next ?_
  split
  · exact .ite (putResult_kept (modAStat_kept (setApxReq_kept h))) h
  · exact h

theorem execSampleServe_runs {u : Nat} (h : Kept s₀ s) : Runs s₀ (execSampleServe u s) := by
  dsimp only [execSampleServe]
  refine .next (.ite h ?_)
  split
  · exact h
  · rename_i s1 e
    have hs : Kept s₀ s1 := .eqO22 e (apxTurn_kept h)
    split
    · exact hs
    · refine .ite (sampleEnd_kept (debit_kept (monSample_kept hs))) ?_
      refine .ite (sampleEnd_kept (debit_kept (monSample_kept hs))) ?_
      refine .ite (sampleEnd_kept (.maybe (debit_kept (monSample_kept hs)) modAStat_kept)) ?_
      exact apxAppend_kept (setApxReq_kept (.maybe (debit_kept (monSample_kept hs)) modAStat_kept))

theorem execSampleAppendComplete_runs {i : Nat} (h : Kept s₀ s) : Runs s₀ (execSampleAppendComplete i s) := by
  dsimp only [execSampleAppendComplete]
  refine .next ?_
  split
  · refine .ite h (.ite (.ite (sampleEnd_kept (.lit h)) (setApxReq_kept (.lit h))) ?_)
    exact .ite (sampleEnd_kept (.lit h)) (.ite h (deliver_kept (.lit h)))
  · exact .ite (apxAppend_kept (setApxReq_kept h)) h
  · exact h

theorem execRingEndWrite_runs {i : Nat} (h : Kept s₀ s) : Runs s₀ (execRingEndWrite i s) := by
  dsimp only [execRingEndWrite]
  refine .next ?_
  split
  · exact h
  · refine .ite h ?_
    split
    · exact apxFinish_kept (freeReq_kept (setApxReq_kept (putEnd_kept h)))
    · exact setApxReq_kept (putEnd_kept h)

/-! ### Centroid -/

theorem execOpenIndex_runs {e : Nat} (h : Kept s₀ s) : Runs s₀ (execOpenIndex e s) := by
  dsimp only [execOpenIndex]
  refine .next ?_
  split
  · exact h
  · rename_i s1 e
    have hs : Kept s₀ s1 := .eqO2 e (cenTake_kept h)
    split
    · exact .ite (cenDone_kept h (.mk (modCen_kept (openIdx_kept hs)))) (cenDone_kept h (openIdx_kept hs))
    · exact cenDone_kept h (openIdx_kept hs)

theorem execCloseIndex_runs {e : Nat} (h : Kept s₀ s) : Runs s₀ (execCloseIndex e s) := by
  dsimp only [execCloseIndex]
  refine .next ?_
  split
  · exact closeNow_kept h
  · exact withIdx_kept h (fun _ _ _ h1 => .ite (cenFinish_kept h1) (.ite (closeNow_kept h1) (setIdx_kept h1)))

theorem execCenAppend_runs {e : Nat} (h : Kept s₀ s) : Runs s₀ (execCenAppend e s) := by
  dsimp only [execCenAppend]
  exact .next (withIdx_kept h (fun _ _ _ h1 => cenDone_kept h (cenAppend_kept h1)))

theorem execCenDelete_runs {e : Nat} (h : Kept s₀ s) : Runs s₀ (execCenDelete e s) := by
  dsimp only [execCenDelete]
  exact .next (withIdx_kept h (fun _ _ _ h1 => cenDone_kept h (cenDelete_kept h1)))

theorem execSearch_runs {e : Nat} (h : Kept s₀ s) : Runs s₀ (execSearch e s) := by
  dsimp only [execSearch]
  refine .next (.ite (admitWaiting_kept h) (withIdx_kept h (fun _ _ _ h1 => .ite ?_ (modCen_kept h1))))
  split
  · exact .eqO ‹_› (admitSearch_kept h1)
  · exact cenAgain_kept h

theorem execSearchRoundDone_runs {id : Nat} (h : Kept s₀ s) : Runs s₀ (execSearchRoundDone id s) := by
  dsimp only [execSearchRoundDone]
  refine .next (.ite h ?_)
  split
  · exact h
  · refine .ite h (.ite (.ite (endSearch_kept h) (modCen_kept h)) ?_)
    refine .ite (endSearch_kept (setArb_kept (searchRound_kept h))) ?_
    refine .ite (.ite (.ite (endSearch_kept h) (modCen_kept h)) ?_) ?_
    · exact endSearch_kept (modCStat_kept (writeResults_kept (modCStat_kept (setArb_kept (searchRound_kept h)))))
    · exact modCen_kept (modCStat_kept (setArb_kept (searchRound_kept h)))

theorem execMerge_runs {e : Nat} (h : Kept s₀ s) : Runs s₀ (execMerge e s) := by
  dsimp only [execMerge]
  exact .next (withIdx_kept h (fun _ _ _ h1 => .ite (cenFinish_kept h1) (setIdx_kept h1)))

theorem execMergeCommit_runs {i : Nat} (h : Kept s₀ s) : Runs s₀ (execMergeCommit i s) := by
  dsimp only [execMergeCommit]
  refine .next ?_
  split
  · exact h
  · refine .ite h (.ite (.ite (cenFinish_kept (setIdx_kept h)) (setIdx_kept h)) ?_)
    refine .ite ?_ (.ite (.ite (cenFinish_kept (setIdx_kept h)) (setIdx_kept h)) (.ite ?_ ?_))
    · exact cenFinish_kept (setIdx_kept (.of1 (.ite (mergeAll_kept (sideRecs_kept h)) (.mk (sideRecs_kept h)))))
    · exact cenFinish_kept (setIdx_kept (writeLive_kept (.of1 (.ite (mergeAll_kept (sideRecs_kept h)) (.mk (sideRecs_kept h))))))
    · exact modCStat_kept (setIdx_kept (writeLive_kept (.of1 (.ite (mergeAll_kept (sideRecs_kept h)) (.mk (sideRecs_kept h))))))

theorem execMergeMarkRemove_runs {i : Nat} (h : Kept s₀ s) : Runs s₀ (execMergeMarkRemove i s) := by
  dsimp only [execMergeMarkRemove]
  refine .next ?_
  split
  · exact h
  · refine .ite h (.ite (.ite (cenFinish_kept (setIdx_kept h)) (setIdx_kept h)) ?_)
    refine .ite (cenFinish_kept (setIdx_kept (cenRead_kept h))) ?_
    refine .ite (.ite (cenFinish_kept (setIdx_kept h)) (setIdx_kept h)) ?_
    exact cenFinish_kept (setIdx_kept (writeLive_kept (writeTable_kept (cenRead_kept h))))

/-! ### Arc -/

theorem execFcRefresh_runs {p prio : Nat} (h : Kept s₀ s) : Runs s₀ (execFcRefresh p prio s) := by
  dsimp only [execFcRefresh]
  refine .next ?_
  split
  · exact h
  · split
    · exact .ite (sendFc_kept h) h
    · exact h

theorem execOutputDequeue_runs {o : Nat} (h : Kept s₀ s) : Runs s₀ (execOutputDequeue o s) := by
  dsimp only [execOutputDequeue]
  refine .next ?_
  split
  · exact sendPkt_kept h
  · split
    · exact .eqO ‹_› (sendTier_kept h)
    · split
      · exact sendPkt_kept (setOut_kept h)
      · exact .getD (.findSome fun _ => sendTier_kept h) h

theorem execPauseFrameRx_runs {p time : Nat} (h : Kept s₀ s) : Runs s₀ (execPauseFrameRx p time s) := by
  dsimp only [execPauseFrameRx]
  exact .next (.ite h (.ite (modEth_kept (pauseKey_kept h)) (fcDiscard_kept h)))

theorem execPfcFrameRx_runs {p mask : Nat} {times : List Nat} (h : Kept s₀ s) : Runs s₀ (execPfcFrameRx p mask times s) := by
  dsimp only [execPfcFrameRx]
  exact .next (.ite h (.ite (.foldl (modEth_kept h) fun _ _ h1 => .ite (pauseKey_kept h1) h1) (fcDiscard_kept h)))

theorem execPauseExpire_runs {p k : Nat} (h : Kept s₀ s) : Runs s₀ (execPauseExpire p k s) := by
  dsimp only [execPauseExpire]
  refine .next ?_
  split
  · exact .ite (modArc_kept h) h
  · exact h

theorem execFreeze_runs {who : Requester} {n : Nat} (h : Kept s₀ s) : Runs s₀ (execFreeze who n s) := by
  dsimp only [execFreeze]
  exact monCtl_runs (fun _ _ h1 => modArc_kept h1) h

theorem execThaw_runs {who : Requester} {n : Nat} (h : Kept s₀ s) : Runs s₀ (execThaw who n s) := by
  dsimp only [execThaw]
  exact monCtl_runs (fun _ _ h1 => modArc_kept h1) h

theorem execMonClear_runs {who : Requester} {n : Nat} (h : Kept s₀ s) : Runs s₀ (execMonClear who n s) := by
  dsimp only [execMonClear]
  exact monCtl_runs (fun _ _ h1 => monClear_kept h1) h

/-! ### Edge -/

theorem execPortStopped_runs {p : Nat} (h : Kept s₀ s) : Runs s₀ (execPortStopped p s) := by
  dsimp only [execPortStopped]
  exact .next (.ite (.ite (pairRemap_kept (setPort_kept h)) (dropHeld_kept (setPort_kept h))) h)

theorem execReplayTimeout_runs {p : Nat} (h : Kept s₀ s) : Runs s₀ (execReplayTimeout p s) := by
  dsimp only [execReplayTimeout]
  exact .next (.ite (replay_kept h) h)

theorem execLinkAligned_runs {p : Nat} (h : Kept s₀ s) : Runs s₀ (execLinkAligned p s) := by
  dsimp only [execLinkAligned]
  exact .next (.ite h (.ite (report_kept h) (.ite h (.ite (setPort_kept h) (send_kept (setPort_kept h))))))

theorem execHello_runs {p version role : Nat} {spare : Bool} (h : Kept s₀ s) : Runs s₀ (execHello p version role spare s) := by
  dsimp only [execHello]
  exact .next (.ite h (startAgree_kept (.ite (.lit (setPort_kept h)) (setPort_kept h))))

theorem execLinkStepTimeout_runs {p : Nat} (h : Kept s₀ s) : Runs s₀ (execLinkStepTimeout p s) := by
  dsimp only [execLinkStepTimeout]
  exact .next (.ite h (.ite (setPort_kept h) (toStep1_kept h)))

theorem execBringupBackoffEnd_runs {p : Nat} (h : Kept s₀ s) : Runs s₀ (execBringupBackoffEnd p s) := by
  dsimp only [execBringupBackoffEnd]
  exact .next (.ite (modPort_kept h) h)

theorem execCredit_runs {p part : Nat} {units : List Nat} (h : Kept s₀ s) : Runs s₀ (execCredit p part units s) := by
  dsimp only [execCredit]
  exact .next (.ite h (.maybe (setPort_kept h) goUp_kept))

theorem execLinkPause_runs {p mask time : Nat} (h : Kept s₀ s) : Runs s₀ (execLinkPause p mask time s) := by
  dsimp only [execLinkPause]
  exact .next (.ite (linkPaused_kept h) h)

theorem execRekeyStart_runs {p : Nat} (h : Kept s₀ s) : Runs s₀ (execRekeyStart p s) := by
  dsimp only [execRekeyStart]
  exact .next (.ite (startRekey_kept h) h)

theorem execRekey_runs {p e : Nat} (h : Kept s₀ s) : Runs s₀ (execRekey p e s) := by
  dsimp only [execRekey]
  refine .next (.ite h (.ite (portDown_kept h) ?_))
  split
  · exact .ite h (.maybe (setAgree_kept h) agreeCommit_kept)
  · exact .ite h (startAgree_kept h)

theorem execRekeyResend_runs {p : Nat} (h : Kept s₀ s) : Runs s₀ (execRekeyResend p s) := by
  dsimp only [execRekeyResend]
  refine .next ?_
  split
  · exact .ite (send_kept (setAgree_kept h)) h
  · exact h

theorem execRekeyAck_runs {p e : Nat} (h : Kept s₀ s) : Runs s₀ (execRekeyAck p e s) := by
  dsimp only [execRekeyAck]
  refine .next ?_
  split
  · exact agreeCheck_kept (setAgree_kept h)
  · exact h

theorem execCalShadowReady_runs {p : Nat} (h : Kept s₀ s) : Runs s₀ (execCalShadowReady p s) := by
  dsimp only [execCalShadowReady]
  refine .next ?_
  split
  · refine .ite h ?_
    split
    · exact setPort_kept h
    · split
      · exact retireLane_kept (send_kept (setPort_kept h))
      · exact send_kept (setPort_kept h)
  · exact h

theorem execCalTuneEnd_runs {p : Nat} (h : Kept s₀ s) : Runs s₀ (execCalTuneEnd p s) := by
  dsimp only [execCalTuneEnd]
  refine .next ?_
  split
  · exact .ite (setPort_kept h) h
  · exact h

theorem execCalVerifyEnd_runs {p : Nat} {pass : Bool} (h : Kept s₀ s) : Runs s₀ (execCalVerifyEnd p pass s) := by
  dsimp only [execCalVerifyEnd]
  refine .next ?_
  split
  · refine .ite h (.ite (setPort_kept h) ?_)
    split
    · exact retireLane_kept (modPort_kept (send_kept (setPort_kept h)))
    · exact send_kept (setPort_kept h)
  · exact h

theorem execLaneAck_runs {p action pos : Nat} (h : Kept s₀ s) : Runs s₀ (execLaneAck p action pos s) := by
  dsimp only [execLaneAck]
  refine .next ?_
  split
  · refine .ite h (.ite (laneRetired_kept (setPort_kept h)) ?_)
    exact .ite (report_kept (laneRetired_kept (setPort_kept h))) (setPort_kept h)
  · exact h

theorem execLaneReqShadow_runs {p pos : Nat} (h : Kept s₀ s) : Runs s₀ (execLaneReqShadow p pos s) := by
  dsimp only [execLaneReqShadow]
  refine .next (.ite h ?_)
  split
  · exact send_kept (setPort_kept h)
  · exact h

theorem execLaneReqRelease_runs {p pos : Nat} (h : Kept s₀ s) : Runs s₀ (execLaneReqRelease p pos s) := by
  dsimp only [execLaneReqRelease]
  exact .next (.ite h (send_kept (setPort_kept h)))

theorem execLaneReqRetire_runs {p pos : Nat} (h : Kept s₀ s) : Runs s₀ (execLaneReqRetire p pos s) := by
  dsimp only [execLaneReqRetire]
  refine .next ?_
  split
  · refine .ite h ?_
    split
    · exact laneRetired_kept (send_kept (setPort_kept h))
    · exact send_kept (setPort_kept h)
  · exact h

theorem execLaneReqDegrade_runs {p : Nat} {m : LaneMsg} (h : Kept s₀ s) : Runs s₀ (execLaneReqDegrade p m s) := by
  dsimp only [execLaneReqDegrade]
  exact .next (.ite h (report_kept (send_kept (.foldl (setPort_kept h) fun _ _ h1 => laneRetired_kept h1))))

theorem execLaneLossOfLock_runs {p l : Nat} (h : Kept s₀ s) : Runs s₀ (execLaneLossOfLock p l s) := by
  dsimp only [execLaneLossOfLock]
  exact .next (.ite h (setPort_kept h))

theorem execLaneRetireTrigger_runs {p l : Nat} {ser : Bool} (h : Kept s₀ s) : Runs s₀ (execLaneRetireTrigger p l ser s) := by
  dsimp only [execLaneRetireTrigger]
  refine .next (.ite h (.ite (retireLane_kept (setPort_kept h)) ?_))
  exact .ite (retireLane_kept (setPort_kept h)) (.maybe (setPort_kept h) retireLane_kept)

theorem execTrayLaneSpare_runs {t lane : Nat} (h : Kept s₀ s) : Runs s₀ (execTrayLaneSpare t lane s) := by
  dsimp only [execTrayLaneSpare]
  exact .next (.ite h (.ite (modTrayLink_kept h) (.ite (modTrayLink_kept h) (trayDown_kept (modTrayLink_kept h)))))

theorem execTrayLinkUp_runs {t width : Nat} {cap : Bool} (h : Kept s₀ s) : Runs s₀ (execTrayLinkUp t width cap s) := by
  dsimp only [execTrayLinkUp]
  exact .next (trayUp_kept (modTrayLink_kept h))

theorem execTrayHeadLinkDown_runs {t : Nat} (h : Kept s₀ s) : Runs s₀ (execTrayHeadLinkDown t s) := by
  dsimp only [execTrayHeadLinkDown]
  exact .next (trayDown_kept (modTrayLink_kept h))

/-! ### Submit -/

theorem execBlockCmdPresent_runs {b : Block} {q : Nat} (h : Kept s₀ s) : Runs s₀ (execBlockCmdPresent b q s) := by
  dsimp only [execBlockCmdPresent]
  refine .next ?_
  split
  · exact .ite h (modSeq_kept (setQueue_kept h))
  · exact h

/-! ### Sequencer -/

theorem execHalt_runs {m : Nat} (h : Kept s₀ s) : Runs s₀ (execHalt m s) := by
  dsimp only [execHalt]
  split
  · exact .next (endProgram_kept h)
  · exact .next h

theorem execDfetch_runs {m : Nat} (h : Kept s₀ s) : Runs s₀ (execDfetch m s) := by
  dsimp only [execDfetch]
  split
  · exact .next h
  · exact .next (send_kept (setSeq_kept h))

theorem execDfetchDataReturn_runs {m : Nat} (h : Kept s₀ s) : Runs s₀ (execDfetchDataReturn m s) := by
  dsimp only [execDfetchDataReturn]
  split
  · exact .next (setSeq_kept (engineRead_kept h))
  · exact .next h

theorem execLoop_runs {m : Nat} (h : Kept s₀ s) : Runs s₀ (execLoop m s) := by
  dsimp only [execLoop]
  split
  · exact .next h
  · exact .ite (.next (setSeq_kept h)) (.next (setSeq_kept h))

theorem execWaitsync_runs {m : Nat} (h : Kept s₀ s) : Runs s₀ (execWaitsync m s) := by
  dsimp only [execWaitsync]
  split
  · exact .next h
  · split
    · exact .next (modSeq_kept (.eq1 ‹_› (syncOp_kept (setSeq_kept h))))
    · exact .next (.eq1 ‹_› (syncOp_kept (setSeq_kept h)))

theorem execWaitang_runs {m : Nat} (h : Kept s₀ s) : Runs s₀ (execWaitang m s) := by
  dsimp only [execWaitang]
  split
  · exact .next h
  · exact .ite (.next (setSeq_kept h)) (.next (setSeq_kept h))

theorem execSeqWaitTimeout_runs {m : Nat} (h : Kept s₀ s) : Runs s₀ (execSeqWaitTimeout m s) := by
  dsimp only [execSeqWaitTimeout]
  split
  · exact .ite (.next (setSeq_kept h)) (.next h)
  · exact .ite (.next (wake_kept (setSeq_kept (setObj_kept h)))) (.next h)
  · exact .next h

theorem execIssue_runs {m : Nat} (h : Kept s₀ s) : Runs s₀ (execIssue m s) := by
  dsimp only [execIssue]
  split
  · exact .next h
  · exact .ite (.next (setSeq_kept h)) (.next (blockIssue_kept (setSeq_kept h)))

theorem execIssueComplete_runs {m slot : Nat} (h : Kept s₀ s) : Runs s₀ (execIssueComplete m slot s) := by
  dsimp only [execIssueComplete]
  split
  · exact .next h
  · split
    · exact .next h
    · exact .ite (.next h) (.ite (.next (.maybe (setSeq_kept h) seqIdle_kept)) (.next (setSeq_kept h)))

theorem execSignal_runs {m : Nat} (h : Kept s₀ s) : Runs s₀ (execSignal m s) := by
  dsimp only [execSignal]
  split
  · exact .next h
  · refine .ite (.next (setSeq_kept h)) ?_
    split
    · exact .next (setSeq_kept h)
    · exact .next (modSeq_kept (syncOp_kept (setSeq_kept h)))

theorem execBrst_runs {m : Nat} (h : Kept s₀ s) : Runs s₀ (execBrst m s) := by
  dsimp only [execBrst]
  split
  · exact .next h
  · exact .ite (.next (setSeq_kept h)) (.ite (.next (setSeq_kept h)) (.next (setSeq_kept h)))

theorem execSequencerStart_runs {who : Requester} {m entry asid dbase : Nat} (h : Kept s₀ s) :
    Runs s₀ (execSequencerStart who m entry asid dbase s) := by
  dsimp only [execSequencerStart]
  exact .next (reply_kept (seqStart_kept h))

/-! ### Domain -/

theorem execAngleAdvance_runs {p node a : Nat} (h : Kept s₀ s) : Runs s₀ (execAngleAdvance p node a s) := by
  dsimp only [execAngleAdvance]
  split
  · exact .next h
  · refine .ite (.next h) (.ite (.next (setDom_kept h)) ?_)
    exact .ite (.next (setDom_kept h)) (.ite (.next h) (.next (followSources_kept (setDom_kept h))))

theorem execAngleStallTimeout_runs {n : Nat} (h : Kept s₀ s) : Runs s₀ (execAngleStallTimeout n s) := by
  dsimp only [execAngleStallTimeout]
  exact .ite (.next (enterStalled_kept h)) (.next h)

theorem execRestartDone_runs {n : Nat} (h : Kept s₀ s) : Runs s₀ (execRestartDone n s) := by
  dsimp only [execRestartDone]
  refine .ite (.next h) ?_
  exact .next (mirrorOnly_kept (modDom_kept (.foldl h fun _ _ h1 => seqIdle_kept (modSeq_kept h1))))

theorem execDomCtlNone_runs {who : Requester} {n : Nat} (h : Kept s₀ s) : Runs s₀ (execDomCtlNone who n s) :=
  .of domCtl_next (execDomCtlNone_kept h)

theorem execDomHold_runs {who : Requester} {n : Nat} (h : Kept s₀ s) : Runs s₀ (execDomHold who n s) :=
  .of domCtl_next (execDomHold_kept h)

theorem execDomRelease_runs {who : Requester} {n : Nat} (h : Kept s₀ s) : Runs s₀ (execDomRelease who n s) :=
  .of domCtl_next (execDomRelease_kept h)

theorem execDomRestart_runs {who : Requester} {n : Nat} (h : Kept s₀ s) : Runs s₀ (execDomRestart who n s) :=
  .of domCtl_next (execDomRestart_kept h)

theorem execDomRebase_runs {who : Requester} {n : Nat} (h : Kept s₀ s) : Runs s₀ (execDomRebase who n s) :=
  .of domCtl_next (execDomRebase_kept h)

theorem execSourceAdd_runs {who : Requester} {n node : Nat} (h : Kept s₀ s) : Runs s₀ (execSourceAdd who n node s) :=
  .of domCtl_next (execSourceAdd_kept h)

theorem execSourceRemove_runs {who : Requester} {n node : Nat} (h : Kept s₀ s) : Runs s₀ (execSourceRemove who n node s) :=
  .of domCtl_next (execSourceRemove_kept h)

theorem execScheduleActionDispatch_runs {n : Nat} (h : Kept s₀ s) : Runs s₀ (execScheduleActionDispatch n s) := by
  dsimp only [execScheduleActionDispatch]
  split
  · exact .next h
  · refine .ite (.next h) ?_
    split
    · exact .next (judge_kept (.eq1 ‹_› (performAction_kept (setDom_kept h))))
    · exact .next (.eq1 ‹_› (performAction_kept (setDom_kept h)))

theorem execActionRepresent_runs {n : Nat} (h : Kept s₀ s) : Runs s₀ (execActionRepresent n s) := by
  dsimp only [execActionRepresent]
  split
  · exact .next h
  · split
    · refine .ite (.next (countMissed_kept (setDom_kept h))) ?_
      split
      · exact .next (judgeUntil_kept (.eq1 ‹_› (performAction_kept (setDom_kept h))))
      · exact .next (.eq1 ‹_› (performAction_kept (setDom_kept h)))
    · split
      · exact .next (judgeUntil_kept (.eq1 ‹_› (performAction_kept (setDom_kept h))))
      · exact .next (.eq1 ‹_› (performAction_kept (setDom_kept h)))

/-! ### Group -/

theorem execGroupFill_runs {who : Requester} {g src dst bytes : Nat} (h : Kept s₀ s) : Runs s₀ (execGroupFill who g src dst bytes s) := by
  dsimp only [execGroupFill]
  exact mgmtGate_runs (fun _ h1 => .next (.ite (reply_kept h1) (.ite (reply_kept h1) (fillTry_kept h1)))) h

theorem execGroupZero_runs {who : Requester} {g : Nat} (h : Kept s₀ s) : Runs s₀ (execGroupZero who g s) := by
  dsimp only [execGroupZero]
  refine mgmtGate_runs (fun _ h1 => .next (.ite (reply_kept h1) ?_)) h
  exact .ite (reply_kept h1) (mirrorThen_kept (fun _ h1 => groupZeroDone_kept h1) (modPer_kept h1))

/-! ### Energy -/

theorem execOptRefclkFail_runs {k : Nat} (h : Kept s₀ s) : Runs s₀ (execOptRefclkFail k s) := by
  dsimp only [execOptRefclkFail]
  exact .next (.ite h (.foldl (.maybeNot (setRef_kept h) modMer_kept) fun _ _ h1 => portDown_kept h1))

theorem execOptRefclkRestore_runs {k lag : Nat} (h : Kept s₀ s) : Runs s₀ (execOptRefclkRestore k lag s) := by
  dsimp only [execOptRefclkRestore]
  exact .next (.ite h (.maybe (setRef_kept h) modMer_kept))

theorem execPcieRefclkFail_runs {k : Nat} {cc : List Nat} (h : Kept s₀ s) : Runs s₀ (execPcieRefclkFail k cc s) := by
  dsimp only [execPcieRefclkFail]
  exact .next (.ite h (.foldl (modPins_kept h) fun _ _ h1 => trayDown_kept (modTrayLink_kept h1)))

theorem execPcieRefclkRestore_runs {k : Nat} (h : Kept s₀ s) : Runs s₀ (execPcieRefclkRestore k s) := by
  dsimp only [execPcieRefclkRestore]
  exact .next (.ite h (modPins_kept h))

theorem execSensorSample_runs {sensor : Nat} {value : Int} (h : Kept s₀ s) : Runs s₀ (execSensorSample sensor value s) := by
  dsimp only [execSensorSample]
  exact .next (.ite h (.maybe (.maybe (modCmp_kept h) modEnergy_kept) thermal_kept))

theorem execPmbusBudgetWrite_runs {v : Nat} (h : Kept s₀ s) : Runs s₀ (execPmbusBudgetWrite v s) := by
  dsimp only [execPmbusBudgetWrite]
  exact .next (.ite (setBudget_kept h) h)

theorem execBudgetSet_runs {who : Requester} {w : Nat} (h : Kept s₀ s) : Runs s₀ (execBudgetSet who w s) := by
  dsimp only [execBudgetSet]
  exact mgmtGate_runs (fun _ h1 => .next (reply_kept (setBudget_kept h1))) h

theorem execEnergyEpochEnd_runs (h : Kept s₀ s) : Runs s₀ (execEnergyEpochEnd s) := by
  dsimp only [execEnergyEpochEnd]
  exact .next (.ite h (openEpoch_kept (auditWindow_kept (closeEpoch_kept (settleDeficit_kept (settleBase_kept h))))))

theorem execEnergyPauseRefresh_runs {p : Nat} (h : Kept s₀ s) : Runs s₀ (execEnergyPauseRefresh p s) := by
  dsimp only [execEnergyPauseRefresh]
  refine .next ?_
  split
  · exact .ite (modEnergy_kept (send_kept h)) h
  · exact h

theorem execLogFlushPeriodic_runs (h : Kept s₀ s) : Runs s₀ (execLogFlushPeriodic s) := by
  dsimp only [execLogFlushPeriodic]
  exact .next (.ite (.lit (flushLog_kept h)) h)

theorem execFtOccurrenceFire_runs (h : Kept s₀ s) : Runs s₀ (execFtOccurrenceFire s) := by
  dsimp only [execFtOccurrenceFire]
  exact .ite (.next (runDevDue_kept (fireFt_kept h))) (.next h)

/-! ### Fence -/

theorem execBlockFenceDrainEnd_runs {b : Block} (h : Kept s₀ s) : Runs s₀ (execBlockFenceDrainEnd b s) := by
  dsimp only [execBlockFenceDrainEnd]
  exact .next (.ite (modFence_kept (drainBlock_kept h)) h)

theorem execBlockFenceExit_runs {b : Block} (h : Kept s₀ s) : Runs s₀ (execBlockFenceExit b s) := by
  dsimp only [execBlockFenceExit]
  exact .next (.ite (.foldl (report_kept (modFence_kept h)) fun _ _ h1 => reply_kept h1) h)

theorem execBlockWatchdogExpire_runs {b : Block} (h : Kept s₀ s) : Runs s₀ (execBlockWatchdogExpire b s) := by
  dsimp only [execBlockWatchdogExpire]
  exact .next (.ite h (.maybe (setFaultBit_kept (.lit h)) startFence_kept))

theorem execBlockReset_runs {who : Requester} {b : Block} (h : Kept s₀ s) : Runs s₀ (execBlockReset who b s) := by
  dsimp only [execBlockReset]
  exact mgmtGate_runs (fun _ h1 => .next (.ite (modFence_kept (startFence_kept h1)) (reply_kept h1))) h

theorem execDirectoryWalkDone_runs (h : Kept s₀ s) : Runs s₀ (execDirectoryWalkDone s) := by
  dsimp only [execDirectoryWalkDone]
  refine .next (.ite h ?_)
  exact restartDomains_kept (writeRecalled_kept (modVtx_kept (.foldl h fun _ _ h1 => .ite h1 (poisonLine_kept h1))))

theorem execCohDomainUp_runs {partnerDone : Bool} (h : Kept s₀ s) : Runs s₀ (execCohDomainUp partnerDone s) := by
  dsimp only [execCohDomainUp]
  exact .next (.ite (restartDomains_kept (modVtx_kept (writeRecalled_kept h))) (writeRecalled_kept h))

theorem execEngineAccessTimeout_runs {o : AccessOwner} (h : Kept s₀ s) : Runs s₀ (execEngineAccessTimeout o s) := by
  dsimp only [execEngineAccessTimeout]
  refine .next ?_
  split
  · exact orbTimeout_kept h
  · exact apxTimeout_kept h
  · exact cenTimeout_kept h
  · exact locSyncTimeout_kept h

theorem execStarvationPromote_runs {b : Block} {u n k : Nat} (h : Kept s₀ s) : Runs s₀ (execStarvationPromote b u n k s) := by
  dsimp only [execStarvationPromote]
  refine .next ?_
  split
  · exact starveOut_kept h
  · exact starveOut_kept h
  · exact starveCone_kept h
  · exact starveArb_kept h

/-! ### Roce -/

theorem execEthFrameRx_runs {p mac : Nat} {vlan : Option Nat} {data : List Byte} (h : Kept s₀ s) :
    Runs s₀ (execEthFrameRx p mac vlan data s) := by
  dsimp only [execEthFrameRx]
  refine .next (.ite h (.ite h ?_))
  split
  · exact .ite (emit_kept h) (dropFrame_kept h)
  · exact dropFrame_kept h

theorem execEthFrameFromXcl_runs {p sclass mac : Nat} {vlan : Option Nat} {data : List Byte} (h : Kept s₀ s) :
    Runs s₀ (execEthFrameFromXcl p sclass mac vlan data s) := by
  dsimp only [execEthFrameFromXcl]
  refine .next (.ite h (.ite (dropFrame_kept h) ?_))
  split
  · exact emit_kept h
  · exact dropFrame_kept h

theorem execRoceRdmaReadRx_runs {q psn off len rkey : Nat} {ce : Bool} {ext : List Byte} (h : Kept s₀ s) :
    Runs s₀ (execRoceRdmaReadRx q psn off len rkey ce ext s) := by
  dsimp only [execRoceRdmaReadRx]
  refine .next (inOrder_kept (fun _ h1 => ?_) (fun _ _ h1 => windowRead_kept h1) h)
  split
  · exact windowRead_kept h1
  · exact h1

theorem execRoceRdmaWriteRx_runs {q psn off rkey : Nat} {data : List Byte} {ce : Bool} (h : Kept s₀ s) :
    Runs s₀ (execRoceRdmaWriteRx q psn off rkey data ce s) := by
  dsimp only [execRoceRdmaWriteRx]
  refine .next (inOrder_kept (fun _ h1 => send_kept h1) (fun _ _ h1 => .ite (send_kept h1) (.ite (sendNak_kept h1) ?_)) h)
  split
  · exact sendNak_kept (rollPsn_kept (engineWriteAs_kept h1))
  · exact send_kept (engineWriteAs_kept h1)

theorem execRoceSendRx_runs {q psn blk queue : Nat} {words : List Nat} {ce : Bool} (h : Kept s₀ s) :
    Runs s₀ (execRoceSendRx q psn blk queue words ce s) := by
  dsimp only [execRoceSendRx]
  refine .next (inOrder_kept (fun _ h1 => send_kept h1) (fun _ _ h1 => .ite (sendNak_kept h1) ?_) h)
  split
  · exact reply_kept (send_kept h1)
  · split
    · exact reply_kept (.eq1 ‹_› (submitTo_kept (send_kept h1)))
    · exact .eq1 ‹_› (submitTo_kept (send_kept h1))

theorem execRoceAckRx_runs {q psn : Nat} {nak : Option Nat} (h : Kept s₀ s) : Runs s₀ (execRoceAckRx q psn nak s) := by
  dsimp only [execRoceAckRx]
  refine .next (.ite (modEdge_kept h) ?_)
  split
  · exact .ite (modQp_kept h) h
  · refine .ite (retransmit_kept (modQp_kept h)) ?_
    exact .ite (retransmit_kept (modQp_kept (modQp_kept h))) (modQp_kept (modQp_kept h))

theorem execRoceAckTimeout_runs {q : Nat} (h : Kept s₀ s) : Runs s₀ (execRoceAckTimeout q s) := by
  dsimp only [execRoceAckTimeout]
  refine .next ?_
  split
  · exact .ite (retransmit_kept h) h
  · exact h

theorem execRoceCnpRx_runs {q : Nat} (h : Kept s₀ s) : Runs s₀ (execRoceCnpRx q s) := by
  dsimp only [execRoceCnpRx]
  exact .next (.ite (modQp_kept h) h)

theorem execRoceRateIncrease_runs {q : Nat} (h : Kept s₀ s) : Runs s₀ (execRoceRateIncrease q s) := by
  dsimp only [execRoceRateIncrease]
  exact .next (.ite (modQp_kept h) h)

theorem execEngCmd_runs {who : Requester} {sclass asid blk queue : Nat} {words : List Nat} (h : Kept s₀ s) :
    Runs s₀ (execEngCmd who sclass asid blk queue words s) := by
  dsimp only [execEngCmd]
  split
  · refine .next (.ite h (.ite (reply_kept h) ?_))
    split
    · split
      · exact reply_kept (.eq1 ‹_› (submitTo_kept h))
      · exact .eq1 ‹_› (submitTo_kept h)
    · exact reply_kept h
  · exact .next (reply_kept h)

/-! ### Perimeter -/

theorem execPoolFound_runs (h : Kept s₀ s) : Runs s₀ (execPoolFound s) := by
  dsimp only [execPoolFound]
  exact .next (.ite (foundPool_kept h) h)

theorem execPoolFoundTimeout_runs (h : Kept s₀ s) : Runs s₀ (execPoolFoundTimeout s) := by
  dsimp only [execPoolFoundTimeout]
  exact .next (.ite (foundPool_kept h) h)

theorem execEpochCommitDone_runs {ok okAgain : Bool} (h : Kept s₀ s) : Runs s₀ (execEpochCommitDone ok okAgain s) := by
  dsimp only [execEpochCommitDone]
  refine .next ?_
  split
  · exact h
  · refine nextCommit_kept (.ite (commitOk_kept (writeCommit_kept (modPer_kept h))) ?_)
    exact commitFail_kept (writeCommit_kept (modPer_kept h))

theorem execEpochClear_runs {who : Requester} {r : Nat} (h : Kept s₀ s) : Runs s₀ (execEpochClear who r s) := by
  dsimp only [execEpochClear]
  exact mgmtGate_runs (fun _ h1 => .next (.ite (reply_kept h1) (.ite (reply_kept h1) (reply_kept (modPer_kept h1))))) h

theorem execScrubComplete_runs (h : Kept s₀ s) : Runs s₀ (execScrubComplete s) := by
  dsimp only [execScrubComplete]
  refine .next ?_
  split
  · exact h
  · exact .ite (scrubOver_kept (liftScrub_kept h)) (.ite (scrubOver_kept (modPer_kept h)) h)

theorem execScrubEscalate_runs (h : Kept s₀ s) : Runs s₀ (execScrubEscalate s) := by
  dsimp only [execScrubEscalate]
  refine .next ?_
  split
  · exact h
  · exact .ite (fenceAll_kept (modPer_kept h)) h

theorem execDebugChallenge_runs {who : Requester} (h : Kept s₀ s) : Runs s₀ (execDebugChallenge who s) := by
  dsimp only [execDebugChallenge]
  exact mgmtGate_runs (fun _ h1 => .next (reply_kept (modPer_kept (useFresh_kept (useFresh_kept h1))))) h

theorem execDebugUnlock_runs {who : Requester} {keyOk sigOk magicOk : Bool} {scope identity challenge : Nat} (h : Kept s₀ s) :
    Runs s₀ (execDebugUnlock who keyOk sigOk magicOk scope identity challenge s) := by
  dsimp only [execDebugUnlock]
  refine mgmtGate_runs (fun _ h1 => .next (.ite (reply_kept (modPer_kept h1)) ?_)) h
  refine .ite (reply_kept (modPer_kept h1)) (reply_kept (.maybeNot ?_ foundPool_kept))
  exact modPer_kept (dropPool_kept (.foldl (fenceAll_kept (modPer_kept (modPer_kept h1))) fun _ _ h1 =>
    scrubOver_kept (liftScrub_kept (scrubClear_kept h1))))

/-! ### Boot -/

theorem execIslandPowerLoss_runs (h : Kept s₀ s) : Runs s₀ (execIslandPowerLoss s) := by
  dsimp only [execIslandPowerLoss]
  exact .next (modPins_kept (coldState_kept h))

theorem execPorstNRelease_runs {pgCmp pgCore pgAux : Bool} {temp : Int} (h : Kept s₀ s) :
    Runs s₀ (execPorstNRelease pgCmp pgCore pgAux temp s) := by
  dsimp only [execPorstNRelease]
  refine .next (.ite h ?_)
  exact .ite (startLoading_kept (modPair_kept (modPins_kept (modPins_kept h)))) (modPins_kept (modPins_kept h))

theorem execPwrGoodHoldRelease_runs (h : Kept s₀ s) : Runs s₀ (execPwrGoodHoldRelease s) := by
  dsimp only [execPwrGoodHoldRelease]
  exact .next (.ite h (startLoading_kept (modPair_kept (modPins_kept h))))

theorem execPowerLoss_runs {core aux : Bool} (h : Kept s₀ s) : Runs s₀ (execPowerLoss core aux s) := by
  dsimp only [execPowerLoss]
  exact .next (.ite h (modPins_kept (holdBlocks_kept h)))

theorem execThermalTrip_runs {sensor : Nat} {value : Int} (h : Kept s₀ s) : Runs s₀ (execThermalTrip sensor value s) := by
  dsimp only [execThermalTrip]
  refine .next (.ite h (.ite (modPins_kept h) ?_))
  exact holdBlocks_kept (flushLog_kept (setFaultBit_kept (report_kept (thermal_kept (modCmp_kept (modPins_kept h))))))

theorem execCompassWatchdogExpire_runs (h : Kept s₀ s) : Runs s₀ (execCompassWatchdogExpire s) := by
  dsimp only [execCompassWatchdogExpire]
  exact .next h

theorem execImageLoadDone_runs {hw : Hw} (h : Kept s₀ s) : Runs s₀ (execImageLoadDone hw s) := by
  dsimp only [execImageLoadDone]
  refine .next (.ite h ?_)
  split
  · refine .ite (startInit_kept (loadEnergy_kept (modCmp_kept (modCmp_kept h)))) ?_
    exact .ite (holdBlocks_kept (modCmp_kept h)) (modCmp_kept (modCmp_kept h))
  · exact .ite (holdBlocks_kept (modCmp_kept h)) (modCmp_kept (modCmp_kept h))

theorem execInitTimeout_runs (h : Kept s₀ s) : Runs s₀ (execInitTimeout s) := by
  dsimp only [execInitTimeout]
  exact .next (.ite (holdBlocks_kept h) h)

theorem execWarmRstN_runs {hw : Hw} (h : Kept s₀ s) : Runs s₀ (execWarmRstN hw s) := by
  dsimp only [execWarmRstN]
  exact .next (.ite h (startInit_kept (modCmp_kept h)))

theorem execInitComplete_runs (h : Kept s₀ s) : Runs s₀ (execInitComplete s) := by
  dsimp only [execInitComplete]
  refine .next (.ite h ?_)
  exact tryPair_kept (sendStatement_kept (.maybe (modMer_kept (report_kept (modPair_kept (modCmp_kept h)))) skipFt_kept))

theorem execReboot_runs {who : Requester} {onlyB : Bool} (h : Kept s₀ s) : Runs s₀ (execReboot who onlyB s) := by
  dsimp only [execReboot]
  refine mgmtGate_runs (fun _ h1 => .next (.ite (reply_kept h1) (reboot_kept (reply_kept ?_)))) h
  split
  · exact .ite (scrubOver_kept (liftScrub_kept h1)) h1
  · exact h1

/-! ### Swap -/

theorem execShadowLoad_runs {who : Requester} {off len : Nat} {last : Bool} {img : Image} (h : Kept s₀ s) :
    Runs s₀ (execShadowLoad who off len last img s) := by
  dsimp only [execShadowLoad]
  refine mgmtGate_runs (fun _ h1 => .next (.ite (reply_kept h1) ?_)) h
  exact .ite (reply_kept h1) (.ite (reply_kept h1) (reply_kept (.maybe (modCmp_kept h1) verifyShadow_kept)))

theorem execShadowFromNvm_runs {who : Requester} {slotB : Bool} (h : Kept s₀ s) : Runs s₀ (execShadowFromNvm who slotB s) := by
  dsimp only [execShadowFromNvm]
  refine mgmtGate_runs (fun _ h1 => .next (.ite (reply_kept h1) ?_)) h
  split
  · exact reply_kept (.ite (verifyShadow_kept h1) (modCmp_kept h1))
  · exact reply_kept (modCmp_kept h1)

theorem execSwap_runs {who : Requester} {trig : SwapTrig} (h : Kept s₀ s) : Runs s₀ (execSwap who trig s) := by
  dsimp only [execSwap]
  exact mgmtGate_runs (fun _ h1 => .next (.ite (reply_kept h1) (.ite (reply_kept h1) (modCmp_kept h1)))) h

theorem execSwapCancel_runs {who : Requester} (h : Kept s₀ s) : Runs s₀ (execSwapCancel who s) := by
  dsimp only [execSwapCancel]
  refine mgmtGate_runs (fun _ h1 => .next ?_) h
  split
  · exact reply_kept (reply_kept (modCmp_kept h1))
  · exact reply_kept h1

theorem execSwapTrigger_runs (h : Kept s₀ s) : Runs s₀ (execSwapTrigger s) := by
  dsimp only [execSwapTrigger]
  refine .next ?_
  split
  · exact h
  · refine .ite h ?_
    split
    · exact reply_kept (report_kept (modCmp_kept h))
    · exact reply_kept (swapNow_kept h)

theorem execUpdateBegin_runs {who : Requester} {slotB : Bool} {len : Nat} (h : Kept s₀ s) : Runs s₀ (execUpdateBegin who slotB len s) := by
  dsimp only [execUpdateBegin]
  exact mgmtGate_runs (fun _ h1 => .next (.ite (reply_kept h1) (.ite (reply_kept h1) (modCmp_kept (modSlot_kept h1))))) h

theorem execUpdateEraseDone_runs (h : Kept s₀ s) : Runs s₀ (execUpdateEraseDone s) := by
  dsimp only [execUpdateEraseDone]
  refine .next ?_
  split
  · exact .ite h (reply_kept (modCmp_kept h))
  · exact h

theorem execUpdateData_runs {who : Requester} {off len : Nat} (h : Kept s₀ s) : Runs s₀ (execUpdateData who off len s) := by
  dsimp only [execUpdateData]
  refine mgmtGate_runs (fun _ h1 => .next (.ite (reply_kept h1) ?_)) h
  split
  · exact .ite (reply_kept h1) (.ite (reply_kept h1) (reply_kept (modCmp_kept h1)))
  · exact reply_kept h1

theorem execUpdateCommit_runs {who : Requester} {img : Image} (h : Kept s₀ s) : Runs s₀ (execUpdateCommit who img s) := by
  dsimp only [execUpdateCommit]
  refine mgmtGate_runs (fun _ h1 => .next ?_) h
  split
  · refine .ite (reply_kept h1) ?_
    exact .ite (reply_kept (report_kept (modSlot_kept (modCmp_kept h1)))) (reply_kept (modCmp_kept h1))
  · exact reply_kept h1

theorem execRollbackAdvance_runs {who : Requester} {v : Nat} (h : Kept s₀ s) : Runs s₀ (execRollbackAdvance who v s) := by
  dsimp only [execRollbackAdvance]
  exact mgmtGate_runs (fun _ h1 => .next (.ite (reply_kept (modCmp_kept h1)) (reply_kept h1))) h

theorem execOwnerSet_runs {who : Requester} {keyHash : Nat} (h : Kept s₀ s) : Runs s₀ (execOwnerSet who keyHash s) := by
  dsimp only [execOwnerSet]
  exact mgmtGate_runs (fun _ h1 => .next (.ite (reply_kept h1) (reply_kept (modCmp_kept h1)))) h

/-! ### Manage -/

theorem execLogRead_runs {who : Requester} {q : Nat} (h : Kept s₀ s) : Runs s₀ (execLogRead who q s) := by
  dsimp only [execLogRead]
  exact mgmtGate_runs (fun _ h1 => .next (reply_kept h1)) h

theorem execLogFlush_runs {who : Requester} (h : Kept s₀ s) : Runs s₀ (execLogFlush who s) := by
  dsimp only [execLogFlush]
  exact mgmtGate_runs (fun _ h1 => .next (.ite (reply_kept (flushLog_kept h1)) h1)) h

theorem execSensorRead_runs {who : Requester} {ks : List Nat} (h : Kept s₀ s) : Runs s₀ (execSensorRead who ks s) := by
  dsimp only [execSensorRead]
  exact mgmtGate_runs (fun _ h1 => .next (.ite (reply_kept h1) (reply_kept h1))) h

theorem execEnergyRead_runs {who : Requester} (h : Kept s₀ s) : Runs s₀ (execEnergyRead who s) := by
  dsimp only [execEnergyRead]
  exact mgmtGate_runs (fun _ h1 => .next (reply_kept h1)) h

theorem execRetireClear_runs {who : Requester} {r : Retired} (h : Kept s₀ s) : Runs s₀ (execRetireClear who r s) := by
  dsimp only [execRetireClear]
  exact mgmtGate_runs (fun _ h1 => .next (reply_kept (clearRetired_kept h1))) h

theorem execLaneRetire_runs {who : Requester} {p l : Nat} (h : Kept s₀ s) : Runs s₀ (execLaneRetire who p l s) := by
  dsimp only [execLaneRetire]
  exact mgmtGate_runs (fun _ h1 => .next (.ite (reply_kept h1) (reply_kept (retireLane_kept h1)))) h

theorem execMgmtSessionIdleClose_runs {k : Nat} (h : Kept s₀ s) : Runs s₀ (execMgmtSessionIdleClose k s) := by
  dsimp only [execMgmtSessionIdleClose]
  exact .next (.ite (modCmp_kept h) h)

theorem execLaserModuleRemoved_runs {m : Nat} (h : Kept s₀ s) : Runs s₀ (execLaserModuleRemoved m s) := by
  dsimp only [execLaserModuleRemoved]
  exact .next (.maybe (modPins_kept h) laserOff_kept)

/-! ### Pair -/

theorem execMirrorAck_runs {id : Nat} (h : Kept s₀ s) : Runs s₀ (execMirrorAck id s) := by
  dsimp only [execMirrorAck]
  refine .next ?_
  split
  · exact runAct_kept (modPair_kept h)
  · exact h

theorem execPairAliveInChange_runs {level : Bool} (h : Kept s₀ s) : Runs s₀ (execPairAliveInChange level s) := by
  dsimp only [execPairAliveInChange]
  exact .next (.ite (modPair_kept h) (modPair_kept h))

theorem execAliveDebounceExpire_runs (h : Kept s₀ s) : Runs s₀ (execAliveDebounceExpire s) := by
  dsimp only [execAliveDebounceExpire]
  exact .next (.ite (declareIfLost_kept (modPair_kept h)) h)

theorem execAliveMismatch_runs (h : Kept s₀ s) : Runs s₀ (execAliveMismatch s) := by
  dsimp only [execAliveMismatch]
  exact .next (.ite (setFaultBit_kept (modPair_kept h)) h)

theorem execYield_runs (h : Kept s₀ s) : Runs s₀ (execYield s) := by
  dsimp only [execYield]
  exact .next (.ite (modPair_kept (dropPool_kept (clearBlocks_kept h))) h)

theorem execTakeoverComplete_runs {contents : List BlkIn} (h : Kept s₀ s) : Runs s₀ (execTakeoverComplete contents s) := by
  dsimp only [execTakeoverComplete]
  exact .next (.ite (putContents_kept (modPair_kept (releaseAll_kept h))) h)

theorem execPairLinkLost_runs (h : Kept s₀ s) : Runs s₀ (execPairLinkLost s) := by
  dsimp only [execPairLinkLost]
  refine .next (.ite h (.ite (modPair_kept (modPer_kept (setFaultBit_kept (modPair_kept h)))) ?_))
  refine .ite (modPer_kept (setFaultBit_kept (modPair_kept h))) ?_
  exact declareIfLost_kept (orbForwardLost_kept (domainDown_kept (setFaultBit_kept (modPair_kept h))))

theorem execPairLinkRecover_runs (h : Kept s₀ s) : Runs s₀ (execPairLinkRecover s) := by
  dsimp only [execPairLinkRecover]
  exact .next (.ite h (.foldl (modPair_kept h) fun _ _ h1 => emit_kept h1))

theorem execMirrorUpdate_runs {seq : Nat} {m : Mirror} {contents : List BlkIn} (h : Kept s₀ s) :
    Runs s₀ (execMirrorUpdate seq m contents s) := by
  dsimp only [execMirrorUpdate]
  exact .next (.ite h (send_kept (putContents_kept (applyMirror_kept h))))

theorem execPoolJoin_runs {m : JoinMsg} (h : Kept s₀ s) : Runs s₀ (execPoolJoin m s) := by
  dsimp only [execPoolJoin]
  refine .next (.ite h ?_)
  split
  · exact .ite h (.ite (grantJoin_kept h) (report_kept h))
  · exact .ite (joined_kept h) h
  · exact .ite h (.maybe (report_kept (modPair_kept h)) report_kept)

theorem execHandbackComplete_runs {n : Nat} (h : Kept s₀ s) : Runs s₀ (execHandbackComplete n s) := by
  dsimp only [execHandbackComplete]
  refine .next (.ite h ?_)
  split
  · refine modPair_kept (.eqO ‹_› (.foldlBind (.some h) fun _ _ h1 => ?_))
    exact handPage_kept h1
  · exact h

theorem execPartitionAdmit_runs {n : Nat} {written : List (Nat × List Byte)} (h : Kept s₀ s) :
    Runs s₀ (execPartitionAdmit n written s) := by
  dsimp only [execPartitionAdmit]
  exact .next (.ite h (.ite (admitPart_kept h) (.ite (admitPart_kept (recallLines_kept h)) h)))

/-! ### Csr -/

theorem execCsrWrite_runs {who : Requester} {off : Nat} {v : Word} (h : Kept s₀ s) : Runs s₀ (execCsrWrite who off v s) := by
  dsimp only [execCsrWrite]
  split
  · exact writeReg_runs h
  · exact .next (reply_kept h)

theorem execMinReload_runs {who : Requester} (h : Kept s₀ s) : Runs s₀ (execMinReload who s) := by
  dsimp only [execMinReload]
  exact mgmtGate_runs (fun _ h1 => .next (reply_kept (minReload_kept h1))) h

theorem execCsrRead_runs {who : Requester} {off count : Nat} (h : Kept s₀ s) : Runs s₀ (execCsrRead who off count s) := by
  dsimp only [execCsrRead]
  exact mgmtGate_runs (fun _ h1 => .ite (.next (reply_kept h1)) (.next (reply_kept (readRun_kept h1)))) h

theorem execCsrRd_runs {who : Requester} {off : Nat} (h : Kept s₀ s) : Runs s₀ (execCsrRd who off s) := by
  dsimp only [execCsrRd]
  split
  · refine .next (.ite (reply_kept h) ?_)
    split
    · exact reply_kept h
    · split
      · exact reply_kept h
      · exact reply_kept h
      · exact reply_kept (readReg_kept h)
  · exact .next (reply_kept h)

/-! ### Every command, and the step -/

theorem exec_runs (i : Instr) (h : Kept s₀ s) : Runs s₀ (exec i s) := by
  cases i with
  | porstNRelease _ _ _ _ => exact execPorstNRelease_runs h
  | porstNAssert => exact .next (coldState_kept h)
  | pwrGoodHoldRelease => exact execPwrGoodHoldRelease_runs h
  | imageLoadDone _ => exact execImageLoadDone_runs h
  | initComplete => exact execInitComplete_runs h
  | initTimeout => exact execInitTimeout_runs h
  | warmRstN _ => exact execWarmRstN_runs h
  | powerLoss _ _ => exact execPowerLoss_runs h
  | thermalTrip _ _ => exact execThermalTrip_runs h
  | sensorSample _ _ => exact execSensorSample_runs h
  | compassWatchdogExpire => exact execCompassWatchdogExpire_runs h
  | optRefclkFail _ => exact execOptRefclkFail_runs h
  | optRefclkRestore _ _ => exact execOptRefclkRestore_runs h
  | pcieRefclkFail _ _ => exact execPcieRefclkFail_runs h
  | ptpMessageRx _ _ _ _ => exact execPtpMessageRx_runs h
  | ppsInEdge => exact execPpsInEdge_runs h
  | ppsOutRise => exact execPpsOutRise_runs h
  | ftCfgWrite _ _ => exact execFtCfgWrite_runs h
  | energyEpochEnd => exact execEnergyEpochEnd_runs h
  | energyPauseRefresh _ => exact execEnergyPauseRefresh_runs h
  | pmbusBudgetWrite _ => exact execPmbusBudgetWrite_runs h
  | logFlushPeriodic => exact execLogFlushPeriodic_runs h
  | csrRead _ _ _ => exact execCsrRead_runs h
  | csrWrite _ _ _ => exact execCsrWrite_runs h
  | logRead _ _ => exact execLogRead_runs h
  | logFlush _ => exact execLogFlush_runs h
  | sensorRead _ _ => exact execSensorRead_runs h
  | energyRead _ => exact execEnergyRead_runs h
  | budgetSet _ _ => exact execBudgetSet_runs h
  | shadowLoad _ _ _ _ _ => exact execShadowLoad_runs h
  | shadowFromNvm _ _ => exact execShadowFromNvm_runs h
  | swap _ _ => exact execSwap_runs h
  | swapCancel _ => exact execSwapCancel_runs h
  | swapTrigger => exact execSwapTrigger_runs h
  | updateBegin _ _ _ => exact execUpdateBegin_runs h
  | updateEraseDone => exact execUpdateEraseDone_runs h
  | updateData _ _ _ => exact execUpdateData_runs h
  | updateCommit _ _ => exact execUpdateCommit_runs h
  | rollbackAdvance _ _ => exact execRollbackAdvance_runs h
  | ownerSet _ _ => exact execOwnerSet_runs h
  | reboot _ _ => exact execReboot_runs h
  | blockReset _ _ => exact execBlockReset_runs h
  | blockFenceDrainEnd _ => exact execBlockFenceDrainEnd_runs h
  | blockFenceExit _ => exact execBlockFenceExit_runs h
  | blockWatchdogExpire _ => exact execBlockWatchdogExpire_runs h
  | retireClear _ _ => exact execRetireClear_runs h
  | laneRetire _ _ _ => exact execLaneRetire_runs h
  | groupFill _ _ _ _ _ => exact execGroupFill_runs h
  | groupZero _ _ => exact execGroupZero_runs h
  | epochClear _ _ => exact execEpochClear_runs h
  | debugChallenge _ => exact execDebugChallenge_runs h
  | debugUnlock _ _ _ _ _ _ _ => exact execDebugUnlock_runs h
  | spdmGetVersion _ => exact spdm_runs h
  | spdmGetCapabilities _ => exact spdm_runs h
  | spdmNegotiateAlgorithms _ => exact spdm_runs h
  | spdmGetDigests _ => exact spdm_runs h
  | spdmGetCertificate _ _ _ _ => exact spdm_runs h
  | spdmChallenge _ _ _ => exact spdm_runs h
  | spdmGetMeasurements _ _ _ => exact spdm_runs h
  | mgmtSessionIdleClose _ => exact execMgmtSessionIdleClose_runs h
  | registerWrite _ _ _ _ => exact writeReg_runs h
  | csrRd _ _ => exact execCsrRd_runs h
  | minReload _ => exact execMinReload_runs h
  | stallCfgWrite _ _ _ => exact execStallCfgWrite_runs h
  | domCtlNone _ _ => exact execDomCtlNone_runs h
  | domHold _ _ => exact execDomHold_runs h
  | domRelease _ _ => exact execDomRelease_runs h
  | domRestart _ _ => exact execDomRestart_runs h
  | restartDone _ => exact execRestartDone_runs h
  | domRebase _ _ => exact execDomRebase_runs h
  | sourceAdd _ _ _ => exact execSourceAdd_runs h
  | sourceRemove _ _ _ => exact execSourceRemove_runs h
  | angleAdvance _ _ _ => exact execAngleAdvance_runs h
  | angleStallTimeout _ => exact execAngleStallTimeout_runs h
  | ftOccurrenceFire => exact execFtOccurrenceFire_runs h
  | scheduleActionDispatch _ => exact execScheduleActionDispatch_runs h
  | actionRepresent _ => exact execActionRepresent_runs h
  | syncRead _ _ _ => exact syncMsg_runs h
  | syncAdd _ _ _ _ => exact syncMsg_runs h
  | arrive _ _ _ _ => exact syncMsg_runs h
  | acquire _ _ _ _ _ => exact syncMsg_runs h
  | tryAcquire _ _ _ _ => exact syncMsg_runs h
  | syncRelease _ _ _ _ => exact syncMsg_runs h
  | waitGe _ _ _ _ _ => exact syncMsg_runs h
  | waitEq _ _ _ _ _ => exact syncMsg_runs h
  | waitGen _ _ _ _ _ => exact syncMsg_runs h
  | syncSet _ _ _ _ => exact syncMsg_runs h
  | syncWaitTimeout _ => exact execSyncWaitTimeout_runs h
  | sequencerStart _ _ _ _ _ => exact execSequencerStart_runs h
  | blockCmdPresent _ _ => exact execBlockCmdPresent_runs h
  | halt _ => exact execHalt_runs h
  | dfetch _ => exact execDfetch_runs h
  | dfetchDataReturn _ => exact execDfetchDataReturn_runs h
  | loop _ => exact execLoop_runs h
  | waitsync _ => exact execWaitsync_runs h
  | waitang _ => exact execWaitang_runs h
  | seqWaitTimeout _ => exact execSeqWaitTimeout_runs h
  | issue _ => exact execIssue_runs h
  | issueComplete _ _ => exact execIssueComplete_runs h
  | signal _ => exact execSignal_runs h
  | brst _ => exact execBrst_runs h
  | packetAdmit _ => exact .next (admitPkt_kept h)
  | attachmentHoldRelease _ => exact .next (releaseHeld_kept h)
  | redHoldRelease _ => exact .next (releaseHeld_kept h)
  | outputDequeue _ => exact execOutputDequeue_runs h
  | starvationPromote _ _ _ _ => exact execStarvationPromote_runs h
  | pauseFrameRx _ _ => exact execPauseFrameRx_runs h
  | pfcFrameRx _ _ _ => exact execPfcFrameRx_runs h
  | pauseExpire _ _ => exact execPauseExpire_runs h
  | fcRefresh _ _ => exact execFcRefresh_runs h
  | freeze _ _ => exact execFreeze_runs h
  | thaw _ _ => exact execThaw_runs h
  | monClear _ _ => exact execMonClear_runs h
  | memRd _ _ _ _ _ _ => exact .next (memMsg_kept h)
  | memWr _ _ _ _ _ _ _ => exact .next (memMsg_kept h)
  | wrPosted _ _ _ _ _ _ _ => exact .next (memMsg_kept h)
  | xlReq _ _ _ => exact .next (memMsg_kept h)
  | memoryAccessComplete _ _ _ => exact execMemoryAccessComplete_runs h
  | forwardTimeout => exact execForwardTimeout_runs h
  | staleReplyDrop _ _ => exact execStaleReplyDrop_runs h
  | missQueueServe => exact execMissQueueServe_runs h
  | walkReadComplete _ => exact execWalkReadComplete_runs h
  | walkReadRepresent _ => exact .next (modLoc_kept h)
  | walkTimeout _ => exact execWalkTimeout_runs h
  | fqHeadRelease _ _ _ => exact execFqHeadRelease_runs h
  | segLoad _ => exact .next (locApply_kept h)
  | invRange _ => exact .next (locApply_kept h)
  | invContext _ => exact .next (locApply_kept h)
  | ctxEnable _ => exact .next (locApply_kept h)
  | xlInvAck _ _ => exact .next (modLoc_kept h)
  | xlInvTimeout _ _ => exact execXlInvTimeout_runs h
  | locSyncComplete _ => exact execLocSyncComplete_runs h
  | hint _ => exact .next (plnServe_kept h)
  | prefetch _ => exact .next (plnServe_kept h)
  | plnRelease _ => exact .next (plnServe_kept h)
  | discard _ => exact .next (plnServe_kept h)
  | migrationCopyDone _ => exact execMigrationCopyDone_runs h
  | frameRetire _ _ => exact execFrameRetire_runs h
  | channelEvacuate _ => exact execChannelEvacuate_runs h
  | ddrTrainingLoss _ => exact execDdrTrainingLoss_runs h
  | trayHeadLinkDown _ => exact execTrayHeadLinkDown_runs h
  | trayHeadRetire _ => exact execTrayHeadRetire_runs h
  | cxlEventRecord _ _ _ => exact execCxlEventRecord_runs h
  | trayEvacuate _ => exact execTrayEvacuate_runs h
  | objectRetired _ _ => exact execObjectRetired_runs h
  | trayLaneSpare _ _ => exact execTrayLaneSpare_runs h
  | rdShared _ => exact .next (cohMsg_kept h)
  | rdOwn _ => exact .next (cohMsg_kept h)
  | upgrade _ => exact .next (cohMsg_kept h)
  | rdCur _ => exact .next (cohMsg_kept h)
  | wrLine _ _ => exact .next (cohMsg_kept h)
  | wrPart _ _ _ => exact .next (cohMsg_kept h)
  | atomic _ _ _ _ _ => exact execAtomic_runs h
  | lineQueueStart _ => exact execLineQueueStart_runs h
  | combineWindowClose _ => exact execCombineWindowClose_runs h
  | atomicWindowClose _ => exact execAtomicWindowClose_runs h
  | wbDirty _ _ _ _ => exact .next (cohWb_kept h)
  | wbClean _ _ _ => exact .next (cohWb_kept h)
  | rspI _ _ _ => exact .next (cohRsp_kept h)
  | rspS _ _ _ => exact .next (cohRsp_kept h)
  | rspKeep _ _ _ => exact .next (cohRsp_kept h)
  | rspDataI _ _ _ _ => exact .next (cohRsp_kept h)
  | rspDataS _ _ _ _ => exact .next (cohRsp_kept h)
  | rspDataKeep _ _ _ _ => exact .next (cohRsp_kept h)
  | rspFwdI _ _ _ => exact .next (cohRsp_kept h)
  | rspFwdS _ _ _ => exact .next (cohRsp_kept h)
  | rspFwdSData _ _ _ _ => exact .next (cohRsp_kept h)
  | rspWb _ _ _ => exact .next (cohRsp_kept h)
  | cohDownAck _ => exact .next (modVtx_kept h)
  | snoopTimeout _ => exact execSnoopTimeout_runs h
  | cohMemoryTimeout _ => exact execCohMemoryTimeout_runs h
  | partnerDomainDown => exact .next (domainDown_kept h)
  | directoryWalkDone => exact execDirectoryWalkDone_runs h
  | cohDomainUp _ => exact execCohDomainUp_runs h
  | portExclude _ => exact execPortExclude_runs h
  | portExclClear _ _ _ => exact execPortExclClear_runs h
  | forceDown _ => exact execForceDown_runs h
  | vtxFlush _ => exact .next (vtxServe_kept h)
  | downgrade _ => exact .next (vtxServe_kept h)
  | reduce _ => exact execReduce_runs h
  | reduceScatter _ => exact .next (chdServe_kept h)
  | gather _ => exact .next (chdServe_kept h)
  | scatter _ => exact .next (chdServe_kept h)
  | indexGather _ => exact .next (chdServe_kept h)
  | instanceAdmit _ => exact execInstanceAdmit_runs h
  | readyWaitTimeout _ _ => exact execReadyWaitTimeout_runs h
  | chunkReadComplete _ _ _ => exact execChunkReadComplete_runs h
  | operandReadTimeout _ _ => exact execOperandReadTimeout_runs h
  | collContrib _ _ _ => exact execCollContrib_runs h
  | collectiveComplete _ _ => exact execCollectiveComplete_runs h
  | hierPartial _ _ _ => exact .next (hierRecv_kept h)
  | hierResult _ _ _ => exact .next (hierRecv_kept h)
  | hierAbort _ _ => exact .next (hierRecv_kept h)
  | hierTimeout _ _ => exact execHierTimeout_runs h
  | earlyRecordDiscard _ => exact execEarlyRecordDiscard_runs h
  | query _ => exact execQuery_runs h
  | batch _ => exact execBatch_runs h
  | sliceAdmit _ => exact execSliceAdmit_runs h
  | tileReadComplete _ _ _ => exact execTileReadComplete_runs h
  | coneReadTimeout _ => exact execConeReadTimeout_runs h
  | sliceResultArrive _ _ => exact execSliceResultArrive_runs h
  | queryComplete _ => exact execQueryComplete_runs h
  | orbOpen _ => exact execOrbOpen_runs h
  | orbAppend _ _ => exact execOrbAppend_runs h
  | toolResult _ _ => exact execToolResult_runs h
  | park _ => exact execPark_runs h
  | parkDetach _ => exact execParkDetach_runs h
  | move _ => exact execMove_runs h
  | moveDone _ => exact execMoveDone_runs h
  | coldMoveProceed _ => exact execColdMoveProceed_runs h
  | revive _ => exact execRevive_runs h
  | reviveDone _ => exact execReviveDone_runs h
  | orbClose _ => exact execOrbClose_runs h
  | closeRelease _ => exact execCloseRelease_runs h
  | orbDescribe _ => exact execOrbDescribe_runs h
  | orbLogRead _ => exact execOrbLogRead_runs h
  | demotion _ => exact execDemotion_runs h
  | apxOpen _ => exact execApxOpen_runs h
  | apxSet _ => exact execApxSet_runs h
  | apxClose _ => exact execApxClose_runs h
  | apxDescribe _ => exact execApxDescribe_runs h
  | sampleContrib _ _ _ => exact execSampleContrib_runs h
  | sampleServe _ => exact execSampleServe_runs h
  | sampleAppendComplete _ => exact execSampleAppendComplete_runs h
  | sampleTimeout _ => exact execSampleTimeout_runs h
  | ringEndWrite _ => exact execRingEndWrite_runs h
  | openIndex _ => exact execOpenIndex_runs h
  | closeIndex _ => exact execCloseIndex_runs h
  | search _ => exact execSearch_runs h
  | searchRoundDone _ => exact execSearchRoundDone_runs h
  | cenAppend _ => exact execCenAppend_runs h
  | cenDelete _ => exact execCenDelete_runs h
  | merge _ => exact execMerge_runs h
  | mergeCommit _ => exact execMergeCommit_runs h
  | mergeMarkRemove _ => exact execMergeMarkRemove_runs h
  | flitGroupRx _ _ => exact .next (groupRx_kept h)
  | replayTimeout _ => exact execReplayTimeout_runs h
  | rekeyStart _ => exact execRekeyStart_runs h
  | portStopped _ => exact execPortStopped_runs h
  | hello _ _ _ _ => exact execHello_runs h
  | credit _ _ _ => exact execCredit_runs h
  | linkPause _ _ _ => exact execLinkPause_runs h
  | rekey _ _ => exact execRekey_runs h
  | rekeyResend _ => exact execRekeyResend_runs h
  | rekeyAck _ _ => exact execRekeyAck_runs h
  | epochCommitDone _ _ => exact execEpochCommitDone_runs h
  | laneReqShadow _ _ => exact execLaneReqShadow_runs h
  | laneReqRelease _ _ => exact execLaneReqRelease_runs h
  | laneReqRetire _ _ => exact execLaneReqRetire_runs h
  | laneReqDegrade _ _ => exact execLaneReqDegrade_runs h
  | laneAck _ _ _ => exact execLaneAck_runs h
  | linkStepTimeout _ => exact execLinkStepTimeout_runs h
  | bringupBackoffEnd _ => exact execBringupBackoffEnd_runs h
  | portDown _ => exact .next (portDown_kept h)
  | laneLossOfLock _ _ => exact execLaneLossOfLock_runs h
  | laneRetireTrigger _ _ _ => exact execLaneRetireTrigger_runs h
  | calShadowReady _ => exact execCalShadowReady_runs h
  | calTuneEnd _ => exact execCalTuneEnd_runs h
  | calVerifyEnd _ _ => exact execCalVerifyEnd_runs h
  | pairLinkLost => exact execPairLinkLost_runs h
  | pairLinkRecover => exact execPairLinkRecover_runs h
  | mirrorUpdate _ _ _ => exact execMirrorUpdate_runs h
  | mirrorAck _ => exact execMirrorAck_runs h
  | ethFrameRx _ _ _ _ => exact execEthFrameRx_runs h
  | ethFrameFromXcl _ _ _ _ _ => exact execEthFrameFromXcl_runs h
  | roceRdmaReadRx _ _ _ _ _ _ _ => exact execRoceRdmaReadRx_runs h
  | roceRdmaWriteRx _ _ _ _ _ _ => exact execRoceRdmaWriteRx_runs h
  | roceSendRx _ _ _ _ _ _ => exact execRoceSendRx_runs h
  | roceAckRx _ _ _ => exact execRoceAckRx_runs h
  | roceAckTimeout _ => exact execRoceAckTimeout_runs h
  | roceCnpRx _ => exact execRoceCnpRx_runs h
  | roceRateIncrease _ => exact execRoceRateIncrease_runs h
  | engCmd _ _ _ _ _ _ => exact execEngCmd_runs h
  | poolFound => exact execPoolFound_runs h
  | poolFoundTimeout => exact execPoolFoundTimeout_runs h
  | poolJoin _ => exact execPoolJoin_runs h
  | scrub _ _ _ _ => exact execScrub_runs h
  | scrubComplete => exact execScrubComplete_runs h
  | scrubEscalate => exact execScrubEscalate_runs h
  | zeroise _ => exact execZeroise_runs h
  | attestReport _ _ _ _ => exact execAttestReport_runs h
  | pairAliveInChange _ => exact execPairAliveInChange_runs h
  | aliveDebounceExpire => exact execAliveDebounceExpire_runs h
  | aliveMismatch => exact execAliveMismatch_runs h
  | declare _ _ => exact execDeclare_runs h
  | yield => exact execYield_runs h
  | takeoverComplete _ => exact execTakeoverComplete_runs h
  | handbackComplete _ => exact execHandbackComplete_runs h
  | partitionAdmit _ _ => exact execPartitionAdmit_runs h
  | laserEnable _ _ _ => exact execLaserEnable_runs h
  | laserModuleRemoved _ => exact execLaserModuleRemoved_runs h
  | linkAligned _ => exact execLinkAligned_runs h
  | trayLinkUp _ _ _ => exact execTrayLinkUp_runs h
  | pcieRefclkRestore _ => exact execPcieRefclkRestore_runs h
  | islandPowerLoss => exact execIslandPowerLoss_runs h
  | engineAccessRepresent _ => exact .next (represent_kept h)
  | engineAccessTimeout _ => exact execEngineAccessTimeout_runs h

/-- What a step leaves: the command in front has gone, and what waited behind it waits still. -/
theorem step_next (s : State) : ∃ t, step s = .next t ∧ t.pending = s.pending.tail := by
  cases hp : s.pending with
  | nil => exact ⟨tick s, step_idle hp, (tick_kept (.refl s)).pending.trans hp⟩
  | cons c rest =>
    simp only [step, hp]
    obtain ⟨t, ht, hk⟩ := exec_runs c (.refl { s with pending := rest })
    exact ⟨t, ht, hk.pending⟩

/-- Settles O60: every command's lemma says that it answers and keeps the queue; an empty queue is a tick, which never stops. -/
theorem everyCommandRuns : Obligations.EveryCommandRuns := step_next

end Sys2Proof.Machine
end

section
/-!
What a write stores through Fold: over blocks that are verified and not poisoned, its bytes and no others.
-/
namespace Sys2Proof.Machine

variable {s t u : State}

/-! ### Frames of one part -/

theorem only_modLoc (f : Locus → Locus) (s : State) : Only [.loc] s (modLoc f s) :=
  .of fun p => by cases p <;> simp [SamePart]

theorem only_usePage (p : Nat) (s : State) : Only [.pln] s (usePage p s) :=
  .of fun q => by cases q <;> simp [SamePart]

theorem only_modArc (f : Arc → Arc) (s : State) : Only [.arc] s (modArc f s) :=
  .of fun p => by cases p <;> simp [SamePart]

theorem only_setBlk (b : Nat) (x : Blk) (s : State) : Only [.fld] s (setBlk b x s) :=
  .of fun p => by cases p <;> simp [SamePart]

theorem only_modFld (n : Nat) (f : FldStat → FldStat) (s : State) : Only [.fld] s (modFld n f s) :=
  .of fun p => by cases p <;> simp [SamePart]

theorem only_modVtx (f : Vertex → Vertex) (s : State) : Only [.vtx] s (modVtx f s) :=
  .of fun p => by cases p <;> simp [SamePart]

theorem only_cmp (c : Compass) (s : State) : Only [.cmp] s { s with cmp := c } :=
  .of fun p => by cases p <;> simp [SamePart]

theorem only_mem (m : List Host.Cell) (s : State) : Only [.mem] s { s with mem := m } :=
  .of fun p => by cases p <;> simp [SamePart]

theorem only_noteWrite (r : FoldReq) (off : Nat) (d : List (Option Byte)) (s : State) : Only [.fld] s (noteWrite r off d s) :=
  .of fun p => by cases p <;> simp [SamePart, noteWrite]

theorem only_monSample (mon part lat depth src : Nat) (s : State) : Only [.arc] s (monSample mon part lat depth src s) := by
  unfold monSample
  split
  · exact .refl _ s
  · exact only_modArc _ s

/-- Two frames in a row: what is in neither is left. -/
theorem Only.seq {l m : List Part} (h : Only l s t) (k : Only m t u) : Only (l ++ m) s u :=
  (h.mono fun _ => List.mem_append_left m).trans (k.mono fun _ => List.mem_append_right l)

/-! ### The bytes of a block -/

/-- The byte at `a` once `data` is laid over memory from `off` on, where `old` stood before. -/
def laidOver (off : Nat) (data : List Byte) (a : Nat) (old : Byte) : Byte := if a < off then old else (data[a - off]?).getD old

theorem laidOver_inside {off i : Nat} {data : List Byte} {old : Byte} (h : i < data.length) : laidOver off data (off + i) old = data[i] := by
  simp [laidOver, h]

theorem laidOver_outside {off a : Nat} {data : List Byte} {old : Byte} (h : a < off ∨ off + data.length ≤ a) :
    laidOver off data a old = old := by
  unfold laidOver
  split
  · rfl
  · rw [List.getElem?_eq_none (by omega)]; rfl

theorem laidOver_twice (off : Nat) (data : List Byte) (a : Nat) (old : Byte) :
    laidOver off data a (laidOver off data a old) = laidOver off data a old := by
  unfold laidOver
  split
  · rfl
  · cases data[a - off]? <;> rfl

theorem mergeBytes_length (os : List Byte) (ns : List (Option Byte)) : (mergeBytes os ns).length = os.length := by
  induction os generalizing ns with
  | nil => cases ns <;> rfl
  | cons o os ih => cases ns <;> simp [mergeBytes, ih]

theorem mergeBytes_getD {os : List Byte} {ns : List (Option Byte)} (h : ns.length ≤ os.length) (i : Nat) :
    (mergeBytes os ns).getD i 0 = (ns.getD i none).getD (os.getD i 0) := by
  induction os generalizing ns i with
  | nil => simp_all [mergeBytes]
  | cons o os ih =>
    cases ns with
    | nil => simp [mergeBytes]
    | cons n ns =>
      cases i with
      | zero => simp [mergeBytes]
      | succ i => simpa [mergeBytes] using ih (by simpa using h) i

theorem blockPart_length (b off : Nat) (d : List (Option Byte)) : (blockPart b off d).length = 512 := by simp [blockPart]

theorem blockPart_getD {b off i : Nat} {data : List Byte} (hi : i < 512) (old : Byte) :
    ((blockPart b off (data.map some)).getD i none).getD old = laidOver off data (b * 512 + i) old := by
  simp only [blockPart, List.getD_eq_getElem?_getD, List.getElem?_map, List.getElem?_range hi, Option.map_some, Option.getD_some, laidOver]
  split
  · rfl
  · cases data[b * 512 + i - off]? <;> rfl

theorem memRead_memStore_getD {m : List Host.Cell} (a x : Nat) (d : List Byte) (h : Memory.Rises m) :
    memRead (memStore m a d) x = if a ≤ x ∧ x < a + d.length then d.getD (x - a) 0 else memRead m x := by
  split
  · next hx =>
    have hi : x - a < d.length := by omega
    have hr := memRead_memStore (a := a) hi h
    rw [show a + (x - a) = x by omega] at hr
    rw [hr, List.getD_eq_getElem _ _ hi]
  · next hx => exact memRead_memStore_outside (by omega) h

theorem memBytes_getD {m : List Host.Cell} {a n i : Nat} (h : i < n) : (memBytes m a n).getD i 0 = memRead m (a + i) := by
  simp [memBytes, h]

/-- What a block holds once a part of it is written: the part's bytes, and the old ones where the part has none. -/
theorem memRead_block {m : List Host.Cell} {plain : List Byte} {b : Nat} (hl : plain.length = 512) (h : Memory.Rises m) (a : Nat) :
    memRead (memStore m (b * 512) plain) a = if a / 512 = b then plain.getD (a % 512) 0 else memRead m a := by
  rw [memRead_memStore_getD _ _ _ h, hl]
  have hiff : (b * 512 ≤ a ∧ a < b * 512 + 512) ↔ a / 512 = b := by omega
  by_cases hab : a / 512 = b
  · rw [if_pos (hiff.2 hab), if_pos hab, show a - b * 512 = a % 512 by omega]
  · rw [if_neg (mt hiff.1 hab), if_neg hab]

/-! ### Clean blocks -/

/-- The block is verified and no part of it is poisoned. -/
def CleanBlk (s : State) (b : Nat) : Prop := (blk s b).bad = none ∧ (blk s b).bpoison = false ∧ (blk s b).pmask = 0

theorem clean_iff {off len : Nat} : Clean s off len ↔ ∀ b ∈ blocksOf off len, CleanBlk s b := by
  simp [CleanBlk, and_assoc]

theorem CleanBlk.of_fld {b : Nat} (h : CleanBlk s b) (hf : t.fld = s.fld) : CleanBlk t b := by
  unfold CleanBlk blk at *
  rw [hf]
  exact h

theorem bitOf_zero (i : Nat) : bitOf 0 i = false := by simp [bitOf]

/-- An unmarked write onto unpoisoned lines poisons none. -/
theorem newMask_unmarked (p : List (Option Byte)) : newMask 0 p false = 0 := by
  simp [newMask, bitOf_zero, sumOf, List.range_succ]

theorem partialCause_clean {b : Nat} (h : CleanBlk s b) (p : List (Option Byte)) : partialCause (blk s b) p = none := by
  obtain ⟨hbad, hbp, hpm⟩ := h
  simp [partialCause, hbad, hbp, hpm, bitOf_zero]

/-! ### A block written -/

/-- What writing `data` from `off` on to the blocks `l` leaves: those blocks' bytes laid over, every clean block clean. -/
structure Wrote (l : List Nat) (off : Nat) (data : List Byte) (s t : State) : Prop where
  frame : Only [.mem, .fld] s t
  rises : Memory.Rises t.mem
  clean : ∀ b, CleanBlk s b → CleanBlk t b
  bytes : ∀ a, memRead t.mem a = if a / 512 ∈ l then laidOver off data a (memRead s.mem a) else memRead s.mem a

theorem Wrote.none (off : Nat) (data : List Byte) (h : Memory.Rises s.mem) : Wrote [] off data s s :=
  ⟨.refl _ s, h, fun _ hb => hb, fun a => by simp⟩

theorem Wrote.cons {b off : Nat} {l : List Nat} {data : List Byte} (h : Wrote [b] off data s t) (k : Wrote l off data t u) :
    Wrote (b :: l) off data s u := by
  refine ⟨h.frame.trans k.frame, k.rises, fun c hc => k.clean c (h.clean c hc), fun a => ?_⟩
  rw [k.bytes, h.bytes]
  by_cases ha : a / 512 = b <;> by_cases hl : a / 512 ∈ l <;> simp [ha, hl, laidOver_twice]

theorem putBlock_mem (part b : Nat) (plain : List Byte) (pmask : Nat) (compress : Bool) (s : State) :
    (putBlock part b plain pmask compress s).mem = memStore s.mem (b * 512) plain := by
  unfold putBlock
  split
  split <;> rfl

theorem putBlock_frame (part b : Nat) (plain : List Byte) (pmask : Nat) (compress : Bool) (s : State) :
    Only [.mem, .fld] s (putBlock part b plain pmask compress s) := by
  unfold putBlock
  split
  split <;> exact .of fun p => by cases p <;> simp [SamePart]

theorem putBlock_blk (part b : Nat) (plain : List Byte) (pmask : Nat) (compress : Bool) (s : State) :
    ∃ f n, ∀ c, blk (putBlock part b plain pmask compress s) c = if c = b then { form := f, sectors := n, pmask := pmask } else blk s c := by
  obtain ⟨f, n, hfn⟩ : ∃ f n, storedForm compress plain = (f, n) := ⟨_, _, rfl⟩
  refine ⟨f, n, fun c => ?_⟩
  simp only [putBlock, hfn]
  split <;> exact Tab.get_set ..

theorem putBlock_clean {part b c : Nat} {plain : List Byte} {compress : Bool} (h : CleanBlk s c) :
    CleanBlk (putBlock part b plain 0 compress s) c := by
  obtain ⟨f, n, hblk⟩ := putBlock_blk part b plain 0 compress s
  unfold CleanBlk
  rw [hblk]
  split
  · exact ⟨rfl, rfl, rfl⟩
  · exact h

/-- A block put back with `plain`, which holds the part's bytes over the old ones. -/
theorem putBlock_wrote {part b off : Nat} {data plain : List Byte} {compress : Bool} (hm : Memory.Rises s.mem) (hl : plain.length = 512)
    (hp : ∀ i, i < 512 → plain.getD i 0 = laidOver off data (b * 512 + i) (memRead s.mem (b * 512 + i))) :
    Wrote [b] off data s (putBlock part b plain 0 compress s) := by
  refine ⟨putBlock_frame part b plain 0 compress s, ?_, fun c hc => putBlock_clean hc, fun a => ?_⟩
  · rw [putBlock_mem]
    exact (Memory.wf_iff _).1 (memStore_wf _ _ ((Memory.wf_iff _).2 hm))
  · rw [putBlock_mem, memRead_block hl hm]
    simp only [List.mem_singleton]
    split
    · next hab => rw [hp _ (by omega), show b * 512 + a % 512 = a by omega]
    · rfl

theorem writeBlock_wrote {part b off : Nat} {r : FoldReq} {compress : Bool} {data : List Byte} (hb : CleanBlk s b)
    (hm : Memory.Rises s.mem) :
    ∃ t, writeBlock part r compress false b (blockPart b off (data.map some)) s = (t, false) ∧ Wrote [b] off data s t := by
  have hpc := partialCause_clean hb (blockPart b off (data.map some))
  obtain ⟨-, -, hpm⟩ := hb
  have hlen := blockPart_length b off (data.map some)
  unfold writeBlock
  split
  · next hall =>
    refine ⟨_, rfl, ?_⟩
    rw [newMask_unmarked]
    refine putBlock_wrote hm (by simp [hlen]) fun i hi => ?_
    have hsome : ((blockPart b off (data.map some))[i]'(by omega)).isSome := List.all_eq_true.1 hall _ (List.getElem_mem _)
    rw [← blockPart_getD hi, List.getD_eq_getElem _ _ (by simpa [hlen] using hi), List.getD_eq_getElem _ _ (by omega), List.getElem_map]
    obtain ⟨x, hx⟩ := Option.isSome_iff_exists.1 hsome
    rw [hx]
    rfl
  · simp only [hpc]
    refine ⟨_, rfl, ?_⟩
    rw [hpm, newMask_unmarked]
    refine putBlock_wrote hm (by simp [mergeBytes_length, memBytes]) fun i hi => ?_
    rw [mergeBytes_getD (by simp [hlen, memBytes]), memBytes_getD hi, blockPart_getD hi]

/-- A block with no byte of the write is left as it was, and nothing lies over it. -/
theorem wrote_untouched {b off : Nat} {data : List Byte} (h : (blockPart b off (data.map some)).all (·.isNone) = true)
    (hm : Memory.Rises s.mem) : Wrote [b] off data s s := by
  refine ⟨.refl _ s, hm, fun _ hc => hc, fun a => ?_⟩
  simp only [List.mem_singleton]
  split
  · next hab =>
    have hi : a % 512 < 512 := by omega
    have hnone : (blockPart b off (data.map some))[a % 512]'(by rw [blockPart_length]; exact hi) = none :=
      Option.isNone_iff_eq_none.1 (List.all_eq_true.1 h _ (List.getElem_mem _))
    have hget := blockPart_getD (b := b) (off := off) (data := data) hi (memRead s.mem a)
    rw [List.getD_eq_getElem _ _ (by rw [blockPart_length]; exact hi), hnone, show b * 512 + a % 512 = a by omega] at hget
    exact hget
  · rfl

/-! ### A write -/

/-- One block of a write, as `foldWriteOpt` goes through them. -/
def writeNext (part : Nat) (r : FoldReq) (compress : Bool) (off : Nat) (data : List Byte) (x : State × Bool) (b : Nat) : State × Bool :=
  if (blockPart b off (data.map some)).all (·.isNone) then x
  else
    let y := writeBlock part r compress false b (blockPart b off (data.map some)) x.1
    (y.1, x.2 || y.2)

theorem writeBlocks_wrote {part off : Nat} {r : FoldReq} {compress : Bool} {data : List Byte} (l : List Nat)
    (hl : ∀ b ∈ l, CleanBlk s b) (hm : Memory.Rises s.mem) :
    ∃ t, l.foldl (writeNext part r compress off data) (s, false) = (t, false) ∧ Wrote l off data s t := by
  induction l generalizing s with
  | nil => exact ⟨s, rfl, .none off data hm⟩
  | cons b l ih =>
    have hstep : ∃ t, writeNext part r compress off data (s, false) b = (t, false) ∧ Wrote [b] off data s t := by
      unfold writeNext
      split
      · next hnone => exact ⟨s, rfl, wrote_untouched hnone hm⟩
      · obtain ⟨t, ht, hw⟩ := writeBlock_wrote (part := part) (r := r) (compress := compress) (hl b List.mem_cons_self) hm
        exact ⟨t, by rw [ht]; rfl, hw⟩
    obtain ⟨t, ht, hw⟩ := hstep
    obtain ⟨u, hu, hv⟩ := ih (fun c hc => hw.clean c (hl c (List.mem_cons_of_mem _ hc))) hw.rises
    exact ⟨u, by rw [List.foldl_cons, ht, hu], hw.cons hv⟩

theorem foldWrite_blocks (part : Nat) (r : FoldReq) (compress : Bool) (off : Nat) (data : List Byte) (s : State) :
    foldWrite part r compress false off data s =
      (let (t, bad) := (blocksOf off data.length).foldl (writeNext part r compress off data) (noteWrite r off (data.map some) s, false)
       if bad then (modFld part (fun x => { x with poisonWrites := sat 16 x.poisonWrites }) t, cPoison) else (t, cOk)) := by
  simp only [foldWrite, foldWriteOpt, List.length_map]
  delta writeNext
  rfl

/-- Every byte of the write lies in one of its blocks. -/
theorem mem_blocksOf {off len a : Nat} (h1 : off ≤ a) (h2 : a < off + len) : a / 512 ∈ blocksOf off len := by
  have hlen : len ≠ 0 := by omega
  simp only [blocksOf, if_neg hlen, rangeFrom, List.mem_map, List.mem_range]
  exact ⟨a / 512 - off / 512, by omega, by omega⟩

/-- R209: a write onto clean blocks is whole: its bytes are laid over memory, and nothing but Fold's state changes beside. -/
theorem foldWrite_clean {part off : Nat} {r : FoldReq} {compress : Bool} {data : List Byte} (hc : Clean s off data.length)
    (hm : Memory.wf s.mem = true) :
    ∃ t, foldWrite part r compress false off data s = (t, cOk) ∧ Only [.mem, .fld] s t ∧
      ∀ a, memRead t.mem a = laidOver off data a (memRead s.mem a) := by
  have hn := only_noteWrite r off (data.map some) s
  have hclean : ∀ b ∈ blocksOf off data.length, CleanBlk (noteWrite r off (data.map some) s) b := clean_iff.1 hc
  obtain ⟨t, ht, hw⟩ := writeBlocks_wrote (part := part) (off := off) (r := r) (compress := compress) (data := data) _ hclean
    ((Memory.wf_iff _).1 hm)
  refine ⟨t, ?_, (hn.seq hw.frame).mono (by decide), fun a => ?_⟩
  · rw [foldWrite_blocks, ht]; rfl
  · rw [hw.bytes]
    split
    · rfl
    · next hout => rw [laidOver_outside (by by_contra hin; exact hout (mem_blocksOf (by omega) (by omega)))]; rfl

theorem memBytes_laidOver {m m' : List Host.Cell} {off : Nat} {data : List Byte} (h : ∀ a, memRead m' a = laidOver off data a (memRead m a)) :
    memBytes m' off data.length = data := by
  refine List.ext_getElem (by simp [memBytes]) fun i h1 h2 => ?_
  simp [memBytes, h, laidOver_inside h2]

end Sys2Proof.Machine
end

section
/-!
The completion of a memory access: what Locus does with the request, and who is told.
-/
namespace Sys2Proof.Machine

variable {s t u : State} {r : MemReq} {p node tag : Nat}

/-- A request of a port leaves Locus, its completion is told, and nothing else changes. -/
structure Ended (r : MemReq) (c : Cpl) (s t : State) : Prop where
  told : Told s t r.who c
  reqs : t.loc.reqs = s.loc.reqs.filter (fun x => x.id != r.id)
  frame : Only [.loc, .out] s t

theorem endReq_ended {c : Cpl} (hw : r.who = .port p node tag) (hk : r.kind ≠ .posted) : Ended r c s (endReq r c s) := by
  have he : endReq r c s = emit (.cpl r.who c) (modLoc (fun l => { l with reqs := l.reqs.filter (·.id != r.id) }) s) := by
    rw [endReq, if_neg hk, hw, reply_port]
  rw [he]
  exact ⟨rfl, rfl, (only_modLoc _ s).seq (only_emit _ _)⟩

/-- The end of a request after a change of other parts is its end, and the parts' change. -/
theorem Ended.after {l : List Part} {c : Cpl} (h : Only l s u) (hl : .loc ∉ l) (ho : .out ∉ l) (k : Ended r c u t) :
    Told s t r.who c ∧ t.loc.reqs = s.loc.reqs.filter (fun x => x.id != r.id) ∧ Only (l ++ [.loc, .out]) s t := by
  have hloc : u.loc = s.loc := h .loc hl
  have hout : u.out = s.out := h .out ho
  obtain ⟨htold, hreqs, hframe⟩ := k
  exact ⟨by rw [Told, htold, hout], by rw [hreqs, hloc], h.seq hframe⟩

/-- A reported access of a request at the memory side is that request's. -/
theorem exec_accessComplete {id : Nat} {o : TierOut} {ext : List Byte} (hf : s.loc.reqs.find? (fun x => x.id == id) = some r)
    (hp : r.phase = .access) (hr : r.retryAt = none) :
    exec (.memoryAccessComplete (.req id) o ext) s = .next (reqComplete r o ext s) := by
  simp [exec, execMemoryAccessComplete, hf, hp, hr]

theorem id_of_find {id : Nat} (hf : s.loc.reqs.find? (fun x => x.id == id) = some r) : r.id = id := by
  simpa using List.find?_some hf

/-! ### What a request's access comes to -/

theorem noteTier_good (off : Nat) (s : State) : noteTier off .good s = s := by
  unfold noteTier
  dsimp only
  split <;> rfl

theorem readPoisoned_of_fld (h : t.fld = s.fld) (off len : Nat) : readPoisoned t off len = readPoisoned s off len := by
  simp only [readPoisoned, blk, h]

theorem foldRead_unpoisoned {part off len : Nat} {q : FoldReq} (h : readPoisoned s off len = false) :
    foldRead part q off len s = (s, cData (memBytes s.mem off len)) := by
  simp [foldRead, h]

theorem readyWrite_resident {pg : Nat} (h : (page s pg).st = .resident) : readyWrite pg s = (usePage pg s, none) := by
  simp [readyWrite, h]

/-- The state once the monitors have their sample of the access and its page counts as used. -/
def accessNoted (r : MemReq) (s : State) : State :=
  usePage (bits r.pa 51 0 / pageBytes) (monSample (9 * 4096 + (frameOf s (bits r.pa 51 0 / pageBytes)).tier.code) r.part (s.ft - r.since)
    (s.loc.reqs.filter fun x => x.part == r.part && x.phase == .access).length (match r.who with | .port p _ _ => p | _ => 404) s)

theorem only_accessNoted (r : MemReq) (s : State) : Only [.arc, .pln] s (accessNoted r s) :=
  (only_monSample _ _ _ _ _ s).seq (only_usePage _ _)

theorem accessNoted_pages (r : MemReq) (s : State) : (accessNoted r s).pln.pages = s.pln.pages := by
  have h : ∀ m n l d c, (monSample m n l d c s).pln = s.pln := fun m n l d c => only_monSample m n l d c s .pln (by decide)
  simp only [accessNoted, usePage_pln, h]

/-- R208: a read that the tier serves is Fold's read, and its completion ends the request. -/
theorem reqComplete_read {ext : List Byte} (hk : r.kind = .rd) (hn : bits r.pa 63 52 = 0)
    (hs : serveCpl s (bits r.pa 51 0 / pageBytes) false = none) :
    reqComplete r .good ext s =
      (let (t, k) := foldRead r.part { num := r.endpoint } (bits r.pa 51 0) r.len (accessNoted r s)
       endReq r k t) := by
  have hrd : (ReqKind.rd == .wr || ReqKind.rd == .posted) = false := rfl
  simp only [reqComplete, hn, bne_self_eq_false, Bool.false_eq_true, if_false, hk, hrd, hs, noteTier_good]
  rfl

/-- R29: a write that the tier serves onto a resident page is Fold's write, and its completion ends the request. -/
theorem reqComplete_write {ext : List Byte} (hk : r.kind = .wr) (hn : bits r.pa 63 52 = 0) (hf : r.fwd = false)
    (hs : serveCpl s (bits r.pa 51 0 / pageBytes) true = none) (hp : (page s (bits r.pa 51 0 / pageBytes)).st = .resident) :
    reqComplete r .good ext s =
      (let (t, k) := foldWrite r.part { num := r.endpoint } (segCompress r.seg) r.mark (bits r.pa 51 0) r.data (accessNoted r s)
       endReq r k t) := by
  have hm : ∀ m n l d c, (page (monSample m n l d c s) (bits r.pa 51 0 / pageBytes)).st = .resident := fun m n l d c => by
    rw [page, only_monSample m n l d c s .pln (by decide)]
    exact hp
  simp only [reqComplete, hn, bne_self_eq_false, Bool.false_eq_true, if_true, if_false, hk, BEq.rfl, Bool.true_or, hs, hf, noteTier_good,
    readyWrite_resident, hm]
  rfl

theorem extBytes_self {n : Nat} {ext : List Byte} (h : ext.length = n) : extBytes s ext n = ext := by
  refine List.ext_getElem (by simp [extBytes, h]) fun i h1 h2 => ?_
  simp [extBytes, h2]

/-- A read of an endpoint's memory ends with the endpoint's bytes. -/
theorem reqComplete_endpoint {ext : List Byte} (hk : r.kind = .rd) (hn : bits r.pa 63 52 ≠ 0) (hl : ext.length = r.len) :
    reqComplete r .good ext s = endReq r (cData ext) (useFresh s) := by
  simp [reqComplete, hn, hk, extBytes_self hl]

theorem reqComplete_timeout (ext : List Byte) : reqComplete r .timeout ext s = endReq r cTimeout s := rfl

/-- With no Plane command under way there is none to change and none to finish. -/
theorem finishJobs_none {f : PlnJob → PlnJob} (h : s.pln.jobs = []) :
    finishJobs { s with pln := { s.pln with jobs := s.pln.jobs.map f } } = s := by
  have he : { s with pln := { s.pln with jobs := [] } } = s := by rw [← h]
  simp only [finishJobs, h, List.map_nil, List.filter_nil, List.foldl_nil, he]

/-- R35: with the pair link lost, the one forwarded request ends. -/
theorem exec_forwardTimeout (hd : linkDown s = true) (hq : s.loc.reqs = [r]) (hf : r.fwd = true) (hk : r.kind = .rd ∨ r.kind = .wr)
    (hw : r.who = .port p node tag) (hj : s.pln.jobs = []) : exec .forwardTimeout s = .next (endReq r cTimeout s) := by
  have ho : partnerOut s = true := by rw [partnerOut, hd, Bool.true_or]
  have hposted : r.kind ≠ .posted := by rcases hk with hk | hk <;> rw [hk] <;> decide
  have hjobs : (endReq r cTimeout s).pln.jobs = [] := by
    rw [(endReq_ended hw hposted).frame .pln (by decide)]
    exact hj
  have hfwd : [r].filter (·.fwd) = [r] := by rw [List.filter_cons_of_pos hf, List.filter_nil]
  simp only [exec, execForwardTimeout, ho, hq, hfwd, Bool.true_or, if_true, List.foldl_cons, List.foldl_nil]
  rcases hk with hk | hk <;> rw [hk] <;> exact congrArg Host.Outcome.next (finishJobs_none hjobs)

/-! ### The statement -/

/-- R208: a read of the pool answers its bytes. -/
theorem read_completes {id : Nat} {ext : List Byte} (hf : s.loc.reqs.find? (fun x => x.id == id) = some r) (hp : r.phase = .access)
    (hr : r.retryAt = none) (hk : r.kind = .rd) (hw : r.who = .port p node tag) (hn : bits r.pa 63 52 = 0)
    (hs : serveCpl s (bits r.pa 51 0 / pageBytes) false = none) (hc : readPoisoned s (bits r.pa 51 0) r.len = false) :
    Answers (.memoryAccessComplete (.req id) .good ext) s fun t =>
      Told s t (.port p node tag) (cData (memBytes s.mem (bits r.pa 51 0) r.len)) ∧ t.loc.reqs = s.loc.reqs.filter (fun x => x.id != id) ∧
      t.pln.pages = s.pln.pages ∧ Only [.loc, .pln, .arc, .out] s t := by
  have hu := only_accessNoted r s
  have hfld : (accessNoted r s).fld = s.fld := hu .fld (by decide)
  have hmem : (accessNoted r s).mem = s.mem := hu .mem (by decide)
  have hread := foldRead_unpoisoned (part := r.part) (q := { num := r.endpoint }) ((readPoisoned_of_fld hfld _ _).trans hc)
  have hend := endReq_ended (s := accessNoted r s) (c := cData (memBytes s.mem (bits r.pa 51 0) r.len)) hw (by rw [hk]; decide)
  obtain ⟨htold, hreqs, honly⟩ := hend.after hu (by decide) (by decide)
  refine ⟨_, exec_accessComplete hf hp hr, ?_⟩
  rw [reqComplete_read hk hn hs, hread, hmem]
  refine ⟨hw ▸ htold, id_of_find hf ▸ hreqs, ?_, honly.mono (by decide)⟩
  rw [hend.frame .pln (by decide), accessNoted_pages]

/-- R29, R209: a write to the pool stores its bytes and no others, and completes. -/
theorem write_completes {id : Nat} (hf : s.loc.reqs.find? (fun x => x.id == id) = some r) (hp : r.phase = .access) (hr : r.retryAt = none)
    (hk : r.kind = .wr) (hw : r.who = .port p node tag) (hn : bits r.pa 63 52 = 0)
    (hs : serveCpl s (bits r.pa 51 0 / pageBytes) true = none) (hfwd : r.fwd = false) (hmark : r.mark = false)
    (hst : (page s (bits r.pa 51 0 / pageBytes)).st = .resident) (hwf : Memory.wf s.mem = true) (hc : Clean s (bits r.pa 51 0) r.data.length) :
    Answers (.memoryAccessComplete (.req id) .good []) s fun t =>
      memBytes t.mem (bits r.pa 51 0) r.data.length = r.data ∧
      (∀ a, a < bits r.pa 51 0 ∨ bits r.pa 51 0 + r.data.length ≤ a → memRead t.mem a = memRead s.mem a) ∧
      Told s t (.port p node tag) cOk ∧ t.loc.reqs = s.loc.reqs.filter (fun x => x.id != id) ∧ t.pln.pages = s.pln.pages ∧
      Only [.loc, .pln, .arc, .fld, .mem, .out] s t := by
  have hu := only_accessNoted r s
  have hfld : (accessNoted r s).fld = s.fld := hu .fld (by decide)
  have hmem : (accessNoted r s).mem = s.mem := hu .mem (by decide)
  have hclean : Clean (accessNoted r s) (bits r.pa 51 0) r.data.length := clean_iff.2 fun b hb => (clean_iff.1 hc b hb).of_fld hfld
  obtain ⟨v, hv, hframe, hbytes⟩ := foldWrite_clean (part := r.part) (r := { num := r.endpoint }) (compress := segCompress r.seg) hclean
    (by rw [hmem]; exact hwf)
  have hend := endReq_ended (s := v) (c := cOk) hw (by rw [hk]; decide)
  obtain ⟨htold, hreqs, honly⟩ := hend.after (hu.seq hframe) (by decide) (by decide)
  have hlaid : ∀ a, memRead (endReq r cOk v).mem a = laidOver (bits r.pa 51 0) r.data a (memRead s.mem a) := fun a => by
    rw [hend.frame .mem (by decide), hbytes, hmem]
  refine ⟨_, exec_accessComplete hf hp hr, ?_⟩
  rw [reqComplete_write hk hn hfwd hs hst, hmark, hv]
  refine ⟨memBytes_laidOver hlaid, fun a ha => (hlaid a).trans (laidOver_outside ha), hw ▸ htold, id_of_find hf ▸ hreqs, ?_,
    honly.mono (by decide)⟩
  rw [hend.frame .pln (by decide), hframe .pln (by decide), accessNoted_pages]

theorem endpointRead_completes {id : Nat} {ext : List Byte} (hf : s.loc.reqs.find? (fun x => x.id == id) = some r) (hp : r.phase = .access)
    (hr : r.retryAt = none) (hk : r.kind = .rd) (hw : r.who = .port p node tag) (hn : bits r.pa 63 52 ≠ 0) (hl : ext.length = r.len) :
    Answers (.memoryAccessComplete (.req id) .good ext) s fun t =>
      Told s t (.port p node tag) (cData ext) ∧ t.loc.reqs = s.loc.reqs.filter (fun x => x.id != id) ∧ Only [.loc, .out, .fresh] s t := by
  obtain ⟨htold, hreqs, honly⟩ := (endReq_ended (c := cData ext) hw (by rw [hk]; decide)).after (only_useFresh s) (by decide) (by decide)
  refine ⟨_, exec_accessComplete hf hp hr, ?_⟩
  rw [reqComplete_endpoint hk hn hl]
  exact ⟨hw ▸ htold, id_of_find hf ▸ hreqs, honly.mono (by decide)⟩

theorem access_times_out {id : Nat} {ext : List Byte} (hf : s.loc.reqs.find? (fun x => x.id == id) = some r) (hp : r.phase = .access)
    (hr : r.retryAt = none) (hk : r.kind ≠ .posted) (hw : r.who = .port p node tag) :
    Answers (.memoryAccessComplete (.req id) .timeout ext) s fun t =>
      Told s t (.port p node tag) cTimeout ∧ t.loc.reqs = s.loc.reqs.filter (fun x => x.id != id) ∧ Only [.loc, .out] s t := by
  obtain ⟨htold, hreqs, honly⟩ := endReq_ended (s := s) (c := cTimeout) hw hk
  refine ⟨_, exec_accessComplete hf hp hr, ?_⟩
  rw [reqComplete_timeout]
  exact ⟨hw ▸ htold, id_of_find hf ▸ hreqs, honly⟩

theorem forward_times_out (hd : linkDown s = true) (hq : s.loc.reqs = [r]) (hf : r.fwd = true) (hk : r.kind = .rd ∨ r.kind = .wr)
    (hw : r.who = .port p node tag) (hj : s.pln.jobs = []) :
    Answers .forwardTimeout s fun t => Told s t (.port p node tag) cTimeout ∧ t.loc.reqs = [] ∧ Only [.loc, .out] s t := by
  obtain ⟨htold, hreqs, honly⟩ := endReq_ended (s := s) (c := cTimeout) hw (by rcases hk with hk | hk <;> rw [hk] <;> decide)
  refine ⟨_, exec_forwardTimeout hd hq hf hk hw hj, hw ▸ htold, ?_, honly⟩
  rw [hreqs, hq]
  simp

/-- R16, R588: a reply of an old generation is counted by its block, at Vertex in its own register (R184). -/
theorem staleReply_counted {b : Block} {gen : Nat} (hb : b ≠ .vertex) (hg : gen ≠ (s.cmp.fences.get b.code).gen) :
    Answers (.staleReplyDrop b gen) s fun t =>
      t.cmp.fences.get b.code = { s.cmp.fences.get b.code with staleDrops := min ((s.cmp.fences.get b.code).staleDrops + 1) 65535 } ∧
      Only [.cmp] s t := by
  refine ⟨_, by simp only [exec, execStaleReplyDrop, hb, hg, bne_iff_ne, ne_eq, not_false_eq_true, if_true, if_false]; rfl, ?_, only_cmp _ s⟩
  exact Tab.get_set_same ..

theorem staleReply_counted_vertex {gen : Nat} (hg : gen ≠ s.vtx.gen) :
    Answers (.staleReplyDrop .vertex gen) s fun t =>
      t.vtx = { s.vtx with staleDrops := min (s.vtx.staleDrops + 1) 65535 } ∧ Only [.vtx] s t := by
  refine ⟨_, by simp only [exec, execStaleReplyDrop, hg, bne_iff_ne, ne_eq, not_false_eq_true, if_true]; rfl, rfl, only_modVtx _ s⟩

/-- Settles O33: each clause is the lemma on its command's completion. -/
theorem memoryAccesses : Obligations.MemoryAccesses := by
  refine ⟨?read, ?write, ?endpoint, ?timeout, ?forward, ?stale, ?staleVertex⟩
  case read => intro s id r p node tag ext hf hp hr hk hw hn hs hc; exact read_completes hf hp hr hk hw hn hs hc
  case write =>
    intro s id r p node tag hf hp hr hk hw hn hs hfwd hmark hst hwf hc
    exact write_completes hf hp hr hk hw hn hs hfwd hmark hst hwf hc
  case endpoint => intro s id r p node tag ext hf hp hr hk hw hn hl; exact endpointRead_completes hf hp hr hk hw hn hl
  case timeout => intro s id r p node tag ext hf hp hr hk hw; exact access_times_out hf hp hr hk hw
  case forward => intro s r p node tag hd _ hq hf hk hw hj; exact forward_times_out hd hq hf hk hw hj
  case stale => intro s b gen hb hg; exact staleReply_counted hb hg
  case staleVertex => intro s gen hg; exact staleReply_counted_vertex hg

end Sys2Proof.Machine
end

section
/-!
The state at reset, and the invariant of every step: the memory's one form and the well-formedness of the commands that wait.
-/
namespace Sys2Proof.Machine

variable {s t : State}

/-- A command taken from the queue leaves those behind it. -/
theorem queueOk_of_tail (h : s.queueOk) (hp : t.pending = s.pending.tail) : t.queueOk := by
  unfold State.queueOk at *
  rw [hp]
  exact List.all_eq_true.2 fun c hc => List.all_eq_true.1 h c (List.mem_of_mem_tail hc)

/-- A step keeps the memory's form: a tick and every command do. -/
theorem step_keeps_memOk (h : s.memOk) (hs : step s = .next t) : t.memOk := by
  cases hp : s.pending with
  | nil =>
    rw [step_idle hp] at hs
    cases hs
    exact (tick_kept (.refl s)).mem h
  | cons c rest =>
    simp only [step, hp] at hs
    obtain ⟨u, hu, hk⟩ := exec_runs c (.refl { s with pending := rest })
    rw [hu] at hs
    cases hs
    exact hk.mem h

theorem step_keeps_queueOk (h : s.queueOk) (hs : step s = .next t) : t.queueOk := by
  obtain ⟨u, hu, hp⟩ := step_next s
  rw [hu] at hs
  cases hs
  exact queueOk_of_tail h hp

/-- Settles O59: the memory's form is kept by a tick and by every command, and a step only takes commands from the queue. -/
theorem memoryFormKept : Obligations.MemoryFormKept :=
  fun _ _ hm hq hs => ⟨step_keeps_memOk hm hs, step_keeps_queueOk hq hs⟩

/-! ### The state at reset -/

/-- Settles O58: the parts of the reset state are as its definition gives them, and each register's value is computed from it. -/
theorem resetState : Obligations.ResetState :=
  ⟨reset_memOk, rfl, rfl, rfl, rfl, rfl, by decide⟩

end Sys2Proof.Machine
end

section
/-!
What management writes: a served session's command is its change and a completion, and a write of a register without a row of its own is
the register's change in `mgmtWrite`.
-/
namespace Sys2Proof.Machine

variable {s u : State} {k tag roles : Nat}

theorem only_modOrb (f : Orbit → Orbit) (s : State) : Only [.orb] s (modOrb f s) :=
  .of fun p => by cases p <;> simp [SamePart]

theorem only_modCmp (f : Compass → Compass) (s : State) : Only [.cmp] s (modCmp f s) :=
  .of fun p => by cases p <;> simp [SamePart]

theorem only_chd (c : Chord) (s : State) : Only [.chd] s { s with chd := c } :=
  .of fun p => by cases p <;> simp [SamePart]

theorem only_lat (l : Lattice) (s : State) : Only [.lat] s { s with lat := l } :=
  .of fun p => by cases p <;> simp [SamePart]

/-! ### A completion after a change -/

/-- A completion sent once the parts `l` have changed. -/
theorem told_after {l : List Part} {who : Requester} {c : Cpl} (h : Only l s u) (ho : .out ∉ l) :
    Told s (emit (.cpl who c) u) who c ∧ Only (l ++ [.out]) s (emit (.cpl who c) u) := by
  have hout : u.out = s.out := h .out ho
  exact ⟨by rw [Told, emit_out, hout], h.seq (only_emit _ u)⟩

/-- A served session's command: its change is made to the state that has noted the session, and its completion is told. -/
theorem gate_answers {i : Instr} {need : Role} {r : Bool} {f : State → State} {c : Cpl} {l : List Part} (h : Admits s k roles need)
    (he : exec i s = mgmtGate (.mgmt k tag roles) need r (fun x => .next (reply (.mgmt k tag roles) c (f x))) s)
    (hf : Only l (touchSession k false s) (f (touchSession k false s))) (ho : .out ∉ l) :
    Answers i s fun t => (∀ p, p ≠ .out → SamePart (f (touchSession k false s)) t p) ∧ Told s t (.mgmt k tag roles) c ∧
      Only (.cmp :: (l ++ [.out])) s t := by
  obtain ⟨htold, honly⟩ := told_after (who := .mgmt k tag roles) (c := c) ((only_touchSession k false s).seq hf) (by simpa using ho)
  exact ⟨_, he.trans (mgmtGate_admits h), fun p hp => only_emit _ _ p (by simpa using hp), htold, honly⟩

/-! ### Register writes -/

theorem exec_registerWrite (who : Requester) (asid off : Nat) (v : Word) (s : State) :
    exec (.registerWrite who asid off v) s = writeReg who asid off v.toNat s := rfl

theorem exec_csrWrite (off : Nat) (v : Word) (s : State) :
    exec (.csrWrite (.mgmt k tag roles) off v) s = writeReg (.mgmt k tag roles) 0 off v.toNat s := rfl

theorem writeReg_mgmt {asid off x : Nat} {r : Reg} (hr : regAt off = some r) :
    writeReg (.mgmt k tag roles) asid off x s = mgmtWriteReg (.mgmt k tag roles) r x s := by
  simp only [writeReg, hr]

/-- A register whose write by a session is no command of its own. -/
def PlainWrite (r : Reg) : Prop :=
  ∀ who x s, mgmtWriteReg who r x s = mgmtGate who .admin false (fun s => .next (reply who (mgmtWrite r x s).2 (mgmtWrite r x s).1)) s

/-- A write that `mgmtWrite` answers OK makes the register's change. -/
theorem plainWrite_answers {i : Instr} {asid off x : Nat} {r : Reg} {f : State → State} {l : List Part} (h : Admits s k roles .admin)
    (he : exec i s = writeReg (.mgmt k tag roles) asid off x s) (hr : regAt off = some r) (hp : PlainWrite r)
    (hw : ∀ t, mgmtWrite r x t = (f t, cOk)) (hf : ∀ t, Only l t (f t)) (ho : .out ∉ l) :
    Answers i s fun t => (∀ p, p ≠ .out → SamePart (f (touchSession k false s)) t p) ∧ Told s t (.mgmt k tag roles) cOk ∧
      Only (.cmp :: (l ++ [.out])) s t := by
  refine gate_answers (need := .admin) (r := false) h ?_ (hf _) ho
  rw [he, writeReg_mgmt hr, hp]
  simp only [hw]

/-! ### Bits of a word -/

theorem bitOf_eq_testBit (v i : Nat) : bitOf v i = v.testBit i := by
  rw [bitOf, Nat.testBit_eq_decide_div_mod_eq]
  rfl

/-- A word cut at bit `j`: what is above it, the bit, and what is below. -/
theorem eq_parts (v j : Nat) : ∃ q b r, b < 2 ∧ r < 2 ^ j ∧ v = 2 ^ j * (2 * q + b) + r := by
  refine ⟨v / 2 ^ j / 2, v / 2 ^ j % 2, v % 2 ^ j, Nat.mod_lt _ (by decide), Nat.mod_lt _ (Nat.two_pow_pos j), ?_⟩
  rw [Nat.div_add_mod, Nat.div_add_mod]

theorem bitOf_parts {q b r j : Nat} (hb : b < 2) (hr : r < 2 ^ j) : bitOf (2 ^ j * (2 * q + b) + r) j = (b == 1) := by
  have hdiv : (2 ^ j * (2 * q + b) + r) / 2 ^ j = 2 * q + b := by
    rw [Nat.mul_add_div (Nat.two_pow_pos j), Nat.div_eq_of_lt hr, Nat.add_zero]
  have hmod : (2 * q + b) % 2 = b := by omega
  rw [bitOf, hdiv, hmod]

/-- A word's other bits do not depend on bit `j`. -/
theorem bitOf_parts_ne {q b c r j i : Nat} (hb : b < 2) (hc : c < 2) (hr : r < 2 ^ j) (hij : i ≠ j) :
    bitOf (2 ^ j * (2 * q + b) + r) i = bitOf (2 ^ j * (2 * q + c) + r) i := by
  rw [bitOf_eq_testBit, bitOf_eq_testBit, Nat.testBit_two_pow_mul_add _ hr, Nat.testBit_two_pow_mul_add _ hr]
  split
  · rfl
  · obtain ⟨d, hd⟩ : ∃ d, i - j = d + 1 := ⟨i - j - 1, by omega⟩
    have hq : (2 * q + b) / 2 = (2 * q + c) / 2 := by omega
    rw [hd, Nat.testBit_succ, Nat.testBit_succ, hq]

theorem bitOf_clearBit (v j i : Nat) : bitOf (clearBit v j) i = (bitOf v i && i != j) := by
  obtain ⟨q, b, r, hb, hr, rfl⟩ := eq_parts v j
  have hclear : clearBit (2 ^ j * (2 * q + b) + r) j = 2 ^ j * (2 * q + 0) + r := by
    rw [clearBit, bitOf_parts hb hr]
    obtain rfl | rfl : b = 0 ∨ b = 1 := by omega
    · rfl
    · rw [Nat.mul_add, Nat.mul_add]
      simp
      omega
  rw [hclear]
  by_cases hij : i = j
  · rw [hij, bitOf_parts (by decide) hr]; simp
  · rw [bitOf_parts_ne (by decide) hb hr hij]; simp [hij]

theorem bitOf_setBit (v j i : Nat) : bitOf (setBit v j) i = (bitOf v i || i == j) := by
  obtain ⟨q, b, r, hb, hr, rfl⟩ := eq_parts v j
  have hset : setBit (2 ^ j * (2 * q + b) + r) j = 2 ^ j * (2 * q + 1) + r := by
    rw [setBit, bitOf_parts hb hr]
    obtain rfl | rfl : b = 0 ∨ b = 1 := by omega
    · rw [Nat.mul_add, Nat.mul_add]
      simp
      omega
    · rfl
  rw [hset]
  by_cases hij : i = j
  · rw [hij, bitOf_parts (by decide) hr]; simp
  · rw [bitOf_parts_ne (by decide) hb hr hij]; simp [hij]

/-- A write of 1 to clear, over the fields `l`. -/
theorem bitOf_clearBits (x i : Nat) (l : List Nat) (v : Nat) :
    bitOf (l.foldl (fun f j => if bitOf x j then clearBit f j else f) v) i = (bitOf v i && !(l.contains i && bitOf x i)) := by
  induction l generalizing v with
  | nil => simp
  | cons j l ih =>
    rw [List.foldl_cons, ih]
    by_cases hij : i = j
    · subst hij
      cases hx : bitOf x i <;> simp [bitOf_clearBit]
    · have hne : (i != j) = true := by simpa using hij
      split <;> simp [bitOf_clearBit, hij, hne]

/-! ### The statement -/

theorem exec_budgetSet (who : Requester) (w : Nat) (s : State) :
    exec (.budgetSet who w) s = mgmtGate who .power false (fun x => .next (reply who cOk (setBudget w x))) s := rfl

theorem exec_minReload (who : Requester) (s : State) :
    exec (.minReload who) s = mgmtGate who .admin false (fun x => .next (reply who cOk (minReload x))) s := rfl

theorem budgetSet_answers {w : Nat} (h : Admits s k roles .power) : Answers (.budgetSet (.mgmt k tag roles) w) s fun t =>
    t.cmp = { served s k with energy := { s.cmp.energy with capNext := max 500 (min 2800 w) } } ∧ Told s t (.mgmt k tag roles) cOk ∧
      Only [.cmp, .out] s t := by
  obtain ⟨t, ht, hsame, htold, honly⟩ := gate_answers h (exec_budgetSet (.mgmt k tag roles) w s) (only_cmp _ _) (by decide)
  refine ⟨t, ht, ?_, htold, honly.mono (by decide)⟩
  have hcap : (max 500 (min 2800 (w : Int))).toNat = max 500 (min 2800 w) := by omega
  rw [hsame .cmp (by decide), setBudget, hcap]
  rfl

theorem budgetSet_forbidden {w : Nat} (h : Admits s k 2 .power) (hr : roleOk .power roles = false) :
    Answers (.budgetSet (.mgmt k tag roles) w) s fun t =>
      t.cmp = served s k ∧ Told s t (.mgmt k tag roles) cNP ∧ Only [.cmp, .out] s t := by
  obtain ⟨hans, hroom, hboot, -⟩ := h
  obtain ⟨htold, honly⟩ := told_after (who := .mgmt k tag roles) (c := cNP) (only_touchSession k false s) (by decide)
  exact ⟨_, (exec_budgetSet ..).trans (mgmtGate_forbidden hans hroom hboot hr), rfl, htold, honly⟩

theorem minReload_answers (h : Admits s k roles .admin) : Answers (.minReload (.mgmt k tag roles)) s fun t =>
    t.lat = { s.lat with minFree := freeCells s } ∧ t.cmp = served s k ∧ Told s t (.mgmt k tag roles) cOk ∧ Only [.cmp, .lat, .out] s t := by
  obtain ⟨t, ht, hsame, htold, honly⟩ := gate_answers h (exec_minReload (.mgmt k tag roles) s) (only_lat _ _) (by decide)
  exact ⟨t, ht, hsame .lat (by decide), hsame .cmp (by decide), htold, honly⟩

theorem tempCfg_answers {v : Word} (h : Admits s k roles .admin) : Answers (.registerWrite (.mgmt k tag roles) 0 0x90 v) s fun t =>
    t.cmp = { served s k with warnC := bits v.toNat 7 0, throttleC := bits v.toNat 15 8 } ∧ Told s t (.mgmt k tag roles) cOk ∧
      Only [.cmp, .out] s t := by
  obtain ⟨t, ht, hsame, htold, honly⟩ := plainWrite_answers h (exec_registerWrite (.mgmt k tag roles) 0 0x90 v s) (r := .cmpTempCfg) (by decide)
    (fun _ _ _ => rfl) (fun _ => rfl) (only_modCmp _) (by decide)
  exact ⟨t, ht, hsame .cmp (by decide), htold, honly.mono (by decide)⟩

theorem chdCfg_answers {v : Word} (h : Admits s k roles .admin) : Answers (.csrWrite (.mgmt k tag roles) 0xB00008 v) s fun t =>
    t.chd = { s.chd with hierTmo := bits v.toNat 15 0 } ∧ t.cmp = served s k ∧ Told s t (.mgmt k tag roles) cOk ∧
      Only [.cmp, .chd, .out] s t := by
  obtain ⟨t, ht, hsame, htold, honly⟩ := plainWrite_answers h (exec_csrWrite (tag := tag) 0xB00008 v s) (r := .chdCfg) (by decide)
    (fun _ _ _ => rfl) (fun _ => rfl) (fun t => only_chd _ t) (by decide)
  exact ⟨t, ht, hsame .chd (by decide), hsame .cmp (by decide), htold, honly⟩

theorem orbCfg_answers {v : Word} (h : Admits s k roles .admin) : Answers (.csrWrite (.mgmt k tag roles) 0xE00008 v) s fun t =>
    t.orb = { s.orb with deferNs := bits v.toNat 31 0 } ∧ t.cmp = served s k ∧ Told s t (.mgmt k tag roles) cOk ∧
      Only [.cmp, .orb, .out] s t := by
  obtain ⟨t, ht, hsame, htold, honly⟩ := plainWrite_answers h (exec_csrWrite (tag := tag) 0xE00008 v s) (r := .orbCfg) (by decide)
    (fun _ _ _ => rfl) (fun _ => rfl) (only_modOrb _) (by decide)
  exact ⟨t, ht, hsame .orb (by decide), hsame .cmp (by decide), htold, honly⟩

/-- R585: a write of 1 clears its fault bit, and a write of 0 leaves it. -/
theorem faultStatus_answers {v : Word} {i : Nat} (h : Admits s k roles .admin) (hi : i < 6) :
    Answers (.csrWrite (.mgmt k tag roles) 0x218 v) s fun t =>
      bitOf t.cmp.faultStatus i = (bitOf s.cmp.faultStatus i && !bitOf v.toNat i) ∧ Told s t (.mgmt k tag roles) cOk ∧
        Only [.cmp, .out] s t := by
  obtain ⟨t, ht, hsame, htold, honly⟩ := plainWrite_answers h (exec_csrWrite (tag := tag) 0x218 v s) (r := .cmpFaultStatus) (by decide)
    (fun _ _ _ => rfl) (fun _ => rfl) (only_modCmp _) (by decide)
  refine ⟨t, ht, ?_, htold, honly.mono (by decide)⟩
  have hmem : (List.range 6).contains i = true := by simpa using hi
  rw [hsame .cmp (by decide), modCmp_cmp, bitOf_clearBits, hmem, Bool.true_and]
  rfl

/-- R447, R645: FREEZE by a privileged port's doorbell. -/
theorem monFreeze_answers {p node asid n : Nat} (hm : (port s p).mode = .xcl) (hpriv : (port s p).priv = true) (hpart : (port s p).part = some n) :
    Answers (.registerWrite (.port p node tag) asid 0x602000 1#64) s fun t =>
      t.arc = { s.arc with frozen := setBit s.arc.frozen n } ∧ Told s t (.port p node tag) cOk ∧ Only [.arc, .out] s t := by
  have hr : regAt 0x602000 = some .arcMonCtl := by decide
  have hw : writeReg (.port p node tag) asid 0x602000 1 s =
      .next (reply (.port p node tag) cOk (modArc (fun a => { a with frozen := setBit a.frozen n }) s)) := by
    simp only [writeReg, hm, hpriv, hpart, hr]
    rfl
  obtain ⟨htold, honly⟩ := told_after (who := .port p node tag) (c := cOk) (only_modArc (fun a => { a with frozen := setBit a.frozen n }) s) (by decide)
  exact ⟨_, hw, rfl, htold, honly⟩

/-- Settles O16: each clause is the lemma on its command. -/
theorem managementWrites : Obligations.ManagementWrites := by
  refine ⟨?budget, ?forbidden, ?reload, ?temp, ?chord, ?orbit, ?fault, ?freeze⟩
  case budget => intro s k tag roles w h; exact budgetSet_answers h
  case forbidden => intro s k tag roles w h hr; exact budgetSet_forbidden h hr
  case reload => intro s k tag roles h; exact minReload_answers h
  case temp => intro s k tag roles v h; exact tempCfg_answers h
  case chord => intro s k tag roles v h; exact chdCfg_answers h
  case orbit => intro s k tag roles v h; exact orbCfg_answers h
  case fault => intro s k tag roles v i h hi; exact faultStatus_answers h hi
  case freeze => intro s p node tag asid n hm hpriv hpart; exact monFreeze_answers hm hpriv hpart

end Sys2Proof.Machine
end

section
/-!
What a run of operations leaves unseen: `Shows o v c x` says that `o` of the state that `x` carries is `c`. Its combinators go through
the model's shapes (a condition, a fold, a pair, an option) once, for every observation `o`.
-/
namespace Sys2Proof.Machine

variable {δ α β : Type} {o : State → δ} {v : α → State} {c : δ} {s t : State}
variable {π : Pair} {ρ : Pair × List Host.Cell × CohState}

/-- `o` of the state that `x` carries is `c`. -/
def Shows (o : State → δ) (v : α → State) (c : δ) (x : α) : Prop := o (v x) = c

/-- The same of a result that there may be none of. -/
def MayShow (o : State → δ) (v : α → State) (c : δ) (r : Option α) : Prop := ∀ x, r = some x → Shows o v c x

theorem Shows.ite {q : Prop} [Decidable q] {x y : α} (hx : Shows o v c x) (hy : Shows o v c y) : Shows o v c (if q then x else y) := by
  split
  · exact hx
  · exact hy

/-- A change that a condition decides on. -/
theorem Shows.maybe {q : Prop} [Decidable q] {x y : α} (hy : Shows o v c y) (hf : Shows o v c y → Shows o v c x) :
    Shows o v c (if q then x else y) := .ite (hf hy) hy

theorem Shows.foldl {l : List β} {f : α → β → α} {x : α} (h : Shows o v c x)
    (hf : ∀ y b, Shows o v c y → Shows o v c (f y b)) : Shows o v c (l.foldl f x) := by
  induction l generalizing x with
  | nil => exact h
  | cons b l ih => exact ih (hf x b h)

theorem Shows.pair1 {b : β} (h : Shows o id c s) : Shows o Prod.fst c (s, b) := h
theorem Shows.pair2 {b : β} (h : Shows o id c s) : Shows o Prod.snd c (b, s) := h
theorem Shows.fst {x : State × β} (h : Shows o Prod.fst c x) : Shows o id c x.1 := h
theorem Shows.snd {x : β × State} (h : Shows o Prod.snd c x) : Shows o id c x.2 := h
theorem Shows.eq1 {x : State × β} {b : β} (e : x = (s, b)) (h : Shows o Prod.fst c x) : Shows o id c s := by subst e; exact h
theorem Shows.ofSome {r : Option α} {x : α} (e : r = some x) (h : MayShow o v c r) : Shows o v c x := h x e
theorem Shows.ofSome2 {r : Option (β × State)} {b : β} (e : r = some (b, s)) (h : MayShow o Prod.snd c r) : Shows o id c s := h _ e

/-- A change that `o` does not see. -/
theorem Shows.same (h : Shows o id c s) (e : o t = o s) : Shows o id c t := e.trans h

theorem MayShow.none : MayShow o v c Option.none := fun _ h => nomatch h
theorem MayShow.some {x : α} (h : Shows o v c x) : MayShow o v c (Option.some x) := by intro y e; cases e; exact h

theorem MayShow.ite {q : Prop} [Decidable q] {x y : Option α} (hx : MayShow o v c x) (hy : MayShow o v c y) :
    MayShow o v c (if q then x else y) := by
  split
  · exact hx
  · exact hy

theorem MayShow.map {r : Option β} {f : β → α} (h : ∀ b, Shows o v c (f b)) : MayShow o v c (r.map f) := by
  cases r with
  | none => exact .none
  | some b => exact .some (h b)

theorem MayShow.mapOf {w : β → State} {r : Option β} {f : β → α} (hr : MayShow o w c r)
    (h : ∀ b, Shows o w c b → Shows o v c (f b)) : MayShow o v c (r.map f) := by
  cases r with
  | none => exact .none
  | some b => exact .some (h b (hr b rfl))

theorem MayShow.bind {r : Option State} {f : State → Option α} (hr : MayShow o id c r)
    (h : ∀ t, Shows o id c t → MayShow o v c (f t)) : MayShow o v c (r.bind f) := by
  cases r with
  | none => exact .none
  | some t => exact h t (hr t rfl)

theorem MayShow.bindAny {r : Option β} {f : β → Option α} (h : ∀ b, MayShow o v c (f b)) : MayShow o v c (r.bind f) := by
  cases r with
  | none => exact .none
  | some b => exact h b

/-- The pair's state is `π`. -/
abbrev PairIs (v : α → State) (π : Pair) (x : α) : Prop := Shows State.pair v π x
abbrev MayPair (v : α → State) (π : Pair) (r : Option α) : Prop := MayShow State.pair v π r

/-- What the switch knows of a partner that is gone: it does not run, and nothing waits for it. -/
def Lost (π : Pair) : Prop := π.partnerRunning = false ∧ π.waits = []

/-- What a completion and a report leave alone. -/
def aside (s : State) : Pair × List Host.Cell × CohState := (s.pair, s.mem, s.vtx.st)

/-- An operation that leaves what a completion leaves, leaves the pair. -/
theorem Shows.ofAside (ha : Shows aside id (aside s) s → Shows aside id (aside s) t) (h : PairIs id π s) : PairIs id π t :=
  (congrArg Prod.fst (ha rfl)).trans h

theorem Shows.ofOnly {l : List Part} (ho : Only l s t) (hp : .pair ∉ l) (h : PairIs id π s) : PairIs id π t :=
  Eq.trans (ho .pair hp) h

theorem Shows.lit (h : PairIs id π s) {a0 a1 a2 a3 a4 a5 a6 a7 a8 a9 a10 a11 a12 a13 a14 a15 a16 a17 a18 a19 a20 a21} :
    PairIs id π (State.mk a0 a1 a2 a3 a4 a5 s.pair a6 a7 a8 a9 a10 a11 a12 a13 a14 a15 a16 a17 a18 a19 a20 a21) := h

/-! ### What every block shares -/

theorem send_keepsAside {k : MsgKind} {dest : Nat} {args : List Nat} (h : Shows aside id ρ s) : Shows aside id ρ (send k dest args s) := h

theorem modDom_keepsPair {n : Nat} {f : Dom → Dom} (h : PairIs id π s) : PairIs id π (modDom n f s) := h

theorem modMer_keepsPair {f : Meridian → Meridian} (h : PairIs id π s) : PairIs id π (modMer f s) := h

theorem setObj_keepsPair {i : Nat} {x : SyncObj} (h : PairIs id π s) : PairIs id π (setObj i x s) := h

theorem setSeq_keepsPair {m : Nat} {q : Seq} (h : PairIs id π s) : PairIs id π (setSeq m q s) := h

/-- R33: with the partner lost a mirrored change takes effect at once. -/
theorem mirrorThen_keepsPair {m : Mirror} {act : MirAct} {k : State → State} (hl : Lost π) (h : PairIs id π s)
    (hk : PairIs id π (k s)) : PairIs id π (mirrorThen m act k s) := by
  have hrun : s.pair.partnerRunning = false := by rw [show s.pair = π from h, hl.1]
  rw [mirrorThen_alone m act k (hasPartner_alone hrun)]
  exact hk

theorem mirrorOnly_keepsPair {m : Mirror} (hl : Lost π) (h : PairIs id π s) : PairIs id π (mirrorOnly m s) :=
  .ite (mirrorThen_keepsPair hl h h) h

theorem logRaw_keepsAside {e : LogEntry} (h : Shows aside id ρ s) : Shows aside id ρ (logRaw e s) :=
  .ite (.ite h (.maybe h fun h1 => h1)) h

theorem flushLog_keepsAside (h : Shows aside id ρ s) : Shows aside id ρ (flushLog s) := .ite (.ite h (logRaw_keepsAside h)) h

theorem logEntry_keepsAside {e : LogEntry} (h : Shows aside id ρ s) : Shows aside id ρ (logEntry e s) :=
  .maybe (logRaw_keepsAside h) fun h1 => flushLog_keepsAside h1

theorem report_keepsAside {e : Ev} {b : Block} {part : Option Nat} {data : List Nat} (h : Shows aside id ρ s) :
    Shows aside id ρ (report e b part data s) := logEntry_keepsAside h

theorem report_keepsPair {e : Ev} {b : Block} {part : Option Nat} {data : List Nat} (h : PairIs id π s) :
    PairIs id π (report e b part data s) :=
  .ofAside report_keepsAside h

theorem energyPause_keepsPair {time : Nat} (h : PairIs id π s) : PairIs id π (energyPause time s) := .foldl h fun _ _ h1 => h1

theorem debit_keepsPair {part : Nat} {cost : Nat} (h : PairIs id π s) : PairIs id π (debit part cost s) :=
  .maybe h fun h1 => .maybe h1 fun h2 => energyPause_keepsPair h2

theorem qpSend_keepsAside {q len : Nat} (h : Shows aside id ρ s) : Shows aside id ρ (qpSend q len s) := by
  dsimp only [qpSend]
  split
  · exact .ite h h
  · exact h

theorem qpSend_keepsPair {q len : Nat} (h : PairIs id π s) : PairIs id π (qpSend q len s) :=
  .ofAside qpSend_keepsAside h

theorem reply_keepsAside {r : Requester} {c : Cpl} (h : Shows aside id ρ s) : Shows aside id ρ (reply r c s) := by
  dsimp only [reply]
  split
  · exact h
  · exact h
  · exact h
  · exact h
  · exact qpSend_keepsAside h
  · exact h
  · exact h

theorem reply_keepsPair {r : Requester} {c : Cpl} (h : PairIs id π s) : PairIs id π (reply r c s) :=
  .ofAside reply_keepsAside h

/-! ### Links -/

theorem linkSend_keepsPair {p part cls len : Nat} {bucket : Option (Nat × Nat)} (h : PairIs id π s) :
    PairIs id π (linkSend p part cls len bucket s) := .ite h h

/-! ### Agreements -/

theorem modPer_keepsPair {f : Perimeter → Perimeter} (h : PairIs id π s) : PairIs id π (modPer f s) := h

theorem agreeCommit_keepsPair {a : Agree} (h : PairIs id π s) : PairIs id π (agreeCommit a s) := by
  dsimp only [agreeCommit]
  split <;> exact h

theorem beginAgree_keepsPair {p : Nat} (h : PairIs id π s) : PairIs id π (beginAgree p s) := by
  dsimp only [beginAgree]
  split
  · exact h
  · exact .ite h (.ite (report_keepsPair h) (.ite h (.maybe h fun h1 => agreeCommit_keepsPair h1)))

theorem nextAgree_keepsPair {tag : Nat} (h : PairIs id π s) : PairIs id π (nextAgree tag s) := by
  dsimp only [nextAgree]
  split
  · exact beginAgree_keepsPair h
  · exact h

theorem endAgree_keepsPair {p : Nat} (h : PairIs id π s) : PairIs id π (endAgree p s) := by
  dsimp only [endAgree]
  split
  · exact nextAgree_keepsPair h
  · exact h

/-! ### Waits -/

theorem judgeUntil_keepsAside {n : Nat} {a : DueAct} {lim : Option Nat} {c : Cpl} (h : Shows aside id ρ s) :
    Shows aside id ρ (judgeUntil n a lim c s) := by
  dsimp only [judgeUntil]
  split <;> exact h

theorem judge_keepsAside {n : Nat} {a : DueAct} {c : Cpl} (h : Shows aside id ρ s) : Shows aside id ρ (judge n a c s) :=
  judgeUntil_keepsAside h

theorem finishWait_keepsAside {w : Waiter} {c : Cpl} (h : Shows aside id ρ s) : Shows aside id ρ (finishWait w c s) := by
  dsimp only [finishWait]
  split
  · exact judge_keepsAside h
  · exact h
  · exact reply_keepsAside h

theorem wake_keepsAside {i : Nat} (h : Shows aside id ρ s) : Shows aside id ρ (wake i s) :=
  .ite (.foldl h (fun _ _ h1 => finishWait_keepsAside h1)) (.foldl h (fun _ _ h1 => finishWait_keepsAside h1))

theorem completionAdd_keepsAside {n : Nat} {o : Option Nat} (h : Shows aside id ρ s) : Shows aside id ρ (completionAdd n o s) := by
  dsimp only [completionAdd]
  split
  · exact h
  · exact .ite (wake_keepsAside h) h

theorem endWaiters_keepsPair {n : Nat} {c : Option Cpl} (h : PairIs id π s) : PairIs id π (endWaiters n c s) := by
  dsimp only [endWaiters]
  refine .foldl h fun _ _ h1 => .foldl h1 fun _ _ h2 => ?_
  split
  · exact h2
  · exact h2
  · exact reply_keepsPair h2
  · exact h2

/-! ### Fold -/

theorem setBlk_keepsPair {b : Nat} {x : Blk} (h : PairIs id π s) : PairIs id π (setBlk b x s) := h

theorem modFld_keepsPair {n : Nat} {f : FldStat → FldStat} (h : PairIs id π s) : PairIs id π (modFld n f s) := h

theorem logPoison_keepsPair {part : Nat} {b : Nat} {c : BlkCause} {r : FoldReq} (h : PairIs id π s) :
    PairIs id π (logPoison part b c r s) := report_keepsPair h

theorem countFail_keepsPair {part : Nat} {k : BlkCause} (h : PairIs id π s) : PairIs id π (countFail part k s) := h

theorem detect_keepsPair {part b : Nat} {r : FoldReq} (h : PairIs id π s) : PairIs id π (detect part b r s) := by
  dsimp only [detect]
  split
  · exact h
  · exact .ite h (logPoison_keepsPair h)

theorem foldRead_keepsPair {part : Nat} {r : FoldReq} {off len : Nat} (h : PairIs id π s) :
    PairIs Prod.fst π (foldRead part r off len s) := .ite (.pair1 (.foldl h (fun _ _ h1 => detect_keepsPair h1))) (.pair1 h)

theorem putBlock_keepsPair {part b : Nat} {plain : List Byte} {pmask : Nat} {compress : Bool} (h : PairIs id π s) :
    PairIs id π (putBlock part b plain pmask compress s) := .maybe h fun h1 => h1

theorem writeBlock_keepsPair {part : Nat} {r : FoldReq} {compress mark : Bool} {b : Nat} {d : List (Option Byte)} (h : PairIs id π s) :
    PairIs Prod.fst π (writeBlock part r compress mark b d s) := by
  dsimp only [writeBlock]
  refine .ite (.pair1 (putBlock_keepsPair h)) ?_
  split
  · exact .pair1 (.ite (setBlk_keepsPair (countFail_keepsPair (logPoison_keepsPair h))) (logPoison_keepsPair h))
  · exact .pair1 (putBlock_keepsPair h)

theorem noteWrite_keepsPair {r : FoldReq} {off : Nat} {data : List (Option Byte)} (h : PairIs id π s) :
    PairIs id π (noteWrite r off data s) := .ofOnly (only_noteWrite r off data s) (by decide) h

theorem freeSince_keepsPair {since : Option Nat} {off : Nat} {d : List Byte} (h : PairIs id π s) :
    PairIs Prod.fst π (freeSince since off d s) := by
  dsimp only [freeSince]
  split
  · exact .pair1 h
  · exact .ite (.pair1 h) (.pair1 h)

theorem foldWriteOpt_keepsPair {part : Nat} {r : FoldReq} {compress mark : Bool} {off : Nat} {data : List (Option Byte)}
    (h : PairIs id π s) : PairIs Prod.fst π (foldWriteOpt part r compress mark off data s) := by
  have hnoted := noteWrite_keepsPair (r := r) (off := off) (data := data) h
  rw [foldWriteOpt]
  generalize noteWrite r off data s = u at hnoted
  dsimp only
  refine .ite (.pair1 (modFld_keepsPair (.fst ?_))) (.pair1 (.fst ?_)) <;>
    exact .foldl (.pair1 hnoted) fun _ _ h1 => .ite h1 (.pair1 (.fst (writeBlock_keepsPair (.fst h1))))

theorem foldWrite_keepsPair {part : Nat} {r : FoldReq} {compress mark : Bool} {off : Nat} {data : List Byte} (h : PairIs id π s) :
    PairIs Prod.fst π (foldWrite part r compress mark off data s) := foldWriteOpt_keepsPair h

theorem poisonPage_keepsPair {p : Nat} (h : PairIs id π s) : PairIs id π (poisonPage p s) := by
  have hc : PairIs id π (clearPage p s) := .lit h
  dsimp only [poisonPage]
  exact .lit hc

/-! ### The directory -/

theorem dirFree_keepsPair {line : Nat} (h : PairIs id π s) : PairIs id π (dirFree line s) := by
  dsimp only [dirFree]
  split <;> exact h

theorem engineMeets_keepsPair {joins : Bool} {part l : Nat} (h : PairIs id π s) : PairIs id π (engineMeets joins part l s) := by
  dsimp only [engineMeets]
  split
  · exact h
  · exact .ite h (.ite h h)

theorem engineRead1_keepsPair {comb : Bool} {part off n : Nat} (h : PairIs id π s) :
    PairIs Prod.fst π (engineRead1 comb part off n s) := by
  dsimp only [engineRead1]
  refine .foldl (.pair1 h) fun _ _ h1 => ?_
  split
  · exact .ite (.pair1 (.foldl (engineMeets_keepsPair (.fst h1)) (fun _ _ h2 => h2))) (.pair1 (engineMeets_keepsPair (.fst h1)))
  · exact .pair1 (engineMeets_keepsPair (.fst h1))

theorem engineWrite1_keepsPair {part off n : Nat} (h : PairIs id π s) : PairIs Prod.fst π (engineWrite1 part off n s) := by
  dsimp only [engineWrite1]
  refine .foldl (.pair1 h) fun _ _ h1 => ?_
  split
  · exact .pair1 (dirFree_keepsPair (.foldl (engineMeets_keepsPair (.fst h1)) (fun _ _ h2 => h2)))
  · exact .pair1 (engineMeets_keepsPair (.fst h1))

/-! ### Translation -/

theorem recordFault_keepsPair {x : XlReq} {t : FaultTy} {ctx seg level entry addr : Nat} (h : PairIs id π s) :
    PairIs Prod.fst π (recordFault x t ctx seg level entry addr s) := .ite (.pair1 h) (.pair1 h)

theorem walkFrom_keepsPair {x : XlReq} {ctx seg : Nat} {w : List Nat} {off level table : Nat} (h : PairIs id π s) :
    PairIs Prod.fst π (walkFrom x ctx seg w off level table s) := by
  induction level generalizing table with
  | zero => exact .pair1 h
  | succ level ih =>
    simp only [walkFrom]
    split
    · exact .pair1 (.fst (recordFault_keepsPair (.ite (.fst (foldRead_keepsPair h)) h)))
    · exact .pair1 h
    · exact ih
    · exact .pair1 h

theorem translate_keepsPair {x : XlReq} (h : PairIs id π s) : PairIs Prod.fst π (translate x s) := by
  dsimp only [translate]
  split
  · exact .pair1 h
  · exact .pair1 h
  · split
    · exact .pair1 h
    · split
      · exact .pair1 h
      · exact .pair1 h
      · exact .pair1 (.fst (recordFault_keepsPair h))
      · refine .ite ?_ (walkFrom_keepsPair h)
        split
        · exact .pair1 (.fst (recordFault_keepsPair h))
        · exact .pair1 h
        · exact .pair1 h

theorem readPieces_keepsPair {x : XlReq} {l : List (Nat × Nat)} {ext acc : List Byte} {k : Cpl} (h : PairIs id π s) :
    PairIs Prod.fst π (readPieces x l ext s acc k) := by
  induction l generalizing ext s acc k with
  | nil => exact .pair1 h
  | cons y rest ih =>
    obtain ⟨va, n⟩ := y
    rw [readPieces]
    split
    · next e => exact ih (.eq1 e (translate_keepsPair h))
    · next u pa w _ e =>
      have hu : PairIs id π u := .eq1 e (translate_keepsPair h)
      refine .ite (ih hu) (.ite (ih hu) (.ite (.ite (ih hu) (ih hu)) ?_))
      split
      · exact ih hu
      · have hown : PairIs Prod.fst π (if segCoherent w then engineRead1 (segCombinable w) x.part (bits pa 51 0) n u else (u, [])) :=
          .ite (engineRead1_keepsPair hu) (.pair1 hu)
        exact .ite (ih (.fst (freeSince_keepsPair (.fst (foldRead_keepsPair (.fst hown)))))) (ih (.fst (freeSince_keepsPair (.fst hown))))

theorem engineReadFrom_keepsPair {since : Option Nat} {num n asid va len : Nat} {ext : List Byte} (h : PairIs id π s) :
    PairIs Prod.fst π (engineReadFrom since num n asid va len ext s) := readPieces_keepsPair h

theorem engineReadAs_keepsPair {num n asid va len : Nat} {ext : List Byte} (h : PairIs id π s) :
    PairIs Prod.fst π (engineReadAs num n asid va len ext s) := engineReadFrom_keepsPair h

/-! ### Queued commands -/

theorem finishCmd_keepsAside {c : QCmd} {obj : Option Nat} {k : Cpl} (h : Shows aside id ρ s) :
    Shows aside id ρ (finishCmd c obj k s) := by
  dsimp only [finishCmd]
  refine reply_keepsAside ?_
  split
  · exact reply_keepsAside (completionAdd_keepsAside h)
  · exact completionAdd_keepsAside h

theorem finishCmd_keepsPair {c : QCmd} {obj : Option Nat} {k : Cpl} (h : PairIs id π s) : PairIs id π (finishCmd c obj k s) :=
  .ofAside finishCmd_keepsAside h

/-! ### Plane -/

theorem setPage_keepsPair {p : Nat} {e : PageEnt} (h : PairIs id π s) : PairIs id π (setPage p e s) := h

theorem took_keepsPair {n : Nat} {f : Frame} (h : PairIs id π s) : PairIs id π (took n f s) := by
  dsimp only [took]
  split <;> exact h

theorem changePage_keepsPair {p : Nat} {e : PageEnt} (hl : Lost π) (h : PairIs id π s) : PairIs id π (changePage p e s) :=
  mirrorOnly_keepsPair hl h

theorem needDdr_keepsPair {n : Nat} (hl : Lost π) (h : PairIs id π s) : MayPair Prod.snd π (needDdr n s) := by
  dsimp only [needDdr]
  split
  · exact .some (.pair2 (took_keepsPair h))
  · split
    · exact .none
    · refine .ite (.some (.pair2 (took_keepsPair h))) ?_
      split
      · exact .some (.pair2 (changePage_keepsPair hl (took_keepsPair h)))
      · exact .some (.pair2 (took_keepsPair h))

theorem allocFar_keepsPair {n : Nat} {t : Tier} (hl : Lost π) (h : PairIs id π s) : MayPair Prod.snd π (allocFar n t s) := by
  dsimp only [allocFar]
  split
  · exact .none
  · exact needDdr_keepsPair hl h
  · exact .map fun _ => .pair2 (took_keepsPair h)

theorem allocFirstFar_keepsPair {n : Nat} {ts : List Tier} (hl : Lost π) (h : PairIs id π s) :
    MayPair Prod.snd π (allocFirstFar n ts s) := by
  induction ts with
  | nil => exact .none
  | cons t ts ih =>
    rw [allocFirstFar]
    split
    · next e => exact .some (.ofSome e (allocFar_keepsPair hl h))
    · exact ih

theorem spillOne_keepsPair {n : Nat} (hl : Lost π) (h : PairIs id π s) : MayPair id π (spillOne n s) := by
  dsimp only [spillOne]
  split
  · exact .some h
  · split
    · exact .some (changePage_keepsPair hl h)
    · split
      · exact .some h
      · refine .ite .none ?_
        split
        · exact .some (changePage_keepsPair hl h)
        · split
          · next e =>
            refine .some (.ofSome e (.bindAny fun _ => .ite (.some (changePage_keepsPair hl h)) ?_))
            split
            · next e => exact .some (changePage_keepsPair hl (.ofSome2 e (allocFirstFar_keepsPair hl h)))
            · exact .none
          · refine .bindAny fun _ => .ite (.some (changePage_keepsPair hl h)) ?_
            split
            · next e => exact .some (changePage_keepsPair hl (.ofSome2 e (allocFirstFar_keepsPair hl h)))
            · exact .none

theorem needPrism_keepsPair {n : Nat} (hl : Lost π) (h : PairIs id π s) : MayPair Prod.snd π (needPrism n s) := by
  dsimp only [needPrism]
  split
  · exact .some (.pair2 h)
  · exact .bind (spillOne_keepsPair hl h) fun _ h1 => .map fun _ => .pair2 h1

theorem allocTier_keepsPair {n : Nat} {t : Tier} (hl : Lost π) (h : PairIs id π s) : MayPair Prod.snd π (allocTier n t s) :=
  .ite (needPrism_keepsPair hl h) (allocFar_keepsPair hl h)

theorem allocFirst_keepsPair {n : Nat} {ts : List Tier} (hl : Lost π) (h : PairIs id π s) : MayPair Prod.snd π (allocFirst n ts s) := by
  induction ts with
  | nil => exact .none
  | cons t ts ih =>
    rw [allocFirst]
    split
    · next e => exact .some (.ofSome e (allocTier_keepsPair hl h))
    · exact ih

theorem zeroAlloc_keepsPair {n p : Nat} (hl : Lost π) (h : PairIs id π s) : MayPair Prod.snd π (zeroAlloc n p s) :=
  .mapOf (allocFirst_keepsPair hl h) fun _ hb => .pair2 (.snd hb)

theorem finishJobs_keepsPair (h : PairIs id π s) : PairIs id π (finishJobs s) := .foldl h fun _ _ h1 => finishCmd_keepsPair h1

theorem settleJobs_keepsPair {p : Nat} {ok : Bool} (h : PairIs id π s) : PairIs id π (settleJobs p ok s) :=
  .ite h (.foldl h (fun _ _ h1 => h1))

theorem debitEvac_keepsPair {p : Nat} {src dst : Frame} (h : PairIs id π s) : PairIs id π (debitEvac p src dst s) := debit_keepsPair h

theorem startMigr_keepsPair {p : Nat} {dst : Frame} {evac : Bool} (h : PairIs id π s) : PairIs id π (startMigr p dst evac s) :=
  .ite (debitEvac_keepsPair h) h

theorem switchover_keepsPair {p : Nat} (h : PairIs id π s) : PairIs id π (switchover p s) := by
  dsimp only [switchover]
  split
  · exact h
  · exact .ite h h

theorem abandonMigr_keepsPair {p : Nat} (h : PairIs id π s) : PairIs id π (abandonMigr p s) := .ite h h

theorem moveToHint_keepsPair {n p : Nat} (hl : Lost π) (h : PairIs id π s) : PairIs Prod.fst π (moveToHint n p s) := by
  dsimp only [moveToHint]
  refine .ite (.pair1 h) (.ite (.pair1 h) (.ite (.pair1 h) (.ite (.pair1 (startMigr_keepsPair h)) ?_)))
  split
  · next e => exact .pair1 (startMigr_keepsPair (.ofSome2 e (allocTier_keepsPair hl h)))
  · split
    · refine .ite (.pair1 h) ?_
      split
      · next e => exact .pair1 (startMigr_keepsPair (.ofSome2 e (allocTier_keepsPair hl h)))
      · exact .pair1 h
    · exact .pair1 h

theorem moveToPrism_keepsPair {n p : Nat} (hl : Lost π) (h : PairIs id π s) : PairIs Prod.fst π (moveToPrism n p s) := by
  dsimp only [moveToPrism]
  refine .ite (.ite (.pair1 h) (.ite (.pair1 h) ?_)) (.ite (.pair1 h) (.ite (.pair1 h) ?_))
  · split
    · next e => exact .pair1 (.same (.ofSome2 e (needPrism_keepsPair hl h)) rfl)
    · exact .pair1 h
  · split
    · next e => exact .pair1 (startMigr_keepsPair (.ofSome2 e (needPrism_keepsPair hl h)))
    · exact .pair1 h

theorem noteRelease_keepsPair {p : Nat} {rel : Option Nat} (h : PairIs id π s) : PairIs id π (noteRelease p rel s) := by
  dsimp only [noteRelease]
  split <;> exact h

theorem zeroPage_keepsPair {p : Nat} (h : PairIs id π s) : PairIs id π (zeroPage p s) := h

theorem plnAct_keepsPair {c : QCmd} {p : Nat} (hl : Lost π) (h : PairIs id π s) : PairIs Prod.fst π (plnAct c p s) :=
  .ite (.ite (.pair1 h) (.ite (moveToHint_keepsPair hl h) (.ite (.pair1 (mirrorThen_keepsPair hl h h)) (moveToHint_keepsPair hl h))))
    (.ite (.ite (moveToPrism_keepsPair hl (noteRelease_keepsPair h))
    (.ite (.pair1 (noteRelease_keepsPair h)) (.pair1 (noteRelease_keepsPair h))))
    (.ite (.pair1 (.ite h h)) (.ite (.pair1 h) (.ite (.pair1 h) (.ite (.pair1 (mirrorThen_keepsPair hl h h)) (.pair1 h))))))

theorem plnStart_keepsPair {c : QCmd} {p : Nat} {j : PlnJob} (hl : Lost π) (h : PairIs id π s) :
    PairIs Prod.fst π (plnStart c p j s) := by
  dsimp only [plnStart]
  refine .ite (.pair1 h) ?_
  split
  · next e => exact .pair1 (.eq1 e (plnAct_keepsPair hl (.ite (abandonMigr_keepsPair h) h)))
  · next e => exact .pair1 (.eq1 e (plnAct_keepsPair hl (.ite (abandonMigr_keepsPair h) h)))
  · next e => exact .pair1 (.same (.eq1 e (plnAct_keepsPair hl (.ite (abandonMigr_keepsPair h) h))) rfl)

theorem resumeTodo_keepsPair {p : Nat} {l : List PlnJob} (hl : Lost π) (h : PairIs id π s) : PairIs Prod.fst π (resumeTodo p l s) := by
  induction l generalizing s with
  | nil => exact .pair1 h
  | cons j js ih =>
    exact .ite (.pair1 (.fst (ih (.fst (plnStart_keepsPair hl h))))) (.pair1 (.fst (ih h)))

theorem settle_keepsPair {p : Nat} {ok : Bool} (hl : Lost π) (h : PairIs id π s) : PairIs id π (settle p ok s) := by
  have hjobs : PairIs id π { settleJobs p ok s with pln := { (settleJobs p ok s).pln with jobs := [] } } := settleJobs_keepsPair h
  have hres := Shows.fst (resumeTodo_keepsPair (p := p) (l := (settleJobs p ok s).pln.jobs) hl hjobs)
  exact finishJobs_keepsPair (.lit hres)

theorem finishMigr_keepsPair {p : Nat} (hl : Lost π) (h : PairIs id π s) : PairIs id π (finishMigr p s) :=
  settle_keepsPair hl (switchover_keepsPair h)

theorem applyHint_keepsPair {p : Nat} {hint : PHint} (hl : Lost π) (h : PairIs id π s) : PairIs id π (applyHint p hint s) := by
  dsimp only [applyHint]
  split
  · exact h
  · split
    · next e => exact .eq1 e (moveToHint_keepsPair hl h)
    · next e => exact settle_keepsPair hl (.eq1 e (moveToHint_keepsPair hl h))

theorem readyWrite_keepsPair {p : Nat} (hl : Lost π) (h : PairIs id π s) : PairIs Prod.fst π (readyWrite p s) := by
  dsimp only [readyWrite]
  split
  · refine .ite (.pair1 h) (.ite (.pair1 h) ?_)
    split
    · exact .pair1 h
    · next e => exact .pair1 (changePage_keepsPair hl (.ofSome2 e (zeroAlloc_keepsPair hl h)))
  · exact .pair1 h
  · exact .pair1 (.ite h h)
  · exact .pair1 h

theorem engineWriteCoh_keepsPair {x : XlReq} {compress : Bool} {off n : Nat} (h : PairIs id π s) :
    PairIs id π (engineWriteCoh x compress off n s) :=
  .foldl (.fst (engineWrite1_keepsPair h)) fun _ _ h1 => .fst (foldWrite_keepsPair h1)

theorem writePieces_keepsPair {x : XlReq} {mark : Bool} {l : List (Nat × Nat)} {data : List Byte} {k : Cpl} (hl : Lost π)
    (h : PairIs id π s) : PairIs Prod.fst π (writePieces x mark l data s k) := by
  induction l generalizing data s k with
  | nil => exact .pair1 h
  | cons y rest ih =>
    obtain ⟨va, n⟩ := y
    simp only [writePieces]
    split
    · next e => exact ih (.eq1 e (translate_keepsPair h))
    · next u pa w _ e =>
      have hu : PairIs id π u := .eq1 e (translate_keepsPair h)
      refine .ite (ih hu) (.ite (ih hu) (.ite (.ite (ih hu) (ih hu)) ?_))
      split
      · exact ih hu
      · split
        · next e2 => exact ih (.eq1 e2 (readyWrite_keepsPair hl hu))
        · next e2 =>
          have hready := (readyWrite_keepsPair hl hu).eq1 e2
          exact ih (.fst (foldWrite_keepsPair (.ite (engineWriteCoh_keepsPair hready) hready)))

theorem engineWriteAs_keepsPair {num n asid va : Nat} {data : List Byte} {mark : Bool} (hl : Lost π) (h : PairIs id π s) :
    PairIs Prod.fst π (engineWriteAs num n asid va data mark s) := writePieces_keepsPair hl h

/-! ### Vertex -/

theorem locPiece_keepsAside {i at_ : Nat} {k : Cpl} (h : Shows aside id ρ s) : Shows aside id ρ (locPiece i at_ k s) := by
  dsimp only [locPiece]
  split
  · exact h
  · exact .ite (.ite h (reply_keepsAside h)) h

theorem vReply_keepsAside {r : VReq} {op : Nat} {k : Cpl} (h : Shows aside id ρ s) : Shows aside id ρ (vReply r op k s) := by
  dsimp only [vReply]
  split
  · exact locPiece_keepsAside h
  · exact h
  · exact reply_keepsAside h

theorem vDownOne_keepsAside {r : VReq} (h : Shows aside id ρ s) : Shows aside id ρ (vDownOne r s) := by
  dsimp only [vDownOne]
  split
  · exact h
  · exact vReply_keepsAside h

/-- R187: the fall of the domain leaves the pair's state and the memory. -/
theorem domainDown_falls {cause agent line : Nat} (h : s.vtx.st = .up) :
    Shows aside id (s.pair, s.mem, .down) (domainDown cause agent line s) := by
  dsimp only [domainDown]
  rw [if_neg (by simp [h])]
  refine .foldl (.foldl (.foldl (.ite (send_keepsAside (report_keepsAside rfl)) (report_keepsAside rfl)) fun _ _ h1 => ?_) ?_) ?_
  · exact .ite h1 (vDownOne_keepsAside h1)
  · exact fun _ _ h1 => finishCmd_keepsAside h1
  · exact fun _ _ h1 => send_keepsAside h1

theorem domainDown_keepsPair {cause agent line : Nat} (h : PairIs id π s) : PairIs id π (domainDown cause agent line s) := by
  by_cases hup : s.vtx.st = .up
  · exact (congrArg Prod.fst (domainDown_falls hup)).trans h
  · rw [domainDown, if_pos (by simpa using hup)]
    exact h

/-! ### Locus -/

theorem modLoc_keepsPair {f : Locus → Locus} (h : PairIs id π s) : PairIs id π (modLoc f s) := h

theorem applyEntry_keepsPair {p : Nat} {e : PageEnt} (hl : Lost π) (h : PairIs id π s) : PairIs id π (applyEntry p e s) := by
  have hentered : PairIs id π (if e.st = .zero then zeroPage p s else if (page s p).st = .zero then setPage p e s else s) :=
    .ite (zeroPage_keepsPair h) (.ite (setPage_keepsPair h) h)
  dsimp only [applyEntry]
  exact .maybe (modLoc_keepsPair hentered) fun h1 => settle_keepsPair hl h1

/-! ### Chord -/

theorem peerSent_keepsPair {i len : Nat} (h : PairIs id π s) : PairIs id π (peerSent i len s) := by
  dsimp only [peerSent]
  split
  · split
    · exact qpSend_keepsPair h
    · exact h
  · exact h

theorem chdFinish_keepsPair {e : Nat} {i : Inst} (h : PairIs id π s) : PairIs id π (chdFinish e i s) := finishCmd_keepsPair h

theorem sendAborts_keepsPair {e : Nat} {i : Inst} (h : PairIs id π s) : PairIs id π (sendAborts e i s) :=
  .foldl h fun _ _ h1 => peerSent_keepsPair h1

theorem hierEnd_keepsPair {e : Nat} {i : Inst} {abort : Bool} (h : PairIs id π s) : PairIs id π (hierEnd e i abort s) :=
  chdFinish_keepsPair (.ite (sendAborts_keepsPair h) h)

theorem chordEnd_keepsPair {p : QCmd → Bool} (h : PairIs id π s) : PairIs id π (chordEnd p s) :=
  .foldl h fun _ _ h1 => .foldl (.foldl h1 (fun _ _ h2 => finishCmd_keepsPair h2)) fun _ _ h2 => chdFinish_keepsPair
    (.ite (sendAborts_keepsPair h2) h2)

/-! ### Orbit -/

theorem setSess_keepsPair {n : Nat} {d : Sess} (h : PairIs id π s) : PairIs id π (setSess n d s) := h

theorem countOrb_keepsAside {n : Nat} {k : Cpl} (h : Shows aside id ρ s) : Shows aside id ρ (countOrb n k s) := by
  dsimp only [countOrb]
  split <;> exact h

theorem orbReply_keepsAside {c : QCmd} {num : Option Nat} {k : Cpl} (h : Shows aside id ρ s) : Shows aside id ρ (orbReply c num k s) :=
  finishCmd_keepsAside (countOrb_keepsAside h)

theorem orbAcked_keepsPair {i : Nat} (h : PairIs id π s) : PairIs id π (orbAcked i s) := by
  dsimp only [orbAcked]
  split
  · exact finishCmd_keepsPair h
  · exact h

theorem putLeaf_keepsPair {w : List Nat} {p : Nat} {off e : Nat} (h : PairIs id π s) : PairIs id π (putLeaf w p off e s) := by
  dsimp only [putLeaf]
  split
  · exact h
  · exact modLoc_keepsPair (.fst (foldWrite_keepsPair h))

theorem dropLeaf_keepsPair {w : List Nat} {p off : Nat} (h : PairIs id π s) : PairIs id π (dropLeaf w p off s) :=
  .foldl h fun _ _ h1 => .foldl h1 fun _ _ h2 => h2

theorem freePages_keepsPair {n : Nat} (hl : Lost π) (h : PairIs id π s) : PairIs id π (freePages n s) := by
  dsimp only [freePages]
  split
  · refine setSess_keepsPair (.foldl h fun _ _ h1 => changePage_keepsPair hl (zeroPage_keepsPair (abandonMigr_keepsPair ?_)))
    exact dropLeaf_keepsPair (putLeaf_keepsPair h1)
  · exact h

theorem addOJob_keepsPair {j : OrbJob} (h : PairIs id π s) : PairIs id π (addOJob j s) := h

theorem orbForwardLost_keepsAside (h : Shows aside id ρ s) : Shows aside id ρ (orbForwardLost s) :=
  .foldl h fun _ _ h1 => orbReply_keepsAside h1

theorem orbForwardLost_keepsPair (h : PairIs id π s) : PairIs id π (orbForwardLost s) :=
  .ofAside orbForwardLost_keepsAside h

theorem orbTakeover_keepsPair (hl : Lost π) (h : PairIs id π s) : PairIs id π (orbTakeover s) := by
  dsimp only [orbTakeover]
  refine .foldl h fun _ _ h1 => .ite (addOJob_keepsPair (setSess_keepsPair h1)) (.ite (setSess_keepsPair h1) ?_)
  exact setSess_keepsPair (freePages_keepsPair hl (setSess_keepsPair h1))

theorem sessRelease_keepsPair {n : Nat} (h : PairIs id π s) : PairIs id π (sessRelease n s) := .ite h h

/-! ### Cone -/

theorem modConeEng_keepsPair {e : Nat} {f : ConeEng → ConeEng} (h : PairIs id π s) : PairIs id π (modConeEng e f s) := h

theorem admitNext_keepsPair {e : Nat} (h : PairIs id π s) : PairIs id π (admitNext e s) := by
  dsimp only [admitNext]
  refine .ite h ?_
  split <;> exact h

theorem admitAll_keepsPair {es : List Nat} (h : PairIs id π s) : PairIs id π (admitAll es s) :=
  .foldl h fun _ _ h1 => admitNext_keepsPair h1

theorem finishBatch_keepsPair {b : Batch} (h : PairIs id π s) : PairIs id π (finishBatch b s) := finishCmd_keepsPair h

theorem memberDone_keepsPair {bid at_ : Nat} {k : Cpl} (hl : Lost π) (h : PairIs id π s) : PairIs id π (memberDone bid at_ k s) := by
  dsimp only [memberDone]
  split
  · exact h
  · exact .maybe (.lit (.fst (engineWriteAs_keepsPair hl h))) fun h1 => finishBatch_keepsPair h1

theorem endQuery_keepsPair {q : Query} {k : Cpl} (hl : Lost π) (h : PairIs id π s) : PairIs id π (endQuery q k s) := by
  dsimp only [endQuery]
  refine admitAll_keepsPair ?_
  split
  · exact memberDone_keepsPair hl (.maybe (modConeEng_keepsPair (sessRelease_keepsPair (.lit h))) fun h1 => .lit h1)
  · exact finishCmd_keepsPair (.maybe (modConeEng_keepsPair (sessRelease_keepsPair (.lit h))) fun h1 => .lit h1)

theorem coneEnd_keepsPair {p : QCmd → Bool} (hl : Lost π) (h : PairIs id π s) : PairIs id π (coneEnd p s) :=
  .foldl (.foldl h (fun _ _ h1 => finishCmd_keepsPair h1)) fun _ _ h1 => endQuery_keepsPair hl h1

/-! ### Apex -/

theorem apexEnd_keepsPair {q : Nat → Bool} {all : Bool} (h : PairIs id π s) : PairIs id π (apexEnd q all s) := h

/-! ### Centroid -/

theorem cenRead_keepsPair {x : CenCtx} {va len : Nat} (h : PairIs id π s) : PairIs Prod.fst π (cenRead x va len s) :=
  .ite (.pair1 h) (.pair1 (.fst (engineReadAs_keepsPair h)))

theorem cenWrite_keepsPair {x : CenCtx} {va : Nat} {d : List Byte} {mark : Bool} (hl : Lost π) (h : PairIs id π s) :
    PairIs Prod.fst π (cenWrite x va d mark s) := engineWriteAs_keepsPair hl h

theorem setIdx_keepsPair {i : Nat} {x : Idx} (h : PairIs id π s) : PairIs id π (setIdx i x s) := h

theorem writeLive_keepsPair {c : CenCtx} {x : Idx} (hl : Lost π) (h : PairIs id π s) : PairIs Prod.fst π (writeLive c x s) :=
  cenWrite_keepsPair hl h

theorem cenFinish_keepsPair {c : QCmd} {i : Option Nat} {k : Cpl} (h : PairIs id π s) : PairIs id π (cenFinish c i k s) := by
  dsimp only [cenFinish]
  split
  · exact finishCmd_keepsPair (.maybe (.ite h h) fun h1 => h1)
  · exact finishCmd_keepsPair (.ite h h)

theorem cenAgain_keepsPair {e : Nat} (h : PairIs id π s) : PairIs id π (cenAgain e s) := .ite h h

theorem freeIdx_keepsPair {i : Nat} (h : PairIs id π s) : PairIs id π (freeIdx i s) := .lit h

theorem closeNow_keepsPair {e i : Nat} {c : QCmd} (hl : Lost π) (h : PairIs id π s) : PairIs id π (closeNow e i c s) :=
  .ite (setIdx_keepsPair h) (freeIdx_keepsPair (cenFinish_keepsPair (.fst (writeLive_keepsPair hl h))))

theorem admitSearch_keepsPair {e : Nat} {c : QCmd} (h : PairIs id π s) : MayPair id π (admitSearch e c s) := by
  dsimp only [admitSearch]
  split
  · exact .some (cenFinish_keepsPair h)
  · refine .ite (.some (cenFinish_keepsPair h)) ?_
    split
    · exact .some (cenFinish_keepsPair h)
    · exact .ite (.some (cenFinish_keepsPair h)) (.ite .none (.ite
      (.some (cenFinish_keepsPair (.fst (.ite (.pair1 h) (cenRead_keepsPair h)))))
      (.some (.fst (.ite (.pair1 h) (cenRead_keepsPair h))))))

theorem admitWaiting_keepsPair {e : Nat} (h : PairIs id π s) : PairIs id π (admitWaiting e s) := by
  dsimp only [admitWaiting]
  split
  · refine .ite ?_ h
    split
    · next e => exact .ofSome e (admitSearch_keepsPair h)
    · exact cenAgain_keepsPair h
  · exact h

theorem endSearch_keepsPair {x : Srch} {k : Cpl} (hl : Lost π) (h : PairIs id π s) : PairIs id π (endSearch x k s) := by
  dsimp only [endSearch]
  refine admitWaiting_keepsPair ?_
  split
  · exact .maybe (cenFinish_keepsPair h) fun h1 => closeNow_keepsPair hl h1
  · exact cenFinish_keepsPair h

theorem cenEnd_keepsPair {p : QCmd → Bool} (hl : Lost π) (h : PairIs id π s) : PairIs id π (cenEnd p s) := by
  dsimp only [cenEnd]
  refine .foldl (.foldl (.foldl (.foldl h (fun _ _ h1 => cenFinish_keepsPair h1)) (fun _ _ h1 => ?_))
    (fun _ _ h1 => endSearch_keepsPair hl h1)) fun _ _ h1 => ?_
  · split
    · exact cenFinish_keepsPair h1
    · exact h1
  · split
    · exact cenFinish_keepsPair h1
    · exact h1

/-! ### Arc -/

theorem dropHeld_keepsPair {p : Nat} {c : Cpl} (h : PairIs id π s) : PairIs id π (dropHeld p c s) :=
  .foldl h fun _ _ h1 => .ite (.maybe h1 fun h2 => h2) (reply_keepsPair (.maybe h1 fun h2 => h2))

/-! ### Ports -/

theorem pairRemap_keepsPair {p : Nat} {sent : List Unacked} (h : PairIs id π s) : PairIs id π (pairRemap p sent s) := by
  dsimp only [pairRemap]
  refine .ite h (.foldl h (fun _ _ h1 => ?_))
  split
  · exact linkSend_keepsPair h1
  · exact h1

theorem hierPortDown_keepsPair {p : Nat} (h : PairIs id π s) : PairIs id π (hierPortDown p s) :=
  .foldl h fun _ _ h1 => .foldl h1 fun _ _ h2 => .ite (hierEnd_keepsPair h2) h2

theorem toStep1_keepsPair {p : Nat} (h : PairIs id π s) : PairIs id π (toStep1 p s) := endAgree_keepsPair h

theorem portDown_keepsPair {p : Nat} (h : PairIs id π s) : PairIs id π (portDown p s) :=
  .ite h (.ite (toStep1_keepsPair h) (.maybe (.maybe (.ite (pairRemap_keepsPair (toStep1_keepsPair h))
    (dropHeld_keepsPair (toStep1_keepsPair h))) fun h1 => domainDown_keepsPair h1) fun h1 => hierPortDown_keepsPair h1))

/-! ### Restarts -/

theorem abandonEngines_keepsPair {n : Nat} (hl : Lost π) (h : PairIs id π s) : PairIs id π (abandonEngines n s) := by
  dsimp only [abandonEngines]
  exact cenEnd_keepsPair hl (apexEnd_keepsPair (coneEnd_keepsPair hl (chordEnd_keepsPair h)))

theorem commitSnap_keepsPair {n step : Nat} (h : PairIs id π s) : PairIs id π (commitSnap n step s) := by
  dsimp only [commitSnap]
  split <;> exact h

theorem abandonSeqs_keepsPair {p : Nat → Seq → Bool} (h : PairIs id π s) : PairIs id π (abandonSeqs p s) := by
  dsimp only [abandonSeqs]
  refine .foldl h fun _ _ h1 => setSeq_keepsPair ?_
  split
  · refine setObj_keepsPair ?_
    split <;> exact h1
  · split <;> exact h1

theorem restoreObjs_keepsPair {n : Nat} {sn : Snapshot} (h : PairIs id π s) : PairIs id π (restoreObjs n sn s) :=
  .foldl h fun _ _ h1 => .ite h1 h1

/-- With nothing waiting for the partner there is no commit to drop. -/
theorem dropCommits_keepsPair {n : Nat} (hl : Lost π) (h : PairIs id π s) : PairIs id π (dropCommits n s) := by
  obtain ⟨-, hwaits⟩ := hl
  subst h
  have hw : s.pair.waits = [] := hwaits
  have he : { s.pair with waits := [] } = s.pair := by rw [← hw]
  simp only [Shows, id, dropCommits, hw, List.map_nil, he]

theorem enterRestarting_keepsPair {n : Nat} (hl : Lost π) (h : PairIs id π s) : PairIs id π (enterRestarting n s) := by
  dsimp only [enterRestarting]
  refine abandonEngines_keepsPair hl (modDom_keepsPair (dropCommits_keepsPair hl (restoreObjs_keepsPair ?_)))
  exact endWaiters_keepsPair (abandonSeqs_keepsPair (report_keepsPair h))

/-! ### Groups -/

theorem groupZeroed_keepsPair {g v : Nat} (h : PairIs id π s) : PairIs id π (groupZeroed g v s) :=
  modPer_keepsPair (.foldl h fun _ _ h1 => zeroPage_keepsPair h1)

theorem groupZeroDone_keepsPair {g : Nat} (h : PairIs id π s) : PairIs id π (groupZeroDone g s) :=
  .foldl (groupZeroed_keepsPair h) fun _ _ h1 => reply_keepsPair h1

/-! ### Restarts -/

theorem restartDomains_keepsPair (hl : Lost π) (h : PairIs id π s) : PairIs id π (restartDomains s) :=
  .foldl h fun _ _ h1 => .ite h1 (enterRestarting_keepsPair hl h1)

/-! ### Scrubs -/

theorem scrubAcked_keepsPair {n : Nat} (h : PairIs id π s) : PairIs id π (scrubAcked n s) := by
  dsimp only [scrubAcked]
  split
  · exact .ite h (.ite h h)
  · exact .ite h h

/-! ### The partner lost -/

theorem runAct_keepsPair {a : MirAct} (hl : Lost π) (h : PairIs id π s) : PairIs id π (runAct a s) := by
  dsimp only [runAct]
  split
  · exact h
  · exact commitSnap_keepsPair h
  · exact applyEntry_keepsPair hl h
  · exact applyHint_keepsPair hl h
  · exact finishMigr_keepsPair hl h
  · exact orbAcked_keepsPair h
  · exact groupZeroDone_keepsPair h
  · exact scrubAcked_keepsPair h

theorem lostPage_keepsPair {p : Nat} (hl : Lost π) (h : PairIs id π s) : PairIs id π (lostPage p s) := by
  dsimp only [lostPage]
  split
  · next e => exact poisonPage_keepsPair (setPage_keepsPair (.ofSome2 e (allocFirst_keepsPair hl (debit_keepsPair h))))
  · exact poisonPage_keepsPair (debit_keepsPair h)

theorem convertPages_keepsPair (hl : Lost π) (h : PairIs id π s) : PairIs id π (convertPages s) := by
  dsimp only [convertPages]
  refine .foldl h fun _ _ h1 => ?_
  split
  · exact h1
  · exact lostPage_keepsPair hl h1

theorem takeDomain_keepsPair {n : Nat} (hl : Lost π) (h : PairIs id π s) : PairIs id π (takeDomain n s) := by
  dsimp only [takeDomain]
  refine .maybe (modDom_keepsPair ?_) fun h1 => enterRestarting_keepsPair hl h1
  split
  · exact .ite h h
  · exact h

end Sys2Proof.Machine
end

section
/-!
The pair's events: what each leaves of the pair's state, and the rest as it was.
-/
namespace Sys2Proof.Machine

variable {s t : State} {k tag roles n : Nat}

theorem only_modPair (f : Pair → Pair) (s : State) : Only [.pair] s (modPair f s) :=
  .of fun p => by cases p <;> simp [SamePart]

theorem only_modDom (n : Nat) (f : Dom → Dom) (s : State) : Only [.mer] s (modDom n f s) :=
  .of fun p => by cases p <;> simp [SamePart, modDom]

theorem only_setSess (n : Nat) (d : Sess) (s : State) : Only [.orb] s (setSess n d s) :=
  .of fun p => by cases p <;> simp [SamePart, setSess]

theorem only_setFaultBit (i : Nat) (s : State) : Only [.cmp] s (setFaultBit i s) :=
  .of fun p => by cases p <;> simp [SamePart, setFaultBit]

/-! ### The pair link lost (R481) -/

theorem domainDown_of_not_up {cause agent line : Nat} (h : s.vtx.st ≠ .up) : domainDown cause agent line s = s := by
  simp [domainDown, h]

theorem orbForwardLost_none (h : s.orb.fwd = []) : orbForwardLost s = s := by
  have he : { s.orb with fwd := [] } = s.orb := by rw [← h]
  simp [orbForwardLost, h, modOrb, he]

theorem declareIfLost_alive (h : s.pair.aliveInDeb = true) : declareIfLost s = s := by simp [declareIfLost, h]

theorem declareIfLost_linked (h : linkDown s = false) : declareIfLost s = s := by simp [declareIfLost, h]

theorem declareIfLost_lost (hr : running s = true) (hd : linkDown s = true) (ha : s.pair.aliveInDeb = false) :
    declareIfLost s = takeover s := by simp [declareIfLost, hr, hd, ha]

/-- A paired switch that notes the loss of its link. -/
def linkLost (s : State) : State := setFaultBit 2 (modPair (fun p => { p with linkUp := false, lostFt := s.ft, st := .linkLost }) s)

/-- R594, R595: with the partner alive the loss of the link brings the coherent domain down and ends the forwarded commands. -/
theorem exec_pairLinkLost (hup : s.pair.linkUp = true) (hs : pairSilent s = true) (hr : running s = true) (hst : s.pair.st = .paired)
    (hrun : s.pair.partnerRunning = true) (ha : s.pair.aliveInDeb = true) :
    exec .pairLinkLost s = .next (orbForwardLost (domainDown 6 0 0 (linkLost s))) := by
  have hnoted : modPair (fun p => { p with linkUp := false, lostFt := s.ft, st := if p.st = .paired then .linkLost else p.st }) s =
      modPair (fun p => { p with linkUp := false, lostFt := s.ft, st := .linkLost }) s := by
    simp [modPair, hst]
  have hboot : s.cmp.boot = .running := by simp_all [running]
  have hr' : running (modPair (fun p => { p with linkUp := false, lostFt := s.ft, st := .linkLost }) s) = true := by
    simp [running, hboot]
  have hp : hasPartner (modPair (fun p => { p with linkUp := false, lostFt := s.ft, st := .linkLost }) s) = true := by
    simp [hasPartner, hrun]
  have hpair : (orbForwardLost (domainDown 6 0 0 (linkLost s))).pair = (linkLost s).pair :=
    orbForwardLost_keepsPair (domainDown_keepsPair rfl)
  have halive : (orbForwardLost (domainDown 6 0 0 (linkLost s))).pair.aliveInDeb = true := by rw [hpair]; exact ha
  change Host.Outcome.next (if _ then _ else _) = _
  rw [if_neg (by simp [hup, hs]), hnoted, if_neg (by simp [hr']), if_neg (by simp [hp])]
  exact congrArg Host.Outcome.next (declareIfLost_alive halive)

theorem pairLinkLost_quiet (hup : s.pair.linkUp = true) (hs : pairSilent s = true) (hr : running s = true) (hst : s.pair.st = .paired)
    (hrun : s.pair.partnerRunning = true) (ha : s.pair.aliveInDeb = true) (hv : s.vtx.st ≠ .up) (hf : s.orb.fwd = []) :
    Answers .pairLinkLost s fun t =>
      t.pair = { s.pair with linkUp := false, lostFt := s.ft, st := .linkLost } ∧
      t.cmp = { s.cmp with faultStatus := setBit s.cmp.faultStatus 2 } ∧ Only [.pair, .cmp] s t := by
  refine ⟨linkLost s, ?_, rfl, rfl, (only_modPair _ s).seq (only_setFaultBit 2 _)⟩
  have hdown : domainDown 6 0 0 (linkLost s) = linkLost s := domainDown_of_not_up hv
  have hfwd : orbForwardLost (linkLost s) = linkLost s := orbForwardLost_none hf
  rw [exec_pairLinkLost hup hs hr hst hrun ha, hdown, hfwd]

theorem pairLinkLost_falls (hup : s.pair.linkUp = true) (hs : pairSilent s = true) (hr : running s = true) (hst : s.pair.st = .paired)
    (hrun : s.pair.partnerRunning = true) (ha : s.pair.aliveInDeb = true) (hv : s.vtx.st = .up) :
    Answers .pairLinkLost s fun t => t.pair.st = .linkLost ∧ t.pair.linkUp = false ∧ t.vtx.st ≠ .up ∧ t.mem = s.mem := by
  have hfalls : Shows aside id ((linkLost s).pair, s.mem, .down) (orbForwardLost (domainDown 6 0 0 (linkLost s))) :=
    orbForwardLost_keepsAside (domainDown_falls hv)
  obtain ⟨hpair, hmem, hvtx⟩ : _ ∧ _ ∧ _ := by simpa [Shows, aside] using hfalls
  refine ⟨_, exec_pairLinkLost hup hs hr hst hrun ha, ?_, ?_, ?_, hmem⟩
  · rw [hpair]; rfl
  · rw [hpair]; rfl
  · rw [hvtx]; decide

theorem pairLinkLost_heard (hs : pairSilent s = false) : Answers .pairLinkLost s fun t => t = s :=
  ⟨s, by simp [exec, execPairLinkLost, hs], rfl⟩

/-! ### The pair link there again (R45, R481) -/

theorem foldl_emit {α : Type} (f : α → Out) (l : List α) (s : State) :
    l.foldl (fun s w => emit (f w) s) s = { s with out := (l.map f).reverse ++ s.out } := by
  induction l generalizing s with
  | nil => rfl
  | cons a l ih => rw [List.foldl_cons, ih]; simp [emit]

theorem pairLinkRecover_answers (hup : s.pair.linkUp = false) (hu : pairUps s ≠ []) (hst : s.pair.st = .linkLost)
    (hrun : s.pair.partnerRunning = true) : Answers .pairLinkRecover s fun t =>
      t.pair = { s.pair with linkUp := true, st := .paired, waits := recentWaits s.pair.waits } ∧
      t.out = ((recentWaits s.pair.waits).map fun w => Out.mirror w.2.1).reverse ++ s.out ∧ Only [.pair, .out] s t := by
  have hp : hasPartner s = true := by simp [hasPartner, hrun, hst]
  have hnoted : modPair (fun p => { p with linkUp := true, st := if p.st = .linkLost then .paired else p.st, waits := recentWaits p.waits }) s =
      modPair (fun p => { p with linkUp := true, st := .paired, waits := recentWaits p.waits }) s := by
    simp [modPair, hst]
  refine ⟨{ modPair (fun p => { p with linkUp := true, st := .paired, waits := recentWaits p.waits }) s with
    out := ((recentWaits s.pair.waits).map fun w => Out.mirror w.2.1).reverse ++ s.out }, ?_, rfl, rfl, ?_⟩
  · change Host.Outcome.next (if _ then _ else _) = _
    rw [if_neg (by simp [hup, hu, hp]), hnoted, foldl_emit]
    rfl
  · exact .of fun p => by cases p <;> simp [SamePart]

/-! ### What the partner tells, and its acknowledgements (R33, R44) -/

theorem exec_mirrorUpdate {seq : Nat} {m : Mirror} (hu : pairUps s ≠ []) (hr : running s = true) (ht : s.pair.st ≠ .takeover) :
    exec (.mirrorUpdate seq m []) s = .next (send .mirrorAck 0 [seq] (applyMirror m s)) := by
  have hy : s.pair.st ≠ .yielded := by simp_all [running]
  change Host.Outcome.next (if _ then _ else _) = _
  rw [if_neg (by simp [hu, hr, ht, hy])]
  rfl

theorem mirrorUpdate_snapshot {seq a : Nat} {x : Snapshot} (hu : pairUps s ≠ []) (hr : running s = true) (ht : s.pair.st ≠ .takeover)
    (hj : s.pair.joinStep = 0) : Answers (.mirrorUpdate seq (.snapshot n a x) []) s fun t =>
      dom t n = { dom s n with partnerSnap := some x } ∧ t.out = .msg .mirrorAck 0 [seq] [] :: s.out ∧ Only [.mer, .out] s t := by
  have happly : applyMirror (.snapshot n a x) s = modDom n (fun d => { d with partnerSnap := some x }) s := by
    simp [applyMirror, partnerSnapshot, modDom, hj]
  refine ⟨_, exec_mirrorUpdate hu hr ht, ?_, ?_, ?_⟩ <;> rw [happly]
  · exact Tab.get_set_same ..
  · rfl
  · exact (only_modDom n _ s).seq (only_emit _ _)

theorem mirrorUpdate_sess {seq : Nat} {d : Sess} (hu : pairUps s ≠ []) (hr : running s = true) (ht : s.pair.st ≠ .takeover) :
    Answers (.mirrorUpdate seq (.sess n d none) []) s fun t =>
      sess t n = d ∧ t.out = .msg .mirrorAck 0 [seq] [] :: s.out ∧ Only [.orb, .out] s t :=
  ⟨_, exec_mirrorUpdate hu hr ht, Tab.get_set_same .., rfl, (only_setSess n d s).seq (only_emit _ _)⟩

theorem mirrorUpdate_takeover {seq : Nat} {m : Mirror} {c : List BlkIn} (h : s.pair.st = .takeover) :
    Answers (.mirrorUpdate seq m c) s fun t => t = s := ⟨s, by simp [exec, execMirrorUpdate, h], rfl⟩

theorem mirrorAck_commits {id : Nat} {m : Mirror} {x : Snapshot} (hw : s.pair.waits = [(id, m, .commit n x.step)])
    (hd : (dom s n).pendSnaps = [x]) : Answers (.mirrorAck id) s fun t =>
      t.pair.waits = [] ∧ dom t n = { dom s n with commit := x.step, snap := x, pendSnaps := [] } ∧ Only [.pair, .mer] s t := by
  have hack : exec (.mirrorAck id) s = .next (modDom n (fun d => { d with commit := x.step, snap := x, pendSnaps := [] })
      (modPair (fun p => { p with waits := [] }) s)) := by
    have hd' : (s.mer.doms.get n).pendSnaps = [x] := hd
    simp [exec, execMirrorAck, hw, runAct, commitSnap, modDom, dom, modPair, hd']
  exact ⟨_, hack, rfl, Tab.get_set_same .., (only_modPair _ s).seq (only_modDom n _ _)⟩

/-! ### Liveness (R593 to R596) -/

theorem pairAliveInChange_answers {level : Bool} (h : s.pins.porstN = true) : Answers (.pairAliveInChange level) s fun t =>
    t.pair = { s.pair with aliveIn := level, aliveChange := s.ft, aliveInDeb := level || s.pair.aliveInDeb, mismatch := false } ∧
      Only [.pair] s t :=
  ⟨modPair (fun p => { p with aliveIn := level, aliveChange := s.ft, aliveInDeb := level || p.aliveInDeb, mismatch := false }) s,
    by simp [exec, execPairAliveInChange, h], rfl, only_modPair _ s⟩

theorem exec_aliveDebounceExpire (hi : s.pair.aliveIn = false) (hd : s.pair.aliveInDeb = true)
    (ht : s.pair.aliveChange + max 1 s.pair.debounceUs * 1000 ≤ s.ft) :
    exec .aliveDebounceExpire s = .next (declareIfLost (modPair (fun p => { p with aliveInDeb := false }) s)) := by
  simp [exec, execAliveDebounceExpire, hi, hd, ht]

theorem aliveDebounceExpire_linked (hi : s.pair.aliveIn = false) (hd : s.pair.aliveInDeb = true)
    (ht : s.pair.aliveChange + max 1 s.pair.debounceUs * 1000 ≤ s.ft) (hl : linkDown s = false) :
    Answers .aliveDebounceExpire s fun t => t.pair = { s.pair with aliveInDeb := false } ∧ Only [.pair] s t :=
  ⟨_, (exec_aliveDebounceExpire hi hd ht).trans (congrArg _ (declareIfLost_linked hl)), rfl, only_modPair _ s⟩

theorem aliveDebounceExpire_high (hi : s.pair.aliveIn = true) : Answers .aliveDebounceExpire s fun t => t = s :=
  ⟨s, by simp [exec, execAliveDebounceExpire, hi], rfl⟩

theorem aliveMismatch_answers (hi : s.pair.aliveIn = false) (hup : s.pair.linkUp = true) (hu : pairUps s ≠ [])
    (ht : s.pair.aliveChange + 1000000 < s.ft) (hm : s.pair.mismatch = false) : Answers .aliveMismatch s fun t =>
      t.pair = { s.pair with mismatch := true } ∧ t.cmp = { s.cmp with faultStatus := setBit s.cmp.faultStatus 2 } ∧
        Only [.pair, .cmp] s t := by
  refine ⟨_, ?_, rfl, rfl, (only_modPair (fun p => { p with mismatch := true }) s).seq (only_setFaultBit 2 _)⟩
  simp [exec, execAliveMismatch, hi, hup, hu, ht, hm]

/-! ### The partner lost (R597, R615) -/

/-- The pair's state with the partner gone and nothing waiting for it. -/
def gonePair (p : Pair) : Pair := { p with waits := [], linkUp := false, partnerRunning := false }

theorem lost_gonePair (p : Pair) : Lost (gonePair p) := ⟨rfl, rfl⟩

theorem dropPartner_pairIs (s : State) : PairIs id (gonePair s.pair) (dropPartner s) := by
  have hinit : PairIs id (gonePair s.pair) (modPair (fun p => { p with waits := [], linkUp := false, partnerRunning := false }) s) := rfl
  dsimp only [dropPartner]
  exact .foldl (.foldl hinit fun _ _ h => runAct_keepsPair (lost_gonePair s.pair) h) fun _ _ h => portDown_keepsPair h

/-- What the survivor's pair state becomes, in state `st` from `ft` on. -/
def survivorPair (st : PairState) (ft : Nat) (p : Pair) : Pair :=
  { gonePair p with st := st, takeoverFt := ft, handback := [], mismatch := false }

theorem lost_survivorPair (st : PairState) (ft : Nat) (p : Pair) : Lost (survivorPair st ft p) := ⟨rfl, rfl⟩

/-- A switch that has dropped its partner, from then on in state `st` and with a pool of its own. -/
def survivor (st : PairState) (s : State) : State :=
  modPair (fun p => { p with st := st, partnerRunning := false, takeoverFt := s.ft, handback := [], mismatch := false })
    (modPer (fun p => { p with partnerPool := none }) (setFaultBit 2 s))

theorem survivor_pairIs {p : Pair} (st : PairState) (h : PairIs id (gonePair p) s) :
    PairIs id (survivorPair st s.ft p) (survivor st s) := by
  have hpair : s.pair = gonePair p := h
  change { s.pair with st := st, partnerRunning := false, takeoverFt := s.ft, handback := [], mismatch := false } = survivorPair st s.ft p
  rw [hpair]
  rfl

/-- R597: a survivor whose partner had no partition admitted is on its own at once. -/
theorem takeover_sole (hj : s.pair.joinStep = 0) (ha : s.pair.admitted = 0) :
    ∃ ft, PairIs id (survivorPair .sole ft s.pair) (takeover s) := by
  have hdropped := dropPartner_pairIs s
  dsimp only [takeover]
  generalize dropPartner s = u at hdropped ⊢
  rw [if_pos (by simp [hj, ha])]
  exact ⟨u.ft, survivor_pairIs .sole hdropped⟩

/-- R597: else it takes the partner's partitions over, and no step of that touches the pair's state. -/
theorem takeover_takes (ha : s.pair.admitted ≠ 0) : ∃ ft, PairIs id (survivorPair .takeover ft s.pair) (takeover s) := by
  have hdropped := dropPartner_pairIs s
  dsimp only [takeover]
  generalize dropPartner s = u at hdropped ⊢
  rw [if_neg (by simp [ha])]
  have hl : Lost (survivorPair .takeover u.ft s.pair) := lost_survivorPair ..
  have hinit : PairIs id (survivorPair .takeover u.ft s.pair) (survivor .takeover u) := survivor_pairIs .takeover hdropped
  refine ⟨u.ft, orbTakeover_keepsPair hl (convertPages_keepsPair hl (orbForwardLost_keepsPair (.maybe ?_ fun h => modMer_keepsPair h)))⟩
  exact restartDomains_keepsPair hl (.foldl (domainDown_keepsPair hinit) fun _ _ h => takeDomain_keepsPair hl h)

theorem aliveDebounceExpire_takes (hi : s.pair.aliveIn = false) (hd : s.pair.aliveInDeb = true)
    (ht : s.pair.aliveChange + max 1 s.pair.debounceUs * 1000 ≤ s.ft) (hr : running s = true) (hl : linkDown s = true)
    (ha : s.pair.admitted ≠ 0) : Answers .aliveDebounceExpire s fun t =>
      t.pair.st = .takeover ∧ t.pair.partnerRunning = false ∧ t.pair.takeovers = s.pair.takeovers := by
  obtain ⟨ft, htakes⟩ := takeover_takes (s := modPair (fun p => { p with aliveInDeb := false }) s) ha
  have hpair : (takeover (modPair (fun p => { p with aliveInDeb := false }) s)).pair = _ := htakes
  refine ⟨_, (exec_aliveDebounceExpire hi hd ht).trans (congrArg _ (declareIfLost_lost hr hl rfl)), ?_, ?_, ?_⟩ <;> rw [hpair] <;> rfl

/-! ### The partner declared lost (R596) -/

theorem exec_declare {v : Nat} (h : Admits s k roles .admin) :
    exec (.declare (.mgmt k tag roles) v) s = .next
      (if bitOf v 32 && !(running s && linkDown s) then reply (.mgmt k tag roles) (cRef .state) (touchSession k false s)
      else reply (.mgmt k tag roles) cOk
        (if bitOf v 32 then takeover (modPair (fun p => { p with yieldMs := bits v 15 0, debounceUs := bits v 31 16 }) (touchSession k false s))
        else modPair (fun p => { p with yieldMs := bits v 15 0, debounceUs := bits v 31 16 }) (touchSession k false s))) := by
  change execDeclare _ _ _ = _
  rw [execDeclare, mgmtGate_admits h]
  rfl

theorem declare_times {v : Nat} (h : Admits s k roles .admin) (hv : bitOf v 32 = false) :
    Answers (.declare (.mgmt k tag roles) v) s fun t =>
      t.pair = { s.pair with yieldMs := bits v 15 0, debounceUs := bits v 31 16 } ∧ t.cmp = served s k ∧
        Told s t (.mgmt k tag roles) cOk ∧ Only [.pair, .cmp, .out] s t := by
  refine ⟨_, exec_declare h, ?_⟩
  rw [if_neg (by simp [hv]), if_neg (by simp [hv])]
  exact ⟨rfl, rfl, rfl, ((only_touchSession k false s).seq ((only_modPair _ _).seq (only_emit _ _))).mono (by decide)⟩

theorem declare_refused {v : Nat} (h : Admits s k roles .admin) (hv : bitOf v 32 = true) (hl : linkDown s = false) :
    Answers (.declare (.mgmt k tag roles) v) s fun t =>
      Told s t (.mgmt k tag roles) (cRef .state) ∧ t.cmp = served s k ∧ Only [.cmp, .out] s t := by
  refine ⟨_, exec_declare h, ?_⟩
  rw [if_pos (by simp [hv, hl])]
  exact ⟨rfl, rfl, (only_touchSession k false s).seq (only_emit _ _)⟩

theorem declare_sole {v : Nat} (h : Admits s k roles .admin) (hv : bitOf v 32 = true) (hr : running s = true)
    (hl : linkDown s = true) (hj : s.pair.joinStep = 0) (ha : s.pair.admitted = 0) :
    Answers (.declare (.mgmt k tag roles) v) s fun t =>
      t.pair.st = .sole ∧ t.pair.partnerRunning = false ∧ t.pair.linkUp = false ∧ t.pair.waits = [] := by
  have hlost : (running s && linkDown s) = true := by rw [hr, hl]; rfl
  obtain ⟨ft, hsole⟩ := takeover_sole
    (s := modPair (fun p => { p with yieldMs := bits v 15 0, debounceUs := bits v 31 16 }) (touchSession k false s)) hj ha
  refine ⟨_, exec_declare h, ?_⟩
  rw [if_neg (by simp [hlost]), if_pos hv, reply_mgmt]
  generalize takeover _ = u at hsole ⊢
  have hpair : (emit (.cpl (.mgmt k tag roles) cOk) u).pair = _ := hsole
  rw [hpair]
  exact ⟨rfl, rfl, rfl, rfl⟩

/-! ### The yield (R596) and the end of the takeover (R606) -/

theorem yield_yields (hr : running s = true) (hb : s.cmp.roleB = true) (hst : s.pair.st = .linkLost) (ha : s.pair.aliveInDeb = true)
    (ht : s.pair.lostFt + max 1 s.pair.yieldMs * 1000000 ≤ s.ft) : Answers .yield s fun t =>
      t.pair.st = .yielded ∧ t.pair.aliveOut = false ∧ t.mem = [] ∧ t.edg.ports = [] ∧ t.per.pool = .none ∧ t.ft = s.ft ∧
        t.out = s.out ∧ t.pins = s.pins := by
  refine ⟨modPair (fun p => { p with st := .yielded, aliveOut := false }) (dropPool (clearBlocks s)), ?_, rfl, rfl,
    rfl, rfl, rfl, rfl, rfl, rfl⟩
  change Host.Outcome.next (if _ then _ else _) = _
  rw [if_pos (by simp [hr, hb, hst, ha, ht])]

theorem yield_roleA (hb : s.cmp.roleB = false) : Answers .yield s fun t => t = s := ⟨s, by simp [exec, execYield, hb], rfl⟩

theorem releaseCredits_none {part : Nat} (h : s.edg.withheld = []) : releaseCredits part s = s := by
  have he : { s.edg with withheld := [] } = s.edg := by rw [← h]
  simp [releaseCredits, modEdge, h, he]

theorem releaseAll_none (h : s.edg.withheld = []) : releaseAll s = s := by
  have hfold : ∀ l : List Nat, l.foldl (fun s n => releaseCredits n s) s = s := by
    intro l
    induction l with
    | nil => rfl
    | cons n l ih => rw [List.foldl_cons, releaseCredits_none h, ih]
  exact hfold _

theorem takeoverComplete_sole (hst : s.pair.st = .takeover) (hv : s.vtx.st = .up) (hd : ∀ e ∈ s.mer.doms, e.2.st ≠ .restarting)
    (hw : s.edg.withheld = []) : Answers (.takeoverComplete []) s fun t =>
      t.pair = { s.pair with st := .sole, takeovers := sat 16 s.pair.takeovers, admitted := 0, joinStep := 0 } ∧ Only [.pair] s t := by
  have hnone : (s.mer.doms.any fun e => e.2.st == .restarting) = false := by simpa using hd
  refine ⟨modPair (fun p => { p with st := .sole, takeovers := sat 16 p.takeovers, admitted := 0, joinStep := 0 }) s, ?_, rfl,
    only_modPair _ s⟩
  change Host.Outcome.next (if _ then _ else _) = _
  rw [if_pos (by simp [hst, hv, hnone]), releaseAll_none hw]
  rfl

/-! ### Pages handed back and partitions admitted (R607, R610) -/

theorem handbackComplete_answers (hr : running s = true) (hst : s.pair.st = .joining ∨ s.pair.st = .admitting) (hj : s.pair.joinStep = 0)
    (hp : s.pair.partnerRunning = true) (hu : s.pair.linkUp = true) (hb : ∀ e ∈ s.pair.handback, e.1 ≠ n) (hn : toHandBack s n = []) :
    Answers (.handbackComplete n) s fun t =>
      t.pair = { s.pair with handback := s.pair.handback.put n (angleStep (dom s n).angle + 1) } ∧ Only [.pair] s t := by
  have hnew : (s.pair.handback.any (·.1 == n)) = false := by simpa using hb
  have hst' : (s.pair.st == .joining || s.pair.st == .admitting) = true := by simpa using hst
  refine ⟨modPair (fun p => { p with handback := p.handback.put n (angleStep (dom s n).angle + 1) }) s, ?_, rfl, only_modPair _ s⟩
  change Host.Outcome.next (if _ then _ else _) = _
  rw [if_neg (by simp [hr, hst', hj, hp, hu, hnew]), hn]
  rfl

/-- The state with partition `n` admitted, whether or not others are still to be. -/
def admittedState (n : Nat) (s : State) : State := modPair (fun p => { p with admitted := setBit p.admitted n, st := .admitting }) s

theorem admitPart_none (hw : s.edg.withheld = []) : admitPart n s =
    if s.cmp.active.parts.all fun r => bitOf (setBit s.pair.admitted n) r.part then
      modPair (fun p => { p with st := .paired, admitted := 0xFFFF, joinStep := 0, handback := [] }) (admittedState n s)
    else admittedState n s := by
  have hcredits : releaseCredits n (admittedState n s) = admittedState n s := releaseCredits_none hw
  have hall : releaseAll (admittedState n s) = admittedState n s := releaseAll_none hw
  dsimp only [admitPart]
  rw [← admittedState, hcredits, hall]
  rfl

theorem exec_partitionAdmit {w : List (Nat × List Byte)} (ht : admitTurn s n = true) (hj : 3 ≤ s.pair.joinStep) :
    exec (.partitionAdmit n w) s = .next (admitPart n s) := by
  simp [exec, execPartitionAdmit, ht, hj]

theorem partitionAdmit_admitting (ht : admitTurn s n = true) (hj : 3 ≤ s.pair.joinStep) (hw : s.edg.withheld = [])
    (hr : ∃ r ∈ s.cmp.active.parts, r.part ≠ n ∧ bitOf s.pair.admitted r.part = false) : Answers (.partitionAdmit n []) s fun t =>
      t.pair = { s.pair with admitted := setBit s.pair.admitted n, st := .admitting } ∧ Only [.pair] s t := by
  obtain ⟨r, hmem, hne, hbit⟩ := hr
  have hopen : ¬ (s.cmp.active.parts.all fun r => bitOf (setBit s.pair.admitted n) r.part) = true := fun hall => by
    have := List.all_eq_true.1 hall r hmem
    simp [bitOf_setBit, hne, hbit] at this
  exact ⟨admittedState n s, by rw [exec_partitionAdmit ht hj, admitPart_none hw, if_neg hopen], rfl, only_modPair _ s⟩

theorem partitionAdmit_paired (ht : admitTurn s n = true) (hj : 3 ≤ s.pair.joinStep) (hw : s.edg.withheld = [])
    (hr : ∀ r ∈ s.cmp.active.parts, r.part = n ∨ bitOf s.pair.admitted r.part = true) : Answers (.partitionAdmit n []) s fun t =>
      t.pair = { s.pair with admitted := 0xFFFF, st := .paired, joinStep := 0, handback := [] } ∧ Only [.pair] s t := by
  have hall : (s.cmp.active.parts.all fun r => bitOf (setBit s.pair.admitted n) r.part) = true :=
    List.all_eq_true.2 fun r hmem => by simpa [bitOf_setBit] using (hr r hmem).symm
  exact ⟨_, by rw [exec_partitionAdmit ht hj, admitPart_none hw, if_pos hall], rfl,
    ((only_modPair _ s).seq (only_modPair _ (admittedState n s))).mono (by decide)⟩

theorem partitionAdmit_before {w : List (Nat × List Byte)} (ht : admitTurn s n = true) (hj : s.pair.joinStep < 3)
    (hb : admitBoundary s n = false) : Answers (.partitionAdmit n w) s fun t => t = s :=
  ⟨s, by simp [exec, execPartitionAdmit, ht, hb, Nat.not_le.2 hj], rfl⟩

/-- Settles O54: each event's clause is the lemma about it. The takeover and the fall of the coherent domain run through every block; that
they leave the pair's state as the event set it comes from `runAct_keepsPair`, `portDown_keepsPair`, `domainDown_falls` and the others. -/
theorem pairEvents : Obligations.PairEvents := by
  unfold Obligations.PairEvents
  refine ⟨?linkLost, ?domainFalls, ?linkHeard, ?linkBack, ?snapshot, ?session, ?updateInTakeover, ?ack, ?aliveChange, ?fallLinked,
    ?fallTakes, ?high, ?mismatch, ?times, ?refused, ?sole, ?yields, ?roleA, ?complete, ?handback, ?admitting, ?paired, ?before⟩
  case linkLost => exact fun s hup hs hr hst hrun ha hv hf => pairLinkLost_quiet hup hs hr hst hrun ha hv hf
  case domainFalls => exact fun s hup hs hr hst hrun ha hv => pairLinkLost_falls hup hs hr hst hrun ha hv
  case linkHeard => exact fun s hs => pairLinkLost_heard hs
  case linkBack => exact fun s hup hu hst hrun => pairLinkRecover_answers hup hu hst hrun
  case snapshot => exact fun s seq n a x hu hr ht hj => mirrorUpdate_snapshot hu hr ht hj
  case session => exact fun s seq n d hu hr ht => mirrorUpdate_sess hu hr ht
  case updateInTakeover => exact fun s seq m c h => mirrorUpdate_takeover h
  case ack => exact fun s id m n x hw hd => mirrorAck_commits hw hd
  case aliveChange => exact fun s level h => pairAliveInChange_answers h
  case fallLinked => exact fun s hi hd ht hl => aliveDebounceExpire_linked hi hd ht hl
  case fallTakes => exact fun s hi hd ht hr hl ha => aliveDebounceExpire_takes hi hd ht hr hl ha
  case high => exact fun s hi => aliveDebounceExpire_high hi
  case mismatch => exact fun s hi hup hu ht hm => aliveMismatch_answers hi hup hu ht hm
  case times => exact fun s k tag roles v h hv => declare_times h hv
  case refused => exact fun s k tag roles v h hv hl => declare_refused h hv hl
  case sole => exact fun s k tag roles v h hv hr hl hj ha => declare_sole h hv hr hl hj ha
  case yields => exact fun s hr hb hst ha ht => yield_yields hr hb hst ha ht
  case roleA => exact fun s hb => yield_roleA hb
  case complete => exact fun s hst hv hd hw => takeoverComplete_sole hst hv hd hw
  case handback => exact fun s n hr hst hj hp hu hb hn => handbackComplete_answers hr hst hj hp hu hb hn
  case admitting => exact fun s n ht hj hw hr => partitionAdmit_admitting ht hj hw hr
  case paired => exact fun s n ht hj hw hr => partitionAdmit_paired ht hj hw hr
  case before => exact fun s n w ht hj hb => partitionAdmit_before ht hj hb

end Sys2Proof.Machine
end

section
/-!
The references of fabric time and its discipline: what a reference, a PTP measurement, a pulse and a write of MER_FT_CFG leave of Meridian,
and the rest as it was.
-/
namespace Sys2Proof.Machine

variable {s : State} {k tag roles : Nat}

theorem only_mer (m : Meridian) (s : State) : Only [.mer] s { s with mer := m } :=
  .of fun p => by cases p <;> simp [SamePart]

theorem only_modMer (f : Meridian → Meridian) (s : State) : Only [.mer] s (modMer f s) := only_mer (f s.mer) s

theorem only_modPins (f : Pins → Pins) (s : State) : Only [.pins] s (modPins f s) :=
  .of fun p => by cases p <;> simp [SamePart]

/-! ### The optical references (R53) -/

theorem refOk_setRef (k : Nat) (ok : Bool) (s : State) : refOk (setRef k ok s) k = ok := by
  by_cases h : k = 0 <;> simp [refOk, setRef, h]

theorem refOk_setRef_other (hk : k < 2) (ok : Bool) : refOk (setRef k ok s) (1 - k) = refOk s (1 - k) := by
  obtain rfl | rfl : k = 0 ∨ k = 1 := by omega
  · rfl
  · rfl

/-- The two references, named from either. -/
theorem someRef_iff (hk : k < 2) : (s.mer.ref0Ok || s.mer.ref1Ok) = (refOk s k || refOk s (1 - k)) := by
  obtain rfl | rfl : k = 0 ∨ k = 1 := by omega
  · rfl
  · exact Bool.or_comm ..

theorem someRef_setRef (hk : k < 2) (ok : Bool) :
    ((setRef k ok s).mer.ref0Ok || (setRef k ok s).mer.ref1Ok) = (ok || refOk s (1 - k)) := by
  rw [someRef_iff hk, refOk_setRef, refOk_setRef_other hk]

/-- What no listed entry satisfies, and the absent entry neither, no index satisfies. -/
theorem Tab.get_of_idxs_nil {α : Type} [Inhabited α] {p : Nat → α → Bool} {t : Tab α} (h : t.idxs p = []) {k : Nat}
    (hd : p k default = false) : p k (t.get k) = false := by
  have hall : ∀ e ∈ t, p e.1 e.2 = false := by simpa [Tab.idxs] using h
  clear h
  induction t with
  | nil => exact hd
  | cons e t ih =>
    rw [Tab.get]
    split
    · next hi => exact hi ▸ hall e List.mem_cons_self
    · exact ih fun x hx => hall x (List.mem_cons_of_mem e hx)

theorem port_unused (h : s.edg.ports.idxs (fun _ p => p.mode != .unused) = []) (p : Nat) : (port s p).mode = .unused := by
  simpa [port] using Tab.get_of_idxs_nil h (k := p) rfl

/-- The state once the last reference, `k`, has failed. -/
def heldOver (k : Nat) (s : State) : State := modMer (fun m => { m with lock := .holdover }) (setRef k false s)

theorem heldOver_portsServed (hp : s.edg.ports.idxs (fun _ p => p.mode != .unused) = []) :
    ((List.range 264).filter fun p => opticalRef p == k && (port (heldOver k s) p).mode != .unused) = [] := by
  have hports : ∀ p, (port (heldOver k s) p).mode = .unused := fun p => port_unused hp p
  simp [hports]

/-- The last reference fails with no port in use, and fabric time holds over. -/
theorem exec_optRefclkFail_last (hk : k < 2) (h : refOk s k = true) (ho : refOk s (1 - k) = false)
    (hp : s.edg.ports.idxs (fun _ p => p.mode != .unused) = []) : exec (.optRefclkFail k) s = .next (heldOver k s) := by
  have hnone : ¬ ((setRef k false s).mer.ref0Ok || (setRef k false s).mer.ref1Ok) = true := by simp [someRef_setRef hk, ho]
  change Host.Outcome.next (if _ then _ else _) = _
  rw [if_neg (by simp [h, hk])]
  dsimp only
  rw [if_neg hnone, ← heldOver, heldOver_portsServed hp, List.foldl_nil]

theorem optRefclkFail_last (hk : k < 2) (h : refOk s k = true) (ho : refOk s (1 - k) = false)
    (hp : s.edg.ports.idxs (fun _ p => p.mode != .unused) = []) : Answers (.optRefclkFail k) s fun t =>
      refOk t k = false ∧ t.mer.lock = .holdover ∧ ftRuns t = false ∧ Only [.mer] s t := by
  refine ⟨_, exec_optRefclkFail_last hk h ho hp, refOk_setRef k false s, rfl, ?_, (only_modMer _ s).trans (only_modMer _ _)⟩
  change (_ && ((setRef k false s).mer.ref0Ok || (setRef k false s).mer.ref1Ok)) = false
  rw [someRef_setRef hk, ho, Bool.or_false, Bool.and_false]

/-- A reference returns after both were lost, and the lag is left to be slewed out. -/
theorem exec_optRefclkRestore_first {lag : Nat} (hk : k < 2) (h0 : refOk s 0 = false) (h1 : refOk s 1 = false) :
    exec (.optRefclkRestore k lag) s =
      .next (modMer (fun m => { m with lock := .unlocked, slewRem := -(lag : Int) }) (setRef k true s)) := by
  have hlost : refOk s k = false := by
    obtain rfl | rfl : k = 0 ∨ k = 1 := by omega
    · exact h0
    · exact h1
  have hheld : (s.mer.ref0Ok || s.mer.ref1Ok) = false := by rw [someRef_iff (k := 0) (by decide), h0, h1]; rfl
  change Host.Outcome.next (if _ then _ else _) = _
  rw [if_neg (by simp [hlost, hk]), hheld]
  rfl

theorem optRefclkRestore_first {lag : Nat} (hk : k < 2) (h0 : refOk s 0 = false) (h1 : refOk s 1 = false) :
    Answers (.optRefclkRestore k lag) s fun t =>
      refOk t k = true ∧ t.mer.lock = .unlocked ∧ t.mer.slewRem = -(lag : Int) ∧ Only [.mer] s t :=
  ⟨_, exec_optRefclkRestore_first hk h0 h1, refOk_setRef k true s, rfl, rfl, (only_modMer _ s).trans (only_modMer _ _)⟩

/-! ### The PCIe references (R642) -/

/-- The level of PCIe reference `k` is noted. -/
def setPcie (k : Nat) (ok : Bool) (s : State) : State :=
  modPins (fun x => if k = 0 then { x with pcieOk0 := ok } else { x with pcieOk1 := ok }) s

theorem pcieOk_setPcie (k : Nat) (ok : Bool) (s : State) :
    (if k = 0 then (setPcie k ok s).pins.pcieOk0 else (setPcie k ok s).pins.pcieOk1) = ok := by
  by_cases h : k = 0 <;> simp [setPcie, h]

theorem pcieRefclkFail_noTray (hk : k < 2) : Answers (.pcieRefclkFail k []) s fun t =>
    (if k = 0 then t.pins.pcieOk0 else t.pins.pcieOk1) = false ∧ Only [.pins] s t :=
  ⟨setPcie k false s, congrArg Host.Outcome.next (if_neg (Nat.not_le.2 hk)), pcieOk_setPcie k false s, only_modPins _ s⟩

theorem pcieRefclkRestore_answers (hk : k < 2) : Answers (.pcieRefclkRestore k) s fun t =>
    (if k = 0 then t.pins.pcieOk0 else t.pins.pcieOk1) = true ∧ Only [.pins] s t :=
  ⟨setPcie k true s, congrArg Host.Outcome.next (if_neg (Nat.not_le.2 hk)), pcieOk_setPcie k true s, only_modPins _ s⟩

/-- Settles O4: each reference's clause is the lemma on its event. -/
theorem references : Obligations.References := by
  refine ⟨?fail, ?restore, ?pcieFail, ?pcieRestore⟩
  case fail => exact fun s k hk h ho hp => optRefclkFail_last hk h ho hp
  case restore => exact fun s k lag hk h0 h1 => optRefclkRestore_first hk h0 h1
  case pcieFail => exact fun s k hk => pcieRefclkFail_noTray hk
  case pcieRestore => exact fun s k hk => pcieRefclkRestore_answers hk

/-! ### PTP and PPS (R54, R55, R57) -/

theorem satInt_of_mem {w : Nat} {i : Int} (hl : -2 ^ (w - 1) ≤ i) (hu : i < 2 ^ (w - 1)) : satInt w i = i := by
  rw [satInt, if_neg (not_lt.2 hl), if_neg (not_le.2 hu)]

/-- Once locked, a small offset measured over the management port locks and sets the correction. -/
theorem ptpMessageRx_locks {off : Int} (hsel : s.mer.portSel = false) (hlock : s.mer.lock ≠ .follower) (href : s.mer.ref0Ok = true)
    (hever : s.mer.everLocked = true) (hpps : s.mer.ppsInEn = false) (hl : -1000000 ≤ off) (hu : off ≤ 1000000) :
    Answers (.ptpMessageRx none s.mer.ptpDomain s.mer.transport off) s fun t =>
      t.mer.lock = .locked ∧ t.mer.slewRem = off ∧ t.mer.offset = off ∧ t.ft = s.ft ∧ Only [.mer] s t := by
  have hsat : satInt 32 off = off := satInt_of_mem (by omega) (by omega)
  have hsmall : ¬ (1000000 < off ∨ off < -1000000) := by omega
  refine ⟨{ s with mer := { s.mer with offset := off, lock := .locked, slewRem := off } }, ?_, rfl, rfl, rfl, rfl, only_mer _ s⟩
  change execPtpMessageRx none s.mer.ptpDomain s.mer.transport off s = _
  simp [execPtpMessageRx, hsel, hlock, href, hever, hpps, hsat, hsmall]

theorem ppsInEdge_sets (hpps : s.mer.ppsInEn = true) (hever : s.mer.everLocked = true) (hlock : s.mer.lock ≠ .follower) :
    Answers .ppsInEdge s fun t =>
      t.mer.slewRem = (if s.ft % 1000000000 < 500000000 then ((s.ft % 1000000000 : Nat) : Int)
        else ((s.ft % 1000000000 : Nat) : Int) - 1000000000) ∧ Only [.mer] s t := by
  refine ⟨_, if_pos ?_, rfl, only_mer _ s⟩
  simp [hpps, hever, hlock]

theorem ppsOutRise_rises (hr : running s = true) (hs : s.ft / 1000000000 ≠ s.mer.ppsLast) : Answers .ppsOutRise s fun t =>
    t.mer.ppsLast = s.ft / 1000000000 ∧ t.out = .msg .ppsRise 0 [s.ft] [] :: s.out ∧ Only [.mer, .out] s t := by
  refine ⟨_, if_pos ?_, rfl, rfl, (only_mer _ s).seq (only_emit _ _)⟩
  simp [hr, hs]

/-! ### MER_FT_CFG (R59) -/

/-- MER_FT_CFG as its fields are written. -/
def setFtCfg (v : Nat) (s : State) : State :=
  { s with mer := { s.mer with
    portSel := bitOf v 0, ptpPort := bits v 8 1, ppsInEn := bitOf v 9, ptpDomain := bits v 16 10, transport := bitOf v 17 } }

theorem exec_ftCfgWrite (who : Requester) (v : Nat) (s : State) :
    exec (.ftCfgWrite who v) s = mgmtGate who .admin false (fun x =>
      if bitOf v 0 && (port x (bits v 8 1)).mode != .eth then .next (reply who cBad x) else .next (reply who cOk (setFtCfg v x))) s := rfl

theorem ftCfgWrite_writes {v : Nat} (h : Admits s k roles .admin) (hp : bitOf v 0 = true → (port s (bits v 8 1)).mode = .eth) :
    Answers (.ftCfgWrite (.mgmt k tag roles) v) s fun t =>
      t.mer.portSel = bitOf v 0 ∧ t.mer.ptpPort = bits v 8 1 ∧ t.mer.ppsInEn = bitOf v 9 ∧ t.mer.ptpDomain = bits v 16 10 ∧
      t.mer.transport = bitOf v 17 ∧ Told s t (.mgmt k tag roles) cOk ∧ Only [.mer, .cmp, .out] s t := by
  have hport : (port (touchSession k false s) (bits v 8 1)).mode = (port s (bits v 8 1)).mode := rfl
  refine ⟨reply (.mgmt k tag roles) cOk (setFtCfg v (touchSession k false s)), ?_, rfl, rfl, rfl, rfl, rfl, rfl,
    ((only_touchSession k false s).seq ((only_mer _ _).seq (only_emit _ _))).mono (by decide)⟩
  rw [exec_ftCfgWrite, mgmtGate_admits h, hport, if_neg (by simpa using hp)]

theorem ftCfgWrite_refused {v : Nat} (h : Admits s k roles .admin) (hv : bitOf v 0 = true) (hp : (port s (bits v 8 1)).mode ≠ .eth) :
    Answers (.ftCfgWrite (.mgmt k tag roles) v) s fun t =>
      t.mer = s.mer ∧ Told s t (.mgmt k tag roles) cBad ∧ Only [.cmp, .out] s t := by
  have hport : (port (touchSession k false s) (bits v 8 1)).mode = (port s (bits v 8 1)).mode := rfl
  refine ⟨reply (.mgmt k tag roles) cBad (touchSession k false s), ?_, rfl, rfl, (only_touchSession k false s).seq (only_emit _ _)⟩
  rw [exec_ftCfgWrite, mgmtGate_admits h, hport, if_pos (by simp [hv, hp])]

/-- Settles O5: each clause is the lemma on its command. -/
theorem fabricTime : Obligations.FabricTime := by
  refine ⟨?ptp, ?ppsIn, ?ppsOut, ?written, ?refused⟩
  case ptp => exact fun s off hsel hlock href hever hpps hl hu => ptpMessageRx_locks hsel hlock href hever hpps hl hu
  case ppsIn => exact fun s hpps hever hlock => ppsInEdge_sets hpps hever hlock
  case ppsOut => exact fun s hr hs => ppsOutRise_rises hr hs
  case written => exact fun s k tag roles v h hp => ftCfgWrite_writes h hp
  case refused => exact fun s k tag roles v h hv hp => ftCfgWrite_refused h hv hp

end Sys2Proof.Machine
end

section
/-!
Commands of programs: how a queued command reaches its sequencer's program, what ISSUE leaves of the sequencer and of its block, and what
the outcome of an issue does to the program.
-/
namespace Sys2Proof.Machine

variable {s : State} {m w slot q : Nat}

/-! ### Sequencers and queues as tables -/

theorem only_setSeq (m : Nat) (x : Seq) (s : State) : Only [.mer] s (setSeq m x s) :=
  .of fun p => by cases p <;> simp [SamePart]

theorem only_setQueue (b : Block) (q : Nat) (l : List QCmd) (s : State) : Only [.eng] s (setQueue b q l s) :=
  .of fun p => by cases p <;> simp [SamePart]

theorem only_setIssued (b : Block) (q : Nat) (l : List QCmd) (s : State) : Only [.eng] s (setIssued b q l s) :=
  .of fun p => by cases p <;> simp [SamePart]

@[simp] theorem seqOf_setSeq_same (m : Nat) (x : Seq) (s : State) : seqOf (setSeq m x s) m = x := Tab.get_set_same ..

@[simp] theorem queueOf_setQueue_same (b : Block) (q : Nat) (l : List QCmd) (s : State) : queueOf (setQueue b q l s) b q = l :=
  Tab.get_set_same ..

@[simp] theorem issuedOf_setIssued_same (b : Block) (q : Nat) (l : List QCmd) (s : State) : issuedOf (setIssued b q l s) b q = l :=
  Tab.get_set_same ..

theorem seqBlock_cone (h1 : 32 ≤ m) (h2 : m < 96) : seqBlock m = .cone := by
  rw [seqBlock, if_neg (Nat.not_lt.2 h1), if_pos h2]

/-- R80: outside of any loop a program goes on with the next instruction. -/
theorem seqGoOn_flat {x : Seq} (h : x.stack = []) : seqGoOn x.pc x = { x with pc := x.pc + 1 } := by
  rw [seqGoOn, h, afterInstr, ← h]

/-! ### A command presented (R78) -/

theorem length_toLE (n v : Nat) : (toLE n v).length = n := by
  induction n generalizing v with
  | zero => rfl
  | succ n ih => rw [toLE, List.length_cons, ih]

theorem length_flatMap_toLE (n : Nat) (l : List Nat) : (l.flatMap (toLE n)).length = l.length * n := by
  simp [List.length_flatMap, length_toLE]

theorem getD_listSet_zero {α : Type} {l : List α} (h : l ≠ []) (x d : α) : (listSet l 0 x).getD 0 d = x := by
  cases l with
  | nil => exact absurd rfl h
  | cons y l => rfl

/-- What a buffer begins with once `d` is written over its start. -/
theorem take_overlay {n : Nat} {old d : List Byte} (hd : d.length ≤ n) (hn : n ≤ 256) :
    (overlay old d).take n = d ++ (old.drop d.length).take (n - d.length) := by
  rw [overlay, List.take_take, Nat.min_eq_left hn, List.take_append, List.take_of_length_le hd]

/-- Cone's descriptor of a command, as bytes. -/
def coneDesc (c : QCmd) : List Byte := (c.words.take 8).flatMap (toLE 8)

theorem length_coneDesc (c : QCmd) : (coneDesc c).length ≤ 64 := by
  have hwords : (c.words.take 8).length ≤ 8 := List.length_take_le ..
  rw [coneDesc, length_flatMap_toLE]
  omega

/-- The sequencer that a command of Cone is presented to, at `pc` of bank `bank`. -/
def presented (pc bank : Nat) (c : QCmd) (y : Seq) : Seq :=
  { y with
    pc := pc, run := .running, st := {}, acc := {}, loops := [0, 0, 0, 0],
    bufs := listSet y.bufs 0 (overlay (y.bufs.getD 0 []) (coneDesc c)), asid := c.asid, bank := bank,
    stack := [], wait := .none, cmd := some c }

theorem exec_blockCmdPresent_cone {c : QCmd} {rest : List QCmd} {pc : Nat} (hq : q < 64) (hhead : queueOf s .cone q = c :: rest)
    (hentry : entryPoint s (32 + q) 0 = some pc) (hidle : (seqOf s (32 + q)).run = .idle) (hstarts : (seqOf s (32 + q)).starts = [])
    (hfence : fenced s .cone = false) (hheld : c.held = false) (hscrub : scrubFenced s c.part = false) :
    exec (.blockCmdPresent .cone q) s =
      .next (setSeq (32 + q) (presented pc s.mer.bank c (seqOf s (32 + q))) (setQueue .cone q rest s)) := by
  change execBlockCmdPresent .cone q s = _
  have hbase : seqBase .cone = (32, 64) := rfl
  simp only [execBlockCmdPresent, hbase, hhead, hentry]
  rw [if_neg (by simp [hidle, hstarts, hfence, hheld, hscrub, hq])]
  rfl

theorem blockCmdPresent_presents {c : QCmd} {rest : List QCmd} {pc : Nat} (hq : q < 64) (hhead : queueOf s .cone q = c :: rest)
    (hentry : entryPoint s (32 + q) 0 = some pc) (hidle : (seqOf s (32 + q)).run = .idle) (hstarts : (seqOf s (32 + q)).starts = [])
    (hbufs : (seqOf s (32 + q)).bufs.length = 4) (hfence : fenced s .cone = false) (hheld : c.held = false)
    (hscrub : scrubFenced s c.part = false) : Answers (.blockCmdPresent .cone q) s fun t =>
      queueOf t .cone q = rest ∧ (seqOf t (32 + q)).run = .running ∧ (seqOf t (32 + q)).pc = pc ∧ (seqOf t (32 + q)).cmd = some c ∧
      (seqOf t (32 + q)).asid = c.asid ∧ ((seqOf t (32 + q)).bufs.getD 0 []).take 64 = coneDesc c ++
        (((seqOf s (32 + q)).bufs.getD 0 []).drop (coneDesc c).length).take (64 - (coneDesc c).length) ∧
      Only [.eng, .mer] s t := by
  have hne : (seqOf s (32 + q)).bufs ≠ [] := List.ne_nil_of_length_pos (by omega)
  refine ⟨_, exec_blockCmdPresent_cone hq hhead hentry hidle hstarts hfence hheld hscrub, queueOf_setQueue_same .cone q rest s, ?_⟩
  rw [seqOf_setSeq_same]
  refine ⟨rfl, rfl, rfl, rfl, ?_, (only_setQueue _ _ _ s).seq (only_setSeq _ _ _)⟩
  rw [presented, getD_listSet_zero hne, take_overlay (length_coneDesc c) (by decide)]

/-! ### ISSUE (R80) -/

theorem issue_waitsForRoom (hw : seqInstr s m 5 = some w) (hfull : 16 ≤ (seqOf s m).outst.length) : Answers (.issue m) s fun t =>
    seqOf t m = { seqOf s m with run := .waiting, wait := .room } ∧ Only [.mer] s t := by
  refine ⟨setSeq m { seqOf s m with run := .waiting, wait := .room } s, ?_, seqOf_setSeq_same .., only_setSeq _ _ s⟩
  change execIssue m s = _
  simp [execIssue, hw, hfull]

/-- A sequencer past its ISSUE, which took the next slot. -/
def issuing (awaited : Bool) (cmd : Option QCmd) (x : Seq) : Seq :=
  { x with
    pc := x.pc + 1, nextSlot := x.nextSlot + 1, outst := x.outst ++ [{ slot := x.nextSlot, awaited := awaited }],
    run := if awaited then .waiting else .running, wait := if awaited then .issue x.nextSlot else .none, cmd := cmd }

/-- With room and outside of loops, ISSUE gives the block its command; `mine` is the one presented, where the buffer holds it. -/
theorem exec_issue {mine : Option QCmd} (hw : seqInstr s m 5 = some w) (hroom : (seqOf s m).outst.length < 16)
    (hstack : (seqOf s m).stack = [])
    (hmine : mine = (seqOf s m).cmd.filter fun c =>
      ofLE (((seqOf s m).bufs.getD (bits w 58 57) []).take 64) = ofLE ((c.words.flatMap (toLE 8)).take 64)) :
    exec (.issue m) s = .next (blockIssue (seqBlock m) m (bits w 51 48) ((seqOf s m).bufs.getD (bits w 58 57) [])
      (.seq m (seqOf s m).nextSlot) mine (seqOf s m).part (seqOf s m).asid
      (setSeq m (issuing (bitOf w 56) (if mine.isSome then none else (seqOf s m).cmd) (seqOf s m)) s)) := by
  change execIssue m s = _
  simp only [execIssue, hw]
  rw [if_neg (Nat.not_le.2 hroom), seqGoOn_flat hstack, hmine]
  cases hcmd : (seqOf s m).cmd with
  | none => rfl
  | some c => simp only [Option.filter, decide_eq_true_eq]; rfl

/-- The outcome of an issue is noted at its slot. -/
theorem reply_seq (slot : Nat) (c : Cpl) (s : State) : reply (.seq m slot) c s =
    modSeq m (fun x => { x with outst := x.outst.map fun i => if i.slot = slot then { i with done := some c } else i }) s := rfl

/-- Entry 25: no block's chapter gives another DEST a meaning. -/
theorem blockIssue_badDest {b : Block} {dest part asid : Nat} {bytes : List Byte} {req : Requester} {mine : Option QCmd} (h : dest ≠ 0) :
    blockIssue b m dest bytes req mine part asid s = reply req cBad s :=
  if_pos (by simpa using h)

/-- R78: the command presented to the program goes on to the block's datapath. -/
theorem blockIssue_presented {b : Block} {dest part asid : Nat} {bytes : List Byte} {c : QCmd} (h : dest = 0) :
    blockIssue b m dest bytes (.seq m slot) (some c) part asid s =
      setIssued b c.id (issuedOf s b c.id ++ [{ c with issuer := some (m, slot) }]) s :=
  if_neg (by simp [h])

theorem issue_badDest (hw : seqInstr s m 5 = some w) (hroom : (seqOf s m).outst.length < 16) (hcmd : (seqOf s m).cmd = none)
    (hstack : (seqOf s m).stack = []) (hdest : bits w 51 48 ≠ 0) (haw : bitOf w 56 = true)
    (hfree : ∀ j ∈ (seqOf s m).outst, j.slot ≠ (seqOf s m).nextSlot) : Answers (.issue m) s fun t =>
      seqOf t m = { seqOf s m with
        pc := (seqOf s m).pc + 1, nextSlot := (seqOf s m).nextSlot + 1, run := .waiting, wait := .issue (seqOf s m).nextSlot,
        outst := (seqOf s m).outst ++ [{ slot := (seqOf s m).nextSlot, awaited := true, done := some cBad }] } ∧
      Only [.mer] s t := by
  have hothers : (seqOf s m).outst.map (fun i => if i.slot = (seqOf s m).nextSlot then { i with done := some cBad } else i) =
      (seqOf s m).outst := (List.map_congr_left fun j hj => if_neg (hfree j hj)).trans (List.map_id _)
  refine ⟨_, exec_issue (mine := none) hw hroom hstack (by rw [hcmd]; rfl), ?_⟩
  rw [blockIssue_badDest hdest, reply_seq]
  refine ⟨?_, (only_setSeq _ _ s).trans (only_setSeq _ _ _)⟩
  rw [modSeq, seqOf_setSeq_same, seqOf_setSeq_same]
  simp [issuing, haw, hcmd, hothers]

theorem issue_presented {c : QCmd} (hw : seqInstr s m 5 = some w) (h1 : 32 ≤ m) (h2 : m < 96) (hroom : (seqOf s m).outst.length < 16)
    (hcmd : (seqOf s m).cmd = some c) (hstack : (seqOf s m).stack = []) (hdest : bits w 51 48 = 0) (haw : bitOf w 56 = false)
    (hbuf : ofLE (((seqOf s m).bufs.getD (bits w 58 57) []).take 64) = ofLE ((c.words.flatMap (toLE 8)).take 64)) :
    Answers (.issue m) s fun t =>
      issuedOf t .cone c.id = issuedOf s .cone c.id ++ [{ c with issuer := some (m, (seqOf s m).nextSlot) }] ∧
      seqOf t m = { seqOf s m with
        pc := (seqOf s m).pc + 1, nextSlot := (seqOf s m).nextSlot + 1, run := .running, wait := .none, cmd := none,
        outst := (seqOf s m).outst ++ [{ slot := (seqOf s m).nextSlot, awaited := false }] } ∧
      Only [.mer, .eng] s t := by
  refine ⟨_, exec_issue (mine := some c) hw hroom hstack (by rw [hcmd, Option.filter, if_pos (decide_eq_true hbuf)]), ?_⟩
  rw [seqBlock_cone h1 h2, blockIssue_presented hdest]
  refine ⟨issuedOf_setIssued_same .., (seqOf_setSeq_same ..).trans ?_, (only_setSeq _ _ s).seq (only_setIssued _ _ _ _)⟩
  rw [issuing, haw]
  rfl

/-! ### Outcomes (R80) -/

/-- The program that waits for its one outstanding issue takes the outcome into ST and goes on. -/
theorem issueComplete_awaited {c : Cpl} (ho : (seqOf s m).outst = [{ slot := slot, awaited := true, done := some c }])
    (hwait : (seqOf s m).wait = .issue slot) (hrun : (seqOf s m).run = .waiting) : Answers (.issueComplete m slot) s fun t =>
      seqOf t m = { seqOf s m with outst := [], st := { c with data := [] }, run := .running, wait := .none } ∧ Only [.mer] s t := by
  refine ⟨setSeq m { seqOf s m with outst := [], st := { c with data := [] }, run := .running, wait := .none } s, ?_,
    seqOf_setSeq_same .., only_setSeq _ _ s⟩
  change execIssueComplete m slot s = _
  simp [execIssueComplete, ho, hwait, hrun]

/-- The first outcome that is not OK of an issue nobody waits for is kept in ACC. -/
theorem issueComplete_noted {c : Cpl} (ho : (seqOf s m).outst = [{ slot := slot, awaited := false, done := some c }])
    (hwait : (seqOf s m).wait = .none) (hrun : (seqOf s m).run = .running) (hc : c.status ≠ .ok) (hacc : (seqOf s m).acc.status = .ok) :
    Answers (.issueComplete m slot) s fun t =>
      seqOf t m = { seqOf s m with outst := [], acc := { c with data := [] } } ∧ Only [.mer] s t := by
  refine ⟨setSeq m { seqOf s m with outst := [], acc := { c with data := [] } } s, ?_, seqOf_setSeq_same .., only_setSeq _ _ s⟩
  change execIssueComplete m slot s = _
  simp [execIssueComplete, ho, hwait, hrun, hc, hacc]

/-- Settles O29: each clause is the lemma on its command. -/
theorem issues : Obligations.Issues := by
  refine ⟨?present, ?room, ?badDest, ?issued, ?awaited, ?noted⟩
  case present =>
    exact fun s q c rest pc hq hhead hentry hidle hstarts hbufs hfence hheld hscrub =>
      blockCmdPresent_presents hq hhead hentry hidle hstarts hbufs hfence hheld hscrub
  case room => exact fun s m w hw hfull => issue_waitsForRoom hw hfull
  case badDest => exact fun s m w hw hroom hcmd hstack hdest haw hfree => issue_badDest hw hroom hcmd hstack hdest haw hfree
  case issued =>
    exact fun s m w c hw h1 h2 hroom hcmd hstack hdest haw hbuf => issue_presented hw h1 h2 hroom hcmd hstack hdest haw hbuf
  case awaited => exact fun s m slot c ho hwait hrun => issueComplete_awaited ho hwait hrun
  case noted => exact fun s m slot c ho hwait hrun hc hacc => issueComplete_noted ho hwait hrun hc hacc

end Sys2Proof.Machine
end

section
/-!
What management and a privileged port read: a served session's command leaves a note of the session and sends its completion, and a read of a
register returns eight bytes and clears counts, never time or the pool memory.
-/
namespace Sys2Proof.Machine

variable {s : State} {k tag roles : Nat}

/-! ### What a read clears (R6, R647) -/

/-- Wherever a read clears a field, it sends nothing and leaves fabric time and the pool memory. -/
theorem regClear_keeps (v : Via) (r : Reg) (s : State) :
    (regClear v r s).out = s.out ∧ (regClear v r s).mem = s.mem ∧ (regClear v r s).ft = s.ft := by
  cases r
  case fctLaser =>
    rw [regClear]
    split <;> exact ⟨rfl, rfl, rfl⟩
  all_goals exact ⟨rfl, rfl, rfl⟩

/-- A run of reads keeps what each of them keeps. -/
theorem readRun_keeps (v : Via) (rs : List Reg) (s : State) :
    (readRun v rs s).1.out = s.out ∧ (readRun v rs s).1.mem = s.mem ∧ (readRun v rs s).1.ft = s.ft := by
  induction rs generalizing s with
  | nil => exact ⟨rfl, rfl, rfl⟩
  | cons r rs ih =>
    obtain ⟨hout, hmem, hft⟩ := regClear_keeps v r s
    obtain ⟨iout, imem, ift⟩ := ih (regClear v r s)
    exact ⟨iout.trans hout, imem.trans hmem, ift.trans hft⟩

theorem length_readRun (v : Via) (rs : List Reg) (s : State) : (readRun v rs s).2.length = 8 * rs.length := by
  induction rs generalizing s with
  | nil => rfl
  | cons r rs ih =>
    have hrest := ih (readReg v r s).1
    simp only [readRun, List.length_append, length_toLE, hrest, List.length_cons]
    omega

/-! ### CSR_READ (R556, R646) -/

/-- The registers that a run of offsets names. -/
def regsFrom (off count : Nat) : List Reg := (List.range count).filterMap fun i => regAt (off + 8 * i)

/-- Where every offset of a run names a register, there is one for each. -/
theorem length_regsFrom {off count : Nat} (h : ∀ i < count, (regAt (off + 8 * i)).isSome = true) : (regsFrom off count).length = count :=
  (List.filterMap_length_eq_length.2 fun i hi => h i (List.mem_range.1 hi)).trans List.length_range

theorem exec_csrRead {off count : Nat} (h : Admits s k roles .read) (h0 : 0 < count) (h1 : count ≤ 512)
    (hregs : ∀ i < count, (regAt (off + 8 * i)).isSome = true) :
    exec (.csrRead (.mgmt k tag roles) off count) s =
      .next (reply (.mgmt k tag roles) (cData (readRun none (regsFrom off count) (touchSession k false s)).2)
        (readRun none (regsFrom off count) (touchSession k false s)).1) := by
  have hok : (count = 0 || 512 < count || (regsFrom off count).length != count) = false := by
    rw [length_regsFrom hregs]
    simp [h1, h0.ne']
  change execCsrRead (.mgmt k tag roles) off count s = _
  rw [execCsrRead, mgmtGate_admits h]
  exact if_neg (by simpa [regsFrom] using hok)

theorem csrRead_answers {off count : Nat} (h : Admits s k roles .read) (h0 : 0 < count) (h1 : count ≤ 512)
    (hregs : ∀ i < count, (regAt (off + 8 * i)).isSome = true) :
    Answers (.csrRead (.mgmt k tag roles) off count) s fun t =>
      ∃ d : List Byte, d.length = 8 * count ∧ t.out = .cpl (.mgmt k tag roles) (cData d) :: s.out ∧ t.mem = s.mem ∧ t.ft = s.ft := by
  obtain ⟨hout, hmem, hft⟩ := readRun_keeps none (regsFrom off count) (touchSession k false s)
  refine ⟨_, exec_csrRead h h0 h1 hregs, _, ?_, congrArg _ hout, hmem, hft⟩
  rw [length_readRun, length_regsFrom hregs]

/-! ### CSR_RD (R89, R644) -/

theorem regAt_merDomAngle {n : Nat} (hn : n < 16) : regAt (0x201000 + 0x40 * n) = some (.merDomAngle n) := by
  revert n
  decide

/-- A port reads a domain's position where the domain is its own partition's. -/
theorem readAns_merDomAngle {p n : Nat} (hpart : (port s p).part = some n) : readAns s (some p) (.merDomAngle n) = .value := by
  simp [readAns, regAcc, hpart]

/-- R89: what a privileged XCL port is told of a register that it may read. -/
theorem exec_csrRd_value {p node off : Nat} {r : Reg} (hm : (port s p).mode = .xcl) (hpriv : (port s p).priv = true) (hr : regAt off = some r)
    (ha : readAns s (some p) r = .value) :
    exec (.csrRd (.port p node tag) off) s = .next (reply (.port p node tag) (cVal (regVal s (some p) r)) (regClear (some p) r s)) := by
  change execCsrRd (.port p node tag) off s = _
  simp only [execCsrRd, hm, hpriv, hr, ha]
  rfl

theorem csrRd_merDomAngle {p node n : Nat} (hm : (port s p).mode = .xcl) (hpriv : (port s p).priv = true) (hpart : (port s p).part = some n)
    (hn : n < 16) : Answers (.csrRd (.port p node tag) (0x201000 + 0x40 * n)) s fun t =>
      Told s t (.port p node tag) (cVal (regVal s (some p) (.merDomAngle n))) ∧ Only [.out] s t :=
  ⟨_, exec_csrRd_value hm hpriv (regAt_merDomAngle hn) (readAns_merDomAngle hpart), rfl, only_emit _ s⟩

/-! ### The log, the sensors and the energy history (R556, R559, R561, R571, R577) -/

/-- A served session's command that only looks: the session is noted, and what the command finds is told. -/
theorem look_answers {i : Instr} {need : Role} {r : Bool} {c : State → Cpl} (h : Admits s k roles need)
    (he : exec i s = mgmtGate (.mgmt k tag roles) need r (fun x => .next (reply (.mgmt k tag roles) (c x) x)) s) :
    Answers i s fun t => t.cmp = served s k ∧ Told s t (.mgmt k tag roles) (c (touchSession k false s)) ∧ Only [.cmp, .out] s t :=
  ⟨_, he.trans (mgmtGate_admits h), rfl, told_after (only_touchSession k false s) (by decide)⟩

theorem logRead_answers {q : Nat} (h : Admits s k roles .read) : Answers (.logRead (.mgmt k tag roles) q) s fun t =>
    t.cmp = served s k ∧ Told s t (.mgmt k tag roles) (cData (((logFrom s q).take 1024).flatMap logBytes)) ∧ Only [.cmp, .out] s t :=
  look_answers (c := fun x => cData (((logFrom x q).take 1024).flatMap logBytes)) h rfl

theorem exec_sensorRead (who : Requester) (ks : List Nat) (s : State) : exec (.sensorRead who ks) s = mgmtGate who .read true (fun x =>
    .next (if 256 < ks.length then reply who cBad x else reply who (cData (ks.flatMap fun i => toLE 8 (sensorWord x i))) x)) s := rfl

theorem sensorRead_answers {ks : List Nat} (h : Admits s k roles .read) (hk : ks.length ≤ 256) :
    Answers (.sensorRead (.mgmt k tag roles) ks) s fun t =>
      t.cmp = served s k ∧ Told s t (.mgmt k tag roles) (cData (ks.flatMap fun i => toLE 8 (sensorWord s i))) ∧ Only [.cmp, .out] s t :=
  look_answers (r := true) (c := fun x => cData (ks.flatMap fun i => toLE 8 (sensorWord x i))) h
    (by simp only [exec_sensorRead, if_neg (Nat.not_lt.2 hk)])

theorem sensorRead_tooMany {ks : List Nat} (h : Admits s k roles .read) (hk : 256 < ks.length) :
    Answers (.sensorRead (.mgmt k tag roles) ks) s fun t =>
      t.cmp = served s k ∧ Told s t (.mgmt k tag roles) cBad ∧ Only [.cmp, .out] s t :=
  look_answers (r := true) (c := fun _ => cBad) h (by simp only [exec_sensorRead, if_pos hk])

theorem energyRead_answers (h : Admits s k roles .read) : Answers (.energyRead (.mgmt k tag roles)) s fun t =>
    t.cmp = served s k ∧ Told s t (.mgmt k tag roles) (cData (s.cmp.energy.hist.reverse.flatMap epochBytes)) ∧ Only [.cmp, .out] s t :=
  look_answers (c := fun x => cData (x.cmp.energy.hist.reverse.flatMap epochBytes)) h rfl

/-! ### Sessions (R553) -/

theorem mgmtSessionIdleClose_closes (ho : (s.cmp.sessions.get k).isOpen = true) (hl : (s.cmp.sessions.get k).last + 600000000000 ≤ s.ft) :
    Answers (.mgmtSessionIdleClose k) s fun t => t.cmp = { s.cmp with sessions := s.cmp.sessions.del k } ∧ Only [.cmp] s t := by
  refine ⟨modCmp (fun c => { c with sessions := c.sessions.del k }) s, ?_, rfl, only_modCmp _ s⟩
  change execMgmtSessionIdleClose k s = _
  simp only [execMgmtSessionIdleClose, ho, hl, decide_true, Bool.and_self, if_true]

/-- Settles O15: each clause is the lemma on its command. -/
theorem managementReads : Obligations.ManagementReads := by
  refine ⟨?run, ?port, ?log, ?sensors, ?tooMany, ?energy, ?idle⟩
  case run => exact fun s k tag roles off count h h0 h1 hregs => csrRead_answers h h0 h1 hregs
  case port => exact fun s p node tag n hm hpriv hpart hn => csrRd_merDomAngle hm hpriv hpart hn
  case log => exact fun s k tag roles q h => logRead_answers h
  case sensors => exact fun s k tag roles ks h hk => sensorRead_answers h hk
  case tooMany => exact fun s k tag roles ks h hk => sensorRead_tooMany h hk
  case energy => exact fun s k tag roles h => energyRead_answers h
  case idle => exact fun s k ho hl => mgmtSessionIdleClose_closes ho hl

end Sys2Proof.Machine
end

section
/-!
The commands of Plane on one page: how a command is taken, run over its pages and answered, and what each operation does to the page it
names.
-/
namespace Sys2Proof.Machine

variable {s t u v : State} {q op p k node tag : Nat} {c : QCmd} {j : PlnJob} {f : Frame} {e : PageEnt}

/-! ### Pages -/

theorem only_pln (x : Plane) (s : State) : Only [.pln] s { s with pln := x } :=
  .of fun p => by cases p <;> simp [SamePart]

theorem only_setPage (p : Nat) (e : PageEnt) (s : State) : Only [.pln] s (setPage p e s) := only_pln _ s

@[simp] theorem page_setPage_same (p : Nat) (e : PageEnt) (s : State) : page (setPage p e s) p = e := Tab.get_set_same ..

theorem page_setPage_ne {r : Nat} (e : PageEnt) (s : State) (h : r ≠ p) : page (setPage p e s) r = page s r := Tab.get_set_ne _ _ h

theorem Tab.ne_of_mem_del {α : Type} {l : Tab α} {k : Nat} {x : Nat × α} (h : x ∈ l.del k) : x.1 ≠ k := by
  induction l with
  | nil => cases h
  | cons a l ih =>
    rw [Tab.del] at h
    split at h
    · exact ih h
    · next ha =>
      rcases List.mem_cons.1 h with hx | hx
      · rw [hx]; exact ha
      · exact ih hx

/-- A byte lies among those of a page exactly if its address, in pages, is the page's number. -/
theorem inPage_iff (a p : Nat) : (p * pageBytes ≤ a ∧ a < p * pageBytes + pageBytes) ↔ a / pageBytes = p := by
  unfold pageBytes
  omega

/-! ### A command's page mover (R139 to R143) -/

/-- A command that the page mover takes satisfies its condition. -/
theorem takeCmd_holds {b : Block} {m : Nat} {g : QCmd → Bool} (h : takeCmd b q m g s = some (c, u)) : g c = true := by
  unfold takeCmd at h
  split at h
  · cases h
  · split at h
    · next d rest hi =>
      split at h
      · next hg =>
        cases h
        exact (Bool.and_eq_true_iff.1 hg).1
      · cases h
    · split at h
      · split at h
        · next hg =>
          cases h
          simp only [Bool.and_eq_true] at hg
          exact hg.1.1.1
        · cases h
      · cases h

theorem plnOp_of_take (h : takeCmd .plane q (128 + q) (fun c => plnOp c == op) s = some (c, u)) : plnOp c = op :=
  beq_iff_eq.1 (takeCmd_holds (g := fun c => plnOp c == op) h)

theorem plnPinned_of_op (h : plnOp c ≠ 4) (s : State) : plnPinned s c = false := by simp [plnPinned, h]

theorem plnDeadline_of_op (h : plnOp c ≠ 2) : plnDeadline c = none := by simp [plnDeadline, h]

theorem markLate_none {n : Nat} {reached : Nat → Bool} (h : ∀ j ∈ s.pln.jobs, j.deadline = none) : markLate n reached s = s := by
  have hhit : ∀ j ∈ s.pln.jobs, (j.cmd.part == n && !j.late && j.deadline.any reached && !(j.pend.isEmpty && j.todo.isEmpty)) = false :=
    fun j hj => by simp [h j hj]
  have hnone : s.pln.jobs.filter (fun j => j.cmd.part == n && !j.late && j.deadline.any reached && !(j.pend.isEmpty && j.todo.isEmpty)) = [] :=
    List.filter_eq_nil_iff.2 fun j hj => by rw [hhit j hj]; decide
  have hsame : s.pln.jobs.map (fun j => if j.cmd.part == n && !j.late && j.deadline.any reached && !(j.pend.isEmpty && j.todo.isEmpty)
      then { j with late := true } else j) = s.pln.jobs :=
    (List.map_congr_left fun j hj => by rw [hhit j hj]; rfl).trans (List.map_id s.pln.jobs)
  simp only [markLate, hnone, List.length_nil, if_true]
  rw [hsame]

/-- R156: with no page pending no command goes on where a page became ZERO. -/
theorem settleZero_none (ps : List Nat) (h : ∀ j ∈ s.pln.jobs, j.pend = [] ∧ j.todo = []) : settleZero ps s = s := by
  have hany : ∀ p, s.pln.jobs.any (fun j => j.pend.contains p || j.todo.contains p) = false := fun p =>
    List.any_eq_false.2 fun j hj => by simp [h j hj]
  unfold settleZero
  induction ps with
  | nil => rfl
  | cons p ps ih => rwa [List.foldl_cons, hany p, Bool.and_false, if_neg Bool.false_ne_true]

/-- The state with one more command of Plane in progress. -/
def withJob (j : PlnJob) (s : State) : State := { s with pln := { s.pln with jobs := s.pln.jobs ++ [j] } }

theorem withJob_jobs (h : s.pln.jobs = []) : (withJob j s).pln.jobs = [j] := by simp [withJob, h]

/-- A command that nothing refuses is run over its pages, is in progress, and ends if no page is left. -/
theorem plnServe_runs (hc : takeCmd .plane q (128 + q) (fun c => plnOp c == op) s = some (c, u)) (hpin : plnPinned u c = false)
    (hr : plnRun c (plnCount c) 0 { cmd := c, deadline := plnDeadline c } u = (t, j)) (hj : t.pln.jobs = []) (hd : j.deadline = none)
    (h4 : op = 4 → j.pend = [] ∧ j.todo = []) : plnServe op q s = finishJobs (withJob j t) := by
  have hjobs := withJob_jobs (j := j) hj
  have hlate : ∀ n reached, markLate n reached (withJob j t) = withJob j t := fun n reached =>
    markLate_none fun i hi => by
      rw [hjobs, List.mem_singleton] at hi
      rw [hi, hd]
  have hsettle : ∀ ps, (if op = 4 then settleZero ps (withJob j t) else withJob j t) = withJob j t := fun ps => by
    split
    · next ho =>
      refine settleZero_none ps fun i hi => ?_
      rw [hjobs, List.mem_singleton] at hi
      rw [hi]
      exact h4 ho
    · rfl
  rw [plnServe, hc]
  dsimp only
  rw [hpin, if_neg Bool.false_ne_true, hr]
  change finishJobs (markLate _ _ (if op = 4 then settleZero _ (withJob j t) else withJob j t)) = _
  rw [hsettle, hlate]

theorem finishJobs_pending (hj : s.pln.jobs = []) (hp : j.pend ≠ []) : finishJobs (withJob j s) = withJob j s := by
  have hb : j.pend.isEmpty = false := by simpa using hp
  simp [finishJobs, withJob, hj, hb]

/-- A command of a port that names no completion object and that no program issued. -/
structure FromPort (c : QCmd) (k node tag : Nat) : Prop where
  req : c.req = .port k node tag
  issuer : c.issuer = none
  plain : bitOf (c.w 0) 7 = false

theorem finishCmd_fromPort (h : FromPort c k node tag) (d : Cpl) (s : State) :
    finishCmd c (if bitOf (c.w 0) 7 then some (bits (c.w 0) 35 20) else none) d s = emit (.cpl (.port k node tag) d) s := by
  obtain ⟨hreq, hissuer, hplain⟩ := h
  rw [hplain, if_neg Bool.false_ne_true, finishCmd_plain c d s hissuer, hreq, reply_port]

/-- R140: a command with no page left answers: with what stopped it, else OK, where it missed no page. -/
theorem finishJobs_done (hj : s.pln.jobs = []) (hp : j.pend = []) (ht : j.todo = []) (hm : j.missed = 0) (h : FromPort j.cmd k node tag) :
    finishJobs (withJob j s) = emit (.cpl (.port k node tag) (if j.out.status != .ok then j.out else cOk)) s := by
  have he : { s with pln := { s.pln with jobs := [] } } = s := by rw [← hj]
  have hb : (j.pend.isEmpty && j.todo.isEmpty) = true := by simp [hp, ht]
  simp only [finishJobs, withJob, hj, List.nil_append, List.filter_cons, List.filter_nil, hb, Bool.not_true, if_true, Bool.false_eq_true,
    if_false, List.foldl_cons, List.foldl_nil, hm, Nat.lt_irrefl, finishCmd_fromPort h, he]

/-! ### A command of one page -/

/-- Queue `q`'s command with operation `op` is taken; it names one page, which is homed here. -/
structure OnePage (op q : Nat) (s u : State) (c : QCmd) (p : Nat) : Prop where
  taken : takeCmd .plane q (128 + q) (fun c => plnOp c == op) s = some (c, u)
  count : plnCount c = 1
  names : ∃ pa w x, translate (plnXl c 0) u = (u, .addr pa w x) ∧ bits pa 63 52 = 0 ∧ p = bits pa 51 0 / pageBytes
  home : homeLocal u p = true

theorem OnePage.op_eq (h : OnePage op q s u c p) : plnOp c = op := plnOp_of_take h.taken

theorem OnePage.plnRun (h : OnePage op q s u c p) (j : PlnJob) : plnRun c (plnCount c) 0 j u = plnStart c p j u := by
  obtain ⟨-, hcount, ⟨pa, w, x, hx, hn, hp⟩, hhome⟩ := h
  rw [hcount, Machine.plnRun, hx]
  dsimp only
  rw [hn, ← hp, hhome]
  rfl

/-- R139: a page whose change is made at once is placed, and its command answers. -/
theorem OnePage.placed (h : OnePage op q s u c p) (hpin : plnPinned u c = false) (hd : plnDeadline c = none)
    (hb : (pageBusy u p && plnOp c != 4) = false) (ha : plnAct c p (if plnOp c = 4 then abandonMigr p u else u) = (t, false, true))
    (hj : t.pln.jobs = []) (hc : FromPort c k node tag) : plnServe op q s = emit (.cpl (.port k node tag) cOk) t := by
  have hstart : plnStart c p { cmd := c, deadline := plnDeadline c } u = (t, { cmd := c, placed := 1 }) := by
    rw [plnStart, hb, if_neg Bool.false_ne_true, ha, hd]
  rw [plnServe_runs h.taken hpin ((h.plnRun _).trans hstart) hj rfl fun _ => ⟨rfl, rfl⟩, finishJobs_done hj rfl rfl rfl hc]
  rfl

/-- R139: a page whose change takes time is pending, and its command stays in progress. -/
theorem OnePage.pends {b : Bool} (h : OnePage op q s u c p) (h4 : op ≠ 4) (hd : plnDeadline c = none) (hb : pageBusy u p = false)
    (ha : plnAct c p u = (t, true, b)) (hj : t.pln.jobs = []) : plnServe op q s = withJob { cmd := c, pend := [p] } t := by
  have hop : plnOp c ≠ 4 := h.op_eq ▸ h4
  have hstart : plnStart c p { cmd := c, deadline := plnDeadline c } u = (t, { cmd := c, pend := [p] }) := by
    rw [plnStart, hb, Bool.false_and, if_neg Bool.false_ne_true, if_neg hop, ha, hd]
    rfl
  rw [plnServe_runs h.taken (plnPinned_of_op hop u) ((h.plnRun _).trans hstart) hj rfl fun ho => absurd ho h4,
    finishJobs_pending hj (List.cons_ne_nil p [])]

/-! ### HINT (R136) -/

/-- The page's entry with another hint, where that is a change. -/
def hintSet (p : Nat) (e : PageEnt) (s : State) : State := if e = page s p then s else setPage p e s

theorem only_hintSet (p : Nat) (e : PageEnt) (s : State) : Only [.pln] s (hintSet p e s) := by
  unfold hintSet
  split
  · exact .refl _ s
  · exact only_setPage p e s

theorem page_hintSet_same (p : Nat) (e : PageEnt) (s : State) : page (hintSet p e s) p = e := by
  unfold hintSet
  split
  · next h => exact h.symm
  · exact page_setPage_same p e s

theorem page_hintSet_ne {r : Nat} (e : PageEnt) (s : State) (h : r ≠ p) : page (hintSet p e s) r = page s r := by
  unfold hintSet
  split
  · rfl
  · exact page_setPage_ne e s h

theorem hintSet_rest (p : Nat) (e : PageEnt) (s : State) :
    (hintSet p e s).pln.migs = s.pln.migs ∧ (hintSet p e s).pln.jobs = s.pln.jobs := by
  unfold hintSet
  split <;> exact ⟨rfl, rfl⟩

theorem plnAct_hint (hop : plnOp c = 1) (hl : homeLocal u p = true) (hp : hasPartner u = false) :
    plnAct c p u = moveToHint c.part p (hintSet p { page u p with hint := hintOf (bits (c.w 0) 38 36) } u) := by
  simp only [plnAct, hop, if_true, hl, Bool.not_true, Bool.false_eq_true, if_false, hp, hintSet]
  split <;> rfl

theorem moveToHint_zero {n : Nat} (h : (page s p).st = .zero) : moveToHint n p s = (s, false, true) := by
  simp only [moveToHint, h, if_true]

theorem moveToHint_migrates {n : Nat} (hs : (page s p).st = .resident) (ht : (page s p).frame.tier ≠ (hintTiers s n (page s p).hint).headD .ddr)
    (hl : linkDown s = false) (ha : allocTier n ((hintTiers s n (page s p).hint).headD .ddr) s = some (f, v)) :
    moveToHint n p s = (startMigr p f false v, true, true) := by
  rw [List.headD_eq_head?_getD] at ht ha
  simp [moveToHint, hs, ht, hl, ha]

theorem hint_zero (h : OnePage 1 q s u c p) (hp : hasPartner u = false) (hb : pageBusy u p = false) (hz : (page u p).st = .zero)
    (hj : u.pln.jobs = []) (hc : FromPort c k node tag) : Answers (.hint q) s fun t =>
      page t p = { page u p with hint := hintOf (bits (c.w 0) 38 36) } ∧ (∀ r, r ≠ p → page t r = page u r) ∧
      Told u t (.port k node tag) cOk ∧ t.pln.migs = u.pln.migs ∧ Only [.pln, .out] u t := by
  have hop := h.op_eq
  have h4 : plnOp c ≠ 4 := by rw [hop]; decide
  have hact : plnAct c p u = (hintSet p { page u p with hint := hintOf (bits (c.w 0) 38 36) } u, false, true) := by
    rw [plnAct_hint hop h.home hp, moveToHint_zero]
    rw [page_hintSet_same]
    exact hz
  obtain ⟨hmigs, hjobs⟩ := hintSet_rest p { page u p with hint := hintOf (bits (c.w 0) 38 36) } u
  obtain ⟨htold, honly⟩ := told_after (who := .port k node tag) (c := cOk) (only_hintSet p _ u) (by decide)
  have hserve := h.placed (plnPinned_of_op h4 u) (plnDeadline_of_op (by rw [hop]; decide)) (by rw [hb, Bool.false_and])
    (by rw [if_neg h4, hact]) (hjobs.trans hj) hc
  exact ⟨_, congrArg Host.Outcome.next hserve, page_hintSet_same .., fun r hr => page_hintSet_ne _ u hr, htold, hmigs, honly⟩

/-! ### A migration begun (R132) -/

theorem page_startMigr (p : Nat) (f : Frame) (s : State) :
    page (startMigr p f false s) p = { page s p with st := .migrating, dst := some f } := by
  unfold startMigr
  exact page_setPage_same ..

/-- A command whose one page begins to migrate is in progress until that is over. -/
theorem migrates_answers {i : Instr} (he : exec i s = .next (withJob { cmd := c, pend := [p] } (startMigr p f false v))) (hj : v.pln.jobs = []) :
    Answers i s fun t =>
      page t p = { page v p with st := .migrating, dst := some f } ∧
      t.pln.migs = v.pln.migs ++ [{ page := p, src := (page v p).frame, dst := f, origin := (page v p).origin, order := v.pln.nextOrder }] ∧
      t.pln.jobs = [{ cmd := c, pend := [p] }] ∧ t.out = v.out ∧ Only [.pln] v t :=
  ⟨_, he, page_startMigr p f v, rfl, withJob_jobs hj, rfl, only_pln _ v⟩

theorem hint_migrates (h : OnePage 1 q s u c p) (hp : hasPartner u = false) (hl : linkDown u = false) (hb : pageBusy u p = false)
    (hs : (page u p).st = .resident) (he : e = { page u p with hint := hintOf (bits (c.w 0) 38 36) }) (hne : e ≠ page u p)
    (ht : (page u p).frame.tier ≠ (hintTiers u c.part e.hint).headD .ddr)
    (ha : allocTier c.part ((hintTiers u c.part e.hint).headD .ddr) (setPage p e u) = some (f, v)) (hj : v.pln.jobs = []) :
    plnServe 1 q s = withJob { cmd := c, pend := [p] } (startMigr p f false v) := by
  have hop := h.op_eq
  have hset : hintSet p e u = setPage p e u := if_neg hne
  have hpage := page_setPage_same p e u
  have hframe : e.frame = (page u p).frame := by rw [he]
  have hst : e.st = .resident := by rw [he]; exact hs
  have hact : plnAct c p u = (startMigr p f false v, true, true) := by
    rw [plnAct_hint hop h.home hp, ← he, hset]
    exact moveToHint_migrates (by rw [hpage, hst]) (by rw [hpage, hframe]; exact ht) hl (by rw [hpage]; exact ha)
  exact h.pends (by decide) (plnDeadline_of_op (by rw [hop]; decide)) hb hact hj

/-! ### PREFETCH (R139) -/

theorem plnAct_prefetch (hop : plnOp c = 2) (hl : homeLocal u p = true) (hr : plnRel c = none) : plnAct c p u = moveToPrism c.part p u := by
  simp [plnAct, hop, hl, hr, noteRelease]

theorem moveToPrism_migrates {n : Nat} (hg : groupOf s p = none) (hs : (page s p).st = .resident) (ht : (page s p).frame.tier ≠ .prism)
    (hl : linkDown s = false) (ha : needPrism n s = some (f, v)) : moveToPrism n p s = (startMigr p f false v, true, true) := by
  simp [moveToPrism, hg, hs, ht, hl, ha]

theorem prefetch_migrates (h : OnePage 2 q s u c p) (hg : groupOf u p = none) (hl : linkDown u = false) (hb : pageBusy u p = false)
    (hs : (page u p).st = .resident) (ht : (page u p).frame.tier ≠ .prism) (hr : plnRel c = none) (hd : plnDeadline c = none)
    (ha : needPrism c.part u = some (f, v)) (hj : v.pln.jobs = []) :
    plnServe 2 q s = withJob { cmd := c, pend := [p] } (startMigr p f false v) :=
  h.pends (by decide) hd hb ((plnAct_prefetch h.op_eq h.home hr).trans (moveToPrism_migrates hg hs ht hl ha)) hj

/-! ### RELEASE (R139) -/

theorem plnAct_release (hop : plnOp c = 3) (hl : homeLocal u p = true) : plnAct c p u = (releasePage p u, false, true) := by
  simp [plnAct, hop, hl]

theorem only_releasePage (p : Nat) (s : State) : Only [.pln] s (releasePage p s) := only_pln _ s

/-- R138, R144: a page past its release Angle waits for none, and neither does its copy. -/
theorem releasePage_passes (p : Nat) (s : State) :
    p ∈ (releasePage p s).pln.passed ∧ (∀ e ∈ (releasePage p s).pln.relAt, e.1 ≠ p) ∧
      ∀ e ∈ (releasePage p s).pln.copies, e.page = p → e.passed = true ∧ e.relAt = none := by
  refine ⟨?_, fun e he => Tab.ne_of_mem_del he, fun e he hp => ?_⟩
  · change p ∈ if _ then _ else _
    split
    · next h => exact List.contains_iff_mem.1 h
    · exact List.mem_cons_self
  · obtain ⟨d, -, rfl⟩ := List.mem_map.1 he
    by_cases hd : d.page = p
    · rw [if_pos hd]; exact ⟨rfl, rfl⟩
    · rw [if_neg hd] at hp; exact absurd hp hd

theorem plnRelease_passes (h : OnePage 3 q s u c p) (hb : pageBusy u p = false) (hj : u.pln.jobs = []) (hc : FromPort c k node tag) :
    Answers (.plnRelease q) s fun t =>
      p ∈ t.pln.passed ∧ (∀ e ∈ t.pln.relAt, e.1 ≠ p) ∧ (∀ e ∈ t.pln.copies, e.page = p → e.passed = true ∧ e.relAt = none) ∧
      t.pln.pages = u.pln.pages ∧ Told u t (.port k node tag) cOk ∧ Only [.pln, .out] u t := by
  have hop := h.op_eq
  have h4 : plnOp c ≠ 4 := by rw [hop]; decide
  obtain ⟨hpassed, hrel, hcopies⟩ := releasePage_passes p u
  obtain ⟨htold, honly⟩ := told_after (who := .port k node tag) (c := cOk) (only_releasePage p u) (by decide)
  have hserve := h.placed (t := releasePage p u) (plnPinned_of_op h4 u) (plnDeadline_of_op (by rw [hop]; decide)) (by rw [hb, Bool.false_and])
    (by rw [if_neg h4, plnAct_release hop h.home]) hj hc
  exact ⟨_, congrArg Host.Outcome.next hserve, hpassed, hrel, hcopies, rfl, htold, honly⟩

/-- R139: a command whose first page does not translate is answered so, and does nothing. -/
theorem plnRelease_stopped {x : State} {d : Cpl} (hc : takeCmd .plane q (128 + q) (fun c => plnOp c == 3) s = some (c, u))
    (hx : translate (plnXl c 0) u = (x, .cpl d)) (hj : x.pln.jobs = []) (hn : 0 < plnCount c) (hd : d.status ≠ .ok)
    (hf : FromPort c k node tag) (hr : outcomeRank d.status < 7) : Answers (.plnRelease q) s fun t =>
      Told x t (.port k node tag) d ∧ t.pln.pages = x.pln.pages ∧ Only [.pln, .out] x t := by
  have hop := plnOp_of_take hc
  have hdl : plnDeadline c = none := plnDeadline_of_op (by rw [hop]; decide)
  have hrun : plnRun c (plnCount c) 0 { cmd := c, deadline := plnDeadline c } u = (x, { cmd := c, out := d }) := by
    obtain ⟨n, hn⟩ := Nat.exists_eq_succ_of_ne_zero (Nat.ne_of_gt hn)
    rw [hn, plnRun, hx, hdl]
    exact congrArg (fun o => (x, ({ cmd := c, out := o } : PlnJob))) (if_pos hr)
  have hserve : plnServe 3 q s = emit (.cpl (.port k node tag) d) x := by
    rw [plnServe_runs hc (plnPinned_of_op (by rw [hop]; decide) u) hrun hj rfl (fun h => absurd h (by decide)),
      finishJobs_done hj rfl rfl rfl hf, if_pos (bne_iff_ne.2 hd)]
  exact ⟨_, congrArg Host.Outcome.next hserve, rfl, rfl, (only_emit _ x).mono (by decide)⟩

/-! ### DISCARD (R139, R156) -/

/-- R156: a page whose migration is abandoned holds its data where it was, under its hint. -/
theorem page_abandonMigr (h : (page s p).st ≠ .zero) :
    (page (abandonMigr p s) p).st ≠ .zero ∧ (page (abandonMigr p s) p).hint = (page s p).hint := by
  unfold abandonMigr
  split
  · rw [page_setPage_same, unmigrated]
    refine ⟨?_, rfl⟩
    dsimp only
    split <;> decide
  · exact ⟨h, rfl⟩

theorem page_abandonMigr_ne {r : Nat} (s : State) (h : r ≠ p) : page (abandonMigr p s) r = page s r := by
  unfold abandonMigr
  split
  · exact page_setPage_ne _ _ h
  · rfl

theorem only_abandonMigr (p : Nat) (s : State) : Only [.pln] s (abandonMigr p s) := by
  unfold abandonMigr
  split
  · exact only_pln _ s
  · exact .refl _ s

/-- An abandoned migration leaves whose the page is, whether there is a partner to tell, and the commands in progress. -/
theorem abandonMigr_rest (p : Nat) (s : State) :
    homeLocal (abandonMigr p s) p = homeLocal s p ∧ hasPartner (abandonMigr p s) = hasPartner s ∧ (abandonMigr p s).pln.jobs = s.pln.jobs := by
  unfold abandonMigr
  split <;> exact ⟨rfl, rfl, rfl⟩

theorem plnAct_discard (hop : plnOp c = 4) (hz : (page u p).st ≠ .zero) (hl : homeLocal u p = true) (hp : hasPartner u = false) :
    plnAct c p u = (zeroPage p u, false, true) := by
  have hne : page u p ≠ { hint := (page u p).hint } := fun he => hz (by rw [he])
  unfold plnAct
  rw [hop, if_neg (by decide), if_neg (by decide), if_neg (by decide)]
  dsimp only
  rw [if_neg hne, hl, hp]
  rfl

theorem page_zeroPage_same (p : Nat) (s : State) : page (zeroPage p s) p = { hint := (page s p).hint } := page_setPage_same ..

theorem page_zeroPage_ne {r : Nat} (s : State) (h : r ≠ p) : page (zeroPage p s) r = page s r := page_setPage_ne _ (clearPage p s) h

theorem only_zeroPage (p : Nat) (s : State) : Only [.pln, .fld, .mem] s (zeroPage p s) :=
  .of fun q => by cases q <;> simp [SamePart, zeroPage, clearPage]

theorem memRead_zeroPage (h : Memory.Rises s.mem) (a : Nat) :
    memRead (zeroPage p s).mem a = if a / pageBytes = p then 0 else memRead s.mem a := by
  rw [show (zeroPage p s).mem = memClear s.mem (p * pageBytes) pageBytes from rfl, memRead_memClear _ _ _ h]
  exact if_congr (inPage_iff a p) rfl rfl

theorem discard_zeroes (h : OnePage 4 q s u c p) (hpin : plnPinned u c = false) (hp : hasPartner u = false) (hz : (page u p).st ≠ .zero)
    (hj : u.pln.jobs = []) (hm : Memory.wf u.mem = true) (hc : FromPort c k node tag) : Answers (.discard q) s fun t =>
      page t p = { hint := (page u p).hint } ∧ (∀ r, r ≠ p → page t r = page u r) ∧ (∀ m ∈ t.pln.migs, m.page ≠ p) ∧
      (∀ a, memRead t.mem a = if a / pageBytes = p then 0 else memRead u.mem a) ∧ Told u t (.port k node tag) cOk ∧
      Only [.pln, .fld, .mem, .out] u t := by
  have hop := h.op_eq
  have hleft := only_abandonMigr p u
  obtain ⟨hzero, hhint⟩ := page_abandonMigr hz
  obtain ⟨hhome, hpartner, hjobs⟩ := abandonMigr_rest p u
  have hmem : (abandonMigr p u).mem = u.mem := hleft .mem (by decide)
  have hact : plnAct c p (abandonMigr p u) = (zeroPage p (abandonMigr p u), false, true) :=
    plnAct_discard hop hzero (hhome.trans h.home) (hpartner.trans hp)
  have hzeroed : Only [.pln, .fld, .mem] u (zeroPage p (abandonMigr p u)) :=
    (hleft.mono (by decide)).trans (only_zeroPage p (abandonMigr p u))
  obtain ⟨htold, honly⟩ := told_after (who := .port k node tag) (c := cOk) hzeroed (by decide)
  have hserve := h.placed (t := zeroPage p (abandonMigr p u)) hpin (plnDeadline_of_op (by rw [hop]; decide))
    (by rw [hop, bne_self_eq_false, Bool.and_false]) (by rw [if_pos hop, hact]) (hjobs.trans hj) hc
  refine ⟨_, congrArg Host.Outcome.next hserve, ?_, fun r hr => ?_, fun m hmig => ?_, fun a => ?_, htold, honly⟩
  · exact (page_zeroPage_same ..).trans (by rw [hhint])
  · exact (page_zeroPage_ne _ hr).trans (page_abandonMigr_ne u hr)
  · simpa using (List.mem_filter.1 hmig).2
  · exact (memRead_zeroPage (hmem ▸ (Memory.wf_iff _).1 hm) a).trans (by rw [hmem])

/-- R140: a pinned page is not discarded without the command's leave. That no page of the range is then discarded is entry 132 (DEDUCED). -/
theorem discard_pinned (hc : takeCmd .plane q (128 + q) (fun c => plnOp c == 4) s = some (c, u)) (hpin : plnPinned u c = true)
    (hf : FromPort c k node tag) : Answers (.discard q) s fun t => Told u t (.port k node tag) (cRef .state) ∧ Only [.out] u t := by
  have hserve : plnServe 4 q s = emit (.cpl (.port k node tag) (cRef .state)) u := by
    rw [plnServe, hc]
    dsimp only
    rw [hpin, if_pos rfl, finishCmd_fromPort hf]
  exact ⟨_, congrArg Host.Outcome.next hserve, rfl, only_emit _ u⟩

/-- Settles O36: a command of one page is that page's change; one made at once answers, and a migration leaves the command in progress. -/
theorem planeCommands : Obligations.PlaneCommands := by
  refine ⟨?hintZero, ?hintMoves, ?prefetch, ?release, ?discard, ?pinned, ?stopped⟩
  case hintZero =>
    exact fun s u q c pa w x p k node tag hc h1 hx hn hp hl hpart hb hz hj hr hi hw =>
      hint_zero ⟨hc, h1, ⟨pa, w, x, hx, hn, hp⟩, hl⟩ hpart hb hz hj ⟨hr, hi, hw⟩
  case hintMoves =>
    exact fun s u v q c pa w x p f e hc h1 hx hn hp hl hpart hd hb hs he hne ht ha hj =>
      migrates_answers (congrArg Host.Outcome.next (hint_migrates ⟨hc, h1, ⟨pa, w, x, hx, hn, hp⟩, hl⟩ hpart hd hb hs he hne ht ha hj)) hj
  case prefetch =>
    exact fun s u v q c pa w x p f hc h1 hx hn hp hl hg hd hb hs ht hr hdl ha hj =>
      migrates_answers (congrArg Host.Outcome.next (prefetch_migrates ⟨hc, h1, ⟨pa, w, x, hx, hn, hp⟩, hl⟩ hg hd hb hs ht hr hdl ha hj)) hj
  case release =>
    exact fun s u q c pa w x p k node tag hc h1 hx hn hp hl hb hj hr hi hw =>
      plnRelease_passes ⟨hc, h1, ⟨pa, w, x, hx, hn, hp⟩, hl⟩ hb hj ⟨hr, hi, hw⟩
  case discard =>
    exact fun s u q c pa w x p k node tag hc hpin h1 hx hn hp hl hpart hz hj hm hr hi hw =>
      discard_zeroes ⟨hc, h1, ⟨pa, w, x, hx, hn, hp⟩, hl⟩ hpin hpart hz hj hm ⟨hr, hi, hw⟩
  case pinned => exact fun s u q c k node tag hc hpin hr hi hw => discard_pinned hc hpin ⟨hr, hi, hw⟩
  case stopped =>
    exact fun s u q c k node tag x d hc hx hj hn hd hr hi hw hrank => plnRelease_stopped hc hx hj hn hd ⟨hr, hi, hw⟩ hrank

end Sys2Proof.Machine
end

section
/-!
The trays of the pool: their links, their heads and their evacuation. A report writes to the event log alone, so what a retirement leaves
of the state is what it notes in the two devices.
-/
namespace Sys2Proof.Machine

variable {s t : State} {k : Nat}

theorem only_setTray (k : Nat) (x : Tray) (s : State) : Only [.pln] s (setTray k x s) :=
  .of fun p => by cases p <;> simp [SamePart]

theorem only_modTrayLink (k : Nat) (f : TrayLink → TrayLink) (s : State) : Only [.edg] s (modTrayLink k f s) :=
  .of fun p => by cases p <;> simp [SamePart, modTrayLink, modEdge]

@[simp] theorem modTrayLink_get (k : Nat) (f : TrayLink → TrayLink) (s : State) :
    (modTrayLink k f s).edg.trays.get k = f (s.edg.trays.get k) := Tab.get_mod_same ..

/-! ### What a report writes (R562, R563) -/

/-- The state without the event log, what is known of its flushes, and the fault bits it sets. -/
def unlogged (s : State) : State :=
  { s with cmp := { s.cmp with
      log := [], flushed := 0, nextSeq := 0, lost := false, lostCount := 0, lastFlush := 0, faultStatus := 0,
      nvmA := { s.cmp.nvmA with log := [] }, nvmB := { s.cmp.nvmB with log := [] } } }

theorem nvmAppend_log (es : List LogEntry) (d : Nvm) : { nvmAppend es d with log := [] } = { d with log := [] } := by
  unfold nvmAppend
  split <;> rfl

theorem logRaw_unlogged {e : LogEntry} {ρ : State} (h : Shows unlogged id ρ s) : Shows unlogged id ρ (logRaw e s) :=
  .ite (.ite h (.maybe h fun h1 => h1)) h

theorem flushLog_unlogged {ρ : State} (h : Shows unlogged id ρ s) : Shows unlogged id ρ (flushLog s) := by
  have hflushed : Shows unlogged id ρ { s with cmp := { s.cmp with
      nvmA := nvmAppend (s.cmp.log.take (unflushed s)).reverse s.cmp.nvmA,
      nvmB := nvmAppend (s.cmp.log.take (unflushed s)).reverse s.cmp.nvmB, flushed := s.cmp.nextSeq, lastFlush := s.ft } } :=
    h.same (by simp only [unlogged, nvmAppend_log])
  exact .ite (.ite hflushed (logRaw_unlogged hflushed)) h

theorem report_unlogged (e : Ev) (b : Block) (part : Option Nat) (data : List Nat) (s : State) :
    unlogged (report e b part data s) = unlogged s :=
  Shows.maybe (o := unlogged) (v := id) (logRaw_unlogged rfl) flushLog_unlogged

theorem only_of_unlogged (h : unlogged t = unlogged s) : Only [.cmp] s t := by
  have hs : Only [.cmp] s (unlogged s) := only_cmp _ s
  have ht : Only [.cmp] (unlogged t) t := fun p hp => by
    have := only_cmp (unlogged t).cmp t p hp
    cases p <;> exact this.symm
  exact hs.trans (h ▸ ht)

theorem homeLocal_of_unlogged (h : unlogged t = unlogged s) (p : Nat) : homeLocal t p = homeLocal s p := by
  have hu : homeLocal (unlogged t) p = homeLocal (unlogged s) p := by rw [h]
  exact hu

/-! ### A retirement noted (R146, R564) -/

/-- A device's state area with a retirement, where the device answers. -/
def Nvm.noted (r : Retired) (d : Nvm) : Nvm :=
  if d.answers then { d with retired := if d.retired.contains r then d.retired else d.retired ++ [r], retSeq := d.retSeq + 1 } else d

/-- The state with a retirement in both devices' state areas. -/
def retireNoted (r : Retired) (s : State) : State :=
  { s with cmp := { s.cmp with nvmA := s.cmp.nvmA.noted r, nvmB := s.cmp.nvmB.noted r } }

theorem Nvm.mem_noted {r : Retired} {d : Nvm} (h : d.answers = true) : r ∈ (d.noted r).retired := by
  rw [Nvm.noted, if_pos h]
  dsimp only
  split
  · next hc => simpa using hc
  · exact List.mem_append_right _ (List.mem_singleton_self r)

/-- A retirement that is recorded and reported is noted in the devices, and no more is written than the log. -/
theorem reportRetired_unlogged (object number : Nat) (r : Retired) (s : State) :
    unlogged (reportRetired object number (recordRetired r s)) = unlogged (retireNoted r s) := by
  have hrecord : unlogged (recordRetired r s) = unlogged (retireNoted r s) :=
    Shows.ite (o := unlogged) (v := id) rfl (report_unlogged ..)
  exact (report_unlogged ..).trans hrecord

theorem only_reportRetired (object number : Nat) (r : Retired) (s : State) :
    Only [.cmp] s (reportRetired object number (recordRetired r s)) :=
  (only_cmp _ s).trans (only_of_unlogged (reportRetired_unlogged object number r s))

theorem homeLocal_reportRetired (object number : Nat) (r : Retired) (s : State) (p : Nat) :
    homeLocal (reportRetired object number (recordRetired r s)) p = homeLocal s p :=
  homeLocal_of_unlogged (s := retireNoted r s) (reportRetired_unlogged object number r s) p

theorem nvmA_reportRetired {object number : Nat} {r : Retired} (h : s.cmp.nvmA.answers = true) :
    r ∈ (reportRetired object number (recordRetired r s)).cmp.nvmA.retired := by
  have he : (reportRetired object number (recordRetired r s)).cmp.nvmA.retired = (s.cmp.nvmA.noted r).retired :=
    congrArg (fun u : State => u.cmp.nvmA.retired) (reportRetired_unlogged object number r s)
  exact he ▸ Nvm.mem_noted h

theorem nvmB_reportRetired {object number : Nat} {r : Retired} (h : s.cmp.nvmB.answers = true) :
    r ∈ (reportRetired object number (recordRetired r s)).cmp.nvmB.retired := by
  have he : (reportRetired object number (recordRetired r s)).cmp.nvmB.retired = (s.cmp.nvmB.noted r).retired :=
    congrArg (fun u : State => u.cmp.nvmB.retired) (reportRetired_unlogged object number r s)
  exact he ▸ Nvm.mem_noted h

/-! ### Heads (R146) -/

theorem retireHead_pln (k : Nat) (s : State) :
    (retireHead k s).pln = (modTray k (fun x => { x with head := .retired, downSince := none }) s).pln :=
  only_reportRetired 2 k (.head k) (modTray k _ s) .pln (by decide)

theorem only_retireHead (k : Nat) (s : State) : Only [.pln, .cmp] s (retireHead k s) :=
  (only_setTray k _ s).seq (only_reportRetired 2 k (.head k) _)

theorem retireHead_tray (k : Nat) (s : State) :
    (retireHead k s).pln.trays.get k = { s.pln.trays.get k with head := .retired, downSince := none } := by
  rw [retireHead_pln]
  exact Tab.get_set_same ..

/-- The link-down events of a head within the last hour. -/
def recentDowns (s : State) (k : Nat) : List Nat := (s.pln.trays.get k).downAt.filter fun a => decide (s.ft < a + hourNs)

/-- A head whose link went down now trains again. -/
def headDown (k : Nat) (s : State) : State :=
  setTray k { s.pln.trays.get k with head := .retraining, downAt := recentDowns s k ++ [s.ft], downSince := some s.ft } s

theorem headDown_tray (k : Nat) (s : State) :
    (headDown k s).pln.trays.get k =
      { s.pln.trays.get k with head := .retraining, downAt := recentDowns s k ++ [s.ft], downSince := some s.ft } :=
  Tab.get_set_same ..

theorem trayDown_up (hh : (s.pln.trays.get k).head = .up) (hs : (s.pln.trays.get k).st ≠ .absent) :
    trayDown k s = if 3 ≤ (recentDowns s k ++ [s.ft]).length then retireHead k (headDown k s) else headDown k s := by
  have hc : (decide ((s.pln.trays.get k).head = .up) && (s.pln.trays.get k).st != .absent) = true := by simp [hh, hs]
  exact if_pos hc

theorem trayDown_retrains (hh : (s.pln.trays.get k).head = .up) (hs : (s.pln.trays.get k).st ≠ .absent)
    (hd : (recentDowns s k).length < 2) : trayDown k s = headDown k s := by
  rw [trayDown_up hh hs, if_neg (by rw [List.length_append, List.length_singleton]; omega)]

theorem trayDown_retires (hh : (s.pln.trays.get k).head = .up) (hs : (s.pln.trays.get k).st ≠ .absent)
    (hd : 2 ≤ (recentDowns s k).length) : trayDown k s = retireHead k (headDown k s) := by
  rw [trayDown_up hh hs, if_pos (by rw [List.length_append, List.length_singleton]; omega)]

/-! ### Links (R146, R486, R487) -/

/-- A tray's link is down: it has no width. -/
def linkCut (k : Nat) (s : State) : State := modTrayLink k (fun y => { y with width := 3 }) s

theorem linkCut_link (k : Nat) (s : State) : (linkCut k s).edg.trays.get k = { s.edg.trays.get k with width := 3 } := modTrayLink_get ..

theorem only_cut_headDown (k : Nat) (s : State) : Only [.edg, .pln] s (headDown k (linkCut k s)) :=
  (only_modTrayLink k _ s).seq (only_setTray k _ _)

theorem trayHeadLinkDown_retrains (hh : (s.pln.trays.get k).head = .up) (hs : (s.pln.trays.get k).st ≠ .absent)
    (hd : (recentDowns s k).length < 2) : Answers (.trayHeadLinkDown k) s fun t =>
      t.pln.trays.get k = { s.pln.trays.get k with head := .retraining, downAt := recentDowns s k ++ [s.ft], downSince := some s.ft } ∧
      t.edg.trays.get k = { s.edg.trays.get k with width := 3 } ∧ Only [.pln, .edg] s t :=
  ⟨headDown k (linkCut k s), congrArg Host.Outcome.next (trayDown_retrains (s := linkCut k s) hh hs hd), headDown_tray k (linkCut k s),
    linkCut_link k s, (only_cut_headDown k s).mono (by decide)⟩

theorem trayHeadLinkDown_retires (hh : (s.pln.trays.get k).head = .up) (hs : (s.pln.trays.get k).st ≠ .absent)
    (hd : 2 ≤ (recentDowns s k).length) (ha : s.cmp.nvmA.answers = true) (hb : s.cmp.nvmB.answers = true) :
    Answers (.trayHeadLinkDown k) s fun t =>
      (t.pln.trays.get k).head = .retired ∧ .head k ∈ t.cmp.nvmA.retired ∧ .head k ∈ t.cmp.nvmB.retired ∧ Only [.pln, .edg, .cmp] s t :=
  ⟨retireHead k (headDown k (linkCut k s)), congrArg Host.Outcome.next (trayDown_retires (s := linkCut k s) hh hs hd),
    by rw [retireHead_tray], nvmA_reportRetired ha, nvmB_reportRetired hb,
    ((only_cut_headDown k s).seq (only_retireHead k _)).mono (by decide)⟩

theorem trayHeadRetire_late {a : Nat} (hh : (s.pln.trays.get k).head ≠ .retired) (hs : (s.pln.trays.get k).st ≠ .absent)
    (hd : (s.pln.trays.get k).downSince = some a) (hl : a + 1000000000 ≤ s.ft) : Answers (.trayHeadRetire k) s fun t =>
      t.pln.trays.get k = { s.pln.trays.get k with head := .retired, downSince := none } ∧ t.pln.pages = s.pln.pages ∧
      Only [.pln, .cmp] s t := by
  refine ⟨retireHead k s, ?_, retireHead_tray k s, by rw [retireHead_pln]; rfl, only_retireHead k s⟩
  simp [exec, execTrayHeadRetire, hh, hs, hd, hl]

theorem trayLinkUp_trained {width : Nat} {cap : Bool} (hh : (s.pln.trays.get k).head = .retraining) (hw : (s.edg.trays.get k).width = 3) :
    Answers (.trayLinkUp k width cap) s fun t =>
      t.pln.trays.get k = { s.pln.trays.get k with head := .up, downSince := none } ∧
      t.edg.trays.get k = { s.edg.trays.get k with width := min width 2, spareCap := cap } ∧ Only [.pln, .edg] s t := by
  refine ⟨setTray k { s.pln.trays.get k with head := .up, downSince := none } (modTrayLink k _ s),
    congrArg Host.Outcome.next (if_pos hh), Tab.get_set_same .., ?_, ((only_modTrayLink k _ s).seq (only_setTray k _ _)).mono (by decide)⟩
  exact (modTrayLink_get ..).trans (if_pos hw)

/-- A link whose spare lane stands in for another. -/
def TrayLink.spared (lane : Nat) (y : TrayLink) : TrayLink := { y with spareUsed := true, sparedLane := lane % 8, recoveries := sat 16 y.recoveries }

/-- A link of the next narrower width. -/
def TrayLink.narrowed (y : TrayLink) : TrayLink := { y with width := y.width + 1, recoveries := sat 16 y.recoveries }

/-- R487: a lane lost to a link that is up costs the spare lane, else a step of width, else the link. -/
theorem exec_trayLaneSpare {lane : Nat} (h : (s.edg.trays.get k).width ≠ 3) :
    exec (.trayLaneSpare k lane) s = .next (
      if (s.edg.trays.get k).spareCap && !(s.edg.trays.get k).spareUsed then
        modTrayLink k (·.spared lane) s
      else if (s.edg.trays.get k).width < 2 then
        modTrayLink k (·.narrowed) s
      else trayDown k (linkCut k s)) :=
  congrArg Host.Outcome.next (if_neg h)

theorem trayLaneSpare_spares {lane : Nat} (hw : (s.edg.trays.get k).width < 3) (hc : (s.edg.trays.get k).spareCap = true)
    (hu : (s.edg.trays.get k).spareUsed = false) : Answers (.trayLaneSpare k lane) s fun t =>
      t.edg.trays.get k =
        { s.edg.trays.get k with spareUsed := true, sparedLane := lane % 8, recoveries := min ((s.edg.trays.get k).recoveries + 1) 65535 } ∧
      Only [.edg] s t := by
  refine ⟨modTrayLink k (·.spared lane) s, ?_, modTrayLink_get .., only_modTrayLink k _ s⟩
  rw [exec_trayLaneSpare (Nat.ne_of_lt hw), if_pos (by simp [hc, hu])]

theorem trayLaneSpare_narrows {lane : Nat} (hw : (s.edg.trays.get k).width < 2)
    (hc : (s.edg.trays.get k).spareCap = false ∨ (s.edg.trays.get k).spareUsed = true) : Answers (.trayLaneSpare k lane) s fun t =>
      t.edg.trays.get k =
        { s.edg.trays.get k with width := (s.edg.trays.get k).width + 1, recoveries := min ((s.edg.trays.get k).recoveries + 1) 65535 } ∧
      Only [.edg] s t := by
  refine ⟨modTrayLink k (·.narrowed) s, ?_, modTrayLink_get .., only_modTrayLink k _ s⟩
  rw [exec_trayLaneSpare (by omega), if_neg (by simpa [imp_iff_not_or] using hc), if_pos hw]

theorem trayLaneSpare_downs {lane : Nat} (hw : (s.edg.trays.get k).width = 2) (hu : (s.edg.trays.get k).spareUsed = true)
    (hh : (s.pln.trays.get k).head = .up) (hs : (s.pln.trays.get k).st = .active) (hd : (s.pln.trays.get k).downAt = []) :
    Answers (.trayLaneSpare k lane) s fun t =>
      (t.edg.trays.get k).width = 3 ∧ (t.pln.trays.get k).head = .retraining ∧ Only [.edg, .pln] s t := by
  have hfew : (recentDowns (linkCut k s) k).length < 2 := by
    have : recentDowns s k = [] := by rw [recentDowns, hd]; rfl
    rw [show recentDowns (linkCut k s) k = recentDowns s k from rfl, this]
    decide
  refine ⟨headDown k (linkCut k s), ?_, ?_, ?_, only_cut_headDown k s⟩
  · have hst : (s.pln.trays.get k).st ≠ .absent := by rw [hs]; decide
    rw [exec_trayLaneSpare (by omega), if_neg (by simp [hu]), if_neg (by omega), trayDown_retrains (s := linkCut k s) hh hst hfew]
  · exact congrArg TrayLink.width (linkCut_link k s)
  · rw [headDown_tray]

/-! ### Evacuation (R146, R147) -/

theorem redirect_none {bad : Frame → Bool} (h : ∀ m ∈ s.pln.migs, bad m.dst = false) : redirect bad s = s := by
  have : s.pln.migs.filter (fun m => bad m.dst) = [] := List.filter_eq_nil_iff.2 fun m hm => by rw [h m hm]; decide
  rw [redirect, this]
  rfl

/-- Where no page, copy or migration is in or on its way to the frames, nothing leaves them. -/
theorem evacuate_none {bad : Frame → Bool} (hm : ∀ m ∈ s.pln.migs, bad m.dst = false) (hc : ∀ n, bad { tier := .prism, n := n } = false)
    (hp : pagesOn s bad = []) : evacuate bad s = s := by
  have hcopies : s.pln.copies.filter (fun c => !bad { tier := .prism, n := c.frame }) = s.pln.copies :=
    List.filter_eq_self.2 fun c _ => by rw [hc]; rfl
  unfold evacuate
  simp only [redirect_none hm, hcopies, hp, List.foldl_nil]

theorem idxs_none {α : Type} {t : Tab α} {p : Nat → α → Bool} (h : ∀ e ∈ t, p e.1 e.2 = false) : t.idxs p = [] := by
  rw [Tab.idxs, List.filter_eq_nil_iff.2 fun e he => by rw [h e he]; decide, List.map_nil]

/-- Where no page has a frame among those lost, none is poisoned. -/
theorem losePages_none {bad : Frame → Bool} (hm : ∀ m ∈ s.pln.migs, bad m.dst = false)
    (hp : ∀ e ∈ s.pln.pages, (entFrames e.2).any bad = false ∧ bad e.2.frame = false) : losePages bad s = s := by
  have horigin : ∀ e ∈ s.pln.pages, e.2.origin.any bad = false := fun e he => by
    have := (hp e he).1
    rw [entFrames] at this
    cases ho : e.2.origin with
    | none => rfl
    | some f => simp_all
  have hpromoted : s.pln.pages.idxs (fun p e => homeLocal s p && e.st == .promoted && !bad e.frame && e.origin.any bad) = [] :=
    idxs_none fun e he => by rw [horigin e he, Bool.and_false]
  have hlost : s.pln.pages.idxs (fun p e => homeLocal s p && e.st != .zero && bad e.frame) = [] :=
    idxs_none fun e he => by rw [(hp e he).2, Bool.and_false]
  unfold losePages
  simp only [redirect_none hm, hpromoted, List.foldl_nil, hlost]

/-- A tray that takes another state, which is recorded and reported. -/
def trayNoted (k : Nat) (st : ObjState) (s : State) : State :=
  reportRetired 3 k (recordRetired (.tray k) (setTray k { s.pln.trays.get k with st := st } s))

theorem trayNoted_pln (k : Nat) (st : ObjState) (s : State) :
    (trayNoted k st s).pln = { s.pln with trays := s.pln.trays.set k { s.pln.trays.get k with st := st } } :=
  only_reportRetired 3 k (.tray k) _ .pln (by decide)

/-- What a tray's change of state leaves: the tray in that state, the page map, and all but Plane and Compass. -/
theorem trayNoted_tray (k : Nat) (st : ObjState) (s : State) :
    (trayNoted k st s).pln.trays.get k = { s.pln.trays.get k with st := st } ∧ (trayNoted k st s).pln.pages = s.pln.pages ∧
      Only [.pln, .cmp] s (trayNoted k st s) := by
  refine ⟨?_, ?_, (only_setTray k _ s).seq (only_reportRetired 3 k (.tray k) _)⟩
  · rw [trayNoted_pln]; exact Tab.get_set_same ..
  · rw [trayNoted_pln]

theorem pagesOn_trayNoted (k : Nat) (st : ObjState) (s : State) (bad : Frame → Bool) : pagesOn (trayNoted k st s) bad = pagesOn s bad := by
  have hhome : ∀ p, homeLocal (trayNoted k st s) p = homeLocal s p := homeLocal_reportRetired 3 k (.tray k) (setTray k _ s)
  simp only [pagesOn, trayNoted_pln, hhome]

theorem evacTray_evacuates (hs : (s.pln.trays.get k).st = .active) (hg : headsGone s k = false)
    (hp : pagesOn s (fun f => onTray k f && ownHalf s f.n) = []) (hm : ∀ m ∈ s.pln.migs, onTray k m.dst = false) :
    evacTray k s = trayNoted k .evacuating s := by
  have hnone : evacuate (fun f => onTray k f && ownHalf s f.n) (trayNoted k .evacuating s) = trayNoted k .evacuating s := by
    refine evacuate_none (fun m h => ?_) (fun n => rfl) (by rw [pagesOn_trayNoted, hp])
    rw [trayNoted_pln] at h
    rw [hm m h, Bool.false_and]
  rw [evacTray, hs, if_neg (by decide), hg, if_neg (by decide)]
  exact hnone

theorem evacTray_retires (hs : (s.pln.trays.get k).st = .active) (hg : headsGone s k = true) (hm : s.pln.migs = [])
    (hp : ∀ e ∈ s.pln.pages, (entFrames e.2).any (onTray k) = false ∧ onTray k e.2.frame = false) :
    evacTray k s = trayNoted k .retired s := by
  have hnone : losePages (onTray k) (trayNoted k .retired s) = trayNoted k .retired s := by
    refine losePages_none (fun m h => ?_) (fun e he => hp e ?_)
    · rw [trayNoted_pln] at h
      simp [hm] at h
    · rwa [trayNoted_pln] at he
  rw [evacTray, hs, if_neg (by decide), hg, if_pos rfl]
  exact hnone

theorem exec_trayEvacuate (h : (headsGone s k || trayBad s k) = true) : exec (.trayEvacuate k) s = .next (evacTray k s) := if_pos h

/-- R146: an event record that reports no uncorrectable media failure changes nothing; that it does not is entry 17. -/
theorem cxlEventRecord_other {media unc : Bool} (h : media = false ∨ unc = false) : Answers (.cxlEventRecord k media unc) s fun t => t = s := by
  have hno : (media && unc) = false := Bool.and_eq_false_iff.2 h
  exact ⟨s, by simp [exec, execCxlEventRecord, hno], rfl⟩

/-- Settles O38: a link down or up, a lane lost and a head late are changes of one table entry each; a tray's evacuation and retirement
move no page where none lies in it. -/
theorem trays : Obligations.Trays := by
  refine ⟨?down, ?third, ?late, ?up, ?media, ?other, ?bad, ?gone, ?spare, ?narrow, ?last⟩
  case down => exact fun s k hh hs hd => trayHeadLinkDown_retrains hh hs hd
  case third => exact fun s k hh hs hd ha hb => trayHeadLinkDown_retires hh hs hd ha hb
  case late => exact fun s k a hh hs hd hl => trayHeadRetire_late hh hs hd hl
  case up => exact fun s k width cap hh hw => trayLinkUp_trained hh hw
  case media =>
    exact fun s k hs hg hp hm => ⟨_, congrArg Host.Outcome.next (evacTray_evacuates hs hg hp hm), trayNoted_tray k .evacuating s⟩
  case other => exact fun s k media unc h => cxlEventRecord_other h
  case bad =>
    exact fun s k hs hg hb hp hm => ⟨_, (exec_trayEvacuate (by rw [hb, Bool.or_true])).trans
      (congrArg Host.Outcome.next (evacTray_evacuates hs hg hp hm)), trayNoted_tray k .evacuating s⟩
  case gone =>
    intro s k hs hh hpart hm hp
    have hg : headsGone s k = true := by simp [headsGone, hh, hpart]
    exact ⟨_, (exec_trayEvacuate (by rw [hg, Bool.true_or])).trans (congrArg Host.Outcome.next (evacTray_retires hs hg hm hp)),
      trayNoted_tray k .retired s⟩
  case spare => exact fun s k lane hw hc hu => trayLaneSpare_spares hw hc hu
  case narrow => exact fun s k lane hw hc => trayLaneSpare_narrows hw hc
  case last => exact fun s k lane hw hu hh hs hd => trayLaneSpare_downs hw hu hh hs hd

end Sys2Proof.Machine
end

section
/-!
Vertex's operations: the parts each leaves, and a line's transaction, entry and window after each.
-/
namespace Sys2Proof.Machine

variable {s t : State} {q x : VTxn} {e : DirEnt} {r : VReq} {a i l line p node tag : Nat}

/-! ### Frames -/

theorem only_send (k : MsgKind) (dest : Nat) (args : List Nat) (s : State) : Only [.out] s (send k dest args s) := only_emit _ s

theorem only_setTxn (x : VTxn) (s : State) : Only [.vtx] s (setTxn x s) := only_modVtx _ s

theorem only_dropGrant (a l : Nat) (s : State) : Only [.vtx] s (dropGrant a l s) := only_modVtx _ s

theorem only_putEntry (i : Nat) (e : DirEnt) (s : State) : Only [.vtx] s (putEntry i e s) := only_modVtx _ s

/-! ### The directory -/

/-- A line's entry is found in the directory alone. -/
theorem dirFind_of_dir (h : t.vtx.dir = s.vtx.dir) (l : Nat) : dirFind t l = dirFind s l := by simp only [dirFind, h]

theorem dirFree_found (h : dirFind s l = some (i, e)) : dirFree l s = modVtx (fun v => { v with dir := v.dir.set i {} }) s := by
  simp only [dirFree, h]

theorem only_dirFree (l : Nat) (s : State) : Only [.vtx] s (dirFree l s) := by
  unfold dirFree
  split
  · exact only_modVtx _ s
  · exact .refl _ s

/-- An entry that names a holder is kept, with its stamp. -/
theorem putEntry_holds (s : State) (h : e.ptrs ≠ []) :
    (putEntry i e s).vtx.dir.get i = { e with stamp := s.vtx.clock + 1 } := by
  have hp : e.ptrs.isEmpty = false := by simpa using h
  simp [putEntry, hp]

/-! ### Transactions -/

theorem line_of_txnOf (h : txnOf s l = some q) : q.line = l := by simpa using List.find?_some h

/-- A transaction put in the place of the line's own is the line's. -/
theorem txnOf_setTxn (h : txnOf s l = some q) (hl : x.line = l) : txnOf (setTxn x s) l = some x := by
  have hfind : ∀ txns : List VTxn, txns.find? (·.line == l) = some q →
      (txns.map fun y => if y.line = x.line then x else y).find? (·.line == l) = some x := fun txns => by
    induction txns with
    | nil => exact nofun
    | cons y ys ih =>
      intro hy
      by_cases hyl : y.line = l
      · simp [hyl, hl]
      · rw [List.find?_cons_of_neg (by simpa using hyl)] at hy
        rw [List.map_cons, hl, if_neg hyl, List.find?_cons_of_neg (by simpa using hyl), ← hl]
        exact hl ▸ ih hy
  exact hfind _ h

theorem setTxn_single (h : s.vtx.txns = [q]) (hl : q.line = x.line) : (setTxn x s).vtx.txns = [x] := by simp [setTxn, h, hl]

theorem txnOf_single (h : s.vtx.txns = [q]) (hl : q.line = l) : txnOf s l = some q := by simp [txnOf, h, hl]

/-- The state once the transaction of line `l` is over. -/
def dropTxn (l : Nat) (s : State) : State := modVtx (fun v => { v with txns := v.txns.filter (·.line != l) }) s

theorem only_dropTxn (l : Nat) (s : State) : Only [.vtx] s (dropTxn l s) := only_modVtx _ s

theorem dropTxn_single (h : s.vtx.txns = [q]) (hl : q.line = l) : (dropTxn l s).vtx.txns = [] := by simp [dropTxn, h, hl]

/-- R173: with no request to make room for and none held, nothing starts after a transaction. -/
theorem vAfter_idle (ha : x.after = none) (hh : s.vtx.held = []) : vAfter x s = s := by simp [vAfter, ha, hh]

/-- R172: a snoop without a response holds the transaction. -/
theorem vAdvance_waits (h : txnOf s l = some q) (hs : q.snoops ≠ []) : vAdvance l s = s := by
  have hne : q.snoops.isEmpty = false := by simpa using hs
  simp [vAdvance, h, hne]

/-- The transaction whose responses are in: memory is its next step. -/
def VTxn.asking (q : VTxn) (now : Nat) : VTxn := { q with mem := true, memSince := now }

/-- R171, R183: the responses are in, and memory is asked where it is needed. -/
theorem vAdvance_goesOn (h : txnOf s l = some q) (hs : q.snoops = []) (hw : q.wbs = []) (hm : q.mem = false) :
    vAdvance l s = if needsMem q then setTxn (q.asking s.ft) s else vMemDone l (setTxn (q.asking s.ft) s) := by
  rw [vAdvance, h]
  exact if_neg (by simp [hs, hw, hm])

/-! ### Completions -/

theorem vReply_port (h : r.who = .port p node tag) (op : Nat) (k : Cpl) (s : State) :
    vReply r op k s = emit (.cpl (.port p node tag) { k with aux := op }) s := by simp only [vReply, h, reply_port]

end Sys2Proof.Machine
end

section
/-!
What an agent sends the home: a response is taken off the line's transaction, a writeback ends the ownership.
-/
namespace Sys2Proof.Machine

variable {s : State} {q : VTxn} {e : DirEnt} {a b i l line gen : Nat} {k : Snoop} {x : Rsp} {data : List Byte}

/-- R184, R196, R465: a message of agent `a` for a line is heard: its generation is the present one, the domain is UP, its port is
not excluded, and the line is one of its partition. -/
structure Heard (s : State) (a line gen : Nat) : Prop where
  gen : gen = s.vtx.gen
  up : s.vtx.st = .up
  member : (localPort s a).any (fun p => s.vtx.excluded.contains p) = false
  mine : lineMine s a line = true

theorem Heard.cohDrop (h : Heard s a line gen) : cohDrop a line gen s = none := by
  obtain ⟨hg, hup, hx, hm⟩ := h
  simp only [Machine.cohDrop, hg, hup, hx, hm, bne_self_eq_false, Bool.or_self, Bool.not_true, Bool.false_eq_true, if_false]

/-- R184: a message of another generation is dropped and counted. -/
theorem cohDrop_stale (h : gen ≠ s.vtx.gen) :
    cohDrop a line gen s = some (modVtx (fun v => { v with staleDrops := sat 16 v.staleDrops }) s) := by
  simp [cohDrop, h]

/-! ### Responses (R172) -/

/-- The response brings the line's data. -/
def Rsp.hasData (x : Rsp) : Bool := x == .dataI || x == .dataS || x == .dataKeep || x == .fwdSData

/-- The transaction once agent `a`'s response is taken off it. -/
def VTxn.answered (q : VTxn) (a : Nat) (x : Rsp) (data : List Byte) : VTxn :=
  { q with
    snoops := q.snoops.filter (·.1 != a),
    wbs := if x = .wb && !(q.gone.contains a) then q.wbs ++ [a] else q.wbs,
    gone := if x = .i || x = .dataI || x = .fwdI then q.gone ++ [a] else q.gone,
    data := if x.hasData && q.req.op != .coh .wrLine then some (data.take 128) else q.data,
    dirty := q.dirty || (x.hasData && (x == .dataS || x == .fwdSData || q.req.op == .flush || q.req.op == .backInv)),
    fwd := q.fwd || x == .fwdI || x == .fwdS || x == .fwdSData }

/-- The snoop of the line's transaction that awaits agent `a`, which the directory names as an owner or not. -/
structure Snooped (s : State) (a line : Nat) (q : VTxn) (k : Snoop) (own : Bool) : Prop where
  txn : txnOf s line = some q
  snoop : q.snoops.find? (·.1 == a) = some (a, k)
  owner : ((dirFind s line).any fun e => e.2.own) = own

/-- A response that the snoop and the entry allow is taken, and the transaction goes on. -/
theorem cohRsp_taken {own : Bool} (h : Heard s a line gen) (w : Snooped s a line q k own) (hok : rspOk k own x = true) :
    cohRsp a line gen x data s = vAdvance line (setTxn (q.answered a x data) (dropGrant a line s)) := by
  obtain ⟨hq, hk, ho⟩ := w
  simp only [cohRsp, h.cohDrop, hq, hk, ho, hok, Bool.not_true, Bool.false_eq_true, if_false]
  rfl

theorem dropGrant_granted (a l : Nat) (s : State) : ∀ g ∈ (dropGrant a l s).vtx.granted, g.1 ≠ a ∨ g.2.1 ≠ l := by
  intro g hg
  have := (List.mem_filter.1 hg).2
  simpa [Decidable.or_iff_not_imp_left] using this

/-- With another snoop outstanding, the response is taken and the transaction waits on. -/
theorem rsp_waits {c : Instr} {own : Bool} {q' : VTxn} (hc : exec c s = .next (cohRsp a line gen x data s)) (h : Heard s a line gen)
    (w : Snooped s a line q k own) (hok : rspOk k own x = true) (hq : q.answered a x data = q') (hs : q'.snoops ≠ []) :
    Answers c s fun t => txnOf t line = some q' ∧ (∀ g ∈ t.vtx.granted, g.1 ≠ a ∨ g.2.1 ≠ line) ∧ t.vtx.dir = s.vtx.dir ∧ Only [.vtx] s t := by
  have hl : (q.answered a x data).line = line := line_of_txnOf (q := q) w.txn
  have htxn : txnOf (setTxn q' (dropGrant a line s)) line = some q' := txnOf_setTxn (q := q) w.txn (hq ▸ hl)
  refine ⟨_, hc, ?_⟩
  rw [cohRsp_taken h w hok, hq, vAdvance_waits htxn hs]
  exact ⟨htxn, dropGrant_granted a line s, rfl, (only_dropGrant a line s).trans (only_setTxn q' _)⟩

/-- The snoop of `a` is the first of two. -/
theorem Snooped.ofTwo (hq : txnOf s line = some q) (hs : q.snoops = [(a, k), (b, .inv)]) (hd : dirFind s line = some (i, e)) :
    Snooped s a line q k e.own := ⟨hq, by simp [hs], by simp [hd]⟩

/-- The first of two snoops is answered: the other is left. -/
theorem answered_snoops (hs : q.snoops = [(a, k), (b, .inv)]) (hab : a ≠ b) : q.snoops.filter (·.1 != a) = [(b, .inv)] := by
  simp [hs, hab.symm]

theorem padLine_full (h : data.length = 128) : padLine 0 data = data := by simp [padLine, h]

theorem take_full (h : data.length = 128) : data.take 128 = data := List.take_of_length_le (by omega)

/-- The first of two snoops is answered as the statement of the response says, and the second is awaited. -/
theorem rsp_ofTwo {c : Instr} {q' : VTxn} (hc : exec c s = .next (cohRsp a line gen x data s)) (h : Heard s a line gen)
    (hq : txnOf s line = some q) (hs : q.snoops = [(a, k), (b, .inv)]) (hab : a ≠ b) (hd : dirFind s line = some (i, e))
    (hok : rspOk k e.own x = true) (hans : { q.answered a x data with snoops := [(b, .inv)] } = q') :
    Answers c s fun t => txnOf t line = some q' ∧ (∀ g ∈ t.vtx.granted, g.1 ≠ a ∨ g.2.1 ≠ line) ∧ t.vtx.dir = s.vtx.dir ∧ Only [.vtx] s t := by
  have hleft : q.answered a x data = { q.answered a x data with snoops := [(b, .inv)] } := by
    rw [← answered_snoops hs hab]
    rfl
  exact rsp_waits hc h (.ofTwo hq hs hd) hok (hleft.trans hans) (by rw [← hans]; exact List.cons_ne_nil _ _)

/-- The last response is taken: memory is asked, or the transaction ends. -/
theorem cohRsp_last {own : Bool} {q' : VTxn} (h : Heard s a line gen) (w : Snooped s a line q k own) (hok : rspOk k own x = true)
    (hq : q.answered a x data = q') (hs : q'.snoops = []) (hw : q'.wbs = []) (hm : q'.mem = false) :
    cohRsp a line gen x data s =
      (let u := setTxn (q'.asking s.ft) (setTxn q' (dropGrant a line s))
       if needsMem q' then u else vMemDone line u) := by
  have hl : (q.answered a x data).line = line := line_of_txnOf (q := q) w.txn
  have htxn : txnOf (setTxn q' (dropGrant a line s)) line = some q' := txnOf_setTxn (q := q) w.txn (hq ▸ hl)
  rw [cohRsp_taken h w hok, hq, vAdvance_goesOn htxn hs hw hm]
  rfl

/-- R171: the last sharer is gone, and a write under a mask asks memory. -/
theorem rspI_asksMemory (h : Heard s a line gen) (hq : txnOf s line = some q) (hs : q.snoops = [(a, .inv)]) (hw : q.wbs = [])
    (hm : q.mem = false) (hop : q.req.op = .coh .wrPart) (hd : dirFind s line = some (i, e)) (ho : e.own = false) :
    Answers (.rspI a line gen) s fun t =>
      txnOf t line = some { q with snoops := [], gone := q.gone ++ [a], mem := true, memSince := s.ft } ∧ Only [.vtx] s t := by
  have hans : q.answered a .i [] = { q with snoops := [], gone := q.gone ++ [a] } := by simp [VTxn.answered, Rsp.hasData, beq_eq_decide, hs]
  have w : Snooped s a line q .inv e.own := ⟨hq, by simp [hs], by simp [hd]⟩
  refine ⟨_, rfl, ?_⟩
  rw [cohRsp_last h w (by rw [ho]; rfl) hans rfl hw hm]
  simp only [needsMem, hop, if_true]
  have hl : q.line = line := line_of_txnOf hq
  have htxn := txnOf_setTxn (x := { q with snoops := [], gone := q.gone ++ [a] }) (s := dropGrant a line s) (q := q) hq hl
  exact ⟨txnOf_setTxn htxn hl, ((only_dropGrant a line s).trans (only_setTxn _ _)).trans (only_setTxn _ _)⟩

/-! ### The owner forwards (R170) -/

/-- The line's owner has sent the requester its data: the requester is the owner, and is told nothing more. -/
theorem finishTxn_forwarded (hd : dirFind s q.line = some (i, e)) (hf : q.fwd = true) (hop : q.req.op = .coh .rdOwn) (d : List Byte) :
    finishTxn q d false s = putEntry i { restEntry q e with own := true, ptrs := [q.req.agent] } (dropTxn q.line s) := by
  have he : dirFind (dropTxn q.line s) q.line = some (i, e) := hd
  simp only [finishTxn, hop]
  change (if q.fwd then _ else _) = _
  rw [if_pos hf]
  unfold dropTxn at he ⊢
  rw [he]
  rfl

theorem vMemDone_forwarded (ht : s.vtx.txns = [q]) (hl : q.line = line) (hm : q.mem = true) (hr : q.retryAt = none) (hd : q.data = none)
    (hy : q.dirty = false) (hf : q.fwd = true) (hop : q.req.op = .coh .rdOwn) (ha : q.after = none) (hheld : s.vtx.held = [])
    (he : dirFind s line = some (i, e)) :
    (vMemDone line s).vtx.txns = [] ∧ ((vMemDone line s).vtx.dir.get i).own = true ∧
      ((vMemDone line s).vtx.dir.get i).ptrs = [q.req.agent] ∧ Only [.vtx] s (vMemDone line s) := by
  have hend : vMemDone line s = vAfter q (finishTxn q [] false s) := by
    simp [vMemDone, needsMem, txnOf_single ht hl, hm, hr, hd, hy, hf, hop]
  have hput : vMemDone line s = putEntry i { restEntry q e with own := true, ptrs := [q.req.agent] } (dropTxn line s) := by
    rw [hend, finishTxn_forwarded (hl ▸ he) hf hop, hl]
    exact vAfter_idle ha hheld
  rw [hput, putEntry_holds _ (List.cons_ne_nil _ _)]
  exact ⟨dropTxn_single ht hl, rfl, rfl, (only_dropTxn line s).trans (only_putEntry i _ _)⟩

theorem rspFwdI_ends (h : Heard s a line gen) (ht : s.vtx.txns = [q]) (hl : q.line = line) (hs : q.snoops = [(a, .fwdOwn)])
    (hw : q.wbs = []) (hm : q.mem = false) (hdata : q.data = none) (hy : q.dirty = false) (hr : q.retryAt = none) (ha : q.after = none)
    (hop : q.req.op = .coh .rdOwn) (hheld : s.vtx.held = []) (hd : dirFind s line = some (i, e)) (ho : e.own = true) :
    Answers (.rspFwdI a line gen) s fun t =>
      t.vtx.txns = [] ∧ (t.vtx.dir.get i).own = true ∧ (t.vtx.dir.get i).ptrs = [q.req.agent] ∧ t.out = s.out ∧ Only [.vtx] s t := by
  have w : Snooped s a line q .fwdOwn e.own := ⟨txnOf_single ht hl, by simp [hs], by simp [hd]⟩
  have hans : q.answered a .fwdI [] = { q with snoops := [], gone := q.gone ++ [a], fwd := true } := by
    simp [VTxn.answered, Rsp.hasData, beq_eq_decide, hs]
  have hneeds : needsMem { q with snoops := [], gone := q.gone ++ [a], fwd := true } = false := by simp [needsMem, hop]
  refine ⟨_, rfl, ?_⟩
  rw [cohRsp_last h w (by rw [ho]; rfl) hans rfl hw hm, hneeds]
  dsimp only
  rw [if_neg Bool.false_ne_true]
  have hone := setTxn_single (x := VTxn.asking { q with snoops := [], gone := q.gone ++ [a], fwd := true } s.ft)
    (setTxn_single (x := { q with snoops := [], gone := q.gone ++ [a], fwd := true }) (s := dropGrant a line s) ht rfl) rfl
  obtain ⟨htxns, hown, hptrs, hend⟩ := vMemDone_forwarded hone hl rfl hr hdata hy rfl hop ha hheld ((dirFind_of_dir rfl line).trans hd)
  have hframe := (((only_dropGrant a line s).trans (only_setTxn _ _)).trans (only_setTxn _ _)).trans hend
  exact ⟨htxns, hown, hptrs, hframe .out (by decide), hframe⟩

/-! ### Writebacks (R175) -/

/-- The home has taken agent `a`'s writeback, and says so. -/
def ackWb (a line : Nat) (s : State) : State := send .cohGrant a [cmpWbAck, line * 128] (dropGrant a line s)

theorem only_ackWb (a line : Nat) (s : State) : Only [.vtx, .out] s (ackWb a line s) :=
  (only_dropGrant a line s).seq (only_send _ _ _ _)

/-- A writeback of agent `a` finds its line in OWN, with no transaction on it, and its port coherent. -/
structure Owned (s : State) (a line i : Nat) (e : DirEnt) : Prop where
  coherent : (localPort s a).any (fun p => !(port s p).coherent) = false
  idle : txnOf s line = none
  entry : dirFind s line = some (i, e)
  own : e.own = true
  owner : e.ptrs = [a]

theorem cohWb_clean (h : Heard s a line gen) (w : Owned s a line i e) : cohWb a line gen none s = dirFree line (ackWb a line s) := by
  obtain ⟨hc, hq, hd, ho, hp⟩ := w
  simp only [cohWb, h.cohDrop, hc, hq, hd, ho, hp, List.contains_cons, BEq.rfl, Bool.true_or, Bool.and_self, Bool.false_eq_true, if_false, if_true]
  rfl

/-- R209: an owner's line is stored by Fold, once its page is ready. -/
theorem cohWb_dirty (h : Heard s a line gen) (w : Owned s a line i e) (hl : data.length = 128)
    (hr : (page s (line * 128 / pageBytes)).st = .resident) :
    cohWb a line gen (some data) s =
      dirFree line (ackWb a line (foldWrite ((pagePart s (line * 128 / pageBytes)).getD 16) { num := a % 0x200 } false false (line * 128) data
        (usePage (line * 128 / pageBytes) s)).1) := by
  obtain ⟨hc, hq, hd, ho, hp⟩ := w
  simp only [cohWb, h.cohDrop, hc, hq, hd, ho, hp, readyWrite_resident hr, take_full hl, List.contains_cons, BEq.rfl, Bool.true_or,
    Bool.and_self, Bool.false_eq_true, if_false, if_true]
  rfl

/-- The entry of a line is freed once its writeback is acknowledged, and no other byte is sent. -/
theorem dirFree_ackWb {l : List Part} {u : State} (hu : Only l s u) (hv : .vtx ∉ l) (ho : .out ∉ l) (hd : dirFind s line = some (i, e)) :
    (dirFree line (ackWb a line u)).vtx.dir.get i = {} ∧
      (dirFree line (ackWb a line u)).out = .msg .cohGrant a [6, line * 128] [] :: s.out ∧
      Only (l ++ [.vtx, .out]) s (dirFree line (ackWb a line u)) := by
  have hvtx : u.vtx = s.vtx := hu .vtx hv
  have hout : u.out = s.out := hu .out ho
  have hd' : dirFind (ackWb a line u) line = some (i, e) := (dirFind_of_dir (congrArg Vertex.dir hvtx) line).trans hd
  have hframe := hu.seq ((only_ackWb a line u).trans ((only_dirFree line _).mono (by decide)))
  rw [dirFree_found hd'] at hframe ⊢
  exact ⟨by rw [modVtx_vtx, Tab.get_set_same], by rw [← hout]; rfl, hframe⟩

theorem wbClean_frees (h : Heard s a line gen) (w : Owned s a line i e) : Answers (.wbClean a line gen) s fun t =>
    t.vtx.dir.get i = {} ∧ t.out = .msg .cohGrant a [6, line * 128] [] :: s.out ∧ Only [.vtx, .out] s t :=
  ⟨_, rfl, by rw [cohWb_clean h w]; exact dirFree_ackWb (.refl [] s) (by decide) (by decide) w.entry⟩

theorem wbDirty_stores (h : Heard s a line gen) (w : Owned s a line i e) (hl : data.length = 128)
    (hr : (page s (line * 128 / pageBytes)).st = .resident) (hc : Clean s (line * 128) 128) (hm : Memory.wf s.mem = true) :
    Answers (.wbDirty a line gen data) s fun t =>
      memBytes t.mem (line * 128) 128 = data ∧ (∀ x, x < line * 128 ∨ line * 128 + 128 ≤ x → memRead t.mem x = memRead s.mem x) ∧
      t.vtx.dir.get i = {} ∧ t.out = .msg .cohGrant a [6, line * 128] [] :: s.out ∧ Only [.vtx, .pln, .fld, .mem, .out] s t := by
  have hclean : Clean (usePage (line * 128 / pageBytes) s) (line * 128) data.length := by rw [hl]; exact hc
  obtain ⟨u, hu, hframe, hbytes⟩ := foldWrite_clean (part := (pagePart s (line * 128 / pageBytes)).getD 16) (r := { num := a % 0x200 })
    (compress := false) hclean hm
  have hfree := dirFree_ackWb (a := a) ((only_usePage _ s).seq hframe) (by decide) (by decide) w.entry
  obtain ⟨hget, hout, honly⟩ := hfree
  have hmem : (dirFree line (ackWb a line u)).mem = u.mem :=
    ((only_ackWb a line u).trans ((only_dirFree line _).mono (by decide))) .mem (by decide)
  refine ⟨_, rfl, ?_⟩
  rw [padLine_full hl, cohWb_dirty h w hl hr, hu]
  refine ⟨?_, fun x hx => ?_, hget, hout, honly.mono (by decide)⟩
  · have hstored := memBytes_laidOver hbytes
    rwa [hl, ← hmem] at hstored
  · rw [hmem, hbytes, laidOver_outside (by rwa [hl])]
    rfl

theorem wbClean_stale (h : gen ≠ s.vtx.gen) : Answers (.wbClean a line gen) s fun t =>
    t.vtx = { s.vtx with staleDrops := min (s.vtx.staleDrops + 1) 65535 } ∧ Only [.vtx] s t := by
  refine ⟨_, rfl, ?_⟩
  rw [cohWb, cohDrop_stale h]
  exact ⟨rfl, only_modVtx _ s⟩

end Sys2Proof.Machine
end

section
/-!
The fall of the coherent domain (R184 to R187): what it leaves at Vertex, whom it tells, and what it leaves alone.
-/
namespace Sys2Proof.Machine

variable {s t : State} {cause agent line : Nat} {q : VTxn}

/-- R186: the requests that Vertex holds. -/
def heldReqs (s : State) : List VReq :=
  s.vtx.txns.map (·.req) ++ s.vtx.txns.filterMap (·.after) ++ s.vtx.queue ++ s.vtx.held ++ s.vtx.wins.flatMap (·.members)

/-- Nothing but its transactions is held at Vertex, and no command is in progress there. -/
structure NoneWaits (s : State) : Prop where
  queue : s.vtx.queue = []
  held : s.vtx.held = []
  wins : s.vtx.wins = []
  jobs : s.vtx.jobs = []

theorem heldReqs_none (h : NoneWaits s) (ht : s.vtx.txns = []) : heldReqs s = [] := by
  simp [heldReqs, ht, h.queue, h.held, h.wins]

theorem heldReqs_single (h : NoneWaits s) (ht : s.vtx.txns = [q]) (ha : q.after = none) : heldReqs s = [q.req] := by
  simp [heldReqs, ht, ha, h.queue, h.held, h.wins]

/-- Vertex once the domain has fallen (R187 steps 1 to 3), before the partitions' completions are counted. -/
def fallen (cause agent line : Nat) (s : State) : Vertex :=
  let parts := (cohParts s ++ s.vtx.jobs.map (·.cmd.part)).eraseDups
  { s.vtx with
    st := .down, cause := cause, agent := agent, infoLine := line, downFt := s.ft, downCount := sat 16 s.vtx.downCount,
    gen := (s.vtx.gen + 1) % 16, txns := [], queue := [], held := [], wins := [], granted := [], jobs := [],
    ackWait := cohPorts s, ackSince := s.ft, walked := false,
    recalled := s.vtx.recalled ++ s.vtx.txns.filterMap fun t => if t.req.op = .coh .rdCur then none else t.data.map fun d => (t.line, d),
    restart := parts ++ s.vtx.restart.filter fun n => !parts.contains n }

/-- The fall enters the log. -/
def fallLogged (cause agent line : Nat) (s : State) : State :=
  report .cohDomainDown .vertex none [pack [(4, cause), (10, agent), (45, line)]] { s with vtx := fallen cause agent line s }

/-- A running partner is told of a fall that it does not know of. -/
def tellPartner (cause : Nat) (s : State) : State :=
  if hasPartner s && cause != 9 && cause != 6 && s.pair.linkUp then send .cohDown 0x400 [9] s else s

/-- R186: held requests complete DOMAIN_DOWN. -/
def downReqs (rs : List VReq) (s : State) : State := rs.foldl (fun s r => if r.op = .backInv then s else vDownOne r s) s

/-- R181: commands in progress end DOMAIN_DOWN. -/
def downJobs (js : List VJob) (s : State) : State :=
  js.foldl (fun s j => finishCmd j.cmd (if bitOf (j.cmd.w 0) 4 then some (bits (j.cmd.w 0) 32 17) else none) cDown s) s

/-- R187 step 3: the coherent ports are told, one by one. -/
def tellPorts (ps : List Nat) (s : State) : State := ps.foldl (fun s p => send .cohDown p [5] s) s

theorem domainDown_stages (h : s.vtx.st = .up) :
    domainDown cause agent line s =
      (let t := downJobs s.vtx.jobs (downReqs (heldReqs s) (tellPartner cause (fallLogged cause agent line s)))
       tellPorts (cohPorts t) t) := by
  have hup : ¬ (s.vtx.st != .up) = true := by simp [h]
  rw [domainDown, if_neg hup]
  rfl

/-! ### Each stage -/

theorem only_vtx (v : Vertex) (s : State) : Only [.vtx] s { s with vtx := v } :=
  .of fun p => by cases p <;> simp [SamePart]

theorem only_fallLogged (cause agent line : Nat) (s : State) : Only [.vtx, .cmp] s (fallLogged cause agent line s) :=
  (only_vtx _ s).seq (only_of_unlogged (report_unlogged ..))

theorem fallLogged_vtx (cause agent line : Nat) (s : State) : (fallLogged cause agent line s).vtx = fallen cause agent line s :=
  only_of_unlogged (report_unlogged ..) .vtx (by decide)

theorem only_tellPartner (cause : Nat) (s : State) : Only [.out] s (tellPartner cause s) := by
  unfold tellPartner
  split
  · exact only_send _ _ _ s
  · exact .refl _ s

theorem tellPartner_none (h : hasPartner s = false) : tellPartner cause s = s := by simp [tellPartner, h]

theorem tellPorts_out (ps : List Nat) (s : State) :
    tellPorts ps s = { s with out := (ps.map fun p => .msg .cohDown p [5] []).reverse ++ s.out } := by
  induction ps generalizing s with
  | nil => rfl
  | cons p ps ih =>
    change tellPorts ps (send .cohDown p [5] s) = _
    rw [ih]
    simp [send, emit]

/-- The requester is a port. -/
def VReq.ofPort (r : VReq) : Prop := ∃ p node tag, r.who = .port p node tag

theorem vDownOne_port {r : VReq} (h : r.ofPort) (s : State) :
    vDownOne r s = emit (.cpl r.who { cDown with aux := 5 }) (modVStat r.part (fun x => { x with downCmp := sat 16 x.downCmp }) s) := by
  obtain ⟨p, node, tag, hw⟩ := h
  simp only [vDownOne, hw, vReply_port hw]
  rfl

/-- What Vertex tells of requests that end as the domain falls. -/
def downCpls (rs : List VReq) : List Out := ((rs.filter (·.op != .backInv)).map fun r => .cpl r.who { cDown with aux := 5 }).reverse

theorem downReqs_ports {rs : List VReq} (h : ∀ r ∈ rs, r.ofPort) (s : State) :
    ∃ st, downReqs rs s = { s with vtx := { s.vtx with stats := st }, out := downCpls rs ++ s.out } := by
  induction rs generalizing s with
  | nil => exact ⟨s.vtx.stats, rfl⟩
  | cons r rs ih =>
    have hrs : ∀ r ∈ rs, r.ofPort := fun x hx => h x (List.mem_cons_of_mem r hx)
    by_cases hop : r.op = .backInv
    · obtain ⟨st, hst⟩ := ih hrs s
      refine ⟨st, ?_⟩
      simp only [downReqs, List.foldl_cons, if_pos hop] at hst ⊢
      rw [hst]
      simp [downCpls, hop]
    · obtain ⟨st, hst⟩ := ih hrs (vDownOne r s)
      refine ⟨st, ?_⟩
      simp only [downReqs, List.foldl_cons, if_neg hop] at hst ⊢
      rw [hst, vDownOne_port (h r List.mem_cons_self)]
      simp [downCpls, hop, emit, modVStat, modVtx]

theorem cohPorts_of (he : t.edg = s.edg) (hx : t.vtx.excluded = s.vtx.excluded) : cohPorts t = cohPorts s := by
  simp only [cohPorts, he, hx]

/-! ### The whole -/

/-- The domain of `s` has fallen in `t`. -/
structure Fell (cause agent line : Nat) (s t : State) : Prop where
  vtx : ∃ st, t.vtx = { fallen cause agent line s with stats := st }
  told : ∀ r ∈ heldReqs s, r.op ≠ .backInv → .cpl r.who { cDown with aux := 5 } ∈ t.out
  asked : ∀ k ∈ cohPorts s, .msg .cohDown k [5] [] ∈ t.out
  frame : Only [.vtx, .cmp, .out] s t

theorem domainDown_fell (h : s.vtx.st = .up) (hj : s.vtx.jobs = []) (hr : ∀ r ∈ heldReqs s, r.ofPort) :
    Fell cause agent line s (domainDown cause agent line s) := by
  obtain ⟨st, hst⟩ := downReqs_ports hr (tellPartner cause (fallLogged cause agent line s))
  have hvtx : (tellPartner cause (fallLogged cause agent line s)).vtx = fallen cause agent line s :=
    (only_tellPartner _ _ .vtx (by decide)).trans (fallLogged_vtx ..)
  have hframe := (only_fallLogged cause agent line s).seq (only_tellPartner cause _)
  rw [hvtx] at hst
  have hports : cohPorts (downReqs (heldReqs s) (tellPartner cause (fallLogged cause agent line s))) = cohPorts s :=
    cohPorts_of (by rw [hst]; exact hframe .edg (by decide)) (by rw [hst]; rfl)
  rw [domainDown_stages h, hj]
  change Fell _ _ _ s (tellPorts (cohPorts (downReqs _ _)) (downReqs _ _))
  rw [hports, tellPorts_out, hst]
  refine ⟨⟨st, rfl⟩, fun r hmem hop => ?_, fun k hk => ?_, ?_⟩
  · have hcpl : Out.cpl r.who { cDown with aux := 5 } ∈ downCpls (heldReqs s) :=
      List.mem_reverse.2 (List.mem_map_of_mem (List.mem_filter.2 ⟨hmem, by simpa using hop⟩))
    exact List.mem_append_right _ (List.mem_append_left _ hcpl)
  · exact List.mem_append_left _ (List.mem_reverse.2 (List.mem_map_of_mem hk))
  · exact (hframe.seq (.of fun p => by cases p <;> simp [SamePart] : Only [.vtx, .out] _ _)).mono (by decide)

/-- R185: with no request held, no coherent port and no partner the fall is known to nobody but the log. -/
theorem domainDown_silent (h : s.vtx.st = .up) (hj : s.vtx.jobs = []) (hr : heldReqs s = []) (hp : hasPartner s = false)
    (hc : cohPorts s = []) : domainDown cause agent line s = fallLogged cause agent line s := by
  have hframe := only_fallLogged cause agent line s
  have hpair : hasPartner (fallLogged cause agent line s) = false := by
    rw [hasPartner, hframe .pair (by decide)]
    exact hp
  have hports : cohPorts (fallLogged cause agent line s) = [] :=
    (cohPorts_of (hframe .edg (by decide)) (by rw [fallLogged_vtx]; rfl)).trans hc
  rw [domainDown_stages h, hj, hr, tellPartner_none hpair]
  change tellPorts (cohPorts (fallLogged cause agent line s)) (fallLogged cause agent line s) = _
  rw [hports]
  rfl

end Sys2Proof.Machine
end

section
/-!
Every response of R172 and every writeback of R175, as the statement gives them.
-/
namespace Sys2Proof.Machine

variable {s : State} {q : VTxn} {e : DirEnt} {a b i l line gen : Nat} {k : Snoop} {x : Rsp} {data : List Byte}

/-- R172: a response that nobody asked for takes the domain DOWN. -/
theorem rsp_unasked {c : Instr} (hc : exec c s = .next (cohRsp a line gen x data s)) (h : Heard s a line gen) (hq : txnOf s line = none)
    (ht : s.vtx.txns = []) (hn : NoneWaits s) (hp : hasPartner s = false) (hports : cohPorts s = []) :
    Answers c s fun t =>
      t.vtx.st = .down ∧ t.vtx.cause = 3 ∧ t.vtx.agent = a ∧ t.vtx.infoLine = line ∧ t.vtx.gen = (s.vtx.gen + 1) % 16 ∧
      Only [.vtx, .cmp] s t := by
  have hdown : cohRsp a line gen x data s = domainDown 3 a line s := by simp only [cohRsp, h.cohDrop, hq]
  refine ⟨_, hc, ?_⟩
  rw [hdown, domainDown_silent h.up hn.jobs (heldReqs_none hn ht) hp hports]
  dsimp only
  rw [fallLogged_vtx]
  exact ⟨rfl, rfl, rfl, rfl, rfl, only_fallLogged 3 a line s⟩

/-- Settles O40: each clause is the lemma on its response or writeback. -/
theorem snoopResponses : Obligations.SnoopResponses := by
  refine ⟨?i, ?s, ?keep, ?dataI, ?dataS, ?dataKeep, ?fwdI, ?fwdS, ?fwdSData, ?wb, ?last, ?forwarded, ?unasked, ?dirty, ?clean, ?stale⟩
  case i =>
    intro s a b line gen q i e hg hup hx hm hq hs hab hd ho
    exact rsp_ofTwo rfl ⟨hg, hup, hx, hm⟩ hq hs hab hd (by rw [ho]; rfl)
      (by simp [VTxn.answered, Rsp.hasData, beq_eq_decide])
  case s =>
    intro s a b line gen q i e hg hup hx hm hq hs hab hd ho
    exact rsp_ofTwo rfl ⟨hg, hup, hx, hm⟩ hq hs hab hd (by rw [ho]; rfl)
      (by simp [VTxn.answered, Rsp.hasData, beq_eq_decide])
  case keep =>
    intro s a b line gen q i e hg hup hx hm hq hs hab hd ho
    exact rsp_ofTwo rfl ⟨hg, hup, hx, hm⟩ hq hs hab hd (by rw [ho]; rfl)
      (by simp [VTxn.answered, Rsp.hasData, beq_eq_decide])
  case dataI =>
    intro s a b line gen data q i e hg hup hx hm hq hs hab hd ho hl hop
    exact rsp_ofTwo rfl ⟨hg, hup, hx, hm⟩ hq hs hab hd (by rw [ho]; rfl)
      (by simp [VTxn.answered, Rsp.hasData, beq_eq_decide, padLine_full hl, take_full hl, hop, Bool.or_assoc])
  case dataS =>
    intro s a b line gen data q i e hg hup hx hm hq hs hab hd ho hl hop
    exact rsp_ofTwo rfl ⟨hg, hup, hx, hm⟩ hq hs hab hd (by rw [ho]; rfl)
      (by simp [VTxn.answered, Rsp.hasData, beq_eq_decide, padLine_full hl, take_full hl, hop])
  case dataKeep =>
    intro s a b line gen data q i e hg hup hx hm hq hs hab hd ho hl hop
    exact rsp_ofTwo rfl ⟨hg, hup, hx, hm⟩ hq hs hab hd (by rw [ho]; rfl)
      (by simp [VTxn.answered, Rsp.hasData, beq_eq_decide, padLine_full hl, take_full hl, hop, Bool.or_assoc])
  case fwdI =>
    intro s a b line gen q i e hg hup hx hm hq hs hab hd ho
    exact rsp_ofTwo rfl ⟨hg, hup, hx, hm⟩ hq hs hab hd (by rw [ho]; rfl)
      (by simp [VTxn.answered, Rsp.hasData, beq_eq_decide])
  case fwdS =>
    intro s a b line gen q i e hg hup hx hm hq hs hab hd ho
    exact rsp_ofTwo rfl ⟨hg, hup, hx, hm⟩ hq hs hab hd (by rw [ho]; rfl)
      (by simp [VTxn.answered, Rsp.hasData, beq_eq_decide])
  case fwdSData =>
    intro s a b line gen data q i e hg hup hx hm hq hs hab hd ho hl hop
    exact rsp_ofTwo rfl ⟨hg, hup, hx, hm⟩ hq hs hab hd (by rw [ho]; rfl)
      (by simp [VTxn.answered, Rsp.hasData, beq_eq_decide, padLine_full hl, take_full hl, hop])
  case wb =>
    intro s a b line gen q i e hg hup hx hm hq hs hab hd ho hgone
    exact rsp_ofTwo rfl ⟨hg, hup, hx, hm⟩ hq hs hab hd (by rw [ho]; rfl)
      (by simp [VTxn.answered, Rsp.hasData, beq_eq_decide, hgone])
  case last =>
    intro s a line gen q hg hup hx hm hq hs hw hmem hop ⟨x, _, hd, ho⟩
    exact rspI_asksMemory ⟨hg, hup, hx, hm⟩ hq hs hw hmem hop hd ho
  case forwarded =>
    intro s a line gen q p node tag i e hg hup hx hm ht hl hs hw hmem hdata hy _ hr ha hop _ hheld _ hd ho
    exact rspFwdI_ends ⟨hg, hup, hx, hm⟩ ht hl hs hw hmem hdata hy hr ha hop hheld hd ho
  case unasked =>
    intro s a line gen hg hup hx hm hq ht hqueue hheld hwins hjobs hp hports
    exact rsp_unasked rfl ⟨hg, hup, hx, hm⟩ hq ht ⟨hqueue, hheld, hwins, hjobs⟩ hp hports
  case dirty =>
    intro s a line gen data i e p hg hup hx hcoh hm hq hd ho hptrs hp hst hc hwf hl
    exact wbDirty_stores ⟨hg, hup, hx, hm⟩ ⟨hcoh, hq, hd, ho, hptrs⟩ hl (hp ▸ hst) hc hwf
  case clean =>
    intro s a line gen i e hg hup hx hcoh hm hq hd ho hptrs
    exact wbClean_frees ⟨hg, hup, hx, hm⟩ ⟨hcoh, hq, hd, ho, hptrs⟩
  case stale => exact fun s a line gen h => wbClean_stale h

end Sys2Proof.Machine
end

section
/-!
A line written with the poison mark (R209, R210): the line reads POISON, and no other byte changes.
-/
namespace Sys2Proof.Machine

variable {s : State} {l part : Nat} {r : FoldReq}

theorem blocksOf_line (l : Nat) : blocksOf (l * 128) 128 = [l / 4] := by
  have hfirst : l * 128 / 512 = l / 4 := by omega
  have hlast : (l * 128 + 128 - 1) / 512 = l / 4 := by omega
  rw [blocksOf, if_neg (by decide), hfirst, hlast, Nat.sub_self]
  rfl

/-- Onto a clean block the mark changes the lines' poison and nothing else. -/
theorem writeBlock_clean {b : Nat} {compress : Bool} (h : CleanBlk s b) (p : List (Option Byte)) :
    ∃ plain, ∀ mark, writeBlock part r compress mark b p s = (putBlock part b plain (newMask 0 p mark) compress s, false) := by
  by_cases hall : p.all (·.isSome)
  · exact ⟨_, fun mark => by rw [writeBlock, if_pos hall]⟩
  · refine ⟨mergeBytes (memBytes s.mem (b * 512) 512) p, fun mark => ?_⟩
    rw [writeBlock, if_neg hall, partialCause_clean h p]
    obtain ⟨-, -, hpm⟩ := h
    simp only [hpm]

/-- Once a block is put back, its lines are poisoned as its mask says. -/
theorem putBlock_poisoned {b off len pmask : Nat} {plain : List Byte} {compress : Bool} (hb : b ∈ blocksOf off len)
    (hm : pmask &&& lineMask b off len ≠ 0) : readPoisoned (putBlock part b plain pmask compress s) off len = true := by
  obtain ⟨f, n, hblk⟩ := putBlock_blk part b plain pmask compress s
  refine List.any_eq_true.2 ⟨b, hb, ?_⟩
  rw [hblk, if_pos rfl]
  simpa using hm

theorem newMask_marked (p : List (Option Byte)) :
    newMask 0 p true = sumOf ((List.range 4).map fun i => if lineTouched p i then 2 ^ i else 0) := by
  simp [newMask, bitOf_zero]

/-- A marked write poisons every line that it touches. -/
theorem newMask_touched {p : List (Option Byte)} {i : Nat} (hi : i < 4) (h : lineTouched p i = true) :
    newMask 0 p true &&& 2 ^ i ≠ 0 := by
  rw [newMask_marked]
  have hsum : ∀ b : Nat → Bool, b i = true → sumOf ((List.range 4).map fun j => if b j then 2 ^ j else 0) &&& 2 ^ i ≠ 0 := fun b hb => by
    simp only [List.range_succ, List.range_zero, sumOf]
    interval_cases i <;> cases h0 : b 0 <;> cases h1 : b 1 <;> cases h2 : b 2 <;> cases h3 : b 3 <;> simp_all
  exact hsum (lineTouched p) h

theorem lineMask_line (l : Nat) : lineMask (l / 4) (l * 128) 128 = 2 ^ (l % 4) := by
  have hi : ∀ i, (l / 4 * 512 + i * 128 < l * 128 + 128 ∧ l * 128 < l / 4 * 512 + i * 128 + 128) ↔ i = l % 4 := fun i => by omega
  have hk : l % 4 < 4 := Nat.mod_lt l (by decide)
  simp only [lineMask, hi]
  interval_cases l % 4 <;> rfl

/-- The first byte of a line stands in its block where the line begins. -/
theorem blockPart_first {data : List Byte} (l : Nat) (h : data ≠ []) :
    ∃ b, (blockPart (l / 4) (l * 128) (data.map some))[l % 4 * 128]? = some (some b) := by
  have hlt : l % 4 * 128 < 512 := by omega
  have hat : l / 4 * 512 + l % 4 * 128 = l * 128 := by omega
  obtain ⟨b, rest, rfl⟩ := List.exists_cons_of_ne_nil h
  refine ⟨b, ?_⟩
  simp only [blockPart, List.getElem?_map, List.getElem?_range hlt, Option.map_some, hat, Nat.lt_irrefl, if_false, Nat.sub_self]
  rfl

theorem lineTouched_line {data : List Byte} (l : Nat) (h : data ≠ []) :
    lineTouched (blockPart (l / 4) (l * 128) (data.map some)) (l % 4) = true := by
  obtain ⟨b, hb⟩ := blockPart_first l h
  refine List.any_eq_true.2 ⟨some b, List.mem_of_getElem? (i := 0) ?_, rfl⟩
  rw [List.getElem?_take_of_lt (by decide), List.getElem?_drop, Nat.add_zero, hb]

theorem blockPart_some {data : List Byte} (l : Nat) (h : data ≠ []) :
    (blockPart (l / 4) (l * 128) (data.map some)).all (·.isNone) = false := by
  obtain ⟨b, hb⟩ := blockPart_first l h
  exact List.all_eq_false.2 ⟨some b, List.mem_of_getElem? hb, Bool.false_ne_true⟩

/-- A write of a clean line puts its block back, with the line's poison as the mark says. -/
theorem foldWrite_line {data : List Byte} {compress : Bool} (hc : Clean s (l * 128) 128) (hl : data.length = 128) :
    ∃ plain, ∀ mark, foldWrite part r compress mark (l * 128) data s =
      (putBlock part (l / 4) plain (newMask 0 (blockPart (l / 4) (l * 128) (data.map some)) mark) compress
        (noteWrite r (l * 128) (data.map some) s), cOk) := by
  have hne : data ≠ [] := List.ne_nil_of_length_pos (by omega)
  have hclean : CleanBlk (noteWrite r (l * 128) (data.map some) s) (l / 4) :=
    clean_iff.1 hc _ (by rw [blocksOf_line]; exact List.mem_singleton_self _)
  obtain ⟨plain, hplain⟩ := writeBlock_clean (part := part) (r := r) (compress := compress) hclean (blockPart (l / 4) (l * 128) (data.map some))
  refine ⟨plain, fun mark => ?_⟩
  simp only [foldWrite, foldWriteOpt, List.length_map, hl, blocksOf_line, List.foldl_cons, List.foldl_nil, blockPart_some l hne, hplain,
    Bool.or_false, Bool.false_eq_true, if_false]

/-- R210: a line written with the poison mark reads POISON, and the bytes outside it stay. -/
theorem foldWrite_marks {data : List Byte} {compress : Bool} (hc : Clean s (l * 128) 128) (hm : Memory.wf s.mem = true)
    (hl : data.length = 128) :
    ∃ t, foldWrite part r compress true (l * 128) data s = (t, cOk) ∧ readPoisoned t (l * 128) 128 = true ∧
      (∀ a, a < l * 128 ∨ l * 128 + 128 ≤ a → memRead t.mem a = memRead s.mem a) ∧ Only [.mem, .fld] s t := by
  obtain ⟨plain, hline⟩ := foldWrite_line (part := part) (r := r) (compress := compress) hc hl
  obtain ⟨t, ht, -, hbytes⟩ := foldWrite_clean (part := part) (r := r) (compress := compress) (data := data) (by rw [hl]; exact hc) hm
  rw [hline] at ht
  cases ht
  refine ⟨_, hline true, ?_, fun a ha => ?_, ((only_noteWrite _ _ _ s).seq (putBlock_frame _ _ _ _ _ _)).mono (by decide)⟩
  · refine putBlock_poisoned (b := l / 4) (by rw [blocksOf_line]; exact List.mem_singleton_self _) ?_
    rw [lineMask_line]
    exact newMask_touched (Nat.mod_lt l (by decide)) (lineTouched_line l (List.ne_nil_of_length_pos (by omega)))
  · have hsame : memRead _ a = memRead s.mem a := (hbytes a).trans (laidOver_outside (by rwa [hl]))
    rw [putBlock_mem] at hsame ⊢
    exact hsame

end Sys2Proof.Machine
end

section
/-!
The domain falls, and returns (R183 to R188), as the statement gives it.
-/
namespace Sys2Proof.Machine

variable {s : State} {q : VTxn} {e : DirEnt} {i l p node tag k roles : Nat}

/-! ### Down -/

/-- R186: the one request held is a port's, which is told. -/
theorem domainDown_tells {cause agent : Nat} (h : s.vtx.st = .up) (ht : s.vtx.txns = [q]) (ha : q.after = none)
    (hw : q.req.who = .port p node tag) (hop : q.req.op ≠ .backInv) (hn : NoneWaits s) :
    Fell cause agent l s (domainDown cause agent l s) ∧ .cpl (.port p node tag) { cDown with aux := 5 } ∈ (domainDown cause agent l s).out := by
  have hreqs := heldReqs_single hn ht ha
  have hfell : Fell cause agent l s (domainDown cause agent l s) := domainDown_fell h hn.jobs fun r hr => by
    rw [hreqs, List.mem_singleton] at hr
    exact ⟨p, node, tag, hr ▸ hw⟩
  exact ⟨hfell, hw ▸ hfell.told q.req (by rw [hreqs]; exact List.mem_singleton_self _) hop⟩

theorem domainDown_idle {cause agent : Nat} (h : s.vtx.st = .up) (ht : s.vtx.txns = []) (hn : NoneWaits s) :
    Fell cause agent l s (domainDown cause agent l s) :=
  domainDown_fell h hn.jobs fun r hr => absurd hr (by rw [heldReqs_none hn ht]; exact List.not_mem_nil)

/-- R172, R185: a snoop's answer is missing past its limit. -/
theorem snoopTimeout_falls (h : s.vtx.st = .up) (ht : s.vtx.txns = [q]) (hl : q.line = l) (hs : q.snoops ≠ [])
    (hlate : q.since + max 1 s.vtx.snoopTmo * 1000 ≤ s.ft) (ha : q.after = none) (hw : q.req.who = .port p node tag)
    (hop : q.req.op ≠ .backInv) (hn : NoneWaits s) :
    Answers (.snoopTimeout l) s fun t =>
      t.vtx.st = .down ∧ t.vtx.cause = 1 ∧ t.vtx.agent = (q.snoops.map fun x => x.1).headD 0 ∧ t.vtx.infoLine = l ∧ t.vtx.txns = [] ∧
      t.vtx.gen = (s.vtx.gen + 1) % 16 ∧ t.vtx.downFt = s.ft ∧ t.vtx.downCount = min (s.vtx.downCount + 1) 65535 ∧
      t.vtx.ackWait = cohPorts s ∧ .cpl (.port p node tag) { cDown with aux := 5 } ∈ t.out ∧
      (∀ k ∈ cohPorts s, .msg .cohDown k [5] [] ∈ t.out) ∧ Only [.vtx, .cmp, .out] s t := by
  obtain ⟨⟨⟨st, hvtx⟩, -, hasked, hframe⟩, htold⟩ :=
    domainDown_tells (cause := 1) (agent := ((q.snoops.map (·.1)) ++ q.wbs).headD 0) (l := l) h ht ha hw hop hn
  have hhead : ((q.snoops.map (·.1)) ++ q.wbs).headD 0 = (q.snoops.map fun x => x.1).headD 0 := by
    obtain ⟨x, xs, hx⟩ := List.exists_cons_of_ne_nil hs
    rw [hx]
    rfl
  have hexec : exec (.snoopTimeout l) s = .next (domainDown 1 (((q.snoops.map (·.1)) ++ q.wbs).headD 0) l s) := by
    have hdue : ((!q.snoops.isEmpty || !q.wbs.isEmpty) && decide (q.since + max 1 s.vtx.snoopTmo * 1000 ≤ s.ft)) = true := by
      simp [hs, hlate]
    change execSnoopTimeout l s = _
    rw [execSnoopTimeout, txnOf_single ht hl]
    exact if_pos hdue
  refine ⟨_, hexec, ?_⟩
  dsimp only
  rw [hvtx]
  exact ⟨rfl, rfl, hhead, rfl, rfl, rfl, rfl, rfl, rfl, htold, hasked, hframe⟩

/-- R183, R185: memory has held an access for more than 20 µs. -/
theorem cohMemoryTimeout_falls {d : Nat} (h : s.vtx.st = .up) (ht : s.vtx.txns = [q]) (hl : q.line = l) (hr : q.retryAt = some d)
    (hlate : q.memSince + 20000 < s.ft) (ha : q.after = none) (hw : q.req.who = .port p node tag) (hop : q.req.op ≠ .backInv)
    (hn : NoneWaits s) :
    Answers (.cohMemoryTimeout l) s fun t =>
      t.vtx.st = .down ∧ t.vtx.cause = 8 ∧ t.vtx.txns = [] ∧ .cpl (.port p node tag) { cDown with aux := 5 } ∈ t.out ∧
      Only [.vtx, .cmp, .out] s t := by
  obtain ⟨⟨⟨st, hvtx⟩, -, -, hframe⟩, htold⟩ := domainDown_tells (cause := 8) (agent := 0) (l := l) h ht ha hw hop hn
  have hexec : exec (.cohMemoryTimeout l) s = .next (domainDown 8 0 l s) := by
    change execCohMemoryTimeout l s = _
    rw [execCohMemoryTimeout, txnOf_single ht hl]
    exact if_pos (by simp [hr, hlate])
  refine ⟨_, hexec, ?_⟩
  dsimp only
  rw [hvtx]
  exact ⟨rfl, rfl, rfl, htold, hframe⟩

theorem partnerDomainDown_falls (h : s.vtx.st = .up) (ht : s.vtx.txns = []) (hn : NoneWaits s) : Answers .partnerDomainDown s fun t =>
    t.vtx.st = .down ∧ t.vtx.cause = 9 ∧ t.vtx.gen = (s.vtx.gen + 1) % 16 ∧ t.vtx.ackWait = cohPorts s ∧ Only [.vtx, .cmp, .out] s t := by
  obtain ⟨⟨st, hvtx⟩, -, -, hframe⟩ := domainDown_idle (cause := 9) (agent := 0) (l := 0) h ht hn
  refine ⟨domainDown 9 0 0 s, rfl, ?_⟩
  dsimp only
  rw [hvtx]
  exact ⟨rfl, rfl, rfl, rfl, hframe⟩

/-- R191: management forces the fall, and is answered. -/
theorem forceDown_falls (ha : Admits s k roles .admin) (h : s.vtx.st = .up) (ht : s.vtx.txns = []) (hn : NoneWaits s) :
    Answers (.forceDown (.mgmt k tag roles)) s fun t =>
      t.vtx.st = .down ∧ t.vtx.cause = 10 ∧ .cpl (.mgmt k tag roles) cOk ∈ t.out ∧ Only [.vtx, .cmp, .out] s t := by
  obtain ⟨⟨st, hvtx⟩, -, -, hframe⟩ :=
    domainDown_idle (s := touchSession k false s) (cause := 10) (agent := 0) (l := 0) h ht ⟨hn.queue, hn.held, hn.wins, hn.jobs⟩
  have hexec : exec (.forceDown (.mgmt k tag roles)) s =
      mgmtGate (.mgmt k tag roles) .admin false (fun s => .next (reply (.mgmt k tag roles) cOk (domainDown 10 0 0 s))) s := rfl
  refine ⟨_, hexec.trans (mgmtGate_admits ha), ?_⟩
  dsimp only
  rw [reply_mgmt, emit_vtx, hvtx]
  exact ⟨rfl, rfl, List.mem_cons_self, (((only_touchSession k false s).seq hframe).seq (only_emit _ _)).mono (by decide)⟩

/-! ### Ports (R187 step 3, R188) -/

theorem portExclude_excludes (hw : p ∈ s.vtx.ackWait) (hlate : s.vtx.ackSince + max 1 s.vtx.ackTmo * 1000 ≤ s.ft) :
    Answers (.portExclude p) s fun t =>
      t.vtx = { s.vtx with ackWait := s.vtx.ackWait.filter (fun q => q != p), excluded := s.vtx.excluded ++ [p] } ∧ Only [.vtx] s t := by
  have hdue : (s.vtx.ackWait.contains p && decide (s.vtx.ackSince + max 1 s.vtx.ackTmo * 1000 ≤ s.ft)) = true := by simp [hw, hlate]
  exact ⟨_, if_pos hdue, rfl, only_modVtx _ s⟩

/-- R192: a port whose bit is written and whose link is up is a member again. -/
def readmit (j : Nat) (v : Word) (s : State) : State :=
  modVtx (fun x => { x with excluded := x.excluded.filter fun p => !(p / 64 == j && v.getLsbD (p % 64) && (port s p).st == .up) }) s

theorem portExclClear_readmits {j : Nat} {v : Word} (h : Admits s k roles .admin) : Answers (.portExclClear (.mgmt k tag roles) j v) s fun t =>
    (∀ p, p ∈ t.vtx.excluded ↔ p ∈ s.vtx.excluded ∧ ¬ (p / 64 = j ∧ v.getLsbD (p % 64) = true ∧ (port s p).st = .up)) ∧
    t.cmp = served s k ∧ Told s t (.mgmt k tag roles) cOk ∧ Only [.vtx, .cmp, .out] s t := by
  obtain ⟨t, ht, hsame, htold, hframe⟩ := gate_answers (i := .portExclClear (.mgmt k tag roles) j v) (f := readmit j v) (r := false) h rfl
    (only_modVtx _ _) (by decide)
  refine ⟨t, ht, fun p => ?_, hsame .cmp (by decide), htold, hframe.mono (by decide)⟩
  have hback : (p / 64 == j && v.getLsbD (p % 64) && (port s p).st == .up) = true ↔
      p / 64 = j ∧ v.getLsbD (p % 64) = true ∧ (port s p).st = .up := by simp [and_assoc]
  rw [hsame .vtx (by decide)]
  exact List.mem_filter.trans (by rw [Bool.not_eq_true', ← Bool.not_eq_true, ← hback]; rfl)

/-! ### The walk (R187 steps 4 and 5) -/

theorem writeRecalled_none (h : s.vtx.recalled = []) : writeRecalled s = s := by
  have hsame : ({ s.vtx with recalled := [] } : Vertex) = s.vtx := by rw [← h]
  rw [writeRecalled, h, List.foldl_nil, modVtx, hsame]

theorem restartDomains_none (h : s.vtx.restart = []) : restartDomains s = s := by
  have hsame : ({ s.vtx with restart := [] } : Vertex) = s.vtx := by rw [← h]
  rw [restartDomains, h, List.foldl_nil, modVtx, hsame]

/-- The directory is empty, and the domain restarts. -/
def walkEnded (s : State) : State := modVtx (fun v => { v with dir := [], walked := true, st := .restarting }) s

/-- The lines that an agent owns. -/
def ownLines (s : State) : List Nat := (s.vtx.dir.filter fun e => e.2.used && e.2.own).map (·.2.line)

/-- With no recalled data and no domain to restart, the walk poisons what is owned. -/
theorem exec_directoryWalkDone (h : s.vtx.st = .down) (hw : s.vtx.walked = false) (hr : s.vtx.recalled = []) (hd : s.vtx.restart = [])
    {t : State} (hp : (ownLines s).foldl (fun s l => if s.vtx.recalled.any (fun r => r.1 == l) then s else poisonLine l s) s = t)
    (hv : t.vtx = s.vtx) : exec .directoryWalkDone s = .next (walkEnded t) := by
  have hgo : ¬ (s.vtx.st != .down || s.vtx.walked) = true := by simp [h, hw]
  have hr' : (walkEnded t).vtx.recalled = [] := (congrArg Vertex.recalled hv).trans hr
  have hd' : (walkEnded t).vtx.restart = [] := (congrArg Vertex.restart hv).trans hd
  change execDirectoryWalkDone s = _
  rw [execDirectoryWalkDone, if_neg hgo]
  change Host.Outcome.next (restartDomains (writeRecalled (walkEnded ((ownLines s).foldl _ s)))) = _
  rw [hp, writeRecalled_none hr', restartDomains_none hd']

theorem directoryWalkDone_unowned (h : s.vtx.st = .down) (hw : s.vtx.walked = false) (ho : ∀ e ∈ s.vtx.dir, e.2.own = false)
    (hr : s.vtx.recalled = []) (hd : s.vtx.restart = []) : Answers .directoryWalkDone s fun t =>
      t.vtx = { s.vtx with dir := [], walked := true, st := .restarting } ∧ Only [.vtx] s t := by
  have hnone : ownLines s = [] := by
    rw [ownLines, List.filter_eq_nil_iff.2 fun e he => by simp [ho e he]]
    rfl
  exact ⟨_, exec_directoryWalkDone h hw hr hd (by rw [hnone]; rfl) rfl, rfl, only_modVtx _ s⟩

/-- R187 step 4, R210: a line in OWN reads POISON. -/
theorem directoryWalkDone_poisons (h : s.vtx.st = .down) (hw : s.vtx.walked = false) (hdir : s.vtx.dir = [(i, e)]) (hu : e.used = true)
    (ho : e.own = true) (hr : s.vtx.recalled = []) (hd : s.vtx.restart = []) (hc : Clean s (e.line * 128) 128)
    (hm : Memory.wf s.mem = true) : Answers .directoryWalkDone s fun t =>
      t.vtx = { s.vtx with dir := [], walked := true, st := .restarting } ∧ readPoisoned t (e.line * 128) 128 = true ∧
      (∀ a, a < e.line * 128 ∨ e.line * 128 + 128 ≤ a → memRead t.mem a = memRead s.mem a) ∧ Only [.vtx, .fld, .mem] s t := by
  have hline : ownLines s = [e.line] := by simp [ownLines, hdir, hu, ho]
  obtain ⟨t, ht, hpoison, hmem, hframe⟩ := foldWrite_marks (part := (pagePart s (e.line * 128 / pageBytes)).getD 16)
    (r := { engine := true, num := 0 }) (compress := false) hc hm (List.length_replicate (n := 128) (a := (0 : Byte)))
  have hvtx : t.vtx = s.vtx := hframe .vtx (by decide)
  have hwalk : (ownLines s).foldl (fun s l => if s.vtx.recalled.any (fun r => r.1 == l) then s else poisonLine l s) s = t := by
    rw [hline, List.foldl_cons, List.foldl_nil, hr]
    exact congrArg Prod.fst ht
  refine ⟨_, exec_directoryWalkDone h hw hr hd hwalk hvtx, ?_, hpoison, hmem, (hframe.seq (only_modVtx _ t)).mono (by decide)⟩
  rw [walkEnded, modVtx_vtx, hvtx]

/-! ### Up (R187 step 6) -/

theorem cohDomainUp_returns {done : Bool} (h : s.vtx.st = .restarting) (ha : s.vtx.ackWait = []) (hr : s.vtx.recalled = [])
    (hd : s.vtx.restart = []) (hp : done = true ∨ hasPartner s = false) : Answers (.cohDomainUp done) s fun t =>
      t.vtx = { s.vtx with st := .up, ptrs := [], walked := false } ∧ Only [.vtx] s t := by
  have hready : (s.vtx.st = .restarting && s.vtx.ackWait.isEmpty && s.vtx.recalled.isEmpty &&
      (done || !hasPartner s || !s.pair.linkUp)) = true := by
    rcases hp with hp | hp <;> simp [h, ha, hr, hp]
  refine ⟨modVtx (fun v => { v with st := .up, ptrs := [], walked := false }) s, ?_, rfl, only_modVtx _ s⟩
  change execCohDomainUp done s = _
  rw [execCohDomainUp, writeRecalled_none hr, if_pos hready]
  exact congrArg Host.Outcome.next (restartDomains_none hd)

theorem cohDomainUp_awaits {done : Bool} {rest : List Nat} (ha : s.vtx.ackWait = p :: rest) (hr : s.vtx.recalled = []) :
    Answers (.cohDomainUp done) s fun t => t = s := by
  refine ⟨s, ?_, rfl⟩
  change execCohDomainUp done s = _
  rw [execCohDomainUp, writeRecalled_none hr, if_neg (by simp [ha])]

/-- Settles O42: each clause is the lemma on its command. -/
theorem domainFall : Obligations.DomainFall := by
  refine ⟨?snoop, ?memory, ?partner, ?force, ?ack, ?exclude, ?readmit, ?walk, ?poison, ?up, ?awaits⟩
  case snoop =>
    intro s l q p node tag h ht hl hs hlate ha hw hop hqueue hheld hwins hjobs _
    exact snoopTimeout_falls h ht hl hs hlate ha hw hop ⟨hqueue, hheld, hwins, hjobs⟩
  case memory =>
    intro s l q p node tag d h ht hl hr hlate ha hw hop hqueue hheld hwins hjobs _
    exact cohMemoryTimeout_falls h ht hl hr hlate ha hw hop ⟨hqueue, hheld, hwins, hjobs⟩
  case partner => exact fun s h ht hqueue hheld hwins hjobs => partnerDomainDown_falls h ht ⟨hqueue, hheld, hwins, hjobs⟩
  case force =>
    intro s k tag roles ha h ht hqueue hheld hwins hjobs
    exact forceDown_falls ha h ht ⟨hqueue, hheld, hwins, hjobs⟩
  case ack => exact fun s p => ⟨_, rfl, rfl, only_modVtx _ s⟩
  case exclude => exact fun s p hw hlate => portExclude_excludes hw hlate
  case readmit => exact fun s k tag roles j v h => portExclClear_readmits h
  case walk => exact fun s h hw ho hr hd => directoryWalkDone_unowned h hw ho hr hd
  case poison => exact fun s i e h hw hdir hu ho hr hd hc hm => directoryWalkDone_poisons h hw hdir hu ho hr hd hc hm
  case up => exact fun s done h ha hr hd hp => cohDomainUp_returns h ha hr hd hp
  case awaits => exact fun s done p rest _ ha hr => cohDomainUp_awaits ha hr

end Sys2Proof.Machine
end

section
/-!
The start of a transaction (R167, R171, R173): its snoops go out, or memory is asked.
-/
namespace Sys2Proof.Machine

variable {s : State} {r : VReq} {e : DirEnt} {x : VTxn} {a b i : Nat} {k : Snoop} {fresh : Bool}

theorem only_pushTxn (x : VTxn) (s : State) : Only [.vtx] s (pushTxn x s) := only_modVtx _ s

/-- The state once the monitors have their sample of a request that starts. -/
def startNoted (r : VReq) (s : State) : State :=
  if r.part < 16 then
    monSample (7 * 4096 + r.line % 16) r.part (s.ft - r.at_) (s.vtx.queue.filter fun x => x.line % 16 == r.line % 16 && x.part == r.part).length
      (r.agent % 256) s
  else s

theorem startNoted_arc (r : VReq) (s : State) : ∃ a, startNoted r s = { s with arc := a } := by
  unfold startNoted monSample
  split
  · split
    · exact ⟨s.arc, rfl⟩
    · exact ⟨_, rfl⟩
  · exact ⟨s.arc, rfl⟩

theorem only_startNoted (r : VReq) (s : State) : Only [.arc] s (startNoted r s) := by
  unfold startNoted
  split
  · exact only_monSample _ _ _ _ _ s
  · exact .refl _ s

/-- R170: a request comes from the owner of its line. -/
def fromOwner (s : State) (r : VReq) : Bool :=
  match r.op with
  | .coh _ => (dirFind s r.line).any fun e => e.2.own && e.2.ptrs.contains r.agent
  | _ => false

/-- The transaction that a request starts, where the directory has `e` for its line. -/
def VReq.txn (r : VReq) (s : State) (e : Option DirEnt) : VTxn :=
  { line := r.line, req := r, snoops := (snoopsFor s r e).1, grant := (snoopsFor s r e).2 }

/-- R167: a request whose line has no entry, and that records a holder, takes a way. -/
def allocated (i line : Nat) (s : State) : State := modVtx (fun v => { v with dir := v.dir.set i { line := line, used := true } }) s

/-- A request that is not its line's owner's, and that opens no window, starts its transaction, in a free way where it needs one;
`stuck` is what comes where none is free. -/
theorem vStart_unowned (hf : fromOwner s r = false) (hj : joinable r = false) (fresh : Bool) :
    ∃ stuck, vStart fresh r s =
      (let t := r.txn s ((dirFind s r.line).map (·.2))
       if (dirFind s r.line).isSome || !caches r.op then openTxn t (startNoted r s)
       else (freeWay s r.part r.line).elim stuck fun i => openTxn t (allocated i r.line (startNoted r s))) := by
  obtain ⟨a, ha⟩ := startNoted_arc r s
  rw [ha]
  unfold startNoted at ha
  have hdir : dirFind { s with arc := a } r.line = dirFind s r.line := rfl
  have hway : freeWay { s with arc := a } r.part r.line = freeWay s r.part r.line := rfl
  unfold vStart
  rw [ha]
  simp only [hj, hdir, hway, Bool.false_and, Bool.false_eq_true, if_false]
  split
  · next hop hown =>
    simp only [fromOwner, hop] at hf
    cases hd : dirFind s r.line <;> simp_all
  · cases freeWay s r.part r.line with
    | none => exact ⟨_, rfl⟩
    | some i => exact ⟨s, rfl⟩

theorem vStart_opens (hf : fromOwner s r = false) (hj : joinable r = false) (he : ((dirFind s r.line).isSome || !caches r.op) = true) :
    vStart fresh r s = openTxn (r.txn s ((dirFind s r.line).map (·.2))) (startNoted r s) := by
  obtain ⟨stuck, h⟩ := vStart_unowned hf hj fresh
  exact h.trans (if_pos he)

theorem fromOwner_none (hd : dirFind s r.line = none) : fromOwner s r = false := by
  unfold fromOwner
  split <;> simp [hd]

theorem vStart_allocates (hd : dirFind s r.line = none) (hj : joinable r = false) (hc : caches r.op = true)
    (hw : freeWay s r.part r.line = some i) : vStart fresh r s = openTxn (r.txn s none) (allocated i r.line (startNoted r s)) := by
  obtain ⟨stuck, h⟩ := vStart_unowned (fromOwner_none hd) hj fresh
  rw [h, hd, hc, hw]
  rfl

/-- R171: with nothing to snoop memory is asked at once. -/
theorem openTxn_asks (h : x.snoops = []) (s : State) : openTxn x s = pushTxn { x with since := s.ft, mem := true, memSince := s.ft } s := by
  simp only [openTxn, h, List.foldl_nil, List.isEmpty_nil]

/-- R164: a snoop to an agent that was sent nothing carries no grant. -/
theorem sendSnoop_ungranted (h : s.vtx.granted = []) (b l : Nat) (k : Snoop) (agent tag : Nat) :
    sendSnoop b l k agent tag s = send .cohSnoop b [k.code, l * 128, 0, s.vtx.gen, 0, agent, tag] s := by
  simp only [sendSnoop, grantOf, h, List.find?_nil]

/-- R173: the owner is snooped, and memory waits. -/
theorem openTxn_snoops (h : x.snoops = [(b, k)]) (hg : s.vtx.granted = []) :
    openTxn x s = pushTxn { x with since := s.ft, mem := false, memSince := s.ft }
      (send .cohSnoop b [k.code, x.line * 128, 0, s.vtx.gen, 0, x.req.agent, x.req.tag] s) := by
  simp only [openTxn, h, List.foldl_cons, List.foldl_nil, sendSnoop_ungranted hg]
  rfl

/-- The transaction of a request that has nobody to snoop. -/
theorem vStart_asks {g : Bool} (hf : fromOwner s r = false) (hj : joinable r = false)
    (he : ((dirFind s r.line).isSome || !caches r.op) = true) (hs : snoopsFor s r ((dirFind s r.line).map (·.2)) = ([], g)) :
    vStart fresh r s =
      pushTxn { line := r.line, req := r, grant := g, since := s.ft, mem := true, memSince := s.ft } (startNoted r s) := by
  have hft : (startNoted r s).ft = s.ft := only_startNoted r s .ft (by decide)
  rw [vStart_opens hf hj he, openTxn_asks (congrArg Prod.fst hs), VReq.txn, hs, hft]

/-- The transaction of a request that has one agent to snoop. -/
theorem vStart_snoops {g : Bool} (hf : fromOwner s r = false) (hj : joinable r = false) (he : (dirFind s r.line).isSome = true)
    (hs : snoopsFor s r ((dirFind s r.line).map (·.2)) = ([(b, k)], g)) (hg : s.vtx.granted = []) :
    vStart fresh r s =
      pushTxn { line := r.line, req := r, snoops := [(b, k)], grant := g, since := s.ft, memSince := s.ft }
        (send .cohSnoop b [k.code, r.line * 128, 0, s.vtx.gen, 0, r.agent, r.tag] (startNoted r s)) := by
  have hft : (startNoted r s).ft = s.ft := only_startNoted r s .ft (by decide)
  have hvtx : (startNoted r s).vtx = s.vtx := only_startNoted r s .vtx (by decide)
  rw [vStart_opens hf hj (by rw [he, Bool.true_or]), openTxn_snoops (congrArg Prod.fst hs) ((congrArg Vertex.granted hvtx).trans hg),
    VReq.txn, hs, hft, hvtx]

/-- The one holder of an entry with exact pointers. -/
theorem holders_exact (h : e.coarse = false) (s : State) : holders s e = e.ptrs := by simp [holders, h]

end Sys2Proof.Machine
end

section
/-!
The end of a transaction whose memory has answered (R170, R171, R178, R183).
-/
namespace Sys2Proof.Machine

variable {s u : State} {q : VTxn} {e : DirEnt} {i l p node tag v : Nat}

/-- The one transaction, of line `l`, has asked memory, holds no data, and nothing starts after it. -/
structure AtMemory (s : State) (l : Nat) (q : VTxn) : Prop where
  only : s.vtx.txns = [q]
  line : q.line = l
  mem : q.mem = true
  retryAt : q.retryAt = none
  data : q.data = none
  dirty : q.dirty = false
  after : q.after = none
  held : s.vtx.held = []

theorem AtMemory.txn (h : AtMemory s l q) : txnOf s l = some q := txnOf_single h.only h.line

theorem AtMemory.completes (h : AtMemory s l q) :
    exec (.memoryAccessComplete (.line l) .good []) s = .next (vMemDone l s) := by
  simp [exec, execMemoryAccessComplete, h.txn, h.mem, h.retryAt, noteTier_good]

theorem AtMemory.idle (h : AtMemory s l q) (hu : u.vtx.held = s.vtx.held) : vAfter q u = u := vAfter_idle h.after (hu.trans h.held)

theorem lineReady_read (hs : serveCpl s (l * 128 / pageBytes) false = none) : lineReady l false s = (usePage (l * 128 / pageBytes) s, none) := by
  simp [lineReady, hs]

theorem lineReady_write (hs : serveCpl s (l * 128 / pageBytes) true = none) (hp : (page s (l * 128 / pageBytes)).st = .resident) :
    lineReady l true s = (usePage (l * 128 / pageBytes) s, none) := by
  simp [lineReady, hs, readyWrite_resident hp]

/-! ### A read (R170) -/

/-- R159, R170: a privileged agent that reads a line without holders becomes its owner. -/
theorem finishTxn_exclusive (hd : dirFind s q.line = some (i, e)) (hop : q.req.op = .coh .rdShared) (hf : q.fwd = false)
    (hpriv : q.req.priv = true) (hcomb : q.req.comb = false) (hc : e.coarse = false) (hp : e.ptrs = []) (ho : e.own = false) (d : List Byte) :
    finishTxn q d false s =
      noteGrant q.req (vReply q.req cmpDataE { data := d, value := q.line * 128 }
        (putEntry i { restEntry q e with own := true, ptrs := [q.req.agent] } (dropTxn q.line s))) := by
  have hd' : dirFind (modVtx (fun v => { v with txns := v.txns.filter (·.line != q.line) }) s) q.line = some (i, e) := hd
  have hrest : (restEntry q e).coarse = false ∧ (restEntry q e).ptrs = [] := by simp [restEntry, hop, hc, hp]
  simp only [finishTxn, hop, hd', Option.getD_some, hrest.1, hrest.2, hpriv, hcomb, ho, hf]
  rfl

theorem vMemDone_exclusive (h : AtMemory s l q) (hop : q.req.op = .coh .rdShared) (hf : q.fwd = false) (hg : q.grant = false)
    (hw : winOf s l = none) (hs : serveCpl s (l * 128 / pageBytes) false = none) (hr : readPoisoned s (l * 128) 128 = false) :
    vMemDone l s = vAfter q (finishTxn q (memBytes s.mem (l * 128) 128) false (usePage (l * 128 / pageBytes) s)) := by
  have hread := foldRead_unpoisoned (s := usePage (l * 128 / pageBytes) s) (part := q.req.part) (q := vFold q.req) hr
  have hwin : winOf (usePage (l * 128 / pageBytes) s) l = none := hw
  simp [vMemDone, h.txn, h.mem, h.retryAt, h.data, h.dirty, hop, hf, hg, needsMem, lineReady_read hs, hread, hwin, cData]

/-! ### A write (R171) -/

theorem vMemDone_wrLine (h : AtMemory s l q) (hop : q.req.op = .coh .wrLine) (hmark : q.req.mark = false)
    (hs : serveCpl s (l * 128 / pageBytes) true = none) (hp : (page s (l * 128 / pageBytes)).st = .resident) :
    vMemDone l s =
      (let (t, k) := foldWrite q.req.part (vFold q.req) q.req.compress false (l * 128) q.req.data (usePage (l * 128 / pageBytes) s)
       vAfter q (finishTxn q [] (k.status != .ok) t)) := by
  simp [vMemDone, h.txn, h.mem, h.retryAt, h.data, h.dirty, hop, needsMem, lineReady_write hs hp, writeBytes, hmark, foldWrite]

/-- R171: a line without entry is left without one, and its writer is told. -/
theorem finishTxn_written (hd : dirFind s q.line = none) (hop : q.req.op = .coh .wrLine) :
    finishTxn q [] false s = vReply q.req cmpCmp cOk (dropTxn q.line s) := by
  have hd' : dirFind (modVtx (fun v => { v with txns := v.txns.filter (·.line != q.line) }) s) q.line = none := hd
  simp only [finishTxn, hop, hd']
  rfl

/-! ### An atomic (R178) -/

/-- The transaction is port `p`'s FETCH_ADD of the 64-bit operand `v`. -/
structure FetchAdd (q : VTxn) (p node tag v : Nat) : Prop where
  op : q.req.op = .coh .atomic
  mark : q.req.mark = false
  atom : q.req.atom = some (.fetchAdd, 1, v, 0)
  who : q.req.who = .port p node tag

theorem vMemDone_atomic (h : AtMemory s l q) (hop : q.req.op = .coh .atomic) (hw : winOf s l = none)
    (hs : serveCpl s (l * 128 / pageBytes) true = none) (hp : (page s (l * 128 / pageBytes)).st = .resident) :
    vMemDone l s = vAfter q (applyAtomic q [q.req] (usePage (l * 128 / pageBytes) s)) := by
  have hwin : winOf (usePage (l * 128 / pageBytes) s) l = none := hw
  simp [vMemDone, h.txn, h.mem, h.retryAt, h.data, h.dirty, hop, needsMem, lineReady_write hs hp, hwin]

theorem finishTxn_atomic (hd : dirFind s q.line = none) (hop : q.req.op = .coh .atomic) : finishTxn q [] false s = dropTxn q.line s := by
  have hd' : dirFind (modVtx (fun v => { v with txns := v.txns.filter (·.line != q.line) }) s) q.line = none := hd
  simp only [finishTxn, hop, hd']
  rfl

theorem readPoisoned_clean {off len : Nat} (h : Clean s off len) : readPoisoned s off len = false := by
  refine List.any_eq_false.2 fun b hb => ?_
  obtain ⟨hbad, hbp, hpm⟩ := clean_iff.1 h b hb
  simp [hbad, hbp, hpm]

/-- The sum that a FETCH_ADD leaves. -/
def added (old v : Nat) : Nat := (old + v % 2 ^ 64) % 2 ^ 64

/-- R178: the value is read, its sum is written, and the requester is told the value. -/
theorem applyAtomic_adds (h : FetchAdd q p node tag v) (hdata : q.data = none) (hc : Clean s (q.line * 128 + q.req.off) 8) :
    applyAtomic q [q.req] s =
      (let old := memWord s.mem (q.line * 128 + q.req.off)
       let (t, k) := foldWrite q.req.part (vFold q.req) q.req.compress false (q.line * 128 + q.req.off) (toLE 8 (added old v)) s
       if k.status != .ok then finishTxn q [] true t
       else finishTxn q [] false (vReply q.req cmpCmp (cVal old) t)) := by
  obtain ⟨hop, hmark, hatom, hwho⟩ := h
  have hread := foldRead_unpoisoned (part := q.req.part) (q := vFold q.req) (readPoisoned_clean hc)
  simp [applyAtomic, hdata, hmark, hatom, typeSize, hread, cData, applyMembers, atomApply, foldWrite, added, memWord]

/-- A FETCH_ADD of line `l` ended in `t`: its sum stands at the byte `a` in place of `old`, which the port is told. -/
structure AddEnds (a old v p node tag : Nat) (s t : State) : Prop where
  sum : memBytes t.mem a 8 = toLE 8 (added old v)
  rest : ∀ b, b < a ∨ a + 8 ≤ b → memRead t.mem b = memRead s.mem b
  ended : t.vtx.txns = []
  wins : t.vtx.wins = s.vtx.wins
  held : t.vtx.held = s.vtx.held
  told : Told s t (.port p node tag) { value := old, aux := 5 }
  frame : Only [.vtx, .fld, .mem, .out] s t

theorem applyAtomic_ends (h : FetchAdd q p node tag v) (ht : s.vtx.txns = [q]) (hl : q.line = l) (hdata : q.data = none)
    (hd : dirFind s l = none) (hc : Clean s (l * 128 + q.req.off) 8) (hm : Memory.wf s.mem = true) :
    AddEnds (l * 128 + q.req.off) (memWord s.mem (l * 128 + q.req.off)) v p node tag s (applyAtomic q [q.req] s) := by
  subst hl
  generalize hold : memWord s.mem (q.line * 128 + q.req.off) = old
  have hlen : (toLE 8 (added old v)).length = 8 := length_toLE 8 _
  obtain ⟨u, hu, hframe, hbytes⟩ := foldWrite_clean (part := q.req.part) (r := vFold q.req) (compress := q.req.compress)
    (off := q.line * 128 + q.req.off) (data := toLE 8 (added old v)) (by rw [hlen]; exact hc) hm
  have hvtx : u.vtx = s.vtx := hframe .vtx (by decide)
  have hwins : u.vtx.wins = s.vtx.wins := congrArg Vertex.wins hvtx
  have hheld : u.vtx.held = s.vtx.held := congrArg Vertex.held hvtx
  have happly : applyAtomic q [q.req] s = dropTxn q.line (emit (.cpl (.port p node tag) { cVal old with aux := cmpCmp }) u) := by
    have hentry : dirFind (vReply q.req cmpCmp (cVal old) u) q.line = none := by
      rw [vReply_port h.who]
      exact (dirFind_of_dir (congrArg Vertex.dir hvtx) _).trans hd
    rw [applyAtomic_adds h hdata hc, hold]
    dsimp only
    rw [hu]
    change finishTxn q [] false _ = _
    rw [finishTxn_atomic hentry h.op, vReply_port h.who]
  obtain ⟨htold, honly⟩ := told_after (who := .port p node tag) (c := { cVal old with aux := cmpCmp }) hframe (by decide)
  have hstored := memBytes_laidOver hbytes
  rw [hlen] at hstored
  rw [happly]
  refine ⟨hstored, fun b hb => (hbytes b).trans (laidOver_outside (by rwa [hlen])), ?_, hwins, hheld, htold,
    (honly.seq (only_dropTxn _ _)).mono (by decide)⟩
  exact dropTxn_single (q := q) ((congrArg Vertex.txns hvtx).trans ht) rfl

/-! ### Memory answers -/

/-- R170: the reader is granted the line exclusively, with its bytes. -/
theorem read_grantsExclusive (h : AtMemory s l q) (hf : q.fwd = false) (hg : q.grant = false) (hop : q.req.op = .coh .rdShared)
    (hpriv : q.req.priv = true) (hcomb : q.req.comb = false) (hrl : q.req.line = l) (hwho : q.req.who = .port p node tag)
    (hw : winOf s l = none) (hd : dirFind s l = some (i, e)) (hc : e.coarse = false) (hp : e.ptrs = []) (ho : e.own = false)
    (hs : serveCpl s (l * 128 / pageBytes) false = none) (hr : readPoisoned s (l * 128) 128 = false) :
    Answers (.memoryAccessComplete (.line l) .good []) s fun t =>
      t.vtx.txns = [] ∧ (t.vtx.dir.get i).own = true ∧ (t.vtx.dir.get i).ptrs = [q.req.agent] ∧
      t.vtx.granted.head? = some (q.req.agent, l, q.req.tag) ∧
      Told s t (.port p node tag) { data := memBytes s.mem (l * 128) 128, value := l * 128, aux := 1 } ∧
      t.pln.pages = s.pln.pages ∧ Only [.vtx, .pln, .out] s t := by
  have hl := h.line
  have hend : vMemDone l s = noteGrant q.req (emit (.cpl (.port p node tag) { data := memBytes s.mem (l * 128) 128, value := l * 128, aux := 1 })
      (putEntry i { restEntry q e with own := true, ptrs := [q.req.agent] } (dropTxn l (usePage (l * 128 / pageBytes) s)))) := by
    rw [vMemDone_exclusive h hop hf hg hw hs hr,
      finishTxn_exclusive (s := usePage (l * 128 / pageBytes) s) (hl.symm ▸ hd) hop hf hpriv hcomb hc hp ho, vReply_port hwho, hl]
    exact h.idle rfl
  have hput := putEntry_holds (i := i) (e := { restEntry q e with own := true, ptrs := [q.req.agent] })
    (dropTxn l (usePage (l * 128 / pageBytes) s)) (List.cons_ne_nil _ _)
  refine ⟨_, h.completes, ?_⟩
  rw [hend]
  refine ⟨dropTxn_single (s := usePage (l * 128 / pageBytes) s) h.only hl, congrArg DirEnt.own hput, congrArg DirEnt.ptrs hput, ?_, rfl, rfl, ?_⟩
  · rw [← hrl]
    rfl
  · exact ((((only_usePage _ s).seq ((only_dropTxn l _).trans (only_putEntry i _ _))).seq (only_emit _ _)).seq (only_modVtx _ _)).mono (by decide)

theorem wrLine_stores (h : AtMemory s l q) (hop : q.req.op = .coh .wrLine) (hmark : q.req.mark = false) (hlen : q.req.data.length = 128)
    (hwho : q.req.who = .port p node tag) (hd : dirFind s l = none) (hs : serveCpl s (l * 128 / pageBytes) true = none)
    (hp : (page s (l * 128 / pageBytes)).st = .resident) (hc : Clean s (l * 128) 128) (hm : Memory.wf s.mem = true) :
    Answers (.memoryAccessComplete (.line l) .good []) s fun t =>
      memBytes t.mem (l * 128) 128 = q.req.data ∧ (∀ a, a < l * 128 ∨ l * 128 + 128 ≤ a → memRead t.mem a = memRead s.mem a) ∧
      t.vtx.txns = [] ∧ t.vtx.dir = s.vtx.dir ∧ Told s t (.port p node tag) { aux := 5 } ∧ t.pln.pages = s.pln.pages ∧
      Only [.vtx, .pln, .fld, .mem, .out] s t := by
  obtain ⟨u, hu, hframe, hbytes⟩ := foldWrite_clean (s := usePage (l * 128 / pageBytes) s) (part := q.req.part) (r := vFold q.req)
    (compress := q.req.compress) (off := l * 128) (data := q.req.data) (by rw [hlen]; exact hc) hm
  have hl := h.line
  have hframe' := (only_usePage (l * 128 / pageBytes) s).seq hframe
  have hvtx : u.vtx = s.vtx := hframe' .vtx (by decide)
  have hdir : u.vtx.dir = s.vtx.dir := congrArg Vertex.dir hvtx
  have hheld : u.vtx.held = s.vtx.held := congrArg Vertex.held hvtx
  have hpln : u.pln = (usePage (l * 128 / pageBytes) s).pln := hframe .pln (by decide)
  have hpages : u.pln.pages = s.pln.pages := (congrArg Plane.pages hpln).trans (by rfl)
  have hend : vMemDone l s = emit (.cpl (.port p node tag) { aux := 5 }) (dropTxn l u) := by
    rw [vMemDone_wrLine h hop hmark hs hp, hu]
    change vAfter q (finishTxn q [] false u) = _
    rw [finishTxn_written ((dirFind_of_dir hdir _).trans (hl.symm ▸ hd)) hop, vReply_port hwho, hl]
    exact h.idle hheld
  have hstored := memBytes_laidOver hbytes
  rw [hlen] at hstored
  obtain ⟨htold, honly⟩ := told_after (who := .port p node tag) (c := { aux := 5 }) (hframe'.seq (only_dropTxn l u)) (by decide)
  refine ⟨_, h.completes, ?_⟩
  rw [hend]
  exact ⟨hstored, fun a ha => (hbytes a).trans (laidOver_outside (by rwa [hlen])),
    dropTxn_single ((congrArg Vertex.txns hvtx).trans h.only) hl, hdir, htold, hpages,
    honly.mono (by decide)⟩

theorem atomic_adds (h : AtMemory s l q) (ha : FetchAdd q p node tag v) (hw : winOf s l = none) (hd : dirFind s l = none)
    (hs : serveCpl s (l * 128 / pageBytes) true = none) (hp : (page s (l * 128 / pageBytes)).st = .resident)
    (hc : Clean s (l * 128 + q.req.off) 8) (hm : Memory.wf s.mem = true) :
    Answers (.memoryAccessComplete (.line l) .good []) s fun t =>
      AddEnds (l * 128 + q.req.off) (memWord s.mem (l * 128 + q.req.off)) v p node tag (usePage (l * 128 / pageBytes) s) t := by
  have hends := applyAtomic_ends (s := usePage (l * 128 / pageBytes) s) ha h.only h.line h.data hd hc hm
  refine ⟨_, h.completes, ?_⟩
  rw [vMemDone_atomic h ha.op hw hs hp, h.idle hends.held]
  exact hends

end Sys2Proof.Machine
end

section
/-!
Queued requests and combining windows (R173, R177, R179).
-/
namespace Sys2Proof.Machine

variable {s : State} {q : VTxn} {r : VReq} {w : VWin} {l p node tag v : Nat}

/-! ### The queue of a line -/

/-- R173: a queued request starts; a read that is not cached asks memory. -/
theorem lineQueueStart_starts (hq : s.vtx.queue = [r]) (hl : r.line = l) (hb : busyLine s l = false) (hop : r.op = .coh .rdCur)
    (hc : r.comb = false) (hd : dirFind s l = none) : Answers (.lineQueueStart l) s fun t =>
      t.vtx.queue = [] ∧ t.vtx.txns = s.vtx.txns ++ [{ line := l, req := r, since := s.ft, mem := true, memSince := s.ft }] ∧
      t.vtx.dir = s.vtx.dir ∧ Only [.vtx, .arc] s t := by
  subst hl
  generalize hu : modVtx (fun v => { v with queue := v.queue.erase r }) s = u
  have hframe : Only [.vtx] s u := hu ▸ only_modVtx _ s
  have hexec : exec (.lineQueueStart r.line) s = .next (vStart false r u) := by
    simp [exec, execLineQueueStart, hb, hq, ← hu]
  have hnone : dirFind u r.line = none := (dirFind_of_dir (by rw [← hu]; rfl) _).trans hd
  have hstart := vStart_asks (fresh := false) (fromOwner_none hnone) (by simp [joinable, hc]) (by simp [hop, caches])
    (by rw [hnone]; rfl : snoopsFor u r _ = ([], false))
  have hvtx : (startNoted r u).vtx = u.vtx := only_startNoted r u .vtx (by decide)
  have hft : u.ft = s.ft := hframe .ft (by decide)
  refine ⟨_, hexec, ?_⟩
  rw [hstart, hft]
  refine ⟨?_, ?_, ?_, ((hframe.seq (only_startNoted r u)).seq (only_pushTxn _ _)).mono (by decide)⟩
  · exact (congrArg Vertex.queue hvtx).trans (by simp [← hu, hq])
  · exact congrArg (· ++ [_]) ((congrArg Vertex.txns hvtx).trans (by rw [← hu]; rfl))
  · exact (congrArg Vertex.dir hvtx).trans (by rw [← hu]; rfl)

theorem lineQueueStart_busy (hb : busyLine s l = true) : Answers (.lineQueueStart l) s fun t => t = s :=
  ⟨s, if_pos hb, rfl⟩

/-! ### Windows -/

theorem winOf_single (h : s.vtx.wins = [w]) (hl : w.line = l) : winOf s l = some w := by simp [winOf, h, hl]

/-- The state once the window of line `l` is over. -/
def dropWin (l : Nat) (s : State) : State := modVtx (fun v => { v with wins := v.wins.filter (·.line != l) }) s

theorem dropWin_single (h : s.vtx.wins = [w]) (hl : w.line = l) : (dropWin l s).vtx.wins = [] := by simp [dropWin, h, hl]

/-- R177: a read window whose data is at the home is over. -/
theorem closeWin_served {d : List Byte} (h : winOf s l = some w) (ha : w.atomic = false) (hd : w.data = some d) :
    closeWin l s = dropWin l s := by
  simp [closeWin, h, ha, hd, dropWin]

/-- R179: an atomic window whose data is at the home is applied. -/
theorem closeWin_applies (h : winOf s l = some w) (ha : w.atomic = true) (hm : w.members = []) (hq : txnOf s l = some q)
    (hh : q.atHome = true) : closeWin l s = vAfter q (applyAtomic q [q.req] (dropWin l s)) := by
  simp [closeWin, h, ha, hm, hq, hh, dropWin]

/-- With no transaction on its line a window that closes changes the windows. -/
theorem closeWin_wins (h : txnOf s l = none) :
    ∃ ws, (winOf s l = none → ws = s.vtx.wins) ∧ closeWin l s = modVtx (fun v => { v with wins := ws }) s := by
  unfold closeWin
  split
  · exact ⟨s.vtx.wins, fun _ => rfl, rfl⟩
  · next w hw =>
    have hopen : ∀ ws, winOf s l = none → ws = s.vtx.wins := fun ws hn => by rw [hw] at hn; cases hn
    dsimp only
    split
    · rw [h]
      exact ⟨_, hopen _, rfl⟩
    · split <;> exact ⟨_, hopen _, rfl⟩

theorem combineWindowClose_closes {d : List Byte} (hw : s.vtx.wins = [w]) (hl : w.line = l) (ha : w.atomic = false) (hd : w.data = some d)
    (ho : w.opened + 64 ≤ s.ft) : Answers (.combineWindowClose l) s fun t => t.vtx.wins = [] ∧ Only [.vtx] s t := by
  have hwin := winOf_single hw hl
  have hexec : exec (.combineWindowClose l) s = .next (closeWin l s) := by simp [exec, execCombineWindowClose, hwin, ha, ho]
  exact ⟨_, hexec.trans (congrArg _ (closeWin_served hwin ha hd)), dropWin_single hw hl, only_modVtx _ s⟩

theorem atomicWindowClose_adds (hw : s.vtx.wins = [w]) (hl : w.line = l) (ha : w.atomic = true) (hm : w.members = [])
    (ho : w.opened + 64 ≤ s.ft) (ht : s.vtx.txns = [q]) (hql : q.line = l) (hh : q.atHome = true) (hdata : q.data = none)
    (hafter : q.after = none) (hadd : FetchAdd q p node tag v) (hheld : s.vtx.held = []) (hd : dirFind s l = none)
    (hc : Clean s (l * 128 + q.req.off) 8) (hwf : Memory.wf s.mem = true) :
    Answers (.atomicWindowClose l) s fun t =>
      AddEnds (l * 128 + q.req.off) (memWord s.mem (l * 128 + q.req.off)) v p node tag (dropWin l s) t := by
  have hwin := winOf_single hw hl
  have hends := applyAtomic_ends (s := dropWin l s) hadd ht hql hdata hd hc hwf
  have hexec : exec (.atomicWindowClose l) s = .next (closeWin l s) := by simp [exec, execAtomicWindowClose, hwin, ha, ho]
  refine ⟨_, hexec, ?_⟩
  rw [closeWin_applies hwin ha hm (txnOf_single ht hql) hh, vAfter_idle hafter (hends.held.trans hheld)]
  exact hends

theorem atomicWindowClose_early (hw : s.vtx.wins = [w]) (hl : w.line = l) (ho : s.ft < w.opened + 64) :
    Answers (.atomicWindowClose l) s fun t => t = s := by
  refine ⟨s, ?_, rfl⟩
  simp [exec, execAtomicWindowClose, winOf_single hw hl, Nat.not_le.2 ho]

end Sys2Proof.Machine
end

section
/-!
Vertex's commands (R181): FLUSH and DOWNGRADE of one line.
-/
namespace Sys2Proof.Machine

variable {s t u : State} {x : XlReq} {c : QCmd} {e : DirEnt} {w : List Nat} {b i k l pa ctx q node tag : Nat}

/-! ### What a translation reads -/

/-- The state with other jobs of Vertex, and another identity to give next. -/
def withNext (n : Nat) (v : Vertex) (s : State) : State := { s with eng := { s.eng with nextId := n }, vtx := v }

/-- A walk that gives an address reads neither Vertex's state nor the next identity. -/
theorem walkFrom_withNext {x : XlReq} {g off : Nat} {w' : List Nat} (n : Nat) (v : Vertex) (level : Nat) : ∀ table,
    walkFrom x ctx g w' off level table s = (s, .addr pa w k) →
    walkFrom x ctx g w' off level table (withNext n v s) = (withNext n v s, .addr pa w k) := by
  induction level with
  | zero => exact fun _ h => by cases congrArg Prod.snd h
  | succ level ih =>
    intro table h
    have hcheck : ∀ a e, entCheck (withNext n v s) x.part (level + 1) (segType w' == 3) (readPoisoned (withNext n v s) a 8) (x.write || x.atomic) off e =
        entCheck s x.part (level + 1) (segType w' == 3) (readPoisoned s a 8) (x.write || x.atomic) off e := fun _ _ => rfl
    have hmem : (withNext n v s).mem = s.mem := rfl
    rw [walkFrom] at h ⊢
    dsimp only at h ⊢
    rw [hcheck, hmem]
    split at h
    · cases congrArg Prod.snd h
    · cases congrArg Prod.snd h
    · exact ih _ h
    · rw [(Prod.mk.inj h).2]

theorem translate_withNext (h : translate x s = (s, .addr pa w k)) (n : Nat) (v : Vertex) :
    translate x (withNext n v s) = (withNext n v s, .addr pa w k) := by
  have hstage : segStage (withNext n v s) x = segStage s x := rfl
  have hfence : fenceCpl (withNext n v s) .locus x.part = fenceCpl s .locus x.part := rfl
  have hdirect : ∀ w' off, directAns (withNext n v s) x.part w' off (x.write || x.atomic) = directAns s x.part w' off (x.write || x.atomic) :=
    fun _ _ => rfl
  unfold translate at h ⊢
  rw [hstage, hfence]
  cases hs : segStage s x with
  | notPermitted => rw [hs] at h; cases congrArg Prod.snd h
  | bad => rw [hs] at h; cases congrArg Prod.snd h
  | fault f c' g =>
    rw [hs] at h
    cases hf : fenceCpl s .locus x.part <;> rw [hf] at h <;> cases congrArg Prod.snd h
  | ok c' g w' off =>
    rw [hs] at h
    cases hf : fenceCpl s .locus x.part with
    | some d => rw [hf] at h; cases congrArg Prod.snd h
    | none =>
      rw [hf] at h
      dsimp only at h ⊢
      split at h
      · next ht =>
        rw [if_pos ht, hdirect]
        split at h
        · cases congrArg Prod.snd h
        · cases congrArg Prod.snd h
        · rw [(Prod.mk.inj h).2]
      · next ht =>
        rw [if_neg ht]
        exact walkFrom_withNext n v _ _ h

/-! ### A command of one line -/

/-- Queue `q`'s command with operation `op` is taken while the domain is UP and no other is in progress; it names one line, which is
homed here and on which nothing is in progress. -/
structure OneLine (op q : Nat) (s u : State) (c : QCmd) (l : Nat) : Prop where
  taken : takeCmd .vertex q (124 + q) (fun c => bits (c.w 0) 3 0 == op) s = some (c, u)
  up : u.vtx.st = .up
  jobs : u.vtx.jobs = []
  count : vjCount c = 1
  names : ∃ pa w k, translate { part := c.part, asid := bits (c.w 0) 16 5, va := c.w 1, len := 128, engine := true, num := 124 + c.id } u =
    (u, .addr pa w k) ∧ bits pa 63 52 = 0 ∧ l = bits pa 51 0 / 128 ∧ homeLocal u (bits pa 51 0 / pageBytes) = true
  idle : busyLine u l = false

theorem OneLine.op {op : Nat} (h : OneLine op q s u c l) : bits (c.w 0) 3 0 = op :=
  beq_iff_eq.1 (takeCmd_holds (g := fun c => bits (c.w 0) 3 0 == op) h.taken)

theorem txnOf_idle (h : busyLine s l = false) : txnOf s l = none := by
  refine List.find?_eq_none.2 fun y hy hl => ?_
  have hbusy : busyLine s l = true := by
    rw [busyLine, Bool.or_eq_true, List.any_eq_true]
    exact .inl ⟨y, hy, by rw [hl, Bool.true_or]⟩
  rw [h] at hbusy
  cases hbusy

/-- The request of a command's line. -/
def lineReq (c : QCmd) (l : Nat) (u : State) : VReq :=
  { who := .block 7 u.eng.nextId, agent := seqAgent u (124 + c.id), part := c.part, op := vjOp c, line := l }

/-- The state in which a command of one line is in progress, with the windows `ws`. -/
def atLine (c : QCmd) (ws : List VWin) (u : State) : State :=
  withNext (u.eng.nextId + 1) { u.vtx with jobs := [{ id := u.eng.nextId, cmd := c, next := 1 }], wins := ws } u

theorem only_atLine (c : QCmd) (ws : List VWin) (u : State) : Only [.eng, .vtx] u (atLine c ws u) :=
  .of fun p => by cases p <;> simp [SamePart, atLine, withNext]

/-- A command of one line closes the line's window, then it is done with the line, or starts a transaction. -/
theorem vtxServe_line {op : Nat} (h : OneLine op q s u c l) : ∃ ws, (winOf u l = none → ws = u.vtx.wins) ∧
    vtxServe op q s =
      if (snoopsFor u (lineReq c l u) ((dirFind u l).map (·.2))).1.isEmpty && (vjOp c == .downgrade || (dirFind u l).isNone) then
        vjRun { id := u.eng.nextId, cmd := c } 1 1 (atLine c ws u)
      else vStart false (lineReq c l u) (atLine c ws u) := by
  obtain ⟨htake, hup, hjobs, hcount, ⟨pa, w, k, hx, hnode, rfl, hhome⟩, hidle⟩ := h
  have hx' := translate_withNext hx (u.eng.nextId + 1) { u.vtx with jobs := [{ id := u.eng.nextId, cmd := c }] }
  have htxn : txnOf (withNext (u.eng.nextId + 1) { u.vtx with jobs := [{ id := u.eng.nextId, cmd := c, next := 1 }] } u) (bits pa 51 0 / 128) = none :=
    txnOf_idle (s := u) hidle
  obtain ⟨ws, hkept, hws⟩ := closeWin_wins htxn
  refine ⟨ws, hkept, ?_⟩
  have hbusy : busyLine (atLine c ws u) (bits pa 51 0 / 128) = false := hidle
  have hdir : dirFind (atLine c ws u) (bits pa 51 0 / 128) = dirFind u (bits pa 51 0 / 128) := rfl
  have hbegun : modVtx (fun v => { v with jobs := v.jobs ++ [({ id := u.eng.nextId, cmd := c } : VJob)] })
      { u with eng := { u.eng with nextId := u.eng.nextId + 1 } } =
      withNext (u.eng.nextId + 1) { u.vtx with jobs := [{ id := u.eng.nextId, cmd := c }] } u := by
    simp only [modVtx, withNext, hjobs, List.nil_append]
  have hnext : modVtx (fun v => { v with jobs := v.jobs.map fun y => if y.id = u.eng.nextId then { y with next := 0 + 1 } else y })
      (withNext (u.eng.nextId + 1) { u.vtx with jobs := [{ id := u.eng.nextId, cmd := c }] } u) =
      withNext (u.eng.nextId + 1) { u.vtx with jobs := [{ id := u.eng.nextId, cmd := c, next := 1 }] } u := by
    simp [modVtx, withNext]
  have hhome' : homeLocal (withNext (u.eng.nextId + 1) { u.vtx with jobs := [{ id := u.eng.nextId, cmd := c }] } u) (bits pa 51 0 / pageBytes) = true :=
    hhome
  rw [vtxServe, htake]
  dsimp only
  rw [if_neg (by simp [hup]), hbegun, hcount, vjRun]
  dsimp only
  rw [if_neg (by omega), Nat.zero_mul, Nat.add_zero, hx']
  dsimp only
  rw [if_neg (by simp [hnode]), if_neg (by simp [hhome']), hnext, hws]
  change (if busyLine (atLine c ws u) (bits pa 51 0 / 128) = true then _ else _) = _
  rw [if_neg (by simp [hbusy])]
  rfl

/-! ### The command ends -/

/-- A command of a port that names no completion object and that no program issued. -/
structure LinesAsked (c : QCmd) (k node tag : Nat) : Prop where
  req : c.req = .port k node tag
  issuer : c.issuer = none
  plain : bitOf (c.w 0) 4 = false

theorem finishCmd_asked (h : LinesAsked c k node tag) (d : Cpl) (s : State) :
    finishCmd c (vjObj c) d s = emit (.cpl (.port k node tag) d) s := by
  obtain ⟨hreq, hissuer, hplain⟩ := h
  rw [vjObj, hplain, if_neg Bool.false_ne_true, finishCmd_plain c d s hissuer, hreq, reply_port]

/-- R181: with its one line done the command is over, and its requester is told. -/
theorem vjRun_ends {ws : List VWin} (hc : vjCount c = 1) (hr : LinesAsked c k node tag) :
    vjRun { id := u.eng.nextId, cmd := c } 1 1 (atLine c ws u) =
      emit (.cpl (.port k node tag) cOk) (withNext (u.eng.nextId + 1) { u.vtx with jobs := [], wins := ws } u) := by
  rw [vjRun]
  dsimp only
  rw [if_pos (by omega), finishCmd_asked hr]
  simp [atLine, modVtx, withNext]

/-- R181: the line of no holder has nothing to change. -/
theorem unheld_completes {op : Nat} (h : OneLine op q s u c l) (hw : winOf u l = none) (hd : dirFind u l = none) (hr : LinesAsked c k node tag) :
    Told u (vtxServe op q s) (.port k node tag) cOk ∧ (vtxServe op q s).vtx = u.vtx ∧ Only [.eng, .vtx, .out] u (vtxServe op q s) := by
  obtain ⟨ws, hws, hrun⟩ := vtxServe_line h
  rw [hd, hws hw] at hrun
  have hkept : { u.vtx with jobs := [], wins := u.vtx.wins } = u.vtx := by rw [← h.jobs]
  rw [hrun, if_pos (by simp [snoopsFor]), vjRun_ends h.count hr, hkept]
  obtain ⟨htold, honly⟩ := told_after (l := [.eng, .vtx]) (s := u) (u := withNext (u.eng.nextId + 1) u.vtx u)
    (who := .port k node tag) (c := cOk) (.of fun p => by cases p <;> simp [SamePart, withNext]) (by decide)
  exact ⟨htold, rfl, honly⟩

/-- R181: the owner of a line is invalidated before its command goes on. -/
theorem flush_invalidates (h : OneLine 1 q s u c l) (hd : dirFind u l = some (i, e)) (ho : e.own = true) (hc : e.coarse = false)
    (hp : e.ptrs = [b]) (hg : u.vtx.granted = []) : Answers (.vtxFlush q) s fun t =>
      (∃ y ∈ t.vtx.txns, y.line = l ∧ y.req.op = .flush ∧ y.snoops = [(b, .inv)] ∧ y.mem = false) ∧ t.vtx.jobs.map (fun j => j.cmd) = [c] ∧
      t.vtx.dir = u.vtx.dir ∧ t.out = .msg .cohSnoop b [2, l * 128, 0, u.vtx.gen, 0, seqAgent u (124 + c.id), 0] [] :: u.out ∧
      Only [.eng, .vtx, .arc, .out] u t := by
  obtain ⟨ws, -, hrun⟩ := vtxServe_line h
  have hop : vjOp c = .flush := by rw [vjOp, h.op]; rfl
  have hreq : (lineReq c l u).op = .flush := hop
  have hsnoops : ∀ v : State, snoopsFor v (lineReq c l u) (some e) = ([(b, .inv)], false) := fun v => by
    simp [snoopsFor, hreq, holders_exact hc, hp, ho]
  have hown : fromOwner (atLine c ws u) (lineReq c l u) = false := by simp [fromOwner, hreq]
  have hentry : dirFind (atLine c ws u) (lineReq c l u).line = some (i, e) := hd
  have hstart := vStart_snoops (fresh := false) hown (show joinable (lineReq c l u) = false from rfl)
    (by rw [hentry]; rfl) (by rw [hentry]; exact hsnoops _) (show (atLine c ws u).vtx.granted = [] from hg)
  have hnoted := only_startNoted (lineReq c l u) (atLine c ws u)
  have hvtx : (startNoted (lineReq c l u) (atLine c ws u)).vtx = (atLine c ws u).vtx := hnoted .vtx (by decide)
  have hdir : (startNoted (lineReq c l u) (atLine c ws u)).vtx.dir = u.vtx.dir := (congrArg Vertex.dir hvtx).trans (by rfl)
  have hout : (startNoted (lineReq c l u) (atLine c ws u)).out = u.out := hnoted .out (by decide)
  rw [hd, Option.map_some, hsnoops, if_neg (by simp), hstart] at hrun
  refine ⟨vtxServe 1 q s, rfl, ?_⟩
  rw [hrun]
  refine ⟨⟨_, List.mem_append_right _ (List.mem_singleton_self _), rfl, hreq, rfl, rfl⟩, ?_, hdir, ?_, ?_⟩
  · exact congrArg (fun v : Vertex => v.jobs.map fun j => j.cmd) hvtx
  · rw [← hout]
    rfl
  · exact (((only_atLine c ws u).seq hnoted).seq ((only_send _ _ _ _).seq (only_pushTxn _ _))).mono (by decide)

/-! ### The domain is not UP (R187) -/

theorem only_engineDown (n : Nat) (s : State) : Only [.vtx] s (engineDown n s) := only_modVtx _ s

theorem engineDown_restart (n : Nat) (s : State) : n ∈ (engineDown n s).vtx.restart := by
  by_cases h : n ∈ s.vtx.restart <;> simp [engineDown, h]

theorem flush_domainDown (ht : takeCmd .vertex q (124 + q) (fun c => bits (c.w 0) 3 0 == 1) s = some (c, u)) (hs : u.vtx.st ≠ .up)
    (hr : LinesAsked c k node tag) : Answers (.vtxFlush q) s fun t =>
      Told u t (.port k node tag) cDown ∧ c.part ∈ t.vtx.restart ∧ Only [.vtx, .out] u t := by
  have hrun : vtxServe 1 q s = emit (.cpl (.port k node tag) cDown) (engineDown c.part u) := by
    rw [vtxServe, ht]
    dsimp only
    rw [if_pos (by simpa using hs), finishCmd_asked hr]
  obtain ⟨htold, honly⟩ := told_after (who := .port k node tag) (c := cDown) (only_engineDown c.part u) (by decide)
  refine ⟨vtxServe 1 q s, rfl, ?_⟩
  rw [hrun]
  exact ⟨htold, engineDown_restart c.part u, honly⟩

end Sys2Proof.Machine
end

section
/-!
The transactions, windows and commands of Vertex (O41).
-/
namespace Sys2Proof.Machine

/-- Settles O41: each clause is the end of a transaction at memory, the start of a queued request, the close of a window, or a command of
one line. -/
theorem transactions : Obligations.Transactions := by
  unfold Obligations.Transactions
  refine ⟨?read, ?write, ?atomic, ?queue, ?busy, ?combineClose, ?atomicClose, ?early, ?flush, ?downgrade, ?ownedFlush, ?down⟩
  case read =>
    intro s l q p node tag i e ht hl hm hr hdata hy hf hg ha hop hpriv hcomb hrl hwho hw hheld hd hc hp ho hs hpoison
    exact read_grantsExclusive ⟨ht, hl, hm, hr, hdata, hy, ha, hheld⟩ hf hg hop hpriv hcomb hrl hwho hw hd hc hp ho hs hpoison
  case write =>
    intro s l q p node tag ht hl hm hr hdata hy ha hop hmark hlen hwho hheld hd hs hp hc hwf
    exact wrLine_stores ⟨ht, hl, hm, hr, hdata, hy, ha, hheld⟩ hop hmark hlen hwho hd hs hp hc hwf
  case atomic =>
    intro s l q p node tag v old ht hl hm hr hdata hy ha hop hmark hatom hwho hw hheld hd hs hp hc hwf hold
    obtain ⟨t, hexec, hsum, hrest, hended, -, -, htold, hframe⟩ :=
      atomic_adds ⟨ht, hl, hm, hr, hdata, hy, ha, hheld⟩ ⟨hop, hmark, hatom, hwho⟩ hw hd hs hp hc hwf
    subst hold
    exact ⟨t, hexec, hsum, hrest, hended, htold, ((only_usePage _ s).seq hframe).mono (by decide)⟩
  case queue =>
    intro s l r hq hl hb hop hc hd
    exact lineQueueStart_starts hq hl hb hop hc hd
  case busy =>
    intro s l r _ _ hb
    exact lineQueueStart_busy hb
  case combineClose =>
    intro s l w d hw hl ha hd ho
    exact combineWindowClose_closes hw hl ha hd ho
  case atomicClose =>
    intro s l w q p node tag v old hw hl ha hm ho ht hql hh hdata hafter hop hmark hatom hwho hheld hd hc hwf hold
    obtain ⟨t, hexec, hsum, hrest, hended, hwins, -, htold, hframe⟩ :=
      atomicWindowClose_adds hw hl ha hm ho ht hql hh hdata hafter ⟨hop, hmark, hatom, hwho⟩ hheld hd hc hwf
    subst hold
    exact ⟨t, hexec, hsum, hrest, hended, hwins.trans (dropWin_single hw hl), htold, ((only_modVtx _ s).seq hframe).mono (by decide)⟩
  case early =>
    intro s l w hw hl ho
    exact atomicWindowClose_early hw hl ho
  case flush =>
    intro s u q c pa w x l k node tag ht hup hj hn _ hx hnode hl hh hb hw hd hreq hissuer hplain
    exact ⟨_, rfl, unheld_completes ⟨ht, hup, hj, hn, ⟨pa, w, x, hx, hnode, hl, hh⟩, hb⟩ hw hd ⟨hreq, hissuer, hplain⟩⟩
  case downgrade =>
    intro s u q c pa w x l k node tag ht hup hj hn _ hx hnode hl hh hb hw hd hreq hissuer hplain
    exact ⟨_, rfl, unheld_completes ⟨ht, hup, hj, hn, ⟨pa, w, x, hx, hnode, hl, hh⟩, hb⟩ hw hd ⟨hreq, hissuer, hplain⟩⟩
  case ownedFlush =>
    intro s u q c pa w x l i e b ht hup hj hn _ hx hnode hl hh hb hd ho hc hp hg
    exact flush_invalidates ⟨ht, hup, hj, hn, ⟨pa, w, x, hx, hnode, hl, hh⟩, hb⟩ hd ho hc hp hg
  case down =>
    intro s u q c k node tag ht hs hreq hissuer hplain
    exact flush_domainDown ht hs ⟨hreq, hissuer, hplain⟩

end Sys2Proof.Machine
end

section
/-!
A port's coherent request on its way to the ordering point (R28, R157, R158, R170): its segment gives the byte, and Vertex takes it.
-/
namespace Sys2Proof.Machine

variable {s : State} {p node tag n a l len : Nat} {op : CohOp} {r : CohReq} {q : MemReq} {v : VReq} {data : List Byte} {mask : List Bool}
  {atom : Option (AtomOp × Nat × Nat × Nat)}

/-! ### The request at Locus -/

/-- The memory request that a coherent request of port node `node` of partition `n` is. -/
def cohMemReq (s : State) (op : CohOp) (r : CohReq) (data : List Byte) (mask : List Bool) (atom : Option (AtomOp × Nat × Nat × Nat))
    (len node n : Nat) : MemReq :=
  { id := s.loc.nextReq, who := r.who, part := n, endpoint := node, asid := r.asid,
    va := if atom.isSome then r.va else r.va - r.va % 128, len := len, kind := .coh op, data := data, mask := mask, atom := atom,
    mark := r.mark, since := s.ft, gen := (s.cmp.fences.get Block.locus.code).gen }

/-- The state in which Locus holds one more request. -/
def holding (q : MemReq) (s : State) : State := modLoc (fun l => { l with reqs := l.reqs ++ [q], nextReq := l.nextReq + 1 }) s

/-- R157: a request that its port may make is translated. -/
theorem cohMsg_translates (hwho : r.who = .port p node tag) (hfar : r.far = none) (hl : AtLine s p node n l)
    (hc : (op == .rdShared || op == .rdOwn || op == .upgrade) = true → (port s p).coherent = true) (hlen : 0 < len ∧ len ≤ 4096) :
    cohMsg op r data mask atom len false s =
      startXlate (cohMemReq s op r data mask atom len node n) (holding (cohMemReq s op r data mask atom len node n) s) := by
  obtain ⟨hpart, hn, hnode, -, -, hx, -⟩ := hl
  have hcach : ((op == .rdShared || op == .rdOwn || op == .upgrade) && !(port s p).coherent) = false := by
    cases hop : (op == .rdShared || op == .rdOwn || op == .upgrade)
    · rfl
    · simp [hc hop]
  have hmem : p ∉ s.vtx.excluded := by simpa using hx
  have hat : nodeAt (holding (cohMemReq s op r data mask atom len node n) s) p node = some n := hnode
  simp only [cohMemReq, hwho, holding] at hat ⊢
  simp [cohMsg, hfar, hwho, hcach, hmem, memMsg, hpart, hat, Nat.not_le.2 hn, Nat.not_lt.2 hlen.2, Nat.pos_iff_ne_zero.1 hlen.1]

/-- What it takes for a request to name a byte: its segment is DIRECT and COHERENT, and the byte is one of the pool, homed here. -/
theorem cohByte_some {x : XlReq} (h : cohByte s x = some a) : ∃ c g w off e pa,
    segStage s x = .ok c g w off ∧ segType w = 2 ∧ segCoherent w = true ∧ segCombinable w = false ∧
    directAns s x.part w off (x.write || x.atomic) = (.leaf e, pa) ∧ bits pa 63 52 = 0 ∧
    homeLocal s (bits pa 51 0 / pageBytes) = true ∧ bits pa 51 0 = a := by
  unfold cohByte at h
  split at h
  · next c g w off hs =>
    split at h
    · next hseg =>
      split at h
      · next e pa hd =>
        split at h
        · next hpa =>
          simp only [Bool.and_eq_true, decide_eq_true_eq, Bool.not_eq_true'] at hseg hpa
          obtain ⟨⟨htype, hcoh⟩, hcomb⟩ := hseg
          exact ⟨c, g, w, off, e, pa, hs, htype, hcoh, hcomb, hd, hpa.1, hpa.2, Option.some.inj h⟩
        · cases h
      · cases h
    · cases h
  · cases h

/-- R28: a coherent request for a byte homed here goes to Vertex. -/
theorem route_coherent {pa leaf level : Nat} {w : List Nat} (hk : q.kind = .coh op) (hnode : bits pa 63 52 = 0) (hcoh : segCoherent w = true)
    (hup : s.vtx.st = .up) (hhome : homeLocal s (bits pa 51 0 / pageBytes) = true) :
    route q pa w leaf level s = toVertex { q with pa := pa, seg := w, since := s.ft } w s := by
  simp [route, hk, hnode, hcoh, hup, hhome]

/-- R28, R157: a coherent request whose segment is DIRECT and COHERENT goes to Vertex with its byte. -/
theorem startXlate_coherent (hb : cohByte s (xlOf q) = some a) (hk : q.kind = .coh op) (hpage : q.va % 4096 + q.len ≤ 4096)
    (hf : fenceCpl s .locus q.part = none) (hup : s.vtx.st = .up) : ∃ c w pa, segCombinable w = false ∧ bits pa 51 0 = a ∧
      startXlate q (holding q s) =
        toVertex { q with ctx := c, seg := w, pa := pa, since := s.ft } w (setReq { q with ctx := c, seg := w } (holding q s)) := by
  obtain ⟨c, g, w, off, e, pa, hs, htype, hcoh, hcomb, hd, hnode, hhome, hpa⟩ := cohByte_some hb
  refine ⟨c, w, pa, hcomb, hpa, ?_⟩
  have hstage : segStage (holding q s) (xlOf q) = .ok c g w off := hs
  have hfence : fenceCpl (holding q s) .locus q.part = none := hf
  have hdirect : directAns (setReq { q with ctx := c, seg := w } (holding q s)) q.part w off ((xlOf q).write || (xlOf q).atomic) =
      (.leaf e, pa) := hd
  have hover : (!bitOf q.va 59 && decide (4096 < q.va % 4096 + q.len)) = false := by simp [Nat.not_lt.2 hpage]
  rw [startXlate]
  dsimp only
  rw [hstage, hfence, hover, Bool.false_and]
  dsimp only
  rw [if_neg Bool.false_ne_true, if_pos htype, hdirect]
  exact route_coherent (s := setReq { q with ctx := c, seg := w } (holding q s)) hk hnode hcoh hup hhome

/-! ### The request at Vertex -/

/-- Vertex's request for the memory request `q` of port `p`. -/
def vReqOf (s : State) (op : CohOp) (q : MemReq) (w : List Nat) (p tag : Nat) : VReq :=
  { agent := portAgent s p, part := q.part, mark := q.mark, comb := segCombinable w, priv := (port s p).priv, compress := segCompress w,
    who := q.who, ctx := q.ctx, rid := some q.id, tag := tag, op := .coh op, line := bits q.pa 51 0 / 128, off := bits q.pa 51 0 % 128,
    data := q.data, mask := q.mask, atom := q.atom }

theorem toVertex_coherent (hk : q.kind = .coh op) (hwho : q.who = .port p node tag) (w : List Nat) (s : State) :
    toVertex q w s = vAccept (vReqOf s op q w p tag) (modLoc (fun l => { l with reqs := l.reqs.filter (·.id != q.id) }) s) := by
  simp only [toVertex, hk, hwho, vReqOf]

/-- The state in which Locus has given an identity away. -/
def nextReqTaken (s : State) : State := modLoc (fun l => { l with nextReq := l.nextReq + 1 }) s

/-- Once a request is Vertex's, Locus holds those it held before. -/
theorem holding_released {q' : MemReq} (h : ∀ r ∈ s.loc.reqs, r.id ≠ s.loc.nextReq) (hq : q.id = s.loc.nextReq) (hq' : q'.id = s.loc.nextReq) :
    modLoc (fun l => { l with reqs := l.reqs.filter (·.id != q'.id) }) (setReq q' (holding q s)) = nextReqTaken s := by
  have hmap : s.loc.reqs.map (fun x => if x.id = s.loc.nextReq then q' else x) = s.loc.reqs :=
    (List.map_congr_left fun x hx => if_neg (h x hx)).trans (List.map_id _)
  have hfilter : s.loc.reqs.filter (fun x => x.id != s.loc.nextReq) = s.loc.reqs :=
    List.filter_eq_self.2 fun x hx => by simpa using h x hx
  simp only [nextReqTaken, modLoc, setReq, holding, hq', List.map_append, hmap, List.map_cons, List.map_nil, hq, if_true, List.filter_append,
    hfilter, List.filter_cons, bne_self_eq_false, Bool.false_eq_true, if_false, List.filter_nil, List.append_nil]

/-- R170: the pointer of a line moves on with each request that Vertex takes. -/
def pointed (v : VReq) (s : State) : State := modVtx (fun x => { x with ptrs := x.ptrs.set (v.line % 16) ((v.agent + 1) % 1024) }) s

/-- R165, R173: a request starts at once where its line has no window, no transaction and no queue, and there is a tracker. -/
theorem vAccept_starts (hup : s.vtx.st = .up) (hx : (localPort s v.agent).any (fun p => s.vtx.excluded.contains p) = false)
    (hw : winOf s v.line = none) (hr : trackerRoom s v.part = true) (hb : busyLine s v.line = false)
    (hq : s.vtx.queue.any (·.line == v.line) = false) : vAccept v s = vStart true { v with at_ := s.ft } (pointed v s) := by
  have hclose : closeWin v.line (pointed v s) = pointed v s := by
    have hwin : winOf (pointed v s) v.line = none := hw
    simp [closeWin, hwin]
  have hr' : trackerRoom (pointed v s) v.part = true := hr
  have hb' : busyLine (pointed v s) v.line = false := hb
  have hq' : (pointed v s).vtx.queue.any (·.line == v.line) = false := hq
  rw [vAccept, hw, hx, hup]
  dsimp only
  have hpointed : modVtx (fun x => { x with ptrs := x.ptrs.set (v.line % 16) ((v.agent + 1) % 1024) }) s = pointed v s := rfl
  rw [hpointed, hclose, hr', hb', hq']
  rfl

/-- A port's agent is not excluded where its gang's lower port is not. -/
theorem portAgent_member (h : s.vtx.excluded.contains ((port s p).gang.getD p) = false) :
    (localPort s (portAgent s p)).any (fun p => s.vtx.excluded.contains p) = false := by
  rw [localPort, portAgent, Nat.add_sub_cancel_left]
  split
  · exact h
  · rfl

/-- The request `v` is that of port `p`'s node `node`, of partition `n`, for the byte `a`, with what it brings. -/
structure Arrived (s : State) (p node tag n a : Nat) (op : CohOp) (data : List Byte) (mask : List Bool)
    (atom : Option (AtomOp × Nat × Nat × Nat)) (v : VReq) : Prop where
  who : v.who = .port p node tag
  agent : v.agent = portAgent s p
  part : v.part = n
  tag : v.tag = tag
  op : v.op = .coh op
  line : v.line = a / 128
  off : v.off = a % 128
  comb : v.comb = false
  data : v.data = data
  mask : v.mask = mask
  atom : v.atom = atom

/-- R157: the requests that need the right to write. -/
def CohOp.writes : CohOp → Bool
  | .rdOwn | .upgrade | .wrLine | .wrPart => true
  | _ => false

theorem xlOf_cohMemReq (hwho : r.who = .port p node tag) : xlOf (cohMemReq s op r data mask atom len node n) =
    { part := n, endpoint := node, asid := r.asid, va := if atom.isSome then r.va else r.va - r.va % 128, len := len,
      write := op.writes, atomic := op == .atomic, num := node, tag := tag } := by
  simp only [xlOf, cohMemReq, hwho]
  cases op <;> rfl

/-- A coherent request that reaches a line on which nothing is in progress starts there. -/
theorem cohMsg_starts (hwho : r.who = .port p node tag) (hfar : r.far = none) (hl : AtLine s p node n (a / 128))
    (hc : (op == .rdShared || op == .rdOwn || op == .upgrade) = true → (port s p).coherent = true) (hlen : 0 < len ∧ len ≤ 4096)
    (hpage : (if atom.isSome then r.va else r.va - r.va % 128) % 4096 + len ≤ 4096)
    (hb : cohByte s
      { part := n, endpoint := node, asid := r.asid, va := if atom.isSome then r.va else r.va - r.va % 128, len := len,
        write := op.writes, atomic := op == .atomic, num := node, tag := tag } = some a) :
    ∃ v, Arrived s p node tag n a op data mask atom v ∧ cohMsg op r data mask atom len false s = vStart true v (pointed v (nextReqTaken s)) := by
  have hrun := cohMsg_translates (data := data) (mask := mask) (atom := atom) hwho hfar hl hc hlen
  rw [← xlOf_cohMemReq (s := s) (data := data) (mask := mask) hwho] at hb
  generalize hq : cohMemReq s op r data mask atom len node n = q at hb hrun
  obtain ⟨-, -, -, hf, hup, -, hg, hw, hr, hbusy, hqueue, hfresh⟩ := hl
  have hid : q.id = s.loc.nextReq := by rw [← hq]; rfl
  have hkind : q.kind = .coh op := by rw [← hq]; rfl
  have hpart : q.part = n := by rw [← hq]; rfl
  have hqwho : q.who = .port p node tag := by rw [← hq]; exact hwho
  have hinPage : q.va % 4096 + q.len ≤ 4096 := by rw [← hq]; exact hpage
  have hdata : q.data = data ∧ q.mask = mask ∧ q.atom = atom := by rw [← hq]; exact ⟨rfl, rfl, rfl⟩
  obtain ⟨hdata, hmask, hatom⟩ := hdata
  obtain ⟨c, w, pa, hcomb, rfl, hx⟩ := startXlate_coherent hb hkind hinPage (hpart.symm ▸ hf) hup
  have hreleased : modLoc (fun l => { l with reqs := l.reqs.filter (·.id != q.id) }) (setReq { q with ctx := c, seg := w } (holding q s)) =
      nextReqTaken s := holding_released (q' := { q with ctx := c, seg := w }) hfresh hid hid
  refine ⟨{ vReqOf s op { q with ctx := c, seg := w, pa := pa, since := s.ft } w p tag with at_ := s.ft },
    ⟨hqwho, rfl, hpart, rfl, rfl, rfl, rfl, hcomb, hdata, hmask, hatom⟩, ?_⟩
  rw [hrun, hx, toVertex_coherent (q := { q with ctx := c, seg := w, pa := pa, since := s.ft }) hkind hqwho]
  dsimp only
  rw [hreleased]
  exact vAccept_starts (s := nextReqTaken s) hup (portAgent_member hg) hw (hpart.symm ▸ hr) hbusy hqueue

end Sys2Proof.Machine
end

section
/-!
Coherent requests at the ordering point (O39): a request that starts asks memory, or snoops the one holder.
-/
namespace Sys2Proof.Machine

variable {s : State} {p node tag n a b i : Nat} {op : CohOp} {r : CohReq} {v : VReq} {e : DirEnt} {k : Snoop} {g : Bool}
  {data : List Byte} {mask : List Bool} {atom : Option (AtomOp × Nat × Nat × Nat)} {c : Instr}

/-- The state in which Vertex has taken `v`. -/
def taken (v : VReq) (s : State) : State := pointed v (nextReqTaken s)

theorem only_taken (v : VReq) (s : State) : Only [.vtx, .loc] s (taken v s) :=
  .of fun q => by cases q <;> simp [SamePart, taken, pointed, nextReqTaken, modLoc]

theorem joinable_alone (h : v.comb = false) : joinable v = false := by rw [joinable, h, Bool.false_and]

/-! ### Memory is asked (R170, R171) -/

/-- The request `v` came to `s`, and in `t` its transaction has asked memory. -/
structure Asking (v : VReq) (s t : State) : Prop where
  txn : ∃ x ∈ t.vtx.txns, x.line = v.line ∧ x.req = v ∧ x.snoops = [] ∧ x.mem = true
  reqs : t.loc.reqs = s.loc.reqs
  out : t.out = s.out
  frame : Only [.vtx, .loc, .arc] s t

theorem asking_of_txn {x : VTxn} {u : State} (hu : Only [.vtx, .arc] (taken v s) u) (hl : x.line = v.line) (hr : x.req = v) (hs : x.snoops = [])
    (hm : x.mem = true) : Asking v s (pushTxn x u) := by
  have hloc : u.loc = (taken v s).loc := hu .loc (by decide)
  have hframe := ((only_taken v s).seq hu).seq (only_pushTxn x u)
  exact ⟨⟨x, List.mem_append_right _ (List.mem_singleton_self x), hl, hr, hs, hm⟩, (congrArg Locus.reqs hloc).trans rfl,
    hframe .out (by decide), hframe.mono (by decide)⟩

theorem uncached_asks (hc : caches v.op = false) (hj : v.comb = false) (hd : dirFind s v.line = none) :
    Asking v s (vStart true v (taken v s)) ∧ (vStart true v (taken v s)).vtx.dir = s.vtx.dir := by
  have hnone : dirFind (taken v s) v.line = none := hd
  have hstart := vStart_asks (s := taken v s) (fresh := true) (g := false) (fromOwner_none hnone) (joinable_alone hj)
    (by rw [hnone, hc]; rfl) (by rw [hnone]; rfl)
  have hnoted := only_startNoted v (taken v s)
  have hvtx : (startNoted v (taken v s)).vtx = (taken v s).vtx := hnoted .vtx (by decide)
  have hdir : (startNoted v (taken v s)).vtx.dir = s.vtx.dir := (congrArg Vertex.dir hvtx).trans (by rfl)
  rw [hstart]
  exact ⟨asking_of_txn (hnoted.mono (by decide)) rfl rfl rfl rfl, hdir⟩

/-- R167: a request that records a holder takes a free way. -/
theorem cached_allocates (hc : caches v.op = true) (hj : v.comb = false) (hd : dirFind s v.line = none) (hw : freeWay s v.part v.line = some i) :
    Asking v s (vStart true v (taken v s)) ∧ (vStart true v (taken v s)).vtx.dir.get i = { line := v.line, used := true } := by
  have hnone : dirFind (taken v s) v.line = none := hd
  have hway : freeWay (taken v s) v.part v.line = some i := hw
  have hnoted := only_startNoted v (taken v s)
  have hframe : Only [.vtx, .arc] (taken v s) (allocated i v.line (startNoted v (taken v s))) := (hnoted.seq (only_modVtx _ _)).mono (by decide)
  have hget : (allocated i v.line (startNoted v (taken v s))).vtx.dir.get i = { line := v.line, used := true } := Tab.get_set_same ..
  rw [vStart_allocates hnone (joinable_alone hj) hc hway, openTxn_asks rfl]
  exact ⟨asking_of_txn hframe rfl rfl rfl rfl, hget⟩

/-! ### One holder is snooped (R170, R173) -/

/-- The request `v` for the line of byte `a` came to `s`, and in `t` its transaction awaits the agent `b`. -/
structure Snooping (op : CohOp) (k : Snoop) (g : Bool) (p tag a b : Nat) (s t : State) : Prop where
  txn : ∃ x ∈ t.vtx.txns, x.line = a / 128 ∧ x.req.op = .coh op ∧ x.grant = g ∧ x.snoops = [(b, k)] ∧ x.mem = false ∧ x.since = s.ft
  out : t.out = .msg .cohSnoop b [k.code, a / 128 * 128, 0, s.vtx.gen, 0, portAgent s p, tag] [] :: s.out
  dir : t.vtx.dir = s.vtx.dir
  frame : Only [.vtx, .loc, .arc, .out] s t

theorem holder_snooped (w : Arrived s p node tag n a op data mask atom v) (hd : dirFind s (a / 128) = some (i, e))
    (ho : (e.own && e.ptrs.contains v.agent) = false) (hs : snoopsFor s v (some e) = ([(b, k)], g)) (hg : s.vtx.granted = []) :
    Snooping op k g p tag a b s (vStart true v (taken v s)) := by
  have hentry : dirFind (taken v s) v.line = some (i, e) := by rw [w.line]; exact hd
  have hown : fromOwner (taken v s) v = false := by
    rw [fromOwner, w.op]
    dsimp only
    rw [hentry, Option.any_some, ho]
  have hstart := vStart_snoops (s := taken v s) (fresh := true) hown (joinable_alone w.comb) (by rw [hentry]; rfl)
    (by rw [hentry]; exact hs) hg
  have hnoted := only_startNoted v (taken v s)
  have hvtx : (startNoted v (taken v s)).vtx = (taken v s).vtx := hnoted .vtx (by decide)
  have hdir : (startNoted v (taken v s)).vtx.dir = s.vtx.dir := (congrArg Vertex.dir hvtx).trans (by rfl)
  have hout : (startNoted v (taken v s)).out = s.out := hnoted .out (by decide)
  rw [hstart]
  refine ⟨⟨_, List.mem_append_right _ (List.mem_singleton_self _), w.line, w.op, rfl, rfl, rfl, rfl⟩, ?_, hdir, ?_⟩
  · rw [← hout, ← w.line, ← w.agent, ← w.tag]
    rfl
  · exact (((only_taken v s).seq hnoted).seq ((only_send _ _ _ _).seq (only_pushTxn _ _))).mono (by decide)

/-- R170: a privileged owner is told to forward the line to a reader. -/
theorem snoopsFor_read (hop : v.op = .coh .rdShared) (ho : e.own = true) (hc : e.coarse = false) (hp : e.ptrs = [b]) (hpriv : agentPriv s b = true) :
    snoopsFor s v (some e) = ([(b, .fwdSh)], false) := by
  simp [snoopsFor, hop, holders_exact hc, hp, ho, hpriv]

/-- R171: the other sharer of an UPGRADE loses the line, and the sharer that asked is granted it. -/
theorem snoopsFor_upgrade (hop : v.op = .coh .upgrade) (ho : e.own = false) (hc : e.coarse = false) (hp : e.ptrs = [v.agent, b]) (hb : b ≠ v.agent) :
    snoopsFor s v (some e) = ([(b, .inv)], true) := by
  simp [snoopsFor, hop, holders_exact hc, hp, ho, hc, hb, caches]

/-! ### A port's requests of one line -/

theorem line_inPage (va : Nat) : (va - va % 128) % 4096 + 128 ≤ 4096 := by omega

/-- A request of one line starts. -/
theorem lineMsg_starts (hwho : r.who = .port p node tag) (hfar : r.far = none) (hl : AtLine s p node n (a / 128))
    (hc : (op == .rdShared || op == .rdOwn || op == .upgrade) = true → (port s p).coherent = true)
    (hb : cohByte s
      { part := n, endpoint := node, asid := r.asid, va := r.va - r.va % 128, len := 128, write := op.writes, atomic := op == .atomic,
        num := node, tag := tag } = some a) :
    ∃ v, Arrived s p node tag n a op data mask none v ∧ cohMsg op r data mask none 128 false s = vStart true v (taken v s) :=
  cohMsg_starts (atom := none) hwho hfar hl hc (by decide) (line_inPage r.va) hb

theorem caching_starts (hexec : exec c s = .next (cohMsg op r [] [] none 128 false s)) (hcach : caches (.coh op) = true)
    (hwho : r.who = .port p node tag) (hfar : r.far = none) (hcoh : (port s p).coherent = true) (hl : AtLine s p node n (a / 128))
    (hb : cohByte s
      { part := n, endpoint := node, asid := r.asid, va := r.va - r.va % 128, len := 128, write := op.writes, atomic := op == .atomic,
        num := node, tag := tag } = some a)
    (hd : dirFind s (a / 128) = none) (hw : freeWay s n (a / 128) = some i) : Answers c s fun t =>
      (∃ x ∈ t.vtx.txns, x.line = a / 128 ∧ x.req.op = .coh op ∧ x.req.who = .port p node tag ∧ x.req.agent = portAgent s p ∧ x.req.part = n ∧
        x.snoops = [] ∧ x.mem = true) ∧
      t.vtx.dir.get i = { line := a / 128, used := true } ∧ t.loc.reqs = s.loc.reqs ∧ t.out = s.out ∧ Only [.vtx, .loc, .arc] s t := by
  obtain ⟨v, ⟨hv, hagent, rfl, htag, hop, hline, hoff, hcomb, -, -, -⟩, hrun⟩ :=
    lineMsg_starts (data := []) (mask := []) hwho hfar hl (fun _ => hcoh) hb
  rw [← hline] at hd hw ⊢
  obtain ⟨⟨⟨x, hx, hxl, rfl, hsnoops, hmem⟩, hreqs, hout, hframe⟩, hdir⟩ := cached_allocates (s := s) (hop ▸ hcach) hcomb hd hw
  exact ⟨_, hexec.trans (congrArg _ hrun), ⟨x, hx, hxl, hop, hv, hagent, rfl, hsnoops, hmem⟩, hdir, hreqs, hout, hframe⟩

/-- The transaction of a request that no agent caches, with all that the request brought. -/
theorem uncached_starts {len : Nat} (hexec : exec c s = .next (cohMsg op r data mask atom len false s)) (hcach : caches (.coh op) = false)
    (hrun : ∃ v, Arrived s p node tag n a op data mask atom v ∧ cohMsg op r data mask atom len false s = vStart true v (taken v s))
    (hd : dirFind s (a / 128) = none) : Answers c s fun t =>
      (∃ x ∈ t.vtx.txns, x.line = a / 128 ∧ Arrived s p node tag n a op data mask atom x.req ∧ x.snoops = [] ∧ x.mem = true) ∧
      t.vtx.dir = s.vtx.dir ∧ t.loc.reqs = s.loc.reqs ∧ t.out = s.out ∧ Only [.vtx, .loc, .arc] s t := by
  obtain ⟨v, w, hrun⟩ := hrun
  obtain ⟨⟨⟨x, hx, hxl, rfl, hsnoops, hmem⟩, hreqs, hout, hframe⟩, hdir⟩ :=
    uncached_asks (s := s) (by rw [w.op]; exact hcach) w.comb (by rw [w.line]; exact hd)
  exact ⟨_, hexec.trans (congrArg _ hrun), ⟨x, hx, hxl.trans w.line, w, hsnoops, hmem⟩, hdir, hreqs, hout, hframe⟩

/-- R170: the privileged owner of a line that another agent reads is snooped. -/
theorem read_snoops (hwho : r.who = .port p node tag) (hfar : r.far = none) (hcoh : (port s p).coherent = true)
    (hl : AtLine s p node n (a / 128))
    (hb : cohByte s { part := n, endpoint := node, asid := r.asid, va := r.va - r.va % 128, len := 128, num := node, tag := tag } = some a)
    (hd : dirFind s (a / 128) = some (i, e)) (ho : e.own = true) (hc : e.coarse = false) (hp : e.ptrs = [b]) (hne : b ≠ portAgent s p)
    (hpriv : agentPriv s b = true) (hg : s.vtx.granted = []) :
    Answers (.rdShared r) s (Snooping .rdShared .fwdSh false p tag a b s) := by
  obtain ⟨v, w, hrun⟩ := lineMsg_starts (op := .rdShared) (data := []) (mask := []) hwho hfar hl (fun _ => hcoh) hb
  have hother : (e.own && e.ptrs.contains v.agent) = false := by simp [hp, w.agent, hne.symm]
  exact ⟨_, congrArg Host.Outcome.next hrun, holder_snooped w hd hother (snoopsFor_read w.op ho hc hp hpriv) hg⟩

/-- R171: the other sharer of an UPGRADE is snooped. -/
theorem upgrade_snoops (hwho : r.who = .port p node tag) (hfar : r.far = none) (hcoh : (port s p).coherent = true)
    (hl : AtLine s p node n (a / 128))
    (hb : cohByte s { part := n, endpoint := node, asid := r.asid, va := r.va - r.va % 128, len := 128, write := true, num := node, tag := tag } = some a)
    (hd : dirFind s (a / 128) = some (i, e)) (ho : e.own = false) (hc : e.coarse = false) (hp : e.ptrs = [portAgent s p, b])
    (hne : b ≠ portAgent s p) (hg : s.vtx.granted = []) :
    Answers (.upgrade r) s (Snooping .upgrade .inv true p tag a b s) := by
  obtain ⟨v, w, hrun⟩ := lineMsg_starts (op := .upgrade) (data := []) (mask := []) hwho hfar hl (fun _ => hcoh) hb
  rw [← w.agent] at hp hne
  exact ⟨_, congrArg Host.Outcome.next hrun, holder_snooped w hd (by rw [ho, Bool.false_and]) (snoopsFor_upgrade w.op ho hc hp hne) hg⟩

/-- R157: a port that is not coherent may not cache. -/
theorem rdOwn_notPermitted (hwho : r.who = .port p node tag) (hfar : r.far = none) (hcoh : (port s p).coherent = false) :
    Answers (.rdOwn r) s fun t => Told s t (.port p node tag) cNP ∧ Only [.out] s t := by
  have hrun : cohMsg .rdOwn r [] [] none 128 false s = emit (.cpl (.port p node tag) cNP) s := by
    simp [cohMsg, hfar, hwho, hcoh, reply_port]
  exact ⟨_, congrArg Host.Outcome.next hrun, rfl, only_emit _ s⟩

/-! ### Atomics (R178) -/

theorem atomic_inPage {va ty : Nat} (h : va % typeSize ty = 0) : va % 4096 + typeSize ty ≤ 4096 := by
  have hsize : typeSize ty = 4 ∨ typeSize ty = 8 ∨ typeSize ty = 2 := by
    unfold typeSize
    split <;> decide
  rcases hsize with hs | hs | hs <;> rw [hs] at h ⊢ <;> omega

theorem typeSize_len (ty : Nat) : 0 < typeSize ty ∧ typeSize ty ≤ 4096 := by
  unfold typeSize
  split <;> decide

theorem atomic_executes {opc ty x y : Nat} {o : AtomOp} (hfar : r.far = none) (ho : atomOpOf opc = some o) (ht : ty < 4)
    (hcas : o ≠ .compareSwap ∨ ty < 2) (hal : r.va % typeSize ty = 0) :
    exec (.atomic r opc ty x y) s = .next (cohMsg .atomic r [] [] (some (o, ty, x, y)) (typeSize ty) false s) := by
  have hbad : (o == .compareSwap && decide (2 ≤ ty)) = false := by
    rcases hcas with h | h
    · simp [h]
    · simp [Nat.not_le.2 h]
  simp [exec, execAtomic, ho, hfar, hbad, hal, Nat.not_le.2 ht]

theorem atomic_asks {opc ty x y : Nat} {o : AtomOp} (hwho : r.who = .port p node tag) (hfar : r.far = none) (ho : atomOpOf opc = some o)
    (ht : ty < 4) (hcas : o ≠ .compareSwap ∨ ty < 2) (hal : r.va % typeSize ty = 0) (hl : AtLine s p node n (a / 128))
    (hb : cohByte s { part := n, endpoint := node, asid := r.asid, va := r.va, len := typeSize ty, atomic := true, num := node, tag := tag } = some a)
    (hd : dirFind s (a / 128) = none) : Answers (.atomic r opc ty x y) s fun t =>
      (∃ q ∈ t.vtx.txns, q.line = a / 128 ∧ Arrived s p node tag n a .atomic [] [] (some (o, ty, x, y)) q.req ∧ q.snoops = [] ∧ q.mem = true) ∧
      t.vtx.dir = s.vtx.dir ∧ t.loc.reqs = s.loc.reqs ∧ t.out = s.out ∧ Only [.vtx, .loc, .arc] s t :=
  uncached_starts (atomic_executes hfar ho ht hcas hal) rfl
    (cohMsg_starts (op := .atomic) (atom := some (o, ty, x, y)) hwho hfar hl nofun (typeSize_len ty) (atomic_inPage hal) hb) hd

/-- Settles O39: a request that reaches its line starts there, and memory is asked, or its one holder snooped. -/
theorem coherentRequests : Obligations.CoherentRequests := by
  unfold Obligations.CoherentRequests
  refine ⟨?rdShared, ?rdOwn, ?upgrade, ?rdCur, ?wrLine, ?wrPart, ?atomic, ?refused, ?forwarded, ?upgraded⟩
  case rdShared =>
    intro s p node tag n a r i hwho hfar hcoh hl hb hd hw
    exact caching_starts (op := .rdShared) rfl rfl hwho hfar hcoh hl hb hd hw
  case rdOwn =>
    intro s p node tag n a r i hwho hfar hcoh hl hb hd hw
    exact caching_starts (op := .rdOwn) rfl rfl hwho hfar hcoh hl hb hd hw
  case upgrade =>
    intro s p node tag n a r i hwho hfar hcoh hl hb hd hw
    exact caching_starts (op := .upgrade) rfl rfl hwho hfar hcoh hl hb hd hw
  case rdCur =>
    intro s p node tag n a r hwho hfar hl hb hd
    obtain ⟨t, hexec, ⟨x, hx, hline, w, hs, hm⟩, hrest⟩ :=
      uncached_starts (c := .rdCur r) rfl rfl (lineMsg_starts (op := .rdCur) hwho hfar hl nofun hb) hd
    exact ⟨t, hexec, ⟨x, hx, hline, w.op, w.who, w.agent, w.part, hs, hm⟩, hrest⟩
  case wrLine =>
    intro s p node tag n a r data hwho hfar hlen hl hb hd
    obtain ⟨t, hexec, ⟨x, hx, hline, w, hs, hm⟩, hrest⟩ :=
      uncached_starts (c := .wrLine r data) rfl rfl (lineMsg_starts (op := .wrLine) hwho hfar hl nofun hb) hd
    exact ⟨t, hexec, ⟨x, hx, hline, w.op, w.who, w.agent, w.part, hs, hm, w.data.trans (padLine_full hlen)⟩, hrest⟩
  case wrPart =>
    intro s p node tag n a r mask data hwho hfar hlen hl hb hd
    obtain ⟨t, hexec, ⟨x, hx, hline, w, hs, hm⟩, hrest⟩ :=
      uncached_starts (c := .wrPart r mask data) rfl rfl (lineMsg_starts (op := .wrPart) hwho hfar hl nofun hb) hd
    exact ⟨t, hexec, ⟨x, hx, hline, w.op, w.who, w.agent, w.part, hs, hm, w.data.trans (padLine_full hlen), w.mask⟩, hrest⟩
  case atomic =>
    intro s p node tag n a r op ty v c o hwho hfar ho ht hcas hal hl hb hd
    obtain ⟨t, hexec, ⟨x, hx, hline, w, hs, hm⟩, hrest⟩ := atomic_asks hwho hfar ho ht hcas hal hl hb hd
    exact ⟨t, hexec, ⟨x, hx, hline, w.op, w.who, w.agent, w.part, hs, hm, w.atom, w.off⟩, hrest⟩
  case refused =>
    intro s p node tag r hwho hfar hcoh
    exact rdOwn_notPermitted hwho hfar hcoh
  case forwarded =>
    intro s p node tag n a r i e b hwho hfar hcoh hl hb hd ho hc hp hne hpriv hg
    obtain ⟨t, hexec, ⟨x, hx, hline, hop, -, hs, hm, hsince⟩, hout, hdir, hframe⟩ := read_snoops hwho hfar hcoh hl hb hd ho hc hp hne hpriv hg
    exact ⟨t, hexec, ⟨x, hx, hline, hop, hs, hm, hsince⟩, hout, hdir, hframe⟩
  case upgraded =>
    intro s p node tag n a r i e b hwho hfar hcoh hl hb hd ho hc hp hne hg
    obtain ⟨t, hexec, ⟨x, hx, hline, hop, hgrant, hs, hm, -⟩, hout, hdir, hframe⟩ := upgrade_snoops hwho hfar hcoh hl hb hd ho hc hp hne hg
    exact ⟨t, hexec, ⟨x, hx, hline, hop, hgrant, hs, hm⟩, hout, hdir, hframe⟩

end Sys2Proof.Machine
end

section
/-!
Chord's state (R220): what an engine holds after each update of it, and the end of a collective that runs there.
-/
namespace Sys2Proof.Machine

variable {s u v t : State} {e tag k node x : Nat} {i j : Inst}

@[simp] theorem eng_setEng (e : Nat) (g : ChdEng) (s : State) : eng (setEng e g s) e = g := Tab.get_set_same ..

@[simp] theorem eng_modEng (e : Nat) (f : ChdEng → ChdEng) (s : State) : eng (modEng e f s) e = f (eng s e) := eng_setEng ..

@[simp] theorem eng_emit (o : Out) (s : State) (e : Nat) : eng (emit o s) e = eng s e := rfl

theorem only_setEng (e : Nat) (g : ChdEng) (s : State) : Only [.chd] s (setEng e g s) := only_chd _ s

theorem only_modEng (e : Nat) (f : ChdEng → ChdEng) (s : State) : Only [.chd] s (modEng e f s) := only_setEng e _ s

theorem only_setInst (e : Nat) (i : Inst) (s : State) : Only [.chd] s (setInst e i s) := only_modEng e _ s

theorem only_countResult (e : Nat) (rs : List Rounded) (bad : Bool) (s : State) : Only [.chd] s (countResult e rs bad s) := only_modEng e _ s

theorem insts_countResult (e : Nat) (rs : List Rounded) (bad : Bool) (s : State) :
    (eng (countResult e rs bad s) e).insts = (eng s e).insts := by
  rw [countResult, eng_modEng]

/-! ### The one collective of an engine -/

theorem instOf_single (h : (eng s e).insts = [i]) (ht : i.tag = tag) : instOf s e tag = some i := by
  simp [instOf, h, ht]

theorem insts_setInst_single (h : (eng s e).insts = [i]) (ht : j.tag = i.tag) : (eng (setInst e j s) e).insts = [j] := by
  simp [setInst, h, ht]

/-! ### Outcomes -/

theorem worse_ok (k : Cpl) : worse k cOk = k := by
  have hrank : ¬ outcomeRank Status.ok < outcomeRank k.status := by cases k.status <;> decide
  exact if_neg hrank

theorem sat16 (n : Nat) : sat 16 n = min (n + 1) 65535 := rfl

/-! ### The end of a collective (R237, R239) -/

/-- A collective of a port that names no completion object and that no program issued. -/
structure PortCollective (c : QCmd) (k node x : Nat) : Prop where
  req : c.req = .port k node x
  issuer : c.issuer = none
  obj : cObj c = none

/-- What a collective completes with (R237, R239, R240). -/
def finalCpl (i : Inst) : Cpl :=
  if i.out.status != .ok then i.out else if 0 < i.badRows then { status := .partialDone, value := i.valid } else cOk

/-- Engine `e`, which ran one collective, runs none, has counted it, and its completion `c` is told. -/
structure Finished (e : Nat) (who : Requester) (c : Cpl) (s t : State) : Prop where
  insts : (eng t e).insts = []
  counted : (eng t e).doneN = min ((eng s e).doneN + 1) 65535
  told : Told s t who c
  timeouts : t.chd.timeouts = s.chd.timeouts
  frame : Only [.chd, .out] s t

theorem chdFinish_port (h : PortCollective i.cmd k node x) (s : State) : chdFinish e i s =
    emit (.cpl (.port k node x) { finalCpl i with data := [] })
      (modEng e (fun g => { g with insts := g.insts.filter (·.tag != i.tag), doneN := sat 16 g.doneN }) s) := by
  rw [chdFinish, h.obj, finishCmd_plain _ _ _ h.issuer, h.req, reply_port]
  rfl

theorem chdFinish_finishes (h : PortCollective j.cmd k node x) (hi : (eng s e).insts = [i]) (ht : i.tag = j.tag) :
    Finished e (.port k node x) { finalCpl j with data := [] } s (chdFinish e j s) := by
  rw [chdFinish_port h]
  refine ⟨?_, ?_, rfl, rfl, (only_modEng _ _ s).seq (only_emit _ _)⟩
  · simp [hi, ht]
  · rw [eng_emit, eng_modEng, sat16]

theorem finalCpl_ok (ho : i.out = cOk) (hb : i.badRows = 0) : finalCpl i = cOk := by
  simp [finalCpl, ho, hb, cOk]

theorem finalCpl_partial (ho : i.out = cOk) (hb : 0 < i.badRows) : finalCpl i = { status := .partialDone, value := i.valid } := by
  simp [finalCpl, ho, hb, cOk]

end Sys2Proof.Machine
end

section
/-!
The admission of collectives (R220, R225, R240): a collective with room reads its member table and is enrolled at its engine.
-/
namespace Sys2Proof.Machine

variable {s u v t : State} {e op : Nat} {c : QCmd} {k : Cpl} {a : Instr} {rest : List QCmd} {ms : List (Nat × Nat)}

/-- The member table is read, but for an INDEX_GATHER, which has none (R225, R240). -/
def readTable (e : Nat) (c : QCmd) (s : State) : State × Cpl :=
  if cOp c = 5 then (s, cOk) else engineReadAs e c.part (cAsid c) (c.w 4) (32 * cMembers c) [] s

theorem readTable_members (h : cOp c ≠ 5) : readTable e c s = engineReadAs e c.part (cAsid c) (c.w 4) (32 * cMembers c) [] s := if_neg h

theorem readTable_indexGather (h : cOp c = 5) : readTable e c s = (s, cOk) := if_pos h

/-- What a collective that waits for no READY object runs as. -/
def freshInst (c : QCmd) (ms : List (Nat × Nat)) (s : State) : Inst :=
  { cmd := c, tag := cTag c, table := ms, units := cUnits c, lastRec := s.ft, since := writesNow s }

/-- R225, R226, R239: nothing speaks against the collective `c` with member table `ms`, which waits for no READY object. -/
structure Admissible (e : Nat) (c : QCmd) (ms : List (Nat × Nat)) (s : State) : Prop where
  noReady : cReadyEn c = false
  tagFree : instOf s e (cTag c) = none
  aligned : (instRanges c ms).all (fun r => r.1 % 128 == 0 || r.1 == c.w 7) = true
  allowed : (instRanges c ms).all (fun r => (rangeCheck s c.part (cAsid c) r.1 r.2.1 r.2.2).isNone) = true

theorem Admissible.notUnaligned (h : Admissible e c ms s) : ((instRanges c ms).any fun r => r.1 % 128 != 0 && r.1 != c.w 7) = false := by
  simpa [or_iff_not_imp_left] using h.aligned

theorem Admissible.noneForbidden (h : Admissible e c ms s) :
    ((instRanges c ms).findSome? fun r => rangeCheck s c.part (cAsid c) r.1 r.2.1 r.2.2) = none := by
  simpa [List.findSome?_eq_none_iff] using h.allowed

/-- The engine runs `c` too. -/
def enrolled (e : Nat) (c : QCmd) (ms : List (Nat × Nat)) (s : State) : State :=
  modEng e (fun g => { g with insts := g.insts ++ [freshInst c ms s] }) s

theorem chdAdmit_enrols (hr : readTable e c u = (v, k)) (hk : k.status = .ok) (h : Admissible e c (memberRows (cMembers c) k.data) v) :
    chdAdmit e c u = enrolled e c (memberRows (cMembers c) k.data) v := by
  unfold readTable at hr
  unfold chdAdmit
  rw [hr]
  simp only [hk, h.tagFree, h.notUnaligned, h.noneForbidden, h.noReady]
  rfl

theorem chdServe_admits (ht : takeCmd .chord e e (fun c => cOp c == op) s = some (c, u)) (hw : (eng u e).waiting = [])
    (hroom : chdRoom (eng u e) c = true) : chdServe op e s = chdAdmit e c u := by
  simp [chdServe, ht, hw, hroom]

theorem chdServe_waits (ht : takeCmd .chord e e (fun c => cOp c == op) s = some (c, u)) (hroom : chdRoom (eng u e) c = false) :
    chdServe op e s = setEng e { eng u e with waiting := (eng u e).waiting ++ [c] } u := by
  simp [chdServe, ht, hroom]

/-- R245: held records of no collective that the engine runs stay as they are. -/
theorem matchEarly_unmatched (h : ∀ r ∈ (eng s e).early, instOf s e (bits (r.hdr.getD 0 0) 17 2) = none) :
    matchEarly e s = setEng e (eng s e) s := by
  have hhit : (eng s e).early.filter (fun r => ((instOf s e (bits (r.hdr.getD 0 0) 17 2)).filter fun i => cHier i.cmd).isSome) = [] :=
    List.filter_eq_nil_iff.2 fun r hr => by rw [h r hr]; exact Bool.false_ne_true
  have hmiss : (eng s e).early.filter (fun r => !((instOf s e (bits (r.hdr.getD 0 0) 17 2)).filter fun i => cHier i.cmd).isSome) = (eng s e).early :=
    List.filter_eq_self.2 fun r hr => by rw [h r hr]; rfl
  simp only [matchEarly, hhit, hmiss, List.foldl_nil]

theorem matchEarly_none (h : (eng s e).early = []) : matchEarly e s = setEng e (eng s e) s :=
  matchEarly_unmatched (by simp [h])

/-- In `t` engine `e` runs `c` too, and nothing but Chord has changed since `s`. -/
structure Enrols (e : Nat) (c : QCmd) (ms : List (Nat × Nat)) (s t : State) : Prop where
  engine : eng t e = { eng s e with insts := (eng s e).insts ++ [freshInst c ms s] }
  frame : Only [.chd] s t

theorem enrolled_enrols : Enrols e c ms s (enrolled e c ms s) := ⟨eng_modEng .., only_modEng e _ s⟩

theorem Enrols.matched (h : Enrols e c ms s t) (he : (eng s e).early = []) : Enrols e c ms s (matchEarly e t) := by
  have hearly : (eng t e).early = [] := by rw [h.engine]; exact he
  rw [matchEarly_none hearly]
  exact ⟨(eng_setEng ..).trans h.engine, h.frame.trans (only_setEng e _ t)⟩

/-- A collective taken from its queue, with room, is enrolled. -/
theorem served_enrols (ht : takeCmd .chord e e (fun c => cOp c == op) s = some (c, u)) (hw : (eng u e).waiting = [])
    (hroom : chdRoom (eng u e) c = true) (hr : readTable e c u = (v, k)) (hk : k.status = .ok)
    (h : Admissible e c (memberRows (cMembers c) k.data) v) : Enrols e c (memberRows (cMembers c) k.data) v (chdServe op e s) := by
  rw [chdServe_admits ht hw hroom, chdAdmit_enrols hr hk h]
  exact enrolled_enrols

theorem exec_reduce (e : Nat) (s : State) : exec (.reduce e) s = .next (matchEarly e (chdServe 1 e s)) := rfl
theorem exec_reduceScatter (e : Nat) (s : State) : exec (.reduceScatter e) s = .next (chdServe 2 e s) := rfl
theorem exec_gather (e : Nat) (s : State) : exec (.gather e) s = .next (chdServe 3 e s) := rfl
theorem exec_scatter (e : Nat) (s : State) : exec (.scatter e) s = .next (chdServe 4 e s) := rfl
theorem exec_indexGather (e : Nat) (s : State) : exec (.indexGather e) s = .next (chdServe 5 e s) := rfl

theorem exec_instanceAdmit (hw : (eng s e).waiting = c :: rest) (hroom : chdRoom (eng s e) c = true) (hf : fenced s .chord = false) :
    exec (.instanceAdmit e) s = .next (matchEarly e (chdAdmit e c (setEng e { eng s e with waiting := rest } s))) := by
  simp [exec, execInstanceAdmit, hw, hroom, hf]

/-- The data-moving collectives with members are admitted alike. -/
theorem moved_answers (hexec : exec a s = .next (chdServe op e s)) (ht : takeCmd .chord e e (fun c => cOp c == op) s = some (c, u))
    (hop : cOp c ≠ 5) (hw : (eng u e).waiting = []) (hroom : chdRoom (eng u e) c = true)
    (hr : engineReadAs e c.part (cAsid c) (c.w 4) (32 * cMembers c) [] u = (v, k)) (hk : k.status = .ok)
    (h : Admissible e c (memberRows (cMembers c) k.data) v) : Answers a s fun t =>
      eng t e = { eng v e with insts := (eng v e).insts ++ [freshInst c (memberRows (cMembers c) k.data) v] } ∧ Only [.chd] v t := by
  obtain ⟨heng, hframe⟩ := served_enrols ht hw hroom ((readTable_members hop).trans hr) hk h
  exact ⟨_, hexec, heng, hframe⟩

/-- Settles O43: with room a collective reads its table and is enrolled, from its queue or from those that wait; without, it waits. -/
theorem collectives : Obligations.Collectives := by
  unfold Obligations.Collectives
  refine ⟨?reduce, ?reduceScatter, ?gather, ?scatter, ?indexGather, ?noRoom, ?waiting⟩
  case reduce =>
    intro s u v e c k ht hop hw hroom he hready hr hk htag hal hallow
    have hne : cOp c ≠ 5 := by omega
    obtain ⟨heng, hframe⟩ := (served_enrols ht hw hroom ((readTable_members hne).trans hr) hk ⟨hready, htag, hal, hallow⟩).matched he
    exact ⟨_, exec_reduce e s, heng, hframe⟩
  case reduceScatter =>
    intro s u v e c k ht hop hw hroom hready hr hk htag hal hallow
    exact moved_answers (exec_reduceScatter e s) ht (by omega) hw hroom hr hk ⟨hready, htag, hal, hallow⟩
  case gather =>
    intro s u v e c k ht hop hw hroom hready hr hk htag hal hallow
    exact moved_answers (exec_gather e s) ht (by omega) hw hroom hr hk ⟨hready, htag, hal, hallow⟩
  case scatter =>
    intro s u v e c k ht hop hw hroom hready hr hk htag hal hallow
    exact moved_answers (exec_scatter e s) ht (by omega) hw hroom hr hk ⟨hready, htag, hal, hallow⟩
  case indexGather =>
    intro s u e c ht hop hw hroom hready htag hal hallow hmem
    have hrows : memberRows (cMembers c) cOk.data = [] := by rw [hmem]; rfl
    obtain ⟨heng, hframe⟩ := served_enrols ht hw hroom (readTable_indexGather hop) rfl (hrows ▸ ⟨hready, htag, hal, hallow⟩)
    rw [hrows] at heng
    exact ⟨_, exec_indexGather e s, heng, hframe⟩
  case noRoom =>
    intro s u e c ht hroom
    exact ⟨_, (exec_gather e s).trans (congrArg _ (chdServe_waits ht hroom)), eng_setEng .., only_setEng e _ u⟩
  case waiting =>
    intro s v e c rest k hw _ hroom hf hop hready hr hk htag he hal hallow
    have hadmit := chdAdmit_enrols ((readTable_members hop).trans hr) hk ⟨hready, htag, hal, hallow⟩
    obtain ⟨heng, hframe⟩ := enrolled_enrols.matched he
    exact ⟨_, (exec_instanceAdmit hw hroom hf).trans (by rw [hadmit]), heng, hframe⟩

end Sys2Proof.Machine
end

section
/-!
A pulled reduce (R227, R228, R233, R236): the next chunk is the rounded sum of the members' chunks, written at its place.
-/
namespace Sys2Proof.Machine

variable {s u v : State} {e tag k : Nat} {i : Inst} {ds : List (List Byte)} {c : QCmd}

/-- Where chunk `k` of each member is read, none of it from an endpoint. -/
def memberSources (i : Inst) (k : Nat) : List (Nat × List Byte) := (i.table.zipIdx).map fun m => (m.1.1 + k * chunkBytes (cIn i.cmd) 256, [])

/-- The sums of the members' chunks `ds`. -/
def memberSums (c : QCmd) (k : Nat) (ds : List (List Byte)) : List Acc :=
  (ds.map fun d => chunkVals (cIn c) (chunkLen c k) d).foldl (fun as x => accChunk (cRed c) (cL c) x as) (List.replicate (chunkLen c k) {})

/-- Where chunk `k` of a reduce to one place is written. -/
def chunkPlace (c : QCmd) (k : Nat) : Nat := c.w 5 + k * (256 * fmtBits (cOut c) / 8)

/-- A REDUCE that reads its operands, writes one result, and neither adds to it nor spans switches. -/
structure PulledReduce (c : QCmd) : Prop where
  op : cOp c = 1
  pull : cPush c = false
  one : cAll c = false
  here : cHier c = false
  fresh : cAccDst c = false

theorem resultDests_one (h : PulledReduce i.cmd) (k : Nat) : resultDests i k = [chunkPlace i.cmd k] := by
  simp [resultDests, chunkPlace, h.op, h.one]

theorem writeAll_one {a : Nat} {d : List Byte} {mark : Bool} (h : engineWriteAs e c.part (cAsid c) a d mark s = (u, cOk)) :
    writeAll e c mark d [a] s = (u, cOk) := by
  simp [writeAll, h, worse_ok]

theorem nextChunk_pulled (hp : cPush i.cmd = false) (hn : i.next < cChunks i.cmd) : nextChunk i = some i.next := by
  simp [nextChunk, hp, hn]

theorem writeChunk_one {rs : List Rounded} (h : PulledReduce i.cmd)
    (hw : engineWriteAs e i.cmd.part (cAsid i.cmd) (chunkPlace i.cmd k) (resultBytes i.cmd rs) false s = (u, cOk)) :
    writeChunk e i k rs false s = (countResult e rs false u, cOk, { i with done := i.done ++ [k] }) := by
  have hcpl : worse i.out { cOk with data := [] } = i.out := worse_ok i.out
  simp only [writeChunk, resultDests_one h, writeAll_one hw, hcpl]

theorem doChunk_pulled (h : PulledReduce i.cmd) (hb : i.badCh = [])
    (hr : readAll (some i.since) e i.cmd (chunkBytes (cIn i.cmd) (chunkLen i.cmd k)) (memberSources i k) s = (v, cOk, ds))
    (hw : engineWriteAs e i.cmd.part (cAsid i.cmd) (chunkPlace i.cmd k)
      (resultBytes i.cmd (chunkResult i.cmd k (memberSums i.cmd k ds) none)) false v = (u, cOk)) :
    doChunk e i k [] s =
      (countResult e (chunkResult i.cmd k (memberSums i.cmd k ds) none) false u, cOk, { i with done := i.done ++ [k] }) := by
  have hred : cIsRed i.cmd = true := by simp [cIsRed, h.op]
  have hbad : (cOk.status != .ok) = false := rfl
  have hgood : i.badCh.contains k = false := by rw [hb]; rfl
  have hwrite := writeChunk_one h hw
  unfold memberSources at hr
  unfold memberSums at hwrite ⊢
  simp only [doChunk, hred, h.pull, h.fresh, if_true, if_false, Bool.false_eq_true, List.getD_nil, hr, List.map_nil, List.append_nil,
    worse_ok, hbad, hgood, Bool.or_false, reduceChunk, h.here, hwrite]

theorem exec_chunkReadComplete {w : State} {j : Inst} (hf : fenced s .chord = false) (hi : instOf s e tag = some i) (hr : i.ready = true)
    (hp : i.pendRes = []) (hn : nextChunk i = some k) (hc : doChunk e i k [] s = (w, cOk, j)) : exec (.chunkReadComplete e tag []) s =
      .next (setInst e { j with next := j.next + 1, retryAt := none, firstTry := none, lastRec := s.ft } w) := by
  have hretry : cOk.status ≠ .retry := nofun
  have hdown : cOk.status ≠ .domainDown := nofun
  simp only [exec, execChunkReadComplete, hf, hi, hr, hp, hn, hc, if_true, if_false, Bool.false_eq_true, Bool.not_true, if_neg hretry, if_neg hdown]

/-- R233: a collective whose READY object is short of its value reads nothing (entry 92). -/
theorem exec_chunkReadComplete_notReady (hf : fenced s .chord = false) (hi : instOf s e tag = some i) (hr : i.ready = false)
    (hv : (obj s (cReadyObj i.cmd)).value < i.cmd.w 2) : exec (.chunkReadComplete e tag []) s = .next s := by
  simp [exec, execChunkReadComplete, hf, hi, hr, hv]

theorem chunk_written (h : PulledReduce i.cmd) (hf : fenced s .chord = false) (hi : instOf s e tag = some i) (hr : i.ready = true)
    (hp : i.pendRes = []) (hn : i.next < cChunks i.cmd) (hb : i.badCh = [])
    (hrd : readAll (some i.since) e i.cmd (chunkBytes (cIn i.cmd) (chunkLen i.cmd i.next)) (memberSources i i.next) s = (v, cOk, ds))
    (hw : engineWriteAs e i.cmd.part (cAsid i.cmd) (chunkPlace i.cmd i.next)
      (resultBytes i.cmd (chunkResult i.cmd i.next (memberSums i.cmd i.next ds) none)) false v = (u, cOk))
    (hu : (eng u e).insts = [i]) : Answers (.chunkReadComplete e tag []) s fun t =>
      (eng t e).insts =
        [{ i with next := i.next + 1, done := i.done ++ [i.next], retryAt := none, firstTry := none, lastRec := s.ft }] ∧
      t.mem = u.mem ∧ Only [.chd] u t :=
  ⟨_, exec_chunkReadComplete hf hi hr hp (nextChunk_pulled h.pull hn) (doChunk_pulled h hb hrd hw),
    insts_setInst_single ((insts_countResult ..).trans hu) rfl, rfl, (only_countResult e _ _ u).trans (only_setInst e _ _)⟩

end Sys2Proof.Machine
end

section
/-!
Contributions pushed to a collective (R234, R235).
-/
namespace Sys2Proof.Machine

variable {s : State} {p node x e n m k h0 h1 : Nat} {i : Inst} {data : List Byte}

/-- R235: the contribution with header `h0`, `h1` of port `p` is chunk `k` of member `m` for the one collective `i` of its
partition's engine, and its encoding fits. -/
structure Contributes (s : State) (p e n m k h0 h1 : Nat) (i : Inst) : Prop where
  part : (port s p).part = some n
  engine : e = bits h0 4 0
  member : m = bits h0 28 21
  chunk : k = bits h0 63 32
  owned : (seqOf s e).owned = true
  owner : (seqOf s e).part = n
  single : (eng s e).insts = [i]
  tag : i.tag = bits h0 20 5
  push : cPush i.cmd = true
  memberLt : m < cMembers i.cmd
  chunkLt : k < cChunks i.cmd
  length : bits h1 10 0 = if cIsRed i.cmd then chunkBytes (cIn i.cmd) (chunkLen i.cmd k) else chunkLen i.cmd k
  reserved0 : bits h0 31 29 = 0
  reserved1 : bits h1 63 12 = 0
  unfenced : fenceCpl s .chord n = none

theorem Contributes.pushed (h : Contributes s p e n m k h0 h1 i) : (instOf s e (bits h0 20 5)).filter (fun i => cPush i.cmd) = some i := by
  rw [instOf_single h.single h.tag, Option.filter_some, if_pos h.push]

theorem exec_collContrib (who : Requester) (hdr : List Nat) (data : List Byte) (s : State) :
    exec (.collContrib who hdr data) s = execCollContrib who hdr data s := rfl

theorem collContrib_duplicate (h : Contributes s p e n m k h0 h1 i) (hg : (m, k) ∈ i.got) : exec (.collContrib (.port p node x) [h0, h1] data) s =
    .next (reply (.port p node x) (cRef .state) (setEng e { eng s e with dup := sat 16 (eng s e).dup } s)) := by
  have hpushed := h.pushed
  obtain ⟨hpart, rfl, rfl, rfl, hown, howner, -, -, -, hm, hk, hlen, hr0, hr1, hfence⟩ := h
  rw [exec_collContrib]
  simp [execCollContrib, reqPart, hpart, hown, howner, hpushed, Nat.not_le.2 hm, Nat.not_le.2 hk, hlen, hr0, hr1, hfence, hg]

theorem collContrib_taken (h : Contributes s p e n m k h0 h1 i) (hred : cIsRed i.cmd = false) (hgood : bitOf h1 11 = false) (hg : (m, k) ∉ i.got) :
    exec (.collContrib (.port p node x) [h0, h1] data) s = .next (reply (.port p node x) cOk
      (setInst e { i with got := i.got ++ [(m, k)], raw := i.raw.set (k * 256 + m) (data.take (bits h1 10 0)) } s)) := by
  have hpushed := h.pushed
  obtain ⟨hpart, rfl, rfl, rfl, hown, howner, -, -, -, hm, hk, hlen, hr0, hr1, hfence⟩ := h
  rw [exec_collContrib]
  simp [execCollContrib, reqPart, hpart, hown, howner, hpushed, Nat.not_le.2 hm, Nat.not_le.2 hk, hlen, hr0, hr1, hfence, hg, hgood, hred]

theorem collContrib_foreign (h : (seqOf s (bits h0 4 0)).owned = false ∨ (port s p).part ≠ some (seqOf s (bits h0 4 0)).part)
    (hn : (seqOf s (bits h0 4 0)).part < 16) :
    exec (.collContrib (.port p node x) [h0, h1] data) s = .next (reply (.port p node x) cNP s) := by
  have hforeign : (!(seqOf s (bits h0 4 0)).owned || (seqOf s (bits h0 4 0)).part != (port s p).part.getD 16) = true := by
    obtain howned | hpart := h
    · simp [howned]
    · cases hp : (port s p).part with
      | none => simp [Nat.ne_of_lt hn]
      | some q =>
        have hne : (seqOf s (bits h0 4 0)).part ≠ q := fun hq => hpart (by rw [hp, hq])
        simp [hne]
  exact (exec_collContrib ..).trans (if_pos hforeign)

end Sys2Proof.Machine
end

section
/-!
How a collective's data runs and ends (O44).
-/
namespace Sys2Proof.Machine

variable {s : State} {e tag k node x d f : Nat} {i : Inst}

theorem chdTimeout_here (hh : cHier i.cmd = false) (ho : i.out = cOk) (s : State) : chdTimeout e i s = chdFinish e { i with out := cTimeout } s := by
  rw [chdTimeout, hh, if_neg Bool.false_ne_true, ho]
  rfl

theorem exec_readyWaitTimeout (hi : instOf s e tag = some i) (hr : i.ready = false) (hb : i.readyBy = some d) (hd : d ≤ s.ft)
    (hv : (obj s (cReadyObj i.cmd)).value < i.cmd.w 2) : exec (.readyWaitTimeout e tag) s = .next (chdTimeout e i s) := by
  simp [exec, execReadyWaitTimeout, hi, hr, hb, hd, hv]

theorem exec_operandReadTimeout (hi : instOf s e tag = some i) (hr : i.retryAt = some d) (hf : i.firstTry = some f) (hd : f + 20000 ≤ s.ft) :
    exec (.operandReadTimeout e tag) s = .next (chdTimeout e i s) := by
  simp [exec, execOperandReadTimeout, hi, hr, hf, hd]

theorem exec_collectiveComplete (hi : instOf s e tag = some i) (hd : cChunks i.cmd ≤ i.done.length) (hp : i.pendRes = [])
    (hh : cHier i.cmd = false) : exec (.collectiveComplete e tag) s = .next (chdFinish e i s) := by
  simp [exec, execCollectiveComplete, hi, hd, hp, hh]

/-- R233, R238: the one collective of an engine, which spans no other switch, ends TIMEOUT. -/
theorem timeout_finishes (h : PortCollective i.cmd k node x) (hi : (eng s e).insts = [i]) (hh : cHier i.cmd = false) (ho : i.out = cOk) :
    Finished e (.port k node x) cTimeout s (chdTimeout e i s) := by
  rw [chdTimeout_here hh ho]
  exact chdFinish_finishes (j := { i with out := cTimeout }) h hi rfl

/-- Settles O44: a chunk is read, summed and written; a collective ends by its time-outs or with its last chunk; a contribution is taken once. -/
theorem collectiveData : Obligations.CollectiveData := by
  unfold Obligations.CollectiveData
  refine ⟨?chunk, ?notReady, ?readyTimeout, ?operandTimeout, ?complete, ?partialRows, ?taken, ?duplicate, ?foreign⟩
  case chunk =>
    rintro s v u e tag i _ ds hf hi rfl hr hp hop hpush hall hhier hacc hn hb hrd hw - hu
    rw [worse_ok, worse_ok]
    exact chunk_written ⟨hop, hpush, hall, hhier, hacc⟩ hf hi hr hp hn hb hrd hw hu
  case notReady =>
    intro s e tag i hf hi hr hv
    exact ⟨s, exec_chunkReadComplete_notReady hf hi hr hv, rfl⟩
  case readyTimeout =>
    intro s e tag i k node x d hi ht hr hb hd hv hh ho hreq hissuer hobj
    have hend := timeout_finishes ⟨hreq, hissuer, hobj⟩ hi hh ho
    exact ⟨_, exec_readyWaitTimeout (instOf_single hi ht) hr hb hd hv, hend.insts, hend.told, hend.frame⟩
  case operandTimeout =>
    intro s e tag i k node x d f hi ht hr hf hd hh ho hreq hissuer hobj
    have hend := timeout_finishes ⟨hreq, hissuer, hobj⟩ hi hh ho
    exact ⟨_, exec_operandReadTimeout (instOf_single hi ht) hr hf hd, hend.insts, hend.told, hend.frame⟩
  case complete =>
    intro s e tag i k node x hi ht hd hp hh ho hb hreq hissuer hobj
    have hend := chdFinish_finishes (j := i) ⟨hreq, hissuer, hobj⟩ hi rfl
    rw [finalCpl_ok ho hb] at hend
    exact ⟨_, exec_collectiveComplete (instOf_single hi ht) hd hp hh, hend.insts, hend.counted, hend.told, hend.frame⟩
  case partialRows =>
    intro s e tag i k node x hi ht hd hp hh ho hb hreq hissuer hobj
    have hend := chdFinish_finishes (j := i) ⟨hreq, hissuer, hobj⟩ hi rfl
    rw [finalCpl_partial ho hb] at hend
    exact ⟨_, exec_collectiveComplete (instOf_single hi ht) hd hp hh, hend.insts, hend.told, hend.frame⟩
  case taken =>
    intro s p node x e n m k i h0 h1 data hpart he hm hk hown howner hi ht hpush hred hmlt hklt hlen hr0 hr1 hgood hfence hg
    have h : Contributes s p e n m k h0 h1 i :=
      ⟨hpart, he, hm, hk, hown, howner, hi, ht, hpush, hmlt, hklt, by rw [hred]; exact hlen, hr0, hr1, hfence⟩
    exact ⟨_, collContrib_taken h hred hgood hg, insts_setInst_single hi rfl, rfl, (only_setInst e _ s).seq (only_emit _ _)⟩
  case duplicate =>
    intro s p node x e n m k i h0 h1 data hpart he hm hk hown howner hi ht hpush hmlt hklt hlen hr0 hr1 hfence hg
    have h : Contributes s p e n m k h0 h1 i :=
      ⟨hpart, he, hm, hk, hown, howner, hi, ht, hpush, hmlt, hklt, hlen, hr0, hr1, hfence⟩
    refine ⟨_, collContrib_duplicate h hg, ?_, ?_, rfl, (only_setEng e _ s).seq (only_emit _ _)⟩
    · rw [reply_port, eng_emit, eng_setEng]
      exact hi
    · rw [reply_port, eng_emit, eng_setEng, sat16]
  case foreign =>
    intro s p node x h0 h1 data h hn
    exact ⟨_, collContrib_foreign h hn, rfl, only_emit _ s⟩

end Sys2Proof.Machine
end

section
/-!
The records of other switches (R242 to R246): each is held, kept with its collective, written, or ends it.
-/
namespace Sys2Proof.Machine

variable {s u t : State} {e tag h k node x : Nat} {i : Inst} {r : HierRec} {hdr : List Nat} {data : List Byte}

theorem exec_hierPartial (e : Nat) (hdr : List Nat) (data : List Byte) (s : State) :
    exec (.hierPartial e hdr data) s = .next (hierRecv e { hdr := hdr, data := data } s) := rfl
theorem exec_hierResult (e : Nat) (hdr : List Nat) (data : List Byte) (s : State) :
    exec (.hierResult e hdr data) s = .next (hierRecv e { hdr := hdr, data := data } s) := rfl
theorem exec_hierAbort (e : Nat) (hdr : List Nat) (s : State) : exec (.hierAbort e hdr) s = .next (hierRecv e { hdr := hdr } s) := rfl

/-! ### A record whose collective does not run (R245) -/

theorem hierRecv_held (hi : instOf s e (bits (r.hdr.getD 0 0) 17 2) = none) (hk : bits (r.hdr.getD 0 0) 1 0 ≠ 3)
    (hroom : earlyBytes (eng s e) + 32 + r.data.length ≤ 1048576) :
    hierRecv e r s = setEng e { eng s e with early := (eng s e).early ++ [{ r with at_ := s.ft }] } s := by
  rw [hierRecv, hi]
  dsimp only [Option.filter]
  rw [if_neg hk, if_neg (Nat.not_lt.2 hroom)]

theorem hierRecv_refused (hi : instOf s e (bits (r.hdr.getD 0 0) 17 2) = none) (hk : bits (r.hdr.getD 0 0) 1 0 ≠ 3)
    (hfull : 1048576 < earlyBytes (eng s e) + 32 + r.data.length) :
    hierRecv e r s = send .roceNak e [0x20, bits (r.hdr.getD 0 0) 17 2] s := by
  rw [hierRecv, hi]
  dsimp only [Option.filter]
  rw [if_neg hk, if_pos hfull]

/-! ### A record of a collective that runs (R242, R244, R246) -/

/-- The record with first word `h` is of engine `e`'s one collective `i`, which spans switches. -/
structure OfInst (s : State) (e : Nat) (r : HierRec) (h : Nat) (i : Inst) : Prop where
  single : (eng s e).insts = [i]
  word : r.hdr.getD 0 0 = h
  tag : i.tag = bits h 17 2
  hier : cHier i.cmd = true

theorem OfInst.found (h : OfInst s e r k i) : (instOf s e (bits k 17 2)).filter (fun i => cHier i.cmd) = some i := by
  rw [instOf_single h.single h.tag, Option.filter_some, if_pos h.hier]

/-- The collective has seen the record of kind `kind` with first word `h`. -/
def seenRecord (kind h ft : Nat) (i : Inst) : Inst :=
  { i with seen := i.seen ++ [(kind, bits h 23 18, bits h 63 32)], lastRec := ft }

/-- The partial that a record in accumulators brings. -/
def partialOf (c : QCmd) (h : Nat) (data : List Byte) : HierPart :=
  { sender := bits h 23 18, accs := decodePartial (cRed c) (cWide c) data, poison := bitOf h 31 }

/-- The collective keeps the partial `p` of chunk `k`. -/
def keepPart (k : Nat) (p : HierPart) (i : Inst) : Inst := { i with parts := i.parts.set k (i.parts.get k ++ [p]) }

/-- R242 step 3: an own chunk waits for the partials that are missing. -/
theorem hierTry_waits (hl : (i.parts.get k).length < cG i.cmd) : hierTry e i k s = (s, i) := by
  rw [hierTry, if_pos (by simp [hl])]

theorem hierRecv_partial (h : OfInst s e r k i) (hk : bits k 1 0 = 0) (hm : hdrMatches i.cmd r = true) (ho : cOrdered i.cmd = false)
    (hs : (0, bits k 23 18, bits k 63 32) ∉ i.seen) (hl : (i.parts.get (bits k 63 32)).length + 1 < cG i.cmd) :
    hierRecv e r s = setInst e (keepPart (bits k 63 32) (partialOf i.cmd k r.data) (seenRecord 0 k s.ft i)) s := by
  have hwaits : hierTry e (keepPart (bits k 63 32) (partialOf i.cmd k r.data) (seenRecord 0 k s.ft i)) (bits k 63 32) s = (s, _) :=
    hierTry_waits (by simpa [keepPart, seenRecord] using hl)
  simp only [keepPart, seenRecord, partialOf] at hwaits ⊢
  have hnew : i.seen.contains (0, bits k 23 18, bits k 63 32) = false := by simpa using hs
  simp only [hierRecv, h.word, h.found, hk, hm, ho, hnew, hwaits, Nat.reduceEqDiff, Bool.not_true, Bool.or_false, Bool.false_eq_true, if_false,
    if_true]

/-- R242 step 4: a RESULT is written at the collective's destinations. -/
theorem applyResult_written (hb : bitOf (r.hdr.getD 0 0) 31 = false)
    (hw : writeAll e i.cmd false (r.data.take (chunkLen i.cmd (bits (r.hdr.getD 0 0) 63 32) * fmtBits (cOut i.cmd) / 8))
      (resultDests i (bits (r.hdr.getD 0 0) 63 32)) s = (u, cOk)) :
    applyResult e i r s = (countResult e [] false u, { i with done := i.done ++ [bits (r.hdr.getD 0 0) 63 32] }) := by
  have hretry : cOk.status ≠ .retry := nofun
  simp only [applyResult, hb, hw, if_neg hretry, Bool.false_eq_true, if_false, worse_ok]

theorem hierRecv_result (h : OfInst s e r k i) (hk : bits k 1 0 = 1) (hm : hdrMatches i.cmd r = true)
    (hs : (1, bits k 23 18, bits k 63 32) ∉ i.seen) (hb : bitOf k 31 = false)
    (hw : writeAll e i.cmd false (r.data.take (chunkLen i.cmd (bits k 63 32) * fmtBits (cOut i.cmd) / 8)) (resultDests i (bits k 63 32)) s = (u, cOk)) :
    hierRecv e r s =
      setInst e { seenRecord 1 k s.ft i with done := i.done ++ [bits k 63 32] } (countResult e [] false u) := by
  have happly := applyResult_written (i := seenRecord 1 k s.ft i) (r := r) (by rw [h.word]; exact hb) (by rw [h.word]; exact hw)
  rw [h.word] at happly
  simp only [seenRecord] at happly ⊢
  have hnew : i.seen.contains (1, bits k 23 18, bits k 63 32) = false := by simpa using hs
  simp only [hierRecv, h.word, h.found, hk, hm, hnew, happly, Nat.reduceEqDiff, Bool.not_true, Bool.or_false, Bool.false_eq_true, if_false]

theorem hierRecv_abort (h : OfInst s e r k i) (hk : bits k 1 0 = 2) : hierRecv e r s = hierEnd e i false s := by
  simp only [hierRecv, h.word, h.found, hk, Nat.reduceEqDiff, if_false, if_true]

/-! ### The end of a collective that spans switches (R246, R248) -/

/-- The count of R248 has gone up. -/
def timeoutCounted (s : State) : State := { s with chd := { s.chd with timeouts := sat 16 s.chd.timeouts } }

theorem only_timeoutCounted (s : State) : Only [.chd] s (timeoutCounted s) := only_chd _ s

theorem hierEnd_eq (ho : i.out = cOk) (abort : Bool) (s : State) : hierEnd e i abort s =
    chdFinish e { i with out := cTimeout } (timeoutCounted (if abort then sendAborts e i s else s)) := by
  rw [hierEnd, ho]
  rfl

theorem peerSent_unlisted {q len : Nat} (h : peerOf s q = none) : peerSent q len s = s := by rw [peerSent, h]

/-- Where no peer has an entry, an ABORT is only recorded. -/
theorem sendAborts_unlisted (h : ∀ q ∈ cPeers i.cmd, peerOf s q = none) :
    sendAborts e i s = { s with out := ((cPeers i.cmd).map fun q => Out.msg .hierAbort q [e, i.tag, cMe i.cmd] []).reverse ++ s.out } := by
  unfold sendAborts
  generalize cPeers i.cmd = l at h
  induction l generalizing s with
  | nil => rfl
  | cons q l ih =>
    have hq : peerOf (send .hierAbort q [e, i.tag, cMe i.cmd] s) q = none := h q List.mem_cons_self
    have hl : ∀ p ∈ l, peerOf (send .hierAbort q [e, i.tag, cMe i.cmd] s) p = none := fun p hp => h p (List.mem_cons_of_mem q hp)
    rw [List.foldl_cons, peerSent_unlisted hq, ih hl]
    simp [send, emit]

theorem only_sendAborts_unlisted (h : ∀ q ∈ cPeers i.cmd, peerOf s q = none) : Only [.out] s (sendAborts e i s) := by
  rw [sendAborts_unlisted h]
  exact .of fun p => by cases p <;> simp [SamePart]

theorem abort_mem_sendAborts {q : Nat} (h : ∀ q ∈ cPeers i.cmd, peerOf s q = none) (hq : q ∈ cPeers i.cmd) :
    .msg .hierAbort q [e, i.tag, cMe i.cmd] [] ∈ (sendAborts e i s).out := by
  rw [sendAborts_unlisted h]
  exact List.mem_append_left _ (List.mem_reverse.2 (List.mem_map_of_mem hq))

/-- The one collective of engine `e` ends TIMEOUT, after the time-out was counted. -/
theorem counted_finishes (h : PortCollective i.cmd k node x) (hi : (eng s e).insts = [i]) :
    Finished e (.port k node x) cTimeout (timeoutCounted s) (chdFinish e { i with out := cTimeout } (timeoutCounted s)) :=
  chdFinish_finishes (j := { i with out := cTimeout }) h hi rfl

theorem exec_hierTimeout (hi : instOf s e tag = some i) (hh : cHier i.cmd = true) (hs : cChunks i.cmd ≤ i.sent.length)
    (hd : i.done.length < cChunks i.cmd) (ht : i.lastRec + hierTmoNs s ≤ s.ft) :
    exec (.hierTimeout e tag) s = .next (hierEnd e i true s) := by
  simp [exec, execHierTimeout, hi, hh, hs, hd, ht]

/-- R245: one more record was discarded. -/
def discardCounted (s : State) : State := { s with chd := { s.chd with discards := sat 16 s.chd.discards } }

/-- R245: the held record `r` has waited out its time. -/
theorem exec_earlyRecordDiscard (hi : (eng s e).insts = []) (he : (eng s e).early = [r]) (ht : r.at_ + hierTmoNs s ≤ s.ft) :
    exec (.earlyRecordDiscard e) s = .next (setEng e { eng s e with early := [] } (discardCounted (setEng e (eng s e) s))) := by
  have hmatch : matchEarly e s = setEng e (eng s e) s := matchEarly_unmatched fun r _ => by rw [instOf, hi]; rfl
  have hdue : decide (r.at_ + hierTmoNs (setEng e (eng s e) s) ≤ (setEng e (eng s e) s).ft) = true := decide_eq_true ht
  simp only [exec, execEarlyRecordDiscard, hmatch, eng_setEng, he, List.find?_cons, hdue, List.erase_cons_head]
  rfl

/-- Settles O45: without its collective a record is held or refused; with it, it is kept, written or ends it; a record that does not come ends it too. -/
theorem hierarchicalReduce : Obligations.HierarchicalReduce := by
  unfold Obligations.HierarchicalReduce
  refine ⟨?held, ?refused, ?kept, ?written, ?aborted, ?timedOut, ?discarded⟩
  case held =>
    intro s e hdr data hi hk hroom
    exact ⟨_, (exec_hierPartial ..).trans (congrArg _ (hierRecv_held hi hk hroom)), eng_setEng .., only_setEng e _ s⟩
  case refused =>
    intro s e hdr data hi hk hfull
    exact ⟨_, (exec_hierResult ..).trans (congrArg _ (hierRecv_refused hi hk hfull)), rfl, only_send _ _ _ s⟩
  case kept =>
    rintro s e hdr data i h _ hi hw ht hh hk hm rfl ho hs hl
    exact ⟨_, (exec_hierPartial ..).trans (congrArg _ (hierRecv_partial ⟨hi, hw, ht, hh⟩ hk hm ho hs hl)),
      insts_setInst_single hi rfl, only_setInst e _ s⟩
  case written =>
    rintro s u e hdr data i h _ hi hw ht hh hk hm rfl hs hb ho hwr hu
    have hinsts : (eng (countResult e [] false u) e).insts = [i] := by rw [insts_countResult, eng, hu]; exact hi
    refine ⟨_, (exec_hierResult ..).trans (congrArg _ (hierRecv_result ⟨hi, hw, ht, hh⟩ hk hm hs hb hwr)), ?_, rfl,
      (only_countResult e [] false u).trans (only_setInst e _ _)⟩
    rw [← ho]
    exact insts_setInst_single hinsts rfl
  case aborted =>
    intro s e hdr i h k node x hi hw ht hh hk ho hreq hissuer hobj
    have hend := counted_finishes ⟨hreq, hissuer, hobj⟩ hi
    exact ⟨_, (exec_hierAbort ..).trans (congrArg _ ((hierRecv_abort ⟨hi, hw, ht, hh⟩ hk).trans (hierEnd_eq ho false s))),
      hend.insts, hend.timeouts.trans (sat16 _), hend.told, (only_timeoutCounted s).seq hend.frame |>.mono (by decide)⟩
  case timedOut =>
    intro s e tag i k node x hi ht hh hs hd htime ho hpeer hreq hissuer hobj
    subst ht
    have hframe := only_sendAborts_unlisted (e := e) hpeer
    have hchd : (sendAborts e i s).chd = s.chd := hframe .chd (by decide)
    have hinsts : (eng (sendAborts e i s) e).insts = [i] := by rw [eng, hchd]; exact hi
    have hend := counted_finishes ⟨hreq, hissuer, hobj⟩ hinsts
    have hout := hend.told
    refine ⟨_, (exec_hierTimeout (instOf_single hi rfl) hh hs hd htime).trans (congrArg _ (hierEnd_eq ho true s)), hend.insts, ?_, ?_, ?_, ?_⟩
    · rw [← hchd]
      exact hend.timeouts.trans (sat16 _)
    · exact congrArg List.head? hout
    · intro q hq
      exact (congrArg (_ ∈ ·) hout).mpr (List.mem_cons_of_mem _ (abort_mem_sendAborts hpeer hq))
    · exact (hframe.seq ((only_timeoutCounted _).seq hend.frame)).mono (by decide)
  case discarded =>
    intro s e r hi he ht
    exact ⟨_, exec_earlyRecordDiscard hi he ht, congrArg ChdEng.early (eng_setEng ..), sat16 _, (only_chd _ s).trans (only_chd _ _)⟩

end Sys2Proof.Machine
end

section
/-!
What an engine's read leaves: it may count, log, snoop, record a fault and use free values; memory, queues and the blocks' own
state stand.
-/
namespace Sys2Proof.Machine

variable {s t u : State} {l : List Part} {α β : Type}

/-! ### Frames through conditions, folds and pairs -/

theorem Only.ite {q : Prop} [Decidable q] (ht : Only l s t) (hu : Only l s u) : Only l s (if q then t else u) := by
  split
  · exact ht
  · exact hu

theorem Only.foldl {f : State → β → State} {bs : List β} (hf : ∀ t b, Only l t (f t b)) : Only l s (bs.foldl f s) := by
  induction bs generalizing s with
  | nil => exact .refl l s
  | cons b bs ih => exact (hf s b).trans ih

theorem Only.foldlFst {f : State × α → β → State × α} {bs : List β} {p : State × α} (hf : ∀ p b, Only l p.1 (f p b).1) :
    Only l p.1 (bs.foldl f p).1 := by
  induction bs generalizing p with
  | nil => exact .refl l p.1
  | cons b bs ih => exact (hf p b).trans ih

theorem Only.fst_eq {p : State × α} {a : α} (e : p = (t, a)) (h : Only l s p.1) : Only l s t := by subst e; exact h

/-! ### The steps of a read -/

/-- What a read may change: messages to owners, free values, the log, fault records, Fold's marks and counters, Vertex's windows. -/
abbrev readParts : List Part := [.out, .fresh, .cmp, .loc, .fld, .vtx]

theorem only_logPoison {part b : Nat} {c : BlkCause} {r : FoldReq} : Only [.cmp] s (logPoison part b c r s) :=
  only_of_unlogged (report_unlogged ..)

theorem only_detect {part b : Nat} {r : FoldReq} : Only [.fld, .cmp] s (detect part b r s) := by
  unfold detect
  split
  · exact .refl _ s
  · next c _ =>
    have hcount : Only [.fld, .cmp] s (countFail part c s) := (only_modFld part _ s).mono (by decide)
    exact .ite hcount (hcount.trans ((only_setBlk b _ _).seq only_logPoison))

theorem only_foldRead {part off len : Nat} {r : FoldReq} : Only [.fld, .cmp] s (foldRead part r off len s).1 := by
  unfold foldRead
  split
  · exact (Only.foldl fun _ _ => only_detect).trans ((only_modFld part _ _).mono (by decide))
  · exact .refl _ s

theorem only_freeSince {since : Option Nat} {off : Nat} {d : List Byte} : Only [.fresh] s (freeSince since off d s).1 := by
  unfold freeSince
  split
  · exact .refl _ s
  · dsimp only
    split
    · exact .refl _ s
    · exact only_useFresh s

theorem only_engineMeets {joins : Bool} {part line : Nat} : Only [.vtx] s (engineMeets joins part line s) := by
  unfold engineMeets
  split
  · exact .refl _ s
  · dsimp only
    split
    · exact only_modVtx _ s
    · split <;> exact only_modVtx _ s

theorem only_engineRead1 {comb : Bool} {part off n : Nat} : Only [.vtx, .out] s (engineRead1 comb part off n s).1 := by
  refine .foldlFst (p := (s, [])) fun p line => ?_
  have hmeets : Only [.vtx, .out] p.1 (engineMeets comb part line p.1) := only_engineMeets.mono (by decide)
  dsimp only
  split
  · split
    · exact hmeets.trans (.foldl fun t _ => (only_send _ _ _ t).mono (by decide))
    · exact hmeets
  · exact hmeets

theorem only_recordFault {x : XlReq} {k : FaultTy} {ctx seg level entry addr : Nat} :
    Only [.loc] s (recordFault x k ctx seg level entry addr s).1 := by
  unfold recordFault
  dsimp only
  split <;> exact only_modLoc (fun _ => _) s

theorem only_walkFrom {x : XlReq} {ctx seg off level table : Nat} {w : List Nat} :
    Only [.loc, .fld, .cmp] s (walkFrom x ctx seg w off level table s).1 := by
  induction level generalizing table with
  | zero => exact .refl _ s
  | succ level ih =>
    simp only [walkFrom]
    split
    · refine .trans ?_ (only_recordFault.mono (by decide))
      split
      · exact only_foldRead.mono (by decide)
      · exact .refl _ s
    · exact .refl _ s
    · exact ih
    · exact .refl _ s

theorem only_translate {x : XlReq} : Only [.loc, .fld, .cmp] s (translate x s).1 := by
  have hfault {k : FaultTy} {c g : Nat} : Only [.loc, .fld, .cmp] s (recordFault x k c g 0 0 0 s).1 :=
    only_recordFault.mono (by decide)
  unfold translate
  split
  · exact .refl _ s
  · exact .refl _ s
  · split
    · exact .refl _ s
    · split
      · exact .refl _ s
      · exact .refl _ s
      · exact hfault
      · split
        · split
          · exact hfault
          · exact .refl _ s
          · exact .refl _ s
        · exact only_walkFrom

theorem only_readPieces {x : XlReq} {pieces : List (Nat × Nat)} {ext acc : List Byte} {k : Cpl} :
    Only readParts s (readPieces x pieces ext s acc k).1 := by
  induction pieces generalizing ext s acc k with
  | nil => exact .refl _ s
  | cons y rest ih =>
    obtain ⟨va, n⟩ := y
    have htr : Only readParts s (translate { x with va := va, len := n } s).1 := only_translate.mono (by decide)
    rw [readPieces]
    split
    · next e => exact (htr.fst_eq e).trans ih
    · next u pa w _ e =>
      refine (htr.fst_eq e).trans ?_
      have hfree {off : Nat} {d : List Byte} {t : State} : Only readParts t (freeSince x.since off d t).1 :=
        only_freeSince.mono (by decide)
      have hfresh {t : State} : Only readParts t (useFresh t) := (only_useFresh t).mono (by decide)
      split
      · exact ih
      · split
        · exact ((only_engineDown _ u).mono (by decide)).trans ih
        · split
          · split
            · exact ih
            · exact hfresh.trans ih
          · split
            · exact ih
            · have hown : Only readParts u (if segCoherent w then engineRead1 (segCombinable w) x.part (bits pa 51 0) n u else (u, [])).1 := by
                split
                · exact only_engineRead1.mono (by decide)
                · exact .refl _ u
              refine hown.trans ?_
              dsimp only
              generalize (if segCoherent w then engineRead1 (segCombinable w) x.part (bits pa 51 0) n u else (u, [])) = p
              split
              · exact (only_foldRead.mono (by decide)).trans (hfree.trans ih)
              · exact hfresh.trans (hfree.trans ih)

theorem only_engineReadFrom {since : Option Nat} {num n asid va len : Nat} {ext : List Byte} :
    Only readParts s (engineReadFrom since num n asid va len ext s).1 := only_readPieces

theorem only_engineReadAs {num n asid va len : Nat} {ext : List Byte} : Only readParts s (engineReadAs num n asid va len ext s).1 :=
  only_engineReadFrom

/-! ### A command taken -/

theorem only_monCmd {b : Block} {q : Nat} {c : QCmd} : Only [.arc] s (monCmd b q c s) := by
  unfold monCmd
  split
  · exact only_monSample _ _ _ _ _ s
  · exact only_monSample _ _ _ _ _ s
  · exact only_monSample _ _ _ _ _ s
  · exact .refl _ s

/-- A command taken leaves its queue, and the queue's monitor notes its wait. -/
theorem only_takeCmd {b : Block} {q m : Nat} {g : QCmd → Bool} {c : QCmd} (h : takeCmd b q m g s = some (c, u)) : Only [.arc, .eng] s u := by
  unfold takeCmd at h
  split at h
  · cases h
  · split at h
    · split at h
      · cases h
        exact only_monCmd.seq (only_setIssued _ _ _ _)
      · cases h
    · split at h
      · split at h
        · cases h
          exact only_monCmd.seq (only_setQueue _ _ _ _)
        · cases h
      · cases h

end Sys2Proof.Machine
end

section
/-!
Cone's queries and their slices (R266, R273, R278): places on the engines, a query that starts, and a query that ends.
-/
namespace Sys2Proof.Machine

variable {s v t : State} {e a n p node tag : Nat} {es : List Nat} {q r : Query} {x : Slice} {k : Cpl}

theorem only_cone (c : Cone) (s : State) : Only [.cone] s { s with cone := c } :=
  .of fun p => by cases p <;> simp [SamePart]

theorem only_modConeEng (e : Nat) (f : ConeEng → ConeEng) (s : State) : Only [.cone] s (modConeEng e f s) := only_cone _ s

theorem only_modConeStat (n : Nat) (f : ConeStat → ConeStat) (s : State) : Only [.cone] s (modConeStat n f s) := only_cone _ s

theorem only_setQuery (q : Query) (s : State) : Only [.cone] s (setQuery q s) := only_cone _ s

/-- The one query, replaced. -/
theorem setQuery_single (h : s.cone.queries = [q]) (hr : r.id = q.id) : (setQuery r s).cone.queries = [r] := by
  simp [setQuery, h, hr]

theorem find_single (h : s.cone.queries = [q]) (hi : q.id = n) : s.cone.queries.find? (·.id == n) = some q := by simp [h, hi]

/-! ### Places on an engine (R278) -/

theorem only_admitNext : Only [.cone] s (admitNext e s) := by
  unfold admitNext
  refine .ite (.refl _ s) ?_
  dsimp only
  split
  · exact (only_setQuery _ s).trans (only_modConeEng _ _ _)
  · exact .refl _ s

theorem only_admitAll : Only [.cone] s (admitAll es s) := .foldl fun _ _ => only_admitNext

/-- Batches are none of the places' concern. -/
theorem batches_admitNext : (admitNext e s).cone.batches = s.cone.batches := by
  unfold admitNext
  split
  · rfl
  · dsimp only
    split <;> rfl

theorem batches_admitAll : (admitAll es s).cone.batches = s.cone.batches := by
  induction es generalizing s with
  | nil => rfl
  | cons e es ih => exact ih.trans batches_admitNext

theorem admitAll_none (h : s.cone.queries = []) : admitAll es s = s := by
  have hnext (e : Nat) : admitNext e s = s := by simp [admitNext, activeOn, h, sortBy]
  induction es with
  | nil => rfl
  | cons e es ih => rw [admitAll, List.foldl_cons, hnext]; exact ih

/-- With its one slice not waiting for a place there, the query leaves the engine as it is. -/
theorem admitNext_unasked (hq : s.cone.queries = [q]) (hs : q.slices = [x])
    (h : x.active = true ∨ x.count ≤ x.folded ∨ x.engine ≠ e ∨ q.stop = true) : admitNext e s = s := by
  have hw : (!x.active && x.engine == e && decide (x.folded < x.count) && !q.stop) = false := by
    rcases h with h | h | h | h <;> simp [h]
  simp only [admitNext, hq, hs, List.flatMap_cons, List.flatMap_nil, List.append_nil, List.filter_cons, hw, List.filter_nil]
  split <;> rfl

/-- The one slice, which waits, takes a place. -/
theorem admitNext_admits (hq : s.cone.queries = [q]) (hs : q.slices = [x]) (he : x.engine = e) (ha : x.active = false)
    (hf : x.folded < x.count) (hstop : q.stop = false) :
    admitNext e s = modConeEng e (fun g => { g with slices := sat 16 g.slices }) (setQuery { q with slices := [{ x with active := true }] } s) := by
  have hroom : (activeOn s e).length = 0 := by simp [activeOn, hq, hs, ha]
  simp [admitNext, hroom, hq, hs, he, ha, hf, hstop, sortBy, insertBy]

/-- The one slice may take a place; the query is otherwise as it was. -/
theorem queries_admitNext_single (hq : s.cone.queries = [q]) (hs : q.slices = [x]) (he : x.engine = e) (ha : x.active = false)
    (hstop : q.stop = false) :
    (admitNext e s).cone.queries = [{ q with slices := [{ x with active := decide (x.folded < x.count) }] }] := by
  by_cases hf : x.folded < x.count
  · rw [admitNext_admits hq hs he ha hf hstop, decide_eq_true hf]
    exact setQuery_single hq rfl
  · rw [admitNext_unasked hq hs (.inr (.inl (Nat.not_lt.1 hf))), decide_eq_false hf, hq, ← ha, ← hs]

/-- Whatever the places, the query keeps all but its slice's mark of one. -/
theorem exists_queries_admitNext (hq : s.cone.queries = [q]) (hs : q.slices = [x]) (he : x.engine = e) :
    ∃ a, (admitNext e s).cone.queries = [{ q with slices := [{ x with active := a }] }] := by
  by_cases h : x.active = true ∨ q.stop = true
  · refine ⟨x.active, ?_⟩
    rw [admitNext_unasked hq hs (h.imp_right fun h => .inr (.inr h)), hq, ← hs]
  · simp only [not_or, Bool.not_eq_true] at h
    exact ⟨_, queries_admitNext_single hq hs he h.1 h.2⟩

/-! ### A query starts (R264 to R266, R274) -/

theorem only_sessHold (n : Nat) (s : State) : Only [.orb] s (sessHold n s) := only_setSess n _ s

/-- The vectors of a query: sent with it, or read. -/
def queryVecs (q : Query) (s : State) : State × Cpl :=
  if qInline q.hdr then (s, cData ((q.cmd.words.drop 8).flatMap (toLE 8)))
  else engineReadAs (32 + q.lead) q.cmd.part q.asid (q.hdr.getD 5 0) (qVecBytes q.hdr) [] s

/-- A query as it starts in `s`, its vectors' reading having ended with `k`; `es` gives its slices' engines. -/
def startedQuery (q : Query) (es : List Nat) (k : Cpl) (s : State) : Query :=
  { q with
    slices := ((slicesOf (qSplit q.hdr) (qT0 q.hdr) (qN q.hdr)).zipIdx).map fun (p, i) =>
      { idx := i, engine := es.getD i q.lead, first := p.1, count := p.2, heads := freshHeads q.hdr }
    acc := freshHeads q.hdr, vecs := k.data, id := s.cone.nextId,
    stop := k.status != .ok && k.status != .retry, out := if k.status = .retry then cOk else { k with data := [] },
    retryAt := if k.status = .retry then some (s.ft + k.hint) else none, firstTry := if k.status = .retry then some s.ft else none }

/-- The query runs and holds its session. -/
def heldQuery (q : Query) (s : State) : State :=
  sessHold q.num { s with cone := { s.cone with queries := s.cone.queries ++ [q], nextId := s.cone.nextId + 1 } }

/-- R286: a query of the partition was accepted. -/
def queryCounted (q : Query) (s : State) : State := modConeStat q.cmd.part (fun x => { x with queries := sat 16 x.queries }) s

theorem startQuery_eq (h : queryVecs q s = (v, k)) :
    startQuery q es s = admitAll ((startedQuery q es k v).slices.map (·.engine)) (heldQuery (startedQuery q es k v) (queryCounted q v)) := by
  have hv : (if qInline q.hdr then (s, cData ((q.cmd.words.drop 8).flatMap (toLE 8)))
    else engineReadAs (32 + q.lead) q.cmd.part q.asid (q.hdr.getD 5 0) (qVecBytes q.hdr) [] s) = (v, k) := h
  simp only [startQuery, hv]
  simp only [startedQuery, List.map_map]
  rfl

theorem only_queryVecs : Only readParts s (queryVecs q s).1 := by
  unfold queryVecs
  split
  · exact .refl _ s
  · exact only_engineReadAs

theorem sess_of_orb {n : Nat} (h : t.orb = s.orb) : sess t n = sess s n := by rw [sess, h, sess]

theorem sess_sessHold (n : Nat) (s : State) : sess (sessHold n s) n = { sess s n with refs := (sess s n).refs + 1 } := Tab.get_set_same ..

theorem sess_heldQuery (q : Query) (s : State) : sess (heldQuery q s) q.num = { sess s q.num with refs := (sess s q.num).refs + 1 } :=
  sess_sessHold ..

theorem only_heldQuery : Only [.cone, .orb] s (heldQuery q s) := (only_cone _ s).seq (only_sessHold _ _)

theorem only_startQuery (h : queryVecs q s = (v, k)) : Only [.cone, .orb] v (startQuery q es s) := by
  rw [startQuery_eq h]
  exact ((only_modConeStat _ _ v).mono (by decide)).trans (only_heldQuery.trans (only_admitAll.mono (by decide)))

/-- The one slice of a query that starts. -/
theorem slices_startedQuery (h : slicesOf (qSplit q.hdr) (qT0 q.hdr) (qN q.hdr) = [(a, n)]) :
    (startedQuery q es k s).slices = [{ engine := es.getD 0 q.lead, first := a, count := n, heads := freshHeads q.hdr }] := by
  simp [startedQuery, h]

theorem queries_heldQuery (h : s.cone.queries = []) : (heldQuery q (queryCounted r s)).cone.queries = [q] := by
  simp [heldQuery, queryCounted, sessHold, setSess, h]

theorem queries_startQuery (h : queryVecs q s = (v, k)) (hv : v.cone.queries = [])
    (hsl : slicesOf (qSplit q.hdr) (qT0 q.hdr) (qN q.hdr) = [(a, n)]) : ∃ active, (startQuery q es s).cone.queries = [{ startedQuery q es k v with
      slices := [{ engine := es.getD 0 q.lead, first := a, count := n, active := active, heads := freshHeads q.hdr }] }] := by
  have hslices := slices_startedQuery (es := es) (k := k) (s := v) hsl
  rw [startQuery_eq h, hslices]
  exact exists_queries_admitNext (queries_heldQuery hv) hslices rfl

/-- With its vectors read the slice has its place. -/
theorem queries_startQuery_ok (h : queryVecs q s = (v, k)) (hk : k.status = .ok) (hv : v.cone.queries = [])
    (hsl : slicesOf (qSplit q.hdr) (qT0 q.hdr) (qN q.hdr) = [(a, n)]) : (startQuery q es s).cone.queries = [{ startedQuery q es k v with
      slices := [{ engine := es.getD 0 q.lead, first := a, count := n, active := decide (0 < n), heads := freshHeads q.hdr }] }] := by
  have hslices := slices_startedQuery (es := es) (k := k) (s := v) hsl
  have hstop : (startedQuery q es k v).stop = false := by simp [startedQuery, hk]
  rw [startQuery_eq h, hslices]
  exact queries_admitNext_single (queries_heldQuery hv) hslices rfl rfl hstop

theorem batches_startQuery (h : queryVecs q s = (v, k)) : (startQuery q es s).cone.batches = v.cone.batches := by
  rw [startQuery_eq h, batches_admitAll]
  rfl

/-- A query that starts leaves the batches and the command queues. -/
theorem startQuery_leaves :
    (startQuery q es s).cone.batches = s.cone.batches ∧ (startQuery q es s).eng = s.eng := by
  rcases hq : queryVecs q s with ⟨v, k⟩
  have hread : Only readParts s v := only_queryVecs.fst_eq hq
  have hcone : v.cone = s.cone := hread .cone (by decide)
  exact ⟨(batches_startQuery hq).trans (congrArg Cone.batches hcone), (only_startQuery hq .eng (by decide)).trans (hread .eng (by decide))⟩

/-- The first query of a Cone without any, of one slice. -/
theorem startQuery_first (hs : s.cone.queries = []) (hsl : slicesOf (qSplit q.hdr) (qT0 q.hdr) (qN q.hdr) = [(a, n)]) :
    ∃ v k active, (startQuery q es s).cone.queries = [{ startedQuery q es k v with
      slices := [{ engine := es.getD 0 q.lead, first := a, count := n, active := active, heads := freshHeads q.hdr }] }] := by
  rcases hq : queryVecs q s with ⟨v, k⟩
  have hcone : v.cone = s.cone := only_queryVecs.fst_eq hq .cone (by decide)
  exact ⟨v, k, queries_startQuery hq (by rw [hcone, hs]) hsl⟩

/-- R266: the session is held once more. -/
theorem sess_startQuery (h : queryVecs q s = (v, k)) :
    sess (startQuery q es s) q.num = { sess v q.num with refs := (sess v q.num).refs + 1 } := by
  have horb : (startQuery q es s).orb = (heldQuery (startedQuery q es k v) (queryCounted q v)).orb := by
    rw [startQuery_eq h]
    exact only_admitAll .orb (by decide)
  rw [sess_of_orb horb]
  exact sess_heldQuery (startedQuery q es k v) (queryCounted q v)

/-! ### A query ends (R266, R267, R280) -/

/-- A query of a port, of no batch, that names no completion object and that no program issued. -/
structure PortQuery (q : Query) (p node tag : Nat) : Prop where
  req : q.cmd.req = .port p node tag
  issuer : q.cmd.issuer = none
  obj : qObj q.hdr = none
  alone : q.batch = none

/-- R649: a command of a port that names no object and that no program issued answers its port. -/
theorem finishCmd_ofPort {c : QCmd} {o : Option Nat} (hreq : c.req = .port p node tag) (hissuer : c.issuer = none) (ho : o = none)
    (k : Cpl) (s : State) : finishCmd c o k s = emit (.cpl (.port p node tag) k) s := by
  rw [ho, finishCmd_plain c k s hissuer, hreq, reply_port]

theorem only_sessRelease (n : Nat) (s : State) : Only [.orb] s (sessRelease n s) := .ite (.refl _ s) (only_setSess n _ s)

/-- The query is gone, its session released, and its end counted. -/
def queryDropped (q : Query) (k : Cpl) (s : State) : State :=
  let s := { s with cone := { s.cone with queries := s.cone.queries.filter (·.id != q.id) } }
  let s := modConeEng q.lead (fun g => { g with doneN := sat 16 g.doneN }) (sessRelease q.num s)
  if k.status = .timeout then { s with cone := { s.cone with timeouts := sat 16 s.cone.timeouts } } else s

theorem only_queryDropped : Only [.cone, .orb] s (queryDropped q k s) := by
  have hleft := (only_cone { s.cone with queries := s.cone.queries.filter (·.id != q.id) } s).seq ((only_sessRelease q.num _).seq
    (only_modConeEng q.lead (fun g => { g with doneN := sat 16 g.doneN }) _)) |>.mono (m := [.cone, .orb]) (by decide)
  exact .ite (hleft.trans ((only_cone _ _).mono (by decide))) hleft

@[simp] theorem sessRelease_cone (n : Nat) (s : State) : (sessRelease n s).cone = s.cone := only_sessRelease n s .cone (by decide)

theorem queries_queryDropped (h : s.cone.queries = [q]) : (queryDropped q k s).cone.queries = [] := by
  unfold queryDropped
  dsimp only
  split <;> simp [h]

theorem timeouts_queryDropped (h : k.status = .timeout) : (queryDropped q k s).cone.timeouts = sat 16 s.cone.timeouts := by
  simp [queryDropped, h]

/-- The one query, of a port, ended: it is gone, its requester told with its QTAG. -/
theorem endQuery_port (h : PortQuery q p node tag) (hq : s.cone.queries = [q]) :
    endQuery q k s = emit (.cpl (.port p node tag) { k with aux := bits (q.hdr.getD 0 0) 63 48, data := [] }) (queryDropped q k s) := by
  have hnone := queries_queryDropped (k := k) hq
  have hend : endQuery q k s = admitAll ((q.slices.map (·.engine)).eraseDups)
      (finishCmd q.cmd (qObj q.hdr) { k with aux := bits (q.hdr.getD 0 0) 63 48, data := [] } (queryDropped q k s)) := by
    rw [endQuery, h.alone]
    rfl
  rw [hend, finishCmd_ofPort h.req h.issuer h.obj, admitAll_none (by exact hnone)]

/-- The one query is gone, and its requester told `c`. -/
structure QueryEnded (who : Requester) (c : Cpl) (s t : State) : Prop where
  queries : t.cone.queries = []
  told : Told s t who c
  frame : Only [.cone, .orb, .out] s t

theorem endQuery_ends (h : PortQuery q p node tag) (hq : s.cone.queries = [q]) :
    QueryEnded (.port p node tag) { k with aux := bits (q.hdr.getD 0 0) 63 48, data := [] } s (endQuery q k s) := by
  rw [endQuery_port h hq]
  obtain ⟨htold, hframe⟩ := told_after (who := .port p node tag) (c := { k with aux := bits (q.hdr.getD 0 0) 63 48, data := [] })
    (only_queryDropped (q := q) (k := k) (s := s)) (by decide)
  exact ⟨queries_queryDropped hq, htold, hframe⟩

end Sys2Proof.Machine
end

section
/-!
Cone's commands (R263, R275 to R277): what a QUERY and a BATCH that pass their checks run, and what the refused ones answer.
-/
namespace Sys2Proof.Machine

variable {s u v t : State} {e p node tag m n a i j : Nat} {x : SessInfo} {k d : Cpl} {c : QCmd} {b : Batch} {g : ConeGroup} {w h : List Nat}

/-! ### QUERY (R263 to R266) -/

/-- The query of header `h` that command `c` asks for, in the session `x` with segment `w`. -/
def askedQuery (c : QCmd) (h : List Nat) (x : SessInfo) (w : List Nat) (lead : Nat) (batch : Option (Nat × Nat)) : Query :=
  { cmd := c, hdr := h, num := x.num, slot := x.slot, seg := x.seg, segw := w, lead := lead, cls := bits (c.w 0) 6 4, asid := qAsid c.words,
    batch := batch }

/-- R274: the engines of a group in turn, from the place of engine `e` on. -/
def enginesFrom (g : ConeGroup) (e : Nat) : List Nat :=
  (List.range 16).map fun i => (sortBy id g.engines).getD ((rankIn g e + i) % (sortBy id g.engines).length) e

theorem exec_query_starts (ht : takeCmd .cone e (32 + e) (fun c => bits (c.w 0) 3 0 == 1) s = some (c, u)) (hc : coneCheck u e c = none)
    (hx : qSession u c.part (qAsid c.words) c.words = some (x, w)) (hg : coneGroup u (qGroup c.words) = some g) (hl : c.words.length = 8) :
    exec (.query e) s = .next (startQuery (askedQuery c c.words x w e none) (enginesFrom g e) u) := by
  have htake : c.words.take 8 = c.words := List.take_of_length_le hl.le
  simp only [exec, execQuery, ht, hc, hx, hg, htake]
  rfl

theorem exec_query_refused (ht : takeCmd .cone e (32 + e) (fun c => bits (c.w 0) 3 0 == 1) s = some (c, u)) (hc : coneCheck u e c = some d)
    (hd : d.reason ≠ some .state) : exec (.query e) s = .next (finishCmd c (qObj c.words) d u) := by
  simp [exec, execQuery, ht, hc, hd]

/-! ### BATCH (R275 to R277) -/

/-- With no batch standing, a BATCH that passes its checks runs. -/
theorem exec_batch_runs (ht : takeCmd .cone e (32 + e) (fun c => bits (c.w 0) 3 0 == 2) s = some (c, u)) (hc : coneCheck u e c = none)
    (hb : u.cone.batches = []) : exec (.batch e) s = .next (runBatch e c none u) := by
  have hcone : u.cone = s.cone := only_takeCmd ht .cone (by decide)
  have hfind : s.cone.batches.find? (fun b => b.first.isSome && b.cmd.id == e) = none := by rw [← hcone, hb]; rfl
  simp only [exec, execBatch, hfind, ht, hc]

/-- The headers of `n` members that a member list read as `k` gives. -/
def memberHeaders (n : Nat) (k : Cpl) : List (List Nat) :=
  (List.range n).map fun i => (List.range 8).map fun j => ofLE ((k.data.drop (64 * i + 8 * j)).take 8)

/-- The batch of `n` members stands, none of them looked at. -/
def batchHeld (n : Nat) (c : QCmd) (s : State) : State :=
  { s with cone := { s.cone with
      batches := s.cone.batches ++ [{ id := s.cone.nextId, cmd := c, left := n, total := n }], nextId := s.cone.nextId + 1 } }

/-- What speaks against a member of the batch `c`. -/
def memberCheck (e : Nat) (c : QCmd) (s : State) (h : List Nat) : Option Cpl :=
  qCheck s c.part e (qAsid c.words) (qGroup c.words) true h c

/-- R276: the engines of the slices of those members that nothing speaks against. -/
def batchPlan (e : Nat) (c : QCmd) (s : State) (hs : List (List Nat)) : List (Nat × Nat × Nat) :=
  assignBatch (match coneGroup s (qGroup c.words) with | some g => sortBy id g.engines | none => [e])
    (sortBy (fun x => 1048576 - x.2.2) (((hs.zip (hs.map (memberCheck e c s))).zipIdx).flatMap fun ((h, k), m) =>
      if k.isSome then [] else ((slicesOf (qSplit h) (qT0 h) (qN h)).zipIdx).map fun (p, i) => (m, i, p.2))) []

/-- R276: the engines a plan gives the slices of member `m`. -/
def planned (e : Nat) (plan : List (Nat × Nat × Nat)) (m : Nat) : List Nat :=
  (List.range 16).map fun i => ((plan.find? fun y => y.1 == m && y.2.1 == i).map (·.2.2)).getD e

/-- Member `m` of batch `bid` is started, or its status written. -/
def memberMet (e : Nat) (c : QCmd) (bid : Nat) (plan : List (Nat × Nat × Nat)) (s : State) : (List Nat × Option Cpl) × Nat → State
  | ((h, k), m) =>
    match k with
    | some k => memberDone bid m k
        (if k.reason = some .state then modConeStat c.part (fun x => { x with stateRefused := sat 16 x.stateRefused }) s else s)
    | none =>
      match qSession s c.part (qAsid c.words) h with
      | some (x, w) => startQuery (askedQuery c h x w ((planned e plan m).headD e) (some (bid, m))) (planned e plan m) s
      | none => memberDone bid m cNP s

/-- A batch whose list was read meets its members in turn. -/
theorem runBatch_read {first : Option Nat} (hn : bits (c.w 1) 6 0 = n)
    (hr : engineReadAs (32 + e) c.part (qAsid c.words) (c.w 5) (64 * n) [] u = (v, k)) (hk : k.status = .ok) :
    runBatch e c first u =
      (((memberHeaders n k).zip ((memberHeaders n k).map (memberCheck e c (batchHeld n c v)))).zipIdx).foldl
        (memberMet e c v.cone.nextId (batchPlan e c (batchHeld n c v) (memberHeaders n k))) (batchHeld n c v) := by
  have hretry : ¬ k.status = .retry := by simp [hk]
  have hbad : ¬ (k.status != .ok) = true := by simp [hk]
  simp only [runBatch, hn, hr, if_neg hretry, if_neg hbad]
  rfl

/-- The header of the only member. -/
def soleMember (k : Cpl) : List Nat := (List.range 8).map fun j => ofLE ((k.data.drop (8 * j)).take 8)

theorem memberHeaders_one (k : Cpl) : memberHeaders 1 k = [soleMember k] := by simp [memberHeaders, soleMember]

/-- The list of the one member of `c` was read as `k`. -/
structure SoleRead (e : Nat) (c : QCmd) (u v : State) (k : Cpl) : Prop where
  one : bits (c.w 1) 6 0 = 1
  read : engineReadAs (32 + e) c.part (qAsid c.words) (c.w 5) 64 [] u = (v, k)
  ok : k.status = .ok

/-- A batch of one member meets it. -/
theorem runBatch_one (h : SoleRead e c u v k) : runBatch e c none u =
    memberMet e c v.cone.nextId (batchPlan e c (batchHeld 1 c v) [soleMember k]) (batchHeld 1 c v)
      ((soleMember k, memberCheck e c (batchHeld 1 c v) (soleMember k)), 0) := by
  rw [runBatch_read h.one h.read h.ok, memberHeaders_one]
  rfl

theorem runBatch_refused (h : SoleRead e c u v k) (hd : memberCheck e c v (soleMember k) = some d) (hs : d.reason ≠ some .state) :
    runBatch e c none u = memberDone v.cone.nextId 0 d (batchHeld 1 c v) := by
  have hd' : memberCheck e c (batchHeld 1 c v) (soleMember k) = some d := hd
  rw [runBatch_one h, hd', memberMet]
  exact congrArg _ (if_neg hs)

/-- The plan of a sole member of one slice, in a group of one engine. -/
theorem batchPlan_one (hd : memberCheck e c s h = none) (hg : coneGroup s (qGroup c.words) = some { g := n, part := p, engines := [m] })
    (hsl : slicesOf (qSplit h) (qT0 h) (qN h) = [(a, j)]) : batchPlan e c s [h] = [(0, 0, m)] := by
  simp [batchPlan, hd, hg, hsl, sortBy, insertBy, assignBatch]

theorem planned_one : planned e [(0, 0, m)] 0 = m :: List.replicate 15 e := rfl

theorem runBatch_starts (h : SoleRead e c u v k) (hd : memberCheck e c v (soleMember k) = none)
    (hx : qSession v c.part (qAsid c.words) (soleMember k) = some (x, w))
    (hg : coneGroup v (qGroup c.words) = some { g := n, part := p, engines := [m] })
    (hsl : slicesOf (qSplit (soleMember k)) (qT0 (soleMember k)) (qN (soleMember k)) = [(a, j)]) :
    runBatch e c none u =
      startQuery (askedQuery c (soleMember k) x w m (some (v.cone.nextId, 0))) (m :: List.replicate 15 e) (batchHeld 1 c v) := by
  have hd' : memberCheck e c (batchHeld 1 c v) (soleMember k) = none := hd
  have hx' : qSession (batchHeld 1 c v) c.part (qAsid c.words) (soleMember k) = some (x, w) := hx
  have hplan : batchPlan e c (batchHeld 1 c v) [soleMember k] = [(0, 0, m)] := batchPlan_one hd hg hsl
  rw [runBatch_one h, hd', hplan]
  simp only [memberMet, hx', planned_one, List.headD_cons]

/-! ### A batch ends (R275, R277) -/

/-- R277: the word written for a member that ended with `d`. -/
def memberWord (d : Cpl) : Nat :=
  pack [(4, d.status.code), (4, match d.reason with | some r => r.code | none => 0), (1, 1)]

/-- Where no other batch stands, it is the only one. -/
theorem batchHeld_first (h : v.cone.batches = []) : batchHeld n c v =
    { v with cone := { v.cone with batches := [{ id := v.cone.nextId, cmd := c, left := n, total := n }], nextId := v.cone.nextId + 1 } } := by
  simp [batchHeld, h]

/-- The batch with one member fewer to come, which ended with `d`. -/
def memberCounted (b : Batch) (d : Cpl) : Batch :=
  { b with left := b.left - 1, okN := if d.status = .ok then b.okN + 1 else b.okN }

/-- Member `i`'s word in the member list, written. -/
def memberWritten (b : Batch) (i : Nat) (d : Cpl) (s : State) : State :=
  (engineWriteAs (32 + b.cmd.id) b.cmd.part (qAsid b.cmd.words) (b.cmd.w 5 + 64 * i + 56) (toLE 8 (memberWord d)) false s).1

def setBatch (b : Batch) (s : State) : State :=
  { s with cone := { s.cone with batches := s.cone.batches.map fun x => if x.id = b.id then b else x } }

theorem memberDone_found {bid : Nat} (h : s.cone.batches.find? (·.id == bid) = some b) : memberDone bid i d s =
    if (memberCounted b d).left = 0 then finishBatch (memberCounted b d) (setBatch (memberCounted b d) (memberWritten b i d s))
    else setBatch (memberCounted b d) (memberWritten b i d s) := by
  simp only [memberDone, h]
  rfl

/-- A batch of a port that names no completion object and that no program issued. -/
structure PortBatch (b : Batch) (p node tag : Nat) : Prop where
  req : b.cmd.req = .port p node tag
  issuer : b.cmd.issuer = none
  obj : qObj b.cmd.words = none

theorem PortBatch.counted (h : PortBatch b p node tag) (d : Cpl) : PortBatch (memberCounted b d) p node tag := ⟨h.req, h.issuer, h.obj⟩

/-- R275: a batch none of whose members ended OK completes PARTIAL. -/
theorem finishBatch_partial (h : PortBatch b p node tag) (hb : s.cone.batches = [b]) (hn : b.okN = 0) (ht : b.total ≠ 0) : finishBatch b s =
    emit (.cpl (.port p node tag) { status := .partialDone, value := 0 }) { s with cone := { s.cone with batches := [] } } := by
  have hne : ¬ 0 = b.total := Ne.symm ht
  simp only [finishBatch, finishCmd_ofPort h.req h.issuer h.obj, hb, hn, if_neg hne]
  simp

/-- R277: the sole member of the one batch ends, not OK: its word is written and the batch completes PARTIAL. -/
theorem memberDone_refuses (h : PortBatch b p node tag) (hb : s.cone.batches = [b]) (hleft : b.left = 1) (ho : b.okN = 0) (ht : b.total = 1)
    (hd : d.status ≠ .ok) (hw : memberWritten b i d s = t) (hc : t.cone = s.cone) : memberDone b.id i d s =
      emit (.cpl (.port p node tag) { status := .partialDone, value := 0 }) { t with cone := { t.cone with batches := [] } } := by
  have hfind : s.cone.batches.find? (·.id == b.id) = some b := by simp [hb]
  have hnone : (memberCounted b d).left = 0 := by simp [memberCounted, hleft]
  have hset : (setBatch (memberCounted b d) t).cone.batches = [memberCounted b d] := by simp [setBatch, hc, hb, memberCounted]
  rw [memberDone_found hfind, if_pos hnone, hw,
    finishBatch_partial (h.counted d) hset (by simp [memberCounted, hd, ho]) (by simp [memberCounted, ht])]
  rfl

end Sys2Proof.Machine
end

section
/-!
A query on its way (R268 to R271, R274, R278 to R280): its slices' places and tiles, the merge of their results, its completion and its
time-out.
-/
namespace Sys2Proof.Machine

variable {s u v : State} {e m n id i : Nat} {q r : Query} {x y : Slice}

/-! ### Tiles (R268 to R270, R278 to R280) -/

/-- R278, R286: what the engine and the partition count of a tile of slice `x`. -/
def tileCounted (q : Query) (x : Slice) (off : Bool) (s : State) : State :=
  let lower := (activeOn s x.engine).any fun p => decide (q.cls < p.1.cls)
  let s := modConeEng x.engine (fun g => { g with
    promptTurns := if q.cls = 0 && lower then sat 16 g.promptTurns else g.promptTurns,
    promo := if g.promo = some q.cls then none else g.promo }) s
  if off then modConeStat q.cmd.part (fun y => { y with offPrism := sat 16 y.offPrism }) s else s

theorem only_tileCounted {off : Bool} : Only [.cone] s (tileCounted q x off s) :=
  .ite ((only_modConeEng _ _ s).trans (only_modConeStat _ _ _)) (only_modConeEng _ _ s)

theorem queries_tileCounted {off : Bool} : (tileCounted q x off s).cone.queries = s.cone.queries := by
  unfold tileCounted
  dsimp only
  split <;> rfl

/-- The slice with a tile of `n` records more. -/
def sliceFolded (q : Query) (x : Slice) (n : Nat) (recs : List (List Byte)) : Slice :=
  { x with folded := x.folded + n, heads := foldTile q recs x.heads, active := decide (x.folded + n < x.count) }

/-- The query goes on with slice `y` in its place. -/
def withSlice (q : Query) (y : Slice) : Query :=
  { q with slices := q.slices.map (fun z => if z.idx = y.idx then y else z), retryAt := none, firstTry := none }

theorem sliceFolded_eq {recs : List (List Byte)} (ha : x.active = true) :
    (if x.count ≤ x.folded + n then { x with folded := x.folded + n, heads := foldTile q recs x.heads, active := false }
      else { x with folded := x.folded + n, heads := foldTile q recs x.heads }) = sliceFolded q x n recs := by
  by_cases h : x.count ≤ x.folded + n
  · rw [if_pos h, sliceFolded, decide_eq_false (Nat.not_lt.2 h)]
  · rw [if_neg h, sliceFolded, decide_eq_true (Nat.not_le.1 h), ← ha]

theorem withSlice_single (hs : q.slices = [x]) (hy : y.idx = x.idx) :
    withSlice q y = { q with slices := [y], retryAt := none, firstTry := none } := by
  simp [withSlice, hs, hy]

/-- No slice waits for the place that the one slice, where it is done, gives back. -/
theorem admitNext_sliceFolded {recs : List (List Byte)} (hq : s.cone.queries = [r]) (hr : r.slices = [sliceFolded q x n recs]) :
    (if (sliceFolded q x n recs).active then s else admitNext e s) = s := by
  by_cases h : x.folded + n < x.count
  · exact if_pos (decide_eq_true h)
  · rw [admitNext_unasked hq hr (.inr (.inl (Nat.not_lt.1 h))), ite_self]

/-- The next tile of slice `x` may be read: the slice has a place and tokens left, and its class may take the lanes. -/
structure TileDue (s : State) (q : Query) (x : Slice) : Prop where
  goes : q.stop = false
  vecs : q.vecs ≠ []
  active : x.active = true
  tokens : x.folded < x.count
  turn : laneTurn s x.engine q.cls = true

/-- R270, R278: a tile of one page is read and folded in; a slice that is done makes room for another. -/
theorem exec_tileReadComplete_folds {recs : List (List Byte)} {far : Bool} {sp : Nat × Nat} (hf : fenced s .cone = false)
    (hq : s.cone.queries.find? (·.id == id) = some q) (hs : q.slices.find? (·.idx == x.idx) = some x) (h : TileDue s q x)
    (hn : n = min 256 (x.count - x.folded)) (hsp : tileSpans q (x.first + x.folded) n = [sp]) (hr : readSpan q sp [] s = (v, cOk, recs, far)) :
    exec (.tileReadComplete id x.idx []) s = .next (if (sliceFolded q x n recs).active
      then setQuery (withSlice q (sliceFolded q x n recs)) (tileCounted q x far v)
      else admitNext x.engine (setQuery (withSlice q (sliceFolded q x n recs)) (tileCounted q x far v))) := by
  have hgo : ¬ (q.stop || !x.active || decide (x.count ≤ x.folded) || !laneTurn s x.engine q.cls) = true := by
    simp [h.goes, h.active, h.tokens, h.turn]
  have hread : ¬ q.vecs.isEmpty = true := by simpa using h.vecs
  have hfenced : ¬ fenced s .cone = true := by simp [hf]
  have hok : ¬ cOk.status = .retry := by decide
  have hgood : ¬ (cOk.status != .ok) = true := by decide
  subst hn
  simp only [exec, execTileReadComplete, if_neg hfenced, hq, hs, if_neg hgo, if_neg hread, hsp, List.zipIdx_cons, List.zipIdx_nil,
    List.foldl_cons, List.foldl_nil, List.getD_nil, hr, worse_ok, if_neg hok, if_neg hgood, List.nil_append, sliceFolded_eq h.active]
  rfl

/-! ### Merge, completion and time-out -/

theorem exec_coneReadTimeout_ends (hq : s.cone.queries.find? (·.id == id) = some q) (hd : q.retryAt = some n) (hf : q.firstTry = some m)
    (ht : m + 20000 ≤ s.ft) : exec (.coneReadTimeout id) s = .next (endQuery q (worse q.out cTimeout) s) := by
  simp [exec, execConeReadTimeout, hq, hd, hf, ht]

theorem exec_sliceResultArrive_merges (hq : s.cone.queries.find? (·.id == id) = some q) (hs : q.slices.find? (·.idx == i) = some x)
    (hm : q.merged = i) (hc : x.count ≤ x.folded) (hstop : q.stop = false) : exec (.sliceResultArrive id i) s =
      .next (setQuery { q with merged := i + 1, acc := (q.acc.zip x.heads).map fun p => mergeHead p.1 p.2 } s) := by
  simp [exec, execSliceResultArrive, hq, hs, hm, hc, hstop]

/-- R286: the heads of a result whose sum is no number. -/
def nanCounted (q : Query) (s : State) : State :=
  modConeStat q.cmd.part (fun y => { y with nanHeads := satAdd 16 y.nanHeads (q.acc.filter fun x => (fp32.decode x.l).isNan).length }) s

theorem exec_queryComplete_writes (hf : fenced s .cone = false) (hq : s.cone.queries.find? (·.id == id) = some q) (hstop : q.stop = false)
    (hm : q.slices.length ≤ q.merged)
    (hw : engineWriteAs (32 + q.lead) q.cmd.part q.asid (q.hdr.getD 6 0) (q.acc.flatMap (headRecord q.hdr)) false s = (u, cOk)) :
    exec (.queryComplete id) s = .next (endQuery q cOk (nanCounted q u)) := by
  have hok : ¬ cOk.status = .retry := by decide
  simp only [exec, execQueryComplete, hf, hq, hstop, Bool.false_eq_true, if_false, if_neg (Nat.not_lt.2 hm), hw, if_neg hok]
  rfl

theorem exec_queryComplete_waits (hf : fenced s .cone = false) (hq : s.cone.queries.find? (·.id == id) = some q) (hstop : q.stop = false)
    (hm : q.merged < q.slices.length) : exec (.queryComplete id) s = .next s := by
  simp [exec, execQueryComplete, hf, hq, hstop, hm]

theorem exec_sliceAdmit (hf : fenced s .cone = false) : exec (.sliceAdmit e) s = .next (admitNext e s) := by
  simp [exec, execSliceAdmit, hf]

/-! ### The statement -/

/-- Settles O46: a query holds its session, its slices take places and fold tiles, results are merged and written; batches, refusals and
time-outs answer. -/
theorem attentionQueries : Obligations.AttentionQueries := by
  unfold Obligations.AttentionQueries
  refine ⟨?admitted, ?refused, ?memberRefused, ?memberStarts, ?placed, ?folded, ?timedOut, ?merged, ?completed, ?waits⟩
  case admitted =>
    intro s u v e c x w g k q ht hc hx hg hin hr hk hcone hnone hlen hsl he
    have hvecs : queryVecs (askedQuery c c.words x w e none) u = (v, k) := (if_neg (by simp [askedQuery, hin])).trans hr
    have honly := only_startQuery (es := enginesFrom g e) hvecs
    refine ⟨_, exec_query_starts ht hc hx hg hlen, ?_, sess_startQuery hvecs, honly .mem (by decide), honly⟩
    refine (queries_startQuery_ok hvecs hk (by rw [hcone, hnone]) hsl).trans ?_
    subst he
    simp [startedQuery, askedQuery, hk, hcone, enginesFrom]
  case refused =>
    intro s u e c d k node tag ht hc hd hreq hi ho
    refine ⟨_, exec_query_refused ht hc hd, ?_⟩
    rw [finishCmd_ofPort hreq hi ho]
    exact ⟨rfl, only_emit _ u⟩
  case memberRefused =>
    intro s u v x e c k d p node tag ht hc hn hb hr hk hcone hd hs hreason hw hx ho hreq hi
    have hv : v.cone.batches = [] := by rw [hcone, hb]
    have hwritten : memberWritten { id := v.cone.nextId, cmd := c, left := 1, total := 1 } 0 d (batchHeld 1 c v) = x.1 := by
      rw [batchHeld_first hv, ← hw]
      rfl
    have hcone' : x.1.cone = (batchHeld 1 c v).cone := by rw [batchHeld_first hv, hx]
    have hbatches : (batchHeld 1 c v).cone.batches = [{ id := v.cone.nextId, cmd := c, left := 1, total := 1 }] := by rw [batchHeld_first hv]
    have hrun := (runBatch_refused ⟨hn, hr, hk⟩ hd hreason).trans (memberDone_refuses ⟨hreq, hi, ho⟩ hbatches rfl rfl rfl hs hwritten hcone')
    obtain ⟨htold, hframe⟩ := told_after (who := .port p node tag) (c := { status := .partialDone, value := 0 })
      (only_cone { x.1.cone with batches := [] } x.1) (by decide)
    exact ⟨_, (exec_batch_runs ht hc hb).trans (congrArg _ hrun), rfl, rfl, htold, hframe⟩
  case memberStarts =>
    intro s u v e c k x w n m h ht hc hn hb hq hr hk hcone hh hd hx hg hsl
    subst hh
    have hleaves := startQuery_leaves (s := batchHeld 1 c v) (es := m :: List.replicate 15 e)
      (q := askedQuery c (soleMember k) x w m (some (v.cone.nextId, 0)))
    have hnone : (batchHeld 1 c v).cone.queries = [] := (congrArg Cone.queries hcone).trans hq
    obtain ⟨z, d, active, hqueries⟩ := startQuery_first (es := m :: List.replicate 15 e)
      (q := askedQuery c (soleMember k) x w m (some (v.cone.nextId, 0))) hnone hsl
    refine ⟨_, (exec_batch_runs ht hc hb).trans (congrArg _ (runBatch_starts ⟨hn, hr, hk⟩ hd hx hg hsl)), ?_, ?_, ?_⟩
    · rw [hleaves.1, batchHeld_first (by rw [hcone, hb])]
      rfl
    · rw [hqueries]
      rfl
    · exact hleaves.2.trans ((only_engineReadAs.fst_eq hr) .eng (by decide))
  case placed =>
    rintro s _ q x hf hq hs rfl ha hc hstop
    refine ⟨_, exec_sliceAdmit hf, ?_, ?_, only_admitNext⟩
    · rw [queries_admitNext_single hq hs rfl ha hstop, decide_eq_true hc]
    · rw [admitNext_admits hq hs rfl ha hc hstop]
      exact congrArg ConeEng.slices (Tab.get_mod_same s.cone.engs x.engine fun g => { g with slices := sat 16 g.slices })
  case folded =>
    rintro s v id q x n k recs off sp hf hq hid hs hstop hv ha hc ht hn hsp hr rfl hcone
    have hqueries : (tileCounted q x off v).cone.queries = [q] := by rw [queries_tileCounted, hcone, hq]
    have hset := setQuery_single (r := withSlice q (sliceFolded q x n recs)) hqueries rfl
    have hwith := withSlice_single (y := sliceFolded q x n recs) hs rfl
    have honly : Only [.cone] v (setQuery (withSlice q (sliceFolded q x n recs)) (tileCounted q x off v)) :=
      only_tileCounted.trans (only_setQuery _ _)
    refine ⟨_, (exec_tileReadComplete_folds hf (find_single hq hid) (by simp [hs]) ⟨hstop, hv, ha, hc, ht⟩ hn hsp hr).trans
      (congrArg _ (admitNext_sliceFolded hset (congrArg Query.slices hwith))), ?_, honly .mem (by decide), honly⟩
    rw [hset, hwith]
    rfl
  case timedOut =>
    intro s id q p node tag d f hq hid halone ho hd hf ht hreq hi hobj
    have hend := endQuery_ends (k := cTimeout) ⟨hreq, hi, hobj, halone⟩ hq
    refine ⟨_, exec_coneReadTimeout_ends (find_single hq hid) hd hf ht, ?_⟩
    rw [ho, show worse cOk cTimeout = cTimeout by decide]
    refine ⟨hend.queries, ?_, hend.told, hend.frame .mem (by decide), hend.frame⟩
    rw [endQuery_port ⟨hreq, hi, hobj, halone⟩ hq]
    exact timeouts_queryDropped rfl
  case merged =>
    intro s id i q x hq hid hs hm hc hstop
    exact ⟨_, exec_sliceResultArrive_merges (find_single hq hid) hs hm hc hstop, setQuery_single hq rfl, only_setQuery _ s⟩
  case completed =>
    intro s u id q p node tag hf hq hid halone hstop hm hw hcone hreq hi hobj
    have hqueries : (nanCounted q u).cone.queries = [q] := (congrArg Cone.queries hcone).trans hq
    have hend := endQuery_ends (k := cOk) ⟨hreq, hi, hobj, halone⟩ hqueries
    have hframe : Only [.cone, .orb, .out] u (endQuery q cOk (nanCounted q u)) :=
      ((only_modConeStat _ _ u).mono (by decide)).trans hend.frame
    exact ⟨_, exec_queryComplete_writes hf (find_single hq hid) hstop hm hw, hend.queries, hframe .mem (by decide), hend.told, hframe⟩
  case waits =>
    intro s id q hf hq hid hstop hm
    exact ⟨_, exec_queryComplete_waits hf (find_single hq hid) hstop hm, rfl⟩

end Sys2Proof.Machine
end

section
/-!
Orbit's descriptors, its commands in progress, and the completions of its commands (R33, R301, R307).
-/
namespace Sys2Proof.Machine

variable {s t u v : State} {op q n p node tag : Nat} {j : OrbJob} {c : QCmd} {k : Cpl} {ready : Bool}

/-! ### Descriptors and jobs -/

@[simp] theorem sess_setSess_same (n : Nat) (d : Sess) (s : State) : sess (setSess n d s) n = d := Tab.get_set_same ..
@[simp] theorem sess_addOJob (j : OrbJob) (s : State) (n : Nat) : sess (addOJob j s) n = sess s n := rfl
@[simp] theorem sess_setOJob (j : OrbJob) (s : State) (n : Nat) : sess (setOJob j s) n = sess s n := rfl
@[simp] theorem sess_dropOJob (m : Nat) (s : State) (n : Nat) : sess (dropOJob m s) n = sess s n := rfl
@[simp] theorem sess_modOStat (m : Nat) (f : OrbStat → OrbStat) (s : State) (n : Nat) : sess (modOStat m f s) n = sess s n := rfl

@[simp] theorem jobs_setSess (n : Nat) (d : Sess) (s : State) : (setSess n d s).orb.jobs = s.orb.jobs := rfl
@[simp] theorem jobs_addOJob (j : OrbJob) (s : State) : (addOJob j s).orb.jobs = s.orb.jobs ++ [j] := rfl
@[simp] theorem jobs_dropOJob (n : Nat) (s : State) : (dropOJob n s).orb.jobs = s.orb.jobs.filter (·.num != n) := rfl
@[simp] theorem jobs_modOStat (n : Nat) (f : OrbStat → OrbStat) (s : State) : (modOStat n f s).orb.jobs = s.orb.jobs := rfl

theorem stats_modOStat_same (n : Nat) (f : OrbStat → OrbStat) (s : State) : (modOStat n f s).orb.stats.get n = f (s.orb.stats.get n) :=
  Tab.get_mod_same ..

theorem only_addOJob (j : OrbJob) (s : State) : Only [.orb] s (addOJob j s) := only_modOrb _ s
theorem only_setOJob (j : OrbJob) (s : State) : Only [.orb] s (setOJob j s) := only_modOrb _ s
theorem only_dropOJob (n : Nat) (s : State) : Only [.orb] s (dropOJob n s) := only_modOrb _ s
theorem only_modOStat (n : Nat) (f : OrbStat → OrbStat) (s : State) : Only [.orb] s (modOStat n f s) := only_modOrb _ s

theorem jobOf_num (h : jobOf s n = some j) : j.num = n := by simpa using List.find?_some h

/-- A session with no job has none to drop. -/
theorem dropped_of_jobOf_none (h : jobOf s n = none) : s.orb.jobs.filter (·.num != n) = s.orb.jobs :=
  List.filter_eq_self.2 fun j hj => by simpa using List.find?_eq_none.1 h j hj

theorem hasPartner_of_only {l : List Part} (ho : Only l s t) (hl : .pair ∉ l) (h : hasPartner s = false) : hasPartner t = false := by
  have hpair : t.pair = s.pair := ho .pair hl
  rw [hasPartner, hpair]
  exact h

/-- R33: with no running partner a change of Orbit's has nobody to be mirrored to. -/
theorem orbMirror_alone (ho : Only [.orb] s t) (h : hasPartner s = false) : orbMirror n t = t := by
  simp [orbMirror, mirrorOnly, hasPartner_of_only ho (by decide) h]

/-! ### Completions (R307) -/

/-- A command of a port, which names no completion object and which no program issued. -/
structure PortCommand (c : QCmd) (p node tag : Nat) : Prop where
  obj : oObj c = none
  req : c.req = .port p node tag
  issuer : c.issuer = none

theorem countOrb_unrefused (h : k.reason = none) (s : State) : countOrb n k s = s := by simp [countOrb, h]

/-- R307: the answer to a command on session `n` that changes nothing. -/
theorem orbReply_tells (h : PortCommand c p node tag) (hk : k.reason = none) :
    orbReply c (some n) k s = emit (.cpl (.port p node tag) (orbCpl (sess s n) (handleOf (sess s n) n) false c k)) s := by
  rw [orbReply, countOrb_unrefused hk, finishCmd_ofPort h.req h.issuer h.obj]

/-- R14, R343: a command that finds no room is refused and counted. -/
theorem orbReply_capacity (h : PortCommand c p node tag) : orbReply c none (cRef .capacity) s =
    emit (.cpl (.port p node tag) (orbCpl {} (oHandle c) false c (cRef .capacity)))
      (modOStat c.part (fun x => { x with capacity := sat 16 x.capacity }) s) := by
  rw [orbReply, finishCmd_ofPort h.req h.issuer h.obj]
  rfl

/-- The handle that the completion of `c` names: the descriptor's, or the one that `c` gives where it freed the session (entry 101). -/
def toldHandle (c : QCmd) (d : Sess) (n : Nat) : Nat := if d.st = .free then oHandle c else handleOf d n

/-- The command `c`, which left `u` of `s`, is completed in `t` with `k` and session `n` as it then is. -/
structure OrbFinished (n : Nat) (c : QCmd) (ready : Bool) (k : Cpl) (who : Requester) (s u t : State) : Prop where
  orb : t.orb = { u.orb with nextId := u.orb.nextId + 1 }
  told : Told s t who (orbCpl (sess t n) (toldHandle c (sess t n) n) ready c k)
  frame : Only [.orb, .out] s t

theorem orbFinish_alone (h : PortCommand c p node tag) (hp : hasPartner s = false) (hk : k.reason = none) :
    orbFinish n c ready k s = emit (.cpl (.port p node tag) (orbCpl (sess s n) (toldHandle c (sess s n) n) ready c k))
      (modOrb (fun o => { o with nextId := o.nextId + 1 }) s) := by
  have hk' : (orbCpl (sess s n) (toldHandle c (sess s n) n) ready c k).reason = none := hk
  unfold toldHandle at hk' ⊢
  have hpart (f : Orbit → Orbit) : hasPartner (modOrb f s) = false := hasPartner_of_only (only_modOrb f s) (by decide) hp
  simp only [orbFinish, countOrb_unrefused hk', mirrorThen_alone _ _ _ (hpart _), finishCmd_ofPort h.req h.issuer h.obj, hp,
    Bool.false_eq_true, if_false]
  rfl

/-- R301: with no running partner the command completes at once. -/
theorem orbFinish_finishes (h : PortCommand c p node tag) (hp : hasPartner s = false) (hk : k.reason = none) (ho : Only [.orb] s u) :
    OrbFinished n c ready k (.port p node tag) s u (orbFinish n c ready k u) := by
  rw [orbFinish_alone h (hasPartner_of_only ho (by decide) hp) hk]
  obtain ⟨htold, hframe⟩ := told_after (who := .port p node tag) (c := orbCpl (sess u n) (toldHandle c (sess u n) n) ready c k)
    (ho.trans (only_modOrb (fun o => { o with nextId := o.nextId + 1 }) u)) (by decide)
  exact ⟨rfl, htold, hframe⟩

section
variable {who : Requester} (h : OrbFinished n c ready k who s u t)
include h

theorem OrbFinished.sess (m : Nat) : Machine.sess t m = Machine.sess u m := by rw [Machine.sess, h.orb]; rfl

theorem OrbFinished.jobs : t.orb.jobs = u.orb.jobs := by rw [h.orb]

theorem OrbFinished.stats : t.orb.stats = u.orb.stats := by rw [h.orb]

theorem OrbFinished.mem : t.mem = s.mem := h.frame .mem (by decide)

/-- A session that stands is told by its own handle. -/
theorem OrbFinished.toldSess (hn : (Machine.sess u n).st ≠ .free) :
    Told s t who (orbCpl (Machine.sess t n) (handleOf (Machine.sess t n) n) ready c k) := by
  have hhandle : toldHandle c (Machine.sess t n) n = handleOf (Machine.sess t n) n := by rw [h.sess, toldHandle, if_neg hn]
  have htold := h.told
  rwa [hhandle] at htold

end

/-- The command of a job that no other joined completes. -/
theorem orbEndAll_single (hn : j.num = n) (hj : j.joined = []) : orbEndAll j ready k s = orbFinish n j.cmd ready k s := by
  rw [orbEndAll, hj, hn]
  rfl

/-! ### A command of a session is taken (R290, R321) -/

/-- Command `c` of queue `q`, of operation `op`, is next, and names session `n` of its partition; no partner runs. -/
structure SessTaken (op q : Nat) (s u : State) (c : QCmd) (n : Nat) : Prop where
  take : orbTake op q s = some (c, u)
  num : sessNum u c.part (oHandle c) = some n
  alone : hasPartner u = false

variable {bad : Nat → QCmd → State → Bool} {f : Nat → QCmd → State → State}

/-- R320: a command that changes no session runs. -/
theorem withSess_reads (h : SessTaken op q s u c n) (hb : bad n c u = false) : withSess op q false bad s f = f n c u := by
  simp [withSess, h.take, h.num, h.alone, hb]

/-- A command that changes its session runs, where the pair link is up and no takeover is under way. -/
theorem withSess_changes (h : SessTaken op q s u c n) (hl : linkDown u = false) (ht : u.pair.st ≠ .takeover) (hb : bad n c u = false) :
    withSess op q true bad s f = f n c u := by
  simp [withSess, h.take, h.num, h.alone, hb, hl, ht]

end Sys2Proof.Machine
end

section
/-!
Orbit's log (R297, R311, R312): tokens that join its end.
-/
namespace Sys2Proof.Machine

variable {s t x : State} {n pos cnt : Nat} {d : List Byte} {a : Cpl}

theorem worse_of_ok (h : a.status = .ok) (k : Cpl) : worse k a = k := by
  rw [worse, h]
  cases hk : k.status <;> rfl

theorem growList_enough {want fuel : Nat} (h : want ≤ (sess s n).chunks.length) :
    growList n false want fuel s = some (s, cOk) := by
  cases fuel with
  | zero => rfl
  | succ fuel => exact if_pos h

/-- The session's log with `cnt` tokens more. -/
def logGrown (n cnt : Nat) (s t : State) : State := setSess n { sess s n with logLen := (sess s n).logLen + cnt } t

theorem putTokens_room (hroom : ceilDiv ((sess s n).logLen + cnt) 1023 ≤ (sess s n).chunks.length)
    (hw : listWrite (sess s n).part (sess s n).chunks 1023 4 (sess s n).logLen cnt d s = (x, a)) (ha : a.status = .ok) :
    putTokens n cnt d s = some (logGrown n cnt s x, cOk) := by
  have hok : cOk.status = .ok := rfl
  simp only [putTokens, growList_enough hroom, hw, worse_of_ok ha, hok, if_true]
  rfl

/-- R311: tokens for the end of the log of a session that is neither attached nor reviving, which its chunks have room for. -/
theorem appendAt_end (hp : pos = 0xFFFFFFFF ∨ pos = (sess s n).logLen) (hc : 0 < cnt)
    (hmax : (sess s n).logLen + cnt ≤ logMax s (sess s n)) (hat : attached (sess s n) = false) (hr : (sess s n).st ≠ .reviving)
    (hroom : ceilDiv ((sess s n).logLen + cnt) 1023 ≤ (sess s n).chunks.length)
    (hw : listWrite (sess s n).part (sess s n).chunks 1023 4 (sess s n).logLen cnt d s = (x, a)) (ha : a.status = .ok) :
    appendAt n pos cnt d s = (logGrown n cnt s x, cOk) := by
  have hend : (if pos = 0xFFFFFFFF then (sess s n).logLen else pos) = (sess s n).logLen := by
    rcases hp with h | h
    · exact if_pos h
    · rw [h, ite_self]
  have hput := putTokens_room hroom hw ha
  simp [appendAt, hend, hput, Nat.not_lt.2 hmax, hc.ne', hat, hr, cOk]

end Sys2Proof.Machine
end

section
/-!
What Orbit's commands do to a session (O47): for each command, the state it ends in.
-/
namespace Sys2Proof.Machine

variable {s u v x y z : State} {q n cnt p node tag sl : Nat} {a k : Cpl} {c : QCmd} {w : List Nat} {r : NumPool} {ext : List Byte}

/-! ### OPEN (R309) -/

/-- An OPEN is next and names a KV segment. -/
structure OpenTaken (q : Nat) (s u : State) (c : QCmd) (w : List Nat) : Prop where
  take : orbTake 1 q s = some (c, u)
  up : linkDown u = false
  seg : orbSeg u c.part (bits (c.w 1) 49 46) = some w
  kv : segType w = 3

/-- The session that an OPEN makes of number `n`. -/
def newSess (c : QCmd) (n : Nat) (s : State) : Sess :=
  { st := .parked, depth := .cold, part := c.part, gen := (sess s n).gen, seg := bits (c.w 1) 49 46, openFt := s.ft, changeFt := s.ft, user := c.w 6 }

/-- Session `n` is new, and `r` the pool it was taken from. -/
def opened (c : QCmd) (n : Nat) (r : NumPool) (s : State) : State :=
  modOrb (fun o => { o with pools := o.pools.set c.part r }) (setSess n (newSess c n s) s)

theorem sess_opened : sess (opened c n r s) n = newSess c n s := sess_setSess_same n (newSess c n s) s

theorem only_opened : Only [.orb] s (opened c n r s) := (only_setSess _ _ s).trans (only_modOrb _ _)

theorem exec_orbOpen_opens (h : OpenTaken q s u c w) (hn : takeNumber u c.part = some (n, r)) :
    exec (.orbOpen q) s = .next (orbFinish n c false cOk (opened c n r u)) := by
  simp only [exec, execOrbOpen, h.take, h.seg, h.up, hn, Option.all_some, h.kv]
  rfl

theorem exec_orbOpen_full (h : OpenTaken q s u c w) (hn : takeNumber u c.part = none) :
    exec (.orbOpen q) s = .next (orbReply c none (cRef .capacity) u) := by
  simp only [exec, execOrbOpen, h.take, h.seg, h.up, hn, Option.all_some, h.kv]
  rfl

/-! ### APPEND and TOOL_RESULT (R311, R312) -/

/-- Command `c` brings tokens, read as `k`, to a session that does not close, of a partition with a log. -/
structure TokensRead (op q : Nat) (ext : List Byte) (s u v : State) (c : QCmd) (n : Nat) (k : Cpl) : Prop extends SessTaken op q s u c n where
  up : linkDown u = false
  settled : u.pair.st ≠ .takeover
  stands : (sess u n).st ≠ .closing
  log : (logSeg u c.part).isSome = true
  read : cmdTokens c ext u = (v, k)
  ok : k.status = .ok

theorem TokensRead.hasLog {op : Nat} (h : TokensRead op q ext s u v c n k) : (logSeg u c.part).isNone = false := by
  simpa [Option.isSome_iff_ne_none] using h.log

theorem retrying_settled {before : State} {f : State → Cpl → State} (h : k.status ≠ .retry) : retrying q c before (s, k) f = f s k := if_neg h

theorem exec_orbAppend_appends (h : TokensRead 2 q ext s u v c n k) (ha : appendAt n (oPos c) (oCount c) k.data v = (x, cOk)) :
    exec (.orbAppend q ext) s = .next (orbFinish n c false cOk x) := by
  have hok : cOk.status = .ok := rfl
  refine congrArg Host.Outcome.next ((withSess_changes h.toSessTaken h.up h.settled h.hasLog).trans ?_)
  simp [h.stands, h.hasLog, h.read, h.ok, ha, retrying, hok]

/-- R312: the result of a call is noted in a session that parks for it. -/
def resultNoted (n call : Nat) (s : State) : State :=
  if (sess s n).st = .parking && (sess s n).callId = call then setSess n { sess s n with resultSeen := true } s else s

theorem sess_resultNoted {call : Nat} : sess (resultNoted n call s) n =
    { sess s n with resultSeen := (sess s n).resultSeen || ((sess s n).st == .parking && (sess s n).callId == call) } := by
  by_cases h : (sess s n).st = .parking ∧ (sess s n).callId = call
  · simp [resultNoted, h]
  · have hnot : ((sess s n).st == .parking && (sess s n).callId == call) = false := by simpa using h
    rw [resultNoted, if_neg (by simpa using h), hnot, Bool.or_false]

theorem only_resultNoted {call : Nat} : Only [.orb] s (resultNoted n call s) := .ite (only_setSess _ _ s) (.refl _ s)

/-- R312: a result not seen before joins the log, and its record the records. -/
theorem resultAt_new {d : List Byte} (hf : findResult n (oCall c) v = (y, cOk, none)) (ha : appendAt n (oPos c) (oCount c) d y = (z, cOk))
    (hp : putRecord n 1 (oCall c) (if oPos c = 0xFFFFFFFF then (sess y n).logLen else oPos c) (oCount c) (c.w 6) z = some (x, a)) :
    resultAt n c d v = (resultNoted n (oCall c) x, a) := by
  have hok : (cOk.status != .ok) = false := rfl
  simp only [resultAt, hf, ha, hp, hok, Bool.false_eq_true, if_false]
  rfl

theorem exec_toolResult_notes (h : TokensRead 3 q ext s u v c n k) (hr : resultAt n c k.data v = (x, a)) (ha : a.status = .ok) :
    exec (.toolResult q ext) s = .next (orbFinish n c false cOk x) := by
  have hretry : a.status ≠ .retry := by simp [ha]
  refine congrArg Host.Outcome.next ((withSess_changes h.toSessTaken h.up h.settled h.hasLog).trans ?_)
  simp [h.stands, h.hasLog, h.read, h.ok, hr, retrying_settled hretry, ha]

/-! ### PARK (R314) -/

/-- The KV fields that a PARK names. -/
def withKv (c : QCmd) (d : Sess) : Sess := { d with kvLen := oKvLen c, win := oWin c, tray := oTray c, demote := oDemote c, pin := oPin c }

/-- The session as a PARK leaves it, until its detach point. -/
def parkingSess (c : QCmd) (d : Sess) (s : State) : Sess :=
  { withKv c d with st := .parking, changeFt := s.ft, parkStep := angleStep (dom s c.part).angle, callId := oCall c, resultSeen := false,
                    target := oDepth c }

/-- Session `n`, which was `d`, begins to park. -/
def parked (c : QCmd) (n : Nat) (d : Sess) (s : State) : State :=
  addOJob { num := n, kind := .park, cmd := c } (setSess n (parkingSess c d s) (setSess n (withKv c d) s))

theorem sess_parked {d : Sess} : sess (parked c n d s) n = parkingSess c d s := by
  rw [parked, sess_addOJob, sess_setSess_same]

theorem only_parked {d : Sess} : Only [.orb] s (parked c n d s) :=
  (only_setSess _ _ s).trans ((only_setSess _ _ _).trans (only_addOJob _ _))

/-- R314: what a PARK asks of its session, which is attached and in no transition. -/
structure Parkable (u : State) (c : QCmd) (n : Nat) : Prop where
  idle : jobOf u n = none
  attached : (sess u n).st = .attached
  window : oWin c ≤ oKvLen c
  length : oKvLen c ≤ (sess u n).logLen
  unrecorded : bitOf (c.w 1) 45 = false
  quota : oDepth c = .hot → hotCount u c.part < (orbPart u c.part).hotMax

/-- R314: a PARK whose result has not come sets the KV fields and takes the session to PARKING. -/
theorem exec_park_parks (h : SessTaken 4 q s u c n) (hl : linkDown u = false) (ht : u.pair.st ≠ .takeover) (hp : Parkable u c n)
    (hf : findResult n (oCall c) u = (v, cOk, none)) (hv : hasPartner v = false) :
    exec (.park q) s = .next (parked c n (sess u n) v) := by
  have hbad : (decide (oKvLen c < oWin c) || decide ((sess u n).logLen < oKvLen c) || (bitOf (c.w 1) 45 && (logSeg u c.part).isNone)) = false := by
    simp [hp.window, hp.length, hp.unrecorded]
  have hquota : ¬ (decide (oDepth c = .hot) && decide ((orbPart u c.part).hotMax ≤ hotCount u c.part)) = true := by
    simpa using hp.quota
  have hhere : ¬ ((sess u n).st != .attached) = true := by simp [hp.attached]
  have hretry : cOk.status ≠ .retry := nofun
  have hok : (cOk.status != .ok) = false := rfl
  have hmirror : orbMirror n (parked c n (sess u n) v) = parked c n (sess u n) v := orbMirror_alone only_parked hv
  refine congrArg Host.Outcome.next ((withSess_changes h hl ht hbad).trans (.trans ?_ hmirror))
  simp only [hp.idle, if_neg hquota, if_neg hhere, hf, if_neg hretry, hok, hp.unrecorded, Bool.false_eq_true, if_false,
    Option.isSome_none, sess_setSess_same]
  rfl

end Sys2Proof.Machine
end

section
/-!
Moves, revivals and closing (R310, R316 to R318), and what reads a session (R320): the state that each of Orbit's commands ends in.
-/
namespace Sys2Proof.Machine

variable {s u v x : State} {q n cnt sl : Nat} {k : Cpl} {c : QCmd} {j : OrbJob} {w : List Nat} {back : Bool} {d : Sess}

/-! ### Moves (R316, R317) -/

/-- A move that has its HINT, or goes to COLD, issues none. -/
theorem issueMove_settled (h : j.issued = true ∨ (sess s j.num).target = .cold) : issueMove j s = s := by
  have hdone : (j.issued || (sess s j.num).target = .cold) = true := by simpa using h
  exact if_pos hdone

/-- Session `n`, which was `d`, begins to move to COLD. -/
def movingCold (n : Nat) (back : Bool) (c : QCmd) (d : Sess) (s : State) : State :=
  addOJob { num := n, kind := .move, cmd := c, back := back } (dropOJob n (setSess n { d with st := .moving, changeFt := s.ft, target := .cold } s))

theorem sess_movingCold : sess (movingCold n back c d s) n = { d with st := .moving, changeFt := s.ft, target := .cold } := by
  rw [movingCold, sess_addOJob, sess_dropOJob, sess_setSess_same]

theorem jobs_movingCold : (movingCold n back c d s).orb.jobs =
    s.orb.jobs.filter (·.num != n) ++ [{ num := n, kind := .move, cmd := c, back := back }] := rfl

theorem stats_movingCold : (movingCold n back c d s).orb.stats = s.orb.stats := rfl

theorem only_movingCold : Only [.orb] s (movingCold n back c d s) :=
  (only_setSess _ _ s).trans ((only_dropOJob _ _).trans (only_addOJob _ _))

/-- A move to COLD needs no HINT (R317). -/
theorem startMove_cold (h : hasPartner s = false) : startMove n .cold back c s = movingCold n back c (sess s n) s := by
  have hmirror : orbMirror n (movingCold n back c (sess s n) s) = movingCold n back c (sess s n) s :=
    orbMirror_alone only_movingCold h
  have hissue : issueMove { num := n, kind := .move, cmd := c, back := back } (movingCold n back c (sess s n) s) = movingCold n back c (sess s n) s :=
    issueMove_settled (.inr (by rw [sess_movingCold]))
  exact (congrArg (orbMirror n) hissue).trans hmirror

/-- R316: a MOVE to where the session is only sets DEMOTE and PIN. -/
theorem exec_move_stays (h : SessTaken 5 q s u c n) (hl : linkDown u = false) (ht : u.pair.st ≠ .takeover) (hst : (sess u n).st = .parked)
    (hd : (sess u n).depth = oDepth c) (htray : oDepth c = .cold ∨ (sess u n).tray = oTray c) :
    exec (.move q) s = .next (orbFinish n c false cOk (setSess n { sess u n with demote := oDemote c, pin := oPin c } u)) := by
  have hstays : ((sess u n).st = .parked && (sess u n).depth = oDepth c && (oDepth c = .cold || (sess u n).tray == oTray c)) = true := by
    simpa [hst, hd] using htray
  refine congrArg Host.Outcome.next ((withSess_changes h hl ht rfl).trans ?_)
  simp only [if_pos hstays]

/-- R316, R317: a MOVE to COLD begins. -/
theorem exec_move_cold (h : SessTaken 5 q s u c n) (hl : linkDown u = false) (ht : u.pair.st ≠ .takeover) (hst : (sess u n).st = .parked)
    (hd : (sess u n).depth ≠ .cold) (hc : oDepth c = .cold)
    (he : energyAns u .parkMove (preCost u 9 4 [(0, (sess u n).pages.length * pageBytes)]) ≠ .refused) :
    exec (.move q) s = .next (movingCold n false c { sess u n with demote := oDemote c, pin := oPin c }
      (setSess n { sess u n with demote := oDemote c, pin := oPin c } u)) := by
  refine congrArg Host.Outcome.next ((withSess_changes h hl ht rfl).trans ?_)
  have hmove := startMove_cold (n := n) (back := false) (c := c) (s := setSess n { sess u n with demote := oDemote c, pin := oPin c } u) h.alone
  rw [sess_setSess_same] at hmove
  simpa [hst, hd, hc, he] using hmove

/-! ### REVIVE (R306, R318) -/

/-- The session as a REVIVE of group and slot leaves it, until it ends. -/
def revivingSess (c : QCmd) (sl : Nat) (d : Sess) (s : State) : Sess :=
  { d with st := .reviving, changeFt := s.ft, group := some (oGroup c), slot := some sl, held := false }

/-- A REVIVE without a copy list or a window, of a session whose pages can be backed and that prefetches none. -/
structure Revivable (u v : State) (c : QCmd) (n sl : Nat) (w : List Nat) : Prop where
  seg : orbSeg u (sess u n).part (sess u n).seg = some w
  copies : oCopies c = 0
  window : (sess u n).win = 0
  slot : (sess u n).slot.or (freeSlot u (sess u n).part (sess u n).seg) = some sl
  backed : backLog n (setSess n (revivingSess c sl (sess u n) u) u) = some v
  prefetch : (orbPart v (sess u n).part).pfPages = 0
  alone : hasPartner v = false

theorem startRevive_begins (h : Revivable u v c n sl w) : startRevive n c u = addOJob { num := n, kind := .revive, cmd := c } v := by
  have hlist : reviveList n c u = (u, cOk) := if_pos h.copies
  have hnone : copyList (oCopies c) cOk.data = [] := by rw [h.copies]; rfl
  have hgood : (((sess u n).win != 0 && ([] : List (Nat × Nat × Nat)).isEmpty) || copyListBad (oCopies c) cOk.data ||
      ([] : List (Nat × Nat × Nat)).any fun e => decide (segRec w < e.2.1 + e.2.2) || e.1 % 16 != 0) = false := by
    rw [h.window, h.copies]
    rfl
  have hok : (cOk.status != .ok) = false := rfl
  have hback : backLog n (setSess n { toState .reviving u (sess u n) with group := some (oGroup c), slot := some sl, held := false } u) = some v :=
    h.backed
  simp only [startRevive, h.seg, hlist, hnone, hgood, hok, h.slot, hback, h.prefetch, Bool.false_eq_true, if_false, Nat.min_zero, Nat.zero_min,
    if_true]
  exact orbMirror_alone (only_addOJob _ v) h.alone

theorem exec_revive_begins (h : SessTaken 6 q s u c n) (hl : linkDown u = false) (ht : u.pair.st ≠ .takeover) (hst : (sess u n).st = .parked)
    (hr : Revivable u v c n sl w) : exec (.revive q) s = .next (addOJob { num := n, kind := .revive, cmd := c } v) := by
  have hlist : (reviveList n c u).2.status ≠ .retry := by rw [reviveList, if_pos hr.copies]; nofun
  refine congrArg Host.Outcome.next ((withSess_changes h hl ht rfl).trans ?_)
  simp only [hst, if_neg hlist, startRevive_begins hr]

/-- R318: a REVIVE of a session attached in its group completes. -/
theorem exec_revive_attached (h : SessTaken 6 q s u c n) (hl : linkDown u = false) (ht : u.pair.st ≠ .takeover)
    (hst : (sess u n).st = .attached) (hg : (sess u n).group = some (oGroup c)) : exec (.revive q) s = .next (orbFinish n c false cOk u) := by
  refine congrArg Host.Outcome.next ((withSess_changes h hl ht rfl).trans ?_)
  simp [hst, hg]

/-! ### CLOSE (R310) -/

/-- The commands held for session `n` are no longer held. -/
def withoutHeld (n : Nat) (s : State) : State := modOrb (fun o => { o with held := o.held.filter (·.1 != n) }) s

theorem sess_withoutHeld (m : Nat) : sess (withoutHeld m s) n = sess s n := rfl
theorem jobs_withoutHeld : (withoutHeld n s).orb.jobs = s.orb.jobs := rfl

/-- Session `n` begins to close. -/
def closing (n : Nat) (c : QCmd) (s : State) : State :=
  addOJob { num := n, kind := .close, cmd := c }
    (withoutHeld n (dropOJob n (setSess n { sess s n with st := .closing, changeFt := s.ft, group := none, held := false } s)))

theorem sess_closing : sess (closing n c s) n = { sess s n with st := .closing, changeFt := s.ft, group := none, held := false } := by
  rw [closing, sess_addOJob, sess_withoutHeld, sess_dropOJob, sess_setSess_same]

theorem jobs_closing (h : jobOf s n = none) : (closing n c s).orb.jobs = s.orb.jobs ++ [{ num := n, kind := .close, cmd := c }] := by
  rw [closing, jobs_addOJob, jobs_withoutHeld, jobs_dropOJob, jobs_setSess, dropped_of_jobOf_none h]

theorem only_closing : Only [.orb] s (closing n c s) :=
  (only_setSess _ _ s).trans ((only_dropOJob _ _).trans ((only_modOrb _ _).trans (only_addOJob _ _)))

theorem heldOf_none (h : ∀ x ∈ s.orb.held, x.1 ≠ n) : s.orb.held.filter (·.1 == n) = [] :=
  List.filter_eq_nil_iff.2 fun x hx => by simpa using h x hx

theorem exec_orbClose_closes (h : SessTaken 7 q s u c n) (hl : linkDown u = false) (ht : u.pair.st ≠ .takeover)
    (hst : (sess u n).st ≠ .closing) (hj : jobOf u n = none) (hheld : ∀ x ∈ u.orb.held, x.1 ≠ n) :
    exec (.orbClose q) s = .next (closing n c u) := by
  have hmirror : orbMirror n (closing n c u) = closing n c u := orbMirror_alone only_closing h.alone
  refine congrArg Host.Outcome.next ((withSess_changes h hl ht rfl).trans (.trans ?_ hmirror))
  simp only [if_neg hst, hj, heldOf_none hheld, List.map_nil, List.append_nil, List.foldl_nil]
  rfl

/-! ### DESCRIBE and LOG_READ (R320) -/

theorem exec_orbDescribe_writes (h : SessTaken 8 q s u c n)
    (hw : engineWriteAs 116 c.part (orbPart u c.part).asid (c.w 5) ((sessWords (sess u n)).flatMap (toLE 8)) false u = (x, cOk)) :
    exec (.orbDescribe q) s = .next (orbReply c (some n) cOk x) := by
  refine congrArg Host.Outcome.next ((withSess_reads h rfl).trans ?_)
  simp only [hw]
  rfl

/-- R320: what a LOG_READ that wrote `cnt` entries answers. -/
def logReadCpl (c : QCmd) (cnt : Nat) : Cpl := if cnt < oCount c then { status := .partialDone, value := cnt } else cVal cnt

theorem logReadCpl_unrefused : (logReadCpl c cnt).reason = none := by
  unfold logReadCpl
  split <;> rfl

theorem exec_orbLogRead_writes (h : SessTaken 9 q s u c n)
    (hcnt : cnt = min (oCount c) ((if bitOf (c.w 0) 7 then (sess u n).recCount else (sess u n).logLen) - oPos c)) (hne : cnt ≠ 0)
    (hr : (if bitOf (c.w 0) 7 then logRecords n (oPos c) cnt u else logTokens n (oPos c) cnt u) = (v, k)) (hk : k.status = .ok)
    (hw : engineWriteAs 116 c.part (orbPart v c.part).asid (c.w 5) k.data false v = (x, cOk)) :
    exec (.orbLogRead q) s = .next (orbReply c (some n) (logReadCpl c cnt) x) := by
  have hretry : k.status ≠ .retry := by simp [hk]
  have hgood : (k.status != .ok) = false := by simp [hk]
  have hok : (cOk.status != .ok) = false := rfl
  refine congrArg Host.Outcome.next ((withSess_reads h rfl).trans ?_)
  simp only [← hcnt, if_neg hne, hr, if_neg hretry, hgood, hw, Bool.false_eq_true, if_false]
  rfl

end Sys2Proof.Machine
end

section
/-!
What Orbit's commands do to a session (O47).
-/
namespace Sys2Proof.Machine

/-- Settles O47: each command's end state, then its descriptor, completion and frame from the rules on these. -/
theorem sessionCommands : Obligations.SessionCommands := by
  unfold Obligations.SessionCommands
  refine ⟨?opens, ?full, ?appends, ?notes, ?parks, ?stays, ?movesCold, ?revives, ?attached, ?closes, ?describes, ?reads⟩
  case opens =>
    intro s u q c n r w p node tag ht hl ha hw htype hn hobj hreq hi
    have hend := orbFinish_finishes (n := n) (ready := false) (k := cOk) ⟨hobj, hreq, hi⟩ ha rfl (only_opened (c := c) (n := n) (r := r) (s := u))
    have hst : (sess (opened c n r u) n).st ≠ .free := by rw [sess_opened]; nofun
    refine ⟨_, exec_orbOpen_opens ⟨ht, hl, hw, htype⟩ hn, (hend.sess n).trans sess_opened, ?_, hend.toldSess hst, hend.frame⟩
    rw [hend.orb]
    exact Tab.get_set_same ..
  case full =>
    intro s u q c w p node tag ht hl hw htype hn hobj hreq hi
    obtain ⟨htold, hframe⟩ := told_after (who := .port p node tag) (c := orbCpl {} (oHandle c) false c (cRef .capacity))
      (only_modOStat c.part (fun x => { x with capacity := sat 16 x.capacity }) u) (by decide)
    rw [← orbReply_capacity ⟨hobj, hreq, hi⟩] at htold hframe
    refine ⟨_, exec_orbOpen_full ⟨ht, hl, hw, htype⟩ hn, ?_, htold, hframe⟩
    rw [orbReply_capacity ⟨hobj, hreq, hi⟩]
    rfl
  case appends =>
    intro s u v x a k q c n p node tag ext ht hn hl ha htk hst hlog hread hk hat hrev hfree hpos hcnt hmax hroom hw hak hax hobj hreq hi
    have hend := orbFinish_finishes (n := n) (ready := false) (k := cOk) (u := logGrown n (oCount c) v x) ⟨hobj, hreq, hi⟩ hax rfl (only_setSess _ _ x)
    have hsess : sess (logGrown n (oCount c) v x) n = { sess v n with logLen := (sess v n).logLen + oCount c } := sess_setSess_same ..
    exact ⟨_, exec_orbAppend_appends ⟨⟨ht, hn, ha⟩, hl, htk, hst, hlog, hread, hk⟩ (appendAt_end hpos hcnt hmax hat hrev hroom hw hak),
      (hend.sess n).trans hsess, hend.mem, hend.toldSess (by rw [hsess]; exact hfree), hend.frame⟩
  case notes =>
    intro s u v y z x k a q c n p node tag ext ht hn hl ha htk hst hlog hread hk hf happ hput hak hfree hax hobj hreq hi
    have hend := orbFinish_finishes (n := n) (ready := false) (k := cOk) (u := resultNoted n (oCall c) x) ⟨hobj, hreq, hi⟩ hax rfl only_resultNoted
    exact ⟨_, exec_toolResult_notes ⟨⟨ht, hn, ha⟩, hl, htk, hst, hlog, hread, hk⟩ (resultAt_new hf happ hput) hak,
      (hend.sess n).trans sess_resultNoted, hend.mem, hend.toldSess (by rw [sess_resultNoted]; exact hfree), hend.frame⟩
  case parks =>
    intro s u v q c n ht hn hl ha htk hj hst hwin hlen hrec hhot hf hv
    exact ⟨_, exec_park_parks ⟨ht, hn, ha⟩ hl htk ⟨hj, hst, hwin, hlen, hrec, hhot⟩ hf hv, sess_parked, rfl, only_parked⟩
  case stays =>
    intro s u q c n p node tag ht hn hl ha htk hst hd htray hobj hreq hi
    have hend := orbFinish_finishes (n := n) (ready := false) (k := cOk)
      (u := setSess n { sess u n with demote := oDemote c, pin := oPin c } u) ⟨hobj, hreq, hi⟩ ha rfl (only_setSess _ _ u)
    have hfree : (sess (setSess n { sess u n with demote := oDemote c, pin := oPin c } u) n).st ≠ .free := by
      rw [sess_setSess_same, hst]
      nofun
    exact ⟨_, exec_move_stays ⟨ht, hn, ha⟩ hl htk hst hd htray, (hend.sess n).trans (sess_setSess_same ..), hend.toldSess hfree, hend.frame⟩
  case movesCold =>
    intro s u q c n ht hn hl ha htk hst hd hc he
    exact ⟨_, exec_move_cold ⟨ht, hn, ha⟩ hl htk hst hd hc he, sess_movingCold, jobs_movingCold, (only_setSess _ _ u).trans only_movingCold⟩
  case revives =>
    intro s u v q c n w sl ht hn hl ha htk hst hseg hcopies hwin hslot hback hpf hv
    exact ⟨_, exec_revive_begins ⟨ht, hn, ha⟩ hl htk hst ⟨hseg, hcopies, hwin, hslot, hback, hpf, hv⟩, rfl, rfl, only_addOJob _ v⟩
  case attached =>
    intro s u q c n p node tag ht hn hl ha htk hst hg hobj hreq hi
    have hend := orbFinish_finishes (n := n) (ready := false) (k := cOk) ⟨hobj, hreq, hi⟩ ha rfl (.refl [.orb] u)
    have htold := hend.toldSess (by rw [hst]; nofun)
    rw [hend.sess] at htold
    exact ⟨_, exec_revive_attached ⟨ht, hn, ha⟩ hl htk hst hg, hend.sess n, htold, hend.frame⟩
  case closes =>
    intro s u q c n ht hn hl ha htk hst hj hheld
    exact ⟨_, exec_orbClose_closes ⟨ht, hn, ha⟩ hl htk hst hj hheld, sess_closing, jobs_closing hj, only_closing⟩
  case describes =>
    intro s u x q c n p node tag ht hn ha hobj hreq hi hw
    refine ⟨_, exec_orbDescribe_writes ⟨ht, hn, ha⟩ hw, ?_⟩
    rw [orbReply_tells ⟨hobj, hreq, hi⟩ rfl]
    exact ⟨rfl, rfl, only_emit _ x⟩
  case reads =>
    intro s u v x k cnt q c n p node tag ht hn ha hobj hreq hi hcnt hne hr hk hw
    refine ⟨_, exec_orbLogRead_writes ⟨ht, hn, ha⟩ hcnt hne hr hk hw, ?_⟩
    rw [orbReply_tells ⟨hobj, hreq, hi⟩ logReadCpl_unrefused]
    exact ⟨rfl, rfl, only_emit _ x⟩

end Sys2Proof.Machine
end

section
/-!
How Orbit's transitions go on and end (R301, R310, R315 to R318, R327): the state that each event of a session ends in.
-/
namespace Sys2Proof.Machine

variable {s u v : State} {n cnt : Nat} {j : OrbJob} {k : Cpl} {d : Sess}

/-! ### The detach point (R315) -/

/-- R315: the detach point of session `n`, which parks under job `j`, is reached. -/
structure Detaches (s : State) (n : Nat) (j : OrbJob) : Prop where
  parking : (sess s n).st = .parking
  up : linkDown s = false
  unfenced : fenced s .orbit = false
  reached : (sess s n).parkStep < (dom s (sess s n).part).commit ∨ (dom s (sess s n).part).st = .idle
  job : jobOf s n = some j
  single : j.joined = []

theorem Detaches.due (h : Detaches s n j) : ((sess s n).st != .parking || linkDown s || fenced s .orbit ||
    !(decide ((sess s n).parkStep < (dom s (sess s n).part).commit) || (dom s (sess s n).part).st == .idle)) = false := by
  rcases h.reached with hr | hr <;> simp [h.parking, h.up, h.unfenced, hr]

/-- Session `n` is in the state of `d`, and in no transition. -/
def settled (n : Nat) (d : Sess) (s : State) : State := dropOJob n (setSess n d s)

theorem sess_settled : sess (settled n d s) n = d := by rw [settled, sess_dropOJob, sess_setSess_same]

theorem jobs_settled : (settled n d s).orb.jobs = s.orb.jobs.filter (·.num != n) := rfl

theorem only_settled : Only [.orb] s (settled n d s) := (only_setSess n d s).trans (only_dropOJob n _)

/-- R315: with the call's result there the session is attached again. -/
theorem exec_parkDetach_returns (h : Detaches s n j) (hr : (sess s n).resultSeen = true) : exec (.parkDetach n) s =
    .next (orbFinish n j.cmd true cOk (settled n { sess s n with st := .attached, changeFt := s.ft, resultSeen := false } s)) := by
  have hend := orbEndAll_single (ready := true) (k := cOk)
    (s := settled n { sess s n with st := .attached, changeFt := s.ft, resultSeen := false } s) (jobOf_num h.job) h.single
  refine congrArg Host.Outcome.next ?_
  simp only [h.due, h.job, hr, if_true, Bool.false_eq_true, if_false]
  exact hend

/-- R315, R342: the park of session `n` is counted, and its group cleared. -/
def detached (n : Nat) (s : State) : State :=
  modOStat (sess s n).part (fun x => { x with parks := sat 16 x.parks }) (setSess n { sess s n with group := none } s)

theorem sess_detached : sess (detached n s) n = { sess s n with group := none } := by rw [detached, sess_modOStat, sess_setSess_same]

theorem jobs_detached : (detached n s).orb.jobs = s.orb.jobs := rfl

theorem parks_detached : ((detached n s).orb.stats.get (sess s n).part).parks = sat 16 (s.orb.stats.get (sess s n).part).parks := by
  rw [detached, stats_modOStat_same]
  rfl

theorem only_detached : Only [.orb] s (detached n s) := (only_setSess _ _ s).trans (only_modOStat _ _ _)

/-- R315: without the result the session goes on to its depth; here COLD. -/
theorem exec_parkDetach_moves (h : Detaches s n j) (ha : hasPartner s = false) (hr : (sess s n).resultSeen = false) (hc : oDepth j.cmd = .cold) :
    exec (.parkDetach n) s =
      .next (orbFinish n j.cmd false cOk (movingCold n false {} { sess s n with group := none } (detached n s))) := by
  have hmove := startMove_cold (n := n) (back := false) (c := {}) (hasPartner_of_only (only_detached (n := n)) (by decide) ha)
  rw [sess_detached] at hmove
  have hend := orbEndAll_single (ready := false) (k := cOk)
    (s := movingCold n false {} { sess s n with group := none } (detached n s)) (jobOf_num h.job) h.single
  have hseen : ¬ (sess s n).resultSeen = true := by simp [hr]
  refine congrArg Host.Outcome.next (.trans ?_ ((congrArg (orbEndAll j false cOk) hmove).trans hend))
  simp only [h.due, h.job, if_neg hseen, hc, Bool.false_eq_true, if_false]
  rfl

/-- Before its detach point a session goes on parking: the event changes nothing (entry 17). -/
theorem exec_parkDetach_early (hc : (dom s (sess s n).part).commit ≤ (sess s n).parkStep) (hi : (dom s (sess s n).part).st ≠ .idle) :
    exec (.parkDetach n) s = .next s := by
  have hearly : (!(decide ((sess s n).parkStep < (dom s (sess s n).part).commit) || (dom s (sess s n).part).st == .idle)) = true := by
    simp [Nat.not_lt.2 hc, hi]
  refine congrArg Host.Outcome.next (if_pos ?_)
  rw [hearly, Bool.or_true]

/-! ### A move to COLD, and the end of a move (R301, R316, R317) -/

theorem sess_freePages : sess (freePages n s) n = { sess s n with pages := [], slot := none } := by
  unfold freePages
  dsimp only
  split <;> exact sess_setSess_same ..

/-- Session `n` holds no page, slot or KV field. -/
def emptied (n : Nat) (j : OrbJob) (s : State) : State :=
  setOJob { j with ready := some cOk } (setSess n { sess s n with pages := [], slot := none, kvLen := 0, win := 0 } (freePages n s))

theorem sess_emptied : sess (emptied n j s) n = { sess s n with pages := [], slot := none, kvLen := 0, win := 0 } := by
  rw [emptied, sess_setOJob, sess_setSess_same]

theorem only_emptied : Only [.orb] (freePages n s) (emptied n j s) := (only_setSess _ _ _).trans (only_setOJob _ _)

theorem coldGo_emptied : coldGo n j s = emptied n j s := by rw [coldGo, sess_freePages]; rfl

/-- R317: with no reference left and the energy there, a move to COLD frees what the session holds. -/
theorem exec_coldMoveProceed_frees (hst : (sess s n).st = .moving) (ht : (sess s n).target = .cold) (hr : (sess s n).refs = 0)
    (hf : fenced s .orbit = false) (hj : jobOf s n = some j) (hready : j.ready = none)
    (he : energyTake (sess s n).part (if j.back then .background else .parkMove) (coldCost s n) s = some (u, false)) :
    exec (.coldMoveProceed n) s = .next (emptied n j u) := by
  have hgo : ((sess s n).st != .moving || (sess s n).target != .cold || (sess s n).refs != 0 || fenced s .orbit) = false := by
    simp [hst, ht, hr, hf]
  refine congrArg Host.Outcome.next ?_
  simp only [hgo, hj, hready, he, Option.isSome_none, Bool.false_eq_true, if_false]
  exact coldGo_emptied

/-- R317: a reference that is left holds the move (entry 17). -/
theorem exec_coldMoveProceed_referred (hr : (sess s n).refs ≠ 0) : exec (.coldMoveProceed n) s = .next s :=
  congrArg Host.Outcome.next (if_pos (by simp [hr]))

/-- The outcomes of HINTs of session `n` are taken. -/
def hintsTaken (n : Nat) (s : State) : State := { s with eng := { s.eng with done := s.eng.done.filter fun e => !(e.1 == 0xE && e.2.1 == n) } }

theorem only_hintsTaken : Only [.eng] s (hintsTaken n s) := .of fun p => by cases p <;> simp [SamePart, hintsTaken]

theorem startHeld_none (h : ∀ x ∈ s.orb.held, x.1 ≠ n) : startHeld n s = s := by
  have hnone : s.orb.held.find? (·.1 == n) = none := List.find?_eq_none.2 fun x hx => by simpa using h x hx
  rw [startHeld, hnone]

/-- R301: job `j` of session `n`, which moves, has ended, and no command is held for the session. -/
structure MoveOver (s : State) (n : Nat) (j : OrbJob) : Prop where
  moving : (sess s n).st = .moving
  unfenced : fenced s .orbit = false
  up : linkDown s = false
  job : jobOf s n = some j
  issued : j.issued = true ∨ (sess s n).target = .cold
  ready : j.ready = some cOk
  unheld : ∀ x ∈ s.orb.held, x.1 ≠ n
  asked : j.cmd.words ≠ []

/-- The session of a move that is over. -/
def movedSess (d : Sess) (s : State) : Sess := { d with st := .parked, changeFt := s.ft, depth := d.target }

/-- R301: the session of a move that is over is PARKED at the depth it moved to, and its command completes. -/
theorem exec_moveDone_parks (h : MoveOver s n j) (ha : hasPartner s = false) {p node tag : Nat} (hp : PortCommand j.cmd p node tag) :
    exec (.moveDone n) s = .next (orbFinish n j.cmd false cOk (settled n (movedSess (sess s n) s) (hintsTaken n s))) := by
  have hgo : ((sess s n).st != .moving || fenced s .orbit || linkDown s) = false := by simp [h.moving, h.unfenced, h.up]
  have hissue : issueMove j s = s := issueMove_settled (by rw [jobOf_num h.job]; exact h.issued)
  have hwait : heldWaits n s = false := by rw [heldWaits, heldOf_none h.unheld]; rfl
  have hasked : j.cmd.words.isEmpty = false := by simpa using h.asked
  have hend := orbFinish_finishes (n := n) (ready := false) (k := cOk) (u := settled n (movedSess (sess s n) s) (hintsTaken n s)) hp
    (hasPartner_of_only only_hintsTaken (by decide) ha) rfl only_settled
  have hheld := startHeld_none (n := n) (s := orbFinish n j.cmd false cOk (settled n (movedSess (sess s n) s) (hintsTaken n s)))
    (by rw [hend.orb]; exact h.unheld)
  refine congrArg Host.Outcome.next (.trans ?_ hheld)
  simp only [hgo, h.job, hissue, Option.getD_some, h.ready, Option.some_or, hwait, hasked, Bool.false_eq_true, if_false]
  rfl

/-! ### A revival ends (R318) -/

/-- R342: a revival of the partition is counted. -/
def revivalCounted (p : Nat) (s : State) : State := modOStat p (fun x => { x with revivals := sat 16 x.revivals }) s

/-- R318: a revival whose copy and tokens are written leaves its session ATTACHED. -/
theorem exec_reviveDone_attaches (hf : fenced s .orbit = false) (hj : jobOf s n = some j) (hkind : j.kind = .revive) (hone : j.joined = [])
    (hw : reviveWork j s = (v, cOk, cnt)) : exec (.reviveDone n) s = .next (orbFinish n j.cmd false (cVal cnt)
      (revivalCounted (sess v n).part (settled n { sess v n with st := .attached, changeFt := v.ft } v))) := by
  have hnum := jobOf_num hj
  have hend := orbEndAll_single (ready := false) (k := cVal cnt)
    (s := revivalCounted (sess v n).part (settled n { sess v n with st := .attached, changeFt := v.ft } v)) hnum hone
  have hrevive : (j.kind != .revive) = false := by simp [hkind]
  have hretry : cOk.status ≠ .retry := nofun
  refine congrArg Host.Outcome.next (.trans ?_ hend)
  simp only [hf, hj, hrevive, hw, if_neg hretry, endRevive, hnum, Bool.false_eq_true, if_false]
  rfl

/-! ### A session is closed (R291, R310) -/

/-- Session `n` is free, its GEN advanced. -/
def released (n : Nat) (s : State) : State := freeSess n (dropOJob n (freePages n s))

theorem sess_freeSess : sess (freeSess n s) n = { gen := ((sess s n).gen + 1) % 256 } := by
  unfold freeSess
  dsimp only
  split <;> exact sess_setSess_same n { gen := ((sess s n).gen + 1) % 256 } s

theorem only_freeSess : Only [.orb] s (freeSess n s) :=
  .ite ((only_setSess _ _ s).trans (only_modOrb _ _)) (only_setSess _ _ s)

theorem sess_released : sess (released n s) n = { gen := ((sess s n).gen + 1) % 256 } := by
  rw [released, sess_freeSess, sess_dropOJob, sess_freePages]

theorem only_released : Only [.orb] (freePages n s) (released n s) := (only_dropOJob _ _).trans only_freeSess

/-- R310: with no reference left a session that closes is freed. -/
theorem exec_closeRelease_frees (hst : (sess s n).st = .closing) (hr : (sess s n).refs = 0) (hf : fenced s .orbit = false)
    (hl : linkDown s = false) (hj : jobOf s n = some j) :
    exec (.closeRelease n) s = .next (orbFinish n j.cmd false cOk (released n s)) := by
  have hgo : ((sess s n).st != .closing || (sess s n).refs != 0 || fenced s .orbit || linkDown s) = false := by simp [hst, hr, hf, hl]
  refine congrArg Host.Outcome.next ?_
  simp only [hgo, hj, Bool.false_eq_true, if_false]
  rfl

/-- R310: a reference that is left holds the release (entry 17). -/
theorem exec_closeRelease_referred (hr : (sess s n).refs ≠ 0) : exec (.closeRelease n) s = .next s :=
  congrArg Host.Outcome.next (if_pos (by simp [hr]))

/-! ### An idle session (R327) -/

/-- R342: a demotion of the partition is counted. -/
def demotionCounted (p : Nat) (s : State) : State := modOStat p (fun x => { x with demotions := sat 16 x.demotions }) s

theorem demotions_demotionCounted (p : Nat) :
    ((demotionCounted p s).orb.stats.get p).demotions = sat 16 (s.orb.stats.get p).demotions := by
  rw [demotionCounted, stats_modOStat_same]

/-- R327: a WARM session that has been idle long enough moves to COLD. -/
theorem exec_demotion_cools (hst : (sess s n).st = .parked) (hd : (sess s n).demote = true) (hw : (sess s n).depth = .warm)
    (hf : fenced s .orbit = false) (hl : linkDown s = false) (ha : hasPartner s = false) (hidle : (orbPart s (sess s n).part).warmIdleS ≠ 0)
    (hdue : (sess s n).changeFt + (orbPart s (sess s n).part).warmIdleS * 1000000000 ≤ s.ft) :
    exec (.demotion n) s = .next (movingCold n true {} (sess s n) (demotionCounted (sess s n).part s)) := by
  have hlong : (orbPart s (sess s n).part).warmIdleS * 1000000000 ≤ s.ft - (sess s n).changeFt := by omega
  have hgo : ((sess s n).st = .parked && (sess s n).demote && ((orbPart s (sess s n).part).warmIdleS != 0 &&
      decide ((orbPart s (sess s n).part).warmIdleS * 1000000000 ≤ s.ft - (sess s n).changeFt)) && !fenced s .orbit && !linkDown s) = true := by
    simp [hst, hd, hf, hl, hidle, hlong]
  have hwarm : ¬ Depth.warm = .hot := nofun
  have hmove := startMove_cold (n := n) (back := true) (c := {}) (s := demotionCounted (sess s n).part s)
    (hasPartner_of_only (only_modOStat _ _ s) (by decide) ha)
  refine congrArg Host.Outcome.next (.trans ?_ hmove)
  simp only [hw, hgo, if_neg hwarm, if_true]
  rfl

end Sys2Proof.Machine
end

section
/-!
How Orbit's transitions end (O48); CLOSE answers with the handle it closed (entry 101), and an event that comes too early changes
nothing (entry 17).
-/
namespace Sys2Proof.Machine

/-- Settles O48: each event's end state, then its descriptor, jobs, completion and frame from the rules on these. -/
theorem sessionProgress : Obligations.SessionProgress := by
  unfold Obligations.SessionProgress
  refine ⟨?returns, ?detaches, ?early, ?frees, ?coldReferred, ?moved, ?revived, ?closed, ?closeReferred, ?demoted⟩
  case returns =>
    intro s n j p node tag hst hl ha hf hpt hj hone hr hobj hreq hi
    have hend := orbFinish_finishes (n := n) (ready := true) (k := cOk)
      (u := settled n { sess s n with st := .attached, changeFt := s.ft, resultSeen := false } s) ⟨hobj, hreq, hi⟩ ha rfl only_settled
    exact ⟨_, exec_parkDetach_returns ⟨hst, hl, hf, hpt, hj, hone⟩ hr, (hend.sess n).trans sess_settled, hend.jobs.trans jobs_settled,
      hend.toldSess (by rw [sess_settled]; nofun), hend.frame⟩
  case detaches =>
    intro s n j p node tag hst hl ha hf hpt hj hone hr hc hobj hreq hi
    have hend := orbFinish_finishes (n := n) (ready := false) (k := cOk)
      (u := movingCold n false {} { sess s n with group := none } (detached n s)) ⟨hobj, hreq, hi⟩ ha rfl (only_detached.trans only_movingCold)
    refine ⟨_, exec_parkDetach_moves ⟨hst, hl, hf, hpt, hj, hone⟩ ha hr hc, (hend.sess n).trans sess_movingCold,
      hend.jobs.trans (by rw [jobs_movingCold, jobs_detached]), ?_, hend.toldSess (by rw [sess_movingCold]; nofun), hend.frame⟩
    rw [hend.stats, stats_movingCold, parks_detached]
  case early =>
    intro s n _ _ hc hi
    exact ⟨s, exec_parkDetach_early hc hi, rfl⟩
  case frees =>
    intro s u n j hst ht hr hf hj hready he hsess
    exact ⟨_, exec_coldMoveProceed_frees hst ht hr hf hj hready he, by rw [sess_emptied, hsess], only_emptied .mem (by decide), only_emptied⟩
  case coldReferred =>
    intro s n hr
    exact ⟨s, exec_coldMoveProceed_referred hr, rfl⟩
  case moved =>
    intro s n j p node tag hst hf hl ha hj hissued hready hheld hasked hobj hreq hi
    have hcmd : PortCommand j.cmd p node tag := ⟨hobj, hreq, hi⟩
    have hend := orbFinish_finishes (n := n) (ready := false) (k := cOk) (u := settled n (movedSess (sess s n) s) (hintsTaken n s)) hcmd
      (hasPartner_of_only only_hintsTaken (by decide) ha) rfl only_settled
    have htold := hend.toldSess (by rw [sess_settled]; nofun)
    exact ⟨_, exec_moveDone_parks ⟨hst, hf, hl, hj, hissued, hready, hheld, hasked⟩ ha hcmd, (hend.sess n).trans sess_settled, hend.jobs,
      htold, (only_hintsTaken.seq hend.frame).mono (by decide)⟩
  case revived =>
    intro s v n j cnt p node tag hf hj hkind hone hw ha _ hobj hreq hi
    have hend := orbFinish_finishes (n := n) (ready := false) (k := cVal cnt)
      (u := revivalCounted (sess v n).part (settled n { sess v n with st := .attached, changeFt := v.ft } v)) ⟨hobj, hreq, hi⟩ ha rfl
      (only_settled.trans (only_modOStat _ _ _))
    have hsess : sess (revivalCounted (sess v n).part (settled n { sess v n with st := .attached, changeFt := v.ft } v)) n =
        { sess v n with st := .attached, changeFt := v.ft } := by rw [revivalCounted, sess_modOStat, sess_settled]
    exact ⟨_, exec_reviveDone_attaches hf hj hkind hone hw, (hend.sess n).trans hsess, hend.jobs, hend.mem,
      hend.toldSess (by rw [hsess]; nofun), hend.frame⟩
  case closed =>
    intro s n j p node tag hst hr hf hl _ hj ha hobj hreq hi
    have hend := orbFinish_finishes (n := n) (ready := false) (k := cOk) (u := released n s) ⟨hobj, hreq, hi⟩ ha rfl only_released
    have hsess := (hend.sess n).trans sess_released
    have htold := hend.told
    rw [hsess] at htold
    exact ⟨_, exec_closeRelease_frees hst hr hf hl hj, hsess, hend.mem, htold, hend.frame⟩
  case closeReferred =>
    intro s n hr
    exact ⟨s, exec_closeRelease_referred hr, rfl⟩
  case demoted =>
    intro s n hst hd hw hf hl ha hidle hdue
    exact ⟨_, exec_demotion_cools hst hd hw hf hl ha hidle hdue, sess_movingCold, jobs_movingCold,
      by rw [stats_movingCold, demotions_demotionCounted], (only_modOStat _ _ s).trans only_movingCold⟩

end Sys2Proof.Machine
end

section
/-!
What an engine's write leaves (R28 stages 4 to 9): it may do what a read does, give a ZERO page its frame, which the partner is told,
and change the memory; the queues and the blocks' own state stand.
-/
namespace Sys2Proof.Machine

variable {s t u : State} {l : List Part} {α β : Type}

/-! ### Frames of a result that there may be none of -/

/-- Where there is a result, nothing but `l` changed on the way to it. -/
def MayOnly (l : List Part) (v : α → State) (s : State) (r : Option α) : Prop := ∀ x, r = some x → Only l s (v x)

theorem MayOnly.none {v : α → State} : MayOnly l v s none := nofun

theorem MayOnly.some {v : α → State} {x : α} (h : Only l s (v x)) : MayOnly l v s (some x) := by
  intro y e
  cases e
  exact h

theorem MayOnly.map {v : α → State} {r : Option β} {f : β → α} (h : ∀ b, Only l s (v (f b))) : MayOnly l v s (r.map f) := by
  cases r with
  | none => exact .none
  | some b => exact .some (h b)

theorem MayOnly.bind {v : α → State} {r : Option β} {f : β → Option α} (h : ∀ b, r = Option.some b → MayOnly l v s (f b)) :
    MayOnly l v s (r.bind f) := by
  cases r with
  | none => exact .none
  | some b => exact h b rfl

theorem MayOnly.trans {v : α → State} {r : Option α} (h : Only l s t) (k : MayOnly l v t r) : MayOnly l v s r :=
  fun x e => h.trans (k x e)

/-! ### A frame for a page (R130, R134, R144, R145) -/

/-- What the choice of a frame may change: Plane's state, and what the partner is told of it. -/
abbrev allocParts : List Part := [.pln, .pair, .out]

theorem only_mirrorOnly {m : Mirror} : Only [.pair, .out] s (mirrorOnly m s) := by
  have hwait : Only [.pair, .out] s { s with pair := { s.pair with
      mirrorSeq := s.pair.mirrorSeq + 1, waits := s.pair.waits ++ [(s.pair.mirrorSeq, m, .none)] } } :=
    (only_modPair (fun p => { p with mirrorSeq := p.mirrorSeq + 1, waits := p.waits ++ [(p.mirrorSeq, m, .none)] }) s).mono (by decide)
  refine .ite (.ite ?_ (.refl _ s)) (.refl _ s)
  exact .ite (hwait.trans ((only_emit _ _).mono (by decide))) hwait

theorem only_changePage {p : Nat} {e : PageEnt} : Only allocParts s (changePage p e s) := (only_setPage p e s).seq only_mirrorOnly

theorem only_took {n : Nat} {f : Frame} : Only allocParts s (took n f s) := by
  unfold took
  split
  · exact .refl _ s
  · exact (only_pln _ s).mono (by decide)
  · exact (only_pln _ s).mono (by decide)

theorem only_needDdr {n : Nat} : MayOnly allocParts Prod.snd s (needDdr n s) := by
  unfold needDdr
  split
  · exact .some only_took
  · split
    · exact .none
    · dsimp only
      split
      · exact .some only_took
      · split
        · exact .some (only_took.trans only_changePage)
        · exact .some only_took

theorem only_allocFar {n : Nat} {k : Tier} : MayOnly allocParts Prod.snd s (allocFar n k s) := by
  unfold allocFar
  split
  · exact .none
  · exact only_needDdr
  · exact .map fun _ => only_took

theorem only_allocFirstFar {n : Nat} {ks : List Tier} : MayOnly allocParts Prod.snd s (allocFirstFar n ks s) := by
  induction ks with
  | nil => exact .none
  | cons k ks ih =>
    rw [allocFirstFar]
    split
    · next e => exact .some (only_allocFar _ e)
    · exact ih

/-- A spill is counted once its change is made. -/
theorem only_spilled {n : Nat} (h : Only allocParts s t) : Only allocParts s (modPf n (fun x => { x with spills := sat 16 x.spills }) t) :=
  h.trans ((only_pln _ t).mono (by decide))

theorem only_spillOne {n : Nat} : MayOnly allocParts id s (spillOne n s) := by
  have hcopy {x : Plane} : Only allocParts s { s with pln := x } := (only_pln x s).mono (by decide)
  unfold spillOne
  extract_lets counted dropCopy copyOf clean demote heavy writeBack link
  have hdemote (p : Nat) : Only allocParts s (demote p) := only_spilled only_changePage
  have hback (p : Nat) : MayOnly allocParts id s (writeBack p) := by
    dsimp only [writeBack]
    split
    · exact .some (hdemote p)
    · split
      · next e => exact .some (only_spilled ((only_allocFirstFar _ e).trans only_changePage))
      · exact .none
  split
  · exact .some (only_spilled hcopy)
  · split
    · exact .some (hdemote _)
    · split
      · exact .some (only_spilled hcopy)
      · split
        · exact .none
        · split
          · exact .some (hdemote _)
          · split
            · next e => exact .some ((MayOnly.bind fun p _ => hback p) _ e)
            · exact .bind fun p _ => hback p

theorem only_needPrism {n : Nat} : MayOnly allocParts Prod.snd s (needPrism n s) := by
  unfold needPrism
  split
  · exact .some (.refl _ s)
  · exact .bind fun t e => .trans (only_spillOne t e) (.map fun _ => .refl _ t)

theorem only_allocTier {n : Nat} {k : Tier} : MayOnly allocParts Prod.snd s (allocTier n k s) := by
  unfold allocTier
  split
  · exact only_needPrism
  · exact only_allocFar

theorem only_allocFirst {n : Nat} {ks : List Tier} : MayOnly allocParts Prod.snd s (allocFirst n ks s) := by
  induction ks with
  | nil => exact .none
  | cons k ks ih =>
    rw [allocFirst]
    split
    · next e => exact .some (only_allocTier _ e)
    · exact ih

theorem only_zeroAlloc {n p : Nat} : MayOnly allocParts Prod.snd s (zeroAlloc n p s) := by
  intro x e
  obtain ⟨y, hy, rfl⟩ := Option.map_eq_some_iff.1 e
  exact only_allocFirst y hy

theorem only_readyWrite {p : Nat} : Only allocParts s (readyWrite p s).1 := by
  have huse {t : State} : Only allocParts t (usePage p t) := (only_usePage p t).mono (by decide)
  have hset {e : PageEnt} : Only allocParts s (setPage p e s) := (only_setPage p e s).mono (by decide)
  unfold readyWrite
  dsimp only
  split
  · split
    · exact .refl _ s
    · split
      · exact .refl _ s
      · split
        · exact .refl _ s
        · next e => exact (only_zeroAlloc _ e).trans (only_changePage.trans huse)
  · exact hset.trans huse
  · exact .trans (.ite hset (.refl _ s)) huse
  · exact huse

/-! ### The bytes of a write (R171, R209) -/

theorem only_writeBlock {part b : Nat} {r : FoldReq} {compress mark : Bool} {d : List (Option Byte)} :
    Only [.mem, .fld, .cmp] s (writeBlock part r compress mark b d s).1 := by
  have hput {plain : List Byte} {m : Nat} : Only [.mem, .fld, .cmp] s (putBlock part b plain m compress s) :=
    (putBlock_frame part b plain m compress s).mono (by decide)
  unfold writeBlock
  dsimp only
  split
  · exact hput
  · split
    · next c _ =>
      have hlog : Only [.mem, .fld, .cmp] s (logPoison part b c r s) := only_logPoison.mono (by decide)
      refine .ite (hlog.trans ?_) hlog
      exact ((only_modFld part _ _).trans (only_setBlk b _ _)).mono (by decide)
    · dsimp only
      exact hput

theorem only_foldWrite {part off : Nat} {r : FoldReq} {compress mark : Bool} {data : List Byte} :
    Only [.mem, .fld, .cmp] s (foldWrite part r compress mark off data s).1 := by
  have hnote : Only [.mem, .fld, .cmp] s (noteWrite r off (data.map some) s) := (only_noteWrite r off _ s).mono (by decide)
  have hblock {p : State × Bool} {b : Nat} : Only [.mem, .fld, .cmp] p.1 (if (blockPart b off (data.map some)).all (·.isNone) then p
      else ((writeBlock part r compress mark b (blockPart b off (data.map some)) p.1).1,
        p.2 || (writeBlock part r compress mark b (blockPart b off (data.map some)) p.1).2)).1 := by
    split
    · exact .refl _ p.1
    · dsimp only
      exact only_writeBlock
  rw [foldWrite, foldWriteOpt]
  refine hnote.trans ?_
  generalize noteWrite r off (data.map some) s = u
  dsimp only
  split
  · exact (Only.foldlFst (p := (u, false)) fun _ _ => hblock).trans ((only_modFld part _ _).mono (by decide))
  · exact .foldlFst (p := (u, false)) fun _ _ => hblock

theorem only_engineWrite1 {part off n : Nat} : Only [.vtx, .out] s (engineWrite1 part off n s).1 := by
  refine .foldlFst (p := (s, [])) fun p line => ?_
  have hmeets : Only [.vtx, .out] p.1 (engineMeets false part line p.1) := only_engineMeets.mono (by decide)
  dsimp only
  split
  · exact hmeets.trans (.trans (.foldl fun t _ => (only_send _ _ _ t).mono (by decide)) ((only_dirFree line _).mono (by decide)))
  · exact hmeets

/-- What a write may change: what a read may, the pages' frames with what the partner is told of them, and the memory. -/
abbrev writeParts : List Part := [.out, .fresh, .cmp, .loc, .fld, .vtx, .pln, .pair, .mem]

theorem only_engineWriteCoh {x : XlReq} {compress : Bool} {off n : Nat} : Only writeParts s (engineWriteCoh x compress off n s) := by
  refine (only_engineWrite1.mono (by decide)).trans (.foldl fun t line => ?_)
  exact (only_foldWrite.mono (by decide)).trans ((only_useFresh _).mono (by decide))

theorem only_writePieces {x : XlReq} {mark : Bool} {pieces : List (Nat × Nat)} {data : List Byte} {k : Cpl} :
    Only writeParts s (writePieces x mark pieces data s k).1 := by
  induction pieces generalizing data s k with
  | nil => exact .refl _ s
  | cons y rest ih =>
    obtain ⟨va, n⟩ := y
    have htr : Only writeParts s (translate { x with va := va, len := n } s).1 := only_translate.mono (by decide)
    simp only [writePieces]
    split
    · next e => exact (htr.fst_eq e).trans ih
    · next u pa w _ e =>
      refine (htr.fst_eq e).trans ?_
      split
      · exact ih
      · split
        · exact ((only_engineDown _ u).mono (by decide)).trans ih
        · split
          · split
            · exact ih
            · exact ((only_emit _ u).mono (by decide)).trans ih
          · split
            · exact ih
            · have hready : Only writeParts u (readyWrite (bits pa 51 0 / pageBytes) u).1 := only_readyWrite.mono (by decide)
              split
              · next e => exact (hready.fst_eq e).trans ih
              · next v e =>
                have hcoh : Only writeParts v (if segCoherent w then engineWriteCoh x (segCompress w) (bits pa 51 0) n v else v) :=
                  .ite only_engineWriteCoh (.refl _ v)
                exact (hready.fst_eq e).trans (hcoh.trans ((only_foldWrite.mono (by decide)).trans ih))

theorem only_engineWriteAs {num n asid va : Nat} {data : List Byte} {mark : Bool} :
    Only writeParts s (engineWriteAs num n asid va data mark s).1 := only_writePieces

end Sys2Proof.Machine
end

section
/-!
What an answer leaves (R65, R69, R71, R649), what a debit leaves (R567, R570), and what an arriving command leaves at Orbit (R303).
-/
namespace Sys2Proof.Machine

variable {s t u : State} {c : QCmd} {q : Nat}

/-! ### Answers and completion ADDs -/

/-- What an answer may change: its message or the list of those kept for a block, a queue pair, and who waits at Meridian. -/
abbrev answerParts : List Part := [.mer, .edg, .out, .eng]

theorem only_qpSend {n len : Nat} : Only [.edg] s (qpSend n len s) := by
  unfold qpSend
  split
  · refine .ite (.refl _ s) (.of fun p => ?_)
    cases p <;> simp [SamePart]
  · exact .refl _ s

theorem only_reply {r : Requester} {k : Cpl} : Only answerParts s (reply r k s) := by
  have hemit : Only answerParts s (emit (.cpl r k) s) := (only_emit _ s).mono (by decide)
  unfold reply
  split
  · exact .refl _ s
  · exact .refl _ s
  · exact .refl _ s
  · exact (only_setSeq _ _ s).mono (by decide)
  · exact hemit.trans (only_qpSend.mono (by decide))
  · refine .of fun p => ?_
    cases p <;> simp [SamePart]
  · exact hemit

theorem only_judge {n : Nat} {a : DueAct} {k : Cpl} : Only [.mer] s (judge n a k s) := by
  unfold judge judgeUntil
  split
  · exact only_modDom n _ s
  · exact only_modDom n _ s
  · exact only_modDom n _ s
  · exact only_modDom n _ s
  · exact only_modDom n _ s
  · exact .refl _ s

theorem only_finishWait {w : Waiter} {k : Cpl} : Only answerParts s (finishWait w k s) := by
  unfold finishWait
  split
  · exact only_judge.mono (by decide)
  · exact (only_setSeq _ _ s).mono (by decide)
  · exact only_reply

theorem only_wake {i : Nat} : Only answerParts s (wake i s) := by
  have hset {o : SyncObj} : Only answerParts s (setObj i o s) := (only_mer _ s).mono (by decide)
  exact .ite (hset.trans (.foldl fun _ _ => only_finishWait)) (hset.trans (.foldl fun _ _ => only_finishWait))

theorem only_completionAdd {n : Nat} {o : Option Nat} : Only answerParts s (completionAdd n o s) := by
  cases o with
  | none => exact .refl _ s
  | some i => exact .ite (((only_mer _ s).mono (by decide)).trans only_wake) (.refl _ s)

/-! ### The energy account -/

theorem only_modEnergy (f : Energy → Energy) (s : State) : Only [.cmp] s (modEnergy f s) := only_cmp _ s

theorem only_energyPause {time : Nat} : Only [.cmp, .out] s (energyPause time s) :=
  .trans (.foldl fun _ _ => (only_send _ _ _ _).mono (by decide)) ((only_modEnergy _ _).mono (by decide))

theorem only_debit {n cost : Nat} : Only [.cmp, .out] s (debit n cost s) := by
  have hmod (f : Energy → Energy) (t : State) : Only [.cmp, .out] t (modEnergy f t) := (only_modEnergy f t).mono (by decide)
  have hdebit : Only [.cmp, .out] s (modEPart n (fun p => { p with debit := p.debit + cost })
      (modEnergy (fun e => { e with a := e.a - cost, d := e.d + cost }) s)) := (hmod _ s).trans (hmod _ _)
  refine .ite (.ite ?_ ?_) hdebit
  · exact hdebit.trans ((hmod _ _).trans only_energyPause)
  · exact hdebit.trans (hmod _ _)

theorem only_countEnergyRefusal {n : Nat} : Only [.cmp] s (countEnergyRefusal n s) := (only_modEnergy _ s).trans (only_modEnergy _ _)

theorem only_energyTake {n cost : Nat} {cls : SClass} : MayOnly [.cmp, .out] Prod.fst s (energyTake n cls cost s) := by
  unfold energyTake
  split
  · exact .some only_debit
  · exact .some (((only_modEnergy _ s).trans (only_modEnergy _ _)).mono (by decide))
  · exact .none

/-! ### A command enters a queue -/

/-- A submission, refused or taken in: it changed nothing but `l`, and where it was taken in, a command of the same requester is in
queue `q` of block `b`. -/
structure Submitted (l : List Part) (b : Block) (q : Nat) (c : QCmd) (s : State) (r : State × Option Cpl) : Prop where
  frame : Only l s r.1
  queued : r.2 = none → ∃ x ∈ queueOf r.1 b q, x.req = c.req

theorem Submitted.refused {l : List Part} {b : Block} {k : Cpl} (h : Only l s t) : Submitted l b q c s (t, some k) := ⟨h, nofun⟩

theorem Submitted.queue {l : List Part} {b : Block} {x : QCmd} (hx : x.req = c.req) (h : Only l s t) (hl : .eng ∈ l) :
    Submitted l b q c s (setQueue b q (queueOf t b q ++ [x]) t, none) :=
  ⟨h.trans ((only_setQueue b q _ t).mono fun p hp => by rwa [List.mem_singleton.1 hp]), fun _ => ⟨x, by simp, hx⟩⟩

/-- What follows on a command taken in, and leaves its queue. -/
theorem Submitted.andThen {l : List Part} {b : Block} (h : Submitted l b q c s (t, none)) (hf : Only l t u)
    (hq : queueOf u b q = queueOf t b q) : Submitted l b q c s (u, none) :=
  ⟨h.frame.trans hf, fun _ => hq ▸ h.queued rfl⟩

theorem enqueue_submitted {b : Block} : Submitted [.cmp, .out, .eng] b q c s (enqueue b q c s) := by
  unfold enqueue
  split
  · exact .refused (only_countEnergyRefusal.mono (by decide))
  · next e => exact .queue rfl ((only_energyTake _ e).mono (by decide)) (by decide)

theorem enqueueUnless_submitted {rs : List Reason} {b : Block} : Submitted [.cmp, .out, .eng] b q c s (enqueueUnless rs b q c s) := by
  unfold enqueueUnless
  split
  · exact .refused (only_countEnergyRefusal.mono (by decide))
  · exact .refused (.refl _ s)
  · exact enqueue_submitted

theorem only_countOrb {n : Nat} {k : Cpl} : Only [.orb] s (countOrb n k s) := by
  unfold countOrb
  split
  · exact only_modOStat n _ s
  · exact only_modOStat n _ s
  · exact .refl _ s

theorem only_setArb (k : Nat) (a : Arb) (s : State) : Only [.eng] s (setArb k a s) :=
  .of fun p => by cases p <;> simp [SamePart, setArb]

/-- What a submission may change at Orbit: the queues, its counters, the account with its pause message, and a free value. -/
abbrev submitParts : List Part := [.eng, .orb, .cmp, .out, .fresh]

/-- R303, R326: a command of another block arrives at Orbit. -/
theorem orbSubmit_submitted {b i : Nat} (hreq : c.req = .block b i) : Submitted submitParts .orbit q c s (orbSubmit q c s) := by
  unfold orbSubmit
  split
  · exact .refused (.refl _ s)
  · extract_lets c' c1 ahead est s1 late prompt reasons
    have hfresh : Only submitParts s s1 := .ite ((only_useFresh s).mono (by decide)) (.refl _ s)
    split
    next t r e =>
    have hin : Submitted submitParts .orbit q c s (t, r) := by
      rw [← e]
      split
      · split
        · exact .refused hfresh
        · exact .queue rfl hfresh (by decide)
      · have henq : Submitted [.cmp, .out, .eng] .orbit q c1 s1 (enqueueUnless reasons .orbit q c1 s1) := enqueueUnless_submitted
        exact ⟨hfresh.trans (henq.frame.mono (by decide)), henq.queued⟩
    split
    · exact .refused (hin.frame.trans (only_countOrb.mono (by decide)))
    · have hasked : c1.req = .block b i := hreq
      extract_lets a s2
      have hs2 : Submitted submitParts .orbit q c s (s2, none) :=
        hin.andThen (.ite (.refl _ t) ((only_setArb _ _ t).mono (by decide))) (by dsimp only [s2]; split <;> rfl)
      rw [hasked]
      split
      · exact hs2.andThen ((only_modOStat _ _ s2).mono (by decide)) rfl
      · exact hs2

end Sys2Proof.Machine
end

section
/-!
Apex's contexts, the completions of its commands, and its commands (R347, R349 to R352).
-/
namespace Sys2Proof.Machine

variable {s t u v : State} {op q i p node tag h : Nat} {c : QCmd} {k r : Cpl} {x y : ApxReq}

/-! ### Contexts -/

@[simp] theorem apxReq_setApxReq_same (i : Nat) (x : ApxReq) (s : State) : apxReq (setApxReq i x s) i = x := Tab.get_set_same ..
@[simp] theorem apxReq_modAStat (n : Nat) (f : ApxStat → ApxStat) (s : State) (i : Nat) : apxReq (modAStat n f s) i = apxReq s i := rfl

theorem apxReq_of_apx (e : t.apx = s.apx) (i : Nat) : apxReq t i = apxReq s i := by rw [apxReq, e, apxReq]

theorem only_modApx (f : Apex → Apex) (s : State) : Only [.apx] s (modApx f s) :=
  .of fun p => by cases p <;> simp [SamePart]

theorem only_setApxReq (i : Nat) (x : ApxReq) (s : State) : Only [.apx] s (setApxReq i x s) := only_modApx _ s
theorem only_modAStat (n : Nat) (f : ApxStat → ApxStat) (s : State) : Only [.apx] s (modAStat n f s) := only_modApx _ s

/-- R352: a freed context holds nothing but the next GEN of its index. -/
theorem apxReq_freeReq : apxReq (freeReq i s) i = { gen := ((apxReq s i).gen + 1) % 256 } :=
  apxReq_setApxReq_same i { gen := ((apxReq s i).gen + 1) % 256 } s

theorem only_freeReq : Only [.apx] s (freeReq i s) := (only_setApxReq _ _ s).trans (only_modApx _ _)

/-! ### Completions (R349) -/

/-- What a command that changed Apex's state from `s` to `u` is told, and leaves. -/
theorem apxFinish_tells (hreq : c.req = .port p node tag) (hissuer : c.issuer = none) (hu : Only [.apx] s u) :
    Told s (apxFinish c h k u) (.port p node tag) { k with value := h, aux := bits (c.w 0) 39 24, data := [] } ∧
      Only [.apx, .out] s (apxFinish c h k u) ∧ (apxFinish c h k u).apx = u.apx := by
  have hend := finishCmd_ofPort hreq hissuer rfl { k with value := h, aux := bits (c.w 0) 39 24, data := [] } u
  rw [apxFinish, hend]
  obtain ⟨htold, honly⟩ := told_after (who := .port p node tag) (c := { k with value := h, aux := bits (c.w 0) 39 24, data := [] })
    hu (by decide)
  exact ⟨htold, honly, rfl⟩

/-! ### A command taken -/

/-- The head of queue `q` is of operation `op` and names context `i` of this switch. -/
structure ReqTaken (op q : Nat) (s u : State) (c : QCmd) (i : Nat) : Prop where
  take : apxTake op q s = some (c, u)
  here : reqLocal u (bits (c.w 1) 23 0) = true
  idx : reqIdx u c.part (bits (c.w 1) 23 0) = some i

theorem withReq_taken {f : Nat → QCmd → State → State} (ht : ReqTaken op q s u c i) : withReq op q s f = f i c u := by
  simp [withReq, ht.take, ht.here, ht.idx]

/-! ### OPEN (R351, R352) -/

/-- The checks of an OPEN are met, and the partition has an index it never used: `i`. -/
structure Openable (u : State) (c : QCmd) (i a b o : Nat) (g : List Nat) : Prop where
  session : (sessNum u c.part (iSession c.words)).isSome = true
  words : c.words.length = 16
  ring : rangeCheck u c.part (apxPart u c.part).asid (iRing c.words) (128 + 16 * 2 ^ iOrder c.words) true = none
  record : rangeCheck u c.part (apxPart u c.part).asid (iRes c.words) 128 true = none
  seg : segStage u
    { part := c.part, asid := (apxPart u c.part).asid, va := iRing c.words, len := 128 + 16 * 2 ^ iOrder c.words, write := true, engine := true }
      = .ok a b g o
  incoherent : segCoherent g = false
  room : (u.apx.pools.get c.part).next < (apxPart u c.part).count
  index : i = (apxPart u c.part).base + (u.apx.pools.get c.part).next

/-- The context that an OPEN makes. -/
def openedReq (c : QCmd) (i : Nat) (s : State) : ApxReq :=
  { st := .running, gen := (apxReq s i).gen, part := c.part, img := c.words, ringPos := iStart c.words }

/-- The ring's header as an OPEN writes it: zeros, and a word of the handle and the first position. -/
def ringHeader (c : QCmd) (i : Nat) (s : State) : List Byte :=
  [0, 0, 0, pack [(24, reqHandle s i (openedReq c i s)), (8, 0), (32, iStart c.words)], 0, 0, 0, 0, 0, 0, 0, 0, 0, 0, 0, 0].flatMap (toLE 8)

/-- The context stands, and its index is used. -/
def apxOpened (c : QCmd) (x : ApxReq) (i : Nat) (r : NumPool) (s : State) : State :=
  modApx (fun a => { a with pools := a.pools.set c.part r }) (setApxReq i x s)

theorem apxReq_apxOpened {r : NumPool} : apxReq (apxOpened c x i r s) i = x := apxReq_setApxReq_same i x s

theorem only_apxOpened {r : NumPool} : Only [.apx] s (apxOpened c x i r s) := (only_setApxReq i x s).trans (only_modApx _ _)

theorem exec_apxOpen_opens {a b o : Nat} {g : List Nat} (ht : apxTake 1 q s = some (c, u)) (hc : Openable u c i a b o g)
    (hw : engineWriteAs 112 c.part (apxPart u c.part).asid (iRing c.words) (ringHeader c i u) false u = (v, cOk)) :
    exec (.apxOpen q) s = .next (apxFinish c (reqHandle u i (openedReq c i u)) cOk (apxOpened c (openedReq c i u) i
      { u.apx.pools.get c.part with next := (u.apx.pools.get c.part).next + 1 } v)) := by
  have himg : (c.words ++ List.replicate 16 0).take 16 = c.words := List.take_left' hc.words
  have hhere : (sessNum u c.part (iSession c.words)).isNone = false := by simpa [Option.isSome_iff_ne_none] using hc.session
  refine congrArg Host.Outcome.next ?_
  simp only [ht, hhere, hc.ring, hc.record, hc.seg, hc.incoherent, hc.room, if_true, Option.any_none, Bool.or_self, Bool.false_eq_true,
    if_false, himg, ← hc.index]
  simp only [openedReq, ringHeader] at hw
  simp only [apxWrite, hw]
  rfl

/-! ### SET, CLOSE and DESCRIBE (R352) -/

theorem exec_apxSet_sets (ht : ReqTaken 2 q s u c i) : exec (.apxSet q) s = .next (apxFinish c (bits (c.w 1) 23 0) cOk
    (setApxReq i { apxReq u i with img := setFields (apxReq u i).img c.words } u)) :=
  congrArg Host.Outcome.next (withReq_taken ht)

/-- R352: a context that has ended is freed at once. -/
theorem exec_apxClose_ended (ht : ReqTaken 3 q s u c i) (hst : (apxReq u i).st ≠ .running) (hend : (apxReq u i).pendEnd = none)
    (hclosing : (apxReq u i).closing = none) : exec (.apxClose q) s = .next (apxFinish c (bits (c.w 1) 23 0) cOk (freeReq i u)) := by
  refine congrArg Host.Outcome.next ((withReq_taken ht).trans ?_)
  simp only [hclosing, hend, Option.isSome_none, Bool.false_eq_true, if_false, if_neg hst]

/-- R352, R367: a running context whose END entry is written is freed. -/
theorem exec_apxClose_running (ht : ReqTaken 3 q s u c i) (hst : (apxReq u i).st = .running) (hclosing : (apxReq u i).closing = none)
    (hput : putEnd 3 (apxReq u i).ringPos { apxReq u i with slot := none } u = (v, cOk, y)) (hend : y.pendEnd = none) :
    exec (.apxClose q) s = .next (apxFinish c (bits (c.w 1) 23 0) cOk (freeReq i v)) := by
  have hopen : ¬ (apxReq u i).closing.isSome = true := by simp [hclosing]
  refine congrArg Host.Outcome.next ((withReq_taken ht).trans ?_)
  simp only [if_neg hopen, if_pos hst, hput, hend, Option.isSome_none, Bool.false_eq_true, if_false]
  rfl

theorem exec_apxDescribe_writes (ht : ReqTaken 4 q s u c i)
    (hw : engineWriteAs 112 (apxReq u i).part (apxPart u (apxReq u i).part).asid (c.w 13) ((reqImage u i (apxReq u i)).flatMap (toLE 8)) false u
      = (v, cOk)) : exec (.apxDescribe q) s = .next (apxFinish c (bits (c.w 1) 23 0) cOk v) := by
  refine congrArg Host.Outcome.next ((withReq_taken ht).trans ?_)
  simp only [apxWrite, hw]
  rfl

/-! ### END entries and result records (R356, R363, R367) -/

/-- R367: an END entry that waited for room is written, and no CLOSE waits for it. -/
theorem exec_ringEndWrite_writes {why pos : Nat} (hp : (apxReq s i).pendEnd = some (why, pos)) (hput : putEnd why pos (apxReq s i) s = (v, k, y))
    (hk : k.status ≠ .retry) (hclosing : y.closing = none) : exec (.ringEndWrite i) s = .next (setApxReq i y v) := by
  refine congrArg Host.Outcome.next ?_
  simp only [hp, hput, if_neg hk, hclosing]
  split <;> simp_all

/-- What a result record counts. -/
def resultCounted (n toks accepted : Nat) (s : State) : State :=
  modAStat n (fun y => { y with samples := sat 16 y.samples, tokens := satAdd 16 y.tokens toks, accepted := satAdd 16 y.accepted accepted }) s

/-- R363: the words of a result record. -/
def resultRecord (k : Cpl) (pos n accepted why : Nat) (toks : List Nat) : List Byte :=
  ([pack [(4, k.status.code), (4, k.reason.elim 0 Reason.code), (5, toks.length), (1, b2n (why != 0)), (3, why), (15, 0), (32, pos)],
    pack [(32, n), (5, accepted)]] ++ (List.range 9).map (fun i => toks.getD (2 * i) 0 + 2 ^ 32 * toks.getD (2 * i + 1) 0) ++
    [0, 0, 0, 0, 0]).flatMap (toLE 8)

/-- R363: a record is written and counted, and where the write succeeds its ADD follows. -/
theorem putResult_steps (x : ApxReq) (img : List Nat) (k : Cpl) (pos n accepted why : Nat) (toks : List Nat) (s : State) :
    putResult x img k pos n accepted why toks s =
      if (apxWrite x (iRes img) (resultRecord k pos n accepted why toks) s).2.status = .ok then
        completionAdd x.part (iObj img)
          (resultCounted x.part toks.length accepted (apxWrite x (iRes img) (resultRecord k pos n accepted why toks) s).1)
      else resultCounted x.part toks.length accepted (apxWrite x (iRes img) (resultRecord k pos n accepted why toks) s).1 := by
  unfold putResult resultRecord resultCounted
  cases hk : k.reason <;> simp only [Option.elim_none, Option.elim_some] <;> rfl

/-- A result record leaves every context. -/
theorem apxReq_putResult (img : List Nat) (k : Cpl) (pos n accepted why : Nat) (toks : List Nat) (i : Nat) :
    apxReq (putResult x img k pos n accepted why toks s) i = apxReq s i := by
  have hwrite : (apxWrite x (iRes img) (resultRecord k pos n accepted why toks) s).1.apx = s.apx := only_engineWriteAs .apx (by decide)
  have hadd {t : State} : (completionAdd x.part (iObj img) t).apx = t.apx := only_completionAdd .apx (by decide)
  rw [putResult_steps]
  split
  · rw [apxReq_of_apx hadd, resultCounted, apxReq_modAStat, apxReq_of_apx hwrite]
  · rw [resultCounted, apxReq_modAStat, apxReq_of_apx hwrite]

/-- A record for a request that names no object: nothing follows its write but the counters. -/
theorem putResult_unnamed {img : List Nat} {pos n accepted why : Nat} {toks : List Nat} (ho : iObj img = none)
    (hw : apxWrite x (iRes img) (resultRecord k pos n accepted why toks) s = (v, r)) :
    putResult x img k pos n accepted why toks s = resultCounted x.part toks.length accepted v := by
  rw [putResult_steps, hw, ho]
  exact ite_self _

/-- R356: the slot is discarded, and its end counted. -/
def slotTimedOut (i : Nat) (x : ApxReq) (s : State) : State :=
  modAStat x.part (fun z => { z with timeouts := sat 16 z.timeouts }) (setApxReq i { x with slot := none } s)

theorem apxReq_slotTimedOut : apxReq (slotTimedOut i x s) i = { x with slot := none } := apxReq_setApxReq_same i { x with slot := none } s

/-- R356: a slot that is not complete in time ends TIMEOUT. -/
theorem exec_sampleTimeout_ends {y : ApxSlot} (hs : (apxReq s i).slot = some y) (hf : slotFull y = false) (ht : y.opened + apxTmo s ≤ s.ft)
    (ho : iObj y.img = none)
    (hw : apxWrite (apxReq s i) (iRes y.img) (resultRecord cTimeout y.pos 0 0 0 []) (slotTimedOut i (apxReq s i) s) = (v, r)) :
    exec (.sampleTimeout i) s = .next (resultCounted (apxReq s i).part 0 0 v) := by
  refine congrArg Host.Outcome.next (.trans ?_ (putResult_unnamed (toks := []) ho hw))
  simp only [hs, hf, ht, Bool.not_false, decide_true, Bool.and_self, if_true]
  rfl

/-- R356: before SAMPLE_TMO a slot stands: the event changes nothing (entry 17). -/
theorem exec_sampleTimeout_early {y : ApxSlot} (hs : (apxReq s i).slot = some y) (ht : s.ft < y.opened + apxTmo s) :
    exec (.sampleTimeout i) s = .next s := by
  refine congrArg Host.Outcome.next ?_
  simp only [hs, Nat.not_le.2 ht, decide_false, Bool.and_false, Bool.false_eq_true, if_false]

end Sys2Proof.Machine
end

section
/-!
Contributions to a sample (R353 to R355): what a message must meet to open a slot, and the slot that it opens.
-/
namespace Sys2Proof.Machine

variable {s : State} {i n : Nat} {x : ApxReq} {hdr : List Nat} {data : List Byte}

/-! ### Slots in use -/

theorem Tab.del_sublist {α : Type} (t : Tab α) (k : Nat) : (t.del k).Sublist t := by
  induction t with
  | nil => exact .refl _
  | cons e t ih =>
    rw [Tab.del]
    split
    · exact ih.cons e
    · exact ih.cons_cons e

theorem Tab.filter_put_length {α : Type} (t : Tab α) (k : Nat) (a : α) (f : Nat × α → Bool) (h : f (k, a) = false) :
    ((t.put k a).filter f).length ≤ (t.filter f).length := by
  induction t with
  | nil => simp [Tab.put, h]
  | cons e t ih =>
    rw [Tab.put]
    split
    · simp [List.filter_cons, h]
    · split
      · rw [List.filter_cons, h]
        exact (List.sublist_cons_self e t).filter f |>.length_le
      · rw [List.filter_cons, List.filter_cons]
        split
        · exact Nat.succ_le_succ ih
        · exact ih

/-- A context put back without a slot holds no more of the slots. -/
theorem slotsUsed_setApxReq (f : Nat → Bool) (hx : x.slot = none) : slotsUsed (setApxReq i x s) f ≤ slotsUsed s f := by
  change ((s.apx.reqs.set i x).filter _).length ≤ (s.apx.reqs.filter _).length
  unfold Tab.set
  split
  · exact ((Tab.del_sublist ..).filter _).length_le
  · exact Tab.filter_put_length _ _ _ _ (by simp [hx])

/-! ### The header (R353) -/

abbrev hShard (hdr : List Nat) : Nat := bits (hdr.getD 0 0) 29 24
abbrev hShards (hdr : List Nat) : Nat := bits (hdr.getD 0 0) 35 30 + 1
abbrev hDrafts (hdr : List Nat) : Nat := bits (hdr.getD 0 0) 40 36
abbrev hClass (hdr : List Nat) : Nat := bits (hdr.getD 0 0) 43 41

/-- The draft tokens of a message, and its candidates of each position. -/
def hTokens (hdr : List Nat) (data : List Byte) : List Nat := (List.range (hDrafts hdr)).map fun j => ofLE ((data.drop (4 * j)).take 4)
def hCands (hdr : List Nat) (data : List Byte) : List (List Cand) :=
  msgCands (hShard hdr) (hdr.getD 2 0) (hDrafts hdr + 1) (data.drop (16 * ceilDiv (hDrafts hdr) 4))

/-- R353: a message whose header and length are in order. -/
structure ContribForm (hdr : List Nat) (data : List Byte) : Prop where
  reserved : bits (hdr.getD 0 0) 63 45 = 0
  cls : hClass hdr ≤ 1
  drafts : hDrafts hdr ≤ 16
  pos : hdr.getD 1 0 < 2 ^ 32
  some : 0 < hdr.getD 2 0
  most : hdr.getD 2 0 ≤ 256
  zero : hdr.getD 3 0 = 0
  shard : hShard hdr < hShards hdr
  length : data.length = 16 * ceilDiv (hDrafts hdr) 4 + 8 * hdr.getD 2 0 * (hDrafts hdr + 1)
  size : 32 + data.length ≤ 16384
  distinct : (hCands hdr data).any twice = false

theorem bits_low {v w : Nat} (h : v < 2 ^ (w + 1)) : bits v w 0 = v := by simp [bits, Nat.mod_eq_of_lt h]
theorem bits_above {v hi lo : Nat} (h : v < 2 ^ lo) : bits v hi lo = 0 := by simp [bits, Nat.div_eq_of_lt h]

section
variable (h : ContribForm hdr data)
include h

theorem ContribForm.posBits : bits (hdr.getD 1 0) 31 0 = hdr.getD 1 0 := bits_low h.pos

theorem ContribForm.countBits : bits (hdr.getD 2 0) 8 0 = hdr.getD 2 0 := bits_low (by have := h.most; omega)

theorem ContribForm.good : (bits (hdr.getD 0 0) 63 45 != 0 || decide (1 < hClass hdr) || decide (16 < hDrafts hdr) || bits (hdr.getD 1 0) 63 32 != 0
    || bits (hdr.getD 2 0) 63 9 != 0 || hdr.getD 3 0 != 0 || hdr.getD 2 0 == 0 || decide (256 < hdr.getD 2 0) || decide (hShards hdr ≤ hShard hdr)
    || data.length != 16 * ceilDiv (hDrafts hdr) 4 + 8 * hdr.getD 2 0 * (hDrafts hdr + 1) || decide (16384 < 32 + data.length)
    || (hCands hdr data).any twice) = false := by
  obtain ⟨hres, hcls, hnd, hpos, hsome, hmost, hzero, hshard, hlen, hsize, htwice⟩ := h
  have hcount : hdr.getD 2 0 < 2 ^ 9 := by omega
  rw [hres, bits_above hpos, bits_above hcount, hzero, ← hlen, htwice]
  simp only [bne_self_eq_false, Bool.or_false, Bool.false_or, Bool.or_eq_false_iff, decide_eq_false_iff_not, beq_eq_false_iff_ne]
  omega

end

/-! ### A slot opened (R354, R355) -/

/-- What a message must meet to open a slot of context `i`, which runs, holds none, and takes full rings. -/
structure OpensSlot (s : State) (n i : Nat) (hdr : List Nat) (data : List Byte) : Prop where
  form : ContribForm hdr data
  here : reqLocal s (bits (hdr.getD 0 0) 23 0) = true
  idx : reqIdx s n (bits (hdr.getD 0 0) 23 0) = some i
  unfenced : fenceCpl s .apex n = none
  fresh : (apxReq s i).slot = none
  overruns : iFull (apxReq s i).img = true
  slots : slotsUsed s (fun _ => true) < 1024
  quota : slotsUsed s (· == n) < (apxPart s n).slotQuota
  entries : hdr.getD 2 0 * (hDrafts hdr + 1) ≤ 4096
  running : (apxReq s i).st = .running
  notAhead : hdr.getD 1 0 ≤ (apxReq s i).ringPos
  notBehind : (apxReq s i).ringPos ≤ hdr.getD 1 0 + 64

/-- The slot that a message opens in a context. -/
def openSlot (hdr : List Nat) (data : List Byte) (x : ApxReq) (s : State) : ApxSlot :=
  { pos := hdr.getD 1 0, nshard := hShards hdr, drafts := hTokens hdr data, cls := hClass hdr, opened := s.ft, img := x.img,
    shards := [hShard hdr], poison := bitOf (hdr.getD 0 0) 44, cands := hCands hdr data }

/-- The context with its slot opened, and the drafts counted. -/
def slotOpened (n i : Nat) (hdr : List Nat) (data : List Byte) (x : ApxReq) (s : State) : State :=
  setApxReq i { x with slot := some (openSlot hdr data x s) }
    (modAStat n (fun y => { y with offered := satAdd 16 y.offered (hDrafts hdr) }) (setApxReq i x s))

theorem only_slotOpened : Only [.apx] s (slotOpened n i hdr data x s) :=
  (only_setApxReq i x s).trans ((only_modAStat n _ _).trans (only_setApxReq i _ _))

/-- The first candidates of a slot are those of the message. -/
theorem merge_first (shard k m : Nat) (d : List Byte) :
    ((List.replicate m []).zip (msgCands shard k m d)).map (fun p => p.1 ++ p.2) = msgCands shard k m d := by
  have hzip (l : List (List Cand)) : ((List.replicate l.length []).zip l).map (fun p => p.1 ++ p.2) = l := by
    induction l with
    | nil => rfl
    | cons y l ih => simp [List.replicate_succ, ih]
  simpa [msgCands] using hzip (msgCands shard k m d)

theorem sumOf_empties (m : Nat) : sumOf ((List.replicate m ([] : List Cand)).map List.length) = 0 := by
  induction m with
  | zero => rfl
  | succ m ih => exact ih

theorem exec_sampleContrib_opens {who : Requester} (hw : reqPart s who = some n) (h : OpensSlot s n i hdr data) :
    exec (.sampleContrib who hdr data) s = .next (reply who cOk (slotOpened n i hdr data (apxReq s i) s)) := by
  have hgood := h.form.good
  have hslots := Nat.not_le.2 (Nat.lt_of_le_of_lt (slotsUsed_setApxReq (i := i) (s := s) (fun _ => true) h.fresh) h.slots)
  have hquota : ¬ (apxPart (setApxReq i (apxReq s i) s) n).slotQuota ≤ slotsUsed (setApxReq i (apxReq s i) s) (· == n) :=
    Nat.not_le.2 (Nat.lt_of_le_of_lt (slotsUsed_setApxReq (i := i) (s := s) (· == n) h.fresh) h.quota)
  have hruns : ((apxReq s i).st != .running) = false := by simp [h.running]
  refine congrArg Host.Outcome.next ?_
  simp only [hw, Option.getD_some, h.here, h.idx, Bool.not_true, Bool.false_and, Bool.false_eq_true, if_false, h.form.posBits, h.form.countBits]
  refine (if_neg (ne_true_of_eq_false hgood)).trans ?_
  simp only [h.unfenced, h.fresh, h.overruns, Option.isNone_none, Bool.not_true, Bool.and_false, Bool.true_and, Bool.false_and, Bool.or_false,
    Bool.false_eq_true, if_false, if_true, decide_eq_true_eq, if_neg hslots, Option.getD_none]
  rw [if_neg hquota]
  simp only [slotEntries, sumOf_empties, Nat.zero_add, if_neg (Nat.not_lt.2 h.entries), hruns, Nat.not_lt.2 h.notAhead, Nat.not_lt.2 h.notBehind,
    bne_self_eq_false, List.contains_nil, decide_false, Bool.or_false, Bool.false_or, Bool.false_eq_true, if_false, List.append_nil, merge_first]
  rfl

end Sys2Proof.Machine
end

section
/-!
A sample served and delivered (R358, R360 to R368): its tokens go to Orbit as an APPEND, then to the ring and the result record.
-/
namespace Sys2Proof.Machine

variable {s v w : State} {i u : Nat} {x : ApxReq} {y : ApxSlot} {k : Cpl} {d : Drawn}

/-! ### The turn and the draw -/

/-- A turn moves the unit's arbiter. -/
theorem only_apxTurn (h : apxTurn s u = some (i, x, v)) : Only [.eng] s v := by
  unfold apxTurn at h
  extract_lets a go at h
  have hgo (m n : Nat) (b : Arb) (p : Option (Nat × Nat × Nat)) (e : go m n b p = some (i, x, v)) : Only [.eng] s v := by
    obtain ⟨e', -, he⟩ := Option.map_eq_some_iff.1 e
    cases he
    exact only_setArb _ _ s
  clear_value go
  split at h
  · exact hgo _ _ _ _ h
  · split at h
    · exact hgo _ _ _ _ h
    · split at h
      · exact hgo _ _ _ _ h
      · cases h

/-- The slot once its tokens are drawn at time `ft`. -/
def drawnSlot (y : ApxSlot) (d : Drawn) (ft : Nat) : ApxSlot :=
  { y with served := true, toks := d.toks, noCand := d.noCand, endWhy := d.endWhy, accepted := d.accepted, firstTry := some ft }

/-- R357, R368, R437: what unit `u` notes of the sample it serves: its wait, its cost, and a position without a candidate. -/
def sampleNoted (u : Nat) (x : ApxReq) (y : ApxSlot) (d : Drawn) (s : State) : State :=
  let depth := ((apxWaiting s u 0 ++ apxWaiting s u 1).filter fun e => e.2.part == x.part).length
  let s := monSample (0xD * 4096 + u) x.part (s.ft - y.opened) depth (384 + u) s
  let s := debit x.part (preCost s 0xD 0 [(8, slotEntries y)]) s
  if d.noCand then modAStat x.part (fun z => { z with noCand := sat 16 z.noCand }) s else s

theorem only_sampleNoted : Only [.arc, .cmp, .out, .apx] s (sampleNoted u x y d s) := by
  have hnoted {m l n q c : Nat} : Only [.arc, .cmp, .out, .apx] s (debit x.part c (monSample m x.part l n q s)) :=
    ((only_monSample _ _ _ _ _ s).mono (by decide)).trans (only_debit.mono (by decide))
  exact .ite (hnoted.trans ((only_modAStat _ _ _).mono (by decide))) hnoted

theorem exec_sampleServe_draws (hf : fenced s .apex = false) (ht : apxTurn s u = some (i, x, v)) (hy : x.slot = some y)
    (hp : y.poison = false) (htw : y.cands.any twice = false)
    (hd : drawAll y.img y.pos (x.hist.drop (x.ringPos - y.pos)) y.cands y.drafts {} = d) (hne : d.toks ≠ []) :
    exec (.sampleServe u) s = .next (apxAppend i
      (setApxReq i { x with slot := some (drawnSlot y d (sampleNoted u x y d v).ft) } (sampleNoted u x y d v))) := by
  have hclean : ¬ y.poison = true := by simp [hp]
  have hsome : d.toks.isEmpty = false := by simpa using hne
  refine congrArg Host.Outcome.next ?_
  rw [hf]
  simp only [ht, hy, if_neg hclean, htw, hd, hsome, Bool.false_eq_true, if_false]
  rfl

/-! ### The APPEND (R362) -/

theorem apxAppend_asks (hy : (apxReq s i).slot = some y) : Only submitParts s (apxAppend i s) ∧
    ((∃ c ∈ queueOf (apxAppend i s) .orbit (apxReq s i).part, c.req = .block 0xD i) ∨ ∃ k, (0xD, i, k) ∈ (apxAppend i s).eng.done) := by
  have hsub {c : QCmd} {r : State × Option Cpl} (hc : c.req = .block 0xD i) (e : orbSubmit (apxReq s i).part c s = r) :
      Submitted submitParts .orbit (apxReq s i).part c s r := e ▸ orbSubmit_submitted hc
  unfold apxAppend
  simp only [hy]
  split
  · next e =>
    have hin := hsub rfl e
    exact ⟨hin.frame, .inl (hin.queued rfl)⟩
  · next t k e =>
    have hkept : Only [.eng] t { t with eng := { t.eng with done := t.eng.done ++ [(0xD, i, k)] } } :=
      .of fun p => by cases p <;> simp [SamePart]
    exact ⟨(hsub rfl e).frame.trans (hkept.mono (by decide)), .inr ⟨k, by simp⟩⟩

/-! ### The ring (R364 to R367) -/

/-- A context but for the account of its ring. -/
def stream (x : ApxReq) : ApxReq := { x with produced := 0, consumed := 0, overrun := 0, ringEnd := 0, pendEnd := none }

theorem lookRing_stream (n : Nat) (x : ApxReq) (s : State) : stream (lookRing n x s).2 = stream x := by
  unfold lookRing
  split
  · rfl
  · dsimp only
    split <;> rfl

theorem putEntries_stream (es : List (Nat → List Byte)) (x : ApxReq) (s : State) : stream (putEntries x es s).2.2 = stream x := by
  induction es generalizing x s with
  | nil => rfl
  | cons e es ih => exact ih _ _

theorem stream_ended (x : ApxReq) (a : Nat) (b : Option (Nat × Nat)) : stream { x with ringEnd := a, pendEnd := b } = stream x := rfl
theorem stream_overrun (x : ApxReq) (a : Nat) : stream { x with overrun := a } = stream x := rfl
theorem stream_waits (x : ApxReq) (b : Option (Nat × Nat)) : stream { x with pendEnd := b } = stream x := rfl

theorem putEnd_stream (why pos : Nat) (x : ApxReq) (s : State) : stream (putEnd why pos x s).2.2 = stream x := by
  unfold putEnd
  dsimp only
  split
  · simp only [stream_ended, putEntries_stream, lookRing_stream]
  · simp only [stream_waits, lookRing_stream]

/-- The context when a sample is delivered: its slot free, its position after the sample's tokens, those not yet seen counted. -/
structure Delivered (x : ApxReq) (y : ApxSlot) (z : ApxReq) : Prop where
  slot : z.slot = none
  ringPos : z.ringPos = max x.ringPos (y.pos + y.toks.length)
  st : z.st = if y.endWhy = 0 then x.st else .ended
  emitted : z.emitted = x.emitted + ((y.toks.zipIdx).filter fun p => decide (x.ringPos ≤ y.pos + p.2)).length

/-- The tokens of a sample that the context has not yet seen, with their places in it. -/
def unseen (x : ApxReq) (y : ApxSlot) : List (Nat × Nat) := (y.toks.zipIdx).filter fun p => decide (x.ringPos ≤ y.pos + p.2)

/-- The context `z`, as the ring left it, with the sample's progress. -/
def advanced (x : ApxReq) (y : ApxSlot) (z : ApxReq) : ApxReq :=
  { z with
    slot := none, st := if y.endWhy = 0 then z.st else .ended, ringPos := max z.ringPos (y.pos + y.toks.length),
    emitted := z.emitted + (unseen x y).length, hist := (((unseen x y).map (·.1)).reverse ++ z.hist).take 160 }

theorem advanced_delivered {z : ApxReq} (h : stream z = stream x) : Delivered x y (advanced x y z) := by
  have hst : z.st = x.st := (congrArg ApxReq.st h :)
  have hpos : z.ringPos = x.ringPos := (congrArg ApxReq.ringPos h :)
  have hemitted : z.emitted = x.emitted := (congrArg ApxReq.emitted h :)
  exact ⟨rfl, by rw [advanced, hpos], by rw [advanced, hst], by rw [advanced, hemitted]; rfl⟩

theorem deliver_delivers (i : Nat) (x : ApxReq) (y : ApxSlot) (n : Nat) (s : State) : Delivered x y (apxReq (deliver i x y n s).1 i) := by
  unfold deliver
  dsimp only
  rw [apxReq_putResult, apxReq_setApxReq_same]
  refine advanced_delivered ?_
  split
  · simp only [stream_overrun, putEntries_stream, lookRing_stream]
  · simp only [putEnd_stream, stream_overrun, putEntries_stream, lookRing_stream]

/-- R362: the APPEND has completed OK: the sample is delivered. -/
theorem exec_sampleAppendComplete_delivers {e : Nat × Nat × Cpl} (hx : apxReq s i = x) (hy : x.slot = some y) (hs : y.served = true)
    (he : s.eng.done.find? (fun e => e.1 == 0xD && e.2.1 == i) = some e) (hk : e.2.2.status = .ok)
    (hd : deliver i x y (ofLE ((e.2.2.data.drop 8).take 4)) { s with eng := { s.eng with done := s.eng.done.erase e } } = (v, cOk)) :
    exec (.sampleAppendComplete i) s = .next v := by
  have hretry : ¬ e.2.2.status = .retry := by simp [hk]
  have hgood : ¬ (e.2.2.status != .ok) = true := by simp [hk]
  refine congrArg Host.Outcome.next ?_
  simp only [hx, hy, he, hs, Bool.not_true, Bool.false_eq_true, if_false, if_neg hretry, if_neg hgood, hd]
  rfl

end Sys2Proof.Machine
end

section
/-!
What Apex's commands, contributions and samples do to a context (O49). A completion's value is the handle that the command names or
makes (entry 109), and an event before its time changes nothing (entry 17).
-/
namespace Sys2Proof.Machine

/-- Settles O49: each command's and event's end state, then its context, completion and frame from the rules on these. -/
theorem sampling : Obligations.Sampling := by
  unfold Obligations.Sampling
  refine ⟨?opens, ?sets, ?closesEnded, ?closesRunning, ?describes, ?contributes, ?timesOut, ?early, ?serves, ?delivers, ?ends⟩
  case opens =>
    intro s u v q c i p node tag a b o g ht hsess hwords hring hrec hseg hcoh hroom hi hw hreq hissuer
    have hopened := only_apxOpened (c := c) (x := openedReq c i u) (i := i)
      (r := { u.apx.pools.get c.part with next := (u.apx.pools.get c.part).next + 1 }) (s := v)
    obtain ⟨htold, honly, hapx⟩ := apxFinish_tells (h := reqHandle u i (openedReq c i u)) (k := cOk) hreq hissuer hopened
    exact ⟨_, exec_apxOpen_opens ht ⟨hsess, hwords, hring, hrec, hseg, hcoh, hroom, hi⟩ hw,
      (apxReq_of_apx hapx i).trans apxReq_apxOpened, honly .mem (by decide), htold, honly⟩
  case sets =>
    intro s u q c i p node tag ht hhere hidx hreq hissuer
    obtain ⟨htold, honly, hapx⟩ := apxFinish_tells (h := bits (c.w 1) 23 0) (k := cOk) hreq hissuer
      (only_setApxReq i { apxReq u i with img := setFields (apxReq u i).img c.words } u)
    exact ⟨_, exec_apxSet_sets ⟨ht, hhere, hidx⟩, (apxReq_of_apx hapx i).trans (apxReq_setApxReq_same ..), htold, honly⟩
  case closesEnded =>
    intro s u q c i p node tag ht hhere hidx hst hend hclosing hreq hissuer
    obtain ⟨htold, honly, hapx⟩ := apxFinish_tells (h := bits (c.w 1) 23 0) (k := cOk) hreq hissuer (only_freeReq (i := i) (s := u))
    exact ⟨_, exec_apxClose_ended ⟨ht, hhere, hidx⟩ hst hend hclosing, (apxReq_of_apx hapx i).trans apxReq_freeReq, htold, honly⟩
  case closesRunning =>
    intro s u v q c i y p node tag ht hhere hidx hst hclosing hput hend hv hreq hissuer
    obtain ⟨htold, honly, hapx⟩ := apxFinish_tells (h := bits (c.w 1) 23 0) (k := cOk) hreq hissuer (only_freeReq (i := i) (s := v))
    refine ⟨_, exec_apxClose_running ⟨ht, hhere, hidx⟩ hst hclosing hput hend, ?_, honly .mem (by decide), htold, honly⟩
    rw [apxReq_of_apx hapx, apxReq_freeReq, apxReq_of_apx hv]
  case describes =>
    intro s u v q c i p node tag ht hhere hidx hw hreq hissuer
    refine ⟨_, exec_apxDescribe_writes ⟨ht, hhere, hidx⟩ hw, ?_⟩
    rw [apxFinish, finishCmd_ofPort hreq hissuer rfl]
    exact ⟨rfl, rfl, only_emit _ v⟩
  case contributes =>
    intro s p node tag n i h shard nshard nd cls pos kk hdr data hpart hh hhere hidx hshard hnshard hnd hcls hres hcls1 hnd16 hpos hpos32 hkk
      hk0 hk256 hzero hlt hlen hsize htwice hunfenced hfresh hfull hslots hquota hentries hrun hahead hbehind
    subst hh hshard hnshard hnd hcls hpos hkk
    obtain ⟨htold, honly⟩ := told_after (who := .port p node tag) (c := cOk)
      (only_slotOpened (n := n) (i := i) (hdr := hdr) (data := data) (x := apxReq s i) (s := s)) (by decide)
    exact ⟨_, exec_sampleContrib_opens hpart ⟨⟨hres, hcls1, hnd16, hpos32, hk0, hk256, hzero, hlt, hlen, hsize, htwice⟩, hhere, hidx, hunfenced,
      hfresh, hfull, hslots, hquota, hentries, hrun, hahead, hbehind⟩, apxReq_setApxReq_same .., htold, honly⟩
  case timesOut =>
    intro s u v k i y hy hfull hdue hobj hu hw hv
    subst hu
    have hreq : apxReq (resultCounted (apxReq s i).part 0 0 v) i = { apxReq s i with slot := none } := by
      rw [resultCounted, apxReq_modAStat, apxReq_of_apx hv]
      exact apxReq_slotTimedOut
    exact ⟨_, exec_sampleTimeout_ends hy hfull hdue hobj hw, hreq, rfl, only_modAStat _ _ v⟩
  case early =>
    intro s i y hy hdue
    exact ⟨s, exec_sampleTimeout_early hy hdue, rfl⟩
  case serves =>
    intro s v u i x y d hf ht hy hp htw hd hne
    have hnoted : Only ([.eng] ++ [.arc, .cmp, .out, .apx]) s (sampleNoted u x y d v) := (only_apxTurn ht).seq only_sampleNoted
    have hft : (sampleNoted u x y d v).ft = s.ft := hnoted .ft (by decide)
    have hexec := exec_sampleServe_draws hf ht hy hp htw hd hne
    rw [hft] at hexec
    have hslot : apxReq (setApxReq i { x with slot := some (drawnSlot y d s.ft) } (sampleNoted u x y d v)) i =
        { x with slot := some (drawnSlot y d s.ft) } := apxReq_setApxReq_same ..
    obtain ⟨hsent, hqueued⟩ := apxAppend_asks (congrArg ApxReq.slot hslot)
    rw [hslot] at hqueued
    have hframe := hnoted.seq ((only_setApxReq i { x with slot := some (drawnSlot y d s.ft) } _).seq hsent)
    exact ⟨_, hexec, (apxReq_of_apx (hsent .apx (by decide)) i).trans hslot, hqueued, hframe .mem (by decide), hframe .loc (by decide),
      hframe .mer (by decide), hframe .pln (by decide)⟩
  case delivers =>
    intro s v i x y d hx hy hs he hk hd
    have hdone := deliver_delivers i x y (ofLE ((d.2.2.data.drop 8).take 4)) { s with eng := { s.eng with done := s.eng.done.erase d } }
    rw [hd] at hdone
    exact ⟨v, exec_sampleAppendComplete_delivers hx hy hs he hk hd, rfl, hdone.slot, hdone.ringPos, hdone.st, hdone.emitted⟩
  case ends =>
    intro s v i k y why pos hp hput hk hclosing
    exact ⟨_, exec_ringEndWrite_writes hp hput hk hclosing, apxReq_setApxReq_same .., rfl, only_setApxReq i y v⟩

end Sys2Proof.Machine
end

section
/-!
Centroid's contexts, the completions of its commands, and what its reads leave (R382, R384, R392).
-/
namespace Sys2Proof.Machine

variable {s t u v : State} {op e i n p node tag : Nat} {c : QCmd} {k : Cpl} {x : Idx} {α β : Type}

/-! ### Contexts -/

@[simp] theorem idxOf_setIdx_same (i : Nat) (x : Idx) (s : State) : idxOf (setIdx i x s) i = x := Tab.get_set_same ..
@[simp] theorem idxOf_modCStat (n : Nat) (f : CenStat → CenStat) (s : State) (i : Nat) : idxOf (modCStat n f s) i = idxOf s i := rfl

theorem idxOf_of_cen (h : t.cen = s.cen) (i : Nat) : idxOf t i = idxOf s i := by rw [idxOf, h, idxOf]

theorem only_modCen (f : Centroid → Centroid) (s : State) : Only [.cen] s (modCen f s) :=
  .of fun p => by cases p <;> simp [SamePart]

theorem only_setIdx (i : Nat) (x : Idx) (s : State) : Only [.cen] s (setIdx i x s) := only_modCen _ s
theorem only_modCStat (n : Nat) (f : CenStat → CenStat) (s : State) : Only [.cen] s (modCStat n f s) := only_modCen _ s

/-- A counter's change is one of Centroid's state. -/
theorem cen_modCStat_of_cen {f : CenStat → CenStat} (h : t.cen = s.cen) : (modCStat n f t).cen = (modCStat n f s).cen := by
  rw [modCStat, modCen_cen, h]
  rfl

/-- R393: a freed context holds nothing but the next GEN of its index. -/
theorem idxOf_freeIdx : idxOf (freeIdx i s) i = { gen := ((idxOf s i).gen + 1) % 256 } :=
  idxOf_setIdx_same i { gen := ((idxOf s i).gen + 1) % 256 } s

theorem only_freeIdx : Only [.cen] s (freeIdx i s) := (only_setIdx i _ s).trans (only_modCen _ _)

/-- R384: right after its opening nothing has been written from outside. -/
theorem idxSpoiled_new (h : (idxOf s i).since = writesNow s) : idxSpoiled s i = false := by
  have hnone : s.fld.wlog.drop (idxOf s i).since = [] := by rw [h, writesNow, List.drop_length]
  simp [idxSpoiled, hnone]

/-! ### Completions (R384, R392) -/

/-- A command of a port, which names no completion object and which no program issued. -/
structure IndexCommand (c : QCmd) (p node tag : Nat) : Prop where
  obj : nObj c = none
  req : c.req = .port p node tag
  issuer : c.issuer = none

/-- The command `c` on index `i` is completed in `t` with `k`, as the index stands in `u`, which differs from `v` in Centroid's state. -/
structure IndexTold (c : QCmd) (i : Nat) (k : Cpl) (who : Requester) (v u t : State) : Prop where
  cen : t.cen = u.cen
  state : { v with cen := t.cen } = u
  told : Told v t who (cenTold u i c (idxHandle v i (idxOf u i)) (idxOf u i).seq k)
  frame : Only [.cen, .out, .fresh] v t
  fresh : idxSpoiled u i = false → t.fresh = v.fresh

section
variable {who : Requester} (h : IndexTold c i k who v u t)
include h

theorem IndexTold.idx : idxOf t i = idxOf u i := idxOf_of_cen h.cen i

theorem IndexTold.mem : t.mem = v.mem := h.frame .mem (by decide)

theorem IndexTold.toldAs {y : Idx} {q : Nat} (hg : (idxOf u i).gen = y.gen) (hq : (idxOf u i).seq = q) :
    Told v t who (cenTold { v with cen := t.cen } i c (idxHandle v i y) q k) := by
  have hhandle : idxHandle v i y = idxHandle v i (idxOf u i) := by rw [idxHandle, idxHandle, hg]
  rw [h.state, hhandle, ← hq]
  exact h.told

theorem IndexTold.unspoiled : idxSpoiled { v with cen := t.cen } i = false → t.fresh = v.fresh := by
  rw [h.state]
  exact h.fresh

end

theorem cenFinish_index (h : IndexCommand c p node tag) (hk : k.reason = none) : cenFinish c (some i) k s =
    emit (.cpl (.port p node tag) (cenTold s i c (idxHandle s i (idxOf s i)) (idxOf s i).seq k))
      (if idxSpoiled s i then useFresh (useFresh s) else s) := by
  rw [← finishCmd_ofPort h.req h.issuer h.obj]
  simp [cenFinish, hk]

/-- R384, R392: a command that changed Centroid's state from `v` to `u` is completed. -/
theorem cenFinish_tells (h : IndexCommand c p node tag) (hk : k.reason = none) (hu : u = { v with cen := u.cen }) :
    IndexTold c i k (.port p node tag) v u (cenFinish c (some i) k u) := by
  have honly : Only [.cen] v u := hu ▸ only_modCen (fun _ => u.cen) v
  have hhandle : idxHandle u i (idxOf u i) = idxHandle v i (idxOf u i) := by
    have hcmp : u.cmp = v.cmp := honly .cmp (by decide)
    rw [idxHandle, idxHandle, hcmp]
  have hfree : Only [.cen, .fresh] v (if idxSpoiled u i then useFresh (useFresh u) else u) :=
    .ite (honly.seq ((only_useFresh u).trans (only_useFresh _))) (honly.mono (by decide))
  have hcen : (if idxSpoiled u i then useFresh (useFresh u) else u).cen = u.cen := by split <;> rfl
  obtain ⟨htold, hframe⟩ := told_after (who := .port p node tag) (c := cenTold u i c (idxHandle v i (idxOf u i)) (idxOf u i).seq k)
    hfree (by decide)
  rw [cenFinish_index h hk, hhandle]
  refine ⟨hcen, ?_, htold, hframe.mono (by decide), fun hs => ?_⟩
  · rw [emit_cen, hcen]
    exact hu.symm
  · rw [emit_fresh, hs]
    exact honly .fresh (by decide)

/-- R392: a completion with SEQ, for an index that nobody else has written. -/
theorem cenFinish_clean (h : IndexCommand c p node tag) (hk : k.reason = none) (hs : idxSpoiled s i = false) :
    cenFinish c (some i) k s = emit (.cpl (.port p node tag) (cenCpl c (idxHandle s i (idxOf s i)) (idxOf s i).seq k)) s := by
  simp [cenFinish_index h hk, cenTold, hs]

/-- R14, R411: a command that finds no context is refused and counted. -/
theorem cenFinish_capacity (h : IndexCommand c p node tag) : cenFinish c none (cRef .capacity) s =
    emit (.cpl (.port p node tag) (cenCpl c (nHandle c) 0 (cRef .capacity))) (modCStat c.part (fun y => { y with capacity := sat 16 y.capacity }) s) :=
  finishCmd_ofPort h.req h.issuer h.obj ..

theorem cenDone_ok {r : State × Cpl} {o : Option Nat} (h : r.2.status = .ok) : cenDone e s c o r = cenFinish c o r.2 r.1 := by
  simp [cenDone, h]

/-! ### A command taken -/

/-- The head of engine `e`'s queue is of operation `op` and names the open index `i` of this switch. -/
structure IndexTaken (op e : Nat) (s u : State) (c : QCmd) (i : Nat) : Prop where
  take : cenTake op e s = some (c, u)
  here : bitOf (nHandle c) 11 = u.cmp.roleB
  idx : idxNum u c.part (nHandle c) = some i

theorem withIdx_taken {f : Nat → QCmd → State → State} (h : IndexTaken op e s u c i) : withIdx op e s f = f i c u := by
  simp [withIdx, h.take, h.here, h.idx]

/-! ### Accesses in sequence -/

@[simp] theorem okThen_ok (z : β) (s : State) (a : α) (f : State → α → State × Cpl × β) : okThen z (s, cOk, a) f = f s a := rfl

theorem only_okThen {l : List Part} {z : β} {r : State × Cpl × α} {f : State → α → State × Cpl × β} (hr : Only l s r.1)
    (hf : ∀ t a, Only l t (f t a).1) : Only l s (okThen z r f).1 := by
  unfold okThen
  split
  · exact hr.trans (hf _ _)
  · exact hr

theorem only_cenRead {x : CenCtx} {va len : Nat} : Only readParts s (cenRead x va len s).1 := by
  unfold cenRead
  split
  · exact .refl _ s
  · exact only_engineReadAs

theorem only_probe {x : CenCtx} {w : List Nat} {id fuel slot : Nat} {free : Option Nat} :
    Only readParts s (probe x w id fuel slot free s).1 := by
  induction fuel generalizing s slot free with
  | zero => exact .refl _ s
  | succ fuel ih =>
    refine only_okThen only_cenRead fun t d => ?_
    dsimp only
    split
    · exact .refl _ t
    · split
      · exact .refl _ t
      · exact ih

theorem only_findMark {x : CenCtx} {w : List Nat} {id : Nat} : Only readParts s (findMark x w id s).1 := only_probe

end Sys2Proof.Machine
end

section
/-!
Indexes opened and closed (R384, R393).
-/
namespace Sys2Proof.Machine

variable {s a b t u v z : State} {e i addr gen : Nat} {c : QCmd} {w : List Nat} {d tb : List Byte} {old : Tab (Nat × Nat)} {x : CenCtx}

/-! ### OPEN_INDEX -/

/-- The words of a descriptor. -/
abbrev descWords (d : List Byte) : List Nat := (List.range 16).map fun j => ofLE ((d.drop (8 * j)).take 8)

/-- The descriptor at `addr` can be read, its encodings are good, and its ranges may be used. -/
structure IndexGood (x : CenCtx) (addr : Nat) (s a : State) (d : List Byte) (w : List Nat) : Prop where
  range : rangeCheck s x.part x.asid addr 128 true = none
  read : cenRead x addr 128 s = (a, cOk, d)
  words : w = descWords d
  good : idxBad w = false
  cent : rangeCheck a x.part x.asid (xCent w) (xNlist w * xD w) false = none
  dir : rangeCheck a x.part x.asid (xDir w) (32 * xNlist w) true = none
  side : rangeCheck a x.part x.asid (xSide w) (xSideCap w * recBytes w) true = none
  del : rangeCheck a x.part x.asid (xDel w) (16 * xSlots w) true = none

/-- The deletion table in order: the marks after SEQ are gone. -/
def orderedTable (w : List Nat) (old : Tab (Nat × Nat)) : Tab (Nat × Nat) := compactTable w (fun q => decide (w.getD 8 0 < q)) old

/-- The context that an OPEN_INDEX makes of the descriptor's words. -/
def openedIdx (part addr gen : Nat) (w : List Nat) (old : Tab (Nat × Nat)) : Idx :=
  { isOpen := true, gen := gen, part := part, desc := addr, words := w.take 6, seq := w.getD 8 0, floor := w.getD 9 0,
    head := bits (w.getD 10 0) 31 0, tail := bits (w.getD 10 0) 63 32, mgen := bits (w.getD 11 0) 31 0,
    dels := (orderedTable w old).length, side := bits (w.getD 10 0) 31 0 }

/-- The context from which on others' writes count (R384). -/
def openedNow (y : Idx) (s : State) : Idx := { y with since := writesNow s }

/-- R14, R393: without a free context the descriptor is read, and the command refused (entry 155). -/
theorem openIdx_full (h : IndexGood x addr s a d w) : openIdx x none addr gen s = (a, cRef .capacity) := by
  have hw := h.words.symm
  unfold openIdx
  simp only [h.range, h.read, okThen_ok, hw, h.good, List.findSome?_cons, List.findSome?_nil, h.cent, h.dir, h.side, h.del, Bool.false_eq_true,
    if_false]

/-- R393: the deletion table is put in order, the live words are written, and the context stands. -/
theorem openIdx_opens (h : IndexGood x addr s a d w) (hends : bits (w.getD 10 0) 31 0 ≤ bits (w.getD 10 0) 63 32)
    (htable : cenRead x (xDel w) (16 * xSlots w) a = (b, cOk, tb)) (hold : tableOf w tb = old)
    (hordered : writeTable x w old (orderedTable w old) b = (z, cOk)) (hlive : writeLive x (openedIdx x.part addr gen w old) z = (v, cOk)) :
    openIdx x (some i) addr gen s = (setIdx i (openedNow (openedIdx x.part addr gen w old) v) v, cOk) := by
  have hw := h.words.symm
  have htail : bits (w.getD 10 0) 63 32 + (if bits (w.getD 10 0) 63 32 < bits (w.getD 10 0) 31 0 then 2 ^ 32 else 0) =
      bits (w.getD 10 0) 63 32 := by rw [if_neg (Nat.not_lt.2 hends), Nat.add_zero]
  unfold openedIdx orderedTable at hlive ⊢
  unfold orderedTable at hordered
  unfold openIdx
  simp only [h.range, h.read, okThen_ok, hw, h.good, List.findSome?_cons, List.findSome?_nil, h.cent, h.dir, h.side, h.del, Bool.false_eq_true,
    if_false, htable, hold, hordered, htail, hlive]
  rfl

/-- The context stands, and the partition's numbers are `r`. -/
def indexOpened (part i : Nat) (y : Idx) (r : NumPool) (s : State) : State :=
  modCen (fun c => { c with pools := c.pools.set part r }) (setIdx i y s)

/-- The opening is told with the new context's handle and SEQ, for nobody else has written the index since. -/
theorem indexOpened_tells {part p node tag : Nat} {y : Idx} {r : NumPool} (h : IndexCommand c p node tag) (hu : u = indexOpened part i (openedNow y v) r v)
    (ht : t = cenFinish c (some i) cOk u) : idxOf t i = openedNow y v ∧ t.cen.pools.get part = r ∧
      Told v t (.port p node tag) (cenCpl c (idxHandle v i (idxOf t i)) y.seq cOk) ∧ Only [.cen, .out] v t := by
  have hidx : idxOf u i = openedNow y v := hu ▸ idxOf_setIdx_same i (openedNow y v) v
  have hclean : idxSpoiled u i = false := idxSpoiled_new (by rw [hidx, hu]; rfl)
  have hchange : Only [.cen] v u := hu ▸ (only_setIdx i _ v).trans (only_modCen _ _)
  have hhandle : idxHandle u i (idxOf u i) = idxHandle v i (idxOf u i) := by rw [hu]; rfl
  have hend : t = emit (.cpl (.port p node tag) (cenCpl c (idxHandle v i (idxOf u i)) y.seq cOk)) u := by
    rw [ht, cenFinish_clean h rfl hclean, hhandle, hidx]
    rfl
  have htidx : idxOf t i = idxOf u i := by rw [hend]; rfl
  obtain ⟨htold, hframe⟩ := told_after (who := .port p node tag) (c := cenCpl c (idxHandle v i (idxOf u i)) y.seq cOk) hchange (by decide)
  rw [← hend] at htold hframe
  have hpool : t.cen.pools.get part = r := by
    rw [hend, emit_cen, hu]
    exact Tab.get_set_same ..
  exact ⟨htidx.trans hidx, hpool, htidx ▸ htold, hframe⟩

/-- The partition's next number that was never used is `i`. -/
structure NextIndex (u : State) (part i : Nat) : Prop where
  room : (u.cen.pools.get part).next < (cenPart u part).count
  index : i = (cenPart u part).base + (u.cen.pools.get part).next

theorem exec_openIndex_opens {y : Idx} (ht : cenTake 1 e s = some (c, u)) (hn : NextIndex u c.part i)
    (ho : openIdx (cenCtx u e c.part) (some i) (c.w 4) (idxOf u i).gen u = (setIdx i y v, cOk)) :
    exec (.openIndex e) s = .next (cenFinish c (some i) cOk
      (indexOpened c.part i y { u.cen.pools.get c.part with next := (u.cen.pools.get c.part).next + 1 } v)) := by
  refine congrArg Host.Outcome.next ?_
  simp only [ht, if_pos hn.room, Option.map_some, Option.getD_some, ← hn.index, ho]
  rfl

theorem exec_openIndex_full (ht : cenTake 1 e s = some (c, u)) (hn : (cenPart u c.part).count ≤ (u.cen.pools.get c.part).next)
    (hf : (u.cen.pools.get c.part).freed = []) (h : IndexGood (cenCtx u e c.part) (c.w 4) u a d w) :
    exec (.openIndex e) s = .next (cenFinish c none (cRef .capacity) a) := by
  refine congrArg Host.Outcome.next ?_
  simp only [ht, if_neg (Nat.not_lt.2 hn), hf, Option.map_none, openIdx_full h]
  rfl

/-! ### CLOSE_INDEX -/

/-- R393: with no merge and no search active the live words are written, and the context is freed. -/
theorem exec_closeIndex_frees (h : IndexTaken 2 e s u c i) (hr : closeReady e s = none) (hm : (idxOf u i).merge = none) (hs : searchesOn u i = 0)
    (hw : writeLive (cenCtx u e c.part) (idxOf u i) u = (v, cOk)) :
    exec (.closeIndex e) s = .next (freeIdx i (cenFinish c (some i) cOk v)) := by
  refine congrArg Host.Outcome.next ?_
  simp only [hr, withIdx_taken h, hm, hs, Option.isSome_none, Bool.false_eq_true, if_false, if_true, closeNow, hw]
  rfl

/-- R393: a CLOSE_INDEX waits for the searches that are active. -/
theorem exec_closeIndex_waits (h : IndexTaken 2 e s u c i) (hr : closeReady e s = none) (hm : (idxOf u i).merge = none) (hs : searchesOn u i ≠ 0) :
    exec (.closeIndex e) s = .next (setIdx i { idxOf u i with closing := some { c with id := e } } u) := by
  refine congrArg Host.Outcome.next ?_
  simp only [hr, withIdx_taken h, hm, Option.isSome_none, Bool.false_eq_true, if_false, if_neg hs]

end Sys2Proof.Machine
end

section
/-!
Mutations of an index: APPEND, DELETE and MERGE (R387, R389, R393, R400 to R402).
-/
namespace Sys2Proof.Machine

variable {s a b f t u v z : State} {e i n : Nat} {c : QCmd} {x : CenCtx} {y : Idx} {j : MergeJob} {d cents : List Byte} {side : List VRec}
  {k : Cpl}

/-- R400: a mutation that names no number, or the next one, is applied. -/
theorem expectAns_none {expect : Nat} (h : expect = 0 ∨ y.seq + 1 = expect) : expectAns y expect n = none := if_pos h

/-! ### APPEND -/

/-- The index with `n` more records. -/
def appendedIdx (y : Idx) (n : Nat) : Idx := { y with seq := y.seq + n, tail := y.tail + n }

/-- R389: records with the numbers and the clusters that an APPEND gives them. -/
def placedRecs (y : Idx) (cents : List Byte) (rs : List VRec) : List VRec :=
  rs.zipIdx.map fun r => { r.1 with seq := y.seq + 1 + r.2, cluster := (clusterOrder y.words cents r.1.vec).headD 0 }

/-- The records that an APPEND reads are good, unmarked, and have room in the side list. -/
structure Appendable (x : CenCtx) (y : Idx) (c : QCmd) (rs : List VRec) (n : Nat) (a b : State) : Prop where
  expect : c.w 6 = 0 ∨ y.seq + 1 = c.w 6
  ids : rs.any (fun r => r.id == 2 ^ 64 - 1) = false
  unmarked : anyMarked x y.words rs a = (b, cOk, false)
  room : y.tail - y.side + n ≤ xSideCap y.words

/-- The index as a mutation leaves it, which is counted. -/
def indexMutated (part i : Nat) (y : Idx) (g : CenStat → CenStat) (s : State) : State := modCStat part g (setIdx i y s)

theorem idxOf_indexMutated {part : Nat} {g : CenStat → CenStat} : idxOf (indexMutated part i y g s) i = y := by
  rw [indexMutated, idxOf_modCStat, idxOf_setIdx_same]

theorem only_indexMutated {part : Nat} {g : CenStat → CenStat} : Only [.cen] s (indexMutated part i y g s) :=
  (only_setIdx i y s).trans (only_modCStat part g _)

theorem cenAppend_appends (hy : idxOf s i = y) (hn : n = bits (c.w 2) 12 0)
    (hread : cenRead x (c.w 4) (n * recBytes y.words) s = (a, cOk, d)) (h : Appendable x y c (recsOf (recBytes y.words) n d) n a b)
    (hcents : cenRead x (xCent y.words) (xNlist y.words * xD y.words) b = (v, cOk, cents))
    (hput : putSide x y.words (placedRecs y cents (recsOf (recBytes y.words) n d)) y.tail v = (f, cOk))
    (hlive : writeLive x (appendedIdx y n) f = (z, cOk)) :
    cenAppend x i c s = (indexMutated x.part i (appendedIdx y n) (fun r => { r with appends := satAdd 16 r.appends n }) z, cVal (y.seq + n)) := by
  have hroom : ¬ xSideCap y.words - (y.tail - y.side) < n := by have := h.room; omega
  unfold placedRecs at hput
  unfold appendedIdx at hlive
  unfold cenAppend
  simp only [hy, ← hn, expectAns_none h.expect, Option.any_none, Option.isSome_none, Bool.or_self, Bool.false_eq_true, if_false, hread, okThen_ok,
    h.ids, h.unmarked, if_neg hroom, hcents, hput, hlive]
  rfl

theorem exec_cenAppend_appends (h : IndexTaken 4 e s u c i) (hk : k.status = .ok) (ha : cenAppend (cenCtx u e c.part) i c u = (t, k)) :
    exec (.cenAppend e) s = .next (cenFinish c (some i) k t) := by
  refine congrArg Host.Outcome.next ?_
  rw [withIdx_taken h, ha, cenDone_ok hk]

/-! ### DELETE -/

/-- The index with one more mark. -/
def markedIdx (y : Idx) : Idx := { y with seq := y.seq + 1, dels := y.dels + 1 }

theorem cenDelete_marks {slot : Nat} (hy : idxOf s i = y) (hexpect : c.w 6 = 0 ∨ y.seq + 1 = c.w 6)
    (hfind : findMark x y.words (c.w 2) s = (a, cOk, none, some slot)) (hroom : 4 * (y.dels + 1) ≤ 3 * xSlots y.words)
    (hmark : cenWrite x (xDel y.words + 16 * slot) (toLE 8 (c.w 2) ++ toLE 8 (y.seq + 1)) false a = (b, cOk))
    (hlive : writeLive x (markedIdx y) b = (z, cOk)) :
    cenDelete x i c s = (indexMutated x.part i (markedIdx y) (fun r => { r with deletes := sat 16 r.deletes }) z, cVal (y.seq + 1)) := by
  unfold markedIdx at hlive
  unfold cenDelete
  simp only [hy, expectAns_none hexpect, Option.any_none, Option.isSome_none, Bool.false_eq_true, if_false, hfind, okThen_ok,
    if_neg (Nat.not_lt.2 hroom), hmark, hlive]
  rfl

theorem exec_cenDelete_marks (h : IndexTaken 5 e s u c i) (hk : k.status = .ok) (ha : cenDelete (cenCtx u e c.part) i c u = (t, k)) :
    exec (.cenDelete e) s = .next (cenFinish c (some i) k t) := by
  refine congrArg Host.Outcome.next ?_
  rw [withIdx_taken h, ha, cenDone_ok hk]

/-! ### MERGE -/

/-- R401: the merge that a MERGE of engine `e` begins on `y`: its last number, its floor and its own number. -/
def mergeOf (e : Nat) (c : QCmd) (y : Idx) : MergeJob :=
  { cmd := { c with id := e }, m := y.seq, f := max y.floor (min (if c.w 2 = 0 then y.seq else c.w 2) y.seq), n := y.mgen + 1 }

theorem exec_merge_begins (h : IndexTaken 6 e s u c i) (hm : (idxOf u i).merge = none) :
    exec (.merge e) s = .next (setIdx i { idxOf u i with merge := some (mergeOf e c (idxOf u i)) } u) := by
  refine congrArg Host.Outcome.next ?_
  simp only [withIdx_taken h, hm, Option.isSome_none, Bool.false_eq_true, if_false]
  rfl

/-- R401 step 3: the index with the merge `j` committed, `moved` records of the side list merged. -/
def committedIdx (y : Idx) (j : MergeJob) (moved : Nat) : Idx :=
  { y with mgen := j.n, floor := j.f, head := y.head + moved, merge := some { j with committed := true, firstTry := none } }

/-- The records of the side list that a merge takes up. -/
def movedRecs (j : MergeJob) (side : List VRec) : List VRec := side.filter fun r => decide (r.seq ≤ j.m)

theorem exec_mergeCommit_commits (hy : idxOf s i = y) (hm : y.merge = some j) (hj : j.committed = false) (hf : fenced s .centroid = false)
    (hs : s.cen.srchs = []) (hside : sideRecs (cenCtx s j.cmd.id y.part) y s = (a, cOk, side))
    (hall : mergeAll (cenCtx s j.cmd.id y.part) y j side (List.range (xNlist y.words)) a = (b, cOk))
    (hlive : writeLive (cenCtx s j.cmd.id y.part) (committedIdx y j (movedRecs j side).length) b = (v, cOk)) :
    exec (.mergeCommit i) s = .next
      (indexMutated y.part i (committedIdx y j (movedRecs j side).length) (fun r => { r with merges := sat 16 r.merges }) v) := by
  unfold committedIdx movedRecs at hlive ⊢
  refine congrArg Host.Outcome.next ?_
  simp only [hy, hm, hj, hf, hs, List.any_nil, Bool.or_self, Bool.false_eq_true, if_false, hside, show cOk.status = .ok from rfl, if_true, hall,
    hlive]
  rfl

theorem exec_mergeCommit_committed (hm : (idxOf s i).merge = some j) (hj : j.committed = true) : exec (.mergeCommit i) s = .next s := by
  refine congrArg Host.Outcome.next ?_
  simp only [hm, hj, Bool.true_or, if_true]

/-- R402: the deletion table without the marks at or below the merge's floor. -/
def mergedTable (w : List Nat) (j : MergeJob) (old : Tab (Nat × Nat)) : Tab (Nat × Nat) := compactTable w (fun q => decide (q ≤ j.f)) old

/-- The index at the end of a merge, with `marks` entries in its deletion table. -/
def mergedIdx (y : Idx) (marks : Nat) : Idx := { y with merge := none, side := y.head, dels := marks }

theorem exec_mergeMarkRemove_ends {old : Tab (Nat × Nat)} (hy : idxOf s i = y) (hm : y.merge = some j) (hj : j.committed = true)
    (hf : fenced s .centroid = false) (hs : s.cen.srchs = [])
    (hread : cenRead (cenCtx s j.cmd.id y.part) (xDel y.words) (16 * xSlots y.words) s = (a, cOk, d)) (hold : tableOf y.words d = old)
    (hwrite : writeTable (cenCtx s j.cmd.id y.part) y.words old (mergedTable y.words j old) a = (b, cOk))
    (hlive : writeLive (cenCtx s j.cmd.id y.part) (mergedIdx y (mergedTable y.words j old).length) b = (v, cOk)) :
    exec (.mergeMarkRemove i) s = .next
      (cenFinish j.cmd (some i) (cVal j.n) (setIdx i (mergedIdx y (mergedTable y.words j old).length) v)) := by
  unfold mergedIdx mergedTable at hlive ⊢
  unfold mergedTable at hwrite
  refine congrArg Host.Outcome.next ?_
  simp only [hy, hm, hj, hf, hs, List.any_nil, Bool.not_true, Bool.or_self, Bool.false_eq_true, if_false, hread, hold, hwrite, hlive]
  rfl

theorem exec_mergeMarkRemove_idle (hm : (idxOf s i).merge = none) : exec (.mergeMarkRemove i) s = .next s := by
  refine congrArg Host.Outcome.next ?_
  simp only [hm]

end Sys2Proof.Machine
end

section
/-!
Searches: admitted, waiting, and ended by a round (R381, R395 to R398, R404).
-/
namespace Sys2Proof.Machine

variable {s t u v w z : State} {e i id n p node tag : Nat} {c : QCmd} {k : Cpl} {x y : Srch}

/-! ### Admission -/

/-- The search `c` brings its queries, names a range for its results, and asks for a state of the index that it still has. -/
structure SearchAdmissible (u : State) (c : QCmd) (i asOf len : Nat) : Prop where
  snapshot : asOf = if c.w 2 = 0 then (idxOf u i).seq else c.w 2
  length : len = nNq c * (16 + xD (idxOf u i).words)
  inline : nInline c = true
  fits : len ≤ 65536
  words : c.words.length - 16 = ceilDiv len 8
  results : rangeCheck u c.part (cenPart u c.part).asid (c.w 5) (nNq c * (32 + 16 * nK c)) true = none
  notBelow : (idxOf u i).floor ≤ asOf
  notAbove : asOf ≤ (idxOf u i).seq

/-- R395: the search with its snapshot of the index. -/
def snapshotOf (u : State) (e : Nat) (c : QCmd) (i asOf len : Nat) : Srch :=
  { id := u.cen.nextId, e := e, cmd := c, idx := i, asOf := asOf, mgen := (idxOf u i).mgen, head := (idxOf u i).head, tail := (idxOf u i).tail,
    qs := queriesOf (idxOf u i).words (nNq c) (((c.words.drop 16).flatMap (toLE 8)).take len) }

/-- The search is active. -/
def searchAdded (x : Srch) (s : State) : State := modCen (fun y => { y with srchs := y.srchs ++ [x], nextId := y.nextId + 1 }) s

theorem admitSearch_admits {asOf len : Nat} (hi : idxNum u c.part (nHandle c) = some i) (h : SearchAdmissible u c i asOf len) :
    admitSearch e c u = some (searchAdded (snapshotOf u e c i asOf len) u) := by
  have hlen := h.length.symm
  have hsnap := h.snapshot.symm
  unfold admitSearch
  simp only [hi, hlen, hsnap, h.inline, h.words, h.results, Nat.not_lt.2 h.fits, Nat.not_lt.2 h.notBelow, Nat.not_lt.2 h.notAbove, bne_self_eq_false,
    decide_false, Bool.and_false, Bool.or_self, Bool.false_eq_true, if_false, if_true, Option.or_none]
  rfl

theorem exec_search_admits (h : IndexTaken 3 e s u c i) (hw : ∀ x ∈ s.cen.waiting, x.1 ≠ e) (hroom : searchRoom u e = true)
    (ha : admitSearch e c u = some t) : exec (.search e) s = .next t := by
  have hnone : s.cen.waiting.any (·.1 == e) = false := by simpa using hw
  refine congrArg Host.Outcome.next ?_
  simp only [hnone, withIdx_taken h, hroom, ha, Bool.false_and, Bool.false_eq_true, if_false, if_true]

/-- R381: a search that finds 8 active waits. -/
theorem exec_search_waits (h : IndexTaken 3 e s u c i) (hs : searchRoom s e = false) (hu : searchRoom u e = false) :
    exec (.search e) s = .next (modCen (fun x => { x with waiting := x.waiting ++ [(e, c)] }) u) := by
  refine congrArg Host.Outcome.next ?_
  simp only [withIdx_taken h, hs, hu, Bool.and_false, Bool.false_eq_true, if_false]

/-! ### What a round's reads leave -/

theorem only_visible {x : CenCtx} {w : List Nat} {asOf : Nat} {rs : List VRec} : Only readParts s (visible x w asOf rs s).1 := by
  induction rs generalizing s with
  | nil => exact .refl _ s
  | cons r rs ih =>
    rw [visible]
    split
    · exact ih
    · exact only_okThen only_findMark fun t m => only_okThen ih fun t' l => .refl _ t'

theorem only_scanList {x : CenCtx} {w : List Nat} {asOf base : Nat} : Only readParts s (scanList x w asOf base n s).1 := by
  have hread : Only readParts s (okThen [] (cenRead x base (n * recBytes w) s) fun s d => visible x w asOf (recsOf (recBytes w) n d) s).1 :=
    only_okThen only_cenRead fun t d => only_visible
  unfold scanList
  dsimp only
  split <;> exact hread

theorem only_scanCluster {a : CenCtx} {w : List Nat} : Only readParts s (scanCluster a x w n s).1 := by
  have hread : Only readParts s (cenRead a (xDir w + 32 * n) 32 s).1 := only_cenRead
  unfold scanCluster
  dsimp only
  split
  · exact hread
  · split
    · exact hread
    · exact hread.trans only_scanList

theorem only_scanAll {a : CenCtx} {w ks : List Nat} : Only readParts s (scanAll a x w ks s).1 := by
  induction ks generalizing s with
  | nil => exact .refl _ s
  | cons n ks ih =>
    have hlist : Only readParts s (scanCluster a x w n s).1 := only_scanCluster
    rw [scanAll]
    dsimp only
    split
    · exact hlist
    · exact hlist.trans (only_okThen ih fun t m => .refl _ t)

theorem only_scanSide {a : CenCtx} {w : List Nat} : Only readParts s (scanSide a x w s).1 := by
  refine .foldlFst (p := (s, cOk, [], false)) fun p i => ?_
  dsimp only
  split
  · exact .refl _ p.1
  · exact only_scanList

/-- A round reads, and leaves the queues and the arbiters. -/
theorem only_searchRound : Only readParts s (searchRound x s).1 := by
  unfold searchRound
  extract_lets w a
  split
  next t k cents e =>
  have hcents : Only readParts s t := only_cenRead.fst_eq e
  extract_lets badAll
  split
  · exact hcents
  · refine hcents.trans (only_okThen only_scanAll fun t ls => ?_)
    split
    next t' k side sbad e =>
    have hside : Only readParts t t' := only_scanSide.fst_eq e
    split <;> exact hside

/-! ### A search's end -/

/-- R404: the search has had its turn: what it was promised is used up. -/
def turnUsed (x : Srch) (s : State) : State :=
  setArb (arbKey .centroid x.e) { arbOf s (arbKey .centroid x.e) with
    promo := (arbOf s (arbKey .centroid x.e)).promo.filter fun r => !(r.1 == x.cmd.part && r.2.1 == x.cmd.cls.code) } s

/-- The round that made `y` of a search widened `n` queries. -/
def roundCounted (x : Srch) (n : Nat) (s : State) : State :=
  modCStat x.cmd.part (fun r => { r with widened := satAdd 16 r.widened n }) (turnUsed x s)

/-- R398: the queries of `y` that found fewer records than were asked for. -/
def shortQueries (x y : Srch) : Nat := (y.qs.filter fun q => decide (q.res.length < nK x.cmd)).length

/-- R398: what a search is told: the number of its results, and whether some query found too few. -/
def searchCpl (x y : Srch) : Cpl :=
  if shortQueries x y = 0 then cVal (sumOf (y.qs.map fun q => q.res.length))
  else { status := .partialDone, value := sumOf (y.qs.map fun q => q.res.length) }

theorem searchCpl_reason (x y : Srch) : (searchCpl x y).reason = none := by
  unfold searchCpl
  split <;> rfl

/-- The queries with too few records are counted. -/
def partialsCounted (x y : Srch) (s : State) : State :=
  modCStat x.cmd.part (fun r => { r with partialQ := satAdd 16 r.partialQ (shortQueries x y) }) s

/-- The search is gone, and its end counted. -/
def searchLeft (x : Srch) (s : State) : State :=
  modCStat x.cmd.part (fun r => { r with searches := sat 16 r.searches }) (modCen (fun c => { c with srchs := c.srchs.filter (·.id != x.id) }) s)

/-- The counters of the search's partition once `n` queries were widened, `m` had too few records, and the search ended. -/
def searchStats (x : Srch) (n m : Nat) (t : Tab CenStat) : Tab CenStat :=
  ((t.mod x.cmd.part fun r => { r with widened := satAdd 16 r.widened n }).mod x.cmd.part fun r => { r with partialQ := satAdd 16 r.partialQ m }).mod
    x.cmd.part fun r => { r with searches := sat 16 r.searches }

theorem searches_searchStats {m : Nat} {a : Tab CenStat} : ((searchStats x n m a).get x.cmd.part).searches = sat 16 (a.get x.cmd.part).searches := by
  simp [searchStats]

/-- Where writing the results leaves Centroid's state, the end of the search `x` changes the searches and the counters alone. -/
theorem cen_searchLeft (hv : v.cen = s.cen) (hz : z.cen = (roundCounted x n v).cen) : (searchLeft x (partialsCounted x y z)).cen =
    { s.cen with srchs := s.cen.srchs.filter (·.id != x.id), stats := searchStats x n (shortQueries x y) s.cen.stats } := by
  have hround : z.cen = (roundCounted x n s).cen := hz.trans (cen_modCStat_of_cen hv)
  simp [searchLeft, partialsCounted, searchStats, hround, roundCounted, turnUsed, modCStat]

theorem searchLeft_eq (x y : Srch) (z : State) :
    searchLeft x (partialsCounted x y z) = { z with cen := (searchLeft x (partialsCounted x y z)).cen } := by
  simp [searchLeft, partialsCounted, modCStat, modCen]

/-- The one search ends, and no other command waits for that. -/
theorem endSearch_alone (h : IndexCommand x.cmd p node tag) (hk : k.reason = none) (hc : (idxOf (searchLeft x s) x.idx).closing = none)
    (hw : (searchLeft x s).cen.waiting = []) :
    endSearch x k s = cenFinish x.cmd (some x.idx) k (searchLeft x s) := by
  have hcen := (cenFinish_tells h hk (v := searchLeft x s) (u := searchLeft x s) (i := x.idx) rfl).cen
  have hclosing : (idxOf (cenFinish x.cmd (some x.idx) k (searchLeft x s)) x.idx).closing = none := by
    rw [idxOf_of_cen hcen]
    exact hc
  have hwaiting : (cenFinish x.cmd (some x.idx) k (searchLeft x s)).cen.waiting = [] := by
    rw [hcen]
    exact hw
  unfold searchLeft at hclosing hwaiting ⊢
  unfold endSearch
  simp only [hclosing, admitWaiting, hwaiting, List.find?_nil]

/-- The one search, `x`, is on its turn, and its round answers `y`. -/
structure RoundMade (s v : State) (x y : Srch) : Prop where
  unfenced : fenced s .centroid = false
  alone : s.cen.srchs = [x]
  turn : scanTurn s x = true
  round : searchRound x s = (v, cOk, y)

/-- R397, R398: a round that widens no query and ends them all writes the results and ends the search. -/
theorem exec_searchRoundDone_ends (h : RoundMade s v x y) (hover : ∀ q ∈ y.qs, q.isOver = true)
    (hfirst : ∀ q ∈ x.qs, q.isOver = true ∨ q.probed = 0) (hw : writeResults y (roundCounted x 0 v) = (z, cOk)) :
    exec (.searchRoundDone x.id) s = .next (endSearch x (searchCpl x y) (partialsCounted x y z)) := by
  have hfind : s.cen.srchs.find? (·.id == x.id) = some x := by simp [h.alone]
  have hrounds : (x.qs.zip y.qs).filter (fun p => p.1.probed != 0 && !p.1.isOver) = [] := by
    refine List.filter_eq_nil_iff.2 fun p hp => ?_
    rcases hfirst p.1 (List.of_mem_zip hp).1 with ho | ho <;> simp [ho]
  have hall : y.qs.all (·.isOver) = true := List.all_eq_true.2 hover
  unfold roundCounted turnUsed at hw
  refine congrArg Host.Outcome.next ?_
  simp only [h.unfenced, hfind, h.turn, h.round, hrounds, hall, List.length_nil, Nat.min_zero, Bool.not_true, Bool.false_eq_true, if_false, if_true]
  rw [hw]
  rfl

/-- The search's turn, as the arbiters stood before its round. -/
theorem turnUsed_round (h : searchRound x s = (v, k, y)) : turnUsed x v =
    setArb (arbKey .centroid x.e) { arbOf s (arbKey .centroid x.e) with
      promo := (arbOf s (arbKey .centroid x.e)).promo.filter fun r => !(r.1 == x.cmd.part && r.2.1 == x.cmd.cls.code) } v := by
  have heng : v.eng = s.eng := only_searchRound.fst_eq h .eng (by decide)
  have harb : arbOf v (arbKey .centroid x.e) = arbOf s (arbKey .centroid x.e) := by rw [arbOf, heng, arbOf]
  rw [turnUsed, harb]

end Sys2Proof.Machine
end

section
/-!
What Centroid's commands and events do to its indexes and searches (O50). Where others than Centroid have written the open index, SEQ and
the value of a completion are free values (entry 95); OPEN_INDEX reads the descriptor before it is refused CAPACITY (entry 155); an event
out of its turn changes nothing (entry 17).
-/
namespace Sys2Proof.Machine

/-- Settles O50: each command's and event's end state, then its context, completion and frame from the rules on these. -/
theorem indexCommands : Obligations.IndexCommands := by
  unfold Obligations.IndexCommands
  refine ⟨?opens, ?full, ?frees, ?closeWaits, ?admits, ?searchWaits, ?searchEnds, ?appends, ?marks, ?begins, ?commits, ?merged, ?committed, ?idle⟩
  case opens =>
    intro s u e c i a b z v d w tb old p node tag ht hroom hi hrange hread hwords hgood hends hcent hdir hside hdel htable hold hordered hlive
      hobj hreq hissuer
    have hopen := openIdx_opens (x := cenCtx u e c.part) (i := i) ⟨hrange, hread, hwords, hgood, hcent, hdir, hside, hdel⟩ hends htable hold hordered
      hlive
    obtain ⟨hidx, hpool, htold, hframe⟩ := indexOpened_tells (i := i) (y := openedIdx c.part (c.w 4) (idxOf u i).gen w old)
      ⟨hobj, hreq, hissuer⟩ rfl rfl
    exact ⟨_, exec_openIndex_opens ht ⟨hroom, hi⟩ hopen, hidx, congrArg NumPool.next hpool, hframe .mem (by decide), htold, hframe⟩
  case full =>
    intro s u e c a d w p node tag ht hroom hfreed hrange hread hwords hgood hcent hdir hside hdel hobj hreq hissuer
    obtain ⟨htold, hframe⟩ := told_after (who := .port p node tag) (c := cenCpl c (nHandle c) 0 (cRef .capacity))
      (only_modCStat c.part (fun y => { y with capacity := sat 16 y.capacity }) a) (by decide)
    rw [← cenFinish_capacity ⟨hobj, hreq, hissuer⟩] at htold hframe
    refine ⟨_, exec_openIndex_full ht hroom hfreed ⟨hrange, hread, hwords, hgood, hcent, hdir, hside, hdel⟩, ?_, htold, hframe⟩
    rw [cenFinish_capacity ⟨hobj, hreq, hissuer⟩]
    rfl
  case frees =>
    intro s u v e c i p node tag ht hhere hidx hready hmerge hsearches hlive hv hobj hreq hissuer
    have hend := cenFinish_tells (i := i) (k := cOk) (u := v) (v := v) ⟨hobj, hreq, hissuer⟩ rfl rfl
    have hopen : idxOf v i = idxOf u i := idxOf_of_cen hv i
    have hfree := only_freeIdx (i := i) (s := cenFinish c (some i) cOk v)
    have hframe := hend.frame.trans (hfree.mono (by decide))
    have htold := hend.told
    rw [hopen] at htold
    refine ⟨_, exec_closeIndex_frees ⟨ht, hhere, hidx⟩ hready hmerge hsearches hlive, ?_, hframe .mem (by decide),
      (hfree .out (by decide)).trans htold, hframe, fun hs => (hfree .fresh (by decide)).trans (hend.fresh hs)⟩
    rw [idxOf_freeIdx, hend.idx, hopen]
  case closeWaits =>
    intro s u e c i ht hhere hidx hready hmerge hsearches
    exact ⟨_, exec_closeIndex_waits ⟨ht, hhere, hidx⟩ hready hmerge hsearches, idxOf_setIdx_same .., only_setIdx i _ u⟩
  case admits =>
    intro s u e c i ht hhere hidx hwaiting hroom hinline hfits hwords hresults hbelow habove
    exact ⟨_, exec_search_admits ⟨ht, hhere, hidx⟩ hwaiting hroom
      (admitSearch_admits hidx ⟨rfl, rfl, hinline, hfits, hwords, hresults, hbelow, habove⟩), rfl, only_modCen _ u⟩
  case searchWaits =>
    intro s u e c i ht hhere hidx hs hu
    exact ⟨_, exec_search_waits ⟨ht, hhere, hidx⟩ hs hu, rfl, rfl, only_modCen _ u⟩
  case searchEnds =>
    intro s v w z id x y p node tag hf hone hid hturn hround hover hfirst hw hresults hz hv hclosing hwaiting hobj hreq hissuer
    subst hid
    rw [← turnUsed_round hround] at hw
    subst hw
    have hcmd : IndexCommand x.cmd p node tag := ⟨hobj, hreq, hissuer⟩
    have hcen := cen_searchLeft (y := y) hv hz
    have hidx : idxOf (searchLeft x (partialsCounted x y z)) x.idx = idxOf s x.idx := by rw [idxOf, hcen, idxOf]
    have hend := cenFinish_tells (i := x.idx) hcmd (searchCpl_reason x y) (searchLeft_eq x y z)
    have hexec := exec_searchRoundDone_ends ⟨hf, hone, hturn, hround⟩ hover hfirst hresults
    rw [endSearch_alone hcmd (searchCpl_reason x y) (hidx ▸ hclosing) (by rw [hcen, hwaiting])] at hexec
    refine ⟨_, hexec, ?_, ?_, hend.mem, hend.toldAs (by rw [hidx]) (by rw [hidx]), hend.frame, hend.unspoiled⟩
    · rw [hend.cen, hcen]
      simp [hone]
    · rw [hend.cen, hcen, searches_searchStats]
  case appends =>
    intro s u a b v f z e c i n d cents y p node tag ht hhere hidx hy hexpect hn hread hids hmarked hroom hcents hput hlive hobj hreq hissuer
    have hchange := cenAppend_appends hy hn hread ⟨hexpect, hids, hmarked, hroom⟩ hcents hput hlive
    have hend := cenFinish_tells (i := i) (k := cVal (y.seq + n)) (v := z)
      (u := indexMutated c.part i (appendedIdx y n) (fun r => { r with appends := satAdd 16 r.appends n }) z) ⟨hobj, hreq, hissuer⟩ rfl rfl
    exact ⟨_, exec_cenAppend_appends ⟨ht, hhere, hidx⟩ rfl hchange, hend.idx.trans idxOf_indexMutated, hend.mem,
      hend.toldAs (by rw [idxOf_indexMutated]; rfl) (by rw [idxOf_indexMutated]; rfl), hend.frame, hend.unspoiled⟩
  case marks =>
    intro s u a b z e c i y slot p node tag ht hhere hidx hy hexpect hfind hroom hmark hlive hobj hreq hissuer
    have hchange := cenDelete_marks hy hexpect hfind hroom hmark hlive
    have hend := cenFinish_tells (i := i) (k := cVal (y.seq + 1)) (v := z)
      (u := indexMutated c.part i (markedIdx y) (fun r => { r with deletes := sat 16 r.deletes }) z) ⟨hobj, hreq, hissuer⟩ rfl rfl
    exact ⟨_, exec_cenDelete_marks ⟨ht, hhere, hidx⟩ rfl hchange, hend.idx.trans idxOf_indexMutated, hend.mem,
      hend.toldAs (by rw [idxOf_indexMutated]; rfl) (by rw [idxOf_indexMutated]; rfl), hend.frame, hend.unspoiled⟩
  case begins =>
    intro s u e c i ht hhere hidx hmerge
    exact ⟨_, exec_merge_begins ⟨ht, hhere, hidx⟩ hmerge, idxOf_setIdx_same .., only_setIdx i _ u⟩
  case commits =>
    intro s a b v i x j side hx hmerge hj hf hs hside hall hlive
    exact ⟨_, exec_mergeCommit_commits hx hmerge hj hf hs hside hall hlive, idxOf_indexMutated, rfl, only_indexMutated⟩
  case merged =>
    intro s a b v i x j d old p node tag hx hmerge hj hf hs hread hold hwrite hlive hobj hreq hissuer
    have hend := cenFinish_tells (i := i) (k := cVal j.n) (v := v)
      (u := setIdx i (mergedIdx x (mergedTable x.words j old).length) v) ⟨hobj, hreq, hissuer⟩ rfl rfl
    exact ⟨_, exec_mergeMarkRemove_ends hx hmerge hj hf hs hread hold hwrite hlive, hend.idx.trans (idxOf_setIdx_same ..), hend.mem,
      hend.toldAs (by rw [idxOf_setIdx_same]; rfl) (by rw [idxOf_setIdx_same]; rfl), hend.frame, hend.unspoiled⟩
  case committed =>
    intro s i j hmerge hj
    exact ⟨s, exec_mergeCommit_committed hmerge hj, rfl⟩
  case idle =>
    intro s i hmerge
    exact ⟨s, exec_mergeMarkRemove_idle hmerge, rfl⟩

end Sys2Proof.Machine
end

section
/-!
A step of a waiting command, the registers that identify the switch and show its log, and an offset that names no register.
-/
namespace Sys2Proof.Machine

variable {s : State} {k tag roles p node off w : Nat}

/-- Settles O56: with a command in front, `step` is `exec`. -/
theorem stepRunsCommand : Obligations.StepRunsCommand := by
  intro s c rest h
  rw [step, h]

/-! ### One register, read or written by a session (R556) -/

theorem regsFrom_one {r : Reg} (hr : regAt off = some r) : regsFrom off 1 = [r] := by simp [regsFrom, hr]

/-- A session's read of one register that no read clears returns the register's value. -/
theorem csrRead_one {r : Reg} (h : Admits s k roles .read) (hr : regAt off = some r) (hc : ∀ t, regClear none r t = t) :
    Answers (.csrRead (.mgmt k tag roles) off 1) s fun t => t.cmp = served s k ∧
      Told s t (.mgmt k tag roles) (cData (toLE 8 (regVal (touchSession k false s) none r))) ∧ Only [.cmp, .out] s t := by
  have hsome : ∀ i < 1, (regAt (off + 8 * i)).isSome = true := by
    intro i hi
    obtain rfl : i = 0 := by omega
    rw [Nat.mul_zero, Nat.add_zero, hr]
    rfl
  have hexec := exec_csrRead (tag := tag) h (by decide) (by decide) hsome
  simp only [regsFrom_one hr, readRun, readReg, hc, List.append_nil] at hexec
  exact ⟨_, hexec, rfl, told_after (only_touchSession k false s) (by decide)⟩

/-- A session's write of a register without a writable field changes none. -/
theorem csrWrite_readOnly {r : Reg} {v : Word} (h : Admits s k roles .admin) (hr : regAt off = some r) (hp : PlainWrite r)
    (hw : ∀ t, mgmtWrite r v.toNat t = (t, cOk)) :
    Answers (.csrWrite (.mgmt k tag roles) off v) s fun t => t.cmp = served s k ∧ Only [.cmp, .out] s t := by
  obtain ⟨t, ht, hsame, -, honly⟩ := plainWrite_answers h (exec_csrWrite (tag := tag) off v s) hr hp (f := id) (l := []) hw
    (fun t => .refl _ t) (by decide)
  exact ⟨t, ht, hsame .cmp (by decide), honly⟩

/-! ### CMP_ID (R539) -/

theorem csrRd_cmpId (hm : (port s p).mode = .xcl) (hpriv : (port s p).priv = true) :
    Answers (.csrRd (.port p node tag) 0) s fun t => Told s t (.port p node tag) (cVal 0xB04410) ∧ Only [.out] s t :=
  ⟨_, exec_csrRd_value hm hpriv (r := .cmpId) (by decide) rfl, rfl, only_emit _ s⟩

/-- Settles O12: the register's value is a constant, and no write changes it. -/
theorem cmpId : Obligations.CmpId := by
  refine ⟨?management, ?port, ?write⟩
  case management =>
    intro s k tag roles h
    obtain ⟨t, ht, -, htold, honly⟩ := csrRead_one (tag := tag) h (r := .cmpId) (off := 0) (by decide) fun _ => rfl
    exact ⟨t, ht, htold, honly⟩
  case port => exact fun s p node tag hm hpriv => csrRd_cmpId hm hpriv
  case write =>
    exact fun s k tag roles v h => csrWrite_readOnly h (r := .cmpId) (by decide) (fun _ _ _ => rfl) fun _ => rfl

/-! ### CMP_LOG_SEL and CMP_LOG_DATA_w (R576) -/

theorem regAt_cmpLogData (hw : w < 8) : regAt (0x40 + 8 * w) = some (.cmpLogData w) := by
  revert w
  decide

/-- A word of the entry that CMP_LOG_SEL names, zero where the ring has none. -/
theorem csrRead_cmpLogData {d : Nat} (h : Admits s k roles .read) (hw : w < 8)
    (hd : ((s.cmp.log.find? fun e => e.seq == s.cmp.logSel).map fun e => (logWords e).getD w 0).getD 0 = d) :
    Answers (.csrRead (.mgmt k tag roles) (0x40 + 8 * w) 1) s fun t =>
      t.cmp = served s k ∧ Told s t (.mgmt k tag roles) (cData (toLE 8 d)) ∧ Only [.cmp, .out] s t := by
  subst hd
  exact csrRead_one h (regAt_cmpLogData hw) fun _ => rfl

theorem csrWrite_cmpLogSel {v : Word} (h : Admits s k roles .admin) : Answers (.csrWrite (.mgmt k tag roles) 0x30 v) s fun t =>
    t.cmp = { served s k with logSel := v.toNat % 2 ^ 32 } ∧ Told s t (.mgmt k tag roles) cOk ∧ Only [.cmp, .out] s t := by
  obtain ⟨t, ht, hsame, htold, honly⟩ := plainWrite_answers h (exec_csrWrite (tag := tag) 0x30 v s) (r := .cmpLogSel) (by decide)
    (fun _ _ _ => rfl) (fun _ => rfl) (only_modCmp _) (by decide)
  refine ⟨t, ht, ?_, htold, honly.mono (by decide)⟩
  have hlow : bits v.toNat 31 0 = v.toNat % 2 ^ 32 := congrArg (· % 2 ^ 32) (Nat.div_one _)
  rw [hsame .cmp (by decide), modCmp_cmp, hlow]
  rfl

/-- Settles O14: the selector is a field of Compass, and a data register shows the entry it selects. -/
theorem logRegister : Obligations.LogRegister := by
  refine ⟨?select, ?selected, ?word, ?absent, ?write⟩
  case select => exact fun s k tag roles v h => csrWrite_cmpLogSel h
  case selected => exact fun s k tag roles h _ => csrRead_one h (r := .cmpLogSel) (by decide) fun _ => rfl
  case word => exact fun s k tag roles w e h hw he => csrRead_cmpLogData h hw (by rw [he]; rfl)
  case absent =>
    intro s k tag roles w h hw hno
    have hnone : (s.cmp.log.find? fun e => e.seq == s.cmp.logSel) = none :=
      List.find?_eq_none.2 fun e he => by simpa using hno e he
    exact csrRead_cmpLogData h hw (by rw [hnone]; rfl)
  case write =>
    exact fun s k tag roles v w h hw => csrWrite_readOnly h (regAt_cmpLogData hw) (fun _ _ _ => rfl) fun _ => rfl

/-! ### An offset that names no register (R646) -/

/-- A privileged port is told `c`, and nothing changes. -/
theorem port_told {i : Instr} {c : Cpl} (he : exec i s = .next (reply (.port p node tag) c s)) :
    Answers i s fun t => Told s t (.port p node tag) c ∧ Only [.out] s t := ⟨_, he, rfl, only_emit _ s⟩

theorem csrRead_noSlot (h : Admits s k roles .read) (hr : regAt off = none) : Answers (.csrRead (.mgmt k tag roles) off 1) s fun t =>
    t.cmp = served s k ∧ Told s t (.mgmt k tag roles) cBad ∧ Only [.cmp, .out] s t := by
  have hnone : ((List.range 1).filterMap fun i => regAt (off + 8 * i)) = [] := by simp [hr]
  refine look_answers (c := fun _ => cBad) h (r := decide (off + 8 * 1 ≤ 0x100000)) ?_
  change execCsrRead (.mgmt k tag roles) off 1 s = _
  simp only [execCsrRead, hnone]
  rfl

theorem csrWrite_noSlot {v : Word} (h : Admits s k roles .admin) (hr : regAt off = none) :
    Answers (.csrWrite (.mgmt k tag roles) off v) s fun t =>
      t.cmp = served s k ∧ Told s t (.mgmt k tag roles) cBad ∧ Only [.cmp, .out] s t := by
  refine look_answers (c := fun _ => cBad) h (r := false) ?_
  rw [exec_csrWrite]
  simp only [writeReg, hr]

theorem csrRd_noSlot (hm : (port s p).mode = .xcl) (hpriv : (port s p).priv = true) (hr : regAt off = none) :
    Answers (.csrRd (.port p node tag) off) s fun t => Told s t (.port p node tag) cBad ∧ Only [.out] s t := by
  refine port_told ?_
  change execCsrRd (.port p node tag) off s = _
  simp [execCsrRd, hm, hpriv, hr]

/-- A port of no partition is refused for that alone. -/
theorem registerWrite_noSlot {asid : Nat} {v : Word} (hr : regAt off = none) :
    Answers (.registerWrite (.port p node tag) asid off v) s fun t => Told s t (.port p node tag) cNP ∧ Only [.out] s t := by
  refine port_told ?_
  rw [exec_registerWrite]
  simp only [writeReg, hr, ite_self]

/-- Settles O11: each way to a register meets the missing row of R643 after who asks has been looked at. -/
theorem noSlot : Obligations.NoSlot := by
  refine ⟨?read, ?write, ?portRead, ?portWrite, ?pastLast⟩
  case read => exact fun s k tag roles off h _ hr => csrRead_noSlot h hr
  case write => exact fun s k tag roles off v h _ hr => csrWrite_noSlot h hr
  case portRead => exact fun s p node tag off hm hpriv _ hr => csrRd_noSlot hm hpriv hr
  case portWrite => exact fun s p node tag asid off v _ _ _ hr => registerWrite_noSlot hr
  case pastLast => decide

end Sys2Proof.Machine
end

section
/-!
Pauses of ports and priorities (R431 to R434), and FREEZE, THAW and CLEAR of a partition's captures (R437, R447).
-/
namespace Sys2Proof.Machine

variable {s t : State} {k tag roles p node n : Nat}

/-! ### Pauses -/

theorem only_modEth (p : Nat) (f : EthStat → EthStat) (s : State) : Only [.arc] s (modEth p f s) := only_modArc _ s

theorem only_pauseKey (p key time : Nat) (s : State) : Only [.arc] s (pauseKey p key time s) := only_modArc _ s

theorem eth_modEth (p : Nat) (f : EthStat → EthStat) (s : State) : (modEth p f s).arc.eth.get p = f (s.arc.eth.get p) :=
  Tab.get_mod_same ..

/-- A pause of one key leaves every other. -/
theorem paused_pauseKey_ne {key j time : Nat} (h : j ≠ key) : (pauseKey p key time s).arc.paused.get j = s.arc.paused.get j := by
  simp only [pauseKey, modArc_arc]
  split
  · rw [Tab.get_del, if_neg h]
  · rw [Tab.get_put, if_neg h]

theorem paused_pauseKey_same {key time : Nat} (h : time ≠ 0) :
    (pauseKey p key time s).arc.paused.get key = s.ft + quantaNs s p time := by
  simp only [pauseKey, modArc_arc]
  rw [if_neg h, Tab.get_put, if_pos rfl]

/-- The time of a pause depends on the clock and on the port alone. -/
theorem quantaNs_of_only (h : Only [.arc] s t) (p time : Nat) : t.ft + quantaNs t p time = s.ft + quantaNs s p time := by
  have hft : t.ft = s.ft := h .ft (by decide)
  have hedg : t.edg = s.edg := h .edg (by decide)
  unfold quantaNs quantumOf port
  rw [hft, hedg]

/-- `f` pauses the keys of port `p` that `hit` names, each for its time. -/
def Pauses (p : Nat) (hit : Nat → Bool) (time : Nat → Nat) (s : State) (f : State → Nat → State) : Prop :=
  ∀ t i, Only [.arc] s t → f t i = if hit i then pauseKey p (p * 16 + i) (time i) t else t

section
variable {hit : Nat → Bool} {time : Nat → Nat} {f : State → Nat → State} {i : Nat} {l : List Nat}

theorem Pauses.only (hf : Pauses p hit time s f) (ht : Only [.arc] s t) : Only [.arc] s (f t i) := by
  rw [hf t i ht]
  exact .ite (ht.trans (only_pauseKey _ _ _ _)) ht

theorem Pauses.only_foldl (hf : Pauses p hit time s f) (ht : Only [.arc] s t) : Only [.arc] s (l.foldl f t) := by
  induction l generalizing t with
  | nil => exact ht
  | cons j l ih => exact ih (hf.only ht)

theorem Pauses.eth_foldl (hf : Pauses p hit time s f) (ht : Only [.arc] s t) : (l.foldl f t).arc.eth = t.arc.eth := by
  induction l generalizing t with
  | nil => rfl
  | cons j l ih =>
    rw [List.foldl_cons, ih (hf.only ht), hf t j ht]
    split <;> rfl

/-- A key paused at its time stays so, whatever is paused after it. -/
theorem Pauses.keeps (hf : Pauses p hit time s f) (ht : Only [.arc] s t) (hi : time i ≠ 0)
    (h : t.arc.paused.get (p * 16 + i) = s.ft + quantaNs s p (time i)) :
    (l.foldl f t).arc.paused.get (p * 16 + i) = s.ft + quantaNs s p (time i) := by
  induction l generalizing t with
  | nil => exact h
  | cons j l ih =>
    refine ih (hf.only ht) ?_
    rw [hf t j ht]
    split
    · by_cases hj : i = j
      · subst hj
        rw [paused_pauseKey_same hi, quantaNs_of_only ht]
      · rw [paused_pauseKey_ne (by omega), h]
    · exact h

theorem Pauses.paused_foldl (hf : Pauses p hit time s f) (ht : Only [.arc] s t) (hmem : i ∈ l) (hhit : hit i = true)
    (hi : time i ≠ 0) : (l.foldl f t).arc.paused.get (p * 16 + i) = s.ft + quantaNs s p (time i) := by
  obtain ⟨a, b, rfl⟩ := List.append_of_mem hmem
  have ha : Only [.arc] s (a.foldl f t) := hf.only_foldl ht
  rw [List.foldl_append, List.foldl_cons]
  refine hf.keeps (hf.only ha) hi ?_
  rw [hf _ i ha, if_pos hhit, paused_pauseKey_same hi, quantaNs_of_only ha]

end

/-! ### PAUSE and PFC frames (R431, R432) -/

theorem pauseFrameRx_pauses {time : Nat} (hm : (port s p).mode = .eth) (hc : (ethCfg s p).mode = 1) (ht : time ≠ 0) :
    Answers (.pauseFrameRx p time) s fun t =>
      t.arc.paused = s.arc.paused.put (p * 16 + 8) (s.ft + quantaNs s p time) ∧
      (t.arc.eth.get p).pauseRx = sat 16 (s.arc.eth.get p).pauseRx ∧ Only [.arc] s t := by
  refine ⟨modEth p (fun e => { e with pauseRx := sat 16 e.pauseRx }) (pauseKey p (p * 16 + 8) time s), ?_, ?_, ?_,
    (only_pauseKey _ _ _ _).trans (only_modEth _ _ _)⟩
  · change Host.Outcome.next (if _ then _ else _) = _
    rw [if_neg (by simp [hm]), if_pos hc]
  · exact if_neg ht
  · rw [eth_modEth]
    rfl

theorem pauseFrameRx_discards {time : Nat} (hm : (port s p).mode = .eth) (hc : (ethCfg s p).mode = 2) :
    Answers (.pauseFrameRx p time) s fun t =>
      t.arc.paused = s.arc.paused ∧ (t.arc.eth.get p).discards = sat 16 (s.arc.eth.get p).discards ∧ Only [.arc] s t := by
  refine ⟨fcDiscard p s, ?_, rfl, by rw [fcDiscard, eth_modEth], only_modEth _ _ _⟩
  change Host.Outcome.next (if _ then _ else _) = _
  rw [if_neg (by simp [hm]), if_neg (by simp [hc])]

/-- The state once a PFC frame is counted. -/
def pfcCounted (p : Nat) (s : State) : State := modEth p (fun e => { e with pauseRx := sat 16 e.pauseRx }) s

/-- R432: what a PFC frame does to each priority. -/
def pfcStep (p mask : Nat) (times : List Nat) (s : State) (i : Nat) : State :=
  if bitOf mask i && bitOf (ethCfg s p).pfcEn i then pauseKey p (p * 16 + i) (times.getD i 0) s else s

theorem pauses_pfcStep (p mask : Nat) (times : List Nat) (s : State) :
    Pauses p (fun i => bitOf mask i && bitOf (ethCfg s p).pfcEn i) (times.getD · 0) s (pfcStep p mask times) := by
  intro t i ht
  have hcmp : t.cmp = s.cmp := ht .cmp (by decide)
  rw [pfcStep, ethCfg, hcmp]
  rfl

theorem pfcFrameRx_pauses {mask i : Nat} {times : List Nat} (hm : (port s p).mode = .eth) (hc : (ethCfg s p).mode = 2) (hi : i < 8)
    (hmask : bitOf mask i = true) (hen : bitOf (ethCfg s p).pfcEn i = true) (ht : times.getD i 0 ≠ 0) :
    Answers (.pfcFrameRx p mask times) s fun t =>
      t.arc.paused.get (p * 16 + i) = s.ft + quantaNs s p (times.getD i 0) ∧
      (t.arc.eth.get p).pauseRx = sat 16 (s.arc.eth.get p).pauseRx ∧ Only [.arc] s t := by
  have hf := pauses_pfcStep p mask times s
  have hcounted : Only [.arc] s (pfcCounted p s) := only_modEth _ _ _
  refine ⟨(List.range 8).foldl (pfcStep p mask times) (pfcCounted p s), ?_, ?_, ?_, hf.only_foldl hcounted⟩
  · change Host.Outcome.next (if _ then _ else _) = _
    rw [if_neg (by simp [hm]), if_pos hc]
    rfl
  · exact hf.paused_foldl hcounted (by simpa using hi) (by simp only [hmask, hen, Bool.and_self]) ht
  · rw [hf.eth_foldl hcounted, pfcCounted, eth_modEth]

/-! ### A pause that ends, and XOFF sent again (R432, R433) -/

theorem pauseExpire_ends {j at_ : Nat} (hf : s.arc.paused.find? (fun e => e.1 == p * 16 + j) = some (p * 16 + j, at_)) (ha : at_ ≤ s.ft) :
    Answers (.pauseExpire p j) s fun t => t.arc = { s.arc with paused := s.arc.paused.del (p * 16 + j) } ∧ Only [.arc] s t := by
  refine ⟨modArc (fun a => { a with paused := a.paused.del (p * 16 + j) }) s, ?_, rfl, only_modArc _ s⟩
  change execPauseExpire p j s = _
  simp only [execPauseExpire, hf, ha, if_true]

theorem fcRefresh_sends {prio at_ : Nat} (hm : (port s p).mode = .eth) (hc : (ethCfg s p).mode = 1)
    (hf : s.arc.fcSent.find? (fun e => e.1 == p * 16 + 8) = some (p * 16 + 8, at_))
    (hb : (ethCfg s p).xoffKib * 1024 ≤ fcBytes s (p * 16 + 8)) (ha : at_ + quantaNs s p 0xFFFF / 2 ≤ s.ft) :
    Answers (.fcRefresh p prio) s fun t =>
      t.out = .msg .pauseFrame p [0xFFFF] [] :: s.out ∧ t.arc.fcSent = s.arc.fcSent.put (p * 16 + 8) s.ft ∧ Only [.arc, .out] s t := by
  have hkey : fcKey s p prio = some (p * 16 + 8) := by simp [fcKey, hm, hc]
  have hport : (p * 16 + 8) / 16 = p := by omega
  have hslot : (p * 16 + 8) % 16 = 8 := by omega
  have hsend : sendFc (p * 16 + 8) 0xFFFF s = modArc (fun a => { a with fcSent := a.fcSent.put (p * 16 + 8) s.ft })
      (modEth p (fun e => { e with fcTx := sat 16 e.fcTx }) (send .pauseFrame p [0xFFFF] s)) := by
    simp only [sendFc, hport, hslot, if_true]
    rfl
  refine ⟨sendFc (p * 16 + 8) 0xFFFF s, ?_, ?_, ?_, ?_⟩
  · change execFcRefresh p prio s = _
    simp [execFcRefresh, hkey, hf, hb, ha]
  · rw [hsend]; rfl
  · rw [hsend]; rfl
  · rw [hsend]
    exact ((only_send _ _ _ _).seq ((only_modEth _ _ _).trans (only_modArc _ _))).mono (by decide)

/-! ### A partition's captures (R437, R447) -/

theorem freeze_port (hm : (port s p).mode = .xcl) (hpriv : (port s p).priv = true) (hpart : (port s p).part = some n) :
    Answers (.freeze (.port p node tag) k) s fun t =>
      t.arc = { s.arc with frozen := setBit s.arc.frozen n } ∧ Told s t (.port p node tag) cOk ∧ Only [.arc, .out] s t := by
  refine ⟨reply (.port p node tag) cOk (modArc (fun a => { a with frozen := setBit a.frozen n }) s), ?_, rfl, rfl,
    (only_modArc _ s).seq (only_emit _ _)⟩
  change execFreeze (.port p node tag) k s = _
  simp [execFreeze, monCtl, hm, hpriv, hpart]

theorem freeze_unprivileged (hpriv : (port s p).priv = false) :
    Answers (.freeze (.port p node tag) k) s fun t => Told s t (.port p node tag) cNP ∧ Only [.out] s t := by
  refine port_told ?_
  change execFreeze (.port p node tag) k s = _
  simp [execFreeze, monCtl, hpriv]

/-- A session's change of captures. -/
theorem monCtl_session {i : Instr} {f : Arc → Arc} (h : Admits s k roles .admin)
    (he : exec i s = mgmtGate (.mgmt k tag roles) .admin false (fun x => .next (reply (.mgmt k tag roles) cOk (modArc f x))) s) :
    Answers i s fun t => t.arc = f s.arc ∧ t.cmp = served s k ∧ Told s t (.mgmt k tag roles) cOk ∧ Only [.cmp, .arc, .out] s t := by
  obtain ⟨t, ht, hsame, htold, honly⟩ := gate_answers h he (only_modArc f _) (l := [.arc]) (by decide)
  exact ⟨t, ht, hsame .arc (by decide), hsame .cmp (by decide), htold, honly⟩

/-- Settles O31: a pause is an entry of one table, and each frame, time and command is the lemma on what it does to it. -/
theorem flowControl : Obligations.FlowControl := by
  refine ⟨?pause, ?otherMode, ?pfc, ?expire, ?refresh, ?freeze, ?thaw, ?clear, ?unprivileged⟩
  case pause => exact fun s p time hm hc ht => pauseFrameRx_pauses hm hc ht
  case otherMode => exact fun s p time hm hc => pauseFrameRx_discards hm hc
  case pfc => exact fun s p mask times i hm hc hi hmask hen ht => pfcFrameRx_pauses hm hc hi hmask hen ht
  case expire => exact fun s p k at_ hf ha => pauseExpire_ends hf ha
  case refresh => exact fun s p prio at_ hm hc hf hb ha => fcRefresh_sends hm hc hf hb ha
  case freeze => exact fun s p node tag k n hm hpriv hpart => freeze_port hm hpriv hpart
  case thaw =>
    exact fun s k tag roles n h => monCtl_session (f := fun a => { a with frozen := clearBit a.frozen n }) h rfl
  case clear =>
    exact fun s k tag roles n h => monCtl_session (f := fun a => { a with mons := a.mons.filter fun e => e.1 % 16 != n }) h rfl
  case unprivileged => exact fun s p node tag k hpriv => freeze_unprivileged hpriv

end Sys2Proof.Machine
end

section
/-!
Sensors, the budget and the trip comparator (R559, R560, R565, R592, R633). What a report writes is no part of what these statements name,
but for CMP_FAULT_STATUS, of which the log only sets bits.
-/
namespace Sys2Proof.Machine

variable {s t : State} {δ : Type} {o : State → δ} {c : δ} {i : Nat}

/-! ### Reports, by what they leave -/

/-- A report leaves what depends neither on the log nor on CMP_FAULT_STATUS. -/
theorem Shows.reported {e : Ev} {b : Block} {part : Option Nat} {data : List Nat} (ho : ∀ u, o (unlogged u) = o u)
    (h : Shows o id c s) : Shows o id c (report e b part data s) := by
  refine h.same ?_
  rw [← ho (report e b part data s), report_unlogged, ho]

theorem only_report (e : Ev) (b : Block) (part : Option Nat) (data : List Nat) (s : State) : Only [.cmp] s (report e b part data s) :=
  only_of_unlogged (report_unlogged ..)

theorem only_flushLog (s : State) : Only [.cmp] s (flushLog s) := only_of_unlogged (flushLog_unlogged (ρ := unlogged s) rfl)

/-- Bit `i` of CMP_FAULT_STATUS is 1. -/
def faultBit (i : Nat) (s : State) : Bool := bitOf s.cmp.faultStatus i

theorem faultBit_setFaultBit_same : faultBit i (setFaultBit i s) = true := by
  simp [faultBit, setFaultBit, bitOf_setBit]

theorem setFaultBit_keepsFault {j : Nat} (h : Shows (faultBit i) id true s) : Shows (faultBit i) id true (setFaultBit j s) := by
  have hbit : bitOf s.cmp.faultStatus i = true := h
  simp [Shows, faultBit, setFaultBit, bitOf_setBit, hbit]

theorem logRaw_keepsFault {e : LogEntry} (h : Shows (faultBit i) id true s) : Shows (faultBit i) id true (logRaw e s) :=
  .ite (.ite (setFaultBit_keepsFault h) (.ite (setFaultBit_keepsFault h) h)) (setFaultBit_keepsFault h)

theorem flushLog_keepsFault (h : Shows (faultBit i) id true s) : Shows (faultBit i) id true (flushLog s) :=
  .ite (.ite h (logRaw_keepsFault h)) h

/-! ### The thermal thresholds (R560) -/

/-- What the thresholds leave of Compass: the samples, and whether the comparator has tripped. -/
def sensed (s : State) : Tab Sensor × Bool := (s.cmp.sensors, s.cmp.tripped)

theorem sensed_unlogged (s : State) : sensed (unlogged s) = sensed s := rfl

@[simp] theorem sensed_report (e : Ev) (b : Block) (part : Option Nat) (data : List Nat) (s : State) :
    sensed (report e b part data s) = sensed s :=
  Shows.reported (o := sensed) sensed_unlogged rfl

@[simp] theorem sensed_setFaultBit (j : Nat) (s : State) : sensed (setFaultBit j s) = sensed s := rfl

@[simp] theorem sensed_modEnergy (f : Energy → Energy) (s : State) : sensed (modEnergy f s) = sensed s := rfl

@[simp] theorem sensed_warned (w : Bool) (s : State) : sensed (modCmp (fun c => { c with warned := w }) s) = sensed s := rfl

@[simp] theorem sensed_throttled (w : Bool) (s : State) : sensed (modCmp (fun c => { c with throttled := w }) s) = sensed s := rfl

theorem sensed_thermal (s : State) : sensed (thermal s) = sensed s := by
  unfold thermal
  split
  · rfl
  · dsimp only
    split_ifs <;> simp

theorem only_thermal (s : State) : Only [.cmp] s (thermal s) := by
  have hreported {e : Ev} {data : List Nat} {u : State} : Only [.cmp] u (setFaultBit 3 (report e .compass none data u)) :=
    (only_report _ _ _ _ _).trans (only_setFaultBit _ _)
  unfold thermal
  split
  · exact .refl _ s
  · dsimp only
    split_ifs
    · exact hreported.trans ((only_modCmp _ _).trans ((only_modCmp _ _).trans (hreported.trans (only_modEnergy _ _))))
    · exact hreported.trans ((only_modCmp _ _).trans ((only_modCmp _ _).trans (only_modEnergy _ _)))
    · exact hreported.trans (only_modCmp _ _)
    · exact (only_modCmp _ _).trans ((only_modCmp _ _).trans (hreported.trans (only_modEnergy _ _)))
    · exact (only_modCmp _ _).trans ((only_modCmp _ _).trans (only_modEnergy _ _))
    · exact only_modCmp _ _

/-! ### A sample (R559) -/

/-- What a sample of `sensor` leaves in its place. -/
def sampleOf (value : Int) (s : State) : Sensor := { value := satInt 32 value, ft := s.ft, valid := true }

/-- The state with a sample kept. -/
def sampled (sensor : Nat) (value : Int) (s : State) : State :=
  modCmp (fun c => { c with sensors := c.sensors.set sensor (sampleOf value s) }) s

/-- A regulator's sample is kept for the epoch in progress. -/
def sampleNotedFor (sensor : Nat) (s : State) : State :=
  if sensor / 4096 = 3 && decide (sensor % 4096 < 14) then
    modEnergy (fun e => { e with sampled := setBit e.sampled (sensor % 4096), everSampled := setBit e.everSampled (sensor % 4096) }) s
  else s

theorem exec_sensorSample {sensor : Nat} {value : Int} (h : sensorExists sensor = true) :
    exec (.sensorSample sensor value) s = .next
      (if sensor / 4096 < 2 then thermal (sampleNotedFor sensor (sampled sensor value s))
      else sampleNotedFor sensor (sampled sensor value s)) := by
  change Host.Outcome.next (if _ then _ else _) = _
  rw [if_neg (by simp [h])]
  rfl

theorem sensed_sampleNotedFor (sensor : Nat) (s : State) : sensed (sampleNotedFor sensor s) = sensed s :=
  Shows.maybe (o := sensed) (v := id) (y := s) rfl id

theorem sensorSample_keeps {sensor : Nat} {value : Int} (h : sensorExists sensor = true) : Answers (.sensorSample sensor value) s fun t =>
    t.cmp.sensors.get sensor = { value := satInt 32 value, ft := s.ft, valid := true } ∧ Only [.cmp] s t := by
  have hget : (sampled sensor value s).cmp.sensors.get sensor = sampleOf value s := Tab.get_set_same ..
  have hkept : sensed (sampleNotedFor sensor (sampled sensor value s)) = sensed (sampled sensor value s) := sensed_sampleNotedFor ..
  have honly : Only [.cmp] s (sampleNotedFor sensor (sampled sensor value s)) :=
    (only_modCmp _ s).trans (.ite (only_modEnergy _ _) (.refl _ _))
  refine ⟨_, exec_sensorSample h, ?_, .ite (honly.trans (only_thermal _)) honly⟩
  have hsensed : Shows sensed id (sensed (sampled sensor value s)) (if sensor / 4096 < 2 then
      thermal (sampleNotedFor sensor (sampled sensor value s)) else sampleNotedFor sensor (sampled sensor value s)) :=
    .ite ((sensed_thermal _).trans hkept) hkept
  have hsensors := congrArg Prod.fst hsensed
  exact (congrArg (Tab.get · sensor) hsensors).trans hget

/-! ### The budget (R565) -/

theorem pmbusBudgetWrite_sets {v : Nat} (h : s.pins.porstN = true) : Answers (.pmbusBudgetWrite v) s fun t =>
    (t.cmp.energy.capNext : Int) = max 500 (min 2800 (linear11 v)) ∧ t.cmp.energy.capW = s.cmp.energy.capW ∧ Only [.cmp] s t := by
  refine ⟨setBudget (linear11 v) s, congrArg Host.Outcome.next (if_pos h), ?_, rfl, only_modEnergy _ _⟩
  exact Int.toNat_of_nonneg (le_trans (by decide) (le_max_left 500 _))

/-- Settles O3: a sample is one entry of a table, and the budget one field; a restart of Compass's processor is no change at all
(entry 50). -/
theorem sensorsAndBudget : Obligations.SensorsAndBudget := by
  refine ⟨?other, ?temperature, ?budget, ?restart⟩
  case other => exact fun s sensor value h _ => sensorSample_keeps h
  case temperature => exact fun s sensor value h _ => sensorSample_keeps h
  case budget => exact fun s v h => pmbusBudgetWrite_sets h
  case restart => exact fun s => ⟨s, rfl, .refl _ s⟩

/-! ### The trip comparator (R560, R633) -/

/-- The state as the comparator's pin is driven and the sample kept. -/
def tripNoted (sensor : Nat) (value : Int) (s : State) : State :=
  modCmp (fun c => { c with tripped := true, sensors := c.sensors.set sensor (sampleOf value s) })
    (modPins (fun p => { p with thermtrip := true }) s)

/-- The trip reported as a fault, and the log flushed. -/
def tripReported (sensor : Nat) (value : Int) (s : State) : State :=
  flushLog (setFaultBit 3 (report .cmpThermtrip .compass none [sensor, toTwos 32 value] (thermal (tripNoted sensor value s))))

theorem exec_thermalTrip {sensor : Nat} {value : Int} (hp : s.pins.porstN = true) (hlt : sensor < 8192) (he : sensorExists sensor = true)
    (hv : (s.cmp.tripC : Int) * 1000 ≤ value) :
    exec (.thermalTrip sensor value) s = .next (holdBlocks .halted (tripReported sensor value s)) := by
  change Host.Outcome.next (if _ then _ else _) = _
  rw [if_neg (by simp [hlt, he, hv])]
  dsimp only
  rw [if_neg (by simp [hp])]
  rfl

theorem only_tripReported (sensor : Nat) (value : Int) (s : State) :
    Only [.cmp] (tripNoted sensor value s) (tripReported sensor value s) :=
  (only_thermal _).trans ((only_report _ _ _ _ _).trans ((only_setFaultBit _ _).trans (only_flushLog _)))

theorem sensed_flushLog (s : State) : sensed (flushLog s) = sensed s := by
  have hlog : unlogged (flushLog s) = unlogged s := flushLog_unlogged (ρ := unlogged s) rfl
  rw [← sensed_unlogged (flushLog s), hlog, sensed_unlogged]

theorem tripped_tripReported (sensor : Nat) (value : Int) (s : State) : (tripReported sensor value s).cmp.tripped = true := by
  have hsensed : sensed (tripReported sensor value s) = sensed (tripNoted sensor value s) := by
    rw [tripReported, sensed_flushLog, sensed_setFaultBit, sensed_report, sensed_thermal]
  have hsnd : (sensed (tripReported sensor value s)).2 = true := by rw [hsensed]; rfl
  exact hsnd

theorem faultBit_tripReported (sensor : Nat) (value : Int) (s : State) : Shows (faultBit 3) id true (tripReported sensor value s) := by
  rw [tripReported]
  exact flushLog_keepsFault faultBit_setFaultBit_same

/-- What holding the blocks in reset leaves of the pins and of Compass. -/
theorem holdBlocks_keeps (b : BootState) (s : State) : (holdBlocks b s).pins = s.pins ∧ (holdBlocks b s).cmp.tripped = s.cmp.tripped ∧
    (holdBlocks b s).cmp.faultStatus = s.cmp.faultStatus := ⟨rfl, rfl, rfl⟩

/-- Settles O2: the pin and the fault are noted before the blocks are held in reset, which leaves both. -/
theorem thermalTrip : Obligations.ThermalTrip := by
  intro s sensor value hp hlt he hv
  have hpins : (tripReported sensor value s).pins = (tripNoted sensor value s).pins := only_tripReported sensor value s .pins (by decide)
  have htripped := tripped_tripReported sensor value s
  have hfault := faultBit_tripReported sensor value s
  refine ⟨_, exec_thermalTrip hp hlt he hv, ?_⟩
  generalize tripReported sensor value s = u at hpins htripped hfault
  have hbit : bitOf u.cmp.faultStatus 3 = true := hfault
  obtain ⟨kpins, ktripped, kfault⟩ := holdBlocks_keeps .halted u
  exact ⟨by rw [kpins, hpins]; rfl, rfl, by rw [ktripped, htripped], by rw [kfault, hbit], rfl, rfl⟩

end Sys2Proof.Machine
end

section
/-!
Updates of a slot and the fuses (R548, R557, R558): each is a served session's change of Compass.
-/
namespace Sys2Proof.Machine

variable {s : State} {k tag roles v : Nat} {u : Update}

/-! ### Updates (R557) -/

/-- A command that ends in a change of Compass and its completion. -/
theorem cmp_answers {i : Instr} {c : Cpl} {x : Compass} (he : exec i s = .next (reply (.mgmt k tag roles) c { s with cmp := x })) :
    Answers i s fun t => t.cmp = x ∧ Told s t (.mgmt k tag roles) c ∧ Only [.cmp, .out] s t :=
  ⟨_, he, rfl, told_after (only_cmp x s) (by decide)⟩

theorem updateBegin_begins {b : Bool} {len : Nat} (h : Admits s k roles .admin) (hl : len ≤ 50331648) (hu : s.cmp.update = none)
    (hn : nvmCause s (slotOf (!b) s) = 0) : Answers (.updateBegin (.mgmt k tag roles) b len) s fun t =>
      t.cmp.update = some { slotB := b, len := len, who := .mgmt k tag roles } ∧ (slotOf b t).image = none ∧
      slotOf (!b) t = slotOf (!b) s ∧ t.cmp.active = s.cmp.active ∧ Only [.cmp] s t := by
  refine ⟨modCmp (fun c => { c with update := some { slotB := b, len := len, who := .mgmt k tag roles } })
    (modSlot b (fun d => { d with image := none }) (touchSession k false s)), ?_, rfl, ?_, ?_, ?_, ?_⟩
  · change execUpdateBegin (.mgmt k tag roles) b len s = _
    have hslot : nvmCause (touchSession k false s) (slotOf (!b) (touchSession k false s)) = 0 := hn
    rw [execUpdateBegin, mgmtGate_admits h, if_neg (by omega), if_neg (by simp [hslot, hu])]
  · cases b <;> rfl
  · cases b <;> rfl
  · cases b <;> rfl
  · exact (only_touchSession k false s).trans ((only_modCmp _ _).trans (only_modCmp _ _))

theorem updateEraseDone_ends (hu : s.cmp.update = some u) (he : u.erased = false) (hw : u.who = .mgmt k tag roles) :
    Answers .updateEraseDone s fun t => t.cmp = { s.cmp with update := some { u with erased := true } } ∧ Told s t u.who cOk ∧
      Only [.cmp, .out] s t := by
  refine ⟨emit (.cpl u.who cOk) (modCmp (fun c => { c with update := some { u with erased := true } }) s), ?_, rfl,
    told_after (only_modCmp _ s) (by decide)⟩
  change execUpdateEraseDone s = _
  simp [execUpdateEraseDone, hu, he, hw, reply_mgmt]

theorem updateData_notes {off len : Nat} (h : Admits s k roles .admin) (hu : s.cmp.update = some u) (he : u.erased = true)
    (hl : len ≤ 65536) (ho : off + len ≤ u.len) : Answers (.updateData (.mgmt k tag roles) off len) s fun t =>
      t.cmp = { served s k with update := some { u with written := max u.written (off + len) } } ∧ Told s t (.mgmt k tag roles) cOk ∧
      Only [.cmp, .out] s t := by
  refine cmp_answers ?_
  change execUpdateData (.mgmt k tag roles) off len s = _
  rw [execUpdateData, mgmtGate_admits h, if_neg (by omega)]
  simp only [touchSession_cmp, hu]
  rw [if_neg (by omega), if_neg (by simp [he])]
  rfl

/-- R557 step 3: what UPDATE_COMMIT does once the slot is erased. -/
theorem exec_updateCommit {img : Image} (h : Admits s k roles .admin) (hu : s.cmp.update = some u) (he : u.erased = true) :
    exec (.updateCommit (.mgmt k tag roles) img) s = .next
      (if imageCause s (slotOf u.slotB s).answers img = 0 then
        reply (.mgmt k tag roles) cOk (report .cmpUpdate .compass none [b2n u.slotB + 256 * img.hdr.svn]
          (modSlot u.slotB (fun d => { d with image := some img }) { s with cmp := { served s k with update := none } }))
      else reply (.mgmt k tag roles) { cBad with value := imageCause s (slotOf u.slotB s).answers img }
        { s with cmp := { served s k with update := none } }) := by
  change execUpdateCommit (.mgmt k tag roles) img s = _
  rw [execUpdateCommit, mgmtGate_admits h]
  simp only [touchSession_cmp, hu]
  rw [if_neg (by simp [he])]
  rfl

theorem updateCommit_keeps {img : Image} (h : Admits s k roles .admin) (hu : s.cmp.update = some u) (he : u.erased = true)
    (hc : imageCause s (slotOf u.slotB s).answers img = 0) : Answers (.updateCommit (.mgmt k tag roles) img) s fun t =>
      t.cmp.update = none ∧ (slotOf u.slotB t).image = some img ∧ Told s t (.mgmt k tag roles) cOk ∧ Only [.cmp, .out] s t := by
  obtain ⟨htold, honly⟩ := told_after (who := .mgmt k tag roles) (c := cOk) ((only_cmp { served s k with update := none } s).trans
    ((only_modCmp (fun c => if u.slotB then { c with nvmB := { c.nvmB with image := some img } }
      else { c with nvmA := { c.nvmA with image := some img } }) _).trans
      (only_report .cmpUpdate .compass none [b2n u.slotB + 256 * img.hdr.svn] _))) (by decide)
  refine ⟨_, (exec_updateCommit h hu he).trans (congrArg Host.Outcome.next (if_pos hc)), ?_, ?_, htold, honly⟩
  · refine Shows.reported (o := fun x => x.cmp.update) (fun _ => rfl) ?_
    cases u.slotB <;> rfl
  · refine Shows.reported (o := fun x => (slotOf u.slotB x).image) (fun _ => ?_) ?_
    · cases u.slotB <;> rfl
    · cases u.slotB <;> rfl

theorem updateCommit_refused {img : Image} (h : Admits s k roles .admin) (hu : s.cmp.update = some u) (he : u.erased = true)
    (hc : imageCause s (slotOf u.slotB s).answers img ≠ 0) : Answers (.updateCommit (.mgmt k tag roles) img) s fun t =>
      t.cmp = { served s k with update := none } ∧
      Told s t (.mgmt k tag roles) { cBad with value := imageCause s (slotOf u.slotB s).answers img } ∧ Only [.cmp, .out] s t :=
  ⟨_, (exec_updateCommit h hu he).trans (congrArg Host.Outcome.next (if_neg hc)), rfl, told_after (only_cmp _ s) (by decide)⟩

/-! ### Fuses (R548, R558) -/

theorem rollbackAdvance_blows (h : Admits s k roles .admin) (hlt : s.cmp.rollback < v) (hmax : v ≤ 128) (hsvn : v ≤ s.cmp.active.hdr.svn)
    (ha : slotSvn s s.cmp.nvmA v = true) (hb : slotSvn s s.cmp.nvmB v = true) :
    Answers (.rollbackAdvance (.mgmt k tag roles) v) s fun t =>
      t.cmp = { served s k with rollback := v } ∧ Told s t (.mgmt k tag roles) cOk ∧ Only [.cmp, .out] s t := by
  refine cmp_answers ?_
  change execRollbackAdvance (.mgmt k tag roles) v s = _
  rw [execRollbackAdvance, mgmtGate_admits h]
  refine congrArg Host.Outcome.next (if_pos ?_)
  have ha' : slotSvn (touchSession k false s) s.cmp.nvmA v = true := ha
  have hb' : slotSvn (touchSession k false s) s.cmp.nvmB v = true := hb
  simp [hlt, hmax, hsvn, ha', hb']

theorem rollbackAdvance_refused (h : Admits s k roles .admin) (hv : v ≤ s.cmp.rollback) :
    Answers (.rollbackAdvance (.mgmt k tag roles) v) s fun t =>
      t.cmp = served s k ∧ Told s t (.mgmt k tag roles) (cRef .state) ∧ Only [.cmp, .out] s t := by
  refine cmp_answers ?_
  change execRollbackAdvance (.mgmt k tag roles) v s = _
  rw [execRollbackAdvance, mgmtGate_admits h]
  refine congrArg Host.Outcome.next (if_neg ?_)
  have hnot : ¬ s.cmp.rollback < v := by omega
  simp [hnot]

theorem ownerSet_fuses {hash : Nat} (h : Admits s k roles .admin) (hn : s.cmp.ownerHash = none) :
    Answers (.ownerSet (.mgmt k tag roles) hash) s fun t =>
      t.cmp = { served s k with ownerHash := some hash } ∧ Told s t (.mgmt k tag roles) cOk ∧ Only [.cmp, .out] s t := by
  refine cmp_answers ?_
  change execOwnerSet (.mgmt k tag roles) hash s = _
  rw [execOwnerSet, mgmtGate_admits h]
  exact congrArg Host.Outcome.next (if_neg (by simp [hn]))

theorem ownerSet_refused {hash : Nat} (h : Admits s k roles .admin) (hn : s.cmp.ownerHash ≠ none) :
    Answers (.ownerSet (.mgmt k tag roles) hash) s fun t =>
      t.cmp = served s k ∧ Told s t (.mgmt k tag roles) (cRef .state) ∧ Only [.cmp, .out] s t := by
  refine cmp_answers ?_
  change execOwnerSet (.mgmt k tag roles) hash s = _
  rw [execOwnerSet, mgmtGate_admits h]
  exact congrArg Host.Outcome.next (if_pos (by simpa [Option.isSome_iff_ne_none] using hn))

/-- Settles O10: each clause is the lemma on its command. -/
theorem updates : Obligations.Updates := by
  refine ⟨?begin, ?erased, ?data, ?commit, ?bad, ?advance, ?back, ?owner, ?again⟩
  case begin => exact fun s k tag roles b len h hl hu hn => updateBegin_begins h hl hu hn
  case erased => exact fun s u k tag roles hu he hw => updateEraseDone_ends hu he hw
  case data => exact fun s k tag roles off len u h hu he hl ho => updateData_notes h hu he hl ho
  case commit => exact fun s k tag roles img u h hu he hc => updateCommit_keeps h hu he hc
  case bad => exact fun s k tag roles img u h hu he hc => updateCommit_refused h hu he hc
  case advance => exact fun s k tag roles v h hlt hmax hsvn ha hb => rollbackAdvance_blows h hlt hmax hsvn ha hb
  case back => exact fun s k tag roles v h hv => rollbackAdvance_refused h hv
  case owner => exact fun s k tag roles hash h hn => ownerSet_fuses h hn
  case again => exact fun s k tag roles hash h hn => ownerSet_refused h hn

end Sys2Proof.Machine
end

section
/-!
Ports: what a change of one leaves, the commands that are such a change, and their answers to the other end of the link.
-/
namespace Sys2Proof.Machine

variable {s t u : State} {p : Nat} {x : Port} {i : Instr} {k : MsgKind} {args : List Nat} {l : List Part}

@[simp] theorem port_setPort_same (p : Nat) (x : Port) (s : State) : port (setPort p x s) p = x := Tab.get_set_same ..

theorem port_of_only (h : Only l s t) (hl : .edg ∉ l) (p : Nat) : port t p = port s p := by
  have hedg : t.edg = s.edg := h .edg hl
  rw [port, hedg, port]

theorem only_modEdge (f : Edge → Edge) (s : State) : Only [.edg] s (modEdge f s) :=
  .of fun q => by cases q <;> simp [SamePart]

theorem only_setPort (p : Nat) (x : Port) (s : State) : Only [.edg] s (setPort p x s) := only_modEdge (fun e => { e with ports := e.ports.set p x }) s

theorem only_send_send (h : Only [.cmp] s t) : Only [.cmp] (send k p args s) (send k p args t) := by
  intro q hq
  have hsame := h q hq
  cases q
  case out => exact congrArg (Out.msg k p args [] :: ·) hsame
  all_goals exact hsame

/-- A command that changes one port last, after changes of Edge. -/
theorem setPort_answersFrom (hu : Only [.edg] s u) (he : exec i s = .next (setPort p x u)) :
    Answers i s fun t => port t p = x ∧ Only [.edg] s t :=
  ⟨_, he, port_setPort_same p x u, hu.trans (only_setPort p x u)⟩

/-- A command that changes one port. -/
theorem setPort_answers (he : exec i s = .next (setPort p x s)) : Answers i s fun t => port t p = x ∧ Only [.edg] s t :=
  setPort_answersFrom (.refl _ s) he

/-- A command that changes one port and reports. -/
theorem setPort_reports (he : exec i s = .next t) (ht : Only [.cmp] (setPort p x s) t) :
    Answers i s fun t => port t p = x ∧ Only [.edg, .cmp] s t :=
  ⟨t, he, (port_of_only ht (by decide) p).trans (port_setPort_same p x s), (only_setPort p x s).seq ht⟩

/-- A command that changes one port last, after changes of Edge, and sends the other end a message. -/
theorem sent_answersFrom (hu : Only [.edg] s u) (he : exec i s = .next (send k p args (setPort p x u))) :
    Answers i s fun t => port t p = x ∧ t.out = .msg k p args [] :: s.out ∧ Only [.edg, .out] s t := by
  have hout : u.out = s.out := hu .out (by decide)
  refine ⟨_, he, port_setPort_same p x u, ?_, (hu.trans (only_setPort p x u)).seq (only_send _ _ _ _)⟩
  rw [send, emit_out, setPort_out, hout]

/-- A command that changes one port and sends the other end a message. -/
theorem sent_answers (he : exec i s = .next (send k p args (setPort p x s))) :
    Answers i s fun t => port t p = x ∧ t.out = .msg k p args [] :: s.out ∧ Only [.edg, .out] s t :=
  sent_answersFrom (.refl _ s) he

/-- A command that changes one port, sends a message and reports. -/
theorem sent_reports (he : exec i s = .next t) (ht : Only [.cmp] (send k p args (setPort p x s)) t) :
    Answers i s fun t => port t p = x ∧ t.out = .msg k p args [] :: s.out ∧ Only [.edg, .cmp, .out] s t :=
  ⟨t, he, (port_of_only ht (by decide) p).trans (port_setPort_same p x s), ht .out (by decide),
    (((only_setPort p x s).seq (only_send _ _ _ _)).seq ht).mono (by decide)⟩

/-! ### Lanes -/

theorem length_listSet {α : Type} (xs : List α) (j : Nat) (y : α) : (listSet xs j y).length = xs.length := by
  induction xs generalizing j with
  | nil => rfl
  | cons a xs ih =>
    cases j with
    | zero => rfl
    | succ j => exact congrArg (· + 1) (ih j)

theorem getD_listSet {α : Type} (xs : List α) (i j : Nat) (y d : α) :
    (listSet xs j y).getD i d = if i = j ∧ j < xs.length then y else xs.getD i d := by
  induction xs generalizing i j with
  | nil => simp [listSet]
  | cons a xs ih =>
    cases j with
    | zero => cases i <;> simp [listSet]
    | succ j =>
      cases i with
      | zero => simp [listSet]
      | succ i => simpa [listSet] using ih i j

theorem laneOf_setLane_same {j : Nat} (h : j < x.lanes.length) (y : Lane) : laneOf (setLane j y x) j = y := by
  rw [laneOf, setLane, getD_listSet, if_pos ⟨rfl, h⟩]

/-- A lane's receive state does not reach past the state that is set next. -/
theorem rx_laneOf_setLane (x : Port) (i j : Nat) (a b : LaneSt) :
    { laneOf (setLane j { laneOf x j with rx := a } x) i with rx := b } = { laneOf x i with rx := b } := by
  simp only [laneOf, setLane, getD_listSet]
  split
  · next h => rw [h.1]
  · rfl

theorem length_setLane (j : Nat) (y : Lane) (x : Port) : (setLane j y x).lanes.length = x.lanes.length := length_listSet ..

theorem only_recordRetired (r : Retired) (s : State) : Only [.cmp] s (recordRetired r s) :=
  .ite (only_cmp _ s) ((only_cmp _ s).trans (only_report _ _ _ _ _))

theorem only_laneRetired (p j cause : Nat) (s : State) : Only [.cmp] s (laneRetired p j cause s) :=
  (only_recordRetired _ s).trans (only_report _ _ _ _ _)

end Sys2Proof.Machine
end

section
/-!
Live calibration and lane sparing (R473 to R477, R499): the transmitter's answers, the receiver's steps, and the retirement of a lane.
-/
namespace Sys2Proof.Machine

variable {s : State} {p pos l sp : Nat} {x : Port} {rest : List Nat} {r : LaneReq} {c : Cal} {m : LaneMsg} {y : Lane}

/-! ### The transmitter (R473, R476) -/

theorem laneReqShadow_shadows (hst : (port s p).st = .up) (hl : lanesWith (port s p) (fun y => y.tx == .spare) = l :: rest) :
    exec (.laneReqShadow p pos) s = .next (send .laneAck p [1, pos]
      (setPort p (setLane l { laneOf (port s p) l with tx := .shadow, txPos := pos } (port s p)) s)) := by
  change execLaneReqShadow p pos s = _
  simp [execLaneReqShadow, hst, hl]

theorem laneReqRelease_releases (hst : (port s p).st = .up)
    (hl : lanesWith (port s p) (fun y => y.tx == .shadow && y.txPos == pos) = l :: rest) :
    exec (.laneReqRelease p pos) s = .next (send .laneAck p [2, pos]
      (setPort p (setLane l { laneOf (port s p) l with tx := .spare } (port s p)) s)) := by
  change execLaneReqRelease p pos s = _
  simp [execLaneReqRelease, hst, hl]

/-- The port with the lane that carried a position dark, if one did. -/
def darkened (k : Nat) (x : Port) : Port := setLane k { laneOf x k with tx := .retired } x

theorem laneReqRetire_retires {k : Nat} (hst : (port s p).st = .up)
    (hl : lanesWith (port s p) (fun y => y.tx == .shadow && y.txPos == pos) = l :: rest) (hk : txAtPos (port s p) pos = some k) :
    exec (.laneReqRetire p pos) s = .next (laneRetired p k 0 (send .laneAck p [3, pos] (setPort p
      (setLane l { laneOf (darkened k (port s p)) l with tx := .active } (darkened k (port s p))) s))) := by
  change execLaneReqRetire p pos s = _
  simp [execLaneReqRetire, hst, hl, hk, darkened]

/-- R476: the transmitter's lanes once the map `m` is taken. -/
def degradedTx (m : LaneMsg) (ls : List Lane) : List Lane :=
  (ls.zipIdx).map fun y => if m.map.contains y.2 then { y.1 with tx := .active, txPos := m.map.idxOf y.2 }
    else if y.2 = m.spare0 ∨ y.2 = m.spare1 then { y.1 with tx := .spare } else if y.1.tx = .active then { y.1 with tx := .retired } else y.1

/-- The port with a narrower transmitter. -/
def degraded (m : LaneMsg) (s : State) (x : Port) : Port := { rebaseCtr s x with txWidth := m.width, lanes := degradedTx m x.lanes }

/-- The lanes that a map leaves out are retired before the answer is sent, and each retirement is noted by Compass alone. -/
theorem laneReqDegrade_degrades (hst : (port s p).st = .up) (hw : m.width ≤ 2) (hm : m.map.length = positions (port s p) m.width) :
    ∃ gone : List Nat, exec (.laneReqDegrade p m) s = .next (report .edgWidthChanged .edge (port s p).part [p, m.width]
      (send .laneAck p [4] (gone.foldl (fun u k => laneRetired p k 0 u) (setPort p (degraded m s (port s p)) s)))) := by
  refine ⟨(List.range (port s p).lanes.length).filter fun i =>
    ((degradedTx m (port s p).lanes).getD i {}).tx == .retired && (laneOf (port s p) i).tx != .retired, ?_⟩
  change execLaneReqDegrade p m s = _
  have hnot : ¬ 2 < m.width := by omega
  simp [execLaneReqDegrade, hst, hnot, hm, degraded, degradedTx]

theorem laneReqDegrade_answers (hst : (port s p).st = .up) (hw : m.width ≤ 2) (hm : m.map.length = positions (port s p) m.width) :
    Answers (.laneReqDegrade p m) s fun t =>
      port t p = degraded m s (port s p) ∧ t.out = .msg .laneAck p [4] [] :: s.out ∧ Only [.edg, .cmp, .out] s t := by
  obtain ⟨gone, he⟩ := laneReqDegrade_degrades hst hw hm
  exact sent_reports he ((only_send_send (.foldl fun _ _ => only_laneRetired _ _ _ _)).trans (only_report _ _ _ _ _))

/-! ### The receiver is answered (R473, R476) -/

theorem laneAck_ends (hr : (port s p).laneReq = some r) (ha : r.action = 1 ∨ r.action = 2) :
    exec (.laneAck p r.action r.msg.pos) s = .next (setPort p { port s p with laneReq := none } s) := by
  have h3 : r.action ≠ 3 := by omega
  have h4 : r.action ≠ 4 := by omega
  change execLaneAck p _ _ s = _
  simp [execLaneAck, hr, h3, h4]

theorem laneAck_retires (hr : (port s p).laneReq = some r) (ha : r.action = 3) :
    exec (.laneAck p 3 r.msg.pos) s = .next (laneRetired p r.lane r.cause (setPort p
      (setLane r.lane { laneOf (port s p) r.lane with rx := .retired } { port s p with laneReq := none, lastCause := r.cause }) s)) := by
  change execLaneAck p _ _ s = _
  simp [execLaneAck, hr, ha]
  rfl

/-- R476: the receiver's lanes once the map of its request is taken. -/
def degradedRx (r : LaneReq) (ls : List Lane) : List Lane :=
  (ls.zipIdx).map fun y => if y.2 = r.lane ∨ y.1.rx = .retired then { y.1 with rx := .retired }
    else if r.msg.map.contains y.2 then { y.1 with rx := .active, rxPos := r.msg.map.idxOf y.2 }
    else if y.2 = r.msg.spare0 ∨ y.2 = r.msg.spare1 then { y.1 with rx := .spare } else { y.1 with rx := .dark }

theorem laneAck_narrows (hr : (port s p).laneReq = some r) (ha : r.action = 4) :
    exec (.laneAck p 4 pos) s = .next (report .edgWidthChanged .edge (port s p).part [p, r.msg.width] (laneRetired p r.lane r.cause (setPort p
      { port s p with laneReq := none, rxWidth := r.msg.width, lastCause := r.cause, lanes := degradedRx r (port s p).lanes } s))) := by
  change execLaneAck p _ _ s = _
  simp [execLaneAck, hr, ha, degradedRx]

/-! ### Thresholds (R475) -/

/-- The times of a lane's losses of lock within the last 10 s. -/
def recentLocks (s : State) (y : Lane) : List Nat := y.lol.filter fun a => decide (s.ft < a + 10000000000)

theorem laneLossOfLock_notes (h : l < (port s p).lanes.length) :
    exec (.laneLossOfLock p l) s = .next (setPort p
      (setLane l { laneOf (port s p) l with lol := s.ft :: recentLocks s (laneOf (port s p) l) } (port s p)) s) := by
  change Host.Outcome.next (if _ then _ else _) = _
  rw [if_neg (Nat.not_le.2 h)]
  rfl

theorem lol_rollLane (ft : Nat) (y : Lane) : (rollLane ft y).lol = y.lol := by
  dsimp only [rollLane]
  split_ifs <;> rfl

theorem rx_rollLane (ft : Nat) (y : Lane) : (rollLane ft y).rx = y.rx := by
  dsimp only [rollLane]
  split_ifs <;> rfl

/-- The state with a lane's window brought up to now, and what is told of its SER. -/
def rolled (p l : Nat) (ser : Bool) (y : Lane) (s : State) : State := setPort p (setLane l { y with serHigh := ser } (port s p)) s

theorem exec_laneRetireTrigger {ser : Bool} (hl : l < (port s p).lanes.length) (hy : rollLane s.ft (laneOf (port s p) l) = y) :
    exec (.laneRetireTrigger p l ser) s = .next
      (if 3 ≤ y.windows then retireLane p l 1 (rolled p l ser y s)
      else if 2 ≤ (recentLocks s y).length then retireLane p l 3 (rolled p l ser y s)
      else if ser then retireLane p l 2 (rolled p l ser y s) else rolled p l ser y s) := by
  subst hy
  change Host.Outcome.next (if _ then _ else _) = _
  rw [if_neg (Nat.not_le.2 hl)]
  rfl

theorem laneOf_rolled {ser : Bool} (hl : l < (port s p).lanes.length) : laneOf (port (rolled p l ser y s) p) l = { y with serHigh := ser } := by
  rw [rolled, port_setPort_same, laneOf_setLane_same hl]

theorem length_rolled {ser : Bool} : (port (rolled p l ser y s) p).lanes.length = (port s p).lanes.length := by
  rw [rolled, port_setPort_same, length_setLane]

/-- R472: a port that is down stays so. -/
theorem portDown_down (h : (port s p).st = .down) : portDown p s = s := if_pos (by simp [h])

/-- R476: an active lane of a port that has a spare and calibrates none is retired onto the spare. -/
theorem retireLane_asks {cause : Nat} (hl : l < (port s p).lanes.length) (hm : (port s p).mode = .xcl) (hc : (port s p).cal = none)
    (ha : (laneOf (port s p) l).rx = .active) (hs : rxSpare (port s p) = some sp) :
    retireLane p l cause s = askShadow p (laneOf (port s p) l).rxPos l sp (some cause) s := by
  simp [retireLane, hl, hm, hc, ha, hs]

/-- R477: an Ethernet port that is down already only notes the cause. -/
theorem retireLane_ethDown {cause : Nat} (hl : l < (port s p).lanes.length) (hm : (port s p).mode = .eth)
    (ha : (laneOf (port s p) l).rx ≠ .retired) (hst : (port s p).st = .down) :
    retireLane p l cause s = setPort p { port s p with lastCause := cause } s := by
  have hdown : (port (setPort p { port s p with lastCause := cause } s) p).st = .down := by rw [port_setPort_same]; exact hst
  unfold retireLane
  dsimp only
  rw [if_neg (by simp [hl, hm, ha]), if_pos hm]
  exact portDown_down hdown

theorem laneRetireTrigger_asks {ser : Bool} (hm : (port s p).mode = .xcl) (hc : (port s p).cal = none) (hl : l < (port s p).lanes.length)
    (hy : rollLane s.ft (laneOf (port s p) l) = y) (hw : 3 ≤ y.windows) (ha : y.rx = .active)
    (hs : rxSpare (setLane l { y with serHigh := ser } (port s p)) = some sp) :
    exec (.laneRetireTrigger p l ser) s = .next (askShadow p y.rxPos l sp (some 1) (rolled p l ser y s)) := by
  have hport : port (rolled p l ser y s) p = setLane l { y with serHigh := ser } (port s p) := port_setPort_same ..
  have hlane : laneOf (port (rolled p l ser y s) p) l = { y with serHigh := ser } := laneOf_rolled hl
  rw [exec_laneRetireTrigger hl hy, if_pos hw, retireLane_asks (by rwa [length_rolled]) (by rw [hport]; exact hm) (by rw [hport]; exact hc)
    (by rw [hlane]; exact ha) (by rw [hport]; exact hs), hlane]

/-- R475, R477: a lane that lost lock twice within 10 s. -/
theorem laneRetireTrigger_ethDown (hm : (port s p).mode = .eth) (hl : l < (port s p).lanes.length)
    (hlock : 2 ≤ (recentLocks s (laneOf (port s p) l)).length) (hw : (rollLane s.ft (laneOf (port s p) l)).windows < 3)
    (hr : (laneOf (port s p) l).rx ≠ .retired) (hst : (port s p).st = .down) :
    exec (.laneRetireTrigger p l false) s = .next (setPort p
      { port (rolled p l false (rollLane s.ft (laneOf (port s p) l)) s) p with lastCause := 3 }
      (rolled p l false (rollLane s.ft (laneOf (port s p) l)) s)) := by
  have hlocks : 2 ≤ (recentLocks s (rollLane s.ft (laneOf (port s p) l))).length := by rwa [recentLocks, lol_rollLane]
  have hport : port (rolled p l false (rollLane s.ft (laneOf (port s p) l)) s) p = _ := port_setPort_same ..
  have hrx : (laneOf (port (rolled p l false (rollLane s.ft (laneOf (port s p) l)) s) p) l).rx ≠ .retired := by
    rw [laneOf_rolled hl]
    exact (rx_rollLane ..).symm ▸ hr
  rw [exec_laneRetireTrigger hl rfl, if_neg (by omega), if_pos hlocks, retireLane_ethDown (by rwa [length_rolled]) (by rw [hport]; exact hm) hrx
    (by rw [hport]; exact hst)]

/-! ### The receiver's steps (R473, R476) -/

/-- The spare carries the position of a calibration or a retirement. -/
def onSpare (c : Cal) (x : Port) : Port := setLane c.spare { laneOf x c.spare with rx := .active, rxPos := c.pos } x

theorem calShadowReady_tunes (hc : (port s p).cal = some c) (hp : c.phase = .shadow) (hr : c.retire = none) :
    exec (.calShadowReady p) s = .next (setPort p
      { setLane c.lane { laneOf (onSpare c (port s p)) c.lane with rx := .calibrating } (onSpare c (port s p)) with
        cal := some { c with phase := .tuning } } s) := by
  change execCalShadowReady p s = _
  simp [execCalShadowReady, hc, hp, hr, onSpare]

/-- The receiver has what it retires on the spare, and asks the transmitter to make the spare the position. -/
def askedRetire (c : Cal) (cause : Nat) (x : Port) : Port :=
  { setLane c.lane { laneOf (onSpare c x) c.lane with rx := .shadow } (onSpare c x) with
    cal := none, laneReq := some { action := 3, msg := { pos := c.pos }, lane := c.lane, cause := cause } }

theorem calShadowReady_retires {cause : Nat} (hc : (port s p).cal = some c) (hp : c.phase = .shadow) (hr : c.retire = some cause)
    (hn : c.next = none) :
    exec (.calShadowReady p) s = .next (send .laneReq p [3, c.pos] (setPort p (askedRetire c cause (port s p)) s)) := by
  change execCalShadowReady p s = _
  simp [execCalShadowReady, hc, hp, hr, hn, askedRetire, onSpare]

theorem calTuneEnd_verifies (hc : (port s p).cal = some c) (hp : c.phase = .tuning) :
    exec (.calTuneEnd p) s = .next (setPort p { port s p with cal := some { c with phase := .verify } } s) := by
  change execCalTuneEnd p s = _
  simp [execCalTuneEnd, hc, hp]

theorem calVerifyEnd_fails (hc : (port s p).cal = some c) (hp : c.phase = .verify) :
    exec (.calVerifyEnd p false) s = .next (setPort p { port s p with cal := some { c with phase := .restored } } s) := by
  change execCalVerifyEnd p false s = _
  simp [execCalVerifyEnd, hc, hp]

/-- The lane carries its position again, and the spare none. -/
def takenBack (c : Cal) (x : Port) : Port :=
  setLane c.lane { laneOf (setLane c.spare { laneOf x c.spare with rx := .spare } x) c.lane with rx := .active }
    (setLane c.spare { laneOf x c.spare with rx := .spare } x)

theorem calVerifyEnd_passes (hc : (port s p).cal = some c) (hp : c.phase = .verify ∨ c.phase = .restored) (hn : c.next = none) :
    exec (.calVerifyEnd p true) s = .next (send .laneReq p [2, c.pos] (setPort p
      { takenBack c (port s p) with cal := none, laneReq := some { action := 2, msg := { pos := c.pos } } } s)) := by
  have hphase : (c.phase != .verify && c.phase != .restored) = false := by rcases hp with hp | hp <;> rw [hp] <;> rfl
  change execCalVerifyEnd p true s = _
  simp only [execCalVerifyEnd, hc, hphase, hn, takenBack, rx_laneOf_setLane]
  rfl

/-- Settles O53: each command changes the port's lanes, and what it tells the other end follows. -/
theorem laneSparing : Obligations.LaneSparing := by
  refine ⟨?shadow, ?release, ?retire, ?degrade, ?ended, ?retired, ?narrowed, ?lock, ?asks, ?below, ?eth, ?tunes, ?onSpare, ?verifies, ?fails,
    ?passes⟩
  case shadow => rintro s p _ pos l rest rfl hst hl; exact sent_answers (laneReqShadow_shadows hst hl)
  case release => rintro s p _ pos l rest rfl hst hl; exact sent_answers (laneReqRelease_releases hst hl)
  case retire =>
    rintro s p _ pos l k rest rfl hst hl hk
    exact sent_reports (laneReqRetire_retires hst hl hk) (only_laneRetired _ _ _ _)
  case degrade => rintro s p _ m rfl hst hw hm; exact laneReqDegrade_answers hst hw hm
  case ended => rintro s p _ r rfl hr ha; exact setPort_answers (laneAck_ends hr ha)
  case retired => rintro s p _ r rfl hr ha; exact setPort_reports (laneAck_retires hr ha) (only_laneRetired _ _ _ _)
  case narrowed =>
    rintro s p _ r pos rfl hr ha
    exact setPort_reports (laneAck_narrows hr ha) ((only_laneRetired _ _ _ _).trans (only_report _ _ _ _ _))
  case lock => exact fun s p l h => setPort_answers (laneLossOfLock_notes h)
  case asks =>
    rintro s p _ l sp ser y rfl hm hc hl hy hw ha hs
    have hport : port (rolled p l ser y s) p = setLane l { y with serHigh := ser } (port s p) := port_setPort_same ..
    obtain ⟨t, ht, hp, hout, honly⟩ := sent_answersFrom (only_setPort p _ s) (laneRetireTrigger_asks hm hc hl hy hw ha hs)
    exact ⟨t, ht, by rw [hp, hport], hout, honly⟩
  case below =>
    rintro s p _ l y rfl hl hy hw hlock
    have hfew : (recentLocks s y).length < 2 := hlock
    refine setPort_answers ((exec_laneRetireTrigger hl hy).trans ?_)
    rw [if_neg (by omega), if_neg (Nat.not_le.2 hfew), if_neg (by decide), rolled]
  case eth =>
    rintro s p _ l rfl hm hl hlock hw hr hst
    obtain ⟨t, ht, hport, honly⟩ := setPort_answersFrom (only_setPort p _ s) (laneRetireTrigger_ethDown hm hl hlock hw hr hst)
    exact ⟨t, ht, by rw [hport], honly⟩
  case tunes => rintro s p _ c rfl hc hp hr; exact setPort_answers (calShadowReady_tunes hc hp hr)
  case onSpare =>
    rintro s p _ c cause rfl hc hp hr hn
    obtain ⟨t, ht, hport, hout, honly⟩ := sent_answers (calShadowReady_retires hc hp hr hn)
    exact ⟨t, ht, by rw [hport, askedRetire], by rw [hport, askedRetire], hout, honly⟩
  case verifies => rintro s p _ c rfl hc hp; exact setPort_answers (calTuneEnd_verifies hc hp)
  case fails => rintro s p _ c rfl hc hp; exact setPort_answers (calVerifyEnd_fails hc hp)
  case passes => rintro s p _ c rfl hc hp hn; exact sent_answers (calVerifyEnd_passes hc hp hn)

end Sys2Proof.Machine
end

section
/-!
Agreements of link epochs (R511, R512): the table of those in progress, and what asking for one, a proposal and its answer leave.
-/
namespace Sys2Proof.Machine

variable {s t u : State} {p q e r tag : Nat} {a b : Agree}

/-! ### The table of agreements -/

theorem agreeOf_eq_none : agreeOf s p = none ↔ ∀ a ∈ s.edg.agrees, a.port ≠ p := by
  simp [agreeOf]

theorem port_of_agreeOf (h : agreeOf s p = some a) : a.port = p := by simpa using List.find?_some h

theorem agreeOf_of_agrees (h : t.edg.agrees = s.edg.agrees) (p : Nat) : agreeOf t p = agreeOf s p := by rw [agreeOf, h, agreeOf]

theorem only_setAgree (a : Agree) (s : State) : Only [.edg] s (setAgree a s) := only_modEdge _ s

/-- The agreement of a port is replaced by another of the same port. -/
theorem agreeOf_setAgree (h : agreeOf s p = some a) (hp : b.port = p) : agreeOf (setAgree b s) p = some b := by
  have ha : a.port = p := port_of_agreeOf h
  have hfind : s.edg.agrees.find? ((fun x => x.port == p) ∘ fun x => if x.port = b.port then b else x) = some a := by
    rw [← h, agreeOf]
    congr 1
    funext x
    subst hp
    by_cases hx : x.port = b.port <;> simp [hx]
  rw [agreeOf, setAgree, modEdge_edg, List.find?_map, hfind, Option.map_some, if_pos (ha.trans hp.symm)]

/-- An agreement that joins the table of those in progress. -/
def addAgree (a : Agree) (s : State) : State := modEdge (fun e => { e with agrees := e.agrees ++ [a] }) s

theorem only_addAgree (a : Agree) (s : State) : Only [.edg] s (addAgree a s) := only_modEdge _ s

theorem agreeOf_addAgree (h : agreeOf s a.port = none) : agreeOf (addAgree a s) a.port = some a := by
  have hnone : s.edg.agrees.find? (·.port == a.port) = none := h
  rw [agreeOf, addAgree, modEdge_edg, List.find?_append, hnone]
  simp

/-- The agreement that has just joined is replaced. -/
theorem setAgree_addAgree (h : agreeOf s a.port = none) (hp : b.port = a.port) : setAgree b (addAgree a s) = addAgree b s := by
  have hkept : s.edg.agrees.map (fun x => if x.port = b.port then b else x) = s.edg.agrees := by
    refine (List.map_congr_left fun x hx => if_neg ?_).trans (List.map_id' _)
    rw [hp]
    exact agreeOf_eq_none.1 h x hx
  simp only [setAgree, addAgree, modEdge, List.map_append, hkept, List.map_cons, List.map_nil]
  rw [if_pos hp.symm]

/-- The agreement that has just joined is dropped. -/
theorem dropAgree_addAgree (h : agreeOf s a.port = none) : dropAgree a.port (addAgree a s) = s := by
  have hkept : s.edg.agrees.filter (fun x => x.port != a.port) = s.edg.agrees :=
    List.filter_eq_self.2 fun x hx => by simpa using agreeOf_eq_none.1 h x hx
  simp [dropAgree, addAgree, modEdge, hkept]

/-! ### An agreement asked for (R460, R511) -/

/-- Nothing keeps port `p` from proposing an epoch to its peer, whose record is `r` of the store: the peer is known, and neither
this port nor another has an agreement with it. -/
structure Proposes (s : State) (p tag r : Nat) : Prop where
  peer : peerOfPort s p = some tag
  idle : agreeOf s p = none
  record : recOfTag s tag = some r
  alone : ∀ a ∈ s.edg.agrees, a.tag ≠ tag

theorem startAgree_begins {rekey : Bool} (h : Proposes s p tag r) :
    startAgree p rekey none s = beginAgree p (addAgree { port := p, tag := tag, rekey := rekey } s) := by
  simp only [startAgree, h.peer, h.idle]
  rfl

/-- What an agreement that has just joined comes to as it begins. -/
theorem beginAgree_addAgree {rekey : Bool} (h : Proposes s p tag r) :
    beginAgree p (addAgree { port := p, tag := tag, rekey := rekey } s) =
      if 0xFFFFFFFF < recValue s r + 1 then modPort p (fun x => { x with st := .refused }) s
      else send .linkRekey p [recValue s r + 1]
        (addAgree { port := p, tag := tag, rekey := rekey, begun := true, own := recValue s r + 1, since := s.ft } s) := by
  have hmine : agreeOf (addAgree { port := p, tag := tag, rekey := rekey } s) p = some { port := p, tag := tag, rekey := rekey } :=
    agreeOf_addAgree h.idle
  have hrec : recOfTag (addAgree { port := p, tag := tag, rekey := rekey } s) tag = some r := h.record
  have hvalue : recValue (addAgree { port := p, tag := tag, rekey := rekey } s) r = recValue s r := rfl
  have hfirst : (addAgree { port := p, tag := tag, rekey := rekey } s).edg.agrees.any (fun x => x.begun && x.tag == tag) = false := by
    rw [addAgree, modEdge_edg, List.any_append, List.any_eq_false.2 fun x hx => by simp [h.alone x hx]]
    rfl
  have hdrop : dropAgree p (addAgree { port := p, tag := tag, rekey := rekey } s) = s := dropAgree_addAgree h.idle
  have hset := setAgree_addAgree (a := { port := p, tag := tag, rekey := rekey })
    (b := { port := p, tag := tag, rekey := rekey, begun := true, own := recValue s r + 1, since := s.ft }) h.idle rfl
  unfold beginAgree
  simp only [hmine, hrec, hfirst, Option.map_some, Option.getD_some, hvalue, hdrop]
  rw [← hset]
  rfl

theorem startAgree_proposes {rekey : Bool} (h : Proposes s p tag r) (hv : recValue s r < 0xFFFFFFFF) :
    startAgree p rekey none s = send .linkRekey p [recValue s r + 1]
      (addAgree { port := p, tag := tag, rekey := rekey, begun := true, own := recValue s r + 1, since := s.ft } s) := by
  rw [startAgree_begins h, beginAgree_addAgree h, if_neg (by omega)]

theorem startAgree_exhausted {rekey : Bool} (h : Proposes s p tag r) (hv : 0xFFFFFFFF ≤ recValue s r) :
    startAgree p rekey none s = modPort p (fun x => { x with st := .refused }) s := by
  rw [startAgree_begins h, beginAgree_addAgree h, if_pos (by omega)]

end Sys2Proof.Machine
end

section
/-!
How a link comes up and is rekeyed (R460, R467, R471, R510 to R513).
-/
namespace Sys2Proof.Machine

variable {s : State} {p e q r tag : Nat} {a : Agree} {x : Port}

/-! ### Training (R471 steps 1 and 2) -/

/-- Lanes aligned on a port that is down, of a running switch and in no gang. -/
theorem exec_linkAligned (hst : (port s p).st = .down) (hm : (port s p).mode ≠ .unused) (hg : (port s p).gang = none)
    (hb : s.cmp.boot = .running) : exec (.linkAligned p) s = .next
      (if (port s p).mode = .xcl && (port s p).peer.isNone then report .edgNoPeerKey .edge (port s p).part [p] s
      else if !canTrain s p then s
      else if (port s p).mode = .eth then setPort p { port s p with st := .up, since := s.ft, lastGood := s.ft } s
      else send .linkHello p [1, if s.cmp.roleB then 2 else 1, b2n (!(port s p).noSpare)]
        (setPort p { port s p with st := .training, since := s.ft } s)) := by
  change Host.Outcome.next (if _ then _ else _) = _
  rw [if_neg (by simp [hst, hm, hg, hb])]

theorem linkAligned_trains (hm : (port s p).mode = .xcl) (hpeer : (port s p).peer.isSome = true) (hst : (port s p).st = .down)
    (hg : (port s p).gang = none) (hb : s.cmp.boot = .running) (hc : canTrain s p = true) :
    exec (.linkAligned p) s = .next (send .linkHello p [1, if s.cmp.roleB then 2 else 1, b2n (!(port s p).noSpare)]
      (setPort p { port s p with st := .training, since := s.ft } s)) := by
  have hknown : (port s p).peer.isNone = false := by simpa [Option.isSome_iff_ne_none] using hpeer
  rw [exec_linkAligned hst (by rw [hm]; decide) hg hb, if_neg (by simp [hknown]), if_neg (by simp [hc]), if_neg (by simp [hm])]

theorem linkAligned_eth (hm : (port s p).mode = .eth) (hst : (port s p).st = .down) (hg : (port s p).gang = none)
    (hb : s.cmp.boot = .running) (hc : canTrain s p = true) :
    exec (.linkAligned p) s = .next (setPort p { port s p with st := .up, since := s.ft, lastGood := s.ft } s) := by
  rw [exec_linkAligned hst (by rw [hm]; decide) hg hb, if_neg (by simp [hm]), if_neg (by simp [hc]), if_pos hm]

/-- R510: an XCL port without a peer's identity is reported at most. -/
theorem linkAligned_noPeer (hm : (port s p).mode = .xcl) (hpeer : (port s p).peer = none) :
    Answers (.linkAligned p) s fun t => t.edg = s.edg ∧ Only [.cmp] s t := by
  have honly : Only [.cmp] s (report .edgNoPeerKey .edge (port s p).part [p] s) := only_report _ _ _ _ _
  refine ⟨ite _ s (report .edgNoPeerKey .edge (port s p).part [p] s),
    congrArg Host.Outcome.next (congrArg (ite _ s) (if_pos (by simp [hm, hpeer]))), ?_, .ite (.refl _ s) honly⟩
  split
  · rfl
  · exact honly .edg (by decide)

/-! ### HELLO and the agreement of the first epoch (R467, R511) -/

theorem peerOfPort_face (hp : isPair p = false) : peerOfPort s p = (port s p).peer := by
  rw [peerOfPort, hp]
  rfl

/-- A port's change that leaves its peer leaves what it can propose. -/
theorem Proposes.setPort (h : Proposes s p tag r) (hp : isPair p = false) (hx : x.peer = (port s p).peer) :
    Proposes (setPort p x s) p tag r := by
  refine ⟨?_, h.idle, h.record, h.alone⟩
  rw [peerOfPort_face hp, port_setPort_same, hx, ← peerOfPort_face hp, h.peer]

/-- The port as HELLO leaves it: its next step begins, and where the other end has no spare its own are dark. -/
def helloed (spare : Bool) (ft : Nat) (x : Port) : Port :=
  { x with st := .keying, since := ft, noSpare := !spare, lanes := if spare then x.lanes else x.lanes.map fun y =>
      { y with rx := if y.rx = .spare then .dark else y.rx, tx := if y.tx = .spare then .dark else y.tx } }

theorem hello_keys {role : Nat} {spare : Bool} (hp : isPair p = false) (hst : (port s p).st = .training) :
    exec (.hello p 1 role spare) s = .next (startAgree p false none (setPort p (helloed spare s.ft (port s p)) s)) := by
  change Host.Outcome.next (if _ then _ else _) = _
  rw [if_neg (by simp [hst]), hp]
  rfl

theorem hello_proposes {role : Nat} {spare : Bool} (hp : isPair p = false) (hst : (port s p).st = .training) (h : Proposes s p tag r)
    (hv : recValue s r < 0xFFFFFFFF) : Answers (.hello p 1 role spare) s fun t =>
      port t p = helloed spare s.ft (port s p) ∧
      t.edg.agrees = s.edg.agrees ++ [{ port := p, tag := tag, begun := true, own := recValue s r + 1, since := s.ft }] ∧
      t.out = .msg .linkRekey p [recValue s r + 1] [] :: s.out ∧ Only [.edg, .out] s t := by
  have hprop : Proposes (setPort p (helloed spare s.ft (port s p)) s) p tag r := h.setPort hp rfl
  refine ⟨_, (hello_keys hp hst).trans (congrArg Host.Outcome.next (startAgree_proposes hprop hv)), port_setPort_same p _ s, rfl, rfl, ?_⟩
  exact ((only_setPort p _ s).trans (only_addAgree _ _)).seq (only_send _ _ _ _)

theorem hello_otherVersion {version role : Nat} {spare : Bool} (hv : version ≠ 1) : Answers (.hello p version role spare) s fun t => t = s :=
  ⟨s, congrArg Host.Outcome.next (if_pos (by simp [hv])), rfl⟩

/-! ### Rekeying (R460, R511) -/

theorem exec_rekeyStart (hm : (port s p).mode = .xcl) (hst : (port s p).st = .up) (hc : 2 ^ 40 ≤ txCtrOf s (port s p)) :
    exec (.rekeyStart p) s = .next (startAgree p true none s) := by
  refine congrArg Host.Outcome.next ((if_pos (by simpa using hc)).trans (if_pos ?_))
  simp [hm, hst]

theorem rekeyStart_proposes (hm : (port s p).mode = .xcl) (hst : (port s p).st = .up) (hc : 2 ^ 40 ≤ txCtrOf s (port s p))
    (h : Proposes s p tag r) (hv : recValue s r < 0xFFFFFFFF) : Answers (.rekeyStart p) s fun t =>
      port t p = port s p ∧
      t.edg.agrees = s.edg.agrees ++ [{ port := p, tag := tag, rekey := true, begun := true, own := recValue s r + 1, since := s.ft }] ∧
      t.out = .msg .linkRekey p [recValue s r + 1] [] :: s.out ∧ Only [.edg, .out] s t :=
  ⟨_, (exec_rekeyStart hm hst hc).trans (congrArg Host.Outcome.next (startAgree_proposes h hv)), rfl, rfl, rfl,
    (only_addAgree _ s).seq (only_send _ _ _ _)⟩

theorem rekeyStart_refuses (hm : (port s p).mode = .xcl) (hst : (port s p).st = .up) (hc : 2 ^ 40 ≤ txCtrOf s (port s p))
    (h : Proposes s p tag r) (hv : 0xFFFFFFFF ≤ recValue s r) : Answers (.rekeyStart p) s fun t =>
      port t p = { port s p with st := .refused } ∧ t.edg.agrees = s.edg.agrees ∧ Only [.edg] s t :=
  ⟨_, (exec_rekeyStart hm hst hc).trans (congrArg Host.Outcome.next (startAgree_exhausted h hv)), port_setPort_same p _ s, rfl,
    only_setPort p _ s⟩

/-! ### Proposals and their answers (R511, R512) -/

theorem only_queueCommit (c : Commit) (s : State) : Only [.per] s (queueCommit c s) := .of fun p => by cases p <;> simp [SamePart, queueCommit]

/-- R511: with no commit before it, the higher of the two proposals is committed at once. -/
theorem agreeCommit_first (hq : a.peer = some q) (hc : s.per.commits = []) (hr : recOfTag s a.tag = some r) :
    agreeCommit a s = queueCommit { record := r, value := max a.own q, tag := a.tag, why := .agree a.port }
      (setAgree { a with epoch := some (max a.own q), queued := none } s) := by
  simp only [agreeCommit, hq, hc, hr]
  rfl

theorem rekey_commits (hst : (port s p).st = .keying ∨ (port s p).st = .up) (he : e ≠ 0) (ha : agreeOf s p = some a) (hpeer : a.peer = none)
    (hb : a.begun = true) (hc : s.per.commits = []) (hr : recOfTag s a.tag = some r) : Answers (.rekey p e) s fun t =>
      agreeOf t p = some { a with peer := some e, epoch := some (max a.own e), queued := none } ∧
      t.per.commits = [{ record := r, value := max a.own e, tag := a.tag, why := .agree p }] ∧ Only [.edg, .per] s t := by
  have hport : a.port = p := port_of_agreeOf ha
  have hopen : ((port s p).st != .keying && (port s p).st != .up && (port s p).st != .stopped) = false := by
    rcases hst with hst | hst <;> rw [hst] <;> rfl
  have hexec : exec (.rekey p e) s = .next (agreeCommit { a with peer := some e } (setAgree { a with peer := some e } s)) := by
    change execRekey p e s = _
    simp [execRekey, hopen, he, ha, hpeer, hb]
  refine ⟨_, hexec.trans (congrArg Host.Outcome.next (agreeCommit_first (a := { a with peer := some e }) rfl hc hr)), ?_, ?_, ?_⟩
  · exact agreeOf_setAgree (agreeOf_setAgree ha hport) hport
  · change s.per.commits ++ [_] = _
    rw [hc, hport]
    rfl
  · exact ((only_setAgree _ s).trans (only_setAgree _ _)).seq (only_queueCommit _ _)

theorem rekey_zero (hst : (port s p).st = .keying ∨ (port s p).st = .up) :
    Answers (.rekey p 0) s fun t => Answers (.portDown p) s fun u => t = u := by
  have hopen : ((port s p).st != .keying && (port s p).st != .up && (port s p).st != .stopped) = false := by
    rcases hst with hst | hst <;> rw [hst] <;> rfl
  refine ⟨portDown p s, ?_, _, rfl, rfl⟩
  change execRekey p 0 s = _
  simp [execRekey, hopen]

theorem rekeyResend_sends (ha : agreeOf s p = some a) (hb : a.begun = true) (hpeer : a.peer = none) (ht : a.since + 1000000 ≤ s.ft) :
    Answers (.rekeyResend p) s fun t =>
      agreeOf t p = some { a with since := s.ft } ∧ t.out = .msg .linkRekey p [a.own] [] :: s.out ∧ Only [.edg, .out] s t := by
  have hport : a.port = p := port_of_agreeOf ha
  refine ⟨send .linkRekey p [a.own] (setAgree { a with since := s.ft } s), ?_, agreeOf_setAgree ha hport, rfl,
    (only_setAgree _ s).seq (only_send _ _ _ _)⟩
  change execRekeyResend p s = _
  simp [execRekeyResend, ha, hb, hpeer, ht]

/-! ### REKEY_ACKs (R511, R512) -/

/-- R511: an answer is noted with the agreement, and compared. -/
theorem exec_rekeyAck (ha : agreeOf s p = some a) : exec (.rekeyAck p q) s = .next (agreeCheck p (setAgree { a with got := some q } s)) := by
  change execRekeyAck p q s = _
  simp only [execRekeyAck, ha]

theorem agreeCheck_waits (ha : agreeOf s p = some a) (he : a.epoch = some e) (hq : a.got = some q) (hs : a.sent = false) :
    agreeCheck p s = s := by
  simp [agreeCheck, ha, he, hq, hs]

theorem agreeCheck_equal (ha : agreeOf s p = some a) (he : a.epoch = some e) (hq : a.got = some e) (hs : a.sent = true) :
    agreeCheck p s = finishAgree a e s := by
  simp [agreeCheck, ha, he, hq, hs]

theorem rekeyAck_waits (ha : agreeOf s p = some a) (he : a.epoch = some e) (hs : a.sent = false) : Answers (.rekeyAck p q) s fun t =>
    agreeOf t p = some { a with got := some q } ∧ Only [.edg] s t := by
  have hport : a.port = p := port_of_agreeOf ha
  have hset : agreeOf (setAgree { a with got := some q } s) p = some { a with got := some q } := agreeOf_setAgree ha hport
  exact ⟨_, (exec_rekeyAck ha).trans (congrArg Host.Outcome.next (agreeCheck_waits hset he rfl hs)), hset, only_setAgree _ s⟩

theorem nextAgree_none (h : s.edg.agrees = []) : nextAgree tag s = s := by simp [nextAgree, h]

/-- The only agreement has ended. -/
def agreesDone (s : State) : State := modEdge (fun e => { e with agrees := [] }) s

theorem dropAgree_only (h : s.edg.agrees = [a]) : dropAgree a.port s = agreesDone s := by
  simp [dropAgree, agreesDone, modEdge, h]

/-- R512: the port with the link keys of epoch `e`. -/
def keyedPort (e ft : Nat) (x : Port) : Port :=
  { x with keyed := true, since := ft, txEpoch := e, rxEpoch := e, txPhase := false, rxPhase := false, txCtr := 0, txAt := ft, rxCtr := 0,
           rxNext := none }

/-- R460: the port that sends with the keys of epoch `e` from now on, and receives with them from the other end's first such group. -/
def rekeyedPort (e ft : Nat) (x : Port) : Port :=
  { x with txEpoch := e, txPhase := !x.txPhase, txCtr := 0, txAt := ft, rxNext := some e }

theorem finishAgree_keys (ha : s.edg.agrees = [a]) (hr : a.rekey = false) :
    finishAgree a e s = send .linkCredit a.port s.cmp.active.linkCredits
      (setPort a.port (keyedPort e s.ft (port s a.port)) (agreesDone s)) := by
  simp only [finishAgree, dropAgree_only ha, hr]
  exact nextAgree_none rfl

theorem finishAgree_rekeys (ha : s.edg.agrees = [a]) (hr : a.rekey = true) (hst : (port s a.port).st = .up) :
    finishAgree a e s = setPort a.port (rekeyedPort e s.ft (port s a.port)) (agreesDone s) := by
  have hnot : ((rebaseCtr s (port s a.port)).st == .stopped) = false := by rw [rebaseCtr, hst]; rfl
  simp only [finishAgree, dropAgree_only ha, hr, hnot]
  exact nextAgree_none rfl

/-- The answer that equals the epoch of the only agreement ends it. -/
theorem exec_rekeyAck_equal (ha : s.edg.agrees = [a]) (he : a.epoch = some e) (hs : a.sent = true) :
    exec (.rekeyAck a.port e) s = .next (finishAgree { a with got := some e } e (setAgree { a with got := some e } s)) := by
  have hmine : agreeOf s a.port = some a := by simp [agreeOf, ha]
  have hset : agreeOf (setAgree { a with got := some e } s) a.port = some { a with got := some e } := agreeOf_setAgree hmine rfl
  exact (exec_rekeyAck hmine).trans (congrArg Host.Outcome.next (agreeCheck_equal hset he rfl hs))

theorem agrees_setAgree_only {b : Agree} (ha : s.edg.agrees = [a]) (hb : b.port = a.port) : (setAgree b s).edg.agrees = [b] := by
  simp [setAgree, modEdge, ha, hb]

theorem only_agreesDone (b : Agree) (s : State) : Only [.edg] s (agreesDone (setAgree b s)) := (only_setAgree b s).trans (only_modEdge _ _)

theorem rekeyAck_keys (ha : s.edg.agrees = [a]) (hr : a.rekey = false) (he : a.epoch = some e) (hs : a.sent = true) :
    Answers (.rekeyAck a.port e) s fun t => port t a.port = keyedPort e s.ft (port s a.port) ∧ t.edg.agrees = [] ∧
      t.out = .msg .linkCredit a.port s.cmp.active.linkCredits [] :: s.out ∧ Only [.edg, .out] s t :=
  ⟨_, (exec_rekeyAck_equal ha he hs).trans (congrArg Host.Outcome.next
      (finishAgree_keys (a := { a with got := some e }) (agrees_setAgree_only ha rfl) hr)),
    port_setPort_same .., rfl, rfl, ((only_agreesDone _ s).trans (only_setPort _ _ _)).seq (only_send _ _ _ _)⟩

theorem rekeyAck_rekeys (ha : s.edg.agrees = [a]) (hr : a.rekey = true) (he : a.epoch = some e) (hs : a.sent = true)
    (hst : (port s a.port).st = .up) :
    Answers (.rekeyAck a.port e) s fun t => port t a.port = rekeyedPort e s.ft (port s a.port) ∧ t.edg.agrees = [] ∧ Only [.edg] s t :=
  ⟨_, (exec_rekeyAck_equal ha he hs).trans (congrArg Host.Outcome.next
      (finishAgree_rekeys (a := { a with got := some e }) (agrees_setAgree_only ha rfl) hr hst)),
    port_setPort_same .., rfl, (only_agreesDone _ s).trans (only_setPort _ _ _)⟩

/-! ### Times (R471, R513) -/

/-- R538: a port without an agreement has none to end as it returns to step 1. -/
theorem toStep1_idle (h : agreeOf s p = none) : toStep1 p s = setPort p (cleared s (port s p) .down) s := by
  have hidle : agreeOf (setPort p (cleared s (port s p) .down) s) p = none := h
  change endAgree p (setPort p (cleared s (port s p) .down) s) = _
  simp only [endAgree, hidle]

theorem linkStepTimeout_training (hm : (port s p).mode = .xcl) (hst : (port s p).st = .training) (ht : (port s p).since + 1000000 < s.ft)
    (h : agreeOf s p = none) : exec (.linkStepTimeout p) s = .next (setPort p (cleared s (port s p) .down) s) := by
  rw [← toStep1_idle h]
  change execLinkStepTimeout p s = _
  simp [execLinkStepTimeout, hm, hst, ht]

theorem linkStepTimeout_down (hm : (port s p).mode = .xcl) (hst : (port s p).st = .down) (ht : (port s p).since + 51000000 < s.ft) :
    exec (.linkStepTimeout p) s = .next (setPort p { port s p with since := s.ft } s) := by
  change execLinkStepTimeout p s = _
  simp [execLinkStepTimeout, hm, hst, ht]

theorem bringupBackoffEnd_ends {b : Nat} (hb : (port s p).backoff = some b) (ht : b ≤ s.ft) :
    exec (.bringupBackoffEnd p) s = .next (setPort p { port s p with backoff := none } s) :=
  congrArg Host.Outcome.next (if_pos (by simp [hb, ht]))

theorem bringupBackoffEnd_early {b : Nat} (hb : (port s p).backoff = some b) (ht : s.ft < b) :
    Answers (.bringupBackoffEnd p) s fun t => t = s :=
  ⟨s, congrArg Host.Outcome.next (if_neg (by simp [hb, ht])), rfl⟩

/-- Settles O52: each message and each time is the lemma on what it does to the port and its agreement; one that comes too early or of
another version leaves the state (entry 17). -/
theorem linkBringup : Obligations.LinkBringup := by
  refine ⟨?train, ?eth, ?noPeer, ?hello, ?version, ?rekey, ?used, ?commit, ?zero, ?resend, ?keys, ?rekeys, ?waits, ?training, ?down, ?backoff,
    ?early⟩
  case train => rintro s p _ rfl hm hpeer hst hg hb hc; exact sent_answers (linkAligned_trains hm hpeer hst hg hb hc)
  case eth => rintro s p _ rfl hm hst hg hb hc; exact setPort_answers (linkAligned_eth hm hst hg hb hc)
  case noPeer => rintro s p _ rfl hm hpeer; exact linkAligned_noPeer hm hpeer
  case hello =>
    rintro s p _ role spare r tag rfl _ hp hst hi hpeer hr hv halone
    exact hello_proposes hp hst ⟨(peerOfPort_face hp).trans hpeer, hi, hr, halone⟩ hv
  case version => exact fun s p version role spare hv => hello_otherVersion hv
  case rekey =>
    rintro s p _ r tag rfl hm hp hst hc hi hpeer hr hv halone
    exact rekeyStart_proposes hm hst hc ⟨(peerOfPort_face hp).trans hpeer, hi, hr, halone⟩ hv
  case used =>
    intro s p r tag hm hp hst hc hi hpeer hr hv halone
    exact rekeyStart_refuses hm hst hc ⟨(peerOfPort_face hp).trans hpeer, hi, hr, halone⟩ hv
  case commit => exact fun s p e a r hst he ha hpeer hb hc hr => rekey_commits hst he ha hpeer hb hc hr
  case zero => exact fun s p hst => rekey_zero hst
  case resend => exact fun s p a ha hb hpeer ht => rekeyResend_sends ha hb hpeer ht
  case keys => rintro s _ a e ha rfl hr he hs; exact rekeyAck_keys ha hr he hs
  case rekeys => rintro s _ a e ha rfl hr he hs hst; exact rekeyAck_rekeys ha hr he hs hst
  case waits => exact fun s p a e q ha he hs => rekeyAck_waits ha he hs
  case training => rintro s p _ rfl hm hst ht hi; exact setPort_answers (linkStepTimeout_training hm hst ht hi)
  case down => rintro s p _ rfl hm hst ht; exact setPort_answers (linkStepTimeout_down hm hst ht)
  case backoff => exact fun s p a ha ht => setPort_answers (bringupBackoffEnd_ends ha ht)
  case early => exact fun s p a ha ht => bringupBackoffEnd_early ha ht

end Sys2Proof.Machine
end

section
/-!
Flit groups, replay, credit and ports that go down (R434, R457 to R460, R463, R468, R472, R513).
-/
namespace Sys2Proof.Machine

variable {s t : State} {p : Nat} {x : Port} {g : GroupRx} {k : Packet} {c : Cpl} {st : LinkState}

/-! ### The messages held for a port (R472) -/

theorem dropHeld_none (h : ∀ k ∈ s.arc.packets, k.out ≠ p) : dropHeld p c s = s := by
  have hmine : (s.arc.packets.filter fun k => k.out == p) = [] := List.filter_eq_nil_iff.2 fun k hk => by simpa using h k hk
  have hrest : (s.arc.packets.filter fun k => k.out != p) = s.arc.packets := List.filter_eq_self.2 fun k hk => by simpa using h k hk
  simp only [dropHeld, hmine, List.foldl_nil, modArc, hrest]

/-- The state with packet `k`, the only one, dropped and its cells given back. -/
def unheld (k : Packet) (s : State) : State := giveCells k.rsv k.part (cellsOf k.len) (modArc (fun a => { a with packets := [] }) s)

theorem only_unheld (k : Packet) (s : State) : Only [.arc, .lat] s (unheld k s) := (only_modArc _ s).seq (only_lat _ _)

theorem dropHeld_one (h : s.arc.packets = [k]) (hk : k.posted = false) (hc : c.status ≠ .refused) :
    dropHeld k.out c s = reply k.who c (unheld k s) := by
  simp [dropHeld, h, hk, hc, unheld, modArc]

/-! ### A port goes down (R460, R472) -/

theorem cleared_st (s : State) (x : Port) (st : LinkState) : (cleared s x st).st = st := rfl

theorem cleared_authFails (s : State) (x : Port) (st : LinkState) : (cleared s x st).authFails = x.authFails := by
  unfold cleared
  cases x.cal with
  | none => rfl
  | some c => dsimp only; split <;> rfl

theorem cleared_authRun (s : State) (x : Port) (st : LinkState) : (cleared s x st).authRun = x.authRun := by
  unfold cleared
  cases x.cal with
  | none => rfl
  | some c => dsimp only; split <;> rfl

/-- An XCL port of no coherency domain, UP or STOPPED, with no agreement of its own: only what is held for it remains to be dropped. -/
theorem portDown_xcl (hm : (port s p).mode = .xcl) (hc : (port s p).coherent = false) (hst : (port s p).st = .up ∨ (port s p).st = .stopped)
    (hp : isPair p = false) (ha : agreeOf s p = none) :
    portDown p s = dropHeld p cTimeout (setPort p (cleared s (port s p) .down) s) := by
  rcases hst with hst | hst <;> simp [portDown, toStep1_idle ha, hm, hc, hst, hp]

theorem portDown_unused (hm : (port s p).mode = .xcl) (hc : (port s p).coherent = false) (hst : (port s p).st = .up ∨ (port s p).st = .stopped)
    (hp : isPair p = false) (ha : agreeOf s p = none) (hk : ∀ k ∈ s.arc.packets, k.out ≠ p) :
    portDown p s = setPort p (cleared s (port s p) .down) s :=
  (portDown_xcl hm hc hst hp ha).trans (dropHeld_none hk)

theorem portDown_completes {a node tag : Nat} (hm : (port s k.out).mode = .xcl) (hc : (port s k.out).coherent = false)
    (hst : (port s k.out).st = .up) (hp : isPair k.out = false) (ha : agreeOf s k.out = none) (hk : s.arc.packets = [k])
    (hposted : k.posted = false) (hwho : k.who = .port a node tag) : Answers (.portDown k.out) s fun t =>
      port t k.out = cleared s (port s k.out) .down ∧ t.arc.packets = [] ∧ Told s t k.who cTimeout ∧ Only [.edg, .arc, .lat, .out] s t := by
  let u := setPort k.out (cleared s (port s k.out) .down) s
  have honly : Only [.edg, .arc, .lat] s (unheld k u) := (only_setPort _ _ s).seq (only_unheld k u)
  obtain ⟨htold, hall⟩ := told_after (who := k.who) (c := cTimeout) honly (by decide)
  refine ⟨_, congrArg Host.Outcome.next (portDown_xcl hm hc (.inl hst) hp ha), ?_⟩
  rw [dropHeld_one (s := u) hk hposted (by decide), hwho, reply_port, ← hwho]
  exact ⟨(port_of_only (only_unheld k u) (by decide) k.out).trans (port_setPort_same ..), rfl, htold, hall⟩

theorem portDown_refused (h : (port s p).st = .refused) : portDown p s = s := if_pos (by simp [h])

/-- R460: with nothing held for it a port that stops only stops. -/
theorem portStopped_stops (hm : (port s p).mode = .xcl) (hst : (port s p).st = .up) (hp : isPair p = false)
    (hc : 2 ^ 44 ≤ txCtrOf s (port s p)) (hk : ∀ k ∈ s.arc.packets, k.out ≠ p) :
    exec (.portStopped p) s = .next (setPort p { rebaseCtr s (port s p) with st := .stopped } s) := by
  have hdrop : dropHeld p (cRef .epochExhausted) (setPort p { rebaseCtr s (port s p) with st := .stopped } s) =
      setPort p { rebaseCtr s (port s p) with st := .stopped } s := dropHeld_none hk
  rw [← hdrop]
  refine congrArg Host.Outcome.next ((if_pos (by simpa [hst, hm] using hc)).trans ?_)
  rw [hp]
  rfl

/-! ### Groups received (R458, R463) -/

/-- An XCL or pair port that is up receives groups. -/
theorem groupRx_open (hm : (port s p).mode = .xcl ∨ (port s p).mode = .pair) (hst : (port s p).st = .up) (hk : g.kind ≠ .other) :
    ¬ ((port s p).st = .down || (port s p).st = .refused || ((port s p).mode != .xcl && (port s p).mode != .pair) || g.kind = .other) = true := by
  rcases hm with hm | hm <;> simp [hm, hst, hk]

theorem groupRx_corrupt (hm : (port s p).mode = .xcl ∨ (port s p).mode = .pair) (hst : (port s p).st = .up) (hk : g.kind ≠ .other)
    (hcrc : g.crcOk = false) (hbad : g.badLanes = []) : groupRx p g s = send .groupNak p [(port s p).rxSeq]
      (setPort p { port s p with corrupt := sat 16 (port s p).corrupt, rxCtr := (port s p).rxCtr + 1 } s) := by
  refine (if_neg (groupRx_open hm hst hk)).trans ((if_pos (by simp [hcrc])).trans ?_)
  rw [hbad]
  rfl

/-- The port once a group has verified under the current keys. -/
def verified (ft : Nat) (x : Port) : Port := { x with rxCtr := x.rxCtr + 1, authRun := 0, backoff := none, lastGood := ft }

/-- R458: the checks of a whole DATA group, in their order. -/
theorem groupRx_data (hm : (port s p).mode = .xcl ∨ (port s p).mode = .pair) (hst : (port s p).st = .up) (hk : g.kind = .data)
    (hcrc : g.crcOk = true) (hbad : g.badLanes = []) (hnext : (port s p).rxNext = none) :
    groupRx p g s = if g.ctrLow != (port s p).rxCtr % 4294967296 then portDown p s else if !g.tagOk then authFail p s
      else if g.lenBad then portDown p s else
        let u := takeSeq p g (setPort p (ackUpTo g.ack s (verified s.ft (port s p))) s)
        if g.nak then replay p u else u := by
  refine (if_neg (groupRx_open hm hst (by rw [hk]; decide))).trans ((if_neg (by simp [hcrc, hbad])).trans ((if_neg (by simp [hk])).trans ?_))
  have hsame : ((port s p).rxNext.isSome && g.phase != (port s p).rxPhase) = false := by rw [hnext]; rfl
  simp only [hsame, hk, Bool.false_eq_true, if_false, if_true]
  rfl

theorem ackUpTo_none {a : Nat} (h : x.unacked = []) : ackUpTo a s x = x := if_neg (by simp [h])

theorem takeSeq_next (hseq : g.seq = (port s p).rxSeq) (hmsg : g.msg = none) :
    takeSeq p g s = send .groupAck p [g.seq] (setPort p { port s p with rxSeq := ((port s p).rxSeq + 1) % 4096 } s) := by
  simp only [takeSeq, hseq, hmsg, if_true]

theorem flitGroupRx_acks (hm : (port s p).mode = .xcl ∨ (port s p).mode = .pair) (hst : (port s p).st = .up) (hk : g.kind = .data)
    (hcrc : g.crcOk = true) (hbad : g.badLanes = []) (hnext : (port s p).rxNext = none) (hctr : g.ctrLow = (port s p).rxCtr % 4294967296)
    (htag : g.tagOk = true) (hlen : g.lenBad = false) (hseq : g.seq = (port s p).rxSeq) (hnak : g.nak = false) (hmsg : g.msg = none)
    (hun : (port s p).unacked = []) : exec (.flitGroupRx p g) s = .next (send .groupAck p [g.seq]
      (setPort p { verified s.ft (port s p) with rxSeq := ((port s p).rxSeq + 1) % 4096 } (setPort p (verified s.ft (port s p)) s))) := by
  have hver : port (setPort p (verified s.ft (port s p)) s) p = verified s.ft (port s p) := port_setPort_same ..
  have hacked : ackUpTo g.ack s (verified s.ft (port s p)) = verified s.ft (port s p) := ackUpTo_none hun
  have htake := takeSeq_next (s := setPort p (verified s.ft (port s p)) s) (hseq.trans (congrArg Port.rxSeq hver).symm) hmsg
  rw [hver] at htake
  refine congrArg Host.Outcome.next ((groupRx_data hm hst hk hcrc hbad hnext).trans ?_)
  rw [if_neg (by simp [hctr]), if_neg (by simp [htag]), if_neg (by simp [hlen]), hacked, htake]
  exact if_neg (by simp [hnak])

/-- The port once a tag has failed to verify. -/
def tagFailed (x : Port) : Port := { x with authFails := sat 16 x.authFails, authRun := x.authRun + 1 }

/-- R513: the port that waits from `ft` on, where `run` tags in a row have failed and that is eight or more. -/
def backedOff (run ft : Nat) (x : Port) : Port := { x with backoff := if 8 ≤ run then some (ft + 1000000000) else none }

/-- The state once the failed tag is counted and reported. -/
def authNoted (p : Nat) (s : State) : State :=
  report .edgAuthFail .edge (port (setPort p (tagFailed (port s p)) s) p).part [p] (setPort p (tagFailed (port s p)) s)

theorem authFail_eq (p : Nat) (s : State) :
    authFail p s = modPort p (backedOff ((port s p).authRun + 1) (authNoted p s).ft) (portDown p (authNoted p s)) := rfl

theorem authNoted_reports (p : Nat) (s : State) : Only [.cmp] (setPort p (tagFailed (port s p)) s) (authNoted p s) := only_report _ _ _ _ _

theorem port_authNoted (p : Nat) (s : State) : port (authNoted p s) p = tagFailed (port s p) :=
  (port_of_only (authNoted_reports p s) (by decide) p).trans (port_setPort_same ..)

theorem portDown_authNoted (hm : (port s p).mode = .xcl) (hc : (port s p).coherent = false) (hst : (port s p).st = .up)
    (hp : isPair p = false) (ha : agreeOf s p = none) (hk : ∀ k ∈ s.arc.packets, k.out ≠ p) :
    portDown p (authNoted p s) = setPort p (cleared (authNoted p s) (tagFailed (port s p)) .down) (authNoted p s) := by
  have hport := port_authNoted p s
  have hedg : (authNoted p s).edg = (setPort p (tagFailed (port s p)) s).edg := authNoted_reports p s .edg (by decide)
  have harc : (authNoted p s).arc = s.arc := authNoted_reports p s .arc (by decide)
  rw [portDown_unused (by rw [hport]; exact hm) (by rw [hport]; exact hc) (by rw [hport]; exact .inl hst) hp
    (by rw [agreeOf, hedg]; exact ha) (by rw [harc]; exact hk), hport]

/-- R458, R513: the port that has seen a tag fail goes down, and after eight in a row waits. -/
theorem authFail_setPort (hm : (port s p).mode = .xcl) (hc : (port s p).coherent = false) (hst : (port s p).st = .up)
    (hp : isPair p = false) (ha : agreeOf s p = none) (hk : ∀ k ∈ s.arc.packets, k.out ≠ p) :
    ∃ u, Only [.edg, .cmp] s u ∧ u.ft = s.ft ∧ authFail p s =
      setPort p (backedOff ((port s p).authRun + 1) u.ft (cleared u (tagFailed (port s p)) .down))
        (setPort p (cleared u (tagFailed (port s p)) .down) u) := by
  refine ⟨authNoted p s, (only_setPort p _ s).seq (authNoted_reports p s), authNoted_reports p s .ft (by decide), ?_⟩
  rw [authFail_eq, portDown_authNoted hm hc hst hp ha hk, modPort, port_setPort_same]

theorem authFail_port (hm : (port s p).mode = .xcl) (hc : (port s p).coherent = false) (hst : (port s p).st = .up) (hp : isPair p = false)
    (ha : agreeOf s p = none) (hk : ∀ k ∈ s.arc.packets, k.out ≠ p) :
    (port (authFail p s) p).st = .down ∧ (port (authFail p s) p).authFails = sat 16 (port s p).authFails ∧
      (port (authFail p s) p).authRun = (port s p).authRun + 1 ∧
      (port (authFail p s) p).backoff = (if 8 ≤ (port s p).authRun + 1 then some (s.ft + 1000000000) else none) ∧
      Only [.edg, .cmp] s (authFail p s) := by
  obtain ⟨u, hu, hft, hall⟩ := authFail_setPort hm hc hst hp ha hk
  rw [hall, port_setPort_same, hft]
  refine ⟨rfl, cleared_authFails u _ .down, cleared_authRun u _ .down, rfl, hu.trans ?_⟩
  exact ((only_setPort p _ u).trans (only_setPort p _ _)).mono (by decide)

/-! ### Replay (R459) -/

theorem exec_replayTimeout (hm : (port s p).mode ≠ .eth) (hst : (port s p).st = .up) (hun : (port s p).unacked ≠ [])
    (ht : (port s p).progress + s.edg.replayTmo ≤ s.ft) : exec (.replayTimeout p) s = .next (replay p s) :=
  congrArg Host.Outcome.next (if_pos (by simp [hm, hst, hun, ht]))

theorem replay_sends (hun : (port s p).unacked ≠ []) (hu : ∀ u ∈ (port s p).unacked, u.tries < 8) :
    replay p s = send .groupReplay p ((port s p).unacked.map (·.seq)) (setPort p { port s p with
      unacked := (port s p).unacked.map (fun u => { u with tries := u.tries + 1 }), replays := sat 16 (port s p).replays, progress := s.ft } s) := by
  have hfew : ¬ ((port s p).unacked.any fun u => decide (8 ≤ u.tries)) = true := by simpa using hu
  exact (if_neg (by simp [hun])).trans (if_neg hfew)

theorem replay_gives_up (hun : (port s p).unacked ≠ []) (hu : ∃ u ∈ (port s p).unacked, 8 ≤ u.tries) : replay p s = portDown p s :=
  (if_neg (by simp [hun])).trans (if_pos (by simpa using hu))

/-! ### Credit, and the other end's PAUSE (R434, R467, R468, R471) -/

theorem credit_adds {part a : Nat} (hm : (port s p).mode = .xcl ∨ (port s p).mode = .pair) (hst : (port s p).st = .up) :
    exec (.credit p part [a]) s = .next (setPort p { port s p with credits := (port s p).credits.mod (creditKey p part 0) (· + a) } s) := by
  change execCredit p part [a] s = _
  rcases hm with hm | hm <;> simp [execCredit, hm, hst]

theorem credit_goesUp {part : Nat} (hm : (port s p).mode = .xcl) (hp : isPair p = false) (hst : (port s p).st = .keying)
    (hk : (port s p).keyed = true) : exec (.credit p part []) s = .next
      (setPort p { port s p with st := .up, since := s.ft, txAt := s.ft, lastGood := s.ft } (setPort p (port s p) s)) := by
  have hup : goUp p (setPort p (port s p) s) =
      setPort p { port s p with st := .up, since := s.ft, txAt := s.ft, lastGood := s.ft } (setPort p (port s p) s) := by
    rw [goUp, hp, modPort, port_setPort_same]
    rfl
  exact congrArg Host.Outcome.next ((if_neg (by simp [hm, hst, hk])).trans ((if_pos hst).trans hup))

/-- R434: what a PAUSE does to each class. -/
def linkPauseStep (p mask time : Nat) (s : State) (i : Nat) : State := if bitOf mask i then pauseKey p (p * 16 + i) time s else s

theorem linkPause_pauses {mask time i : Nat} (hm : (port s p).mode = .xcl) (hst : (port s p).st = .up) (hi : i < 5)
    (hmask : bitOf mask i = true) (ht : time ≠ 0) : Answers (.linkPause p mask time) s fun t =>
      t.arc.paused.get (p * 16 + i) = s.ft + quantaNs s p time ∧ Only [.arc] s t := by
  have hf : Pauses p (bitOf mask) (fun _ => time) s (linkPauseStep p mask time) := fun _ _ _ => rfl
  refine ⟨(List.range 5).foldl (linkPauseStep p mask time) s, congrArg Host.Outcome.next (if_pos (by simp [hm, hst])), ?_,
    hf.only_foldl (.refl _ s)⟩
  exact hf.paused_foldl (.refl _ s) (by simpa using hi) hmask ht

/-- Settles O51: a group is taken through its checks in R458's order, and a port that goes down is `cleared` and drops what is held for it. -/
theorem linkGroups : Obligations.LinkGroups := by
  refine ⟨?acks, ?corrupt, ?counter, ?tag, ?down, ?held, ?refused, ?stopped, ?replays, ?tries, ?credit, ?up, ?pause⟩
  case acks =>
    rintro s p _ g rfl hm hst hk hcrc hbad hnext hctr htag hlen hseq hnak hmsg hun
    exact sent_answersFrom (only_setPort p _ s) (flitGroupRx_acks hm hst hk hcrc hbad hnext hctr htag hlen hseq hnak hmsg hun)
  case corrupt =>
    rintro s p _ g rfl hm hst hk hcrc hbad
    exact sent_answers (congrArg Host.Outcome.next (groupRx_corrupt hm hst hk hcrc hbad))
  case counter =>
    rintro s p _ g rfl hm hst hk hcrc hbad hnext hctr
    exact ⟨_, congrArg Host.Outcome.next ((groupRx_data hm hst hk hcrc hbad hnext).trans (if_pos (by simpa using hctr))), _, rfl, rfl⟩
  case tag =>
    rintro s p _ g rfl hm hc hst hk hcrc hbad hnext hctr htag hp ha hheld
    obtain ⟨hdown, hfails, hrun, hback, honly⟩ := authFail_port hm hc hst hp ha hheld
    have hgroup : groupRx p g s = authFail p s :=
      (groupRx_data (.inl hm) hst hk hcrc hbad hnext).trans ((if_neg (by simp [hctr])).trans (if_pos (by simp [htag])))
    exact ⟨_, congrArg Host.Outcome.next hgroup, hdown, hfails, hrun, hback, honly .mem (by decide), honly .mer (by decide)⟩
  case down =>
    rintro s p _ rfl hm hc hst hp ha hheld
    exact setPort_answers (congrArg Host.Outcome.next (portDown_unused hm hc hst hp ha hheld))
  case held =>
    rintro s _ _ k a node tag rfl hm hc hst hp ha hk rfl hposted hwho
    exact portDown_completes hm hc hst hp ha hk hposted hwho
  case refused => exact fun s p h => ⟨_, congrArg Host.Outcome.next (portDown_refused h), rfl⟩
  case stopped =>
    rintro s p _ rfl hm hst hp hc hheld
    exact setPort_answers (portStopped_stops hm hst hp hc hheld)
  case replays =>
    rintro s p _ rfl hm hst hun hu ht
    have hnot : (port s p).mode ≠ .eth := by rcases hm with hm | hm <;> rw [hm] <;> decide
    exact sent_answers ((exec_replayTimeout hnot hst hun ht).trans (congrArg Host.Outcome.next (replay_sends hun hu)))
  case tries =>
    rintro s p _ rfl hm hst hun hu ht
    have hnot : (port s p).mode ≠ .eth := by rw [hm]; decide
    exact ⟨_, (exec_replayTimeout hnot hst hun ht).trans (congrArg Host.Outcome.next (replay_gives_up hun hu)), _, rfl, rfl⟩
  case credit =>
    rintro s p _ part a rfl hm hst
    exact setPort_answers (credit_adds hm hst)
  case up =>
    rintro s p _ part rfl hm hp hst hk
    exact setPort_answersFrom (only_setPort p _ s) (credit_goesUp hm hp hst hk)
  case pause => exact fun s p mask time i hm hst hi hmask ht => linkPause_pauses hm hst hi hmask ht

end Sys2Proof.Machine
end

section
/-!
The end of an energy epoch, and the pause that is sent again (R565, R566, R568 to R571).
-/
namespace Sys2Proof.Machine

variable {s t : State} {p at_ : Nat}

/-! ### The epoch that ends (R566, R569, R571) -/

/-- R566: BASE, and what is kept of the measure, where no regulator is fitted. -/
def baseSettled (e : Energy) : Energy := { e with m := 0, lastM := 0, base := e.base + (-(e.d : Int) - e.base) / 16, lostReported := 0 }

theorem fittedList_none (h : s.cmp.active.energy.fitted = 0) : fittedList s = [] :=
  List.filter_eq_nil_iff.2 fun i _ => by simp [h, bitOf]

theorem settleBase_unfitted (h : s.cmp.active.energy.fitted = 0) : settleBase s = modEnergy baseSettled s := by
  simp [settleBase, measured, fittedList_none h, sumOf, modEnergy, baseSettled]

theorem settleDeficit_none (h : 0 ≤ s.cmp.energy.a) : settleDeficit s = s := if_neg (by simpa using h)

/-! ### The auditor's window (R428) -/

theorem assess_disabled (h : s.arc.auditEn = false) (f : FlowCfg) : assess f s = s := by simp [assess, h]

theorem only_modFlow (n : Nat) (f : FlowSt → FlowSt) (s : State) : Only [.arc] s (modFlow n f s) := only_modArc _ s

/-- A window that ends: the flows count from zero again. -/
def windowEnded (fs : List FlowCfg) (s : State) : State :=
  fs.foldl (fun s f => modFlow f.n (fun y => { y with winBytes := 0, backlog := waitsFor s f.n f.auditOut }) s) s

theorem only_windowEnded (fs : List FlowCfg) (s : State) : Only [.arc] s (windowEnded fs s) := .foldl fun t _ => only_modFlow _ _ t

theorem held_windowEnded (fs : List FlowCfg) (s : State) : (windowEnded fs s).arc.held = s.arc.held := by
  induction fs generalizing s with
  | nil => rfl
  | cons f fs ih => exact ih _

/-- The next window, with no tier noted yet. -/
def windowOpened (a : Arc) : Arc := { a with outs := a.outs.mapAll (fun _ o => { o with tier := [] }), noAssess := false, scrubbed := [] }

/-- With the auditor off a window ends with no flow assessed. -/
theorem auditWindow_disabled (h : s.arc.auditEn = false) :
    Only [.arc] s (auditWindow s) ∧ (auditWindow s).arc.held = s.arc.held := by
  have hassess : (s.cmp.active.flows.filter (·.audit)).foldl (fun s f => assess f s) s = s :=
    List.foldl_fixed' (assess_disabled h) _
  have hall : auditWindow s = modArc windowOpened (windowEnded (s.cmp.active.flows.filter (·.audit)) s) := by
    simp only [auditWindow, hassess]
    rfl
  rw [hall]
  exact ⟨(only_windowEnded _ s).trans (only_modArc _ _), held_windowEnded _ s⟩

/-! ### The epoch that opens (R566, R568, R569) -/

theorem admitHeld_idle (hq : s.eng.queues = []) (hi : s.eng.issued = []) (hh : s.arc.held = []) (hj : s.orb.jobs = []) :
    admitHeld s = s := by
  simp [admitHeld, hq, hi, hh, hj]

theorem fillsOpen_none (h : s.per.fills = []) : fillsOpen s = s := by simp [fillsOpen, h]

/-- R566: the account as an epoch opens that owes nothing and whose cap covers BASE. -/
def epochOpened (throttled : Bool) (ft : Nat) (e : Energy) : Energy :=
  { e with
    capW := e.capNext, r := 0, a := (e.capNext : Int) * 1000000 - e.base, aOpen := (e.capNext : Int) * 1000000 - e.base,
    d := 0, m := 0, sampled := 0, heldOrRefused := 0, fEnergy := clockFactor 0,
    f := if throttled then min 8 (clockFactor 0) else clockFactor 0, epoch := ft / 1000000, epochStart := ft,
    belowZero := false }

/-- Nothing waits for the opening of an epoch. -/
structure Quiet (s : State) : Prop where
  queues : s.eng.queues = []
  issued : s.eng.issued = []
  held : s.arc.held = []
  jobs : s.orb.jobs = []
  fills : s.per.fills = []

theorem openEpoch_quiet (h : Quiet s) (hd : s.cmp.energy.deficit = 0) (hp : s.cmp.energy.paused = false)
    (ha : s.cmp.energy.base ≤ (s.cmp.energy.capNext : Int) * 1000000) :
    openEpoch s = modEnergy (epochOpened s.cmp.throttled s.ft) s := by
  have hcover : ¬ ((s.cmp.energy.capNext : Int) * 1000000 - s.cmp.energy.base < 0) := by omega
  let u := modEnergy (epochOpened s.cmp.throttled s.ft) s
  have hidle : fillsOpen (admitHeld u) = u := by
    rw [admitHeld_idle (s := u) h.queues h.issued h.held h.jobs, fillsOpen_none (s := u) h.fills]
  refine Eq.trans ?_ hidle
  simp only [openEpoch, hd, hp, hcover, Nat.zero_min, Nat.cast_zero, sub_zero, Nat.sub_zero, if_true, decide_false, Bool.false_and, Bool.and_false,
    Bool.false_eq_true, if_false]
  refine congrArg (fun v => fillsOpen (admitHeld v)) (congrArg (fun e => { s with cmp := { s.cmp with energy := e } }) ?_)
  dsimp only [epochOpened]

/-- The state as an epoch ends that owes nothing: closed into the history, with the auditor's window over. -/
def epochClosed (s : State) : State := auditWindow (closeEpoch (modEnergy baseSettled s))

theorem exec_energyEpochEnd (hon : s.pins.porstN = true) (he : s.ft / 1000000 ≠ s.cmp.energy.epoch) (ha : 0 ≤ s.cmp.energy.a)
    (hf : s.cmp.active.energy.fitted = 0) : exec .energyEpochEnd s = .next (openEpoch (epochClosed s)) := by
  have hdeficit : settleDeficit (settleBase s) = modEnergy baseSettled s := by
    rw [settleBase_unfitted hf, settleDeficit_none (s := modEnergy baseSettled s) ha]
  rw [epochClosed, ← hdeficit]
  exact congrArg Host.Outcome.next (if_neg (by simp [hon, he]))

theorem energyEpochEnd_opens (hon : s.pins.porstN = true) (he : s.ft / 1000000 ≠ s.cmp.energy.epoch) (hd : s.cmp.energy.deficit = 0)
    (ha : 0 ≤ s.cmp.energy.a) (hp : s.cmp.energy.paused = false) (hq : Quiet s) (haudit : s.arc.auditEn = false)
    (hf : s.cmp.active.energy.fitted = 0) (hb : s.cmp.energy.base + (-(s.cmp.energy.d : Int) - s.cmp.energy.base) / 16 ≤ 500000000)
    (hcap : 500 ≤ s.cmp.energy.capNext) : Answers .energyEpochEnd s fun t =>
      t.cmp.energy.capW = s.cmp.energy.capNext ∧ t.cmp.energy.a = (s.cmp.energy.capNext : Int) * 1000000 - t.cmp.energy.base ∧
      t.cmp.energy.epoch = s.ft / 1000000 ∧ (t.cmp.energy.hist.head?.map (·.capW)) = some s.cmp.energy.capW ∧ t.mem = s.mem := by
  obtain ⟨honly, hheld⟩ := auditWindow_disabled (s := closeEpoch (modEnergy baseSettled s)) haudit
  have hcmp : (epochClosed s).cmp = (closeEpoch (modEnergy baseSettled s)).cmp := honly .cmp (by decide)
  have hft : (epochClosed s).ft = s.ft := honly .ft (by decide)
  have heng : (epochClosed s).eng = s.eng := honly .eng (by decide)
  have horb : (epochClosed s).orb = s.orb := honly .orb (by decide)
  have hper : (epochClosed s).per = s.per := honly .per (by decide)
  have hmem : (epochClosed s).mem = s.mem := honly .mem (by decide)
  have hquiet : Quiet (epochClosed s) :=
    ⟨by rw [heng, hq.queues], by rw [heng, hq.issued], hheld.trans hq.held, by rw [horb, hq.jobs], by rw [hper, hq.fills]⟩
  have hcover : (modEnergy baseSettled s).cmp.energy.base ≤ (s.cmp.energy.capNext : Int) * 1000000 := by
    change s.cmp.energy.base + (-(s.cmp.energy.d : Int) - s.cmp.energy.base) / 16 ≤ _
    omega
  have hopen := openEpoch_quiet hquiet (by rw [hcmp]; exact hd) (by rw [hcmp]; exact hp) (by rw [hcmp]; exact hcover)
  refine ⟨_, (exec_energyEpochEnd hon he ha hf).trans (congrArg Host.Outcome.next hopen), ?_, ?_, ?_, ?_, hmem⟩
  · change (epochClosed s).cmp.energy.capNext = _
    rw [hcmp]
    rfl
  · change ((epochClosed s).cmp.energy.capNext : Int) * 1000000 - (epochClosed s).cmp.energy.base = _ - (epochClosed s).cmp.energy.base
    rw [hcmp]
    rfl
  · change (epochClosed s).ft / 1000000 = _
    rw [hft]
  · change (epochClosed s).cmp.energy.hist.head?.map (·.capW) = _
    rw [hcmp]
    rfl

/-! ### The pause sent again (R570) -/

theorem energyPauseRefresh_sends (hp : s.cmp.energy.paused = true) (hf : s.cmp.energy.pauseAt.find? (fun e => e.1 == p) = some (p, at_))
    (ht : at_ + pauseHalf s p ≤ s.ft) : Answers (.energyPauseRefresh p) s fun t =>
      t.out = .msg .linkPause p [0x18, 0xFFFF] [] :: s.out ∧ Only [.cmp, .out] s t := by
  refine ⟨modEnergy (fun e => { e with pauseAt := e.pauseAt.put p s.ft }) (send .linkPause p [0x18, 0xFFFF] s), ?_, rfl,
    ((only_send _ _ _ _).seq (only_modEnergy _ _)).mono (by decide)⟩
  change execEnergyPauseRefresh p s = _
  simp only [execEnergyPauseRefresh, hf]
  exact congrArg Host.Outcome.next (if_pos (by simp [hp, ht]))

/-- Settles O6: with nothing owed and nothing waiting, an epoch's end is `epochClosed` and then `epochOpened`. -/
theorem energyEpoch : Obligations.EnergyEpoch := by
  refine ⟨?ends, ?again⟩
  case ends =>
    intro s hon he hd ha hp hq hi hh hj hfills haudit hf hb hcap
    exact energyEpochEnd_opens hon he hd ha hp ⟨hq, hi, hh, hj, hfills⟩ haudit hf hb hcap
  case again => exact fun s p at_ hp hf ht => energyPauseRefresh_sends hp hf ht

end Sys2Proof.Machine
end

section
/-!
Images, INIT, RUNNING and the resets that leave Compass (R541, R543, R547, R556, R593, R634). INIT and the steps into RUNNING are folds
over the image; what a statement names of their result is an observation that every step leaves.
-/
namespace Sys2Proof.Machine

variable {s t : State} {β δ : Type} {o : State → δ} {k tag roles : Nat} {hw : Hw} {i : Image}

/-- An observation that each step of a fold leaves is left by the fold. -/
theorem observed_foldl {f : State → β → State} (hf : ∀ t b, o (f t b) = o t) (l : List β) (s : State) : o (l.foldl f s) = o s :=
  Shows.foldl (o := o) (v := id) rfl fun t b h => (hf t b).trans h

/-! ### What INIT leaves (R541, R605) -/

/-- What INIT leaves of a state: how it was booted, the pool and its store, and a map with no page. -/
structure Booted where
  boot : BootState
  active : Image
  aFail : Nat
  bootFt : Nat
  warmResets : Nat
  ft : Nat
  pool : PoolHold
  poolGen : Nat
  store : Tab Rec
  mem : List Host.Cell
  pages : Tab PageEnt
  migs : List Migr

def booted (s : State) : Booted :=
  { boot := s.cmp.boot, active := s.cmp.active, aFail := s.cmp.aFail, bootFt := s.cmp.bootFt, warmResets := s.cmp.warmResets, ft := s.ft,
    pool := s.per.pool, poolGen := s.per.poolGen, store := s.per.store, mem := s.mem, pages := s.pln.pages, migs := s.pln.migs }

theorem booted_report (e : Ev) (b : Block) (part : Option Nat) (data : List Nat) (s : State) : booted (report e b part data s) = booted s :=
  Shows.reported (o := booted) (fun _ => rfl) rfl

theorem booted_recordRetired (r : Retired) (s : State) : booted (recordRetired r s) = booted s :=
  Shows.ite (o := booted) (v := id) rfl (booted_report ..)

/-- The clean copies in frames that satisfy `bad` are dropped. -/
def copiesFreed (bad : Frame → Bool) (s : State) : State :=
  { s with pln := { s.pln with copies := s.pln.copies.filter fun c => !bad { tier := .prism, n := c.frame } } }

/-- While no page is mapped and none migrates nothing is moved from the frames. -/
theorem booted_evacuate (bad : Frame → Bool) (hp : s.pln.pages = []) (hm : s.pln.migs = []) : booted (evacuate bad s) = booted s := by
  have hredirect : redirect bad s = s := by simp [redirect, hm]
  have hpages : pagesOn (copiesFreed bad s) bad = [] := by simp [pagesOn, copiesFreed, hp, Tab.idxs]
  unfold evacuate
  rw [hredirect]
  change booted ((pagesOn (copiesFreed bad s) bad).foldl _ (copiesFreed bad s)) = _
  rw [hpages]
  rfl

theorem booted_checkDegraded (s : State) : booted (checkDegraded s) = booted s :=
  Shows.ite (o := booted) (v := id) (booted_report ..) rfl

theorem booted_retireFrame (f : Frame) (hp : s.pln.pages = []) (hm : s.pln.migs = []) : booted (retireFrame f s) = booted s := by
  have hnoted (u : State) : booted (reportRetired 0 f.n (recordRetired (.frame f.tier.code f.n) u)) = booted u :=
    (booted_report ..).trans (booted_recordRetired ..)
  unfold retireFrame
  split
  · rfl
  · dsimp only
    rw [booted_checkDegraded, booted_evacuate, hnoted]
    · rfl
    · exact (congrArg Booted.pages (hnoted _)).trans hp
    · exact (congrArg Booted.migs (hnoted _)).trans hm

theorem booted_retireFrames (ns : List Nat) (hp : s.pln.pages = []) (hm : s.pln.migs = []) :
    booted (ns.foldl (fun s n => retireFrame { tier := .prism, n := n } s) s) = booted s := by
  induction ns generalizing s with
  | nil => rfl
  | cons n ns ih =>
    have hone := booted_retireFrame { tier := .prism, n := n } hp hm
    exact (ih ((congrArg Booted.pages hone).trans hp) ((congrArg Booted.migs hone).trans hm)).trans hone

theorem booted_initPlane (hw : Hw) (hp : s.pln.pages = []) (hm : s.pln.migs = []) : booted (initPlane hw s) = booted s :=
  booted_retireFrames _ hp hm

theorem booted_initStore (s : State) : booted (initStore s) = booted s :=
  observed_foldl (fun _ _ => booted_report ..) _ _

theorem booted_laneRetired (p l cause : Nat) (s : State) : booted (laneRetired p l cause s) = booted s :=
  (booted_report ..).trans (booted_recordRetired ..)

theorem booted_initPorts (hw : Hw) (s : State) : booted (initPorts hw s) = booted s :=
  (observed_foldl (fun _ _ => booted_laneRetired ..) _ _).trans (observed_foldl (fun _ _ => by rfl) _ _)

theorem booted_initMeridian (s : State) : booted (initMeridian s) = booted s :=
  (observed_foldl (fun _ _ => by rfl) _ _).trans
    ((observed_foldl (fun _ _ => observed_foldl (fun _ _ => by rfl) _ _) _ _).trans (observed_foldl (fun _ _ => by rfl) _ _))

theorem booted_initQps (s : State) : booted (initQps s) = booted s := observed_foldl (fun _ _ => by rfl) _ _

theorem booted_initFlows (s : State) : booted (initFlows s) = booted s := observed_foldl (fun _ _ => by rfl) _ _

theorem booted_loadRegs (s : State) : booted (loadRegs s) = booted s := rfl

/-- INIT once the self-test is done: the blocks are reset and the optics that are present are on. -/
def initHeld (hw : Hw) (s : State) : State :=
  modPins (fun p => { p with lsEn := p.lsPres })
    (modCmp (fun c => { c with bootFt := (bist hw (holdBlocks .init s)).ft, roleB := c.active.hdr.role == 1 }) (bist hw (holdBlocks .init s)))

/-- INIT's end: the pair link trains, and a switch whose partner is alive joins. -/
def initLinked (s : State) : State :=
  modPair (fun p => { p with joinStep := if p.aliveIn then 3 else 0 }) (modPer (fun p => { p with trainFt := some s.ft }) s)

theorem startInit_passed (s : State) (h : hw.bistFail % 65536 = 0) : startInit hw s =
    initLinked (loadRegs (initFlows (initQps (initMeridian (initPorts hw (initStore (initPlane hw (initHeld hw s)))))))) :=
  if_neg (by simp [h])

theorem booted_initLinked (s : State) : booted (initLinked s) = booted s := rfl

/-- R541, R543: INIT begins with every block but Compass reset. -/
theorem booted_startInit (s : State) (h : hw.bistFail % 65536 = 0) :
    booted (startInit hw s) = { booted (clearBlocks s) with boot := .init, bootFt := s.ft } := by
  rw [startInit_passed s h, booted_initLinked, booted_loadRegs, booted_initFlows, booted_initQps, booted_initMeridian, booted_initPorts,
    booted_initStore, booted_initPlane hw rfl rfl]
  rfl

/-! ### Images (R541, R547) -/

/-- R541: image A verifies and becomes the active one. -/
theorem exec_imageLoadDone_A (hb : s.cmp.boot = .loading) (ht : s.pins.thermtrip = false) (hi : s.cmp.imageB = false)
    (hn : s.cmp.nvmA.image = some i) (hc : nvmCause s s.cmp.nvmA = 0) : exec (.imageLoadDone hw) s = .next
      (startInit hw (loadEnergy { s with cmp := { s.cmp with aFail := 0, active := i } })) := by
  change execImageLoadDone hw s = _
  simp [execImageLoadDone, hb, ht, hi, hn, hc, modCmp]

theorem imageLoadDone_verified (hb : s.cmp.boot = .loading) (ht : s.pins.thermtrip = false) (hi : s.cmp.imageB = false)
    (hn : s.cmp.nvmA.image = some i) (hc : nvmCause s s.cmp.nvmA = 0) (hpass : hw.bistFail % 65536 = 0) :
    Answers (.imageLoadDone hw) s fun t =>
      t.cmp.boot = .init ∧ t.cmp.active = i ∧ t.cmp.aFail = 0 ∧ t.cmp.bootFt = s.ft ∧ t.mem = [] := by
  have hinit := booted_startInit (loadEnergy { s with cmp := { s.cmp with aFail := 0, active := i } }) hpass
  exact ⟨_, exec_imageLoadDone_A hb ht hi hn hc, congrArg Booted.boot hinit, congrArg Booted.active hinit, congrArg Booted.aFail hinit,
    congrArg Booted.bootFt hinit, congrArg Booted.mem hinit⟩

/-- R541, R547: image A refused, image B is read. -/
theorem imageLoadDone_refusedA (hb : s.cmp.boot = .loading) (ht : s.pins.thermtrip = false) (hi : s.cmp.imageB = false)
    (hc : nvmCause s s.cmp.nvmA ≠ 0) : Answers (.imageLoadDone hw) s fun t =>
      t.cmp = { s.cmp with aFail := nvmCause s s.cmp.nvmA, imageB := true } ∧ Only [.cmp] s t := by
  refine ⟨{ s with cmp := { s.cmp with aFail := nvmCause s s.cmp.nvmA, imageB := true } }, ?_, rfl, only_cmp _ s⟩
  change execImageLoadDone hw s = _
  cases hn : s.cmp.nvmA.image <;> simp [execImageLoadDone, hb, ht, hi, hn, hc, modCmp]

/-- R541, R547: both images refused, the switch is in RECOVERY. -/
theorem imageLoadDone_refusedB (hb : s.cmp.boot = .loading) (ht : s.pins.thermtrip = false) (hi : s.cmp.imageB = true)
    (hc : nvmCause s s.cmp.nvmB ≠ 0) : Answers (.imageLoadDone hw) s fun t =>
      t.cmp.boot = .recovery ∧ t.cmp.bFail = nvmCause s s.cmp.nvmB ∧ t.pair.aliveOut = false := by
  refine ⟨holdBlocks .recovery { s with cmp := { s.cmp with bFail := nvmCause s s.cmp.nvmB } }, ?_, rfl, rfl, rfl⟩
  change execImageLoadDone hw s = _
  cases hn : s.cmp.nvmB.image <;> simp [execImageLoadDone, hb, ht, hi, hn, hc, modCmp]

/-! ### RUNNING (R541, R593) -/

/-- What the steps after the switch has entered RUNNING leave. -/
def entered (s : State) : BootState × Bool × Nat × List Host.Cell × Pins × Tab Port :=
  (s.cmp.boot, s.pair.aliveOut, s.cmp.runSince, s.mem, s.pins, s.edg.ports)

theorem entered_report (e : Ev) (b : Block) (part : Option Nat) (data : List Nat) (s : State) : entered (report e b part data s) = entered s :=
  Shows.reported (o := entered) (fun _ => rfl) rfl

theorem entered_skipFt (at_ : Nat) (s : State) : entered (skipFt at_ s) = entered s :=
  (observed_foldl (fun _ _ => by dsimp only; split_ifs <;> rfl) _ _).trans
    (observed_foldl (fun _ _ => by dsimp only; split_ifs <;> rfl) _ _)

theorem entered_mirrorOnly (m : Mirror) (s : State) : entered (mirrorOnly m s) = entered s := by
  unfold mirrorOnly mirrorThen
  dsimp only
  split_ifs <;> rfl

theorem entered_sendMirror (s : State) : entered (sendMirror s) = entered s :=
  (observed_foldl (fun _ _ => entered_mirrorOnly ..) _ _).trans
    ((observed_foldl (fun _ _ => entered_mirrorOnly ..) _ _).trans (observed_foldl (fun _ _ => entered_mirrorOnly ..) _ _))

theorem entered_tryPair (s : State) : entered (tryPair s) = entered s :=
  Shows.ite (o := entered) (v := id) (entered_sendMirror _) rfl

theorem entered_sendStatement (s : State) : entered (sendStatement s) = entered s :=
  Shows.ite (o := entered) (v := id) rfl rfl

/-- R593: the switch runs, and asserts PAIR_ALIVE_OUT. -/
def runEntered (s : State) : State :=
  modPair (fun p => { p with aliveOut := true }) (modCmp (fun c => { c with boot := .running, runSince := s.ft }) s)

/-- The switch that has entered RUNNING, reported. -/
def runReported (s : State) : State := report .cmpBoot .compass none [b2n s.cmp.imageB + 256 * s.cmp.active.hdr.svn] s

/-- The whole seconds of fabric time before now count as passed. -/
def ppsCaughtUp (s : State) : State := modMer (fun m => { m with ppsLast := s.ft / 1000000000 }) s

/-- The occurrences before now count as passed, where fabric time has locked. -/
def ftCaughtUp (s : State) : State := if s.mer.everLocked then skipFt s.ft s else s

theorem entered_ppsCaughtUp (s : State) : entered (ppsCaughtUp s) = entered s := rfl

theorem entered_ftCaughtUp (s : State) : entered (ftCaughtUp s) = entered s := by
  unfold ftCaughtUp
  split
  · exact entered_skipFt _ s
  · rfl

theorem exec_initComplete (h : canRun s = true) :
    exec .initComplete s = .next (tryPair (sendStatement (ftCaughtUp (ppsCaughtUp (runReported (runEntered s)))))) :=
  congrArg Host.Outcome.next (if_neg (by simp [h]))

theorem initComplete_runs (h : canRun s = true) : Answers .initComplete s fun t =>
    t.cmp.boot = .running ∧ t.pair.aliveOut = true ∧ t.cmp.runSince = s.ft ∧ t.mem = s.mem ∧ t.pins = s.pins ∧ t.edg.ports = s.edg.ports := by
  have hview : entered (tryPair (sendStatement (ftCaughtUp (ppsCaughtUp (runReported (runEntered s)))))) = entered (runEntered s) := by
    rw [entered_tryPair, entered_sendStatement, entered_ftCaughtUp, entered_ppsCaughtUp, runReported, entered_report]
  simp only [entered, Prod.mk.injEq] at hview
  obtain ⟨hboot, halive, hsince, hmem, hpins, hports⟩ := hview
  exact ⟨_, exec_initComplete h, hboot, halive, hsince, hmem, hpins, hports⟩

/-! ### WARM_RST_N and REBOOT (R543, R556, R634) -/

theorem exec_warmRstN (hp : s.pins.porstN = true) (hb : s.cmp.boot = .init ∨ s.cmp.boot = .running ∨ s.cmp.boot = .halted)
    (ht : s.pins.thermtrip = false) (hl : s.pins.loss = false) (he : s.per.erased = false) : exec (.warmRstN hw) s = .next
      (startInit hw (modCmp (fun c => { c with warmResets := sat 16 c.warmResets }) s)) := by
  change execWarmRstN hw s = _
  rcases hb with hb | hb | hb <;> simp [execWarmRstN, hp, hb, ht, hl, he]

theorem warmRstN_restarts (hp : s.pins.porstN = true) (hb : s.cmp.boot = .init ∨ s.cmp.boot = .running ∨ s.cmp.boot = .halted)
    (ht : s.pins.thermtrip = false) (hl : s.pins.loss = false) (he : s.per.erased = false) (hpass : hw.bistFail % 65536 = 0) :
    Answers (.warmRstN hw) s fun t =>
      t.cmp.boot = .init ∧ t.cmp.active = s.cmp.active ∧ t.cmp.warmResets = sat 16 s.cmp.warmResets ∧ t.ft = s.ft ∧
      t.per.pool = s.per.pool ∧ t.per.poolGen = s.per.poolGen ∧ t.per.store = s.per.store ∧ t.mem = [] := by
  have hinit := booted_startInit (modCmp (fun c => { c with warmResets := sat 16 c.warmResets }) s) hpass
  exact ⟨_, exec_warmRstN hp hb ht hl he, congrArg Booted.boot hinit, congrArg Booted.active hinit, congrArg Booted.warmResets hinit,
    congrArg Booted.ft hinit, congrArg Booted.pool hinit, congrArg Booted.poolGen hinit, congrArg Booted.store hinit,
    congrArg Booted.mem hinit⟩

theorem exec_reboot {b : Bool} (h : Admits s k roles .admin) (hl : s.pins.loss = false) (he : s.per.erased = false)
    (hs : s.per.scrub = none) : exec (.reboot (.mgmt k tag roles) b) s = .next
      (reboot b (emit (.cpl (.mgmt k tag roles) cOk) (touchSession k false s))) := by
  change execReboot (.mgmt k tag roles) b s = _
  rw [execReboot, mgmtGate_admits h]
  simp [hl, he, hs, reply_mgmt]

/-- Settles O8: each image, INIT, RUNNING and each reset by what it leaves (`booted`, `entered`); that the warm reset keeps the pool and
REBOOT loses it are entries 60 and 64. -/
theorem boot : Obligations.Boot := by
  refine ⟨?verified, ?refusedA, ?refusedB, ?runs, ?warm, ?reboot⟩
  case verified => exact fun s hw i hb ht hi hn hc hpass => imageLoadDone_verified hb ht hi hn hc hpass
  case refusedA => exact fun s hw hb ht hi hc => imageLoadDone_refusedA hb ht hi hc
  case refusedB => exact fun s hw hb ht hi hc => imageLoadDone_refusedB hb ht hi hc
  case runs => exact fun s h => initComplete_runs h
  case warm => exact fun s hw hp hb ht hl he hpass => warmRstN_restarts hp hb ht hl he hpass
  case reboot =>
    exact fun s k tag roles b h hl he hs => ⟨_, exec_reboot h hl he hs, rfl, rfl, rfl, rfl, rfl, rfl, rfl, rfl, rfl, rfl⟩

end Sys2Proof.Machine
end
